-- ==== Sys2Proof/Word.lean ====
section
/-!
DEFINITION. Word.lean: the words of the TLG-4816 (R8, R15, R133) and their plainest arithmetic.
-/
namespace Sys2Proof

/-- One byte of T0, T1 or host memory. -/
abbrev Byte := BitVec 8

/-- A register value (R15). -/
abbrev Word := BitVec 32

/-- A 64-bit instruction word (R133) or 64-bit quantity. -/
abbrev DWord := BitVec 64

/-- A 128-bit descriptor slot (R138). -/
abbrev Slot := BitVec 128

/-- `⌈a / b⌉` on naturals. -/
abbrev ceilDiv (a b : Nat) : Nat := (a + b - 1) / b

end Sys2Proof
end

