-- ==== Sys2Proof/Args.lean ====
section
/-!
DEFINITION. Args.lean: the types of the operands that the commands of `Syntax.lean` carry from outside the part.
-/
namespace Sys2Proof

/-- One source of register accesses (O4 of R337): the PCI Express function, the HSP, or a control core. -/
inductive Iface where
  | pcie | hsp | cc (n : Fin 6)
  deriving DecidableEq, Repr

/-- An engine that runs slices, by its index (Table 4-3). -/
abbrev EngineId := Fin 33

/-- The operand fields of a format T word (Table 4-5). -/
structure TFields where
  mod : BitVec 8
  dst : BitVec 12
  srcA : BitVec 12
  srcB : BitVec 12
  srcC : BitVec 12
  deriving DecidableEq, Repr

/-- How the commit condition of a move is answered at its destination (R87, R92). -/
inductive CommitAnswer where
  /-- Every destination write was accepted, the commit read succeeded, or COMMIT arrived. -/
  | ok
  /-- A destination write to T0 or T1 was refused, at this address. -/
  | refused (addr : BitVec 44)
  /-- The commit read of a T2 move failed. -/
  | readFailed
  deriving DecidableEq, Repr

/-- What the host's own memory answers to a read or a write by the engine. -/
inductive HostAnswer where
  /-- The access completes. -/
  | ok
  /-- Unsupported Request, Completer Abort, poisoned data or completion timeout. -/
  | error
  deriving DecidableEq, Repr

/-- The events of R294. -/
inductive HostReset where
  | flr | hotReset | linkDown | d3hot
  deriving DecidableEq, Repr

/-- A reading of a temperature sensor in 0.25 °C, or a failure to convert (R361). -/
abbrev SensorReading := Option Int

/-- What one rail answered in a PMBus period (R368, R369). -/
inductive RailReading where
  /-- READ_POUT in mW, or READ_VOUT in mV and READ_IOUT in mA. -/
  | pout (mw : Nat)
  | voutIout (mv ma : Nat)
  /-- Not acknowledged, PEC failure or clock-low timeout. -/
  | failed
  deriving DecidableEq, Repr

/-- Activity of one 10 µs interval as the raw class estimates it gives, in mW (R371), for the class order of Table 12-3:
base, links, memory, compute. -/
structure RawEstimate where
  base : Nat
  links : Nat
  memory : Nat
  compute : Nat
  deriving DecidableEq, Repr

/-- Bytes that something outside the engine placed: an address and the bytes from there on. -/
structure HostBytes where
  addr : Nat
  bytes : List Byte
  deriving DecidableEq, Repr

/-- The body of ASK (Table 13-7). -/
structure AskBody where
  sc : Fin 64
  planId : Nat
  phase : Nat
  chunk : Nat
  size : Nat
  home : Fin 4
  deriving DecidableEq, Repr

/-- The body of ANSWER: the granted base and the SC number the destination will use, or a refusal with its DETAIL. -/
inductive AnswerBody where
  | grant (base : Nat)
  | refuse (detail : Nat)
  deriving DecidableEq, Repr

/-- A received flit (Tables 13-2 and 13-3), with whether its CRC was correct. -/
structure Flit where
  crcOk : Bool
  ftype : Nat
  cls : Nat
  seq : Nat
  len : Nat
  /-- A reserved bit of the flit was not 0. -/
  reserved : Bool
  /-- A link control flit with the retrain bit. -/
  retrain : Bool
  ack : Nat
  nak : Bool
  crClass : Nat
  credit : Nat
  deriving DecidableEq, Repr

/-- The payload of the link control flits of PARAM (R406). -/
structure ParamFlit where
  chip : Nat
  port : Nat
  version : Nat
  retrain : Bool
  incarnation : Nat
  lostMask : Nat
  variant : Nat
  /-- The incarnation recorded for each chip when it was declared lost. -/
  lostIncarn : List Nat
  ack : Nat
  freed : List Nat
  deriving DecidableEq, Repr

/-- What one slot of a TDM frame carries: its SLOTW bits as a number, the MSB the highest. -/
abbrev Sample := Nat

/-- One word carried to or from the HSP. -/
abbrev HspWords := List Word

/-- A TDM frame of an audio port (R425): the samples that arrived in its slots, the time of its frame start on the timebase, and whether
that start fell at another count than BC, so that the frame before it was interrupted (R437). -/
structure TdmFrame where
  slots : List Sample
  time : Nat
  early : Bool
  deriving DecidableEq, Repr

/-- A CSI-2 long packet (R455). -/
structure LongPacket where
  vc : Fin 4
  dtype : Nat
  bytes : List Byte
  crcOk : Bool
  ecc : Nat
  deriving DecidableEq, Repr

/-- What every HSP frame carries besides its body: its SEQ, when its select fell and rose in units of 10 ns of the timebase, and the
idle level of HSP_SCLK as the select fell (R468). -/
structure HspHead where
  seq : BitVec 8
  fall : Nat
  rise : Nat
  idleHigh : Bool
  deriving DecidableEq, Repr

/-- Why the firmware of all control cores is reset (R514). -/
inductive FwResetCause where
  | request | escalation
  deriving DecidableEq, Repr

/-- Why the main domain is reset (R513). -/
inductive SysResetCause where
  | request | escalation
  deriving DecidableEq, Repr

/-- The pins sampled at the release step (R549). -/
structure BootPins where
  chipId : Fin 4
  bootSel : BitVec 2
  deriving DecidableEq, Repr

end Sys2Proof
end

