-- ==== Sys2Proof/Syntax.lean ====
section
/-!
DEFINITION. Syntax.lean: the commands of the TLG-4816, one constructor per row of the table of operations and events
(opcode_table.json), with the operands each carries from outside the part.  What each does is in `Machine/`.
-/
namespace Sys2Proof

/-- A command: one operation or event of the table. -/
inductive Instr where
  /-- TICK_EDGE (R53). At each actual tick edge, every engine of the active plan starts the slice of its latched variant. -/
  | tickEdge
  /-- FALLOW_OPENING (R54). The fallow window opens at the later of the nominal fallow opening and the end of the last slice, and runs its steps. -/
  | fallowOpening
  /-- ARMING_STEP (R58). 100 µs before the next edge, the next tick's admitted set, variants, budgets and knot start values are latched. -/
  | armingStep
  /-- SLICE_BUDGET_EXHAUSTED (R62). A slice budget counter reaching zero ends the slice, posts its knots, flags BUDGET and records a plan fault. -/
  | sliceBudgetExhausted (e : EngineId)
  /-- PORT_FRAME_SYNC (R73). The N-th frame sync of the tick-source port arrives and sets or is ignored for the nominal edge. -/
  | portFrameSync (port : Fin 4) (t : Nat)
  /-- LOCK_ACQUIRED (R72). After ten ticks within tolerance the tick locks to the selected port. -/
  | lockAcquired
  /-- HOLDOVER (R74). No valid frame sync by T_int + w makes the edge fall there and enters holdover. -/
  | holdover
  /-- TICK_SYNC_PULSE (R77). A follower sees TICK_SYNC rise and places its edge 100 ns later. -/
  | tickSyncPulse (t : Nat)
  /-- SYNC_PULSE_TIMEOUT (R79). A follower with no TICK_SYNC pulse within P + S + 1 ms sets SYNCLOST and starts no further tick. -/
  | syncPulseTimeout
  /-- WORKEND_TIMEOUT (R79). A tick master lacking a member's alignment message at P + S sets SYNCLOST and classes without it. -/
  | workendTimeout (chip : Fin 4)
  /-- TICK_RUN_START (R80). Writing TICK_CTRL.RUN 1 starts tick generation with the first edge 1 ms later. -/
  | tickRunStart (i : Iface) (shedAlert : Bool)
  /-- TICK_RUN_STOP (R80). Writing TICK_CTRL.RUN 0 stops ticks after the current fallow window, or is refused while a plan is active. -/
  | tickRunStop (i : Iface) (shedAlert : Bool)
  /-- REGISTER_WRITE (R18). A write to a register with no behaviour of its own takes effect per field access type. -/
  | registerWrite (i : Iface) (off : BitVec 24) (v : Word)
  /-- RWT_APPLY_WHILE_STOPPED (R580). While ticks are stopped, an RWT write is applied within 1 µs with its checks. -/
  | rwtApplyWhileStopped (i : Iface) (off : BitVec 24) (v : Word)
  /-- PAIR_LOW_READ (R24). A low-word read of a 64-bit pair latches the high word for that interface. -/
  | pairLowRead (i : Iface) (off : BitVec 24)
  /-- PAIR_LOW_WRITE (R24). A low-word write of a 64-bit pair is held until the high word is written. -/
  | pairLowWrite (i : Iface) (off : BitVec 24) (v : Word)
  /-- PAIR_HIGH_WRITE (R24). A high-word write commits the pair, or the high word alone if no low word is held. -/
  | pairHighWrite (i : Iface) (off : BitVec 24) (v : Word)
  /-- END (R135). Ends the slice. -/
  | end_ (e : EngineId)
  /-- LOOP (R136). Runs the next LEN words COUNT times. -/
  | loop (e : EngineId) (count len : BitVec 16)
  /-- IDLE (R161). Waits COUNT cycles. -/
  | idle (e : EngineId) (count : BitVec 16)
  /-- FIXJOB (R162). Runs a configured fixed-function job of the Flail, Quern or Glume. -/
  | fixjob (e : EngineId) (job : BitVec 16)
  /-- POST (R127). Adds an amount to a knot once earlier accesses complete. -/
  | post (e : EngineId) (knot : BitVec 6) (value step : BitVec 16)
  /-- WAIT (R163). Stalls until a knot reaches its target. -/
  | wait (e : EngineId) (knot : BitVec 6) (value step : BitVec 16)
  /-- WAIT_SATISFIED (R163). A stalled WAIT proceeds when a post bringing its knot to target becomes visible. -/
  | waitSatisfied (e : EngineId)
  /-- MMUL (R164). Forms a matrix product into accumulator banks. -/
  | mmul (n : Fin 16) (f : TFields)
  /-- ACCOUT (R167). Requantises accumulator banks to a destination tensor. -/
  | accout (n : Fin 16) (f : TFields)
  /-- GATE (R168). Advances one step of a gated recurrent cell whose state is pinned. -/
  | gate (n : Fin 16) (f : TFields)
  /-- VADD (R170). Adds two tensors element by element. -/
  | vadd (n : Fin 16) (f : TFields)
  /-- VMUL (R170). Multiplies two tensors element by element. -/
  | vmul (n : Fin 16) (f : TFields)
  /-- VLUT (R170). Maps each element through a signed-index table. -/
  | vlut (n : Fin 16) (f : TFields)
  /-- VNORM (R170). Normalises rows by a root table and gain. -/
  | vnorm (n : Fin 16) (f : TFields)
  /-- VMASK (R170). Zeroes rows of empty batch rows or zero mask. -/
  | vmask (n : Fin 16) (f : TFields)
  /-- SATTN (R172). Runs streamed attention on a Thresher against a paged cache region. -/
  | sattn (n : Fin 2) (f : TFields)
  /-- FATTN (R173). Runs fused attention within one Sheaf's banks. -/
  | fattn (n : Fin 16) (f : TFields)
  /-- SUMSC (R174). Scores queries against page summary keys. -/
  | sumsc (n : Fin 2) (f : TFields)
  /-- SPROB (R175). Recomputes attention probabilities from a stored log-sum-exp. -/
  | sprob (n : Fin 2) (f : TFields)
  /-- SCAN (R176). Evaluates a gated linear recurrence by parallel prefix. -/
  | scan (f : TFields)
  /-- TOPK (R177). Writes the indices of the K largest valid scores per row. -/
  | topk (f : TFields)
  /-- BEAM (R178). Picks the W best beam extensions per batch row. -/
  | beam (f : TFields)
  /-- PAGESEL (R179). Selects the K best-scoring pages per row in ascending order. -/
  | pagesel (f : TFields)
  /-- SAMPLE (R180). Draws one token per occupied row by counter-based deterministic sampling. -/
  | sample (f : TFields)
  /-- HROT (R181). Rotates row blocks by the Sylvester Hadamard matrix. -/
  | hrot (n : Fin 2) (f : TFields)
  /-- REQ (R182). Requantises a tensor, optionally choosing dynamic shifts. -/
  | req (n : Fin 2) (f : TFields)
  /-- KVAPP (R183). Appends new keys or values to a stream's cache region. -/
  | kvapp (n : Fin 2) (f : TFields)
  /-- MOVE (R185). Issues a move descriptor on a Cart. -/
  | move (cart : Fin 8) (mdesc : BitVec 12) (srcStep dstStep : BitVec 16)
  /-- MOVE_COMMIT (R87). A move's commit condition is met at its destination tier and its home changes. -/
  | moveCommit (cart : Fin 8) (a : CommitAnswer)
  /-- MOVE_SOURCE_ERROR (R113). A Cart reading unreadable source data fails the move with SRCERR. -/
  | moveSourceError (cart : Fin 8) (addr : BitVec 44)
  /-- BAR0_BAD_ACCESS (R295). A BAR0 request that is not one full DW is discarded or read as all ones and logged. -/
  | bar0BadAccess (write : Bool) (off : BitVec 24) (dwords : Nat)
  /-- BAR2_READ (R296). A BAR2 read returns Granary contents, with EP on poisoned words. -/
  | bar2Read (off : BitVec 26) (len : Nat)
  /-- BAR2_WRITE (R297). A BAR2 write takes effect only within the staging area, else is discarded and logged. -/
  | bar2Write (off : BitVec 26) (bytes : List Byte)
  /-- HOST_SIDE_RESET (R294). An FLR, hot reset, link-down or D3hot resets the PCI Express function, HOST registers and every queue. -/
  | hostSideReset (why : HostReset)
  /-- PERST_ASSERT (R294). Assertion of PCIE_PERST_N resets the host side as a function reset does. -/
  | perstAssert
  /-- QUEUE_ENABLE (R302). Writing HOST_QCTRL.EN 1 enables a queue or faults it with FCAUSE 5. -/
  | queueEnable (i : Iface) (q : Fin 16) (v : Word)
  /-- QUEUE_RESET (R329). Writing HOST_QCTRL.RESET 1, or EN 0, stops fetching, settles requests and leaves the queue disabled. -/
  | queueReset (i : Iface) (q : Fin 16) (v : Word)
  /-- SQ_DOORBELL (R303). A submission tail doorbell is checked and makes new records fetchable. -/
  | sqDoorbell (i : Iface) (q : Fin 16) (index : BitVec 16) (placed : List HostBytes)
  /-- CQ_DOORBELL (R304). A completion head doorbell releases completion entries. -/
  | cqDoorbell (i : Iface) (q : Fin 16) (index : BitVec 16)
  /-- REQUEST_FETCH (R305). CC1 fetches a request once a completion entry can be reserved, round robin over queues. -/
  | requestFetch (a : HostAnswer)
  /-- NOP (R315). A request that completes at once. -/
  | nop (q : Fin 16) (tag : BitVec 16)
  /-- QUERY (R323). Returns the selected item of state in VALUE. -/
  | query (q : Fin 16) (tag : BitVec 16)
  /-- ABORT (R324). Settles a target request by tag. -/
  | abort (q : Fin 16) (tag : BitVec 16)
  /-- PLAN_LOAD (R145). Checks, moves and installs a plan image as the pending plan. -/
  | planLoad (q : Fin 16) (tag : BitVec 16)
  /-- PLAN_ACTIVATE (R147). Requests activation of the pending plan in the next complete fallow window. -/
  | planActivate (q : Fin 16) (tag : BitVec 16)
  /-- PLAN_DISCARD (R148). Removes the pending plan and frees its T1 range. -/
  | planDiscard (q : Fin 16) (tag : BitVec 16)
  /-- STREAM_OPEN (R317). Opens a stream with its context, parameter and flat regions. -/
  | streamOpen (q : Fin 16) (tag : BitVec 16)
  /-- STREAM_CLOSE (R318). Closes a stream at its next resumption point. -/
  | streamClose (q : Fin 16) (tag : BitVec 16)
  /-- STREAM_PAUSE (R318). Removes a stream from the candidates at its next resumption point. -/
  | streamPause (q : Fin 16) (tag : BitVec 16)
  /-- STREAM_RESUME (R318). Returns a paused stream to the candidates. -/
  | streamResume (q : Fin 16) (tag : BitVec 16)
  /-- STREAM_ABORT (R318). Ends a stream through the stream-abort path. -/
  | streamAbort (q : Fin 16) (tag : BitVec 16)
  /-- STATE_EXPORT (R319). Moves a parked stream's state record to a host buffer and closes the stream. -/
  | stateExport (q : Fin 16) (tag : BitVec 16)
  /-- MIGRATE (R320). Migrates a stream to another chip of the stook. -/
  | migrate (q : Fin 16) (tag : BitVec 16)
  /-- AUDIO_BIND (R321). Binds a stream's input zone or output slots. -/
  | audioBind (q : Fin 16) (tag : BitVec 16)
  /-- AUDIO_UNBIND (R321). Removes a stream's binding of one direction, ramping an output out. -/
  | audioUnbind (q : Fin 16) (tag : BitVec 16)
  /-- OVERLAY (R322). Requests an overlay epoch with a mode and optional change list. -/
  | overlay (q : Fin 16) (tag : BitVec 16)
  /-- COMPLETION_POST (R334). A ready completion is posted once every earlier request of its queue has been posted. -/
  | completionPost (q : Fin 16) (a : HostAnswer)
  /-- RESULT_POST (R314). After slices writing region 63 end, CC1 posts each admitted stream's token and utterance-end records. -/
  | resultPost
  /-- HELD_RESULT_FLUSH (R330). Held result records and folded holes are posted once the result queue has room. -/
  | heldResultFlush (q : Fin 16)
  /-- QMOD_TIMEOUT (R307). The oldest unsignalled record reaching TIME µs sends the queue's vector. -/
  | qmodTimeout (q : Fin 16)
  /-- GYDAN_WRITE (R411). A WRITE message carries lines of a peer move to the destination. -/
  | gydanWrite (port : Fin 3) (cls : Fin 2) (moveId arg : BitVec 32) (bytes : List Byte)
  /-- GYDAN_SEAL (R411). SEAL ends a push; the destination answers COMMIT or REFUSE. -/
  | gydanSeal (port : Fin 3) (cls : Fin 2) (moveId lines : BitVec 32)
  /-- GYDAN_RELEASED (R412). RELEASED lets the destination use and record the pushed datum. -/
  | gydanReleased (port : Fin 3) (cls : Fin 2) (moveId : BitVec 32)
  /-- GYDAN_DISCARD (R411). DISCARD makes the destination free an abandoned move's range. -/
  | gydanDiscard (port : Fin 3) (cls : Fin 2) (moveId : BitVec 32)
  /-- GYDAN_PULL (R410). PULL asks the source chip to carry out a move as a push. -/
  | gydanPull (port : Fin 3) (cls : Fin 2) (moveId : BitVec 32) (src dst lines : Nat)
  /-- GYDAN_COMMIT (R411). COMMIT commits a peer move at its source chip. -/
  | gydanCommit (port : Fin 3) (cls : Fin 2) (moveId : BitVec 32)
  /-- GYDAN_REFUSE (R411). REFUSE fails a peer move with its source home. -/
  | gydanRefuse (port : Fin 3) (cls : Fin 2) (moveId arg : BitVec 32)
  /-- ASK (R414). ASK requests a migration grant from the destination. -/
  | ask (port : Fin 3) (a : AskBody)
  /-- ANSWER (R414). ANSWER grants a range and row or refuses the migration. -/
  | answer (port : Fin 3) (sc : Fin 64) (a : AnswerBody)
  /-- ANSWER_TIMEOUT (R414). No ANSWER 100 µs after the fallow opening defers the migration. -/
  | answerTimeout (sc : Fin 64)
  /-- REPORT (R387). A member reports its cap, estimate and work end to the budget manager. -/
  | report (port : Fin 3) (cap estimate workEnd : Nat)
  /-- SHARE (R387). A member applies the power share sent by the budget manager. -/
  | share (port : Fin 3) (mw period : Nat)
  /-- WORKEND (R417). A member's work end reaches the tick master for classing. -/
  | workend (port : Fin 3) (tick x : Nat)
  /-- CLASSMSG (R417). The tick master's class for the next tick reaches a member. -/
  | classmsg (port : Fin 3) (tick cls lag mask : Nat)
  /-- REJOIN (R418). A follower whose pulses returned asks to tick again. -/
  | rejoin (port : Fin 3)
  /-- MEMBER_EJECT (R418). The tick master declares lost a member excluded EJECTTICKS times and sends EJECT. -/
  | memberEject (chip : Fin 4)
  /-- LEAVE (R419). A peer announcing power-down is declared lost. -/
  | leave (port : Fin 3)
  /-- EJECT (R419). An EJECT from the tick master declares the named chip lost. -/
  | eject (port : Fin 3) (chip : Fin 4) (incarnation : BitVec 32)
  /-- REQFWD (R415). The home chip forwards a request naming a migrated stream to its running chip. -/
  | reqfwd (port : Fin 3) (record : List Byte)
  /-- REQDONE (R415). The home chip posts the forwarded request's completion in place. -/
  | reqdone (port : Fin 3) (record : List Byte)
  /-- RESULT (R415). The home chip posts result records sent by the running chip. -/
  | result (port : Fin 3) (sc : Fin 64) (records : List (List Byte))
  /-- LOCATE (R415). The home chip records where a migrated stream now runs. -/
  | locate (port : Fin 3) (sc : Fin 64) (chip : Fin 4)
  /-- FLIT_RECEIVE (R400). A received flit is accepted in order or discarded with NAK. -/
  | flitReceive (port : Fin 3) (f : Flit)
  /-- ACK_TIMEOUT (R401). A 20 µs period without ACK advance forces a resend, and the third forces a retrain. -/
  | ackTimeout (port : Fin 3)
  /-- GDN_ENABLE (R405). Writing GDN_CTRL.EN starts or stops training of a port. -/
  | gdnEnable (i : Iface) (port : Fin 3) (v : Word)
  /-- GDN_RETRAIN (R407). Writing GDN_CTRL.RETRAIN retrains an ACTIVE port. -/
  | gdnRetrain (i : Iface) (port : Fin 3) (v : Word)
  /-- BLOCK_LOCK_ACQUIRED (R397). All lanes reach block lock and the port moves to DESKEW. -/
  | blockLockAcquired (port : Fin 3)
  /-- DESKEW_DONE (R396). Markers align on all lanes and the port moves to PARAM. -/
  | deskewDone (port : Fin 3) (skew : Fin 9) (reversed : Bool) (polarity : BitVec 4)
  /-- PARAM_RECEIVE (R406). A PARAM link control flit is checked, making the port ACTIVE or REFUSED. -/
  | paramReceive (port : Fin 3) (p : ParamFlit)
  /-- TRAINING_LIMIT (R405). A training step passing its limit restarts training, and repeated failure sends the port DOWN. -/
  | trainingLimit (port : Fin 3)
  /-- LANE_LOCK_LOSS (R407). A lane losing block lock retrains the port. -/
  | laneLockLoss (port : Fin 3) (lane : Fin 4)
  /-- MARKER_ERROR (R397). A marker missing or wrong at two positions retrains the port. -/
  | markerError (port : Fin 3)
  /-- PEER_LOSS_TIMEOUT (R419). A port out of ACTIVE for LOSSMS declares its peer lost. -/
  | peerLossTimeout (port : Fin 3)
  /-- SENSOR_READ (R361). Every 100 µs each sensor is read and tested against its limits. -/
  | sensorRead (readings : List SensorReading)
  /-- THERMAL_DERATE_STEP (R363). Every 100 ms CC4 lowers or raises the thermal cap by 250 mW. -/
  | thermalDerateStep
  /-- PMBUS_PERIOD (R368). Each 1 ms period reads every measured rail and forms the measured power. -/
  | pmbusPeriod (readings : List RailReading) (lengthened : Bool)
  /-- PMB_ALERT (R370). PMB_ALERT_N low makes CC4 read, log and clear regulator status. -/
  | pmbAlert (status : List Word)
  /-- POWER_SHARE_INTERVAL (R379). Every 10 µs the estimate is formed and the effective cap shared into class duties. -/
  | powerShareInterval (raw : RawEstimate)
  /-- CALIBRATION_FIT (R373). Every 100 ms CC4 fits GAIN and OFFSET by least squares. -/
  | calibrationFit
  /-- VOLTAGE_SELECTION (R386). Every 1 ms CC4 chooses and commands an operating point and checks it. -/
  | voltageSelection (readBack : Option Nat)
  /-- CAP_WRITE (R376). A write of PWR_CAPMW is clamped to fused limits and takes effect within 10 µs. -/
  | capWrite (i : Iface) (v : Word)
  /-- STOOK_SHARE_PERIOD (R387). Every 1 ms members report and the budget manager computes shares. -/
  | stookSharePeriod
  /-- SHARE_TIMEOUT (R390). No share for 20 ms keeps the last share and sets SHARELOST. -/
  | shareTimeout
  /-- CONTROL_CORE_RESTART (R352). A core's watchdog expiry or fault restarts it. -/
  | controlCoreRestart (core : Fin 6)
  /-- CORE_RETURN (R352). A restarted core returns and resumes its role. -/
  | coreReturn (core : Fin 6)
  /-- CC3_RELEASE_OVERRUN (R353). A CC3 not ending its release sequence 20 µs after watchdog expiry causes a firmware reset. -/
  | cc3ReleaseOverrun
  /-- FIRMWARE_RESET (R514). A GLOBAL_RSTREQ of kind 1, or escalation, restarts all six control cores together. -/
  | firmwareReset (why : FwResetCause)
  /-- SYSTEM_RESET (R513). A GLOBAL_RSTREQ of kind 2 or escalation resets the main domain and holds at the release step. -/
  | systemReset (why : SysResetCause)
  /-- RESET_N_ASSERT (R513). RESET_N filtered low outside OFF causes a system reset. -/
  | resetNAssert
  /-- ON_REQ_CHANGE (R495). A filtered ON_REQ level replaces the request latch and, when off in ON, starts power-down. -/
  | onReqChange (level : Bool)
  /-- POWERUP_START (R495). With the minimum off time past, latch on and PGOOD_IN high, POWERUP-A begins. -/
  | powerupStart
  /-- RELEASE_STEP (R498). PLLs locked and RESET_N high, pins are sampled, reset deasserted and CC0 starts. -/
  | releaseStep (pins : BootPins)
  /-- READY (R498). MEMCH trained, cores running and base configuration applied, the engine reaches READY. -/
  | ready (flash : List HostBytes)
  /-- POWERDOWN_OFF (R500). Power-down ends with the store updated, isolation applied and the engine in OFF. -/
  | powerdownOff
  /-- SUPPLY_LOSS (R503). PGOOD_IN low or VDD_AON lost outside OFF isolates the main domain within 2 µs. -/
  | supplyLoss (aonToo : Bool)
  /-- AON_TO_KEEP (R562). VDD_AON below 0.72 V moves the always-on domain onto the keep cell. -/
  | aonToKeep (keepMv : Nat)
  /-- AON_START (R510). The always-on domain starts and keeps or discards the store by the sentinel. -/
  | aonStart
  /-- KEEP_SAMPLE (R505). Every 1 ms the charger samples KEEP_P and current and detects removal or fault. -/
  | keepSample (mv : Nat) (current : Int)
  /-- PRESENCE_PROBE (R506). Once a second the probe drives 10 µA into KEEP_P to test for a cell. -/
  | presenceProbe (mv : Nat)
  /-- AUDIO_FRAME (R425). A TDM frame of an audio port is received into and transmitted from its buffers. -/
  | audioFrame (port : Fin 4) (f : TdmFrame)
  /-- NONAUDIO_HOLD_EXPIRY (R440). A muted slot is unmuted after HOLD × 10 ms without detection. -/
  | nonaudioHoldExpiry (port : Fin 4) (slot : Fin 32)
  /-- RATE_WINDOW (R434). Each 100 ms window measures a port's frame rate and reports changes or limit breaches. -/
  | rateWindow (port : Fin 4) (frames cycles : Nat)
  /-- AUDIO_NOCLK (R437). No frame start for 1 ms sets NOCLK and logs a violation. -/
  | audioNoclk (port : Fin 4)
  /-- CAM_FRAME_START (R457). A Frame Start takes a buffer for FILLING. -/
  | camFrameStart (vc : Fin 4)
  /-- CAM_LONG_PACKET (R455). A long packet stores a line into the FILLING buffer or is discarded. -/
  | camLongPacket (p : LongPacket)
  /-- CAM_FRAME_END (R457). A good Frame End makes the buffer READY, or a bad frame returns it FREE. -/
  | camFrameEnd (vc : Fin 4)
  /-- CAM_NO_FRAME (R465). No Frame Start for MISSMS sets NOCAM and logs once. -/
  | camNoFrame
  /-- HSP_NOP (R472). An HSP frame that carries out nothing. -/
  | hspNop (h : HspHead)
  /-- HSP_RD (R479). An HSP frame reads consecutive registers. -/
  | hspRd (h : HspHead) (off : BitVec 24) (count : Nat)
  /-- HSP_WR (R479). An HSP frame writes consecutive registers at its end. -/
  | hspWr (h : HspHead) (off : BitVec 24) (words : HspWords)
  /-- HSP_MRD (R479). An HSP frame reads words of T0. -/
  | hspMrd (h : HspHead) (addr : BitVec 26) (count : Nat)
  /-- HSP_MWR (R479). An HSP frame writes words of T0 within the staging area. -/
  | hspMwr (h : HspHead) (addr : BitVec 26) (words : HspWords)
  /-- HSP_REPEAT (R476). An HSP frame fetches again the reply of the last frame carried out. -/
  | hspRepeat (h : HspHead)
  /-- HSP_CFG_APPLY (R470). A written CPHA or WIRE takes effect at the next HSP_CS_N deassertion. -/
  | hspCfgApply
  /-- PSP_TRANSFER_START (R486). Writing PSP_XCTRL.GO starts a transfer or sets REFUSED. -/
  | pspTransferStart (i : Iface) (v : Word)
  /-- PSP_TRANSFER_DONE (R486). A transfer ends with BUSY clear, DONE set and bytes in PSP_RXBUF. -/
  | pspTransferDone (received : List Byte)
  /-- FLASH_BUSY_TIMEOUT (R489). A flash busy beyond its limit abandons the command and fails its write. -/
  | flashBusyTimeout
  /-- NVC_UPDATE_USER (R529). GO with TARGET 0 writes a user record into the uncommitted user slot. -/
  | nvcUpdateUser (i : Iface) (v : Word) (source : List HostBytes) (a : HostAnswer)
  /-- NVC_UPDATE_FACTORY (R529). GO with TARGET 1 writes a factory record into the uncommitted factory slot. -/
  | nvcUpdateFactory (i : Iface) (v : Word) (source : List HostBytes) (a : HostAnswer)
  /-- NVC_HOST_BOOT (R529). GO with TARGET 2 in the boot wait boots from host-supplied records. -/
  | nvcHostBoot (i : Iface) (v : Word) (source : List HostBytes) (a : HostAnswer)
  /-- NVC_UPDATE_DONE (R530). A slot write is read back, checked and committed, or ends with FAIL. -/
  | nvcUpdateDone (flashOk : Bool)
  /-- GLN_EVAC_GO (R289). Writing GLN_EVAC.GO starts evacuation of a host window entry. -/
  | glnEvacGo (i : Iface) (v : Word)
  /-- SEC_PROVISION (R541). SEC_PROVCMD with CHECK 0x5E burns the owner key hash. -/
  | secProvision (i : Iface) (v : Word)
  /-- DEBUG_LOCK (R542). Writing SEC_DBGCTRL.LOCK closes the debug access path at once. -/
  | debugLock (i : Iface) (v : Word)
  /-- LOG_TAIL_WRITE (R348). A write of a log tail frees entries or is refused and logged. -/
  | logTailWrite (i : Iface) (violation : Bool) (v : Word)
  /-- PIN_HOLD_EXPIRY (R358). ALERT_N or DIAG_N is released once its latch is clear and 1 ms has passed since its last event. -/
  | pinHoldExpiry (alert : Bool)
  /-- TAP_RESET (R570). JTAG_TRST_N low or five TMS-high cycles place the TAP in Test-Logic-Reset. -/
  | tapReset
  /-- IDCODE (R570). Selects the 32-bit identification register. -/
  | idcode
  /-- SAMPLE_PRELOAD (R570). Selects the boundary register for sampling and preload. -/
  | samplePreload (pads cells : BitVec 79)
  /-- EXTEST (R553). IO18 pads follow their boundary cells. -/
  | extest (pads : BitVec 79)
  /-- HIGHZ (R570). Places every IO18 output at high impedance. -/
  | highz
  /-- CLAMP (R570). Holds pads at the boundary cells' values with bypass selected. -/
  | clamp
  /-- DEBUG (R542). Reaches the debug access path while open, else acts as BYPASS. -/
  | debug
  /-- BYPASS (R570). Selects the 1-bit bypass register. -/
  | bypass
  /-- RETENTION_SENTINEL_SET (R510). The always-on rail falls below the 0.62 V retention level, as a draining keep cell lets it, and the retention sentinel is set. -/
  | retentionSentinelSet
  /-- REFRESH_RATE_CHANGE (R110). The on-package memory's temperature report changes the refresh rate MEMCH runs, reflected in MEMCH_STAT.REFX2 and REFX4. -/
  | refreshRateChange (x2 x4 : Bool)
  /-- PCIE_LINK_UP (R291). The PCI Express link completes training at a width and speed that HOST_STAT.WIDTH and SPEED then report. -/
  | pcieLinkUp (width speed : Nat)
  /-- HSP_REJECTED_FRAME (R477). An HSP frame that fails a check, such as a reserved OP, a bad length, a bad HCRC or an early select, is rejected whole and answered with a reject word. -/
  | hspRejectedFrame (h : HspHead) (extra : Nat) (words : HspWords)
  deriving DecidableEq, Repr

end Sys2Proof
end

