-- ==== Sys2Proof/Decode.lean ====
section
/-!
DEFINITION. Decode.lean: the command that a word spells by the bits of the table of operations and events.  No row of that
table gives bits (every row's fields are empty), so no word spells a command (notes/assumptions/1.md).
-/
namespace Sys2Proof

/-- The command that a word of `nbits` bits spells by the table's bits.
(DESIGN CHOICE, unsafe: notes/assumptions/1.md) -/
def decodeTableWord (_nbits _w : Nat) : Option Instr := none

end Sys2Proof
end

