-- ==== Sys2Proof/Machine/Flags.lean ====
section
/-!
DEFINITION. Machine/Flags.lean: rounding and saturation, the two effects every integer result shares, with the counts of
saturations they raise (R157, R189 to R195).
-/
namespace Sys2Proof.Machine

/-- The integer formats of Table 6-1, by FMT. -/
def fmtBits (fmt : Nat) : Nat :=
  match fmt with
  | 0 => 4
  | 1 => 8
  | 2 => 16
  | _ => 32

/-- The least integer of a format. -/
def fmtLow (fmt : Nat) : Int := -(2 ^ (fmtBits fmt - 1) : Nat)

/-- The greatest integer of a format. -/
def fmtHigh (fmt : Nat) : Int := (2 ^ (fmtBits fmt - 1) : Nat) - 1

/-- Limit an integer to a range. -/
def clampInt (lo hi x : Int) : Int := if x < lo then lo else if hi < x then hi else x

/-- `rne(x × 2^-k)` for `k > 0`, and the exact left shift for `k ≤ 0` (R192). -/
def rneShift (x : Int) (k : Int) : Int :=
  if k ≤ 0 then x * (2 ^ (-k).toNat : Nat)
  else
    let m : Int := (2 ^ k.toNat : Nat)
    let q := x.fdiv m
    let r := x - q * m
    if m < 2 * r ∨ (2 * r = m ∧ q % 2 = 1) then q + 1 else q

/-- Round-half-to-even of the exact quotient `a / b`, for `b > 0` (R157, R173). -/
def rneDiv (a b : Int) : Int :=
  let q := a.fdiv b
  let r := a - q * b
  if b < 2 * r ∨ (2 * r = b ∧ q % 2 = 1) then q + 1 else q

/-- The requantisation of R192, before saturation. -/
def requantRaw (x eIn eOut : Int) : Int := rneShift x (eOut - eIn)

/-- The requantisation of R192. -/
def requant (x eIn eOut : Int) (fmt : Nat) : Int := clampInt (fmtLow fmt) (fmtHigh fmt) (requantRaw x eIn eOut)

/-- A value fits a format. -/
def fitsFmt (fmt : Nat) (x : Int) : Bool := decide (fmtLow fmt ≤ x) && decide (x ≤ fmtHigh fmt)

/-- 1 when a requantisation saturates, for the counters of R195. -/
def satCount (fmt : Nat) (x : Int) : Nat := if fitsFmt fmt x then 0 else 1

/-- A sum modulo 2³², in two's complement (R165). -/
def wrap32 (x : Int) : Int := (x + 2147483648) % 4294967296 - 2147483648

/-- The shifts that can be chosen, −31 to +31, from the least (R193). -/
def shiftRange : List Int := (List.range 63).map fun (i : Nat) => (i : Int) - 31

/-- The least shift at which every element, given with its exponent, fits after rounding, or +31 with `false` when none
suffices (R193, R194). -/
def leastShift (xs : List (Int × Int)) (fmt : Nat) : Int × Bool :=
  if xs.all (·.1 = 0) then (-31, true)
  else
    match shiftRange.find? fun s => xs.all fun x => fitsFmt fmt (requantRaw x.1 x.2 s) with
    | some s => (s, true)
    | none => (31, false)

end Sys2Proof.Machine
end

