-- ==== Sys2Proof/Machine/Float32.lean ====
section
/-!
DEFINITION. Machine/Float32.lean: binary32 arithmetic as the Threshers and the Flail use it (R246): every result is the exact
value rounded once, ties to even, subnormals kept.
-/
namespace Sys2Proof.Machine

/-- A binary32 value: an infinity, or the finite value `m × 2^e`. -/
inductive F32 where
  | negInf | posInf
  | fin (m : Int) (e : Int)
  deriving DecidableEq, Repr

/-- +0. -/
def F32.zero : F32 := .fin 0 0

/-- A power of two with a natural exponent, 1 below it. -/
def pow2 (e : Int) : Nat := 2 ^ e.toNat

/-- Round half to even of `a / b` for naturals. -/
def rneNat (a b : Nat) : Nat :=
  let q := a / b
  let r := a % b
  if b < 2 * r || (2 * r = b && q % 2 = 1) then q + 1 else q

/-- `⌊log₂ (p / q)⌋` for positive `p` and `q`. -/
def floorLog2 (p q : Nat) : Int :=
  let n : Int := (Nat.log2 p : Int) - (Nat.log2 q : Int)
  if p * pow2 (-n) ≥ q * pow2 n then n else n - 1

/-- The binary32 value nearest to `± p / q × 2^e`, ties to even. -/
def roundF (neg : Bool) (p q : Nat) (e : Int) : F32 :=
  if p = 0 then .zero
  else
    let u : Int := max (-149) (floorLog2 p q + e - 23)
    let m := rneNat (p * pow2 (e - u)) (q * pow2 (u - e))
    if floorLog2 (max m 1) 1 + u ≥ 128 then if neg then .negInf else .posInf
    else .fin (if neg then -(m : Int) else m) u

/-- The binary32 value nearest to `m × 2^e`. -/
def roundDyadic (m : Int) (e : Int) : F32 := roundF (m < 0) m.natAbs 1 e

/-- The exact sum of two finite values. -/
def addExact (m1 e1 m2 e2 : Int) : Int × Int :=
  let e := min e1 e2
  (m1 * (pow2 (e1 - e) : Int) + m2 * (pow2 (e2 - e) : Int), e)

/-- Negation. -/
def F32.neg : F32 → F32
  | .negInf => .posInf
  | .posInf => .negInf
  | .fin m e => .fin (-m) e

/-- Addition. Opposite infinities never meet (R246). -/
def F32.add : F32 → F32 → F32
  | .fin m1 e1, .fin m2 e2 => let r := addExact m1 e1 m2 e2; roundDyadic r.1 r.2
  | .fin _ _, b => b
  | a, _ => a

/-- Subtraction. -/
def F32.sub (a b : F32) : F32 := a.add b.neg

/-- Multiplication. An infinity never meets 0 (R246). -/
def F32.mul : F32 → F32 → F32
  | .fin m1 e1, .fin m2 e2 => roundDyadic (m1 * m2) (e1 + e2)
  | .fin m _, b => if m < 0 then b.neg else b
  | a, .fin m _ => if m < 0 then a.neg else a
  | a, b => if a = b then .posInf else .negInf

/-- Division by a positive finite value. -/
def F32.div : F32 → F32 → F32
  | .fin m1 e1, .fin m2 e2 => roundF (m1 < 0) m1.natAbs m2.natAbs (e1 - e2)
  | a, _ => a

/-- `a ≤ b`. -/
def F32.le : F32 → F32 → Bool
  | .negInf, _ => true
  | _, .posInf => true
  | .posInf, _ => false
  | _, .negInf => false
  | .fin m1 e1, .fin m2 e2 => let e := min e1 e2; decide (m1 * (pow2 (e1 - e) : Int) ≤ m2 * (pow2 (e2 - e) : Int))

/-- The greater of two values. -/
def F32.max (a b : F32) : F32 := if a.le b then b else a

/-! ### Correctly rounded powers and logarithms -/

/-- Bits of the fixed point in which the two functions are evaluated before their one rounding: more than any binary32
argument needs to tell a result from a rounding boundary. -/
def fixBits : Nat := 256

/-- `ln 2 × 2^256`, by the series `Σ 1 / (k 2^k)`. -/
def ln2Fix : Nat := (List.range 280).foldl (fun t k => t + 2 ^ (fixBits + 24) / ((k + 1) * 2 ^ (k + 1))) 0 / 2 ^ 24

/-- `exp(t) × 2^256` for `t × 2^256` given, `0 ≤ t < 1`, by its series. -/
def expFix (t : Nat) : Nat :=
  ((List.range 70).foldl (fun (acc : Nat × Nat) k =>
    (acc.1 + acc.2, acc.2 * t / 2 ^ fixBits / (k + 1))) (0, 2 ^ fixBits)).1

/-- exp2 (R246).
(DEDUCED, unsafe: notes/assumptions/39.md) -/
def F32.exp2 : F32 → F32
  | .negInf => .zero
  | .posInf => .posInf
  | .fin m e =>
    if m = 0 then .fin 1 0
    else
      let lg := floorLog2 m.natAbs 1 + e
      if lg ≥ 9 then (if m < 0 then .zero else .posInf)
      else if lg < -40 then .fin 1 0
      else
        -- `m × 2^e = i + f` with an integer `i` and `0 ≤ f < 1`
        let i : Int := if e ≥ 0 then m * (pow2 e : Int) else m.fdiv (pow2 (-e))
        let f : Nat := if e ≥ 0 then 0 else (m.fmod (pow2 (-e))).toNat
        if f = 0 then roundDyadic 1 i
        else roundF false (expFix (f * ln2Fix / pow2 (-e))) (2 ^ fixBits) i

/-- The next `n` bits of log₂ of `y × 2^-256`, `1 ≤ y < 2`, by squaring. -/
def log2Bits : Nat → Nat → Nat → Nat
  | 0, _, acc => acc
  | n + 1, y, acc =>
    let y2 := y * y / 2 ^ fixBits
    if y2 ≥ 2 ^ (fixBits + 1) then log2Bits n (y2 / 2) (2 * acc + 1) else log2Bits n y2 (2 * acc)

/-- log2 (R246), for a positive argument; +infinity of +infinity, −infinity of 0.
(DEDUCED, unsafe: notes/assumptions/39.md) -/
def F32.log2 : F32 → F32
  | .negInf => .negInf
  | .posInf => .posInf
  | .fin m e =>
    if m ≤ 0 then .negInf
    else
      let k := Nat.log2 m.natAbs
      let z := m.natAbs * 2 ^ fixBits / 2 ^ k
      if m.natAbs = 2 ^ k then roundDyadic (e + k) 0
      else
        -- 120 bits and a sticky half below them
        let frac := log2Bits 120 z 0
        roundDyadic (((e + k) * (2 ^ 120 : Nat) + frac) * 2 + 1) (-121)

/-- LOG2E, 0x3FB8_AA3B. -/
def F32.log2e : F32 := .fin 0xB8AA3B (-23)

/-! ### Encodings -/

/-- The 32 bits of a value. -/
def F32.bits : F32 → Nat
  | .negInf => 0xFF800000
  | .posInf => 0x7F800000
  | .fin m e =>
    if m = 0 then 0
    else
      let lg := floorLog2 m.natAbs 1 + e
      let u : Int := Max.max (-149) (lg - 23)
      let n := m.natAbs * pow2 (e - u) / pow2 (u - e)
      let ex := if n < 2 ^ 23 then 0 else (u + 150).toNat
      (if m < 0 then 2 ^ 31 else 0) + ex * 2 ^ 23 + n % 2 ^ 23

/-- The value of 32 bits; `none` for a NaN. -/
def F32.ofBits (b : Nat) : Option F32 :=
  let ex := b / 2 ^ 23 % 256
  let fr : Nat := b % 2 ^ 23
  let neg := b / 2 ^ 31 % 2 = 1
  if ex = 255 then
    if fr ≠ 0 then none else some (if neg then .negInf else .posInf)
  else
    let m : Int := if ex = 0 then fr else fr + 2 ^ 23
    some (.fin (if neg then -m else m) ((Max.max ex 1 : Nat) - 150))

/-- Round a finite value times `2^k` to an integer, half to even; an infinity rounds past every integer format. -/
def F32.toInt (a : F32) (k : Int) : Int :=
  match a with
  | .negInf => -(2 ^ 200)
  | .posInf => 2 ^ 200
  | .fin m e =>
    let n := rneNat (m.natAbs * pow2 (e + k)) (pow2 (-(e + k)))
    if m < 0 then -(n : Int) else n

/-- Pairs of neighbours added. -/
def addPairs : List F32 → List F32
  | a :: b :: rest => a.add b :: addPairs rest
  | l => l

/-- The pairwise tree of R248: six levels over 64 terms.
(DEDUCED, unsafe: notes/assumptions/39.md) -/
def tree64 (xs : List F32) : F32 :=
  ((List.range 6).foldl (fun l _ => addPairs l) xs).headD .zero

end Sys2Proof.Machine
end

