-- ==== Sys2Proof/Machine/RegMap.lean ====
section
/-!
DEFINITION. Machine/RegMap.lean: the register map of chapter 21 as data: every register of Table 21-1 with its offset,
its instances, and for each field its place, its access type (Table 0-4) and the encodings the register tables call legal
(R20).  Nothing here acts: `Machine/Regs.lean` gives the accesses their meaning.
-/
namespace Sys2Proof

/-- The access types of Table 0-4 (R18). -/
inductive Access where
  | rw | ro | wo | w1c | w1s | rwl | rwt
  deriving DecidableEq, Repr

/-- The encodings of a field that are not reserved (R20). -/
inductive Legal where
  | any
  | range (lo hi : Nat)
  | oneOf (l : List Nat)
  deriving DecidableEq, Repr

/-- How a register takes part in a 64-bit pair (R24): not at all, as the low word, as the high word, or as one word of
an entry of a log, some of whose words form pairs (Table 11-5). -/
inductive PairRole where
  | single | low | high | logEntry
  deriving DecidableEq, Repr

/-- One field of a register table (R17). -/
structure RegField where
  name : String
  lo : Nat
  width : Nat
  access : Access
  legal : Legal
  deriving DecidableEq, Repr

/-- One register, or one array of registers (R16): instance `i` lies at `base + i * stride`. -/
structure RegDesc where
  name : String
  base : Nat
  count : Nat
  stride : Nat
  pair : PairRole
  fields : List RegField
  deriving DecidableEq, Repr

/-! ### Register offsets, by the names of the manual (array registers: their instance 0) -/

namespace Reg

/-- GLOBAL_IDCODE (Table 18-8, 18_nv_image.md). -/
abbrev GLOBAL_IDCODE : Nat := 0x000000
/-- GLOBAL_LOT_LO (Table 18-8, 18_nv_image.md). -/
abbrev GLOBAL_LOT_LO : Nat := 0x000004
/-- GLOBAL_LOT_HI (Table 18-8, 18_nv_image.md). -/
abbrev GLOBAL_LOT_HI : Nat := 0x000008
/-- GLOBAL_DIE (Table 18-8, 18_nv_image.md). -/
abbrev GLOBAL_DIE : Nat := 0x00000C
/-- GLOBAL_UID_LO (Table 18-8, 18_nv_image.md). -/
abbrev GLOBAL_UID_LO : Nat := 0x000010
/-- GLOBAL_UID_HI (Table 18-8, 18_nv_image.md). -/
abbrev GLOBAL_UID_HI : Nat := 0x000014
/-- GLOBAL_VOP (Table 18-8, 18_nv_image.md). -/
abbrev GLOBAL_VOP : Nat := 0x000020
/-- GLOBAL_PWRSTAT (Table 17-11, 17_start_up.md). -/
abbrev GLOBAL_PWRSTAT : Nat := 0x000100
/-- GLOBAL_RSTREQ (Table 17-12, 17_start_up.md). -/
abbrev GLOBAL_RSTREQ : Nat := 0x000104
/-- GLOBAL_KEEPCFG (Table 17-13, 17_start_up.md). -/
abbrev GLOBAL_KEEPCFG : Nat := 0x000108
/-- GLOBAL_KEEPSTAT (Table 17-14, 17_start_up.md). -/
abbrev GLOBAL_KEEPSTAT : Nat := 0x00010C
/-- GLOBAL_MONO_LO (R509, 17_start_up.md). -/
abbrev GLOBAL_MONO_LO : Nat := 0x000110
/-- GLOBAL_MONO_HI (R509, 17_start_up.md). -/
abbrev GLOBAL_MONO_HI : Nat := 0x000114
/-- GLOBAL_JRNL (R508, 17_start_up.md). -/
abbrev GLOBAL_JRNL : Nat := 0x000200
/-- TICK_CTRL (Table 2-4, 02_plan_tick.md). -/
abbrev TICK_CTRL : Nat := 0x010000
/-- TICK_PERIOD (Table 2-5, 02_plan_tick.md). -/
abbrev TICK_PERIOD : Nat := 0x010004
/-- TICK_FALLOW (Table 2-6, 02_plan_tick.md). -/
abbrev TICK_FALLOW : Nat := 0x010008
/-- TICK_SLIP (Table 2-7, 02_plan_tick.md). -/
abbrev TICK_SLIP : Nat := 0x01000C
/-- TICK_SRC (Table 2-8, 02_plan_tick.md). -/
abbrev TICK_SRC : Nat := 0x010010
/-- TICK_LOCKTOL (Table 2-9, 02_plan_tick.md). -/
abbrev TICK_LOCKTOL : Nat := 0x010014
/-- TICK_STAT (Table 2-10, 02_plan_tick.md). -/
abbrev TICK_STAT : Nat := 0x010018
/-- TICK_INTEN (Table 2-11, 02_plan_tick.md). -/
abbrev TICK_INTEN : Nat := 0x01001C
/-- TICK_COUNT_LO (Table 2-12, 02_plan_tick.md). -/
abbrev TICK_COUNT_LO : Nat := 0x010020
/-- TICK_COUNT_HI (Table 2-13, 02_plan_tick.md). -/
abbrev TICK_COUNT_HI : Nat := 0x010024
/-- TICK_LAG (Table 2-14, 02_plan_tick.md). -/
abbrev TICK_LAG : Nat := 0x010028
/-- TICK_LAGPEAK (Table 2-15, 02_plan_tick.md). -/
abbrev TICK_LAGPEAK : Nat := 0x01002C
/-- TICK_WORKEND (Table 2-16, 02_plan_tick.md). -/
abbrev TICK_WORKEND : Nat := 0x010030
/-- TICK_BUBBLE (Table 2-17, 02_plan_tick.md). -/
abbrev TICK_BUBBLE : Nat := 0x010034
/-- TICK_EVCNT0 (Table 2-18, 02_plan_tick.md). -/
abbrev TICK_EVCNT0 : Nat := 0x010038
/-- TICK_EVCNT1 (Table 2-19, 02_plan_tick.md). -/
abbrev TICK_EVCNT1 : Nat := 0x01003C
/-- TICK_STOOK (Table 2-20, 02_plan_tick.md). -/
abbrev TICK_STOOK : Nat := 0x010040
/-- PLAN_STAT (Table 4-12, 04_plan_isa_structure.md). -/
abbrev PLAN_STAT : Nat := 0x020000
/-- PLAN_LOADERR (Table 4-13, 04_plan_isa_structure.md). -/
abbrev PLAN_LOADERR : Nat := 0x020004
/-- PLAN_ACTID_LO (after Table 4-13, 04_plan_isa_structure.md). -/
abbrev PLAN_ACTID_LO : Nat := 0x020008
/-- PLAN_ACTID_HI (after Table 4-13, 04_plan_isa_structure.md). -/
abbrev PLAN_ACTID_HI : Nat := 0x02000C
/-- PLAN_PENDID_LO (after Table 4-13, 04_plan_isa_structure.md). -/
abbrev PLAN_PENDID_LO : Nat := 0x020010
/-- PLAN_PENDID_HI (after Table 4-13, 04_plan_isa_structure.md). -/
abbrev PLAN_PENDID_HI : Nat := 0x020014
/-- PLAN_FAULT (Table 4-14, 04_plan_isa_structure.md). -/
abbrev PLAN_FAULT : Nat := 0x020018
/-- PLAN_FAULTPC (Table 4-15, 04_plan_isa_structure.md). -/
abbrev PLAN_FAULTPC : Nat := 0x02001C
/-- PLAN_FAULTTICK (Table 4-16, 04_plan_isa_structure.md). -/
abbrev PLAN_FAULTTICK : Nat := 0x020020
/-- PLAN_ENGSTAT (Table 4-17, 04_plan_isa_structure.md). -/
abbrev PLAN_ENGSTAT : Nat := 0x020100
/-- PLAN_KNOT (Table 4-18, 04_plan_isa_structure.md). -/
abbrev PLAN_KNOT : Nat := 0x020200
/-- SHF_STAT (Table 6-4, 06_sheaf_numerics.md). -/
abbrev SHF_STAT : Nat := 0x040000
/-- SHF_ECCSTAT (Table 6-5, 06_sheaf_numerics.md). -/
abbrev SHF_ECCSTAT : Nat := 0x040004
/-- SHF_ECCCNT (Table 6-6, 06_sheaf_numerics.md). -/
abbrev SHF_ECCCNT : Nat := 0x040008
/-- SHF_SATCNT (Table 6-7, 06_sheaf_numerics.md). -/
abbrev SHF_SATCNT : Nat := 0x04000C
/-- SHF_OVFCNT (Table 6-8, 06_sheaf_numerics.md). -/
abbrev SHF_OVFCNT : Nat := 0x040010
/-- SHF_TRLCNT (Table 6-9, 06_sheaf_numerics.md). -/
abbrev SHF_TRLCNT : Nat := 0x040014
/-- SHF_MACCNT_LO (Table 6-10, 06_sheaf_numerics.md). -/
abbrev SHF_MACCNT_LO : Nat := 0x040018
/-- SHF_MACCNT_HI (Table 6-11, 06_sheaf_numerics.md). -/
abbrev SHF_MACCNT_HI : Nat := 0x04001C
/-- TSH_STAT (Table 8-3, 08_attention.md). -/
abbrev TSH_STAT : Nat := 0x050000
/-- TSH_CHCFG (Table 8-4, 08_attention.md). -/
abbrev TSH_CHCFG : Nat := 0x050004
/-- TSH_SATCNT (Table 8-5, 08_attention.md). -/
abbrev TSH_SATCNT : Nat := 0x050008
/-- TSH_EMPTYCNT (Table 8-6, 08_attention.md). -/
abbrev TSH_EMPTYCNT : Nat := 0x05000C
/-- TSH_PADCNT (Table 8-7, 08_attention.md). -/
abbrev TSH_PADCNT : Nat := 0x050010
/-- TSH_BLKCNT_LO (Table 8-8, 08_attention.md). -/
abbrev TSH_BLKCNT_LO : Nat := 0x050014
/-- TSH_BLKCNT_HI (Table 8-9, 08_attention.md). -/
abbrev TSH_BLKCNT_HI : Nat := 0x050018
/-- WNW_STAT (Table 6-12, 06_sheaf_numerics.md). -/
abbrev WNW_STAT : Nat := 0x058000
/-- WNW_SATCNT (Table 6-13, 06_sheaf_numerics.md). -/
abbrev WNW_SATCNT : Nat := 0x058004
/-- WNW_DYNSAT (Table 6-14, 06_sheaf_numerics.md). -/
abbrev WNW_DYNSAT : Nat := 0x058008
/-- WNW_TRLCNT (Table 6-15, 06_sheaf_numerics.md). -/
abbrev WNW_TRLCNT : Nat := 0x05800C
/-- WNW_APPCNT_LO (Table 6-16, 06_sheaf_numerics.md). -/
abbrev WNW_APPCNT_LO : Nat := 0x058010
/-- WNW_APPCNT_HI (Table 6-17, 06_sheaf_numerics.md). -/
abbrev WNW_APPCNT_HI : Nat := 0x058014
/-- SVE_STAT (Table 21-2, 21_register_map.md). -/
abbrev SVE_STAT : Nat := 0x060000
/-- SVE_DRAWCNT (Table 21-3, 21_register_map.md). -/
abbrev SVE_DRAWCNT : Nat := 0x060004
/-- RCS_STAT (Table 7-4, 07_recurrence.md). -/
abbrev RCS_STAT : Nat := 0x064000
/-- RCS_SATCNT (Table 7-5, 07_recurrence.md). -/
abbrev RCS_SATCNT : Nat := 0x064004
/-- RCS_STEPS_LO (Table 7-6, 07_recurrence.md). -/
abbrev RCS_STEPS_LO : Nat := 0x064008
/-- RCS_STEPS_HI (Table 7-7, 07_recurrence.md). -/
abbrev RCS_STEPS_HI : Nat := 0x06400C
/-- GLN_CTRL (Table 9-5, 09_kv_cache.md). -/
abbrev GLN_CTRL : Nat := 0x070000
/-- GLN_SWAPBUDGET (Table 9-6, 09_kv_cache.md). -/
abbrev GLN_SWAPBUDGET : Nat := 0x070004
/-- GLN_STAT (Table 9-7, 09_kv_cache.md). -/
abbrev GLN_STAT : Nat := 0x070008
/-- GLN_POOL (Table 9-8, 09_kv_cache.md). -/
abbrev GLN_POOL : Nat := 0x07000C
/-- GLN_LABCNT (Table 9-9, 09_kv_cache.md). -/
abbrev GLN_LABCNT : Nat := 0x070010
/-- GLN_MISSCNT (Table 9-10, 09_kv_cache.md). -/
abbrev GLN_MISSCNT : Nat := 0x070014
/-- GLN_EVAC (Table 9-11, 09_kv_cache.md). -/
abbrev GLN_EVAC : Nat := 0x070018
/-- GLN_BADPTE (Table 9-12, 09_kv_cache.md). -/
abbrev GLN_BADPTE : Nat := 0x07001C
/-- GLN_T2BYTES_LO (after Table 9-12, 09_kv_cache.md). -/
abbrev GLN_T2BYTES_LO : Nat := 0x070020
/-- GLN_T2BYTES_HI (after Table 9-12, 09_kv_cache.md). -/
abbrev GLN_T2BYTES_HI : Nat := 0x070024
/-- CART_STAT (Table 3-8, 03_memory_tiers.md). -/
abbrev CART_STAT : Nat := 0x080000
/-- CART_ERRSTAT (Table 3-9, 03_memory_tiers.md). -/
abbrev CART_ERRSTAT : Nat := 0x080004
/-- CART_ERRADDR_LO (Table 3-10, 03_memory_tiers.md). -/
abbrev CART_ERRADDR_LO : Nat := 0x080008
/-- CART_ERRADDR_HI (Table 3-11, 03_memory_tiers.md). -/
abbrev CART_ERRADDR_HI : Nat := 0x08000C
/-- CART_CHSTAT (Table 3-12, 03_memory_tiers.md). -/
abbrev CART_CHSTAT : Nat := 0x080100
/-- CART_CHBYTES_LO (Table 3-13, 03_memory_tiers.md). -/
abbrev CART_CHBYTES_LO : Nat := 0x080104
/-- CART_CHBYTES_HI (Table 3-14, 03_memory_tiers.md). -/
abbrev CART_CHBYTES_HI : Nat := 0x080108
/-- GRN_CTRL (Table 3-18, 03_memory_tiers.md). -/
abbrev GRN_CTRL : Nat := 0x090000
/-- GRN_ECCSTAT (Table 3-19, 03_memory_tiers.md). -/
abbrev GRN_ECCSTAT : Nat := 0x090010
/-- GRN_ECCCNT (Table 3-20, 03_memory_tiers.md). -/
abbrev GRN_ECCCNT : Nat := 0x090014
/-- GRN_ECCADDR (Table 3-21, 03_memory_tiers.md). -/
abbrev GRN_ECCADDR : Nat := 0x090018
/-- MEMCH_CFG (Table 3-22, 03_memory_tiers.md). -/
abbrev MEMCH_CFG : Nat := 0x0A0000
/-- MEMCH_STAT (Table 3-23, 03_memory_tiers.md). -/
abbrev MEMCH_STAT : Nat := 0x0A0004
/-- MEMCH_ERRCNT (Table 3-24, 03_memory_tiers.md). -/
abbrev MEMCH_ERRCNT : Nat := 0x0A0008
/-- MEMCH_ERRADDR_LO (Table 3-25, 03_memory_tiers.md). -/
abbrev MEMCH_ERRADDR_LO : Nat := 0x0A000C
/-- MEMCH_ERRADDR_HI (Table 3-26, 03_memory_tiers.md). -/
abbrev MEMCH_ERRADDR_HI : Nat := 0x0A0010
/-- HOST_STAT (Table 10-10, 10_host_requests.md). -/
abbrev HOST_STAT : Nat := 0x0B0000
/-- HOST_STAGE (Table 10-11, 10_host_requests.md). -/
abbrev HOST_STAGE : Nat := 0x0B0008
/-- HOST_EVTVEC0 (Table 10-12, 10_host_requests.md). -/
abbrev HOST_EVTVEC0 : Nat := 0x0B0010
/-- HOST_EVTVEC1 (after Table 10-12, 10_host_requests.md). -/
abbrev HOST_EVTVEC1 : Nat := 0x0B0014
/-- HOST_QCTRL (Table 10-13, 10_host_requests.md). -/
abbrev HOST_QCTRL : Nat := 0x0B1000
/-- HOST_SQBASE_LO (HOST registers, 10_host_requests.md). -/
abbrev HOST_SQBASE_LO : Nat := 0x0B1004
/-- HOST_SQBASE_HI (HOST registers, 10_host_requests.md). -/
abbrev HOST_SQBASE_HI : Nat := 0x0B1008
/-- HOST_CQBASE_LO (HOST registers, 10_host_requests.md). -/
abbrev HOST_CQBASE_LO : Nat := 0x0B100C
/-- HOST_CQBASE_HI (HOST registers, 10_host_requests.md). -/
abbrev HOST_CQBASE_HI : Nat := 0x0B1010
/-- HOST_QSTAT (Table 10-14, 10_host_requests.md). -/
abbrev HOST_QSTAT : Nat := 0x0B1014
/-- HOST_QMOD (Table 10-15, 10_host_requests.md). -/
abbrev HOST_QMOD : Nat := 0x0B1018
/-- HOST_SQHEAD (HOST registers, 10_host_requests.md). -/
abbrev HOST_SQHEAD : Nat := 0x0B101C
/-- HOST_CQTAIL (HOST registers, 10_host_requests.md). -/
abbrev HOST_CQTAIL : Nat := 0x0B1020
/-- HOST_SQDB (HOST registers, 10_host_requests.md). -/
abbrev HOST_SQDB : Nat := 0x0B2000
/-- HOST_CQDB (HOST registers, 10_host_requests.md). -/
abbrev HOST_CQDB : Nat := 0x0B2004
/-- HOST_HWTGEN (Table 3-17, 03_memory_tiers.md). -/
abbrev HOST_HWTGEN : Nat := 0x0B3F00
/-- HOST_HWT_LO (Table 3-15, 03_memory_tiers.md). -/
abbrev HOST_HWT_LO : Nat := 0x0B4000
/-- HOST_HWT_HI (Table 3-16, 03_memory_tiers.md). -/
abbrev HOST_HWT_HI : Nat := 0x0B4004
/-- HOST_MSIX_TABLE (Table 21-1, 21_register_map.md). -/
abbrev HOST_MSIX_TABLE : Nat := 0x0B8000
/-- HOST_MSIX_PBA (Table 21-1, 21_register_map.md). -/
abbrev HOST_MSIX_PBA : Nat := 0x0B9000
/-- HSP_CFG (Table 16-8, 16_serial_ports.md). -/
abbrev HSP_CFG : Nat := 0x0C0000
/-- HSP_STAT (Table 16-9, 16_serial_ports.md). -/
abbrev HSP_STAT : Nat := 0x0C0004
/-- HSP_FRAMECNT (Table 16-10, 16_serial_ports.md). -/
abbrev HSP_FRAMECNT : Nat := 0x0C0008
/-- HSP_REJCNT (Table 16-10, 16_serial_ports.md). -/
abbrev HSP_REJCNT : Nat := 0x0C000C
/-- HSP_INTPEND (Table 16-10, 16_serial_ports.md). -/
abbrev HSP_INTPEND : Nat := 0x0C0010
/-- HSP_INTEN (Table 16-10, 16_serial_ports.md). -/
abbrev HSP_INTEN : Nat := 0x0C0014
/-- PSP_SELCLK (Table 16-11, 16_serial_ports.md). -/
abbrev PSP_SELCLK : Nat := 0x0C4000
/-- PSP_SELDLY (Table 16-12, 16_serial_ports.md). -/
abbrev PSP_SELDLY : Nat := 0x0C4004
/-- PSP_XCTRL (Table 16-13, 16_serial_ports.md). -/
abbrev PSP_XCTRL : Nat := 0x0C4020
/-- PSP_XSTAT (Table 16-14, 16_serial_ports.md). -/
abbrev PSP_XSTAT : Nat := 0x0C4024
/-- PSP_TXBUF (Table 16-14, 16_serial_ports.md). -/
abbrev PSP_TXBUF : Nat := 0x0C4100
/-- PSP_RXBUF (Table 16-14, 16_serial_ports.md). -/
abbrev PSP_RXBUF : Nat := 0x0C4200
/-- AP_CTRL (Table 14-4, 14_audio.md). -/
abbrev AP_CTRL : Nat := 0x0D0000
/-- AP_FRAME (Table 14-5, 14_audio.md). -/
abbrev AP_FRAME : Nat := 0x0D0004
/-- AP_FSYNC (Table 14-6, 14_audio.md). -/
abbrev AP_FSYNC : Nat := 0x0D0008
/-- AP_INMASK (R453, 14_audio.md). -/
abbrev AP_INMASK : Nat := 0x0D000C
/-- AP_STAT (Table 14-7, 14_audio.md). -/
abbrev AP_STAT : Nat := 0x0D0010
/-- AP_INTEN (R453, 14_audio.md). -/
abbrev AP_INTEN : Nat := 0x0D0014
/-- AP_RATE (Table 14-8, 14_audio.md). -/
abbrev AP_RATE : Nat := 0x0D0018
/-- AP_RATEDEV (Table 14-8, 14_audio.md). -/
abbrev AP_RATEDEV : Nat := 0x0D001C
/-- AP_RATECFG (Table 14-8, 14_audio.md). -/
abbrev AP_RATECFG : Nat := 0x0D0020
/-- AP_NACFG (Table 14-8, 14_audio.md). -/
abbrev AP_NACFG : Nat := 0x0D0024
/-- AP_NASLOTS (Table 14-8, 14_audio.md). -/
abbrev AP_NASLOTS : Nat := 0x0D0028
/-- AP_SLIPCNT (Table 14-8, 14_audio.md). -/
abbrev AP_SLIPCNT : Nat := 0x0D002C
/-- AP_ZEROCNT (Table 14-8, 14_audio.md). -/
abbrev AP_ZEROCNT : Nat := 0x0D0030
/-- FLL_STAT (Table 14-9, 14_audio.md). -/
abbrev FLL_STAT : Nat := 0x0D8000
/-- FLL_JOBCFG (Table 14-9, 14_audio.md). -/
abbrev FLL_JOBCFG : Nat := 0x0D8100
/-- FLL_JOBOUT (Table 14-9, 14_audio.md). -/
abbrev FLL_JOBOUT : Nat := 0x0D8104
/-- FLL_ZONECFG (Table 14-9, 14_audio.md). -/
abbrev FLL_ZONECFG : Nat := 0x0D8200
/-- FLL_ZONEMICS (Table 14-9, 14_audio.md). -/
abbrev FLL_ZONEMICS : Nat := 0x0D8204
/-- FLL_ZONEECHO (Table 14-9, 14_audio.md). -/
abbrev FLL_ZONEECHO : Nat := 0x0D8208
/-- FLL_ZONECOEF (Table 14-9, 14_audio.md). -/
abbrev FLL_ZONECOEF : Nat := 0x0D820C
/-- QRN_STAT (Table 14-9, 14_audio.md). -/
abbrev QRN_STAT : Nat := 0x0DC000
/-- QRN_LIM (Table 14-9, 14_audio.md). -/
abbrev QRN_LIM : Nat := 0x0DC004
/-- QRN_JOBCFG (Table 14-9, 14_audio.md). -/
abbrev QRN_JOBCFG : Nat := 0x0DC100
/-- QRN_JOBIN (Table 14-9, 14_audio.md). -/
abbrev QRN_JOBIN : Nat := 0x0DC104
/-- QRN_OSTAT (Table 14-9, 14_audio.md). -/
abbrev QRN_OSTAT : Nat := 0x0DC200
/-- QRN_OGAIN (Table 14-9, 14_audio.md). -/
abbrev QRN_OGAIN : Nat := 0x0DC204
/-- CAM_CTRL (Table 15-3, 15_seat_camera.md). -/
abbrev CAM_CTRL : Nat := 0x0E0000
/-- CAM_SIZE (Table 15-4, 15_seat_camera.md). -/
abbrev CAM_SIZE : Nat := 0x0E0004
/-- CAM_AREA (Table 15-4, 15_seat_camera.md). -/
abbrev CAM_AREA : Nat := 0x0E0008
/-- CAM_STAT (Table 15-4, 15_seat_camera.md). -/
abbrev CAM_STAT : Nat := 0x0E000C
/-- CAM_INTEN (R466, 15_seat_camera.md). -/
abbrev CAM_INTEN : Nat := 0x0E0010
/-- CAM_GATECFG (Table 15-4, 15_seat_camera.md). -/
abbrev CAM_GATECFG : Nat := 0x0E0014
/-- CAM_LIPSTAT (Table 15-4, 15_seat_camera.md). -/
abbrev CAM_LIPSTAT : Nat := 0x0E0018
/-- CAM_FRAMECNT (Table 15-4, 15_seat_camera.md). -/
abbrev CAM_FRAMECNT : Nat := 0x0E001C
/-- CAM_BADCNT (Table 15-4, 15_seat_camera.md). -/
abbrev CAM_BADCNT : Nat := 0x0E0020
/-- CAM_DROPCNT (Table 15-4, 15_seat_camera.md). -/
abbrev CAM_DROPCNT : Nat := 0x0E0024
/-- GLM_STAT (Table 15-4, 15_seat_camera.md). -/
abbrev GLM_STAT : Nat := 0x0E0080
/-- GLM_JOBSIZE (Table 15-4, 15_seat_camera.md). -/
abbrev GLM_JOBSIZE : Nat := 0x0E0100
/-- GLM_JOBCROP (Table 15-4, 15_seat_camera.md). -/
abbrev GLM_JOBCROP : Nat := 0x0E0104
/-- GLM_JOBOUT (Table 15-4, 15_seat_camera.md). -/
abbrev GLM_JOBOUT : Nat := 0x0E0108
/-- GDN_CTRL (Table 13-9, 13_stooks.md). -/
abbrev GDN_CTRL : Nat := 0x0F0000
/-- GDN_STAT (Table 13-10, 13_stooks.md). -/
abbrev GDN_STAT : Nat := 0x0F0004
/-- GDN_LANE (Table 13-11, 13_stooks.md). -/
abbrev GDN_LANE : Nat := 0x0F0008
/-- GDN_CRCCNT (Table 13-12, 13_stooks.md). -/
abbrev GDN_CRCCNT : Nat := 0x0F000C
/-- GDN_REPLAYCNT (Table 13-12, 13_stooks.md). -/
abbrev GDN_REPLAYCNT : Nat := 0x0F0010
/-- GDN_RETRAINCNT (Table 13-12, 13_stooks.md). -/
abbrev GDN_RETRAINCNT : Nat := 0x0F0014
/-- GDN_MARKERCNT (Table 13-12, 13_stooks.md). -/
abbrev GDN_MARKERCNT : Nat := 0x0F0018
/-- GDN_TXFLITS_LO (Table 13-12, 13_stooks.md). -/
abbrev GDN_TXFLITS_LO : Nat := 0x0F001C
/-- GDN_TXFLITS_HI (Table 13-12, 13_stooks.md). -/
abbrev GDN_TXFLITS_HI : Nat := 0x0F0020
/-- GDN_INTEN (R423, 13_stooks.md). -/
abbrev GDN_INTEN : Nat := 0x0F0024
/-- GDN_STOOK (Table 13-13, 13_stooks.md). -/
abbrev GDN_STOOK : Nat := 0x0F8000
/-- GDN_LOSS (Table 13-14, 13_stooks.md). -/
abbrev GDN_LOSS : Nat := 0x0F8004
/-- GDN_INCARN (GDN registers, 13_stooks.md). -/
abbrev GDN_INCARN : Nat := 0x0F8008
/-- PWR_CTRL (Table 12-4, 12_power_thermal.md). -/
abbrev PWR_CTRL : Nat := 0x100000
/-- PWR_CAPMW (Table 12-5, 12_power_thermal.md). -/
abbrev PWR_CAPMW : Nat := 0x100004
/-- PWR_CAPLIM (Table 12-6, 12_power_thermal.md). -/
abbrev PWR_CAPLIM : Nat := 0x100008
/-- PWR_CAPEFF (Table 12-7, 12_power_thermal.md). -/
abbrev PWR_CAPEFF : Nat := 0x10000C
/-- PWR_MEAS (Table 12-8, 12_power_thermal.md). -/
abbrev PWR_MEAS : Nat := 0x100010
/-- PWR_EST (Table 12-9, 12_power_thermal.md). -/
abbrev PWR_EST : Nat := 0x100014
/-- PWR_CAL (Table 12-10, 12_power_thermal.md). -/
abbrev PWR_CAL : Nat := 0x10001C
/-- PWR_DUTY (Table 12-11, 12_power_thermal.md). -/
abbrev PWR_DUTY : Nat := 0x100020
/-- PWR_STAT (Table 12-12, 12_power_thermal.md). -/
abbrev PWR_STAT : Nat := 0x100024
/-- PWR_INTEN (PWR registers, 12_power_thermal.md). -/
abbrev PWR_INTEN : Nat := 0x100028
/-- PWR_VOP (Table 12-13, 12_power_thermal.md). -/
abbrev PWR_VOP : Nat := 0x10002C
/-- PWR_STOOK (Table 12-14, 12_power_thermal.md). -/
abbrev PWR_STOOK : Nat := 0x100030
/-- PWR_STOOKCAPMW (Table 12-15, 12_power_thermal.md). -/
abbrev PWR_STOOKCAPMW : Nat := 0x100034
/-- PWR_SHAREMW (Table 12-16, 12_power_thermal.md). -/
abbrev PWR_SHAREMW : Nat := 0x100038
/-- PWR_ENERGY_LO (PWR registers, 12_power_thermal.md). -/
abbrev PWR_ENERGY_LO : Nat := 0x100040
/-- PWR_ENERGY_HI (PWR registers, 12_power_thermal.md). -/
abbrev PWR_ENERGY_HI : Nat := 0x100044
/-- PWR_ENUNATTR_LO (PWR registers, 12_power_thermal.md). -/
abbrev PWR_ENUNATTR_LO : Nat := 0x100048
/-- PWR_ENUNATTR_HI (PWR registers, 12_power_thermal.md). -/
abbrev PWR_ENUNATTR_HI : Nat := 0x10004C
/-- PWR_RAIL (Table 12-17, 12_power_thermal.md). -/
abbrev PWR_RAIL : Nat := 0x100100
/-- PWR_TSVAL (Table 12-18, 12_power_thermal.md). -/
abbrev PWR_TSVAL : Nat := 0x100200
/-- PWR_TSLIM (Table 12-19, 12_power_thermal.md). -/
abbrev PWR_TSLIM : Nat := 0x100300
/-- PWR_TSCFG (Table 12-20, 12_power_thermal.md). -/
abbrev PWR_TSCFG : Nat := 0x100400
/-- PWR_TSMAX (Table 12-21, 12_power_thermal.md). -/
abbrev PWR_TSMAX : Nat := 0x100404
/-- NVC_BOOTSTAT (Table 18-9, 18_nv_image.md). -/
abbrev NVC_BOOTSTAT : Nat := 0x110000
/-- NVC_EPOCH (Table 18-10, 18_nv_image.md). -/
abbrev NVC_EPOCH : Nat := 0x110004
/-- NVC_OVLSTAT (Table 18-10, 18_nv_image.md). -/
abbrev NVC_OVLSTAT : Nat := 0x110008
/-- NVC_OVLPEND_LO (Table 18-10, 18_nv_image.md). -/
abbrev NVC_OVLPEND_LO : Nat := 0x11000C
/-- NVC_OVLPEND_HI (Table 18-10, 18_nv_image.md). -/
abbrev NVC_OVLPEND_HI : Nat := 0x110010
/-- NVC_FGEN (Table 18-10, 18_nv_image.md). -/
abbrev NVC_FGEN : Nat := 0x110014
/-- NVC_UGEN (Table 18-10, 18_nv_image.md). -/
abbrev NVC_UGEN : Nat := 0x110018
/-- NVC_UPDSRC_LO (Table 18-10, 18_nv_image.md). -/
abbrev NVC_UPDSRC_LO : Nat := 0x110020
/-- NVC_UPDSRC_HI (Table 18-10, 18_nv_image.md). -/
abbrev NVC_UPDSRC_HI : Nat := 0x110024
/-- NVC_UPDLEN (Table 18-10, 18_nv_image.md). -/
abbrev NVC_UPDLEN : Nat := 0x110028
/-- NVC_UPDCTRL (Table 18-10, 18_nv_image.md). -/
abbrev NVC_UPDCTRL : Nat := 0x11002C
/-- NVC_UPDSTAT (Table 18-10, 18_nv_image.md). -/
abbrev NVC_UPDSTAT : Nat := 0x110030
/-- NVC_INTEN (NVC and SEC registers, 18_nv_image.md). -/
abbrev NVC_INTEN : Nat := 0x110034
/-- ERRLOG_STAT (Table 11-8, 11_ordering_errors.md). -/
abbrev ERRLOG_STAT : Nat := 0x120000
/-- ERRLOG_HEAD (Table 11-9, 11_ordering_errors.md). -/
abbrev ERRLOG_HEAD : Nat := 0x120004
/-- ERRLOG_TAIL (Table 11-10, 11_ordering_errors.md). -/
abbrev ERRLOG_TAIL : Nat := 0x120008
/-- ERRLOG_VHEAD (after Table 11-10, 11_ordering_errors.md). -/
abbrev ERRLOG_VHEAD : Nat := 0x12000C
/-- ERRLOG_VTAIL (after Table 11-10, 11_ordering_errors.md). -/
abbrev ERRLOG_VTAIL : Nat := 0x120010
/-- ERRLOG_INTEN (Table 11-11, 11_ordering_errors.md). -/
abbrev ERRLOG_INTEN : Nat := 0x120014
/-- ERRLOG_ALERTEN (Table 11-12, 11_ordering_errors.md). -/
abbrev ERRLOG_ALERTEN : Nat := 0x120018
/-- ERRLOG_DIAGEN (Table 11-13, 11_ordering_errors.md). -/
abbrev ERRLOG_DIAGEN : Nat := 0x12001C
/-- ERRLOG_ECNT (R349, 11_ordering_errors.md). -/
abbrev ERRLOG_ECNT : Nat := 0x120100
/-- ERRLOG_VCNT (R349, 11_ordering_errors.md). -/
abbrev ERRLOG_VCNT : Nat := 0x120200
/-- ERRLOG_E (Table 11-5, 11_ordering_errors.md). -/
abbrev ERRLOG_E : Nat := 0x121000
/-- ERRLOG_V (Table 11-5, 11_ordering_errors.md). -/
abbrev ERRLOG_V : Nat := 0x124000
/-- SEC_STAT (Table 18-10, 18_nv_image.md). -/
abbrev SEC_STAT : Nat := 0x130000
/-- SEC_DBGCTRL (Table 18-10, 18_nv_image.md). -/
abbrev SEC_DBGCTRL : Nat := 0x130004
/-- SEC_VENDHASH (Table 18-10, 18_nv_image.md). -/
abbrev SEC_VENDHASH : Nat := 0x130020
/-- SEC_OWNHASH (Table 18-10, 18_nv_image.md). -/
abbrev SEC_OWNHASH : Nat := 0x130040
/-- SEC_PROVHASH (Table 18-10, 18_nv_image.md). -/
abbrev SEC_PROVHASH : Nat := 0x130060
/-- SEC_PROVCMD (Table 18-10, 18_nv_image.md). -/
abbrev SEC_PROVCMD : Nat := 0x130080
/-- CCMB_CORESTAT (Table 21-4, 21_register_map.md). -/
abbrev CCMB_CORESTAT : Nat := 0x140000
/-- CCMB_FWVER (Table 21-5, 21_register_map.md). -/
abbrev CCMB_FWVER : Nat := 0x140020

end Reg

/-- The registers of the GLOBAL block. -/
def regsGlobal : List RegDesc := [
  ⟨"GLOBAL_IDCODE", 0x000000, 1, 0x0, .single, [⟨"VALUE", 0, 32, .ro, .any⟩]⟩,
  ⟨"GLOBAL_LOT_LO", 0x000004, 1, 0x0, .low, [⟨"VALUE", 0, 32, .ro, .any⟩]⟩,
  ⟨"GLOBAL_LOT_HI", 0x000008, 1, 0x0, .high, [⟨"LOT", 0, 16, .ro, .any⟩]⟩,
  ⟨"GLOBAL_DIE", 0x00000C, 1, 0x0, .single, [⟨"VARIANT", 24, 2, .ro, .any⟩,
     ⟨"DIEY", 16, 8, .ro, .any⟩,
     ⟨"DIEX", 8, 8, .ro, .any⟩,
     ⟨"WAFER", 0, 5, .ro, .any⟩]⟩,
  ⟨"GLOBAL_UID_LO", 0x000010, 1, 0x0, .low, [⟨"VALUE", 0, 32, .ro, .any⟩]⟩,
  ⟨"GLOBAL_UID_HI", 0x000014, 1, 0x0, .high, [⟨"VALUE", 0, 32, .ro, .any⟩]⟩,
  ⟨"GLOBAL_VOP", 0x000020, 8, 0x4, .single, [⟨"TJLIM", 16, 8, .ro, .any⟩,
     ⟨"VDD_CORE", 0, 10, .ro, .any⟩]⟩,
  ⟨"GLOBAL_PWRSTAT", 0x000100, 1, 0x0, .single, [⟨"LASTOFF", 8, 4, .ro, .any⟩,
     ⟨"RETLOST", 4, 1, .w1c, .any⟩,
     ⟨"AONLOST", 3, 1, .w1c, .any⟩,
     ⟨"PGOOD", 2, 1, .ro, .any⟩,
     ⟨"ONREQ", 1, 1, .ro, .any⟩,
     ⟨"READY", 0, 1, .ro, .any⟩]⟩,
  ⟨"GLOBAL_RSTREQ", 0x000104, 1, 0x0, .single, [⟨"CHECK", 24, 8, .wo, .any⟩,
     ⟨"KIND", 0, 2, .wo, .any⟩]⟩,
  ⟨"GLOBAL_KEEPCFG", 0x000108, 1, 0x0, .single, [⟨"ILIM", 8, 9, .rw, .range 1 100⟩,
     ⟨"CHGEN", 4, 1, .rw, .any⟩,
     ⟨"TYPE", 0, 2, .rw, .range 0 2⟩]⟩,
  ⟨"GLOBAL_KEEPSTAT", 0x00010C, 1, 0x0, .single, [⟨"PRESENT", 31, 1, .ro, .any⟩,
     ⟨"CHARGING", 30, 1, .ro, .any⟩,
     ⟨"FLOAT", 29, 1, .ro, .any⟩,
     ⟨"REMOVED", 28, 1, .w1c, .any⟩,
     ⟨"INSERTED", 27, 1, .w1c, .any⟩,
     ⟨"FAULT", 26, 1, .w1c, .any⟩,
     ⟨"ICHG", 14, 10, .ro, .any⟩,
     ⟨"VKEEP", 0, 12, .ro, .any⟩]⟩,
  ⟨"GLOBAL_MONO_LO", 0x000110, 1, 0x0, .low, [⟨"VALUE", 0, 32, .ro, .any⟩]⟩,
  ⟨"GLOBAL_MONO_HI", 0x000114, 1, 0x0, .high, [⟨"VALUE", 0, 32, .ro, .any⟩]⟩,
  ⟨"GLOBAL_JRNL", 0x000200, 256, 0x4, .single, [⟨"VALUE", 0, 32, .ro, .any⟩]⟩]

/-- The registers of the TICK block. -/
def regsTick : List RegDesc := [
  ⟨"TICK_CTRL", 0x010000, 1, 0x0, .single, [⟨"SHEDALERT", 1, 1, .rw, .any⟩,
     ⟨"RUN", 0, 1, .rw, .any⟩]⟩,
  ⟨"TICK_PERIOD", 0x010004, 1, 0x0, .single, [⟨"PERIOD", 0, 7, .rwt, .range 10 80⟩]⟩,
  ⟨"TICK_FALLOW", 0x010008, 1, 0x0, .single, [⟨"FALLOW", 0, 6, .rwt, .range 5 40⟩]⟩,
  ⟨"TICK_SLIP", 0x01000C, 1, 0x0, .single, [⟨"SLIP", 0, 6, .rwt, .range 0 50⟩]⟩,
  ⟨"TICK_SRC", 0x010010, 1, 0x0, .single, [⟨"AUTORELOCK", 31, 1, .rwt, .any⟩,
     ⟨"FRAMES", 16, 13, .rwt, .any⟩,
     ⟨"SEL", 0, 3, .rwt, .range 0 5⟩]⟩,
  ⟨"TICK_LOCKTOL", 0x010014, 1, 0x0, .single, [⟨"PPM", 0, 12, .rw, .range 50 2000⟩]⟩,
  ⟨"TICK_STAT", 0x010018, 1, 0x0, .single, [⟨"SRCCHG", 14, 1, .w1c, .any⟩,
     ⟨"BUDGET", 13, 1, .w1c, .any⟩,
     ⟨"CFGREJ", 12, 1, .w1c, .any⟩,
     ⟨"CARRY", 11, 1, .w1c, .any⟩,
     ⟨"SKIP", 10, 1, .w1c, .any⟩,
     ⟨"SHED", 9, 1, .w1c, .any⟩,
     ⟨"STRETCH", 8, 1, .w1c, .any⟩,
     ⟨"SYNCLOST", 4, 1, .ro, .any⟩,
     ⟨"HOLDOVER", 3, 1, .ro, .any⟩,
     ⟨"LOCKED", 2, 1, .ro, .any⟩,
     ⟨"INFALLOW", 1, 1, .ro, .any⟩,
     ⟨"RUNNING", 0, 1, .ro, .any⟩]⟩,
  ⟨"TICK_INTEN", 0x01001C, 1, 0x0, .single, [⟨"EN", 8, 7, .rw, .any⟩]⟩,
  ⟨"TICK_COUNT_LO", 0x010020, 1, 0x0, .low, [⟨"COUNT", 0, 32, .ro, .any⟩]⟩,
  ⟨"TICK_COUNT_HI", 0x010024, 1, 0x0, .high, [⟨"COUNT", 0, 32, .ro, .any⟩]⟩,
  ⟨"TICK_LAG", 0x010028, 1, 0x0, .single, [⟨"LAG", 0, 16, .ro, .any⟩]⟩,
  ⟨"TICK_LAGPEAK", 0x01002C, 1, 0x0, .single, [⟨"PEAK", 0, 16, .rw, .any⟩]⟩,
  ⟨"TICK_WORKEND", 0x010030, 1, 0x0, .single, [⟨"WORKEND", 0, 16, .ro, .any⟩]⟩,
  ⟨"TICK_BUBBLE", 0x010034, 1, 0x0, .single, [⟨"CYCLES", 0, 24, .ro, .any⟩]⟩,
  ⟨"TICK_EVCNT0", 0x010038, 1, 0x0, .single, [⟨"SHED", 16, 16, .ro, .any⟩,
     ⟨"STRETCH", 0, 16, .ro, .any⟩]⟩,
  ⟨"TICK_EVCNT1", 0x01003C, 1, 0x0, .single, [⟨"CARRY", 16, 16, .ro, .any⟩,
     ⟨"SKIP", 0, 16, .ro, .any⟩]⟩,
  ⟨"TICK_STOOK", 0x010040, 1, 0x0, .single, [⟨"MASTERADJ", 8, 8, .rwt, .any⟩,
     ⟨"MASTER", 1, 1, .rwt, .any⟩,
     ⟨"STOOK", 0, 1, .rwt, .any⟩]⟩]

/-- The registers of the PLAN block. -/
def regsPlan : List RegDesc := [
  ⟨"PLAN_STAT", 0x020000, 1, 0x0, .single, [⟨"DEACT", 10, 1, .w1c, .any⟩,
     ⟨"FAULT", 9, 1, .w1c, .any⟩,
     ⟨"LOADERR", 8, 1, .w1c, .any⟩,
     ⟨"BANK", 3, 1, .ro, .any⟩,
     ⟨"LOADING", 2, 1, .ro, .any⟩,
     ⟨"PENDING", 1, 1, .ro, .any⟩,
     ⟨"ACTIVE", 0, 1, .ro, .any⟩]⟩,
  ⟨"PLAN_LOADERR", 0x020004, 1, 0x0, .single, [⟨"SECTION", 8, 8, .ro, .any⟩,
     ⟨"CODE", 0, 8, .ro, .any⟩]⟩,
  ⟨"PLAN_ACTID_LO", 0x020008, 1, 0x0, .low, [⟨"ID", 0, 32, .ro, .any⟩]⟩,
  ⟨"PLAN_ACTID_HI", 0x02000C, 1, 0x0, .high, [⟨"ID", 0, 32, .ro, .any⟩]⟩,
  ⟨"PLAN_PENDID_LO", 0x020010, 1, 0x0, .low, [⟨"ID", 0, 32, .ro, .any⟩]⟩,
  ⟨"PLAN_PENDID_HI", 0x020014, 1, 0x0, .high, [⟨"ID", 0, 32, .ro, .any⟩]⟩,
  ⟨"PLAN_FAULT", 0x020018, 1, 0x0, .single, [⟨"VALID", 31, 1, .ro, .any⟩,
     ⟨"ENGINE", 16, 6, .ro, .any⟩,
     ⟨"VARIANT", 8, 3, .ro, .any⟩,
     ⟨"CAUSE", 0, 4, .ro, .any⟩]⟩,
  ⟨"PLAN_FAULTPC", 0x02001C, 1, 0x0, .single, [⟨"WORD", 0, 12, .ro, .any⟩]⟩,
  ⟨"PLAN_FAULTTICK", 0x020020, 1, 0x0, .single, [⟨"TICK", 0, 32, .ro, .any⟩]⟩,
  ⟨"PLAN_ENGSTAT", 0x020100, 33, 0x4, .single, [⟨"EXH", 31, 1, .ro, .any⟩,
     ⟨"VARIANT", 28, 3, .ro, .any⟩,
     ⟨"REMAIN", 0, 28, .ro, .any⟩]⟩,
  ⟨"PLAN_KNOT", 0x020200, 64, 0x4, .single, [⟨"START", 16, 16, .ro, .any⟩,
     ⟨"VALUE", 0, 16, .ro, .any⟩]⟩]

/-- The registers of the SHF block. -/
def regsShf : List RegDesc := [
  ⟨"SHF_STAT", 0x040000, 16, 0x1000, .single, [⟨"BUSY", 8, 1, .ro, .any⟩,
     ⟨"PINNED", 0, 8, .ro, .any⟩]⟩,
  ⟨"SHF_ECCSTAT", 0x040004, 16, 0x1000, .single, [⟨"ROW", 16, 5, .ro, .any⟩,
     ⟨"BANK", 8, 3, .ro, .any⟩,
     ⟨"UE", 1, 1, .w1c, .any⟩,
     ⟨"CE", 0, 1, .w1c, .any⟩]⟩,
  ⟨"SHF_ECCCNT", 0x040008, 16, 0x1000, .single, [⟨"UECNT", 16, 16, .rw, .any⟩,
     ⟨"CECNT", 0, 16, .rw, .any⟩]⟩,
  ⟨"SHF_SATCNT", 0x04000C, 16, 0x1000, .single, [⟨"COUNT", 0, 32, .rw, .any⟩]⟩,
  ⟨"SHF_OVFCNT", 0x040010, 16, 0x1000, .single, [⟨"COUNT", 0, 32, .rw, .any⟩]⟩,
  ⟨"SHF_TRLCNT", 0x040014, 16, 0x1000, .single, [⟨"COUNT", 0, 32, .rw, .any⟩]⟩,
  ⟨"SHF_MACCNT_LO", 0x040018, 16, 0x1000, .low, [⟨"COUNT", 0, 32, .ro, .any⟩]⟩,
  ⟨"SHF_MACCNT_HI", 0x04001C, 16, 0x1000, .high, [⟨"COUNT", 0, 32, .ro, .any⟩]⟩]

/-- The registers of the TSH block. -/
def regsTsh : List RegDesc := [
  ⟨"TSH_STAT", 0x050000, 2, 0x400, .single, [⟨"CH1DESC", 2, 1, .ro, .any⟩,
     ⟨"CH0DESC", 1, 1, .ro, .any⟩,
     ⟨"BUSY", 0, 1, .ro, .any⟩]⟩,
  ⟨"TSH_CHCFG", 0x050004, 2, 0x400, .single, [⟨"CH1DESC", 1, 1, .rwt, .any⟩,
     ⟨"CH0DESC", 0, 1, .rwt, .any⟩]⟩,
  ⟨"TSH_SATCNT", 0x050008, 2, 0x400, .single, [⟨"COUNT", 0, 32, .rw, .any⟩]⟩,
  ⟨"TSH_EMPTYCNT", 0x05000C, 2, 0x400, .single, [⟨"COUNT", 0, 32, .rw, .any⟩]⟩,
  ⟨"TSH_PADCNT", 0x050010, 2, 0x400, .single, [⟨"COUNT", 0, 32, .rw, .any⟩]⟩,
  ⟨"TSH_BLKCNT_LO", 0x050014, 2, 0x400, .low, [⟨"COUNT", 0, 32, .ro, .any⟩]⟩,
  ⟨"TSH_BLKCNT_HI", 0x050018, 2, 0x400, .high, [⟨"COUNT", 0, 32, .ro, .any⟩]⟩]

/-- The registers of the WNW block. -/
def regsWnw : List RegDesc := [
  ⟨"WNW_STAT", 0x058000, 2, 0x100, .single, [⟨"BUSY", 0, 1, .ro, .any⟩]⟩,
  ⟨"WNW_SATCNT", 0x058004, 2, 0x100, .single, [⟨"COUNT", 0, 32, .rw, .any⟩]⟩,
  ⟨"WNW_DYNSAT", 0x058008, 2, 0x100, .single, [⟨"COUNT", 0, 32, .rw, .any⟩]⟩,
  ⟨"WNW_TRLCNT", 0x05800C, 2, 0x100, .single, [⟨"COUNT", 0, 32, .rw, .any⟩]⟩,
  ⟨"WNW_APPCNT_LO", 0x058010, 2, 0x100, .low, [⟨"COUNT", 0, 32, .ro, .any⟩]⟩,
  ⟨"WNW_APPCNT_HI", 0x058014, 2, 0x100, .high, [⟨"COUNT", 0, 32, .ro, .any⟩]⟩]

/-- The registers of the SVE block. -/
def regsSve : List RegDesc := [
  ⟨"SVE_STAT", 0x060000, 1, 0x0, .single, [⟨"BUSY", 0, 1, .ro, .any⟩]⟩,
  ⟨"SVE_DRAWCNT", 0x060004, 1, 0x0, .single, [⟨"COUNT", 0, 32, .rw, .any⟩]⟩]

/-- The registers of the RCS block. -/
def regsRcs : List RegDesc := [
  ⟨"RCS_STAT", 0x064000, 1, 0x0, .single, [⟨"BUSY", 0, 1, .ro, .any⟩]⟩,
  ⟨"RCS_SATCNT", 0x064004, 1, 0x0, .single, [⟨"COUNT", 0, 32, .rw, .any⟩]⟩,
  ⟨"RCS_STEPS_LO", 0x064008, 1, 0x0, .low, [⟨"COUNT", 0, 32, .ro, .any⟩]⟩,
  ⟨"RCS_STEPS_HI", 0x06400C, 1, 0x0, .high, [⟨"COUNT", 0, 32, .ro, .any⟩]⟩]

/-- The registers of the GLN block. -/
def regsGln : List RegDesc := [
  ⟨"GLN_CTRL", 0x070000, 1, 0x0, .single, [⟨"PREEMPTEN", 16, 1, .rw, .any⟩,
     ⟨"IDLETICKS", 0, 16, .rw, .any⟩]⟩,
  ⟨"GLN_SWAPBUDGET", 0x070004, 1, 0x0, .single, [⟨"BUDGET", 0, 11, .rwt, .range 0x10 0x400⟩]⟩,
  ⟨"GLN_STAT", 0x070008, 1, 0x0, .single, [⟨"SWAPPED", 16, 7, .ro, .any⟩,
     ⟨"PARKED", 8, 7, .ro, .any⟩,
     ⟨"ADMITTED", 0, 7, .ro, .any⟩]⟩,
  ⟨"GLN_POOL", 0x07000C, 1, 0x0, .single, [⟨"T1FREE", 16, 16, .ro, .any⟩,
     ⟨"T0FREE", 0, 16, .ro, .any⟩]⟩,
  ⟨"GLN_LABCNT", 0x070010, 1, 0x0, .single, [⟨"HIT", 16, 16, .rw, .any⟩,
     ⟨"MISS", 0, 16, .rw, .any⟩]⟩,
  ⟨"GLN_MISSCNT", 0x070014, 1, 0x0, .single, [⟨"PREEMPT", 16, 16, .rw, .any⟩,
     ⟨"MISS", 0, 16, .rw, .any⟩]⟩,
  ⟨"GLN_EVAC", 0x070018, 1, 0x0, .single, [⟨"BUSY", 31, 1, .ro, .any⟩,
     ⟨"DONE", 30, 1, .w1c, .any⟩,
     ⟨"FAIL", 29, 1, .w1c, .any⟩,
     ⟨"GO", 28, 1, .wo, .any⟩,
     ⟨"ENTRY", 0, 10, .rw, .any⟩]⟩,
  ⟨"GLN_BADPTE", 0x07001C, 1, 0x0, .single, [⟨"COUNT", 0, 32, .rw, .any⟩]⟩,
  ⟨"GLN_T2BYTES_LO", 0x070020, 1, 0x0, .low, [⟨"VALUE", 0, 32, .ro, .any⟩]⟩,
  ⟨"GLN_T2BYTES_HI", 0x070024, 1, 0x0, .high, [⟨"VALUE", 0, 32, .ro, .any⟩]⟩]

/-- The registers of the CART block. -/
def regsCart : List RegDesc := [
  ⟨"CART_STAT", 0x080000, 1, 0x0, .single, [⟨"FALLOW", 16, 1, .ro, .any⟩,
     ⟨"PAUSED", 8, 8, .ro, .any⟩,
     ⟨"BUSY", 0, 8, .ro, .any⟩]⟩,
  ⟨"CART_ERRSTAT", 0x080004, 1, 0x0, .single, [⟨"COUNT", 24, 8, .ro, .any⟩,
     ⟨"CHAN", 16, 3, .ro, .any⟩,
     ⟨"FENCED", 4, 1, .w1c, .any⟩,
     ⟨"OVERLAP", 3, 1, .w1c, .any⟩,
     ⟨"DESC", 2, 1, .w1c, .any⟩,
     ⟨"DSTERR", 1, 1, .w1c, .any⟩,
     ⟨"SRCERR", 0, 1, .w1c, .any⟩]⟩,
  ⟨"CART_ERRADDR_LO", 0x080008, 1, 0x0, .low, [⟨"ADDR", 0, 32, .ro, .any⟩]⟩,
  ⟨"CART_ERRADDR_HI", 0x08000C, 1, 0x0, .high, [⟨"ADDR", 0, 12, .ro, .any⟩]⟩,
  ⟨"CART_CHSTAT", 0x080100, 8, 0x20, .single, [⟨"OWNER", 8, 7, .ro, .any⟩,
     ⟨"MODE", 4, 1, .ro, .any⟩,
     ⟨"STATE", 0, 3, .ro, .any⟩]⟩,
  ⟨"CART_CHBYTES_LO", 0x080104, 8, 0x20, .low, [⟨"BYTES", 0, 32, .ro, .any⟩]⟩,
  ⟨"CART_CHBYTES_HI", 0x080108, 8, 0x20, .high, [⟨"BYTES", 0, 32, .ro, .any⟩]⟩]

/-- The registers of the GRN block. -/
def regsGrn : List RegDesc := [
  ⟨"GRN_CTRL", 0x090000, 1, 0x0, .single, [⟨"SCRUBQ", 4, 8, .rw, .any⟩,
     ⟨"SCRUBEN", 0, 1, .rw, .any⟩]⟩,
  ⟨"GRN_ECCSTAT", 0x090010, 1, 0x0, .single, [⟨"WBOVF", 3, 1, .w1c, .any⟩,
     ⟨"POISONRD", 2, 1, .w1c, .any⟩,
     ⟨"UE", 1, 1, .w1c, .any⟩,
     ⟨"CE", 0, 1, .w1c, .any⟩]⟩,
  ⟨"GRN_ECCCNT", 0x090014, 1, 0x0, .single, [⟨"UECNT", 16, 16, .rw, .any⟩,
     ⟨"CECNT", 0, 16, .rw, .any⟩]⟩,
  ⟨"GRN_ECCADDR", 0x090018, 1, 0x0, .single, [⟨"ADDR", 3, 23, .ro, .any⟩]⟩]

/-- The registers of the MEMCH block. -/
def regsMemch : List RegDesc := [
  ⟨"MEMCH_CFG", 0x0A0000, 1, 0x0, .single, [⟨"RATE", 16, 16, .ro, .any⟩,
     ⟨"DENSITY", 0, 2, .ro, .any⟩]⟩,
  ⟨"MEMCH_STAT", 0x0A0004, 1, 0x0, .single, [⟨"RETRY", 10, 1, .w1c, .any⟩,
     ⟨"WRERR", 9, 1, .w1c, .any⟩,
     ⟨"RDERR", 8, 1, .w1c, .any⟩,
     ⟨"REFX4", 2, 1, .ro, .any⟩,
     ⟨"REFX2", 1, 1, .ro, .any⟩,
     ⟨"READY", 0, 1, .ro, .any⟩]⟩,
  ⟨"MEMCH_ERRCNT", 0x0A0008, 1, 0x0, .single, [⟨"FAIL", 16, 16, .rw, .any⟩,
     ⟨"RETRY", 0, 16, .rw, .any⟩]⟩,
  ⟨"MEMCH_ERRADDR_LO", 0x0A000C, 1, 0x0, .low, [⟨"ADDR", 0, 32, .ro, .any⟩]⟩,
  ⟨"MEMCH_ERRADDR_HI", 0x0A0010, 1, 0x0, .high, [⟨"ADDR", 0, 12, .ro, .any⟩]⟩]

/-- The registers of the HOST block. -/
def regsHost : List RegDesc := [
  ⟨"HOST_STAT", 0x0B0000, 1, 0x0, .single, [⟨"SPEED", 16, 4, .ro, .any⟩,
     ⟨"WIDTH", 8, 5, .ro, .any⟩,
     ⟨"STAGEREJ", 1, 1, .w1c, .any⟩,
     ⟨"FLR", 0, 1, .w1c, .any⟩]⟩,
  ⟨"HOST_STAGE", 0x0B0008, 1, 0x0, .single, [⟨"EN", 31, 1, .rwt, .any⟩,
     ⟨"SIZE", 16, 10, .rwt, .range 1 768⟩,
     ⟨"BASE", 0, 10, .rwt, .range 0 767⟩]⟩,
  ⟨"HOST_EVTVEC0", 0x0B0010, 1, 0x0, .single, [⟨"PWREN", 31, 1, .rw, .any⟩,
     ⟨"PWRVEC", 24, 5, .rw, .any⟩,
     ⟨"ERREN", 23, 1, .rw, .any⟩,
     ⟨"ERRVEC", 16, 5, .rw, .any⟩,
     ⟨"PLANEN", 15, 1, .rw, .any⟩,
     ⟨"PLANVEC", 8, 5, .rw, .any⟩,
     ⟨"TICKEN", 7, 1, .rw, .any⟩,
     ⟨"TICKVEC", 0, 5, .rw, .any⟩]⟩,
  ⟨"HOST_EVTVEC1", 0x0B0014, 1, 0x0, .single, [⟨"NVCEN", 31, 1, .rw, .any⟩,
     ⟨"NVCVEC", 24, 5, .rw, .any⟩,
     ⟨"GDNEN", 23, 1, .rw, .any⟩,
     ⟨"GDNVEC", 16, 5, .rw, .any⟩,
     ⟨"CAMEN", 15, 1, .rw, .any⟩,
     ⟨"CAMVEC", 8, 5, .rw, .any⟩,
     ⟨"APEN", 7, 1, .rw, .any⟩,
     ⟨"APVEC", 0, 5, .rw, .any⟩]⟩,
  ⟨"HOST_QCTRL", 0x0B1000, 16, 0x40, .single, [⟨"IRQEN", 24, 1, .rw, .any⟩,
     ⟨"VECTOR", 16, 5, .rw, .any⟩,
     ⟨"CQSIZE", 12, 4, .rw, .range 4 12⟩,
     ⟨"SQSIZE", 8, 4, .rw, .range 4 12⟩,
     ⟨"LOC", 2, 1, .rw, .any⟩,
     ⟨"RESET", 1, 1, .wo, .any⟩,
     ⟨"EN", 0, 1, .rw, .any⟩]⟩,
  ⟨"HOST_SQBASE_LO", 0x0B1004, 16, 0x40, .low, [⟨"BASE", 0, 32, .rw, .any⟩]⟩,
  ⟨"HOST_SQBASE_HI", 0x0B1008, 16, 0x40, .high, [⟨"BASE", 0, 32, .rw, .any⟩]⟩,
  ⟨"HOST_CQBASE_LO", 0x0B100C, 16, 0x40, .low, [⟨"BASE", 0, 32, .rw, .any⟩]⟩,
  ⟨"HOST_CQBASE_HI", 0x0B1010, 16, 0x40, .high, [⟨"BASE", 0, 32, .rw, .any⟩]⟩,
  ⟨"HOST_QSTAT", 0x0B1014, 16, 0x40, .single, [⟨"HELD", 16, 8, .ro, .any⟩,
     ⟨"FCAUSE", 8, 4, .ro, .any⟩,
     ⟨"FAULT", 2, 1, .ro, .any⟩,
     ⟨"RESETTING", 1, 1, .ro, .any⟩,
     ⟨"ENABLED", 0, 1, .ro, .any⟩]⟩,
  ⟨"HOST_QMOD", 0x0B1018, 16, 0x40, .single, [⟨"TIME", 16, 16, .rw, .any⟩,
     ⟨"COUNT", 0, 8, .rw, .any⟩]⟩,
  ⟨"HOST_SQHEAD", 0x0B101C, 16, 0x40, .single, [⟨"HEAD", 0, 16, .ro, .any⟩]⟩,
  ⟨"HOST_CQTAIL", 0x0B1020, 16, 0x40, .single, [⟨"TAIL", 0, 16, .ro, .any⟩]⟩,
  ⟨"HOST_SQDB", 0x0B2000, 16, 0x8, .single, [⟨"INDEX", 0, 16, .wo, .any⟩]⟩,
  ⟨"HOST_CQDB", 0x0B2004, 16, 0x8, .single, [⟨"INDEX", 0, 16, .wo, .any⟩]⟩,
  ⟨"HOST_HWTGEN", 0x0B3F00, 1, 0x0, .single, [⟨"GEN", 0, 16, .ro, .any⟩]⟩,
  ⟨"HOST_HWT_LO", 0x0B4000, 1024, 0x8, .low, [⟨"ADDR", 26, 6, .rwt, .any⟩,
     ⟨"NOSNOOP", 2, 1, .rwt, .any⟩,
     ⟨"WR", 1, 1, .rwt, .any⟩,
     ⟨"VALID", 0, 1, .rwt, .any⟩]⟩,
  ⟨"HOST_HWT_HI", 0x0B4004, 1024, 0x8, .high, [⟨"ADDR", 0, 32, .rwt, .any⟩]⟩,
  ⟨"HOST_MSIX_TABLE", 0x0B8000, 128, 0x4, .single, [⟨"VALUE", 0, 32, .rw, .any⟩]⟩,
  ⟨"HOST_MSIX_PBA", 0x0B9000, 2, 0x4, .single, [⟨"VALUE", 0, 32, .ro, .any⟩]⟩]

/-- The registers of the HSP block. -/
def regsHsp : List RegDesc := [
  ⟨"HSP_CFG", 0x0C0000, 1, 0x0, .single, [⟨"LOCK", 31, 1, .w1s, .any⟩,
     ⟨"WIRE", 1, 1, .rwl, .any⟩,
     ⟨"CPHA", 0, 1, .rwl, .any⟩]⟩,
  ⟨"HSP_STAT", 0x0C0004, 1, 0x0, .single, [⟨"REJ", 8, 1, .w1c, .any⟩,
     ⟨"IDLEHI", 1, 1, .ro, .any⟩,
     ⟨"SELECTED", 0, 1, .ro, .any⟩]⟩,
  ⟨"HSP_FRAMECNT", 0x0C0008, 1, 0x0, .single, [⟨"COUNT", 0, 32, .rw, .any⟩]⟩,
  ⟨"HSP_REJCNT", 0x0C000C, 1, 0x0, .single, [⟨"COUNT", 0, 32, .rw, .any⟩]⟩,
  ⟨"HSP_INTPEND", 0x0C0010, 1, 0x0, .single, [⟨"PEND", 0, 32, .w1c, .any⟩]⟩,
  ⟨"HSP_INTEN", 0x0C0014, 1, 0x0, .single, [⟨"EN", 0, 32, .rw, .any⟩]⟩]

/-- The registers of the PSP block. -/
def regsPsp : List RegDesc := [
  ⟨"PSP_SELCLK", 0x0C4000, 4, 0x8, .single, [⟨"EN", 24, 1, .rw, .any⟩,
     ⟨"TURN", 16, 4, .rw, .any⟩,
     ⟨"WIRE", 12, 1, .rw, .any⟩,
     ⟨"MODE", 8, 2, .rw, .any⟩,
     ⟨"DIV", 0, 8, .rw, .range 2 255⟩]⟩,
  ⟨"PSP_SELDLY", 0x0C4004, 4, 0x8, .single, [⟨"GAP", 16, 8, .rw, .range 1 255⟩,
     ⟨"TRAIL", 8, 8, .rw, .range 1 255⟩,
     ⟨"LEAD", 0, 8, .rw, .range 1 255⟩]⟩,
  ⟨"PSP_XCTRL", 0x0C4020, 1, 0x0, .single, [⟨"GO", 31, 1, .wo, .any⟩,
     ⟨"BUSY", 30, 1, .ro, .any⟩,
     ⟨"SEL", 28, 2, .rw, .any⟩,
     ⟨"DUPCAP", 24, 1, .rw, .any⟩,
     ⟨"RXLEN", 9, 9, .rw, .range 0 256⟩,
     ⟨"TXLEN", 0, 9, .rw, .range 0 256⟩]⟩,
  ⟨"PSP_XSTAT", 0x0C4024, 1, 0x0, .single, [⟨"REFUSED", 1, 1, .w1c, .any⟩,
     ⟨"DONE", 0, 1, .w1c, .any⟩]⟩,
  ⟨"PSP_TXBUF", 0x0C4100, 64, 0x4, .single, [⟨"DATA", 0, 32, .rw, .any⟩]⟩,
  ⟨"PSP_RXBUF", 0x0C4200, 64, 0x4, .single, [⟨"DATA", 0, 32, .ro, .any⟩]⟩]

/-- The registers of the AP block. -/
def regsAp : List RegDesc := [
  ⟨"AP_CTRL", 0x0D0000, 4, 0x1000, .single, [⟨"TRIS", 4, 1, .rwt, .any⟩,
     ⟨"FSPOL", 3, 1, .rwt, .any⟩,
     ⟨"CLKEDGE", 2, 1, .rwt, .any⟩,
     ⟨"MASTER", 1, 1, .rwt, .any⟩,
     ⟨"EN", 0, 1, .rwt, .any⟩]⟩,
  ⟨"AP_FRAME", 0x0D0004, 4, 0x1000, .single, [⟨"OFFSET", 24, 5, .rwt, .any⟩,
     ⟨"DATAW", 16, 2, .rwt, .any⟩,
     ⟨"SLOTW", 8, 5, .rwt, .range 7 31⟩,
     ⟨"SLOTS", 0, 5, .rwt, .any⟩]⟩,
  ⟨"AP_FSYNC", 0x0D0008, 4, 0x1000, .single, [⟨"RATE", 16, 3, .rwt, .range 0 5⟩,
     ⟨"FSW", 0, 10, .rwt, .range 1 1023⟩]⟩,
  ⟨"AP_INMASK", 0x0D000C, 4, 0x1000, .single, [⟨"MASK", 0, 32, .rwt, .any⟩]⟩,
  ⟨"AP_STAT", 0x0D0010, 4, 0x1000, .single, [⟨"ZERO", 15, 1, .w1c, .any⟩,
     ⟨"SLIP", 14, 1, .w1c, .any⟩,
     ⟨"NONAUDIO", 13, 1, .w1c, .any⟩,
     ⟨"FSERR", 12, 1, .w1c, .any⟩,
     ⟨"NOCLK", 11, 1, .w1c, .any⟩,
     ⟨"RATEBAD", 10, 1, .w1c, .any⟩,
     ⟨"RATECHG", 9, 1, .w1c, .any⟩,
     ⟨"CFGERR", 8, 1, .w1c, .any⟩,
     ⟨"NAMUTE", 3, 1, .ro, .any⟩,
     ⟨"OUTLIMIT", 2, 1, .ro, .any⟩,
     ⟨"CLOCK", 1, 1, .ro, .any⟩,
     ⟨"ACTIVE", 0, 1, .ro, .any⟩]⟩,
  ⟨"AP_INTEN", 0x0D0014, 4, 0x1000, .single, [⟨"EN", 8, 8, .rw, .any⟩]⟩,
  ⟨"AP_RATE", 0x0D0018, 4, 0x1000, .single, [⟨"VALID", 31, 1, .ro, .any⟩,
     ⟨"RATE", 0, 20, .ro, .any⟩]⟩,
  ⟨"AP_RATEDEV", 0x0D001C, 4, 0x1000, .single, [⟨"DEVREP", 16, 16, .ro, .any⟩,
     ⟨"DEV", 0, 16, .ro, .any⟩]⟩,
  ⟨"AP_RATECFG", 0x0D0020, 4, 0x1000, .single, [⟨"AUTOMUTE", 31, 1, .rw, .any⟩,
     ⟨"LIMIT", 16, 8, .rw, .range 1 255⟩,
     ⟨"THRESH", 0, 8, .rw, .range 1 255⟩]⟩,
  ⟨"AP_NACFG", 0x0D0024, 4, 0x1000, .single, [⟨"NAEN", 31, 1, .rw, .any⟩,
     ⟨"HOLD", 16, 8, .rw, .range 1 255⟩,
     ⟨"PAIRS", 0, 16, .rw, .any⟩]⟩,
  ⟨"AP_NASLOTS", 0x0D0028, 4, 0x1000, .single, [⟨"SLOTS", 0, 32, .ro, .any⟩]⟩,
  ⟨"AP_SLIPCNT", 0x0D002C, 4, 0x1000, .single, [⟨"OUT", 16, 16, .rw, .any⟩,
     ⟨"IN", 0, 16, .rw, .any⟩]⟩,
  ⟨"AP_ZEROCNT", 0x0D0030, 4, 0x1000, .single, [⟨"COUNT", 0, 32, .rw, .any⟩]⟩]

/-- The registers of the FLL block. -/
def regsFll : List RegDesc := [
  ⟨"FLL_STAT", 0x0D8000, 1, 0x0, .single, [⟨"CFGREJ", 8, 1, .w1c, .any⟩,
     ⟨"BUSY", 0, 1, .ro, .any⟩]⟩,
  ⟨"FLL_JOBCFG", 0x0D8100, 16, 0x8, .single, [⟨"TYPE", 30, 2, .rwt, .range 0 1⟩,
     ⟨"KFR", 16, 2, .rwt, .any⟩,
     ⟨"ZONES", 0, 16, .rwt, .any⟩]⟩,
  ⟨"FLL_JOBOUT", 0x0D8104, 16, 0x8, .single, [⟨"OUTBASE", 6, 20, .rwt, .any⟩]⟩,
  ⟨"FLL_ZONECFG", 0x0D8200, 16, 0x10, .single, [⟨"EN", 31, 1, .rwt, .any⟩,
     ⟨"PORT", 28, 2, .rwt, .any⟩,
     ⟨"ECHOPORT", 24, 2, .rwt, .any⟩,
     ⟨"TAPS", 16, 4, .rwt, .range 0 8⟩]⟩,
  ⟨"FLL_ZONEMICS", 0x0D8204, 16, 0x10, .single, [⟨"MICS", 0, 32, .rwt, .any⟩]⟩,
  ⟨"FLL_ZONEECHO", 0x0D8208, 16, 0x10, .single, [⟨"ECHOSLOTS", 0, 32, .rwt, .any⟩]⟩,
  ⟨"FLL_ZONECOEF", 0x0D820C, 16, 0x10, .single, [⟨"COEF", 6, 20, .rwt, .any⟩]⟩]

/-- The registers of the QRN block. -/
def regsQrn : List RegDesc := [
  ⟨"QRN_STAT", 0x0DC000, 1, 0x0, .single, [⟨"CFGREJ", 8, 1, .w1c, .any⟩,
     ⟨"CC5RAMP", 1, 1, .ro, .any⟩,
     ⟨"BUSY", 0, 1, .ro, .any⟩]⟩,
  ⟨"QRN_LIM", 0x0DC004, 1, 0x0, .single, [⟨"REL", 16, 16, .rw, .range 1 32768⟩,
     ⟨"THR", 0, 16, .rw, .range 1 32767⟩]⟩,
  ⟨"QRN_JOBCFG", 0x0DC100, 16, 0x8, .single, [⟨"TYPE", 30, 2, .rwt, .range 0 1⟩]⟩,
  ⟨"QRN_JOBIN", 0x0DC104, 16, 0x8, .single, [⟨"INBASE", 6, 20, .rwt, .any⟩]⟩,
  ⟨"QRN_OSTAT", 0x0DC200, 16, 0x8, .single, [⟨"BOUND", 31, 1, .ro, .any⟩,
     ⟨"SILENT", 30, 1, .ro, .any⟩,
     ⟨"SC", 16, 6, .ro, .any⟩,
     ⟨"PORT", 12, 2, .ro, .any⟩,
     ⟨"TWO", 8, 1, .ro, .any⟩,
     ⟨"SLOT", 0, 5, .ro, .any⟩]⟩,
  ⟨"QRN_OGAIN", 0x0DC204, 16, 0x8, .single, [⟨"GAIN", 0, 16, .rw, .any⟩]⟩]

/-- The registers of the CAM block. -/
def regsCam : List RegDesc := [
  ⟨"CAM_CTRL", 0x0E0000, 1, 0x0, .single, [⟨"MISSMS", 16, 8, .rwt, .range 1 255⟩,
     ⟨"DTYPE", 8, 6, .rwt, .oneOf [0x2A, 0x2B, 0x1E]⟩,
     ⟨"VC", 4, 2, .rwt, .any⟩,
     ⟨"LANES", 1, 1, .rwt, .any⟩,
     ⟨"EN", 0, 1, .rwt, .any⟩]⟩,
  ⟨"CAM_SIZE", 0x0E0004, 1, 0x0, .single, [⟨"HEIGHT", 16, 12, .rwt, .range 16 2048⟩,
     ⟨"WIDTH", 0, 12, .rwt, .range 16 2048⟩]⟩,
  ⟨"CAM_AREA", 0x0E0008, 1, 0x0, .single, [⟨"SIZE", 16, 10, .ro, .any⟩,
     ⟨"BASE", 0, 10, .rwt, .any⟩]⟩,
  ⟨"CAM_STAT", 0x0E000C, 1, 0x0, .single, [⟨"DROP", 11, 1, .w1c, .any⟩,
     ⟨"NOCAM", 10, 1, .w1c, .any⟩,
     ⟨"BADFRAME", 9, 1, .w1c, .any⟩,
     ⟨"CFGREJ", 8, 1, .w1c, .any⟩,
     ⟨"STALE", 2, 1, .ro, .any⟩,
     ⟨"CLOCK", 1, 1, .ro, .any⟩,
     ⟨"ACTIVE", 0, 1, .ro, .any⟩]⟩,
  ⟨"CAM_INTEN", 0x0E0010, 1, 0x0, .single, [⟨"EN", 8, 4, .rw, .any⟩]⟩,
  ⟨"CAM_GATECFG", 0x0E0014, 1, 0x0, .single, [⟨"FAILOPEN", 31, 1, .rwt, .any⟩,
     ⟨"STALE", 24, 7, .rwt, .any⟩,
     ⟨"HOLD", 16, 8, .rwt, .any⟩,
     ⟨"OFF", 8, 8, .rwt, .any⟩,
     ⟨"ON", 0, 8, .rwt, .any⟩]⟩,
  ⟨"CAM_LIPSTAT", 0x0E0018, 1, 0x0, .single, [⟨"FAILOPEN", 31, 1, .ro, .any⟩,
     ⟨"ZONES", 0, 16, .ro, .any⟩]⟩,
  ⟨"CAM_FRAMECNT", 0x0E001C, 1, 0x0, .single, [⟨"COUNT", 0, 32, .rw, .any⟩]⟩,
  ⟨"CAM_BADCNT", 0x0E0020, 1, 0x0, .single, [⟨"OTHERVC", 16, 16, .rw, .any⟩,
     ⟨"FRAMES", 0, 16, .rw, .any⟩]⟩,
  ⟨"CAM_DROPCNT", 0x0E0024, 1, 0x0, .single, [⟨"COUNT", 0, 32, .rw, .any⟩]⟩,
  ⟨"GLM_STAT", 0x0E0080, 1, 0x0, .single, [⟨"CFGREJ", 8, 1, .w1c, .any⟩,
     ⟨"BUSY", 0, 1, .ro, .any⟩]⟩,
  ⟨"GLM_JOBSIZE", 0x0E0100, 16, 0x10, .single, [⟨"EN", 31, 1, .rwt, .any⟩,
     ⟨"FY", 20, 4, .rwt, .any⟩,
     ⟨"FX", 16, 4, .rwt, .any⟩,
     ⟨"OH", 8, 8, .rwt, .any⟩,
     ⟨"OW", 0, 8, .rwt, .any⟩]⟩,
  ⟨"GLM_JOBCROP", 0x0E0104, 16, 0x10, .single, [⟨"Y0", 16, 11, .rwt, .any⟩,
     ⟨"X0", 0, 11, .rwt, .any⟩]⟩,
  ⟨"GLM_JOBOUT", 0x0E0108, 16, 0x10, .single, [⟨"OUTBASE", 6, 20, .rwt, .any⟩]⟩]

/-- The registers of the GDN block. -/
def regsGdn : List RegDesc := [
  ⟨"GDN_CTRL", 0x0F0000, 3, 0x2000, .single, [⟨"RETRAIN", 1, 1, .wo, .any⟩,
     ⟨"EN", 0, 1, .rw, .any⟩]⟩,
  ⟨"GDN_STAT", 0x0F0004, 3, 0x2000, .single, [⟨"LOST", 12, 1, .w1c, .any⟩,
     ⟨"VIOL", 11, 1, .w1c, .any⟩,
     ⟨"REFUSED", 10, 1, .w1c, .any⟩,
     ⟨"DOWN", 9, 1, .w1c, .any⟩,
     ⟨"RETRAINED", 8, 1, .w1c, .any⟩,
     ⟨"PEER", 6, 2, .ro, .any⟩,
     ⟨"PEERVALID", 5, 1, .ro, .any⟩,
     ⟨"STATE", 0, 3, .ro, .any⟩]⟩,
  ⟨"GDN_LANE", 0x0F0008, 3, 0x2000, .single, [⟨"SKEW", 16, 4, .ro, .any⟩,
     ⟨"REVERSED", 12, 1, .ro, .any⟩,
     ⟨"POLINV", 8, 4, .ro, .any⟩,
     ⟨"LOCKED", 0, 4, .ro, .any⟩]⟩,
  ⟨"GDN_CRCCNT", 0x0F000C, 3, 0x2000, .single, [⟨"COUNT", 0, 32, .rw, .any⟩]⟩,
  ⟨"GDN_REPLAYCNT", 0x0F0010, 3, 0x2000, .single, [⟨"COUNT", 0, 32, .rw, .any⟩]⟩,
  ⟨"GDN_RETRAINCNT", 0x0F0014, 3, 0x2000, .single, [⟨"COUNT", 0, 32, .rw, .any⟩]⟩,
  ⟨"GDN_MARKERCNT", 0x0F0018, 3, 0x2000, .single, [⟨"COUNT", 0, 32, .rw, .any⟩]⟩,
  ⟨"GDN_TXFLITS_LO", 0x0F001C, 3, 0x2000, .low, [⟨"COUNT", 0, 32, .ro, .any⟩]⟩,
  ⟨"GDN_TXFLITS_HI", 0x0F0020, 3, 0x2000, .high, [⟨"COUNT", 0, 32, .ro, .any⟩]⟩,
  ⟨"GDN_INTEN", 0x0F0024, 3, 0x2000, .single, [⟨"EN", 8, 5, .rw, .any⟩]⟩,
  ⟨"GDN_STOOK", 0x0F8000, 1, 0x0, .single, [⟨"LOST", 8, 4, .ro, .any⟩,
     ⟨"LIVE", 4, 4, .ro, .any⟩,
     ⟨"CHIP", 0, 2, .ro, .any⟩]⟩,
  ⟨"GDN_LOSS", 0x0F8004, 1, 0x0, .single, [⟨"EJECTTICKS", 8, 8, .rw, .range 2 255⟩,
     ⟨"LOSSMS", 0, 8, .rw, .range 5 100⟩]⟩,
  ⟨"GDN_INCARN", 0x0F8008, 1, 0x0, .single, [⟨"INCARN", 0, 32, .ro, .any⟩]⟩]

/-- The registers of the PWR block. -/
def regsPwr : List RegDesc := [
  ⟨"PWR_CTRL", 0x100000, 1, 0x0, .single, [⟨"SMBRATE", 8, 2, .rw, .range 0 2⟩,
     ⟨"ORDER", 0, 6, .rw, .oneOf [0x24, 0x18, 0x21, 0x09, 0x12, 0x06]⟩]⟩,
  ⟨"PWR_CAPMW", 0x100004, 1, 0x0, .single, [⟨"CAP", 0, 16, .rw, .any⟩]⟩,
  ⟨"PWR_CAPLIM", 0x100008, 1, 0x0, .single, [⟨"MAX", 16, 16, .ro, .any⟩,
     ⟨"MIN", 0, 16, .ro, .any⟩]⟩,
  ⟨"PWR_CAPEFF", 0x10000C, 1, 0x0, .single, [⟨"LIMITER", 16, 2, .ro, .any⟩,
     ⟨"EFF", 0, 16, .ro, .any⟩]⟩,
  ⟨"PWR_MEAS", 0x100010, 1, 0x0, .single, [⟨"VALID", 31, 1, .ro, .any⟩,
     ⟨"MW", 0, 16, .ro, .any⟩]⟩,
  ⟨"PWR_EST", 0x100014, 1, 0x0, .single, [⟨"BASE", 16, 16, .ro, .any⟩,
     ⟨"MW", 0, 16, .ro, .any⟩]⟩,
  ⟨"PWR_CAL", 0x10001C, 1, 0x0, .single, [⟨"OFFSET", 16, 16, .ro, .any⟩,
     ⟨"GAIN", 0, 16, .ro, .any⟩]⟩,
  ⟨"PWR_DUTY", 0x100020, 1, 0x0, .single, [⟨"APPLIED", 24, 7, .ro, .any⟩,
     ⟨"COMPUTE", 16, 6, .ro, .any⟩,
     ⟨"MEMORY", 8, 6, .ro, .any⟩,
     ⟨"LINK", 0, 6, .ro, .any⟩]⟩,
  ⟨"PWR_STAT", 0x100024, 1, 0x0, .single, [⟨"CC4ABSENT", 17, 1, .ro, .any⟩,
     ⟨"ANYHOT", 16, 1, .ro, .any⟩,
     ⟨"SHARELOST", 10, 1, .w1c, .any⟩,
     ⟨"LIMIT", 9, 1, .w1c, .any⟩,
     ⟨"VSETERR", 8, 1, .w1c, .any⟩,
     ⟨"CAPCLAMP", 7, 1, .w1c, .any⟩,
     ⟨"CALLIM", 6, 1, .w1c, .any⟩,
     ⟨"REGFAULT", 5, 1, .w1c, .any⟩,
     ⟨"PMBERR", 4, 1, .w1c, .any⟩,
     ⟨"MEASINV", 3, 1, .w1c, .any⟩,
     ⟨"TRIPPED", 2, 1, .w1c, .any⟩,
     ⟨"HOT", 1, 1, .w1c, .any⟩,
     ⟨"WARN", 0, 1, .w1c, .any⟩]⟩,
  ⟨"PWR_INTEN", 0x100028, 1, 0x0, .single, [⟨"EN", 0, 11, .rw, .any⟩]⟩,
  ⟨"PWR_VOP", 0x10002C, 1, 0x0, .single, [⟨"OP", 16, 3, .ro, .any⟩,
     ⟨"VMV", 0, 10, .ro, .any⟩]⟩,
  ⟨"PWR_STOOK", 0x100030, 1, 0x0, .single, [⟨"NLIVE", 8, 3, .ro, .any⟩,
     ⟨"MODE", 2, 1, .rw, .any⟩,
     ⟨"MGR", 1, 1, .rw, .any⟩,
     ⟨"EN", 0, 1, .rw, .any⟩]⟩,
  ⟨"PWR_STOOKCAPMW", 0x100034, 1, 0x0, .single, [⟨"CAP", 0, 17, .rw, .any⟩]⟩,
  ⟨"PWR_SHAREMW", 0x100038, 1, 0x0, .single, [⟨"AGE", 16, 16, .ro, .any⟩,
     ⟨"SHARE", 0, 16, .ro, .any⟩]⟩,
  ⟨"PWR_ENERGY_LO", 0x100040, 1, 0x0, .low, [⟨"UJ", 0, 32, .ro, .any⟩]⟩,
  ⟨"PWR_ENERGY_HI", 0x100044, 1, 0x0, .high, [⟨"UJ", 0, 32, .ro, .any⟩]⟩,
  ⟨"PWR_ENUNATTR_LO", 0x100048, 1, 0x0, .low, [⟨"UJ", 0, 32, .ro, .any⟩]⟩,
  ⟨"PWR_ENUNATTR_HI", 0x10004C, 1, 0x0, .high, [⟨"UJ", 0, 32, .ro, .any⟩]⟩,
  ⟨"PWR_RAIL", 0x100100, 8, 0x4, .single, [⟨"EN", 31, 1, .rw, .any⟩,
     ⟨"ROLE", 28, 3, .rw, .range 0 2⟩,
     ⟨"POUT", 27, 1, .rw, .any⟩,
     ⟨"PAGE", 16, 8, .rw, .any⟩,
     ⟨"ADDR", 0, 7, .rw, .any⟩]⟩,
  ⟨"PWR_TSVAL", 0x100200, 24, 0x4, .single, [⟨"VALID", 31, 1, .ro, .any⟩,
     ⟨"TEMP", 0, 12, .ro, .any⟩]⟩,
  ⟨"PWR_TSLIM", 0x100300, 24, 0x4, .single, [⟨"MASK", 24, 1, .rw, .any⟩,
     ⟨"HYST", 16, 4, .rw, .range 1 15⟩,
     ⟨"HOT", 8, 8, .rw, .any⟩,
     ⟨"WARN", 0, 8, .rw, .any⟩]⟩,
  ⟨"PWR_TSCFG", 0x100400, 1, 0x0, .single, [⟨"LOCK", 31, 1, .w1s, .any⟩,
     ⟨"TRIP", 0, 8, .rwl, .range 110 135⟩]⟩,
  ⟨"PWR_TSMAX", 0x100404, 1, 0x0, .single, [⟨"SENSOR", 16, 5, .ro, .any⟩,
     ⟨"TEMP", 0, 12, .ro, .any⟩]⟩]

/-- The registers of the NVC block. -/
def regsNvc : List RegDesc := [
  ⟨"NVC_BOOTSTAT", 0x110000, 1, 0x0, .single, [⟨"WAIT", 31, 1, .ro, .any⟩,
     ⟨"PLANOK", 30, 1, .ro, .any⟩,
     ⟨"PLANERR", 29, 1, .ro, .any⟩,
     ⟨"LOCKIGN", 28, 1, .ro, .any⟩,
     ⟨"USERBAD", 27, 1, .ro, .any⟩,
     ⟨"FSLOT", 24, 1, .ro, .any⟩,
     ⟨"USLOT", 20, 2, .ro, .any⟩,
     ⟨"SRC", 16, 2, .ro, .any⟩,
     ⟨"ERR", 0, 8, .ro, .any⟩]⟩,
  ⟨"NVC_EPOCH", 0x110004, 1, 0x0, .single, [⟨"EPOCH", 0, 32, .ro, .any⟩]⟩,
  ⟨"NVC_OVLSTAT", 0x110008, 1, 0x0, .single, [⟨"HELD", 16, 8, .ro, .any⟩,
     ⟨"MODE", 8, 3, .ro, .any⟩,
     ⟨"BUSY", 0, 1, .ro, .any⟩]⟩,
  ⟨"NVC_OVLPEND_LO", 0x11000C, 1, 0x0, .low, [⟨"SC", 0, 32, .ro, .any⟩]⟩,
  ⟨"NVC_OVLPEND_HI", 0x110010, 1, 0x0, .high, [⟨"SC", 0, 32, .ro, .any⟩]⟩,
  ⟨"NVC_FGEN", 0x110014, 1, 0x0, .single, [⟨"GEN", 0, 32, .ro, .any⟩]⟩,
  ⟨"NVC_UGEN", 0x110018, 1, 0x0, .single, [⟨"GEN", 0, 32, .ro, .any⟩]⟩,
  ⟨"NVC_UPDSRC_LO", 0x110020, 1, 0x0, .low, [⟨"ADDR", 0, 32, .rw, .any⟩]⟩,
  ⟨"NVC_UPDSRC_HI", 0x110024, 1, 0x0, .high, [⟨"ADDR", 0, 32, .rw, .any⟩]⟩,
  ⟨"NVC_UPDLEN", 0x110028, 1, 0x0, .single, [⟨"LEN", 0, 32, .rw, .any⟩]⟩,
  ⟨"NVC_UPDCTRL", 0x11002C, 1, 0x0, .single, [⟨"GO", 31, 1, .wo, .any⟩,
     ⟨"BUSY", 30, 1, .ro, .any⟩,
     ⟨"TARGET", 8, 2, .rw, .any⟩,
     ⟨"LOC", 0, 1, .rw, .any⟩]⟩,
  ⟨"NVC_UPDSTAT", 0x110030, 1, 0x0, .single, [⟨"CAUSE", 8, 8, .ro, .any⟩,
     ⟨"REFUSED", 2, 1, .w1c, .any⟩,
     ⟨"FAIL", 1, 1, .w1c, .any⟩,
     ⟨"DONE", 0, 1, .w1c, .any⟩]⟩,
  ⟨"NVC_INTEN", 0x110034, 1, 0x0, .single, [⟨"EN", 0, 2, .rw, .any⟩]⟩]

/-- The registers of the ERRLOG block. -/
def regsErrlog : List RegDesc := [
  ⟨"ERRLOG_STAT", 0x120000, 1, 0x0, .single, [⟨"DIAGLAT", 5, 1, .w1c, .any⟩,
     ⟨"ALERTLAT", 4, 1, .w1c, .any⟩,
     ⟨"VOVF", 3, 1, .w1c, .any⟩,
     ⟨"EOVF", 2, 1, .w1c, .any⟩,
     ⟨"VNEW", 1, 1, .w1c, .any⟩,
     ⟨"ENEW", 0, 1, .w1c, .any⟩]⟩,
  ⟨"ERRLOG_HEAD", 0x120004, 1, 0x0, .single, [⟨"HEAD", 0, 9, .ro, .any⟩]⟩,
  ⟨"ERRLOG_TAIL", 0x120008, 1, 0x0, .single, [⟨"TAIL", 0, 9, .rw, .any⟩]⟩,
  ⟨"ERRLOG_VHEAD", 0x12000C, 1, 0x0, .single, [⟨"HEAD", 0, 9, .ro, .any⟩]⟩,
  ⟨"ERRLOG_VTAIL", 0x120010, 1, 0x0, .single, [⟨"TAIL", 0, 9, .rw, .any⟩]⟩,
  ⟨"ERRLOG_INTEN", 0x120014, 1, 0x0, .single, [⟨"EN", 0, 4, .rw, .any⟩]⟩,
  ⟨"ERRLOG_ALERTEN", 0x120018, 1, 0x0, .single, [⟨"VCLASS", 16, 16, .rw, .any⟩,
     ⟨"ECLASS", 0, 16, .rw, .any⟩]⟩,
  ⟨"ERRLOG_DIAGEN", 0x12001C, 1, 0x0, .single, [⟨"VCLASS", 16, 16, .rw, .any⟩,
     ⟨"ECLASS", 0, 16, .rw, .any⟩]⟩,
  ⟨"ERRLOG_ECNT", 0x120100, 16, 0x4, .single, [⟨"COUNT", 0, 32, .rw, .any⟩]⟩,
  ⟨"ERRLOG_VCNT", 0x120200, 16, 0x4, .single, [⟨"COUNT", 0, 32, .rw, .any⟩]⟩,
  ⟨"ERRLOG_E", 0x121000, 2048, 0x4, .logEntry, [⟨"VALUE", 0, 32, .ro, .any⟩]⟩,
  ⟨"ERRLOG_V", 0x124000, 2048, 0x4, .logEntry, [⟨"VALUE", 0, 32, .ro, .any⟩]⟩]

/-- The registers of the SEC block. -/
def regsSec : List RegDesc := [
  ⟨"SEC_STAT", 0x130000, 1, 0x0, .single, [⟨"DBGOPEN", 8, 1, .ro, .any⟩,
     ⟨"PROVDONE", 4, 1, .ro, .any⟩,
     ⟨"STATE", 0, 2, .ro, .any⟩]⟩,
  ⟨"SEC_DBGCTRL", 0x130004, 1, 0x0, .single, [⟨"LOCK", 0, 1, .w1s, .any⟩]⟩,
  ⟨"SEC_VENDHASH", 0x130020, 8, 0x4, .single, [⟨"HASH", 0, 32, .ro, .any⟩]⟩,
  ⟨"SEC_OWNHASH", 0x130040, 8, 0x4, .single, [⟨"HASH", 0, 32, .ro, .any⟩]⟩,
  ⟨"SEC_PROVHASH", 0x130060, 8, 0x4, .single, [⟨"HASH", 0, 32, .rw, .any⟩]⟩,
  ⟨"SEC_PROVCMD", 0x130080, 1, 0x0, .single, [⟨"CHECK", 24, 8, .wo, .any⟩,
     ⟨"GO", 0, 1, .wo, .any⟩]⟩]

/-- The registers of the CCMB block. -/
def regsCcmb : List RegDesc := [
  ⟨"CCMB_CORESTAT", 0x140000, 6, 0x4, .single, [⟨"RESTARTS", 16, 16, .ro, .any⟩,
     ⟨"RESTARTING", 1, 1, .ro, .any⟩,
     ⟨"RUN", 0, 1, .ro, .any⟩]⟩,
  ⟨"CCMB_FWVER", 0x140020, 1, 0x0, .single, [⟨"MAJOR", 24, 8, .ro, .any⟩,
     ⟨"MINOR", 16, 8, .ro, .any⟩,
     ⟨"BUILD", 0, 16, .ro, .any⟩]⟩]

/-- The blocks of Table 21-1: the offsets each spans, and its registers. -/
def regBlocks : List (Nat × Nat × List RegDesc) := [
  (0x000000, 0x010000, regsGlobal),
  (0x010000, 0x020000, regsTick),
  (0x020000, 0x040000, regsPlan),
  (0x040000, 0x050000, regsShf),
  (0x050000, 0x058000, regsTsh),
  (0x058000, 0x060000, regsWnw),
  (0x060000, 0x064000, regsSve),
  (0x064000, 0x070000, regsRcs),
  (0x070000, 0x080000, regsGln),
  (0x080000, 0x090000, regsCart),
  (0x090000, 0x0A0000, regsGrn),
  (0x0A0000, 0x0B0000, regsMemch),
  (0x0B0000, 0x0C0000, regsHost),
  (0x0C0000, 0x0C4000, regsHsp),
  (0x0C4000, 0x0D0000, regsPsp),
  (0x0D0000, 0x0D8000, regsAp),
  (0x0D8000, 0x0DC000, regsFll),
  (0x0DC000, 0x0E0000, regsQrn),
  (0x0E0000, 0x0F0000, regsCam),
  (0x0F0000, 0x100000, regsGdn),
  (0x100000, 0x110000, regsPwr),
  (0x110000, 0x120000, regsNvc),
  (0x120000, 0x130000, regsErrlog),
  (0x130000, 0x140000, regsSec),
  (0x140000, 0x150000, regsCcmb)]

/-- The register that a 24-bit offset reaches within a list, with its instance number. -/
def findIn (off : Nat) : List RegDesc → Option (RegDesc × Nat)
  | [] => none
  | d :: ds =>
    if d.stride = 0 then
      if off = d.base then some (d, 0) else findIn off ds
    else if d.base ≤ off && (off - d.base) % d.stride == 0 && (off - d.base) / d.stride < d.count then
      some (d, (off - d.base) / d.stride)
    else findIn off ds

/-- The register that a 24-bit offset reaches, with its instance number; `none` for a reserved offset (R19, R577). -/
def findReg (off : Nat) : Option (RegDesc × Nat) :=
  match regBlocks.find? (fun b => b.1 ≤ off && off < b.2.1) with
  | some b => findIn off b.2.2
  | none => none


/-! ### Reset values (the Reset columns; the values the manual fixes by fuse, by the store or by the base
configuration are the model's choices, logged in notes/assumptions/2.md) -/

/-- Registers that are not 0 after reset, part 0.
(DESIGN CHOICE, unsafe: notes/assumptions/2.md) -/
def resetRegs0 : List (Nat × BitVec 32) := [
  (0x000000, 0x148166BB#32),
  (0x000004, 0x30303041#32),
  (0x000008, 0x3030#32),
  (0x00000C, 0x2000001#32),
  (0x000010, 0x1#32),
  (0x000020, 0x37028A#32),
  (0x000024, 0x4102A3#32),
  (0x000028, 0x4B02BC#32),
  (0x00002C, 0x5502D5#32),
  (0x000030, 0x5F02EE#32),
  (0x000034, 0x690307#32),
  (0x000038, 0x730320#32),
  (0x00003C, 0x7D0339#32),
  (0x000100, 0x6#32),
  (0x000108, 0x100#32),
  (0x000110, 0x1#32),
  (0x000200, 0x1#32),
  (0x000204, 0x1#32),
  (0x010004, 0x14#32),
  (0x010008, 0xF#32),
  (0x01000C, 0x14#32),
  (0x010010, 0x80000000#32),
  (0x010014, 0x1F4#32),
  (0x020004, 0xFF00#32),
  (0x070000, 0x100C8#32),
  (0x070004, 0x40#32),
  (0x080100, 0x7F00#32),
  (0x080120, 0x7F00#32),
  (0x080140, 0x7F00#32),
  (0x080160, 0x7F00#32),
  (0x080180, 0x7F00#32),
  (0x0801A0, 0x7F00#32),
  (0x0801C0, 0x7F00#32),
  (0x0801E0, 0x7F00#32),
  (0x090000, 0x101#32),
  (0x0A0000, 0x21550002#32),
  (0x0B0010, 0x13121110#32),
  (0x0B0014, 0x17161514#32),
  (0x0B1018, 0x1#32),
  (0x0B1058, 0x1#32),
  (0x0B1098, 0x1#32),
  (0x0B10D8, 0x1#32),
  (0x0B1118, 0x1#32),
  (0x0B1158, 0x1#32),
  (0x0B1198, 0x1#32),
  (0x0B11D8, 0x1#32),
  (0x0B1218, 0x1#32),
  (0x0B1258, 0x1#32)]

/-- Registers that are not 0 after reset, part 1.
(DESIGN CHOICE, unsafe: notes/assumptions/2.md) -/
def resetRegs1 : List (Nat × BitVec 32) := [
  (0x0B1298, 0x1#32),
  (0x0B12D8, 0x1#32),
  (0x0B1318, 0x1#32),
  (0x0B1358, 0x1#32),
  (0x0B1398, 0x1#32),
  (0x0B13D8, 0x1#32),
  (0x0B800C, 0x1#32),
  (0x0B801C, 0x1#32),
  (0x0B802C, 0x1#32),
  (0x0B803C, 0x1#32),
  (0x0B804C, 0x1#32),
  (0x0B805C, 0x1#32),
  (0x0B806C, 0x1#32),
  (0x0B807C, 0x1#32),
  (0x0B808C, 0x1#32),
  (0x0B809C, 0x1#32),
  (0x0B80AC, 0x1#32),
  (0x0B80BC, 0x1#32),
  (0x0B80CC, 0x1#32),
  (0x0B80DC, 0x1#32),
  (0x0B80EC, 0x1#32),
  (0x0B80FC, 0x1#32),
  (0x0B810C, 0x1#32),
  (0x0B811C, 0x1#32),
  (0x0B812C, 0x1#32),
  (0x0B813C, 0x1#32),
  (0x0B814C, 0x1#32),
  (0x0B815C, 0x1#32),
  (0x0B816C, 0x1#32),
  (0x0B817C, 0x1#32),
  (0x0B818C, 0x1#32),
  (0x0B819C, 0x1#32),
  (0x0B81AC, 0x1#32),
  (0x0B81BC, 0x1#32),
  (0x0B81CC, 0x1#32),
  (0x0B81DC, 0x1#32),
  (0x0B81EC, 0x1#32),
  (0x0B81FC, 0x1#32),
  (0x0C4000, 0x8#32),
  (0x0C4004, 0x80404#32),
  (0x0C4008, 0x8#32),
  (0x0C400C, 0x80404#32),
  (0x0C4010, 0x8#32),
  (0x0C4014, 0x80404#32),
  (0x0C4018, 0x1000008#32),
  (0x0C401C, 0x80404#32),
  (0x0D0004, 0x1021F01#32),
  (0x0D0008, 0x50020#32)]

/-- Registers that are not 0 after reset, part 2.
(DESIGN CHOICE, unsafe: notes/assumptions/2.md) -/
def resetRegs2 : List (Nat × BitVec 32) := [
  (0x0D0020, 0x800A0005#32),
  (0x0D0024, 0x80140000#32),
  (0x0D1004, 0x1021F01#32),
  (0x0D1008, 0x50020#32),
  (0x0D1020, 0x800A0005#32),
  (0x0D1024, 0x80140000#32),
  (0x0D2004, 0x1021F01#32),
  (0x0D2008, 0x50020#32),
  (0x0D2020, 0x800A0005#32),
  (0x0D2024, 0x80140000#32),
  (0x0D3004, 0x1021F01#32),
  (0x0D3008, 0x50020#32),
  (0x0D3020, 0x800A0005#32),
  (0x0D3024, 0x80140000#32),
  (0x0DC004, 0x47333#32),
  (0x0DC204, 0x8000#32),
  (0x0DC20C, 0x8000#32),
  (0x0DC214, 0x8000#32),
  (0x0DC21C, 0x8000#32),
  (0x0DC224, 0x8000#32),
  (0x0DC22C, 0x8000#32),
  (0x0DC234, 0x8000#32),
  (0x0DC23C, 0x8000#32),
  (0x0DC244, 0x8000#32),
  (0x0DC24C, 0x8000#32),
  (0x0DC254, 0x8000#32),
  (0x0DC25C, 0x8000#32),
  (0x0DC264, 0x8000#32),
  (0x0DC26C, 0x8000#32),
  (0x0DC274, 0x8000#32),
  (0x0DC27C, 0x8000#32),
  (0x0E0000, 0x642A02#32),
  (0x0E0004, 0x1E00280#32),
  (0x0E0014, 0x94322040#32),
  (0x0F8004, 0x1014#32),
  (0x0F8008, 0x1#32),
  (0x100000, 0x124#32),
  (0x100004, 0x4650#32),
  (0x100008, 0x75301770#32),
  (0x10000C, 0x4650#32),
  (0x10001C, 0x1000#32),
  (0x10002C, 0x70000#32),
  (0x100034, 0x11940#32),
  (0x100100, 0x8FF0000#32),
  (0x100104, 0x8FF0000#32),
  (0x100108, 0x8FF0000#32),
  (0x10010C, 0x8FF0000#32),
  (0x100110, 0x8FF0000#32)]

/-- Registers that are not 0 after reset, part 3.
(DESIGN CHOICE, unsafe: notes/assumptions/2.md) -/
def resetRegs3 : List (Nat × BitVec 32) := [
  (0x100114, 0x8FF0000#32),
  (0x100118, 0x8FF0000#32),
  (0x10011C, 0x8FF0000#32),
  (0x100300, 0x57369#32),
  (0x100304, 0x57369#32),
  (0x100308, 0x57369#32),
  (0x10030C, 0x57369#32),
  (0x100310, 0x57369#32),
  (0x100314, 0x57369#32),
  (0x100318, 0x57369#32),
  (0x10031C, 0x57369#32),
  (0x100320, 0x57369#32),
  (0x100324, 0x57369#32),
  (0x100328, 0x57369#32),
  (0x10032C, 0x57369#32),
  (0x100330, 0x57369#32),
  (0x100334, 0x57369#32),
  (0x100338, 0x57369#32),
  (0x10033C, 0x57369#32),
  (0x100340, 0x57369#32),
  (0x100344, 0x57369#32),
  (0x100348, 0x57369#32),
  (0x10034C, 0x57369#32),
  (0x100350, 0x57369#32),
  (0x100354, 0x57369#32),
  (0x100358, 0x57369#32),
  (0x10035C, 0x57369#32),
  (0x100400, 0x82#32),
  (0x110000, 0x300000#32),
  (0x120018, 0x28#32),
  (0x12001C, 0x144#32)]

/-- Every register that is not 0 after reset, in rising order of offset. -/
def resetRegCells : List (Nat × BitVec 32) :=
  resetRegs0 ++ resetRegs1 ++ resetRegs2 ++ resetRegs3

end Sys2Proof
end

