-- ==== Sys2Proof/Machine/Parts.lean ====
section
/-!
DEFINITION. Machine/Parts.lean: the parts of the machine's state, as plain data: the sparse cells that hold registers and
memory, the plan and its tables, the tick generator, the engines, the knots, the Carts and the accumulators.
-/
namespace Sys2Proof.Machine

/-- Sparse cells: pairs of a key and its value, keys strictly rising, no value equal to 0, which is what an unlisted key
reads as. -/
abbrev Cells (w : Nat) := List (Nat × BitVec w)

/-! ### Plans (chapter 4) -/

/-- The header of a plan image (Table 4-1), as the load checked it. -/
structure PlanHdr where
  planId : Nat
  tpMin : Nat
  tpMax : Nat
  fMin : Nat
  rows : Nat
  work : Nat
  slack : Nat
  wShed : Nat
  engMask : Nat
  t1Base : Nat
  t1Foot : Nat
  constBase : Nat
  constLen : Nat
  rowMap : Nat
  deriving DecidableEq, Repr

/-- One record of the variant table (R122). -/
structure VariantRec where
  engine : Nat
  variant : Nat
  shed : Bool
  capacity : Nat
  start : Nat
  length : Nat
  budget : Nat
  deriving DecidableEq, Repr

/-- One post record of the knot table (R126). -/
structure PostRec where
  engine : Nat
  variant : Nat
  knot : Nat
  total : Nat
  deriving DecidableEq, Repr

/-- One stage buffer (R131). -/
structure StageBuf where
  base : Nat
  size : Nat
  fill : Nat
  drain : Nat
  deriving DecidableEq, Repr

/-- One residency contract record (R132). -/
structure Contract where
  region : Nat
  kind : Nat
  n : Nat
  deriving DecidableEq, Repr

/-- A plan: what its instruction bank and its descriptor bank hold (R121) and the tables the image declares. -/
structure Plan where
  hdr : PlanHdr
  /-- The instruction words of each engine with a stream (R120), by engine index. -/
  streams : List (Nat × List DWord)
  /-- The descriptor bank: slot `i` of the descriptor table. -/
  descs : List Slot
  variants : List VariantRec
  /-- The 64 knot start values (R126). -/
  knotStart : List Nat
  posts : List PostRec
  stages : List StageBuf
  contracts : List Contract
  deriving DecidableEq, Repr

/-! ### Ticks (chapter 2) -/

/-- What the tick generator is doing. -/
inductive TickPhase where
  /-- Ticks are stopped. -/
  | stopped
  /-- `TICK_CTRL.RUN` is 1 and the first edge has not fallen. -/
  | starting
  /-- A tick is in progress and its fallow window has not opened. -/
  | slice
  /-- A fallow window is open and its arming step has not begun. -/
  | fallow
  /-- The arming step has begun. -/
  | armed
  deriving DecidableEq, Repr

/-- The classes of Table 2-3. -/
inductive TickClass where
  | normal | shed | skipped
  deriving DecidableEq, Repr

/-- The tick generator. Times are microseconds of the always-on timebase (R49). -/
structure TickState where
  phase : TickPhase
  /-- `E_n`, the nominal edge of the tick in progress. -/
  nominal : Nat
  /-- `A_n`, the actual edge of the tick in progress. -/
  edge : Nat
  /-- `E_{n+1}`, once the port source, holdover or the internal timebase has placed it. -/
  nextNominal : Option Nat
  /-- When the fallow window in progress opened. -/
  opened : Nat
  /-- `A_{n+1}`, the next actual edge, once the fallow window has opened. -/
  nextEdge : Nat
  /-- The class of the tick in progress. -/
  cls : TickClass
  /-- The class step 2 gave the next tick. -/
  nextCls : TickClass
  /-- How many ticks step 2 skips before the next edge (R66). -/
  skips : Nat
  /-- `X_n`, the end of the last slice of the tick in progress. -/
  workEnd : Nat
  /-- The lag the next tick will have. -/
  nextLag : Nat
  /-- Steps 3 to 7 of the window in progress have all ended. -/
  stepsDone : Bool
  /-- The next tick has been classed (step 2; in a stook, once the tick master's class is known). -/
  classed : Bool
  /-- Consecutive spans of N frames for which the lock condition of R72 has held; 10 from lock to the first locked edge. -/
  lockRun : Nat
  /-- The lock condition is being tested (R74). -/
  seeking : Bool
  /-- Frame syncs of the source port since the last edge, or in the span being measured. -/
  syncs : Nat
  /-- When the span of N frames being measured began. -/
  spanStart : Option Nat
  /-- A tick master: the work ends that members have reported for this tick, as (chip, X − A). -/
  members : List (Nat × Nat)
  /-- Consecutive ticks each chip was left out of the classing (R418). -/
  excluded : List (Nat × Nat)
  /-- A follower: the chip whose CLASSMSG it follows. -/
  master : Option Nat
  /-- A follower that has lost its tick master starts no tick until `TICK_STOOK` is written (R421). -/
  halted : Bool
  /-- A follower saw a pulse on TICK_SYNC while it had lost the pulses before (R418). -/
  rejoining : Bool
  deriving DecidableEq, Repr

/-! ### Engines (chapters 4 and 5) -/

/-- One running LOOP of a slice (R136): its body `[first, first + len)`, its count and its iteration index. -/
structure LoopFrame where
  first : Nat
  len : Nat
  count : Nat
  iter : Nat
  deriving DecidableEq, Repr

/-- Which of its counters an engine has added to in the slice in progress (R210); each is added to the register at the
next fallow opening. -/
structure SliceCounts where
  sat : Nat
  ovf : Nat
  trl : Nat
  mac : Nat
  emp : Nat
  pad : Nat
  blk : Nat
  dyn : Nat
  app : Nat
  deriving DecidableEq, Repr

/-- An engine that runs slices (Table 4-3). -/
structure EngState where
  /-- A slice is running. -/
  running : Bool
  /-- The variant latched for the tick in progress. -/
  variant : Nat
  /-- The variant the arming step latched for the next tick. -/
  next : Option VariantRec
  /-- Offset of the next word within the engine's stream. -/
  pc : Nat
  /-- One past the last word of the variant. -/
  stop : Nat
  /-- The running loops, innermost first. -/
  loops : List LoopFrame
  /-- Cycles of the engine's budget clock since the edge, bubbles included. -/
  cycles : Nat
  /-- The slice budget counter (R143). -/
  remain : Nat
  /-- Bubble cycles taken since the edge. -/
  bubbles : Nat
  /-- A stalled WAIT: its knot and its target (R163). -/
  waiting : Option (Nat × Nat)
  /-- Amounts posted in this slice, by knot (R143). -/
  posted : List (Nat × Nat)
  counts : SliceCounts
  deriving DecidableEq, Repr

/-- A post that has been applied: when it becomes visible (in 1.2 GHz cycles from the edge, R129) and its amount. -/
structure KnotPost where
  knot : Nat
  visible : Nat
  amount : Nat
  deriving DecidableEq, Repr

/-- A bank of accumulators of one Sheaf (chapter 5, Matrix opcodes): its exact sums by `row * 32 + column`, the recorded
exponent of each column, and whether it holds a word with an uncorrectable error. -/
structure AccBank where
  sums : List (Nat × Int)
  exps : List (Nat × Int)
  bad : List Nat
  deriving DecidableEq, Repr

/-! ### Moves and Carts (chapter 3) -/

/-- The states of Table 3-4. -/
inductive MoveState where
  | issued | copying | paused | committing | committed | released | fenced | failed
  deriving DecidableEq, Repr

/-- A move descriptor (Table 3-7) with the addresses it was issued with. -/
structure MoveDesc where
  src : Nat
  dst : Nat
  /-- Length in 64-byte lines. -/
  len : Nat
  kind : Nat
  knot : Nat
  knotEn : Bool
  owner : Nat
  hq : Nat
  tag : Nat
  deriving DecidableEq, Repr

/-- What a fallow move of CC3 carries, so that its commit can rewrite the entries that name the datum (R88). -/
inductive MoveDatum where
  /-- A plan move: nothing to rewrite. -/
  | plan
  /-- A page of a paged region of a stream: region, page index. -/
  | page (sc region page : Nat)
  /-- A flat region of a stream. -/
  | flat (sc region : Nat)
  /-- A stream context. -/
  | context (sc : Nat)
  /-- A stream's state record. -/
  | record (sc : Nat)
  /-- The summary table of a region. -/
  | summary (sc region : Nat)
  /-- Part of a plan load. -/
  | load
  /-- Data of a host request. -/
  | host
  deriving DecidableEq, Repr

/-- A move on a Cart. -/
structure Move where
  desc : MoveDesc
  state : MoveState
  /-- True for a fallow move of CC3, false for a move of the Cart's plan stream. -/
  fallow : Bool
  datum : MoveDatum
  deriving DecidableEq, Repr

/-- What T0 holds of an error in one 64-bit word that no read has met yet. -/
inductive BitFlips where
  | single | double
  deriving DecidableEq, Repr

/-- How a T1 burst will answer its next access (R112). -/
inductive BurstFault where
  | once | lasting
  deriving DecidableEq, Repr

/-! ### Streams and their data (chapters 7, 9, 10 and 11) -/

/-- A retained page of a paged region (R271): its sequence number, its home, and the VALID bit of its entry (R272). -/
structure Page where
  seq : Nat
  addr : Nat
  valid : Bool
  deriving DecidableEq, Repr

/-- The head of a paged region (Table 9-3), its page table as the pages that are retained, and the home of its summary
table (R275). -/
structure PagedRegion where
  length : Nat
  nextSeq : Nat
  sumSeq : Nat
  /-- KSHIFT: the per-channel key shifts. -/
  kshift : List Int
  /-- SUMSTAGE: `2 × D` bytes. -/
  sumStage : Cells 8
  /-- TAIL: the open value group, by `position * D + channel`. -/
  tail : List (Nat × Int)
  pages : List Page
  sumHome : Option Nat
  deriving DecidableEq, Repr

/-- A flat region: its home and its size. -/
structure FlatRegion where
  home : Nat
  size : Nat
  deriving DecidableEq, Repr

/-- STATE of the stream context header (Table 10-7). -/
inductive StreamPhase where
  | opened | paused | closing | migrating
  deriving DecidableEq, Repr

/-- An open hole of a stream (R340 to R342). -/
structure Hole where
  first : Nat
  cause : Nat
  lanes : Nat
  multi : Bool
  deriving DecidableEq, Repr

/-- Result records that were not held (R330): the ticks they cover, their lanes, their number, and whether a folded record
was itself a hole of another cause. -/
structure Fold where
  first : Nat
  last : Nat
  lanes : Nat
  dropped : Nat
  multi : Bool
  deriving DecidableEq, Repr

/-- An output binding (R321): port, first slot, two channels. -/
structure OutBind where
  port : Nat
  slot : Nat
  two : Bool
  /-- The output index 0 to 15 of `QRN_OSTAT`. -/
  out : Nat
  deriving DecidableEq, Repr

/-- A stream SC0 to SC63: its context header (Table 10-7) as fields, its regions, where its data is homed, and where it
stands. -/
structure Stream where
  state : StreamPhase
  best : Bool
  prio : Nat
  chunk : Nat
  phase : Option Nat
  psz : Nat
  rqueue : Nat
  inBind : Option (Nat × Nat)
  outBind : Option OutBind
  origin : Nat
  firstAdm : Nat
  rseq : Nat
  seed : Nat
  /-- ENERGY in nJ (the header shows µJ). -/
  energy : Nat
  gated : Bool
  uparam : List Byte
  /-- Home of the stream context. -/
  home : Nat
  paged : List (Nat × PagedRegion)
  flats : List (Nat × FlatRegion)
  /-- Home of the state record, when one is home (R230). -/
  record : Option Nat
  /-- Bytes of T1 pool the stream's reservation holds (R280). -/
  reserved : Option Nat
  /-- The batch row of the tick in progress. -/
  row : Option Nat
  /-- Step 5 must load the pinned rows with zeros, since the stream left away from a resumption point (R229). -/
  fresh : Bool
  /-- The last tick the stream ran ended at a resumption point (R67). -/
  rested : Bool
  hole : Option Hole
  /-- Tick of the last committed token, for R286. -/
  lastToken : Nat
  /-- The last tick that ended at a resumption point. -/
  lastRest : Nat
  /-- Result records held for want of room (R330), oldest first. -/
  held : List (List Byte)
  /-- Records counted into the hole of cause 6 (R330). -/
  folded : Option Fold
  /-- The stream-abort path is due (R345): its END code and the hole cause. -/
  ending : Option (Nat × Nat)
  /-- A victim of pre-emption or an evacuated stream: its data moves to T2 (R287). -/
  swapping : Bool
  /-- The chip a proxy's stream runs on (R415). -/
  runsOn : Option Nat
  /-- The home chip of a stream that has migrated here, and its SC number there (R415). -/
  homeChip : Option Nat
  homeSc : Nat
  /-- A pause acts at the stream's next resumption point (R318). -/
  pausing : Bool
  /-- One past the last tick that a posted hole of the output lane covers (R450). -/
  mutedTo : Nat
  deriving DecidableEq, Repr

/-! ### Host queues (chapter 10) -/

/-- Where a fetched request stands. -/
inductive ReqState where
  /-- Fetched and checked, not yet acting. -/
  | waiting
  /-- Its turn has come: it acts in its step of the next fallow window that reaches it. -/
  | due
  /-- Acting: a fallow step, or moves in progress. -/
  | acting
  /-- Settled: STATUS, DETAIL, VALUE and the stream byte of its completion. -/
  | done (status detail value stream : Nat)
  deriving DecidableEq, Repr

/-- A fetched request (Table 10-2). -/
structure Req where
  kind : Nat
  flags : Nat
  tag : Nat
  stream : Nat
  addr : Nat
  len : Nat
  param : List Byte
  crc : Nat
  /-- A duplicate: its completion is a replay (R327). -/
  replay : Bool
  state : ReqState
  deriving DecidableEq, Repr

/-- One request of a tag window and what the replay store holds of it (R326). -/
structure TagEntry where
  tag : Nat
  crc : Nat
  result : Option (Nat × Nat × Nat)
  deriving DecidableEq, Repr

/-- The state of a host queue beyond its registers. -/
structure Queue where
  sqTail : Nat
  cqHead : Nat
  /-- PHASE of the pass the engine is writing (R304). -/
  phase : Bool
  /-- Requests fetched and not yet completed, in fetch order. -/
  reqs : List Req
  /-- The tag window, newest first. -/
  window : List TagEntry
  /-- Unsignalled records and the time of the oldest (R307). -/
  unsignalled : Nat
  oldest : Nat
  deriving DecidableEq, Repr

/-- A load in progress (R145): its request, the place of the supplied image, the header that was checked, and the bytes of
the image that have been copied. -/
structure LoadJob where
  q : Nat
  tag : Nat
  src : Nat
  hdr : PlanHdr
  imgLen : Nat
  done : Nat
  deriving DecidableEq, Repr

/-- A state export in progress (R319): the move of the state record to the request's buffer. -/
structure ExportJob where
  sc : Nat
  q : Nat
  tag : Nat
  addr : Nat
  deriving DecidableEq, Repr

/-- A STREAM_OPEN that spreads over windows (R60, R317): the data placed so far of the stream to be. -/
structure OpenJob where
  q : Nat
  tag : Nat
  context : Option (Nat × Nat)
  flats : List (Nat × FlatRegion)
  deriving DecidableEq, Repr

/-! ### Gydan ports and stooks (chapter 13) -/

/-- A message flit the transmitter holds until an ACK covers it (R399). -/
structure TxFlit where
  seq : Nat
  cls : Nat
  resent : Nat
  deriving DecidableEq, Repr

/-- The steps of training (R405, R407). -/
inductive TrainStep where
  | lock | deskew | param
  deriving DecidableEq, Repr

/-- The link state of one Gydan port; its STATE of Table 13-5 lies in `GDN_STAT`. -/
structure Port where
  /-- The SEQ expected next (R400), and the last one accepted. -/
  rxNext : Nat
  rxLast : Option Nat
  /-- Trailers carry NAK until the expected flit arrives. -/
  nak : Bool
  txNext : Nat
  replay : List TxFlit
  /-- The last ACK a NAK was answered for (R401). -/
  nakSeen : Option Nat
  /-- Credits held toward the peer, for classes 0 to 4 (R403). -/
  credits : List Nat
  /-- The CREDIT counts last seen from the peer, by class. -/
  creditSeen : List Nat
  /-- Flits received and not yet freed, and cumulative freed counts, by class. -/
  rxHeld : List Nat
  rxFreed : List Nat
  /-- Consecutive 20 µs periods without ACK advance. -/
  stalls : Nat
  /-- Messages that wait to be sent, as (class, flits), the one being sent, and the class of the last move or state-transfer
  message (R404). -/
  txQueue : List (Nat × Nat)
  sending : Option (Nat × Nat)
  lastMove : Nat
  /-- The step that training has reached, in LOCK, DESKEW, PARAM, RETRAIN and DOWN. -/
  step : TrainStep
  /-- Failed attempts of the retrain in progress (R408). -/
  attempts : Nat
  /-- Training runs for a retrain, so counts and buffers are kept (R407). -/
  retraining : Bool
  /-- When the port last left ACTIVE. -/
  leftActive : Nat
  /-- The peer's ordering variant and incarnation, from PARAM. -/
  peerVariant : Nat
  peerIncarn : Nat
  deriving DecidableEq, Repr

/-- A range granted to a peer in an ANSWER (R414): the chip that migrates the stream here, the stream's SC number on its home
chip, that chip, the range, the row held, and the reservation taken. -/
structure Grant where
  chip : Nat
  sc : Nat
  home : Nat
  base : Nat
  size : Nat
  row : Nat
  reserved : Nat
  /-- Bytes of the set that have been released here. -/
  got : Nat
  /-- A WRITE has used the grant; its next arming step has passed. -/
  used : Bool
  armed : Bool
  deriving DecidableEq, Repr

/-- A push being received (R411). -/
structure RxMove where
  chip : Nat
  id : Nat
  cls : Nat
  /-- The lowest address of its lines so far, and the lines received. -/
  base : Nat
  lines : Nat
  /-- The ARG of a REFUSE that answers it. -/
  bad : Option Nat
  /-- Sealed and answered COMMIT, waiting for RELEASED (R412). -/
  committed : Bool
  /-- A move this chip has asked for with PULL: the datum, its place here and its length. -/
  pull : Option (MoveDatum × Nat × Nat)
  deriving DecidableEq, Repr

/-- A push being sent (R410). -/
structure TxMove where
  chip : Nat
  id : Nat
  cls : Nat
  cart : Nat
  src : Nat
  dst : Nat
  len : Nat
  datum : MoveDatum
  /-- A COMMIT has arrived that no fallow window has counted yet (R89). -/
  committed : Bool
  deriving DecidableEq, Repr

/-- A migration of one of this chip's streams (R235 to R237, R414). -/
structure Migration where
  sc : Nat
  dest : Nat
  q : Nat
  tag : Nat
  /-- ASK has been sent, in the window that opened at this time. -/
  asked : Option Nat
  /-- The grant base in the destination's T0, once ANSWER has come. -/
  granted : Option Nat
  /-- Step 5 has exported the pinned rows and the moves have been issued. -/
  exported : Bool
  deriving DecidableEq, Repr

/-! ### Power (chapter 12) -/

/-- What the PWR block and CC4 hold beyond the PWR registers. -/
structure PowerState where
  /-- Sensors that have entered WARN, that have entered HOT, and whose last reading was at TRIP, by sensor number. -/
  warn : List Nat
  hot : List Nat
  trip : List Nat
  /-- The thermal cap in mW while one applies (R363). -/
  thermalCap : Option Nat
  /-- Last good reading of each rail in mW, and consecutive periods in which it failed. -/
  railMw : List (Nat × Nat)
  railFail : List (Nat × Nat)
  /-- Pairs of measured power and raw estimate of the calibration window (R373). -/
  pairs : List (Nat × Nat)
  /-- Raw estimates of the measured period in progress: sum and count. -/
  rawSum : Nat
  rawCount : Nat
  /-- Corrected estimates of the measured period in progress: sum and count, and the average of the last one. -/
  estSum : Nat
  estCount : Nat
  estAvg : Nat
  /-- The class duties were 63 with a deficit in the interval before (R379), and which classes have been logged. -/
  atLimit : List Nat
  limitLogged : List Nat
  /-- The common duty applied in the last interval, and the 1.2 GHz cycle from the edge it was applied at (R382). -/
  common : Nat
  commonAt : Nat
  /-- For each operating point, the consecutive 1 ms periods for which T + 8 °C has been at or below its TJLIM (R386). -/
  calm : List Nat
  /-- Holding OP7 after a failed voltage command, and the periods since the last attempt. -/
  vHold : Option Nat
  /-- The voltage commanded and awaiting its check. -/
  vCheck : Option Nat
  /-- Energy not yet attributed: nJ by admitted stream, and the nJ remainders of the counters. -/
  energyDue : List (Nat × Nat)
  energyNj : Nat
  unattrNj : Nat
  /-- When the last stook share arrived. -/
  shareAt : Option Nat
  shareLost : Bool
  /-- `PWR_STOOK` bits 2:0 in effect since the last share period. -/
  stook : Nat
  /-- The tick in which the steered balance last moved power. -/
  steered : Nat
  /-- The chip whose SHARE messages this member takes. -/
  mgr : Option Nat
  /-- The budget manager's view: (chip, cap without share, estimate, work end) and the shares it last sent. -/
  reports : List (Nat × Nat × Nat × Nat)
  shares : List (Nat × Nat)
  sharePeriod : Nat
  deriving DecidableEq, Repr

/-! ### Audio (chapter 14) -/

/-- An audio port APk beyond its registers. A frame is one signed 32-bit sample for each slot. -/
structure AudioPort where
  /-- The input and loopback buffers, oldest frame first. -/
  input : List (List Int)
  loop : List (List Int)
  /-- The output buffer: frames committed, oldest first. -/
  output : List (List Int)
  /-- Pending frames that the port has reached since the last edge (R431). -/
  used : Nat
  /-- The buffers are re-primed at the next edge (R432). -/
  reprime : Bool
  /-- The received frame that non-audio detection holds back (R440). -/
  lag : Option (List Int)
  /-- Unpaired slots whose last frame held Pa, and muted slots with the frames since their last detection (R439, R440). -/
  sawPa : List Nat
  muted : List (Nat × Nat)
  /-- Input and loopback frames are delivered as zeros since the last edge (R436). -/
  rateMute : Bool
  /-- When the last frame started. -/
  lastStart : Option Nat
  /-- Frames the Flail took at the last edge: input and loopback. -/
  takenIn : List (List Int)
  takenLoop : List (List Int)
  /-- Samples that the stand-alone ramp of R354 has run on this port: downward, and upward. -/
  downAt : Option Nat
  upAt : Option Nat
  deriving DecidableEq, Repr

/-- The signal path of an output behind its overlap-add: the saved tail at 24 kHz, the resampler's newest inputs, the
limiter's newest samples and gain (R448, R449), the output gain reached, and whether the last sample sounded. -/
structure OutPath where
  tail : List Int
  hist : List Int
  delay : List Int
  limGain : Nat
  gain : Nat
  loud : Bool
  deriving DecidableEq, Repr

/-- A bound output (R448). -/
structure AudioOut where
  bind : OutBind
  sc : Nat
  /-- The binding has ended: the output is freed when its ramp-out ends. -/
  leaving : Bool
  path : OutPath
  /-- The frames the tick's job appended, still pending, and the path after them. -/
  job : Option (List Int × OutPath)
  /-- The arming step found that the output plays the tick (R450). -/
  play : Bool
  /-- The output gain of the last edge. -/
  edgeGain : Nat
  deriving DecidableEq, Repr

/-- A complex binary32 value. -/
structure CF32 where
  re : F32
  im : F32
  deriving DecidableEq, Repr

/-- The newest samples of one input of a seat zone: at its port's rate (R442) and at 16 kHz (R444). -/
structure ZoneInput where
  raw : List F32
  win : List F32
  deriving DecidableEq, Repr

/-- An applied seat zone (R441): its copied coefficient block and its histories. -/
structure Zone where
  mu : F32
  delta : F32
  /-- Weights of each microphone, in ascending slot order, for bins 0 to 256. -/
  weights : List (List CF32)
  /-- Each microphone, in ascending slot order, and the echo reference. -/
  mics : List ZoneInput
  echo : ZoneInput
  /-- `r` of earlier hops, newest first, and the echo filter by block. -/
  refs : List (List CF32)
  filter : List (List CF32)
  deriving DecidableEq, Repr

/-- The audio blocks beyond their registers. -/
structure AudioState where
  ports : List AudioPort
  outs : List (Nat × AudioOut)
  zones : List (Nat × Zone)
  /-- The last tick number whose edge the Flail served. -/
  served : Option Nat
  /-- `QRN_LIM` of the last edge: REL and THR (Table 14-9). -/
  lim : Nat × Nat
  /-- The tick in which the stand-alone ramp of R354 began, while it is in force, and whether CC5 has returned. -/
  rampTick : Option Nat
  rampBack : Bool
  deriving DecidableEq, Repr

/-! ### Camera (chapter 15) -/

/-- The states of a frame buffer (R457). -/
inductive BufState where
  | free | filling | ready | held
  deriving DecidableEq, Repr

/-- The camera receiver beyond its registers. -/
structure CamState where
  /-- The area applied: base and length in bytes (R456). -/
  area : Option (Nat × Nat)
  /-- An area accepted at a fallow opening whose pool data has not moved out yet. -/
  due : Option (Nat × Nat)
  bufs : List BufState
  /-- A frame is in progress; it is bad; its lines so far. -/
  inFrame : Bool
  bad : Bool
  line : Nat
  /-- Good frames since EN was last set, and the number of the frame that the READY buffer and the HELD buffer hold. -/
  good : Nat
  readySeq : Nat
  heldSeq : Nat
  /-- Ticks since the held frame became HELD (R459). -/
  age : Nat
  /-- When the last frame started, for MISSMS, and whether NOCAM has been logged since. -/
  lastStart : Nat
  missLogged : Bool
  /-- Consecutive ticks each ACTIVE zone's lip byte lay below OFF (R463). -/
  quiet : List (Nat × Nat)
  deriving DecidableEq, Repr

/-! ### Power, resets and the always-on domain (chapter 17) -/

/-- The power states of Table 17-3. -/
inductive PowerPhase where
  | off | powerupA | powerupB | on | powerdown
  deriving DecidableEq, Repr

/-- A journal entry (Table 17-8). -/
structure JrnlEntry where
  code : Nat
  arg1 : Nat
  arg2 : Nat
  incarn : Nat
  ms : Nat
  detail : Nat
  deriving DecidableEq, Repr

/-- What the NV commit journal records of a slot pair (R527, R530): the committed slot with its GEN, and the slot of an
operation in progress. -/
structure SlotPair where
  committed : Option Nat
  gen : Nat
  busy : Option Nat
  deriving DecidableEq, Repr

/-- The contents of the always-on store: the journal, oldest entry first, with the number of entries ever written, the
monotonic counter, and the NV commit journal. -/
structure StoreData where
  entries : List JrnlEntry
  written : Nat
  mono : Nat
  factory : SlotPair
  user : SlotPair
  deriving DecidableEq, Repr

/-- One of the two copies of the store (R507): its update number, whether its CRC holds, and its contents. -/
structure StoreCopy where
  number : Nat
  valid : Bool
  data : StoreData
  deriving DecidableEq, Repr

/-- What the keep-cell charger holds (R504 to R506) beyond `GLOBAL_KEEPSTAT`. -/
structure KeepState where
  /-- The last sample: KEEP_P in mV and the current in µA. -/
  last : Option (Nat × Int)
  /-- The highest KEEP_P of the charge at full ILIM, and 1 ms samples since it last rose by 1 mV. -/
  peak : Nat
  flat : Nat
  /-- A removal, or a change of TYPE, that no passed probe has followed. -/
  changed : Bool
  /-- A charge fault is latched: it holds until CHGEN is written 0 and then 1. -/
  faulted : Bool
  deriving DecidableEq, Repr

/-- The always-on domain. -/
structure AonState where
  running : Bool
  /-- The domain runs from the keep cell, since this time. -/
  onCell : Option Nat
  /-- When it last started. -/
  startedAt : Nat
  sentinel : Bool
  copies : List StoreCopy
  phase : PowerPhase
  /-- When the state was entered, and when the minimum off time began. -/
  phaseAt : Nat
  offAt : Nat
  /-- The request latch, which holds the filtered level of ON_REQ; the filtered levels of PGOOD_IN and RESET_N. -/
  latch : Bool
  pgood : Bool
  resetN : Bool
  tripHold : Bool
  /-- A thermal trip during POWERUP-B, to be answered at READY. -/
  tripDue : Option (Nat × Nat)
  /-- When the last release step fell, and the pins it sampled: BOOTSEL, CHIPID. -/
  releaseAt : Nat
  pins : Nat × Nat
  /-- Main-domain reset is held at the release step. -/
  held : Bool
  keep : KeepState
  deriving DecidableEq, Repr

/-! ### NV image, overlays and security (chapter 18) -/

/-- An overlay epoch taken up and not yet completed (R537): its request, its stream-boundary values by field ID, the streams
of its set still to be reached, and those whose values travel in a REQFWD. -/
structure EpochJob where
  epoch : Nat
  q : Nat
  tag : Nat
  boundary : List (Nat × Nat)
  left : List Nat
  away : List Nat
  deriving DecidableEq, Repr

/-- An NVC operation that writes the flash (R530): its target, the slot, the record with its new GEN, and its source where that
lies in T0. -/
structure UpdateJob where
  target : Nat
  slot : Nat
  gen : Nat
  record : List Byte
  src : Option (Nat × Nat)
  deriving DecidableEq, Repr

/-- The records in use and the operations on them. -/
structure NvState where
  /-- The boot flash fitted: 0 usable, 1 absent, 2 unusable (Table 16-7), and its bytes. -/
  fitted : Nat
  size : Nat
  /-- Its contents: each byte exclusive-or 0xFF, so that an erased byte is not listed. -/
  flash : Cells 8
  /-- Fields that the factory and user layers set, by ID (R525), and the fields that a factory entry locks. -/
  base : List (Nat × Nat)
  locked : List Nat
  /-- The overlay of each mode 1 to 4 that the user record gives (R520). -/
  overlays : List (Nat × List (Nat × Nat))
  /-- The boot plan's image, from READY until its activation is taken up. -/
  bootPlan : Option (List Byte)
  /-- An owner's signature passed on the user record in use (R542). -/
  ownerSigned : Bool
  epoch : Option EpochJob
  /-- Plan-switch values held for the next activation (R537). -/
  held : List (Nat × Nat)
  update : Option UpdateJob
  /-- A GO was accepted while CC0 restarts: whether the host's memory will answer the read of the source. -/
  goHeld : Option Bool
  deriving DecidableEq, Repr

/-! ### Serial ports and the test access port (chapters 16 and 20) -/

/-- The host serial port beyond its registers: CPHA and WIRE in effect, the reply that the next frame carries, the reply of
the last frame carried out, and the end of the ready time, in units of 10 ns. -/
structure HspState where
  cpha : Bool
  wire : Bool
  reply : List Word
  last : Option (List Word)
  readyAt : Nat
  deriving DecidableEq, Repr

/-- A transfer on the PSP that was started by `PSP_XCTRL` (R486): select, bytes sent, bytes to capture. -/
structure PspJob where
  sel : Nat
  sent : List Byte
  capture : Nat
  deriving DecidableEq, Repr

/-- The instructions of the test access port. -/
inductive JtagInstr where
  | idcode | samplePreload | extest | highz | clamp | debug | bypass
  deriving DecidableEq, Repr

/-- What drives the IO18 pads. -/
inductive PadDrive where
  | system | cells | highz
  deriving DecidableEq, Repr

/-- The test access port: its instruction, the boundary cells, what the selected data register has captured, and what the
pads follow. -/
structure JtagState where
  instr : JtagInstr
  cells : BitVec 79
  captured : BitVec 79
  drive : PadDrive
  deriving DecidableEq, Repr

/-! ### What the engine sends -/

/-- What leaves the engine on an interface: recorded so that statements can name it.
(DESIGN CHOICE, safe: notes/assumptions/62.md) -/
inductive Sent where
  /-- An MSI-X message of a vector (R307). -/
  | msix (vector : Nat)
  /-- A Gydan message: the port it leaves by, its type, its destination chip and its payload. -/
  | gydan (port type chip : Nat) (payload : List Nat)
  /-- A link control flit of a port. -/
  | flit (port type seq : Nat)
  /-- A reply or reject word on the HSP. -/
  | hsp (words : List Word)
  /-- A command to a regulator. -/
  | pmbus (addr page command data : Nat)
  /-- Bits on the PSP: select, bytes sent. -/
  | psp (sel : Nat) (bytes : List Byte)
  /-- A pulse on TICK_SYNC at a time. -/
  | tickSync (t : Nat)
  /-- A BAR2 or BAR0 read completion, with the EP bit. -/
  | completion (bytes : List Byte) (ep : Bool)
  /-- An HSP or PCI Express register read. -/
  | readData (v : Word)
  deriving DecidableEq, Repr

end Sys2Proof.Machine
end

