-- ==== Sys2Proof/Machine/AudioMath.lean ====
section
/-!
DEFINITION. Machine/AudioMath.lean: the tables of the Flail and the Quern (R442, R443), evaluated in fixed point far finer
than binary64 and rounded to binary32, the rational resampler (R442) and the transform of R444.
-/
namespace Sys2Proof.Machine

/-- Bits of the fixed point of the tables. -/
abbrev tabBits : Nat := 160

/-- One in the fixed point. -/
abbrev tabOne : Int := (2 ^ tabBits : Nat)

/-- Product of two fixed-point numbers. -/
def fixMul (a b : Int) : Int := a * b / tabOne

/-- arctan(1 / n) in fixed point, by its series. -/
def atanInv (n : Int) : Int :=
  ((List.range 130).foldl (fun (acc : Int × Int) (k : Nat) =>
    (acc.1 + (if k % 2 = 0 then acc.2 else -acc.2) / ((2 * k + 1 : Nat) : Int), acc.2 / (n * n))) (0, tabOne / n)).1

/-- π in fixed point. -/
def piFix : Int := 4 * (4 * atanInv 5 - atanInv 239)

/-- sin of a fixed-point angle between −π and π, by its series. -/
def sinFix (x : Int) : Int :=
  ((List.range 40).foldl (fun (acc : Int × Int) (k : Nat) =>
    (acc.1 + acc.2, -(fixMul (fixMul acc.2 x) x) / (((2 * k + 2) * (2 * k + 3) : Nat) : Int))) (0, x)).1

/-- sin(π p / q) in fixed point, `0 < q`. -/
def sinPi (p q : Int) : Int :=
  let r := (p + q) % (2 * q) - q
  let r := if 2 * r > q then q - r else if 2 * r < -q then -q - r else r
  sinFix (piFix * r / q)

/-- cos(π p / q) in fixed point. -/
def cosPi (p q : Int) : Int := sinPi (2 * p + q) (2 * q)

/-- I0(√x2) in fixed point for the fixed-point number `x2`, by its series. -/
def besselSq (x2 : Int) : Int :=
  ((List.range 60).foldl (fun (acc : Int × Int) (k : Nat) =>
    (acc.1 + acc.2, fixMul acc.2 (x2 / 4) / (((k + 1) * (k + 1) : Nat) : Int))) (0, tabOne)).1

/-- Round a fixed-point number to binary32. -/
def fixToF32 (x : Int) : F32 := roundDyadic x (-(tabBits : Int))

/-! ### The resampler (R442) -/

/-- The prototype tap `h[n]` for the ratio `L / M`, as binary32.
(DEDUCED, unsafe: notes/assumptions/41.md) -/
def tapH (l m : Nat) (n : Nat) : F32 :=
  let t : Int := (48 * l : Nat)
  let mx : Int := (max l m : Nat)
  let d : Int := 2 * (n : Int) - t + 1
  -- 2 f = 0.9 / max(L, M); the argument of sinc is 9 d / (20 max)
  let num : Int := 9 * d
  let den : Int := 20 * mx
  let sinc : Int := if num = 0 then tabOne else sinPi num den * tabOne / (piFix * num / den)
  let win := besselSq (64 * tabOne * ((t - 1) * (t - 1) - d * d) / ((t - 1) * (t - 1)))
  let norm := besselSq (64 * tabOne)
  fixToF32 (9 * (l : Int) * sinc / (10 * mx) * win / norm)

/-- The rates of `AP_FSYNC.RATE`, in 100 Hz. -/
def rate100 (r : Nat) : Nat := [80, 160, 240, 320, 441, 480].getD r 480

/-- The ratio `L / M` from a port rate to 16 kHz (Table 14-2). -/
def flailRatio (r : Nat) : Nat × Nat := [(2, 1), (1, 1), (2, 3), (1, 2), (160, 441), (1, 3)].getD r (1, 3)

/-- The ratio `L / M` from 24 kHz to a port rate (Table 14-2). -/
def quernRatio (r : Nat) : Nat × Nat := [(1, 3), (2, 3), (1, 1), (4, 3), (147, 80), (2, 1)].getD r (2, 1)

/-- The terms of one output sample: tap number and the input it meets, by ascending tap; `hist` is the 48 inputs before
`xs`. -/
def resampleTerms {α : Type} (l m k : Nat) (hist xs : List α) (z : α) : List (Nat × α) :=
  let all := hist ++ xs
  (List.range 48).map fun j =>
    let at_ := hist.length + k * m / l
    (k * m % l + j * l, if at_ < j then z else all.getD (at_ - j) z)

/-- Resample binary32 samples: the output has `|xs| × L / M` samples. -/
def resampleF (l m : Nat) (hist xs : List F32) : List F32 :=
  let taps := (List.range (48 * l)).map (tapH l m)
  (List.range (xs.length * l / m)).map fun k =>
    (resampleTerms l m k hist xs F32.zero).foldl (fun (t : F32) p => t.add ((taps.getD p.1 F32.zero).mul p.2)) F32.zero

/-- sat16. -/
def sat16 (x : Int) : Int := clampInt (-32768) 32767 x

/-- Resample 16-bit samples with integer taps (R448). -/
def resampleI (l m : Nat) (hist xs : List Int) : List Int :=
  let taps := (List.range (48 * l)).map fun n => sat16 ((tapH l m n).toInt 15)
  (List.range (xs.length * l / m)).map fun k =>
    sat16 (rneShift ((resampleTerms l m k hist xs 0).foldl (fun t p => t + taps.getD p.1 0 * p.2) 0) 15)

/-- The newest `n` of a list. -/
def newest {α : Type} (n : Nat) (l : List α) : List α := l.drop (l.length - n)

/-! ### The transform (R443, R444) -/

/-- The Hann window.
(DEDUCED, unsafe: notes/assumptions/41.md) -/
def hann : List F32 := (List.range 400).map fun (n : Nat) => fixToF32 ((tabOne - cosPi (n : Int) 200) / 2)

/-- The twiddle of index `k`. -/
def twiddle (k : Nat) : CF32 := ⟨fixToF32 (cosPi k 256), fixToF32 (-(sinPi k 256))⟩

/-- A complex sum. -/
def CF32.add (a b : CF32) : CF32 := ⟨a.re.add b.re, a.im.add b.im⟩
/-- A complex difference. -/
def CF32.sub (a b : CF32) : CF32 := ⟨a.re.sub b.re, a.im.sub b.im⟩
/-- A complex product (R444). -/
def CF32.mul (a b : CF32) : CF32 :=
  ⟨(a.re.mul b.re).sub (a.im.mul b.im), (a.re.mul b.im).add (a.im.mul b.re)⟩
/-- The conjugate. -/
def CF32.conj (a : CF32) : CF32 := ⟨a.re, a.im.neg⟩
/-- `re² + im²`, summed in that order. -/
def CF32.norm (a : CF32) : F32 := (a.re.mul a.re).add (a.im.mul a.im)
/-- Complex 0. -/
def CF32.zero : CF32 := ⟨.zero, .zero⟩

/-- Elements at even places, and at odd places. -/
def splitEven {α : Type} : List α → List α × List α
  | [] => ([], [])
  | [a] => ([a], [])
  | a :: b :: rest => let r := splitEven rest; (a :: r.1, b :: r.2)

/-- Radix-2 decimation in time over `2^d` points, by the stages of R444; `tw` holds the 256 twiddles. -/
def fftStages (tw : List CF32) : Nat → List CF32 → List CF32
  | 0, xs => xs
  | d + 1, xs =>
    let p := splitEven xs
    let ev := fftStages tw d p.1
    let od := fftStages tw d p.2
    let t := od.zipIdx.map fun b => (tw.getD (b.2 * 2 ^ (8 - d)) .zero).mul b.1
    (ev.zipWith CF32.add t) ++ (ev.zipWith CF32.sub t)

/-- fft512 of the newest 400 samples. -/
def fft512 (win : List F32) : List CF32 :=
  let xs := (win.zipWith F32.mul hann).map fun x => (⟨x, .zero⟩ : CF32)
  fftStages ((List.range 256).map twiddle) 9 (xs ++ List.replicate 112 .zero)

/-! ### The mel weights (R443) -/

/-- `log₂(87 / 7)` in units of 2⁻¹²⁰: mel(8000 Hz) over mel's factor of log₂. -/
def melLog : Nat := 3 * 2 ^ 120 + log2Bits 120 (87 * 2 ^ fixBits / 56) 0

/-- The frequency of mel point `i` of 82, in Hz as fixed point: `700 ((87 / 7)^(i / 81) − 1)`. -/
def melHz (i : Nat) : Int :=
  let x := i * melLog / 81
  let whole := x / 2 ^ 120
  let frac := x % 2 ^ 120
  let e := expFix (frac * 2 ^ (fixBits - 120) * ln2Fix / 2 ^ fixBits)
  700 * ((e * 2 ^ whole / 2 ^ (fixBits - tabBits) : Nat) : Int) - 700 * tabOne

/-- The weight `m[i][k]` as binary32. -/
def melWeight (f0 f1 f2 : Int) (k : Nat) : F32 :=
  let x : Int := tabOne * 125 * (k : Int) / 4
  if x ≤ f0 ∨ f2 ≤ x then .zero
  else if x ≤ f1 then fixToF32 ((x - f0) * tabOne / (f1 - f0))
  else fixToF32 ((f2 - x) * tabOne / (f2 - f1))

/-- Every mel filter's weights.
(DEDUCED, unsafe: notes/assumptions/41.md) -/
def melTable : List (List F32) :=
  let pts := (List.range 82).map melHz
  (List.range 80).map fun i =>
    (List.range 257).map (melWeight (pts.getD i 0) (pts.getD (i + 1) 0) (pts.getD (i + 2) 0))

/-- `2^-32`. -/
def melFloor : F32 := .fin 1 (-32)

/-- `out_i` of one frame from the powers `p_k` (R445). -/
def melFrame (p : List F32) : List Int :=
  melTable.map fun w =>
    let mel := (w.zip p).foldl (fun (t : F32) x => t.add (x.1.mul x.2)) F32.zero
    sat16 (((mel.add melFloor).log2).toInt 8)

end Sys2Proof.Machine
end

