-- ==== Sys2Proof/Config.lean ====
section
/-!
DEFINITION. Config.lean: what an implementation fixes and the values the manual leaves open.  Each is an uninterpreted
constant: nothing in Lean can evaluate it, so a statement holds whatever it is (notes/assumptions/3.md).
-/
namespace Sys2Proof.Config

/-- The `n`-th value that the manual leaves open, as the machine draws it: an order the firmware chooses without promise,
a cycle count below its bound, contents that are not defined.
(DESIGN CHOICE, safe: notes/assumptions/3.md) -/
opaque freeNat (n : Nat) : Nat

/-- OUTSLOT of a stream context header while no output is bound (Table 10-7 states none).
(DESIGN CHOICE, safe: notes/assumptions/3.md; DEDUCED, unsafe: notes/assumptions/56.md) -/
opaque unboundSlot : Byte

end Sys2Proof.Config
end

