-- ==== Sys2Proof/Machine/Sparse.lean ====
section
/-!
DEFINITION. Machine/Sparse.lean: the operations on sparse cells (registers, T0, T1, host memory, flash) and on keyed lists.
A cell that is not listed reads 0; writing 0 removes the entry, so equal contents are equal lists.
-/
namespace Sys2Proof.Machine

/-- The value of a cell. -/
def cellGet {w : Nat} : Cells w → Nat → BitVec w
  | [], _ => 0
  | (k, v) :: m, a => if a = k then v else cellGet m a

/-- Enter a value that is not 0, at its place in the rising order of keys. -/
def cellPut {w : Nat} : Cells w → Nat → BitVec w → Cells w
  | [], a, v => [(a, v)]
  | (k, u) :: m, a, v =>
    if a < k then (a, v) :: (k, u) :: m
    else if a = k then (a, v) :: m
    else (k, u) :: cellPut m a v

/-- Remove a cell's entry, so that it reads 0. -/
def cellDel {w : Nat} (m : Cells w) (a : Nat) : Cells w := m.filter fun c => c.1 != a

/-- Write a cell. -/
def cellSet {w : Nat} (m : Cells w) (a : Nat) (v : BitVec w) : Cells w :=
  if v = 0 then cellDel m a else cellPut m a v

/-- The keys rise strictly from above `lo`. -/
def cellRising {w : Nat} : Nat → Cells w → Bool
  | _, [] => true
  | lo, (k, v) :: m => decide (lo ≤ k) && decide (v ≠ 0) && cellRising (k + 1) m

/-- The canonical form: keys strictly rising and no entry equal to what an unlisted cell reads as. -/
def cellWf {w : Nat} (m : Cells w) : Bool := cellRising 0 m

/-- Write consecutive cells. -/
def cellSetMany {w : Nat} (m : Cells w) (a : Nat) : List (BitVec w) → Cells w
  | [] => m
  | v :: vs => cellSetMany (cellSet m a v) (a + 1) vs

/-- Read `n` consecutive cells. -/
def cellRead {w : Nat} (m : Cells w) (a : Nat) : Nat → List (BitVec w)
  | 0 => []
  | n + 1 => cellGet m a :: cellRead m (a + 1) n

/-- Clear every cell of a range. -/
def cellClear {w : Nat} (m : Cells w) (lo len : Nat) : Cells w :=
  m.filter fun c => !(lo ≤ c.1 && c.1 < lo + len)

/-! ### Keyed lists: pairs in rising order of key, for state that is present or absent -/

/-- The entry of a key. -/
def keyGet {α : Type} : List (Nat × α) → Nat → Option α
  | [], _ => none
  | (k, v) :: m, a => if a = k then some v else keyGet m a

/-- Enter or replace the entry of a key. -/
def keyPut {α : Type} : List (Nat × α) → Nat → α → List (Nat × α)
  | [], a, v => [(a, v)]
  | (k, u) :: m, a, v =>
    if a < k then (a, v) :: (k, u) :: m
    else if a = k then (a, v) :: m
    else (k, u) :: keyPut m a v

/-- Remove the entry of a key. -/
def keyDel {α : Type} (m : List (Nat × α)) (a : Nat) : List (Nat × α) := m.filter fun e => e.1 != a

/-- The entry of a key, or a default. -/
def keyGetD {α : Type} (m : List (Nat × α)) (a : Nat) (d : α) : α := (keyGet m a).getD d

/-! ### Bytes and words -/

/-- Little-endian bytes to a number (R9). -/
def leNat : List Byte → Nat
  | [] => 0
  | b :: bs => b.toNat + 256 * leNat bs

/-- The `n` little-endian bytes of a number (R9). -/
def leBytes : Nat → Nat → List Byte
  | 0, _ => []
  | n + 1, v => BitVec.ofNat 8 v :: leBytes n (v / 256)

/-- The `n`-byte little-endian number at an offset of a byte string. -/
def leAt (bs : List Byte) (off n : Nat) : Nat := leNat ((bs.drop off).take n)

/-- A bit field of a number. -/
def bitsOf (v lo width : Nat) : Nat := (v / 2 ^ lo) % 2 ^ width

/-- One bit of a number. -/
def bitOf (v i : Nat) : Bool := bitsOf v i 1 = 1

/-- The signed number that the low `w` bits of a number spell. -/
def signedOf (w v : Nat) : Int :=
  if v % 2 ^ w < 2 ^ (w - 1) then ((v % 2 ^ w : Nat) : Int) else ((v % 2 ^ w : Nat) : Int) - 2 ^ w

/-- The low `w` bits of a signed number. -/
def unsignedOf (w : Nat) (v : Int) : Nat := (v % 2 ^ w).toNat

/-- A natural number limited to `w` bits by saturation. -/
def satNat (w v : Nat) : Nat := min v (2 ^ w - 1)

/-- Replace the element at an index of a list. -/
def listSet {α : Type} (l : List α) (i : Nat) (a : α) : List α := l.set i a

/-- Change the element at an index of a list. -/
def listUpd {α : Type} (l : List α) (i : Nat) (f : α → α) : List α :=
  match l[i]? with
  | some a => l.set i (f a)
  | none => l

end Sys2Proof.Machine
end

