-- ==== Sys2Proof/Machine/State.lean ====
section
/-!
DEFINITION. Machine/State.lean: the state of the TLG-4816 as plain data, the reasons a step can stop, and the state after
reset.
-/
namespace Sys2Proof.Machine

/-- The reasons a command faults.  The table has no command whose access could meet one: the loader and the Carts check every
address (R93, R142), and the register space answers every offset (R19). -/
inductive Fault where
  /-- An access named an address of no row of Table 3-1 (R81).  Raised by no command.  Safe: the machine would stop. -/
  | unmapped (addr : Nat)
  deriving DecidableEq, Repr

/-- The reasons a command is refused. -/
inductive Refusal where
  /-- The command has no meaning in this model yet.  Safe: nothing is claimed of it. -/
  | notModelled (mnemonic : String)
  deriving DecidableEq, Repr

/-- The state of one TLG-4816. -/
structure State where
  /-- Commands that wait, first in, first out. -/
  pending : List Instr
  /-- How many free values have been drawn (`Config.freeNat`). -/
  free : Nat
  /-- The always-on timebase in µs (R49). -/
  now : Nat
  /-- Every register that is not 0, by its 24-bit offset (R577). -/
  regs : Cells 32
  /-- RWT writes held for the next fallow window, in the order accepted: offset, the bits that are written, the value
  (R22). -/
  rwtHeld : List (Nat × Word × Word)
  /-- The high words each interface has latched, by `interface * 2^24 + offset` (R579). -/
  hiLatch : Cells 32
  /-- The low words each interface holds for a pair, by `interface * 2^24 + offset of the high word` (R579). -/
  lowHeld : List (Nat × Word)
  /-- The tick generator. -/
  tick : TickState
  /-- The active plan and the pending plan, in their banks (R121). -/
  active : Option Plan
  pendingPlan : Option Plan
  /-- An accepted activation, which the next complete arming step carries out (R147): the queue and TAG to answer. -/
  activating : Option (Nat × Nat)
  /-- A load in progress. -/
  load : Option LoadJob
  /-- A constant-region failure: the plan is deactivated at the next fallow window (Table 3-27). -/
  deactivate : Bool
  /-- The slice engines, by engine index (Table 4-3). -/
  engs : List EngState
  /-- Posts applied since the edge (R129). -/
  posts : List KnotPost
  /-- Knot start values latched for the next tick (R58). -/
  nextKnots : List Nat
  /-- Accumulator banks that are not all 0 with exponents 0, by `sheaf * 8 + bank`. -/
  banks : List (Nat × AccBank)
  /-- Single- and double-bit errors that accumulator words hold, by `(sheaf * 8 + bank) * 1024 + word` (R207). -/
  bankFlips : List (Nat × BitFlips)
  /-- The batch rows of the tick in progress, as the arming step latched the row map: SC number by row. -/
  rows : List (Nat × Nat)
  /-- The row map CC2 has chosen for the next tick, when steps 6 and 7 have ended. -/
  nextRows : Option (List (Nat × Nat))
  /-- Rows whose data an engine found unreadable in this tick: the batch row, and the hole cause (R344). -/
  unreadRows : List Nat
  /-- Every admitted row's results of this tick are unreadable (R344). -/
  unreadAll : Bool
  /-- Results of the tick in progress have been posted (R314). -/
  resultsDone : Bool
  /-- T0: the Granary's bytes, its poisoned 64-bit words, the words with errors no read has met, by word number. -/
  t0 : Cells 8
  t0Poison : List Nat
  t0Flips : List (Nat × BitFlips)
  /-- Corrected words queued for write-back (R107), and the word at which the next scrub starts. -/
  writeBack : List Nat
  scrubAt : Nat
  /-- T1: on-package memory, and how bursts answer reads and writes (R112), by 256-byte burst number (R111). -/
  t1 : Cells 8
  t1Read : List (Nat × BurstFault)
  t1Write : List (Nat × BurstFault)
  /-- Host memory, by host bus address. -/
  host : Cells 8
  /-- Ranges of host bus addresses, first and one past the last, that answer an access with an error. -/
  hostErrs : List (Nat × Nat)
  /-- The moves that have not ended: Cart and move, oldest first. -/
  moves : List (Nat × Move)
  /-- Bytes of the swap budget left in this window (R284). -/
  budget : Nat
  /-- The Gleaner's look-aside buffer, most recent first: SC, region, slot (R276). -/
  lookAside : List (Nat × Nat × Nat)
  /-- What `GLN_LABCNT` and `GLN_BADPTE` gain at the next fallow opening (R210): hits, misses, invalid entries. -/
  glnHit : Nat
  glnMiss : Nat
  glnBad : Nat
  /-- Walk: the address of the descriptor ring's halves, when a channel uses them (R277). -/
  ringHome : Option Nat
  /-- Streams SC0 to SC63 that are open, by SC number. -/
  streams : List (Nat × Stream)
  /-- SC numbers of streams that ended in the window in progress: free from the next (R345). -/
  lateSc : List Nat
  /-- Result records still held of streams that have ended, oldest first, with their queue (R330). -/
  orphans : List (Nat × List Byte)
  /-- Control cores that are restarting. -/
  restarting : List Nat
  /-- Host queues HQ0 to HQ15, and behind them one for the requests that each chip 0 to 3 has forwarded here (R415). -/
  queues : List Queue
  exports : List ExportJob
  /-- Stream opens whose data is being placed. -/
  openings : List OpenJob
  /-- The queue CC1 serves next (R306). -/
  turn : Nat
  /-- The staging area applied (R298): base and length in bytes. -/
  staging : Option (Nat × Nat)
  /-- A staging range applied at a fallow opening whose pool data has not moved out yet. -/
  stagingDue : Option (Nat × Nat)
  /-- The PCI Express function: MSI-X enabled, function masked; and whether the link serves registers. -/
  msixOn : Bool
  msixMask : Bool
  /-- The next SEQ of the logs (R347). -/
  logSeq : Nat
  /-- ALERT_N and DIAG_N: whether the pin is driven low, and the time of the last event that set its latch (R358). -/
  alertLow : Bool
  alertAt : Nat
  diagLow : Bool
  diagAt : Nat
  /-- Gydan ports GDN0 to GDN2. -/
  ports : List Port
  /-- Incarnations recorded when a chip was declared lost (R406), by chip. -/
  lostIncarn : List (Nat × Nat)
  /-- Chips declared lost whose actions the next complete window takes (R419). -/
  lossDue : List Nat
  grants : List Grant
  rxMoves : List RxMove
  txMoves : List TxMove
  nextMoveId : Nat
  /-- Pushes that a peer has asked for with PULL, for the next fallow window (R410). -/
  pullsDue : List TxMove
  migrations : List Migration
  power : PowerState
  audio : AudioState
  cam : CamState
  aon : AonState
  nv : NvState
  hsp : HspState
  psp : Option PspJob
  jtag : JtagState
  /-- When each control core last restarted as a first restart (R352), by core, and when the last firmware reset began
  (R514). -/
  firstRestart : List (Nat × Nat)
  firmwareAt : Option Nat
  /-- What has left the engine, newest first. -/
  sent : List Sent
  deriving DecidableEq, Repr

/-! ### Reset -/

/-- An engine at rest, with nothing latched. -/
def idleEng : EngState :=
  { running := false, variant := 0, next := none, pc := 0, stop := 0, loops := [], cycles := 0, remain := 0, bubbles := 0,
    waiting := none, posted := [], counts := ⟨0, 0, 0, 0, 0, 0, 0, 0, 0⟩ }

/-- A queue with nothing in it. -/
def idleQueue : Queue :=
  { sqTail := 0, cqHead := 0, phase := true, reqs := [], window := [], unsignalled := 0, oldest := 0 }

/-- A Gydan port with nothing on it. -/
def idlePort : Port :=
  { rxNext := 0, rxLast := none, nak := false, txNext := 0, replay := [], nakSeen := none,
    credits := [96, 32, 4, 4, 8], creditSeen := [0, 0, 0, 0, 0], rxHeld := [0, 0, 0, 0, 0], rxFreed := [0, 0, 0, 0, 0],
    stalls := 0, txQueue := [], sending := none, lastMove := 1, step := .lock, attempts := 0, retraining := false, leftActive := 0,
    peerVariant := 0, peerIncarn := 0 }

/-- The tick generator with ticks stopped. -/
def idleTick : TickState :=
  { phase := .stopped, nominal := 0, edge := 0, nextNominal := none, opened := 0, nextEdge := 0, cls := .normal,
    nextCls := .normal, skips := 0, workEnd := 0, nextLag := 0, stepsDone := false, classed := false, lockRun := 0,
    seeking := false, syncs := 0, spanStart := none, members := [], excluded := [], master := none,
    halted := false, rejoining := false }

/-- CC4 with nothing measured. -/
def idlePower : PowerState :=
  { warn := [], hot := [], trip := [], thermalCap := none, railMw := [], railFail := [], pairs := [], rawSum := 0,
    rawCount := 0, estSum := 0, estCount := 0, estAvg := 0, atLimit := [], limitLogged := [], common := 0, commonAt := 0,
    calm := [], vHold := none, vCheck := none, energyDue := [], energyNj := 0, unattrNj := 0,
    shareAt := none, shareLost := false, stook := 0, steered := 0, mgr := none, reports := [], shares := [], sharePeriod := 0 }

/-- An audio port with empty buffers. -/
def idleAudioPort : AudioPort :=
  { input := [], loop := [], output := [], used := 0, reprime := true, lag := none, sawPa := [], muted := [], rateMute := false,
    lastStart := none, takenIn := [], takenLoop := [], downAt := none, upAt := none }

/-- The audio blocks with nothing bound. -/
def idleAudio : AudioState :=
  { ports := List.replicate 4 idleAudioPort, outs := [], zones := [], served := none, lim := (4, 0x7333),
    rampTick := none, rampBack := false }

/-- The camera receiver with no area. -/
def idleCam : CamState :=
  { area := none, due := none, bufs := [.free, .free, .free], inFrame := false, bad := false, line := 0, good := 0, readySeq := 0,
    heldSeq := 0, age := 0, lastStart := 0, missLogged := false, quiet := [] }

/-- A slot pair with nothing committed. -/
def noSlots : SlotPair := ⟨none, 0, none⟩

/-- The always-on store after the release step: the counter's first value and the journal's entry of it.
(DESIGN CHOICE, unsafe: notes/assumptions/2.md) -/
def firstStore : StoreData := ⟨[⟨1, 0, 0, 1, 0, 0⟩], 1, 1, noSlots, noSlots⟩

/-- The always-on domain at the release step, with on requested and the supplies good.
(DESIGN CHOICE, unsafe: notes/assumptions/2.md) -/
def idleAon : AonState :=
  { running := true, onCell := none, startedAt := 0, sentinel := false,
    copies := [⟨1, true, firstStore⟩, ⟨0, false, ⟨[], 0, 0, noSlots, noSlots⟩⟩], phase := .powerupB, phaseAt := 0, offAt := 0,
    latch := true, pgood := true, resetN := true, tripHold := false, tripDue := none, releaseAt := 0, pins := (0, 0), held := false,
    keep := ⟨none, 0, 0, false, false⟩ }

/-- The NV side with an erased flash of 16 MiB (notes/assumptions/2.md).
(DESIGN CHOICE, unsafe: notes/assumptions/2.md) -/
def idleNv : NvState :=
  { fitted := 0, size := 0x100_0000, flash := [], base := [], locked := [], overlays := [], bootPlan := none,
    ownerSigned := false, epoch := none, held := [], update := none, goHeld := none }

/-- The HSP after a reset that clears its block: the first reply has STATUS 0x08 (R474). -/
def idleHsp : HspState := ⟨false, false, [], none, 0⟩

/-- The test access port in Test-Logic-Reset.
(PRESUMED, unsafe: notes/assumptions/53.md) -/
def idleJtag : JtagState := ⟨.idcode, 0, 0, .system⟩

/-- The machine right after a reset of the main domain (R512): every register at the Reset column of its table, or at the
value notes/assumptions/2.md names where the manual gives none; nothing open, nothing stored, nothing waiting.
(DESIGN CHOICE, unsafe: notes/assumptions/1.md; DESIGN CHOICE, unsafe: notes/assumptions/2.md; DESIGN CHOICE, unsafe: notes/assumptions/8.md) -/
def State.reset : State :=
  { pending := [], free := 0, now := 0, regs := resetRegCells, rwtHeld := [], hiLatch := [], lowHeld := [],
    tick := idleTick, active := none, pendingPlan := none, activating := none, load := none, deactivate := false,
    engs := List.replicate 33 idleEng, posts := [], nextKnots := List.replicate 64 0, banks := [], bankFlips := [],
    rows := [], nextRows := none, unreadRows := [], unreadAll := false, resultsDone := false,
    t0 := [], t0Poison := [], t0Flips := [], writeBack := [], scrubAt := 0, t1 := [], t1Read := [], t1Write := [],
    host := [], hostErrs := [], moves := [], budget := 0, lookAside := [], glnHit := 0, glnMiss := 0, glnBad := 0, ringHome := none,
    streams := [], lateSc := [], orphans := [], restarting := [], queues := List.replicate 20 idleQueue, exports := [], openings := [], turn := 0,
    staging := none, stagingDue := none, msixOn := false, msixMask := false, logSeq := 0,
    alertLow := false, alertAt := 0, diagLow := false, diagAt := 0,
    ports := List.replicate 3 idlePort, lostIncarn := [], lossDue := [], grants := [], rxMoves := [], txMoves := [],
    nextMoveId := 0, pullsDue := [], migrations := [], power := idlePower, audio := idleAudio,
    cam := idleCam, aon := idleAon, nv := idleNv, hsp := idleHsp, psp := none, jtag := idleJtag, firstRestart := [],
    firmwareAt := none, sent := [] }

end Sys2Proof.Machine
end

