-- ==== Sys2Proof/Machine/Ops.lean ====
section
/-!
DEFINITION. Machine/Ops.lean: the named operations over registers, counters, status bits, interrupt vectors, logs, pins and
time that every meaning shares.
-/
namespace Sys2Proof.Machine

/-! ### Registers and their fields -/

/-- The value of a register. -/
def State.reg (s : State) (off : Nat) : Word := cellGet s.regs off

/-- Give a register a value. -/
def State.setReg (s : State) (off : Nat) (v : Word) : State := { s with regs := cellSet s.regs off v }

/-- A field of a register value. -/
def wordField (v : Word) (lo width : Nat) : Nat := bitsOf v.toNat lo width

/-- The ones of a field. -/
def fieldMask (lo width : Nat) : Word := BitVec.ofNat 32 ((2 ^ width - 1) * 2 ^ lo)

/-- A register value with one field replaced. -/
def wordSetField (v : Word) (lo width n : Nat) : Word :=
  (v &&& ~~~fieldMask lo width) ||| (BitVec.ofNat 32 (n % 2 ^ width * 2 ^ lo))

/-- A field of a register. -/
def State.fld (s : State) (off lo width : Nat) : Nat := wordField (s.reg off) lo width

/-- Replace a field of a register. -/
def State.setFld (s : State) (off lo width n : Nat) : State := s.setReg off (wordSetField (s.reg off) lo width n)

/-- A bit of a register. -/
def State.bit (s : State) (off i : Nat) : Bool := s.fld off i 1 = 1

/-- Replace a bit of a register. -/
def State.setBit (s : State) (off i : Nat) (b : Bool) : State := s.setFld off i 1 (if b then 1 else 0)

/-- Add to a counter field, which saturates. -/
def State.addSat (s : State) (off lo width n : Nat) : State :=
  s.setFld off lo width (min (s.fld off lo width + n) (2 ^ width - 1))

/-- The 64-bit quantity of a register pair. -/
def State.reg64 (s : State) (lo : Nat) : Nat := (s.reg lo).toNat + 2 ^ 32 * (s.reg (lo + 4)).toNat

/-- Give a register pair its 64-bit quantity. -/
def State.setReg64 (s : State) (lo v : Nat) : State :=
  (s.setReg lo (BitVec.ofNat 32 v)).setReg (lo + 4) (BitVec.ofNat 32 (v / 2 ^ 32))

/-- Add to a 64-bit counter held in a pair. -/
def State.add64 (s : State) (lo n : Nat) : State := if n = 0 then s else s.setReg64 lo ((s.reg64 lo + n) % 2 ^ 64)

/-- The number of the tick in progress (R68). -/
def State.tickNo (s : State) : Nat := s.reg64 Reg.TICK_COUNT_LO

/-! ### Free values -/

/-- Draw the next value the manual leaves open.
(DESIGN CHOICE, safe: notes/assumptions/3.md) -/
def State.draw (s : State) : Nat × State := (Config.freeNat s.free, { s with free := s.free + 1 })

/-! ### Time -/

/-- The timebase has reached a time at least.
(DEDUCED, unsafe: notes/assumptions/5.md) -/
def State.reach (s : State) (t : Nat) : State := { s with now := max s.now t }

/-! ### Interrupt vectors -/

/-- Where the control word of an MSI-X table entry lies; its bit 0 masks the vector.
(PRESUMED, unsafe: notes/assumptions/52.md) -/
def msixControl (v : Nat) : Nat := Reg.HOST_MSIX_TABLE + 16 * v + 12

/-- Send a vector: its bit of `HSP_INTPEND` is set whatever the state of MSI-X (R481), and MSI-X sends the message or leaves
it pending as PCI Express states.
(PRESUMED, unsafe: notes/assumptions/52.md) -/
def State.sendVector (s : State) (v : Nat) : State :=
  let s := s.setBit Reg.HSP_INTPEND v true
  if s.msixOn then
    if s.msixMask || s.bit (msixControl v) 0 then s.setBit Reg.HOST_MSIX_PBA v true
    else { s with sent := .msix v :: s.sent }
  else s

/-- Vectors left pending are sent once nothing masks them.
(PRESUMED, unsafe: notes/assumptions/52.md) -/
def State.flushVector (s : State) (v : Nat) : State :=
  if s.msixOn && !s.msixMask && !s.bit (msixControl v) 0 && s.bit Reg.HOST_MSIX_PBA v then
    { s.setBit Reg.HOST_MSIX_PBA v false with sent := .msix v :: s.sent }
  else s

/-- HSP_INT_N is driven low while a pending vector is enabled (R481). -/
def State.hspIntLow (s : State) : Bool := (s.reg Reg.HSP_INTPEND &&& s.reg Reg.HSP_INTEN) != 0

/-- The sources of R308, each by its register of vectors and where its vector lies there. -/
inductive EvtSource where
  | tick | plan | errlog | pwr | ap | cam | gdn | nvc
  deriving DecidableEq, Repr

/-- The register and bit position of a source's vector; its enable is 7 bits above. -/
def EvtSource.place : EvtSource → Nat × Nat
  | .tick => (Reg.HOST_EVTVEC0, 0)
  | .plan => (Reg.HOST_EVTVEC0, 8)
  | .errlog => (Reg.HOST_EVTVEC0, 16)
  | .pwr => (Reg.HOST_EVTVEC0, 24)
  | .ap => (Reg.HOST_EVTVEC1, 0)
  | .cam => (Reg.HOST_EVTVEC1, 8)
  | .gdn => (Reg.HOST_EVTVEC1, 16)
  | .nvc => (Reg.HOST_EVTVEC1, 24)

/-- The enable register of a source whose status lies at an offset, and whether it has one (R308: PLAN has none). -/
def EvtSource.enable : EvtSource → Nat → Option Nat
  | .tick, _ => some Reg.TICK_INTEN
  | .plan, _ => none
  | .errlog, _ => some Reg.ERRLOG_INTEN
  | .pwr, _ => some Reg.PWR_INTEN
  | .ap, stat => some (stat + (Reg.AP_INTEN - Reg.AP_STAT))
  | .cam, _ => some Reg.CAM_INTEN
  | .gdn, stat => some (stat + (Reg.GDN_INTEN - Reg.GDN_STAT))
  | .nvc, _ => some Reg.NVC_INTEN

/-- An interrupt status bit becomes 1: the source's vector is sent if the bit was 0 and is enabled, in its own block and
in the HOST block (R308, R21). -/
def State.raise (s : State) (src : EvtSource) (stat b : Nat) : State :=
  if s.bit stat b then s
  else
    let s := s.setBit stat b true
    let p := src.place
    let on := match src.enable stat with
      | some en => s.bit en b
      | none => true
    if on && s.bit p.1 (p.2 + 7) then s.sendVector (s.fld p.1 p.2 5) else s

/-! ### The logs (R346 to R349) and their pins (R358) -/

/-- ALERTLAT is set: ALERT_N is driven low, and its 1 ms starts again. -/
def State.alert (s : State) : State :=
  { s.setBit Reg.ERRLOG_STAT 4 true with alertLow := true, alertAt := s.now }

/-- DIAGLAT is set. -/
def State.diag (s : State) : State :=
  { s.setBit Reg.ERRLOG_STAT 5 true with diagLow := true, diagAt := s.now }

/-- What a log entry says beyond its class and SUB (Table 11-5). -/
structure LogInfo where
  source : Nat := 0xFF
  stream : Nat := 0xFF
  addr : Nat := 0
  detail : Nat := 0
  tag : Nat := 0xFFFF
  queue : Nat := 0xFF
  deriving DecidableEq, Repr

/-- The eight words of a log entry.
(DEDUCED, unsafe: notes/assumptions/7.md) -/
def logWords (tick seq cls sub : Nat) (i : LogInfo) : List Word :=
  [BitVec.ofNat 32 tick, BitVec.ofNat 32 (tick / 2 ^ 32), BitVec.ofNat 32 seq,
   BitVec.ofNat 32 (cls % 256 + 256 * (sub % 256) + 65536 * (i.source % 256) + 16777216 * (i.stream % 256)),
   BitVec.ofNat 32 i.addr, BitVec.ofNat 32 (i.addr / 2 ^ 32), BitVec.ofNat 32 i.detail,
   BitVec.ofNat 32 (i.tag % 65536 + 65536 * ((if i.queue < 16 then i.queue else 255)))]

/-- Write consecutive registers. -/
def State.setRegs (s : State) (off : Nat) : List Word → State
  | [] => s
  | w :: ws => (s.setReg off w).setRegs (off + 4) ws

/-- An event of a log: counted, given a SEQ, written unless the log holds 256 entries, and reported on the pins
(R347 to R349, R358).
(DEDUCED, unsafe: notes/assumptions/7.md) -/
def State.logEvent (s : State) (violation : Bool) (cls sub : Nat) (i : LogInfo := {}) : State :=
  let head := if violation then Reg.ERRLOG_VHEAD else Reg.ERRLOG_HEAD
  let tail := if violation then Reg.ERRLOG_VTAIL else Reg.ERRLOG_TAIL
  let ring := if violation then Reg.ERRLOG_V else Reg.ERRLOG_E
  let cnt := if violation then Reg.ERRLOG_VCNT else Reg.ERRLOG_ECNT
  let seq := s.logSeq
  let s := { s with logSeq := (seq + 1) % 2 ^ 32 }
  let s := if cls < 16 then s.addSat (cnt + 4 * cls) 0 32 1 else s
  let h := s.fld head 0 9
  let t := s.fld tail 0 9
  let s :=
    if (h + 512 - t) % 512 ≥ 256 then s.raise .errlog Reg.ERRLOG_STAT (if violation then 3 else 2)
    else
      let s := s.setRegs (ring + 32 * (h % 256)) (logWords s.tickNo seq cls sub i)
      let s := s.setFld head 0 9 ((h + 1) % 512)
      s.raise .errlog Reg.ERRLOG_STAT (if violation then 1 else 0)
  let b := if violation then cls + 16 else cls
  let s := if cls < 16 && s.bit Reg.ERRLOG_ALERTEN b then s.alert else s
  if cls < 16 && s.bit Reg.ERRLOG_DIAGEN b then s.diag else s

/-- An event of the error log (Table 11-3).
(DEDUCED, unsafe: notes/assumptions/7.md) -/
def State.logError (s : State) (cls sub : Nat) (i : LogInfo := {}) : State := s.logEvent false cls sub i

/-- An event of the violation log (Table 11-4).
(DEDUCED, unsafe: notes/assumptions/7.md) -/
def State.logViolation (s : State) (cls sub : Nat) (i : LogInfo := {}) : State := s.logEvent true cls sub i

/-! ### Streams, engines and queues by number -/

/-- An open stream. -/
def State.stream (s : State) (sc : Nat) : Option Stream := keyGet s.streams sc

/-- Enter or replace a stream. -/
def State.setStream (s : State) (sc : Nat) (t : Stream) : State := { s with streams := keyPut s.streams sc t }

/-- Change an open stream. -/
def State.updStream (s : State) (sc : Nat) (f : Stream → Stream) : State :=
  match s.stream sc with
  | some t => s.setStream sc (f t)
  | none => s

/-- An engine by its index. -/
def State.eng (s : State) (e : Nat) : EngState := (s.engs[e]?).getD idleEng

/-- Replace an engine. -/
def State.setEng (s : State) (e : Nat) (g : EngState) : State := { s with engs := s.engs.set e g }

/-- Change an engine. -/
def State.updEng (s : State) (e : Nat) (f : EngState → EngState) : State := s.setEng e (f (s.eng e))

/-- A host queue by its number. -/
def State.queue (s : State) (q : Nat) : Queue := (s.queues[q]?).getD idleQueue

/-- Change a host queue. -/
def State.updQueue (s : State) (q : Nat) (f : Queue → Queue) : State :=
  { s with queues := s.queues.set q (f (s.queue q)) }

/-- A Gydan port by its number. -/
def State.port (s : State) (k : Nat) : Port := (s.ports[k]?).getD idlePort

/-- Change a Gydan port. -/
def State.updPort (s : State) (k : Nat) (f : Port → Port) : State := { s with ports := s.ports.set k (f (s.port k)) }

/-- A list of numbers with one more member, without repeats, in rising order. -/
def addMember (l : List Nat) (n : Nat) : List Nat := (keyPut (l.map fun k => (k, ())) n ()).map Prod.fst

/-- Record something that leaves the engine.
(DESIGN CHOICE, safe: notes/assumptions/62.md) -/
def State.emit (s : State) (o : Sent) : State := { s with sent := o :: s.sent }

end Sys2Proof.Machine
end

