-- ==== Sys2Proof/Machine/PlanWord.lean ====
section
/-!
DEFINITION. Machine/PlanWord.lean: the fields of instruction words (Tables 4-5 to 4-8), tensor descriptors (Table 4-10), move
descriptors (Table 3-7) and cache-region bases (R261), and what a plan's own words and descriptors say of its regions
(Table 9-1).
-/
namespace Sys2Proof.Machine

/-! ### Instruction words -/

/-- OP of an instruction word (R133). -/
def wOp (w : DWord) : Nat := bitsOf w.toNat 56 8
/-- MOD of a format T word. -/
def wMod (w : DWord) : Nat := bitsOf w.toNat 48 8
/-- DST of a format T word, MDESC of a format X word. -/
def wDst (w : DWord) : Nat := bitsOf w.toNat 36 12
/-- SRCA. -/
def wA (w : DWord) : Nat := bitsOf w.toNat 24 12
/-- SRCB. -/
def wB (w : DWord) : Nat := bitsOf w.toNat 12 12
/-- SRCC. -/
def wC (w : DWord) : Nat := bitsOf w.toNat 0 12
/-- KNOT of a format S word. -/
def wKnot (w : DWord) : Nat := bitsOf w.toNat 50 6
/-- VALUE of a format S word, COUNT of a format C word. -/
def wValue (w : DWord) : Nat := bitsOf w.toNat 32 16
/-- STEP of a format S word, LEN of a format C word. -/
def wStep (w : DWord) : Nat := bitsOf w.toNat 16 16
/-- SRCSTEP of a format X word. -/
def wSrcStep (w : DWord) : Nat := bitsOf w.toNat 20 16
/-- DSTSTEP of a format X word. -/
def wDstStep (w : DWord) : Nat := bitsOf w.toNat 4 16

/-- The word of a format T instruction. -/
def tWord (op : Nat) (f : TFields) : DWord :=
  BitVec.ofNat 64 (op * 2 ^ 56 + f.mod.toNat * 2 ^ 48 + f.dst.toNat * 2 ^ 36 + f.srcA.toNat * 2 ^ 24 +
    f.srcB.toNat * 2 ^ 12 + f.srcC.toNat)

/-- The word of a format S instruction. -/
def sWord (op knot value step : Nat) : DWord := BitVec.ofNat 64 (op * 2 ^ 56 + knot * 2 ^ 50 + value * 2 ^ 32 + step * 2 ^ 16)

/-- The word of a format C instruction. -/
def cWord (op count len : Nat) : DWord := BitVec.ofNat 64 (op * 2 ^ 56 + count * 2 ^ 32 + len * 2 ^ 16)

/-- The word of a MOVE. -/
def xWord (mdesc srcStep dstStep : Nat) : DWord :=
  BitVec.ofNat 64 (0x80 * 2 ^ 56 + mdesc * 2 ^ 36 + srcStep * 2 ^ 20 + dstStep * 2 ^ 4)

/-! ### Tensor descriptors -/

/-- A tensor descriptor (Table 4-10). -/
structure TDesc where
  base : Nat
  fmt : Nat
  /-- The SHIFT field, six bits as stored. -/
  shiftBits : Nat
  scale : Nat
  own : Nat
  lvl : Nat
  rsvd : Nat
  cols : Nat
  rows : Nat
  stride : Nat
  step : Nat
  deriving DecidableEq, Repr

/-- Read a descriptor slot as a tensor descriptor. -/
def tDesc (d : Slot) : TDesc :=
  let n := d.toNat
  { base := bitsOf n 0 44, fmt := bitsOf n 44 4, shiftBits := bitsOf n 48 6, scale := bitsOf n 54 2, own := bitsOf n 56 3,
    lvl := bitsOf n 59 3, rsvd := bitsOf n 62 2, cols := bitsOf n 64 16 + 1, rows := bitsOf n 80 16 + 1,
    stride := bitsOf n 96 16, step := bitsOf n 112 16 }

/-- SHIFT as a signed exponent. -/
def TDesc.shift (d : TDesc) : Int := signedOf 6 d.shiftBits

/-- REGION of an OWN 2 base (R261). -/
def TDesc.region (d : TDesc) : Nat := bitsOf d.base 38 6
/-- PART of an OWN 2 base. -/
def TDesc.part (d : TDesc) : Nat := bitsOf d.base 36 2
/-- OFFSET of an OWN 2 base. -/
def TDesc.offset (d : TDesc) : Nat := bitsOf d.base 0 36

/-- Bits of an element: binary32 and INT32 are 32 bits wide. -/
def TDesc.elemBits (d : TDesc) : Nat := if d.fmt = 0 then 4 else if d.fmt = 1 then 8 else if d.fmt = 2 then 16 else 32

/-- Bytes of a tensor's shift trailer, padding included (R140). -/
def TDesc.trailer (d : TDesc) : Nat :=
  if d.scale = 1 then 64 * ceilDiv d.cols 64
  else if d.scale = 2 then 64 * ceilDiv (d.rows * (d.cols / 32)) 64
  else 0

/-- Bytes from a tensor's first to its last, shift trailer included. -/
def TDesc.span (d : TDesc) : Nat := d.rows * d.stride * 64 + d.trailer

/-- A slot of a plan's descriptor table; an index past the table reads all zeros. -/
def Plan.slot (p : Plan) (i : Nat) : Slot := (p.descs[i]?).getD 0

/-- The tensor descriptor at a slot. -/
def Plan.tensor (p : Plan) (i : Nat) : TDesc := tDesc (p.slot i)

/-! ### Move descriptors -/

/-- The 256 bits of a move descriptor from its two slots. -/
def moveBits (lo hi : Slot) : Nat := lo.toNat + 2 ^ 128 * hi.toNat

/-- Read two slots as a move descriptor (Table 3-7). -/
def moveDesc (n : Nat) : MoveDesc :=
  { src := bitsOf n 0 44, dst := bitsOf n 64 44, len := bitsOf n 128 21, kind := bitsOf n 152 3, knot := bitsOf n 160 6,
    knotEn := bitOf n 166, owner := bitsOf n 168 7, hq := bitsOf n 192 4, tag := bitsOf n 196 16 }

/-- A move descriptor has a reserved encoding or a reserved bit that is not 0, or a field set where it does not apply
(R93).
(DEDUCED, unsafe: notes/assumptions/69.md) -/
def moveBadEncoding (n : Nat) : Bool :=
  bitsOf n 44 20 != 0 || bitsOf n 108 20 != 0 || bitsOf n 149 3 != 0 || bitsOf n 155 5 != 0 || bitsOf n 167 1 != 0 ||
  bitsOf n 175 17 != 0 || bitsOf n 212 44 != 0 || decide (bitsOf n 152 3 > 2) || decide (bitsOf n 128 21 > 0x100000) ||
  (decide (66 ≤ bitsOf n 168 7) && decide (bitsOf n 168 7 ≤ 126)) ||
  (bitsOf n 168 7 != 64 && bitsOf n 160 7 != 0) || (bitsOf n 168 7 != 65 && bitsOf n 192 20 != 0)

/-! ### Words of a plan and what they name -/

/-- The stream of an engine. -/
def Plan.stream (p : Plan) (e : Nat) : List DWord := keyGetD p.streams e []

/-- The words of a variant. -/
def Plan.words (p : Plan) (v : VariantRec) : List DWord := ((p.stream v.engine).drop v.start).take v.length

/-- Every variant with its words. -/
def Plan.allWords (p : Plan) : List (VariantRec × List DWord) := p.variants.map fun v => (v, p.words v)

/-- A word with the loops that enclose it: the counts, innermost first. -/
structure WordAt where
  word : DWord
  index : Nat
  counts : List Nat
  deriving DecidableEq, Repr

/-- Pair each word with the counts of its enclosing loops; a frame is the words its body still holds and its count. -/
def withLoops : List DWord → Nat → List (Nat × Nat) → List WordAt
  | [], _, _ => []
  | w :: ws, i, frames =>
    let open_ := frames.filter fun f => f.1 > 0
    let here : WordAt := ⟨w, i, open_.map Prod.snd⟩
    let down := open_.map fun f => (f.1 - 1, f.2)
    let next := if wOp w = 1 then (wStep w, wValue w) :: down else down
    here :: withLoops ws (i + 1) next

/-- How often a word runs in one slice. -/
def WordAt.times (a : WordAt) : Nat := a.counts.foldl (· * ·) 1

/-- The count of the innermost loop, or 1. -/
def WordAt.inner (a : WordAt) : Nat := a.counts.headD 1

/-- Sum of `f i` for `i` below `n`. -/
def sumTo (n : Nat) (f : Nat → Nat) : Nat := (List.range n).foldl (fun t i => t + f i) 0

/-- The amount one slice of a variant posts to a knot, by POST and by the commits of its moves (R126).
(DEDUCED, unsafe: notes/assumptions/55.md) -/
def Plan.postTotal (p : Plan) (v : VariantRec) (k : Nat) : Nat :=
  (withLoops ((p.words v).takeWhile fun w => wOp w != 0) 0 []).foldl (fun t a =>
    if wOp a.word = 0x10 && wKnot a.word = k then
      t + (a.times / a.inner) * (a.inner * wValue a.word + wStep a.word * (a.inner * (a.inner - 1) / 2))
    else if wOp a.word = 0x80 then
      let m := moveDesc (moveBits (p.slot (wDst a.word)) (p.slot (wDst a.word + 1)))
      if m.knotEn && m.knot = k then t + a.times else t
    else t) 0

/-! ### Region geometry (Table 9-1) -/

/-- The descriptor slots that a format T word names, with their roles: 0 DST, 1 SRCA, 2 SRCB, 3 SRCC, 4 SRCB + 1,
5 SRCA + 1, 6 SRCB + 2 (the operand lists of chapter 5). -/
def wordSlots (w : DWord) : List (Nat × Nat) :=
  let m := wMod w
  let named := [(0, wDst w), (1, wA w), (2, wB w), (3, wC w)].filter fun sl => sl.2 != 0xFFF
  let side := bitOf m 1 || bitOf m 2
  named ++
  match wOp w with
  | 0x40 =>
    [(4, wB w + 1)] ++ (if side then [(5, wA w + 1)] else []) ++ (if bitsOf m 4 2 = 2 then [(6, wB w + 2)] else [])
  | 0x41 => [(4, wB w + 1)] ++ (if bitOf m 0 || bitOf m 1 then [(5, wA w + 1), (6, wB w + 2)] else [])
  | 0x42 => if bitOf m 2 then [(5, wA w + 1)] else []
  | 0x43 =>
    [(4, wB w + 1)] ++ (if side then [(5, wA w + 1)] else []) ++ (if bitsOf m 4 2 = 2 then [(6, wB w + 2)] else [])
  | 0x72 => [(5, wA w + 1)]
  | _ => []

/-- A word of a plan is a format T instruction. -/
def isTensorOp (w : DWord) : Bool := decide (0x20 ≤ wOp w) && decide (wOp w < 0x80)

/-- How the words of a plan use one slot of a region. -/
structure RegionUse where
  engine : Nat
  variant : Nat
  op : Nat
  mod : Nat
  desc : TDesc
  /-- The role of `wordSlots`. -/
  role : Nat
  times : Nat
  /-- Tokens appended per row and execution, for KVAPP. -/
  append : Nat
  /-- SHIFT of SRCA. -/
  aShift : Int
  deriving DecidableEq, Repr

/-- The uses of OWN 2 slots that a word makes. -/
def wordUses (p : Plan) (v : VariantRec) (a : WordAt) : List RegionUse :=
  let w := a.word
  if isTensorOp w then
    let append := if wOp w = 0x72 then (p.tensor (wA w)).rows / p.hdr.rows else 0
    ((wordSlots w).filter fun sl => (p.tensor sl.2).own = 2).map fun sl =>
      { engine := v.engine, variant := v.variant, op := wOp w, mod := wMod w, desc := p.tensor sl.2, role := sl.1,
        times := a.times, append := append, aShift := (p.tensor (wA w)).shift }
  else []

/-- The range from the first to the last byte that a use of a descriptor can reach, over every iteration (R142). -/
def TDesc.reach (d : TDesc) (counts : List Nat) : Nat × Nat :=
  let n := if d.lvl = 0 then 1 else counts.getD (d.lvl - 1) 1
  (d.base, (n - 1) * d.step * 64 + d.span)

/-- Every use of a descriptor of OWN 0, 1, 3 or 4 by a plan, with the range it can reach. -/
def Plan.ranges (p : Plan) : List (TDesc × Nat × Nat) :=
  p.allWords.flatMap fun vw => (withLoops vw.2 0 []).flatMap fun a =>
    if isTensorOp a.word then
      ((wordSlots a.word).filter fun sl => (p.tensor sl.2).own != 2).map fun sl =>
        (p.tensor sl.2, (p.tensor sl.2).reach a.counts)
    else []

/-- The T0 ranges that keep a 64 KiB block out of the T0 pool (R279): descriptors of OWN 0, 1 and 3, stage buffers and the
row map. -/
def Plan.t0Ranges (p : Plan) : List (Nat × Nat) :=
  ((p.ranges.filter fun r => r.1.own != 4 && decide (r.1.base < 0x300_0000)).map Prod.snd) ++
  (p.stages.map fun b => (b.base, b.size)) ++ [(p.hdr.rowMap, 128)]

/-- Every use of a region by a plan. -/
def Plan.uses (p : Plan) : List RegionUse :=
  p.allWords.flatMap fun vw => (withLoops vw.2 0 []).flatMap (wordUses p vw.1)

/-- The regions a plan names. -/
def Plan.regions (p : Plan) : List Nat := p.uses.foldl (fun l u => (keyPut (l.map fun k => (k, ())) u.desc.region ()).map Prod.fst) []

/-- The geometry of a region (Table 9-1). -/
structure Geom where
  paged : Bool
  d : Nat
  vBits : Nat
  summarised : Bool
  slots : Nat
  sumExp : Int
  lkMax : Nat
  aMax : Nat
  keyPath : Bool
  valPath : Bool
  flatSize : Nat
  /-- A flat region named as SRCB of a SAMPLE (R313). -/
  sampling : Bool
  deriving DecidableEq, Repr

/-- The append bound of a region over one variant on one path: KVAPP's MOD bit 3 is the path. -/
def appendSum (us : List RegionUse) (val : Bool) (e v : Nat) : Nat :=
  us.foldl (fun t u => if u.op = 0x72 && u.role = 0 && bitOf u.mod 3 = val && u.engine = e && u.variant = v
    then t + u.append * u.times else t) 0

/-- The sum of appends per row that any set of variants, one per engine, could make: the largest over the plan's
variants of the sum over that variant (Table 9-1). -/
def appendBound (us : List RegionUse) : Nat :=
  us.foldl (fun m u => max m (max (appendSum us false u.engine u.variant) (appendSum us true u.engine u.variant))) 0

/-- The geometry of a region of a plan. -/
def Plan.geom (p : Plan) (r : Nat) : Geom :=
  let us := p.uses.filter fun u => u.desc.region = r
  let paged := us.any fun u => u.desc.part < 3
  let firstWith (f : RegionUse → Bool) (g : RegionUse → Nat) (dflt : Nat) : Nat :=
    match us.find? f with
    | some u => g u
    | none => dflt
  { paged := paged
    d := firstWith (fun u => u.desc.part < 3) (fun u => u.desc.cols) 0
    vBits := firstWith (fun u => u.desc.part = 1) (fun u => u.desc.elemBits) 8
    summarised := us.any fun u => u.op = 0x42 && u.role = 2
    slots := firstWith (fun u => u.op = 0x42 && u.role = 2) (fun u => u.desc.rows) 0
    sumExp := match us.find? fun u => u.op = 0x42 && u.role = 2 with
      | some u => u.desc.shift
      | none => 0
    lkMax := us.foldl (fun m u => if (u.op = 0x40 || u.op = 0x43) && u.role = 2 then max m u.desc.rows else m) 0
    aMax := appendBound us
    keyPath := us.any fun u => u.op = 0x72 && u.role = 0 && !bitOf u.mod 3
    valPath := us.any fun u => u.op = 0x72 && u.role = 0 && bitOf u.mod 3
    flatSize := us.foldl (fun m u => if u.desc.part = 3 then max m (64 * ceilDiv (u.desc.offset + u.desc.span) 64) else m) 0
    sampling := us.any fun u => u.op = 0x63 && u.role = 2 }

/-- `N_pt`, the slots of a region's page table (R271), for a page size of `ps` tokens. -/
def Geom.slotsOf (g : Geom) (ps : Nat) : Nat :=
  if g.summarised then g.slots else ceilDiv g.lkMax ps + ceilDiv g.aMax ps + 1

/-- The areas of a page (Table 9-2): where values, value shifts and meta start, and the size. -/
def Geom.pageAreas (g : Geom) (ps : Nat) : Nat × Nat × Nat × Nat :=
  let v := 64 * ceilDiv (ps * g.d) 64
  let sh := v + 64 * ceilDiv (ps * g.d * g.vBits / 8) 64
  let meta_ := sh + 64 * ceilDiv (max 1 (ps / 32) * g.d) 64
  (v, sh, meta_, meta_ + 64 * ceilDiv (4 * ps) 64)

/-- Bytes of a page. -/
def Geom.pageSize (g : Geom) (ps : Nat) : Nat := (g.pageAreas ps).2.2.2

/-- Bytes of a region head with its page table (Table 9-3). -/
def Geom.headSize (g : Geom) (ps : Nat) : Nat :=
  64 * ceilDiv (64 + 64 * ceilDiv g.d 64 + (if g.summarised then 2 * g.d else 0) + 128 * g.d + 8 * g.slotsOf ps) 64

/-- Bytes of a stream context: its header and the head of every paged region (R269). -/
def Plan.contextSize (p : Plan) (ps : Nat) : Nat :=
  p.regions.foldl (fun t r => let g := p.geom r; if g.paged then t + g.headSize ps else t) 256

/-! ### Pinned banks (R169) -/

/-- HBANK of a GATE: MOD[5:4] × 2 + MOD[3]. -/
def gateBank (m : Nat) : Nat := bitsOf m 4 2 * 2 + bitsOf m 3 1

/-- The pinned banks of a Sheaf with their H16: what the GATEs of its variants name. -/
def Plan.pinned (p : Plan) (n : Nat) : List (Nat × Bool) :=
  (p.variants.filter fun v => v.engine = n).foldl (fun l v =>
    (p.words v).foldl (fun l w => if wOp w = 0x22 then keyPut l (gateBank (wMod w)) (bitOf (wMod w) 6) else l) l) []

/-- The pinned slots of a plan, in the order of a state record (R233): (Sheaf, bank mod 4, H16). -/
def Plan.pinnedSlots (p : Plan) : List (Nat × Nat × Bool) :=
  (List.range 16).flatMap fun n => ((p.pinned n).filter fun b => b.1 < 4).map fun b => (n, b.1, b.2)

/-- Bytes of a state record with `e` entries (R232). -/
def recordSize (e : Nat) : Nat := 64 + ceilDiv (4 * e) 64 * 64 + 64 * e

end Sys2Proof.Machine
end

