-- ==== Sys2Proof/Machine/Memory.lean ====
section
/-!
DEFINITION. Machine/Memory.lean: the device address space and its tiers (Tables 3-1 and 3-2), the Granary with its ECC and
poison (R106, R107), on-package memory with its repeats (R112), the host window (R103), and what an unreadable read ends
(R113, Table 3-27).
-/
namespace Sys2Proof.Machine

/-! ### Addresses -/

/-- The rows of Table 3-1, with the address within the row. -/
inductive Place where
  | t0 (a : Nat)
  | regs (off : Nat)
  | t1 (a : Nat)
  | t2 (entry off : Nat)
  | peer (chip off : Nat)
  | unmapped
  deriving DecidableEq, Repr

/-- The last T1 address of an ordering variant (Table 0-1): 1 is −08, 2 is −16. -/
def lastT1 (variant : Nat) : Nat := if variant = 1 then 0x101_FFFF_FFFF else 0x103_FFFF_FFFF

/-- This part's ordering variant. -/
def State.variant (s : State) : Nat := s.fld Reg.GLOBAL_DIE 24 2

/-- This chip's number (R393). -/
def State.chip (s : State) : Nat := s.fld Reg.GDN_STOOK 0 2

/-- The row of Table 3-1 that an address lies in (R81, R83). -/
def State.place (s : State) (a : Nat) : Place :=
  if a < 0x300_0000 then .t0 a
  else if 0x1000_0000 ≤ a && a < 0x1100_0000 then .regs (a - 0x1000_0000)
  else if 0x100_0000_0000 ≤ a && a ≤ lastT1 s.variant then .t1 (a - 0x100_0000_0000)
  else if 0x800_0000_0000 ≤ a && a < 0x810_0000_0000 then
    .t2 ((a - 0x800_0000_0000) / 0x400_0000) ((a - 0x800_0000_0000) % 0x400_0000)
  else if 0xC00_0000_0000 ≤ a && a < 0xC40_0000_0000 then
    .peer ((a - 0xC00_0000_0000) / 0x10_0000_0000) ((a - 0xC00_0000_0000) % 0x10_0000_0000)
  else .unmapped

/-- The port that leads to a chip (Table 13-1). -/
def State.portTo (s : State) (c : Nat) : Nat := (c + 4 - s.chip - 1) % 4

/-- The chip a port leads to (R393). -/
def State.chipOn (s : State) (k : Nat) : Nat := (s.chip + k + 1) % 4

/-- A peer is a live member (R394). -/
def State.live (s : State) (c : Nat) : Bool := c != s.chip && s.bit Reg.GDN_STOOK (4 + c)

/-- The tiers a move can name (Table 3-5). -/
inductive Tier where
  | t0 | t1 | t2 | peer
  deriving DecidableEq, Repr

/-- A T2 range lies in valid host window entries, writable ones if it is written. -/
def State.hostWindowOk (s : State) (a len : Nat) (write : Bool) : Bool :=
  let first := (a - 0x800_0000_0000) / 0x400_0000
  let last := (a + len - 1 - 0x800_0000_0000) / 0x400_0000
  (List.range (last + 1 - first)).all fun i =>
    s.bit (Reg.HOST_HWT_LO + 8 * (first + i)) 0 && (!write || s.bit (Reg.HOST_HWT_LO + 8 * (first + i)) 1)

/-- The offset of a peer window maps to T0 or T1 of that chip (Table 3-2). -/
def peerOffsetOk (variant o len : Nat) : Bool :=
  decide (o + len ≤ 0x300_0000) ||
  (decide (0x4_0000_0000 ≤ o) && decide (0x100_0000_0000 + (o - 0x4_0000_0000) + len ≤ lastT1 variant + 1))

/-- The tier of a range that lies wholly in one row of Table 3-1, as moves and requests may name it; `none` where the
range crosses rows, is unmapped, or is the chip's own number in the peer range (R81 to R83, R394). -/
def State.rangeTier (s : State) (a len : Nat) : Option Tier :=
  if len = 0 then none
  else match s.place a, s.place (a + len - 1) with
    | .t0 _, .t0 _ => some .t0
    | .t1 _, .t1 _ => some .t1
    | .t2 _ _, .t2 _ _ => some .t2
    | .peer c o, .peer c' _ =>
      if c = c' && s.live c && peerOffsetOk (s.port (s.portTo c)).peerVariant o len then some .peer else none
    | _, _ => none

/-- The host bus address that a T2 address reaches (R103). -/
def State.busAddr (s : State) (a : Nat) : Nat :=
  let e := (a - 0x800_0000_0000) / 0x400_0000
  s.fld (Reg.HOST_HWT_LO + 8 * e) 26 6 * 2 ^ 26 + 2 ^ 32 * (s.reg (Reg.HOST_HWT_HI + 8 * e)).toNat +
    (a - 0x800_0000_0000) % 0x400_0000

/-! ### Bytes -/

/-- A byte at a device physical address, as stored.
(DESIGN CHOICE, unsafe: notes/assumptions/8.md) -/
def State.byteAt (s : State) (a : Nat) : Byte :=
  match s.place a with
  | .t0 o => cellGet s.t0 o
  | .t1 o => cellGet s.t1 o
  | .t2 _ _ => cellGet s.host (s.busAddr a)
  | _ => 0

/-- `n` bytes from a device physical address. -/
def State.bytesAt (s : State) (a n : Nat) : List Byte := (List.range n).map fun i => s.byteAt (a + i)

/-- Bytes written to T0 clear the poison and the errors of every 64-bit word they cover whole (R107). -/
def State.t0Store (s : State) (a : Nat) (bs : List Byte) : State :=
  let lo := ceilDiv a 8
  let hi := (a + bs.length) / 8
  let keep := fun w => !(lo ≤ w && w < hi)
  { s with
    t0 := cellSetMany s.t0 a bs
    t0Poison := if s.t0Poison.isEmpty then [] else s.t0Poison.filter keep
    t0Flips := if s.t0Flips.isEmpty then [] else s.t0Flips.filter fun f => keep f.1 }

/-- A word of a T1 burst is written: a burst that the memory flags is repeated once (R112). Answers whether it failed.
(DESIGN CHOICE, unsafe: notes/assumptions/8.md) -/
def State.t1Access (s : State) (burst : Nat) (write : Bool) : Bool × State :=
  match keyGet (if write then s.t1Write else s.t1Read) burst with
  | none => (false, s)
  | some .once =>
    let s := (s.addSat Reg.MEMCH_ERRCNT 0 16 1).setBit Reg.MEMCH_STAT 10 true
    (false, if write then { s with t1Write := keyDel s.t1Write burst } else { s with t1Read := keyDel s.t1Read burst })
  | some .lasting =>
    let s := ((s.addSat Reg.MEMCH_ERRCNT 0 16 1).addSat Reg.MEMCH_ERRCNT 16 16 1).setBit Reg.MEMCH_STAT (if write then 9 else 8) true
    let a := 0x100_0000_0000 + 256 * burst
    (true, (s.setReg Reg.MEMCH_ERRADDR_LO (BitVec.ofNat 32 a)).setReg Reg.MEMCH_ERRADDR_HI (BitVec.ofNat 32 (a / 2 ^ 32)))

/-- Access every T1 burst of a range; answers the first burst that failed. -/
def State.t1Range (s : State) (a len : Nat) (write : Bool) : Option Nat × State :=
  let faults := if write then s.t1Write else s.t1Read
  let o := a - 0x100_0000_0000
  let hit := faults.filter fun f => o / 256 ≤ f.1 && f.1 ≤ (o + len - 1) / 256
  hit.foldl (fun (r : Option Nat × State) f =>
    let (bad, s) := r.2.t1Access f.1 write
    (match r.1 with
      | some b => some b
      | none => if bad then some (0x100_0000_0000 + 256 * f.1) else none, s)) (none, s)

/-- Queue a corrected word for write-back, or leave it to the scrub when 16 wait (R107). -/
def State.queueWriteBack (s : State) (w : Nat) : State :=
  if s.writeBack.contains w then s
  else if s.writeBack.length < 16 then { s with writeBack := s.writeBack ++ [w] }
  else s.setBit Reg.GRN_ECCSTAT 3 true

/-- A read meets the error that a T0 word holds (R107): a single-bit error is corrected and counted, a double-bit error is
counted, latched and poisons the word. Answers whether the word cannot be read.
(DESIGN CHOICE, unsafe: notes/assumptions/8.md; DEDUCED, unsafe: notes/assumptions/37.md) -/
def State.t0Sense (s : State) (w : Nat) (f : BitFlips) : Bool × State :=
  match f with
  | .single => (false, ((s.addSat Reg.GRN_ECCCNT 0 16 1).setBit Reg.GRN_ECCSTAT 0 true).queueWriteBack w)
  | .double =>
    let s := ((s.addSat Reg.GRN_ECCCNT 16 16 1).setBit Reg.GRN_ECCSTAT 1 true).setReg Reg.GRN_ECCADDR (BitVec.ofNat 32 (8 * w))
    (true, { s with t0Poison := addMember s.t0Poison w, t0Flips := keyDel s.t0Flips w })

/-- Read every word of a T0 range: errors are met, and poisoned words found. Answers the first word that cannot be read,
as a T0 address. -/
def State.t0Range (s : State) (a len : Nat) : Option Nat × State :=
  if s.t0Poison.isEmpty && s.t0Flips.isEmpty then (none, s)
  else
    let inside := fun w => a / 8 ≤ w && w ≤ (a + len - 1) / 8
    let old := s.t0Poison.find? inside
    (s.t0Flips.filter fun f => inside f.1).foldl (fun (r : Option Nat × State) f =>
      let (bad, s) := r.2.t0Sense f.1 f.2
      (match r.1 with
        | some b => some b
        | none => if bad then some (8 * f.1) else none, s)) (old.map (8 * ·), s)

/-- A read that no engine makes meets the double-bit errors of a T0 range for the first time: each is a tier error (R346).
(DEDUCED, unsafe: notes/assumptions/54.md) -/
def State.logFlips (s : State) (a len : Nat) : State :=
  (s.t0Flips.filter fun f => f.2 = .double && decide (a / 8 ≤ f.1) && decide (f.1 ≤ (a + len - 1) / 8)).foldl
    (fun (s : State) f => s.logError 2 1 { addr := 8 * f.1 }) s

/-- The first address of a T2 range that the host answers with an error (R300, R301), window entry by window entry.
(DESIGN CHOICE, unsafe: notes/assumptions/8.md; DEDUCED, unsafe: notes/assumptions/54.md) -/
def State.hostBad (s : State) (a len : Nat) : Option Nat :=
  if s.hostErrs.isEmpty then none
  else
    let first := (a - 0x800_0000_0000) / 0x400_0000
    let last := (a + len - 1 - 0x800_0000_0000) / 0x400_0000
    (List.range (last + 1 - first)).findSome? fun i =>
      let lo := max a (0x800_0000_0000 + (first + i) * 0x400_0000)
      let hi := min (a + len) (0x800_0000_0000 + (first + i + 1) * 0x400_0000)
      let b := s.busAddr lo
      s.hostErrs.findSome? fun r => if r.1 < b + (hi - lo) && b < r.2 then some (lo + (r.1 - b)) else none

/-- Read a range of T0, T1 or T2 as a slice or a Cart does (R113): answers the address that cannot be read. -/
def State.senseRange (s : State) (a len : Nat) : Option Nat × State :=
  if len = 0 then (none, s)
  else match s.place a with
    | .t0 o =>
      let (r, s) := s.t0Range o len
      (r, if r.isSome then s.setBit Reg.GRN_ECCSTAT 2 true else s)
    | .t1 _ => s.t1Range a len false
    | .t2 _ _ => (s.hostBad a len, s)
    | _ => (none, s)

/-- A range to be written by CC1: the first address that refuses the write (R112, R300). -/
def State.senseWrite (s : State) (a len : Nat) : Option Nat × State :=
  match s.place a with
  | .t1 _ => s.t1Range a len true
  | .t2 _ _ => (s.hostBad a len, s)
  | _ => (none, s)

/-! ### Who owns an address -/

/-- An address lies in a range. -/
def inRange (a base len : Nat) : Bool := decide (base ≤ a) && decide (a < base + len)

/-- The stream one of whose data lies at an address: its context, a page, a flat region, a summary table or its state
record (R113). -/
def State.ownerAt (s : State) (p : Plan) (a : Nat) : Option Nat :=
  (s.streams.find? fun e =>
    let t := e.2
    let ps := 16 * 2 ^ t.psz
    inRange a t.home (p.contextSize ps) ||
    t.flats.any (fun f => inRange a f.2.home f.2.size) ||
    t.paged.any (fun r =>
      let g := p.geom r.1
      r.2.pages.any (fun pg => inRange a pg.addr (g.pageSize ps)) ||
      match r.2.sumHome with
        | some h => inRange a h (g.slots * g.d)
        | none => false) ||
    match t.record with
      | some h => inRange a h (recordSize p.pinnedSlots.length)
      | none => false).map Prod.fst

/-- The stream-abort path becomes due for a stream (R345); the first cause stays.
(DEDUCED, unsafe: notes/assumptions/10.md) -/
def State.endStream (s : State) (sc end_ cause : Nat) : State :=
  s.updStream sc fun t => if t.ending.isSome then t else { t with ending := some (end_, cause) }

/-- The rows admitted in the tick in progress, as (row, SC). -/
def State.admitted (s : State) : List (Nat × Nat) := s.rows

/-- A cause of a hole arises for a stream in a tick (R340, R342): an open hole keeps its first cause. -/
def State.openHole (s : State) (sc cause first lanes : Nat) : State :=
  s.updStream sc fun t =>
    let lanes := if lanes = 3 && t.outBind.isSome then 7 else lanes
    match t.hole with
    | some h => { t with hole := some { h with multi := true, lanes := h.lanes ||| lanes } }
    | none => { t with hole := some ⟨first, cause, lanes, false⟩ }

/-- Every stream admitted in the tick in progress receives a hole (R62). -/
def State.holeAll (s : State) (cause : Nat) : State :=
  s.rows.foldl (fun s r => s.openHole r.2 cause s.tickNo 3) s

/-- An engine reports a read it could not make (R113, R344): logged as a tier error, and answered by the ownership class of
the descriptor. -/
def State.reportUnread (s : State) (e own : Nat) (row : Option Nat) (a : Nat) : State :=
  let sub := if a < 0x300_0000 then 1 else 2
  let sc := row.bind fun r => keyGet s.rows r
  let s := s.logError 2 sub { source := e, addr := a, stream := sc.getD 0xFF }
  match own, row, sc with
  | 1, some r, some c => { s.openHole c 4 s.tickNo 3 with unreadRows := addMember s.unreadRows r }
  | 1, some r, none => { s with unreadRows := addMember s.unreadRows r }
  | 2, some r, some c => { (s.openHole c 4 s.tickNo 3).endStream c 3 4 with unreadRows := addMember s.unreadRows r }
  | 2, _, _ => s
  | _, _, _ =>
    let s := { s.holeAll 4 with unreadAll := true }
    if own = 4 then { s with deactivate := true } else s

end Sys2Proof.Machine
end

