-- ==== Sys2Proof/Machine/Link.lean ====
section
/-!
DEFINITION. Machine/Link.lean: sending over a Gydan port: messages as runs of flits, arbitration by class, credits and the replay
buffer (R399, R403, R404, Table 13-4).
-/
namespace Sys2Proof.Machine

/-- The offset of a Gydan port's register, from that of GDN0. -/
def gdnReg (r k : Nat) : Nat := r + 0x2000 * k

/-- STATE of a port (Table 13-5). -/
def State.linkState (s : State) (k : Nat) : Nat := s.fld (gdnReg Reg.GDN_STAT k) 0 3

/-- The port is ACTIVE. -/
def State.linkUp (s : State) (k : Nat) : Bool := s.linkState k = 4

/-- A flit of a class may be sent: a credit is held and the replay buffer has room. -/
def Port.mayFlit (p : Port) (c : Nat) : Bool := decide (0 < p.credits.getD c 0) && decide (p.replay.length < 512)

/-- The class whose message is sent next (R404): the highest waiting class that holds credit, move and state transfer in
turn. -/
def Port.pickClass (p : Port) : Option Nat :=
  ([3, 2, 4] ++ (if p.lastMove = 1 then [0, 1] else [1, 0])).find? fun c => (p.txQueue.any fun m => m.1 = c) && p.mayFlit c

/-- Send flits while credit and the replay buffer last: how many were sent, and the port after. -/
def Port.pump : Nat → Port → Nat × Port
  | 0, p => (0, p)
  | fuel + 1, p =>
    match p.sending with
    | some (c, n) =>
      if n = 0 then Port.pump fuel { p with sending := none, lastMove := if c < 2 then c else p.lastMove }
      else if p.mayFlit c then
        let p := { p with
          sending := some (c, n - 1), txNext := (p.txNext + 1) % 4096, replay := p.replay ++ [⟨p.txNext, c, 0⟩],
          credits := p.credits.set c (p.credits.getD c 0 - 1) }
        let r := Port.pump fuel p
        (r.1 + 1, r.2)
      else (0, p)
    | none =>
      match p.pickClass with
      | none => (0, p)
      | some c =>
        match p.txQueue.find? fun m => m.1 = c with
        | some m => Port.pump fuel { p with sending := some m, txQueue := p.txQueue.erase m }
        | none => (0, p)

/-- A port sends what it may; `GDN_TXFLITS` counts the message flits. -/
def State.pumpPort (s : State) (k : Nat) : State :=
  if !s.linkUp k then s
  else
    let r := (s.port k).pump (3 * ((s.port k).txQueue.map Prod.snd).sum + 600)
    (s.updPort k fun _ => r.2).add64 (gdnReg Reg.GDN_TXFLITS_LO k) r.1

/-- Send a message to a chip: its class, its opcode, its payload as numbers, and the bytes that its body takes. -/
def State.peerMsg (s : State) (chip cls opc : Nat) (payload : List Nat) (bytes : Nat) : State :=
  let k := s.portTo chip
  let s := s.emit (.gydan k opc chip payload)
  (s.updPort k fun p => { p with txQueue := p.txQueue ++ [(cls, max 1 (ceilDiv bytes 256))] }).pumpPort k

/-- The chips that are live members (R394), in ascending order. -/
def State.liveChips (s : State) : List Nat := (List.range 4).filter s.live

end Sys2Proof.Machine
end

