-- ==== Sys2Proof/Machine/Operands.lean ====
section
/-!
DEFINITION. Machine/Operands.lean: how an instruction's operands are addressed, read and written: the rows of a tensor by
its ownership class (R139, R141, R154, R156), shift trailers (R140, R191), lookup tables (R158), side tensors (R159) and
rotary tables (R184).
-/
namespace Sys2Proof.Machine

/-- The plan an engine runs; an engine runs only while one is active. -/
def State.plan (s : State) : Plan :=
  s.active.getD
    { hdr := ⟨0, 10, 80, 5, 1, 0, 0, 0, 0, 0, 0, 0, 0, 0⟩, streams := [], descs := [], variants := [], knotStart := [],
      posts := [], stages := [], contracts := [] }

/-- ROWS of the active plan. -/
def State.planRows (s : State) : Nat := s.plan.hdr.rows

/-- The iteration index at a loop level, 1 the innermost (R136). -/
def loopIndex (loops : List LoopFrame) (lvl : Nat) : Nat :=
  if lvl = 0 then 0 else
  match loops[lvl - 1]? with
  | some f => f.iter
  | none => 0

/-- The address an instruction uses: BASE + i × STEP × 64 (R139). -/
def descAddr (d : TDesc) (loops : List LoopFrame) : Nat := d.base + loopIndex loops d.lvl * d.step * 64

/-- Where one row of an operand lies. -/
inductive RowRef where
  /-- In T0, at an address. -/
  | mem (a : Nat)
  /-- A row of the summary staging of a region head (R263). -/
  | sumStage (sc region j : Nat)
  /-- The first 64 bytes of a region head (R263). -/
  | head (sc region : Nat)
  /-- The part of an empty batch row: not accessed (R156). -/
  | empty
  /-- A part that is not homed in T0: not accessed, and reported (R154). -/
  | away
  deriving DecidableEq, Repr

/-- A row of an operand and the batch row it belongs to. -/
structure OpRow where
  ref : RowRef
  batch : Option Nat
  deriving DecidableEq, Repr

/-- The region and stream of one batch row, where the row is occupied and its stream holds the region. -/
def State.rowRegion (s : State) (batch region : Nat) : Option (Nat × Stream × PagedRegion) :=
  match keyGet s.rows batch with
  | none => none
  | some sc =>
    match s.stream sc with
    | none => none
    | some t => (keyGet t.paged region).map fun r => (sc, t, r)

/-- Row `j` of a stream's part of an OWN 2 operand. -/
def State.partRow (s : State) (d : TDesc) (loops : List LoopFrame) (batch j : Nat) : RowRef :=
  match keyGet s.rows batch with
  | none => .empty
  | some sc =>
    match s.stream sc with
    | none => .empty
    | some t =>
      match keyGet t.paged d.region with
      | some _ =>
        if 0x300_0000 ≤ t.home then .away
        else if d.part = 2 then .sumStage sc d.region j else .head sc d.region
      | none =>
        match keyGet t.flats d.region with
        | some f =>
          if f.home < 0x300_0000 then
            .mem (f.home + d.offset + loopIndex loops d.lvl * d.step * 64 + j * d.stride * 64)
          else .away
        | none => .away

/-- Rows of an operand, its parts' rows taken together for OWN 2 (R141). -/
def State.opHeight (s : State) (d : TDesc) : Nat := if d.own = 2 then s.planRows * d.rows else d.rows

/-- The batch row of row `k` of an operand, where the operand has one. -/
def State.batchOf (s : State) (d : TDesc) (k : Nat) : Option Nat :=
  if d.own = 2 then some (k / d.rows)
  else if d.own = 1 then some (k / max 1 (d.rows / s.planRows))
  else none

/-- Row `k` of an operand.
(DEDUCED, unsafe: notes/assumptions/37.md) -/
def State.opRow (s : State) (d : TDesc) (loops : List LoopFrame) (k : Nat) : OpRow :=
  if d.own = 2 then ⟨s.partRow d loops (k / d.rows) (k % d.rows), some (k / d.rows)⟩
  else ⟨.mem (descAddr d loops + k * d.stride * 64), s.batchOf d k⟩

/-! ### Elements -/

/-- An element of a row that starts at a T0 address (R139). -/
def elemAt (m : Cells 8) (a fmt c : Nat) : Int :=
  match fmt with
  | 0 => signedOf 4 (bitsOf (cellGet m (a + c / 2)).toNat (4 * (c % 2)) 4)
  | 1 => signedOf 8 (cellGet m (a + c)).toNat
  | 2 => signedOf 16 (leNat (cellRead m (a + 2 * c) 2))
  | _ => signedOf 32 (leNat (cellRead m (a + 4 * c) 4))

/-- The bytes of a row of elements, its last line filled with zeros (R139). -/
def rowBytes (fmt : Nat) (xs : List Int) : List Byte :=
  let bs := match fmt with
    | 0 => (List.range (ceilDiv xs.length 2)).map fun i =>
        BitVec.ofNat 8 (unsignedOf 4 (xs.getD (2 * i) 0) + 16 * unsignedOf 4 (xs.getD (2 * i + 1) 0))
    | 1 => xs.map fun x => BitVec.ofNat 8 (unsignedOf 8 x)
    | 2 => xs.flatMap fun x => leBytes 2 (unsignedOf 16 x)
    | _ => xs.flatMap fun x => leBytes 4 (unsignedOf 32 x)
  bs ++ List.replicate (64 * ceilDiv bs.length 64 - bs.length) 0

/-- The 16 words of the first 64 bytes of a region head (Table 9-3). -/
def headWords (r : PagedRegion) (psz : Nat) : List Int :=
  [(r.length : Int), (r.nextSeq : Int), (r.sumSeq : Int), (psz : Int)] ++ List.replicate 12 0

/-- The elements of one row of an operand, `c` of them. Parts that are not accessed read zeros (R154).
(DEDUCED, unsafe: notes/assumptions/37.md) -/
def State.readRow (s : State) (d : TDesc) (r : RowRef) (c : Nat) : List Int :=
  match r with
  | .mem a => (List.range c).map fun i => elemAt s.t0 a d.fmt i
  | .sumStage sc region j =>
    match s.stream sc with
    | some t => match keyGet t.paged region with
      | some g => (List.range c).map fun i => elemAt g.sumStage (j * d.cols) 1 i
      | none => List.replicate c 0
    | none => List.replicate c 0
  | .head sc region =>
    match s.stream sc with
    | some t => match keyGet t.paged region with
      | some g => (headWords g t.psz).map (fun x => signedOf 32 (unsignedOf 32 x)) |>.take c
      | none => List.replicate c 0
    | none => List.replicate c 0
  | .empty | .away => List.replicate c 0

/-- A part that an engine cannot reach, or an entry that names no usable home (R154, R278): logged as a tier error of
SUB 7, its row reported, and its owner stream ended at the next fallow window. -/
def State.reportAway (s : State) (e batch : Nat) : State :=
  match keyGet s.rows batch with
  | some sc =>
    let s := s.logError 2 7 { source := e, stream := sc }
    let s := { s with unreadRows := addMember s.unreadRows batch }
    (s.openHole sc 4 s.tickNo 3).endStream sc 3 4
  | none => s

/-- Meet the errors of every row an instruction reads, and report what cannot be read (R107, R113, R154).
(DEDUCED, unsafe: notes/assumptions/37.md) -/
def State.senseOp (s : State) (e : Nat) (d : TDesc) (loops : List LoopFrame) : State :=
  let bytes := ceilDiv (d.cols * d.elemBits) 8
  if s.t0Poison.isEmpty && s.t0Flips.isEmpty && d.own != 2 then s
  else (List.range (s.opHeight d)).foldl (fun s k =>
    let o := s.opRow d loops k
    match o.ref with
    | .mem a =>
      match s.senseRange a bytes with
      | (some bad, s) => s.reportUnread e d.own o.batch bad
      | (none, s) => s
    | .away => s.reportAway e (o.batch.getD 0)
    | _ => s) s

/-- Write one row of a destination: whole lines, the batch row's zeros where it is empty (R156), nothing where the part is
not accessed.
(DEDUCED, unsafe: notes/assumptions/37.md) -/
def State.writeRow (s : State) (d : TDesc) (o : OpRow) (xs : List Int) : State :=
  match o.ref with
  | .mem a =>
    let live := match d.own, o.batch with
      | 1, some b => (keyGet s.rows b).isSome
      | _, _ => true
    s.t0Store a (rowBytes d.fmt (if live then xs else List.replicate d.cols 0))
  | .sumStage sc region j =>
    s.updStream sc fun t =>
      match keyGet t.paged region with
      | some g =>
        let bytes := xs.map fun x => BitVec.ofNat 8 (unsignedOf 8 x)
        let g := { g with sumStage := cellSetMany g.sumStage (j * d.cols) bytes }
        { t with paged := keyPut t.paged region g }
      | none => t
  | .head _ _ | .empty | .away => s

/-- Write every row of a destination. -/
def State.writeRows (s : State) (d : TDesc) (loops : List LoopFrame) (rows : List (List Int)) : State :=
  (rows.zipIdx).foldl (fun s x => s.writeRow d (s.opRow d loops x.2) x.1) s

/-- Read every row of an operand, having met its errors. -/
def State.readOp (s : State) (e : Nat) (d : TDesc) (loops : List LoopFrame) : List (List Int) × State :=
  let s := s.senseOp e d loops
  ((List.range (s.opHeight d)).map fun k => s.readRow d (s.opRow d loops k).ref d.cols, s)

/-! ### Shift trailers -/

/-- The T0 address of an operand's shift trailer (R140). -/
def trailerAddr (d : TDesc) (loops : List LoopFrame) : Nat := descAddr d loops + d.rows * d.stride * 64

/-- A trailer byte as it is used: limited to −31 to +31, with 1 when the limit applied (R191). -/
def trailerByte (b : Byte) : Int × Nat :=
  let v := signedOf 8 b.toNat
  if v < -31 then (-31, 1) else if 31 < v then (31, 1) else (v, 0)

/-- How many shifts a tensor's trailer holds. -/
def TDesc.shiftCount (d : TDesc) : Nat := if d.scale = 1 then d.cols else if d.scale = 2 then d.rows * (d.cols / 32) else 0

/-- The shifts of a trailer, and how many of its bytes were out of range. -/
def State.readShifts (s : State) (d : TDesc) (loops : List LoopFrame) : List Int × Nat :=
  let bs := (cellRead s.t0 (trailerAddr d loops) d.shiftCount).map trailerByte
  (bs.map Prod.fst, (bs.map Prod.snd).foldl (· + ·) 0)

/-- Meet the errors of a trailer. -/
def State.senseTrailer (s : State) (e : Nat) (d : TDesc) (loops : List LoopFrame) : State :=
  if d.shiftCount = 0 then s
  else match s.senseRange (trailerAddr d loops) d.shiftCount with
    | (some bad, s) => s.reportUnread e d.own (if d.own = 1 then some 0 else none) bad
    | (none, s) => s

/-- The effective exponent of the element at row `r`, column `c` (R191). -/
def effExp (d : TDesc) (shifts : List Int) (r c : Nat) : Int :=
  if d.scale = 1 then shifts.getD c 0
  else if d.scale = 2 then shifts.getD (r * (d.cols / 32) + c / 32) 0
  else d.shift

/-- Write a trailer: one byte per shift, padded with zeros to whole lines (R139, R140). -/
def State.writeShifts (s : State) (d : TDesc) (loops : List LoopFrame) (shifts : List Int) : State :=
  s.t0Store (trailerAddr d loops) (rowBytes 1 shifts)

/-! ### Tables -/

/-- A row of a lookup table as integers (R158). -/
def State.table (s : State) (d : TDesc) (loops : List LoopFrame) (row : Nat) : List Int :=
  (List.range 256).map fun i => elemAt s.t0 (descAddr d loops + row * d.stride * 64) d.fmt i

/-- The index shift of a lookup table, 0 to 15. -/
def TDesc.indexShift (d : TDesc) : Int := (d.shiftBits : Int)

/-- The entry of a signed-index table (R158). -/
def signedEntry (tbl : List Int) (k x : Int) : Int := tbl.getD ((clampInt (-128) 127 (rneShift x k)) + 128).toNat 0

/-- The entry of a distance table (R158). -/
def distEntry (tbl : List Int) (k x : Int) : Int := tbl.getD (min 255 (rneShift x k).toNat) 0

/-- A side-tensor element: its segment and its position (R159). -/
def sideOf (x : Int) : Nat × Nat := (bitsOf (unsignedOf 32 x) 0 8, bitsOf (unsignedOf 32 x) 16 16)

/-- A side tensor as the segment and position of each token row. -/
def State.sides (s : State) (d : TDesc) (loops : List LoopFrame) : List (Nat × Nat) :=
  (List.range d.rows).map fun k => sideOf (elemAt s.t0 (descAddr d loops + k * d.stride * 64) 3 0)

/-! ### Rotation by position (R184) -/

/-- One step of a rotation: row `b` of the rotary table applied to every pair, saturated to INT16. -/
def rotateStep (cosSin : List Int) : Nat → List Int → List Int
  | j, x :: y :: rest =>
    let c := cosSin.getD (2 * j) 0
    let sn := cosSin.getD (2 * j + 1) 0
    clampInt (-32768) 32767 (rneShift (x * c - y * sn) 14) :: clampInt (-32768) 32767 (rneShift (x * sn + y * c) 14) ::
      rotateStep cosSin (j + 1) rest
  | _, xs => xs

/-- Rotate a token by its position: for each set bit, from bit 0 upwards, that row's rotation. -/
def rotateBy (table : List (List Int)) (pos : Nat) (xs : List Int) : List Int :=
  (List.range 16).foldl (fun xs b => if bitOf pos b then rotateStep (table.getD b []) 0 xs else xs) xs

/-- The sixteen rows of a rotary table. -/
def State.rotary (s : State) (d : TDesc) (loops : List LoopFrame) : List (List Int) :=
  (List.range 16).map fun b => (List.range d.cols).map fun i => elemAt s.t0 (descAddr d loops + b * d.stride * 64) 2 i

/-- Parity of the bits that two numbers share. -/
def sharedParity (i j : Nat) : Nat → Bool
  | 0 => false
  | n + 1 => (bitOf i n && bitOf j n) != sharedParity i j n

/-- The exact product of a block with the Sylvester Hadamard matrix (R181, R202). -/
def hadamard (xs : List Int) : List Int :=
  (List.range xs.length).map fun j =>
    (xs.zipIdx).foldl (fun t x => if sharedParity x.2 j 8 then t - x.1 else t + x.1) 0

/-- Split a list into blocks. -/
def blocksOf (size : Nat) (n : Nat) (xs : List Int) : List (List Int) :=
  (List.range n).map fun b => (xs.drop (b * size)).take size

/-- Every block of a row rotated. -/
def hadamardRow (size : Nat) (xs : List Int) : List Int :=
  (blocksOf size (xs.length / size) xs).flatMap hadamard

/-- The block size a MOD field names (Table 5-8), with log₂ of its square root. -/
def blockSize (m : Nat) : Option (Nat × Int) :=
  match m % 4 with
  | 0 => some (16, 2)
  | 1 => some (64, 3)
  | 2 => some (256, 4)
  | _ => none

end Sys2Proof.Machine
end

