-- ==== Sys2Proof/Machine/Engine.lean ====
section
/-!
DEFINITION. Machine/Engine.lean: how every engine runs its slice: bubbles (R381, R382), the slice budget counter (R61, R143),
fetching and retiring words, loops (R136), knots (R127 to R130), plan faults (R149) and the end of a slice (R62).
-/
namespace Sys2Proof.Machine

/-! ### Bubbles -/

/-- The duty of the actuators of memory and compute (R379). -/
def State.capDuty (s : State) : Nat := max (s.fld Reg.PWR_DUTY 8 6) (s.fld Reg.PWR_DUTY 16 6)

/-- The ramp duty at a cycle from the edge (R382). -/
def rampDuty (c : Nat) : Nat := 64 - c / 300

/-- The common duty at a cycle from the edge: the largest of the three duties, and no more than 1 below what was applied
for each 300 cycles since (R381, R382). -/
def State.dutyAt (s : State) (c : Nat) : Nat :=
  max (max s.capDuty (rampDuty c)) (s.power.common - (c - s.power.commonAt) / 300)

/-- The cycle from which the common duty no longer changes by itself. -/
def State.steadyFrom (s : State) : Nat := 64 * ceilDiv (max 19200 (s.power.commonAt + 300 * s.power.common)) 64

/-- Working cycles among the first `j` of a run of 64 with duty `d`: cycle `j` is a bubble when
`⌊(j + 1) d / 64⌋ > ⌊j d / 64⌋` (R381). -/
def workIn (d j : Nat) : Nat := j - j * d / 64

/-- The first position of a run by which `n` working cycles have passed. -/
def reachIn (d n : Nat) : Nat := ((List.range 65).find? fun j => n ≤ workIn d j).getD 64

/-- The cycle at which `n` working cycles have passed since cycle `c`; `fuel` bounds the runs whose duty may differ. -/
def State.advance (s : State) : Nat → Nat → Nat → Nat
  | 0, c, n => c + n
  | fuel + 1, c, n =>
    if n = 0 then c
    else
      let d := s.dutyAt (64 * (c / 64))
      if d = 0 && s.steadyFrom ≤ c then c + n
      else
        let done := workIn d (c % 64)
        let avail := workIn d 64 - done
        if n ≤ avail then 64 * (c / 64) + reachIn d (done + n)
        else if s.steadyFrom ≤ c && c % 64 = 0 && avail ≠ 0 then
          let full := (n - 1) / avail
          64 * (c / 64 + full) + reachIn d (n - full * avail)
        else s.advance fuel (64 * (c / 64 + 1)) (n - avail)

/-- Working cycles from cycle `a` to cycle `b`. -/
def State.workBetween (s : State) : Nat → Nat → Nat → Nat
  | 0, a, b => b - a
  | fuel + 1, a, b =>
    if b ≤ a then 0
    else
      let d := s.dutyAt (64 * (a / 64))
      let stop := min b (64 * (a / 64 + 1))
      if s.steadyFrom ≤ a && a % 64 = 0 then
        (b - a) / 64 * workIn d 64 + workIn d ((b - a) % 64)
      else
        workIn d (stop - 64 * (a / 64)) - workIn d (a % 64) + s.workBetween fuel stop b

/-- Runs whose duty may differ, as the bound of the two recursions above. -/
def runFuel : Nat := 1000

/-! ### The clock of an engine -/

/-- The engine runs on the 1.2 GHz clock and takes bubbles (R381). -/
def fastClock (e : Nat) : Bool := decide (e < 30)

/-- Cycles of 1.2 GHz for cycles of an engine's own clock: the Flail 800 MHz, the Quern 400 MHz, the Glume 600 MHz. -/
def toFast (e n : Nat) : Nat := if e = 30 then ceilDiv (3 * n) 2 else if e = 31 then 3 * n else if e = 32 then 2 * n else n

/-- Whole cycles of an engine's own clock in cycles of 1.2 GHz. -/
def fromFast (e n : Nat) : Nat := if e = 30 then 2 * n / 3 else if e = 31 then n / 3 else if e = 32 then n / 2 else n

/-- The cycle at which an engine has worked `n` cycles of its clock since cycle `c`. -/
def State.after (s : State) (e c n : Nat) : Nat := if fastClock e then s.advance runFuel c n else c + toFast e n

/-- The cycle up to which some engine of the 1.2 GHz clock runs its slice; `none` while one still runs (R61). -/
def State.fastEnd (s : State) : Option Nat :=
  if (s.engs.take 30).any (·.running) then none
  else some ((s.engs.take 30).foldl (fun m g => max m g.cycles) 0)

/-- Cycles of an engine's budget clock that a stall from cycle `a` to cycle `b` counts (R61). -/
def State.stallCount (s : State) (e a b : Nat) : Nat :=
  if fastClock e then s.workBetween runFuel a b
  else
    let upTo := match s.fastEnd with
      | none => b
      | some c => min b c
    let free := if s.capDuty > 0 then upTo - a else min upTo s.steadyFrom - a
    fromFast e ((b - a) - free)

/-! ### Status bits of engines -/

/-- The register and bit that show an engine's slice running. -/
def busyBit (e : Nat) : Option (Nat × Nat) :=
  if e < 16 then some (Reg.SHF_STAT + 0x1000 * e, 8)
  else if e < 18 then some (Reg.TSH_STAT + 0x400 * (e - 16), 0)
  else if e < 20 then some (Reg.WNW_STAT + 0x100 * (e - 18), 0)
  else if e = 20 then some (Reg.SVE_STAT, 0)
  else if e = 21 then some (Reg.RCS_STAT, 0)
  else if e = 30 then some (Reg.FLL_STAT, 0)
  else if e = 31 then some (Reg.QRN_STAT, 0)
  else if e = 32 then some (Reg.GLM_STAT, 0)
  else none

/-- Show whether an engine's slice runs. -/
def State.setBusy (s : State) (e : Nat) (b : Bool) : State :=
  match busyBit e with
  | some (r, i) => s.setBit r i b
  | none => s

/-! ### Knots -/

/-- The value of a knot as a WAIT sees it at a cycle: its start value and the posts visible by then (R127, R129). -/
def State.knotAt (s : State) (k c : Nat) : Nat :=
  s.posts.foldl (fun t p => if p.knot = k && p.visible ≤ c then t + p.amount else t) (s.fld (Reg.PLAN_KNOT + 4 * k) 16 16)

/-- The first cycle, from `c` on, at which a knot is at its target, if the posts applied so far bring it there. -/
def State.knotReach (s : State) (k target c : Nat) : Option Nat :=
  if target ≤ s.knotAt k c then some c
  else
    ((s.posts.filter fun p => p.knot = k && target ≤ s.knotAt k p.visible).map (·.visible)).foldl
      (fun m v => match m with
        | none => some v
        | some u => some (min u v)) none

/-- An amount is applied to a knot, visible 6 cycles later from a 1.2 GHz engine and 12 from the Flail, the Quern, the
Glume or a move commit (R129). -/
def State.applyPost (s : State) (k amount c delay : Nat) : State :=
  let s := s.setFld (Reg.PLAN_KNOT + 4 * k) 0 16 (s.fld (Reg.PLAN_KNOT + 4 * k) 0 16 + amount)
  { s with posts := s.posts ++ [⟨k, c + delay, amount⟩] }

/-- An engine posts to a knot: its share of the variant's TOTAL is noted (R143). -/
def State.engPost (s : State) (e k amount delay : Nat) : State :=
  let g := s.eng e
  let s := s.applyPost k amount g.cycles delay
  s.setEng e { g with posted := keyPut g.posted k (keyGetD g.posted k 0 + amount) }

/-! ### The end of a slice -/

/-- The time in µs at which a cycle from the edge falls.
(DEDUCED, unsafe: notes/assumptions/5.md) -/
def State.cycleTime (s : State) (c : Nat) : Nat := s.tick.edge + ceilDiv c 1200

/-- A plan move that has not ended when its Cart's slice ends has failed (R96).
(DEDUCED, unsafe: notes/assumptions/38.md) -/
def State.dropPlanMove (s : State) (e : Nat) : State :=
  if s.moves.any fun m => m.1 + 22 = e && !m.2.fallow then
    let s := { s with moves := s.moves.filter fun m => !(m.1 + 22 = e && !m.2.fallow) }
    (s.setFld (Reg.CART_CHSTAT + 0x20 * (e - 22)) 0 3 5).setBit Reg.CART_STAT (e - 22) false
  else s

/-- An engine ends its slice: its budget left and whether the budget was exhausted are reported (R143). -/
def State.endSlice (s : State) (e : Nat) (exhausted : Bool) : State :=
  let g := s.eng e
  let s := s.setEng e { g with running := false, waiting := none, loops := [] }
  let s := s.setFld (Reg.PLAN_ENGSTAT + 4 * e) 0 28 g.remain
  let s := s.setBit (Reg.PLAN_ENGSTAT + 4 * e) 31 exhausted
  let s := (s.setBusy e false).dropPlanMove e
  { s with tick := { s.tick with workEnd := max s.tick.workEnd (s.cycleTime g.cycles) } }

/-- A plan fault (R149): recorded in the error log, flagged, and latched if it is the first.
(DEDUCED, unsafe: notes/assumptions/69.md) -/
def State.planFault (s : State) (cause engine variant pc : Nat) (i : LogInfo) : State :=
  let s := s.logError 1 cause i
  let s := s.raise .plan Reg.PLAN_STAT 9
  if s.bit Reg.PLAN_FAULT 31 then s
  else
    let s := s.setReg Reg.PLAN_FAULT (BitVec.ofNat 32 (2 ^ 31 + engine % 64 * 2 ^ 16 + variant % 8 * 2 ^ 8 + cause % 16))
    let s := s.setReg Reg.PLAN_FAULTPC (BitVec.ofNat 32 pc)
    s.setReg Reg.PLAN_FAULTTICK (BitVec.ofNat 32 s.tickNo)

/-- What a variant posts to each knot that it has not yet posted (R143). -/
def State.postRest (s : State) (e : Nat) : State :=
  let g := s.eng e
  let delay := if fastClock e then 6 else 12
  (s.plan.posts.filter fun r => r.engine = e && r.variant = g.variant).foldl (fun s r =>
    let left := r.total - keyGetD g.posted r.knot 0
    if left = 0 then s else s.engPost e r.knot left delay) s

/-- An engine is stopped by a plan fault: it posts its knots to their totals, ends its slice, and every admitted stream
receives a hole (R62, R149).
(DEDUCED, unsafe: notes/assumptions/69.md) -/
def State.faultSlice (s : State) (e cause addr : Nat) : State :=
  let g := s.eng e
  let s := s.planFault cause e g.variant g.pc { source := e, addr := addr }
  let s := s.postRest e
  let s := s.endSlice e (cause = 2)
  s.holeAll 3

/-- The budget counter reaches zero before the slice ends (R62).
(DEDUCED, unsafe: notes/assumptions/36.md) -/
def State.exhaust (s : State) (e : Nat) : State :=
  let s := s.updEng e fun g => { g with remain := 0 }
  (s.raise .tick Reg.TICK_STAT 13).faultSlice e 2 0

/-! ### Running words -/

/-- The word an engine would run next. -/
def State.fetch (s : State) (e : Nat) : Option DWord :=
  let g := s.eng e
  if g.running && g.waiting.isNone && decide (g.pc < g.stop) then (s.plan.stream e)[g.pc]? else none

/-- An engine stands at a word.
(DEDUCED, safe: notes/assumptions/4.md) -/
def State.standsAt (s : State) (e : Nat) (w : DWord) : Bool := s.fetch e = some w

/-- The engine works `n` cycles of its budget clock. -/
def State.work (s : State) (e n : Nat) : State :=
  s.updEng e fun g =>
    let c := s.after e g.cycles n
    { g with cycles := c, remain := g.remain - n, bubbles := g.bubbles + ((c - g.cycles) - toFast e n) }

/-- The budget counter would reach zero before an instruction of cost `n` retires and the slice ends. -/
def State.tooDear (s : State) (e n : Nat) : Bool := decide ((s.eng e).remain ≤ n)

/-- The next position once the word before `pc` has retired: the innermost loop whose body ends here runs again, and loops
that have run their count end (R136). -/
def nextPc : Nat → List LoopFrame → Nat × List LoopFrame
  | pc, [] => (pc, [])
  | pc, f :: fs =>
    if pc = f.first + f.len then
      if f.iter + 1 < f.count then (f.first, { f with iter := f.iter + 1 } :: fs) else nextPc pc fs
    else (pc, f :: fs)

/-- The word has retired: the engine stands at the next. -/
def State.retire (s : State) (e : Nat) : State :=
  s.updEng e fun g =>
    let n := nextPc (g.pc + 1) g.loops
    { g with pc := n.1, loops := n.2 }

/-- Run an instruction of cost `n` whose effect is `f`: where the budget does not last, the slice ends instead.
(DEDUCED, unsafe: notes/assumptions/36.md) -/
def State.runFor (s : State) (e n : Nat) (f : State → State) : State :=
  if s.tooDear e n then (s.work e (s.eng e).remain).exhaust e
  else (f (s.work e n)).retire e

/-- Run an instruction at which the engine stands; an engine that does not stand there is unmoved (notes/assumptions/4.md).
(DEDUCED, safe: notes/assumptions/4.md) -/
def State.runWord (s : State) (e : Nat) (w : DWord) (n : Nat) (f : State → State) : State :=
  if s.standsAt e w then s.runFor e n f else s

/-- The iteration index of the innermost loop (Table 4-9). -/
def State.inner (s : State) (e : Nat) : Nat := loopIndex (s.eng e).loops 1

/-- The number of T1 requesters that may share T1 with an instruction: at most the Carts, the Threshers and the Gleaner
(R111). -/
def t1Requesters : Nat := 11

/-- `t1(b)` for `n` requesters (chapter 5).
(DEDUCED, unsafe: notes/assumptions/36.md) -/
def t1Cost (b n : Nat) : Nat := ceilDiv (b * n * 12) 580

/-- A cost that is only bounded above (R151): between the two bounds, where the machine's choice is a free value.
(DESIGN CHOICE, safe: notes/assumptions/3.md; DEDUCED, unsafe: notes/assumptions/36.md) -/
def State.boundedCost (s : State) (lo hi : Nat) : Nat × State :=
  if hi ≤ lo then (lo, s) else let (v, s) := s.draw; (lo + v % (hi - lo + 1), s)

/-- Add to the counters of an engine's slice (R210).
(DEDUCED, unsafe: notes/assumptions/66.md) -/
def State.count (s : State) (e : Nat) (f : SliceCounts → SliceCounts) : State := s.updEng e fun g => { g with counts := f g.counts }

/-! ### Control and sync (R135, R161 to R163) -/

/-- END: the slice ends. -/
def execEnd (e : EngineId) (s : State) : Host.Outcome State Fault Refusal :=
  .next <|
    if s.standsAt e (cWord 0 0 0) then
      if decide ((s.eng e).remain < 4) then (s.work e (s.eng e).remain).exhaust e
      else (s.work e 4).endSlice e false
    else s

/-- LOOP: the next LEN words run COUNT times, at no cost of its own (R136). -/
def execLoop (e : EngineId) (count len : BitVec 16) (s : State) : Host.Outcome State Fault Refusal :=
  .next <|
    if s.standsAt e (cWord 1 count.toNat len.toNat) then
      s.updEng e fun g =>
        { g with pc := g.pc + 1, loops := ⟨g.pc + 1, len.toNat, count.toNat, 0⟩ :: g.loops }
    else s

/-- IDLE: COUNT cycles pass. -/
def execIdle (e : EngineId) (count : BitVec 16) (s : State) : Host.Outcome State Fault Refusal :=
  .next <| s.runWord e (cWord 2 count.toNat 0) count.toNat id

/-- POST: VALUE + i × STEP is added to the knot (R127, R135). -/
def execPost (e : EngineId) (knot : BitVec 6) (value step : BitVec 16) (s : State) : Host.Outcome State Fault Refusal :=
  .next <|
    s.runWord e (sWord 0x10 knot.toNat value.toNat step.toNat) 2 fun s =>
      s.engPost e knot.toNat (value.toNat + s.inner e * step.toNat) (if fastClock e then 6 else 12)

/-- WAIT: the engine goes on at once if the knot is at its target, and stalls otherwise (R163). -/
def execWait (e : EngineId) (knot : BitVec 6) (value step : BitVec 16) (s : State) : Host.Outcome State Fault Refusal :=
  .next <|
    if s.standsAt e (sWord 0x11 knot.toNat value.toNat step.toNat) then
      let target := value.toNat + s.inner e * step.toNat
      let start := (s.eng e).cycles
      if s.tooDear e 2 then (s.work e (s.eng e).remain).exhaust e
      else
        let s := s.work e 2
        match s.knotReach knot.toNat target start with
        | some c => if c ≤ (s.eng e).cycles then s.retire e else s.updEng e fun g => { g with waiting := some (knot.toNat, target) }
        | none => s.updEng e fun g => { g with waiting := some (knot.toNat, target) }
    else s

/-- A stalled WAIT ends when a post that brings its knot to the target becomes visible; the cycles of the stall count in
the budget as R61 states, and a budget that they exhaust ends the slice instead (R130, R163). -/
def execWaitSatisfied (e : EngineId) (s : State) : Host.Outcome State Fault Refusal :=
  .next <|
    let g := s.eng e
    match g.waiting with
    | none => s
    | some (k, target) =>
      match s.knotReach k target g.cycles with
      | none => s
      | some c =>
        let n := s.stallCount e g.cycles c
        if decide (g.remain ≤ n) && n != 0 then (s.work e g.remain).exhaust e
        else
          let g' := { g with
            cycles := c, remain := g.remain - n, bubbles := g.bubbles + (if fastClock e then (c - g.cycles) - n else 0),
            waiting := none }
          (s.setEng e g').retire e

/-- The budget counter of an engine is about to reach zero: it has nothing left, or it stalls in a WAIT whose knot does
not reach its target before the budget has run out (R130). -/
def State.runsDry (s : State) (e : Nat) : Bool :=
  let g := s.eng e
  g.running &&
  match g.waiting with
  | none => g.remain = 0
  | some (k, target) =>
    match s.knotReach k target g.cycles with
    | none => true
    | some c => decide (g.remain ≤ s.stallCount e g.cycles c) && s.stallCount e g.cycles c != 0

/-- The budget counter of a running slice reaches zero (R62). -/
def execSliceBudgetExhausted (e : EngineId) (s : State) : Host.Outcome State Fault Refusal :=
  .next <| if s.runsDry e then (s.work e (s.eng e).remain).exhaust e else s

end Sys2Proof.Machine
end

