-- ==== Sys2Proof/Machine/Move.lean ====
section
/-!
DEFINITION. Machine/Move.lean: moves on the Carts: the checks of a descriptor (R93 to R95), the copy of a datum, the channel
registers (Tables 3-8 to 3-14), and the MOVE opcode (R185, R186) up to its commit (R87, R99).
-/
namespace Sys2Proof.Machine

/-! ### Copying -/

/-- The memories that a device physical address can lie in. -/
inductive Space where
  | t0 | t1 | host
  deriving DecidableEq, Repr

/-- A range as contiguous pieces of one memory each: a T2 range is cut where its host window entry ends (R103). -/
def State.pieces (s : State) (a len : Nat) : List (Space × Nat × Nat) :=
  match s.place a with
  | .t0 o => [(.t0, o, len)]
  | .t1 o => [(.t1, o, len)]
  | .t2 _ o =>
    let first := min len (0x400_0000 - o)
    (.host, s.busAddr a, first) :: (if first < len then [(.host, s.busAddr (a + first), len - first)] else [])
  | _ => []

/-- The cells of a memory. -/
def State.cells (s : State) : Space → Cells 8
  | .t0 => s.t0
  | .t1 => s.t1
  | .host => s.host

/-- Replace the cells of a memory. A T0 range that is written loses its poison and its errors (R107). -/
def State.setCells (s : State) (sp : Space) (lo len : Nat) (m : Cells 8) : State :=
  match sp with
  | .t0 =>
    let keep := fun w => !(lo / 8 ≤ w && w < (lo + len) / 8)
    { s with t0 := m, t0Poison := s.t0Poison.filter keep, t0Flips := s.t0Flips.filter fun f => keep f.1 }
  | .t1 => { s with t1 := m }
  | .host => { s with host := m }

/-- The bytes of a range that are not 0, by their offset within it. -/
def State.sparseRead (s : State) (a len : Nat) : Cells 8 :=
  ((s.pieces a len).foldl (fun (acc : Nat × Cells 8) p =>
    (acc.1 + p.2.2, acc.2 ++ ((s.cells p.1).filter fun c => inRange c.1 p.2.1 p.2.2).map fun c => (c.1 - p.2.1 + acc.1, c.2)))
    (0, [])).2

/-- Write a range: the given bytes at their offsets, zeros elsewhere. -/
def State.sparseWrite (s : State) (a len : Nat) (bs : Cells 8) : State :=
  ((s.pieces a len).foldl (fun (acc : Nat × State) p =>
    let m := cellClear (acc.2.cells p.1) p.2.1 p.2.2
    let m := (bs.filter fun c => inRange c.1 acc.1 p.2.2).foldl (fun m c => cellSet m (p.2.1 + (c.1 - acc.1)) c.2) m
    (acc.1 + p.2.2, acc.2.setCells p.1 p.2.1 p.2.2 m)) (0, s)).2

/-- Write zeros over a range. -/
def State.zeroRange (s : State) (a len : Nat) : State := s.sparseWrite a len []

/-- Write a byte string at a device physical address. -/
def State.storeBytes (s : State) (a : Nat) (bs : List Byte) : State :=
  s.sparseWrite a bs.length (cellSetMany [] 0 bs)

/-! ### Checks -/

/-- Two ranges meet. -/
def rangesMeet (a la b lb : Nat) : Bool := decide (a < b + lb) && decide (b < a + la)

/-- Bytes of a move. -/
def MoveDesc.bytes (d : MoveDesc) : Nat := 64 * d.len

/-- A move that has not ended (R93): moves on a Cart's list have not. -/
def State.overlaps (s : State) (d : MoveDesc) : Option Nat :=
  let others := s.moves.map fun m => m.2.desc
  let srcHit := d.kind != 2 && others.any fun o => rangesMeet d.src d.bytes o.dst o.bytes
  let dstHit := others.any fun o =>
    rangesMeet d.dst d.bytes o.dst o.bytes || (o.kind != 2 && rangesMeet d.dst d.bytes o.src o.bytes)
  if srcHit then some d.src else if dstHit then some d.dst else none

/-- A range lies in the constant region of the active plan. -/
def State.inConst (s : State) (a len : Nat) : Bool :=
  match s.active with
  | some p => decide (p.hdr.constBase ≤ a) && decide (a + len ≤ p.hdr.constBase + p.hdr.constLen)
  | none => false

/-- A range meets the constant region of the active plan. -/
def State.meetsConst (s : State) (a len : Nat) : Bool :=
  match s.active with
  | some p => rangesMeet a len p.hdr.constBase p.hdr.constLen
  | none => false

/-- Why a descriptor fails its checks at issue (R93 to R95): the bit of `CART_ERRSTAT` and the address latched.
(DEDUCED, unsafe: notes/assumptions/69.md) -/
def State.moveRefusal (s : State) (d : MoveDesc) : Option (Nat × Nat) :=
  let n := d.bytes
  let srcTier := s.rangeTier d.src n
  let dstTier := s.rangeTier d.dst n
  let off := fun (t : Option Tier) => t = some .t2 || t = some .peer
  if decide (d.kind > 2) || d.len = 0 || decide (d.len > 0x100000) then some (2, d.dst)
  else if d.kind != 2 && d.src % 64 != 0 then some (2, d.src)
  else if d.kind != 2 && srcTier.isNone then some (2, d.src)
  else if d.kind = 1 && !s.inConst d.src n then some (2, d.src)
  else if d.kind != 2 && srcTier = some .t2 && !s.hostWindowOk d.src n false then some (2, d.src)
  else if d.dst % 64 != 0 then some (2, d.dst)
  else if dstTier.isNone then some (2, d.dst)
  else if d.kind = 1 && dstTier != some .t0 then some (2, d.dst)
  else if d.kind = 2 && off dstTier then some (2, d.dst)
  else if d.kind = 0 && off srcTier && off dstTier then some (2, d.dst)
  else if s.meetsConst d.dst n then some (2, d.dst)
  else if dstTier = some .t2 && !s.hostWindowOk d.dst n true then some (2, d.dst)
  else match s.overlaps d with
    | some a => some (3, a)
    | none => none

/-! ### Channel registers -/

/-- Encodings of `CART_CHSTAT.STATE` (Table 3-12). -/
def chanState : MoveState → Nat
  | .issued => 6
  | .copying => 1
  | .paused => 3
  | .committing => 2
  | .committed => 2
  | .released => 0
  | .fenced => 4
  | .failed => 5

/-- Show a move's state on its channel, and whether the Cart is busy or holds a paused move. -/
def State.showMove (s : State) (cart owner : Nat) (fallow : Bool) (st : MoveState) : State :=
  let r := Reg.CART_CHSTAT + 0x20 * cart
  let s := s.setFld r 8 7 owner
  let s := s.setBit r 4 fallow
  let s := s.setFld r 0 3 (chanState st)
  let s := s.setBit Reg.CART_STAT cart (st != .released && st != .failed)
  s.setBit Reg.CART_STAT (8 + cart) (st = .paused)

/-- An error of a Cart: its bit, the Cart, the count and the address (Tables 3-9 to 3-11). -/
def State.cartError (s : State) (cart bit addr : Nat) : State :=
  let s := s.setBit Reg.CART_ERRSTAT bit true
  let s := s.setFld Reg.CART_ERRSTAT 16 3 cart
  let s := s.addSat Reg.CART_ERRSTAT 24 8 1
  s.setReg64 Reg.CART_ERRADDR_LO addr

/-- Count the bytes of a committed move (Tables 3-13 and 3-14). -/
def State.countBytes (s : State) (cart : Nat) (d : MoveDesc) : State :=
  s.add64 (Reg.CART_CHBYTES_LO + 0x20 * cart) d.bytes

/-- The move on a Cart's plan stream that has not ended. -/
def State.planMove (s : State) (cart : Nat) : Option Move :=
  (s.moves.find? fun m => m.1 = cart && !m.2.fallow).map Prod.snd

/-- The fallow move on a Cart that has not ended. -/
def State.fallowMove (s : State) (cart : Nat) : Option Move :=
  (s.moves.find? fun m => m.1 = cart && m.2.fallow).map Prod.snd

/-- A move leaves a Cart: it has been released or has failed. -/
def State.dropMove (s : State) (cart : Nat) (fallow : Bool) : State :=
  { s with moves := s.moves.filter fun m => !(m.1 = cart && m.2.fallow = fallow) }

/-- Replace a Cart's fallow move. -/
def State.setFallowMove (s : State) (cart : Nat) (mv : Move) : State :=
  { s with moves := s.moves.map fun m => if m.1 = cart && m.2.fallow then (cart, mv) else m }

/-! ### The copy and its errors -/

/-- Read a move's whole source as its Cart does: the first line that cannot be read (R113). -/
def State.senseSource (s : State) (d : MoveDesc) : Option Nat × State :=
  if d.kind = 2 then (none, s) else s.senseRange d.src d.bytes

/-- Write a move's destination: what a T1 burst that fails twice refuses (R112), or the copy. -/
def State.copyMove (s : State) (d : MoveDesc) : Option Nat × State :=
  let (bad, s) := match s.place d.dst with
    | .t1 _ => s.t1Range d.dst d.bytes true
    | _ => (none, s)
  match bad with
  | some a => (some a, s)
  | none =>
    let data := if d.kind = 2 then [] else s.sparseRead d.src d.bytes
    (none, s.sparseWrite d.dst d.bytes data)

/-! ### Plan moves -/

/-- The engine index of a Cart (Table 4-3). -/
abbrev cartEng (cart : Nat) : Nat := 22 + cart

/-- The descriptor a MOVE issues: its addresses advanced by the innermost loop index (Table 4-9). -/
def State.stepped (s : State) (cart mdesc srcStep dstStep : Nat) : MoveDesc :=
  let d := moveDesc (moveBits (s.plan.slot mdesc) (s.plan.slot (mdesc + 1)))
  let i := s.inner (cartEng cart)
  { d with src := d.src + i * srcStep * 64, dst := d.dst + i * dstStep * 64 }

/-- MOVE issues its move: the slice stands at the MOVE until the move commits (R185). A refused descriptor is a plan fault
of cause 1 that ends the slice (R93, R149). -/
def execMove (cart : Fin 8) (mdesc : BitVec 12) (srcStep dstStep : BitVec 16) (s : State) :
    Host.Outcome State Fault Refusal :=
  .next <|
    let e := cartEng cart
    if s.standsAt e (xWord mdesc.toNat srcStep.toNat dstStep.toNat) && (s.planMove cart).isNone then
      let d := s.stepped cart mdesc.toNat srcStep.toNat dstStep.toNat
      match s.moveRefusal d with
      | some (b, a) => (s.cartError cart b a).faultSlice e 1 a
      | none =>
        let mv : Move := ⟨d, .copying, false, .plan⟩
        let s := { s with moves := s.moves ++ [(cart.val, mv)] }
        s.showMove cart d.owner false .copying
    else s

/-- The cost of a plan move (R186): exact within T0, bounded where an end lies in T1.
(DEDUCED, unsafe: notes/assumptions/36.md) -/
def State.moveCost (s : State) (d : MoveDesc) : Nat × State :=
  let t1 := decide (0x100_0000_0000 ≤ d.dst) || (d.kind != 2 && decide (0x100_0000_0000 ≤ d.src))
  if t1 then s.boundedCost 12 (12 + t1Cost d.bytes t1Requesters) else (12 + ceilDiv d.bytes 32, s)

/-- A plan move that failed, at its source or its destination: its knot is posted, so that no slice waits for ever (R99);
what it should have brought is answered as shared transient data of the tick (R113, Table 3-27), and a stage whose constant
region could not be read also deactivates the plan at the next fallow window. The slice goes on.
(DEDUCED, unsafe: notes/assumptions/38.md) -/
def State.failPlanMove (s : State) (cart : Nat) (mv : Move) (src : Bool) (addr : Nat) : State :=
  let e := cartEng cart
  let d := mv.desc
  let s := s.cartError cart (if src then 0 else 1) addr
  let s := (s.dropMove cart false).showMove cart d.owner false .failed
  let sub := if src && d.kind = 1 then 8 else if addr < 0x300_0000 then 1 else if src then 2 else 3
  let s := s.logError 2 sub { source := e, addr := addr }
  let s := { s.holeAll 4 with unreadAll := true }
  let s := if src && d.kind = 1 then { s with deactivate := true } else s
  let s := if d.knotEn then s.engPost e d.knot 1 12 else s
  s.retire e

/-- A plan move reaches its commit, or fails there (R87, R92, R99). A budget that does not last ends the slice and the
move.
(DEDUCED, unsafe: notes/assumptions/38.md) -/
def State.commitPlanMove (s : State) (cart : Nat) (mv : Move) (a : CommitAnswer) : State :=
  let e := cartEng cart
  let d := mv.desc
  let (cost, s) := s.moveCost d
  if s.tooDear e cost then
    let s := (s.dropMove cart false).showMove cart d.owner false .failed
    (s.work e (s.eng e).remain).exhaust e
  else
    let s := s.work e cost
    match a with
    | .refused addr => s.failPlanMove cart mv false addr.toNat
    | .readFailed => s.failPlanMove cart mv false (d.dst + d.bytes - 64)
    | .ok =>
      match s.senseSource d with
      | (some bad, s) => s.failPlanMove cart mv true (bad / 64 * 64)
      | (none, s) =>
        match s.copyMove d with
        | (some bad, s) => s.failPlanMove cart mv false bad
        | (none, s) =>
          let s := (s.countBytes cart d).dropMove cart false
          let s := s.showMove cart d.owner false .released
          let s := if d.knotEn then s.engPost e d.knot 1 12 else s
          s.retire e

end Sys2Proof.Machine
end

