-- ==== Sys2Proof/Machine/Pools.lean ====
section
/-!
DEFINITION. Machine/Pools.lean: the data of streams with their homes, the T0, T1 and T2 pools (R279, R287), reservations
(R280), the choice of a home, and fallow moves under the swap budget (R60, R88, R284).
-/
namespace Sys2Proof.Machine

/-! ### The data of streams -/

/-- A datum with its home and its length. -/
structure Homed where
  datum : MoveDatum
  addr : Nat
  len : Nat
  deriving DecidableEq, Repr

/-- Tokens per page of a stream. -/
def Stream.ps (t : Stream) : Nat := 16 * 2 ^ t.psz

/-- The data of one stream: its context, its flat regions, its pages, its summary tables and its state record. -/
def Stream.data (t : Stream) (p : Plan) (sc : Nat) : List Homed :=
  [⟨.context sc, t.home, p.contextSize t.ps⟩] ++
  (t.flats.map fun f => ⟨.flat sc f.1, f.2.home, f.2.size⟩) ++
  (t.paged.flatMap fun r =>
    let g := p.geom r.1
    (r.2.pages.map fun pg => (⟨.page sc r.1 pg.seq, pg.addr, g.pageSize t.ps⟩ : Homed)) ++
    (match r.2.sumHome with
      | some h => [(⟨.summary sc r.1, h, g.slots * g.d⟩ : Homed)]
      | none => [])) ++
  (match t.record with
    | some h => [⟨.record sc, h, recordSize p.pinnedSlots.length⟩]
    | none => [])

/-- The data of every open stream that runs on this chip. -/
def State.data (s : State) : List Homed :=
  s.streams.flatMap fun e => if e.2.runsOn.isSome then [] else e.2.data s.plan e.1

/-- The stream a datum belongs to. -/
def MoveDatum.owner : MoveDatum → Option Nat
  | .page sc _ _ | .flat sc _ | .context sc | .record sc | .summary sc _ => some sc
  | .plan | .load | .host => none

/-- Make an address a datum's home: the entries and pointers that name it are rewritten (R88). -/
def State.rehome (s : State) (d : MoveDatum) (a : Nat) : State :=
  match d with
  | .page sc region q => s.updStream sc fun t =>
      match keyGet t.paged region with
      | some r =>
        let r := { r with pages := r.pages.map fun p => if p.seq = q then { p with addr := a } else p }
        { t with paged := keyPut t.paged region r }
      | none => t
  | .flat sc region => s.updStream sc fun t =>
      match keyGet t.flats region with
      | some f => { t with flats := keyPut t.flats region { f with home := a } }
      | none => t
  | .context sc => s.updStream sc fun t => { t with home := a }
  | .record sc => s.updStream sc fun t => { t with record := t.record.map fun _ => a }
  | .summary sc region => s.updStream sc fun t =>
      match keyGet t.paged region with
      | some r => { t with paged := keyPut t.paged region { r with sumHome := some a } }
      | none => t
  | .plan | .load | .host => s

/-! ### Pools -/

/-- Remove a range from a list of free ranges. -/
def cutRange (free : List (Nat × Nat)) (b : Nat × Nat) : List (Nat × Nat) :=
  free.flatMap fun f =>
    if rangesMeet f.1 f.2 b.1 b.2 then
      (if f.1 < b.1 then [(f.1, b.1 - f.1)] else []) ++
      (if b.1 + b.2 < f.1 + f.2 then [(b.1 + b.2, f.1 + f.2 - (b.1 + b.2))] else [])
    else [f]

/-- The 64 KiB blocks that a range touches, as one range. -/
def blocksOfRange (r : Nat × Nat) : Nat × Nat := (r.1 / 65536 * 65536, ceilDiv (r.1 + max 1 r.2) 65536 * 65536 - r.1 / 65536 * 65536)

/-- Bytes of a descriptor ring (R277): two halves, each with an entry of 8 bytes for every slot of every paged region of every
row.
(DESIGN CHOICE, unsafe: notes/assumptions/25.md) -/
def Plan.ringBytes (p : Plan) : Nat :=
  128 * ceilDiv (p.hdr.rows * 8 * (p.regions.map fun r => let g := p.geom r; if g.paged then g.slotsOf 16 else 0).sum) 64

/-- The T0 pool as ranges (R279, R298, R456). -/
def State.t0Pool (s : State) : List (Nat × Nat) :=
  let base := (s.plan.t0Ranges.map blocksOfRange).foldl cutRange [(0, 0x300_0000)]
  (s.staging.toList ++ s.cam.area.toList).foldl cutRange base

/-- The T1 ranges of the active plan, the pending plan and a load in progress. -/
def State.planT1 (s : State) : List (Nat × Nat) :=
  let of := fun (p : Plan) => (p.hdr.t1Base, p.hdr.t1Foot)
  (s.active.map of).toList ++ (s.pendingPlan.map of).toList ++ (s.load.map fun j => (j.hdr.t1Base, j.hdr.t1Foot)).toList

/-- The T1 pool as ranges (R279). -/
def State.t1Pool (s : State) : List (Nat × Nat) :=
  s.planT1.foldl cutRange [(0x100_0000_0000, lastT1 s.variant + 1 - 0x100_0000_0000)]

/-- The T2 pool: host window entries with VALID and WR, but the one being evacuated (R287, R289). -/
def State.t2Pool (s : State) : List (Nat × Nat) :=
  ((List.range 1024).filter fun e =>
    s.bit (Reg.HOST_HWT_LO + 8 * e) 0 && s.bit (Reg.HOST_HWT_LO + 8 * e) 1 &&
    !(s.bit Reg.GLN_EVAC 31 && s.fld Reg.GLN_EVAC 0 10 = e)).map fun e => (0x800_0000_0000 + e * 0x400_0000, 0x400_0000)

/-- Every range that a datum, a grant, the destination of a move or the descriptor ring holds, and ranges that are being cleared. -/
def State.taken (s : State) : List (Nat × Nat) :=
  (s.data.map fun d => (d.addr, d.len)) ++ (s.grants.map fun g => (g.base, g.size)) ++
  ((s.moves.filter fun m => m.2.fallow).map fun m => (m.2.desc.dst, m.2.desc.bytes)) ++
  s.stagingDue.toList ++ s.cam.due.toList ++
  (s.openings.flatMap fun o => o.context.toList ++ o.flats.map fun f => (f.2.home, f.2.size)) ++
  (s.rxMoves.filterMap fun m => m.pull.map fun x => (x.2.1, x.2.2)) ++
  (match s.ringHome with
    | some a => [(a, s.plan.ringBytes)]
    | none => [])

/-- The free ranges of a pool. -/
def State.gaps (s : State) (pool : List (Nat × Nat)) : List (Nat × Nat) := s.taken.foldl cutRange pool

/-- Bytes of a list of ranges. -/
def rangeBytes (rs : List (Nat × Nat)) : Nat := (rs.map Prod.snd).sum

/-- The pool of a tier. -/
def State.pool (s : State) : Tier → List (Nat × Nat)
  | .t0 => s.t0Pool
  | .t1 => s.t1Pool
  | .t2 => s.t2Pool
  | .peer => []

/-- Choose a home in a pool: CC3's choice among the aligned places that fit is not promised, and is a free value.
(DESIGN CHOICE, safe: notes/assumptions/3.md) -/
def State.choose (s : State) (tier : Tier) (len : Nat) : Option Nat × State :=
  let fit := (s.gaps (s.pool tier)).filter fun g => decide (len ≤ g.2)
  let places := (fit.map fun g => (g.2 - len) / 64 + 1).sum
  if places = 0 then (none, s)
  else
    let (v, s) := s.draw
    (pick (v % places) fit, s)
where
  /-- The `n`-th aligned place among ranges that fit. -/
  pick (n : Nat) : List (Nat × Nat) → Option Nat
    | [] => none
    | g :: gs => if n < (g.2 - len) / 64 + 1 then some (g.1 + 64 * n) else pick (n - ((g.2 - len) / 64 + 1)) gs

/-! ### Reservations -/

/-- The bytes of a stream's reservation (R280). -/
def Plan.reservation (p : Plan) (ps : Nat) : Nat :=
  (p.regions.map fun r =>
    let g := p.geom r
    if g.paged then g.slotsOf ps * g.pageSize ps + (if g.summarised then g.slots * g.d else 0) else g.flatSize).sum +
  p.contextSize ps + (if p.pinnedSlots.isEmpty then 0 else recordSize p.pinnedSlots.length)

/-- The part of the T1 pool that no reservation holds. -/
def State.t1Unreserved (s : State) : Nat :=
  rangeBytes s.t1Pool - ((s.streams.map fun e => e.2.reserved.getD 0).sum + (s.grants.map (·.reserved)).sum)

/-! ### Fallow moves -/

/-- A Cart without a fallow move: which one CC3 takes is not promised (R583), and is a free value.
(DESIGN CHOICE, safe: notes/assumptions/3.md) -/
def State.pickCart (s : State) : Option Nat × State :=
  let free := (List.range 8).filter fun c => (s.fallowMove c).isNone
  if free.isEmpty then (none, s)
  else let (v, s) := s.draw; (free[v % free.length]?, s)

/-- The owner field of a datum's move. -/
def MoveDatum.ownerField (d : MoveDatum) : Nat :=
  match d.owner with
  | some sc => sc
  | none => 127

/-- A datum whose source a Cart could not read (Table 3-27): its owner stream is ended. -/
def State.lostDatum (s : State) (d : MoveDatum) (sub addr : Nat) : State :=
  let s := s.logError 2 sub { addr := addr, stream := d.owner.getD 0xFF }
  match d.owner with
  | some sc => s.endStream sc 3 4
  | none => s

/-- The SUB of a tier error at an address (Table 11-3). -/
def tierSub (a : Nat) (write : Bool) : Nat :=
  if a < 0x300_0000 then 1 else if a < 0x800_0000_0000 then (if write then 3 else 2) else 4

/-- A fallow move within the chip, issued, copied, committed and released in one window (R87, R88): `none` where it must
wait for a later window, because the budget does not last (R284), every Cart is held, or a check refuses it (R93).  A
source that cannot be read loses the datum; a refused destination leaves its home as it was (R92).
(DEDUCED, unsafe: notes/assumptions/24.md) -/
def State.moveNow (s : State) (d : MoveDatum) (kind src dst len : Nat) : Option State :=
  if s.budget < len then none
  else
    let desc : MoveDesc := { src := src, dst := dst, len := len / 64, kind := kind, knot := 0, knotEn := false,
                             owner := d.ownerField, hq := 0, tag := 0 }
    match s.pickCart with
    | (none, _) => none
    | (some cart, s) =>
      match s.moveRefusal desc with
      | some _ => none
      | none =>
        let s := { s with budget := s.budget - len }
        let s := s.showMove cart desc.owner true .released
        match s.senseSource desc with
        | (some bad, s) => some ((s.cartError cart 0 (bad / 64 * 64)).lostDatum d (tierSub bad false) bad)
        | (none, s) =>
          match s.copyMove desc with
          | (some bad, s) => some ((s.cartError cart 1 bad).logError 2 (tierSub bad true) { addr := bad })
          | (none, s) => some ((s.countBytes cart desc).rehome d dst)

/-- Issue a fallow move with an end off the chip: it stays on its Cart until MOVE_COMMIT or MOVE_SOURCE_ERROR.
(DEDUCED, unsafe: notes/assumptions/24.md) -/
def State.issueFar (s : State) (d : MoveDatum) (src dst len : Nat) : Option State :=
  if s.budget < len then none
  else
    let desc : MoveDesc := { src := src, dst := dst, len := len / 64, kind := 0, knot := 0, knotEn := false,
                             owner := d.ownerField, hq := 0, tag := 0 }
    match s.pickCart with
    | (none, _) => none
    | (some cart, s) =>
      match s.moveRefusal desc with
      | some (b, a) => some (s.cartError cart b a)
      | none =>
        let mv : Move := ⟨desc, .copying, true, d⟩
        let s := { s with budget := s.budget - len, moves := s.moves ++ [(cart, mv)] }
        some (s.showMove cart desc.owner true .copying)

/-- A datum has a fallow move that has not ended. -/
def State.inFlight (s : State) (d : MoveDatum) : Bool := s.moves.any fun m => m.2.fallow && m.2.datum = d

/-- Move a datum to a tier, within the chip at once and to or from T2 over a Cart; unchanged where it must wait. -/
def State.moveTo (s : State) (h : Homed) (tier : Tier) : State :=
  if s.inFlight h.datum then s
  else
    match s.choose tier h.len with
    | (none, _) => s
    | (some a, s') =>
      if tier = .t2 || decide (0x800_0000_0000 ≤ h.addr) then (s'.issueFar h.datum h.addr a h.len).getD s
      else (s'.moveNow h.datum 0 h.addr a h.len).getD s

/-- Place a new datum of zeros in a tier by a zero move (KIND 2). -/
def State.zeroNew (s : State) (tier : Tier) (d : MoveDatum) (len : Nat) : Option Nat × State :=
  match s.choose tier len with
  | (none, _) => (none, s)
  | (some a, s') =>
    match s'.moveNow d 2 0 a len with
    | some s'' => (some a, s'')
    | none => (none, s)

/-! ### Closing gaps (R279) -/

/-- Data of a pool in rising order of home. -/
def insertHomed (h : Homed) : List Homed → List Homed
  | [] => [h]
  | x :: xs => if h.addr ≤ x.addr then h :: x :: xs else x :: insertHomed h xs

/-- Move every datum of a pool down to the lowest place it fits, within the budget: done when a datum finds no gap though
the pool has room in all. -/
def State.closeGaps (s : State) (tier : Tier) : State :=
  let lo := if tier = .t0 then 0 else 0x100_0000_0000
  let hi := if tier = .t0 then 0x300_0000 else 0x800_0000_0000
  let ds := (s.data.filter fun h => decide (lo ≤ h.addr) && decide (h.addr < hi)).foldl (fun l h => insertHomed h l) []
  ds.foldl (fun s h =>
    if s.inFlight h.datum then s
    else
      match (s.gaps (s.pool tier)).find? fun g => decide (h.len ≤ g.2) && decide (g.1 < h.addr) with
      | some g => (s.moveNow h.datum 0 h.addr g.1 h.len).getD s
      | none => s) s

/-- Make room for a datum in a pool: gaps are closed when it finds none although the pool has the bytes. -/
def State.makeRoom (s : State) (tier : Tier) (len : Nat) : State :=
  let gaps := s.gaps (s.pool tier)
  if gaps.any fun g => decide (len ≤ g.2) then s
  else if len ≤ rangeBytes gaps then s.closeGaps tier
  else s

end Sys2Proof.Machine
end

