-- ==== Sys2Proof/Machine/Queues.lean ====
section
/-!
DEFINITION. Machine/Queues.lean: the host queues as rings (R301 to R307), completion and result records (R310, R311), records
held and folded (R330), hole and stream-end records (R340 to R343), queue faults (R331) and the tag window (R326).
-/
namespace Sys2Proof.Machine

/-! ### A queue's registers -/

/-- The offset of a queue's register, from that of HQ0. -/
def qReg (r q : Nat) : Nat := r + 0x40 * q

/-- The queue is enabled. -/
def State.qOn (s : State) (q : Nat) : Bool := s.bit (qReg Reg.HOST_QSTAT q) 0

/-- The queue is in FAULT. -/
def State.qFault (s : State) (q : Nat) : Bool := s.bit (qReg Reg.HOST_QSTAT q) 2

/-- The rings lie in the staging area (LOC 1). -/
def State.qLocal (s : State) (q : Nat) : Bool := s.bit (qReg Reg.HOST_QCTRL q) 2

/-- Entries of the submission ring. -/
def State.sqLen (s : State) (q : Nat) : Nat := 2 ^ s.fld (qReg Reg.HOST_QCTRL q) 8 4

/-- Entries of the completion ring. -/
def State.cqLen (s : State) (q : Nat) : Nat := 2 ^ s.fld (qReg Reg.HOST_QCTRL q) 12 4

/-- The engine's fetch head. -/
def State.sqHead (s : State) (q : Nat) : Nat := s.fld (qReg Reg.HOST_SQHEAD q) 0 16

/-- The engine's completion tail. -/
def State.cqTail (s : State) (q : Nat) : Nat := s.fld (qReg Reg.HOST_CQTAIL q) 0 16

/-- Entries of the completion ring that are free and that no fetched request has reserved (R305). -/
def State.cqFree (s : State) (q : Nat) : Nat :=
  let n := s.cqLen q
  n - 1 - (s.cqTail q + n - (s.queue q).cqHead) % n - (s.queue q).reqs.length

/-- A queue enters FAULT (R331).
(DEDUCED, unsafe: notes/assumptions/54.md) -/
def State.faultQueue (s : State) (q cause : Nat) : State :=
  let r := qReg Reg.HOST_QSTAT q
  ((s.setBit r 2 true).setFld r 8 4 cause).logError 3 cause { source := q, queue := q }

/-- Write ring bytes: in host memory at a bus address, or in T0. -/
def State.ringWrite (s : State) (q a : Nat) (bs : List Byte) : State :=
  if s.qLocal q then s.t0Store a bs else { s with host := cellSetMany s.host a bs }

/-- Read ring bytes.
(DEDUCED, unsafe: notes/assumptions/54.md) -/
def State.ringRead (s : State) (q a n : Nat) : List Byte := if s.qLocal q then cellRead s.t0 a n else cellRead s.host a n

/-! ### Interrupts (R307) -/

/-- `HOST_QMOD.COUNT`, 0 acting as 1. -/
def State.modCount (s : State) (q : Nat) : Nat := max 1 (s.fld (qReg Reg.HOST_QMOD q) 0 8)

/-- Send a queue's vector: every record written so far is signalled. -/
def State.signal (s : State) (q : Nat) : State :=
  (s.sendVector (s.fld (qReg Reg.HOST_QCTRL q) 16 5)).updQueue q fun h => { h with unsignalled := 0 }

/-- Send the vector if the number of unsignalled records has reached COUNT. -/
def State.checkSignal (s : State) (q : Nat) (irqNow : Bool) : State :=
  if s.bit (qReg Reg.HOST_QCTRL q) 24 && (irqNow || decide (s.modCount q ≤ (s.queue q).unsignalled)) &&
      (s.queue q).unsignalled != 0 then s.signal q
  else s

/-- Write a 32-byte record at the completion tail, with PHASE set (R304). -/
def State.writeRecord (s : State) (q : Nat) (irqNow : Bool) (bs : List Byte) : State :=
  let h := s.queue q
  let tail := s.cqTail q
  let b3 := (bs.getD 3 0) ||| (if h.phase then 1 else 0)
  let s := s.ringWrite q (s.reg64 (qReg Reg.HOST_CQBASE_LO q) + 32 * tail) (bs.set 3 b3)
  let next := (tail + 1) % s.cqLen q
  let s := s.setFld (qReg Reg.HOST_CQTAIL q) 0 16 next
  let s := s.updQueue q fun h =>
    { h with
      phase := if next = 0 then !h.phase else h.phase
      unsignalled := h.unsignalled + 1
      oldest := if h.unsignalled = 0 then s.now else h.oldest }
  s.checkSignal q irqNow

/-! ### Result records -/

/-- A completion record (Table 10-3), PHASE apart. -/
def completionBytes (tag status kind stream sqhead value detail tick : Nat) (replay : Bool) : List Byte :=
  leBytes 2 tag ++ [BitVec.ofNat 8 status, if replay then 2 else 0, BitVec.ofNat 8 kind, BitVec.ofNat 8 stream] ++
  leBytes 2 sqhead ++ leBytes 8 value ++ leBytes 4 detail ++ leBytes 4 tick ++ leBytes 8 0

/-- A result record (Table 10-4), PHASE apart. -/
def resultBytes (rtype lane sc count rseq tick : Nat) (body : List Byte) : List Byte :=
  leBytes 2 0xFFFF ++ [BitVec.ofNat 8 rtype, 4, BitVec.ofNat 8 lane, BitVec.ofNat 8 sc, BitVec.ofNat 8 count, 0] ++
  leBytes 4 rseq ++ leBytes 4 tick ++ (body ++ List.replicate (16 - body.length) 0)

/-- A hole's bytes 0x10–0x1F (Table 11-1). -/
def holeBytes (first last cause lanes : Nat) (multi ended : Bool) (dropped : Nat) : List Byte :=
  leBytes 4 first ++ leBytes 4 last ++
  [BitVec.ofNat 8 cause, BitVec.ofNat 8 lanes, (if multi then 1 else 0) + (if ended then 2 else 0), 0] ++
  leBytes 4 (satNat 32 dropped)

/-- A control core runs: READY has been reached, or the core is CC0 and the main domain is released (R498, R516); the engine is not
powering down (R500); and the core does not restart. -/
def State.coreUp (s : State) (core : Nat) : Bool :=
  !s.restarting.contains core &&
  (match s.aon.phase with
    | .powerupB | .on => !s.aon.held && (core = 0 || s.bit Reg.GLOBAL_PWRSTAT 0)
    | .off | .powerupA | .powerdown => false)

/-- A queue takes result records: enabled, not faulted, an entry free, and CC1 runs (R330, Table 11-7). -/
def State.resultRoom (s : State) (q : Nat) : Bool := s.coreUp 1 && s.qOn q && !s.qFault q && decide (0 < s.cqFree q)

/-- A STREAM_OPEN that created a stream has not had its completion posted (O1, R334). -/
def State.openUnposted (s : State) (sc : Nat) : Bool :=
  s.queues.any fun h => h.reqs.any fun r => r.kind = 0x20 && match r.state with
    | .done 0 _ v _ => v = sc
    | _ => false

/-- Show the records held for a queue (Table 10-14). -/
def State.showHeld (s : State) (q : Nat) : State :=
  let n := (s.streams.map fun e => if e.2.rqueue = q then e.2.held.length else 0).sum +
    (s.orphans.filter fun o => o.1 = q).length
  s.setFld (qReg Reg.HOST_QSTAT q) 16 8 (min 255 (n / 4))

/-- Fold a record that is not held into the hole of cause 6 (R330, R342). -/
def foldRecord (f : Option Fold) (rtype lane tick first : Nat) : Fold :=
  let lanes := if rtype = 1 then 2 ^ lane else if rtype = 2 then 3 else 0
  match f with
  | none => ⟨first, tick, lanes, 1, rtype = 2⟩
  | some f => { f with last := tick, lanes := f.lanes ||| lanes, dropped := f.dropped + 1, multi := f.multi || rtype = 2 }

/-- The record of a fold (R330). -/
def Fold.bytes (f : Fold) (sc rseq tick : Nat) : List Byte :=
  resultBytes 2 0xFF sc 0 rseq tick (holeBytes f.first f.last 6 f.lanes f.multi false f.dropped)

/-- Post a result record of a stream: written where the queue has room and nothing of the stream waits, held otherwise up to
256, folded beyond that; a stream-end record is always held. `first` is the first tick a folded record covers. -/
def State.postResult (s : State) (sc rtype lane count tick first : Nat) (body : List Byte) : State :=
  match s.stream sc with
  | none => s
  | some t =>
    let q := t.rqueue
    let rec1 := resultBytes rtype lane (if t.homeChip.isSome then t.homeSc else sc) count t.rseq tick body
    let next := { t with rseq := (t.rseq + 1) % 2 ^ 32 }
    match t.homeChip with
    | some c => (s.setStream sc next).peerMsg c 4 0x44 (t.homeSc :: rec1.map (·.toNat)) 32
    | none =>
    if t.held.isEmpty && t.folded.isNone && !(s.orphans.any fun o => o.1 = q) && s.resultRoom q && !s.openUnposted sc then
      (s.setStream sc next).writeRecord q false rec1
    else if rtype = 4 then
      match t.folded with
      | some f =>
        let fin := resultBytes rtype lane sc count (t.rseq + 1) tick body
        (s.setStream sc { t with rseq := (t.rseq + 2) % 2 ^ 32, folded := none,
                                 held := t.held ++ [f.bytes sc t.rseq tick, fin] }).showHeld q
      | none => (s.setStream sc { next with held := t.held ++ [rec1] }).showHeld q
    else if t.folded.isSome || decide (256 ≤ t.held.length) then
      s.setStream sc { t with folded := some (foldRecord t.folded rtype lane tick first) }
    else (s.setStream sc { next with held := t.held ++ [rec1] }).showHeld q

/-- Write the records held for a queue while there is room: those of streams that have ended first, then each stream's in
order, then the hole of the records that were folded. `fuel` bounds the records. -/
def State.flushHeld (s : State) (q : Nat) : Nat → State
  | 0 => s
  | fuel + 1 =>
    if !s.resultRoom q then s.showHeld q
    else
      match s.orphans.find? fun o => o.1 = q with
      | some o =>
        ({ s with orphans := s.orphans.erase o }.writeRecord q false o.2).flushHeld q fuel
      | none =>
        match s.streams.find? fun e => e.2.rqueue = q && (!e.2.held.isEmpty || e.2.folded.isSome) && !s.openUnposted e.1 with
        | none => s.showHeld q
        | some (sc, t) =>
          match t.held, t.folded with
          | b :: bs, _ => ((s.setStream sc { t with held := bs }).writeRecord q false b).flushHeld q fuel
          | [], some f =>
            let t' := { t with rseq := (t.rseq + 1) % 2 ^ 32, folded := none }
            ((s.setStream sc t').writeRecord q false (f.bytes sc t.rseq s.tickNo)).flushHeld q fuel
          | [], none => s

/-- Close a stream's open hole and post its record, its LAST the tick given (R341). -/
def State.postHole (s : State) (sc last tick : Nat) (ended : Bool) : State :=
  match s.stream sc with
  | none => s
  | some t =>
    match t.hole with
    | none => s
    | some h =>
      let till := if bitOf h.lanes 2 then max t.mutedTo (last + 1) else t.mutedTo
      (s.setStream sc { t with hole := none, mutedTo := till }).postResult sc 2 0xFF 0 tick h.first
        (holeBytes h.first last h.cause h.lanes h.multi ended 0)

/-! ### Requests in a queue -/

/-- Store a request's result in its tag window entry (R326). -/
def setWindow (w : List TagEntry) (tag : Nat) (r : Nat × Nat × Nat) : List TagEntry :=
  match w with
  | [] => []
  | e :: es => if e.tag = tag then { e with result := some r } :: es else e :: setWindow es tag r

/-- A request that has not settled. -/
def Req.open_ (r : Req) : Bool :=
  match r.state with
  | .done .. => false
  | _ => true

/-- Change the first request of a queue that has a tag, is no replay and has not settled. -/
def updReq (tag : Nat) (f : Req → Req) : List Req → List Req
  | [] => []
  | r :: rs => if r.tag = tag && !r.replay && r.open_ then f r :: rs else r :: updReq tag f rs

/-- Settle a request: its completion waits for its place (O1), and its result enters the replay store. -/
def State.settle (s : State) (q tag status detail value stream : Nat) : State :=
  s.updQueue q fun h =>
    { h with reqs := updReq tag (fun r => { r with state := .done status detail value stream }) h.reqs,
             window := setWindow h.window tag (status, detail, value) }

/-- Mark a request as acting. -/
def State.actReq (s : State) (q tag : Nat) : State :=
  s.updQueue q fun h => { h with reqs := updReq tag (fun r => { r with state := .acting }) h.reqs }

/-- The fetched request of a kind with a tag that waits to act. -/
def State.waitingReq (s : State) (q kind tag : Nat) : Option Req :=
  (s.queue q).reqs.find? fun r => r.kind = kind && r.tag = tag && !r.replay && r.state = .waiting

/-- Requests of some kinds in a state, with their queues, queue by queue in fetch order.
(DEDUCED, unsafe: notes/assumptions/30.md) -/
def State.reqsIn (s : State) (st : ReqState) (kinds : List Nat) : List (Nat × Req) :=
  (s.queues.zipIdx).flatMap fun h => (h.1.reqs.filter fun r => kinds.contains r.kind && r.state = st).map fun r => (h.2, r)

/-- The turn of a fallow request comes: it acts in its step of the next window (R56, R315).
(DEDUCED, unsafe: notes/assumptions/30.md) -/
def State.dueReq (s : State) (q kind tag : Nat) : State :=
  match s.coreUp 1, s.waitingReq q kind tag with
  | true, some _ => s.updQueue q fun h => { h with reqs := updReq tag (fun r => { r with state := .due }) h.reqs }
  | _, _ => s

/-- Settle every request still waiting or acting that names a stream (R345 step 7). -/
def State.settleStream (s : State) (sc : Nat) (status : Nat → Nat) : State :=
  (s.queues.zipIdx).foldl (fun s h =>
    (h.1.reqs.filter fun r => r.stream = sc && !r.replay && r.open_ &&
      0x21 ≤ r.kind && r.kind < 0x40).foldl
      (fun s r => s.settle h.2 r.tag (status r.kind) 0 0 sc) s) s

/-- The buffer of a request lies wholly in valid host window entries or in the applied staging area (R300). -/
def State.bufferOk (s : State) (a len : Nat) (write : Bool) : Bool :=
  match s.place a, s.place (a + len - 1) with
  | .t2 _ _, .t2 _ _ => s.hostWindowOk a len write
  | .t0 _, .t0 _ => match s.staging with
    | some (b, n) => decide (b ≤ a) && decide (a + len ≤ b + n)
    | none => false
  | _, _ => false

end Sys2Proof.Machine
end

