-- ==== Sys2Proof/Machine/Audio.lean ====
section
/-!
DEFINITION. Machine/Audio.lean: the audio ports (R424 to R440): frames, elastic buffers, slips, zero frames, re-priming, rate
measurement and non-audio payloads; the output paths of the Quern behind their jobs (R448 to R451); what a tick edge does to
all of them (R429 to R432).
-/
namespace Sys2Proof.Machine

/-! ### Ports -/

/-- The offset of a port's register, from that of AP0. -/
def apReg (r k : Nat) : Nat := r + 0x1000 * k

/-- A port by its number. -/
def State.ap (s : State) (k : Nat) : AudioPort := (s.audio.ports[k]?).getD idleAudioPort

/-- Replace every port. -/
def State.setAps (s : State) (ps : List AudioPort) : State := { s with audio := { s.audio with ports := ps } }

/-- Replace every output. -/
def State.setOuts (s : State) (os : List (Nat × AudioOut)) : State := { s with audio := { s.audio with outs := os } }

/-- Change a port. -/
def State.updAp (s : State) (k : Nat) (f : AudioPort → AudioPort) : State := s.setAps (s.audio.ports.set k (f (s.ap k)))

/-- SLOTS of a port. -/
def State.apSlots (s : State) (k : Nat) : Nat := s.fld (apReg Reg.AP_FRAME k) 0 5 + 1
/-- SLOTW. -/
def State.apSlotW (s : State) (k : Nat) : Nat := s.fld (apReg Reg.AP_FRAME k) 8 5 + 1
/-- Bits of a sample that a slot carries: min(SLOTW, DATAW) (R426). -/
def State.apWidth (s : State) (k : Nat) : Nat :=
  min (s.apSlotW k) ([16, 20, 24, 32].getD (s.fld (apReg Reg.AP_FRAME k) 16 2) 32)
/-- RATE. -/
def State.apRate (s : State) (k : Nat) : Nat := s.fld (apReg Reg.AP_FSYNC k) 16 3
/-- The nominal rate in 100 Hz. -/
def State.apRate100 (s : State) (k : Nat) : Nat := rate100 (s.apRate k)
/-- The tick period in 0.5 ms. -/
def State.period (s : State) : Nat := s.fld Reg.TICK_PERIOD 0 7
/-- `N_p`, the frames per tick (R427).
(DEDUCED, unsafe: notes/assumptions/41.md) -/
def State.apFrames (s : State) (k : Nat) : Nat := s.apRate100 k * s.period / 20
/-- The port is enabled. -/
def State.apOn (s : State) (k : Nat) : Bool := s.bit (apReg Reg.AP_CTRL k) 0
/-- The port is enabled with a valid configuration. -/
def State.apActive (s : State) (k : Nat) : Bool := s.bit (apReg Reg.AP_STAT k) 0

/-- The configuration of a port is valid (R427). -/
def State.apValid (s : State) (k : Nat) : Bool :=
  let bc := s.apSlots k * s.apSlotW k
  decide (s.apRate100 k * bc ≤ 245760) && decide (s.fld (apReg Reg.AP_FSYNC k) 0 10 < bc) &&
  decide (s.fld (apReg Reg.AP_FRAME k) 24 5 < bc) && s.apRate100 k * s.period % 20 = 0

/-- An interrupt status bit of a port.
(DEDUCED, unsafe: notes/assumptions/64.md) -/
def State.apRaise (s : State) (k b : Nat) : State := s.raise .ap (apReg Reg.AP_STAT k) b

/-- A port's configuration has been applied at a fallow opening (R427, R428): a port that is enabled is valid or sets CFGERR,
and is re-primed at the next edge; a port that is not is power-gated and loses its buffers. -/
def State.applyPort (s : State) (k : Nat) : State :=
  let r := apReg Reg.AP_STAT k
  if s.apOn k then
    let s := s.updAp k fun p => { p with reprime := true }
    if s.apValid k then s.setBit r 0 true else (s.setBit r 0 false).apRaise k 8
  else
    let s := ((s.setBit r 0 false).setBit r 1 false).setBit r 2 false
    let s := (s.setBit r 3 false).setReg (apReg Reg.AP_NASLOTS k) 0
    s.updAp k fun p => { idleAudioPort with rateMute := p.rateMute }

/-- A received slot as a signed 32-bit word, its bits at the top (R426). -/
def rxSample (slotW w : Nat) (v : Nat) : Int := signedOf w (bitsOf v (slotW - w) w) * (2 ^ (32 - w) : Nat)

/-- A sample as it is transmitted: the top bits of the word (R426). -/
def txSample (w : Nat) (v : Int) : Int := v.fdiv (2 ^ (32 - w) : Nat) * (2 ^ (32 - w) : Nat)

/-- A frame with some slots 0. -/
def zeroSlots (f : List Int) (keep : Nat → Bool) : List Int := f.zipIdx.map fun x => if keep x.2 then x.1 else 0

/-- Count zero frames (R431).
(DEDUCED, unsafe: notes/assumptions/41.md) -/
def State.countZeros (s : State) (k n : Nat) : State :=
  if n = 0 then s
  else ((s.addSat (apReg Reg.AP_ZEROCNT k) 0 32 n).apRaise k 15).updAp k fun p => { p with reprime := true }

/-! ### Non-audio payloads (R439, R440) -/

/-- The preamble Pa at the top of a sample. -/
def samplePa : Int := signedOf 16 0xF872 * 65536
/-- The preamble Pb at the top of a sample. -/
def samplePb : Int := signedOf 16 0x4E1F * 65536

/-- A slot is inspected. -/
def State.inspects (s : State) (k slot : Nat) : Bool :=
  decide (16 ≤ s.apSlotW k) && decide (slot < s.apSlots k) && s.bit (apReg Reg.AP_INMASK k) slot

/-- Slots are inspected as a pair. -/
def State.paired (s : State) (k slot : Nat) : Bool := s.bit (apReg Reg.AP_NACFG k) (slot / 2)

/-- Show the muted slots; when they become non-zero the port reports it.
(DEDUCED, unsafe: notes/assumptions/64.md) -/
def State.showMuted (s : State) (k : Nat) : State :=
  let r := apReg Reg.AP_NASLOTS k
  let old := s.reg r
  let s := s.setReg r ((s.ap k).muted.foldl (fun (w : Word) m => wordSetField w m.1 1 1) 0)
  let s := s.setBit (apReg Reg.AP_STAT k) 3 (s.reg r != 0)
  if old = 0 && s.reg r != 0 then (s.apRaise k 13).logViolation 5 1 { source := k } else s

/-- Inspect a received frame: the frame before it enters the input buffer, with the slots of a detection muted from their Pa
frame on. -/
def State.inspect (s : State) (k : Nat) (f : List Int) : State :=
  let p := s.ap k
  let slots := (List.range 32).filter (s.inspects k)
  let hit := fun i => f.getD i 0
  let singles := slots.filter fun i => !s.paired k i
  let late := singles.filter fun i => p.sawPa.contains i && hit i = samplePb
  let pairs := slots.filter fun i => s.paired k i && i % 2 = 0 && slots.contains (i + 1) && hit i = samplePa && hit (i + 1) = samplePb
  let fresh := late ++ pairs.flatMap fun i => [i, i + 1]
  let muted0 := late.foldl (fun m i => keyPut m i 0) p.muted
  let muted := fresh.foldl (fun m i => keyPut m i 0) (p.muted.map fun m => (m.1, m.2 + 1))
  let out := match p.lag with
    | some g => [zeroSlots g fun i => (keyGet muted0 i).isNone]
    | none => []
  let p' := { p with
    lag := some f, input := p.input ++ out, muted := muted, sawPa := singles.filter fun i => hit i = samplePa }
  (s.updAp k fun _ => p').showMuted k

/-- A frame enters the input buffer, over the inspection where it is enabled. -/
def State.receive (s : State) (k : Nat) (f : List Int) : State :=
  let s := if s.bit (apReg Reg.AP_NACFG k) 31 then s.inspect k f
    else (s.updAp k fun p => { p with input := p.input ++ p.lag.toList ++ [f], lag := none, muted := [], sawPa := [] }).showMuted k
  s.updAp k fun p => { p with input := newest 4096 p.input }

/-! ### Outputs -/

/-- An output by its number. -/
def State.out (s : State) (o : Nat) : Option AudioOut := keyGet s.audio.outs o

/-- Enter or replace an output. -/
def State.setOut (s : State) (o : Nat) (x : AudioOut) : State := s.setOuts (keyPut s.audio.outs o x)

/-- Outputs bound to a port. -/
def State.outsOn (s : State) (k : Nat) : List (Nat × AudioOut) := s.audio.outs.filter fun o => o.2.bind.port = k

/-- A factor of a ramp over `n` samples, at sample `j`: rising.
(DEDUCED, unsafe: notes/assumptions/41.md) -/
def rampUp (n j : Nat) : Int := if j < n then ((32768 * j / n : Nat) : Int) else 32768

/-- Falling: 0 past its end.
(DEDUCED, unsafe: notes/assumptions/41.md) -/
def rampDown (n j : Nat) : Int := if j < n then ((32768 * (n - j) / n : Nat) : Int) else 0

/-- Samples of a 5 ms ramp at a port's rate. -/
def State.rampLen (s : State) (k : Nat) : Nat := s.apRate100 k / 2

/-- The limiter over the samples of a tick (R449): `lambda` is its delay.
(DEDUCED, unsafe: notes/assumptions/41.md) -/
def limitRun (rel thr : Nat) : List Int → Nat → List Int → List Int × List Int × Nat
  | delay, g, [] => ([], delay, g)
  | delay, g, v :: vs =>
    let win := delay ++ [v]
    let peak := win.foldl (fun m x => max m x.natAbs) 0
    let need := if peak ≤ thr then 32768 else thr * 32768 / peak
    let g := min need (g + rel)
    let out := sat16 (rneShift (win.headD 0 * (g : Int)) 15)
    let r := limitRun rel thr (win.drop 1) g vs
    (out :: r.1, r.2.1, r.2.2)

/-- Run 24 kHz samples through an output's path with a ramp factor for each port-rate sample: resampling, gain and limiter
(R448, R449). -/
def State.playPath (s : State) (x : AudioOut) (y : List Int) (tail : List Int) (a : Nat → Int) (loud : Bool) :
    List Int × OutPath :=
  let k := x.bind.port
  let lm := quernRatio (s.apRate k)
  let z := resampleI lm.1 lm.2 x.path.hist y
  let n := s.rampLen k
  let g0 : Int := x.path.gain
  let g1 : Int := x.edgeGain
  let v := z.zipIdx.map fun p =>
    let g := if p.2 < n then g0 + ((g1 - g0) * (p.2 : Int)).fdiv n else g1
    sat16 (rneShift (p.1 * g * a p.2) 30)
  let lim := limitRun s.audio.lim.1 s.audio.lim.2 x.path.delay x.path.limGain v
  (lim.1, { tail := tail, hist := newest 48 (x.path.hist ++ y), delay := lim.2.1, limGain := lim.2.2, gain := x.edgeGain,
            loud := loud })

/-- The samples of a tick that is silenced (R450): the saved tail ramped down, then zeros. -/
def State.silence (s : State) (x : AudioOut) : List Int × OutPath :=
  let h := 12 * s.period
  let zeros := List.replicate h 0
  let y := if x.path.loud then (x.path.tail ++ zeros).take h else zeros
  let n := s.rampLen x.bind.port
  s.playPath x y zeros (fun j => if x.path.loud then rampDown n j else 0) false

/-- An output's path with nothing behind it. -/
def State.freshPath (s : State) (b : OutBind) : OutPath :=
  { tail := List.replicate (12 * s.period) 0, hist := List.replicate 48 0,
    delay := List.replicate (s.apRate100 b.port / 10) 0, limGain := 32768,
    gain := s.fld (Reg.QRN_OGAIN + 8 * b.out) 0 16, loud := false }

/-- Show an output in `QRN_OSTAT`. -/
def State.showOut (s : State) (o : Nat) : State :=
  let r := Reg.QRN_OSTAT + 8 * o
  match s.out o with
  | none => s.setReg r 0
  | some x =>
    s.setReg r (BitVec.ofNat 32 (2 ^ 31 + (if x.path.loud then 0 else 2 ^ 30) + x.sc * 2 ^ 16 + x.bind.port * 2 ^ 12 +
      (if x.bind.two then 2 ^ 8 else 0) + x.bind.slot))

/-- The lowest free output number.
(DEDUCED, unsafe: notes/assumptions/59.md) -/
def State.freeOut (s : State) : Option Nat := (List.range 16).find? fun o => (s.out o).isNone

/-- Slots that an output takes. -/
def OutBind.slots (b : OutBind) : List Nat := if b.two then [b.slot, b.slot + 1] else [b.slot]

/-- A binding's output leaves: it ramps out, and is freed when that ends (R321, R448).
(DEDUCED, unsafe: notes/assumptions/59.md) -/
def State.leaveOut (s : State) (sc : Nat) : State :=
  let s := s.setOuts (s.audio.outs.map fun (o : Nat × AudioOut) =>
    if o.2.sc = sc then (o.1, { o.2 with leaving := true }) else o)
  s.updStream sc fun t => { t with outBind := none }

/-- The number a new output takes: a free one, or else its stream's own old one, or one that is ramping out.
(DEDUCED, unsafe: notes/assumptions/59.md) -/
def State.newOut (s : State) (sc : Nat) : Option Nat :=
  match s.freeOut with
  | some o => some o
  | none => match s.audio.outs.find? fun o => o.2.sc = sc with
    | some o => some o.1
    | none => (s.audio.outs.find? fun o => o.2.leaving).map Prod.fst

/-- Bind a stream's output: STATUS of the answer, 0 when bound (R321).
(DEDUCED, unsafe: notes/assumptions/59.md) -/
def State.bindOut (s : State) (sc port slot : Nat) (two : Bool) : Nat × State :=
  let mine := fun (x : AudioOut) => x.sc = sc
  let slots := if two then [slot, slot + 1] else [slot]
  let clash := s.audio.outs.any fun o => !mine o.2 && o.2.bind.port = port && o.2.bind.slots.any slots.contains
  let others := (s.audio.outs.filter fun o => !mine o.2 && !o.2.leaving).length
  match (if 16 ≤ others then none else s.newOut sc) with
  | none => (0x03, s)
  | some o =>
    if clash || slots.any (fun i => decide (s.apSlots port ≤ i)) then (0x0E, s)
    else
      let s := s.leaveOut sc
      let b : OutBind := { port := port, slot := slot, two := two, out := o }
      let x : AudioOut := { bind := b, sc := sc, leaving := false, path := s.freshPath b, job := none, play := false,
                            edgeGain := s.fld (Reg.QRN_OGAIN + 8 * o) 0 16 }
      let s := (s.setOut o x).updStream sc fun t => { t with outBind := some b }
      (0, s.showOut o)

/-! ### A tick edge (R429 to R432, R450) -/

/-- Commit what an output plays of the tick that ended, or what silences it. -/
def State.commitOut (s : State) (o : Nat) (x : AudioOut) : List Int × State :=
  let r := match x.play && !x.leaving, x.job with
    | true, some j => j
    | _, _ => s.silence x
  let gone := x.leaving && !r.2.loud && !x.path.loud
  let x' := { x with path := r.2, job := none, play := false, edgeGain := s.fld (Reg.QRN_OGAIN + 8 * o) 0 16 }
  let s := if gone then s.setOuts (keyDel s.audio.outs o) else s.setOut o x'
  (r.1, s.showOut o)

/-- The frames that a port's outputs commit, slot by slot. -/
def mixFrames (slots n : Nat) (outs : List (OutBind × List Int)) : List (List Int) :=
  (List.range n).map fun j => (List.range slots).map fun i =>
    match outs.find? fun o => o.1.slots.contains i with
    | some o => o.2.getD j 0 * 65536
    | none => 0

/-- Commit the frames of every output of a port. -/
def State.commitPort (s : State) (k : Nat) : State :=
  let outs := s.outsOn k
  if outs.isEmpty then s.updAp k fun p => { p with output := [], used := 0 }
  else
    let r := outs.foldl (fun (acc : List (OutBind × List Int) × State) o =>
      let (v, s) := acc.2.commitOut o.1 o.2
      (acc.1 ++ [(o.2.bind, v)], s)) ([], s)
    let frames := mixFrames (s.apSlots k) (s.apFrames k) r.1
    r.2.updAp k fun p => { p with output := p.output ++ frames.drop p.used, used := 0 }

/-- A buffer brought to its expected fill (R432), or moved one frame toward it when it is further than `w` away (R431);
answers whether it slipped. -/
def fitBuffer (reprime : Bool) (e w : Nat) (buf : List (List Int)) : List (List Int) × Bool :=
  if reprime then
    (if buf.length < e then List.replicate (e - buf.length) [] ++ buf else newest e buf, false)
  else if e + w < buf.length then (buf.drop 1, true)
  else if buf.length + w < e && !buf.isEmpty then (buf.headD [] :: buf, true)
  else (buf, false)

/-- What an actual edge does on one port: `ticks` tick numbers have passed since the last edge served, and the new tick has a
lag of `lag` µs. -/
def State.portEdge (s : State) (k ticks lag : Nat) : State :=
  let s := s.commitPort k
  if !s.apActive k then s.updAp k fun p => { p with takenIn := [], takenLoop := [] }
  else
    let n := s.apFrames k
    let r := s.apRate100 k
    let w := r / 20
    let late := lag * r / 10000
    let eIn := n + r / 10 + late
    let eOut := n + r * (s.fld Reg.TICK_SLIP 0 6 + 10) / 100 - late
    let p := s.ap k
    let skipped := (ticks - 1) * n
    let re := p.reprime || decide (1 < ticks)
    let inB := fitBuffer re eIn w (p.input.drop skipped)
    let loB := fitBuffer re eIn w (p.loop.drop skipped)
    let hasOut := !(s.outsOn k).isEmpty
    let ouB := if hasOut then fitBuffer re eOut w p.output else (p.output, false)
    let inSlips := (if inB.2 then 1 else 0) + (if loB.2 then 1 else 0)
    let outSlips := if ouB.2 then 1 else 0
    let mute := s.bit (apReg Reg.AP_RATECFG k) 31 && s.bit (apReg Reg.AP_STAT k) 2
    let quietly := fun (fs : List (List Int)) => if mute then fs.map fun _ => [] else fs
    let missing := (n - inB.1.length) + (n - loB.1.length)
    let p' := { p with
      input := inB.1.drop n, loop := loB.1.drop n, output := ouB.1, reprime := false, rateMute := mute,
      takenIn := quietly (inB.1.take n), takenLoop := quietly (loB.1.take n) }
    let s := s.updAp k fun _ => p'
    let s := (s.addSat (apReg Reg.AP_SLIPCNT k) 0 16 inSlips).addSat (apReg Reg.AP_SLIPCNT k) 16 16 outSlips
    let s := if inSlips + outSlips = 0 then s else s.apRaise k 14
    s.countZeros k missing

/-- The stand-alone ramp ends (R354): at the first edge after CC5 has returned each output ramps up, and each stream whose
output was bound receives a hole of cause 8. -/
def State.endRamp (s : State) : State :=
  match s.audio.rampTick, s.audio.rampBack with
  | some first, true =>
    let s := s.setAps (s.audio.ports.map fun (p : AudioPort) =>
      { p with downAt := none, upAt := if p.downAt.isSome then some 0 else none })
    let s := { s with audio := { s.audio with rampTick := none, rampBack := false } }
    let s := s.setBit Reg.QRN_STAT 1 false
    s.streams.foldl (fun (s : State) (e : Nat × Stream) =>
      if e.2.outBind.isSome then
        s.postResult e.1 2 0xFF 0 (s.tickNo - 1) first (holeBytes first (s.tickNo - 1) 8 4 false false 0)
      else s) s
  | _, _ => s

/-- What an actual edge does in the audio blocks. `TICK_COUNT` already holds the new tick's number. -/
def State.audioEdge (s : State) (lag : Nat) : State :=
  let ticks := match s.audio.served with
    | some m => max 1 (s.tickNo - m)
    | none => 1
  let s := (List.range 4).foldl (fun s k => s.portEdge k ticks lag) s
  let s := { s with audio := { s.audio with served := some s.tickNo, lim := (s.fld Reg.QRN_LIM 16 16, s.fld Reg.QRN_LIM 0 16) } }
  s.endRamp

/-- Ticks have started: every buffer is re-primed at the first edge (R432). -/
def State.audioStart (s : State) : State :=
  let s := { s with audio := { s.audio with served := none } }
  s.setAps (s.audio.ports.map fun (p : AudioPort) => { p with reprime := true })

/-- An output plays the tick in progress (R450); `cut` says that some slice ended under R62. -/
def State.playsTick (s : State) (cut : Bool) (sc : Nat) : Bool :=
  match s.stream sc, s.rows.find? fun x => x.2 = sc with
  | some t, some x =>
    !cut && !(s.tick.cls = .shed && t.best) && !s.unreadAll && !s.unreadRows.contains x.1 &&
    decide (t.mutedTo ≤ s.tickNo) &&
    (match t.hole with
      | some h => !(bitOf h.lanes 2 && decide (h.first ≤ s.tickNo))
      | none => true)
  | _, _ => false

/-- The arming step latches whether each output plays the tick (R450). -/
def State.latchPlay (s : State) : State :=
  let cut := (List.range 33).any fun e => bitOf s.plan.hdr.engMask e && s.bit (Reg.PLAN_ENGSTAT + 4 * e) 31
  s.setOuts (s.audio.outs.map fun (o : Nat × AudioOut) => (o.1, { o.2 with play := s.playsTick cut o.2.sc }))

/-- The stand-alone ramp begins (R354, R451). -/
def State.beginRamp (s : State) : State :=
  if s.audio.rampTick.isSome then s
  else
    let s := { s with audio := { s.audio with rampTick := some s.tickNo } }
    let s := s.setAps (s.audio.ports.map fun (p : AudioPort) => { p with downAt := some 0, upAt := none })
    s.setBit Reg.QRN_STAT 1 true

/-! ### Frames on the wire -/

/-- A transmitted frame under the stand-alone ramp (R354, R451). -/
def State.rampFrame (s : State) (k : Nat) (f : List Int) : List Int × State :=
  let n := s.rampLen k
  let p := s.ap k
  let by_ := fun (a : Int) => f.map fun x => rneShift (x * a) 15
  match p.downAt, p.upAt with
  | some j, _ => (by_ (rampDown n j), s.updAp k fun p => { p with downAt := some (j + 1) })
  | none, some j =>
    (by_ (rampUp n j), s.updAp k fun p => { p with upAt := if j + 1 < n then some (j + 1) else none })
  | none, none => (f, s)

/-- A port transmits one frame, which enters its loopback buffer (R429, R431).
(DEDUCED, unsafe: notes/assumptions/41.md) -/
def State.transmit (s : State) (k : Nat) : State :=
  let p := s.ap k
  let zero := List.replicate (s.apSlots k) 0
  let (f, s) := match p.output with
    | f :: rest => (f, s.updAp k fun p => { p with output := rest })
    | [] =>
      if (s.outsOn k).isEmpty then (zero, s)
      else
        let pending := (s.outsOn k).any fun o => o.2.job.isSome
        (zero, (s.countZeros k 1).updAp k fun p => { p with used := if pending then p.used + 1 else p.used })
  let (f, s) := s.rampFrame k f
  let sent := f.map (txSample (s.apWidth k))
  s.updAp k fun p => { p with loop := newest 4096 (p.loop ++ [sent]) }

/-- AUDIO_FRAME (R425, R426, R429, R437). -/
def State.audioFrame (s : State) (k : Nat) (f : TdmFrame) : State :=
  if !s.apOn k then s
  else
    let s := s.reach f.time
    let r := apReg Reg.AP_STAT k
    let back := !s.bit r 1
    let s := (s.setBit r 1 true).updAp k fun p => { p with lastStart := some f.time, reprime := p.reprime || back }
    let broken := f.early && !s.bit (apReg Reg.AP_CTRL k) 1
    let s := if broken then
        ((s.apRaise k 12).logViolation 5 4 { source := k }).addSat (apReg Reg.AP_ZEROCNT k) 0 32 1
      else s
    if !s.apActive k then s
    else
      let mask := apReg Reg.AP_INMASK k
      let got := (List.range (s.apSlots k)).map fun i =>
        if !broken && s.bit mask i then rxSample (s.apSlotW k) (s.apWidth k) (f.slots.getD i 0) else 0
      (s.receive k got).transmit k

/-- A TDM frame of a port is received into and transmitted from its buffers. -/
def execAudioFrame (port : Fin 4) (f : TdmFrame) (s : State) : Host.Outcome State Fault Refusal := .next <| s.audioFrame port f

/-- The frames after which a muted slot is unmuted: HOLD × 10 ms at the nominal rate (R440).
(DEDUCED, unsafe: notes/assumptions/64.md) -/
def State.holdFrames (s : State) (k : Nat) : Nat := s.fld (apReg Reg.AP_NACFG k) 16 8 * s.apRate100 k

/-- A muted slot for which HOLD × 10 ms of frames have passed without a detection is unmuted (R440).
(DEDUCED, unsafe: notes/assumptions/64.md) -/
def execNonaudioHoldExpiry (port : Fin 4) (slot : Fin 32) (s : State) : Host.Outcome State Fault Refusal :=
  .next <|
    match keyGet (s.ap port).muted slot with
    | some n =>
      if s.holdFrames port ≤ n then (s.updAp port fun p => { p with muted := keyDel p.muted slot }).showMuted port else s
    | none => s

/-- `DEV` of a window of `n` frame starts and `c` reference cycles (R434), in 10 ppm. -/
def rateDev (r100 n c : Nat) : Int :=
  let den : Int := ((r100 * 100 * c : Nat) : Int)
  clampInt (-32767) 32767 (rneDiv (((((n - 1) * 38400000 : Nat) : Int) - den) * 100000) den)

/-- A 100 ms window has been measured (R434 to R436). -/
def execRateWindow (port : Fin 4) (frames cycles : Nat) (s : State) : Host.Outcome State Fault Refusal :=
  .next <|
    let k : Nat := port
    let rate := apReg Reg.AP_RATE k
    let devr := apReg Reg.AP_RATEDEV k
    let stat := apReg Reg.AP_STAT k
    if !s.apOn k then s
    else if frames < 2 || cycles = 0 then s.setBit rate 31 false
    else
      let first := !s.bit rate 31
      let dev := rateDev (s.apRate100 k) frames cycles
      let s := s.setReg rate (BitVec.ofNat 32 (2 ^ 31 + satNat 20 (rneNat ((frames - 1) * 384000000) cycles)))
      let s := s.setFld devr 0 16 (unsignedOf 16 dev)
      let rep := signedOf 16 (s.fld devr 16 16)
      let s := if first || decide (s.fld (apReg Reg.AP_RATECFG k) 0 8 < (dev - rep).natAbs) then
          (s.setFld devr 16 16 (unsignedOf 16 dev)).apRaise k 9
        else s
      if s.fld (apReg Reg.AP_RATECFG k) 16 8 * 10 < dev.natAbs then
        if s.bit stat 2 then s
        else ((s.setBit stat 2 true).apRaise k 10).logViolation 5 2 { source := k }
      else s.setBit stat 2 false

/-- A port has seen no frame start for 1 ms (R437). A port in master mode makes its own. -/
def execAudioNoclk (port : Fin 4) (s : State) : Host.Outcome State Fault Refusal :=
  .next <|
    let k : Nat := port
    let stat := apReg Reg.AP_STAT k
    if s.apOn k && !s.bit (apReg Reg.AP_CTRL k) 1 && (s.bit stat 1 || !s.bit stat 11) then
      let s := match (s.ap k).lastStart with
        | some t => s.reach (t + 1000)
        | none => s
      ((s.setBit stat 1 false).apRaise k 11).logViolation 5 3 { source := k }
    else s

end Sys2Proof.Machine
end

