-- ==== Sys2Proof/Machine/FixJob.lean ====
section
/-!
DEFINITION. Machine/FixJob.lean: the fixed-function jobs that FIXJOB runs (R162): the framing job of the Flail with its seat
zones (R441 to R447), the output job of the Quern (R448), and the scale and crop job of the Glume (R460, R461).
-/
namespace Sys2Proof.Machine

/-! ### Seat zones (R441) -/

/-- The offset of a zone's register, from that of zone 0. -/
def zoneReg (r z : Nat) : Nat := r + 0x10 * z

/-- Members of a mask, in ascending order. -/
def maskBits (w n : Nat) : List Nat := (List.range n).filter (bitOf w)

/-- Microphone slots of a zone. -/
def State.zoneMics (s : State) (z : Nat) : List Nat := maskBits (s.reg (zoneReg Reg.FLL_ZONEMICS z)).toNat 32

/-- A number as binary32; a NaN, for which the manual states no result, is a free value.
(DESIGN CHOICE, safe: notes/assumptions/3.md) -/
def State.f32 (s : State) (b : Nat) : F32 × State :=
  match F32.ofBits b with
  | some x => (x, s)
  | none => let (v, s) := s.draw; ((F32.ofBits (v % 2 ^ 32)).getD F32.zero, s)

/-- Read a run of binary32 numbers. -/
def State.f32s (s : State) : List Nat → List F32 × State
  | [] => ([], s)
  | b :: bs =>
    let (x, s) := s.f32 b
    let (xs, s) := s.f32s bs
    (x :: xs, s)

/-- Pair a run of numbers as complex numbers. -/
def toComplex : List F32 → List CF32
  | a :: b :: rest => ⟨a, b⟩ :: toComplex rest
  | _ => []

/-- Cut a list into runs of `n`; `count` runs. -/
def chunksOf {α : Type} (n : Nat) : Nat → List α → List (List α)
  | 0, _ => []
  | count + 1, l => l.take n :: chunksOf n count (l.drop n)

/-- An input with no history. -/
def freshInput : ZoneInput := ⟨List.replicate 48 .zero, List.replicate 240 .zero⟩

/-- Apply a zone at a fallow opening: its coefficient block is copied and its histories become 0; a zone that breaks the
rule of R441 is not applied. Answers whether it was applied. -/
def State.applyZone (s : State) (z : Nat) : Bool × State :=
  let mics := s.zoneMics z
  let coef := s.fld (zoneReg Reg.FLL_ZONECOEF z) 6 20 * 64
  let len := 64 + mics.length * 257 * 8
  let off := { s with audio := { s.audio with zones := keyDel s.audio.zones z } }
  if !s.bit (zoneReg Reg.FLL_ZONECFG z) 31 then (true, off)
  else if mics.isEmpty || decide (8 < mics.length) || decide (0x300_0000 < coef + len) then (false, s)
  else
    let words := (List.range (2 + mics.length * 514)).map fun i => leNat (s.bytesAt (coef + (if i < 2 then 4 * i else 56 + 4 * i)) 4)
    let (xs, s) := s.f32s words
    let zone : Zone :=
      { mu := xs.getD 0 .zero, delta := xs.getD 1 .zero, weights := chunksOf 257 mics.length (toComplex (xs.drop 2)),
        mics := mics.map fun _ => freshInput, echo := freshInput, refs := [],
        filter := List.replicate (s.fld (zoneReg Reg.FLL_ZONECFG z) 16 4) (List.replicate 257 CF32.zero) }
    (true, { s with audio := { s.audio with zones := keyPut s.audio.zones z zone } })

/-! ### The framing job -/

/-- The samples that a port delivered in one slot of some frames, as binary32 (×2⁻³¹); what is missing is 0. -/
def slotSamples (n slot : Nat) (frames : List (List Int)) : List F32 :=
  (List.range n).map fun j => roundDyadic ((frames.getD j []).getD slot 0) (-31)

/-- The echo reference: the sum of loopback slots, in ascending order. -/
def echoSamples (n : Nat) (slots : List Nat) (frames : List (List Int)) : List F32 :=
  (List.range n).map fun j =>
    slots.foldl (fun t i => t.add (roundDyadic ((frames.getD j []).getD i 0) (-31))) F32.zero

/-- Take a tick's samples of one input: the windows of `kfr` hops, and the input after them. -/
def ZoneInput.take (i : ZoneInput) (lm : Nat × Nat) (kfr : Nat) (xs : List F32) : List (List F32) × ZoneInput :=
  let y := i.win ++ resampleF lm.1 lm.2 i.raw xs
  ((List.range kfr).map fun f => (y.drop (160 * f)).take 400, ⟨newest 48 (i.raw ++ xs), newest 240 y⟩)

/-- A value is finite. -/
def F32.finite : F32 → Bool
  | .fin _ _ => true
  | _ => false

/-- A value is positive and finite. -/
def F32.positive : F32 → Bool
  | .fin m _ => decide (0 < m)
  | _ => false

/-- A complex value is finite. -/
def CF32.finite (a : CF32) : Bool := a.re.finite && a.im.finite

/-- One hop of a zone (R445): the 80 outputs, the zone after it, and whether every value it formed was finite and every
divisor positive. -/
def Zone.hop (z : Zone) (mics : List (List F32)) (echo : List F32) : List Int × Zone × Bool :=
  let xs := mics.map fft512
  let taps := z.filter.length
  let rs := if taps = 0 then [] else (fft512 echo :: z.refs).take taps
  let bins := (List.range 257).map fun k =>
    let y := (z.weights.zip xs).foldl (fun (t : CF32) p => t.add ((p.1.getD k .zero).mul (p.2.getD k .zero))) CF32.zero
    let r := rs.map fun l => l.getD k CF32.zero
    let f := (z.filter.map fun l => l.getD k CF32.zero).zip r
    let echoed := f.foldl (fun (t : CF32) p => t.add (p.1.mul p.2)) CF32.zero
    let e := if taps = 0 then y else y.sub echoed
    let n := (r.foldl (fun (t : F32) x => t.add x.norm) F32.zero).add z.delta
    let next := f.map fun p =>
      let g := e.mul p.2.conj
      p.1.add ⟨(z.mu.mul g.re).div n, (z.mu.mul g.im).div n⟩
    -- a block whose reference does not exist yet keeps its weights
    let kept := (z.filter.drop f.length).map fun l => l.getD k CF32.zero
    ((e, next ++ kept), e.finite && (taps = 0 || n.positive) && next.all CF32.finite)
  let filter := (List.range taps).map fun b => bins.map fun x => x.1.2.getD b CF32.zero
  (melFrame (bins.map fun x => x.1.1.norm), { z with refs := rs, filter := filter }, bins.all Prod.snd)

/-- Outputs and filter of a hop that formed an infinity or divided by 0, for which the manual states no result: free
values.
(DESIGN CHOICE, safe: notes/assumptions/3.md) -/
def State.freeHop (s : State) (z : Zone) : List Int × Zone × State :=
  let out := (List.range 80).map fun i => sat16 (signedOf 16 (Config.freeNat (s.free + i)))
  let at_ := fun i => (F32.ofBits (Config.freeNat (s.free + 80 + i) % 2 ^ 32)).getD F32.zero
  let filter := z.filter.zipIdx.map fun l => l.1.zipIdx.map fun c =>
    (⟨at_ (2 * (257 * l.2 + c.2)), at_ (2 * (257 * l.2 + c.2) + 1)⟩ : CF32)
  (out, { z with filter := filter }, { s with free := s.free + 80 + 514 * z.filter.length })

/-- The hops of a tick, in order. -/
def State.hops (s : State) (z : Zone) : List (List (List F32) × List F32) → List (List Int) × Zone × State
  | [] => ([], z, s)
  | h :: hs =>
    let r := z.hop h.1 h.2
    let (out, z, s) := if r.2.2 then (r.1, r.2.1, s) else s.freeHop r.2.1
    let rest := s.hops z hs
    (out :: rest.1, rest.2)

/-- The frames of a zone in one tick; a zone that is not applied has none. -/
def State.zoneFrames (s : State) (z kfr : Nat) : Option (List (List Int)) × State :=
  match keyGet s.audio.zones z with
  | none => (none, s)
  | some zone =>
    let cfg := zoneReg Reg.FLL_ZONECFG z
    let port := s.fld cfg 28 2
    let ep := s.fld cfg 24 2
    let lm := flailRatio (s.apRate port)
    let le := flailRatio (s.apRate ep)
    let need := fun (r : Nat × Nat) => kfr * 160 * r.2 / r.1
    let mics := (s.zoneMics z).map fun i => slotSamples (need lm) i (s.ap port).takenIn
    let es := maskBits (s.reg (zoneReg Reg.FLL_ZONEECHO z)).toNat 32
    let echo := echoSamples (need le) es (s.ap ep).takenLoop
    let ins := (zone.mics.zip mics).map fun p => p.1.take lm kfr p.2
    let er := zone.echo.take le kfr echo
    let hs := (List.range kfr).map fun f => (ins.map fun i => i.1.getD f [], er.1.getD f [])
    let (out, zone, s) := s.hops { zone with mics := ins.map Prod.snd, echo := er.2 } hs
    (some out, { s with audio := { s.audio with zones := keyPut s.audio.zones z zone } })

/-- A stream's input of the tick in progress is its own: not discarded under R65 or R224. -/
def State.inputKept (s : State) (t : Stream) : Bool :=
  !(s.tick.cls = .shed && t.best) && t.phase.isSome && decide (t.origin ≤ s.tickNo)

/-- The framing job `j` (R446). -/
def State.framing (s : State) (j : Nat) : State :=
  let cfg := Reg.FLL_JOBCFG + 8 * j
  let kfr := s.fld cfg 16 2 + 1
  let base := s.fld (Reg.FLL_JOBOUT + 8 * j) 6 20 * 64
  let zs := maskBits (s.fld cfg 0 16) 16
  let (frames, s) := zs.foldl (fun (acc : List (Nat × List (List Int)) × State) z =>
    match acc.2.zoneFrames z kfr with
    | (some f, s) => (acc.1 ++ [(z, f)], s)
    | (none, s) => (acc.1, s)) ([], s)
  (List.range s.plan.hdr.rows).foldl (fun (s : State) r =>
    let mine : Option (List (List Int)) := do
      let sc ← keyGet s.rows r
      let t ← s.stream sc
      let b ← t.inBind
      if s.inputKept t then keyGet frames b.2 else none
    (List.range kfr).foldl (fun (s : State) f =>
      let row := match mine with
        | some l => l.getD f []
        | none => List.replicate 80 (-8192)
      s.storeBytes (base + (r * kfr + f) * 192) ((row.flatMap fun x => leBytes 2 (unsignedOf 16 x)) ++ List.replicate 32 0)) s) s

/-! ### The output job (R448) -/

/-- One output of an output job: the samples of its stream's row, over-lapped and run through its path. -/
def State.outputRow (s : State) (base o : Nat) (x : AudioOut) (row : Nat) : State :=
  let h := 12 * s.period
  let a := base + row * (ceilDiv (4 * h) 64 * 64)
  match s.senseRange a (4 * h) with
  | (some bad, s) => s.reportUnread 31 1 (some row) bad
  | (none, s) =>
    let bs := s.bytesAt a (4 * h)
    let xs := (List.range (2 * h)).map fun i => signedOf 16 (leAt bs (2 * i) 2)
    let y := (List.range h).map fun i => sat16 (xs.getD i 0 + x.path.tail.getD i 0)
    let n := s.rampLen x.bind.port
    let r := s.playPath x y (xs.drop h) (fun j => if x.path.loud then 32768 else rampUp n j) true
    s.setOut o { x with job := some r }

/-- The output job `j`: every bound output, in ascending output number. -/
def State.outputJob (s : State) (j : Nat) : State :=
  let base := s.fld (Reg.QRN_JOBIN + 8 * j) 6 20 * 64
  s.audio.outs.foldl (fun (s : State) o =>
    match s.out o.1 with
    | none => s
    | some x =>
      if x.leaving then s
      else match (s.stream x.sc).bind fun t => t.row with
        | some row => s.outputRow base o.1 x row
        | none => s) s

/-! ### The camera's frame (R455, R456) and the scale and crop job (R460) -/

/-- WIDTH of the camera. -/
def State.camW (s : State) : Nat := s.fld Reg.CAM_SIZE 0 12
/-- HEIGHT. -/
def State.camH (s : State) : Nat := s.fld Reg.CAM_SIZE 16 12
/-- DTYPE. -/
def State.camType (s : State) : Nat := s.fld Reg.CAM_CTRL 8 6

/-- Bytes of a line as received (R455). -/
def State.camLine (s : State) : Nat :=
  if s.camType = 0x2B then ceilDiv (5 * s.camW) 4 else if s.camType = 0x1E then 2 * s.camW else s.camW

/-- The line pitch. -/
def State.camPitch (s : State) : Nat := 64 * ceilDiv s.camLine 64

/-- Bytes of the camera area, before it is rounded up (R456). -/
def State.camBytes (s : State) : Nat := 4096 + 3 * s.camPitch * s.camH

/-- The address of a frame buffer. -/
def State.camBuf (s : State) (base i : Nat) : Nat := base + 4096 + i * (s.camPitch * s.camH)

/-- The HELD buffer. -/
def State.heldBuf (s : State) : Option Nat := (List.range 3).find? fun i => s.cam.bufs[i]? = some .held

/-- The value of pixel `x` of a line that starts at an address, as R460 sums it.
(PRESUMED, unsafe: notes/assumptions/43.md) -/
def State.pixel (s : State) (line x : Nat) : Nat :=
  let b := fun i => (s.byteAt (line + i)).toNat
  if s.camType = 0x2B then 4 * b (5 * (x / 4) + x % 4) + bitsOf (b (5 * (x / 4) + 4)) (2 * (x % 4)) 2
  else if s.camType = 0x1E then b (2 * x + 1)
  else b x

/-- A Glume job's register field. -/
def State.glm (s : State) (r j lo w : Nat) : Nat := s.fld (r + 0x10 * j) lo w

/-- OW, OH, FX and FY of a job. -/
def State.glmDims (s : State) (j : Nat) : Nat × Nat × Nat × Nat :=
  (s.glm Reg.GLM_JOBSIZE j 0 8 + 1, s.glm Reg.GLM_JOBSIZE j 8 8 + 1, s.glm Reg.GLM_JOBSIZE j 16 4 + 1,
   s.glm Reg.GLM_JOBSIZE j 20 4 + 1)

/-- A job is valid (R461). -/
def State.glmValid (s : State) (j : Nat) : Bool :=
  let (ow, oh, fx, fy) := s.glmDims j
  decide (s.glm Reg.GLM_JOBCROP j 0 11 + ow * fx ≤ s.camW) && decide (s.glm Reg.GLM_JOBCROP j 16 11 + oh * fy ≤ s.camH) &&
  decide (s.glm Reg.GLM_JOBOUT j 6 20 * 64 + oh * (ceilDiv ow 64 * 64) ≤ 0x300_0000)

/-- The Glume job `j`. -/
def State.cropJob (s : State) (j : Nat) : State :=
  let (ow, oh, fx, fy) := s.glmDims j
  let x0 := s.glm Reg.GLM_JOBCROP j 0 11
  let y0 := s.glm Reg.GLM_JOBCROP j 16 11
  let out := s.glm Reg.GLM_JOBOUT j 6 20 * 64
  let src := match s.cam.area, s.heldBuf with
    | some a, some i => some (s.camBuf a.1 i)
    | _, _ => none
  let s := match src with
    | none => s
    | some a =>
      match s.senseRange (a + y0 * s.camPitch) (oh * fy * s.camPitch) with
      | (some bad, s) => s.reportUnread 32 0 none bad
      | (none, s) => s
  let d := fx * fy * (if s.camType = 0x2B then 4 else 1)
  (List.range oh).foldl (fun (s : State) r =>
    let row := (List.range ow).map fun c =>
      match src with
      | none => (-128 : Int)
      | some a =>
        let sum := ((List.range fy).map fun v => ((List.range fx).map fun u =>
          s.pixel (a + (y0 + r * fy + v) * s.camPitch) (x0 + c * fx + u)).sum).sum
        rneDiv (sum : Int) d - 128
    s.storeBytes (out + r * (ceilDiv ow 64 * 64)) (row.map fun v => BitVec.ofNat 8 (unsignedOf 8 v))) s

/-! ### FIXJOB -/

/-- The cost of a job in cycles of its engine's clock (R452, R461). -/
def State.jobCost (s : State) (e j : Nat) : Nat :=
  if e = 30 then
    let cfg := Reg.FLL_JOBCFG + 8 * j
    2400 + (s.fld cfg 16 2 + 1) * (maskBits (s.fld cfg 0 16) 16).length * 24000
  else if e = 31 then 800 + 16 * (14 * (12 * s.period) + 8 * (24 * s.period))
  else
    let (ow, oh, fx, fy) := s.glmDims j
    160 + oh * fy * ceilDiv (ow * fx) 16

/-- The work of a job. -/
def State.runJob (s : State) (e j : Nat) : State :=
  if e = 30 then s.framing j else if e = 31 then s.outputJob j else s.cropJob j

/-- FIXJOB runs the job that COUNT names, of the Flail, the Quern or the Glume. -/
def execFixjob (e : EngineId) (job : BitVec 16) (s : State) : Host.Outcome State Fault Refusal :=
  .next <| s.runWord e (cWord 3 job.toNat 0) (s.jobCost e job.toNat) fun s => s.runJob e job.toNat

end Sys2Proof.Machine
end

