-- ==== Sys2Proof/Machine/Camera.lean ====
section
/-!
DEFINITION. Machine/Camera.lean: the camera receiver (R454 to R459, R465), the frame record and the lip-activity gate (R459,
R462 to R464).
-/
namespace Sys2Proof.Machine

/-- The receiver runs: EN is 1 and the area is applied. -/
def State.camActive (s : State) : Bool := s.bit Reg.CAM_STAT 0

/-- Change the camera's state. -/
def State.updCam (s : State) (f : CamState → CamState) : State := { s with cam := f s.cam }

/-- Change the buffers of one state to another. -/
def CamState.turn (c : CamState) (a b : BufState) : CamState := { c with bufs := c.bufs.map fun x => if x = a then b else x }

/-- A good frame is dropped unheld. -/
def State.camDrop (s : State) : State := (s.addSat Reg.CAM_DROPCNT 0 32 1).raise .cam Reg.CAM_STAT 11

/-- The frame in progress is bad: logged with the SUB of its first event (Table 15-2).
(DEDUCED, unsafe: notes/assumptions/42.md) -/
def State.camBad (s : State) (sub : Nat) : State :=
  if s.cam.inFrame && !s.cam.bad then (s.logViolation 6 sub).updCam fun c => { c with bad := true } else s

/-- A bad frame ends: its buffer returns to FREE (R465). -/
def State.camEndBad (s : State) : State :=
  let s := s.updCam fun c => { c.turn .filling .free with inFrame := false, bad := false, line := 0 }
  (s.addSat Reg.CAM_BADCNT 0 16 1).raise .cam Reg.CAM_STAT 9

/-- A packet on another virtual channel is discarded and counted (Table 15-1). -/
def State.camOther (s : State) : State := s.addSat Reg.CAM_BADCNT 16 16 1

/-- The chosen virtual channel. -/
def State.camVc (s : State) : Nat := s.fld Reg.CAM_CTRL 4 2

/-- Frame Start: a buffer is taken for FILLING; a frame in progress is bad (R457, R465). -/
def execCamFrameStart (vc : Fin 4) (s : State) : Host.Outcome State Fault Refusal :=
  .next <|
    if !s.camActive then s
    else if vc.val != s.camVc then s.camOther
    else
      let s := if s.cam.inFrame then (s.camBad 4).camEndBad else s
      let s := (s.setBit Reg.CAM_STAT 1 true).updCam fun c => { c with lastStart := s.now, missLogged := false }
      let take := fun (i : Nat) => s.updCam fun c =>
        { c with bufs := c.bufs.set i .filling, inFrame := true, bad := false, line := 0 }
      match s.cam.bufs.findIdx? (· = .free), s.cam.bufs.findIdx? (· = .ready) with
      | some i, _ => take i
      | none, some i => (take i).camDrop
      | none, none => s

/-- A data type of CSI-2 that carries pixels. -/
def pixelType (d : Nat) : Bool := decide (0x18 ≤ d) && decide (d ≤ 0x2F)

/-- A long packet: a line is stored into the FILLING buffer, or the packet is discarded (R455, Table 15-2). `ecc` counts the
header's bit errors: one is corrected.
(DEDUCED, unsafe: notes/assumptions/42.md) -/
def execCamLongPacket (p : LongPacket) (s : State) : Host.Outcome State Fault Refusal :=
  .next <|
    if !s.camActive then s
    else if 1 < p.ecc then s.camBad 1
    else if p.vc.val != s.camVc then s.camOther
    else if !s.cam.inFrame then s.logViolation 6 4
    else if !pixelType p.dtype then s
    else if p.dtype != s.camType then s.camBad 5
    else if !p.crcOk then s.camBad 1
    else if p.bytes.length != s.camLine then s.camBad 2
    else
      let n := s.cam.line
      let s := s.updCam fun c => { c with line := n + 1 }
      match s.cam.area, s.cam.bufs.findIdx? (· = .filling) with
      | some a, some i => if n < s.camH then s.storeBytes (s.camBuf a.1 i + n * s.camPitch) p.bytes else s
      | _, _ => s

/-- Frame End: a good frame becomes READY, a bad one returns its buffer (R457, R465). -/
def execCamFrameEnd (vc : Fin 4) (s : State) : Host.Outcome State Fault Refusal :=
  .next <|
    if !s.camActive then s
    else if vc.val != s.camVc then s.camOther
    else if !s.cam.inFrame then s.logViolation 6 4
    else
      let s := if s.cam.line = s.camH then s else s.camBad 3
      if s.cam.bad then s.camEndBad
      else
        let s := if s.cam.bufs.contains .ready then (s.updCam fun c => c.turn .ready .free).camDrop else s
        let s := s.updCam fun c =>
          { c.turn .filling .ready with inFrame := false, line := 0, good := c.good + 1, readySeq := c.good + 1 }
        s.addSat Reg.CAM_FRAMECNT 0 32 1

/-- No Frame Start for MISSMS: NOCAM is set, and logged once until a Frame Start arrives (R465). -/
def execCamNoFrame (s : State) : Host.Outcome State Fault Refusal :=
  .next <|
    if s.camActive && !s.cam.missLogged then
      let s := s.reach (s.cam.lastStart + 1000 * s.fld Reg.CAM_CTRL 16 8)
      (((s.setBit Reg.CAM_STAT 1 false).raise .cam Reg.CAM_STAT 10).logViolation 6 6).updCam fun c => { c with missLogged := true }
    else s

/-- The arming step holds the newest frame and writes the frame record (R457, R459). -/
def State.camArm (s : State) : State :=
  match s.cam.area with
  | none => s
  | some a =>
    if !s.camActive then s
    else
      let fresh := s.cam.bufs.contains .ready
      let s := s.updCam fun c =>
        if fresh then { (c.turn .held .free).turn .ready .held with heldSeq := c.readySeq, age := 0 }
        else { c with age := min 0xFFFF (c.age + 1) }
      let held := s.heldBuf.isSome
      let seq := if held then s.cam.heldSeq else 0
      let age := if held then s.cam.age else 0
      let valid := held && decide (age ≤ s.fld Reg.CAM_GATECFG 24 7)
      let s := s.storeBytes a.1 (leBytes 4 seq ++ [if fresh then 1 else 0, if valid then 1 else 0] ++ leBytes 2 age ++ List.replicate 56 0)
      s.setBit Reg.CAM_STAT 2 (!valid)

/-! ### The lip-activity gate -/

/-- Gated streams wait for their zones (R462): the plan has a stream for the Glume, and the receiver runs. -/
def State.gateOn (s : State) : Bool :=
  (match s.active with
    | some p => bitOf p.hdr.engMask 32
    | none => false) && s.bit Reg.CAM_CTRL 0 && s.cam.area.isSome

/-- A stream is gated. -/
def State.isGated (s : State) (t : Stream) : Bool := s.gateOn && t.gated && t.inBind.isSome

/-- A zone's state for the next tick as admission reads it. -/
def State.zoneOpen (s : State) (z : Nat) : Bool := s.bit Reg.CAM_LIPSTAT 31 || s.bit Reg.CAM_LIPSTAT z

/-- One zone's state from its lip byte (R463). -/
def State.zoneStep (s : State) (base z : Nat) : State :=
  let b := (s.byteAt (base + 0x40 + z)).toNat
  if !s.bit Reg.CAM_LIPSTAT z then
    if s.fld Reg.CAM_GATECFG 0 8 ≤ b then (s.setBit Reg.CAM_LIPSTAT z true).updCam fun c => { c with quiet := keyDel c.quiet z }
    else s
  else if b < s.fld Reg.CAM_GATECFG 8 8 then
    let n := keyGetD s.cam.quiet z 0 + 1
    if s.fld Reg.CAM_GATECFG 16 8 ≤ n then
      (s.setBit Reg.CAM_LIPSTAT z false).updCam fun c => { c with quiet := keyDel c.quiet z }
    else s.updCam fun c => { c with quiet := keyPut c.quiet z n }
  else s.updCam fun c => { c with quiet := keyDel c.quiet z }

/-- Step 6 reads the lip vector (R463). -/
def State.updateZones (s : State) : State :=
  match s.cam.area with
  | none => s
  | some a =>
    let valid := !s.bit Reg.CAM_STAT 2 && s.heldBuf.isSome
    let s := s.setBit Reg.CAM_LIPSTAT 31 (!valid && s.bit Reg.CAM_GATECFG 31)
    if valid then (List.range 16).foldl (fun (s : State) z => s.zoneStep a.1 z) s else s

/-- A stream waits outside admission because its zone is INACTIVE (R462, R464). -/
def State.gateShut (s : State) (t : Stream) : Bool :=
  s.isGated t && (match t.inBind with
    | some b => !s.zoneOpen b.2
    | none => false)

end Sys2Proof.Machine
end

