-- ==== Sys2Proof/Machine/PlanImage.lean ====
section
/-!
DEFINITION. Machine/PlanImage.lean: the plan image (Tables 4-1 and 4-2) read from memory, and the load checks of Table 4-11 with
the checks of chapter 5, chapter 7 and chapter 9 that R152 puts under its codes.
-/
namespace Sys2Proof.Machine

/-- A directory entry (R117). -/
structure DirEntry where
  type : Nat
  resv : Nat
  count : Nat
  offset : Nat
  length : Nat
  deriving DecidableEq, Repr

/-- Reads `n` little-endian bytes at an offset of an image. -/
abbrev Reader := Nat → Nat → Nat

/-- The header of an image. -/
def readHdr (rd : Reader) : PlanHdr :=
  { planId := rd 0x10 8, tpMin := rd 0x18 1, tpMax := rd 0x19 1, fMin := rd 0x1A 1, rows := rd 0x1B 1, work := rd 0x1C 2,
    slack := rd 0x1E 2, wShed := rd 0x20 2, engMask := rd 0x28 8, t1Base := rd 0x30 8, t1Foot := rd 0x38 8,
    constBase := rd 0x40 8, constLen := rd 0x48 8, rowMap := rd 0x50 8 }

/-- IMGLEN. -/
def imgLen (rd : Reader) : Nat := rd 8 4

/-- FLAGS.SIGNED. -/
def imgSigned (rd : Reader) : Bool := bitOf (rd 0xC 4) 0

/-- The section directory. -/
def readDir (rd : Reader) : List DirEntry :=
  (List.range (rd 0x24 4)).map fun i =>
    let o := 0x80 + 16 * i
    ⟨rd o 2, rd (o + 2) 2, rd (o + 4) 4, rd (o + 8) 4, rd (o + 12) 4⟩

/-- The directory index and entry of a section type. -/
def findSection (dir : List DirEntry) (type : Nat) : Option (Nat × DirEntry) :=
  (dir.zipIdx.find? fun e => e.1.type = type).map fun e => (e.2, e.1)

/-- The directory index of a section, 0xFF where there is none. -/
def sectionIndex (dir : List DirEntry) (type : Nat) : Nat := ((findSection dir type).map Prod.fst).getD 0xFF

/-- All bytes of a range are 0. -/
def allZero (rd : Reader) (off n : Nat) : Bool := (List.range n).all fun i => rd (off + i) 1 = 0

/-! ### Codes 0x01 to 0x03 and 0x05 -/

/-- Code 0x01. -/
def bad01 (rd : Reader) (supplied : Nat) : Bool :=
  decide (supplied < 128) || rd 0 4 != 0x53495054 || decide (imgLen rd < 128) || decide (supplied < imgLen rd) ||
  imgLen rd % 64 != 0

/-- Header fields under code 0x03. -/
def badHdr (rd : Reader) : Bool :=
  let h := readHdr rd
  bitsOf (rd 0xC 4) 1 31 != 0 || rd 0x22 2 != 0 || !allZero rd 0x58 40 || decide (2 ^ 33 ≤ h.engMask) ||
  decide (h.tpMin < 10) || decide (80 < h.tpMin) || decide (h.tpMax < h.tpMin) || decide (80 < h.tpMax) ||
  decide (h.fMin < 5) || decide (40 < h.fMin) || h.rows = 0 || decide (64 < h.rows) || h.rowMap % 64 != 0 ||
  decide (0x300_0000 < h.rowMap + 128) || decide (rd 0x24 4 < 4) || decide (8 < rd 0x24 4)

/-- A section breaks the directory rules of R117 by itself. -/
def badEntry (rd : Reader) (e : DirEntry) : Bool :=
  let dirEnd := 0x80 + 16 * rd 0x24 4
  e.resv != 0 || !([1, 2, 3, 4, 5, 6, 7, 15].contains e.type) || e.offset % 64 != 0 || decide (e.offset < dirEnd) ||
  decide (imgLen rd < e.offset + e.length) ||
  (e.type = 15 && (e.length != 192 || e.offset + e.length != imgLen rd || !imgSigned rd)) ||
  (e.type = 7 && decide ((readHdr rd).constLen < e.length))

/-- The index of the first entry that breaks a rule with itself or an entry before it. -/
def badDirEntry (rd : Reader) (dir : List DirEntry) : Option Nat :=
  (dir.zipIdx.find? fun e =>
    badEntry rd e.1 || dir.zipIdx.any fun f => f.2 < e.2 &&
      (f.1.type = e.1.type || rangesMeet f.1.offset f.1.length e.1.offset e.1.length)).map Prod.snd

/-- Code 0x03: the section index where it failed. -/
def bad03 (rd : Reader) : Option Nat :=
  if badHdr rd then some 0xFF
  else
    let dir := readDir rd
    match badDirEntry rd dir with
    | some i => some i
    | none =>
      if [1, 2, 3, 4].all (fun t => dir.any fun e => e.type = t) && (!imgSigned rd || dir.any fun e => e.type = 15) then none
      else some 0xFF

/-- Code 0x05. -/
def State.bad05 (s : State) (rd : Reader) : Bool :=
  let h := readHdr rd
  h.t1Base % 65536 != 0 || h.t1Foot % 65536 != 0 || h.constLen % 64 != 0 || h.t1Foot = 0 || decide (h.t1Foot < imgLen rd) ||
  decide (h.constBase < h.t1Base) || decide (h.t1Base + h.t1Foot < h.constBase + h.constLen) ||
  decide (h.t1Base < 0x100_0000_0000) || decide (lastT1 s.variant + 1 < h.t1Base + h.t1Foot) ||
  (match s.active with
    | some p => rangesMeet h.t1Base h.t1Foot p.hdr.t1Base p.hdr.t1Foot
    | none => false) ||
  decide (s.t1Unreserved < h.t1Foot)

/-! ### Reading the sections -/

/-- The engines of ENGMASK in ascending order. -/
def PlanHdr.engines (h : PlanHdr) : List Nat := (List.range 33).filter fun e => bitOf h.engMask e

/-- The stream records of R120 as (engine, reserved, words, offset). -/
def streamRecords (rd : Reader) (h : PlanHdr) (e : DirEntry) : List (Nat × Nat × Nat × Nat) :=
  (List.range h.engines.length).map fun i =>
    let o := e.offset + 8 * i
    (rd o 1, rd (o + 1) 1, rd (o + 2) 2, rd (o + 4) 4)

/-- The records of R120 break their rules. -/
def badStreams (rd : Reader) (h : PlanHdr) (e : DirEntry) : Bool :=
  let rs := streamRecords rd h e
  let first := e.offset + 8 * rs.length
  rs.map (·.1) != h.engines || decide (e.length < 8 * rs.length) ||
  rs.any (fun r => r.2.1 != 0 || r.2.2.1 = 0 || decide (4096 < r.2.2.1) || r.2.2.2 % 8 != 0 || decide (r.2.2.2 < first) ||
    decide (e.offset + e.length < r.2.2.2 + 8 * r.2.2.1)) ||
  rs.zipIdx.any (fun a => rs.zipIdx.any fun b => a.2 < b.2 &&
    rangesMeet a.1.2.2.2 (8 * a.1.2.2.1) b.1.2.2.2 (8 * b.1.2.2.1))

/-- One variant record. -/
def readVariant (rd : Reader) (o : Nat) : VariantRec :=
  { engine := rd o 1, variant := rd (o + 1) 1, shed := rd (o + 2) 1 = 1, capacity := rd (o + 3) 1, start := rd (o + 4) 2,
    length := rd (o + 6) 2, budget := rd (o + 8) 4 }

/-- Records of a section: their offsets. -/
def recordOffsets (e : DirEntry) (skip size : Nat) : List Nat := (List.range e.count).map fun i => e.offset + skip + size * i

/-- Read the whole plan. -/
def readPlan (rd : Reader) : Plan :=
  let h := readHdr rd
  let dir := readDir rd
  let sec := fun t => ((findSection dir t).map Prod.snd).getD ⟨0, 0, 0, 0, 0⟩
  { hdr := h
    streams := (streamRecords rd h (sec 1)).map fun r =>
      (r.1, (List.range (min 4096 r.2.2.1)).map fun i => BitVec.ofNat 64 (rd (r.2.2.2 + 8 * i) 8))
    descs := (List.range (min 4096 (sec 2).count)).map fun i => BitVec.ofNat 128 (rd ((sec 2).offset + 16 * i) 16)
    variants := (recordOffsets (sec 3) 0 16).map (readVariant rd)
    knotStart := (List.range 64).map fun k => rd ((sec 4).offset + 2 * k) 2
    posts := (recordOffsets (sec 4) 128 8).map fun o => ⟨rd o 1, rd (o + 1) 1, rd (o + 2) 1, rd (o + 4) 2⟩
    stages := (recordOffsets (sec 5) 0 16).map fun o => ⟨rd o 8, rd (o + 8) 4, rd (o + 12) 1, rd (o + 13) 1⟩
    contracts := (recordOffsets (sec 6) 0 8).map fun o => ⟨rd o 1, rd (o + 1) 1, rd (o + 4) 4⟩ }

/-! ### Code 0x06: words -/

/-- The engines an opcode is legal on (Table 5-1). -/
def legalOn (op e : Nat) : Bool :=
  match op with
  | 0x00 | 0x01 | 0x02 | 0x10 | 0x11 => true
  | 0x03 => decide (30 ≤ e)
  | 0x20 | 0x21 | 0x22 | 0x30 | 0x31 | 0x32 | 0x33 | 0x34 | 0x41 => decide (e < 16)
  | 0x40 | 0x42 | 0x43 => e = 16 || e = 17
  | 0x50 => e = 21
  | 0x60 | 0x61 | 0x62 | 0x63 => e = 20
  | 0x70 | 0x71 | 0x72 => e = 18 || e = 19
  | 0x80 => decide (22 ≤ e) && decide (e < 30)
  | _ => false

/-- How a descriptor field of a format T word must stand. -/
inductive FieldUse where
  | must | may | none
  deriving DecidableEq, Repr

/-- A field of a format T word stands as its opcode wants (R160). -/
def FieldUse.ok (u : FieldUse) (v : Nat) : Bool :=
  match u with
  | .must => v != 0xFFF
  | .may => true
  | .none => v = 0xFFF

/-- The uses of DST, SRCA, SRCB and SRCC of an opcode with a MOD. -/
def fieldUses (op m : Nat) : FieldUse × FieldUse × FieldUse × FieldUse :=
  let opt := fun (b : Bool) => if b then FieldUse.must else FieldUse.none
  match op with
  | 0x20 => (.none, opt (!bitOf m 7), .must, .may)
  | 0x21 => (.must, .none, .none, .may)
  | 0x22 => (.may, .none, .none, .must)
  | 0x30 | 0x31 => (.must, .must, .must, .none)
  | 0x32 => (.must, .must, .none, .must)
  | 0x33 => (.must, .must, .must, .must)
  | 0x34 => (.must, .must, .may, .none)
  | 0x40 | 0x42 | 0x43 => (.must, .must, .must, opt (bitOf m 2))
  | 0x41 | 0x63 => (.must, .must, .must, .must)
  | 0x50 => (.must, .must, .must, opt (bitOf m 6))
  | 0x60 => (.must, .must, .may, .none)
  | 0x61 => (.must, .must, .must, .none)
  | 0x62 | 0x70 | 0x71 => (.must, .must, .none, .none)
  | _ => (.must, .must, opt (!bitOf m 3), opt (bitOf m 2))

/-- A reserved bit or value of MOD (Tables 5-3, 5-6, 5-7 and 5-8). -/
def badMod (op m : Nat) : Bool :=
  match op with
  | 0x21 => bitsOf m 3 5 != 0
  | 0x22 => bitOf m 7 || m % 8 = 7
  | 0x30 | 0x31 | 0x32 | 0x33 | 0x34 => bitsOf m 1 7 != 0
  | 0x40 => bitsOf m 6 2 != 0 || bitsOf m 4 2 = 3
  | 0x43 => bitsOf m 6 2 != 0 || bitsOf m 4 2 = 3 || bitOf m 3
  | 0x41 => bitsOf m 2 6 != 0
  | 0x42 => m != 0 && m != 4
  | 0x50 => bitOf m 7
  | 0x61 => bitsOf m 5 3 != 0
  | 0x62 => decide (63 < m)
  | 0x63 => m != 0
  | 0x70 => decide (2 < m)
  | 0x71 => m != 0 && m != 16
  | 0x72 => bitsOf m 4 4 != 0
  | _ => false

/-- A job of the Flail, the Quern or the Glume is configured, in effect or by a held value (R162, R452, R537, Table 15-4). -/
def State.jobConfigured (s : State) (e j : Nat) : Bool :=
  let is := fun (off id lo w : Nat) =>
    s.fld off lo w = 1 || (match keyGet s.nv.held id with
      | some v => bitsOf v lo w = 1
      | none => false)
  decide (j < 16) &&
  if e = 30 then is (Reg.FLL_JOBCFG + 8 * j) (0x300 + 2 * j) 30 2
  else if e = 31 then is (Reg.QRN_JOBCFG + 8 * j) (0x340 + 2 * j) 30 2
  else is (Reg.GLM_JOBSIZE + 16 * j) (0x380 + 4 * j) 31 1

/-- The rules on accumulator banks (R164, R167, R169). -/
def badBanks (p : Plan) (e : Nat) (w : DWord) : Bool :=
  let m := wMod w
  let pinned := fun b => (p.pinned e).any fun x => x.1 = b
  let banks := fun (rows : Nat) => (List.range (ceilDiv rows 32)).map (m % 8 + ·)
  let bad := fun (bs : List Nat) => bs.any fun b => decide (8 ≤ b) || pinned b
  match wOp w with
  | 0x20 => bad (banks (if bitOf m 7 then 32 else (p.tensor (wA w)).rows)) || (bitOf m 7 && !pinned (bitsOf m 4 3))
  | 0x21 => bad (banks (p.tensor (wDst w)).rows)
  | 0x22 => pinned (m % 8) || pinned (m % 8 + 1)
  | 0x41 => !(p.pinned e).isEmpty
  | _ => false

/-- A word breaks R133 to R137, R160 or the MOD tables. -/
def State.badWord (s : State) (p : Plan) (v : VariantRec) (a : WordAt) : Bool :=
  let w := a.word
  let n := w.toNat
  let op := wOp w
  !legalOn op v.engine ||
  if op = 0 then n != 0
  else if op = 1 then bitsOf n 48 8 != 0 || bitsOf n 0 16 != 0 || wValue w = 0 || wStep w = 0 || decide (4095 < wStep w)
  else if op = 2 then bitsOf n 48 8 != 0 || bitsOf n 0 32 != 0 || wValue w = 0
  else if op = 3 then bitsOf n 48 8 != 0 || bitsOf n 0 32 != 0 || !s.jobConfigured v.engine (wValue w)
  else if op = 0x10 || op = 0x11 then
    bitsOf n 48 2 != 0 || bitsOf n 0 16 != 0 || (op = 0x10 && wValue w = 0) ||
    decide (65535 < wValue w + (a.inner - 1) * wStep w)
  else if op = 0x80 then bitsOf n 48 8 != 0 || bitsOf n 0 4 != 0 || wDst w % 2 != 0 || decide (4094 < wDst w + 1)
  else
    let u := fieldUses op (wMod w)
    !u.1.ok (wDst w) || !u.2.1.ok (wA w) || !u.2.2.1.ok (wB w) || !u.2.2.2.ok (wC w) || badMod op (wMod w) ||
    (wordSlots w).any (fun sl => decide (4 ≤ sl.1) && decide (4094 < sl.2)) || badBanks p v.engine w

/-- The loops of a variant obey R136: each body lies within its variant and within the body around it, holds no END, and
they nest at most 4 deep. `frames` holds what the open bodies still hold. -/
def loopsOk : List DWord → List Nat → Bool
  | [], _ => true
  | w :: ws, frames =>
    let here := frames.filter (0 < ·)
    let down := here.map (· - 1)
    if wOp w = 1 then
      decide (wStep w < ws.length) && down.all (fun f => decide (wStep w ≤ f)) && decide (down.length < 4) &&
      (ws.take (wStep w)).all (fun x => wOp x != 0) && loopsOk ws (wStep w :: down)
    else (here.isEmpty || wOp w != 0) && loopsOk ws down

/-- An opcode is listed in the Plan instruction reference; every other is reserved (R133).
(DEDUCED, unsafe: notes/assumptions/55.md) -/
def opListed (op : Nat) : Bool := (List.range 33).any (legalOn op)

/-- A variant's words lie within its engine's stream; one that does not is refused with code 0x08 (R122).
(DEDUCED, unsafe: notes/assumptions/55.md) -/
def Plan.inStream (p : Plan) (v : VariantRec) : Bool := decide (v.start + v.length ≤ (p.stream v.engine).length)

/-- The load checks on pinning of R214 and R215. -/
def badPinning (p : Plan) (n : Nat) : Bool :=
  let pins := p.pinned n
  let gates := (p.variants.filter fun v => v.engine = n).flatMap fun v => (p.words v).filter fun w => wOp w = 0x22
  gates.any (fun w => keyGet pins (gateBank (wMod w)) != some (bitOf (wMod w) 6)) ||
  (if p.hdr.rows > 32 then pins.any fun b => keyGet pins (if b.1 < 4 then b.1 + 4 else b.1 - 4) != some b.2
   else pins.any fun b => decide (4 ≤ b.1))

/-- Code 0x06.
(DEDUCED, unsafe: notes/assumptions/55.md) -/
def State.bad06 (s : State) (rd : Reader) (p : Plan) : Bool :=
  let dir := readDir rd
  (match findSection dir 1 with
    | some (_, e) => badStreams rd p.hdr e
    | none => true) ||
  p.hdr.engines.any (fun e => !(p.variants.any fun v => v.engine = e && !v.shed && v.capacity = p.hdr.rows)) ||
  p.streams.any (fun x => x.2.any fun w => !opListed (wOp w)) ||
  p.allWords.any (fun vw => p.inStream vw.1 && (!loopsOk vw.2 [] || (withLoops vw.2 0 []).any (s.badWord p vw.1))) ||
  (List.range 16).any (badPinning p)

/-! ### Code 0x07: descriptors -/

/-- Bytes of a row of a descriptor. -/
def TDesc.rowBits (d : TDesc) : Nat := d.cols * d.elemBits

/-- A descriptor obeys R138 and R140; `table` where SHIFT is an index shift (R158). -/
def descOk (d : TDesc) (table : Bool) (depth : Nat) : Bool :=
  decide (d.fmt ≤ 4) && decide (d.scale ≤ 2) && decide (d.own ≤ 4) && decide (d.lvl ≤ 4) && decide (d.lvl ≤ depth) &&
  d.rsvd = 0 && decide (ceilDiv d.rowBits 512 ≤ d.stride) && (d.scale != 2 || d.cols % 32 = 0) &&
  (if table then decide (d.shiftBits ≤ 15) && d.scale = 0 else if d.scale = 0 then d.shiftBits != 32 else d.shiftBits = 0) &&
  (if d.own = 2 then d.offset % 64 = 0 && (d.part = 3 || d.offset = 0) else d.base % 64 = 0)

/-- Where an operand may lie: T0 for every class but 2, an OWN 1 tensor in equal groups, an OWN 3 tensor within one stage
buffer, OWN 4 nowhere (R141, R154). -/
def ownOk (p : Plan) (d : TDesc) (counts : List Nat) : Bool :=
  let r := d.reach counts
  match d.own with
  | 0 => decide (r.1 + r.2 ≤ 0x300_0000)
  | 1 => decide (r.1 + r.2 ≤ 0x300_0000) && d.rows % p.hdr.rows = 0
  | 2 => true
  | 3 => decide (r.1 + r.2 ≤ 0x300_0000) && p.stages.any fun b => decide (b.base ≤ r.1) && decide (r.1 + r.2 ≤ b.base + b.size)
  | _ => false

/-- The iterations of the level a descriptor steps with. -/
def TDesc.iters (d : TDesc) (counts : List Nat) : Nat := if d.lvl = 0 then 1 else counts.getD (d.lvl - 1) 1

/-- Two operands' ranges meet at some iteration (R155). -/
def operandsMeet (a b : TDesc) (counts : List Nat) : Bool :=
  if (a.own = 2) != (b.own = 2) then false
  else if a.own = 2 && (a.region != b.region || a.part != b.part) then false
  else
    let lo := fun (d : TDesc) (i : Nat) => (if d.own = 2 then d.offset else d.base) + i * d.step * 64
    if a.lvl = b.lvl then
      (List.range (a.iters counts)).any fun i => rangesMeet (lo a i) a.span (lo b i) b.span
    else
      (List.range (a.iters counts)).any fun i => (List.range (b.iters counts)).any fun j =>
        rangesMeet (lo a i) a.span (lo b j) b.span

/-- The opcodes that may run in place. -/
def mayInPlace (op : Nat) : Bool := (decide (0x30 ≤ op) && decide (op ≤ 0x34)) || op = 0x70 || op = 0x71

/-- DST coincides with SRCA at every iteration (R155). -/
def inPlace (d a : TDesc) : Bool :=
  d.base = a.base && d.fmt = a.fmt && d.cols = a.cols && d.rows = a.rows && d.stride = a.stride && d.lvl = a.lvl &&
  d.step = a.step && d.own = a.own

/-- FMT is one of a list and SCALE is 0. -/
def plain (fmts : List Nat) (d : TDesc) : Bool := fmts.contains d.fmt && d.scale = 0

/-- A lookup table of `rows` rows (R158). -/
def tableOk (fmts : List Nat) (rows : Nat) (d : TDesc) : Bool :=
  plain fmts d && (d.own = 0 || d.own = 3) && d.cols = 256 && d.rows = rows

/-- A side tensor (R159). -/
def sideOk (d : TDesc) (rows : Nat) : Bool := plain [3] d && d.cols = 1 && d.rows = rows

/-- A rotary table (R184). -/
def rotaryOk (d : TDesc) (cols : Nat) : Bool := plain [2] d && d.rows = 16 && d.cols = cols

/-- A head width. -/
def widthOk (d : Nat) : Bool := [32, 64, 128].contains d

/-- SRCB of a vector opcode (R170). -/
def bcastOk (m : Nat) (a b : TDesc) : Bool := b.cols = a.cols && (if bitOf m 0 then b.rows = 1 else b.rows = a.rows)

/-- The queries of a Thresher opcode (R172). -/
def queryOk (rows : Nat) (a : TDesc) : Bool :=
  plain [1] a && a.own = 1 && widthOk a.cols && decide (1 ≤ a.rows / rows) && decide (a.rows / rows ≤ 16)

/-- The key region of SATTN and SPROB. -/
def keyOk (a b : TDesc) : Bool := b.own = 2 && b.part = 0 && b.fmt = 1 && b.scale = 1 && b.cols = a.cols && b.rows % 64 = 0

/-- The operands of each opcode (chapter 5): formats, scales, classes and shapes. -/
def opcodeOk (p : Plan) (e : Nat) (w : DWord) : Bool :=
  let rows := p.hdr.rows
  let m := wMod w
  let d := p.tensor (wDst w)
  let a := p.tensor (wA w)
  let b := p.tensor (wB w)
  let c := p.tensor (wC w)
  let a1 := p.tensor (wA w + 1)
  let b1 := p.tensor (wB w + 1)
  let b2 := p.tensor (wB w + 2)
  let noC := wC w = 0xFFF
  match wOp w with
  | 0x20 =>
    let ssrc := bitOf m 7
    let fa := if ssrc then (if keyGetD (p.pinned e) (bitsOf m 4 3) false then 2 else 1) else a.fmt
    let k := if ssrc then 32 else a.cols
    (ssrc || (plain [1, 2] a && decide (a.rows ≤ 256))) && [0, 1].contains b.fmt && decide (b.scale ≤ 1) &&
    (ssrc || !(fa = 2 && b.fmt = 0)) && b.rows = k && decide (b.cols ≤ 32) &&
    (noC || (plain [3] c && c.rows = 1 && c.cols = b.cols && b.scale = 0 && (ssrc || c.shift = a.shift + b.shift)))
  | 0x21 =>
    plain [1, 2, 3] d && decide (d.rows ≤ 256) && decide (d.cols ≤ 32) &&
    (noC || (c.rows = d.rows && c.cols = d.cols && c.fmt = d.fmt && c.shift = d.shift && c.scale = 0))
  | 0x22 =>
    tableOk [2] 2 c && (wDst w = 0xFFF || (d.rows = 32 && d.cols = 32 && d.scale = 0 &&
      (if bitOf m 6 then d.fmt = 2 && d.shift = -15 else d.fmt = 1 && d.shift = -7)))
  | 0x30 | 0x31 =>
    plain [1, 2, 3] a && plain [1, 2, 3] d && plain [1, 2, 3] b && d.rows = a.rows && d.cols = a.cols && bcastOk m a b
  | 0x32 => plain [1, 2, 3] a && plain [1, 2, 3] d && d.rows = a.rows && d.cols = a.cols && tableOk [1, 2] 1 c && c.fmt = d.fmt
  | 0x33 =>
    plain [1, 2, 3] a && plain [1, 2, 3] d && d.rows = a.rows && d.cols = a.cols && plain [2] b && b.rows = 1 &&
    b.cols = a.cols && tableOk [2] 1 c
  | 0x34 =>
    plain [1, 2, 3] a && plain [1, 2, 3] d && d.rows = a.rows && d.cols = a.cols && (a.own = 2 || a.rows % rows = 0) &&
    (wB w = 0xFFF || (plain [1] b && b.rows = a.rows && b.cols = 1))
  | 0x40 =>
    let side := bitOf m 1 || bitOf m 2
    queryOk rows a && keyOk a b && b1.own = 2 && b1.part = 1 && b1.region = b.region && [0, 1].contains b1.fmt &&
    b1.scale = 2 && b1.cols = a.cols && (!side || sideOk a1 a.rows) && (!bitOf m 2 || rotaryOk c a.cols) &&
    (bitsOf m 4 2 != 2 || (plain [2] b2 && b2.rows % rows = 0)) &&
    [1, 2].contains d.fmt && d.scale = 0 && d.own = 1 && d.rows = a.rows && d.cols = a.cols
  | 0x41 =>
    let side := bitOf m 0 || bitOf m 1
    plain [1] a && decide (a.rows ≤ 32) && widthOk a.cols && plain [1] b && plain [1] b1 && b.cols = a.cols &&
    b1.cols = a.cols && b1.rows = b.rows && decide (32 ≤ b.rows) && decide (b.rows ≤ 256) && b.rows % 32 = 0 &&
    (!side || (sideOk a1 a.rows && sideOk b2 b.rows)) && tableOk [2] 1 c && plain [1, 2] d && d.rows = a.rows && d.cols = a.cols
  | 0x42 =>
    queryOk rows a && b.own = 2 && b.part = 2 && b.fmt = 1 && b.rows % 64 = 0 && b.cols = a.cols &&
    (!bitOf m 2 || (sideOk a1 a.rows && rotaryOk c a.cols)) && plain [3] d && d.own = 1 && d.rows = rows && d.cols = b.rows &&
    d.shift = a.shift + b.shift
  | 0x43 =>
    let side := bitOf m 1 || bitOf m 2
    queryOk rows a && keyOk a b && b1.fmt = 4 && b1.scale = 0 && b1.cols = 1 && b1.rows = a.rows &&
    (!side || sideOk a1 a.rows) && (!bitOf m 2 || rotaryOk c a.cols) && (bitsOf m 4 2 != 2 || plain [2] b2) &&
    plain [2] d && d.shift = -15 && d.rows = a.rows && d.cols = b.rows
  | 0x50 =>
    let t := m % 64 + 1
    plain [2] a && a.shift = -15 && plain [1, 2] b && b.own = 1 && b.rows = rows * t && a.rows = b.rows && a.cols = b.cols &&
    d.rows = b.rows && d.cols = b.cols && d.fmt = b.fmt && d.scale = 0 && d.shift = b.shift &&
    (!bitOf m 6 || (c.own = 2 && c.scale = 0 && c.fmt = d.fmt && c.shift = d.shift && c.rows = 1 && c.cols = b.cols))
  | 0x60 =>
    plain [2, 3] a && decide (a.cols ≤ 8192) && decide (m + 1 ≤ a.cols) &&
    (wB w = 0xFFF || (plain [1] b && b.rows = a.rows && b.cols = a.cols)) && plain [2] d && d.rows = a.rows && d.cols = m + 1
  | 0x61 =>
    let n := m % 16 + 1
    plain [3] a && a.rows = rows * n && decide (a.cols ≤ 4096) && plain [3] b && b.own = 2 && b.rows = n && b.cols = 1 &&
    plain [3] d && d.rows = rows * n && d.cols = 3 && a.shift = b.shift && b.shift = d.shift
  | 0x62 => plain [3] a && a.rows = rows && plain [2] d && d.rows = rows && d.cols = m + 1
  | 0x63 =>
    plain [2] a && a.rows = rows && plain [3] b && b.own = 2 && b.rows = 1 && b.cols = 2 && tableOk [2] 1 c && plain [3] d &&
    d.rows = rows && d.cols = 1
  | 0x70 =>
    plain [1, 2] a && plain [1, 2] d && d.rows = a.rows && d.cols = a.cols && a.cols % ((blockSize m).getD (16, 2)).1 = 0
  | 0x71 =>
    decide (a.fmt ≤ 3) && decide (d.fmt ≤ 3) && d.rows = a.rows && d.cols = a.cols && (!bitOf m 4 || d.scale != 0)
  | _ =>
    let val := bitOf m 3
    plain [1, 2] a && a.own = 1 && decide (1 ≤ a.rows / rows) && decide (a.rows / rows ≤ 16) && sideOk a1 a.rows &&
    (val || (plain [1] b && b.rows = 1 && b.cols = a.cols && b.own = 3)) && (!bitOf m 2 || rotaryOk c a.cols) &&
    d.own = 2 && d.cols = a.cols && (if val then d.part = 1 && [0, 1].contains d.fmt && d.scale = 2
      else d.part = 0 && d.fmt = 1 && d.scale = 1) &&
    (match blockSize m with
      | some s => a.cols % s.1 = 0
      | none => true)

/-- The rules of R261, R263 and R313 on one use of a region. -/
def regionUseOk (p : Plan) (e op role : Nat) (d : TDesc) : Bool :=
  let paged := (p.geom d.region).paged
  let thresher := e = 16 || e = 17
  (d.region < 62 || (d.part = 3 && !paged && decide (64 ≤ d.offset + d.span))) &&
  (if !paged then d.part = 3
   else if thresher then d.part != 3
   else if op = 0x72 && role = 0 then d.part = 0 || d.part = 1
   else if d.part = 2 then decide (e < 16) && d.rows = 2 && d.fmt = 1
   else d.part = 3 && d.offset = 0 && d.rows = 1 && d.cols = 16 && d.fmt = 3 && role != 0)

/-- A format T word fails code 0x07. -/
def badTensorWord (p : Plan) (v : VariantRec) (a : WordAt) : Bool :=
  let w := a.word
  let op := wOp w
  let slots := wordSlots w
  let isTable := fun (role : Nat) => role = 3 && [0x22, 0x32, 0x33, 0x41, 0x63].contains op
  slots.any (fun sl =>
    let d := p.tensor sl.2
    decide (p.descs.length ≤ sl.2) || !descOk d (isTable sl.1) a.counts.length || !ownOk p d a.counts ||
    (d.fmt = 4 && !(op = 0x43 && sl.1 = 4)) || (d.own = 2 && !regionUseOk p v.engine op sl.1 d)) ||
  !opcodeOk p v.engine w ||
  (wDst w != 0xFFF && (slots.filter fun sl => sl.1 != 0).any fun sl =>
    operandsMeet (p.tensor (wDst w)) (p.tensor sl.2) a.counts &&
    !(sl.1 = 1 && mayInPlace op && inPlace (p.tensor (wDst w)) (p.tensor sl.2)))

/-- A plan move fails code 0x07 at some iteration (R93, R94, R142, R185). -/
def badMoveWord (p : Plan) (a : WordAt) : Bool :=
  let w := a.word
  let bits := moveBits (p.slot (wDst w)) (p.slot (wDst w + 1))
  let d := moveDesc bits
  let n := a.inner
  let inT0 := fun (x : Nat) => decide (x + d.bytes ≤ 0x300_0000)
  let inT1 := fun (x : Nat) => decide (p.hdr.t1Base ≤ x) && decide (x + d.bytes ≤ p.hdr.t1Base + p.hdr.t1Foot)
  let inC := fun (x : Nat) => decide (p.hdr.constBase ≤ x) && decide (x + d.bytes ≤ p.hdr.constBase + p.hdr.constLen)
  let ends := fun (base step : Nat) (f : Nat → Bool) => f base && f (base + (n - 1) * step * 64)
  decide (p.descs.length ≤ wDst w + 1) || moveBadEncoding bits || d.len = 0 || d.owner != 64 || d.dst % 64 != 0 ||
  (d.kind != 2 && d.src % 64 != 0) ||
  (if d.kind = 1 then !ends d.src (wSrcStep w) inC || !ends d.dst (wDstStep w) inT0
   else (d.kind = 0 && !ends d.src (wSrcStep w) fun x => inT0 x || inT1 x) ||
     !ends d.dst (wDstStep w) (fun x => inT0 x || inT1 x) ||
     (List.range n).any fun i => rangesMeet (d.dst + i * wDstStep w * 64) d.bytes p.hdr.constBase p.hdr.constLen)

/-- The values of a list are all equal. -/
def allEq {α : Type} [DecidableEq α] : List α → Bool
  | [] => true
  | x :: xs => xs.all (· = x)

/-- A region's uses break R262. -/
def badRegion (p : Plan) (r : Nat) : Bool :=
  let us := p.uses.filter fun u => u.desc.region = r
  let parts := us.filter fun u => u.desc.part < 3
  let flat := us.any fun u => u.desc.part = 3 && !(u.desc.offset = 0 && u.desc.rows = 1 && u.desc.cols = 16 && u.desc.fmt = 3)
  let g := p.geom r
  let vals := us.filter fun u => u.op = 0x72 && bitOf u.mod 3 && u.role = 0
  (!parts.isEmpty && flat) || !allEq (parts.map fun u => u.desc.cols) ||
  !allEq ((us.filter fun u => u.desc.part = 1).map fun u => u.desc.fmt) ||
  !allEq ((us.filter fun u => u.desc.part = 2 && (u.engine = 16 || u.engine = 17)).map fun u => (u.desc.rows, u.desc.shiftBits)) ||
  (g.summarised && (g.d = 32 || decide (16 < g.aMax))) || !allEq (vals.map fun u => (u.aShift, u.mod % 4)) ||
  (g.keyPath && g.valPath && us.any fun u => appendSum us false u.engine u.variant != appendSum us true u.engine u.variant &&
    !(p.variants.any fun v => v.engine != u.engine && appendSum us true v.engine v.variant + appendSum us false v.engine v.variant != 0))

/-- Code 0x07. -/
def bad07 (p : Plan) : Bool :=
  p.allWords.any (fun vw => (withLoops vw.2 0 []).any fun a =>
    if isTensorOp a.word then badTensorWord p vw.1 a else if wOp a.word = 0x80 then badMoveWord p a else false) ||
  p.regions.any (badRegion p)

/-! ### Codes 0x08 to 0x0A -/

/-- Cycles of a time in µs at an engine's budget clock (Table 4-3): the Flail 800 MHz, the Quern 400 MHz, the Glume
600 MHz, every other engine 1.2 GHz. -/
def budgetLimit (e us : Nat) : Nat := us * (if e = 30 then 800 else if e = 31 then 400 else if e = 32 then 600 else 1200)

/-- Code 0x08 (R122, R144). -/
def bad08 (rd : Reader) (p : Plan) : Bool :=
  let sec := ((findSection (readDir rd) 3).map Prod.snd).getD ⟨0, 0, 0, 0, 0⟩
  decide (sec.length < 16 * sec.count) ||
  (recordOffsets sec 0 16).any (fun o => decide (1 < rd (o + 2) 1) || rd (o + 12) 4 != 0) ||
  p.variants.any (fun v =>
    !(p.hdr.engines.contains v.engine) || decide (7 < v.variant) || v.capacity = 0 || decide (p.hdr.rows < v.capacity) ||
    v.length = 0 || decide (4096 < v.length) || !p.inStream v || (p.words v).getLast? != some 0 ||
    v.budget = 0 || decide (0x0FFF_FFFF < v.budget) ||
    decide (budgetLimit v.engine (if v.shed then p.hdr.wShed else p.hdr.work) < v.budget)) ||
  p.variants.zipIdx.any (fun a => p.variants.zipIdx.any fun b => a.2 < b.2 && a.1.engine = b.1.engine &&
    (a.1.variant = b.1.variant || rangesMeet a.1.start a.1.length b.1.start b.1.length))

/-- The largest amount that the variants of one engine post to a knot. -/
def Plan.engineMax (p : Plan) (e k : Nat) : Nat :=
  (p.posts.filter fun r => r.engine = e && r.knot = k).foldl (fun m r => max m r.total) 0

/-- Code 0x09 (R126). -/
def bad09 (rd : Reader) (p : Plan) : Bool :=
  let sec := ((findSection (readDir rd) 4).map Prod.snd).getD ⟨0, 0, 0, 0, 0⟩
  decide (sec.length < 128 + 8 * sec.count) ||
  (recordOffsets sec 128 8).any (fun o => rd (o + 3) 1 != 0 || rd (o + 6) 2 != 0 || decide (63 < rd (o + 2) 1)) ||
  p.posts.any (fun r => match p.variants.find? fun v => v.engine = r.engine && v.variant = r.variant with
    | none => true
    | some v => p.postTotal v r.knot != r.total) ||
  p.variants.any (fun v => (List.range 64).any fun k =>
    p.postTotal v k != 0 && (p.posts.filter fun r => r.engine = v.engine && r.variant = v.variant && r.knot = k).length != 1) ||
  (List.range 64).any (fun k => decide (65535 < p.knotStart.getD k 0 + sumTo 33 fun e => p.engineMax e k))

/-- The reads of a plan are covered by its residency contracts (R264). -/
def contractsCover (p : Plan) : Bool :=
  let has := fun (r k n : Nat) => p.contracts.any fun c => c.region = r && c.kind = k && decide (n ≤ c.n)
  p.uses.all (fun u =>
    let r := u.desc.region
    if (u.op = 0x40 || u.op = 0x43) && u.role = 2 then
      if bitsOf u.mod 4 2 = 1 then has r 0 0 || has r 1 (p.geom r).lkMax else has r 0 0
    else if u.op = 0x42 && u.role = 2 then has r 2 0
    else true) &&
  (p.pinnedSlots.isEmpty || p.contracts.any fun c => c.kind = 3)

/-- Code 0x0A (R131, R132, R264). -/
def bad0A (rd : Reader) (p : Plan) : Bool :=
  let dir := readDir rd
  let s5 := ((findSection dir 5).map Prod.snd).getD ⟨0, 0, 0, 0, 0⟩
  let s6 := ((findSection dir 6).map Prod.snd).getD ⟨0, 0, 0, 0, 0⟩
  decide (s5.length < 16 * s5.count) || decide (s6.length < 8 * s6.count) ||
  (recordOffsets s5 0 16).any (fun o => rd (o + 14) 2 != 0) ||
  p.stages.any (fun b => b.base % 64 != 0 || b.size % 64 != 0 || b.size = 0 || decide (0x300_0000 < b.base + b.size) ||
    decide (63 < b.fill) || decide (63 < b.drain) || rangesMeet b.base b.size p.hdr.rowMap 128 ||
    p.ranges.any fun r => r.1.own != 3 && r.1.own != 4 && rangesMeet b.base b.size r.2.1 r.2.2) ||
  p.stages.zipIdx.any (fun a => p.stages.zipIdx.any fun b => a.2 < b.2 && rangesMeet a.1.base a.1.size b.1.base b.1.size) ||
  p.contracts.any (fun c => decide (3 < c.kind) || decide (63 < c.region) || (c.kind != 1 && c.n != 0)) ||
  (recordOffsets s6 0 8).any (fun o => rd (o + 2) 2 != 0) || !contractsCover p

/-- The checks made on the header before anything moves (R145 step 1): the code and the section of the first that fails.
(DEDUCED, unsafe: notes/assumptions/55.md) -/
def State.checkFirst (s : State) (rd : Reader) (supplied : Nat) : Option (Nat × Nat) :=
  if s.pendingPlan.isSome || s.load.isSome then some (0x0B, 0xFF)
  else if bad01 rd supplied then some (0x01, 0xFF)
  else if rd 4 2 != 1 then some (0x02, 0xFF)
  else match bad03 rd with
    | some i => some (0x03, i)
    | none => if s.bad05 rd then some (0x05, 0xFF) else none

/-- The checks made on the copied image (R145 step 4). `sig` says whether the signature passes (R118).
(DEDUCED, unsafe: notes/assumptions/55.md) -/
def State.checkImage (s : State) (rd : Reader) (sig : Bool) : Option (Nat × Nat) :=
  let dir := readDir rd
  let p := readPlan rd
  if !sig then some (0x04, sectionIndex dir 15)
  else if s.bad06 rd p then some (0x06, sectionIndex dir 1)
  else if bad07 p then some (0x07, sectionIndex dir 2)
  else if bad08 rd p then some (0x08, sectionIndex dir 3)
  else if bad09 rd p then some (0x09, sectionIndex dir 4)
  else if bad0A rd p then some (0x0A, if (findSection dir 5).isSome then sectionIndex dir 5 else sectionIndex dir 6)
  else none

end Sys2Proof.Machine
end

