-- ==== Sys2Proof/Machine/Regs.lean ====
section
/-!
DEFINITION. Machine/Regs.lean: what a register access does by the access types of its fields (R18 to R25, R577 to R582), before
any behaviour of a block: field writes, reserved encodings, locks, held RWT writes, and the pairs with each interface's latch.
-/
namespace Sys2Proof.Machine

/-! ### Interfaces (R337) -/

/-- The number of an interface: PCI Express, the HSP, then the control cores. -/
def ifaceNum : Iface → Nat
  | .pcie => 0
  | .hsp => 1
  | .cc n => 2 + n.val

/-- The main domain runs: released from reset and not isolated.
(DEDUCED, unsafe: notes/assumptions/6.md) -/
def State.mainOn (s : State) : Bool :=
  match s.aon.phase with
  | .powerupB | .on | .powerdown => !s.aon.held
  | .off | .powerupA => false

/-- An interface serves registers (R582): the HSP and the cores from the release step until OFF, PCI Express from READY or
the boot wait.
(DEDUCED, unsafe: notes/assumptions/6.md) -/
def State.served (s : State) (i : Iface) : Bool :=
  s.mainOn &&
  (match i with
    | .pcie => s.bit Reg.GLOBAL_PWRSTAT 0 || s.bit Reg.NVC_BOOTSTAT 31
    | _ => true)

/-! ### Fields -/

/-- An encoding is not reserved (R20). -/
def legalOk (l : Legal) (v : Nat) : Bool :=
  match l with
  | .any => true
  | .range lo hi => decide (lo ≤ v) && decide (v ≤ hi)
  | .oneOf vs => vs.contains v

/-- The lock of a register's RWL fields is set (R23): its own LOCK bit. -/
def regLocked (d : RegDesc) (cur : Word) : Bool :=
  d.fields.any fun f => f.access = .w1s && wordField cur f.lo f.width = 1

/-- A write of one field (Table 0-4): the register value after it. -/
def fieldWrite (f : RegField) (locked : Bool) (v cur : Word) : Word :=
  let x := wordField v f.lo f.width
  match f.access with
  | .rw => if legalOk f.legal x then wordSetField cur f.lo f.width x else cur
  | .rwl => if !locked && legalOk f.legal x then wordSetField cur f.lo f.width x else cur
  | .w1c => cur &&& ~~~(v &&& fieldMask f.lo f.width)
  | .w1s => cur ||| (v &&& fieldMask f.lo f.width)
  | .ro | .wo | .rwt => cur

/-- The value of a register after a write of its fields; reserved bits keep reading 0 (R19). -/
def writeFields (d : RegDesc) (v cur : Word) : Word :=
  d.fields.foldl (fun (c : Word) f => fieldWrite f (regLocked d cur) v c) cur

/-- The bits of a write that RWT fields hold: those of legal encodings (R20, R22). -/
def rwtMask (d : RegDesc) (v : Word) : Word :=
  d.fields.foldl (fun (m : Word) f =>
    if f.access = .rwt && legalOk f.legal (wordField v f.lo f.width) then m ||| fieldMask f.lo f.width else m) 0

/-- A write carries a value for a locked field that differs from the one in effect (R23). -/
def breaksLock (d : RegDesc) (v cur : Word) : Bool :=
  regLocked d cur && d.fields.any fun f => f.access = .rwl && wordField v f.lo f.width != wordField cur f.lo f.width

/-- A field reads 0 (WO). -/
def readMask (d : RegDesc) : Word :=
  d.fields.foldl (fun (m : Word) f => if f.access = .wo then m else m ||| fieldMask f.lo f.width) 0

/-! ### One register -/

/-- A register's value as a read returns it (R18, R19): RWT fields give the value in effect. -/
def State.regRead (s : State) (off : Nat) : Word :=
  match findReg off with
  | none => 0
  | some (d, _) => s.reg off &&& readMask d

/-- Hold the RWT part of a write for the next fallow window (R22).
(DEDUCED, unsafe: notes/assumptions/68.md) -/
def State.holdRwt (s : State) (off : Nat) (m v : Word) : State :=
  if m = 0 then s else { s with rwtHeld := s.rwtHeld ++ [(off, m, v &&& m)] }

/-- A write to a register takes effect field by field. -/
def State.regStore (s : State) (off : Nat) (v : Word) : State :=
  match findReg off with
  | none => s
  | some (d, _) => (s.setReg off (writeFields d v (s.reg off))).holdRwt off (rwtMask d v) v

/-- A write that breaks a lock is a violation of the partner that made it; control cores are no partners (R23).
(DEDUCED, unsafe: notes/assumptions/68.md) -/
def State.lockViolation (s : State) (i : Iface) (off : Nat) (v : Word) : State :=
  match findReg off with
  | none => s
  | some (d, _) =>
    if breaksLock d v (s.reg off) then
      match i with
      | .pcie => s.logViolation 1 3 { addr := off, detail := v.toNat }
      | .hsp => s.logViolation 2 9 { addr := off, detail := v.toNat }
      | .cc _ => s
    else s

/-- A violation of class 1 or 2 that a refused register write is, with its SUB for each partner (Table 11-4). -/
def State.writeViolation (s : State) (i : Iface) (pcieSub hspSub off : Nat) (v : Word) : State :=
  match i with
  | .pcie => s.logViolation 1 pcieSub { addr := off, detail := v.toNat }
  | .hsp => s.logViolation 2 hspSub { addr := off, detail := v.toNat }
  | .cc _ => s

/-! ### Pairs (R24, R579) -/

/-- The latch of an interface for a pair, by the offset of its high word. -/
def pairKey (i : Iface) (high : Nat) : Nat := ifaceNum i * 2 ^ 24 + high

/-- The role of the register at an offset. -/
def pairRole (off : Nat) : PairRole :=
  match findReg off with
  | none => .single
  | some (d, k) => match d.pair with
    | .logEntry => if k % 8 = 0 || k % 8 = 4 then .low else if k % 8 = 1 || k % 8 = 5 then .high else .single
    | r => r

/-- A read of a low word latches the high word for the interface. -/
def State.latchHigh (s : State) (i : Iface) (low : Nat) : State :=
  { s with hiLatch := cellSet s.hiLatch (pairKey i (low + 4)) (s.reg (low + 4)) }

/-- What a read of a high word returns. -/
def State.highRead (s : State) (i : Iface) (high : Nat) : Word := cellGet s.hiLatch (pairKey i high)

/-- A low word is held for the interface. -/
def State.holdLow (s : State) (i : Iface) (low : Nat) (v : Word) : State :=
  { s with lowHeld := keyPut s.lowHeld (pairKey i (low + 4)) v }

/-- A write of the high word commits both words, or the high word alone. -/
def State.commitPair (s : State) (i : Iface) (high : Nat) (v : Word) : State :=
  let k := pairKey i high
  let s' := match keyGet s.lowHeld k with
    | some lo => s.regStore (high - 4) lo
    | none => s
  { s' with lowHeld := keyDel s'.lowHeld k }.regStore high v

/-- A register as an interface reads it, with the effect of the read on the interface's latch. -/
def State.regFetch (s : State) (i : Iface) (off : Nat) : Word × State :=
  match pairRole off with
  | .low => (s.regRead off, s.latchHigh i off)
  | .high => (s.highRead i off, s)
  | _ => (s.regRead off, s)

end Sys2Proof.Machine
end

