-- ==== Sys2Proof/Machine/HostQueue.lean ====
section
/-!
DEFINITION. Machine/HostQueue.lean: the host queues as the host and CC1 drive them: enable, reset, doorbells (R302 to R304,
R329, R332), the fetch of a request with its checks (R303, R305, R306, R309, R325 to R327), completions (R310, R334), moderation
and held records (R307, R330), and the posting of a tick's results (R314, R340 to R342).
-/
namespace Sys2Proof.Machine

/-! ### Enable and reset -/

/-- Where a ring lies: its base and its bytes. -/
def State.sqRing (s : State) (q : Nat) : Nat × Nat := (s.reg64 (qReg Reg.HOST_SQBASE_LO q), 64 * s.sqLen q)
/-- The completion ring. -/
def State.cqRing (s : State) (q : Nat) : Nat × Nat := (s.reg64 (qReg Reg.HOST_CQBASE_LO q), 32 * s.cqLen q)

/-- The conditions of R302 hold. -/
def State.enableOk (s : State) (q : Nat) : Bool :=
  let sz := s.fld (qReg Reg.HOST_QCTRL q) 8 4
  let cz := s.fld (qReg Reg.HOST_QCTRL q) 12 4
  let (sb, sn) := s.sqRing q
  let (cb, cn) := s.cqRing q
  decide (4 ≤ sz) && decide (sz ≤ 12) && decide (4 ≤ cz) && decide (cz ≤ 12) && decide (sz ≤ cz) &&
  (if s.qLocal q then
    sb % 64 = 0 && cb % 64 = 0 && !rangesMeet sb sn cb cn &&
    (match s.staging with
      | some (b, n) => decide (b ≤ sb) && decide (sb + sn ≤ b + n) && decide (b ≤ cb) && decide (cb + cn ≤ b + n)
      | none => false)
  else sb % 4096 = 0 && cb % 4096 = 0)

/-- Indices at 0 and the first pass of completions (R302). -/
def State.queueZero (s : State) (q : Nat) : State :=
  let s := (s.setReg (qReg Reg.HOST_SQHEAD q) 0).setReg (qReg Reg.HOST_CQTAIL q) 0
  s.updQueue q fun h => { h with sqTail := 0, cqHead := 0, phase := true, unsignalled := 0 }

/-- Enable a queue, or refuse (R302). -/
def State.enableQueue (s : State) (q : Nat) : State :=
  if s.enableOk q then
    ((s.queueZero q).setBit (qReg Reg.HOST_QCTRL q) 0 true).setBit (qReg Reg.HOST_QSTAT q) 0 true
  else s.faultQueue q 5

/-- The moves of a load stop, and nothing of its image remains (R91, R145). -/
def State.stopLoad (s : State) : State :=
  let mine := fun (m : Nat × Move) => m.2.fallow && m.2.datum = .load
  let s := (s.moves.filter mine).foldl (fun (s : State) m => s.showMove m.1 m.2.desc.owner true .failed) s
  { s with moves := s.moves.filter fun m => !mine m, load := none }.setBit Reg.PLAN_STAT 2 false

/-- The moves of a stream's datum that are not Committing stop (R91); answers whether one of them is Committing. -/
def State.stopMoves (s : State) (mine : MoveDatum → Bool) : Bool × State :=
  let late := s.moves.any fun m => m.2.fallow && mine m.2.datum && m.2.state = .committing
  let gone := fun (m : Nat × Move) => m.2.fallow && mine m.2.datum && m.2.state != .committing
  let s := (s.moves.filter gone).foldl (fun (s : State) m => s.showMove m.1 m.2.desc.owner true .failed) s
  (late, { s with moves := s.moves.filter fun m => !gone m })

/-- An acting request is stopped as an ABORT stops it (R324); answers whether it was. -/
def State.stopReq (s : State) (q : Nat) (r : Req) : Bool × State :=
  if r.kind = 0x10 then (true, s.stopLoad)
  else if r.kind = 0x25 then
    let (late, s') := s.stopMoves fun d => d = .record r.stream
    if late then (false, s)
    else (true, { s' with exports := s'.exports.filter fun x => !(x.q = q && x.tag = r.tag) })
  else if r.kind = 0x26 then
    let committed := s.txMoves.any fun x => x.datum.owner = some r.stream && x.committed
    let (late, s') := s.stopMoves fun d => d.owner = some r.stream
    if late || committed then (false, s)
    else
      (true, { s' with
        migrations := s'.migrations.filter fun m => m.sc != r.stream,
        txMoves := s'.txMoves.filter fun x => x.datum.owner != some r.stream }.updStream r.stream fun t =>
          { t with state := .opened })
  else (false, s)

/-- Queue reset (R329): fetched requests are dropped or stopped without a completion, the tag window is cleared and the queue
is left disabled with every index 0. -/
def State.resetQueue (s : State) (q : Nat) : State :=
  let s := ((s.queue q).reqs.filter fun r => r.state = .acting && !r.replay).foldl (fun (s : State) r => (s.stopReq q r).2) s
  let s := s.queueZero q
  let s := s.updQueue q fun h => { h with reqs := [], window := [] }
  let st := qReg Reg.HOST_QSTAT q
  let s := ((s.setBit st 0 false).setBit st 2 false).setFld st 8 4 0
  (s.setBit (qReg Reg.HOST_QCTRL q) 0 false).showHeld q

/-- A write of `HOST_QCTRL` (Table 10-13). -/
def State.writeQctrl (s : State) (q : Nat) (v : Word) : State :=
  let r := qReg Reg.HOST_QCTRL q
  let on := s.bit r 0
  let s := (s.setFld r 24 1 (wordField v 24 1)).setFld r 16 5 (wordField v 16 5)
  let s := if on then s
    else ((s.setFld r 8 4 (wordField v 8 4)).setFld r 12 4 (wordField v 12 4)).setFld r 2 1 (wordField v 2 1)
  if wordField v 1 1 = 1 || wordField v 0 1 = 0 then s.resetQueue q
  else if on || s.qFault q then s
  else s.enableQueue q

/-- A host writes `HOST_QCTRL.EN` 1: the queue is enabled, or refused with FCAUSE 5. -/
def execQueueEnable (i : Iface) (q : Fin 16) (v : Word) (s : State) : Host.Outcome State Fault Refusal :=
  .next <| if s.served i then s.writeQctrl q (v ||| 1) else s

/-- A host writes `HOST_QCTRL.RESET` 1 or EN 0. -/
def execQueueReset (i : Iface) (q : Fin 16) (v : Word) (s : State) : Host.Outcome State Fault Refusal :=
  .next <| if s.served i then s.writeQctrl q (v ||| 2) else s

/-! ### Doorbells (R303, R304, R332) -/

/-- What the host placed in its memory before a doorbell.
(DEDUCED, unsafe: notes/assumptions/54.md) -/
def State.placed (s : State) (l : List HostBytes) : State :=
  l.foldl (fun (s : State) b => { s with host := cellSetMany s.host b.addr b.bytes }) s

/-- A doorbell to a queue that is disabled, resetting or faulted is ignored and logged (R332). -/
def State.deadDoorbell (s : State) (q : Nat) : State := s.logViolation 3 4 { source := q, queue := q }

/-- The submission doorbell. -/
def State.ringSq (s : State) (q v : Nat) : State :=
  let n := s.sqLen q
  let h := s.sqHead q
  let t := (s.queue q).sqTail
  if !s.qOn q || s.qFault q then s.deadDoorbell q
  else if n ≤ v then s.faultQueue q 3
  else if (v + n - h) % n < (t + n - h) % n then s.faultQueue q 4
  else s.updQueue q fun x => { x with sqTail := v }

/-- The completion doorbell. -/
def State.ringCq (s : State) (q v : Nat) : State :=
  let n := s.cqLen q
  let h := (s.queue q).cqHead
  if !s.qOn q || s.qFault q then s.deadDoorbell q
  else if n ≤ v || (s.cqTail q + n - h) % n < (v + n - h) % n then s.logViolation 3 1 { source := q, queue := q }
  else s.updQueue q fun x => { x with cqHead := v }

/-- A host writes `HOST_SQDB`.
(DEDUCED, safe: notes/assumptions/61.md) -/
def execSqDoorbell (i : Iface) (q : Fin 16) (index : BitVec 16) (placed : List HostBytes) (s : State) :
    Host.Outcome State Fault Refusal :=
  .next <| let s := s.placed placed; if s.served i then s.ringSq q index.toNat else s

/-- A host writes `HOST_CQDB`. -/
def execCqDoorbell (i : Iface) (q : Fin 16) (index : BitVec 16) (s : State) : Host.Outcome State Fault Refusal :=
  .next <| if s.served i then s.ringCq q index.toNat else s

/-! ### Fetching -/

/-- Read a request record (Table 10-2). -/
def readReq (bs : List Byte) : Req :=
  { kind := leAt bs 0 1, flags := leAt bs 1 1, tag := leAt bs 2 2, stream := leAt bs 4 1, addr := leAt bs 8 8,
    len := leAt bs 0x10 4, param := (bs.drop 0x20).take 32, crc := (crc32 bs).toNat, replay := false, state := .waiting }

/-- The kinds of Table 10-5. -/
def reqKinds : List Nat :=
  [0x00, 0x01, 0x02, 0x10, 0x11, 0x12, 0x20, 0x21, 0x22, 0x23, 0x24, 0x25, 0x26, 0x30, 0x31, 0x40]

/-- PARAM bytes that a kind uses. -/
def usedParams (kind : Nat) : List Nat :=
  match kind with
  | 0x01 => [0]
  | 0x02 => [0, 2, 3]
  | 0x20 => [0, 1, 2, 3, 4, 5] ++ [8, 9, 10, 11] ++ (List.range 16).map (· + 16)
  | 0x26 => [0]
  | 0x30 => [0, 1, 2, 3, 4]
  | 0x31 => [0]
  | 0x40 => [0, 1, 2, 3, 4]
  | _ => []

/-- A byte of PARAM. -/
def Req.par (r : Req) (i : Nat) : Nat := leAt r.param i 1

/-- A kind, and for QUERY an item, names a stream. -/
def Req.namesStream (r : Req) : Bool :=
  (decide (0x21 ≤ r.kind) && decide (r.kind ≤ 0x31)) || (r.kind = 0x01 && [0, 1, 2, 5].contains (r.par 0))

/-- PARAM values that no other status answers: their offset. -/
def Req.badParam (r : Req) : Option Nat :=
  if r.kind = 0x01 && decide (5 < r.par 0) then some 0x20
  else if r.kind = 0x20 && decide (1 < r.par 5) then some 0x25
  else if r.kind = 0x30 then
    if 1 < r.par 0 then some 0x20
    else if 3 < r.par 1 then some 0x21
    else if r.par 0 = 0 && decide (15 < r.par 2) then some 0x22
    else if r.par 0 = 1 && decide (31 < r.par 3) then some 0x23
    else if r.par 0 = 1 && !([1, 2].contains (r.par 4)) then some 0x24
    else none
  else if r.kind = 0x31 && decide (1 < r.par 0) then some 0x20
  else if r.kind = 0x40 && decide (4 < r.par 4) then some 0x24
  else none

/-- The first offending byte of a record that is Malformed (R325). -/
def badRecord (bs : List Byte) : Option Nat :=
  let r := readReq bs
  let dirty := fun (l : List Nat) => l.find? fun i => leAt bs i 1 != 0
  let known := reqKinds.contains r.kind
  let reserved := dirty ((List.range 32).filterMap fun i => if (usedParams r.kind).contains i then none else some (0x20 + i))
  let param := match reserved, r.badParam with
    | some a, some b => some (min a b)
    | some a, none => some a
    | none, b => b
  if !known then some 0
  else if 1 < r.flags then some 1
  else if r.tag = 0xFFFF then some 2
  else if (if r.namesStream then decide (63 < r.stream) else r.stream != 0xFF) then some 4
  else match dirty [5, 6, 7] with
    | some i => some i
    | none =>
      if r.addr % 64 != 0 then some 8
      else if r.len % 64 != 0 || (r.addr = 0 && r.len != 0) then some 0x10
      else match dirty ((List.range 12).map (· + 0x14)) with
        | some i => some i
        | none => param

/-- A request enters its queue's tag window (R326). -/
def State.enterWindow (s : State) (q : Nat) (r : Req) (result : Option (Nat × Nat × Nat)) : State :=
  if r.tag = 0xFFFF then s
  else s.updQueue q fun h => { h with window := ((⟨r.tag, r.crc, result⟩ : TagEntry) :: h.window).take 4096 }

/-- A fetched request joins its queue. -/
def State.joinReq (s : State) (q : Nat) (r : Req) : State := s.updQueue q fun h => { h with reqs := h.reqs ++ [r] }

/-- Take a record that has been read: a duplicate, a conflict of tags, malformed, or to be carried out (R325, R327). -/
def State.takeRecord (s : State) (q : Nat) (bs : List Byte) : State :=
  let r := readReq bs
  let log := fun (s : State) (sub detail : Nat) =>
    s.logViolation 3 sub { source := q, tag := r.tag, queue := q, detail := detail }
  match (s.queue q).window.find? fun e => e.tag = r.tag with
  | some e =>
    if e.crc = r.crc then s.joinReq q { r with replay := true }
    else (log s 3 r.tag).joinReq q { r with state := .done 0x0D r.tag 0 r.stream }
  | none =>
    match badRecord bs with
    | some off =>
      ((log s 2 off).enterWindow q r (some (0x01, off, 0))).joinReq q { r with state := .done 0x01 off 0 r.stream }
    | none => (s.enterWindow q r none).joinReq q r

/-- CC1 can fetch from a queue (R305). -/
def State.canFetch (s : State) (q : Nat) : Bool :=
  s.qOn q && !s.qFault q && s.sqHead q != (s.queue q).sqTail && decide ((s.queue q).reqs.length < 256) && decide (0 < s.cqFree q)

/-- The queue CC1 fetches from next (R306). -/
def State.nextQueue (s : State) : Option Nat := ((List.range 16).map fun i => (s.turn + i) % 16).find? s.canFetch

/-- CC1 fetches one request, round robin; `a` is what host memory answers to the read of a ring there.
(DEDUCED, unsafe: notes/assumptions/54.md) -/
def execRequestFetch (a : HostAnswer) (s : State) : Host.Outcome State Fault Refusal :=
  .next <|
    match s.coreUp 1, s.nextQueue with
    | true, some q =>
      let s := { s with turn := (q + 1) % 16 }
      let at_ := (s.sqRing q).1 + 64 * s.sqHead q
      let (bad, s) := if s.qLocal q then (let r := (s.logFlips at_ 64).senseRange at_ 64; (r.1.isSome, r.2)) else (a = .error, s)
      if bad then s.faultQueue q 1
      else
        let bs := s.ringRead q at_ 64
        (s.setFld (qReg Reg.HOST_SQHEAD q) 0 16 ((s.sqHead q + 1) % s.sqLen q)).takeRecord q bs
    | _, _ => s

/-! ### Completions -/

/-- The result of a request that may be posted: of a replay what the window stores, of an ABORT that let its target run on
`Not found` once the target has settled (R324, R327). -/
def State.resultOf (s : State) (q : Nat) (r : Req) : Option (Nat × Nat × Nat × Nat) :=
  if r.replay then
    match (s.queue q).window.find? fun e => e.tag = r.tag with
    | some e => e.result.map fun x => (x.1, x.2.1, x.2.2, r.stream)
    | none => none
  else match r.state with
    | .done st d v sc => some (st, d, v, sc)
    | .acting =>
      if r.kind = 0x02 then
        match (s.queue (r.par 0)).window.find? fun e => e.tag = leAt r.param 2 2 with
        | some e => if e.result.isSome then some (0x0C, 0, 0, r.stream) else none
        | none => some (0x0C, 0, 0, r.stream)
      else none
    | _ => none

/-- A stream's RTYPE 4 record is still held (R334): the completion of what closed the stream waits for it. -/
def State.endHeld (s : State) (r : Req) : Bool :=
  (r.kind = 0x21 || r.kind = 0x25) && s.orphans.any fun o => leAt o.2 5 1 = r.stream && leAt o.2 2 1 = 4

/-- CC1 posts the completion that stands first in a queue, when it is ready; `a` is what host memory answers to the write.
(DEDUCED, unsafe: notes/assumptions/54.md) -/
def execCompletionPost (q : Fin 16) (a : HostAnswer) (s : State) : Host.Outcome State Fault Refusal :=
  .next <|
    match (s.queue q).reqs with
    | [] => s
    | r :: rs =>
      match s.coreUp 1 && s.qOn q && !s.qFault q && !s.endHeld r, s.resultOf q r with
      | true, some (st, d, v, sc) =>
        let s := s.updQueue q fun h =>
          { h with reqs := rs,
                   window := if r.replay || st = 0x0D then h.window else setWindow h.window r.tag (st, d, v) }
        if !s.qLocal q && a = .error then s.faultQueue q 2
        else
          s.writeRecord q (bitOf r.flags 0)
            (completionBytes r.tag st r.kind sc (s.sqHead q) v d s.tickNo r.replay)
      | _, _ => s

/-- Held records are written while there is room (R330). -/
def execHeldResultFlush (q : Fin 16) (s : State) : Host.Outcome State Fault Refusal :=
  .next <| s.flushHeld q (s.orphans.length + (s.streams.map fun e => e.2.held.length + 1).sum)

/-- TIME µs have passed since the oldest unsignalled record of a queue (R307). -/
def execQmodTimeout (q : Fin 16) (s : State) : Host.Outcome State Fault Refusal :=
  .next <|
    let time := s.fld (qReg Reg.HOST_QMOD q) 16 16
    let h := s.queue q
    if time != 0 && h.unsignalled != 0 && s.bit (qReg Reg.HOST_QCTRL q) 24 then (s.reach (h.oldest + time)).signal q else s

/-! ### Results of a tick (R314) -/

/-- The latched variant of an engine writes the result region. -/
def State.writesResults (s : State) (e : Nat) : Bool :=
  match s.plan.variants.find? fun v => v.engine = e && v.variant = (s.eng e).variant with
  | none => false
  | some v => (s.plan.words v).any fun w =>
      isTensorOp w && (let d := s.plan.tensor (wDst w); wDst w != 0xFFF && d.own = 2 && d.part = 3 && d.region = 63)

/-- Every engine whose latched variant writes region 63 has ended its slice. -/
def State.resultsReady (s : State) : Bool :=
  (List.range 33).all fun e => !(s.eng e).running || !s.writesResults e

/-- What one tick leaves a stream: whether it ended at a resumption point, and its records. `tokens` is false where the row's
results may not be posted. -/
def State.streamResults (s : State) (sc r : Nat) (t : Stream) : State :=
  let n := s.tickNo
  let home := match keyGet t.flats 63 with
    | some f => some f.home
    | none => none
  let (bad, s) := match home with
    | some a => s.senseRange a 64
    | none => (none, s)
  let s := match bad with
    | some a => (s.openHole sc 4 n 3).endStream sc 3 4 |>.logError 2 (if a < 0x300_0000 then 1 else 2) { stream := sc, addr := a }
    | none => s
  let bs := match home, bad with
    | some a, none => s.bytesAt a 64
    | _, _ => []
  let rc := leAt bs 0 1
  let tc := leAt bs 1 1
  let utt := bitOf (leAt bs 2 1) 0
  let s := match home with
    | some a => s.storeBytes a ([0, 0, 0] ++ (s.bytesAt (a + 3) 61))
    | none => s
  let excess := decide (8 < rc) || decide (8 < tc)
  let unread := s.unreadAll || s.unreadRows.contains r
  let fresh := (s.stream sc).bind (·.hole) |>.isNone
  let s := if excess then (s.planFault 3 0x3F 0 0 { stream := sc }).openHole sc 3 n 3 else s
  let holed := ((s.stream sc).bind (·.hole)).isSome
  let spoke := decide (rc + tc ≠ 0)
  let s := if holed || unread || excess then s
    else
      let lane := fun (s : State) (l c off : Nat) =>
        if c = 0 then s else s.postResult sc 1 l c n n ((bs.drop off).take (2 * c))
      let s := lane (lane s 0 rc 4) 1 tc 0x14
      if utt then s.postResult sc 3 0 0 n n [] else s
  let rested := utt || (t.rested && !spoke)
  let s := s.updStream sc fun t =>
    { t with rested := rested, lastToken := if spoke then n else t.lastToken, lastRest := if rested then n else t.lastRest }
  if rested || (excess && fresh) then s.postHole sc n n false else s

/-- CC1 posts the results of the tick in progress.
(DEDUCED, unsafe: notes/assumptions/18.md) -/
def State.postResults (s : State) : State :=
  if s.resultsDone then s
  else
    s.rows.foldl (fun (s : State) x =>
      match s.stream x.2 with
      | some t => s.streamResults x.2 x.1 t
      | none => s) { s with resultsDone := true }

/-- The results of the tick are posted once every engine that writes the result region has ended its slice.
(DEDUCED, unsafe: notes/assumptions/18.md) -/
def execResultPost (s : State) : Host.Outcome State Fault Refusal :=
  .next <| if (s.tick.phase = .slice || s.tick.phase = .fallow) && s.resultsReady then s.postResults else s

end Sys2Proof.Machine
end

