-- ==== Sys2Proof/Machine/Sign.lean ====
section
/-!
DEFINITION. Machine/Sign.lean: SHA-256 and ECDSA over P-256 (FIPS 180-4 and FIPS 186-5), as secure boot uses them (R539).
-/
namespace Sys2Proof.Machine

/-! ### SHA-256 -/

/-- The round constants. -/
def shaK : List Nat := [
  0x428a2f98, 0x71374491, 0xb5c0fbcf, 0xe9b5dba5, 0x3956c25b, 0x59f111f1, 0x923f82a4, 0xab1c5ed5,
  0xd807aa98, 0x12835b01, 0x243185be, 0x550c7dc3, 0x72be5d74, 0x80deb1fe, 0x9bdc06a7, 0xc19bf174,
  0xe49b69c1, 0xefbe4786, 0x0fc19dc6, 0x240ca1cc, 0x2de92c6f, 0x4a7484aa, 0x5cb0a9dc, 0x76f988da,
  0x983e5152, 0xa831c66d, 0xb00327c8, 0xbf597fc7, 0xc6e00bf3, 0xd5a79147, 0x06ca6351, 0x14292967] ++ [
  0x27b70a85, 0x2e1b2138, 0x4d2c6dfc, 0x53380d13, 0x650a7354, 0x766a0abb, 0x81c2c92e, 0x92722c85,
  0xa2bfe8a1, 0xa81a664b, 0xc24b8b70, 0xc76c51a3, 0xd192e819, 0xd6990624, 0xf40e3585, 0x106aa070,
  0x19a4c116, 0x1e376c08, 0x2748774c, 0x34b0bcb5, 0x391c0cb3, 0x4ed8aa4a, 0x5b9cca4f, 0x682e6ff3,
  0x748f82ee, 0x78a5636f, 0x84c87814, 0x8cc70208, 0x90befffa, 0xa4506ceb, 0xbef9a3f7, 0xc67178f2]

/-- The initial hash value. -/
def shaInit : List Word := [0x6a09e667, 0xbb67ae85, 0x3c6ef372, 0xa54ff53a, 0x510e527f, 0x9b05688c, 0x1f83d9ab, 0x5be0cd19]

/-- Bytes, most significant first, as a number. -/
def beNat (bs : List Byte) : Nat := bs.foldl (fun n b => n * 256 + b.toNat) 0

/-- The 64 words of the schedule, newest first, from the block's 16 words newest first. -/
def shaSchedule : Nat → List Word → List Word
  | 0, w => w
  | n + 1, w =>
    let x := w.getD 14 0
    let y := w.getD 1 0
    let s0 := (x.rotateRight 7) ^^^ (x.rotateRight 18) ^^^ (x >>> 3)
    let s1 := (y.rotateRight 17) ^^^ (y.rotateRight 19) ^^^ (y >>> 10)
    shaSchedule n ((w.getD 15 0 + s0 + w.getD 6 0 + s1) :: w)

/-- One round, on the eight working variables. -/
def shaRound (v : List Word) (k w : Word) : List Word :=
  let a := v.getD 0 0; let b := v.getD 1 0; let c := v.getD 2 0; let d := v.getD 3 0
  let e := v.getD 4 0; let f := v.getD 5 0; let g := v.getD 6 0; let h := v.getD 7 0
  let s1 := (e.rotateRight 6) ^^^ (e.rotateRight 11) ^^^ (e.rotateRight 25)
  let t1 := h + s1 + ((e &&& f) ^^^ (~~~e &&& g)) + k + w
  let s0 := (a.rotateRight 2) ^^^ (a.rotateRight 13) ^^^ (a.rotateRight 22)
  let t2 := s0 + ((a &&& b) ^^^ (a &&& c) ^^^ (b &&& c))
  [t1 + t2, a, b, c, d + t1, e, f, g]

/-- Fold one block of 64 bytes into a hash value. -/
def shaBlock (h : List Word) (blk : List Byte) : List Word :=
  let w := (List.range 16).map fun i => BitVec.ofNat 32 (beNat ((blk.drop (4 * i)).take 4))
  let sched := (shaSchedule 48 w.reverse).reverse
  let v := (shaK.zip sched).foldl (fun v kw => shaRound v (BitVec.ofNat 32 kw.1) kw.2) h
  h.zipWith (· + ·) v

/-- Fold every block; `n` bounds them. -/
def shaBlocks : Nat → List Word → List Byte → List Word
  | 0, h, _ => h
  | n + 1, h, bs => shaBlocks n (shaBlock h (bs.take 64)) (bs.drop 64)

/-- The digest of a byte string as a number, most significant byte first. -/
def sha256 (bs : List Byte) : Nat :=
  let len := 8 * bs.length
  let pad := (119 - bs.length % 64) % 64
  let msg := bs ++ [0x80] ++ List.replicate pad 0 ++ (leBytes 8 len).reverse
  (shaBlocks (msg.length / 64) shaInit msg).foldl (fun n w => n * 2 ^ 32 + w.toNat) 0

/-! ### P-256 -/

/-- The prime of the field. -/
abbrev ecP : Nat := 0xffffffff00000001000000000000000000000000ffffffffffffffffffffffff
/-- The order of the group. -/
abbrev ecN : Nat := 0xffffffff00000000ffffffffffffffffbce6faada7179e84f3b9cac2fc632551
/-- The coefficient b; a is −3. -/
abbrev ecB : Nat := 0x5ac635d8aa3a93e7b3ebbd55769886bc651d06b0cc53b0f63bce3c3e27d2604b
/-- The base point. -/
abbrev ecG : Nat × Nat :=
  (0x6b17d1f2e12c4247f8bce6e563a440f277037d812deb33a0f4a13945d898c296,
   0x4fe342e2fe1a7f9b8ee7eb4a7c0f9e162bce33576b315ececbb6406837bf51f5)

/-- `a^e mod m` over the low `n` bits of `e`. -/
def powMod (m : Nat) : Nat → Nat → Nat → Nat → Nat
  | 0, _, _, acc => acc
  | n + 1, a, e, acc => powMod m n (a * a % m) (e / 2) (if e % 2 = 1 then acc * a % m else acc)

/-- The inverse modulo a prime. -/
def invMod (m a : Nat) : Nat := powMod m 256 (a % m) (m - 2) 1

/-- A point of the curve; `none` is the point at infinity. -/
abbrev EcPoint := Option (Nat × Nat)

/-- The sum of two points. -/
def ecAdd : EcPoint → EcPoint → EcPoint
  | none, q => q
  | p, none => p
  | some (x1, y1), some (x2, y2) =>
    if x1 = x2 && (y1 + y2) % ecP = 0 then none
    else
      let l := if x1 = x2 then (3 * x1 * x1 + (ecP - 3)) * invMod ecP (2 * y1) % ecP
        else (y2 + ecP - y1) * invMod ecP (x2 + ecP - x1) % ecP
      let x3 := (l * l + 2 * ecP - x1 - x2) % ecP
      some (x3, (l * (x1 + ecP - x3) + ecP - y1) % ecP)

/-- A multiple of a point, over the low `n` bits of the factor. -/
def ecMul : Nat → Nat → EcPoint → EcPoint → EcPoint
  | 0, _, _, acc => acc
  | n + 1, k, p, acc => ecMul n (k / 2) (ecAdd p p) (if k % 2 = 1 then ecAdd acc p else acc)

/-- A pair of coordinates is a point of P-256. -/
def onCurve (x y : Nat) : Bool :=
  decide (x < ecP) && decide (y < ecP) && (y * y) % ecP = (x * x * x + (ecP - 3) * x + ecB) % ecP

/-- ECDSA verification of `(r, s)` over a digest with the public key `(x, y)`. -/
def ecdsaOk (x y r s digest : Nat) : Bool :=
  if onCurve x y && decide (0 < r) && decide (r < ecN) && decide (0 < s) && decide (s < ecN) then
    let w := invMod ecN s
    match ecAdd (ecMul 256 (digest * w % ecN) (some ecG) none) (ecMul 256 (r * w % ecN) (some (x, y)) none) with
    | none => false
    | some p => p.1 % ecN = r
  else false

/-- A signature section passes over the bytes it covers (R539): `vendor` and `owner` are the fused key hashes. Answers the
KEYKIND that passed. -/
def signatureKind (vendor owner : Nat) (covered sec : List Byte) : Option Nat :=
  let kind := leAt sec 4 1
  let key := (sec.drop 0x20).take 64
  let hash := if kind = 1 then vendor else if kind = 2 then owner else 0
  let num := fun o => beNat ((sec.drop o).take 32)
  if leAt sec 0 4 = 0x47495354 && (sec.drop 5).take 27 = List.replicate 27 0 && (sec.drop 0xA0).take 32 = List.replicate 32 0 &&
      hash != 0 && sha256 key = hash && ecdsaOk (num 0x20) (num 0x40) (num 0x60) (num 0x80) (sha256 covered) then some kind
  else none

end Sys2Proof.Machine
end

