-- ==== Sys2Proof/Machine/Load.lean ====
section
/-!
DEFINITION. Machine/Load.lean: loading, activating and discarding a plan (R145 to R148, R316, Table 4-11), with the signature
check (R118, R539, R540).
-/
namespace Sys2Proof.Machine

/-! ### Signatures -/

/-- The digest that eight hash registers hold (R541). -/
def State.hashRegs (s : State) (r : Nat) : Nat :=
  beNat ((List.range 8).flatMap fun i => leBytes 4 (s.reg (r + 4 * i)).toNat)

/-- The part is SECURED (R539). -/
def State.secured (s : State) : Bool := s.fld Reg.SEC_STAT 0 2 = 1

/-- The KEYKIND of a signature section that passes over the bytes before it. -/
def State.sigKind (s : State) (bytes : Nat → Nat → List Byte) (off : Nat) : Option Nat :=
  signatureKind (s.hashRegs Reg.SEC_VENDHASH) (s.hashRegs Reg.SEC_OWNHASH) (bytes 0 off) (bytes off 192)

/-- The signature of a plan image is as Table 18-7 requires: a present signature passes, and a SECURED part has the owner's. -/
def State.planSigOk (s : State) (rd : Reader) : Bool :=
  let bytes := fun off n => (List.range n).map fun i => BitVec.ofNat 8 (rd (off + i) 1)
  if imgSigned rd then
    match findSection (readDir rd) 15 with
    | some x => match s.sigKind bytes x.2.offset with
      | some k => !s.secured || k = 2
      | none => false
    | none => false
  else !s.secured

/-! ### A load -/

/-- Read the image at a device physical address. -/
def State.imageAt (s : State) (base : Nat) : Reader := fun off n => leNat (s.bytesAt (base + off) n)

/-- Show a refusal in `PLAN_LOADERR` and raise LOADERR. -/
def State.showLoadErr (s : State) (code sec : Nat) : State :=
  (s.setReg Reg.PLAN_LOADERR (BitVec.ofNat 32 (sec * 256 + code))).raise .plan Reg.PLAN_STAT 8

/-- A load or an activation is refused with a code (R316); `DETAIL` is `PLAN_LOADERR`. -/
def State.refusePlan (s : State) (q tag code sec : Nat) : State :=
  (s.showLoadErr code sec).settle q tag 0x04 (sec * 256 + code) 0 0xFF

/-- A load ends because a move of it, a read of the copied image or the constant image failed (R145). -/
def State.failLoad (s : State) (j : LoadJob) : State := s.stopLoad.settle j.q j.tag 0x06 2 0 0xFF

/-- The constant image is placed, and the rest of the constant region set to zero (R145 step 6). Answers the address that
failed. -/
def State.placeConst (s : State) (h : PlanHdr) (rd : Reader) : Option Nat × State :=
  if h.constLen = 0 then (none, s)
  else
    let img := findSection (readDir rd) 7
    let data := match img with
      | some x => s.sparseRead (h.t1Base + x.2.offset) x.2.length
      | none => []
    match s.t1Range h.constBase h.constLen true with
    | (some bad, s) => (some bad, s)
    | (none, s) => (none, s.sparseWrite h.constBase h.constLen data)

/-- The copied image is checked and becomes the pending plan (R145 steps 4 to 7). While CC0 restarts, the check waits. -/
def State.finishLoad (s : State) (j : LoadJob) : State :=
  if !s.coreUp 0 then s
  else
    match s.senseRange j.hdr.t1Base j.imgLen with
    | (some bad, s) => (s.logError 2 2 { addr := bad, tag := j.tag, queue := j.q }).failLoad j
    | (none, s) =>
      let rd := s.imageAt j.hdr.t1Base
      match s.checkImage rd (s.planSigOk rd) with
      | some (code, sec) => s.stopLoad.refusePlan j.q j.tag code sec
      | none =>
        let p := readPlan rd
        match s.placeConst p.hdr rd with
        | (some bad, s) => (s.logError 2 3 { addr := bad, tag := j.tag, queue := j.q }).failLoad j
        | (none, s) =>
          let s := { s with pendingPlan := some p, load := none }
          let s := (s.setBit Reg.PLAN_STAT 2 false).setBit Reg.PLAN_STAT 1 true
          (s.setReg64 Reg.PLAN_PENDID_LO p.hdr.planId).settle j.q j.tag 0 0 p.hdr.planId 0xFF

/-- Bytes of the image copied: the load goes on behind them. -/
def State.loaded (s : State) (j : LoadJob) (n : Nat) : State := { s with load := some { j with done := j.done + n } }

/-- The pool data homed in the T1 range of a load is moved out (R145 step 2). -/
def State.clearForLoad (s : State) (j : LoadJob) : State :=
  (s.data.filter fun h => rangesMeet h.addr h.len j.hdr.t1Base j.hdr.t1Foot).foldl (fun (s : State) h => s.moveTo h .t1) s

/-- A load may move its image: no datum is homed in its range or on its way out of it. -/
def State.rangeClear (s : State) (j : LoadJob) : Bool :=
  !s.data.any fun h => rangesMeet h.addr h.len j.hdr.t1Base j.hdr.t1Foot

/-- Move one run of the image; `none` where no move may be issued now. -/
def State.loadChunk (s : State) (j : LoadJob) (n : Nat) : State :=
  let desc : MoveDesc := { src := j.src + j.done, dst := j.hdr.t1Base + j.done, len := n / 64, kind := 0, knot := 0,
                           knotEn := false, owner := 65, hq := j.q % 16, tag := j.tag }
  match s.pickCart with
  | (none, _) => s
  | (some cart, s) =>
    match s.moveRefusal desc with
    | some (b, a) => (s.cartError cart b a).failLoad j
    | none =>
      let s := if s.active.isSome then { s with budget := s.budget - n } else s
      match s.place desc.src with
      | .t0 _ =>
        let s := s.showMove cart 65 true .released
        match s.senseSource desc with
        | (some bad, s) => ((s.cartError cart 0 (bad / 64 * 64)).logError 2 (tierSub bad false) { addr := bad, tag := j.tag, queue := j.q }).failLoad j
        | (none, s) =>
          match s.copyMove desc with
          | (some bad, s) => ((s.cartError cart 1 bad).logError 2 3 { addr := bad, tag := j.tag, queue := j.q }).failLoad j
          | (none, s) => (s.countBytes cart desc).loaded j n
      | _ =>
        let mv : Move := ⟨desc, .copying, true, .load⟩
        let s := { s with moves := s.moves ++ [(cart, mv)] }
        s.showMove cart 65 true .copying

/-- Advance the load in progress: with no plan active at once, otherwise within the window's budget (R146). `fuel` bounds
the runs. -/
def State.runLoad (s : State) : Nat → State
  | 0 => s
  | fuel + 1 =>
    match s.load with
    | none => s
    | some j =>
      if s.moves.any fun m => m.2.datum = .load then s
      else if j.imgLen ≤ j.done then s.finishLoad j
      else
        let n := min (j.imgLen - j.done) 0x400_0000
        let n := if s.active.isSome then min n (s.budget / 64 * 64) else n
        if n = 0 || !s.rangeClear j then s
        else (s.loadChunk j n).runLoad fuel

/-- Runs of the largest image. -/
def loadFuel : Nat := 80

/-- PLAN_LOAD acts when it is fetched (R145, R316).
(DEDUCED, unsafe: notes/assumptions/30.md) -/
def State.planLoad (s : State) (q : Nat) (r : Req) : State :=
  if r.len = 0 || !s.bufferOk r.addr r.len false then s.settle q r.tag 0x06 1 0 0xFF
  else
    match s.senseRange r.addr r.len with
    | (some bad, s) => (s.logError 2 (tierSub bad false) { addr := bad, tag := r.tag, queue := q }).settle q r.tag 0x06 2 0 0xFF
    | (none, s) =>
      let rd := s.imageAt r.addr
      match s.checkFirst rd r.len with
      | some (code, sec) => s.refusePlan q r.tag code sec
      | none =>
        let j : LoadJob := { q := q, tag := r.tag, src := r.addr, hdr := readHdr rd, imgLen := imgLen rd, done := 0 }
        let s := ({ s with load := some j }.setBit Reg.PLAN_STAT 2 true).actReq q r.tag
        if s.active.isSome then s else s.runLoad loadFuel

/-- PLAN_LOAD. -/
def execPlanLoad (q : Fin 16) (tag : BitVec 16) (s : State) : Host.Outcome State Fault Refusal :=
  .next <|
    match s.coreUp 1 && s.coreUp 0, s.waitingReq q 0x10 tag.toNat with
    | true, some r => s.planLoad q r
    | _, _ => s

/-! ### Activation and discard -/

/-- The tick parameters in effect meet what a plan declares (R51, R52, R116); times in µs. -/
def tickFits (h : PlanHdr) (period fallow : Nat) : Bool :=
  decide (h.tpMin ≤ period) && decide (period ≤ h.tpMax) && decide (h.fMin ≤ fallow) &&
  decide (h.work + h.slack + 100 * fallow ≤ 500 * period)

/-- Why an activation is refused, in the order 0x12, 0x10, 0x11 (R147). A plan whose activation has been accepted is no longer one to
activate or to discard. -/
def State.activationRefusal (s : State) : Option Nat :=
  match (if s.activating.isSome then none else s.pendingPlan) with
  | none => some 0x12
  | some p =>
    if !tickFits p.hdr (s.fld Reg.TICK_PERIOD 0 7) (s.fld Reg.TICK_FALLOW 0 6) then some 0x10
    else if !s.streams.isEmpty then some 0x11
    else none

/-- The boot plan was refused (R526, Table 18-6). -/
def State.bootPlanRefused (s : State) : State := (s.setBit Reg.NVC_BOOTSTAT 29 true).setFld Reg.NVC_BOOTSTAT 0 8 7

/-- An activation request is taken in step 3 (R147). The boot plan's, which no queue carries, has queue 32.
(DEDUCED, unsafe: notes/assumptions/30.md) -/
def State.takeActivation (s : State) (q tag : Nat) : State :=
  match s.activationRefusal with
  | some code => s.refusePlan q tag code 0xFF
  | none => { s with activating := some (q, tag) }.actReq q tag

/-- A discard removes the pending plan (R148). -/
def State.takeDiscard (s : State) (q tag : Nat) : State :=
  match (if s.activating.isSome then none else s.pendingPlan) with
  | none => s.settle q tag 0x05 0 0 0xFF
  | some p =>
    let s := { s with pendingPlan := none }.setBit Reg.PLAN_STAT 1 false
    (s.setReg64 Reg.PLAN_PENDID_LO 0).settle q tag 0 0 p.hdr.planId 0xFF

/-- PLAN_ACTIVATE: taken at step 3 of the next complete window (R147). -/
def execPlanActivate (q : Fin 16) (tag : BitVec 16) (s : State) : Host.Outcome State Fault Refusal :=
  .next <| s.dueReq q 0x11 tag.toNat

/-- PLAN_DISCARD: acts in the next fallow window. -/
def execPlanDiscard (q : Fin 16) (tag : BitVec 16) (s : State) : Host.Outcome State Fault Refusal :=
  .next <| s.dueReq q 0x12 tag.toNat

end Sys2Proof.Machine
end

