-- ==== Sys2Proof/Machine/Apply.lean ====
section
/-!
DEFINITION. Machine/Apply.lean: RWT writes taking effect at a fallow opening, each set with the checks of its block: the tick
parameters (R51), the staging area (R298), the host window (R105), audio ports and zones (R428, R441), jobs (R452, R461) and the
camera (R456, R466).
-/
namespace Sys2Proof.Machine

/-! ### Held writes as wanted values -/

/-- What registers are to hold: pairs of an offset and a whole value. -/
abbrev Want := List (Nat × Word)

/-- The value a register would take from held writes, in the order they were accepted (R22).
(DEDUCED, unsafe: notes/assumptions/68.md) -/
def heldValue (held : List (Nat × Word × Word)) (off : Nat) (cur : Word) : Word :=
  held.foldl (fun (c : Word) h => if h.1 = off then (c &&& ~~~h.2.1) ||| h.2.2 else c) cur

/-- The registers that held writes reach, with the values they would take. -/
def State.wanted (s : State) (held : List (Nat × Word × Word)) : Want :=
  held.foldl (fun (w : Want) h => keyPut w h.1 (heldValue held h.1 (s.reg h.1))) []

/-- Some wanted register lies in a range of offsets. -/
def wantsIn (w : Want) (lo len : Nat) : Bool := w.any fun x => inRange x.1 lo len

/-- Some wanted register among a few. -/
def wantsAny (w : Want) (offs : List Nat) : Bool := w.any fun x => offs.contains x.1

/-- Put wanted values of some registers into effect. -/
def State.take (s : State) (w : Want) (offs : List Nat) : State :=
  w.foldl (fun (s : State) x => if offs.contains x.1 then s.setReg x.1 x.2 else s) s

/-- Some of these registers differ between two states. -/
def differIn (s t : State) (offs : List Nat) : Bool := offs.any fun o => s.reg o != t.reg o

/-! ### Tick parameters (R51, R71, R72) -/

/-- The registers that are checked as one set. -/
def tickSet : List Nat := [Reg.TICK_PERIOD, Reg.TICK_FALLOW, Reg.TICK_SLIP, Reg.TICK_SRC, Reg.TICK_STOOK]

/-- A set that would be in effect is acceptable. -/
def State.tickSetOk (s : State) : Bool :=
  let p := s.fld Reg.TICK_PERIOD 0 7
  let f := s.fld Reg.TICK_FALLOW 0 6
  decide (f + 10 ≤ 5 * p) &&
  (match s.active with
    | some a => tickFits a.hdr p f
    | none => true) &&
  ((s.fld Reg.TICK_SRC 0 3 = 5) == (s.bit Reg.TICK_STOOK 0 && !s.bit Reg.TICK_STOOK 1))

/-- The port that times ticks, if one does: SEL 1 to 4 with FRAMES not 0 (R71). -/
def State.tickPort (s : State) : Option Nat :=
  let sel := s.fld Reg.TICK_SRC 0 3
  if 1 ≤ sel && sel ≤ 4 && s.fld Reg.TICK_SRC 16 13 != 0 then some (sel - 1) else none

/-- A configuration set or a write of RUN is refused (Table 2-10, Table 11-3). -/
def State.tickRefused (s : State) : State := (s.logError 4 5).raise .tick Reg.TICK_STAT 12

/-- A source has been applied: lock is sought anew (R72, R74). -/
def State.newSource (s : State) : State :=
  let s := (s.setBit Reg.TICK_STAT 2 false).setBit Reg.TICK_STAT 3 s.tickPort.isSome
  let s := { s with tick := { s.tick with lockRun := 0, seeking := true, syncs := 0, spanStart := none } }
  let sel := s.fld Reg.TICK_SRC 0 3
  if 1 ≤ sel && sel ≤ 4 && s.tickPort.isNone then s.tickRefused else s

/-- Apply the tick set whole, or none of it. -/
def State.applyTick (s : State) (w : Want) : State :=
  if !wantsAny w tickSet then s
  else
    let t := s.take w tickSet
    if !t.tickSetOk then s.tickRefused
    else
      let t := if wantsAny w [Reg.TICK_STOOK] then { t with tick := { t.tick with master := none, halted := false } } else t
      if wantsAny w [Reg.TICK_SRC] then t.newSource else t

/-! ### Staging area, host window, pager, fetch channels -/

/-- A T0 range meets what the active plan's descriptors, stage buffers or row map use. -/
def State.meetsPlanT0 (s : State) (a len : Nat) : Bool :=
  match s.active with
  | some p => p.t0Ranges.any fun r => rangesMeet a len r.1 r.2
  | none => false

/-- A datum is homed in a range. -/
def State.homedIn (s : State) (a len : Nat) : Bool := s.data.any fun h => rangesMeet h.addr h.len a len

/-- The staging range that `HOST_STAGE` would give. -/
def stageOf (v : Word) : Nat × Nat := (wordField v 0 10 * 65536, wordField v 16 10 * 65536)

/-- Apply `HOST_STAGE` (R298): EN reads 1 once no pool data lies in the range.
(DEDUCED, unsafe: notes/assumptions/44.md) -/
def State.applyStage (s : State) (w : Want) : State :=
  match keyGet w Reg.HOST_STAGE with
  | none => s
  | some v =>
    let r := stageOf v
    if wordField v 31 1 = 0 then { s.setReg Reg.HOST_STAGE v with staging := none, stagingDue := none }
    else if decide (0x300_0000 < r.1 + r.2) || s.meetsPlanT0 r.1 r.2 ||
        (match s.cam.area with
          | some c => rangesMeet r.1 r.2 c.1 c.2
          | none => false) then s.setBit Reg.HOST_STAT 1 true
    else if s.homedIn r.1 r.2 then
      { (s.setReg Reg.HOST_STAGE v).setBit Reg.HOST_STAGE 31 false with staging := none, stagingDue := some r }
    else { s.setReg Reg.HOST_STAGE v with staging := some r, stagingDue := none }

/-- The data of a staging range have moved out: the range is applied.
(DEDUCED, unsafe: notes/assumptions/44.md) -/
def State.stageReady (s : State) : State :=
  match s.stagingDue with
  | some r => if s.homedIn r.1 r.2 then s else { s.setBit Reg.HOST_STAGE 31 true with staging := some r, stagingDue := none }
  | none => s

/-- The host window entry of an offset. -/
def hwtEntry (off : Nat) : Option Nat :=
  if inRange off Reg.HOST_HWT_LO 0x2000 then some ((off - Reg.HOST_HWT_LO) / 8) else none

/-- Data homed in an entry that has become invalid are lost, with the streams that own them (R105, Table 3-27). -/
def State.entryGone (s : State) (e : Nat) : State :=
  (s.data.filter fun h => rangesMeet h.addr h.len (0x800_0000_0000 + e * 0x400_0000) 0x400_0000).foldl
    (fun (s : State) h => s.lostDatum h.datum 4 h.addr) s

/-- Apply host window entries; `HOST_HWTGEN` advances. -/
def State.applyHwt (s : State) (w : Want) : State :=
  let mine := w.filter fun x => (hwtEntry x.1).isSome
  if mine.isEmpty then s
  else
    let was := fun (e : Nat) => s.bit (Reg.HOST_HWT_LO + 8 * e) 0
    let entries := mine.foldl (fun (l : List Nat) x => match hwtEntry x.1 with
      | some e => addMember l e
      | none => l) []
    let gone := entries.filter was
    let s := mine.foldl (fun (s : State) x => s.setReg x.1 x.2) s
    let s := s.setFld Reg.HOST_HWTGEN 0 16 (s.fld Reg.HOST_HWTGEN 0 16 + 1)
    gone.foldl (fun (s : State) e => if s.bit (Reg.HOST_HWT_LO + 8 * e) 0 then s else s.entryGone e) s

/-- Show the modes of the fetch channels in effect (Table 8-3). -/
def State.showModes (s : State) : State :=
  [0, 1].foldl (fun (s : State) n => s.setFld (Reg.TSH_STAT + 0x400 * n) 1 2 (s.fld (Reg.TSH_CHCFG + 0x400 * n) 0 2)) s

/-- The swap budget and the modes of the fetch channels (R260, R277): a channel that turns to descriptor mode needs the ring. -/
def State.applyPager (s : State) (w : Want) : State :=
  let mine := [Reg.GLN_SWAPBUDGET, Reg.TSH_CHCFG, Reg.TSH_CHCFG + 0x400]
  if !wantsAny w mine then s
  else
    let s := (s.take w mine).showModes
    let desc := s.reg Reg.TSH_CHCFG != 0 || s.reg (Reg.TSH_CHCFG + 0x400) != 0
    if !desc then { s with ringHome := none }
    else if s.ringHome.isSome || s.active.isNone then s
    else let (a, s) := s.choose .t0 (max 64 s.plan.ringBytes); { s with ringHome := a }

/-! ### Audio and camera -/

/-- The RWT registers of a port. -/
def portRegs (k : Nat) : List Nat := [apReg Reg.AP_CTRL k, apReg Reg.AP_FRAME k, apReg Reg.AP_FSYNC k, apReg Reg.AP_INMASK k]

/-- Apply a port's configuration, where it changes. -/
def State.applyAp (s : State) (w : Want) (k : Nat) : State :=
  let t := s.take w (portRegs k)
  if differIn s t (portRegs k) then t.applyPort k else s

/-- A change of the tick period changes which configurations are valid (R427). -/
def State.recheckPorts (s : State) : State :=
  (List.range 4).foldl (fun (s : State) k => if s.apOn k && s.apActive k != s.apValid k then s.applyPort k else s) s

/-- The active plan uses a job. -/
def State.usesJob (s : State) (e j : Nat) : Bool :=
  match s.active with
  | some p => (p.stream e).contains (cWord 3 j 0)
  | none => false

/-- Apply a job of the Flail or the Quern: what a plan in use fixes does not change (R452). -/
def State.applyJob (s : State) (w : Want) (e j cfg out stat : Nat) : State :=
  let s := s.take w [out]
  match keyGet w cfg with
  | none => s
  | some v => if s.usesJob e j && v != s.reg cfg then s.setBit stat 8 true else s.setReg cfg v

/-- The registers of a zone. -/
def zoneRegs (z : Nat) : List Nat :=
  [zoneReg Reg.FLL_ZONECFG z, zoneReg Reg.FLL_ZONEMICS z, zoneReg Reg.FLL_ZONEECHO z, zoneReg Reg.FLL_ZONECOEF z]

/-- Apply a seat zone, or none of the writes to it (R441). -/
def State.applyZoneRegs (s : State) (w : Want) (z : Nat) : State :=
  if !wantsAny w (zoneRegs z) then s
  else
    match (s.take w (zoneRegs z)).applyZone z with
    | (true, t) => t
    | (false, _) => s.setBit Reg.FLL_STAT 8 true

/-- The registers of a Glume job. -/
def glmRegs (j : Nat) : List Nat := [Reg.GLM_JOBSIZE + 16 * j, Reg.GLM_JOBCROP + 16 * j, Reg.GLM_JOBOUT + 16 * j]

/-- Apply a Glume job (R461): EN and the sizes of a job in use do not change, and an enabled job stays valid. -/
def State.applyGlm (s : State) (w : Want) (j : Nat) : State :=
  if !wantsAny w (glmRegs j) then s
  else
    let size := Reg.GLM_JOBSIZE + 16 * j
    let fixed := s.usesJob 32 j && (match keyGet w size with
      | some v => v != s.reg size
      | none => false)
    let s := if fixed then s.setBit Reg.GLM_STAT 8 true else s
    let t := s.take (if fixed then keyDel w size else w) (glmRegs j)
    if t.bit size 31 && !t.glmValid j then s.setBit Reg.GLM_STAT 8 true else t

/-- The camera area of the values in effect, rounded up to 64 KiB (R456). -/
def State.camArea (s : State) : Nat × Nat := (s.fld Reg.CAM_AREA 0 10 * 65536, ceilDiv s.camBytes 65536 * 65536)

/-- An area may be applied: within T0, clear of the staging area, and clear of the plan's T0 ranges but for the record block.
(DEDUCED, unsafe: notes/assumptions/44.md) -/
def State.camAreaOk (s : State) : Bool :=
  let a := s.camArea
  decide (a.1 + a.2 ≤ 0x300_0000) && !s.meetsPlanT0 (a.1 + 4096) (a.2 - 4096) &&
  !(s.staging.toList ++ s.stagingDue.toList).any fun r => rangesMeet a.1 a.2 r.1 r.2

/-- The camera's configuration set is refused (Table 15-4).
(DEDUCED, unsafe: notes/assumptions/42.md) -/
def State.camRefused (s : State) : State := s.raise .cam Reg.CAM_STAT 8

/-- The receiver takes an area: once no pool data lies in it, the area is applied.
(DEDUCED, unsafe: notes/assumptions/44.md) -/
def State.camReady (s : State) : State :=
  match s.cam.due with
  | some a =>
    if s.homedIn a.1 a.2 then s
    else
      let s := (s.setBit Reg.CAM_STAT 0 true).setFld Reg.CAM_AREA 16 10 (a.2 / 65536)
      s.updCam fun c => { c with area := some a, due := none, lastStart := s.now }
  | none => s

/-- The receiver stops: its buffers are free and its area returns to the pool. -/
def State.camOff (s : State) : State :=
  let s := ((s.setBit Reg.CAM_STAT 0 false).setBit Reg.CAM_STAT 1 false).setFld Reg.CAM_AREA 16 10 0
  s.updCam fun c => { idleCam with quiet := c.quiet }

/-- The registers that place and shape the frames. -/
def camRegs : List Nat := [Reg.CAM_CTRL, Reg.CAM_SIZE, Reg.CAM_AREA]

/-- Apply the camera's configuration (R456, R466).
(DEDUCED, unsafe: notes/assumptions/42.md) -/
def State.applyCam (s : State) (w : Want) : State :=
  let s := match keyGet w Reg.CAM_GATECFG with
    | none => s
    | some v =>
      if wordField v 0 8 < wordField v 8 8 || wordField v 16 8 = 0 || wordField v 24 7 = 0 then s.camRefused
      else s.setReg Reg.CAM_GATECFG v
  let t := s.take w camRegs
  if !differIn s t camRegs then s
  else if !t.bit Reg.CAM_CTRL 0 then t.camOff
  else if !t.camAreaOk then t.camOff.camRefused
  else
    let started := !s.bit Reg.CAM_CTRL 0
    let shape := fun (x : State) => (x.reg Reg.CAM_SIZE, x.fld Reg.CAM_CTRL 1 1, x.fld Reg.CAM_CTRL 4 2, x.fld Reg.CAM_CTRL 8 6)
    let moved := s.fld Reg.CAM_AREA 0 10 != t.fld Reg.CAM_AREA 0 10 || shape s != shape t || s.cam.area.isNone
    if started || moved then
      let t := t.camOff
      (t.updCam fun c => { c with due := some t.camArea }).camReady
    else t

/-! ### All of them -/

/-- Apply wanted values, block by block.
(DEDUCED, unsafe: notes/assumptions/68.md) -/
def State.applyWant (s : State) (w : Want) : State :=
  let s := s.applyTick w
  let s := s.applyStage w
  let s := s.applyHwt w
  let s := s.applyPager w
  let s := (List.range 4).foldl (fun (s : State) k => s.applyAp w k) s
  let s := if wantsAny w [Reg.TICK_PERIOD] then s.recheckPorts else s
  let s := (List.range 16).foldl (fun (s : State) j =>
    (s.applyJob w 30 j (Reg.FLL_JOBCFG + 8 * j) (Reg.FLL_JOBOUT + 8 * j) Reg.FLL_STAT).applyJob w 31 j
      (Reg.QRN_JOBCFG + 8 * j) (Reg.QRN_JOBIN + 8 * j) Reg.QRN_STAT) s
  let s := (List.range 16).foldl (fun (s : State) z => s.applyZoneRegs w z) s
  let s := s.applyCam w
  (List.range 16).foldl (fun (s : State) j => s.applyGlm w j) s

/-- The held RWT writes take effect (R22).
(DEDUCED, unsafe: notes/assumptions/68.md) -/
def State.applyHeld (s : State) : State :=
  if s.rwtHeld.isEmpty then s
  else
    let w := s.wanted s.rwtHeld
    { s with rwtHeld := [] }.applyWant w

end Sys2Proof.Machine
end

