-- ==== Sys2Proof/Machine/Overlay.lean ====
section
/-!
DEFINITION. Machine/Overlay.lean: the field catalogue (R522 to R525), change lists (R534), and overlay epochs with the classes of
their fields (R322, R533 to R538).
-/
namespace Sys2Proof.Machine

/-! ### The catalogue (Table 18-5) -/

/-- The classes of fields. -/
inductive FieldClass where
  | base | atomic | switch | boundary
  deriving DecidableEq, Repr

/-- The register an ID names, for the fields whose VALUE is a register's whole word. -/
def fieldReg (id : Nat) : Option Nat :=
  if id = 0x02 then some Reg.TICK_SRC
  else if id = 0x03 then some Reg.TICK_LOCKTOL
  else if id = 0x10 then some Reg.PWR_CAPMW
  else if id = 0x11 then some Reg.PWR_CTRL
  else if id = 0x13 then some Reg.GLN_SWAPBUDGET
  else if id = 0x14 then some Reg.GLN_CTRL
  else if 0x18 ≤ id && id < 0x20 then some (Reg.PWR_RAIL + 4 * (id - 0x18))
  else if id = 0x20 then some Reg.HSP_CFG
  else if id = 0x22 then some Reg.GLOBAL_KEEPCFG
  else if id = 0x30 || id = 0x31 then some (Reg.TSH_CHCFG + 0x400 * (id - 0x30))
  else if id = 0x40 then some Reg.QRN_LIM
  else if 0x48 ≤ id && id < 0x50 then some (Reg.QRN_OGAIN + 8 * (id - 0x48))
  else if id = 0x50 then some Reg.CAM_CTRL
  else if id = 0x51 then some Reg.CAM_SIZE
  else if id = 0x52 then some Reg.CAM_AREA
  else if id = 0x53 then some Reg.CAM_GATECFG
  else if 0x100 ≤ id && id < 0x140 && id % 16 < 6 then
    some (apReg ([Reg.AP_CTRL, Reg.AP_FRAME, Reg.AP_FSYNC, Reg.AP_INMASK, Reg.AP_RATECFG, Reg.AP_NACFG].getD (id % 16) 0)
      ((id - 0x100) / 16))
  else if 0x200 ≤ id && id < 0x240 then some (Reg.FLL_ZONECFG + 0x10 * ((id - 0x200) / 4) + 4 * (id % 4))
  else if 0x300 ≤ id && id < 0x320 then some (Reg.FLL_JOBCFG + 4 * (id - 0x300))
  else if 0x340 ≤ id && id < 0x360 then some (Reg.QRN_JOBCFG + 4 * (id - 0x340))
  else if 0x380 ≤ id && id < 0x3C0 && id % 4 < 3 then some (Reg.GLM_JOBSIZE + 0x10 * ((id - 0x380) / 4) + 4 * (id % 4))
  else none

/-- The class of an ID; every other ID is reserved. -/
def fieldClass (id : Nat) : Option FieldClass :=
  if [0x01, 0x02, 0x04, 0x05].contains id || (0x18 ≤ id && id ≤ 0x25) then some .base
  else if 0x300 ≤ id && id < 0x3C0 then
    match fieldReg id with
    | some _ => some (if 0x380 ≤ id && id % 4 != 0 then .atomic else .switch)
    | none => none
  else if 0x400 ≤ id && id ≤ 0x405 then some .boundary
  else match fieldReg id with
    | some _ => some .atomic
    | none => none

/-- The IDs of a class, in rising order. -/
def fieldsOf (c : FieldClass) : List Nat := (List.range 0x406).filter fun id => fieldClass id = some c

/-- A whole register word sets no reserved bit and no reserved encoding. -/
def wordLegal (off v : Nat) : Bool :=
  match findReg off with
  | none => false
  | some (d, _) =>
    decide ((BitVec.ofNat 32 v &&& ~~~(d.fields.foldl (fun (m : Word) f => m ||| fieldMask f.lo f.width) 0)) = 0) &&
    d.fields.all fun f => legalOk f.legal (bitsOf v f.lo f.width)

/-- A VALUE is legal for its field (R524).
(DEDUCED, unsafe: notes/assumptions/45.md) -/
def valueLegal (id v : Nat) : Bool :=
  let byte := fun i => bitsOf v (8 * i) 8
  if id = 0x01 then
    let p := bitsOf v 0 7
    let f := bitsOf v 8 6
    decide (10 ≤ p) && decide (p ≤ 80) && decide (5 ≤ f) && decide (f ≤ 40) && decide (bitsOf v 16 6 ≤ 50) &&
    !bitOf v 7 && bitsOf v 14 2 = 0 && bitsOf v 22 10 = 0 && decide (f + 10 ≤ 5 * p)
  else if id = 0x04 then decide (v ≤ 4)
  else if id = 0x05 || id = 0x405 then decide (v ≤ 1)
  else if id = 0x20 then decide (v ≤ 3)
  else if id = 0x21 then decide (2 ≤ byte 0) && decide (1 ≤ byte 1) && decide (1 ≤ byte 2) && decide (1 ≤ byte 3)
  else if id = 0x24 then decide (v ≤ 255)
  else if id = 0x404 then decide (v ≤ 7)
  else match fieldReg id with
    | some off => wordLegal off v
    | none => true

/-- A field entry of 8 bytes. -/
structure FieldEntry where
  id : Nat
  flags : Nat
  zero : Nat
  value : Nat
  deriving DecidableEq, Repr

/-- Read an entry. -/
def readEntry (bs : List Byte) (off : Nat) : FieldEntry :=
  ⟨leAt bs off 2, leAt bs (off + 2) 1, leAt bs (off + 3) 1, leAt bs (off + 4) 4⟩

/-- An entry is legal (R522 to R524). -/
def FieldEntry.legal (e : FieldEntry) : Bool :=
  (fieldClass e.id).isSome && decide (e.flags ≤ 1) && e.zero = 0 && valueLegal e.id e.value

/-- An entry is legal in an overlay block or a change list: its field has another class than base, and is not locked. -/
def FieldEntry.overlays (e : FieldEntry) (locked : List Nat) : Bool :=
  e.legal && fieldClass e.id != some .base && !locked.contains e.id

/-! ### Values -/

/-- The fused default of a field (Table 18-5). -/
def fusedDefault (id : Nat) : Nat :=
  if id = 0x01 then 0x140F14
  else if id = 0x05 then 1
  else if id = 0x21 then 0x08040408
  else if id = 0x23 || id = 0x25 then 0x48161F3D
  else if id = 0x24 then 0xB0
  else match fieldReg id with
    | some off => (cellGet resetRegCells off).toNat
    | none => 0

/-- The value of a field in the base configuration (R525). -/
def State.baseValue (s : State) (id : Nat) : Nat := (keyGet s.nv.base id).getD (fusedDefault id)

/-- The effective value of a tick-atomic or plan-switch field in an epoch (R533). -/
def State.effective (s : State) (mode : Nat) (list : List (Nat × Nat)) (id : Nat) : Nat :=
  match keyGet list id, keyGet (keyGetD s.nv.overlays mode []) id with
  | some v, _ => v
  | none, some v => v
  | none, none => s.baseValue id

/-- The value of a field in effect. -/
def State.inEffect (s : State) (id : Nat) : Nat :=
  match fieldReg id with
  | some off => (s.reg off).toNat
  | none => 0

/-- The stream-boundary values of an epoch. -/
def State.boundaryValues (s : State) (mode : Nat) (list : List (Nat × Nat)) : List (Nat × Nat) :=
  (fieldsOf .boundary).filterMap fun id =>
    match keyGet list id, keyGet (keyGetD s.nv.overlays mode []) id with
    | some v, _ => some (id, v)
    | none, some v => some (id, v)
    | none, none => none

/-! ### Writing fields into effect -/

/-- A user cap is clamped to the fused limits (R376). -/
def State.writeCap (s : State) (mw : Nat) : State :=
  let lo := s.fld Reg.PWR_CAPLIM 0 16
  let hi := s.fld Reg.PWR_CAPLIM 16 16
  let v := max lo (min hi mw)
  let s := s.setFld Reg.PWR_CAPMW 0 16 v
  if v = mw then s else (s.logError 9 8 { detail := mw }).raise .pwr Reg.PWR_STAT 7

/-- Write fields into effect: RWT registers with the checks of their blocks, the user cap clamped, the others at once. -/
def State.writeIds (s : State) (fields : List (Nat × Nat)) : State :=
  let regs := fields.filterMap fun x => (fieldReg x.1).map fun off => (x.1, off, x.2)
  let isRwt := fun (off : Nat) => match findReg off with
    | some (d, _) => d.fields.any fun f => f.access = .rwt
    | none => false
  let s := regs.foldl (fun (s : State) x =>
    if x.1 = 0x10 then s.writeCap (bitsOf x.2.2 0 16)
    else if isRwt x.2.1 then s else s.setReg x.2.1 (BitVec.ofNat 32 x.2.2)) s
  s.applyWant ((regs.filter fun x => isRwt x.2.1).foldl (fun (w : Want) x => keyPut w x.2.1 (BitVec.ofNat 32 x.2.2)) [])

/-- The status bits that show a refused configuration: of the tick, the staging area, the Flail, the Quern, the camera and the
Glume. -/
def rejectBits : List (Nat × Nat) :=
  [(Reg.TICK_STAT, 12), (Reg.FLL_STAT, 8), (Reg.QRN_STAT, 8), (Reg.CAM_STAT, 8), (Reg.GLM_STAT, 8)]

/-- The group of fields that a block accepts or refuses together: its lowest ID.
(DEDUCED, unsafe: notes/assumptions/45.md) -/
def fieldGroup (id : Nat) : Nat :=
  if 0x50 ≤ id && id < 0x53 then 0x50
  else if 0x100 ≤ id && id < 0x140 then id / 16 * 16
  else if (0x200 ≤ id && id < 0x240) || (0x380 ≤ id && id < 0x3C0) then id / 4 * 4
  else id

/-- The first field, in order of IDs, that its block would refuse: each group is tried on a trial state after those before it.
(DEDUCED, unsafe: notes/assumptions/45.md) -/
def State.firstRefused (s : State) : List (Nat × Nat) → List Nat → Option Nat
  | _, [] => none
  | fields, g :: gs =>
    let mine := fields.filter fun x => fieldGroup x.1 = g
    let clear := rejectBits.foldl (fun (s : State) b => s.setBit b.1 b.2 false) s
    let t := clear.writeIds mine
    if rejectBits.any fun b => t.bit b.1 b.2 then mine.head?.map Prod.fst
    else t.firstRefused fields gs

/-! ### Change lists (R534) -/

/-- The first offending byte of a change list of a length, and its entries.
(DEDUCED, unsafe: notes/assumptions/45.md) -/
def checkList (locked : List Nat) (bs : List Byte) : Option Nat :=
  let n := leAt bs 4 2
  if leAt bs 0 4 != 0x4C564F54 then some 0
  else if n = 0 || decide (256 < n) || decide (bs.length < 16 + 8 * n) then some 4
  else if leAt bs 6 2 != 0 then some 6
  else if leAt bs 8 4 != (crc32 ((bs.drop 16).take (8 * n))).toNat then some 8
  else if leAt bs 12 4 != 0 then some 12
  else ((List.range n).find? fun i => !(readEntry bs (16 + 8 * i)).overlays locked).map fun i => 16 + 8 * i

/-- The entries of a change list that passed. -/
def listEntries (bs : List Byte) : List (Nat × Nat) :=
  (List.range (leAt bs 4 2)).foldl (fun (l : List (Nat × Nat)) i => let e := readEntry bs (16 + 8 * i); keyPut l e.id e.value) []

/-! ### Epochs -/

/-- Show the streams still to be reached, the held count, the mode and whether an epoch is open (Table 18-10). -/
def State.showEpoch (s : State) : State :=
  let left := match s.nv.epoch with
    | some e => e.left ++ e.away
    | none => []
  let s := s.setReg64 Reg.NVC_OVLPEND_LO ((left.map fun i => 2 ^ i).sum)
  let s := s.setFld Reg.NVC_OVLSTAT 16 8 (min 255 s.nv.held.length)
  s.setBit Reg.NVC_OVLSTAT 0 s.nv.epoch.isSome

/-- Give a stream its stream-boundary values (R537). -/
def State.giveBoundary (s : State) (sc : Nat) (vals : List (Nat × Nat)) : State :=
  vals.foldl (fun (s : State) x =>
    if x.1 < 0x404 then
      let w := x.1 - 0x400
      let s := s.updStream sc fun t =>
        { t with uparam := (t.uparam.take (4 * w)) ++ leBytes 4 x.2 ++ t.uparam.drop (4 * w + 4) }
      match (s.stream sc).bind fun t => keyGet t.flats 62 with
      | some f => s.storeBytes (f.home + 4 * w) (leBytes 4 x.2)
      | none => s
    else if x.1 = 0x404 then s.updStream sc fun t => { t with prio := x.2 }
    else s.updStream sc fun t => { t with gated := x.2 = 1 }) s

/-- A stream is at a boundary: its last admitted tick ended at a resumption point, or it was not admitted in the tick just
ended. -/
def Stream.atBoundary (t : Stream) : Bool := t.rested || t.row.isNone

/-- A request record (Table 10-2) as bytes. -/
def Req.record (r : Req) : List Byte :=
  [BitVec.ofNat 8 r.kind, BitVec.ofNat 8 r.flags] ++ leBytes 2 r.tag ++ [BitVec.ofNat 8 r.stream, 0, 0, 0] ++ leBytes 8 r.addr ++
  leBytes 4 r.len ++ List.replicate 12 0 ++ r.param

/-- The record that carries stream-boundary values (R538): PARAM byte 0 says which of the six fields have one, and six words from
byte 4 hold them (notes/assumptions/60.md).
(DESIGN CHOICE, unsafe: notes/assumptions/60.md) -/
def boundaryRecord (sc : Nat) (vals : List (Nat × Nat)) : Req :=
  let byte0 := (vals.map fun x => 2 ^ (x.1 - 0x400)).sum
  let words := (List.range 6).flatMap fun i => leBytes 4 ((keyGet vals (0x400 + i)).getD 0)
  { kind := 0x40, flags := 0, tag := 0, stream := sc, addr := 0, len := 0, param := leBytes 4 byte0 ++ words ++ leBytes 4 0, crc := 0,
    replay := false, state := .waiting }

/-- The values of such a record.
(DESIGN CHOICE, unsafe: notes/assumptions/60.md) -/
def boundaryValuesOf (r : Req) : List (Nat × Nat) :=
  ((List.range 6).filter fun i => bitOf (leAt r.param 0 1) i).map fun i => (0x400 + i, leAt r.param (4 + 4 * i) 4)

/-- The values travel to the chip a stream runs on, in a REQFWD (R538).
(DESIGN CHOICE, unsafe: notes/assumptions/60.md) -/
def State.sendBoundary (s : State) (sc chip : Nat) (vals : List (Nat × Nat)) : State :=
  s.peerMsg chip 4 0x42 (((boundaryRecord sc vals).record).map (·.toNat)) 64

/-- The open epoch reaches the streams at a boundary, and completes when none is left (R537, R538). -/
def State.advanceEpoch (s : State) : State :=
  match s.nv.epoch with
  | none => s
  | some e =>
    let now := e.left.filter fun sc => match s.stream sc with
      | some t => t.runsOn.isSome || t.atBoundary
      | none => false
    let s := now.foldl (fun (s : State) sc => match (s.stream sc).bind (·.runsOn) with
      | some chip => s.sendBoundary sc chip e.boundary
      | none => s.giveBoundary sc e.boundary) s
    let away := e.away ++ now.filter fun sc => ((s.stream sc).bind (·.runsOn)).isSome
    let open_ := fun (sc : Nat) => (s.stream sc).isSome
    let e' := { e with left := (e.left.filter fun sc => !now.contains sc).filter open_, away := away.filter open_ }
    if e'.left.isEmpty && e'.away.isEmpty then
      let n := s.nv.held.length
      let s := { s with nv := { s.nv with epoch := none } }
      (s.settle e.q e.tag (if n = 0 then 0 else 9) 0 n 0xFF).showEpoch
    else { s with nv := { s.nv with epoch := some e' } }.showEpoch

/-- Take up an epoch whose list passed (R535): every test first, then every tick-atomic field.
(DESIGN CHOICE, safe: notes/assumptions/3.md; DEDUCED, unsafe: notes/assumptions/45.md) -/
def State.takeEpoch (s : State) (q tag epoch mode : Nat) (list : List (Nat × Nat)) : State :=
  let values := fun (c : FieldClass) => (fieldsOf c).map fun id => (id, s.effective mode list id)
  let changed := fun (l : List (Nat × Nat)) => l.filter fun x => x.2 != s.inEffect x.1
  let atomic := changed (values .atomic)
  let switch := values .switch
  let idle := s.active.isNone
  let now := if idle then (switch.filter fun x => x.2 != s.inEffect x.1).foldl (fun l x => keyPut l x.1 x.2) atomic else atomic
  let groups := (now.map fun x => fieldGroup x.1).foldl addMember []
  let clash := if s.pendingPlan.isNone || idle then none
    else (switch.find? fun x => x.2 != (keyGet s.nv.held x.1).getD (s.inEffect x.1)).map Prod.fst
  if 128 < atomic.length then
    let (v, s) := s.draw
    (s.logViolation 3 2 { source := q, tag := tag, queue := q }).settle q tag 0x01 (0x8000_0000 + v % 2 ^ 31) 0 0xFF
  else match s.firstRefused now groups, clash with
    | some id, _ => s.settle q tag 0x05 id 0 0xFF
    | none, some id => s.settle q tag 0x05 id 0 0xFF
    | none, none =>
      let offs := (fieldsOf .atomic).filterMap fieldReg
      let s := { s with rwtHeld := s.rwtHeld.filter fun h => !offs.contains h.1 }
      let s := s.writeIds now
      let held := if idle then [] else switch.filter fun x => x.2 != s.inEffect x.1
      let s := s.setReg Reg.NVC_EPOCH (BitVec.ofNat 32 epoch)
      let s := s.setFld Reg.NVC_OVLSTAT 8 3 mode
      let vals := s.boundaryValues mode list
      let set := if vals.isEmpty then [] else s.streams.map Prod.fst
      let s := { s with nv := { s.nv with held := held, epoch := some ⟨epoch, q, tag, vals, set, []⟩ } }
      s.actReq q tag

/-- CC2 takes up one OVERLAY request (R322, R534). -/
def State.takeOverlay (s : State) (q : Nat) (r : Req) : State :=
  let epoch := leAt r.param 0 4
  let mode := leAt r.param 4 1
  if epoch ≤ (s.reg Reg.NVC_EPOCH).toNat then s.settle q r.tag 0x05 0 0 0xFF
  else if r.len = 0 then s.takeEpoch q r.tag epoch mode []
  else if !s.bufferOk r.addr r.len false then s.settle q r.tag 0x06 1 0 0xFF
  else
    match s.senseRange r.addr r.len with
    | (some bad, s) => (s.logError 2 (tierSub bad false) { addr := bad, tag := r.tag, queue := q }).settle q r.tag 0x06 2 0 0xFF
    | (none, s) =>
      let bs := s.bytesAt r.addr (min r.len 2112)
      match checkList s.nv.locked bs with
      | some off =>
        (s.logViolation 3 2 { source := q, tag := r.tag, queue := q, detail := off }).settle q r.tag 0x01 (0x8000_0000 + off) 0 0xFF
      | none => s.takeEpoch q r.tag epoch mode (listEntries bs)

/-- Epochs in step 3: the open one advances, and once none is open the next request due is taken up. `fuel` bounds the
requests. -/
def State.runEpochs (s : State) : Nat → State
  | 0 => s
  | fuel + 1 =>
    let s := s.advanceEpoch
    if s.nv.epoch.isSome then s
    else match s.reqsIn .due [0x40] with
      | [] => s
      | x :: _ => (s.takeOverlay x.1 x.2).runEpochs fuel

/-- Held plan-switch values are applied at the arming step that swaps the banks (R537).
(DEDUCED, unsafe: notes/assumptions/45.md) -/
def State.applySwitch (s : State) : State :=
  let held := s.nv.held
  if held.isEmpty then s
  else
    let regs := held.filterMap fun x => (fieldReg x.1).map fun off => (off, BitVec.ofNat 32 x.2)
    let s := regs.foldl (fun (s : State) x => s.setReg x.1 x.2) s
    { s with nv := { s.nv with held := [] } }.showEpoch

end Sys2Proof.Machine
end

