-- ==== Sys2Proof/Machine/Matrix.lean ====
section
/-!
DEFINITION. Machine/Matrix.lean: the matrix opcodes of the Sheafs, MMUL, ACCOUT and GATE (R164 to R169), on accumulator banks
with recorded exponents (R196, R197) and their error checks (R207, R209).
-/
namespace Sys2Proof.Machine

/-! ### Accumulator banks -/

/-- A bank that holds 0 everywhere with recorded exponents 0. -/
def zeroBank : AccBank := ⟨[], [], []⟩

/-- Bank `b` of Sheaf `n`. -/
def State.bank (s : State) (n b : Nat) : AccBank := keyGetD s.banks (8 * n + b) zeroBank

/-- Replace a bank. -/
def State.setBank (s : State) (n b : Nat) (v : AccBank) : State :=
  { s with banks := if v = zeroBank then keyDel s.banks (8 * n + b) else keyPut s.banks (8 * n + b) v }

/-- The exact sum at a row and column. -/
def AccBank.sum (b : AccBank) (r c : Nat) : Int := keyGetD b.sums (32 * r + c) 0

/-- The value the engine uses: the sum modulo 2³² (R165, R197). -/
def AccBank.val (b : AccBank) (r c : Nat) : Int := wrap32 (b.sum r c)

/-- The recorded exponent of a column. -/
def AccBank.exp (b : AccBank) (c : Nat) : Int := keyGetD b.exps c 0

/-- Write a word whole, which clears its poison. -/
def AccBank.setSum (b : AccBank) (r c : Nat) (v : Int) : AccBank :=
  { b with
    sums := if v = 0 then keyDel b.sums (32 * r + c) else keyPut b.sums (32 * r + c) v
    bad := b.bad.filter (· != 32 * r + c) }

/-- Record a column's exponent. -/
def AccBank.setExp (b : AccBank) (c : Nat) (e : Int) : AccBank :=
  { b with exps := if e = 0 then keyDel b.exps c else keyPut b.exps c e }

/-- A bank is pinned by the active plan (R169, R199). -/
def State.isPinned (s : State) (n b : Nat) : Bool := s.bit (Reg.SHF_STAT + 0x1000 * n) b

/-- The batch row that row `r` of a pinned bank belongs to (R169). -/
def pinnedBatch (b r : Nat) : Nat := if b < 4 then r else r + 32

/-- A read meets the error of an accumulator word (R207), and a double-bit error is answered (R209). -/
def State.senseWord (s : State) (n b w : Nat) (f : BitFlips) : State :=
  let key := (8 * n + b) * 1024 + w
  let s := { s with bankFlips := keyDel s.bankFlips key }
  match f with
  | .single => (s.addSat (Reg.SHF_ECCCNT + 0x1000 * n) 0 16 1).setBit (Reg.SHF_ECCSTAT + 0x1000 * n) 0 true
  | .double =>
    let st := Reg.SHF_ECCSTAT + 0x1000 * n
    let s := (s.addSat (Reg.SHF_ECCCNT + 0x1000 * n) 16 16 1).setBit st 1 true
    let s := (s.setFld st 8 3 b).setFld st 16 5 (w / 32)
    let s := s.setBank n b { s.bank n b with bad := addMember (s.bank n b).bad w }
    let sc := keyGet s.rows (pinnedBatch b (w / 32))
    let s := s.logError 2 5 { source := n, detail := 1024 * b + w, stream := if s.isPinned n b then sc.getD 0xFF else 0xFF }
    if s.isPinned n b then
      match sc with
      | some c => { (s.openHole c 4 s.tickNo 3).endStream c 3 4 with
          unreadRows := addMember s.unreadRows (pinnedBatch b (w / 32)) }
      | none => s
    else { s.holeAll 4 with unreadAll := true }

/-- Read every word of a bank's first `rows` rows. -/
def State.senseBank (s : State) (n b rows : Nat) : State :=
  if s.bankFlips.isEmpty then s
  else (s.bankFlips.filter fun f => f.1 / 1024 = 8 * n + b && f.1 % 1024 < 32 * rows).foldl
    (fun s f => s.senseWord n b (f.1 % 1024) f.2) s

/-- Engines' count of columns found wrapped, over the first `rows` rows and `cols` columns of a bank (R197). -/
def AccBank.wrapped (b : AccBank) (rows cols : Nat) : Nat :=
  ((List.range cols).filter fun c => (List.range rows).any fun r => b.val r c != b.sum r c).length

/-! ### MMUL -/

/-- The depth per pass (Table 5-4). -/
def passDepth (fmtA fmtB : Nat) : Nat := if fmtA = 2 then 16 else if fmtB = 0 then 64 else 32

/-- The state of a pinned bank as operand A: INT8 at −7 or INT16 at −15 (R164, R168). -/
def State.pinnedState (s : State) (n b : Nat) : List (List Int) :=
  (List.range 32).map fun r => (List.range 32).map fun c => (s.bank n b).val r c

/-- H16 of a pinned bank. -/
def State.h16 (s : State) (n b : Nat) : Bool := keyGetD (s.plan.pinned n) b false

/-- The exact sum of products of a row and a column. -/
def dot : List Int → List Int → Int
  | x :: xs, y :: ys => x * y + dot xs ys
  | _, _ => 0

/-- One element of an MMUL's effect: the word after the products are aligned and added (R166, R196). -/
def mmulWord (acc : Bool) (old bias : Int) (p eP eRec : Int) : Int :=
  (if acc then old else bias) + rneShift p (eRec - eP)

/-- What an MMUL does to the errors of the bank words it writes: a product that adds to them reads each first, and one that replaces
them leaves no error in them (R207). -/
def State.meetBank (s : State) (acc : Bool) (n b rows cols : Nat) : State :=
  if s.bankFlips.isEmpty then s
  else if acc then s.senseBank n b rows
  else { s with bankFlips := s.bankFlips.filter fun f =>
    !(f.1 / 1024 = 8 * n + b && decide (f.1 % 1024 / 32 < rows) && decide (f.1 % 32 < cols)) }

/-- MMUL (R164 to R166, R196). -/
def State.mmul (s : State) (n : Nat) (f : TFields) : State :=
  let loops := (s.eng n).loops
  let m := f.mod.toNat
  let acc := bitOf m 3
  let ssrc := bitOf m 7
  let sbank := bitsOf m 4 3
  let dA := s.plan.tensor f.srcA.toNat
  let dB := s.plan.tensor f.srcB.toNat
  let (aRows, s) := if ssrc then (s.pinnedState n sbank, s.senseBank n sbank 32) else s.readOp n dA loops
  let eA : Int := if ssrc then (if s.h16 n sbank then -15 else -7) else dA.shift
  let (bRows, s) := s.readOp n dB loops
  let s := s.senseTrailer n dB loops
  let (shifts, clamps) := s.readShifts dB loops
  let (bias, s) := if f.srcC = 0xFFF then ([], s) else
    let (rows, s) := s.readOp n (s.plan.tensor f.srcC.toNat) loops
    (rows.headD [], s)
  let cols := dB.cols
  let s := s.count n fun c =>
    { c with mac := c.mac + aRows.length * bRows.length * cols, trl := c.trl + (if dB.scale = 1 then clamps else 0) }
  let colB := (List.range cols).map fun c => bRows.map fun row => row.getD c 0
  let abank := m % 8
  (List.range (ceilDiv aRows.length 32)).foldl (fun (s : State) i =>
    let s := s.meetBank acc n (abank + i) (min 32 (aRows.length - 32 * i)) cols
    let b := s.bank n (abank + i)
    let b := if acc then b else (List.range cols).foldl (fun b c =>
      b.setExp c (clampInt (-31) 31 (eA + effExp dB shifts 0 c))) b
    let b := ((aRows.drop (32 * i)).take 32).zipIdx.foldl (fun b row =>
      (colB.zipIdx).foldl (fun b col =>
        b.setSum row.2 col.2 (mmulWord acc (b.sum row.2 col.2) (bias.getD col.2 0) (dot row.1 col.1)
          (eA + effExp dB shifts 0 col.2) (b.exp col.2))) b) b
    s.setBank n (abank + i) b) s

/-- The cost of an MMUL (R165). -/
def State.mmulCost (s : State) (n : Nat) (f : TFields) : Nat :=
  let dA := s.plan.tensor f.srcA.toNat
  let dB := s.plan.tensor f.srcB.toNat
  let ssrc := bitOf f.mod.toNat 7
  let fmtA := if ssrc then (if s.h16 n (bitsOf f.mod.toNat 4 3) then 2 else 1) else dA.fmt
  let m := if ssrc then 32 else dA.rows
  ceilDiv dB.rows (passDepth fmtA dB.fmt) * max m 32 + 40

/-- MMUL forms a matrix product into accumulator banks. -/
def execMmul (n : Fin 16) (f : TFields) (s : State) : Host.Outcome State Fault Refusal :=
  .next <| s.runWord n (tWord 0x20 f) (s.mmulCost n f) fun s => s.mmul n f

/-! ### ACCOUT -/

/-- ACCOUT (R167): each column from its recorded exponent to DST, with the residual added after. -/
def State.accout (s : State) (n : Nat) (f : TFields) : State :=
  let loops := (s.eng n).loops
  let dD := s.plan.tensor f.dst.toNat
  let abank := f.mod.toNat % 8
  let banks := ceilDiv dD.rows 32
  let s := (List.range banks).foldl (fun s i => s.senseBank n (abank + i) (min 32 (dD.rows - 32 * i))) s
  let (res, s) := if f.srcC = 0xFFF then ([], s) else s.readOp n (s.plan.tensor f.srcC.toNat) loops
  let raw := (List.range dD.rows).map fun r => (List.range dD.cols).map fun c =>
    let b := s.bank n (abank + r / 32)
    requantRaw (b.val (r % 32) c) (b.exp c) dD.shift
  let lo := fmtLow dD.fmt
  let hi := fmtHigh dD.fmt
  let out := raw.zipIdx.map fun row => row.1.zipIdx.map fun x =>
    let q := clampInt lo hi x.1
    if f.srcC = 0xFFF then q else clampInt lo hi (q + (res.getD row.2 []).getD x.2 0)
  let sats := (raw.zipIdx.map fun row => (row.1.zipIdx.map fun x =>
    satCount dD.fmt x.1 +
      (if f.srcC = 0xFFF then 0 else satCount dD.fmt (clampInt lo hi x.1 + (res.getD row.2 []).getD x.2 0))).sum).sum
  let ovf := ((List.range banks).map fun i => (s.bank n (abank + i)).wrapped (min 32 (dD.rows - 32 * i)) dD.cols).sum
  let s := s.count n fun c => { c with sat := c.sat + sats, ovf := c.ovf + ovf }
  s.writeRows dD loops out

/-- ACCOUT requantises accumulator banks to a destination tensor; it costs M + 16, plus M with a residual. -/
def execAccout (n : Fin 16) (f : TFields) (s : State) : Host.Outcome State Fault Refusal :=
  let m := (s.plan.tensor f.dst.toNat).rows
  .next <| s.runWord n (tWord 0x21 f) (m + 16 + (if f.srcC = 0xFFF then 0 else m)) fun s => s.accout n f

/-! ### GATE -/

/-- One element of GATE (R168): the new state, and how many saturations it counts (R195). -/
def gateElem (h16 : Bool) (gTbl cTbl : List Int) (k z u h : Int) : Int × Nat :=
  let fmt := if h16 then 2 else 1
  let g := max 0 (signedEntry gTbl k z)
  let c0 := signedEntry cTbl k u
  let cand := clampInt (fmtLow fmt) (fmtHigh fmt) c0
  let h0 := h + rneShift (g * (cand - h)) 15
  (clampInt (fmtLow fmt) (fmtHigh fmt) h0, satCount fmt c0 + satCount fmt h0)

/-- GATE (R168): the pinned state advances one step, and is copied to DST if one is named. -/
def State.gate (s : State) (n : Nat) (f : TFields) : State :=
  let loops := (s.eng n).loops
  let m := f.mod.toNat
  let zb := m % 8
  let hb := gateBank m
  let h16 := bitOf m 6
  let dT := s.plan.tensor f.srcC.toNat
  let s := ((s.senseBank n zb 32).senseBank n (zb + 1) 32).senseBank n hb 32
  let (_, s) := s.readOp n dT loops
  let gTbl := s.table dT loops 0
  let cTbl := s.table dT loops 1
  let bz := s.bank n zb
  let bu := s.bank n (zb + 1)
  let bh := s.bank n hb
  let res := (List.range 32).map fun r => (List.range 32).map fun c =>
    gateElem h16 gTbl cTbl dT.indexShift (bz.val r c) (bu.val r c) (bh.val r c)
  let new := res.map fun row => row.map Prod.fst
  let sats := (res.map fun row => (row.map Prod.snd).sum).sum
  let bh' := new.zipIdx.foldl (fun b row => row.1.zipIdx.foldl (fun b x => b.setSum row.2 x.2 x.1) b) bh
  let s := s.setBank n hb bh'
  let s := s.count n fun c =>
    { c with sat := c.sat + sats, ovf := c.ovf + bz.wrapped 32 32 + bu.wrapped 32 32 }
  if f.dst = 0xFFF then s else s.writeRows (s.plan.tensor f.dst.toNat) loops new

/-- GATE advances one step of a gated recurrent cell; it costs 56, plus 32 with a DST. -/
def execGate (n : Fin 16) (f : TFields) (s : State) : Host.Outcome State Fault Refusal :=
  .next <| s.runWord n (tWord 0x22 f) (if f.dst = 0xFFF then 56 else 88) fun s => s.gate n f

end Sys2Proof.Machine
end

