-- ==== Sys2Proof/Machine/Requests.lean ====
section
/-!
DEFINITION. Machine/Requests.lean: the requests that act when they are fetched, NOP, QUERY and ABORT (R315, R323, R324), and the
turn of those that act in a fallow window (R56, R318 to R322).
-/
namespace Sys2Proof.Machine

/-! ### The stream context header (Table 10-7) -/

/-- STATE of a header. -/
def phaseCode : StreamPhase → Nat
  | .opened => 1
  | .paused => 2
  | .closing => 3
  | .migrating => 4

/-- The 256 bytes of a stream context header.
(DEDUCED, unsafe: notes/assumptions/56.md) -/
def Stream.header (t : Stream) (sc : Nat) : List Byte :=
  let b := fun (n : Nat) => BitVec.ofNat 8 n
  leBytes 4 0x58435354 ++
  [b sc, b (phaseCode t.state), if t.best then 1 else 0, b t.prio, b t.chunk, b (t.phase.getD 0xFF), b t.psz, b t.rqueue] ++
  (match t.inBind with
    | some x => [b x.1, b x.2]
    | none => [0xFF, 0xFF]) ++
  (match t.outBind with
    | some x => [b x.port, b (x.slot + (if x.two then 128 else 0))]
    | none => [0xFF, Config.unboundSlot]) ++
  leBytes 8 t.origin ++ leBytes 8 t.firstAdm ++ leBytes 4 t.rseq ++ leBytes 4 t.seed ++ leBytes 8 (t.energy / 1000) ++
  [if t.gated then 1 else 0] ++ List.replicate 15 0 ++ t.uparam ++ List.replicate 176 0

/-! ### Requests that act now -/

/-- NOP completes at once. -/
def execNop (q : Fin 16) (tag : BitVec 16) (s : State) : Host.Outcome State Fault Refusal :=
  .next <|
    match s.coreUp 1, s.waitingReq q 0x00 tag.toNat with
    | true, some r => s.settle q r.tag 0 0 0 0xFF
    | _, _ => s

/-- The answer of a QUERY (R323). -/
def State.answerQuery (s : State) (q : Nat) (r : Req) : State :=
  let done := fun (s : State) (v : Nat) => s.settle q r.tag 0 0 v r.stream
  let item := r.par 0
  if item = 3 then done s (match s.active with
    | some p => p.hdr.planId
    | none => 0)
  else if item = 4 then done s s.tickNo
  else match s.stream r.stream with
    | none => s.settle q r.tag 0x02 0 0 r.stream
    | some t =>
      if item = 0 then done s (leAt (t.header r.stream) 4 8)
      else if item = 1 then done s (t.energy / 1000)
      else if item = 2 then done s t.rseq
      else if decide (r.len < 256) || !s.bufferOk r.addr r.len true then s.settle q r.tag 0x06 1 0 r.stream
      else match s.senseWrite r.addr 256 with
        | (some bad, s) =>
          (s.logError 2 (tierSub bad true) { addr := bad, tag := r.tag, queue := q }).settle q r.tag 0x06 2 0 r.stream
        | (none, s) => done (s.storeBytes r.addr (t.header r.stream)) 256

/-- ABORT settles its target as R324 states; where the target runs on, ABORT waits for it. -/
def State.abortTarget (s : State) (q : Nat) (r : Req) : State :=
  let tq := r.par 0
  let tt := leAt r.param 2 2
  let settleMe := fun (s : State) (st : Nat) => s.settle q r.tag st 0 0 0xFF
  match (s.queue tq).window.find? fun e => e.tag = tt with
  | none => settleMe s 0x0C
  | some e =>
    if e.result.isSome then settleMe s 0x0C
    else match (s.queue tq).reqs.find? fun x => x.tag = tt && !x.replay with
      | none => settleMe s 0x0C
      | some x =>
        match x.state with
        | .done .. => settleMe s 0x0C
        | .waiting | .due =>
          if tq = q && tt = r.tag then settleMe s 0x0C else settleMe (s.settle tq tt 0x07 1 0 x.stream) 0
        | .acting =>
          match s.stopReq tq x with
          | (true, s') => settleMe (s'.settle tq tt 0x07 1 0 x.stream) 0
          | (false, s) => s.actReq q r.tag

/-- ABORT. -/
def execAbort (q : Fin 16) (tag : BitVec 16) (s : State) : Host.Outcome State Fault Refusal :=
  .next <|
    match s.coreUp 1, s.waitingReq q 0x02 tag.toNat with
    | true, some r => s.abortTarget q r
    | _, _ => s

/-! ### Requests that act in a fallow window -/

/-- STREAM_OPEN: step 4 of the next window (R317). -/
def execStreamOpen (q : Fin 16) (tag : BitVec 16) (s : State) : Host.Outcome State Fault Refusal :=
  .next <| s.dueReq q 0x20 tag.toNat

/-- STREAM_CLOSE (R318). -/
def execStreamClose (q : Fin 16) (tag : BitVec 16) (s : State) : Host.Outcome State Fault Refusal :=
  .next <| s.dueReq q 0x21 tag.toNat

/-- STREAM_PAUSE (R318). -/
def execStreamPause (q : Fin 16) (tag : BitVec 16) (s : State) : Host.Outcome State Fault Refusal :=
  .next <| s.dueReq q 0x22 tag.toNat

/-- STREAM_RESUME (R318). -/
def execStreamResume (q : Fin 16) (tag : BitVec 16) (s : State) : Host.Outcome State Fault Refusal :=
  .next <| s.dueReq q 0x23 tag.toNat

/-- STREAM_ABORT (R318, R345). -/
def execStreamAbort (q : Fin 16) (tag : BitVec 16) (s : State) : Host.Outcome State Fault Refusal :=
  .next <| s.dueReq q 0x24 tag.toNat

/-- STATE_EXPORT (R319). -/
def execStateExport (q : Fin 16) (tag : BitVec 16) (s : State) : Host.Outcome State Fault Refusal :=
  .next <| s.dueReq q 0x25 tag.toNat

/-- MIGRATE (R320). -/
def execMigrate (q : Fin 16) (tag : BitVec 16) (s : State) : Host.Outcome State Fault Refusal :=
  .next <| s.dueReq q 0x26 tag.toNat

/-- AUDIO_BIND: step 3 of the next window (R321). -/
def execAudioBind (q : Fin 16) (tag : BitVec 16) (s : State) : Host.Outcome State Fault Refusal :=
  .next <| s.dueReq q 0x30 tag.toNat

/-- AUDIO_UNBIND: step 3 of the next window (R321). -/
def execAudioUnbind (q : Fin 16) (tag : BitVec 16) (s : State) : Host.Outcome State Fault Refusal :=
  .next <| s.dueReq q 0x31 tag.toNat

/-- OVERLAY: step 3 of the next window (R322). -/
def execOverlay (q : Fin 16) (tag : BitVec 16) (s : State) : Host.Outcome State Fault Refusal :=
  .next <| s.dueReq q 0x40 tag.toNat

end Sys2Proof.Machine
end

