-- ==== Sys2Proof/Machine/Records.lean ====
section
/-!
DEFINITION. Machine/Records.lean: the state record (Table 7-2, R232 to R234), the pinned rows it holds (R216, R227, R228), and the
bytes of a stream context (R269, R270, R272, Table 10-7) as they travel between chips.
-/
namespace Sys2Proof.Machine

/-! ### Pinned rows -/

/-- The bank and the row of a batch row, for a pinned slot (R215, R216). -/
def pinnedPlace (slot batch : Nat) : Nat × Nat := (if batch < 32 then slot else slot + 4, batch % 32)

/-- A batch row's 32 values of a pinned slot of Sheaf `n`. -/
def State.pinnedRow (s : State) (n slot batch : Nat) : List Int :=
  let p := pinnedPlace slot batch
  (List.range 32).map fun c => (s.bank n p.1).val p.2 c

/-- Write a batch row of a pinned slot whole: errors its words held are gone (R207). -/
def State.setPinnedRow (s : State) (n slot batch : Nat) (xs : List Int) : State :=
  let p := pinnedPlace slot batch
  let b := (List.range 32).foldl (fun (b : AccBank) c => b.setSum p.2 c (xs.getD c 0)) (s.bank n p.1)
  let key := (8 * n + p.1) * 1024 + 32 * p.2
  { s.setBank n p.1 b with bankFlips := s.bankFlips.filter fun f => !inRange f.1 key 32 }

/-- Set a batch row's pinned rows to 0 (R217, R218). -/
def State.zeroPinned (s : State) (batch : Nat) : State :=
  s.plan.pinnedSlots.foldl (fun (s : State) x => s.setPinnedRow x.1 x.2.1 batch []) s

/-! ### The state record -/

/-- The 32 values of an entry as it stores them. -/
def entryBytes (xs : List Int) : List Byte := xs.flatMap fun x => leBytes 2 (unsignedOf 16 x)

/-- The bytes of a record before its CRC field, and from its entry table on. -/
def recordParts (planId chunk phase pos : Nat) (slots : List (Nat × Nat × Bool)) (rows : List (List Int)) :
    List Byte × List Byte :=
  let b := fun (n : Nat) => BitVec.ofNat 8 n
  let table := slots.flatMap fun x => [b x.1, b x.2.1, b (if x.2.2 then 2 else 1), 0]
  (leBytes 4 0x43525354 ++ leBytes 2 1 ++ leBytes 2 slots.length ++ leBytes 8 planId ++ [b chunk, b phase, 0, 0] ++
    leBytes 4 pos ++ List.replicate 36 0,
   table ++ List.replicate (ceilDiv table.length 64 * 64 - table.length) 0 ++ rows.flatMap entryBytes)

/-- A state record. -/
def recordBytes (planId chunk phase pos : Nat) (slots : List (Nat × Nat × Bool)) (rows : List (List Int)) : List Byte :=
  let p := recordParts planId chunk phase pos slots rows
  p.1 ++ leBytes 4 (crc32 (p.1 ++ [0, 0, 0, 0] ++ p.2)).toNat ++ p.2

/-- Why a record is not accepted, as the DETAIL of STATUS 0x0B (R234, Table 10-6); `none` where it is. -/
def recordFault (p : Plan) (chunk : Nat) (bs : List Byte) : Option Nat :=
  let slots := p.pinnedSlots
  let n := slots.length
  let e := leAt bs 6 2
  let len := recordSize e
  let data := 64 + ceilDiv (4 * e) 64 * 64
  let zero := fun (off k : Nat) => ((bs.drop off).take k).all (· = 0)
  let body := bs.take len
  if leAt bs 0 4 != 0x43525354 || leAt bs 4 2 != 1 || e = 0 || decide (128 < e) || decide (bs.length < len) ||
      leAt bs 0x3C 4 != (crc32 (body.take 0x3C ++ [0, 0, 0, 0] ++ body.drop 0x40)).toNat ||
      !zero 0x12 2 || !zero 0x18 36 || !zero (64 + 4 * e) (data - 64 - 4 * e) ||
      !((List.range e).all fun i => leAt bs (64 + 4 * i + 3) 1 = 0) then some 1
  else if leAt bs 8 8 != p.hdr.planId then some 2
  else if e != n || (slots.zipIdx).any (fun x =>
      leAt bs (64 + 4 * x.2) 1 != x.1.1 || leAt bs (64 + 4 * x.2 + 1) 1 != x.1.2.1 ||
      leAt bs (64 + 4 * x.2 + 2) 1 != (if x.1.2.2 then 2 else 1)) then some 3
  else if (slots.zipIdx).any (fun x => !x.1.2.2 && (List.range 32).any fun c =>
      let v := signedOf 16 (leAt bs (data + 64 * x.2 + 2 * c) 2)
      decide (v < -128) || decide (127 < v)) then some 4
  else if leAt bs 0x10 1 != chunk then some 5
  else none

/-- The values of entry `i` of a record. -/
def recordEntry (bs : List Byte) (i : Nat) : List Int :=
  let e := leAt bs 6 2
  let data := 64 + ceilDiv (4 * e) 64 * 64 + 64 * i
  (List.range 32).map fun c => signedOf 16 (leAt bs (data + 2 * c) 2)

/-- Load a row's pinned rows from a record (R228). -/
def State.loadPinned (s : State) (batch : Nat) (bs : List Byte) : State :=
  s.plan.pinnedSlots.zipIdx.foldl (fun (s : State) x => s.setPinnedRow x.1.1 x.1.2.1 batch (recordEntry bs x.2)) s

/-- The record of the pinned rows of a batch row, at the end of a tick (R232, R233). -/
def State.rowRecord (s : State) (t : Stream) (batch : Nat) : List Byte :=
  let slots := s.plan.pinnedSlots
  let pos := if t.firstAdm = 0 || decide (s.tickNo < t.origin) then 0 else (s.tickNo - t.origin) % max 1 t.chunk
  recordBytes s.plan.hdr.planId t.chunk (t.phase.getD 0) pos slots (slots.map fun x => s.pinnedRow x.1 x.2.1 batch)

/-- Length of this plan's state records. -/
def State.recordLen (s : State) : Nat := recordSize s.plan.pinnedSlots.length

/-! ### Stream contexts as bytes -/

/-- Fill up to a multiple of 64 bytes. -/
def pad64 (bs : List Byte) : List Byte := bs ++ List.replicate (64 * ceilDiv bs.length 64 - bs.length) 0

/-- A page table entry (R272). -/
def pageEntry (p : Page) : List Byte :=
  leBytes 8 (p.addr / 64 % 2 ^ 38 + (if p.valid then 2 ^ 40 else 0) + p.seq % 65536 * 2 ^ 48)

/-- A region head with its page table (Table 9-3). -/
def PagedRegion.bytes (r : PagedRegion) (g : Geom) (psz : Nat) : List Byte :=
  let ps := 16 * 2 ^ psz
  pad64 (leBytes 4 r.length ++ leBytes 4 r.nextSeq ++ leBytes 4 r.sumSeq ++ [BitVec.ofNat 8 psz] ++ (List.replicate 51 0 : List Byte) ++
    pad64 ((List.range g.d).map fun c => BitVec.ofNat 8 (unsignedOf 8 (r.kshift.getD c 0))) ++
    (if g.summarised then cellRead r.sumStage 0 (2 * g.d) else []) ++
    ((List.range (32 * g.d)).flatMap fun i => leBytes 4 (unsignedOf 32 (keyGetD r.tail i 0))) ++
    ((List.range (g.slotsOf ps)).flatMap fun i =>
      match r.pages.find? fun p => p.seq % max 1 (g.slotsOf ps) = i with
      | some p => pageEntry p
      | none => (List.replicate 8 0 : List Byte)))

/-- The regions of a plan that are paged, with their geometries, in ascending order. -/
def Plan.pagedRegions (p : Plan) : List (Nat × Geom) := (p.regions.map fun r => (r, p.geom r)).filter fun x => x.2.paged

/-- The regions of a plan that are flat, with their geometries, in ascending order. -/
def Plan.flatRegions (p : Plan) : List (Nat × Geom) := (p.regions.map fun r => (r, p.geom r)).filter fun x => !x.2.paged

/-- A region with nothing in it. -/
def emptyRegion (g : Geom) : PagedRegion := ⟨0, 0, 0, List.replicate g.d 0, [], [], [], none⟩

/-- A stream context. -/
def Stream.contextBytes (t : Stream) (p : Plan) (sc : Nat) : List Byte :=
  t.header sc ++ p.pagedRegions.flatMap fun x => ((keyGet t.paged x.1).getD (emptyRegion x.2)).bytes x.2 t.psz

/-- Pairs of a rising list of values that are not 0. -/
def nonZero (l : List Int) : List (Nat × Int) := (l.zipIdx.filter fun x => x.1 != 0).map fun x => (x.2, x.1)

/-- Read a region head at the start of some bytes. -/
def readRegion (g : Geom) (psz : Nat) (bs : List Byte) : PagedRegion :=
  let ps := 16 * 2 ^ psz
  let nextSeq := leAt bs 4 4
  let k := 64 + 64 * ceilDiv g.d 64
  let t := k + (if g.summarised then 2 * g.d else 0)
  let tbl := t + 128 * g.d
  let n := max 1 (g.slotsOf ps)
  { length := leAt bs 0 4, nextSeq := nextSeq, sumSeq := leAt bs 8 4,
    kshift := (List.range g.d).map fun c => signedOf 8 (leAt bs (64 + c) 1)
    sumStage := if g.summarised then cellSetMany [] 0 ((bs.drop k).take (2 * g.d)) else []
    tail := nonZero ((List.range (32 * g.d)).map fun i => signedOf 32 (leAt bs (t + 4 * i) 4))
    pages := (List.range (min n nextSeq)).filterMap fun i =>
      let q := nextSeq - min n nextSeq + i
      let e := leAt bs (tbl + 8 * (q % n)) 8
      if bitOf e 40 then some ⟨q, bitsOf e 0 38 * 64, true⟩ else none
    sumHome := none }

end Sys2Proof.Machine
end

