-- ==== Sys2Proof/Machine/Streams.lean ====
section
/-!
DEFINITION. Machine/Streams.lean: streams from their opening to their end: STREAM_OPEN in step 4 (R265, R313, R317), the stream-abort
path and closing at rest (R318, R345), deactivation (Table 3-27), and export of pinned rows (R227).
-/
namespace Sys2Proof.Machine

/-! ### Ends -/

/-- The hole record of a stream that ends (R345 step 5, R342): an open hole runs to the last tick; without one, a hole of cause 7
runs from the tick after the last resumption point. None is posted where the last admitted tick ended at a resumption point.
(DEDUCED, unsafe: notes/assumptions/9.md) -/
def State.finalHole (s : State) (sc : Nat) (t : Stream) : State :=
  let n := s.tickNo
  if t.rested then s.updStream sc fun t => { t with hole := none }
  else
    let s := s.updStream sc fun u =>
      { u with hole := some (match u.hole with
          | some h => { h with multi := true }
          | none => ⟨max (t.lastRest + 1) t.firstAdm, 7, if t.outBind.isSome then 7 else 3, false⟩) }
    s.postHole sc n n true

/-- A stream ends with an END code (R343, R345 steps 2 to 8): its moves stop, its pinned rows become 0, its bindings go, its
records are posted, requests that name it are settled, and its data and SC number are freed.
(DEDUCED, unsafe: notes/assumptions/9.md) -/
def State.finishStream (s : State) (sc end_ : Nat) (status : Nat → Nat) : State :=
  match s.stream sc with
  | none => s
  | some t =>
    let s := (s.stopMoves fun d => d.owner = some sc).2
    let s := (s.txMoves.filter fun m => m.datum.owner = some sc).foldl (fun (s : State) m =>
      s.peerMsg m.chip m.cls 0x04 [m.id] 1) s
    let s := match t.row with
      | some r => s.zeroPinned r
      | none => s
    let s := s.leaveOut sc
    let s := s.finalHole sc t
    let s := s.postResult sc 4 0xFF 0 s.tickNo s.tickNo [BitVec.ofNat 8 end_]
    let s := s.settleStream sc status
    let held := match s.stream sc with
      | some t => t.held.map fun b => (t.rqueue, b)
      | none => []
    { s with
      streams := keyDel s.streams sc
      lateSc := addMember s.lateSc sc
      orphans := s.orphans ++ held
      exports := s.exports.filter fun x => x.sc != sc
      migrations := s.migrations.filter fun m => m.sc != sc
      txMoves := s.txMoves.filter fun m => m.datum.owner != some sc
      lookAside := s.lookAside.filter fun x => x.1 != sc }.showHeld t.rqueue

/-- The STATUS of requests that name a stream which the abort path ends. -/
def abortStatus (kind : Nat) : Nat := if kind = 0x24 then 0 else 8

/-- The STATUS of requests that name a stream which closes at rest. -/
def closeStatus (kind : Nat) : Nat := if kind = 0x21 then 0 else 8

/-- The stream-abort path is taken for every stream for which it is due (R345). -/
def State.takeEndings (s : State) : State :=
  s.streams.foldl (fun (s : State) (e : Nat × Stream) => match e.2.ending with
    | some x => s.finishStream e.1 x.1 abortStatus
    | none => s) s

/-- A stream has come to rest for a request that waits for its resumption point: it is out of admission, or its last admitted tick
ended at one (R67). -/
def Stream.atRest (t : Stream) : Bool := t.rested || t.row.isNone

/-- Streams that close end at their resumption point (R318).
(DEDUCED, unsafe: notes/assumptions/10.md) -/
def State.closeResting (s : State) : State :=
  s.streams.foldl (fun (s : State) (e : Nat × Stream) =>
    if e.2.state = .closing && e.2.atRest && e.2.runsOn.isNone then s.finishStream e.1 0 closeStatus else s) s

/-- The plan is deactivated (Table 3-27, R148): every stream that runs here ends, and no plan is active.
(DEDUCED, unsafe: notes/assumptions/10.md) -/
def State.deactivatePlan (s : State) : State :=
  let s := s.streams.foldl (fun (s : State) (e : Nat × Stream) =>
    if e.2.runsOn.isNone then s.finishStream e.1 7 (fun _ => 8) else s) s
  let s := { s with active := none, deactivate := false, ringHome := none, openings := [],
                    engs := s.engs.map fun (g : EngState) => { g with next := none } }
  let s := (List.range 16).foldl (fun (s : State) n => s.setFld (Reg.SHF_STAT + 0x1000 * n) 0 8 0) s
  let s := (s.setBit Reg.PLAN_STAT 0 false).setReg64 Reg.PLAN_ACTID_LO 0
  s.raise .plan Reg.PLAN_STAT 10

/-! ### Opening -/

/-- The offset of the first PARAM byte that Table 10-8 forbids. -/
def State.openParam (s : State) (r : Req) : Option Nat :=
  if 1 < r.par 0 then some 0x20
  else if 7 < r.par 1 then some 0x21
  else if r.par 2 = 0 || decide (16 < r.par 2) then some 0x22
  else if 4 < r.par 3 then some 0x23
  else if decide (15 < r.par 4) || !s.qOn (r.par 4) then some 0x24
  else if 1 < r.par 5 then some 0x25
  else none

/-- Some summarised region has too few slots for a page size (R265). -/
def Plan.tooFewSlots (p : Plan) (ps : Nat) : Bool :=
  p.pagedRegions.any fun x => x.2.summarised && decide (x.2.slots < ceilDiv x.2.lkMax ps + ceilDiv x.2.aMax ps + 1)

/-- Why an open is refused, in the order of R317, as STATUS and DETAIL; the initial record has been read where it can be.
(DEDUCED, unsafe: notes/assumptions/56.md) -/
def State.openRefusal (s : State) (r : Req) (bad : Option Nat) : Option (Nat × Nat) :=
  match s.active with
  | none => some (0x0A, 0)
  | some p =>
    if 64 ≤ s.streams.length then some (0x03, 1)
    else match s.openParam r with
      | some off => some (0x01, off)
      | none =>
        if p.tooFewSlots (16 * 2 ^ r.par 3) then some (0x05, 1)
        else if r.len = 0 then none
        else if !s.bufferOk r.addr r.len false then some (0x06, 1)
        else if bad.isSome then some (0x06, 2)
        else (recordFault p (r.par 2) (s.bytesAt r.addr (min r.len s.recordLen))).map fun d => (0x0B, d)

/-- A stream that has just been opened: its regions are empty and nothing of it has run. -/
def newStream (p : Plan) (r : Req) (home : Nat) : Stream :=
  { state := .opened, best := r.par 0 = 1, prio := r.par 1, chunk := r.par 2, phase := none, psz := r.par 3, rqueue := r.par 4,
    inBind := none, outBind := none, origin := 0, firstAdm := 0, rseq := 0, seed := leAt r.param 8 4, energy := 0,
    gated := bitOf (r.par 5) 0, uparam := (r.param.drop 16).take 16, home := home,
    paged := p.pagedRegions.map fun x => (x.1, emptyRegion x.2), flats := [], record := none, reserved := none, row := none,
    fresh := false, rested := true, hole := none, lastToken := 0, lastRest := 0, held := [], folded := none,
    ending := none, swapping := false, runsOn := none, homeChip := none, homeSc := 0, pausing := false,
    mutedTo := 0 }

/-- A new datum of zeros in T0, or in T1 where T0 has no room. -/
def State.zeroHome (s : State) (d : MoveDatum) (len : Nat) : Option (Nat × State) :=
  match (s.makeRoom .t0 len).zeroNew .t0 d len with
  | (some a, s') => some (a, s')
  | (none, _) => match s.zeroNew .t1 d len with
    | (some a, s') => some (a, s')
    | (none, _) => none

/-- Place a datum whose bytes are known in T0, or in T1 where T0 has no room. -/
def State.placeBytes (s : State) (bs : List Byte) : Option (Nat × State) :=
  match s.choose .t0 bs.length with
  | (some a, s') => some (a, s'.storeBytes a bs)
  | (none, _) => match s.choose .t1 bs.length with
    | (some a, s') => some (a, s'.storeBytes a bs)
    | (none, _) => none

/-- The open job of a request, or a new one.
(DEDUCED, unsafe: notes/assumptions/56.md) -/
def State.openJob (s : State) (q tag : Nat) : OpenJob :=
  (s.openings.find? fun o => o.q = q && o.tag = tag).getD ⟨q, tag, none, []⟩

/-- Keep an open job for the next window. -/
def State.keepJob (s : State) (o : OpenJob) : State :=
  { s with openings := (s.openings.filter fun x => !(x.q = o.q && x.tag = o.tag)) ++ [o] }

/-- An open job is over. -/
def State.dropJob (s : State) (q tag : Nat) : State :=
  { s with openings := s.openings.filter fun x => !(x.q = q && x.tag = tag) }

/-- Place what an open job still lacks, each datum by a zero move, until one must wait; whether the context and every flat region
are there.
(DEDUCED, unsafe: notes/assumptions/56.md) -/
def State.runOpen (s : State) (sc : Nat) (p : Plan) (ps : Nat) (o : OpenJob) : Bool × OpenJob × State :=
  let len := p.contextSize ps
  let (o, s) := if o.context.isSome then (o, s) else match s.zeroHome (.context sc) len with
    | some x => ({ o with context := some (x.1, len) }, x.2.keepJob { o with context := some (x.1, len) })
    | none => (o, s)
  let (o, s) := p.flatRegions.foldl (fun (r : OpenJob × State) x =>
    if (keyGet r.1.flats x.1).isSome then r
    else match r.2.zeroHome (.flat sc x.1) x.2.flatSize with
      | none => r
      | some y =>
        let o := { r.1 with flats := keyPut r.1.flats x.1 ⟨y.1, x.2.flatSize⟩ }
        (o, y.2.keepJob o)) (o, s)
  (o.context.isSome && p.flatRegions.all (fun x => (keyGet o.flats x.1).isSome), o, s)

/-- Fill the flat regions whose first contents are fixed (R313): the parameter region and the regions that SAMPLE names. -/
def State.fillFlats (s : State) (sc : Nat) (p : Plan) (t : Stream) : State :=
  p.flatRegions.foldl (fun (s : State) x => match (s.stream sc).bind fun t => keyGet t.flats x.1 with
    | none => s
    | some f =>
      let s := if x.1 = 62 then s.storeBytes f.home t.uparam else s
      if x.2.sampling then s.storeBytes f.home (leBytes 4 t.seed ++ leBytes 4 0) else s) s

/-- The lowest SC number that is free (R317, R345). -/
def State.freeSc (s : State) : Option Nat := (List.range 64).find? fun i => (s.stream i).isNone && !s.lateSc.contains i

/-- The initial record of an open becomes the stream's state record.
(DEDUCED, unsafe: notes/assumptions/56.md) -/
def State.firstRecord (s : State) (sc : Nat) (r : Req) : Option State :=
  if r.len = 0 then some s
  else (s.placeBytes (s.bytesAt r.addr s.recordLen)).map fun x => x.2.updStream sc fun t => { t with record := some x.1 }

/-- STREAM_OPEN in step 4 (R317). It waits for a later window while its data has no room or the budget does not last.
(DEDUCED, unsafe: notes/assumptions/56.md) -/
def State.openStream (s : State) (q : Nat) (r : Req) : State :=
  let readable := r.len != 0 && s.active.isSome && s.bufferOk r.addr r.len false
  let (bad, s) := if readable then s.senseRange r.addr r.len else (none, s)
  match s.openRefusal r bad with
  | some (st, d) =>
    let s := if st = 0x0B then s.logError 2 6 { tag := r.tag, queue := q, detail := d }
      else match bad with
        | some a => if st = 0x06 then s.logError 2 (tierSub a false) { addr := a, tag := r.tag, queue := q } else s
        | none => s
    (s.dropJob q r.tag).settle q r.tag st d 0 0xFF
  | none =>
    match s.active, s.freeSc with
    | some p, some sc =>
      match s.runOpen sc p (16 * 2 ^ r.par 3) (s.openJob q r.tag) with
      | (false, _, s) => s
      | (true, o, s) =>
        match (s.setStream sc { newStream p r ((o.context.map Prod.fst).getD 0) with flats := o.flats }).firstRecord sc r with
        | none => s
        | some s' => ((s'.dropJob q r.tag).fillFlats sc p (newStream p r 0)).settle q r.tag 0 0 sc sc
    | _, _ => s

/-! ### Leaving admission -/

/-- A stream leaves admission: its pinned rows are exported to its state record and set to 0 (R227). Away from a resumption point
the input it goes without is lost, and zeros replace its state before it runs again (R229); `migrates` says that it goes on
elsewhere instead (R238). -/
def State.exportRow (s : State) (sc : Nat) (migrates : Bool := false) : State :=
  match s.stream sc with
  | none => s
  | some t =>
    match t.row with
    | none => s
    | some r =>
      let s := if t.rested || migrates then s
        else (s.openHole sc 5 (s.tickNo + 1) 3).updStream sc fun t => { t with fresh := true }
      let s := if s.plan.pinnedSlots.isEmpty then s
        else match s.placeBytes (s.rowRecord t r) with
          | none => s
          | some (a, s) => (s.updStream sc fun t => { t with record := some a }).zeroPinned r
      s.updStream sc fun t => { t with row := none }

end Sys2Proof.Machine
end

