-- ==== Sys2Proof/Machine/Peer.lean ====
section
/-!
DEFINITION. Machine/Peer.lean: what joins a chip to its peers beyond the link: migration sets and pushes (R235 to R238, R410 to R414),
proxies and forwarded requests (R415), violations (R422) and the loss of a member (R357, R413, R416, R419).
-/
namespace Sys2Proof.Machine

/-! ### Violations -/

/-- A peer's violation is logged with its SUB and port (R422). -/
def State.peerViolation (s : State) (k sub : Nat) : State :=
  (s.logViolation 4 sub { source := k }).raise .gdn (gdnReg Reg.GDN_STAT k) 11

/-! ### Migration sets -/

/-- The device address that names an offset of a peer's window (Table 3-2). -/
def peerAddr (chip off : Nat) : Nat := 0xC00_0000_0000 + chip * 0x10_0000_0000 + off

/-- The chip on which a datum at an address is homed, where it is a peer. -/
def State.homeAway (s : State) (a : Nat) : Option Nat := match s.place a with
  | .peer c _ => some c
  | _ => none

/-- The data of a stream in the order of a migration set: its state record last (R236).
(DESIGN CHOICE, unsafe: notes/assumptions/11.md) -/
def State.setOf (s : State) (sc : Nat) : List Homed := match s.stream sc with
  | some t => t.data s.plan sc
  | none => []

/-- Bytes of a stream's migration set (R235), with the record that its export will write. -/
def State.setSize (s : State) (sc : Nat) : Nat :=
  ((s.setOf sc).map (·.len)).sum +
  (match s.stream sc with
    | some t => if t.record.isNone && !s.plan.pinnedSlots.isEmpty then s.recordLen else 0
    | none => 0)

/-- The place of a datum in its set.
(DESIGN CHOICE, unsafe: notes/assumptions/11.md) -/
def setOffset : List Homed → MoveDatum → Nat
  | [], _ => 0
  | h :: hs, d => if h.datum = d then 0 else h.len + setOffset hs d

/-- A datum is a stream's state record. -/
def MoveDatum.isRecord : MoveDatum → Bool
  | .record _ => true
  | _ => false

/-! ### Stream contexts as bytes -/

/-- A stream context laid over the bytes of a range that starts at `a`, where it lies in it. -/
def layOver (a : Nat) (bs : List Byte) (home : Nat) (ctx : List Byte) : List Byte :=
  let c := ctx.drop (a - home)
  let m := c.length
  bs.zipIdx.map fun b => if home - a ≤ b.2 ∧ b.2 - (home - a) < m then c.getD (b.2 - (home - a)) 0 else b.1

/-- The bytes of a range as a reader finds them: what is stored, and at the home of a stream context (R269) that context.
(DESIGN CHOICE, unsafe: notes/assumptions/25.md) -/
def State.showContexts (s : State) (a : Nat) (bs : List Byte) : List Byte :=
  s.streams.foldl (fun bs e =>
    if e.2.runsOn.isSome || !rangesMeet a bs.length e.2.home (s.plan.contextSize e.2.ps) then bs
    else layOver a bs e.2.home (e.2.contextBytes s.plan e.1)) bs

/-! ### Pushes -/

/-- The bytes of a datum as they leave the chip. -/
def State.datumBytes (s : State) (h : Homed) : List Byte :=
  match h.datum with
  | .context sc => match s.stream sc with
    | some t => (t.contextBytes s.plan sc).take h.len
    | none => []
  | _ => s.bytesAt h.addr h.len

/-- WRITE messages of at most 4 KiB, and SEAL (R411). -/
def State.sendWrites (s : State) (chip cls id off : Nat) (bs : List Byte) : State :=
  let s := (List.range (ceilDiv bs.length 4096)).foldl (fun (s : State) i =>
    let part := (bs.drop (4096 * i)).take 4096
    s.peerMsg chip cls 0x01 (id :: (off + 4096 * i) / 64 :: part.map (·.toNat)) part.length) s
  s.peerMsg chip cls 0x02 [id, bs.length / 64] 1

/-- Push a datum to a place of a peer's window, charging the budget: unchanged where it must wait. A source that cannot be read
loses the datum.
(DESIGN CHOICE, safe: notes/assumptions/3.md) -/
def State.pushDatum (s : State) (chip off : Nat) (h : Homed) : State :=
  if s.budget < h.len then s
  else
    let (v, s) := s.draw
    let cart := v % 8
    let s := { s with budget := s.budget - h.len }
    match (if h.datum.isRecord || h.addr < 0x800_0000_0000 then s.senseRange h.addr h.len else (none, s)) with
    | (some bad, s) => ((s.cartError cart 0 (bad / 64 * 64)).lostDatum h.datum (tierSub bad false) bad)
    | (none, s) =>
      let id := s.nextMoveId
      let cls := if h.datum.isRecord then 1 else 0
      let m : TxMove := { chip := chip, id := id, cls := cls, cart := cart, src := h.addr, dst := peerAddr chip off, len := h.len,
                          datum := h.datum, committed := false }
      let s := { s with nextMoveId := (id + 1) % 2 ^ 32, txMoves := s.txMoves ++ [m] }
      (s.showMove cart h.datum.ownerField true .committing).sendWrites chip cls id off (s.datumBytes h)

/-- A datum is on its way to a peer. -/
def State.pushing (s : State) (d : MoveDatum) : Bool := s.txMoves.any fun m => m.datum = d

/-- Data of a set that is still homed here and not on its way. -/
def State.unsent (s : State) (sc : Nat) : List Homed :=
  (s.setOf sc).filter fun h => (s.homeAway h.addr).isNone && !s.pushing h.datum && !s.inFlight h.datum

/-- Push the data of a migration set but the record; data in T2 comes to T1 first (R95).
(DESIGN CHOICE, unsafe: notes/assumptions/13.md) -/
def State.pushSet (s : State) (m : Migration) : State :=
  match m.granted with
  | none => s
  | some base =>
    (s.unsent m.sc).foldl (fun (s : State) h =>
      if h.datum.isRecord then s
      else if 0x800_0000_0000 ≤ h.addr then s.moveTo h .t1
      else s.pushDatum m.dest (base + setOffset (s.setOf m.sc) h.datum) h) s

/-- Push the record once everything else has gone (R236).
(DESIGN CHOICE, unsafe: notes/assumptions/13.md) -/
def State.pushRecord (s : State) (m : Migration) : State :=
  match m.granted, s.unsent m.sc with
  | some base, [h] =>
    if h.datum.isRecord && !(s.txMoves.any fun x => x.datum.owner = some m.sc) then
      s.pushDatum m.dest (base + setOffset (s.setOf m.sc) h.datum) h
    else s
  | _, _ => s

/-! ### Asking and handing over -/

/-- ASK for a migration that has not been exported (R414).
(DESIGN CHOICE, unsafe: notes/assumptions/11.md) -/
def State.sendAsk (s : State) (m : Migration) : State :=
  match s.stream m.sc with
  | none => s
  | some t =>
    let s := s.peerMsg m.dest 1 0x10
      [if t.homeChip.isSome then t.homeSc else m.sc, s.plan.hdr.planId, t.phase.getD 0xFF, t.chunk, s.setSize m.sc,
       t.homeChip.getD s.chip] 32
    { s with migrations := s.migrations.map fun x =>
        if x.sc = m.sc then { x with asked := some s.tick.opened, granted := none } else x }

/-- MIGRATE in step 4 (R235, R320). -/
def State.takeMigrate (s : State) (q : Nat) (r : Req) : State :=
  let dest := r.par 0
  if decide (3 < dest) || !s.live dest then s.settle q r.tag 0x05 4 0 r.stream
  else if 512 * 1024 < s.setSize r.stream then s.settle q r.tag 0x05 1 0 r.stream
  else
    let m : Migration := { sc := r.stream, dest := dest, q := q, tag := r.tag, asked := none, granted := none, exported := false }
    let s := { s with migrations := s.migrations ++ [m] }.updStream r.stream fun t => { t with state := .migrating }
    (s.actReq q r.tag).sendAsk m

/-- A migration is over: the stream stays here. -/
def State.dropMigration (s : State) (sc : Nat) : State :=
  { s with migrations := s.migrations.filter fun m => m.sc != sc }.updStream sc fun t => { t with state := .opened }

/-- Every datum of a stream has been released to its new chip: the home chip keeps a proxy, any other chip keeps nothing
(R415).
(DESIGN CHOICE, unsafe: notes/assumptions/13.md) -/
def State.handOver (s : State) (m : Migration) : State :=
  match s.stream m.sc with
  | none => s
  | some t =>
    let s := s.leaveOut m.sc
    match t.homeChip with
    | none =>
      s.setStream m.sc { t with
        state := .opened, runsOn := some m.dest, home := 0, flats := [], paged := [], record := none, reserved := none,
        row := none, inBind := none, outBind := none, hole := none, rested := true }
    | some _ =>
      let s := { s with streams := keyDel s.streams m.sc, lateSc := addMember s.lateSc m.sc,
                        migrations := s.migrations.filter fun x => x.sc != m.sc }
      s.settle m.q m.tag 0 0 m.dest m.sc

/-- A push has committed and a fallow window counts it: its source is released (R88, R411). -/
def State.releaseTx (s : State) (x : TxMove) : State :=
  let s := { s with txMoves := s.txMoves.filter fun y => !(y.chip = x.chip && y.id = x.id) }
  let s := s.add64 (Reg.CART_CHBYTES_LO + 0x20 * x.cart) x.len
  let s := (s.showMove x.cart x.datum.ownerField true .released).peerMsg x.chip x.cls 0x03 [x.id] 1
  let s := s.rehome x.datum x.dst
  match x.datum.owner.bind fun sc => s.migrations.find? fun m => m.sc = sc && m.exported with
  | none => s
  | some m =>
    let s := s.pushRecord m
    if (s.setOf m.sc).all fun h => (s.homeAway h.addr).isSome then s.handOver m else s

/-- The record of a migrating stream stays here (R237): the stream goes on here, once the rest of its set has come back.
(DESIGN CHOICE, unsafe: notes/assumptions/13.md) -/
def State.keepHere (s : State) (m : Migration) : State :=
  let s := (s.dropMigration m.sc).settle m.q m.tag 0 0 s.chip m.sc
  match s.stream m.sc with
  | some t => if t.rested then s else (s.openHole m.sc 5 (s.tickNo + 1) 3).updStream m.sc fun t => { t with fresh := true }
  | none => s

/-- A push is refused (R92, R411): its source stays home.
(DESIGN CHOICE, unsafe: notes/assumptions/13.md) -/
def State.failTx (s : State) (x : TxMove) : State :=
  let s := { s with txMoves := s.txMoves.filter fun y => !(y.chip = x.chip && y.id = x.id) }
  let s := (s.cartError x.cart 1 x.dst).showMove x.cart x.datum.ownerField true .failed
  match x.datum, x.datum.owner.bind fun sc => s.migrations.find? fun m => m.sc = sc && m.exported with
  | .record _, some m => s.keepHere m
  | _, _ => s

/-! ### Bringing data back -/

/-- Ask a peer for a datum that is homed there, while its stream runs here (R237, R410). -/
def State.pullDatum (s : State) (h : Homed) : State :=
  match s.homeAway h.addr with
  | none => s
  | some c =>
    if !s.live c || (s.rxMoves.any fun m => match m.pull with
        | some x => x.1 = h.datum
        | none => false) then s
    else match s.choose .t0 h.len with
      | (none, _) => s
      | (some a, s) =>
        let id := s.nextMoveId
        let off := (h.addr - 0xC00_0000_0000) % 0x10_0000_0000
        let m : RxMove := { chip := c, id := id, cls := 0, base := a, lines := 0, bad := none, committed := false,
                            pull := some (h.datum, a, h.len) }
        let s := { s with nextMoveId := (id + 1) % 2 ^ 32, rxMoves := s.rxMoves ++ [m] }
        s.peerMsg c 0 0x05 [id, off, a, h.len / 64] 24

/-- Streams that run here have their data here: what a failed migration left on a peer is asked for.
(DESIGN CHOICE, unsafe: notes/assumptions/13.md) -/
def State.pullHome (s : State) : State :=
  s.streams.foldl (fun (s : State) (e : Nat × Stream) =>
    if e.2.runsOn.isSome || s.migrations.any fun m => m.sc = e.1 then s
    else (s.setOf e.1).foldl (fun (s : State) h => s.pullDatum h) s) s

/-- Pushes that peers have asked for are carried out (R410). -/
def State.servePulls (s : State) : State :=
  s.pullsDue.foldl (fun (s : State) (x : TxMove) =>
    if s.budget < x.len then { s with pullsDue := s.pullsDue ++ [x] }
    else
      let s := { s with budget := s.budget - x.len }
      match s.senseRange x.src x.len with
      | (some bad, s) => ((s.cartError x.cart 0 (bad / 64 * 64)).logError 2 (tierSub bad false) { addr := bad }).peerMsg x.chip x.cls 0x04 [x.id] 1
      | (none, s) =>
        { s with txMoves := s.txMoves ++ [x] }.sendWrites x.chip x.cls x.id (x.dst % 0x10_0000_0000) (s.showContexts x.src (s.bytesAt x.src x.len)))
    { s with pullsDue := [] }

/-! ### Arrivals -/

/-- A grant has been filled. -/
def Grant.full (g : Grant) : Bool := g.got = g.size

/-- Lay the data of an arrived set out from the grant's base, in the order of `Stream.data`.
(DESIGN CHOICE, unsafe: notes/assumptions/11.md) -/
def layPages (base : Nat) (size : Nat) : List Page → List Page × Nat
  | [] => ([], base)
  | p :: ps => let r := layPages (base + size) size ps; ({ p with addr := base } :: r.1, r.2)

/-- Read the paged regions of an arrived context, each from the bytes at its head. -/
def readRegions (ps psz : Nat) : List (Nat × Geom) → List Byte → List (Nat × PagedRegion)
  | [], _ => []
  | x :: xs, bs => (x.1, readRegion x.2 psz bs) :: readRegions ps psz xs (bs.drop (x.2.headSize ps))

/-- Give arrived regions their homes.
(DESIGN CHOICE, unsafe: notes/assumptions/11.md) -/
def layRegions (ps : Nat) (p : Plan) : List (Nat × PagedRegion) → Nat → List (Nat × PagedRegion) × Nat
  | [], a => ([], a)
  | (r, pr) :: rest, a =>
    let g := p.geom r
    let pg := layPages a (g.pageSize ps) pr.pages
    let home := if g.summarised && decide (0 < pr.nextSeq) then some pg.2 else none
    let a := if home.isSome then pg.2 + g.slots * g.d else pg.2
    let more := layRegions ps p rest a
    ((r, { pr with pages := pg.1, sumHome := home }) :: more.1, more.2)

/-- Give arrived flat regions their homes.
(DESIGN CHOICE, unsafe: notes/assumptions/11.md) -/
def layFlats : List (Nat × Geom) → Nat → List (Nat × FlatRegion) × Nat
  | [], a => ([], a)
  | (r, g) :: rest, a => let more := layFlats rest (a + g.flatSize); ((r, ⟨a, g.flatSize⟩) :: more.1, more.2)

/-- The stream whose migration set fills a grant.
(DESIGN CHOICE, unsafe: notes/assumptions/12.md) -/
def State.arrived (s : State) (g : Grant) : Stream :=
  let p := s.plan
  let h := s.bytesAt g.base 256
  let psz := leAt h 0x0A 1 % 8
  let ps := 16 * 2 ^ psz
  let ctx := p.contextSize ps
  let bs := s.bytesAt g.base ctx
  let flats := layFlats p.flatRegions (g.base + ctx)
  let regions := layRegions ps p (readRegions ps psz p.pagedRegions (bs.drop 256)) flats.2
  { newStream p (readReq []) g.base with
    best := leAt h 6 1 = 1, prio := leAt h 7 1, chunk := leAt h 8 1,
    phase := if leAt h 9 1 = 0xFF then none else some (leAt h 9 1), psz := psz, rqueue := leAt h 0x0B 1,
    origin := leAt h 0x10 8, firstAdm := leAt h 0x18 8, rseq := leAt h 0x20 4, seed := leAt h 0x24 4,
    energy := leAt h 0x28 8 * 1000, gated := bitOf (leAt h 0x30 1) 0, uparam := (h.drop 0x40).take 16,
    flats := flats.1, paged := regions.1,
    record := if p.pinnedSlots.isEmpty then none else some regions.2,
    reserved := some (p.reservation ps), rested := false, lastRest := s.tickNo, lastToken := s.tickNo,
    homeChip := if g.home = s.chip then none else some g.home, homeSc := g.sc }

/-- The record that came with a set passes its check (R234, R236). -/
def State.arrivedRecord (s : State) (t : Stream) : Bool :=
  match t.record with
  | none => true
  | some a => (recordFault s.plan t.chunk (s.bytesAt a s.recordLen)).isNone

/-- A filled grant becomes a stream of this chip (R414, R415): under the number of its proxy here, or under its old number where that
is free, or under the lowest free. The home chip is told.
(DESIGN CHOICE, unsafe: notes/assumptions/11.md; DESIGN CHOICE, unsafe: notes/assumptions/12.md) -/
def State.placeGrant (s : State) (g : Grant) : Option (Nat × State) :=
  let t := s.arrived g
  let proxy := if g.home = s.chip then (s.stream g.sc).filter fun x => x.runsOn.isSome else none
  let num := if proxy.isSome || ((s.stream g.sc).isNone && !s.lateSc.contains g.sc) then some g.sc else s.freeSc
  match num with
  | none => none
  | some sc =>
    let t := match proxy with
      | some x => { t with rqueue := x.rqueue, held := x.held, folded := x.folded }
      | none => t
    let s := { s with grants := s.grants.erase g }.setStream sc t
    let s := match t.homeChip with
      | some h => s.peerMsg h 4 0x45 [g.sc, s.chip] 2
      | none => match s.migrations.find? fun m => m.sc = sc with
        | some m => { s with migrations := s.migrations.erase m }.settle m.q m.tag 0 0 s.chip sc
        | none => s
    if s.arrivedRecord t then some (sc, s)
    else some (sc, (s.logError 2 6 { stream := sc }).endStream sc 6 7)

/-- Sets that were complete only after their arming step: the stream is here, out of admission, and has lost the ticks since (R229,
R237).
(DESIGN CHOICE, unsafe: notes/assumptions/12.md) -/
def State.placeLate (s : State) : State :=
  (s.grants.filter fun g => g.full && g.armed).foldl (fun (s : State) g => match s.placeGrant g with
    | some (sc, s) => (s.openHole sc 5 s.tickNo 3).updStream sc fun t => { t with fresh := true }
    | none => s) s

/-! ### Loss of a member -/

/-- A chip is declared lost (R419): its incarnation is recorded, and what follows waits for the next complete window.
(DEDUCED, unsafe: notes/assumptions/67.md) -/
def State.declareLost (s : State) (c : Nat) : State :=
  if c = s.chip || s.bit Reg.GDN_STOOK (8 + c) then s
  else
    let k := s.portTo c
    let s := (s.setBit Reg.GDN_STOOK (8 + c) true).setBit Reg.GDN_STOOK (4 + c) false
    let s := { s with lostIncarn := keyPut s.lostIncarn c (s.port k).peerIncarn, lossDue := addMember s.lossDue c }
    let s := (s.raise .gdn (gdnReg Reg.GDN_STAT k) 12).logError 8 c { source := c }
    if s.tick.master = some c && s.fld Reg.TICK_SRC 0 3 = 5 then { s with tick := { s.tick with halted := true } } else s

/-- What a survivor does about one lost chip (R357, R413, R416).
(DEDUCED, unsafe: notes/assumptions/67.md) -/
def State.settleLoss (s : State) (c : Nat) : State :=
  let lostHere := fun (s : State) (e : Nat × Stream) =>
    e.2.runsOn = some c || e.2.homeChip = some c || (s.setOf e.1).any fun h => s.homeAway h.addr = some c
  let s := { s with
    rxMoves := s.rxMoves.filter fun m => m.chip != c, grants := s.grants.filter fun g => g.chip != c,
    txMoves := s.txMoves.filter fun m => m.chip != c, pullsDue := s.pullsDue.filter fun m => m.chip != c }
  let s := s.streams.foldl (fun (s : State) (e : Nat × Stream) =>
    if lostHere s e then s.finishStream e.1 5 abortStatus else s) s
  let s := (s.migrations.filter fun m => m.dest = c).foldl (fun (s : State) m =>
    (s.dropMigration m.sc).settle m.q m.tag 8 0 s.chip m.sc) s
  { s with queues := s.queues.set (16 + c) idleQueue }

/-- Loss actions of a complete window.
(DEDUCED, unsafe: notes/assumptions/67.md) -/
def State.settleLosses (s : State) : State :=
  s.lossDue.foldl (fun (s : State) c => s.settleLoss c) { s with lossDue := [] }

/-! ### Requests of streams that run elsewhere (R415) -/

/-- Forward a request to the chip its stream runs on. -/
def State.forwardReq (s : State) (q : Nat) (r : Req) (chip : Nat) : State :=
  (s.actReq q r.tag).peerMsg chip 4 0x42 (r.record.map (·.toNat)) 64

/-- The kind under which this chip queues the record that carries an epoch's stream-boundary values; no request has it.
(DESIGN CHOICE, unsafe: notes/assumptions/60.md) -/
def boundaryKind : Nat := 0x41

/-- Forwarded requests that have settled here are answered to their home chips.
(DEDUCED, unsafe: notes/assumptions/14.md) -/
def State.answerForwarded (s : State) : State :=
  (List.range 4).foldl (fun (s : State) c =>
    (s.queue (16 + c)).reqs.foldl (fun (s : State) r => match r.state with
      | .done st d v sc =>
        let bytes := completionBytes r.tag st (if r.kind = boundaryKind then 0x40 else r.kind) sc 0 v d s.tickNo false
        (s.updQueue (16 + c) fun h => { h with reqs := h.reqs.erase r }).peerMsg c 4 0x43 (bytes.map (·.toNat)) 32
      | _ => s) s) s

end Sys2Proof.Machine
end

