-- ==== Sys2Proof/Machine/Winnow.lean ====
section
/-!
DEFINITION. Machine/Winnow.lean: the rotate and quantise opcodes of the Winnows, HROT, REQ and KVAPP (R181 to R184, R201 to
R205), with the append of cache tokens (R274).
-/
namespace Sys2Proof.Machine

/-! ### HROT -/

/-- HROT (R181, R202). -/
def State.hrot (s : State) (e : Nat) (f : TFields) : State :=
  let loops := (s.eng e).loops
  let dA := s.plan.tensor f.srcA.toNat
  let dD := s.plan.tensor f.dst.toNat
  let (a, s) := s.readOp e dA loops
  let (size, lg) := (blockSize f.mod.toNat).getD (16, 2)
  let raw := a.map fun row => (hadamardRow size row).map fun x => requantRaw x (dA.shift - lg) dD.shift
  let sats := (raw.map fun row => (row.map (satCount dD.fmt)).sum).sum
  let s := s.count e fun c => { c with sat := c.sat + sats }
  s.writeRows dD loops (raw.map fun row => row.map (clampInt (fmtLow dD.fmt) (fmtHigh dD.fmt)))

/-- HROT rotates blocks by a Hadamard matrix; it costs R × ⌈C / 32⌉ × (1 + [s = 256]) + 24. -/
def execHrot (n : Fin 2) (f : TFields) (s : State) : Host.Outcome State Fault Refusal :=
  let d := s.plan.tensor f.srcA.toNat
  .next <| s.runWord (18 + n) (tWord 0x70 f)
    (d.rows * ceilDiv d.cols 32 * (if f.mod.toNat % 4 = 2 then 2 else 1) + 24) fun s => s.hrot (18 + n) f

/-! ### REQ -/

/-- The elements of one channel or group of a tensor as (row, column), by the index of its shift. -/
def shiftCells (d : TDesc) (i : Nat) : List (Nat × Nat) :=
  if d.scale = 1 then (List.range d.rows).map fun r => (r, i)
  else
    let per := d.cols / 32
    (List.range 32).map fun j => (i / max 1 per, i % max 1 per * 32 + j)

/-- The shifts REQ writes with DYN set, and how many channels or groups none suffices for. -/
def dynShifts (dA dD : TDesc) (aShifts : List Int) (a : List (List Int)) : List Int × Nat :=
  let res := (List.range dD.shiftCount).map fun i =>
    leastShift ((shiftCells dD i).map fun rc => ((a.getD rc.1 []).getD rc.2 0, effExp dA aShifts rc.1 rc.2)) dD.fmt
  (res.map Prod.fst, (res.filter fun x => !x.2).length)

/-- REQ (R182, R193). The trailer of a DST of SCALE 1 or 2 is written with the elements (R205), as the shifts that were
used. -/
def State.req (s : State) (e : Nat) (f : TFields) : State :=
  let loops := (s.eng e).loops
  let dA := s.plan.tensor f.srcA.toNat
  let dD := s.plan.tensor f.dst.toNat
  let dyn := bitOf f.mod.toNat 4
  let (a, s) := s.readOp e dA loops
  let s := s.senseTrailer e dA loops
  let (aShifts, ca) := s.readShifts dA loops
  let s := if dyn then s else s.senseTrailer e dD loops
  let (dShifts, cd, misses) :=
    if dyn then let r := dynShifts dA dD aShifts a; (r.1, 0, r.2)
    else let r := s.readShifts dD loops; (r.1, r.2, 0)
  let raw := a.zipIdx.map fun row => row.1.zipIdx.map fun x =>
    requantRaw x.1 (effExp dA aShifts row.2 x.2) (effExp dD dShifts row.2 x.2)
  let sats := (raw.map fun row => (row.map (satCount dD.fmt)).sum).sum
  let s := s.count e fun c => { c with sat := c.sat + sats, trl := c.trl + ca + cd, dyn := c.dyn + misses }
  let s := s.writeRows dD loops (raw.map fun row => row.map (clampInt (fmtLow dD.fmt) (fmtHigh dD.fmt)))
  if dD.scale = 0 then s else s.writeShifts dD loops dShifts

/-- REQ requantises a tensor; it costs R × ⌈C / 32⌉ × (1 + DYN) + 24. -/
def execReq (n : Fin 2) (f : TFields) (s : State) : Host.Outcome State Fault Refusal :=
  let d := s.plan.tensor f.srcA.toNat
  .next <| s.runWord (18 + n) (tWord 0x71 f)
    (d.rows * ceilDiv d.cols 32 * (if bitOf f.mod.toNat 4 then 2 else 1) + 24) fun s => s.req (18 + n) f

/-! ### KVAPP -/

/-- A token to append: its row after rotation, its segment and its position. -/
structure NewToken where
  row : List Int
  seg : Nat
  pos : Nat
  deriving DecidableEq, Repr

/-- The page that holds a token, where it is homed in T0 (R154). -/
def PagedRegion.t0Page (r : PagedRegion) (q : Nat) : Option Page :=
  r.pages.find? fun p => p.seq = q && p.valid && decide (p.addr < 0x300_0000)

/-- A page that was allocated is retired (R271): its tokens are gone. -/
def PagedRegion.retired (r : PagedRegion) (q : Nat) : Bool := decide (q < r.nextSeq) && r.pages.all fun p => p.seq != q

/-- The bytes of a row of `bits`-wide elements, packed as R139 states. -/
def packRow (bits : Nat) (xs : List Int) : List Byte :=
  if bits = 4 then (List.range (xs.length / 2)).map fun i =>
    BitVec.ofNat 8 (unsignedOf 4 (xs.getD (2 * i) 0) + 16 * unsignedOf 4 (xs.getD (2 * i + 1) 0))
  else xs.map fun x => BitVec.ofNat 8 (unsignedOf 8 x)

/-- Write a token's segment and position (Table 9-2). -/
def State.writeMeta (s : State) (g : Geom) (ps : Nat) (p : Page) (t : Nat) (tok : NewToken) : State :=
  s.t0Store (p.addr + (g.pageAreas ps).2.2.1 + 4 * (t % ps)) (leBytes 4 (tok.seg + 2 ^ 16 * tok.pos))

/-- Requantise one value group from TAIL and write its elements and shift bytes into its pages (R274, R205). Answers how
many elements saturated and how many channels no shift sufficed for. A page of positions not yet appended that is not
allocated is left alone: it is filled with zeros when it is. So is a page that is retired.
(DEDUCED, unsafe: notes/assumptions/63.md) -/
def State.writeGroup (s : State) (e batch : Nat) (g : Geom) (ps : Nat) (r : PagedRegion) (expIn : Int) (g0 last : Nat) :
    State :=
  let fmt := if g.vBits = 4 then 0 else 1
  let cells := fun c => (List.range 32).map fun j => keyGetD r.tail (j * g.d + c) 0
  let shifts := (List.range g.d).map fun c => leastShift ((cells c).map fun x => (x, expIn)) fmt
  let raw := (List.range 32).map fun j => (List.range g.d).map fun c =>
    requantRaw (keyGetD r.tail (j * g.d + c) 0) expIn (shifts.getD c (0, true)).1
  let sats := (raw.map fun row => (row.map (satCount fmt)).sum).sum
  let s := s.count e fun c => { c with sat := c.sat + sats, dyn := c.dyn + (shifts.filter fun x => !x.2).length }
  let s := raw.zipIdx.foldl (fun s row =>
    let t := g0 + row.2
    match r.t0Page (t / ps) with
    | none => if t ≤ last && !r.retired (t / ps) then s.reportAway e batch else s
    | some p =>
      s.t0Store (p.addr + (g.pageAreas ps).1 + t % ps * (g.d * g.vBits / 8))
        (packRow g.vBits (row.1.map (clampInt (fmtLow fmt) (fmtHigh fmt))))) s
  match r.t0Page (g0 / ps) with
  | none => s
  | some p => s.t0Store (p.addr + (g.pageAreas ps).2.1 + g0 % ps / 32 * g.d) (packRow 8 (shifts.map Prod.fst))

/-- Replace a paged region of a stream. -/
def State.setPaged (s : State) (sc region : Nat) (r : PagedRegion) : State :=
  s.updStream sc fun t => { t with paged := keyPut t.paged region r }

/-- The value path of one token (R274): into TAIL, and its group requantised; TAIL is cleared at a group's last token. The
group is written once for the tokens that one KVAPP appends to it. -/
def tailPut (d t : Nat) (row : List Int) (tail : List (Nat × Int)) : List (Nat × Int) :=
  row.zipIdx.foldl (fun l x =>
    let k := t % 32 * d + x.2
    if x.1 = 0 then keyDel l k else keyPut l k x.1) tail

/-- Append tokens to the value path of a region: group by group. `n` bounds the groups.
(DEDUCED, unsafe: notes/assumptions/63.md) -/
def State.appendValues (s : State) (e batch sc region : Nat) (g : Geom) (ps : Nat) (expIn : Int) :
    Nat → Nat → List NewToken → State
  | 0, _, _ => s
  | fuel + 1, t0, toks =>
    if toks.isEmpty then s
    else
      let here := toks.take (32 - t0 % 32)
      match s.rowRegion batch region with
      | none => s
      | some (_, _, r) =>
        let r := { r with tail := here.zipIdx.foldl (fun l x => tailPut g.d (t0 + x.2) x.1.row l) r.tail }
        let s := s.writeGroup e batch g ps r expIn (t0 / 32 * 32) (t0 + here.length - 1)
        let s := here.zipIdx.foldl (fun s x =>
          match r.t0Page ((t0 + x.2) / ps) with
          | some p => s.writeMeta g ps p (t0 + x.2) x.1
          | none => s) s
        let r := if (t0 + here.length) % 32 = 0 then { r with tail := [] } else r
        (s.setPaged sc region r).appendValues e batch sc region g ps expIn fuel (t0 + here.length) (toks.drop here.length)

/-- Append tokens to the key path of a region, at the table's per-channel shifts (R183, R204). -/
def State.appendKeys (s : State) (e batch : Nat) (g : Geom) (ps : Nat) (r : PagedRegion) (expIn : Int) (shifts : List Int)
    (t0 : Nat) (toks : List NewToken) : State :=
  toks.zipIdx.foldl (fun s x =>
    let t := t0 + x.2
    let raw := x.1.row.zipIdx.map fun v => requantRaw v.1 expIn (shifts.getD v.2 0)
    let s := s.count e fun c => { c with sat := c.sat + (raw.map (satCount 1)).sum }
    match r.t0Page (t / ps) with
    | none => s.reportAway e batch
    | some p =>
      let s := s.t0Store (p.addr + t % ps * g.d) (packRow 8 (raw.map (clampInt (-128) 127)))
      s.writeMeta g ps p t x.1) s

/-- One batch row of a KVAPP. -/
def State.appendRow (s : State) (e batch : Nat) (f : TFields) (expIn : Int) (shifts : List Int) (toks : List NewToken) :
    State :=
  let region := (s.plan.tensor f.dst.toNat).region
  let g := s.plan.geom region
  let val := bitOf f.mod.toNat 3
  match s.rowRegion batch region with
  | none => s
  | some (sc, t, r) =>
    if 0x300_0000 ≤ t.home then s.reportAway e batch
    else
      let ps := 16 * 2 ^ t.psz
      let start := r.length
      let s :=
        if val then s.appendValues e batch sc region g ps expIn toks.length start toks
        else (s.appendKeys e batch g ps r expIn shifts start toks).setPaged sc region { r with kshift := shifts }
      let s := s.count e fun c => { c with app := c.app + toks.length }
      if val && g.keyPath then s
      else s.updStream sc fun t =>
        match keyGet t.paged region with
        | some r => { t with paged := keyPut t.paged region { r with length := start + toks.length } }
        | none => t

/-- KVAPP (R183, R204, R274). -/
def State.kvapp (s : State) (e : Nat) (f : TFields) : State :=
  let loops := (s.eng e).loops
  let m := f.mod.toNat
  let rope := bitOf m 2
  let val := bitOf m 3
  let dA := s.plan.tensor f.srcA.toNat
  let dS := s.plan.tensor (f.srcA.toNat + 1)
  let per := dA.rows / max 1 s.planRows
  let (a, s) := s.readOp e dA loops
  let s := (s.readOp e dS loops).2
  let sides := s.sides dS loops
  let (raw, s) := if val then ([], s) else
    let (r, s) := s.readOp e (s.plan.tensor f.srcB.toNat) loops
    (r.headD [], s)
  let s := if rope then (s.readOp e (s.plan.tensor f.srcC.toNat) loops).2 else s
  let table := if rope then s.rotary (s.plan.tensor f.srcC.toNat) loops else []
  let shifts := raw.map (clampInt (-31) 31)
  let s := s.count e fun c => { c with trl := c.trl + (raw.filter fun x => x < -31 || 31 < x).length }
  let lg : Int := match blockSize m with
    | some b => b.2
    | none => 0
  (List.range s.planRows).foldl (fun s batch =>
    if (keyGet s.rows batch).isNone then s
    else
      let toks := ((List.range per).filter fun j => (sides.getD (batch * per + j) (0, 0)).1 != 0).map fun j =>
        let sp := sides.getD (batch * per + j) (0, 0)
        let row := a.getD (batch * per + j) []
        let row := if rope then rotateBy table sp.2 row else row
        let row := match blockSize m with
          | some b => hadamardRow b.1 row
          | none => row
        (⟨row, sp.1, sp.2⟩ : NewToken)
      s.appendRow e batch f (dA.shift - lg) shifts toks) s

/-- KVAPP appends tokens to cache regions; it costs R × ⌈D / 32⌉ × (2 + 16 × ROPE + [s = 256]) + 64. -/
def execKvapp (n : Fin 2) (f : TFields) (s : State) : Host.Outcome State Fault Refusal :=
  let d := s.plan.tensor f.srcA.toNat
  let m := f.mod.toNat
  .next <| s.runWord (18 + n) (tWord 0x72 f)
    (d.rows * ceilDiv d.cols 32 * (2 + (if bitOf m 2 then 16 else 0) + (if m % 4 = 2 then 1 else 0)) + 64) fun s =>
      s.kvapp (18 + n) f

end Sys2Proof.Machine
end

