-- ==== Sys2Proof/Machine/Pager.lean ====
section
/-!
DEFINITION. Machine/Pager.lean: the pager's work in a fallow window: rank (R282), summaries (R275), reservations and pre-emption (R280,
R286 to R288), allocation, demotion and promotion (R271, R283), evacuation (R289), state export (R319), and the end of the moves it
issues (R87 to R92).
-/
namespace Sys2Proof.Machine

/-! ### Rank and candidates (R282) -/

/-- A number that rises as rank falls. -/
def rankKey (sc : Nat) (t : Stream) : Nat :=
  (((if t.best then 1 else 0) * 8 + (7 - min 7 t.prio)) * 2 ^ 65 + (if t.firstAdm = 0 then 2 ^ 64 else t.firstAdm)) * 64 + sc

/-- Insert a stream into a list in rank order. -/
def insertRank (e : Nat × Stream) : List (Nat × Stream) → List (Nat × Stream)
  | [] => [e]
  | x :: xs => if rankKey e.1 e.2 ≤ rankKey x.1 x.2 then e :: x :: xs else x :: insertRank e xs

/-- Streams in rank order. -/
def rankOrder (l : List (Nat × Stream)) : List (Nat × Stream) := l.foldl (fun r e => insertRank e r) []

/-- A stream is gated out by lip activity (R464). -/
def State.isGatedOut (s : State) (t : Stream) : Bool := s.gateShut t && t.atRest

/-- A stream is a candidate for admission. One that is to pause or to close runs on until it rests; one that migrates runs on until
its export. -/
def State.isCandidate (s : State) (sc : Nat) (t : Stream) : Bool :=
  t.runsOn.isNone && t.ending.isNone && !t.swapping && !(s.exports.any fun x => x.sc = sc) && !s.isGatedOut t &&
  match t.state with
  | .opened => !t.pausing || t.row.isSome
  | .closing => t.row.isSome
  | .migrating => !(s.migrations.any fun m => m.sc = sc && m.exported)
  | .paused => false

/-- The candidates in rank order. -/
def State.candidates (s : State) : List (Nat × Stream) := rankOrder (s.streams.filter fun e => s.isCandidate e.1 e.2)

/-! ### Pages (R271) -/

/-- The current page of a region. -/
def PagedRegion.current (r : PagedRegion) (ps : Nat) : Nat := (max r.length 1 - 1) / ps

/-- The last page due to be appended (Table 9-4). -/
def PagedRegion.lastDue (r : PagedRegion) (g : Geom) (ps : Nat) : Nat := max (r.current ps) ((r.length + g.aMax - 1) / ps)

/-- The first page of the value group that is still open, or the current page (R89).
(DEDUCED, unsafe: notes/assumptions/23.md) -/
def PagedRegion.firstOpen (r : PagedRegion) (ps : Nat) : Nat :=
  if r.length % 32 = 0 then r.current ps else min (r.current ps) (r.length / 32 * 32 / ps)

/-- An address lies in T0. -/
def inT0 (a : Nat) : Bool := decide (a < 0x300_0000)

/-- An address lies in T0 or T1. -/
def onChip (a : Nat) : Bool := decide (a < 0x800_0000_0000)

/-! ### Summaries (R275) -/

/-- Move the summary of the lowest page that is sealed and staged, region by region; `fuel` bounds the pages. -/
def State.moveSummaries (s : State) (sc region : Nat) (g : Geom) : Nat → State
  | 0 => s
  | fuel + 1 =>
    match s.stream sc with
    | none => s
    | some t => match keyGet t.paged region with
      | none => s
      | some r =>
        if r.length / t.ps ≤ r.sumSeq then s
        else match r.sumHome with
          | none => s
          | some home =>
            if s.budget < g.d || !onChip home then s
            else
              let row := cellRead r.sumStage (r.sumSeq % 2 * g.d) g.d
              let s := { s with budget := s.budget - g.d }.storeBytes (home + r.sumSeq % max 1 g.slots * g.d) row
              (s.setPaged sc region { r with sumSeq := r.sumSeq + 1 }).moveSummaries sc region g fuel

/-- Step 4 begins with the summaries of every stream that runs here. -/
def State.allSummaries (s : State) : State :=
  s.streams.foldl (fun (s : State) (e : Nat × Stream) =>
    if e.2.runsOn.isSome then s
    else s.plan.pagedRegions.foldl (fun (s : State) x =>
      if x.2.summarised then s.moveSummaries e.1 x.1 x.2 (x.2.slots + 1) else s) s) s

/-! ### Requests in step 4 -/

/-- The kinds that act in step 4. -/
def streamKinds : List Nat := [0x20, 0x21, 0x22, 0x23, 0x24, 0x25, 0x26]

/-- STATE_EXPORT (R231, R319): the record of a stream out of admission goes to the request's buffer.
(DEDUCED, unsafe: notes/assumptions/22.md) -/
def State.takeExport (s : State) (q : Nat) (r : Req) (t : Stream) : State :=
  if t.row.isSome || t.record.isNone then s.settle q r.tag 0x05 0 0 r.stream
  else if r.len < s.recordLen || !s.bufferOk r.addr r.len true then s.settle q r.tag 0x06 1 0 r.stream
  else
    let x : ExportJob := ⟨r.stream, q, r.tag, r.addr⟩
    { s with exports := s.exports ++ [x] }.actReq q r.tag

/-- A request of step 4 acts (R317 to R320); `complete` says that CC2 takes part in the window. -/
def State.takeStreamReq (s : State) (complete : Bool) (q : Nat) (r : Req) : State :=
  if r.kind = 0x20 then s.openStream q r
  else match s.stream r.stream with
    | none => s.settle q r.tag 0x02 0 0 r.stream
    | some t =>
      match t.runsOn with
      | some c => s.forwardReq q r c
      | none =>
        if t.state = .closing || t.state = .migrating || s.exports.any (fun x => x.sc = r.stream) then
          s.settle q r.tag 0x05 0 0 r.stream
        else if r.kind = 0x21 then (s.updStream r.stream fun t => { t with state := .closing }).actReq q r.tag
        else if r.kind = 0x24 then (s.endStream r.stream 2 7).actReq q r.tag
        else if !complete then s
        else if r.kind = 0x22 then
          if t.state = .paused then s.settle q r.tag 0 0 0 r.stream
          else (s.updStream r.stream fun t => { t with pausing := true }).actReq q r.tag
        else if r.kind = 0x23 then (s.updStream r.stream fun t => { t with state := .opened }).settle q r.tag 0 0 0 r.stream
        else if r.kind = 0x25 then s.takeExport q r t
        else s.takeMigrate q r

/-- The requests of step 4 whose turn has come, queue by queue. -/
def State.takeStreamReqs (s : State) (complete : Bool) : State :=
  let due := s.reqsIn .due streamKinds
  due.foldl (fun (s : State) x => s.takeStreamReq complete x.1 x.2)
    { s with openings := s.openings.filter fun o => due.any fun x => x.1 = o.q && x.2.tag = o.tag && x.2.kind = 0x20 }

/-- Settle every STREAM_PAUSE that waits for a stream. -/
def State.settlePauses (s : State) (sc : Nat) : State :=
  (s.reqsIn .acting [0x22]).foldl (fun (s : State) x =>
    if x.2.stream = sc then s.settle x.1 x.2.tag 0 0 0 sc else s) s

/-- Streams that pause leave admission at their resumption point.
(DEDUCED, unsafe: notes/assumptions/10.md) -/
def State.pauseResting (s : State) : State :=
  s.streams.foldl (fun (s : State) (e : Nat × Stream) =>
    if e.2.pausing && e.2.atRest then
      ((s.exportRow e.1).updStream e.1 fun t => { t with state := .paused, pausing := false }).settlePauses e.1
    else s) s

/-! ### Reservations and pre-emption (R280, R286, R287) -/

/-- Bytes that a stream's reservation needs under the active plan. -/
def State.need (s : State) (t : Stream) : Nat := s.plan.reservation t.ps

/-- The reservation is held whole. -/
def State.holds (s : State) (t : Stream) : Bool := decide (s.need t ≤ t.reserved.getD 0) && t.reserved.isSome

/-- Bytes of a stream's data in T1 and T0. -/
def State.chipBytes (s : State) (sc : Nat) (t : Stream) : Nat :=
  (((t.data s.plan sc).filter fun h => onChip h.addr).map (·.len)).sum

/-- Some datum of a stream is homed in T2. -/
def State.inT2 (s : State) (sc : Nat) (t : Stream) : Bool :=
  (t.data s.plan sc).any fun h => decide (0x800_0000_0000 ≤ h.addr) && decide (h.addr < 0xC00_0000_0000)

/-- A stream is idle (R286). -/
def State.isIdle (s : State) (t : Stream) : Bool :=
  let n := s.fld Reg.GLN_CTRL 0 16
  t.row.isSome && t.rested && n != 0 && decide (t.lastToken + n ≤ s.tickNo)

/-- A stream may be chosen as a victim: parked or idle, with a reservation to give. -/
def State.isVictim (s : State) (sc : Nat) (t : Stream) : Bool :=
  t.runsOn.isNone && t.ending.isNone && !t.swapping && (t.state = .opened || t.state = .paused) &&
  !(s.exports.any fun x => x.sc = sc) && t.reserved.isSome && (t.row.isNone || s.isIdle t)

/-- The T2 pool has room for a victim's data beside what already goes there.
(DEDUCED, unsafe: notes/assumptions/23.md) -/
def State.t2Room (s : State) (sc : Nat) (t : Stream) : Bool :=
  let going := ((s.streams.filter fun e => e.2.swapping).map fun e => s.chipBytes e.1 e.2).sum
  decide (going + s.chipBytes sc t ≤ rangeBytes (s.gaps s.t2Pool))

/-- A victim is chosen: it leaves admission, and what its reservation does not keep for data on the chip is released. -/
def State.takeVictim (s : State) (sc : Nat) (t : Stream) : State :=
  (s.addSat Reg.GLN_MISSCNT 16 16 1).setStream sc { t with swapping := true, reserved := some (min (t.reserved.getD 0) (s.chipBytes sc t)) }

/-- Choose victims below a stream until what they will release covers a shortfall.
(DEDUCED, unsafe: notes/assumptions/23.md) -/
def State.preempt (s : State) (key short : Nat) : State :=
  let coming := ((s.streams.filter fun e => e.2.swapping).map fun e => e.2.reserved.getD 0).sum
  let below := (rankOrder (s.streams.filter fun e => decide (key < rankKey e.1 e.2) && s.isVictim e.1 e.2)).reverse
  (below.foldl (fun (acc : Nat × State) e =>
    if acc.1 = 0 || !acc.2.t2Room e.1 e.2 then acc
    else (acc.1 - e.2.reserved.getD 0, acc.2.takeVictim e.1 e.2)) (short - coming, s)).2

/-- A candidate takes its reservation where it fits, and pre-empts where it does not. -/
def State.reserve (s : State) (sc : Nat) : State :=
  match s.stream sc with
  | none => s
  | some t =>
    if s.holds t then s
    else
      let more := s.need t - t.reserved.getD 0
      let s := if more ≤ s.t1Unreserved || !s.bit Reg.GLN_CTRL 16 then s else s.preempt (rankKey sc t) (more - s.t1Unreserved)
      if more ≤ s.t1Unreserved then s.setStream sc { t with reserved := some (s.need t) } else s

/-! ### Allocation, demotion and promotion (R271, R283) -/

/-- Allocate the next page of a region, retiring the page whose slot it takes. -/
def State.allocPage (s : State) (sc region : Nat) (g : Geom) (t : Stream) (r : PagedRegion) : Option State :=
  let q := r.nextSeq
  let kept := { r with pages := r.pages.filter fun p => p.seq + g.slotsOf t.ps != q }
  let s := s.setPaged sc region kept
  let len := g.pageSize t.ps
  match (s.makeRoom .t0 len).zeroNew .t0 (.page sc region q) len with
  | (none, _) => none
  | (some a, s) =>
    match (s.stream sc).bind fun t => keyGet t.paged region with
    | none => none
    | some r => some (s.setPaged sc region { r with nextSeq := q + 1, pages := r.pages ++ [⟨q, a, true⟩] })

/-- Allocate every page that is due in a region; `fuel` bounds them. -/
def State.allocPages (s : State) (sc region : Nat) (g : Geom) : Nat → State
  | 0 => s
  | fuel + 1 =>
    match s.stream sc with
    | none => s
    | some t => match keyGet t.paged region with
      | none => s
      | some r =>
        if r.lastDue g t.ps < r.nextSeq then s
        else match s.allocPage sc region g t r with
          | none => s
          | some s => s.allocPages sc region g fuel

/-- Give a summarised region its summary table, of zeros. -/
def State.allocSummary (s : State) (sc region : Nat) (g : Geom) : State :=
  match (s.stream sc).bind fun t => keyGet t.paged region with
  | none => s
  | some r =>
    if r.sumHome.isSome || !g.summarised then s
    else match s.zeroNew .t1 (.summary sc region) (g.slots * g.d) with
      | (none, _) => s
      | (some a, s) =>
        match (s.stream sc).bind fun t => keyGet t.paged region with
        | none => s
        | some r => s.setPaged sc region { r with sumHome := some a }

/-- Allocate for a stream. -/
def State.allocStream (s : State) (sc : Nat) : State :=
  s.plan.pagedRegions.foldl (fun (s : State) x =>
    (s.allocPages sc x.1 x.2 (x.2.aMax + 2)).allocSummary sc x.1 x.2) s

/-- Data of a stream with the tier each must be moved to now: pages that need T0 no longer to T1, and what Table 9-4 needs to T0 or
T1.
(DEDUCED, unsafe: notes/assumptions/23.md) -/
def State.misplaced (_s : State) (p : Plan) (sc : Nat) (t : Stream) : List (Homed × Tier) :=
  (t.data p sc).filterMap fun h =>
    match h.datum with
    | .page _ region q =>
      match keyGet t.paged region with
      | none => none
      | some r =>
        let kept := p.contracts.find? fun c => c.region = region && c.kind ≤ 1
        let needed := match kept with
          | some c => c.kind = 0 || decide (r.length ≤ c.n) || decide ((r.length - c.n) / t.ps ≤ q)
          | none => false
        if r.firstOpen t.ps ≤ q then (if inT0 h.addr then none else some (h, .t0))
        else if inT0 h.addr then some (h, .t1)
        else if needed && !onChip h.addr then some (h, .t1) else none
    | .summary _ region =>
      if !onChip h.addr && p.contracts.any (fun c => c.region = region && c.kind = 2) then some (h, .t1) else none
    | .context _ | .flat _ _ | .record _ => if inT0 h.addr then none else some (h, .t0)
    | _ => none

/-- Demote a stream's pages that T0 need not hold. -/
def State.demoteStream (s : State) (sc : Nat) : State :=
  match s.stream sc with
  | none => s
  | some t => (s.misplaced s.plan sc t).foldl (fun (s : State) x =>
      if inT0 x.1.addr then s.moveTo x.1 .t1 else s) s

/-- Promote a stream's data that Table 9-4 needs and that lies elsewhere. -/
def State.promoteStream (s : State) (sc : Nat) : State :=
  match s.stream sc with
  | none => s
  | some t => (s.misplaced s.plan sc t).foldl (fun (s : State) x =>
      if inT0 x.1.addr || (s.homeAway x.1.addr).isSome then s
      else (if x.2 = .t0 then s.makeRoom .t0 x.1.len else s).moveTo x.1 x.2) s

/-- Allocations and demotions for the admitted set of the tick just ended, then reservations, allocations and promotions for every
candidate in rank order (R283, R284, R288). -/
def State.provide (s : State) (complete : Bool) : State :=
  let cands := s.candidates
  let s := (cands.filter fun e => e.2.row.isSome).foldl (fun (s : State) e => (s.allocStream e.1).demoteStream e.1) s
  if !complete then s
  else cands.foldl (fun (s : State) e =>
    let s := s.reserve e.1
    match s.stream e.1 with
    | some t => if t.swapping || !s.holds t then s else (s.allocStream e.1).promoteStream e.1
    | none => s) s

/-! ### Swap and evacuation (R287, R289) -/

/-- Data of a victim go to T2; a stream that is wholly there has given its reservation back. -/
def State.swapStream (s : State) (sc : Nat) : State :=
  match s.stream sc with
  | none => s
  | some t =>
    if !t.swapping || t.row.isSome then s
    else
      let left := (t.data s.plan sc).filter fun h => onChip h.addr
      if left.isEmpty && !(s.moves.any fun m => m.2.fallow && m.2.datum.owner = some sc) then
        s.setStream sc { t with swapping := false, reserved := none }
      else left.foldl (fun (s : State) h => s.moveTo h .t2) s

/-- Every victim's moves. -/
def State.swapOut (s : State) : State := s.streams.foldl (fun (s : State) (e : Nat × Stream) => s.swapStream e.1) s

/-- The evacuation has ended. -/
def State.endEvac (s : State) (b : Nat) : State := (s.setBit Reg.GLN_EVAC 31 false).setBit Reg.GLN_EVAC b true

/-- Move one datum out of the entry: to T1 where it has room that no reservation holds, else by way of T0 to another entry.
(DEDUCED, unsafe: notes/assumptions/23.md) -/
def State.evacDatum (s : State) (h : Homed) : State :=
  if !s.bit Reg.GLN_EVAC 31 || s.inFlight h.datum then s
  else match h.datum.owner with
    | none => s
    | some sc =>
      let roomT1 := match s.stream sc with
        | some t => s.holds t || decide (h.len ≤ s.t1Unreserved)
        | none => false
      let fits := fun (pool : List (Nat × Nat)) => (s.gaps pool).any fun g => decide (h.len ≤ g.2)
      if roomT1 && fits s.t1Pool then
        let s' := s.moveTo h .t1
        if s'.inFlight h.datum then
          s'.updStream sc fun t => if s.holds t then t else { t with reserved := some (t.reserved.getD 0 + h.len) }
        else s
      else if fits s.t0Pool && fits s.t2Pool then
        (s.moveTo h .t0).updStream sc fun t => if t.row.isSome then t else { t with swapping := true }
      else s.endEvac 29

/-- Evacuation of a host window entry, after step 3 of R284. -/
def State.evacuate (s : State) : State :=
  if !s.bit Reg.GLN_EVAC 31 then s
  else
    let base := 0x800_0000_0000 + 0x400_0000 * s.fld Reg.GLN_EVAC 0 10
    let here := s.data.filter fun h => rangesMeet h.addr h.len base 0x400_0000
    let coming := s.moves.any fun m => m.2.fallow && m.2.datum != .load && m.2.datum != .host &&
      rangesMeet m.2.desc.dst m.2.desc.bytes base 0x400_0000
    if here.isEmpty && !coming then s.endEvac 30 else here.foldl (fun (s : State) h => s.evacDatum h) s

/-- Pool data leaves a range of T0 that the staging area or the camera has been given (R298, R456). -/
def State.clearRanges (s : State) : State :=
  (s.stagingDue.toList ++ s.cam.due.toList).foldl (fun (s : State) r =>
    let s := match s.ringHome with
      | some a => if rangesMeet a s.plan.ringBytes r.1 r.2 then
          (let x := { s with ringHome := none }.choose .t0 (max 64 s.plan.ringBytes); { x.2 with ringHome := x.1 }) else s
      | none => s
    (s.data.filter fun h => rangesMeet h.addr h.len r.1 r.2).foldl (fun (s : State) h =>
      let s' := s.moveTo h .t0
      if (s'.data.find? fun x => x.datum = h.datum).map (·.addr) = some h.addr then s'.moveTo h .t1 else s') s) s

/-- The evacuation of `GLN_EVAC.GO` starts: a write while BUSY is 1 changes nothing. -/
def State.startEvac (s : State) (v : Word) : State :=
  let busy := s.bit Reg.GLN_EVAC 31
  let clear := fun (s : State) (b : Nat) => if wordField v b 1 = 1 then s.setBit Reg.GLN_EVAC b false else s
  let s := clear (clear s 30) 29
  if busy then s
  else
    let s := s.setFld Reg.GLN_EVAC 0 10 (wordField v 0 10)
    if wordField v 28 1 = 1 then s.setBit Reg.GLN_EVAC 31 true else s

/-- GLN_EVAC_GO: a write of `GLN_EVAC` (R289). -/
def execGlnEvacGo (i : Iface) (v : Word) (s : State) : Host.Outcome State Fault Refusal :=
  .next <| if s.served i then s.startEvac v else s

/-! ### Exports (R319) -/

/-- A STATE_EXPORT has moved its record: the stream is closed with its RTYPE 4 record first. -/
def State.endExport (s : State) (x : ExportJob) : State :=
  ({ s with exports := s.exports.erase x }.settle x.q x.tag 0 0 s.recordLen x.sc).finishStream x.sc 1 (fun _ => 8)

/-- A STATE_EXPORT has failed: the stream keeps its record. -/
def State.failExport (s : State) (x : ExportJob) : State :=
  { s with exports := s.exports.erase x }.settle x.q x.tag 0x06 2 0 x.sc

/-- Step 5 moves the records that STATE_EXPORT asks for; one that lies in T2 comes to T1 first where its buffer lies in T2 (R95). -/
def State.runExports (s : State) : State :=
  s.exports.foldl (fun (s : State) x =>
    match (s.stream x.sc).bind (·.record) with
    | none => s
    | some a =>
      let h : Homed := ⟨.record x.sc, a, s.recordLen⟩
      let far := fun (b : Nat) => decide (0x800_0000_0000 ≤ b)
      if s.inFlight h.datum then s
      else if far a && far x.addr then s.moveTo h .t1
      else if far a || far x.addr then (s.issueFar h.datum a x.addr h.len).getD s
      else match s.moveNow h.datum 0 a x.addr h.len with
        | none => s
        | some s' =>
          if ((s'.stream x.sc).bind (·.record)) = some x.addr then s'.endExport x
          else if ((s'.stream x.sc).bind (·.ending)).isSome then { s' with exports := s'.exports.erase x }
          else s'.failExport x) s

/-! ### Admission (R281, R282, R285, R225) -/

/-- A region is as Table 9-4 requires. -/
def State.regionReady (s : State) (p : Plan) (sc : Nat) (t : Stream) (x : Nat × Geom) : Bool :=
  match keyGet t.paged x.1 with
  | none => false
  | some r =>
    let first := r.current t.ps
    let opened := r.firstOpen t.ps
    let at_ := fun (q : Nat) => r.pages.find? fun pg => pg.seq = q
    let due := (List.range (r.lastDue x.2 t.ps + 1 - first)).all fun i =>
      match at_ (first + i) with
      | some pg => inT0 pg.addr && !s.inFlight (.page sc x.1 (first + i))
      | none => false
    let staged := x.2.summarised && decide (r.sumSeq < r.length / t.ps)
    let still := (List.range (first - opened)).all fun i => !s.inFlight (.page sc x.1 (opened + i))
    due && still && !staged && p.contracts.all fun c =>
      if c.region != x.1 then true
      else if c.kind = 0 then r.pages.all fun pg => onChip pg.addr
      else if c.kind = 1 then r.pages.all fun pg => onChip pg.addr || decide ((pg.seq + 1) * t.ps + c.n ≤ r.length)
      else if c.kind = 2 then (match r.sumHome with
        | some a => onChip a
        | none => false)
      else true

/-- Every requirement of Table 9-4 but a row is met, and no move of data a slice may write is under way (R89). -/
def State.admissible (s : State) (sc : Nat) (t : Stream) : Bool :=
  let p := s.plan
  inT0 t.home && !s.inFlight (.context sc) &&
  (t.flats.all fun f => inT0 f.2.home && !s.inFlight (.flat sc f.1)) &&
  (p.pagedRegions.all fun x => s.regionReady p sc t x) &&
  (match t.record with
    | some a => inT0 a && !s.inFlight (.record sc)
    | none => true) && s.holds t

/-- The record of a stream that returns passes its check (R234); one that cannot be read or that fails ends the stream.
(DEDUCED, unsafe: notes/assumptions/23.md) -/
def State.checkRecord (s : State) (sc : Nat) (t : Stream) : Bool × State :=
  match t.record with
  | none => (true, s)
  | some a =>
    if t.fresh then (true, s)
    else match s.senseRange a s.recordLen with
      | (some bad, s) => (false, s.lostDatum (.record sc) (tierSub bad false) bad)
      | (none, s) =>
        match recordFault s.plan t.chunk (s.bytesAt a s.recordLen) with
        | none => (true, s)
        | some d => (false, (s.logError 2 6 { stream := sc, detail := d }).endStream sc 4 7)

/-- A row of a stream's phase that is free among some (R224, R225). -/
def freeRow (rows : Nat) (t : Stream) (busy : List Nat) : Option Nat :=
  (List.range rows).find? fun r => !busy.contains r && (match t.phase with
    | some p => r % max 1 t.chunk = p
    | none => true)

/-- The row of a candidate: its own where it keeps one; else the lowest free one; else that of the lowest-ranked stream behind it. -/
def State.rowFor (s : State) (t : Stream) (placed : List (Nat × Nat)) (behind : List (Nat × Stream)) : Option Nat :=
  let held := placed.map Prod.fst ++ s.grants.map (·.row)
  match t.row with
  | some r => if held.contains r then none else some r
  | none =>
    let theirs := behind.filterMap fun e => e.2.row
    match freeRow s.planRows t (held ++ theirs) with
    | some r => some r
    | none =>
      (behind.reverse.filterMap fun e => e.2.row).find? fun r => !held.contains r && (match t.phase with
        | some p => r % max 1 t.chunk = p
        | none => true)

/-- The stream runs in a row in tick `n`: at its first admission its origin and phase are fixed (R224).
(DEDUCED, unsafe: notes/assumptions/21.md) -/
def State.takeRow (s : State) (sc : Nat) (t : Stream) (r n : Nat) : State :=
  if t.firstAdm != 0 then s
  else
    let c := max 1 t.chunk
    let o := n + (r % c + c - n % c) % c
    s.updStream sc fun t => { t with firstAdm := n, origin := o, phase := some (o % c) }

/-- A candidate is not admitted (R285). -/
def State.miss (s : State) (sc : Nat) : State := (s.addSat Reg.GLN_MISSCNT 0 16 1).logError 5 0 { stream := sc }

/-- Consider the candidates in rank order. -/
def State.admitAll : State → List (Nat × Nat) → List (Nat × Stream) → State × List (Nat × Nat)
  | s, placed, [] => (s, placed)
  | s, placed, (sc, _) :: rest =>
    match s.stream sc with
    | none => s.admitAll placed rest
    | some t =>
      match s.admissible sc t, s.rowFor t placed rest with
      | true, some r =>
        let (ok, s) := if t.row.isSome then (true, s) else s.checkRecord sc t
        s.admitAll (if ok then keyPut placed r sc else placed) rest
      | _, _ => (s.miss sc).admitAll placed rest

/-- Step 6: the row map of the next tick; streams that it leaves out are exported. -/
def State.admission (s : State) : State :=
  let s := s.updateZones
  let (s, rows) := s.admitAll [] s.candidates
  let out := s.streams.filter fun e => e.2.row.isSome && !rows.any fun x => x.2 = e.1
  let s := out.foldl (fun (s : State) e => s.exportRow e.1) s
  { s with nextRows := some rows }

/-! ### The end of fallow moves (R87 to R92) -/

/-- A fallow move leaves its Cart. -/
def State.endFallow (s : State) (cart : Nat) (mv : Move) (st : MoveState) : State :=
  { s with moves := s.moves.filter fun m => !(m.1 = cart && m.2.fallow) }.showMove cart mv.desc.owner true st

/-- A fallow move has failed with its source home (R92), or could not read its source (R113): what it was for is answered. -/
def State.failFallow (s : State) (mv : Move) : State :=
  match mv.datum with
  | .load => match s.load with
    | some j => s.failLoad j
    | none => s
  | .record sc => match s.exports.find? fun x => x.sc = sc with
    | some x => s.failExport x
    | none => s.updStream sc fun t => { t with swapping := false }
  | d => match d.owner with
    | some sc => s.updStream sc fun t => { t with swapping := false }
    | none => s

/-- A fallow move has committed: the datum has its new home, and what waits for it goes on (R88). -/
def State.commitFallow (s : State) (cart : Nat) (mv : Move) : State :=
  let d := mv.desc
  let s := (s.countBytes cart d).endFallow cart mv .released
  let far := decide (0x800_0000_0000 ≤ d.dst) || decide (0x800_0000_0000 ≤ d.src)
  let s := if far && (mv.datum != .load || s.active.isSome) then s.add64 Reg.GLN_T2BYTES_LO d.bytes else s
  match mv.datum with
  | .load => match s.load with
    | some j =>
      let s := s.loaded j d.bytes
      if s.active.isSome then s else s.runLoad loadFuel
    | none => s
  | dat =>
    let s := s.rehome dat d.dst
    match dat.owner with
    | none => s
    | some sc =>
      match s.exports.find? fun x => x.sc = sc && x.addr = d.dst with
      | some x => s.endExport x
      | none =>
        match s.stream sc with
        | some t =>
          if t.swapping then
            (s.setStream sc { t with reserved := t.reserved.map fun r => if onChip d.dst then r else r - d.bytes }).swapStream sc
          else s
        | none => s

/-- The request that a fallow move is part of, as queue and TAG: none unless it loads a plan or exports a state record. -/
def State.moveReq (s : State) (d : MoveDatum) : Nat × Nat :=
  match d with
  | .load => match s.load with
    | some j => (j.q, j.tag)
    | none => (0xFF, 0xFFFF)
  | .record sc => match s.exports.find? fun x => x.sc = sc with
    | some x => (x.q, x.tag)
    | none => (0xFF, 0xFFFF)
  | _ => (0xFF, 0xFFFF)

/-- A fallow move reaches its commit, or fails there. Writes to T2 get no answer; the commit read of a T2 move does.
(DEDUCED, unsafe: notes/assumptions/24.md) -/
def State.commitFar (s : State) (cart : Nat) (mv : Move) (a : CommitAnswer) : State :=
  let d := mv.desc
  let t2 := decide (0x800_0000_0000 ≤ d.dst)
  let rq := s.moveReq mv.datum
  let fail := fun (s : State) (addr : Nat) =>
    (((s.cartError cart 1 addr).logError 2 (tierSub addr true)
      { addr := addr, stream := mv.datum.owner.getD 0xFF, queue := rq.1, tag := rq.2 }).endFallow cart mv
      .failed).failFallow mv
  let go := fun (s : State) =>
    match s.senseSource d with
    | (some bad, s) =>
      let s := (s.cartError cart 0 (bad / 64 * 64)).endFallow cart mv .failed
      match mv.datum with
      | .load => (s.logError 2 (tierSub bad false) { addr := bad, queue := rq.1, tag := rq.2 }).failFallow mv
      | dat => (s.failFallow mv).lostDatum dat (tierSub bad false) bad
    | (none, s) =>
      match s.copyMove d with
      | (some bad, s) => fail s bad
      | (none, s) => s.commitFallow cart mv
  match a with
  | .ok => go s
  | .refused addr => if t2 then go s else fail s addr.toNat
  | .readFailed => if t2 then fail s (d.dst + d.bytes - 64) else go s

/-- Fallow moves end while a window is open and CC3 runs; a load's also while no plan is active. -/
def State.mayEnd (s : State) (mv : Move) : Bool :=
  s.coreUp 3 && mv.state != .paused && (s.tick.phase = .fallow || (mv.datum = .load && s.active.isNone))

/-- MOVE_COMMIT: the move of a Cart meets its commit condition (R87).
(DEDUCED, safe: notes/assumptions/4.md) -/
def execMoveCommit (cart : Fin 8) (a : CommitAnswer) (s : State) : Host.Outcome State Fault Refusal :=
  .next <|
    match s.planMove cart, s.fallowMove cart with
    | some mv, f =>
      if s.tick.phase = .slice then s.commitPlanMove cart mv a
      else match f with
        | some fm => if s.mayEnd fm then s.commitFar cart fm a else s
        | none => s
    | none, some fm => if s.mayEnd fm then s.commitFar cart fm a else s
    | none, none => s

/-- MOVE_SOURCE_ERROR: a Cart meets data of its source that cannot be read (R113): the word of T0, or the burst of T1, that holds
the address is bad, or the host answers with an error. -/
def State.badSource (s : State) (addr : Nat) : State :=
  match s.place addr with
  | .t0 o => { s with t0Flips := keyPut s.t0Flips (o / 8) .double }
  | .t1 o => { s with t1Read := keyPut s.t1Read (o / 256) .lasting }
  | _ => s

/-- The move of a Cart fails at its source (R113, Table 3-27): what names the data is answered as for any unreadable read. -/
def State.failSource (s : State) (cart : Nat) (mv : Move) (addr : Nat) : State :=
  let d := mv.desc
  if d.kind = 2 || !inRange addr d.src d.bytes then s
  else
    let (_, s) := (s.badSource addr).senseRange (addr / 8 * 8) 8
    if !mv.fallow then s.failPlanMove cart mv true (addr / 64 * 64)
    else
      let rq := s.moveReq mv.datum
      let s := (s.cartError cart 0 (addr / 64 * 64)).endFallow cart mv .failed
      match mv.datum with
      | .load => (s.logError 2 (tierSub addr false) { addr := addr, queue := rq.1, tag := rq.2 }).failFallow mv
      | dat => (s.failFallow mv).lostDatum dat (tierSub addr false) addr

/-- MOVE_SOURCE_ERROR. -/
def execMoveSourceError (cart : Fin 8) (addr : BitVec 44) (s : State) : Host.Outcome State Fault Refusal :=
  .next <|
    match s.planMove cart, s.fallowMove cart with
    | some mv, f =>
      if s.tick.phase = .slice then s.failSource cart mv addr.toNat
      else match f with
        | some fm => if s.mayEnd fm then s.failSource cart fm addr.toNat else s
        | none => s
    | none, some fm => if s.mayEnd fm then s.failSource cart fm addr.toNat else s
    | none, none => s

end Sys2Proof.Machine
end

