-- ==== Sys2Proof/Machine/Tick.lean ====
section
/-!
DEFINITION. Machine/Tick.lean: the tick generator (R49 to R54): running and stopping, the class of the next tick (R63 to R68), the
port source with lock and holdover (R71 to R75), and timing in a stook (R76 to R79, R417, R418, R421).
-/
namespace Sys2Proof.Machine

/-! ### Parameters, in µs of the timebase -/

/-- Change the tick generator. -/
def State.updTick (s : State) (f : TickState → TickState) : State := { s with tick := f s.tick }

/-- P. -/
def State.tickP (s : State) : Nat := 500 * s.period

/-- F. -/
def State.tickF (s : State) : Nat := 100 * s.fld Reg.TICK_FALLOW 0 6

/-- S. -/
def State.tickS (s : State) : Nat := 100 * s.fld Reg.TICK_SLIP 0 6

/-- The lock window w of R73. -/
def State.tickW (s : State) : Nat := s.tickP * s.fld Reg.TICK_LOCKTOL 0 12 / 1000000

/-- A follower times its ticks from TICK_SYNC. -/
def State.isFollower (s : State) : Bool := s.fld Reg.TICK_SRC 0 3 = 5

/-- This chip is the tick master of a stook. -/
def State.isMaster (s : State) : Bool := s.bit Reg.TICK_STOOK 0 && s.bit Reg.TICK_STOOK 1

/-- Edges follow the selected port. -/
def State.locked (s : State) : Bool := s.bit Reg.TICK_STAT 2 && s.tickPort.isSome

/-- The next nominal edge, as far as it is known: the port's, or one period on. -/
def State.nextE (s : State) : Nat := s.tick.nextNominal.getD (s.tick.nominal + s.tickP)

/-! ### Running and stopping (Table 2-4) -/

/-- `TICK_CTRL.RUN` becomes 1.
(DESIGN CHOICE, unsafe: notes/assumptions/17.md) -/
def State.runStart (s : State) : State :=
  if s.bit Reg.TICK_CTRL 0 then s
  else
    let s := ((s.setBit Reg.TICK_CTRL 0 true).setReg Reg.TICK_EVCNT0 0).setReg Reg.TICK_EVCNT1 0
    if s.tick.phase = .stopped then
      s.updTick fun t => { t with phase := .starting, nextNominal := if s.isFollower then none else some (s.now + 1000),
                                  nextCls := .normal, nextLag := 0, skips := 0, classed := false }
    else s

/-- `TICK_CTRL.RUN` is written 0: refused while a plan is active; a start whose first edge has not fallen ends at once.
(DESIGN CHOICE, unsafe: notes/assumptions/17.md) -/
def State.runStop (s : State) : State :=
  if !s.bit Reg.TICK_CTRL 0 then s
  else if s.active.isSome then s.tickRefused
  else
    let s := s.setBit Reg.TICK_CTRL 0 false
    if s.tick.phase = .starting then s.updTick fun t => { t with phase := .stopped } else s

/-- A write of `TICK_CTRL`. -/
def State.writeTickCtrl (s : State) (run shedAlert : Bool) : State :=
  let s := s.setBit Reg.TICK_CTRL 1 shedAlert
  if run then s.runStart else s.runStop

/-- TICK_RUN_START: `TICK_CTRL` is written with RUN 1. -/
def execTickRunStart (i : Iface) (shedAlert : Bool) (s : State) : Host.Outcome State Fault Refusal :=
  .next <| if s.served i then s.writeTickCtrl true shedAlert else s

/-- TICK_RUN_STOP: `TICK_CTRL` is written with RUN 0. -/
def execTickRunStop (i : Iface) (shedAlert : Bool) (s : State) : Host.Outcome State Fault Refusal :=
  .next <| if s.served i then s.writeTickCtrl false shedAlert else s

/-! ### Variants (R124) -/

/-- The span of a row map; in a shed tick only rows of guaranteed streams count. -/
def State.span (s : State) (shed : Bool) (rows : List (Nat × Nat)) : Nat :=
  max 1 ((rows.filter fun x => !shed || !((s.stream x.2).map (·.best)).getD false).foldl (fun m x => max m (x.1 + 1)) 0)

/-- Of two variants the one R124 takes. -/
def betterVariant (a b : VariantRec) : VariantRec :=
  if b.capacity < a.capacity || (b.capacity = a.capacity && b.variant < a.variant) then b else a

/-- The variant of an engine for a class and a span. -/
def Plan.pickVariant (p : Plan) (e : Nat) (shed : Bool) (span : Nat) : Option VariantRec :=
  (p.variants.filter fun v => v.engine = e && v.shed = shed && decide (span ≤ v.capacity)).foldl
    (fun (o : Option VariantRec) v => match o with
      | none => some v
      | some u => some (betterVariant u v)) none

/-- The engines a plan uses. -/
def Plan.engines (p : Plan) : List Nat := (List.range 33).filter (bitOf p.hdr.engMask)

/-- The plan has a shed variant for every engine it uses. -/
def State.hasShed (s : State) (rows : List (Nat × Nat)) : Bool :=
  match s.active with
  | none => true
  | some p => p.engines.all fun e => (p.pickVariant e true (s.span true rows)).isSome

/-! ### The class of the next tick (R64, Table 2-3) -/

/-- The class of a lag.
(DEDUCED, unsafe: notes/assumptions/19.md) -/
def State.classOf (s : State) (lag : Nat) (rows : List (Nat × Nat)) : TickClass :=
  if s.tickP < lag then .skipped
  else if s.tick.cls = .shed && decide (s.tickS < lag) then .skipped
  else if s.tickS < lag then (if s.hasShed rows then .shed else .skipped)
  else .normal

/-- The lag that a window opened at a time gives the next tick (R63). -/
def State.lagAt (s : State) (opening : Nat) : Nat := max s.nextE (opening + s.tickF) - s.nextE

/-- A tick is skipped: reported, and ALERT_N asserted (R66).
(DEDUCED, unsafe: notes/assumptions/19.md) -/
def State.reportSkip (s : State) : State :=
  (((s.raise .tick Reg.TICK_STAT 10).addSat Reg.TICK_EVCNT1 0 16 1).logError 4 2).alert

/-- `k` ticks are skipped. -/
def State.reportSkips (s : State) (k : Nat) : State := (List.range k).foldl (fun (s : State) _ => s.reportSkip) s

/-- Every stream of the tick in progress loses the input of the next.
(DEDUCED, unsafe: notes/assumptions/19.md) -/
def State.loseNext (s : State) (cause : Nat) : State :=
  s.rows.foldl (fun (s : State) r => s.openHole r.2 cause (s.tickNo + 1) 3) s

/-- The next tick is shed. -/
def State.reportShed (s : State) : State :=
  let s := ((s.raise .tick Reg.TICK_STAT 9).addSat Reg.TICK_EVCNT0 16 16 1).logError 4 1
  if s.bit Reg.TICK_CTRL 1 then s.alert else s

/-- The next tick is stretched. -/
def State.reportStretch (s : State) : State := (s.raise .tick Reg.TICK_STAT 8).addSat Reg.TICK_EVCNT0 0 16 1

/-- How many ticks a skip takes out: up to the first nominal edge at or after the opening plus F (R66).
(DEDUCED, unsafe: notes/assumptions/19.md) -/
def State.skipCount (s : State) (opening : Nat) : Nat := max 1 (ceilDiv (opening + s.tickF - s.nextE) s.tickP)

/-- The flags, counts, logs and holes of a class, for a tick with a lag; `k` ticks are skipped where it is skipped. -/
def State.showClass (s : State) (c : TickClass) (lag k : Nat) : State :=
  match c with
  | .skipped => (s.loseNext 2).reportSkips k
  | .shed => s.reportShed
  | .normal => if lag = 0 then s else s.reportStretch

/-- Class the next tick, with a window opened at a time. -/
def State.setClass (s : State) (c : TickClass) (opening : Nat) : State :=
  let lag := s.lagAt opening
  let k := s.skipCount opening
  let e := s.nextE
  let s' := s.showClass c lag k
  match c with
  | .skipped => s'.updTick fun t =>
      { t with classed := true, nextCls := .normal, skips := k, nextLag := 0, nextNominal := some (e + k * s.tickP),
               nextEdge := e + k * s.tickP }
  | c => s'.updTick fun t =>
      { t with classed := true, nextCls := c, skips := 0, nextLag := lag, nextEdge := max e (opening + s.tickF) }

/-! ### A port as the source (R71 to R75) -/

/-- Lock is lost (R74).
(DEDUCED, unsafe: notes/assumptions/20.md) -/
def State.enterHoldover (s : State) : State :=
  let s := ((s.setBit Reg.TICK_STAT 2 false).setBit Reg.TICK_STAT 3 true).raise .tick Reg.TICK_STAT 14
  s.updTick fun t => { t with lockRun := 0, seeking := s.bit Reg.TICK_SRC 31, syncs := 0, spanStart := none }

/-- The lock condition is measured over spans of N frames (R72).
(DEDUCED, unsafe: notes/assumptions/20.md) -/
def State.measureSpan (s : State) (t : Nat) : State :=
  let n := s.fld Reg.TICK_SRC 16 13
  if !s.tick.seeking then s
  else match s.tick.spanStart with
    | none => s.updTick fun k => { k with spanStart := some t, syncs := 0 }
    | some a =>
      if s.tick.syncs + 1 < n then s.updTick fun k => { k with syncs := k.syncs + 1 }
      else
        let span := t - a
        let ok := decide (span ≤ s.tickP + s.tickW) && decide (s.tickP ≤ span + s.tickW)
        s.updTick fun k => { k with spanStart := some t, syncs := 0, lockRun := if ok then min 10 (k.lockRun + 1) else 0 }

/-- A frame sync while locked (R73): the first locked edge is the first sync at or after T_int; then the N-th sync after an edge
is the next, within w of T_int.
(DEDUCED, unsafe: notes/assumptions/20.md) -/
def State.lockedSync (s : State) (t : Nat) : State :=
  let n := s.fld Reg.TICK_SRC 16 13
  let tint := s.tick.edge + s.tickP
  if s.tick.nextNominal.isSome then s
  else if 10 ≤ s.tick.lockRun then
    if t < s.tick.nominal + s.tickP then s
    else s.updTick fun k => { k with lockRun := 0, nextNominal := some t, syncs := 0 }
  else if s.tick.syncs + 1 < n then s.updTick fun k => { k with syncs := k.syncs + 1 }
  else if t + s.tickW < tint then (s.updTick fun k => { k with nextNominal := some tint }).enterHoldover
  else if tint + s.tickW < t then (s.updTick fun k => { k with nextNominal := some (tint + s.tickW) }).enterHoldover
  else s.updTick fun k => { k with nextNominal := some t, syncs := 0 }

/-- PORT_FRAME_SYNC: a frame sync of the tick-source port, while ticks run. -/
def execPortFrameSync (port : Fin 4) (t : Nat) (s : State) : Host.Outcome State Fault Refusal :=
  .next <|
    if s.tickPort = some port.val && s.tick.phase != .stopped && s.tick.phase != .starting then
      let s := s.reach t
      if s.locked then s.lockedSync t else s.measureSpan t
    else s

/-- LOCK_ACQUIRED: the lock condition has held for 10 consecutive spans. -/
def execLockAcquired (s : State) : Host.Outcome State Fault Refusal :=
  .next <|
    if s.tickPort.isSome && !s.locked && s.tick.seeking && decide (10 ≤ s.tick.lockRun) then
      ((s.setBit Reg.TICK_STAT 2 true).setBit Reg.TICK_STAT 3 false).updTick fun t => { t with syncs := 0, spanStart := none }
    else s

/-- HOLDOVER: no valid frame sync by T_int + w (R73, R74). -/
def execHoldover (s : State) : Host.Outcome State Fault Refusal :=
  .next <|
    if s.locked && s.tick.nextNominal.isNone && s.tick.phase != .stopped && s.tick.phase != .starting then
      let e := s.tick.edge + s.tickP + s.tickW
      ((s.reach e).updTick fun k => { k with nextNominal := some e }).enterHoldover
    else s

/-! ### A stook's class (R78, R417, R418) -/

/-- The code of a class in CLASSMSG. -/
def classCode : TickClass → Nat
  | .normal => 0
  | .shed => 1
  | .skipped => 2

/-- The opening of a member that reported X − A. -/
def State.memberOpening (s : State) (x : Nat) : Nat := max (s.tick.nominal + s.tickP - s.tickF) (s.tick.edge + x)

/-- The tick master classes the next tick once every live member has reported its work end, or when it no longer waits (`force`).
(DEDUCED, unsafe: notes/assumptions/58.md) -/
def State.stookClass (s : State) (force : Bool) : State :=
  if !s.isMaster || s.tick.classed || s.tick.phase != .fallow then s
  else
    let got := fun (c : Nat) => (keyGet s.tick.members c).isSome
    let missing := s.liveChips.filter fun c => !got c
    if !force && !missing.isEmpty then s
    else
      let s := if missing.isEmpty then s.setBit Reg.TICK_STAT 4 false
        else (s.setBit Reg.TICK_STAT 4 true).logError 4 4
      let opening := s.tick.members.foldl (fun m x => max m (s.memberOpening x.2)) s.tick.opened
      let c := s.classOf (s.lagAt opening) (s.nextRows.getD s.rows)
      let s := s.setClass c opening
      let mask := (s.tick.members.map fun x => 2 ^ x.1).sum
      let s := s.updTick fun t => { t with excluded := s.liveChips.map fun c =>
        (c, if missing.contains c then keyGetD t.excluded c 0 + 1 else 0) }
      s.liveChips.foldl (fun (s : State) chip =>
        s.peerMsg chip 3 0x31 [s.tickNo + 1 + s.tick.skips, classCode c, s.tick.nextLag, mask] 16) s

/-- WORKEND_TIMEOUT: a member's work end has not come P + S after its last edge. -/
def execWorkendTimeout (chip : Fin 4) (s : State) : Host.Outcome State Fault Refusal :=
  .next <|
    if s.isMaster && s.live chip && (keyGet s.tick.members chip.val).isNone && s.tick.phase = .fallow && !s.tick.classed then
      (s.reach (s.tick.edge + s.tickP + s.tickS)).stookClass true
    else s

/-- TICK_SYNC_PULSE: the rising level reaches a follower's ball (R77). One that has lost the timing asks to rejoin, and one that was
left out of the tick that starts reports that it has no work in it (R418, notes/assumptions/58.md).
(DEDUCED, unsafe: notes/assumptions/27.md; DEDUCED, unsafe: notes/assumptions/58.md) -/
def execTickSyncPulse (t : Nat) (s : State) : Host.Outcome State Fault Refusal :=
  .next <|
    if !s.isFollower || s.tick.halted then s
    else
      let s := s.reach t
      match s.tick.phase with
      | .stopped => s
      | .starting => s.updTick fun k => { k with nextNominal := some t }
      | .armed | .slice | .fallow =>
        if s.tick.phase = .armed && s.tick.classed then
          (if s.tick.nextNominal.isNone then s.updTick fun k => { k with nextNominal := some t } else s)
        else if s.bit Reg.TICK_STAT 4 && !s.tick.rejoining then
          (s.liveChips.foldl (fun (s : State) c => s.peerMsg c 3 0x32 [] 1) s).updTick fun k => { k with rejoining := true }
        else match s.tick.master with
          | some c => if s.tick.phase = .fallow && !s.tick.classed && s.tick.skips != 0 then
              s.peerMsg c 3 0x30 [s.tickNo + s.tick.skips, 0] 16 else s
          | none => s

/-- SYNC_PULSE_TIMEOUT: a follower has seen no pulse within P + S + 1 ms of its last edge.
(DEDUCED, unsafe: notes/assumptions/26.md) -/
def execSyncPulseTimeout (s : State) : Host.Outcome State Fault Refusal :=
  .next <|
    if s.isFollower && !s.tick.halted && s.tick.phase != .stopped && s.tick.nextNominal.isNone && !s.bit Reg.TICK_STAT 4 then
      let s := if s.tick.phase = .starting then s else s.reach (s.tick.edge + s.tickP + s.tickS + 1000)
      ((s.setBit Reg.TICK_STAT 4 true).logError 4 4).updTick fun k => { k with classed := false, rejoining := false }
    else s

end Sys2Proof.Machine
end

