-- ==== Sys2Proof/Machine/Fallow.lean ====
section
/-!
DEFINITION. Machine/Fallow.lean: the opening of a fallow window and its steps 1 to 7 (R54 to R57, Table 2-2), with what happens at every
opening: counters (R210), write-back and scrub (R107, R108), the check of pinned banks (R198, R208, R209), and energy (R375).
-/
namespace Sys2Proof.Machine

/-! ### At the opening -/

/-- Add the counts of an engine's slice to its registers (R210).
(DEDUCED, unsafe: notes/assumptions/66.md) -/
def State.addCounts (s : State) (e : Nat) : State :=
  let c := (s.eng e).counts
  let s :=
    if e < 16 then
      let o := 0x1000 * e
      (((s.addSat (Reg.SHF_SATCNT + o) 0 32 c.sat).addSat (Reg.SHF_OVFCNT + o) 0 32 c.ovf).addSat (Reg.SHF_TRLCNT + o) 0 32
        c.trl).add64 (Reg.SHF_MACCNT_LO + o) c.mac
    else if e < 18 then
      let o := 0x400 * (e - 16)
      (((s.addSat (Reg.TSH_SATCNT + o) 0 32 c.sat).addSat (Reg.TSH_EMPTYCNT + o) 0 32 c.emp).addSat (Reg.TSH_PADCNT + o) 0 32
        c.pad).add64 (Reg.TSH_BLKCNT_LO + o) c.blk
    else if e < 20 then
      let o := 0x100 * (e - 18)
      (((s.addSat (Reg.WNW_SATCNT + o) 0 32 c.sat).addSat (Reg.WNW_DYNSAT + o) 0 32 c.dyn).addSat (Reg.WNW_TRLCNT + o) 0 32
        c.trl).add64 (Reg.WNW_APPCNT_LO + o) c.app
    else if e = 20 then s.addSat Reg.SVE_DRAWCNT 0 32 c.mac
    else if e = 21 then (s.addSat Reg.RCS_SATCNT 0 32 c.sat).add64 Reg.RCS_STEPS_LO c.mac
    else s
  s.updEng e fun g => { g with counts := ⟨0, 0, 0, 0, 0, 0, 0, 0, 0⟩ }

/-- Add the counts of every slice, and those of the Gleaner.
(DEDUCED, unsafe: notes/assumptions/66.md) -/
def State.foldCounts (s : State) : State :=
  let s := (List.range 33).foldl (fun (s : State) e => s.addCounts e) s
  let s := ((s.addSat Reg.GLN_LABCNT 16 16 s.glnHit).addSat Reg.GLN_LABCNT 0 16 s.glnMiss).addSat Reg.GLN_BADPTE 0 32 s.glnBad
  { s with glnHit := 0, glnMiss := 0, glnBad := 0 }

/-- Corrected words are written back (R107). -/
def State.doWriteBack (s : State) : State :=
  { s with t0Flips := s.t0Flips.filter fun f => !(f.2 = .single && s.writeBack.contains f.1), writeBack := [] }

/-- The scrub meets an error (R108): a correction, or a new poisoned word that is answered at once; the owner's hole starts with the
next tick (Table 3-27). -/
def State.scrubWord (s : State) (w : Nat) (f : BitFlips) : State :=
  let s := (s.t0Sense w f).2
  match f with
  | .single => { s with t0Flips := keyDel s.t0Flips w, writeBack := s.writeBack.filter (· != w) }
  | .double =>
    let sc := s.ownerAt s.plan (8 * w)
    let s := s.logError 2 1 { addr := 8 * w, stream := sc.getD 0xFF }
    match sc with
    | some sc => (s.openHole sc 4 (s.tickNo + 1) 3).endStream sc 3 4
    | none => s

/-- The words of T0. -/
def t0Words : Nat := 0x300_0000 / 8

/-- The scrub of one window: SCRUBQ × 4 KiB of each of the 64 banks. -/
def State.scrub (s : State) : State :=
  let n := s.fld Reg.GRN_CTRL 4 8 * 4096 * 64 / 8
  if !s.bit Reg.GRN_CTRL 0 || n = 0 then s
  else
    let hit := fun (w : Nat) => decide ((w + t0Words - s.scrubAt) % t0Words < n)
    let s' := (s.t0Flips.filter fun f => hit f.1).foldl (fun (s : State) f => s.scrubWord f.1 f.2) s
    { s' with scrubAt := (s.scrubAt + n) % t0Words }

/-- Every word of the pinned banks is read and corrected (R208); a poisoned word of an empty row becomes 0 (R209). -/
def State.checkPinned (s : State) : State :=
  s.plan.pinnedSlots.foldl (fun (s : State) x =>
    [x.2.1, x.2.1 + 4].foldl (fun (s : State) b =>
      let s := s.senseBank x.1 b 32
      let k := s.bank x.1 b
      (List.range 32).foldl (fun (s : State) r =>
        if (keyGet s.rows (pinnedBatch b r)).isNone && k.bad.any (fun w => w / 32 = r) then s.setPinnedRow x.1 x.2.1 (pinnedBatch b r) []
        else s) s) s) s

/-- Banks that are not pinned become 0, with exponents 0 (R198). -/
def State.clearBanks (s : State) : State :=
  let pinned := fun (k : Nat) => s.isPinned (k / 8) (k % 8)
  { s with banks := s.banks.filter fun b => pinned b.1, bankFlips := s.bankFlips.filter fun f => pinned (f.1 / 1024) }

/-- Energy shares are added to their streams (R375). -/
def State.creditEnergy (s : State) : State :=
  let s' := s.power.energyDue.foldl (fun (s : State) x => s.updStream x.1 fun t => { t with energy := t.energy + x.2 }) s
  { s' with power := { s'.power with energyDue := [] } }

/-- The window opens: what the tick leaves behind is reported.
(DEDUCED, unsafe: notes/assumptions/18.md) -/
def State.beginFallow (s : State) : State :=
  let t := s.tick
  let opened := max (t.nominal + s.tickP - s.tickF) t.workEnd
  let s := (s.reach opened).updTick fun t => { t with opened := opened, phase := .fallow, classed := false }
  let s := s.setFld Reg.TICK_WORKEND 0 16 (satNat 16 (t.workEnd - t.edge))
  let s := s.setFld Reg.TICK_BUBBLE 0 24 (satNat 24 (s.engs.foldl (fun m g => max m g.bubbles) 0))
  let s := ((s.setBit Reg.TICK_STAT 1 true).setBit Reg.CART_STAT 16 true).postResults
  let s := s.foldCounts
  { s with budget := s.fld Reg.GLN_SWAPBUDGET 0 11 * 65536, lateSc := [] }

/-- Step 1, and the housekeeping of the memories. -/
def State.step1 (s : State) : State :=
  ((((s.applyHeld.stageReady.camReady).doWriteBack.scrub).checkPinned).clearBanks).creditEnergy

/-! ### Steps 2 to 7 -/

/-- Steps 3 to 7 complete in this window: CC2 and CC3 run (R59). -/
def State.complete (s : State) : Bool := s.coreUp 2 && s.coreUp 3

/-- AUDIO_BIND acts (R321). -/
def State.takeBind (s : State) (q : Nat) (r : Req) : State :=
  match s.stream r.stream with
  | none => s.settle q r.tag 0x02 0 0 r.stream
  | some t => match t.runsOn with
    | some c => s.forwardReq q r c
    | none =>
      if t.state = .closing || t.state = .migrating then s.settle q r.tag 0x05 0 0 r.stream
      else if r.par 0 = 0 then
        (s.setStream r.stream { t with inBind := some (r.par 1, r.par 2) }).settle q r.tag 0 0 0 r.stream
      else
        let b := s.bindOut r.stream (r.par 1) (r.par 3) (r.par 4 = 2)
        b.2.settle q r.tag b.1 (if b.1 = 0x03 then 2 else 0) 0 r.stream

/-- AUDIO_UNBIND acts. -/
def State.takeUnbind (s : State) (q : Nat) (r : Req) : State :=
  match s.stream r.stream with
  | none => s.settle q r.tag 0x02 0 0 r.stream
  | some t => match t.runsOn with
    | some c => s.forwardReq q r c
    | none =>
      let s := if r.par 0 = 0 then s.setStream r.stream { t with inBind := none } else s.leaveOut r.stream
      s.settle q r.tag 0 0 0 r.stream

/-- The requests of step 3 but overlays, queue by queue. -/
def State.takeStep3Reqs (s : State) : State :=
  (s.reqsIn .due [0x11, 0x12, 0x30, 0x31]).foldl (fun (s : State) x =>
    if x.2.kind = 0x11 then s.takeActivation x.1 x.2.tag
    else if x.2.kind = 0x12 then s.takeDiscard x.1 x.2.tag
    else if x.2.kind = 0x30 then s.takeBind x.1 x.2
    else s.takeUnbind x.1 x.2) s

/-- Stream-boundary values that a home chip has sent act once their stream is at a boundary (R538). -/
def State.takeBoundaries (s : State) : State :=
  (s.reqsIn .due [boundaryKind]).foldl (fun (s : State) x => match s.stream x.2.stream with
    | some t => if t.atBoundary then
        (s.giveBoundary x.2.stream (boundaryValuesOf x.2)).settle x.1 x.2.tag 0 0 0 x.2.stream else s
    | none => s.settle x.1 x.2.tag 0 0 0 x.2.stream) s

/-- The boot plan, once loaded, asks for its activation (R526): a refusal is shown as error 7. -/
def State.takeBootPlan (s : State) : State :=
  if s.nv.bootPlan.isNone then s
  else
    let s := { s with nv := { s.nv with bootPlan := none } }.takeActivation 32 0
    if s.activating.isSome then s else s.bootPlanRefused

/-- Step 3: activation and discard, audio bindings, and overlay epochs. -/
def State.step3 (s : State) : State :=
  let s := s.takeBootPlan.takeStep3Reqs.takeBoundaries
  s.runEpochs (s.queues.length * 256 + 1)

/-- Moves that the arming step paused resume first (R97). -/
def State.resumeMoves (s : State) : State :=
  let s' := (s.moves.filter fun m => m.2.fallow && m.2.state = .paused).foldl (fun (s : State) m =>
    s.showMove m.1 m.2.desc.owner true .copying) s
  { s' with moves := s'.moves.map fun m => if m.2.state = .paused then (m.1, { m.2 with state := .copying }) else m }

/-- What ends streams in step 4. -/
def State.takeEnds (s : State) : State := s.takeEndings.closeResting

/-- Peer work of step 4: losses, pushes asked for, arrivals, and commits that have come. -/
def State.peerStep (s : State) (complete : Bool) : State :=
  let s := if complete then s.settleLosses else s
  let s := (s.txMoves.filter fun m => m.committed).foldl (fun (s : State) m => s.releaseTx m) s
  let s := s.servePulls.pullHome.placeLate
  let s := (s.migrations.filter fun m => m.exported).foldl (fun (s : State) m => (s.pushSet m).pushRecord m) s
  if complete then
    (s.migrations.filter fun m => !m.exported && m.asked != some s.tick.opened).foldl (fun (s : State) m => s.sendAsk m) s
  else s

/-- Step 4, which CC3 carries out whether or not the window completes (R345). -/
def State.step4 (s : State) (complete : Bool) : State :=
  let s := s.resumeMoves.allSummaries
  let s := s.takeEndings
  let s := if s.deactivate then s.deactivatePlan else s
  let s := (s.closeResting.takeStreamReqs complete).takeEnds
  let s := s.peerStep complete
  ((s.provide complete).evacuate).clearRanges

/-- Step 5: exports, and the moves that follow them. -/
def State.step5 (s : State) : State :=
  let s := s.pauseResting
  let s := (s.streams.filter fun e => e.2.swapping && e.2.row.isSome).foldl (fun (s : State) e => s.exportRow e.1) s
  s.runExports.swapOut

/-- Plan load moves come last in the budget (R284).
(DEDUCED, unsafe: notes/assumptions/30.md) -/
def State.loadStep (s : State) : State :=
  match s.load with
  | none => s
  | some j => (s.clearForLoad j).runLoad loadFuel

/-- The row map as bytes (R123).
(DESIGN CHOICE, unsafe: notes/assumptions/25.md) -/
def rowMapBytes (rows : List (Nat × Nat)) : List Byte := (List.range 64).flatMap fun r => leBytes 2 ((keyGet rows r).getD 0xFFFF)

/-- Write the half of the descriptor ring that the next tick uses (R277): the entry of each retained page of each row, at the place of
its row, region and slot.
(DESIGN CHOICE, unsafe: notes/assumptions/25.md) -/
def State.writeRing (s : State) (rows : List (Nat × Nat)) : State :=
  match s.active, s.ringHome with
  | some p, some a =>
    let regs := p.pagedRegions
    let slots := regs.map fun x => x.2.slotsOf 16
    let half := a + (s.tickNo + 1 + s.tick.skips) % 2 * (p.ringBytes / 2)
    let entries := rows.flatMap fun x => match s.stream x.2 with
      | none => []
      | some t => regs.zipIdx.flatMap fun g =>
        (((keyGet t.paged g.1.1).map PagedRegion.pages).getD []).map fun q =>
          (half + 8 * (x.1 * slots.sum + (slots.take g.2).sum + q.seq % max 1 (g.1.2.slotsOf t.ps)), pageEntry q)
    entries.foldl (fun (s : State) e => s.storeBytes e.1 e.2) s
  | _, _ => s

/-- Write the row map of the next tick, and the half of the descriptor ring that it uses.
(DESIGN CHOICE, unsafe: notes/assumptions/25.md) -/
def State.writeRowMap (s : State) (rows : List (Nat × Nat)) : State :=
  match s.active with
  | none => s
  | some p => (s.storeBytes p.hdr.rowMap (rowMapBytes rows)).writeRing rows

/-- A tick classed shed for which step 7 finds no shed variant is skipped after all (R124, Table 2-3).
(DEDUCED, unsafe: notes/assumptions/19.md) -/
def State.finalClass (s : State) (c : TickClass) : TickClass :=
  if c = .shed && !s.hasShed (s.nextRows.getD s.rows) then .skipped else c

/-- The steps of the window. -/
def State.fallowSteps (s : State) : State :=
  let complete := s.complete
  let s := if complete then s.step3 else s
  let s := if s.coreUp 3 then s.step4 complete else s
  let s := if complete then s.step5 else s
  let s := if s.coreUp 3 then s.loadStep else s
  let s := if complete then s.admission else { s with nextRows := none }
  let s := match s.nextRows with
    | some rows => s.writeRowMap rows
    | none => s
  s.answerForwarded.updTick fun t => { t with stepsDone := complete }

/-- The fallow window opens. Outside a stook the next tick is classed in step 2: the holes of a skip come before the window's own,
and its flags with the class that step 7 leaves. In a stook each member reports its work end. -/
def State.openFallow (s : State) : State :=
  let s := s.beginFallow.step1
  if s.bit Reg.TICK_STOOK 0 then
    let x := s.tick.workEnd - s.tick.edge
    let s := s.updTick fun t => { t with members := keyPut t.members s.chip x }
    let s := if s.isMaster then s
      else match s.tick.master with
        | some c => s.peerMsg c 3 0x30 [s.tickNo, x] 16
        | none => s.liveChips.foldl (fun (s : State) c => s.peerMsg c 3 0x30 [s.tickNo, x] 16) s
    s.fallowSteps.stookClass false
  else
    let opening := s.tick.opened
    let c := s.classOf (s.lagAt opening) s.rows
    let s := if c = .skipped then s.loseNext 2 else s
    let s := s.fallowSteps
    let c' := s.finalClass c
    if c = .skipped then
      let k := s.skipCount opening
      let e := s.nextE
      (s.reportSkips k).updTick fun t =>
        { t with classed := true, nextCls := .normal, skips := k, nextLag := 0, nextNominal := some (e + k * s.tickP),
                 nextEdge := e + k * s.tickP }
    else s.setClass c' opening

/-- FALLOW_OPENING: no slice runs any more, and the window opens. -/
def execFallowOpening (s : State) : Host.Outcome State Fault Refusal :=
  .next <| if s.tick.phase = .slice && !(s.engs.any fun g => g.running) then s.openFallow else s

end Sys2Proof.Machine
end

