-- ==== Sys2Proof/Machine/Arming.lean ====
section
/-!
DEFINITION. Machine/Arming.lean: the arming step (R58 to R60, R147, R224, R228) and the tick edge (R53, R63, R68).
-/
namespace Sys2Proof.Machine

/-! ### Moves at the arming step (R60, R89) -/

/-- A fallow move in flight pauses, or has no burst left and stays Committing: which of the two is a free value.
(DESIGN CHOICE, safe: notes/assumptions/3.md) -/
def State.pauseMove (s : State) (m : Nat × Move) : State :=
  if !m.2.fallow || m.2.state != .copying || (m.2.datum = .load && s.active.isNone) then s
  else
    let (v, s) := s.draw
    let st := if v % 2 = 0 then MoveState.paused else .committing
    let s := s.showMove m.1 m.2.desc.owner true st
    { s with moves := s.moves.map fun x => if x.1 = m.1 && x.2.fallow then (x.1, { x.2 with state := st }) else x }

/-- Every fallow move in flight pauses.
(DEDUCED, unsafe: notes/assumptions/24.md) -/
def State.pauseMoves (s : State) : State := s.moves.foldl (fun (s : State) m => s.pauseMove m) s

/-! ### Activation (R147, R298, R299, R456) -/

/-- A buffer of a request lies in a range. -/
def Req.within (r : Req) (a n : Nat) : Bool := r.len != 0 && rangesMeet r.addr r.len a n

/-- An NVC operation ends without having been done, with its CAUSE (R529). -/
def State.failUpdate (s : State) (cause : Nat) : State :=
  let s := { s with nv := { s.nv with update := none, goHeld := none } }
  ((s.setBit Reg.NVC_UPDCTRL 30 false).setFld Reg.NVC_UPDSTAT 8 8 cause).raise .nvc Reg.NVC_UPDSTAT 1

/-- An NVC operation whose source lies in a T0 range ends (R299). -/
def State.endUpdateFrom (s : State) (base len : Nat) : State :=
  let src := if s.nv.goHeld.isSome && !s.bit Reg.NVC_UPDCTRL 0 then some (s.reg64 Reg.NVC_UPDSRC_LO, (s.reg Reg.NVC_UPDLEN).toNat)
    else s.nv.update.bind (·.src)
  match src with
  | some x => if rangesMeet x.1 x.2 base len then s.failUpdate 2 else s
  | none => s

/-- The staging area goes: queues in it are reset, and requests with a buffer in it end (R299). -/
def State.dropStage (s : State) (a n : Nat) : State :=
  let s := { (s.setBit Reg.HOST_STAGE 31 false).setBit Reg.HOST_STAT 1 true with staging := none, stagingDue := none }
  let s := (List.range 16).foldl (fun (s : State) q => if s.qOn q && s.qLocal q then s.resetQueue q else s) s
  let s := (List.range 16).foldl (fun (s : State) q =>
    ((s.queue q).reqs.filter fun r => r.open_ && !r.replay && r.within a n).foldl (fun (s : State) r =>
      let s := if r.state = .acting then (s.stopReq q r).2 else s
      s.settle q r.tag 0x06 1 0 r.stream) s) s
  s.endUpdateFrom a n

/-- The areas of T0 that the new plan takes are given up.
(DEDUCED, unsafe: notes/assumptions/44.md) -/
def State.yieldAreas (s : State) : State :=
  let s := match s.staging with
    | some r => if s.meetsPlanT0 r.1 r.2 then s.dropStage r.1 r.2 else s
    | none => s
  match s.cam.area with
  | some a =>
    if s.meetsPlanT0 (a.1 + 4096) (a.2 - 4096) then (s.setBit Reg.CAM_CTRL 0 false).camOff.camRefused else s
  | none => s

/-- Show the pinned banks of a plan. -/
def State.showPinned (s : State) (p : Plan) : State :=
  (List.range 16).foldl (fun (s : State) n =>
    s.setFld (Reg.SHF_STAT + 0x1000 * n) 0 8 ((p.pinned n).map fun b => 2 ^ b.1).sum) s

/-- Latch a variant for each engine. -/
def State.latch (s : State) (f : Nat → Option VariantRec) : State :=
  { s with engs := s.engs.zipIdx.map fun (g : EngState × Nat) => { g.1 with next := f g.2 } }

/-- The variants of a class over a row map, in the active plan. -/
def State.latchFor (s : State) (shed : Bool) (rows : List (Nat × Nat)) : State :=
  match s.active with
  | none => s.latch fun _ => none
  | some p =>
    let n := s.span shed rows
    s.latch fun e => if bitOf p.hdr.engMask e then p.pickVariant e shed n else none

/-- The pending plan becomes the active one: the banks are swapped. -/
def State.swapBanks (s : State) (q tag : Nat) (p : Plan) : State :=
  let s := { s with active := some p, pendingPlan := none, activating := none, banks := [], bankFlips := [], ringHome := none }
  let s := ((s.setBit Reg.PLAN_STAT 3 (!s.bit Reg.PLAN_STAT 3)).setBit Reg.PLAN_STAT 0 true).setBit Reg.PLAN_STAT 1 false
  let s := (s.setReg64 Reg.PLAN_ACTID_LO p.hdr.planId).setReg64 Reg.PLAN_PENDID_LO 0
  let s := (s.showPinned p).applySwitch.yieldAreas
  let s := if s.reg Reg.TSH_CHCFG != 0 || s.reg (Reg.TSH_CHCFG + 0x400) != 0 then
      (let r := s.choose .t0 (max 64 p.ringBytes); { r.2 with ringHome := r.1 }) else s
  let s := s.writeRowMap []
  let s := s.latch fun e => if bitOf p.hdr.engMask e then p.pickVariant e false p.hdr.rows else none
  let s := if q = 32 then s.setBit Reg.NVC_BOOTSTAT 30 true else s
  s.settle q tag 0 0 p.hdr.planId 0xFF

/-! ### Rows (R228, R59, R414) -/

/-- Grants at the arming step: full ones become streams in the rows they hold; those not used are freed.
(DESIGN CHOICE, unsafe: notes/assumptions/12.md) -/
def State.takeGrants (s : State) (n : Nat) (rows : List (Nat × Nat)) : State × List (Nat × Nat) :=
  s.grants.foldl (fun (acc : State × List (Nat × Nat)) g =>
    let (s, rows) := acc
    if g.armed then acc
    else if g.full && (keyGet rows g.row).isNone then
      match s.placeGrant g with
      | none => ({ s with grants := s.grants.map fun x => if x = g then { x with armed := true } else x }, rows)
      | some (sc, s) =>
        if ((s.stream sc).bind (·.ending)).isSome then (s, rows)
        else match s.stream sc with
          | some t => (s.takeRow sc t g.row n, keyPut rows g.row sc)
          | none => (s, rows)
    else if g.full || g.used then ({ s with grants := s.grants.map fun x => if x = g then { x with armed := true } else x }, rows)
    else ({ s with grants := s.grants.erase g }, rows)) (s, rows)

/-- Load the pinned rows of a row whose stream is not that of the tick before: from its record, which is then released, or with
zeros. -/
def State.loadRow (s : State) (r sc : Nat) : State :=
  match s.stream sc with
  | none => s
  | some t =>
    let s := match t.record with
      | some a => if t.fresh then s.zeroPinned r else s.loadPinned r (s.bytesAt a s.recordLen)
      | none => s.zeroPinned r
    s.updStream sc fun t => { t with record := none, fresh := false }

/-- Load every row that changes. -/
def State.loadRows (s : State) (rows : List (Nat × Nat)) : State :=
  rows.foldl (fun (s : State) x => if keyGet s.rows x.1 = some x.2 then s else s.loadRow x.1 x.2) s

/-- The rows of the tick just ended, less every stream that the window has taken out of admission (R59).
(DEDUCED, unsafe: notes/assumptions/21.md) -/
def State.carryRows (s : State) : List (Nat × Nat) := s.rows.filter fun x => ((s.stream x.2).bind (·.row)) = some x.1

/-- Best-effort streams lose the input of a shed tick (R65).
(DEDUCED, unsafe: notes/assumptions/19.md) -/
def State.shedHoles (s : State) (rows : List (Nat × Nat)) (n : Nat) : State :=
  rows.foldl (fun (s : State) x => match s.stream x.2 with
    | some t => if t.best then s.openHole x.2 1 n 3 else s
    | none => s) s

/-- Show the free space of the pools (Table 9-8). -/
def State.showPools (s : State) : State :=
  let s := s.setFld Reg.GLN_POOL 16 16 (satNat 16 (s.t1Unreserved / 0x10_0000))
  s.setFld Reg.GLN_POOL 0 16 (satNat 16 (rangeBytes (s.gaps s.t0Pool) / 4096))

/-! ### The arming step -/

/-- The carry configuration is latched (R59).
(DEDUCED, unsafe: notes/assumptions/21.md) -/
def State.armCarry (s : State) : State × List (Nat × Nat) :=
  let rows := s.carryRows
  let s := (((s.raise .tick Reg.TICK_STAT 11).addSat Reg.TICK_EVCNT1 16 16 1).logError 4 3).writeRowMap rows
  let s := match s.active with
    | none => s.latch fun _ => none
    | some p => s.latch fun e => if bitOf p.hdr.engMask e then
        p.variants.find? fun v => v.engine = e && v.variant = (s.eng e).variant else none
  let gone := s.rows.filter fun x => !rows.contains x
  (gone.foldl (fun (s : State) x => s.zeroPinned x.1) s, rows)

/-- The configuration of a complete window is latched. -/
def State.armFull (s : State) : State × List (Nat × Nat) :=
  let n := s.tickNo + 1 + s.tick.skips
  match s.activating, s.pendingPlan with
  | some (q, tag), some p => (s.swapBanks q tag p, [])
  | _, _ =>
    let (s, rows) := s.takeGrants n (s.nextRows.getD [])
    let s := rows.foldl (fun (s : State) x => match s.stream x.2 with
      | some t => s.takeRow x.2 t x.1 n
      | none => s) s
    let s := s.loadRows rows
    ((s.latchFor (s.tick.nextCls = .shed) rows).writeRowMap rows, rows)

/-- The arming step. -/
def State.arm (s : State) : State :=
  let s := (s.reach (s.tick.nextEdge - 100)).pauseMoves
  let s := s.latchPlay
  let (s, rows) := if s.tick.stepsDone then s.armFull else s.armCarry
  let s := if s.tick.nextCls = .shed then s.shedHoles rows (s.tickNo + 1 + s.tick.skips) else s
  let knots := match s.active with
    | some p => p.knotStart
    | none => List.replicate 64 0
  let s := { s with nextRows := some rows, nextKnots := knots, lookAside := [] }
  (s.camArm.showPools).updTick fun t => { t with phase := .armed }

/-- A follower whose class message has not come treats the next tick as skipped (R79), and waits in its window.
(DEDUCED, unsafe: notes/assumptions/26.md) -/
def State.missClass (s : State) : State :=
  if s.bit Reg.TICK_STAT 4 then s else ((s.setBit Reg.TICK_STAT 4 true).logError 4 4).loseNext 9

/-- ARMING_STEP. A tick master that still waits for work ends classes without them. -/
def execArmingStep (s : State) : Host.Outcome State Fault Refusal :=
  .next <|
    if s.tick.phase != .fallow then s
    else if s.isFollower then (if s.tick.classed then s.arm else s.missClass)
    else (s.stookClass true).arm

/-! ### The edge -/

/-- An engine starts the slice of its latched variant. -/
def State.startEngine (s : State) (e : Nat) : State :=
  let g := s.eng e
  match g.next with
  | none => s.setEng e { idleEng with variant := g.variant }
  | some v =>
    let s := s.setEng e
      { g with running := true, variant := v.variant, next := none, pc := v.start, stop := v.start + v.length, loops := [], cycles := 0,
               remain := v.budget, bubbles := 0, waiting := none, posted := [], counts := ⟨0, 0, 0, 0, 0, 0, 0, 0, 0⟩ }
    (s.setFld (Reg.PLAN_ENGSTAT + 4 * e) 28 3 v.variant).setBusy e true

/-- Show the knots that start (Table 4-18). -/
def State.startKnots (s : State) : State :=
  (List.range 64).foldl (fun (s : State) k =>
    let v := s.nextKnots.getD k 0
    s.setReg (Reg.PLAN_KNOT + 4 * k) (BitVec.ofNat 32 (v * 65536 + v % 65536))) { s with posts := [] }

/-- The row map of the new tick is in force. -/
def State.startRows (s : State) : State :=
  let rows : List (Nat × Nat) := s.nextRows.getD []
  let streams := s.streams.map fun (e : Nat × Stream) =>
    (e.1, ({ e.2 with row := (rows.find? fun (x : Nat × Nat) => x.2 = e.1).map Prod.fst } : Stream))
  let s : State := { s with
    rows := rows, nextRows := none, unreadRows := [], unreadAll := false, resultsDone := false, streams := streams }
  let here := s.streams.filter fun (e : Nat × Stream) => e.2.runsOn.isNone
  let s := s.setFld Reg.GLN_STAT 0 7 rows.length
  let s := s.setFld Reg.GLN_STAT 8 7 (here.length - rows.length)
  s.setFld Reg.GLN_STAT 16 7 (here.filter fun (e : Nat × Stream) => s.inT2 e.1 e.2).length

/-- When the next edge falls, as its nominal and its actual time; `none` while the source has not placed it. -/
def State.edgeDue (s : State) : Option (Nat × Nat) :=
  let t := s.tick
  match t.phase with
  | .starting => t.nextNominal.map fun e => (e, e)
  | .armed =>
    if s.isFollower then (if t.halted then none else t.nextNominal.map fun e => (e - t.nextLag, e))
    else if s.locked && t.nextNominal.isNone then none
    else some (s.nextE, max s.nextE (t.opened + s.tickF))
  | _ => none

/-- Ticks stop: what is held takes effect, since no window comes (R580). -/
def State.stopTicks (s : State) : State :=
  let s := ((s.setBit Reg.TICK_STAT 0 false).setBit Reg.TICK_STAT 1 false).setBit Reg.CART_STAT 16 false
  (s.updTick fun t => { t with phase := .stopped, classed := false, nextNominal := none }).applyHeld

/-- A tick starts at its edge.
(DESIGN CHOICE, unsafe: notes/assumptions/17.md; DEDUCED, unsafe: notes/assumptions/27.md) -/
def State.startTick (s : State) (e a : Nat) : State :=
  let first := s.tick.phase = .starting
  let s := s.reach a
  let s := s.setReg64 Reg.TICK_COUNT_LO (s.tickNo + 1 + s.tick.skips)
  let lag := a - e
  let s := s.setFld Reg.TICK_LAG 0 16 (satNat 16 lag)
  let s := s.setFld Reg.TICK_LAGPEAK 0 16 (max (s.fld Reg.TICK_LAGPEAK 0 16) (satNat 16 lag))
  let s := (s.startKnots).startRows
  let s := (List.range 33).foldl (fun (s : State) e => s.startEngine e) s
  let s := ((s.setBit Reg.TICK_STAT 0 true).setBit Reg.TICK_STAT 1 false).setBit Reg.CART_STAT 16 false
  let s := if s.isFollower then s.setBit Reg.TICK_STAT 4 false else s
  let s := s.updTick fun t =>
    { t with phase := .slice, nominal := e, edge := a, nextNominal := none, cls := t.nextCls, nextCls := .normal, workEnd := a, skips := 0,
             nextLag := 0, stepsDone := false, classed := false, members := [], rejoining := false,
             syncs := if s.locked then 0 else t.syncs }
  let s := { s with power := { s.power with common := 0, commonAt := 0 } }
  let s := if first then s.audioStart else s
  let s := s.audioEdge lag
  if s.isMaster then s.emit (.tickSync a) else s

/-- TICK_EDGE: the next actual edge falls; where RUN has been cleared, ticks stop there.
(DEDUCED, safe: notes/assumptions/4.md; DESIGN CHOICE, unsafe: notes/assumptions/17.md) -/
def execTickEdge (s : State) : Host.Outcome State Fault Refusal :=
  .next <|
    match s.edgeDue with
    | none => s
    | some (e, a) => if s.bit Reg.TICK_CTRL 0 then s.startTick e a else (s.reach a).stopTicks

end Sys2Proof.Machine
end

