-- ==== Sys2Proof/Machine/Attention.lean ====
section
/-!
DEFINITION. Machine/Attention.lean: streamed attention on the Threshers, SATTN, SUMSC and SPROB (R171, R172, R174, R175, R239
to R259), and fused attention on a Sheaf, FATTN (R173, R251).
-/
namespace Sys2Proof.Machine

/-! ### Pages as a fetch channel finds them -/

/-- The retained page of a sequence number, with its VALID bit set. -/
def PagedRegion.pageOf (r : PagedRegion) (q : Nat) : Option Page := r.pages.find? fun p => p.seq = q && p.valid

/-- One key slot of a set: a token at an index, or nothing (a pad, a masked key, a block's unused slot). -/
abbrev KeySlot := Option Nat

/-- The newest `n` tokens of a region. -/
def newestTokens (length n : Nat) : List KeySlot :=
  (List.range (min length n)).map fun i => some (length - min length n + i)

/-- The tokens of every retained page (R273). -/
def retainedTokens (r : PagedRegion) (ps : Nat) : List KeySlot :=
  r.pages.flatMap fun p => ((List.range ps).filter fun j => p.seq * ps + j < r.length).map fun j => some (p.seq * ps + j)

/-- The newest window of a SET 2 attention (R254). -/
def newestWindow (lk kp ps : Nat) : Nat := lk - kp * ps

/-- The key slots of a set in the order they are read (R172, R254, R273). `entries` is the row's page list and `npt` the
number of slots of the page table. -/
def keySlots (r : PagedRegion) (set lk ps npt : Nat) (entries : List Nat) : List KeySlot :=
  match set with
  | 0 => let all := retainedTokens r ps; all.drop (all.length - lk)
  | 1 => newestTokens r.length lk
  | _ =>
    let nw := newestWindow lk entries.length ps
    let listed := entries.flatMap fun e =>
      if e = 0xFFFF then List.replicate ps none
      else match r.pages.find? fun p => p.seq % npt = e with
        | some p => (List.range ps).map fun j =>
            let t := p.seq * ps + j
            if t < r.length && t + nw < r.length then some t else none
        | none => List.replicate ps none
    listed.take lk ++ newestTokens r.length nw

/-- Page-table slots that a page list names and that hold no page: entries with VALID clear (R278). -/
def listedHoles (r : PagedRegion) (set npt : Nat) (entries : List Nat) : Nat :=
  if set = 2 then (entries.filter fun e => e != 0xFFFF && !(r.pages.any fun p => p.seq % npt = e)).length else 0

/-- The page sequence numbers that a list of slots reads, in order.
(DEDUCED, unsafe: notes/assumptions/40.md) -/
def pagesRead (slots : List KeySlot) (ps : Nat) : List Nat :=
  (slots.filterMap fun k => k.map (· / ps)).foldl (fun l q => if l.getLast? = some q then l else l ++ [q]) []

/-- A channel in walker mode finds a page through the look-aside buffer: 64 entries, least recently used (R276).
(DEDUCED, unsafe: notes/assumptions/40.md) -/
def State.lookUp (s : State) (sc region slot : Nat) : State :=
  let key := (sc, region, slot)
  if s.lookAside.contains key then
    { s with lookAside := key :: s.lookAside.filter (· != key), glnHit := s.glnHit + 1 }
  else { s with lookAside := (key :: s.lookAside).take 64, glnMiss := s.glnMiss + 1 }

/-- A channel of a Thresher finds the pages it reads: through the Gleaner, unless the mode in effect is the descriptor
ring, which needs no walk (R239, R276, R277).
(DEDUCED, unsafe: notes/assumptions/40.md) -/
def State.walk (s : State) (n ch sc region : Nat) (slots : List Nat) : State :=
  if s.bit (Reg.TSH_STAT + 0x400 * n) (1 + ch) then s else slots.foldl (fun s k => s.lookUp sc region k) s

/-- Meet the errors of the pages that an instruction reads, and answer entries with VALID clear (R278). -/
def State.sensePages (s : State) (e batch : Nat) (r : PagedRegion) (size extraBad : Nat) (qs : List Nat) : State :=
  let bad := (qs.filter fun q => (r.pageOf q).isNone).length + extraBad
  let s := qs.foldl (fun s q =>
    match r.pageOf q with
    | none => s
    | some p =>
      match s.senseRange p.addr size with
      | (some a, s) => s.reportUnread e 2 (some batch) a
      | (none, s) => s) s
  if bad = 0 then s
  else { s with glnBad := s.glnBad + bad }.reportAway e batch

/-! ### Keys, values and queries -/

/-- A key or value token as a channel reads it. -/
structure KeyData where
  seg : Nat
  pos : Nat
  key : List Int
  /-- Values and their group shifts. -/
  val : List (Int × Int)
  deriving DecidableEq, Repr

/-- Signed elements of `bits` each from a byte string. -/
def unpackRow (bits d : Nat) (bs : List Byte) : List Int :=
  if bits = 4 then (List.range d).map fun c => signedOf 4 (bitsOf ((bs.getD (c / 2) 0).toNat) (4 * (c % 2)) 4)
  else (List.range d).map fun c => signedOf 8 (bs.getD c 0).toNat

/-- Read a token of a region; a token of a page that cannot be found has segment 0 (R278). -/
def State.readToken (s : State) (g : Geom) (r : PagedRegion) (ps : Nat) (vals : Bool) (t : Nat) : KeyData :=
  match r.pageOf (t / ps) with
  | none => ⟨0, 0, [], []⟩
  | some p =>
    let row := t % ps
    let (v, sh, meta_, _) := g.pageAreas ps
    let m := s.bytesAt (p.addr + meta_ + 4 * row) 4
    let key := unpackRow 8 g.d (s.bytesAt (p.addr + row * g.d) g.d)
    let val :=
      if vals then
        let raw := unpackRow g.vBits g.d (s.bytesAt (p.addr + v + row * (g.d * g.vBits / 8)) (g.d * g.vBits / 8))
        let shifts :=
          match r.pageOf (t / 32 * 32 / ps) with
          | none => []
          | some p0 => unpackRow 8 g.d (s.bytesAt (p0.addr + sh + (t / 32 * 32 % ps) / 32 * g.d) g.d)
        raw.zipIdx.map fun x => (x.1, clampInt (-31) 31 (shifts.getD x.2 0))
      else []
    ⟨leAt m 0 1, leAt m 2 2, key, val⟩

/-- A query with its segment and position. -/
structure Query where
  row : List Int
  seg : Nat
  pos : Nat
  deriving DecidableEq, Repr

/-- The `Q` queries of a batch row: rotated with ROPE, with the segments and positions of the side tensor when SEG or ROPE
is set, and otherwise segment 1 and the index of the row within its group (R171, R242). -/
def State.queries (s : State) (dQ : TDesc) (f : TFields) (loops : List LoopFrame) (rope side : Bool) (rows : List (List Int))
    (batch q : Nat) : List Query :=
  let sides := if side then s.sides (s.plan.tensor (f.srcA.toNat + 1)) loops else []
  let table := if rope then s.rotary (s.plan.tensor f.srcC.toNat) loops else []
  (List.range q).map fun i =>
    let k := batch * q + i
    let sp := if side then sides.getD k (0, 0) else (1, i)
    let row := (rows.getD k (List.replicate dQ.cols 0))
    ⟨if rope then rotateBy table sp.2 row else row, sp.1, sp.2⟩

/-- Visibility (R171, R243). -/
def visible (causal seg : Bool) (qSeg qPos kSeg kPos : Nat) : Bool :=
  kSeg != 0 && (!seg || qSeg = kSeg) && (!causal || decide (kPos ≤ qPos))

/-- The converted score of a query and a key: the exact dot product at the key's per-channel shifts, rounded once, times
LOG2E, rounded (R247). -/
def score (eQ : Int) (kshift q k : List Int) : F32 :=
  let sum := (q.zipIdx.map fun x => x.1 * k.getD x.2 0 * (2 ^ (kshift.getD x.2 0 + 31).toNat : Nat)).sum
  (roundDyadic sum (eQ - 31)).mul .log2e

/-! ### The statistics unit (R248 to R250) -/

/-- The running maximum, the running sum and the output accumulators of one query row. -/
structure Stats where
  m : F32
  l : F32
  o : List F32
  deriving DecidableEq, Repr

/-- What a row starts with. -/
def Stats.start (d : Nat) : Stats := ⟨.negInf, .zero, List.replicate d .zero⟩

/-- Fold one block: `ys` gives each slot's converted score where the key is visible. -/
def Stats.fold (st : Stats) (ys : List (Option F32)) (vals : List (List (Int × Int))) : Stats :=
  let seen := ys.filterMap id
  if seen.isEmpty then st
  else
    let mb := seen.foldl F32.max .negInf
    let mn := st.m.max mb
    let alpha := (st.m.sub mn).exp2
    let ps := ys.map fun y => match y with
      | some y => (y.sub mn).exp2
      | none => F32.zero
    let pad := List.replicate (64 - ps.length) F32.zero
    let l := (st.l.mul alpha).add (tree64 (ps ++ pad))
    let o := st.o.zipIdx.map fun x =>
      let ts := ps.zipIdx.map fun p =>
        match (vals.getD p.2 [])[x.2]? with
        | some v => p.1.mul (roundDyadic v.1 v.2)
        | none => F32.zero
      (x.1.mul alpha).add (tree64 (ts ++ pad))
    ⟨mn, l, o⟩

/-- A list cut into blocks of 64. -/
def blocks64 {α : Type} (n : Nat) (xs : List α) : List (List α) := (List.range n).map fun b => (xs.drop (64 * b)).take 64

/-- Whether a row saw a visible key. -/
def Stats.seen (st : Stats) : Bool := match st.l with
  | .fin m _ => m != 0
  | _ => true

/-- The log-sum-exp of a row (R250). -/
def Stats.lse (st : Stats) : F32 := if st.seen then st.m.add st.l.log2 else .negInf

/-- A row's outputs as integers at an exponent, before saturation (R249). -/
def Stats.out (st : Stats) (e : Int) : List Int :=
  st.o.map fun o => if st.seen then (o.div st.l).toInt (-e) else 0

/-! ### Streamed attention -/

/-- The operands that SATTN and SPROB share, resolved for one batch row. -/
structure AttnRow where
  sc : Nat
  region : PagedRegion
  ps : Nat
  slots : List KeySlot
  holes : Nat
  pads : Nat
  deriving DecidableEq, Repr

/-- The page list of a row (SET 2). -/
def State.pageList (s : State) (d : TDesc) (loops : List LoopFrame) (batch : Nat) : List Nat :=
  let per := d.rows / max 1 s.planRows
  (List.range per).flatMap fun j =>
    (s.readRow d (s.opRow d loops (batch * per + j)).ref d.cols).map fun x => unsignedOf 16 x

/-- Resolve one batch row. -/
def State.attnRow (s : State) (f : TFields) (loops : List LoopFrame) (set batch : Nat) : Option AttnRow :=
  let dK := s.plan.tensor f.srcB.toNat
  match s.rowRegion batch dK.region with
  | none => none
  | some (sc, t, r) =>
    let ps := 16 * 2 ^ t.psz
    let npt := (s.plan.geom dK.region).slotsOf ps
    let entries := if set = 2 then s.pageList (s.plan.tensor (f.srcB.toNat + 2)) loops batch else []
    some { sc := sc, region := r, ps := ps, slots := keySlots r set dK.rows ps npt entries,
           holes := listedHoles r set npt entries, pads := (entries.filter (· = 0xFFFF)).length }

/-- The channels of a Thresher find and read the pages of a row, with the errors they meet.
(DESIGN CHOICE, unsafe: notes/assumptions/25.md) -/
def State.fetchPages (s : State) (n batch region : Nat) (a : AttnRow) (vals : Bool) : State :=
  let g := s.plan.geom region
  let npt := g.slotsOf a.ps
  let qs := pagesRead a.slots a.ps
  let s := s.walk n 0 a.sc region (qs.map (· % npt))
  let s := if vals then s.walk n 1 a.sc region (qs.map (· % npt)) else s
  s.sensePages (16 + n) batch a.region (g.pageSize a.ps) a.holes qs

/-- The converted scores of a query over a block, where visible. -/
def blockScores (causal seg : Bool) (eQ : Int) (kshift : List Int) (q : Query) (keys : List KeyData) : List (Option F32) :=
  keys.map fun k => if visible causal seg q.seg q.pos k.seg k.pos then some (score eQ kshift q.row k.key) else none

/-- The keys that a row's slots name, in slot order. -/
def State.slotKeys (s : State) (g : Geom) (a : AttnRow) (vals : Bool) : List KeyData :=
  a.slots.map fun k => match k with
    | some t => s.readToken g a.region a.ps vals t
    | none => ⟨0, 0, [], []⟩

/-- Count what a Thresher instruction counts for one occupied row. -/
def State.countRow (s : State) (e pads blocks : Nat) : State :=
  s.count e fun c => { c with pad := c.pad + pads, blk := c.blk + blocks }

/-- SATTN over one Thresher (R172, R247 to R250). -/
def State.sattn (s : State) (n : Nat) (f : TFields) : State :=
  let e := 16 + n
  let loops := (s.eng e).loops
  let m := f.mod.toNat
  let causal := bitOf m 0
  let seg := bitOf m 1
  let rope := bitOf m 2
  let side := seg || rope
  let set := bitsOf m 4 2
  let dQ := s.plan.tensor f.srcA.toNat
  let dK := s.plan.tensor f.srcB.toNat
  let dD := s.plan.tensor f.dst.toNat
  let g := s.plan.geom dK.region
  let q := dQ.rows / max 1 s.planRows
  let (qRows, s) := s.readOp e dQ loops
  let s := if side then (s.readOp e (s.plan.tensor (f.srcA.toNat + 1)) loops).2 else s
  let s := if rope then (s.readOp e (s.plan.tensor f.srcC.toNat) loops).2 else s
  let s := if set = 2 then (s.readOp e (s.plan.tensor (f.srcB.toNat + 2)) loops).2 else s
  let (stats, s) := (List.range s.planRows).foldl (fun (acc : List (Option Stats) × State) batch =>
    match acc.2.attnRow f loops set batch with
    | none => (acc.1 ++ List.replicate q none, acc.2)
    | some a =>
      let s := (acc.2.fetchPages n batch dK.region a true).countRow e a.pads (dK.rows / 64)
      let keys := blocks64 (dK.rows / 64) (s.slotKeys g a true)
      let sts := (s.queries dQ f loops rope side qRows batch q).map fun qy =>
        some (keys.foldl (fun st ks =>
          st.fold (blockScores causal seg dQ.shift a.region.kshift qy ks) (ks.map KeyData.val)) (Stats.start dQ.cols))
      (acc.1 ++ sts, s)) ([], s)
  let raw := stats.map fun st => match st with
    | some st => st.out dD.shift
    | none => List.replicate dQ.cols 0
  let sats := (raw.map fun row => (row.map (satCount dD.fmt)).sum).sum
  let empties := (stats.filter fun st => match st with
    | some st => !st.seen
    | none => false).length
  let s := s.count e fun c => { c with sat := c.sat + sats, emp := c.emp + empties }
  let s := s.writeRows dD loops (raw.map fun row => row.map (clampInt (fmtLow dD.fmt) (fmtHigh dD.fmt)))
  if bitOf m 3 then
    let bs := stats.flatMap fun st => leBytes 4 (match st with
      | some st => st.lse.bits
      | none => F32.negInf.bits)
    s.t0Store (descAddr dD loops + dD.rows * dD.stride * 64) (bs ++ List.replicate (64 * ceilDiv bs.length 64 - bs.length) 0)
  else s

/-- Whether a region has data in T1 that an instruction reads. -/
def State.regionInT1 (s : State) (region : Nat) (summaries : Bool) : Bool :=
  s.rows.any fun r => match s.stream r.2 with
    | none => false
    | some t => match keyGet t.paged region with
      | none => false
      | some g =>
        if summaries then (g.sumHome.getD 0) ≥ 0x100_0000_0000 else g.pages.any fun p => p.addr ≥ 0x100_0000_0000

/-- The bytes of one 64-key block (R259). -/
def blockBytes (d v : Nat) : Nat := 64 * d + 64 * d * v / 8 + 2 * d + 256

/-- The cost of a Thresher instruction over `blocks` blocks a row and `b` bytes a block: exact where nothing is read from
T1, and an upper bound where something is (R151).
(DEDUCED, unsafe: notes/assumptions/36.md) -/
def State.thresherCost (s : State) (q blocks b : Nat) (t1 : Bool) : Nat × State :=
  let pass := 64 * ceilDiv q 16
  let lo := s.planRows * blocks * pass + 160
  if t1 then s.boundedCost lo (s.planRows * blocks * max pass (t1Cost b t1Requesters) + 160) else (lo, s)

/-- SATTN attends over a paged region. -/
def execSattn (n : Fin 2) (f : TFields) (s : State) : Host.Outcome State Fault Refusal :=
  .next <|
    if s.standsAt (16 + n) (tWord 0x40 f) then
      let dQ := s.plan.tensor f.srcA.toNat
      let dK := s.plan.tensor f.srcB.toNat
      let (cost, s) := s.thresherCost (dQ.rows / max 1 s.planRows) (dK.rows / 64)
        (blockBytes dQ.cols (s.plan.geom dK.region).vBits) (s.regionInT1 dK.region false)
      s.runFor (16 + n) cost fun s => s.sattn n f
    else s

/-- The newest window of the SET 2 attention that reads a region (R254, R174): of the SATTN of the plan that names it with
SET 2; 0 where the plan has none.
(DEDUCED, unsafe: notes/assumptions/39.md) -/
def Plan.windowOf (p : Plan) (region ps : Nat) : Nat :=
  let found := p.allWords.flatMap fun vw => vw.2.filter fun w =>
    wOp w = 0x40 && bitsOf (wMod w) 4 2 = 2 && (p.tensor (wB w)).own = 2 && (p.tensor (wB w)).region = region
  match found with
  | [] => 0
  | w :: _ =>
    let dL := p.tensor (wB w + 2)
    newestWindow (p.tensor (wB w)).rows (dL.rows / max 1 p.hdr.rows * dL.cols) ps

/-- SUMSC (R174): the scores of a row's page slots.
(DEDUCED, unsafe: notes/assumptions/39.md) -/
def State.sumsc (s : State) (n : Nat) (f : TFields) : State :=
  let e := 16 + n
  let loops := (s.eng e).loops
  let rope := bitOf f.mod.toNat 2
  let dQ := s.plan.tensor f.srcA.toNat
  let dK := s.plan.tensor f.srcB.toNat
  let dD := s.plan.tensor f.dst.toNat
  let q := dQ.rows / max 1 s.planRows
  let (qRows, s) := s.readOp e dQ loops
  let s := if rope then (s.readOp e (s.plan.tensor (f.srcA.toNat + 1)) loops).2 else s
  let s := if rope then (s.readOp e (s.plan.tensor f.srcC.toNat) loops).2 else s
  let (rows, s) := (List.range s.planRows).foldl (fun (acc : List (List Int) × State) batch =>
    match acc.2.rowRegion batch dK.region with
    | none => (acc.1 ++ [List.replicate dK.rows 0], acc.2)
    | some (_, t, r) =>
      let s := acc.2.countRow e 0 (dK.rows / 64)
      let s := match r.sumHome with
        | some h => match s.senseRange h (dK.rows * dK.cols) with
          | (some a, s) => s.reportUnread e 2 (some batch) a
          | (none, s) => s
        | none => s
      let ps := 16 * 2 ^ t.psz
      let nw := s.plan.windowOf dK.region ps
      let qs := s.queries dQ f loops rope rope qRows batch q
      let row := (List.range dK.rows).map fun slot =>
        match r.pages.find? fun p => p.seq % dK.rows = slot && decide (p.seq < r.sumSeq) with
        | none => -2147483648
        | some p =>
          if r.length ≤ p.seq * ps + nw then -2147483648
          else
            let sm := unpackRow 8 dK.cols (s.bytesAt (r.sumHome.getD 0 + slot * dK.cols) dK.cols)
            (qs.map fun qy => (zipSum qy.row sm)).sum
      (acc.1 ++ [row], s)) ([], s)
  s.writeRows dD loops rows
where
  /-- The exact sum of products of two rows. -/
  zipSum (a b : List Int) : Int := (a.zipIdx.map fun x => x.1 * b.getD x.2 0).sum

/-- SUMSC scores queries against page summary keys. -/
def execSumsc (n : Fin 2) (f : TFields) (s : State) : Host.Outcome State Fault Refusal :=
  .next <|
    if s.standsAt (16 + n) (tWord 0x42 f) then
      let dQ := s.plan.tensor f.srcA.toNat
      let dK := s.plan.tensor f.srcB.toNat
      let (cost, s) := s.thresherCost (dQ.rows / max 1 s.planRows) (dK.rows / 64) (64 * dQ.cols)
        (s.regionInT1 dK.region true)
      s.runFor (16 + n) cost fun s => s.sumsc n f
    else s

/-- The log-sum-exp that SPROB reads for a query row: 4 bytes a row, as SATTN's trailer holds them (R172, R257). -/
def State.lseOf (s : State) (d : TDesc) (loops : List LoopFrame) (k : Nat) : Option F32 :=
  F32.ofBits (leNat (s.bytesAt (descAddr d loops + 4 * k) 4))

/-- One probability of SPROB (R257): `exp2(y − lse)` at exponent −15, before saturation; 0 where the row stored −infinity.
(DEDUCED, unsafe: notes/assumptions/39.md) -/
def probability (lse y : F32) : Int := if lse = .negInf then 0 else (y.sub lse).exp2.toInt 15

/-- SPROB (R175, R257, R258). A stored log-sum-exp that is not a number is no value of R246: each probability of its row is
then a free value.
(DESIGN CHOICE, safe: notes/assumptions/3.md) -/
def State.sprob (s : State) (n : Nat) (f : TFields) : State :=
  let e := 16 + n
  let loops := (s.eng e).loops
  let m := f.mod.toNat
  let causal := bitOf m 0
  let seg := bitOf m 1
  let rope := bitOf m 2
  let side := seg || rope
  let set := bitsOf m 4 2
  let dQ := s.plan.tensor f.srcA.toNat
  let dK := s.plan.tensor f.srcB.toNat
  let dL := s.plan.tensor (f.srcB.toNat + 1)
  let dD := s.plan.tensor f.dst.toNat
  let g := s.plan.geom dK.region
  let q := dQ.rows / max 1 s.planRows
  let (qRows, s) := s.readOp e dQ loops
  let s := if side then (s.readOp e (s.plan.tensor (f.srcA.toNat + 1)) loops).2 else s
  let s := if rope then (s.readOp e (s.plan.tensor f.srcC.toNat) loops).2 else s
  let s := if set = 2 then (s.readOp e (s.plan.tensor (f.srcB.toNat + 2)) loops).2 else s
  let s := match s.senseRange (descAddr dL loops) (4 * dQ.rows) with
    | (some a, s) => s.reportUnread e dL.own none a
    | (none, s) => s
  let (rows, s) := (List.range s.planRows).foldl (fun (acc : List (List Int) × State) batch =>
    match acc.2.attnRow f loops set batch with
    | none => (acc.1 ++ List.replicate q (List.replicate dK.rows 0), acc.2)
    | some a =>
      let s := (acc.2.fetchPages n batch dK.region a false).countRow e a.pads (dK.rows / 64)
      let keys := s.slotKeys g a false
      (s.queries dQ f loops rope side qRows batch q).zipIdx.foldl (fun (acc : List (List Int) × State) qy =>
        let ys := blockScores causal seg dQ.shift a.region.kshift qy.1 keys
        let ys := ys ++ List.replicate (dK.rows - ys.length) none
        match acc.2.lseOf dL loops (batch * q + qy.2) with
        | some lse => (acc.1 ++ [ys.map fun y => match y with
            | some y => probability lse y
            | none => 0], acc.2)
        | none =>
          let (v, s) := acc.2.draw
          (acc.1 ++ [ys.zipIdx.map fun y => if y.1.isSome then signedOf 17 (v / 2 ^ (17 * y.2) % 2 ^ 17) else 0], s)) (acc.1, s))
    ([], s)
  let sats := (rows.map fun row => (row.map (satCount dD.fmt)).sum).sum
  let s := s.count e fun c => { c with sat := c.sat + sats }
  s.writeRows dD loops (rows.map fun row => row.map (clampInt (fmtLow dD.fmt) (fmtHigh dD.fmt)))

/-- SPROB recomputes attention probabilities. It reads no value bytes, so it may retire before its cost (R259). -/
def execSprob (n : Fin 2) (f : TFields) (s : State) : Host.Outcome State Fault Refusal :=
  .next <|
    if s.standsAt (16 + n) (tWord 0x43 f) then
      let dQ := s.plan.tensor f.srcA.toNat
      let dK := s.plan.tensor f.srcB.toNat
      let (cost, s) := s.thresherCost (dQ.rows / max 1 s.planRows) (dK.rows / 64)
        (blockBytes dQ.cols (s.plan.geom dK.region).vBits) (s.regionInT1 dK.region false)
      s.runFor (16 + n) cost fun s => s.sprob n f
    else s

/-! ### Fused attention (R173, R251) -/

/-- One query row of FATTN. -/
def fusedRow (tbl : List Int) (k : Int) (scores : List Int) (vis : List Bool) (values : List (List Int)) (d : Nat) : List Int :=
  let seen := (scores.zip vis).filter Prod.snd |>.map Prod.fst
  match seen with
  | [] => List.replicate d 0
  | x :: xs =>
    let mx := xs.foldl max x
    let ps := (scores.zip vis).map fun sv => if sv.2 then max 0 (distEntry tbl k (mx - sv.1)) else 0
    let total := ps.sum
    if total = 0 then
      values.getD (vis.findIdx id) (List.replicate d 0)
    else (List.range d).map fun c =>
      rneDiv ((ps.zipIdx.map fun p => p.1 * (values.getD p.2 []).getD c 0).sum) total

/-- FATTN on a Sheaf: the outputs, and the scores left in its eight banks. -/
def State.fattn (s : State) (n : Nat) (f : TFields) : State :=
  let loops := (s.eng n).loops
  let m := f.mod.toNat
  let causal := bitOf m 0
  let seg := bitOf m 1
  let side := causal || seg
  let dQ := s.plan.tensor f.srcA.toNat
  let dK := s.plan.tensor f.srcB.toNat
  let dV := s.plan.tensor (f.srcB.toNat + 1)
  let dT := s.plan.tensor f.srcC.toNat
  let dD := s.plan.tensor f.dst.toNat
  let (qs, s) := s.readOp n dQ loops
  let (ks, s) := s.readOp n dK loops
  let (vs, s) := s.readOp n dV loops
  let (_, s) := s.readOp n dT loops
  let (qSide, s) := if side then
      let d := s.plan.tensor (f.srcA.toNat + 1)
      let s := (s.readOp n d loops).2
      (s.sides d loops, s)
    else ([], s)
  let (kSide, s) := if side then
      let d := s.plan.tensor (f.srcB.toNat + 2)
      let s := (s.readOp n d loops).2
      (s.sides d loops, s)
    else ([], s)
  let tbl := s.table dT loops 0
  let scores := qs.map fun q => ks.map fun k => (q.zipIdx.map fun x => x.1 * k.getD x.2 0).sum
  let outs := scores.zipIdx.map fun row =>
    let qsp := if side then qSide.getD row.2 (0, 0) else (1, row.2)
    let vis := (List.range ks.length).map fun j =>
      let ksp := if side then kSide.getD j (0, 0) else (1, j)
      visible causal seg qsp.1 qsp.2 ksp.1 ksp.2
    fusedRow tbl dT.indexShift row.1 vis vs dQ.cols
  let raw := outs.map fun row => row.map fun x => requantRaw x dV.shift dD.shift
  let sats := (raw.map fun row => (row.map (satCount dD.fmt)).sum).sum
  let s := s.count n fun c => { c with sat := c.sat + sats }
  -- the banks
  let e := dQ.shift + dK.shift
  let eRec := clampInt (-31) 31 e
  let s := (List.range 8).foldl (fun s b =>
    let bank := (List.range 32).foldl (fun bk c => bk.setExp c eRec) zeroBank
    let bank := scores.zipIdx.foldl (fun bk row =>
      (List.range 32).foldl (fun bk c =>
        match row.1[32 * b + c]? with
        | some v => bk.setSum row.2 c (rneShift v (eRec - e))
        | none => bk) bk) bank
    { s.setBank n b bank with bankFlips := s.bankFlips.filter fun fl => fl.1 / 1024 != 8 * n + b }) s
  s.writeRows dD loops (raw.map fun row => row.map (clampInt (fmtLow dD.fmt) (fmtHigh dD.fmt)))

/-- FATTN runs fused attention on one Sheaf; it costs (Lk / 32) × (2 D + 32) + 64. -/
def execFattn (n : Fin 16) (f : TFields) (s : State) : Host.Outcome State Fault Refusal :=
  let lk := (s.plan.tensor f.srcB.toNat).rows
  let d := (s.plan.tensor f.srcA.toNat).cols
  .next <| s.runWord n (tWord 0x41 f) (lk / 32 * (2 * d + 32) + 64) fun s => s.fattn n f

end Sys2Proof.Machine
end

