-- ==== Sys2Proof/Machine/Stook.lean ====
section
/-!
DEFINITION. Machine/Stook.lean: the messages that a Gydan port delivers (Table 13-7): peer moves (R410 to R413), migration (R414), tick
alignment (R417, R418), loss of a member (R419) and the work of migrated streams (R415).
-/
namespace Sys2Proof.Machine

/-! ### Delivery -/

/-- A message of a class and a number of bytes has been delivered: the flits it held in the receive buffer are freed (R403).
(DEDUCED, unsafe: notes/assumptions/15.md) -/
def State.freeFlits (s : State) (k cls bytes : Nat) : State :=
  let n := min ((s.port k).rxHeld.getD cls 0) (max 1 (ceilDiv bytes 256))
  s.updPort k fun p =>
    { p with rxHeld := p.rxHeld.set cls (p.rxHeld.getD cls 0 - n), rxFreed := p.rxFreed.set cls (p.rxFreed.getD cls 0 + n) }

/-- A message comes over a port that is ACTIVE while the main domain runs; otherwise nothing does.
(DEDUCED, unsafe: notes/assumptions/15.md) -/
def State.deliver (s : State) (k cls bytes : Nat) (f : State → State) : State :=
  if s.linkUp k && s.mainOn then f (s.freeFlits k cls bytes) else s

/-! ### Pushes that arrive (R410 to R412) -/

/-- The device address of an offset of this chip's own window (Table 3-2). -/
def ownAddr (o : Nat) : Nat := if o < 0x300_0000 then o else 0x100_0000_0000 + (o - 0x4_0000_0000)

/-- The push of a chip that carries a MOVEID. -/
def State.rxMove (s : State) (chip id : Nat) : Option RxMove := s.rxMoves.find? fun m => m.chip = chip && m.id = id

/-- Enter or replace a push. -/
def State.setRx (s : State) (m : RxMove) : State :=
  { s with rxMoves := (s.rxMoves.filter fun x => !(x.chip = m.chip && x.id = m.id)) ++ [m] }

/-- A push has ended. -/
def State.dropRx (s : State) (chip id : Nat) : State :=
  { s with rxMoves := s.rxMoves.filter fun x => !(x.chip = chip && x.id = id) }

/-- A range lies in a grant given to a chip. -/
def Grant.holds (g : Grant) (chip a len : Nat) : Bool :=
  g.chip = chip && decide (g.base ≤ a) && decide (a + len ≤ g.base + g.size)

/-- Where the lines of a WRITE may go: 0 where they may, else the ARG of the REFUSE (Table 13-7).
(DEDUCED, unsafe: notes/assumptions/28.md) -/
def State.writeFault (s : State) (chip : Nat) (m : RxMove) (off len : Nat) : Nat :=
  if len = 0 || len % 64 != 0 || decide (4096 < len) then 3
  else if !peerOffsetOk s.variant off len then 1
  else
    let a := ownAddr off
    match m.pull with
    | some p => if decide (p.2.1 ≤ a) && decide (a + len ≤ p.2.1 + p.2.2) then 0 else 1
    | none =>
      if s.grants.any fun g => g.holds chip a len then 0
      else if s.grants.any fun g => g.chip = chip then 1
      else 4

/-- The lines of a WRITE are stored; a tier that refuses them makes the SEAL be answered REFUSE 2. -/
def State.storeLines (s : State) (m : RxMove) (a : Nat) (bs : List Byte) : State :=
  let s := { s with grants := s.grants.map fun (g : Grant) => if g.holds m.chip a bs.length then { g with used := true } else g }
  let (bad, s) := if a < 0x300_0000 then (none, s) else s.t1Range a bs.length true
  match bad with
  | some b => (s.logError 2 (tierSub b true) { addr := b }).setRx { m with bad := some 2 }
  | none =>
    (s.storeBytes a bs).setRx { m with base := if m.lines = 0 then a else min m.base a, lines := m.lines + bs.length / 64 }

/-- WRITE.
(DEDUCED, unsafe: notes/assumptions/28.md) -/
def State.takeWrite (s : State) (k cls id arg : Nat) (bs : List Byte) : State :=
  let c := s.chipOn k
  let m : RxMove := (s.rxMove c id).getD ⟨c, id, cls, 0, 0, none, false, none⟩
  if m.bad.isSome || m.committed then s
  else
    let why := s.writeFault c m (arg * 64) bs.length
    if why = 0 then s.storeLines m (ownAddr (arg * 64)) bs
    else
      let s := (s.setRx { m with bad := some why }).peerMsg c cls 0x82 [id, why] 1
      if why = 3 then s else s.peerViolation k 4

/-- GYDAN_WRITE: lines of a peer move arrive. -/
def execGydanWrite (port : Fin 3) (cls : Fin 2) (moveId arg : BitVec 32) (bytes : List Byte) (s : State) :
    Host.Outcome State Fault Refusal :=
  .next <| s.deliver port cls bytes.length fun s => s.takeWrite port cls moveId.toNat arg.toNat bytes

/-- SEAL: the push is answered COMMIT when every line has been accepted, else REFUSE; one refused before has had its answer.
(DEDUCED, unsafe: notes/assumptions/28.md) -/
def State.takeSeal (s : State) (k cls id lines : Nat) : State :=
  let c := s.chipOn k
  match s.rxMove c id with
  | none => s.peerMsg c cls 0x82 [id, 3] 1
  | some m =>
    if m.committed then s
    else match m.bad with
      | some 2 => (s.dropRx c id).peerMsg c cls 0x82 [id, 2] 1
      | some _ => s.dropRx c id
      | none =>
        if m.lines = lines then (s.setRx { m with committed := true }).peerMsg c cls 0x81 [id] 1
        else (s.dropRx c id).peerMsg c cls 0x82 [id, 3] 1

/-- GYDAN_SEAL: a push ends. -/
def execGydanSeal (port : Fin 3) (cls : Fin 2) (moveId lines : BitVec 32) (s : State) : Host.Outcome State Fault Refusal :=
  .next <| s.deliver port cls 1 fun s => s.takeSeal port cls moveId.toNat lines.toNat

/-- RELEASED: the datum may be used (R412): it fills its grant, or is the datum this chip asked for with PULL. -/
def State.takeReleased (s : State) (k id : Nat) : State :=
  let c := s.chipOn k
  match (s.rxMove c id).filter fun m => m.committed with
  | none => s.peerViolation k 5
  | some m =>
    let s := s.dropRx c id
    match m.pull with
    | some p => s.rehome p.1 p.2.1
    | none =>
      let add := fun (g : Grant) => if g.holds c m.base (64 * m.lines) then { g with got := g.got + 64 * m.lines } else g
      { s with grants := s.grants.map add }

/-- GYDAN_RELEASED. -/
def execGydanReleased (port : Fin 3) (cls : Fin 2) (moveId : BitVec 32) (s : State) : Host.Outcome State Fault Refusal :=
  .next <| s.deliver port cls 1 fun s => s.takeReleased port moveId.toNat

/-- DISCARD: an abandoned move's range is free again. -/
def State.takeDiscardMsg (s : State) (k id : Nat) : State :=
  let c := s.chipOn k
  if (s.rxMove c id).isSome = true then s.dropRx c id else s.peerViolation k 5

/-- GYDAN_DISCARD. -/
def execGydanDiscard (port : Fin 3) (cls : Fin 2) (moveId : BitVec 32) (s : State) : Host.Outcome State Fault Refusal :=
  .next <| s.deliver port cls 1 fun s => s.takeDiscardMsg port moveId.toNat

/-! ### Pushes that leave -/

/-- PULL: this chip's CC3 carries the move out as a push in its next window (R410); a source that is not mapped here is answered
DISCARD.
(DESIGN CHOICE, safe: notes/assumptions/3.md; DEDUCED, unsafe: notes/assumptions/28.md) -/
def State.takePull (s : State) (k cls id src dst lines : Nat) : State :=
  let c := s.chipOn k
  let len := 64 * lines
  if len = 0 || !peerOffsetOk s.variant src len then s.peerMsg c cls 0x04 [id] 1
  else
    let (v, s) := s.draw
    let m : TxMove := { chip := c, id := id, cls := cls, cart := v % 8, src := ownAddr src, dst := peerAddr c dst, len := len, datum := .host,
                        committed := false }
    { s with pullsDue := s.pullsDue ++ [m] }

/-- GYDAN_PULL. -/
def execGydanPull (port : Fin 3) (cls : Fin 2) (moveId : BitVec 32) (src dst lines : Nat) (s : State) :
    Host.Outcome State Fault Refusal :=
  .next <| s.deliver port cls 24 fun s => s.takePull port cls moveId.toNat src dst lines

/-- The push that this chip sends to a chip under a MOVEID. -/
def State.txMove (s : State) (chip id : Nat) : Option TxMove := s.txMoves.find? fun m => m.chip = chip && m.id = id

/-- COMMIT: the move is Committed; it is counted in a fallow window (R89), at once where one is open. -/
def State.takeCommit (s : State) (k id : Nat) : State :=
  let c := s.chipOn k
  match (s.txMove c id).filter fun m => !m.committed with
  | none => s.peerViolation k 5
  | some m =>
    if s.tick.phase = .fallow && s.coreUp 3 then s.releaseTx m
    else { s with txMoves := s.txMoves.map fun x => if x = m then { x with committed := true } else x }

/-- GYDAN_COMMIT. -/
def execGydanCommit (port : Fin 3) (cls : Fin 2) (moveId : BitVec 32) (s : State) : Host.Outcome State Fault Refusal :=
  .next <| s.deliver port cls 1 fun s => s.takeCommit port moveId.toNat

/-- REFUSE: the move fails with its source home (R92). -/
def State.takeRefuse (s : State) (k id : Nat) : State :=
  match (s.txMove (s.chipOn k) id).filter fun m => !m.committed with
  | none => s.peerViolation k 5
  | some m => s.failTx m

/-- GYDAN_REFUSE. -/
def execGydanRefuse (port : Fin 3) (cls : Fin 2) (moveId _arg : BitVec 32) (s : State) : Host.Outcome State Fault Refusal :=
  .next <| s.deliver port cls 1 fun s => s.takeRefuse port moveId.toNat

/-! ### Migration (R414) -/

/-- The rows of the last arming step, with those that grants hold. -/
def State.busyRows (s : State) : List Nat :=
  ((if s.tick.phase = .armed then s.nextRows.getD s.rows else s.rows).map Prod.fst) ++ s.grants.map (·.row)

/-- A row of the asked stream's phase that is free. -/
def State.grantRow (s : State) (a : AskBody) : Option Nat :=
  (List.range s.planRows).find? fun r => !s.busyRows.contains r && (a.phase = 0xFF || r % max 1 a.chunk = a.phase)

/-- ASK: refused with DETAIL 2 or 3, or granted; with no room for the set no ANSWER leaves (notes/assumptions/57.md).
(DESIGN CHOICE, unsafe: notes/assumptions/12.md; DEDUCED, unsafe: notes/assumptions/57.md) -/
def State.takeAsk (s : State) (k : Nat) (a : AskBody) : State :=
  let c := s.chipOn k
  let answer := fun (s : State) (ok v : Nat) => s.peerMsg c 1 0x90 [a.sc.val, ok, v] 16
  let s := { s with grants := s.grants.filter fun g => !(g.chip = c && g.sc = a.sc.val && g.home = a.home.val && !g.used) }
  match s.active with
  | none => answer s 1 2
  | some p =>
    if p.hdr.planId != a.planId then answer s 1 2
    else match s.grantRow a with
      | none => answer s 1 3
      | some r =>
        if s.t1Unreserved < a.size then s
        else match s.choose .t0 a.size with
          | (none, _) => s
          | (some base, s) =>
            let g : Grant := ⟨c, a.sc.val, a.home.val, base, a.size, r, a.size, 0, false, false⟩
            answer { s with grants := s.grants ++ [g] } 0 base

/-- ASK. -/
def execAsk (port : Fin 3) (a : AskBody) (s : State) : Host.Outcome State Fault Refusal :=
  .next <| s.deliver port 1 32 fun s => s.takeAsk port a

/-- The migration of a stream toward a chip, by the stream's number on its home chip. -/
def State.migrationOf (s : State) (chip sc : Nat) : Option Migration :=
  s.migrations.find? fun m => m.dest = chip && (match s.stream m.sc with
    | some t => (if t.homeChip.isSome then t.homeSc else m.sc) = sc
    | none => false)

/-- A grant: the stream leaves this chip's admission with its export, and its moves are issued (R236). -/
def State.takeGrant (s : State) (m : Migration) (base : Nat) : State :=
  let s := s.exportRow m.sc true
  let rows := (s.nextRows.getD []).filter fun x => x.2 != m.sc
  let s := { s with nextRows := some rows }.writeRowMap rows
  let m := { m with granted := some base, exported := true }
  let s := { s with migrations := s.migrations.map fun (x : Migration) => if x.sc = m.sc then m else x }
  (s.pushSet m).pushRecord m

/-- ANSWER, in the window that asked: a later one is of no use (R414).
(DEDUCED, unsafe: notes/assumptions/28.md) -/
def State.takeAnswer (s : State) (k sc : Nat) (a : AnswerBody) : State :=
  match s.migrationOf (s.chipOn k) sc with
  | none => s
  | some m =>
    if s.tick.phase != .fallow || m.exported || m.asked != some s.tick.opened || !s.tick.stepsDone then s
    else match a with
      | .refuse d => (s.dropMigration m.sc).settle m.q m.tag 5 d 0 m.sc
      | .grant base => s.takeGrant m base

/-- ANSWER. -/
def execAnswer (port : Fin 3) (sc : Fin 64) (a : AnswerBody) (s : State) : Host.Outcome State Fault Refusal :=
  .next <| s.deliver port 1 16 fun s => s.takeAnswer port sc a

/-- ANSWER_TIMEOUT: 100 µs after the opening the migration waits for the next window.
(DEDUCED, unsafe: notes/assumptions/57.md) -/
def execAnswerTimeout (sc : Fin 64) (s : State) : Host.Outcome State Fault Refusal :=
  .next <|
    match s.migrations.find? fun m => m.sc = sc.val && !m.exported && m.asked = some s.tick.opened with
    | some _ =>
      let s := s.reach (s.tick.opened + 100)
      { s with migrations := s.migrations.map fun m => if m.sc = sc.val && !m.exported then { m with asked := none } else m }
    | none => s

/-! ### Tick alignment (R417, R418) -/

/-- WORKEND reaches the tick master.
(DEDUCED, unsafe: notes/assumptions/16.md; DEDUCED, unsafe: notes/assumptions/58.md) -/
def State.takeWorkend (s : State) (k tick x : Nat) : State :=
  if !s.isMaster then s
  else if tick != s.tickNo || s.tick.phase = .stopped || s.tick.phase = .starting then s.peerViolation k 7
  else (s.updTick fun t => { t with members := keyPut t.members (s.chipOn k) x }).stookClass false

/-- WORKEND. -/
def execWorkend (port : Fin 3) (tick x : Nat) (s : State) : Host.Outcome State Fault Refusal :=
  .next <| s.deliver port 3 16 fun s => s.takeWorkend port tick x

/-- A class by its code in CLASSMSG. -/
def classFrom (c : Nat) : TickClass := if c = 0 then .normal else if c = 1 then .shed else .skipped

/-- A follower's next tick, by number, class and lag. -/
def State.followClass (s : State) (tick : Nat) (c : TickClass) (lag : Nat) : State :=
  let gone := tick - s.tickNo - 1 - s.tick.skips
  let s := if gone = 0 && c = .skipped then s else s.showClass c lag gone
  let s := s.updTick fun t =>
    { t with classed := true, nextCls := if c = .skipped then .normal else c, nextLag := lag, skips := tick - s.tickNo - 1,
             nextEdge := t.nominal + (tick - s.tickNo) * s.tickP + lag }
  if s.tick.phase = .armed then s.latchFor (s.tick.nextCls = .shed) (s.nextRows.getD s.rows) else s

/-- The chip whose CLASSMSG a follower takes: the first that sends one.
(DEDUCED, unsafe: notes/assumptions/16.md) -/
def State.fromMaster (s : State) (c : Nat) : Bool :=
  match s.tick.master with
  | some m => m = c
  | none => true

/-- CLASSMSG reaches a follower: a tick whose mask leaves it out is lost to it (R417).
(DEDUCED, unsafe: notes/assumptions/16.md) -/
def State.takeClassmsg (s : State) (k tick cls lag mask : Nat) : State :=
  let c := s.chipOn k
  if !s.isFollower || !s.fromMaster c then s.peerViolation k 7
  else
    let s := s.updTick fun t => { t with master := some c }
    if s.tick.phase = .stopped || s.tick.phase = .starting || s.tick.classed || tick ≤ s.tickNo then s
    else if !bitOf mask s.chip then
      ((s.loseNext 9).reportSkips (tick - s.tickNo - s.tick.skips)).updTick fun t => { t with skips := tick - s.tickNo }
    else if s.tick.phase = .slice then s
    else s.followClass tick (classFrom cls) lag

/-- CLASSMSG. -/
def execClassmsg (port : Fin 3) (tick cls lag mask : Nat) (s : State) : Host.Outcome State Fault Refusal :=
  .next <| s.deliver port 3 16 fun s => s.takeClassmsg port tick cls lag mask

/-- REJOIN: the tick master takes the member into its next class. -/
def execRejoin (port : Fin 3) (s : State) : Host.Outcome State Fault Refusal :=
  .next <| s.deliver port 3 1 fun s =>
    if s.isMaster then
      s.updTick fun t => { t with members := keyPut t.members (s.chipOn port) 0, excluded := keyPut t.excluded (s.chipOn port) 0 }
    else s

/-! ### Loss of a member (R418, R419) -/

/-- MEMBER_EJECT: a member left out of EJECTTICKS masks is declared lost by the tick master.
(DEDUCED, unsafe: notes/assumptions/67.md) -/
def execMemberEject (chip : Fin 4) (s : State) : Host.Outcome State Fault Refusal :=
  .next <|
    if s.isMaster && s.live chip && decide (s.fld Reg.GDN_LOSS 8 8 ≤ keyGetD s.tick.excluded chip.val 0) then
      let inc := (s.port (s.portTo chip)).peerIncarn
      (s.liveChips.foldl (fun (s : State) c => s.peerMsg c 4 0x41 [chip.val, inc] 1) s).declareLost chip
    else s

/-- LEAVE: the peer is powering down. -/
def execLeave (port : Fin 3) (s : State) : Host.Outcome State Fault Refusal :=
  .next <| s.deliver port 4 1 fun s => s.declareLost (s.chipOn port)

/-- EJECT from the tick master; one that names this chip declares every other member lost.
(DEDUCED, unsafe: notes/assumptions/16.md) -/
def State.takeEject (s : State) (k chip : Nat) : State :=
  if s.isMaster || s.tick.master != some (s.chipOn k) then s.peerViolation k 7
  else if chip = s.chip then s.liveChips.foldl (fun (s : State) c => s.declareLost c) s
  else s.declareLost chip

/-- EJECT. -/
def execEject (port : Fin 3) (chip : Fin 4) (_incarnation : BitVec 32) (s : State) : Host.Outcome State Fault Refusal :=
  .next <| s.deliver port 4 1 fun s => s.takeEject port chip

/-! ### Migrated streams (R415) -/

/-- QUERY: of a stream that runs on another chip it is forwarded. -/
def State.takeQuery (s : State) (q : Nat) (r : Req) : State :=
  match (if r.namesStream then (s.stream r.stream).bind (·.runsOn) else none) with
  | some c => s.forwardReq q r c
  | none => s.answerQuery q r

/-- QUERY (R323). -/
def execQuery (q : Fin 16) (tag : BitVec 16) (s : State) : Host.Outcome State Fault Refusal :=
  .next <|
    match s.coreUp 1, s.waitingReq q 0x01 tag.toNat with
    | true, some r => s.takeQuery q r
    | _, _ => s

/-- This chip's number for a stream of a home chip. -/
def State.localSc (s : State) (home sc : Nat) : Option Nat :=
  (s.streams.find? fun e => e.2.homeChip = some home && e.2.homeSc = sc).map Prod.fst

/-- REQFWD: the request is carried out here, as one of this chip's own would be.
(DEDUCED, unsafe: notes/assumptions/14.md) -/
def State.takeReqfwd (s : State) (k : Nat) (bs : List Byte) : State :=
  let c := s.chipOn k
  let r := readReq bs
  let q := 16 + c
  match s.localSc c r.stream with
  | none => (s.joinReq q { r with state := .done 2 0 0 r.stream }).answerForwarded
  | some sc =>
    let r := { r with stream := sc }
    if r.kind = 0x01 then ((s.joinReq q r).answerQuery q r).answerForwarded
    else s.joinReq q { r with kind := if r.kind = 0x40 then boundaryKind else r.kind, state := .due }

/-- REQFWD. -/
def execReqfwd (port : Fin 3) (record : List Byte) (s : State) : Host.Outcome State Fault Refusal :=
  .next <| s.deliver port 4 64 fun s => s.takeReqfwd port record

/-- The request that a REQDONE completes: acting, forwarded to that chip. -/
def State.forwarded (s : State) (chip kind tag : Nat) : Option (Nat × Req) :=
  (s.reqsIn .acting [kind]).find? fun x => x.1 < 16 && x.2.tag = tag && ((s.stream x.2.stream).bind (·.runsOn)) = some chip

/-- REQDONE: the completion is posted in the request's place; one for stream-boundary values counts its stream as reached (R538).
(DEDUCED, unsafe: notes/assumptions/14.md) -/
def State.takeReqdone (s : State) (k : Nat) (bs : List Byte) : State :=
  let c := s.chipOn k
  let kind := leAt bs 4 1
  if kind = 0x40 then
    match s.nv.epoch with
    | some e =>
      match e.away.find? fun sc => ((s.stream sc).bind (·.runsOn)) = some c with
      | some sc =>
        let e := { e with away := e.away.erase (if e.away.contains (leAt bs 5 1) then leAt bs 5 1 else sc) }
        { s with nv := { s.nv with epoch := some e } }.showEpoch
      | none => s.peerViolation k 5
    | none => s.peerViolation k 5
  else match s.forwarded c kind (leAt bs 0 2) with
    | some (q, r) => s.settle q r.tag (leAt bs 2 1) (leAt bs 16 4) (leAt bs 8 8) r.stream
    | none => s.peerViolation k 5

/-- REQDONE. -/
def execReqdone (port : Fin 3) (record : List Byte) (s : State) : Host.Outcome State Fault Refusal :=
  .next <| s.deliver port 4 32 fun s => s.takeReqdone port record

/-- One result record from the running chip is posted as R311 and R330 state; the stream's last record dissolves the proxy. -/
def State.postProxied (s : State) (sc : Nat) (bs : List Byte) : State :=
  match s.stream sc with
  | none => s
  | some t =>
    let q := t.rqueue
    let rtype := leAt bs 2 1
    let next := { t with rseq := (leAt bs 8 4 + 1) % 2 ^ 32 }
    let s' :=
      if t.held.isEmpty && t.folded.isNone && !(s.orphans.any fun o => o.1 = q) && s.resultRoom q && !s.openUnposted sc then
        (s.setStream sc next).writeRecord q false bs
      else if rtype != 4 && (t.folded.isSome || decide (256 ≤ t.held.length)) then
        let at_ := leAt bs 12 4
        s.setStream sc { t with folded := some (foldRecord t.folded rtype (leAt bs 4 1) at_ (if rtype = 2 then leAt bs 16 4 else at_)) }
      else match t.folded with
        | some f => s.setStream sc { next with folded := none, held := t.held ++ [f.bytes sc t.rseq s.tickNo, bs] }
        | none => s.setStream sc { next with held := t.held ++ [bs] }
    if rtype = 4 then
      let held := match s'.stream sc with
        | some t => t.held.map fun b => (q, b)
        | none => []
      { s' with streams := keyDel s'.streams sc, lateSc := addMember s'.lateSc sc, orphans := s'.orphans ++ held }.showHeld q
    else s'.showHeld q

/-- RESULT: records of a stream that has a proxy here.
(DEDUCED, unsafe: notes/assumptions/14.md) -/
def State.takeResult (s : State) (k sc : Nat) (records : List (List Byte)) : State :=
  if ((s.stream sc).bind (·.runsOn)) = some (s.chipOn k) then
    (records.take 8).foldl (fun (s : State) r => s.postProxied sc r) s
  else s.peerViolation k 8

/-- RESULT. -/
def execResult (port : Fin 3) (sc : Fin 64) (records : List (List Byte)) (s : State) : Host.Outcome State Fault Refusal :=
  .next <| s.deliver port 4 (32 * records.length) fun s => s.takeResult port sc records

/-- LOCATE: where a migrated stream now runs; the MIGRATE of it has succeeded.
(DESIGN CHOICE, unsafe: notes/assumptions/13.md) -/
def State.takeLocate (s : State) (k sc chip : Nat) : State :=
  match s.stream sc with
  | none => s.peerViolation k 8
  | some t =>
    if t.homeChip.isSome || (t.runsOn.isNone && !(s.migrations.any fun m => m.sc = sc)) then s.peerViolation k 8
    else
      let s := if chip = s.chip then s else s.setStream sc { t with runsOn := some chip }
      match s.migrations.find? fun m => m.sc = sc with
      | some m => { s with migrations := s.migrations.erase m }.settle m.q m.tag 0 0 chip sc
      | none => s

/-- LOCATE. -/
def execLocate (port : Fin 3) (sc : Fin 64) (chip : Fin 4) (s : State) : Host.Outcome State Fault Refusal :=
  .next <| s.deliver port 4 2 fun s => s.takeLocate port sc chip

end Sys2Proof.Machine
end

