-- ==== Sys2Proof/Machine/Training.lean ====
section
/-!
DEFINITION. Machine/Training.lean: a Gydan port below its messages: flits, sequence, replay and credits (R398 to R403), training,
retrain and the loss of a link (R396, R397, R405 to R408, R419).
-/
namespace Sys2Proof.Machine

/-! ### States of a port -/

/-- Put a port into a state of Table 13-5; its peer is a live member while the state is ACTIVE (R394). -/
def State.setLink (s : State) (k st : Nat) : State :=
  let c := s.chipOn k
  let s := s.setFld (gdnReg Reg.GDN_STAT k) 0 3 st
  s.setBit Reg.GDN_STOOK (4 + c) (st = 4 && !s.bit Reg.GDN_STOOK (8 + c))

/-- The port is not DISABLED and the main domain runs. -/
def State.portOn (s : State) (k : Nat) : Bool := s.mainOn && s.linkState k != 0

/-- An ACTIVE port retrains (R407). -/
def State.retrain (s : State) (k : Nat) : State :=
  if !s.linkUp k then s
  else
    let s := (s.emit (.flit k 2 0)).setLink k 5
    let s := (s.addSat (gdnReg Reg.GDN_RETRAINCNT k) 0 32 1).logError 7 1 { source := k }
    s.updPort k fun p => { p with step := .lock, attempts := 0, retraining := true, leftActive := s.now }

/-! ### Flits -/

/-- The receive buffer of each class (Table 13-4). -/
def rxBuffer : List Nat := [96, 32, 4, 4, 8]

/-- Message flits that a transmitter still holds once an ACK covers what it covers (R399). -/
def ackedTo (ack : Nat) (l : List TxFlit) : List TxFlit :=
  if l.any fun f => f.seq = ack then (l.dropWhile fun f => f.seq != ack).drop 1 else l

/-- Every unacknowledged flit is sent again (R401); a flit sent again four times makes the port retrain. -/
def State.resend (s : State) (k : Nat) : State :=
  let n := (s.port k).replay.length
  let s := s.addSat (gdnReg Reg.GDN_REPLAYCNT k) 0 32 n
  let s := s.updPort k fun p => { p with replay := p.replay.map fun f => { f with resent := f.resent + 1 } }
  if (s.port k).replay.any fun f => 4 ≤ f.resent then s.retrain k else s

/-- What a trailer says: its ACK, its CREDIT, and a NAK that has not been answered (R399, R401, R403).
(DEDUCED, unsafe: notes/assumptions/29.md) -/
def State.takeTrailer (s : State) (k : Nat) (f : Flit) : State :=
  let s := s.updPort k fun p =>
    let left := ackedTo f.ack p.replay
    let seen := p.creditSeen.getD f.crClass 0
    let p := { p with replay := left, stalls := if left.length < p.replay.length then 0 else p.stalls }
    if f.crClass < 5 then
      { p with
        credits := p.credits.set f.crClass (p.credits.getD f.crClass 0 + (f.credit % 256 + 256 - seen % 256) % 256)
        creditSeen := p.creditSeen.set f.crClass (f.credit % 256) }
    else p
  if f.nak then
    if (s.port k).nakSeen = some f.ack then s
    else (s.updPort k fun p => { p with nakSeen := some f.ack }).resend k
  else s.updPort k fun p => { p with nakSeen := none }

/-- A flit that Table 13-8 calls a violation of SUB 1. -/
def badFlit (f : Flit) : Bool :=
  f.reserved || decide (2 < f.ftype) || (f.ftype = 2 && !f.retrain) ||
  (f.ftype = 1 && (decide (4 < f.cls) || f.len = 0 || decide (256 < f.len))) || (f.ftype = 0 && f.len != 0)

/-- A flit is discarded: trailers carry NAK until the expected one arrives (R400).
(DEDUCED, unsafe: notes/assumptions/29.md) -/
def State.discardFlit (s : State) (k : Nat) : State := s.updPort k fun p => { p with nak := true }

/-- A message flit in sequence is accepted where its class has room (R400, R403, Table 13-8).
(DEDUCED, unsafe: notes/assumptions/15.md) -/
def State.takeMessageFlit (s : State) (k : Nat) (f : Flit) : State :=
  let p := s.port k
  if f.seq != p.rxNext then s.discardFlit k
  else if rxBuffer.getD f.cls 0 ≤ p.rxHeld.getD f.cls 0 then (s.discardFlit k).peerViolation k 2
  else
    (s.takeTrailer k f).updPort k fun p =>
      { p with rxNext := (f.seq + 1) % 4096, rxLast := some f.seq, nak := false,
               rxHeld := p.rxHeld.set f.cls (p.rxHeld.getD f.cls 0 + 1) }

/-- FLIT_RECEIVE.
(DEDUCED, safe: notes/assumptions/61.md) -/
def execFlitReceive (port : Fin 3) (f : Flit) (s : State) : Host.Outcome State Fault Refusal :=
  .next <|
    if !s.mainOn || !s.linkUp port then s
    else if !f.crcOk then (s.addSat (gdnReg Reg.GDN_CRCCNT port) 0 32 1).discardFlit port
    else if badFlit f then (s.discardFlit port).peerViolation port 1
    else if f.ftype = 2 then s.retrain port
    else ((if f.ftype = 0 then s.takeTrailer port f else s.takeMessageFlit port f)).pumpPort port

/-- ACK_TIMEOUT: 20 µs have passed in which flits are unacknowledged and ACK has not advanced (R401). -/
def execAckTimeout (port : Fin 3) (s : State) : Host.Outcome State Fault Refusal :=
  .next <|
    if !s.mainOn || !s.linkUp port || (s.port port).replay.isEmpty then s
    else
      let s := (s.updPort port fun p => { p with stalls := p.stalls + 1 }).resend port
      if 3 ≤ (s.port port).stalls then (s.retrain port).updPort port fun p => { p with stalls := 0 } else s

/-! ### The port's control register (Table 13-9) -/

/-- A write of `GDN_CTRL`. -/
def State.writeGdnCtrl (s : State) (k : Nat) (v : Word) : State :=
  let r := gdnReg Reg.GDN_CTRL k
  let was := s.bit r 0
  let en := wordField v 0 1 = 1
  let s := s.setBit r 0 en
  let s :=
    if en && !was then (s.setLink k 1).updPort k fun p => { p with step := .lock }
    else if !en && was then
      let now := s.now
      let up := s.linkUp k
      let s := (s.setLink k 0).setBit (gdnReg Reg.GDN_STAT k) 5 false
      let s := s.setReg (gdnReg Reg.GDN_LANE k) 0
      s.updPort k fun p =>
        { idlePort with peerVariant := p.peerVariant, peerIncarn := p.peerIncarn, leftActive := if up then now else p.leftActive }
    else s
  if wordField v 1 1 = 1 then s.retrain k else s

/-- GDN_ENABLE: `GDN_CTRL` is written for its EN. -/
def execGdnEnable (i : Iface) (port : Fin 3) (v : Word) (s : State) : Host.Outcome State Fault Refusal :=
  .next <| if s.served i then s.writeGdnCtrl port v else s

/-- GDN_RETRAIN: `GDN_CTRL` is written with RETRAIN 1. -/
def execGdnRetrain (i : Iface) (port : Fin 3) (v : Word) (s : State) : Host.Outcome State Fault Refusal :=
  .next <| if s.served i then s.writeGdnCtrl port (v ||| 2) else s

/-! ### Training -/

/-- Training is at a step: in LOCK, DESKEW and PARAM, and in RETRAIN and DOWN, which run the three again. -/
def State.training (s : State) (k : Nat) (t : TrainStep) : Bool :=
  s.mainOn && [1, 2, 3, 5, 6].contains (s.linkState k) && (s.port k).step = t

/-- Training goes to a step; outside RETRAIN and DOWN the port's state shows it. -/
def State.toStep (s : State) (k : Nat) (t : TrainStep) : State :=
  let s := s.updPort k fun p => { p with step := t }
  if s.linkState k < 4 then s.setLink k (match t with
    | .lock => 1
    | .deskew => 2
    | .param => 3) else s

/-- BLOCK_LOCK_ACQUIRED: all four lanes hold block lock. -/
def execBlockLockAcquired (port : Fin 3) (s : State) : Host.Outcome State Fault Refusal :=
  .next <|
    if s.training port .lock then (s.setFld (gdnReg Reg.GDN_LANE port) 0 4 15).toStep port .deskew else s

/-- DESKEW_DONE: markers align on all lanes; what was corrected is shown. -/
def execDeskewDone (port : Fin 3) (skew : Fin 9) (reversed : Bool) (polarity : BitVec 4) (s : State) :
    Host.Outcome State Fault Refusal :=
  .next <|
    if s.training port .deskew then
      let r := gdnReg Reg.GDN_LANE port
      (((s.setFld r 16 4 skew).setBit r 12 reversed).setFld r 8 4 polarity.toNat).toStep port .param
    else s

/-- The checks of R406.
(DEDUCED, unsafe: notes/assumptions/67.md) -/
def State.paramOk (s : State) (k : Nat) (p : ParamFlit) : Bool :=
  let c := s.chipOn k
  p.chip = c && p.port = 2 - k && p.version = 1 && (p.variant = 1 || p.variant = 2) &&
  !(s.bit Reg.GDN_STOOK (8 + c) && keyGetD s.lostIncarn c 0 = p.incarnation) &&
  !(bitOf p.lostMask s.chip && p.lostIncarn.getD s.chip 0 = (s.reg Reg.GDN_INCARN).toNat)

/-- Both ends have passed: the port is ACTIVE. After a retrain with the same peer it resends from the peer's ACK + 1 and takes its
credits from the peer's counts; otherwise everything starts afresh.
(DEDUCED, unsafe: notes/assumptions/29.md) -/
def State.goActive (s : State) (k : Nat) (f : ParamFlit) : State :=
  let c := s.chipOn k
  let p := s.port k
  let again := p.retraining && p.peerIncarn = f.incarnation
  let left := ackedTo f.ack p.replay
  let credits := (List.range 5).map fun i => p.credits.getD i 0 + (f.freed.getD i 0 % 256 + 256 - p.creditSeen.getD i 0 % 256) % 256
  let p' :=
    if again then { p with replay := left.map fun x => { x with resent := 0 }, credits := credits,
                           creditSeen := (List.range 5).map fun i => f.freed.getD i 0 % 256 }
    else { idlePort with txQueue := p.txQueue }
  let p' := { p' with step := .lock, attempts := 0, retraining := false, stalls := 0, nakSeen := none, leftActive := p.leftActive,
                      peerVariant := f.variant, peerIncarn := f.incarnation }
  let r := gdnReg Reg.GDN_STAT k
  let s := if again then s.addSat (gdnReg Reg.GDN_REPLAYCNT k) 0 32 left.length else s
  let s := ((s.updPort k fun _ => p').setBit r 5 true).setFld r 6 2 c
  let s := (s.setBit Reg.GDN_STOOK (8 + c) false).setLink k 4
  let s := if p.retraining then s.raise .gdn r 8 else s
  s.pumpPort k

/-- A PARAM check fails: the port is REFUSED. -/
def State.refuseLink (s : State) (k : Nat) (f : ParamFlit) : State :=
  let s := (s.setLink k 7).updPort k fun p => { p with peerIncarn := f.incarnation, retraining := false }
  (s.raise .gdn (gdnReg Reg.GDN_STAT k) 10).peerViolation k 6

/-- PARAM_RECEIVE; a port that was REFUSED looks again when the peer presents a new incarnation.
(DEDUCED, unsafe: notes/assumptions/29.md) -/
def execParamReceive (port : Fin 3) (p : ParamFlit) (s : State) : Host.Outcome State Fault Refusal :=
  .next <|
    if s.training port .param || (s.mainOn && s.linkState port = 7 && (s.port port).peerIncarn != p.incarnation) then
      if s.paramOk port p then s.goActive port p else s.refuseLink port p
    else s

/-- TRAINING_LIMIT: a step has passed its limit, and training starts again; the eighth failed attempt of a retrain takes the port
DOWN (R405, R408). -/
def execTrainingLimit (port : Fin 3) (s : State) : Host.Outcome State Fault Refusal :=
  .next <|
    if !s.mainOn || !(([1, 2, 3, 5, 6] : List Nat).contains (s.linkState port)) then s
    else
      let s := s.toStep port .lock
      if s.linkState port = 5 then
        let s := s.updPort port fun p => { p with attempts := p.attempts + 1 }
        if 8 ≤ (s.port port).attempts then (s.setLink port 6).raise .gdn (gdnReg Reg.GDN_STAT port) 9 else s
      else s

/-- LANE_LOCK_LOSS. -/
def execLaneLockLoss (port : Fin 3) (lane : Fin 4) (s : State) : Host.Outcome State Fault Refusal :=
  .next <| if s.portOn port then (s.setBit (gdnReg Reg.GDN_LANE port) lane false).retrain port else s

/-- MARKER_ERROR. -/
def execMarkerError (port : Fin 3) (s : State) : Host.Outcome State Fault Refusal :=
  .next <| if s.portOn port then (s.addSat (gdnReg Reg.GDN_MARKERCNT port) 0 32 1).retrain port else s

/-- PEER_LOSS_TIMEOUT: a port that has been ACTIVE has been out of it for LOSSMS (R408, R419).
(DEDUCED, unsafe: notes/assumptions/29.md) -/
def execPeerLossTimeout (port : Fin 3) (s : State) : Host.Outcome State Fault Refusal :=
  .next <|
    if !s.mainOn || s.linkUp port || (s.port port).peerVariant = 0 || s.bit Reg.GDN_STOOK (8 + s.chipOn port) then s
    else
      let s := s.reach ((s.port port).leftActive + 1000 * s.fld Reg.GDN_LOSS 0 8)
      let s := if s.linkState port = 5 then (s.setLink port 6).raise .gdn (gdnReg Reg.GDN_STAT port) 9 else s
      s.declareLost (s.chipOn port)

end Sys2Proof.Machine
end

