-- ==== Sys2Proof/Machine/Domain.lean ====
section
/-!
DEFINITION. Machine/Domain.lean: the always-on domain and the resets (chapter 17): the always-on store with its journal and counter
(R507 to R511), the flash and the counter floor (R517, R532), the power states (R495 to R503), the reset kinds (R512 to R514), the restarts of
control cores (R352, R353), and the keep cell (R504 to R506).
-/
namespace Sys2Proof.Machine

/-! ### The always-on store (R507, R508) -/

/-- Change the always-on domain. -/
def State.updAon (s : State) (f : AonState → AonState) : State := { s with aon := f s.aon }

/-- An empty store. -/
def emptyStore : StoreData := ⟨[], 0, 0, noSlots, noSlots⟩

/-- Of two copies the one with the higher update number. -/
def newerCopy (a b : StoreCopy) : StoreCopy := if a.number < b.number then b else a

/-- The valid copy with the higher update number. -/
def AonState.best (a : AonState) : Option StoreCopy :=
  (a.copies.filter (·.valid)).foldl (fun (o : Option StoreCopy) c => some (match o with
    | none => c
    | some d => newerCopy d c)) none

/-- The contents of the store. -/
def State.store (s : State) : StoreData := match s.aon.best with
  | some c => c.data
  | none => emptyStore

/-- An update writes the copy with the lower update number. -/
def putCopy (c : StoreCopy) : List StoreCopy → List StoreCopy
  | [a, b] => if a.number ≤ b.number then [c, b] else [a, c]
  | l => c :: l.drop 1

/-- The four words of a journal entry. -/
def JrnlEntry.words (e : JrnlEntry) : List Word :=
  [BitVec.ofNat 32 (e.code % 256 + 256 * (e.arg1 % 256) + 65536 * (e.arg2 % 65536)), BitVec.ofNat 32 e.incarn, BitVec.ofNat 32 e.ms,
   BitVec.ofNat 32 e.detail]

/-- The entry in a slot of the ring: entry number `n` whenever `n mod 64` is the slot. -/
def StoreData.slot (d : StoreData) (i : Nat) : Option JrnlEntry :=
  let first := d.written - d.entries.length
  (d.entries.zipIdx.find? fun e => (first + e.2) % 64 = i).map Prod.fst

/-- The GLOBAL registers show the store. -/
def State.showStore (s : State) : State :=
  let d := s.store
  let s := s.setReg64 Reg.GLOBAL_MONO_LO (d.mono % 2 ^ 64)
  (List.range 64).foldl (fun (s : State) i => s.setRegs (Reg.GLOBAL_JRNL + 16 * i) (match d.slot i with
    | some e => e.words
    | none => [0, 0, 0, 0])) s

/-- Update the store. -/
def State.putStore (s : State) (d : StoreData) : State :=
  let n := (s.aon.copies.map (·.number)).foldl max 0
  (s.updAon fun a => { a with copies := putCopy ⟨n + 1, true, d⟩ a.copies }).showStore

/-- Milliseconds since the always-on domain last started; the count stops while it runs from the keep cell. -/
def State.aonMs (s : State) : Nat := (s.aon.onCell.getD s.now - s.aon.startedAt) / 1000

/-- Write a journal entry (Table 17-8): a full ring loses its oldest. -/
def State.journal (s : State) (code arg1 arg2 detail : Nat) : State :=
  if !s.aon.running then s
  else
    let d := s.store
    let e : JrnlEntry := ⟨code, arg1, arg2, d.mono % 2 ^ 32, s.aonMs % 2 ^ 32, detail % 2 ^ 32⟩
    let l := d.entries ++ [e]
    s.putStore { d with entries := l.drop (l.length - 64), written := d.written + 1 }

/-! ### The flash (R517) and the counter floor (R532) -/

/-- Bytes of the flash. -/
def State.flashRead (s : State) (off n : Nat) : List Byte := (cellRead s.nv.flash off n).map (· ^^^ 0xFF)

/-- Erase a range of the flash. -/
def State.flashErase (s : State) (off n : Nat) : State :=
  { s with nv := { s.nv with flash := s.nv.flash.filter fun c => !inRange c.1 off n } }

/-- Program bytes into erased flash. -/
def State.flashWrite (s : State) (off : Nat) (bs : List Byte) : State :=
  { s with nv := { s.nv with flash := cellSetMany s.nv.flash off (bs.map (· ^^^ 0xFF)) } }

/-- Where a floor sector lies. -/
def floorSector (i : Nat) : Nat := 0x8_0000 + 0x1000 * i

/-- SEQ and F of a valid floor sector. -/
def State.floorIn (s : State) (i : Nat) : Option (Nat × Nat) :=
  let b := s.flashRead (floorSector i) 20
  if leAt b 0 4 = 0x524C4654 && leAt b 16 4 = (crc32 (b.take 16)).toNat then some (leAt b 4 4, leAt b 8 8) else none

/-- The sector in force, its SEQ and its floor. -/
def State.floorAt (s : State) : Option (Nat × Nat × Nat) :=
  match s.floorIn 0, s.floorIn 1 with
  | some a, some b => if a.1 < b.1 then some (1, b) else some (0, a)
  | some a, none => some (0, a)
  | none, some b => some (1, b)
  | none, none => none

/-- The floor in force. -/
def State.floor (s : State) : Nat := match s.floorAt with
  | some x => x.2.2
  | none => 0

/-- The bytes of a floor sector. -/
def floorBytes (seq f : Nat) : List Byte :=
  let b := leBytes 4 0x524C4654 ++ leBytes 4 seq ++ leBytes 8 f
  b ++ leBytes 4 (crc32 b).toNat

/-- CC0 raises the floor by 65,536 in the other sector, and journals it. -/
def State.raiseFloor (s : State) : State :=
  let (i, seq) := match s.floorAt with
    | some x => (1 - x.1, x.2.1 + 1)
    | none => (0, 1)
  let f := s.floor + 65536
  let s := (s.flashErase (floorSector i) 4096).flashWrite (floorSector i) (floorBytes seq f)
  s.journal 0x0E 0 0 f

/-- The flash can be programmed. -/
def State.flashUsable (s : State) : Bool := s.nv.fitted = 0

/-- The monotonic counter advances and a new incarnation is drawn (R509). A store that was discarded starts again at the floor. A floor
that cannot be written leaves the counter, with ERR 2.
(DEDUCED, unsafe: notes/assumptions/31.md) -/
def State.advanceCounter (s : State) : State :=
  let lost := s.store.mono = 0
  let f := s.floor
  let need := lost || decide (f ≤ s.store.mono + 1)
  if need && !s.flashUsable then s.setFld Reg.NVC_BOOTSTAT 0 8 2
  else
    let s := if need then s.raiseFloor else s
    let mono := (if lost then f else s.store.mono) + 1
    let s := s.putStore { s.store with mono := mono }
    s.setReg Reg.GDN_INCARN (BitVec.ofNat 32 mono)

/-! ### Reset of the main domain (R512) -/

/-- Registers, with the bits of each, that a reset of the main domain keeps: what lies in the always-on domain, and fuses. -/
def keptRegs : List (Nat × Word) :=
  let whole := fun (r n : Nat) => (List.range n).map fun i => (r + 4 * i, (0xFFFFFFFF : Word))
  whole Reg.GLOBAL_IDCODE 6 ++ whole Reg.GLOBAL_VOP 8 ++ [(Reg.GLOBAL_PWRSTAT, 0xFFFFFFFE), (Reg.GLOBAL_KEEPSTAT, 0x1C000000)] ++
  whole Reg.GLOBAL_MONO_LO 2 ++ whole Reg.GLOBAL_JRNL 256 ++ [(Reg.MEMCH_CFG, 3)] ++ whole Reg.PWR_CAPLIM 1 ++ [(Reg.PWR_STAT, 4)] ++
  whole Reg.GDN_STOOK 1 ++ whole Reg.GDN_INCARN 1 ++ whole Reg.SEC_VENDHASH 8 ++ whole Reg.SEC_OWNHASH 8

/-- The registers after a reset of the main domain.
(DEDUCED, unsafe: notes/assumptions/65.md) -/
def State.resetRegs (s : State) : Cells 32 :=
  keptRegs.foldl (fun (c : Cells 32) x => cellSet c x.1 ((s.reg x.1 &&& x.2) ||| (cellGet c x.1 &&& ~~~x.2))) resetRegCells

/-- The owner's hash has been burnt. -/
def State.owned (s : State) : Bool := (List.range 8).any fun i => s.reg (Reg.SEC_OWNHASH + 4 * i) != 0

/-- The main domain is reset: everything in it is as after reset, and what T0 and T1 held is gone. The always-on domain, the flash, the test
access port and host memory stay.
(DESIGN CHOICE, unsafe: notes/assumptions/8.md; DEDUCED, unsafe: notes/assumptions/65.md) -/
def State.mainReset (s : State) : State :=
  let t : State := { State.reset with
    pending := s.pending, free := s.free, now := s.now, regs := s.resetRegs, host := s.host, hostErrs := s.hostErrs,
    aon := s.aon,
    nv := { idleNv with fitted := s.nv.fitted, size := s.nv.size, flash := s.nv.flash }, jtag := s.jtag, sent := s.sent }
  (t.setFld Reg.GDN_STOOK 4 8 0).setFld Reg.SEC_STAT 0 2 (if s.owned then 1 else 0)

/-! ### Entering OFF and POWERDOWN (R499 to R503) -/

/-- The engine is OFF: the minimum off time begins. -/
def State.enterOff (s : State) : State :=
  { s.mainReset with jtag := idleJtag }.updAon fun a => { a with phase := .off, phaseAt := s.now, offAt := s.now, held := false, tripDue := none }

/-- The event that led to OFF (Table 17-11).
(DEDUCED, unsafe: notes/assumptions/32.md) -/
def State.setLastOff (s : State) (code : Nat) : State := s.setFld Reg.GLOBAL_PWRSTAT 8 4 code

/-- An NVC operation is interrupted (R531): its slot stays in progress in the journal. -/
def State.interruptUpdate (s : State) : State :=
  if s.nv.update.isNone && s.nv.goHeld.isNone then s
  else
    let s := { s with nv := { s.nv with update := none, goHeld := none } }
    ((s.setBit Reg.NVC_UPDCTRL 30 false).setFld Reg.NVC_UPDSTAT 8 8 4).raise .nvc Reg.NVC_UPDSTAT 1

/-- Moves in flight stop as R91 states: what is Committing runs on.
(DEDUCED, unsafe: notes/assumptions/65.md) -/
def State.stopAllMoves (s : State) : State :=
  let gone := fun (m : Nat × Move) => m.2.state != .committing
  let s := (s.moves.filter gone).foldl (fun (s : State) m => s.showMove m.1 m.2.desc.owner m.2.fallow .failed) s
  { s with moves := s.moves.filter fun m => !gone m }

/-- Slices stop and no further edge falls. -/
def State.stopWork (s : State) : State :=
  let s := ((s.setBit Reg.TICK_STAT 0 false).setBit Reg.TICK_STAT 1 false).setBit Reg.CART_STAT 16 false
  let s := { s with tick := { s.tick with phase := .stopped } }
  (List.range 33).foldl (fun (s : State) e =>
    if (s.eng e).running then (s.updEng e fun g => { g with running := false, waiting := none }).setBusy e false else s) s

/-- LEAVE goes out on every ACTIVE port (R420). -/
def State.sendLeave (s : State) : State :=
  (List.range 3).foldl (fun (s : State) k => if s.linkUp k then s.peerMsg (s.chipOn k) 4 0x40 [] 1 else s) s

/-- POWERDOWN begins, with its journal code (R500).
(DEDUCED, unsafe: notes/assumptions/65.md) -/
def State.powerDown (s : State) (code arg1 arg2 : Nat) : State :=
  let s := (s.journal code arg1 arg2 0).sendLeave
  let s := ((s.stopWork.stopAllMoves).beginRamp).interruptUpdate
  s.updAon fun a => { a with phase := .powerdown, phaseAt := s.now }

/-- A thermal trip (R364, R497): answered in ON, at READY during POWERUP-B. -/
def State.thermalTrip (s : State) (sensor reading : Nat) : State :=
  match s.aon.phase with
  | .on =>
    let s := s.raise .pwr Reg.PWR_STAT 2
    (s.updAon fun a => { a with tripHold := true }).powerDown 0x04 sensor reading
  | .powerupB => if s.aon.held then s else s.updAon fun a => { a with tripHold := true, tripDue := some (sensor, reading) }
  | .off | .powerupA | .powerdown => s

/-- POWERDOWN_OFF: power-down ends: the store is updated, and the main domain isolated and reset (Table 17-5). -/
def execPowerdownOff (s : State) : Host.Outcome State Fault Refusal :=
  .next <|
    if s.aon.phase = .powerdown then
      let s := s.reach (s.aon.phaseAt + 5200)
      let code := match s.store.entries.reverse.find? fun e => e.code = 3 || e.code = 4 with
        | some e => e.code
        | none => 0
      (s.enterOff.setLastOff code).putStore s.store
    else s

/-- Supply loss (R503), with what was lost: 1 PGOOD_IN, 2 VDD_AON. -/
def State.supplyLost (s : State) (what : Nat) : State :=
  if s.aon.phase = .off then s
  else (s.enterOff.setLastOff 5).journal 0x05 what 0 0

/-- SUPPLY_LOSS. -/
def execSupplyLoss (aonToo : Bool) (s : State) : Host.Outcome State Fault Refusal :=
  .next <|
    if !s.aon.running || s.aon.phase = .off then s
    else if aonToo then s.supplyLost 2
    else
      let s := (s.supplyLost 1).setBit Reg.GLOBAL_PWRSTAT 2 false
      s.updAon fun a => { a with pgood := false }

/-! ### Requests and power-up (R495 to R498) -/

/-- ON_REQ_CHANGE: the latch takes the level, and is read where Table 17-3 says.
(DEDUCED, unsafe: notes/assumptions/32.md) -/
def execOnReqChange (level : Bool) (s : State) : Host.Outcome State Fault Refusal :=
  .next <|
    if !s.aon.running then s
    else
      let s := (s.setBit Reg.GLOBAL_PWRSTAT 1 level).updAon fun a =>
        { a with latch := level, tripHold := if level then a.tripHold else false }
      if level then s
      else match s.aon.phase with
        | .on => s.powerDown 0x03 0 0
        | .powerupA => s.enterOff
        | .off | .powerupB | .powerdown => s

/-- POWERUP_START: the minimum off time has passed with on latched and PGOOD_IN high. -/
def execPowerupStart (s : State) : Host.Outcome State Fault Refusal :=
  .next <|
    if s.aon.running && s.aon.onCell.isNone && s.aon.phase = .off && s.aon.latch && !s.aon.tripHold then
      let s := (s.reach (s.aon.offAt + 20000)).setBit Reg.GLOBAL_PWRSTAT 2 true
      s.updAon fun a => { a with pgood := true, phase := .powerupA, phaseAt := s.now }
    else s

/-- Show whether a core runs (Table 21-4). -/
def State.showCore (s : State) (c : Nat) (run restarting : Bool) : State :=
  let r := Reg.CCMB_CORESTAT + 4 * c
  (s.setBit r 0 run).setBit r 1 restarting

/-- The release step (R498): the pins are sampled, reset is deasserted, and CC0 runs its boot code. -/
def State.release (s : State) (pins : BootPins) : State :=
  let s := s.mainReset
  let s := s.updAon fun a =>
    { a with phase := .powerupB, held := false, resetN := true, releaseAt := s.now, pins := (pins.bootSel.toNat, pins.chipId.val) }
  let s := (s.setFld Reg.GDN_STOOK 0 2 pins.chipId).setFld Reg.NVC_BOOTSTAT 16 2 pins.bootSel.toNat
  let s := (s.showCore 0 true false).advanceCounter
  s.journal 0x01 (pins.bootSel.toNat * 4 + pins.chipId.val) 0 0

/-- RELEASE_STEP: in POWERUP-A, or where a system reset holds the engine there; RESET_N is high.
(DEDUCED, safe: notes/assumptions/4.md) -/
def execReleaseStep (pins : BootPins) (s : State) : Host.Outcome State Fault Refusal :=
  .next <|
    if s.aon.phase = .powerupA then (s.reach (s.aon.phaseAt + 200)).release pins
    else if s.aon.phase = .powerupB && s.aon.held then (s.reach (s.aon.phaseAt + 100)).release pins
    else s

/-! ### System reset (R513) -/

/-- A system reset, with its journal ARG1: the engine is held at the release step. -/
def State.systemReset (s : State) (why : Nat) : State :=
  if s.mainOn && s.aon.phase != .powerdown then
    (s.mainReset.updAon fun a => { a with phase := .powerupB, phaseAt := s.now, held := true, tripDue := none }).journal 0x06 why 0 0
  else s

/-- SYSTEM_RESET. -/
def execSystemReset (why : SysResetCause) (s : State) : Host.Outcome State Fault Refusal :=
  .next <| s.systemReset (match why with
    | .request => 2
    | .escalation => 3)

/-- RESET_N_ASSERT: RESET_N has been low for 1 µs. -/
def execResetNAssert (s : State) : Host.Outcome State Fault Refusal :=
  .next <| if s.aon.running then (s.systemReset 1).updAon fun a => { a with resetN := false } else s

/-! ### The effective cap (R377) -/

/-- CC4 is absent while it restarts. -/
def State.cc4Absent (s : State) : Bool := s.restarting.contains 4

/-- The share that a member of a stook budget uses (R390). -/
def State.shareInForce (s : State) : Nat :=
  if s.power.shareAt.isSome then s.fld Reg.PWR_SHAREMW 0 16 else s.fld Reg.PWR_STOOKCAPMW 0 17 / 4

/-- Of two candidates for the cap, with what sets each, the lower; the first where they are equal.
(DEDUCED, unsafe: notes/assumptions/34.md) -/
def lowerCap (a b : Nat × Nat) : Nat × Nat := if b.1 < a.1 then b else a

/-- The effective cap without the stook share. -/
def State.ownCap (s : State) : Nat × Nat :=
  let c := (s.fld Reg.PWR_CAPMW 0 16, 0)
  let c := match s.power.thermalCap with
    | some t => lowerCap c (t, 1)
    | none => c
  if s.cc4Absent && !s.power.hot.isEmpty then lowerCap c (s.fld Reg.PWR_CAPLIM 0 16, 3) else c

/-- The effective cap, with what sets it.
(DEDUCED, unsafe: notes/assumptions/34.md) -/
def State.effCap (s : State) : Nat × Nat := if bitOf s.power.stook 0 then lowerCap s.ownCap (s.shareInForce, 2) else s.ownCap

/-- Show the effective cap. -/
def State.showCap (s : State) : State :=
  let c := s.effCap
  (s.setFld Reg.PWR_CAPEFF 0 16 (satNat 16 c.1)).setFld Reg.PWR_CAPEFF 16 2 c.2

/-! ### Control cores (R352, R353, R514) -/

/-- A core is away (Table 11-7). -/
def State.coreAway (s : State) (c : Nat) : State :=
  let s := { s with restarting := addMember s.restarting c }
  let s := ((s.showCore c false true).addSat (Reg.CCMB_CORESTAT + 4 * c) 16 16 1).logError 6 c
  if c = 4 then (s.setBit Reg.PWR_STAT 17 true).showCap
  else if c = 5 then s.beginRamp
  else s

/-- A firmware reset (R514): all six cores restart, the counter advances, and the journal has its cause. One that follows another within
10 s is a system reset.
(DEDUCED, unsafe: notes/assumptions/65.md) -/
def State.firmwareReset (s : State) (why core : Nat) : State :=
  if !s.mainOn || s.aon.phase = .powerdown then s
  else if match s.firmwareAt with
      | some t => decide (s.now < t + 10_000_000)
      | none => false then s.systemReset 3
  else
    let s := (List.range 6).foldl (fun (s : State) c => s.coreAway c) s.interruptUpdate
    ({ s with firmwareAt := some s.now, firstRestart := [] }.advanceCounter).journal 0x07 why core 0

/-- CONTROL_CORE_RESTART: the second within 1 s of the first is a firmware reset.
(DEDUCED, unsafe: notes/assumptions/65.md) -/
def execControlCoreRestart (core : Fin 6) (s : State) : Host.Outcome State Fault Refusal :=
  .next <|
    if !s.coreUp core then s
    else if match keyGet s.firstRestart core.val with
        | some t => decide (s.now < t + 1_000_000)
        | none => false then s.firmwareReset 1 core
    else { s with firstRestart := keyPut s.firstRestart core.val s.now }.coreAway core

/-- CC3_RELEASE_OVERRUN (R353). -/
def execCc3ReleaseOverrun (s : State) : Host.Outcome State Fault Refusal :=
  .next <| if s.coreUp 3 then s.firmwareReset 2 0 else s

/-- FIRMWARE_RESET: requested through a register, or an escalation by a second restart. -/
def execFirmwareReset (why : FwResetCause) (s : State) : Host.Outcome State Fault Refusal :=
  .next <| s.firmwareReset (match why with
    | .request => 3
    | .escalation => 1) 0

/-- Requests that CC1 had fetched and that were not yet acting end (Table 11-7). -/
def State.endWaiting (s : State) : State :=
  (List.range 16).foldl (fun (s : State) q =>
    ((s.queue q).reqs.filter fun r => !r.replay && (r.state = .waiting || r.state = .due)).foldl (fun (s : State) r =>
      s.settle q r.tag 7 3 0 r.stream) s) s

/-! ### The always-on supply (R490, R510, R562) -/

/-- AON_TO_KEEP: VDD_AON is below 0.72 V. The main domain has been lost with it; a cell below 1.00 V does not hold the domain. -/
def execAonToKeep (keepMv : Nat) (s : State) : Host.Outcome State Fault Refusal :=
  .next <|
    if !s.aon.running || s.aon.onCell.isSome then s
    else
      let s := s.supplyLost 2
      if keepMv < 1000 then s.updAon fun a => { a with running := false }
      else
        let s := (s.setBit Reg.GLOBAL_PWRSTAT 3 true).updAon fun a => { a with onCell := some s.now }
        s.journal 0x08 0 0 keepMv

/-- RETENTION_SENTINEL_SET: the always-on rail is below 0.62 V, which it can be only without VDD_AON.
(DEDUCED, unsafe: notes/assumptions/31.md) -/
def execRetentionSentinelSet (s : State) : Host.Outcome State Fault Refusal :=
  .next <|
    if s.aon.running && s.aon.onCell.isNone then s
    else s.updAon fun a => { a with sentinel := true, running := false }

/-- The store is kept: the journal says so where the domain ran from the cell. KEEP_P at that moment is a free value.
(DESIGN CHOICE, safe: notes/assumptions/3.md) -/
def State.keepStore (s : State) : State :=
  let (v, s) := if s.aon.onCell.isSome then s.draw else (0, s)
  let was := s.aon.onCell.isSome
  let s := s.updAon fun a => { a with running := true, sentinel := false, onCell := none, startedAt := s.now }
  let s := s.setBit Reg.GLOBAL_PWRSTAT 4 false
  if was then s.journal 0x09 0 0 (v % 4096) else s.showStore

/-- The store is discarded: the emptied journal holds the loss, and the counter will start again from the floor.
(DEDUCED, unsafe: notes/assumptions/31.md) -/
def State.dropStore (s : State) (why : Nat) : State :=
  let s := s.updAon fun a => { a with
    running := true, onCell := none, startedAt := s.now, copies := [⟨1, true, emptyStore⟩, ⟨0, false, emptyStore⟩] }
  ((s.setBit Reg.GLOBAL_PWRSTAT 4 true).setLastOff 0).journal 0x0A why 0 0

/-- AON_START: VDD_AON first rises, or returns after the domain has run from the keep cell; the minimum off time runs from here.
(DEDUCED, unsafe: notes/assumptions/31.md; DEDUCED, unsafe: notes/assumptions/32.md) -/
def execAonStart (s : State) : Host.Outcome State Fault Refusal :=
  .next <|
    if s.aon.running && s.aon.onCell.isNone then s
    else
      let s := if s.aon.phase = .off then s else s.enterOff
      let s := if s.aon.sentinel then s.dropStore 1 else if s.aon.best.isNone then s.dropStore 2 else s.keepStore
      s.updAon fun a => { a with offAt := s.now }

/-! ### The keep cell (R504 to R506) -/

/-- Change the charger. -/
def State.updKeep (s : State) (f : KeepState → KeepState) : State := s.updAon fun a => { a with keep := f a.keep }

/-- The charge target of a type, in mV. -/
def keepTarget (type : Nat) : Nat := if type = 1 then 1600 else 1550

/-- TYPE names a cell, and the state is POWERUP-B or ON. -/
def State.keepFitted (s : State) : Bool :=
  let t := s.fld Reg.GLOBAL_KEEPCFG 0 2
  (t = 1 || t = 2) && s.mainOn && s.aon.phase != .powerdown

/-- The charger may run (R505). -/
def State.keepMay (s : State) : Bool :=
  s.keepFitted && s.bit Reg.GLOBAL_KEEPCFG 4 && s.bit Reg.GLOBAL_KEEPSTAT 31 && !s.aon.keep.faulted

/-- The charger stops. -/
def State.keepStop (s : State) : State :=
  ((s.setBit Reg.GLOBAL_KEEPSTAT 30 false).setBit Reg.GLOBAL_KEEPSTAT 29 false).updKeep fun k => { k with last := none, peak := 0, flat := 0 }

/-- The cell has been removed.
(DEDUCED, unsafe: notes/assumptions/33.md) -/
def State.keepRemoved (s : State) (detail : Nat) : State :=
  let s := (s.keepStop.setBit Reg.GLOBAL_KEEPSTAT 31 false).setBit Reg.GLOBAL_KEEPSTAT 28 true
  (s.updKeep fun k => { k with changed := true }).journal 0x0B 0 0 detail

/-- Two voltages in DETAIL, in an order that the manual leaves open.
(DESIGN CHOICE, safe: notes/assumptions/3.md) -/
def State.twoVolts (s : State) (a b : Nat) : Nat × State :=
  let (v, s) := s.draw
  (if v % 2 = 0 then a % 65536 + 65536 * (b % 65536) else b % 65536 + 65536 * (a % 65536), s)

/-- One sample while the charger runs (Table 17-7).
(DEDUCED, unsafe: notes/assumptions/33.md) -/
def State.keepCharge (s : State) (mv : Nat) (i : Int) : State :=
  let target := keepTarget (s.fld Reg.GLOBAL_KEEPCFG 0 2)
  let float := s.bit Reg.GLOBAL_KEEPSTAT 29
  let k := s.aon.keep
  let removed := match k.last with
    | some (v, j) => !float && (v + 100 ≤ mv || mv + 100 ≤ v) && (decide (4 * i < j) || decide (i < 5))
    | none => false
  if removed then
    let (d, s) := s.twoVolts (match k.last with
      | some x => x.1
      | none => 0) mv
    s.keepRemoved d
  else
    let rose := decide (k.peak + 1 ≤ mv)
    let flat := if rose || float then 0 else k.flat + 1
    let s := (s.setBit Reg.GLOBAL_KEEPSTAT 30 true).setBit Reg.GLOBAL_KEEPSTAT 29 (float || decide (target ≤ mv))
    let s := s.updKeep fun k => { k with last := some (mv, i), peak := max k.peak mv, flat := flat }
    if target + 100 < mv || 600000 ≤ flat then
      ((s.keepStop.setBit Reg.GLOBAL_KEEPSTAT 26 true).updKeep fun k => { k with faulted := true }).journal 0x0D 0 0 0
    else s

/-- KEEP_SAMPLE: KEEP_P in mV and the charge current in µA, every 1 ms. -/
def execKeepSample (mv : Nat) (current : Int) (s : State) : Host.Outcome State Fault Refusal :=
  .next <|
    if !s.mainOn || s.aon.phase = .powerdown then s
    else
      let s := (s.setFld Reg.GLOBAL_KEEPSTAT 0 12 (satNat 12 mv)).setFld Reg.GLOBAL_KEEPSTAT 14 10 (satNat 10 current.toNat)
      if s.keepMay then s.keepCharge mv current else s.keepStop

/-- PRESENCE_PROBE: the rise of KEEP_P in mV; in the float phase and while the cell is absent.
(DESIGN CHOICE, safe: notes/assumptions/3.md; DEDUCED, unsafe: notes/assumptions/33.md) -/
def execPresenceProbe (mv : Nat) (s : State) : Host.Outcome State Fault Refusal :=
  .next <|
    let present := s.bit Reg.GLOBAL_KEEPSTAT 31
    if !s.keepFitted || (present && !s.bit Reg.GLOBAL_KEEPSTAT 29) then s
    else if mv < 20 then
      if present then s
      else
        let again := s.aon.keep.changed
        let s := (s.setBit Reg.GLOBAL_KEEPSTAT 31 true).updKeep fun k => { k with changed := false }
        let s := s.setBit Reg.GLOBAL_KEEPSTAT 30 s.keepMay
        if again then (s.setBit Reg.GLOBAL_KEEPSTAT 27 true).journal 0x0C 0 0 0 else s
    else if present then
      let (v, s) := s.draw
      s.keepRemoved v
    else s

/-- A write of `GLOBAL_KEEPCFG`: a change of TYPE calls for a new probe, and CHGEN ends a latched fault as it goes from 0 to 1.
(DEDUCED, unsafe: notes/assumptions/33.md) -/
def State.keepWritten (s was : State) : State :=
  let r := Reg.GLOBAL_KEEPCFG
  let s := if s.fld r 0 2 = was.fld r 0 2 then s
    else (s.keepStop.setBit Reg.GLOBAL_KEEPSTAT 31 false).updKeep fun k => { k with changed := true }
  if s.bit r 4 && !was.bit r 4 then s.updKeep fun k => { k with faulted := false }
  else if s.bit r 4 then s
  else s.keepStop

end Sys2Proof.Machine
end

