-- ==== Sys2Proof/Machine/Power.lean ====
section
/-!
DEFINITION. Machine/Power.lean: the PWR block and CC4 (chapter 12): sensors (R361 to R364), measured power (R366 to R370), the estimate and its
calibration (R371 to R374), energy (R375), the cap and its sharing (R376 to R384), voltage (R386) and the stook budget (R387 to R390).
-/
namespace Sys2Proof.Machine

/-- Change the power state. -/
def State.updPwr (s : State) (f : PowerState → PowerState) : State := { s with power := f s.power }

/-- A quotient that the manual states without a rounding: the floor, or the floor plus 1 where it is not whole.
(DESIGN CHOICE, safe: notes/assumptions/3.md; DEDUCED, unsafe: notes/assumptions/34.md) -/
def State.divOpen (s : State) (a : Int) (b : Nat) : Int × State :=
  let q := a.fdiv b
  if q * b = a then (q, s) else (let (v, s) := s.draw; (q + (v % 2 : Nat), s))

/-- Such a quotient of a sum that cannot be negative. -/
def State.divOpenNat (s : State) (a b : Nat) : Nat × State := let (q, s) := s.divOpen a b; (q.toNat, s)

/-! ### Sensors -/

/-- A sensor is masked. -/
def State.sensorMasked (s : State) (i : Nat) : Bool := s.bit (Reg.PWR_TSLIM + 4 * i) 24

/-- A reading in 0.25 °C is valid. -/
def readingOk (r : SensorReading) : Option Int :=
  match r with
  | some t => if -220 ≤ t && t ≤ 700 then some t else none
  | none => none

/-- Whether a sensor is within a limit of so many °C after a reading, given whether it was before (R362). -/
def withinLimit (r : Option Int) (limit hyst : Nat) (was : Bool) : Bool :=
  match r with
  | none => true
  | some t => decide ((4 * limit : Int) ≤ t) || (was && decide ((4 * limit : Int) ≤ t + 4 * hyst))

/-- Show a reading (Table 12-18). -/
def State.showReading (s : State) (i : Nat) (r : Option Int) : State :=
  let reg := Reg.PWR_TSVAL + 4 * i
  match r with
  | none => s.setBit reg 31 false
  | some t => (s.setFld reg 0 12 (t % 4096).toNat).setBit reg 31 true

/-- A set of sensors with one entered or left. -/
def setMember (l : List Nat) (i : Nat) (on : Bool) : List Nat := if on then addMember l i else l.filter (· != i)

/-- One sensor is read. -/
def State.readSensor (s : State) (i : Nat) (r : Option Int) : State :=
  let s := s.showReading i r
  let lim := Reg.PWR_TSLIM + 4 * i
  let masked := s.sensorMasked i
  let h := s.fld lim 16 4
  let wasWarn := s.power.warn.contains i
  let wasHot := s.power.hot.contains i
  let warn := !masked && withinLimit r (s.fld lim 0 8) h wasWarn
  let hot := !masked && withinLimit r (s.fld lim 8 8) h wasHot
  let s := s.updPwr fun p => { p with warn := setMember p.warn i warn, hot := setMember p.hot i hot }
  let s := if warn && !wasWarn then (s.raise .pwr Reg.PWR_STAT 0).logError 9 1 else s
  if hot && !wasHot then (s.raise .pwr Reg.PWR_STAT 1).logError 9 2 else s

/-- The hottest valid unmasked sensor among some readings, from sensor `i` on. -/
def State.hottest (s : State) : Nat → List (Option Int) → Option (Nat × Int)
  | _, [] => none
  | i, r :: rs =>
    match (if s.sensorMasked i then none else r), s.hottest (i + 1) rs with
    | some t, some x => if t < x.2 then some x else some (i, t)
    | some t, none => some (i, t)
    | none, x => x

/-- The thermal cap begins at the effective cap where a sensor first enters HOT (R363); CC4 sets it. -/
def State.startDerating (s : State) : State :=
  if s.power.hot.isEmpty || s.power.thermalCap.isSome || s.cc4Absent then s
  else s.updPwr fun p => { p with thermalCap := some (s.fld Reg.PWR_CAPEFF 0 16) }

/-- Sensors whose reading is at or above TRIP. -/
def State.atTrip (s : State) (rs : List (Option Int)) : List Nat :=
  (rs.zipIdx.filter fun x => match x.1 with
    | some t => decide ((4 * s.fld Reg.PWR_TSCFG 0 8 : Int) ≤ t)
    | none => false).map Prod.snd

/-- Every sensor is read. -/
def State.readSensors (s : State) (readings : List SensorReading) : State :=
  let rs := (List.range 24).map fun i => readingOk (readings.getD i none)
  let s := rs.zipIdx.foldl (fun (s : State) x => s.readSensor x.2 x.1) s
  let s := s.setBit Reg.PWR_STAT 16 (!s.power.hot.isEmpty)
  let s := match s.hottest 0 rs with
    | some x => (s.setFld Reg.PWR_TSMAX 16 5 x.1).setFld Reg.PWR_TSMAX 0 12 (x.2 % 4096).toNat
    | none => s
  let s := s.startDerating.showCap
  let now := s.atTrip rs
  let twice := now.find? fun i => s.power.trip.contains i
  let s := s.updPwr fun p => { p with trip := now }
  match twice with
  | some i => s.thermalTrip i (((rs.getD i none).getD 0) % 65536).toNat
  | none => s

/-- SENSOR_READ.
(DEDUCED, safe: notes/assumptions/61.md) -/
def execSensorRead (readings : List SensorReading) (s : State) : Host.Outcome State Fault Refusal :=
  .next <| if s.mainOn then s.readSensors readings else s

/-- THERMAL_DERATE_STEP. -/
def execThermalDerateStep (s : State) : Host.Outcome State Fault Refusal :=
  .next <|
    if !s.coreUp 4 then s
    else match s.power.thermalCap with
      | none => s
      | some c =>
        let next :=
          if !s.power.hot.isEmpty then some (max (s.fld Reg.PWR_CAPLIM 0 16) (c - 250))
          else if s.fld Reg.PWR_CAPMW 0 16 ≤ c + 250 then none
          else some (c + 250)
        (s.updPwr fun p => { p with thermalCap := next }).showCap

/-! ### Measured power -/

/-- A rail's register. -/
def railReg (r : Nat) : Nat := Reg.PWR_RAIL + 4 * r

/-- The enabled rails of some roles. -/
def State.rails (s : State) (roles : List Nat) : List Nat :=
  (List.range 8).filter fun r => s.bit (railReg r) 31 && roles.contains (s.fld (railReg r) 28 3)

/-- A rail is read: a failure is logged and leaves its last good value. -/
def State.readRail (s : State) (r : Nat) (x : RailReading) : State :=
  let good := fun (s : State) (mw : Nat) => s.updPwr fun p =>
    { p with railMw := keyPut p.railMw r mw, railFail := keyDel p.railFail r }
  match x with
  | .pout mw => good s mw
  | .voutIout mv ma => let (mw, s) := s.divOpenNat (mv * ma) 1000; good s mw
  | .failed =>
    ((s.updPwr fun p => { p with railFail := keyPut p.railFail r (keyGetD p.railFail r 0 + 1) }).raise .pwr Reg.PWR_STAT 4).logError 9 4

/-- The period's averages of the estimates, with the pair for the calibration where the measurement is valid. -/
def State.closePeriod (s : State) (mw : Nat) : State :=
  let p := s.power
  let (est, s) := if p.estCount = 0 then (0, s) else s.divOpenNat p.estSum p.estCount
  let (raw, s) := if p.rawCount = 0 then (0, s) else s.divOpenNat p.rawSum p.rawCount
  let pair := if s.bit Reg.PWR_MEAS 31 && p.rawCount != 0 then [(mw, raw)] else []
  s.updPwr fun p => { p with estAvg := est, estSum := 0, estCount := 0, rawSum := 0, rawCount := 0, pairs := p.pairs ++ pair }

/-- A period ends: the measured power is the sum of its rails.
(DEDUCED, unsafe: notes/assumptions/34.md) -/
def State.measure (s : State) (readings : List RailReading) : State :=
  let rails := s.rails [0, 1]
  let s := rails.foldl (fun (s : State) r => s.readRail r (readings.getD r .failed)) s
  let fails := rails.map fun r => keyGetD s.power.railFail r 0
  let mw := (rails.map fun r => keyGetD s.power.railMw r 0).sum
  let s := s.setFld Reg.PWR_MEAS 0 16 (satNat 16 mw)
  let s :=
    if fails.any fun n => 3 ≤ n then
      let new := fails.any (· = 3) && !fails.any (fun n => 3 < n)
      let s := s.setBit Reg.PWR_MEAS 31 false
      if new then (s.raise .pwr Reg.PWR_STAT 3).logError 9 5 else s
    else if !rails.isEmpty && fails.all (· = 0) then s.setBit Reg.PWR_MEAS 31 true
    else s
  s.closePeriod mw

/-- PMBUS_PERIOD.
(DEDUCED, safe: notes/assumptions/61.md) -/
def execPmbusPeriod (readings : List RailReading) (lengthened : Bool) (s : State) : Host.Outcome State Fault Refusal :=
  .next <|
    if !s.coreUp 4 then s
    else
      let s := if lengthened then s.raise .pwr Reg.PWR_STAT 4 else s
      s.measure readings

/-- Send a command to a rail. -/
def State.pmbus (s : State) (r command data : Nat) : State :=
  s.emit (.pmbus (s.fld (railReg r) 0 7) (s.fld (railReg r) 16 8) command data)

/-- PMB_ALERT: every enabled rail's STATUS_WORD is read, logged where it is not 0, and cleared. -/
def execPmbAlert (status : List Word) (s : State) : Host.Outcome State Fault Refusal :=
  .next <|
    if !s.coreUp 4 then s
    else
      let s := (s.rails [0, 1, 2]).foldl (fun (s : State) r =>
        let w := wordField (status.getD r 0) 0 16
        if w = 0 then s else (s.logError 9 6 { detail := w }).pmbus r 0x03 0) s
      s.raise .pwr Reg.PWR_STAT 5

/-! ### Energy (R375) -/

/-- Add nJ to a counter of µJ, with the remainder carried; answers the remainder. -/
def State.addMicro (s : State) (r carry nj : Nat) : Nat × State := ((carry + nj) % 1000, s.add64 r ((carry + nj) / 1000))

/-- Count energy that no stream has. -/
def State.unattributed (s : State) (nj : Nat) : State :=
  let (c, s) := s.addMicro Reg.PWR_ENUNATTR_LO s.power.unattrNj nj
  s.updPwr fun p => { p with unattrNj := c }

/-- Share energy equally among streams; the remainder is unattributed. -/
def State.shareEnergy (s : State) (owners : List Nat) (nj : Nat) : State :=
  if owners.isEmpty then s.unattributed nj
  else
    let each := nj / owners.length
    let s := s.updPwr fun p => { p with energyDue := owners.foldl (fun l sc => keyPut l sc (keyGetD l sc 0 + each)) p.energyDue }
    s.unattributed (nj - each * owners.length)

/-- The streams that own fallow moves in flight.
(DEDUCED, unsafe: notes/assumptions/34.md) -/
def State.moveOwners (s : State) : List Nat :=
  (s.moves.filterMap fun m => if m.2.fallow then m.2.datum.owner else none).foldl addMember []

/-- Attribute the energy of an interval, in nJ: all of it, and the part of memory and links.
(DEDUCED, unsafe: notes/assumptions/34.md) -/
def State.attribute (s : State) (all far : Nat) : State :=
  let (c, s) := s.addMicro Reg.PWR_ENERGY_LO s.power.energyNj all
  let s := s.updPwr fun p => { p with energyNj := c }
  let here := (s.rows.map Prod.snd).foldl addMember []
  let owners := s.moveOwners
  if s.tick.phase = .slice || owners.isEmpty then s.shareEnergy here all
  else (s.shareEnergy owners far).shareEnergy here (all - far)

/-! ### Sharing the cap (R372, R374, R379) -/

/-- A class estimate in units of 1/32768 mW: its raw estimate by GAIN, and by 9/8 while the measurement is invalid. -/
def State.classEstimate (s : State) (raw : Nat) : Nat :=
  raw * s.fld Reg.PWR_CAL 0 16 * (if s.bit Reg.PWR_MEAS 31 then 8 else 9)

/-- OFFSET. -/
def State.calOffset (s : State) : Int := signedOf 16 (s.fld Reg.PWR_CAL 16 16)

/-- The classes 0 links, 1 memory, 2 compute in the order of sharing. -/
def State.classOrder (s : State) (slice : Bool) : List Nat :=
  let l := [s.fld Reg.PWR_CTRL 0 2, s.fld Reg.PWR_CTRL 2 2, s.fld Reg.PWR_CTRL 4 2]
  if slice then 0 :: l.filter (· != 0) else l

/-- Shares in an order, from what remains: each takes its demand or the rest. -/
def shareOut (demand : Nat → Nat) : List Nat → Nat → List (Nat × Nat)
  | [], _ => []
  | c :: cs, left => let x := min (demand c) left; (c, x) :: shareOut demand cs (left - x)

/-- The duty of a deficit. -/
def dutyOf (deficit demand : Nat) : Nat := if demand = 0 then 0 else min 63 (ceilDiv (64 * deficit) demand)

/-- The new duty of a class, with LIMIT and its log entry where the class persists at the limit. -/
def State.setDuty (s : State) (c deficit demand : Nat) : State :=
  let logged := s.power.limitLogged.contains c
  let d := if logged && decide (0 < deficit) then 63 else dutyOf deficit demand
  let atNow := decide (d = 63) && decide (0 < deficit)
  let again := atNow && s.power.atLimit.contains c && !logged
  let s := if again then (s.raise .pwr Reg.PWR_STAT 9).logError 9 9 else s
  let s := s.updPwr fun p => { p with
    atLimit := setMember p.atLimit c atNow
    limitLogged := if deficit = 0 then p.limitLogged.filter (· != c) else if again then addMember p.limitLogged c else p.limitLogged }
  s.setFld Reg.PWR_DUTY (8 * c) 6 d

/-- The base load in units of 1/32768 mW. -/
def State.baseLoad (s : State) (raw : RawEstimate) : Nat :=
  let b : Int := (s.classEstimate raw.base : Nat) + 32768 * s.calOffset
  let extra := if s.bit Reg.PWR_MEAS 31 && !s.cc4Absent then s.fld Reg.PWR_MEAS 0 16 - s.power.estAvg else 0
  b.toNat + 32768 * extra

/-- The common duty at a cycle from the edge is applied. -/
def State.applyCommon (s : State) : State :=
  if s.tick.phase = .slice then
    let c := 1200 * (s.now - s.tick.edge)
    let d := s.dutyAt c
    (s.updPwr fun p => { p with common := d, commonAt := c }).setFld Reg.PWR_DUTY 24 7 d
  else s.setFld Reg.PWR_DUTY 24 7 0

/-- The estimate of an interval is shown, averaged and accounted. -/
def State.countEstimate (s : State) (raw : RawEstimate) (b : Nat) : State :=
  let far := s.classEstimate raw.memory + s.classEstimate raw.links
  let all : Int := ((far + s.classEstimate raw.compute + s.classEstimate raw.base : Nat) : Int) + 32768 * s.calOffset
  let (e, s) := s.divOpenNat all.toNat 32768
  let (b, s) := s.divOpenNat b 32768
  let s := (s.setFld Reg.PWR_EST 0 16 (satNat 16 e)).setFld Reg.PWR_EST 16 16 (satNat 16 b)
  let s := s.updPwr fun p => { p with
    rawSum := p.rawSum + (raw.base + raw.links + raw.memory + raw.compute), rawCount := p.rawCount + 1,
    estSum := p.estSum + e, estCount := p.estCount + 1 }
  let (f, s) := s.divOpenNat far 32768
  s.attribute (10 * e) (min (10 * f) (10 * e))

/-- The four steps of R379, exactly: every quantity is scaled by the same whole factor.
(DEDUCED, unsafe: notes/assumptions/34.md) -/
def State.shareCap (s : State) (raw : RawEstimate) : State :=
  let slice := s.tick.phase = .slice
  let common := min 63 (s.fld Reg.PWR_DUTY 24 7)
  let d := fun (c : Nat) =>
    if slice then (if c = 0 then 0 else common)
    else if c = 2 then 0 else s.fld Reg.PWR_DUTY (8 * c) 6
  let est := fun (c : Nat) => s.classEstimate (if c = 0 then raw.links else if c = 1 then raw.memory else raw.compute)
  let scale := (64 - d 0) * (64 - d 1) * (64 - d 2)
  let demand := fun (c : Nat) => est c * 64 * (scale / (64 - d c))
  let b := s.baseLoad raw
  let a := (32768 * s.fld Reg.PWR_CAPEFF 0 16 - b) * scale
  let shares := shareOut demand (s.classOrder slice) a
  let s := shares.foldl (fun (s : State) x => s.setDuty x.1 (demand x.1 - x.2) (demand x.1)) s
  s.countEstimate raw b

/-- POWER_SHARE_INTERVAL: 10 µs have passed.
(DEDUCED, unsafe: notes/assumptions/34.md) -/
def execPowerShareInterval (raw : RawEstimate) (s : State) : Host.Outcome State Fault Refusal :=
  .next <|
    if s.mainOn then (((s.reach (s.now + 10)).showCap).shareCap raw).applyCommon else s

/-! ### Calibration (R373) -/

/-- Limit a number, and say whether it was outside. -/
def limitTo (lo hi x : Int) : Int × Bool := (clampInt lo hi x, decide (x < lo) || decide (hi < x))

/-- OFFSET is refitted for a gain of `a / b`. -/
def State.fitOffset (s : State) (n : Nat) (sx sy a : Int) (b : Nat) : Bool × State :=
  let (o, s) := s.divOpen (sy * b - a * sx) (n * b)
  let (o, out) := limitTo (-2000) 2000 o
  (out, s.setFld Reg.PWR_CAL 16 16 (unsignedOf 16 o))

/-- A limit of the calibration applied. -/
def State.calLimited (s : State) (out : Bool) : State := if out then (s.raise .pwr Reg.PWR_STAT 6).logError 9 7 else s

/-- GAIN and OFFSET are fitted to the pairs of a window. -/
def State.fit (s : State) (pairs : List (Nat × Nat)) : State :=
  let n := pairs.length
  let sx := (pairs.map Prod.snd).sum
  let sy := (pairs.map Prod.fst).sum
  let sxx := (pairs.map fun p => p.2 * p.2).sum
  let sxy := (pairs.map fun p => p.1 * p.2).sum
  let hi := (pairs.map Prod.snd).foldl max 0
  let lo := (pairs.map Prod.snd).foldl min hi
  if hi - lo < 500 then
    let (out, s) := s.fitOffset n sx sy (s.fld Reg.PWR_CAL 0 16) 4096
    s.calLimited out
  else
    let num : Int := (n * sxy : Nat) - ((sx * sy : Nat) : Int)
    let den := n * sxx - sx * sx
    let (g, s) := s.divOpen (4096 * num) den
    let (g', out) := limitTo 0x800 0x2000 g
    let s := s.setFld Reg.PWR_CAL 0 16 g'.toNat
    let (out', s) := if out then s.fitOffset n sx sy g' 4096 else s.fitOffset n sx sy num den
    s.calLimited (out || out')

/-- CALIBRATION_FIT. -/
def execCalibrationFit (s : State) : Host.Outcome State Fault Refusal :=
  .next <|
    if !s.coreUp 4 then s
    else
      let l := s.power.pairs
      let window := l.drop (l.length - 100)
      let s := s.updPwr fun p => { p with pairs := [] }
      if window.length < 50 then s else s.fit window

/-! ### Voltage (R386) -/

/-- TJLIM of a point in 0.25 °C, and its voltage in mV. -/
def State.opPoint (s : State) (p : Nat) : Int × Nat :=
  ((4 * s.fld (Reg.GLOBAL_VOP + 4 * p) 16 8 : Nat), s.fld (Reg.GLOBAL_VOP + 4 * p) 0 10)

/-- The lowest point whose TJLIM is at least a temperature. -/
def State.pointFor (s : State) (t : Int) : Nat := ((List.range 8).find? fun p => decide (t ≤ (s.opPoint p).1)).getD 7

/-- The hottest valid unmasked reading, as the registers show it; `none` while an unmasked sensor is invalid. -/
def State.hottestShown (s : State) : Option Int :=
  let seen := (List.range 24).filter fun i => !s.sensorMasked i
  if seen.all fun i => s.bit (Reg.PWR_TSVAL + 4 * i) 31 then
    (seen.map fun i => signedOf 12 (s.fld (Reg.PWR_TSVAL + 4 * i) 0 12)).foldl (fun (o : Option Int) t => some (match o with
      | some u => max u t
      | none => t)) none
  else none

/-- A point is commanded to the core rail, to be checked. -/
def State.commandPoint (s : State) (rail p : Nat) : State :=
  let mv := (s.opPoint p).2
  let s := ((s.setFld Reg.PWR_VOP 16 3 p).setFld Reg.PWR_VOP 0 10 mv).pmbus rail 0x21 mv
  s.updPwr fun x => { x with vCheck := some mv }

/-- A reading is more than 10 mV from a voltage. -/
def offBy (rb mv : Nat) : Bool := decide (mv + 10 < rb) || decide (rb + 10 < mv)

/-- The voltage commanded is checked. -/
def State.checkVoltage (s : State) (rail : Nat) (readBack : Option Nat) : State :=
  match s.power.vCheck, readBack with
  | some mv, some rb =>
    if offBy rb mv then
      let s := (s.raise .pwr Reg.PWR_STAT 8).logError 9 10
      let s := if s.power.vHold.isSome then s else s.commandPoint rail 7
      s.updPwr fun p => { p with vCheck := none, vHold := some 0 }
    else s.updPwr fun p => { p with vCheck := none, vHold := none }
  | _, _ => s

/-- The next point: up at once, down after 1 s. -/
def State.choosePoint (s : State) (rail : Nat) : State :=
  let cur := s.fld Reg.PWR_VOP 16 3
  match s.hottestShown with
  | none =>
    let s := s.updPwr fun p => { p with calm := [] }
    if cur = 7 && s.fld Reg.PWR_VOP 0 10 != 0 then s else s.commandPoint rail 7
  | some t =>
    let calm := (List.range 8).map fun p => if decide (t + 32 ≤ (s.opPoint p).1) then min 1000 (s.power.calm.getD p 0 + 1) else 0
    let s := s.updPwr fun p => { p with calm := calm }
    let up := s.pointFor (t + 20)
    let down := (List.range cur).find? fun p => 1000 ≤ calm.getD p 0
    if cur < up then s.commandPoint rail up
    else match down with
      | some p => s.commandPoint rail p
      | none => if s.fld Reg.PWR_VOP 0 10 = 0 then s.commandPoint rail cur else s

/-- VOLTAGE_SELECTION: 1 ms has passed; `readBack` is what READ_VOUT gave in it. -/
def execVoltageSelection (readBack : Option Nat) (s : State) : Host.Outcome State Fault Refusal :=
  .next <|
    if !s.coreUp 4 then s
    else match s.rails [1] with
      | [rail] =>
        let s := s.checkVoltage rail readBack
        match s.power.vHold with
        | some n =>
          if n + 1 < 100 then s.updPwr fun p => { p with vHold := some (n + 1) }
          else (s.commandPoint rail 7).updPwr fun p => { p with vHold := some 0 }
        | none => s.choosePoint rail
      | _ => s.raise .pwr Reg.PWR_STAT 8

/-! ### The user cap (R376) -/

/-- CAP_WRITE. -/
def execCapWrite (i : Iface) (v : Word) (s : State) : Host.Outcome State Fault Refusal :=
  .next <| if s.served i then (s.writeCap (wordField v 0 16)).showCap else s

/-! ### The stook budget (R387 to R390) -/

/-- Stook budgeting is in use, and this member manages it. -/
def State.stookOn (s : State) : Bool := bitOf s.power.stook 0

/-- This member is the budget manager. -/
def State.isManager (s : State) : Bool := s.stookOn && bitOf s.power.stook 1

/-- A member that shares are computed for: its chip, its clamps, its work end. -/
structure Member where
  chip : Nat
  lo : Nat
  hi : Nat
  workEnd : Nat
  deriving DecidableEq, Repr

/-- The live members as the manager knows them; one that has not reported is bounded by the stook cap alone.
(DESIGN CHOICE, unsafe: notes/assumptions/35.md) -/
def State.members (s : State) : List Member :=
  let lo := s.fld Reg.PWR_CAPLIM 0 16
  let all := fun (c : Nat) =>
    if c = s.chip then some (⟨c, lo, s.ownCap.1, s.fld Reg.TICK_WORKEND 0 16⟩ : Member)
    else if s.live c then
      match s.power.reports.find? fun r => r.1 = c with
      | some r => some ⟨c, lo, r.2.1, r.2.2.2⟩
      | none => some ⟨c, lo, s.fld Reg.PWR_STOOKCAPMW 0 17, 0⟩
    else none
  (List.range 4).filterMap all

/-- Equal division with clamps: what a clamp frees is divided among the others. `fuel` bounds the members. -/
def divide : Nat → Nat → List Member → List (Nat × Nat)
  | 0, _, _ => []
  | _ + 1, _, [] => []
  | fuel + 1, cap, ms =>
    let each := cap / ms.length
    match ms.find? fun m => each < m.lo || m.hi < each with
    | none => ms.map fun m => (m.chip, each)
    | some m =>
      let x := if each < m.lo then m.lo else m.hi
      (m.chip, x) :: divide fuel (cap - x) (ms.erase m)

/-- The free-run shares; where the lower clamps alone exceed the stook cap, equal parts of it.
(DESIGN CHOICE, unsafe: notes/assumptions/35.md) -/
def freeShares (cap : Nat) (ms : List Member) : List (Nat × Nat) :=
  let l := divide (ms.length + 1) cap ms
  if (l.map Prod.snd).sum ≤ cap then l else ms.map fun m => (m.chip, cap / ms.length)

/-- The member of a list that a comparison puts first. -/
def firstBy (better : Member → Member → Bool) : List Member → Option Member
  | [] => none
  | m :: ms => match firstBy better ms with
    | some x => if better x m then some x else some m
    | none => some m

/-- One step of the steered balance: 250 mW, within the clamps, from the earliest work end to the latest. -/
def steerShares (ms : List Member) (l : List (Nat × Nat)) : List (Nat × Nat) :=
  match firstBy (fun a b => a.workEnd < b.workEnd) ms, firstBy (fun a b => b.workEnd < a.workEnd) ms with
  | some e, some z =>
    if z.workEnd ≤ e.workEnd + 100 then l
    else
      let x := min 250 (min (keyGetD l e.chip 0 - e.lo) (z.hi - keyGetD l z.chip 0))
      keyPut (keyPut l e.chip (keyGetD l e.chip 0 - x)) z.chip (keyGetD l z.chip 0 + x)
  | _, _ => l

/-- The shares of a period.
(DESIGN CHOICE, unsafe: notes/assumptions/35.md) -/
def State.newShares (s : State) : List (Nat × Nat) :=
  let ms := s.members
  let cap := s.fld Reg.PWR_STOOKCAPMW 0 17
  let old := s.power.shares
  let sorted := fun (l : List (Nat × Nat)) => l.foldl (fun (k : List (Nat × Nat)) x => keyPut k x.1 x.2) []
  if !bitOf s.power.stook 2 || old.map Prod.fst != ms.map (·.chip) || cap < (old.map Prod.snd).sum then sorted (freeShares cap ms)
  else if s.power.steered = s.tickNo then old
  else steerShares ms old

/-- A share arrives and applies. -/
def State.applyShare (s : State) (mw : Nat) : State :=
  let s := (s.setFld Reg.PWR_SHAREMW 0 16 (satNat 16 mw)).setFld Reg.PWR_SHAREMW 16 16 0
  (s.updPwr fun p => { p with shareAt := some s.now, shareLost := false }).showCap

/-- The manager computes every share and sends each member its own.
(DESIGN CHOICE, unsafe: notes/assumptions/35.md) -/
def State.sendShares (s : State) : State :=
  let l := s.newShares
  let n := s.power.sharePeriod + 1
  let s := s.updPwr fun p => { p with shares := l, sharePeriod := n, steered := s.tickNo }
  let s := s.setFld Reg.PWR_STOOK 8 3 l.length
  l.foldl (fun (s : State) x => if x.1 = s.chip then s.applyShare x.2 else s.peerMsg x.1 2 0x21 [x.2, n] 8) s

/-- STOOK_SHARE_PERIOD: writes of `PWR_STOOK` take effect, members report, and the manager shares. -/
def execStookSharePeriod (s : State) : Host.Outcome State Fault Refusal :=
  .next <|
    if !s.coreUp 4 then s
    else
      let v := s.fld Reg.PWR_STOOK 0 3
      let s := s.updPwr fun p => { p with
        stook := v, mgr := p.mgr.filter s.live, shareAt := if bitOf v 0 then p.shareAt else none
        reports := p.reports.filter fun r => s.live r.1 }
      if !s.stookOn then (s.setReg Reg.PWR_SHAREMW 0).showCap
      else
        let s := (s.setFld Reg.PWR_SHAREMW 16 16 (satNat 16 (s.fld Reg.PWR_SHAREMW 16 16 + 1))).showCap
        if s.isManager then s.sendShares
        else
          let dest := match s.power.mgr with
            | some c => [c]
            | none => s.liveChips
          dest.foldl (fun (s : State) c =>
            s.peerMsg c 2 0x20 [s.ownCap.1, s.fld Reg.PWR_EST 0 16, s.fld Reg.TICK_WORKEND 0 16] 12) s

/-- REPORT reaches the budget manager.
(DESIGN CHOICE, unsafe: notes/assumptions/35.md) -/
def execReport (port : Fin 3) (cap estimate workEnd : Nat) (s : State) : Host.Outcome State Fault Refusal :=
  .next <| s.deliver port 2 12 fun s =>
    if s.isManager then s.updPwr fun p => { p with reports := keyPut p.reports (s.chipOn port) (cap, estimate, workEnd) } else s

/-- SHARE reaches a member: it applies, unless it comes from a chip that is not budget manager (R422).
(DESIGN CHOICE, unsafe: notes/assumptions/35.md) -/
def execShare (port : Fin 3) (mw _period : Nat) (s : State) : Host.Outcome State Fault Refusal :=
  .next <| s.deliver port 2 8 fun s =>
    let c := s.chipOn port
    if s.isManager || (match s.power.mgr with
        | some m => m != c
        | none => false) then s.peerViolation port 7
    else if s.stookOn then (s.updPwr fun p => { p with mgr := some c }).applyShare mw
    else s

/-- SHARE_TIMEOUT: no share for 20 ms. -/
def execShareTimeout (s : State) : Host.Outcome State Fault Refusal :=
  .next <|
    if s.coreUp 4 && s.stookOn && !s.isManager && !s.power.shareLost then
      let s := s.reach (s.power.shareAt.getD 0 + 20000)
      ((s.raise .pwr Reg.PWR_STAT 10).logError 9 11).updPwr fun p => { p with shareLost := true }
    else s

end Sys2Proof.Machine
end

