-- ==== Sys2Proof/Machine/Boot.lean ====
section
/-!
DEFINITION. Machine/Boot.lean: start-up from the boot flash or from a host (R498, R515 to R528), operations on the flash (R529 to R531), the return
of a control core, owner provisioning and the debug lock (R541, R542).
-/
namespace Sys2Proof.Machine

/-! ### NV records (R518 to R521) -/

/-- An NV record that is valid: its generation and length, its field entries, the entries of each mode, the boot plan's image, and the
KEYKIND of the signature that passed. -/
structure NvRecord where
  gen : Nat
  len : Nat
  config : List FieldEntry
  blocks : List (Nat × List FieldEntry)
  plan : Option (List Byte)
  signer : Option Nat
  deriving DecidableEq, Repr

/-- MAGIC of a record's kind. -/
def nvMagic (user : Bool) : Nat := if user then 0x55564E54 else 0x46564E54

/-- The section types of a record's kind (Table 18-4). -/
def nvTypes (user : Bool) : List Nat := if user then [2, 3, 4, 15] else [1, 2, 15]

/-- The directory of a record. -/
def nvDir (bs : List Byte) : List DirEntry :=
  (List.range (leAt bs 0x10 4)).map fun i =>
    let o := 0x40 + 16 * i
    ⟨leAt bs o 2, leAt bs (o + 2) 2, leAt bs (o + 4) 4, leAt bs (o + 8) 4, leAt bs (o + 12) 4⟩

/-- The header follows Table 18-3. -/
def nvHeaderOk (user : Bool) (bs : List Byte) : Bool :=
  let len := leAt bs 0xC 4
  let gen := leAt bs 8 4
  let n := leAt bs 0x10 4
  leAt bs 0 4 = nvMagic user && leAt bs 4 2 = 1 && decide (leAt bs 6 2 ≤ 1) && decide (1 ≤ gen) && decide (gen ≤ 0xFFFFFFFE) &&
  len % 64 = 0 && decide (len ≤ bs.length) && decide (1 ≤ n) && decide (n ≤ 8) && decide (0x40 + 16 * n ≤ len) &&
  (bs.drop 0x18).take 40 = (List.replicate 40 0 : List Byte)

/-- The CRC of a record holds over its bytes with the field taken as 0. -/
def nvCrc (bs : List Byte) : Nat := (crc32 (bs.take 0x14 ++ ([0, 0, 0, 0] : List Byte) ++ bs.drop 0x18)).toNat

/-- A directory entry keeps the rules by itself. -/
def nvEntryOk (user signed : Bool) (len dirEnd : Nat) (e : DirEntry) : Bool :=
  e.resv = 0 && (nvTypes user).contains e.type && e.offset % 64 = 0 && decide (dirEnd ≤ e.offset) && decide (e.offset + e.length ≤ len) &&
  (if e.type = 15 then signed && e.length = 192 && e.offset + e.length = len
   else if e.type = 1 then decide (e.length ≤ 0x28000)
   else if e.type = 2 then decide (8 * e.count ≤ e.length)
   else true)

/-- The directory keeps the rules of R117 for its kind. -/
def nvDirOk (user : Bool) (bs : List Byte) : Bool :=
  let signed := bitOf (leAt bs 6 2) 0
  let dir := nvDir bs
  let has := fun t => dir.any fun e => e.type = t
  (dir.all (nvEntryOk user signed (leAt bs 0xC 4) (0x40 + 16 * dir.length))) &&
  !(dir.zipIdx.any fun e => dir.zipIdx.any fun f => decide (f.2 < e.2) &&
    (f.1.type = e.1.type || rangesMeet f.1.offset f.1.length e.1.offset e.1.length)) &&
  (user || has 1) && signed == has 15

/-- Field entries of a run. -/
def nvEntries (bs : List Byte) (off n : Nat) : List FieldEntry := (List.range n).map fun i => readEntry bs (off + 8 * i)

/-- No ID stands twice. -/
def idsOnce (l : List FieldEntry) : Bool := decide ((l.map (·.id)).Nodup)

/-- The blocks of an overlay table: `none` where one is malformed (R520).
(DEDUCED, unsafe: notes/assumptions/46.md) -/
def nvBlocks (bs : List Byte) : Nat → Nat → Nat → Option (List (Nat × List FieldEntry))
  | 0, _, _ => some []
  | n + 1, off, room =>
    let mode := leAt bs off 1
    let cnt := leAt bs (off + 2) 2
    if decide (room < 8 + 8 * cnt) || mode = 0 || decide (4 < mode) || decide (256 < cnt) || leAt bs (off + 1) 1 != 0 ||
        leAt bs (off + 4) 4 != 0 then none
    else (nvBlocks bs n (off + 8 + 8 * cnt) (room - 8 - 8 * cnt)).map fun l => (mode, nvEntries bs (off + 8) cnt) :: l

/-- The section of a type. -/
def nvSection (bs : List Byte) (t : Nat) : Option DirEntry := (nvDir bs).find? fun e => e.type = t

/-- The overlay blocks of a record: none where it has no table. -/
def nvOverlays (bs : List Byte) : Option (List (Nat × List FieldEntry)) :=
  match nvSection bs 3 with
  | none => some []
  | some e => if 4 < e.count then none else nvBlocks bs e.count e.offset e.length

/-- The signature of a record: `none` where Table 18-7 is not met, otherwise the KEYKIND of a signature that is present (R540).
(DEDUCED, unsafe: notes/assumptions/46.md) -/
def State.nvSigned (s : State) (user : Bool) (bs : List Byte) : Option (Option Nat) :=
  let kind := (nvSection bs 15).map fun e => s.sigKind (fun o n => (bs.drop o).take n) e.offset
  match kind with
  | none => if user && !s.secured then some none else none
  | some none => none
  | some (some k) => if user then (if s.secured && k != 2 then none else some (some k)) else if k = 1 then some (some k) else none

/-- Read a record: `none` where it is not valid (R521), with the fields that are locked.
(DEDUCED, unsafe: notes/assumptions/46.md) -/
def State.nvRecord (s : State) (user : Bool) (locked : List Nat) (bs : List Byte) : Option NvRecord :=
  if !nvHeaderOk user bs then none
  else
    let r := bs.take (leAt bs 0xC 4)
    if nvCrc r != leAt bs 0x14 4 || !nvDirOk user r then none
    else
      let config := match nvSection r 2 with
        | some e => nvEntries r e.offset e.count
        | none => []
      match nvOverlays r, s.nvSigned user r with
      | some blocks, some signer =>
        if config.all FieldEntry.legal && idsOnce config && decide ((blocks.map Prod.fst).Nodup) &&
            blocks.all (fun b => b.2.all (fun e => e.overlays locked) && idsOnce b.2) then
          some { gen := leAt r 8 4, len := r.length, config := config, blocks := blocks,
                 plan := (nvSection r 4).map fun e => (r.drop e.offset).take e.length, signer := signer }
        else none
      | _, _ => none

/-! ### Slots (R517, R527) -/

/-- Where a slot lies in the flash, and its size. -/
def State.slotAt (s : State) (user : Bool) (i : Nat) : Nat × Nat :=
  if user then
    let u := (s.nv.size - 0x10_0000) / 2 / 65536 * 65536
    (0x10_0000 + i * u, u)
  else (i * 0x4_0000, 0x4_0000)

/-- The valid record of a slot. -/
def State.slotRecord (s : State) (user : Bool) (locked : List Nat) (i : Nat) : Option NvRecord :=
  let (base, size) := s.slotAt user i
  let h := s.flashRead base 64
  let len := leAt h 0xC 4
  if leAt h 0 4 = nvMagic user && decide (len ≤ size) then s.nvRecord user locked (s.flashRead base len) else none

/-- The journal's record of a slot pair. -/
def State.slotPair (s : State) (user : Bool) : SlotPair := if user then s.store.user else s.store.factory

/-- Change the journal's record of a slot pair. -/
def State.putPair (s : State) (user : Bool) (p : SlotPair) : State :=
  s.putStore (if user then { s.store with user := p } else { s.store with factory := p })

/-- The slot that a pair boots from, with its record.
(DEDUCED, unsafe: notes/assumptions/46.md) -/
def State.chooseSlot (s : State) (user : Bool) (locked : List Nat) : Option (Nat × NvRecord) :=
  let p := s.slotPair user
  let a := s.slotRecord user locked 0
  let b := s.slotRecord user locked 1
  let order := match p.committed, a, b with
    | some c, _, _ => [c, 1 - c]
    | none, some x, some y => if x.gen < y.gen then [1, 0] else [0, 1]
    | none, _, _ => [0, 1]
  ((order.filter fun i => p.busy != some i).filterMap fun i => (if i = 0 then a else b).map fun r => (i, r)).head?

/-! ### The base configuration (R525, R526) -/

/-- Put the entries of a layer over those below it. -/
def layer (below : List (Nat × Nat)) (l : List FieldEntry) : List (Nat × Nat) :=
  l.foldl (fun (m : List (Nat × Nat)) e => keyPut m e.id e.value) below

/-- Take up the records that were found: the base configuration, the locks, the overlays and the boot plan. -/
def State.takeLayers (s : State) (f : NvRecord) (u : Option NvRecord) : State :=
  let locked := (f.config.filter fun e => e.flags = 1).map (·.id)
  let mine := match u with
    | some r => r.config
    | none => []
  let free := mine.filter fun e => !locked.contains e.id
  let owner := match u with
    | some r => r.signer = some 2 && free.any fun e => e.id = 0x05
    | none => false
  let s := { s with nv := { s.nv with
    base := layer (layer [] f.config) free, locked := locked,
    overlays := (match u with
      | some r => r.blocks.map fun (b : Nat × List FieldEntry) => (b.1, layer [] b.2)
      | none => []),
    bootPlan := u.bind (·.plan), ownerSigned := owner } }
  let s := s.setBit Reg.NVC_BOOTSTAT 28 (free.length < mine.length)
  (s.setReg Reg.NVC_FGEN (BitVec.ofNat 32 f.gen)).setReg Reg.NVC_UGEN (BitVec.ofNat 32 (match u with
    | some r => r.gen
    | none => 0))

/-- `HSP_CFG` takes effect (R470). -/
def State.hspCfg (s : State) : State :=
  { s with hsp := { s.hsp with cpha := s.bit Reg.HSP_CFG 0, wire := s.bit Reg.HSP_CFG 1 } }

/-- CC0 writes the base configuration into effect (R526). -/
def State.applyBase (s : State) : State :=
  let tick := s.baseValue 0x01
  let want : Want := [(Reg.TICK_PERIOD, bitsOf tick 0 7), (Reg.TICK_FALLOW, bitsOf tick 8 6), (Reg.TICK_SLIP, bitsOf tick 16 6)].filterMap
    fun x => if s.reg x.1 = BitVec.ofNat 32 x.2 then none else some (x.1, BitVec.ofNat 32 x.2)
  let s := s.applyWant want
  let ids := (List.range 0x400).filter fun id => (fieldReg id).isSome
  let was := s
  let s := s.writeIds ((ids.map fun id => (id, s.baseValue id)).filter fun x => x.2 != s.inEffect x.1)
  let s := (s.keepWritten was).hspCfg
  let psp := s.baseValue 0x21
  let s := s.setFld (Reg.PSP_SELCLK + 24) 0 8 (bitsOf psp 0 8)
  s.setReg (Reg.PSP_SELDLY + 24) (BitVec.ofNat 32 (psp / 256))

/-! ### READY and the boot wait (R498, R499, R516, R528) -/

/-- In ON the request latch is read, and a trip of POWERUP-B answered.
(DEDUCED, unsafe: notes/assumptions/48.md) -/
def State.readLatch (s : State) : State :=
  match s.aon.tripDue with
  | some (sensor, reading) =>
    ((s.updAon fun a => { a with tripDue := none }).raise .pwr Reg.PWR_STAT 2).powerDown 0x04 sensor reading
  | none => if s.aon.latch then s else s.powerDown 0x03 0 0

/-- The boot stops at the boot wait: in ON, with READY at 0.
(DEDUCED, unsafe: notes/assumptions/46.md) -/
def State.bootWait (s : State) (err : Nat) : State :=
  let s := (s.setFld Reg.NVC_BOOTSTAT 0 8 err).setBit Reg.NVC_BOOTSTAT 31 true
  (s.updAon fun a => { a with phase := .on, phaseAt := s.now }).readLatch

/-- The debug access path opens at READY where R542 lets it.
(DEDUCED, unsafe: notes/assumptions/49.md) -/
def State.openDebug (s : State) : State :=
  s.setBit Reg.SEC_STAT 8 (s.baseValue 0x05 = 1 && (!s.secured || s.nv.ownerSigned) && !s.bit Reg.SEC_DBGCTRL 0)

/-- CC0 places the boot plan's image in T1 and checks it; it becomes the pending plan, or is refused (R526).
(DEDUCED, unsafe: notes/assumptions/48.md) -/
def State.loadBootPlan (s : State) : State :=
  match s.nv.bootPlan with
  | none => s
  | some img =>
    let rd : Reader := fun off n => leAt img off n
    let gone := fun (s : State) => { s with nv := { s.nv with bootPlan := none } }.bootPlanRefused
    match s.checkFirst rd img.length with
    | some (code, sec) => gone (s.showLoadErr code sec)
    | none =>
      let h := readHdr rd
      match s.t1Range h.t1Base (imgLen rd) true with
      | (some bad, s) => gone (s.logError 2 3 { addr := bad })
      | (none, s) =>
        let s := s.storeBytes h.t1Base (img.take (imgLen rd))
        let s := s.finishLoad { q := 32, tag := 0, src := 0, hdr := h, imgLen := imgLen rd, done := imgLen rd }
        if s.pendingPlan.isSome then s.writeTickCtrl true (s.bit Reg.TICK_CTRL 1) else gone s

/-- READY, with the records in use.
(DESIGN CHOICE, safe: notes/assumptions/3.md; DEDUCED, unsafe: notes/assumptions/48.md) -/
def State.reachReady (s : State) : State :=
  let s := (List.range 6).foldl (fun (s : State) c => s.showCore c true false) s
  let (v, s) := s.draw
  let s := (s.setReg Reg.CCMB_FWVER (BitVec.ofNat 32 v)).setBit Reg.NVC_BOOTSTAT 31 false
  let s := (s.setBit Reg.GLOBAL_PWRSTAT 0 true).openDebug
  let s := s.journal 0x02 0 ((s.now - s.aon.releaseAt) / 1000) 0
  let s := s.updAon fun a => { a with phase := .on, phaseAt := s.now }
  let s := (s.takeEpoch 32 0 0 (s.baseValue 0x04) []).advanceEpoch
  s.loadBootPlan.readLatch

/-- Boot with a factory record and its slot, and a user record and what `USLOT` shows of it.
(DEDUCED, unsafe: notes/assumptions/48.md) -/
def State.bootWith (s : State) (f : NvRecord) (fslot : Nat) (u : Option NvRecord) (uslot : Nat) : State :=
  let s := (s.setBit Reg.NVC_BOOTSTAT 24 (fslot = 1)).setFld Reg.NVC_BOOTSTAT 20 2 uslot
  (s.takeLayers f u).applyBase.reachReady

/-- Boot from the flash, with the user layer or without. -/
def State.bootFlash (s : State) (useUser : Bool) : State :=
  match s.chooseSlot false [] with
  | none => s.bootWait 3
  | some (i, f) =>
    if !useUser then s.bootWith f i none 3
    else
      let locked := (f.config.filter fun e => e.flags = 1).map (·.id)
      match s.chooseSlot true locked with
      | some (j, u) => s.bootWith f i (some u) j
      | none => ((s.setFld Reg.NVC_BOOTSTAT 0 8 6).setBit Reg.NVC_BOOTSTAT 27 true).bootWith f i none 3

/-- READY: MEMCH has trained, and CC0 verifies the NV image. The operand is what the flash was found to hold.
(DEDUCED, unsafe: notes/assumptions/48.md) -/
def execReady (flash : List HostBytes) (s : State) : Host.Outcome State Fault Refusal :=
  .next <|
    if s.aon.phase = .powerupB && !s.aon.held then
      let s := flash.foldl (fun (s : State) b => s.flashWrite b.addr b.bytes) s
      let s := s.setBit Reg.MEMCH_STAT 0 true
      let sel := s.aon.pins.1
      if s.fld Reg.NVC_BOOTSTAT 0 8 = 2 then s.bootWait 2
      else if s.nv.fitted = 1 then (s.logViolation 7 1).bootWait 1
      else if s.nv.fitted != 0 then (s.logViolation 7 2).bootWait 2
      else if sel = 2 then s.bootWait 0
      else s.bootFlash (sel = 0)
    else s

/-! ### Operations on the flash (R529 to R531) -/

/-- An operation has been done. -/
def State.endUpdate (s : State) : State :=
  let s := { s with nv := { s.nv with update := none } }
  ((s.setBit Reg.NVC_UPDCTRL 30 false).setFld Reg.NVC_UPDSTAT 8 8 0).raise .nvc Reg.NVC_UPDSTAT 0

/-- The slot of a pair that an operation writes: the one not committed, and with none committed the one not in use.
(DEDUCED, unsafe: notes/assumptions/47.md) -/
def State.updateSlot (s : State) (user : Bool) : Nat :=
  match (s.slotPair user).committed with
  | some c => 1 - c
  | none =>
    if user then (if s.fld Reg.NVC_BOOTSTAT 20 2 = 0 then 1 else 0)
    else if s.reg Reg.NVC_FGEN != 0 && !s.bit Reg.NVC_BOOTSTAT 24 then 1 else 0

/-- The generation that a new record bears: one above the higher of the pair (R530).
(DEDUCED, unsafe: notes/assumptions/47.md) -/
def State.nextGen (s : State) (user : Bool) : Nat :=
  let g := fun i => match s.slotRecord user s.nv.locked i with
    | some r => r.gen
    | none => 0
  max (s.slotPair user).gen (max (g 0) (g 1)) + 1

/-- A record with another generation, and the CRC that then holds.
(DEDUCED, unsafe: notes/assumptions/47.md) -/
def withGen (bs : List Byte) (gen : Nat) : List Byte :=
  let r := bs.take 8 ++ leBytes 4 gen ++ bs.drop 12
  r.take 0x14 ++ leBytes 4 (nvCrc r) ++ r.drop 0x18

/-- CC0 starts to write a valid record into a slot: journaled, and the slot erased.
(DEDUCED, unsafe: notes/assumptions/47.md) -/
def State.startWrite (s : State) (user : Bool) (src : Option (Nat × Nat)) (bs : List Byte) : State :=
  let slot := s.updateSlot user
  let (base, size) := s.slotAt user slot
  if size < bs.length then s.failUpdate 1
  else if !s.flashUsable then s.failUpdate 3
  else
    let gen := s.nextGen user
    let s := (s.putPair user { s.slotPair user with busy := some slot }).flashErase base size
    { s with nv := { s.nv with update := some ⟨if user then 0 else 1, slot, gen, withGen bs gen, src⟩ } }

/-- A host's records boot the engine without the flash being written (R529).
(DEDUCED, unsafe: notes/assumptions/46.md) -/
def State.hostBoot (s : State) (bs : List Byte) : State :=
  match s.nvRecord false [] bs with
  | none => (s.failUpdate 1).setFld Reg.NVC_BOOTSTAT 0 8 4
  | some f =>
    let rest := bs.drop f.len
    let locked := (f.config.filter fun e => e.flags = 1).map (·.id)
    if rest.isEmpty then s.endUpdate.bootWith f 0 none 3
    else match s.nvRecord true locked rest with
      | none => s.failUpdate 1
      | some u => s.endUpdate.bootWith f 0 (some u) 2

/-- CC0 reads the source of an operation and checks every record.
(DEDUCED, unsafe: notes/assumptions/47.md) -/
def State.runUpdate (s : State) (hostOk : Bool) : State :=
  let target := s.fld Reg.NVC_UPDCTRL 8 2
  let src := s.reg64 Reg.NVC_UPDSRC_LO
  let len := (s.reg Reg.NVC_UPDLEN).toNat
  let host := s.bit Reg.NVC_UPDCTRL 0
  let (bad, s) := if host then (!hostOk, s)
    else match s.senseRange src len with
      | (some a, s) => (true, s.logError 2 (tierSub a false) { addr := a })
      | (none, s) => (false, s)
  if bad then
    let s := s.failUpdate 2
    if target = 2 && host then s.setFld Reg.NVC_BOOTSTAT 0 8 5 else s
  else
    let bs := if host then cellRead s.host src len else s.bytesAt src len
    if target = 2 then s.hostBoot bs
    else
      let user := target = 0
      match s.nvRecord user (if user then s.nv.locked else []) bs with
      | none => s.failUpdate 1
      | some r => s.startWrite user (if host then none else some (src, len)) (bs.take r.len)

/-- A write of `NVC_UPDCTRL` (R529): GO starts an operation, or is refused.
(DEDUCED, unsafe: notes/assumptions/47.md) -/
def State.writeUpdCtrl (s : State) (v : Word) (hostOk : Bool) : State :=
  if !bitOf v.toNat 31 then s.regStore Reg.NVC_UPDCTRL v
  else if s.bit Reg.NVC_UPDCTRL 30 then s.setBit Reg.NVC_UPDSTAT 2 true
  else
    let s := s.regStore Reg.NVC_UPDCTRL v
    let target := s.fld Reg.NVC_UPDCTRL 8 2
    let src := s.reg64 Reg.NVC_UPDSRC_LO
    let len := (s.reg Reg.NVC_UPDLEN).toNat
    let placeOk := len % 64 = 0 && (if s.bit Reg.NVC_UPDCTRL 0 then decide (src + len ≤ 2 ^ 64)
      else match s.staging with
        | some (b, n) => decide (b ≤ src) && decide (src + len ≤ b + n)
        | none => false)
    if target = 3 || (target = 2 && !s.bit Reg.NVC_BOOTSTAT 31) || !placeOk then s.setBit Reg.NVC_UPDSTAT 2 true
    else
      let s := s.setBit Reg.NVC_UPDCTRL 30 true
      if s.coreUp 0 then s.runUpdate hostOk else { s with nv := { s.nv with goHeld := some hostOk } }

/-- GO with a TARGET, and what the host placed for the operation to read.
(DEDUCED, unsafe: notes/assumptions/47.md) -/
def State.goUpdate (s : State) (i : Iface) (target : Nat) (v : Word) (source : List HostBytes) (a : HostAnswer) : State :=
  let s := s.placed source
  if s.served i then s.writeUpdCtrl (wordSetField v 8 2 target ||| 0x80000000) (a = .ok) else s

/-- NVC_UPDATE_USER. -/
def execNvcUpdateUser (i : Iface) (v : Word) (source : List HostBytes) (a : HostAnswer) (s : State) :
    Host.Outcome State Fault Refusal :=
  .next <| s.goUpdate i 0 v source a

/-- NVC_UPDATE_FACTORY. -/
def execNvcUpdateFactory (i : Iface) (v : Word) (source : List HostBytes) (a : HostAnswer) (s : State) :
    Host.Outcome State Fault Refusal :=
  .next <| s.goUpdate i 1 v source a

/-- NVC_HOST_BOOT. -/
def execNvcHostBoot (i : Iface) (v : Word) (source : List HostBytes) (a : HostAnswer) (s : State) :
    Host.Outcome State Fault Refusal :=
  .next <| s.goUpdate i 2 v source a

/-- NVC_UPDATE_DONE: the slot has been programmed and is read back; a difference is a violation of the flash.
(DEDUCED, unsafe: notes/assumptions/47.md) -/
def execNvcUpdateDone (flashOk : Bool) (s : State) : Host.Outcome State Fault Refusal :=
  .next <|
    match s.coreUp 0, s.nv.update with
    | true, some j =>
      let user := j.target = 0
      if !flashOk then (s.logViolation 7 4).failUpdate 3
      else
        let s := s.flashWrite (s.slotAt user j.slot).1 j.record
        match s.slotRecord user (if user then s.nv.locked else []) j.slot with
        | none => s.failUpdate 1
        | some _ => (s.putPair user ⟨some j.slot, j.gen, none⟩).endUpdate
    | _, _ => s

/-- FLASH_BUSY_TIMEOUT: the command is abandoned and the write it served fails (R489). -/
def execFlashBusyTimeout (s : State) : Host.Outcome State Fault Refusal :=
  .next <| if s.nv.update.isSome then (s.logViolation 7 3).failUpdate 3 else s

/-! ### Control cores that return (Table 11-7) -/

/-- A core returns. -/
def State.coreBack (s : State) (c : Nat) : State :=
  let s := { s with restarting := s.restarting.filter (· != c) }.showCore c true false
  if c = 0 then
    let s := match s.load with
      | some j => if j.imgLen ≤ j.done then s.finishLoad j else s
      | none => s
    match s.nv.goHeld with
    | some hostOk => { s with nv := { s.nv with goHeld := none } }.runUpdate hostOk
    | none => s
  else if c = 1 then s.endWaiting
  else if c = 4 then
    let eff := s.fld Reg.PWR_CAPEFF 0 16
    let s := if s.power.hot.isEmpty then s else { s with power := { s.power with thermalCap := some eff } }
    (s.setBit Reg.PWR_STAT 17 false).showCap
  else if c = 5 then { s with audio := { s.audio with rampBack := s.audio.rampTick.isSome } }
  else s

/-- CORE_RETURN. -/
def execCoreReturn (core : Fin 6) (s : State) : Host.Outcome State Fault Refusal :=
  .next <| if s.mainOn && s.restarting.contains core.val then s.coreBack core else s

/-! ### Provisioning and the debug lock (R541, R542) -/

/-- A write of `SEC_PROVCMD`: OWNERHASH is burnt, or the write is refused and logged.
(DEDUCED, unsafe: notes/assumptions/49.md) -/
def State.writeProvCmd (s : State) (i : Iface) (v : Word) : State :=
  if !bitOf v.toNat 0 then s
  else if bitsOf v.toNat 24 8 != 0x5E || s.owned then s.writeViolation i 4 16 Reg.SEC_PROVCMD v
  else
    let s := (List.range 8).foldl (fun (s : State) k => s.setReg (Reg.SEC_OWNHASH + 4 * k) (s.reg (Reg.SEC_PROVHASH + 4 * k))) s
    s.setBit Reg.SEC_STAT 4 true

/-- SEC_PROVISION.
(DEDUCED, unsafe: notes/assumptions/49.md) -/
def execSecProvision (i : Iface) (v : Word) (s : State) : Host.Outcome State Fault Refusal :=
  .next <| if s.served i then s.writeProvCmd i (v ||| 1) else s

/-- A write of `SEC_DBGCTRL`: LOCK closes the path at once.
(DEDUCED, unsafe: notes/assumptions/49.md) -/
def State.writeDbgCtrl (s : State) (v : Word) : State :=
  let s := s.regStore Reg.SEC_DBGCTRL v
  if s.bit Reg.SEC_DBGCTRL 0 then s.setBit Reg.SEC_STAT 8 false else s

/-- DEBUG_LOCK. -/
def execDebugLock (i : Iface) (v : Word) (s : State) : Host.Outcome State Fault Refusal :=
  .next <| if s.served i then s.writeDbgCtrl (v ||| 1) else s

end Sys2Proof.Machine
end

