-- ==== Sys2Proof/Machine/RegAccess.lean ====
section
/-!
DEFINITION. Machine/RegAccess.lean: a register write through an interface, with every register's own behaviour (R18 to R25, R577 to R582), the register
rows of the command table, the log tails and their pins (R348, R358), and the PSP (R482 to R486).
-/
namespace Sys2Proof.Machine

/-! ### Registers with a behaviour of their own -/

/-- The index of an offset in an array of registers. -/
def slotOf (off base count stride : Nat) : Option Nat :=
  if decide (base ≤ off) && decide (off < base + count * stride) && (off - base) % stride = 0 then some ((off - base) / stride) else none

/-- A write of `GLOBAL_RSTREQ` (Table 17-12). -/
def State.writeRstReq (s : State) (i : Iface) (v : Word) : State :=
  if wordField v 24 8 != 0xA5 then s.writeViolation i 4 16 Reg.GLOBAL_RSTREQ v
  else if wordField v 0 2 = 1 then s.firmwareReset 3 0
  else if wordField v 0 2 = 2 then s.systemReset 2
  else s

/-- A write of `PLAN_STAT`: clearing FAULT clears `PLAN_FAULT.VALID` (Table 4-12).
(DEDUCED, unsafe: notes/assumptions/69.md) -/
def State.writePlanStat (s : State) (v : Word) : State :=
  let s := s.regStore Reg.PLAN_STAT v
  if wordField v 9 1 = 1 then s.setBit Reg.PLAN_FAULT 31 false else s

/-- A write of a log tail (R348): refused where it would move the tail backwards or past the head. -/
def State.writeTail (s : State) (i : Iface) (violation : Bool) (v : Word) : State :=
  let (tail, head) := if violation then (Reg.ERRLOG_VTAIL, Reg.ERRLOG_VHEAD) else (Reg.ERRLOG_TAIL, Reg.ERRLOG_HEAD)
  let h := s.fld head 0 9
  let held := (h + 512 - s.fld tail 0 9) % 512
  let left := (h + 512 - wordField v 0 9) % 512
  if 256 < left || held < left then s.writeViolation i 5 17 tail v
  else s.setFld tail 0 9 (wordField v 0 9)

/-! ### The PSP (R482 to R486) -/

/-- The bytes of a run of registers. -/
def State.regBytes (s : State) (off n : Nat) : List Byte := (List.range n).map fun k =>
  BitVec.ofNat 8 (wordField (s.reg (off + k / 4 * 4)) (8 * (k % 4)) 8)

/-- A transfer may start (R486). -/
def State.pspOk (s : State) : Bool :=
  let sel := s.fld Reg.PSP_XCTRL 28 2
  let tx := s.fld Reg.PSP_XCTRL 0 9
  let rx := s.fld Reg.PSP_XCTRL 9 9
  decide (sel < 3) && s.bit (Reg.PSP_SELCLK + 8 * sel) 24 && decide (1 ≤ tx + rx) && decide (tx + rx ≤ 256) &&
  !(s.bit Reg.PSP_XCTRL 24 && s.bit (Reg.PSP_SELCLK + 8 * sel) 12)

/-- A write of `PSP_XCTRL`: GO starts a transfer, or is refused; while BUSY the register keeps its fields.
(DEDUCED, unsafe: notes/assumptions/51.md) -/
def State.writeXctrl (s : State) (v : Word) : State :=
  if s.bit Reg.PSP_XCTRL 30 then (if wordField v 31 1 = 0 then s else s.setBit Reg.PSP_XSTAT 1 true)
  else
    let s := s.regStore Reg.PSP_XCTRL v
    if wordField v 31 1 = 0 then s
    else if !s.pspOk then s.setBit Reg.PSP_XSTAT 1 true
    else
      let sel := s.fld Reg.PSP_XCTRL 28 2
      let tx := s.fld Reg.PSP_XCTRL 0 9
      let cap := s.fld Reg.PSP_XCTRL 9 9 + (if s.bit Reg.PSP_XCTRL 24 then tx else 0)
      let out := s.regBytes Reg.PSP_TXBUF tx
      ({ s with psp := some ⟨sel, out, cap⟩ }.setBit Reg.PSP_XCTRL 30 true).emit (.psp sel out)

/-- A write of another PSP register: while a transfer runs the settings and the buffer are fixed, and the boot select's are CC0's.
(DEDUCED, unsafe: notes/assumptions/51.md) -/
def State.writePsp (s : State) (i : Iface) (off : Nat) (v : Word) : State :=
  let isSel := inRange off Reg.PSP_SELCLK 0x20
  let boot := inRange off (Reg.PSP_SELCLK + 0x18) 8
  let isCore := match i with
    | .cc _ => true
    | _ => false
  if s.bit Reg.PSP_XCTRL 30 && (isSel || inRange off Reg.PSP_TXBUF 0x100) then s
  else if boot && !isCore then s
  else s.regStore off v

/-- PSP_TRANSFER_START: `PSP_XCTRL` is written with GO 1.
(DEDUCED, unsafe: notes/assumptions/51.md) -/
def execPspTransferStart (i : Iface) (v : Word) (s : State) : Host.Outcome State Fault Refusal :=
  .next <| if s.served i then s.writeXctrl (v ||| 0x80000000) else s

/-- PSP_TRANSFER_DONE: the select deasserts; the captured bytes lie in `PSP_RXBUF`, and the bytes behind them keep their values.
(DEDUCED, unsafe: notes/assumptions/51.md) -/
def execPspTransferDone (received : List Byte) (s : State) : Host.Outcome State Fault Refusal :=
  .next <|
    match s.mainOn, s.psp with
    | true, some j =>
      let s := (received.take j.capture).zipIdx.foldl (fun (s : State) b =>
        s.setFld (Reg.PSP_RXBUF + b.2 / 4 * 4) (8 * (b.2 % 4)) 8 b.1.toNat) s
      ({ s with psp := none }.setBit Reg.PSP_XCTRL 30 false).setBit Reg.PSP_XSTAT 0 true
    | _, _ => s

/-! ### A write of any register -/

/-- While ticks are stopped, an RWT write that has been held is applied at once (R580).
(DEDUCED, unsafe: notes/assumptions/68.md) -/
def State.applyStopped (s was : State) : State :=
  if s.bit Reg.TICK_STAT 0 || s.rwtHeld.length = was.rwtHeld.length then s else s.applyHeld

/-- A write to a register that is one of an array with a behaviour of its own; `none` where the register has none. -/
def State.writeArray (s : State) (off : Nat) (v : Word) : Option State :=
  match slotOf off Reg.HOST_QCTRL 16 0x40, slotOf off Reg.HOST_SQDB 16 8, slotOf off Reg.HOST_CQDB 16 8, slotOf off Reg.GDN_CTRL 3 0x2000,
      slotOf off (msixControl 0) 32 16 with
  | some q, _, _, _, _ => some (s.writeQctrl q v)
  | none, some q, _, _, _ => some (s.ringSq q (wordField v 0 16))
  | none, none, some q, _, _ => some (s.ringCq q (wordField v 0 16))
  | none, none, none, some k, _ => some (s.writeGdnCtrl k v)
  | none, none, none, none, some n => some ((s.regStore off v).flushVector n)
  | none, none, none, none, none => none

/-- A write that goes by access types alone: the words of a pair together (R24), RWT fields held (R22). -/
def State.writePlain (s : State) (i : Iface) (off : Nat) (v : Word) : State :=
  match pairRole off with
  | .low => s.holdLow i off v
  | .high => (s.commitPair i off v).applyStopped s
  | _ => (s.regStore off v).applyStopped s

/-- A write of one register through an interface that serves it. -/
def State.regWrite (s : State) (i : Iface) (off : Nat) (v : Word) : State :=
  let s := s.lockViolation i off v
  if off = Reg.GLOBAL_RSTREQ then s.writeRstReq i v
  else if off = Reg.GLOBAL_KEEPCFG then (s.regStore off v).keepWritten s
  else if off = Reg.TICK_CTRL then s.writeTickCtrl (wordField v 0 1 = 1) (wordField v 1 1 = 1)
  else if off = Reg.PLAN_STAT then s.writePlanStat v
  else if off = Reg.GLN_EVAC then s.startEvac v
  else if off = Reg.PSP_XCTRL then s.writeXctrl v
  else if inRange off Reg.PSP_SELCLK 0x8000 then s.writePsp i off v
  else if off = Reg.PWR_CAPMW then (s.writeCap (wordField v 0 16)).showCap
  else if off = Reg.NVC_UPDCTRL then s.writeUpdCtrl v true
  else if off = Reg.SEC_PROVCMD then s.writeProvCmd i v
  else if off = Reg.SEC_DBGCTRL then s.writeDbgCtrl v
  else if off = Reg.ERRLOG_TAIL then s.writeTail i false v
  else if off = Reg.ERRLOG_VTAIL then s.writeTail i true v
  else match s.writeArray off v with
    | some t => t
    | none => s.writePlain i off v

/-! ### The register rows -/

/-- REGISTER_WRITE.
(DEDUCED, unsafe: notes/assumptions/6.md) -/
def execRegisterWrite (i : Iface) (off : BitVec 24) (v : Word) (s : State) : Host.Outcome State Fault Refusal :=
  .next <| if s.served i then s.regWrite i off.toNat v else s

/-- RWT_APPLY_WHILE_STOPPED: an RWT write while `TICK_STAT.RUNNING` is 0. -/
def execRwtApplyWhileStopped (i : Iface) (off : BitVec 24) (v : Word) (s : State) : Host.Outcome State Fault Refusal :=
  .next <| if s.served i && !s.bit Reg.TICK_STAT 0 then s.regWrite i off.toNat v else s

/-- PAIR_LOW_READ: the value goes out, and the high word is latched for the interface.
(DEDUCED, unsafe: notes/assumptions/6.md) -/
def execPairLowRead (i : Iface) (off : BitVec 24) (s : State) : Host.Outcome State Fault Refusal :=
  .next <|
    if s.served i then
      let r := s.regFetch i off.toNat
      r.2.emit (.readData r.1)
    else s

/-- PAIR_LOW_WRITE. -/
def execPairLowWrite (i : Iface) (off : BitVec 24) (v : Word) (s : State) : Host.Outcome State Fault Refusal :=
  .next <| if s.served i && pairRole off.toNat = .low then s.holdLow i off.toNat v else s

/-- PAIR_HIGH_WRITE. -/
def execPairHighWrite (i : Iface) (off : BitVec 24) (v : Word) (s : State) : Host.Outcome State Fault Refusal :=
  .next <| if s.served i && pairRole off.toNat = .high then (s.commitPair i off.toNat v).applyStopped s else s

/-- LOG_TAIL_WRITE. -/
def execLogTailWrite (i : Iface) (violation : Bool) (v : Word) (s : State) : Host.Outcome State Fault Refusal :=
  .next <| if s.served i then s.writeTail i violation v else s

/-- PIN_HOLD_EXPIRY: the latch is clear and 1 ms has passed since the last event that set it. -/
def execPinHoldExpiry (alert : Bool) (s : State) : Host.Outcome State Fault Refusal :=
  .next <|
    if alert then
      if s.alertLow && !s.bit Reg.ERRLOG_STAT 4 then { s.reach (s.alertAt + 1000) with alertLow := false } else s
    else if s.diagLow && !s.bit Reg.ERRLOG_STAT 5 then { s.reach (s.diagAt + 1000) with diagLow := false } else s

end Sys2Proof.Machine
end

