-- ==== Sys2Proof/Machine/HostSide.lean ====
section
/-!
DEFINITION. Machine/HostSide.lean: the PCI Express function (R291 to R297): BAR0 and BAR2 accesses, link-up, and the events that reset the host side;
and the refresh rate of the package memory (R110).
-/
namespace Sys2Proof.Machine

/-! ### Host access to T0 (R107, R296, R297) -/

/-- The 64-bit words that a write covers only in part. -/
def partWords (a n : Nat) : List Nat :=
  ([a / 8, (a + n - 1) / 8].filter fun w => decide (8 * w < a) || decide (a + n < 8 * w + 8)).foldl addMember []

/-- A write from a host: words covered whole are replaced; a word covered in part is read and merged, and keeps its poison and its
contents where it is poisoned. -/
def State.hostStore (s : State) (a : Nat) (bs : List Byte) : State :=
  if bs.isEmpty then s
  else
    let part := partWords a bs.length
    let s := part.foldl (fun (s : State) w => match keyGet s.t0Flips w with
      | some f => let t := ((s.logFlips (8 * w) 8).t0Sense w f).2; { t with t0Flips := keyDel t.t0Flips w }
      | none => s) s
    let bad := fun w => part.contains w && s.t0Poison.contains w
    let lo := if bad (a / 8) then 8 * (a / 8) + 8 else a
    let hi := if bad ((a + bs.length - 1) / 8) then 8 * ((a + bs.length - 1) / 8) else a + bs.length
    if hi ≤ lo then s else s.t0Store lo ((bs.drop (lo - a)).take (hi - lo))

/-- A read by a host: the current contents, and whether a word of them is poisoned (R296). -/
def State.hostLoad (s : State) (a n : Nat) : List Byte × Bool × State :=
  if n = 0 then ([], false, s)
  else
    let s := ((s.logFlips a n).t0Range a n).2
    (s.showContexts a (cellRead s.t0 a n), s.t0Poison.any fun w => decide (a / 8 ≤ w) && decide (w ≤ (a + n - 1) / 8), s)

/-- Bytes of the Granary. -/
abbrev t0Bytes : Nat := 0x300_0000

/-! ### BAR0 and BAR2 -/

/-- BAR0_BAD_ACCESS. -/
def execBar0BadAccess (write : Bool) (off : BitVec 24) (dwords : Nat) (s : State) : Host.Outcome State Fault Refusal :=
  .next <|
    if s.served .pcie then
      let s := s.logViolation 1 1 { addr := off.toNat }
      if write then s else s.emit (.completion (List.replicate (4 * dwords) 0xFF) false)
    else s

/-- BAR2_READ: beyond the Granary it reads 0. -/
def execBar2Read (off : BitVec 26) (len : Nat) (s : State) : Host.Outcome State Fault Refusal :=
  .next <|
    if s.served .pcie then
      let n := min len (t0Bytes - off.toNat)
      let (bs, ep, s) := s.hostLoad off.toNat n
      s.emit (.completion (bs ++ (List.replicate (len - n) 0 : List Byte)) ep)
    else s

/-- BAR2_WRITE: the part within the staging area is written; any other part within the Granary is discarded and logged.
(PRESUMED, unsafe: notes/assumptions/52.md) -/
def execBar2Write (off : BitVec 26) (bytes : List Byte) (s : State) : Host.Outcome State Fault Refusal :=
  .next <|
    if s.served .pcie then
      let a := off.toNat
      let bs := bytes.take (t0Bytes - a)
      let (b, n) := s.staging.getD (a, 0)
      let lo := max a b
      let hi := min (a + bs.length) (b + n)
      let inner := (bs.drop (lo - a)).take (hi - lo)
      let s := s.hostStore lo inner
      if inner.length < bs.length then s.logViolation 1 2 { addr := a } else s
    else s

/-! ### Host-side reset (R294) -/

/-- The registers that an event of R294 resets: the HOST block but the host window table and its generation. -/
def hostOff (off : Nat) : Bool := inRange off 0x0B_0000 0x1_0000 && off != Reg.HOST_HWTGEN && !inRange off Reg.HOST_HWT_LO 0x2000

/-- The PCI Express function and the HOST block are reset, and every queue; `down` where the link goes down too.
(PRESUMED, unsafe: notes/assumptions/52.md) -/
def State.hostReset (s : State) (down : Bool) : State :=
  let s := (List.range 16).foldl (fun (s : State) q => s.resetQueue q) s
  let link := s.reg Reg.HOST_STAT &&& 0x000F1F00
  let keep := fun (k : Nat) => !hostOff (k % 2 ^ 24)
  let regs := (resetRegCells.filter fun c => hostOff c.1).foldl (fun (m : Cells 32) c => cellSet m c.1 c.2)
    (s.regs.filter fun c => !hostOff c.1)
  let s := { s with
    regs := regs, rwtHeld := s.rwtHeld.filter fun h => !hostOff h.1, hiLatch := s.hiLatch.filter (fun c => keep c.1),
    lowHeld := s.lowHeld.filter (fun c => keep c.1), staging := none, stagingDue := none, msixOn := false, msixMask := false }
  let s := if down then s else s.setReg Reg.HOST_STAT link
  (s.setBit Reg.HOST_STAT 0 true).logError 7 2

/-- HOST_SIDE_RESET. -/
def execHostSideReset (why : HostReset) (s : State) : Host.Outcome State Fault Refusal :=
  .next <|
    if s.mainOn then s.hostReset (match why with
      | .hotReset | .linkDown => true
      | .flr | .d3hot => false)
    else s

/-- PERST_ASSERT. -/
def execPerstAssert (s : State) : Host.Outcome State Fault Refusal :=
  .next <| if s.mainOn then s.hostReset true else s

/-- PCIE_LINK_UP: ×1, ×2 or ×4 at speed 1 to 4.
(PRESUMED, unsafe: notes/assumptions/52.md) -/
def execPcieLinkUp (width speed : Nat) (s : State) : Host.Outcome State Fault Refusal :=
  .next <|
    if s.mainOn && (width = 1 || width = 2 || width = 4) && decide (1 ≤ speed) && decide (speed ≤ 4) then
      (s.setFld Reg.HOST_STAT 8 5 width).setFld Reg.HOST_STAT 16 4 speed
    else s

/-- REFRESH_RATE_CHANGE: the memory's temperature report asks for another rate. -/
def execRefreshRateChange (x2 x4 : Bool) (s : State) : Host.Outcome State Fault Refusal :=
  .next <| if s.mainOn then (s.setBit Reg.MEMCH_STAT 1 x2).setBit Reg.MEMCH_STAT 2 x4 else s

end Sys2Proof.Machine
end

