-- ==== Sys2Proof/Machine/Jtag.lean ====
section
/-!
DEFINITION. Machine/Jtag.lean: the test access port (R553, R570, R571): which instruction is in effect, what its data register captures, and what the
IO18 pads follow. Cell n of the boundary register is bit n.
-/
namespace Sys2Proof.Machine

/-- The TAP works from the release step until OFF (R553).
(PRESUMED, unsafe: notes/assumptions/53.md) -/
def State.tapOn (s : State) : Bool :=
  match s.aon.phase with
  | .powerupB | .on | .powerdown => true
  | .off | .powerupA => false

/-- An instruction takes effect.
(PRESUMED, unsafe: notes/assumptions/53.md) -/
def State.tap (s : State) (j : JtagState) : State := if s.tapOn then { s with jtag := j } else s

/-- What the identification register captures. -/
def State.idcodeBits (s : State) : BitVec 79 := (s.reg Reg.GLOBAL_IDCODE).setWidth 79

/-- TAP_RESET: Test-Logic-Reset, with IDCODE selected; the pads are the system's.
(PRESUMED, unsafe: notes/assumptions/53.md) -/
def execTapReset (s : State) : Host.Outcome State Fault Refusal :=
  .next <| s.tap { s.jtag with instr := .idcode, captured := s.idcodeBits, drive := .system }

/-- IDCODE. -/
def execIdcode (s : State) : Host.Outcome State Fault Refusal :=
  .next <| s.tap { s.jtag with instr := .idcode, captured := s.idcodeBits, drive := .system }

/-- SAMPLE_PRELOAD: the pads are sampled, and the cells take what was shifted in. -/
def execSamplePreload (pads cells : BitVec 79) (s : State) : Host.Outcome State Fault Refusal :=
  .next <| s.tap { instr := .samplePreload, cells := cells, captured := pads, drive := .system }

/-- EXTEST: every IO18 pad follows its cell. -/
def execExtest (pads : BitVec 79) (s : State) : Host.Outcome State Fault Refusal :=
  .next <| s.tap { s.jtag with instr := .extest, captured := pads, drive := .cells }

/-- HIGHZ: every IO18 output at high impedance, with bypass selected. -/
def execHighz (s : State) : Host.Outcome State Fault Refusal :=
  .next <| s.tap { s.jtag with instr := .highz, captured := 0, drive := .highz }

/-- CLAMP: the pads hold their cells' values, with bypass selected. -/
def execClamp (s : State) : Host.Outcome State Fault Refusal :=
  .next <| s.tap { s.jtag with instr := .clamp, captured := 0, drive := .cells }

/-- BYPASS. -/
def execBypass (s : State) : Host.Outcome State Fault Refusal :=
  .next <| s.tap { s.jtag with instr := .bypass, captured := 0, drive := .system }

/-- DEBUG: selects the debug access path while it is open, and is BYPASS otherwise (R542). What the path then reads is a free value.
(DESIGN CHOICE, safe: notes/assumptions/3.md; DEDUCED, unsafe: notes/assumptions/49.md) -/
def execDebug (s : State) : Host.Outcome State Fault Refusal :=
  .next <|
    if !s.tapOn then s
    else if s.bit Reg.SEC_STAT 8 then
      let (v, s) := s.draw
      s.tap { s.jtag with instr := .debug, captured := BitVec.ofNat 79 v, drive := .system }
    else s.tap { s.jtag with instr := .bypass, captured := 0, drive := .system }

end Sys2Proof.Machine
end

