-- ==== Sys2Proof/Machine/Select.lean ====
section
/-!
DEFINITION. Machine/Select.lean: the select opcodes of the Sieve, TOPK, BEAM, PAGESEL and SAMPLE (R177 to R180, Table 5-7), and
SCAN on the Rachis (R176).
-/
namespace Sys2Proof.Machine

/-- The Sieve's engine index (Table 4-3). -/
abbrev sve : Nat := 20
/-- The Rachis's engine index (Table 4-3). -/
abbrev rcs : Nat := 21

/-- Enter a candidate into a list of the best, after every candidate that is not smaller: ties go to the earlier. -/
def enterBest (x : Int × Nat) : List (Int × Nat) → List (Int × Nat)
  | [] => [x]
  | y :: ys => if y.1 < x.1 then x :: y :: ys else y :: enterBest x ys

/-- The `k` greatest of a list of scores with their indices, best first, ties to the lower index. -/
def bestOf (k : Nat) (xs : List (Int × Nat)) : List (Int × Nat) :=
  xs.foldl (fun best x => (enterBest x best).take k) []

/-- An index as an INT16 element; the pad 0xFFFF is −1. -/
def asInt16 (n : Nat) : Int := signedOf 16 n

/-- A list of indices padded with 0xFFFF to `k`. -/
def padList (k : Nat) (xs : List Nat) : List Int := (xs.map asInt16) ++ List.replicate (k - xs.length) (-1)

/-! ### TOPK -/

/-- TOPK (R177). -/
def State.topk (s : State) (f : TFields) : State :=
  let loops := (s.eng sve).loops
  let k := f.mod.toNat + 1
  let (a, s) := s.readOp sve (s.plan.tensor f.srcA.toNat) loops
  let (valid, s) := if f.srcB = 0xFFF then ([], s) else s.readOp sve (s.plan.tensor f.srcB.toNat) loops
  let rows := a.zipIdx.map fun row =>
    let cand := row.1.zipIdx.filter fun x => f.srcB = 0xFFF || (valid.getD row.2 []).getD x.2 0 != 0
    padList k ((bestOf k cand).map Prod.snd)
  s.writeRows (s.plan.tensor f.dst.toNat) loops rows

/-- TOPK writes the indices of the greatest scores. -/
def execTopk (f : TFields) (s : State) : Host.Outcome State Fault Refusal :=
  let d := s.plan.tensor f.srcA.toNat
  .next <| s.runWord sve (tWord 0x60 f) (d.rows * (ceilDiv d.cols 64 + (f.mod.toNat + 1)) + 40) fun s => s.topk f

/-! ### BEAM -/

/-- BEAM over one batch row: the `w` greatest sums as (sum, parent, candidate). -/
def beamRow (w : Nat) (cands : List (List Int)) (beams : List Int) : List (Int × Nat × Nat) :=
  let c := (cands.headD []).length
  let sums := cands.zipIdx.flatMap fun row => row.1.zipIdx.map fun x => (x.1 + beams.getD row.2 0, row.2 * c + x.2)
  (bestOf w sums).map fun b => (b.1, b.2 / max 1 c, b.2 % max 1 c)

/-- BEAM (R178). -/
def State.beam (s : State) (f : TFields) : State :=
  let loops := (s.eng sve).loops
  let w := f.mod.toNat % 16 + 1
  let dB := s.plan.tensor f.srcB.toNat
  let (a, s) := s.readOp sve (s.plan.tensor f.srcA.toNat) loops
  let (b, s) := s.readOp sve dB loops
  let res := (List.range s.planRows).map fun g =>
    beamRow w ((a.drop (g * w)).take w) (((b.drop (g * w)).take w).map fun row => row.headD 0)
  let sat := clampInt (fmtLow 3) (fmtHigh 3)
  let s := s.writeRows (s.plan.tensor f.dst.toNat) loops
    (res.flatMap fun g => g.map fun x => [(x.2.1 : Int), (x.2.2 : Int), sat x.1])
  if bitOf f.mod.toNat 4 then s.writeRows dB loops (res.flatMap fun g => g.map fun x => [sat x.1]) else s

/-- BEAM advances a beam search. -/
def execBeam (f : TFields) (s : State) : Host.Outcome State Fault Refusal :=
  let d := s.plan.tensor f.srcA.toNat
  let w := f.mod.toNat % 16 + 1
  .next <| s.runWord sve (tWord 0x61 f) (s.planRows * (w * ceilDiv d.cols 64 + w * w) + 40) fun s => s.beam f

/-! ### PAGESEL -/

/-- Enter a number into a rising list. -/
def enterRising (n : Nat) : List Nat → List Nat
  | [] => [n]
  | m :: ms => if n < m then n :: m :: ms else m :: enterRising n ms

/-- The chosen pages of one row, in ascending order. -/
def pageRow (k : Nat) (scores : List Int) : List Int :=
  let best := bestOf k (scores.zipIdx.filter fun x => x.1 != -2147483648)
  padList k ((best.map Prod.snd).foldl (fun l n => enterRising n l) [])

/-- PAGESEL (R179). -/
def State.pagesel (s : State) (f : TFields) : State :=
  let loops := (s.eng sve).loops
  let (a, s) := s.readOp sve (s.plan.tensor f.srcA.toNat) loops
  s.writeRows (s.plan.tensor f.dst.toNat) loops (a.map (pageRow (f.mod.toNat + 1)))

/-- PAGESEL writes each row's chosen pages. -/
def execPagesel (f : TFields) (s : State) : Host.Outcome State Fault Refusal :=
  let d := s.plan.tensor f.srcA.toNat
  .next <| s.runWord sve (tWord 0x62 f) (s.planRows * (ceilDiv d.cols 64 + (f.mod.toNat + 1)) + 40) fun s => s.pagesel f

/-! ### SAMPLE -/

/-- The counter-based draw of R180: 32 bits from a seed and a counter. -/
def sampleHash (seed counter : BitVec 32) : BitVec 32 :=
  let x := seed ^^^ (counter * 0x9e3779b9)
  let x := (x ^^^ (x >>> 16)) * 0x85ebca6b
  let x := (x ^^^ (x >>> 13)) * 0xc2b2ae35
  x ^^^ (x >>> 16)

/-- The first index at which a running sum exceeds a threshold. -/
def firstPast (threshold : Int) : List Int → Int → Nat → Nat
  | [], _, i => i
  | p :: ps, acc, i => if threshold < acc + p then i else firstPast threshold ps (acc + p) (i + 1)

/-- The token that a row draws. -/
def sampleRow (tbl : List Int) (k : Int) (x : Nat) (logits : List Int) : Nat :=
  let mx := (logits.drop 1).foldl max (logits.headD 0)
  let ps := logits.map fun l => max 0 (distEntry tbl k (mx - l))
  let total := ps.sum
  if total = 0 then logits.findIdx (· = mx)
  else firstPast ((x * total.toNat / 2 ^ 32 : Nat) : Int) ps 0 0

/-- SAMPLE (R180): only occupied rows draw, and advance their counters; the draws are counted. -/
def State.sample (s : State) (f : TFields) : State :=
  let loops := (s.eng sve).loops
  let dB := s.plan.tensor f.srcB.toNat
  let dT := s.plan.tensor f.srcC.toNat
  let (a, s) := s.readOp sve (s.plan.tensor f.srcA.toNat) loops
  let (b, s) := s.readOp sve dB loops
  let (_, s) := s.readOp sve dT loops
  let tbl := s.table dT loops 0
  let word := fun g i => BitVec.ofNat 32 (unsignedOf 32 ((b.getD g []).getD i 0))
  let tokens := (List.range s.planRows).map fun g =>
    if (keyGet s.rows g).isSome then
      [(sampleRow tbl dT.indexShift (sampleHash (word g 0) (word g 1)).toNat (a.getD g []) : Int)]
    else [0]
  let gens := (List.range s.planRows).map fun g =>
    [signedOf 32 (word g 0).toNat, signedOf 32 (word g 1 + 1).toNat]
  let s := s.count sve fun n => { n with mac := n.mac + (s.rows.filter fun x => x.1 < s.planRows).length }
  (s.writeRows (s.plan.tensor f.dst.toNat) loops tokens).writeRows dB loops gens

/-- SAMPLE draws one token per occupied row. -/
def execSample (f : TFields) (s : State) : Host.Outcome State Fault Refusal :=
  let d := s.plan.tensor f.srcA.toNat
  .next <| s.runWord sve (tWord 0x63 f) (s.planRows * 2 * ceilDiv d.cols 64 + 40) fun s => s.sample f

/-! ### SCAN -/

/-- `⌈log₂ t⌉`. -/
def ceilLog2 (t : Nat) : Nat := if t ≤ 1 then 0 else Nat.log2 (t - 1) + 1

/-- One step of the recurrence, channel by channel, before saturation. -/
def scanRaw (h a b : List Int) : List Int := h.zipIdx.map fun x => rneShift (a.getD x.2 0 * x.1) 15 + b.getD x.2 0

/-- The recurrence over the steps of one row group: each step's `h` with the saturations it made. -/
def scanSteps (fmt : Nat) (h : List Int) : List (List Int × List Int) → List (List Int × Nat)
  | [] => []
  | (a, b) :: rest =>
    let raw := scanRaw h a b
    let h' := raw.map (clampInt (fmtLow fmt) (fmtHigh fmt))
    (h', (raw.map (satCount fmt)).sum) :: scanSteps fmt h' rest

/-- SCAN (R176), with its saturations and its element steps over occupied rows (R222). -/
def State.scan (s : State) (f : TFields) : State :=
  let loops := (s.eng rcs).loops
  let t := f.mod.toNat % 64 + 1
  let carry := bitOf f.mod.toNat 6
  let dB := s.plan.tensor f.srcB.toNat
  let dC := s.plan.tensor f.srcC.toNat
  let dD := s.plan.tensor f.dst.toNat
  let (a, s) := s.readOp rcs (s.plan.tensor f.srcA.toNat) loops
  let (b, s) := s.readOp rcs dB loops
  let (c, s) := if carry then s.readOp rcs dC loops else ([], s)
  let res := (List.range s.planRows).map fun g =>
    let h0 := if carry then c.getD g (List.replicate dB.cols 0) else List.replicate dB.cols 0
    scanSteps dD.fmt h0 (((a.drop (g * t)).take t).zip ((b.drop (g * t)).take t))
  let s := s.count rcs fun n =>
    { n with sat := n.sat + (res.map fun g => (g.map Prod.snd).sum).sum, mac := n.mac + s.rows.length * dB.cols * t }
  let s := s.writeRows dD loops (res.flatMap fun g => g.map Prod.fst)
  if carry then s.writeRows dC loops (res.map fun g => (g.getLastD ([], 0)).1) else s

/-- SCAN evaluates a gated linear recurrence. -/
def execScan (f : TFields) (s : State) : Host.Outcome State Fault Refusal :=
  let t := f.mod.toNat % 64 + 1
  let c := (s.plan.tensor f.srcB.toNat).cols
  .next <| s.runWord rcs (tWord 0x50 f) (s.planRows * ceilDiv c 64 * (t + 2 * ceilLog2 t) + 24) fun s => s.scan f

end Sys2Proof.Machine
end

