-- ==== Sys2Proof/Machine/Serial.lean ====
section
/-!
DEFINITION. Machine/Serial.lean: the host serial port (R467 to R481): frames, their checks, and the replies that the following frames carry.
-/
namespace Sys2Proof.Machine

/-! ### Frames and replies (Tables 16-2 and 16-4) -/

/-- One bit of the CRC-8 of a header. -/
def crc8Bit (c : BitVec 8) : BitVec 8 := if c.getLsbD 7 then (c <<< 1) ^^^ 0x07#8 else c <<< 1

/-- One byte of it. -/
def crc8Byte (c : BitVec 8) (b : Byte) : BitVec 8 :=
  crc8Bit (crc8Bit (crc8Bit (crc8Bit (crc8Bit (crc8Bit (crc8Bit (crc8Bit (c ^^^ b))))))))

/-- HCRC of a word 0: over bits 31:24, 23:16 and 15:8. -/
def hspHcrc (w : Word) : Nat :=
  let b := fun lo => BitVec.ofNat 8 (wordField w lo 8)
  (crc8Byte (crc8Byte (crc8Byte 0 (b 24)) (b 16)) (b 8)).toNat

/-- The CRC-32 over words, each taken as four bytes, little-endian. -/
def hspCrc (ws : List Word) : Word := crc32 (ws.flatMap fun w => leBytes 4 w.toNat)

/-- A reply (Table 16-4), with its data. -/
def hspPack (op cnt seq status : Nat) (int poison rep : Bool) (data : List Word) : List Word :=
  let bit := fun (b : Bool) (k : Nat) => if b then 2 ^ k else 0
  let w0 := BitVec.ofNat 32 (op * 2 ^ 28 + cnt * 2 ^ 20 + 2 ^ 19 + bit int 18 + bit poison 17 + bit rep 16 + seq * 2 ^ 8 + status)
  let ws := w0 :: data
  ws ++ [hspCrc ws]

/-- The reply that the next frame carries; the first after a reset has STATUS 0x08 (R474). -/
def State.hspPending (s : State) : List Word := if s.hsp.reply.isEmpty then hspPack 0 0 0 8 s.hspIntLow false false [] else s.hsp.reply

/-- The frame ends: HSP_CS_N rises, what was written to `HSP_CFG` applies, and the ready time runs (R470, R475). `data` is W. -/
def State.hspEnd (s : State) (h : HspHead) (data : Nat) : State :=
  let s := s.hspCfg.setBit Reg.HSP_STAT 1 h.idleHigh
  { s with hsp := { s.hsp with readyAt := h.rise + 100 + data } }

/-- The reply to a frame waits for the next. -/
def State.hspReply (s : State) (ws : List Word) : State := { s with hsp := { s.hsp with reply := ws } }

/-- A frame is rejected (R477): the reject word is its reply.
(DEDUCED, unsafe: notes/assumptions/50.md) -/
def State.hspReject (s : State) (h : HspHead) (op cnt seq data status : Nat) : State :=
  let s := ((s.addSat Reg.HSP_REJCNT 0 32 1).setBit Reg.HSP_STAT 8 true).logViolation 2 status
  let s := s.hspEnd h data
  s.hspReply (hspPack op cnt seq status s.hspIntLow false false [])

/-- A frame has been carried out: its reply is also the one that REPEAT fetches.
(DEDUCED, unsafe: notes/assumptions/50.md) -/
def State.hspDone (s : State) (h : HspHead) (op cnt data status : Nat) (poison : Bool) (words : List Word) : State :=
  let s := (s.addSat Reg.HSP_FRAMECNT 0 32 1).hspEnd h data
  let ws := hspPack op cnt h.seq.toNat status s.hspIntLow poison false words
  { s with hsp := { s.hsp with reply := ws, last := some ws } }

/-- A well-formed frame: served outside OFF; an early one is rejected, and any other carries the pending reply out, fails the
checks of its ADDR, or is carried out.
(DEDUCED, unsafe: notes/assumptions/50.md) -/
def State.hspFrame (s : State) (h : HspHead) (op cnt data : Nat) (rangeOk : Bool) (f : State → State) : State :=
  if !s.served .hsp then s
  else if h.fall < s.hsp.readyAt then s.hspReject h op cnt h.seq.toNat data 6
  else
    let s := s.emit (.hsp s.hspPending)
    if rangeOk then f s else s.hspReject h op cnt h.seq.toNat data 5

/-! ### Commands (Table 16-3) -/

/-- HSP_NOP. -/
def execHspNop (h : HspHead) (s : State) : Host.Outcome State Fault Refusal :=
  .next <| s.hspFrame h 0 0 0 true fun s => s.hspDone h 0 0 0 0 false []

/-- A count of data words that CNT can carry. -/
def hspCount (n : Nat) : Bool := decide (1 ≤ n) && decide (n ≤ 256)

/-- Read registers in ascending order, each as its interface reads it. -/
def State.hspRegs (s : State) (off : Nat) : Nat → List Word × State
  | 0 => ([], s)
  | n + 1 =>
    let r := s.regFetch .hsp off
    let rest := r.2.hspRegs (off + 4) n
    (r.1 :: rest.1, rest.2)

/-- HSP_RD. -/
def execHspRd (h : HspHead) (off : BitVec 24) (count : Nat) (s : State) : Host.Outcome State Fault Refusal :=
  .next <|
    if hspCount count then
      s.hspFrame h 1 (count - 1) count (off.toNat % 4 = 0 && decide (off.toNat + 4 * count ≤ 0x100_0000)) fun s =>
        let r := s.hspRegs off.toNat count
        r.2.hspDone h 1 (count - 1) count 0 false r.1
    else s

/-- Write registers in ascending order; answers whether a locked field was met with another value. -/
def State.hspWrites (s : State) (off : Nat) : List Word → Bool × State
  | [] => (false, s)
  | v :: vs =>
    let broke := match findReg off with
      | some (d, _) => breaksLock d v (s.reg off)
      | none => false
    let rest := (s.regWrite .hsp off v).hspWrites (off + 4) vs
    (broke || rest.1, rest.2)

/-- HSP_WR. A write that resets the main domain leaves the HSP as after reset. -/
def execHspWr (h : HspHead) (off : BitVec 24) (words : HspWords) (s : State) : Host.Outcome State Fault Refusal :=
  .next <|
    let n := words.length
    if hspCount n then
      s.hspFrame h 2 (n - 1) n (off.toNat % 4 = 0 && decide (off.toNat + 4 * n ≤ 0x100_0000)) fun s =>
        let r := s.hspWrites off.toNat words
        if r.2.mainOn then r.2.hspDone h 2 (n - 1) n (if r.1 then 9 else 0) false [] else r.2
    else s

/-- HSP_MRD. -/
def execHspMrd (h : HspHead) (addr : BitVec 26) (count : Nat) (s : State) : Host.Outcome State Fault Refusal :=
  .next <|
    if hspCount count then
      s.hspFrame h 3 (count - 1) count (addr.toNat % 4 = 0 && decide (addr.toNat + 4 * count ≤ t0Bytes)) fun s =>
        let (bs, poison, s) := s.hostLoad addr.toNat (4 * count)
        s.hspDone h 3 (count - 1) count 0 poison ((List.range count).map fun k => BitVec.ofNat 32 (leAt bs (4 * k) 4))
    else s

/-- HSP_MWR. -/
def execHspMwr (h : HspHead) (addr : BitVec 26) (words : HspWords) (s : State) : Host.Outcome State Fault Refusal :=
  .next <|
    let n := words.length
    let a := addr.toNat
    if hspCount n then
      s.hspFrame h 4 (n - 1) n (a % 4 = 0 && decide (a + 4 * n ≤ t0Bytes)) fun s =>
        let inside := match s.staging with
          | some (b, m) => decide (b ≤ a) && decide (a + 4 * n ≤ b + m)
          | none => false
        if inside then (s.hostStore a (words.flatMap fun w => leBytes 4 w.toNat)).hspDone h 4 (n - 1) n 0 false []
        else (s.logViolation 2 7 { addr := a }).hspDone h 4 (n - 1) n 7 false []
    else s

/-- HSP_REPEAT: a copy of the reply of the last frame carried out, with REPEAT set, or STATUS 0x08 (R476). -/
def execHspRepeat (h : HspHead) (s : State) : Host.Outcome State Fault Refusal :=
  .next <| s.hspFrame h 5 0 0 true fun s =>
    let s := s.hspEnd h 0
    match s.hsp.last with
    | some (w :: ws) =>
      let body := (w ||| 0x00010000) :: ws.dropLast
      s.hspReply (body ++ [hspCrc body])
    | _ => s.hspReply (hspPack 5 0 h.seq.toNat 8 s.hspIntLow false false [])

/-! ### Rejected frames (R473, R477, R478) -/

/-- P of a frame: its data words. -/
def hspData (w : Word) : Nat :=
  let op := wordField w 28 4
  if op = 2 || op = 4 then wordField w 20 8 + 1 else 0

/-- W of a frame, for its ready time. -/
def hspWords (w : Word) : Nat :=
  let op := wordField w 28 4
  if 1 ≤ op && op ≤ 4 then wordField w 20 8 + 1 else 0

/-- Reserved OP or bits, or an ADDR that its command does not allow (STATUS 0x05). -/
def hspReserved (w a : Word) : Bool :=
  let op := wordField w 28 4
  let n := 4 * (wordField w 20 8 + 1)
  decide (5 < op) || wordField w 16 4 != 0 ||
  (if op = 0 || op = 5 then wordField w 20 8 != 0 || a != 0
   else a.toNat % 4 != 0 || decide ((if op ≤ 2 then 0x100_0000 else t0Bytes) < a.toNat + n))

/-- The first check of R477 that a frame fails, behind the early one: `words` whole words and `extra` bits were clocked. -/
def State.hspCheck (s : State) (extra : Nat) (words : List Word) : Option Nat :=
  let w := words.getD 0 0
  let need := 3 + hspData w
  if extra % 32 != 0 then some 1
  else if wordField w 0 8 != hspHcrc w then some 2
  else if decide (words.length < need + (if s.hsp.wire then 1 else 0)) then some 3
  else if words.getD (need - 1) 0 != hspCrc (words.take (need - 1)) then some 4
  else if hspReserved w (words.getD 1 0) then some 5
  else none

/-- HSP_REJECTED_FRAME: a frame of no bits is ignored, and one that passes every check is another row's. In single-wire operation a
frame whose header fails is not driven. Where not even word 0 was whole, what is read of its fields is a free value.
(DESIGN CHOICE, safe: notes/assumptions/3.md; DEDUCED, unsafe: notes/assumptions/50.md) -/
def execHspRejectedFrame (h : HspHead) (extra : Nat) (words : HspWords) (s : State) : Host.Outcome State Fault Refusal :=
  .next <|
    if !s.served .hsp || (words.isEmpty && extra % 32 = 0) then s
    else
      let early := decide (h.fall < s.hsp.readyAt)
      match (if early then some 6 else s.hspCheck extra words) with
      | none => s
      | some status =>
        let s := if early || (s.hsp.wire && status = 2) then s else s.emit (.hsp (s.hspPending.take words.length))
        let (w, s) := match words with
          | w :: _ => (w, s)
          | [] => (BitVec.ofNat 32 s.draw.1, s.draw.2)
        s.hspReject h (wordField w 28 4) (wordField w 20 8) (wordField w 8 8) (hspWords w) status

/-- HSP_CFG_APPLY: HSP_CS_N rises, or is high; CPHA and WIRE as written take effect (R470).
(DEDUCED, unsafe: notes/assumptions/50.md) -/
def execHspCfgApply (s : State) : Host.Outcome State Fault Refusal :=
  .next <| if s.served .hsp then s.hspCfg else s

end Sys2Proof.Machine
end

