-- ==== Sys2Proof/Machine/Vector.lean ====
section
/-!
DEFINITION. Machine/Vector.lean: the vector and lookup opcodes of the Sheafs, VADD, VMUL, VLUT, VNORM and VMASK (R170,
Table 5-5).
-/
namespace Sys2Proof.Machine

/-- The cost of the vector opcodes, `R × ⌈C / 32⌉ × m + 12` (R170). -/
def State.vecCost (s : State) (f : TFields) : Nat :=
  let d := s.plan.tensor f.srcA.toNat
  d.rows * ceilDiv d.cols 32

/-- Requantise the rows of an exact result to DST, counting saturations on a Sheaf (R157, R195), and write them.
(DEDUCED, unsafe: notes/assumptions/37.md) -/
def State.putVector (s : State) (n : Nat) (dD : TDesc) (loops : List LoopFrame) (e : Int) (raw : List (List Int)) : State :=
  let raw := raw.map fun row => row.map fun x => requantRaw x e dD.shift
  let sats := (raw.map fun row => (row.map (satCount dD.fmt)).sum).sum
  let s := s.count n fun c => { c with sat := c.sat + sats }
  s.writeRows dD loops (raw.map fun row => row.map (clampInt (fmtLow dD.fmt) (fmtHigh dD.fmt)))

/-- Row `k` of SRCB: its only row with BCAST set, row `k` without. -/
def bcastRow (bcast : Bool) (rows : List (List Int)) (k : Nat) : List Int := rows.getD (if bcast then 0 else k) []

/-- Pair the elements of a row with those of another of its length. -/
def zipRow (g : Int → Int → Int) (a b : List Int) : List Int := a.zipIdx.map fun x => g x.1 (b.getD x.2 0)

/-- VADD: `a × 2^(e_A − m) + b × 2^(e_B − m)` at `m = min(e_A, e_B)`. -/
def State.vadd (s : State) (n : Nat) (f : TFields) : State :=
  let loops := (s.eng n).loops
  let dA := s.plan.tensor f.srcA.toNat
  let dB := s.plan.tensor f.srcB.toNat
  let (a, s) := s.readOp n dA loops
  let (b, s) := s.readOp n dB loops
  let m := min dA.shift dB.shift
  let ka : Int := (2 ^ (dA.shift - m).toNat : Nat)
  let kb : Int := (2 ^ (dB.shift - m).toNat : Nat)
  s.putVector n (s.plan.tensor f.dst.toNat) loops m
    (a.zipIdx.map fun row => zipRow (fun x y => x * ka + y * kb) row.1 (bcastRow (bitOf f.mod.toNat 0) b row.2))

/-- VMUL: `a × b` at `e_A + e_B`. -/
def State.vmul (s : State) (n : Nat) (f : TFields) : State :=
  let loops := (s.eng n).loops
  let dA := s.plan.tensor f.srcA.toNat
  let dB := s.plan.tensor f.srcB.toNat
  let (a, s) := s.readOp n dA loops
  let (b, s) := s.readOp n dB loops
  s.putVector n (s.plan.tensor f.dst.toNat) loops (dA.shift + dB.shift)
    (a.zipIdx.map fun row => zipRow (· * ·) row.1 (bcastRow (bitOf f.mod.toNat 0) b row.2))

/-- VLUT: the table's entry, as stored (Table 6-3). -/
def State.vlut (s : State) (n : Nat) (f : TFields) : State :=
  let loops := (s.eng n).loops
  let dT := s.plan.tensor f.srcC.toNat
  let (a, s) := s.readOp n (s.plan.tensor f.srcA.toNat) loops
  let (_, s) := s.readOp n dT loops
  let tbl := s.table dT loops 0
  s.writeRows (s.plan.tensor f.dst.toNat) loops (a.map fun row => row.map (signedEntry tbl dT.indexShift))

/-- One row of VNORM: `a × rt × g` with `rt = table[distance(rne(Σ a² / C))]`. -/
def normRow (tbl : List Int) (k : Int) (gain row : List Int) : List Int :=
  let sq := (row.map fun x => x * x).sum
  let rt := distEntry tbl k (rneDiv sq row.length)
  zipRow (fun x g => x * rt * g) row gain

/-- VNORM, at `e_A − 14 + e_B`. -/
def State.vnorm (s : State) (n : Nat) (f : TFields) : State :=
  let loops := (s.eng n).loops
  let dA := s.plan.tensor f.srcA.toNat
  let dB := s.plan.tensor f.srcB.toNat
  let dT := s.plan.tensor f.srcC.toNat
  let (a, s) := s.readOp n dA loops
  let (g, s) := s.readOp n dB loops
  let (_, s) := s.readOp n dT loops
  let tbl := s.table dT loops 0
  s.putVector n (s.plan.tensor f.dst.toNat) loops (dA.shift - 14 + dB.shift)
    (a.map fun row => normRow tbl dT.indexShift (g.headD []) row)

/-- The batch row of a row of a VMASK: OWN 2 parts by their stream, every other class by equal groups. -/
def State.maskBatch (s : State) (d : TDesc) (k : Nat) : Nat :=
  if d.own = 2 then k / d.rows else k / max 1 (d.rows / s.planRows)

/-- VMASK: a row of zeros where the batch row is empty or the mask is 0, the row unchanged elsewhere. -/
def State.vmask (s : State) (n : Nat) (f : TFields) : State :=
  let loops := (s.eng n).loops
  let dA := s.plan.tensor f.srcA.toNat
  let (a, s) := s.readOp n dA loops
  let (mask, s) := if f.srcB = 0xFFF then ([], s) else s.readOp n (s.plan.tensor f.srcB.toNat) loops
  let keep := fun k => (keyGet s.rows (s.maskBatch dA k)).isSome &&
    (f.srcB = 0xFFF || (mask.getD k []).headD 0 != 0)
  s.putVector n (s.plan.tensor f.dst.toNat) loops dA.shift
    (a.zipIdx.map fun row => if keep row.2 then row.1 else row.1.map fun _ => 0)

/-- VADD adds two tensors. -/
def execVadd (n : Fin 16) (f : TFields) (s : State) : Host.Outcome State Fault Refusal :=
  .next <| s.runWord n (tWord 0x30 f) (s.vecCost f + 12) fun s => s.vadd n f

/-- VMUL multiplies two tensors. -/
def execVmul (n : Fin 16) (f : TFields) (s : State) : Host.Outcome State Fault Refusal :=
  .next <| s.runWord n (tWord 0x31 f) (s.vecCost f + 12) fun s => s.vmul n f

/-- VLUT maps a tensor through a table. -/
def execVlut (n : Fin 16) (f : TFields) (s : State) : Host.Outcome State Fault Refusal :=
  .next <| s.runWord n (tWord 0x32 f) (s.vecCost f + 12) fun s => s.vlut n f

/-- VNORM normalises rows; it costs twice the common formula. -/
def execVnorm (n : Fin 16) (f : TFields) (s : State) : Host.Outcome State Fault Refusal :=
  .next <| s.runWord n (tWord 0x33 f) (2 * (s.vecCost f + 12)) fun s => s.vnorm n f

/-- VMASK clears rows. -/
def execVmask (n : Fin 16) (f : TFields) (s : State) : Host.Outcome State Fault Refusal :=
  .next <| s.runWord n (tWord 0x34 f) (s.vecCost f + 12) fun s => s.vmask n f

end Sys2Proof.Machine
end

