-- ==== Sys2Proof/Machine/Dispatch.lean ====
section
/-!
DEFINITION. Machine/Dispatch.lean: one arm per command, each a direct call of its meaning.
-/
namespace Sys2Proof.Machine

/-- The effect of a command on everything but the queue of waiting commands. -/
def exec (i : Instr) (s : State) : Host.Outcome State Fault Refusal :=
  match i with
  | .tickEdge => Sys2Proof.Machine.execTickEdge s
  | .fallowOpening => Sys2Proof.Machine.execFallowOpening s
  | .armingStep => Sys2Proof.Machine.execArmingStep s
  | .sliceBudgetExhausted e => Sys2Proof.Machine.execSliceBudgetExhausted e s
  | .portFrameSync port t => Sys2Proof.Machine.execPortFrameSync port t s
  | .lockAcquired => Sys2Proof.Machine.execLockAcquired s
  | .holdover => Sys2Proof.Machine.execHoldover s
  | .tickSyncPulse t => Sys2Proof.Machine.execTickSyncPulse t s
  | .syncPulseTimeout => Sys2Proof.Machine.execSyncPulseTimeout s
  | .workendTimeout chip => Sys2Proof.Machine.execWorkendTimeout chip s
  | .tickRunStart iface shedAlert => Sys2Proof.Machine.execTickRunStart iface shedAlert s
  | .tickRunStop iface shedAlert => Sys2Proof.Machine.execTickRunStop iface shedAlert s
  | .registerWrite iface off v => Sys2Proof.Machine.execRegisterWrite iface off v s
  | .rwtApplyWhileStopped iface off v => Sys2Proof.Machine.execRwtApplyWhileStopped iface off v s
  | .pairLowRead iface off => Sys2Proof.Machine.execPairLowRead iface off s
  | .pairLowWrite iface off v => Sys2Proof.Machine.execPairLowWrite iface off v s
  | .pairHighWrite iface off v => Sys2Proof.Machine.execPairHighWrite iface off v s
  | .end_ e => Sys2Proof.Machine.execEnd e s
  | .loop e count len => Sys2Proof.Machine.execLoop e count len s
  | .idle e count => Sys2Proof.Machine.execIdle e count s
  | .fixjob e job => Sys2Proof.Machine.execFixjob e job s
  | .post e knot value step => Sys2Proof.Machine.execPost e knot value step s
  | .wait e knot value step => Sys2Proof.Machine.execWait e knot value step s
  | .waitSatisfied e => Sys2Proof.Machine.execWaitSatisfied e s
  | .mmul n f => Sys2Proof.Machine.execMmul n f s
  | .accout n f => Sys2Proof.Machine.execAccout n f s
  | .gate n f => Sys2Proof.Machine.execGate n f s
  | .vadd n f => Sys2Proof.Machine.execVadd n f s
  | .vmul n f => Sys2Proof.Machine.execVmul n f s
  | .vlut n f => Sys2Proof.Machine.execVlut n f s
  | .vnorm n f => Sys2Proof.Machine.execVnorm n f s
  | .vmask n f => Sys2Proof.Machine.execVmask n f s
  | .sattn n f => Sys2Proof.Machine.execSattn n f s
  | .fattn n f => Sys2Proof.Machine.execFattn n f s
  | .sumsc n f => Sys2Proof.Machine.execSumsc n f s
  | .sprob n f => Sys2Proof.Machine.execSprob n f s
  | .scan f => Sys2Proof.Machine.execScan f s
  | .topk f => Sys2Proof.Machine.execTopk f s
  | .beam f => Sys2Proof.Machine.execBeam f s
  | .pagesel f => Sys2Proof.Machine.execPagesel f s
  | .sample f => Sys2Proof.Machine.execSample f s
  | .hrot n f => Sys2Proof.Machine.execHrot n f s
  | .req n f => Sys2Proof.Machine.execReq n f s
  | .kvapp n f => Sys2Proof.Machine.execKvapp n f s
  | .move cart mdesc srcStep dstStep => Sys2Proof.Machine.execMove cart mdesc srcStep dstStep s
  | .moveCommit cart a => Sys2Proof.Machine.execMoveCommit cart a s
  | .moveSourceError cart addr => Sys2Proof.Machine.execMoveSourceError cart addr s
  | .bar0BadAccess write off dwords => Sys2Proof.Machine.execBar0BadAccess write off dwords s
  | .bar2Read off len => Sys2Proof.Machine.execBar2Read off len s
  | .bar2Write off bytes => Sys2Proof.Machine.execBar2Write off bytes s
  | .hostSideReset why => Sys2Proof.Machine.execHostSideReset why s
  | .perstAssert => Sys2Proof.Machine.execPerstAssert s
  | .queueEnable iface q v => Sys2Proof.Machine.execQueueEnable iface q v s
  | .queueReset iface q v => Sys2Proof.Machine.execQueueReset iface q v s
  | .sqDoorbell iface q index placed => Sys2Proof.Machine.execSqDoorbell iface q index placed s
  | .cqDoorbell iface q index => Sys2Proof.Machine.execCqDoorbell iface q index s
  | .requestFetch a => Sys2Proof.Machine.execRequestFetch a s
  | .nop q tag => Sys2Proof.Machine.execNop q tag s
  | .query q tag => Sys2Proof.Machine.execQuery q tag s
  | .abort q tag => Sys2Proof.Machine.execAbort q tag s
  | .planLoad q tag => Sys2Proof.Machine.execPlanLoad q tag s
  | .planActivate q tag => Sys2Proof.Machine.execPlanActivate q tag s
  | .planDiscard q tag => Sys2Proof.Machine.execPlanDiscard q tag s
  | .streamOpen q tag => Sys2Proof.Machine.execStreamOpen q tag s
  | .streamClose q tag => Sys2Proof.Machine.execStreamClose q tag s
  | .streamPause q tag => Sys2Proof.Machine.execStreamPause q tag s
  | .streamResume q tag => Sys2Proof.Machine.execStreamResume q tag s
  | .streamAbort q tag => Sys2Proof.Machine.execStreamAbort q tag s
  | .stateExport q tag => Sys2Proof.Machine.execStateExport q tag s
  | .migrate q tag => Sys2Proof.Machine.execMigrate q tag s
  | .audioBind q tag => Sys2Proof.Machine.execAudioBind q tag s
  | .audioUnbind q tag => Sys2Proof.Machine.execAudioUnbind q tag s
  | .overlay q tag => Sys2Proof.Machine.execOverlay q tag s
  | .completionPost q a => Sys2Proof.Machine.execCompletionPost q a s
  | .resultPost => Sys2Proof.Machine.execResultPost s
  | .heldResultFlush q => Sys2Proof.Machine.execHeldResultFlush q s
  | .qmodTimeout q => Sys2Proof.Machine.execQmodTimeout q s
  | .gydanWrite port cls moveId arg bytes => Sys2Proof.Machine.execGydanWrite port cls moveId arg bytes s
  | .gydanSeal port cls moveId lines => Sys2Proof.Machine.execGydanSeal port cls moveId lines s
  | .gydanReleased port cls moveId => Sys2Proof.Machine.execGydanReleased port cls moveId s
  | .gydanDiscard port cls moveId => Sys2Proof.Machine.execGydanDiscard port cls moveId s
  | .gydanPull port cls moveId src dst lines => Sys2Proof.Machine.execGydanPull port cls moveId src dst lines s
  | .gydanCommit port cls moveId => Sys2Proof.Machine.execGydanCommit port cls moveId s
  | .gydanRefuse port cls moveId arg => Sys2Proof.Machine.execGydanRefuse port cls moveId arg s
  | .ask port a => Sys2Proof.Machine.execAsk port a s
  | .answer port sc a => Sys2Proof.Machine.execAnswer port sc a s
  | .answerTimeout sc => Sys2Proof.Machine.execAnswerTimeout sc s
  | .report port cap estimate workEnd => Sys2Proof.Machine.execReport port cap estimate workEnd s
  | .share port mw period => Sys2Proof.Machine.execShare port mw period s
  | .workend port tick x => Sys2Proof.Machine.execWorkend port tick x s
  | .classmsg port tick cls lag mask => Sys2Proof.Machine.execClassmsg port tick cls lag mask s
  | .rejoin port => Sys2Proof.Machine.execRejoin port s
  | .memberEject chip => Sys2Proof.Machine.execMemberEject chip s
  | .leave port => Sys2Proof.Machine.execLeave port s
  | .eject port chip incarnation => Sys2Proof.Machine.execEject port chip incarnation s
  | .reqfwd port record => Sys2Proof.Machine.execReqfwd port record s
  | .reqdone port record => Sys2Proof.Machine.execReqdone port record s
  | .result port sc records => Sys2Proof.Machine.execResult port sc records s
  | .locate port sc chip => Sys2Proof.Machine.execLocate port sc chip s
  | .flitReceive port f => Sys2Proof.Machine.execFlitReceive port f s
  | .ackTimeout port => Sys2Proof.Machine.execAckTimeout port s
  | .gdnEnable iface port v => Sys2Proof.Machine.execGdnEnable iface port v s
  | .gdnRetrain iface port v => Sys2Proof.Machine.execGdnRetrain iface port v s
  | .blockLockAcquired port => Sys2Proof.Machine.execBlockLockAcquired port s
  | .deskewDone port skew reversed polarity => Sys2Proof.Machine.execDeskewDone port skew reversed polarity s
  | .paramReceive port p => Sys2Proof.Machine.execParamReceive port p s
  | .trainingLimit port => Sys2Proof.Machine.execTrainingLimit port s
  | .laneLockLoss port lane => Sys2Proof.Machine.execLaneLockLoss port lane s
  | .markerError port => Sys2Proof.Machine.execMarkerError port s
  | .peerLossTimeout port => Sys2Proof.Machine.execPeerLossTimeout port s
  | .sensorRead readings => Sys2Proof.Machine.execSensorRead readings s
  | .thermalDerateStep => Sys2Proof.Machine.execThermalDerateStep s
  | .pmbusPeriod readings lengthened => Sys2Proof.Machine.execPmbusPeriod readings lengthened s
  | .pmbAlert status => Sys2Proof.Machine.execPmbAlert status s
  | .powerShareInterval raw => Sys2Proof.Machine.execPowerShareInterval raw s
  | .calibrationFit => Sys2Proof.Machine.execCalibrationFit s
  | .voltageSelection readBack => Sys2Proof.Machine.execVoltageSelection readBack s
  | .capWrite iface v => Sys2Proof.Machine.execCapWrite iface v s
  | .stookSharePeriod => Sys2Proof.Machine.execStookSharePeriod s
  | .shareTimeout => Sys2Proof.Machine.execShareTimeout s
  | .controlCoreRestart core => Sys2Proof.Machine.execControlCoreRestart core s
  | .coreReturn core => Sys2Proof.Machine.execCoreReturn core s
  | .cc3ReleaseOverrun => Sys2Proof.Machine.execCc3ReleaseOverrun s
  | .firmwareReset why => Sys2Proof.Machine.execFirmwareReset why s
  | .systemReset why => Sys2Proof.Machine.execSystemReset why s
  | .resetNAssert => Sys2Proof.Machine.execResetNAssert s
  | .onReqChange level => Sys2Proof.Machine.execOnReqChange level s
  | .powerupStart => Sys2Proof.Machine.execPowerupStart s
  | .releaseStep pins => Sys2Proof.Machine.execReleaseStep pins s
  | .ready flash => Sys2Proof.Machine.execReady flash s
  | .powerdownOff => Sys2Proof.Machine.execPowerdownOff s
  | .supplyLoss aonToo => Sys2Proof.Machine.execSupplyLoss aonToo s
  | .aonToKeep keepMv => Sys2Proof.Machine.execAonToKeep keepMv s
  | .aonStart => Sys2Proof.Machine.execAonStart s
  | .keepSample mv current => Sys2Proof.Machine.execKeepSample mv current s
  | .presenceProbe mv => Sys2Proof.Machine.execPresenceProbe mv s
  | .audioFrame port f => Sys2Proof.Machine.execAudioFrame port f s
  | .nonaudioHoldExpiry port slot => Sys2Proof.Machine.execNonaudioHoldExpiry port slot s
  | .rateWindow port frames cycles => Sys2Proof.Machine.execRateWindow port frames cycles s
  | .audioNoclk port => Sys2Proof.Machine.execAudioNoclk port s
  | .camFrameStart vc => Sys2Proof.Machine.execCamFrameStart vc s
  | .camLongPacket p => Sys2Proof.Machine.execCamLongPacket p s
  | .camFrameEnd vc => Sys2Proof.Machine.execCamFrameEnd vc s
  | .camNoFrame => Sys2Proof.Machine.execCamNoFrame s
  | .hspNop h => Sys2Proof.Machine.execHspNop h s
  | .hspRd h off count => Sys2Proof.Machine.execHspRd h off count s
  | .hspWr h off words => Sys2Proof.Machine.execHspWr h off words s
  | .hspMrd h addr count => Sys2Proof.Machine.execHspMrd h addr count s
  | .hspMwr h addr words => Sys2Proof.Machine.execHspMwr h addr words s
  | .hspRepeat h => Sys2Proof.Machine.execHspRepeat h s
  | .hspCfgApply => Sys2Proof.Machine.execHspCfgApply s
  | .pspTransferStart iface v => Sys2Proof.Machine.execPspTransferStart iface v s
  | .pspTransferDone received => Sys2Proof.Machine.execPspTransferDone received s
  | .flashBusyTimeout => Sys2Proof.Machine.execFlashBusyTimeout s
  | .nvcUpdateUser iface v source a => Sys2Proof.Machine.execNvcUpdateUser iface v source a s
  | .nvcUpdateFactory iface v source a => Sys2Proof.Machine.execNvcUpdateFactory iface v source a s
  | .nvcHostBoot iface v source a => Sys2Proof.Machine.execNvcHostBoot iface v source a s
  | .nvcUpdateDone flashOk => Sys2Proof.Machine.execNvcUpdateDone flashOk s
  | .glnEvacGo iface v => Sys2Proof.Machine.execGlnEvacGo iface v s
  | .secProvision iface v => Sys2Proof.Machine.execSecProvision iface v s
  | .debugLock iface v => Sys2Proof.Machine.execDebugLock iface v s
  | .logTailWrite iface violation v => Sys2Proof.Machine.execLogTailWrite iface violation v s
  | .pinHoldExpiry alert => Sys2Proof.Machine.execPinHoldExpiry alert s
  | .tapReset => Sys2Proof.Machine.execTapReset s
  | .idcode => Sys2Proof.Machine.execIdcode s
  | .samplePreload pads cells => Sys2Proof.Machine.execSamplePreload pads cells s
  | .extest pads => Sys2Proof.Machine.execExtest pads s
  | .highz => Sys2Proof.Machine.execHighz s
  | .clamp => Sys2Proof.Machine.execClamp s
  | .debug => Sys2Proof.Machine.execDebug s
  | .bypass => Sys2Proof.Machine.execBypass s
  | .retentionSentinelSet => Sys2Proof.Machine.execRetentionSentinelSet s
  | .refreshRateChange x2 x4 => Sys2Proof.Machine.execRefreshRateChange x2 x4 s
  | .pcieLinkUp width speed => Sys2Proof.Machine.execPcieLinkUp width speed s
  | .hspRejectedFrame h extra words => Sys2Proof.Machine.execHspRejectedFrame h extra words s

end Sys2Proof.Machine
end

