-- ==== Sys2Proof/Machine/Step.lean ====
section
/-!
DEFINITION. Machine/Step.lean: one step of the block: it takes the command at the front of its queue, and runs it with the
rest of the queue.
-/
namespace Sys2Proof.Machine

/-- Put a command at the front of the queue. -/
def State.push (s : State) (c : Instr) : State := { s with pending := c :: s.pending }

/-- One step: the command at the front acts; on an empty queue the block idles (notes/assumptions/1.md).
(DESIGN CHOICE, unsafe: notes/assumptions/1.md) -/
def step (s : State) : Host.Outcome State Fault Refusal :=
  match s.pending with
  | [] => .next s
  | c :: cs => exec c { s with pending := cs }

/-- The state with the command that a word spells put at the front of its queue; unchanged where the word spells none.
(DESIGN CHOICE, unsafe: notes/assumptions/1.md) -/
def State.withFetchWord (s : State) (nbits w : Nat) : State :=
  match decodeTableWord nbits w with
  | some c => s.push c
  | none => s

end Sys2Proof.Machine
end

