-- ==== Sys2Proof/Safety.lean ====
section
/-!
DEFINITION. Safety.lean: what a sound state of the block is.  Every meaning keeps it, so a run never leaves it: contents are in
their one canonical form, and the part has the engines, queues and ports that the manual gives it, no more and no fewer.
-/
namespace Sys2Proof.Machine

/-- The keys of a keyed list rise strictly from `lo`. -/
def keyRising {α : Type} : Nat → List (Nat × α) → Bool
  | _, [] => true
  | lo, (k, _) :: m => decide (lo ≤ k) && keyRising (k + 1) m

/-- A sound state: registers, T0, T1, host memory, the flash and the latched high words in canonical form; each stream and each
accumulator bank listed once; 33 slice engines (Table 4-3), the 16 host queues with the four for forwarded requests, and three
Gydan ports. -/
def State.sound (s : State) : Bool :=
  cellWf s.regs && cellWf s.hiLatch && cellWf s.t0 && cellWf s.t1 && cellWf s.host && cellWf s.nv.flash &&
  keyRising 0 s.streams && keyRising 0 s.banks &&
  decide (s.engs.length = 33) && decide (s.queues.length = 20) && decide (s.ports.length = 3)

/-- The registers that the logging of an event and the sending of a vector change, beside the status register of the block that
raises it: the logs with their heads, counts and status, the vectors pending on the HSP, and those pending in MSI-X (R308, R346 to R349, R481). -/
def eventReg (off : Nat) : Bool :=
  off = Reg.ERRLOG_STAT || off = Reg.ERRLOG_HEAD || off = Reg.ERRLOG_VHEAD || inRange off Reg.ERRLOG_ECNT 0x40 ||
  inRange off Reg.ERRLOG_VCNT 0x40 || inRange off Reg.ERRLOG_E 0x2000 || inRange off Reg.ERRLOG_V 0x2000 ||
  off = Reg.HSP_INTPEND || off = Reg.HOST_MSIX_PBA

/-- What a write of `x` leaves in a field that holds `old` (Table 0-4, R20); `locked` says that its lock is set (R23). -/
def fieldAfter (f : RegField) (locked : Bool) (x old : Nat) : Nat :=
  match f.access with
  | .rw => if legalOk f.legal x then x else old
  | .rwl => if !locked && legalOk f.legal x then x else old
  | .w1c => old ^^^ (old &&& x)
  | .w1s => old ||| x
  | .ro | .wo | .rwt => old

/-- The registers whose write does more than their fields' access types say: each has its own rule. -/
def ownBehaviour (off : Nat) : Bool :=
  ([Reg.GLOBAL_RSTREQ, Reg.GLOBAL_KEEPCFG, Reg.TICK_CTRL, Reg.PLAN_STAT, Reg.GLN_EVAC, Reg.PWR_CAPMW, Reg.NVC_UPDCTRL, Reg.SEC_PROVCMD,
    Reg.SEC_DBGCTRL, Reg.ERRLOG_TAIL, Reg.ERRLOG_VTAIL] : List Nat).contains off ||
  inRange off Reg.PSP_SELCLK 0x8000 ||
  (slotOf off Reg.HOST_QCTRL 16 0x40).isSome || (slotOf off Reg.HOST_SQDB 16 8).isSome || (slotOf off Reg.HOST_CQDB 16 8).isSome ||
  (slotOf off Reg.GDN_CTRL 3 0x2000).isSome || (slotOf off (msixControl 0) 32 16).isSome

end Sys2Proof.Machine
end

