-- ==== Sys2Proof/WellFormed.lean ====
section
/-!
DEFINITION. WellFormed.lean: which commands the outside can send: the operands that their types leave wider than the manual does. `exec` is total
on every command; what it does with an ill-formed one is no statement about the part.
-/
namespace Sys2Proof

/-- A register offset is a whole register's (R18). -/
def aligned (off : BitVec 24) : Bool := off.toNat % 4 = 0

/-- Bytes placed in a 64-bit address space. -/
def HostBytes.fits (b : HostBytes) : Bool := decide (b.addr + b.bytes.length ≤ 2 ^ 64)

/-- The fields of a flit lie within their widths (Tables 13-2 and 13-3). -/
def Flit.fits (f : Flit) : Bool :=
  decide (f.ftype < 16) && decide (f.cls < 8) && decide (f.seq < 4096) && decide (f.len < 512) && decide (f.ack < 4096) &&
  decide (f.crClass < 8) && decide (f.credit < 256)

/-- The fields of a PARAM payload lie within their widths (R406). -/
def ParamFlit.fits (p : ParamFlit) : Bool :=
  decide (p.chip < 256) && decide (p.port < 256) && decide (p.version < 256) && decide (p.incarnation < 2 ^ 32) && decide (p.lostMask < 16) &&
  decide (p.variant < 256) && p.lostIncarn.length = 4 && p.lostIncarn.all (fun i => decide (i < 2 ^ 32)) && decide (p.ack < 65536) &&
  p.freed.length = 5 && p.freed.all fun i => decide (i < 65536)

/-- A grant is a device physical address at a 64-byte boundary; a refusal has a DETAIL of one byte. -/
def AnswerBody.fits : AnswerBody → Bool
  | .grant base => decide (base < 2 ^ 44) && base % 64 = 0
  | .refuse detail => decide (detail < 256)

/-- A frame's select rises after it has fallen. -/
def HspHead.ordered (h : HspHead) : Bool := decide (h.fall < h.rise)

/-- A command as the outside can send it.
(DEDUCED, safe: notes/assumptions/61.md) -/
def Instr.wf : Instr → Bool
  | .tickEdge => true
  | .fallowOpening => true
  | .armingStep => true
  | .sliceBudgetExhausted _ => true
  | .portFrameSync _ _ => true
  | .lockAcquired => true
  | .holdover => true
  | .tickSyncPulse _ => true
  | .syncPulseTimeout => true
  | .workendTimeout _ => true
  | .tickRunStart _ _ => true
  | .tickRunStop _ _ => true
  | .registerWrite _ off _ => aligned off
  | .rwtApplyWhileStopped _ off _ => aligned off
  | .pairLowRead _ off => aligned off
  | .pairLowWrite _ off _ => aligned off
  | .pairHighWrite _ off _ => aligned off
  | .end_ _ => true
  | .loop _ _ _ => true
  | .idle _ _ => true
  | .fixjob e _ => decide (30 ≤ e.val)
  | .post _ _ _ _ => true
  | .wait _ _ _ _ => true
  | .waitSatisfied _ => true
  | .mmul _ _ => true
  | .accout _ _ => true
  | .gate _ _ => true
  | .vadd _ _ => true
  | .vmul _ _ => true
  | .vlut _ _ => true
  | .vnorm _ _ => true
  | .vmask _ _ => true
  | .sattn _ _ => true
  | .fattn _ _ => true
  | .sumsc _ _ => true
  | .sprob _ _ => true
  | .scan _ => true
  | .topk _ => true
  | .beam _ => true
  | .pagesel _ => true
  | .sample _ => true
  | .hrot _ _ => true
  | .req _ _ => true
  | .kvapp _ _ => true
  | .move _ _ _ _ => true
  | .moveCommit _ _ => true
  | .moveSourceError _ _ => true
  | .bar0BadAccess _ _ dwords => decide (1 ≤ dwords) && decide (dwords ≤ 1024)
  | .bar2Read off len => decide (1 ≤ len) && decide (off.toNat + len ≤ 2 ^ 26)
  | .bar2Write off bytes => decide (1 ≤ bytes.length) && decide (off.toNat + bytes.length ≤ 2 ^ 26)
  | .hostSideReset _ => true
  | .perstAssert => true
  | .queueEnable _ _ _ => true
  | .queueReset _ _ _ => true
  | .sqDoorbell _ _ _ placed => placed.all HostBytes.fits
  | .cqDoorbell _ _ _ => true
  | .requestFetch _ => true
  | .nop _ _ => true
  | .query _ _ => true
  | .abort _ _ => true
  | .planLoad _ _ => true
  | .planActivate _ _ => true
  | .planDiscard _ _ => true
  | .streamOpen _ _ => true
  | .streamClose _ _ => true
  | .streamPause _ _ => true
  | .streamResume _ _ => true
  | .streamAbort _ _ => true
  | .stateExport _ _ => true
  | .migrate _ _ => true
  | .audioBind _ _ => true
  | .audioUnbind _ _ => true
  | .overlay _ _ => true
  | .completionPost _ _ => true
  | .resultPost => true
  | .heldResultFlush _ => true
  | .qmodTimeout _ => true
  | .gydanWrite _ _ _ _ bytes => decide (1 ≤ bytes.length) && decide (bytes.length ≤ 4096) && bytes.length % 64 = 0
  | .gydanSeal _ _ _ _ => true
  | .gydanReleased _ _ _ => true
  | .gydanDiscard _ _ _ => true
  | .gydanPull _ _ _ src dst lines => decide (src < 2 ^ 36) && decide (dst < 2 ^ 36) && decide (1 ≤ lines) && src % 64 = 0 && dst % 64 = 0
  | .gydanCommit _ _ _ => true
  | .gydanRefuse _ _ _ _ => true
  | .ask _ a => decide (a.planId < 2 ^ 32) && decide (a.phase < 2 ^ 16) && decide (a.size % 64 = 0)
  | .answer _ _ a => a.fits
  | .answerTimeout _ => true
  | .report _ cap estimate workEnd => decide (cap < 2 ^ 32) && decide (estimate < 2 ^ 32) && decide (workEnd < 2 ^ 32)
  | .share _ mw period => decide (mw < 2 ^ 32) && decide (period < 2 ^ 32)
  | .workend _ tick x => decide (tick < 2 ^ 32) && decide (x < 2 ^ 32)
  | .classmsg _ tick cls lag mask => decide (tick < 2 ^ 32) && decide (cls ≤ 1) && decide (lag < 2 ^ 32) && decide (mask < 16)
  | .rejoin _ => true
  | .memberEject _ => true
  | .leave _ => true
  | .eject _ _ _ => true
  | .reqfwd _ record => record.length = 64
  | .reqdone _ record => record.length = 32
  | .result _ _ records => decide (1 ≤ records.length) && decide (records.length ≤ 8) && records.all fun r => r.length = 32
  | .locate _ _ _ => true
  | .flitReceive _ f => f.fits
  | .ackTimeout _ => true
  | .gdnEnable _ _ _ => true
  | .gdnRetrain _ _ _ => true
  | .blockLockAcquired _ => true
  | .deskewDone _ _ _ _ => true
  | .paramReceive _ p => p.fits
  | .trainingLimit _ => true
  | .laneLockLoss _ _ => true
  | .markerError _ => true
  | .peerLossTimeout _ => true
  | .sensorRead readings => readings.length = 24
  | .thermalDerateStep => true
  | .pmbusPeriod readings _ => readings.length = 8
  | .pmbAlert status => status.length = 8
  | .powerShareInterval _ => true
  | .calibrationFit => true
  | .voltageSelection _ => true
  | .capWrite _ _ => true
  | .stookSharePeriod => true
  | .shareTimeout => true
  | .controlCoreRestart _ => true
  | .coreReturn _ => true
  | .cc3ReleaseOverrun => true
  | .firmwareReset _ => true
  | .systemReset _ => true
  | .resetNAssert => true
  | .onReqChange _ => true
  | .powerupStart => true
  | .releaseStep _ => true
  | .ready flash => flash.all HostBytes.fits
  | .powerdownOff => true
  | .supplyLoss _ => true
  | .aonToKeep _ => true
  | .aonStart => true
  | .keepSample _ _ => true
  | .presenceProbe _ => true
  | .audioFrame _ f => decide (f.slots.length ≤ 32)
  | .nonaudioHoldExpiry _ _ => true
  | .rateWindow _ _ _ => true
  | .audioNoclk _ => true
  | .camFrameStart _ => true
  | .camLongPacket p => decide (p.dtype < 64) && decide (p.bytes.length < 65536) && decide (p.ecc ≤ 32)
  | .camFrameEnd _ => true
  | .camNoFrame => true
  | .hspNop h => h.ordered
  | .hspRd h _ count => h.ordered && decide (1 ≤ count) && decide (count ≤ 256)
  | .hspWr h _ words => h.ordered && decide (1 ≤ words.length) && decide (words.length ≤ 256)
  | .hspMrd h _ count => h.ordered && decide (1 ≤ count) && decide (count ≤ 256)
  | .hspMwr h _ words => h.ordered && decide (1 ≤ words.length) && decide (words.length ≤ 256)
  | .hspRepeat h => h.ordered
  | .hspCfgApply => true
  | .pspTransferStart _ _ => true
  | .pspTransferDone received => decide (received.length ≤ 256)
  | .flashBusyTimeout => true
  | .nvcUpdateUser _ _ source _ => source.all HostBytes.fits
  | .nvcUpdateFactory _ _ source _ => source.all HostBytes.fits
  | .nvcHostBoot _ _ source _ => source.all HostBytes.fits
  | .nvcUpdateDone _ => true
  | .glnEvacGo _ _ => true
  | .secProvision _ _ => true
  | .debugLock _ _ => true
  | .logTailWrite _ _ _ => true
  | .pinHoldExpiry _ => true
  | .tapReset => true
  | .idcode => true
  | .samplePreload _ _ => true
  | .extest _ => true
  | .highz => true
  | .clamp => true
  | .debug => true
  | .bypass => true
  | .retentionSentinelSet => true
  | .refreshRateChange _ _ => true
  | .pcieLinkUp width speed => (width = 1 || width = 2 || width = 4) && decide (1 ≤ speed) && decide (speed ≤ 4)
  | .hspRejectedFrame h extra _ => h.ordered && decide (extra < 32)

end Sys2Proof
end

