-- ==== Sys2Proof/Certificates/Slice0/Obligations.lean ====
section
/-!
DEFINITION. Certificates/Slice0/Obligations.lean: what is claimed of the model, for the provers.
-/
open Sys2Proof Sys2Proof.Machine

/-- For every command c, queue rest cs and state s: step of s with c :: cs as its queue is exec c on s with cs as its queue; and
step of s with an empty queue answers s as it is (the idling is the model's choice, notes/assumptions/1.md). -/
def Obligations.StepRunsTheFrontCommand : Prop :=
  (∀ (c : Instr) (cs : List Instr) (s : State), step { s with pending := c :: cs } = exec c { s with pending := cs }) ∧
  (∀ s : State, s.pending = [] → step s = .next s)

/-- For every command c and state s there is a state t with exec c s = next t: no operand, mode or state stops the block. -/
def Obligations.EveryCommandAnswersANextState : Prop :=
  ∀ (c : Instr) (s : State), ∃ t, exec c s = .next t

/-- For every command c and states s, t: if exec c s = next t, the queue of t is the queue of s. -/
def Obligations.CommandsLeaveTheQueueAlone : Prop :=
  ∀ (c : Instr) (s t : State), exec c s = .next t → t.pending = s.pending

/-- For every state s that is sound (registers, T0, T1, host memory, flash and the latched high words in their one canonical form:
addresses strictly rising, no entry equal to what an unlisted address reads as; each stream and each accumulator bank listed once;
33 slice engines, 20 queues and 3 Gydan ports): if step s = next t, then t is sound. It holds in every sound state, reached or
not, over all 175 commands. -/
def Obligations.StepKeepsStatesSound : Prop :=
  ∀ s t : State, s.sound = true → step s = .next t → t.sound = true

/-- State.reset meets the invariant of StepKeepsStatesSound, and no command waits in it. -/
def Obligations.ResetStateIsSound : Prop :=
  State.reset.sound = true ∧ State.reset.pending = []

/-- Commands that may store to T0 (writes of registers among them: some reset the main domain, whose memories then read as unwritten). -/
def Sys2Proof.Instr.storesT0 : Instr → Bool
  | .tickEdge | .fallowOpening | .armingStep | .registerWrite .. | .rwtApplyWhileStopped .. | .fixjob .. | .accout .. |
    .gate .. | .vadd .. | .vmul .. | .vlut .. | .vnorm .. | .vmask .. | .sattn .. | .fattn .. | .sumsc .. | .sprob .. | .scan
    .. | .topk .. | .beam .. | .pagesel .. | .sample .. | .hrot .. | .req .. | .kvapp .. | .moveCommit .. | .bar2Write .. |
    .query .. | .planLoad .. | .completionPost .. | .resultPost | .heldResultFlush .. | .gydanWrite .. | .answer .. | .reqfwd
    .. | .result .. | .controlCoreRestart .. | .coreReturn .. | .cc3ReleaseOverrun | .firmwareReset .. | .systemReset .. |
    .resetNAssert | .onReqChange .. | .releaseStep .. | .ready .. | .powerdownOff | .supplyLoss .. | .aonToKeep .. | .aonStart
    | .camLongPacket .. | .hspWr .. | .hspMwr .. | .nvcUpdateUser .. | .nvcUpdateFactory .. | .nvcHostBoot .. => true
  | _ => false

/-- Commands that may store to T1. -/
def Sys2Proof.Instr.storesT1 : Instr → Bool
  | .fallowOpening | .armingStep | .registerWrite .. | .rwtApplyWhileStopped .. | .fixjob .. | .moveCommit .. | .query .. |
    .planLoad .. | .resultPost | .gydanWrite .. | .answer .. | .reqfwd .. | .controlCoreRestart .. | .coreReturn .. |
    .cc3ReleaseOverrun | .firmwareReset .. | .systemReset .. | .resetNAssert | .onReqChange .. | .releaseStep .. | .ready .. |
    .powerdownOff | .supplyLoss .. | .aonToKeep .. | .aonStart | .camLongPacket .. | .hspWr .. | .nvcUpdateUser .. |
    .nvcUpdateFactory .. | .nvcHostBoot .. => true
  | _ => false

/-- Commands that may store to host memory: what the engine writes there, and what a doorbell or a GO finds placed. -/
def Sys2Proof.Instr.storesHost : Instr → Bool
  | .tickEdge | .fallowOpening | .armingStep | .registerWrite .. | .rwtApplyWhileStopped .. | .fixjob .. | .moveCommit .. |
    .sqDoorbell .. | .query .. | .planLoad .. | .completionPost .. | .resultPost | .heldResultFlush .. | .gydanWrite .. |
    .answer .. | .reqfwd .. | .result .. | .coreReturn .. | .ready .. | .camLongPacket .. | .hspWr .. | .nvcUpdateUser .. |
    .nvcUpdateFactory .. | .nvcHostBoot .. => true
  | _ => false

/-- For every command c and states s, t with exec c s = next t: unless c is one of the commands that may store to T0, every byte
of T0 reads in t as in s; the same for T1 and for host memory, each with its own list of commands. The lists are Instr.storesT0,
Instr.storesT1 and Instr.storesHost; every other command is a form that stores nothing there. -/
def Obligations.MemoryFrame : Prop :=
  ∀ (c : Instr) (s t : State), exec c s = .next t →
    (c.storesT0 = false → ∀ a, cellGet t.t0 a = cellGet s.t0 a) ∧
    (c.storesT1 = false → ∀ a, cellGet t.t1 a = cellGet s.t1 a) ∧
    (c.storesHost = false → ∀ a, cellGet t.host a = cellGet s.host a)

/-- Commands that may change a register. -/
def Sys2Proof.Instr.writesRegisters : Instr → Bool
  | .pairLowRead .. | .pairLowWrite .. | .loop .. | .nop .. | .planActivate .. | .planDiscard .. | .streamOpen .. |
    .streamClose .. | .streamPause .. | .streamResume .. | .streamAbort .. | .stateExport .. | .migrate .. | .audioBind .. |
    .audioUnbind .. | .overlay .. | .answerTimeout .. | .report .. | .rejoin .. | .hspCfgApply | .pinHoldExpiry .. | .tapReset
    | .idcode | .samplePreload .. | .extest .. | .highz | .clamp | .debug | .bypass | .retentionSentinelSet => false
  | _ => true

/-- Commands that may change an engine of the slice: its position, its budget, its loops or its counts. -/
def Sys2Proof.Instr.movesEngines : Instr → Bool
  | .tickEdge | .fallowOpening | .armingStep | .sliceBudgetExhausted .. | .registerWrite .. | .rwtApplyWhileStopped .. |
    .end_ .. | .loop .. | .idle .. | .fixjob .. | .post .. | .wait .. | .waitSatisfied .. | .mmul .. | .accout .. | .gate .. |
    .vadd .. | .vmul .. | .vlut .. | .vnorm .. | .vmask .. | .sattn .. | .fattn .. | .sumsc .. | .sprob .. | .scan .. | .topk
    .. | .beam .. | .pagesel .. | .sample .. | .hrot .. | .req .. | .kvapp .. | .move .. | .moveCommit .. | .moveSourceError
    .. | .classmsg .. | .sensorRead .. | .controlCoreRestart .. | .coreReturn .. | .cc3ReleaseOverrun | .firmwareReset .. |
    .systemReset .. | .resetNAssert | .onReqChange .. | .releaseStep .. | .ready .. | .powerdownOff | .supplyLoss .. |
    .aonToKeep .. | .aonStart | .hspWr .. | .nvcUpdateUser .. | .nvcUpdateFactory .. | .nvcHostBoot .. => true
  | _ => false

/-- Commands that may change an accumulator bank. -/
def Sys2Proof.Instr.changesBanks : Instr → Bool
  | .fallowOpening | .armingStep | .registerWrite .. | .rwtApplyWhileStopped .. | .mmul .. | .accout .. | .gate .. | .fattn
    .. | .moveCommit .. | .answer .. | .controlCoreRestart .. | .cc3ReleaseOverrun | .firmwareReset .. | .systemReset .. |
    .resetNAssert | .onReqChange .. | .releaseStep .. | .powerdownOff | .supplyLoss .. | .aonToKeep .. | .aonStart | .hspWr ..
    => true
  | _ => false

/-- Commands that may change which plan is active: an activation, a deactivation, or a reset of the main domain. -/
def Sys2Proof.Instr.changesActivePlan : Instr → Bool
  | .fallowOpening | .armingStep | .registerWrite .. | .rwtApplyWhileStopped .. | .controlCoreRestart .. |
    .cc3ReleaseOverrun | .firmwareReset .. | .systemReset .. | .resetNAssert | .onReqChange .. | .releaseStep .. |
    .powerdownOff | .supplyLoss .. | .aonToKeep .. | .aonStart | .hspWr .. => true
  | _ => false

/-- Commands that may change the batch rows of the tick in progress: the edge, or a reset of the main domain. -/
def Sys2Proof.Instr.changesRowMap : Instr → Bool
  | .tickEdge | .registerWrite .. | .rwtApplyWhileStopped .. | .controlCoreRestart .. | .cc3ReleaseOverrun | .firmwareReset
    .. | .systemReset .. | .resetNAssert | .onReqChange .. | .releaseStep .. | .powerdownOff | .supplyLoss .. | .aonToKeep ..
    | .aonStart | .hspWr .. => true
  | _ => false

/-- For every command c and states s, t with exec c s = next t: unless c is in the list of the part (Instr.writesRegisters,
movesEngines, changesBanks, changesActivePlan, changesRowMap), every register, every engine, every accumulator bank, the active
plan, and the batch rows of the tick in progress are in t as in s. The active plan changes only at an arming step, in a fallow
window, or under a reset. -/
def Obligations.EngineAndPlanFrame : Prop :=
  ∀ (c : Instr) (s t : State), exec c s = .next t →
    (c.writesRegisters = false → ∀ a, t.reg a = s.reg a) ∧
    (c.movesEngines = false → ∀ e, t.eng e = s.eng e) ∧
    (c.changesBanks = false → ∀ n b, t.bank n b = s.bank n b) ∧
    (c.changesActivePlan = false → t.active = s.active) ∧
    (c.changesRowMap = false → t.rows = s.rows)

/-- Commands that may change an open stream. -/
def Sys2Proof.Instr.changesStreams : Instr → Bool
  | .tickEdge | .fallowOpening | .armingStep | .sliceBudgetExhausted .. | .workendTimeout .. | .registerWrite .. |
    .rwtApplyWhileStopped .. | .pairHighWrite .. | .end_ .. | .idle .. | .fixjob .. | .post .. | .wait .. | .waitSatisfied ..
    | .mmul .. | .accout .. | .gate .. | .vadd .. | .vmul .. | .vlut .. | .vnorm .. | .vmask .. | .sattn .. | .fattn .. |
    .sumsc .. | .sprob .. | .scan .. | .topk .. | .beam .. | .pagesel .. | .sample .. | .hrot .. | .req .. | .kvapp .. | .move
    .. | .moveCommit .. | .moveSourceError .. | .hostSideReset .. | .perstAssert | .queueEnable .. | .queueReset .. | .abort
    .. | .resultPost | .heldResultFlush .. | .gydanReleased .. | .gydanCommit .. | .gydanRefuse .. | .answer .. | .workend ..
    | .classmsg .. | .result .. | .locate .. | .controlCoreRestart .. | .coreReturn .. | .cc3ReleaseOverrun | .firmwareReset
    .. | .systemReset .. | .resetNAssert | .onReqChange .. | .releaseStep .. | .ready .. | .powerdownOff | .supplyLoss .. |
    .aonToKeep .. | .aonStart | .hspWr .. | .nvcUpdateUser .. | .nvcUpdateFactory .. | .nvcHostBoot .. => true
  | _ => false

/-- Commands that may change a host queue. -/
def Sys2Proof.Instr.changesQueues : Instr → Bool
  | .tickEdge | .fallowOpening | .armingStep | .registerWrite .. | .rwtApplyWhileStopped .. | .moveCommit .. |
    .moveSourceError .. | .hostSideReset .. | .perstAssert | .queueEnable .. | .queueReset .. | .sqDoorbell .. | .cqDoorbell
    .. | .requestFetch .. | .nop .. | .query .. | .abort .. | .planLoad .. | .planActivate .. | .planDiscard .. | .streamOpen
    .. | .streamClose .. | .streamPause .. | .streamResume .. | .streamAbort .. | .stateExport .. | .migrate .. | .audioBind
    .. | .audioUnbind .. | .overlay .. | .completionPost .. | .resultPost | .heldResultFlush .. | .qmodTimeout .. |
    .gydanCommit .. | .gydanRefuse .. | .answer .. | .reqfwd .. | .reqdone .. | .result .. | .locate .. | .controlCoreRestart
    .. | .coreReturn .. | .cc3ReleaseOverrun | .firmwareReset .. | .systemReset .. | .resetNAssert | .onReqChange .. |
    .releaseStep .. | .ready .. | .powerdownOff | .supplyLoss .. | .aonToKeep .. | .aonStart | .hspWr .. | .nvcUpdateUser .. |
    .nvcUpdateFactory .. | .nvcHostBoot .. => true
  | _ => false

/-- Commands that may change the staging area. -/
def Sys2Proof.Instr.changesStaging : Instr → Bool
  | .tickEdge | .fallowOpening | .armingStep | .registerWrite .. | .rwtApplyWhileStopped .. | .pairHighWrite .. |
    .hostSideReset .. | .perstAssert | .controlCoreRestart .. | .coreReturn .. | .cc3ReleaseOverrun | .firmwareReset .. |
    .systemReset .. | .resetNAssert | .onReqChange .. | .releaseStep .. | .ready .. | .powerdownOff | .supplyLoss .. |
    .aonToKeep .. | .aonStart | .hspWr .. | .nvcUpdateUser .. | .nvcUpdateFactory .. | .nvcHostBoot .. => true
  | _ => false

/-- Commands that may change a Gydan port beyond its registers: its link state machine, its replay buffer and credits, or what waits to be sent. -/
def Sys2Proof.Instr.changesPorts : Instr → Bool
  | .tickEdge | .fallowOpening | .armingStep | .tickSyncPulse .. | .workendTimeout .. | .registerWrite .. |
    .rwtApplyWhileStopped .. | .moveCommit .. | .query .. | .resultPost | .gydanWrite .. | .gydanSeal .. | .gydanReleased .. |
    .gydanDiscard .. | .gydanPull .. | .gydanCommit .. | .gydanRefuse .. | .ask .. | .answer .. | .report .. | .share .. |
    .workend .. | .classmsg .. | .rejoin .. | .memberEject .. | .leave .. | .eject .. | .reqfwd .. | .reqdone .. | .result ..
    | .locate .. | .flitReceive .. | .ackTimeout .. | .gdnEnable .. | .gdnRetrain .. | .blockLockAcquired .. | .deskewDone ..
    | .paramReceive .. | .trainingLimit .. | .laneLockLoss .. | .markerError .. | .sensorRead .. | .stookSharePeriod |
    .controlCoreRestart .. | .coreReturn .. | .cc3ReleaseOverrun | .firmwareReset .. | .systemReset .. | .resetNAssert |
    .onReqChange .. | .releaseStep .. | .ready .. | .powerdownOff | .supplyLoss .. | .aonToKeep .. | .aonStart | .hspWr .. |
    .nvcUpdateUser .. | .nvcUpdateFactory .. | .nvcHostBoot .. => true
  | _ => false

/-- For every command c and states s, t with exec c s = next t: unless c is in the list of the part (Instr.changesStreams,
changesQueues, changesStaging, changesPorts), every stream, every queue, the staging area and every Gydan port are in t as in s.
-/
def Obligations.StreamQueueAndPortFrame : Prop :=
  ∀ (c : Instr) (s t : State), exec c s = .next t →
    (c.changesStreams = false → ∀ sc, t.stream sc = s.stream sc) ∧
    (c.changesQueues = false → ∀ q, t.queue q = s.queue q) ∧
    (c.changesStaging = false → t.staging = s.staging) ∧
    (c.changesPorts = false → ∀ k, t.port k = s.port k)

/-- Commands that may change what CC4 holds beside its registers. -/
def Sys2Proof.Instr.changesPower : Instr → Bool
  | .tickEdge | .fallowOpening | .registerWrite .. | .rwtApplyWhileStopped .. | .report .. | .share .. | .sensorRead .. |
    .thermalDerateStep | .pmbusPeriod .. | .powerShareInterval .. | .calibrationFit | .voltageSelection .. | .stookSharePeriod
    | .shareTimeout | .controlCoreRestart .. | .coreReturn .. | .cc3ReleaseOverrun | .firmwareReset .. | .systemReset .. |
    .resetNAssert | .onReqChange .. | .releaseStep .. | .powerdownOff | .supplyLoss .. | .aonToKeep .. | .aonStart | .hspWr ..
    => true
  | _ => false

/-- Commands that may change the buffers, bindings and zones of the audio ports. -/
def Sys2Proof.Instr.changesAudio : Instr → Bool
  | .tickEdge | .fallowOpening | .armingStep | .registerWrite .. | .rwtApplyWhileStopped .. | .pairHighWrite .. | .fixjob ..
    | .moveCommit .. | .gydanCommit .. | .sensorRead .. | .controlCoreRestart .. | .coreReturn .. | .cc3ReleaseOverrun |
    .firmwareReset .. | .systemReset .. | .resetNAssert | .onReqChange .. | .releaseStep .. | .ready .. | .powerdownOff |
    .supplyLoss .. | .aonToKeep .. | .aonStart | .audioFrame .. | .nonaudioHoldExpiry .. | .hspWr .. | .nvcUpdateUser .. |
    .nvcUpdateFactory .. | .nvcHostBoot .. => true
  | _ => false

/-- Commands that may change the camera receiver. -/
def Sys2Proof.Instr.changesCamera : Instr → Bool
  | .tickEdge | .fallowOpening | .armingStep | .registerWrite .. | .rwtApplyWhileStopped .. | .pairHighWrite .. |
    .controlCoreRestart .. | .coreReturn .. | .cc3ReleaseOverrun | .firmwareReset .. | .systemReset .. | .resetNAssert |
    .onReqChange .. | .releaseStep .. | .ready .. | .powerdownOff | .supplyLoss .. | .aonToKeep .. | .aonStart |
    .camFrameStart .. | .camLongPacket .. | .camFrameEnd .. | .camNoFrame | .hspWr .. | .nvcUpdateUser .. | .nvcUpdateFactory
    .. | .nvcHostBoot .. => true
  | _ => false

/-- Commands that may change the always-on domain. -/
def Sys2Proof.Instr.changesAlwaysOn : Instr → Bool
  | .registerWrite .. | .rwtApplyWhileStopped .. | .sensorRead .. | .controlCoreRestart .. | .coreReturn .. |
    .cc3ReleaseOverrun | .firmwareReset .. | .systemReset .. | .resetNAssert | .onReqChange .. | .powerupStart | .releaseStep
    .. | .ready .. | .powerdownOff | .supplyLoss .. | .aonToKeep .. | .aonStart | .keepSample .. | .presenceProbe .. | .hspWr
    .. | .nvcUpdateUser .. | .nvcUpdateFactory .. | .nvcHostBoot .. | .nvcUpdateDone .. | .retentionSentinelSet => true
  | _ => false

/-- Commands that may change the flash or what is held of the NV image. -/
def Sys2Proof.Instr.changesFlash : Instr → Bool
  | .fallowOpening | .armingStep | .registerWrite .. | .rwtApplyWhileStopped .. | .reqdone .. | .sensorRead .. |
    .controlCoreRestart .. | .coreReturn .. | .cc3ReleaseOverrun | .firmwareReset .. | .systemReset .. | .resetNAssert |
    .onReqChange .. | .releaseStep .. | .ready .. | .powerdownOff | .supplyLoss .. | .aonToKeep .. | .aonStart | .hspWr .. |
    .flashBusyTimeout | .nvcUpdateUser .. | .nvcUpdateFactory .. | .nvcHostBoot .. | .nvcUpdateDone .. => true
  | _ => false

/-- Commands that may change the frame state of the HSP. -/
def Sys2Proof.Instr.changesHsp : Instr → Bool
  | .registerWrite .. | .rwtApplyWhileStopped .. | .controlCoreRestart .. | .coreReturn .. | .cc3ReleaseOverrun |
    .firmwareReset .. | .systemReset .. | .resetNAssert | .onReqChange .. | .releaseStep .. | .ready .. | .powerdownOff |
    .supplyLoss .. | .aonToKeep .. | .aonStart | .hspNop .. | .hspRd .. | .hspWr .. | .hspMrd .. | .hspMwr .. | .hspRepeat ..
    | .hspCfgApply | .nvcUpdateUser .. | .nvcUpdateFactory .. | .nvcHostBoot .. | .hspRejectedFrame .. => true
  | _ => false

/-- Commands that may start or end a transfer of the PSP. -/
def Sys2Proof.Instr.changesPsp : Instr → Bool
  | .registerWrite .. | .rwtApplyWhileStopped .. | .controlCoreRestart .. | .cc3ReleaseOverrun | .firmwareReset .. |
    .systemReset .. | .resetNAssert | .onReqChange .. | .releaseStep .. | .powerdownOff | .supplyLoss .. | .aonToKeep .. |
    .aonStart | .hspWr .. | .pspTransferStart .. | .pspTransferDone .. => true
  | _ => false

/-- Commands that may change the test access port: its own rows, and those that may take the engine into OFF. -/
def Sys2Proof.Instr.changesTap : Instr → Bool
  | .onReqChange .. | .powerdownOff | .supplyLoss .. | .aonToKeep .. | .aonStart | .tapReset | .idcode | .samplePreload .. |
    .extest .. | .highz | .clamp | .debug | .bypass => true
  | _ => false

/-- For every command c and states s, t with exec c s = next t: unless c is in the list of the part (Instr.changesPower,
changesAudio, changesCamera, changesAlwaysOn, changesFlash, changesHsp, changesPsp, changesTap), that part is in t as in s. -/
def Obligations.PeripheralFrame : Prop :=
  ∀ (c : Instr) (s t : State), exec c s = .next t →
    (c.changesPower = false → t.power = s.power) ∧ (c.changesAudio = false → t.audio = s.audio) ∧
    (c.changesCamera = false → t.cam = s.cam) ∧ (c.changesAlwaysOn = false → t.aon = s.aon) ∧
    (c.changesFlash = false → t.nv = s.nv) ∧ (c.changesHsp = false → t.hsp = s.hsp) ∧
    (c.changesPsp = false → t.psp = s.psp) ∧ (c.changesTap = false → t.jtag = s.jtag)

/-- For a register d at offset off that is no half of a pair and has no behaviour of its own, with the interface served, no locked
field broken, and ticks running or no RWT field written: REGISTER_WRITE answers a next state t in which each field of d holds what
Table 0-4 says (RW the value unless it is a reserved encoding, RWL the same while its lock is clear, W1C the bits left, W1S the
bits joined, RO, WO and RWT the value in effect); bits outside the fields are as before; the RWT bits of legal encodings are held
behind those already held; and every other register and every other part of the state is as before. Ones written to reserved bits
change nothing of this. -/
def Obligations.RegisterWriteByAccessTypes : Prop :=
  ∀ (i : Iface) (off : BitVec 24) (v : Word) (s : State) (d : RegDesc) (k : Nat),
    s.served i = true → findReg off.toNat = some (d, k) → pairRole off.toNat = .single → ownBehaviour off.toNat = false →
    breaksLock d v (s.reg off.toNat) = false → (s.bit Reg.TICK_STAT 0 = true ∨ rwtMask d v = 0) →
    ∃ t, exec (.registerWrite i off v) s = .next t ∧
      (∀ f ∈ d.fields, t.fld off.toNat f.lo f.width =
        fieldAfter f (regLocked d (s.reg off.toNat)) (wordField v f.lo f.width) (s.fld off.toNat f.lo f.width)) ∧
      (∀ lo w, (d.fields.all fun f => decide (lo + w ≤ f.lo) || decide (f.lo + f.width ≤ lo)) = true →
        t.fld off.toNat lo w = s.fld off.toNat lo w) ∧
      (∀ a, a ≠ off.toNat → t.reg a = s.reg a) ∧
      t = { s with
        regs := t.regs
        rwtHeld := s.rwtHeld ++ if rwtMask d v = 0 then [] else [(off.toNat, rwtMask d v, v &&& rwtMask d v)] } ∧
      (∀ v' : Word, (∀ f ∈ d.fields, wordField v' f.lo f.width = wordField v f.lo f.width) →
        ∃ t', exec (.registerWrite i off v') s = .next t' ∧ ∀ a, t'.reg a = t.reg a)

/-- For an offset at which Table 21-1 puts no register: REGISTER_WRITE answers the state as it is, and a read through any
interface that is served answers 0 and changes nothing else; every offset from 0x15_0000 upwards is such an offset. A read of any
register returns 0 in every bit that lies in none of its fields. -/
def Obligations.ReservedOffsetsReadZeroAndTakeNoWrite : Prop :=
  (∀ (i : Iface) (off : BitVec 24) (v : Word) (s : State), findReg off.toNat = none →
      exec (.registerWrite i off v) s = .next s ∧
      (s.served i = true → exec (.pairLowRead i off) s = .next (s.emit (.readData 0)))) ∧
  (∀ off, 0x150000 ≤ off → findReg off = none) ∧
  (∀ (s : State) (off j : Nat), (∀ d k, findReg off = some (d, k) → (d.fields.any fun f => decide (f.lo ≤ j) && decide (j < f.lo + f.width)) = false) →
      (s.regRead off).getLsbD j = false)

/-- For a register d with its lock set and a write that carries another value for a locked field: REGISTER_WRITE answers a next
state in which every RWL field of d holds the value it held, the other fields hold what their own access types say, and no other
register changes but those of the logs and the pending vectors. A control core's write logs nothing (the next state has the same
log sequence number); a write over PCI Express or the HSP is one event of the violation log: its sequence number advances by one,
and the entry is that of class 1 SUB 3, or class 2 SUB 9. -/
def Obligations.LockedFieldsKeepTheirValue : Prop :=
  ∀ (i : Iface) (off : BitVec 24) (v : Word) (s : State) (d : RegDesc) (k : Nat),
    s.served i = true → findReg off.toNat = some (d, k) → pairRole off.toNat = .single → ownBehaviour off.toNat = false →
    eventReg off.toNat = false → breaksLock d v (s.reg off.toNat) = true → (s.bit Reg.TICK_STAT 0 = true ∨ rwtMask d v = 0) →
    ∃ t, exec (.registerWrite i off v) s = .next t ∧
      (∀ f ∈ d.fields, f.access = .rwl → t.fld off.toNat f.lo f.width = s.fld off.toNat f.lo f.width) ∧
      (∀ f ∈ d.fields, f.access ≠ .rwl → t.fld off.toNat f.lo f.width =
        fieldAfter f true (wordField v f.lo f.width) (s.fld off.toNat f.lo f.width)) ∧
      (∀ a, a ≠ off.toNat → eventReg a = false → t.reg a = s.reg a) ∧
      t = (match i with
        | .pcie => s.logViolation 1 3 { addr := off.toNat, detail := v.toNat }
        | .hsp => s.logViolation 2 9 { addr := off.toNat, detail := v.toNat }
        | .cc _ => s).regStore off.toNat v

/-- For the halves of a register pair, over an interface i that is served: PAIR_LOW_READ of the low word answers the low word and
latches the high word for i, and for no other interface or pair; a read of the high word answers what i latched (0 where nothing
was) and changes nothing; PAIR_LOW_WRITE holds the low word for i and changes no register; PAIR_HIGH_WRITE with a low word held
commits both, without one the high word alone, and afterwards i holds no low word for the pair. (The last with ticks running, or
with no RWT field in the pair; latches are in canonical form, as StepKeepsStatesSound keeps them.) -/
def Obligations.PairsAreReadAndWrittenLowWordFirst : Prop :=
  ∀ (i : Iface) (off : BitVec 24) (v : Word) (s : State), s.served i = true →
    (pairRole off.toNat = .low → off.toNat + 4 < 2 ^ 24 →
      (∃ t, exec (.pairLowRead i off) s = .next t ∧ t.sent = .readData (s.regRead off.toNat) :: s.sent ∧
        t.highRead i (off.toNat + 4) = s.reg (off.toNat + 4) ∧
        (∀ (j : Iface) (h : Nat), h < 2 ^ 24 → (j ≠ i ∨ h ≠ off.toNat + 4) → t.highRead j h = s.highRead j h) ∧
        t = { s with hiLatch := t.hiLatch, sent := t.sent }) ∧
      (∃ t, exec (.pairLowWrite i off v) s = .next t ∧ keyGet t.lowHeld (pairKey i (off.toNat + 4)) = some v ∧
        (∀ key, key ≠ pairKey i (off.toNat + 4) → keyGet t.lowHeld key = keyGet s.lowHeld key) ∧
        t = { s with lowHeld := t.lowHeld })) ∧
    (pairRole off.toNat = .high →
      exec (.pairLowRead i off) s = .next (s.emit (.readData (s.highRead i off.toNat))) ∧
      ((s.bit Reg.TICK_STAT 0 = true ∨ ∀ a ∈ ([off.toNat - 4, off.toNat] : List Nat), ∀ d k, findReg a = some (d, k) →
          ∀ f ∈ d.fields, f.access ≠ .rwt) →
        ∃ t, exec (.pairHighWrite i off v) s = .next t ∧
          t = { (match keyGet s.lowHeld (pairKey i off.toNat) with
              | some lo => s.regStore (off.toNat - 4) lo
              | none => s).regStore off.toNat v with lowHeld := keyDel s.lowHeld (pairKey i off.toNat) } ∧
          keyGet t.lowHeld (pairKey i off.toNat) = none ∧
          (∀ key, key ≠ pairKey i off.toNat → keyGet t.lowHeld key = keyGet s.lowHeld key) ∧
          (∀ a, a ≠ off.toNat → a ≠ off.toNat - 4 → t.reg a = s.reg a) ∧
          (keyGet s.lowHeld (pairKey i off.toNat) = none → t.reg (off.toNat - 4) = s.reg (off.toNat - 4))))

/-- In a sound state with TICK_STAT.RUNNING 0, an interface served and nothing held: RWT_APPLY_WHILE_STOPPED of a value to
TICK_FALLOW or TICK_SLIP that is no reserved encoding answers the state in which the register holds the value and nothing else has
changed, where the tick parameters that it would leave in effect pass the checks of R51; where they do not, the register keeps its
value, and the state is that of a refused configuration: CFGREJ raised and an error event of class 4 SUB 5 logged. A reserved
encoding changes nothing. -/
def Obligations.RwtWritesApplyAtOnceWhileStopped : Prop :=
  ∀ (i : Iface) (off : BitVec 24) (v : Word) (s : State),
    s.sound = true → s.served i = true → s.bit Reg.TICK_STAT 0 = false → s.rwtHeld = [] →
    (off.toNat = Reg.TICK_FALLOW ∧ 5 ≤ wordField v 0 6 ∧ wordField v 0 6 ≤ 40 ∨ off.toNat = Reg.TICK_SLIP ∧ wordField v 0 6 ≤ 50) →
    ((s.setFld off.toNat 0 6 (wordField v 0 6)).tickSetOk = true →
      ∃ t, exec (.rwtApplyWhileStopped i off v) s = .next t ∧ t.fld off.toNat 0 6 = wordField v 0 6 ∧
        t = s.setFld off.toNat 0 6 (wordField v 0 6)) ∧
    ((s.setFld off.toNat 0 6 (wordField v 0 6)).tickSetOk = false →
      ∃ t, exec (.rwtApplyWhileStopped i off v) s = .next t ∧ t.fld off.toNat 0 6 = s.fld off.toNat 0 6 ∧ t.bit Reg.TICK_STAT 12 = true ∧
        t = (s.logError 4 5).raise .tick Reg.TICK_STAT 12)

/-- The head, tail, ring and counters of a log: the violation log's where `x`, else the error log's (Table 21-1). -/
def Sys2Proof.Machine.logPlaces (x : Bool) : Nat × Nat × Nat × Nat :=
  if x then (Reg.ERRLOG_VHEAD, Reg.ERRLOG_VTAIL, Reg.ERRLOG_V, Reg.ERRLOG_VCNT)
  else (Reg.ERRLOG_HEAD, Reg.ERRLOG_TAIL, Reg.ERRLOG_E, Reg.ERRLOG_ECNT)

/-- For every state, log, class below 16, SUB and particulars, the recording of an event (the one operation through which every
command records) consumes one SEQ and is counted; where head − tail, mod 512, is below 256, entry head is written at slot head mod
256 and the head advances by one, mod 512, and every other entry stays; else head and entries stay and the overflow bit is set.
The tail stays. LOG_TAIL_WRITE over an interface that is served sets the tail where it moves neither backwards nor past the head;
else the tail stays, and the write is recorded as a violation of the interface that carried it: class 1 SUB 5, class 2 SUB 17, and
none of a control core. -/
def Obligations.EachLogKeepsItsOldestEntries : Prop :=
  (∀ (s : State) (x : Bool) (cls sub : Nat) (i : LogInfo), cls < 16 →
      let p := logPlaces x
      let h := s.fld p.1 0 9
      let t := s.logEvent x cls sub i
      t.logSeq = (s.logSeq + 1) % 2 ^ 32 ∧
      t.fld (p.2.2.2 + 4 * cls) 0 32 = min (s.fld (p.2.2.2 + 4 * cls) 0 32 + 1) (2 ^ 32 - 1) ∧
      t.fld p.2.1 0 9 = s.fld p.2.1 0 9 ∧
      ((h + 512 - s.fld p.2.1 0 9) % 512 < 256 →
        t.fld p.1 0 9 = (h + 1) % 512 ∧
        (∀ k, k < 8 → t.reg (p.2.2.1 + 32 * (h % 256) + 4 * k) = (logWords s.tickNo s.logSeq cls sub i).getD k 0) ∧
        (∀ e k, e < 256 → k < 8 → e ≠ h % 256 → t.reg (p.2.2.1 + 32 * e + 4 * k) = s.reg (p.2.2.1 + 32 * e + 4 * k))) ∧
      (256 ≤ (h + 512 - s.fld p.2.1 0 9) % 512 →
        t.fld p.1 0 9 = h ∧ t.bit Reg.ERRLOG_STAT (if x then 3 else 2) = true ∧
        (∀ e k, e < 256 → k < 8 → t.reg (p.2.2.1 + 32 * e + 4 * k) = s.reg (p.2.2.1 + 32 * e + 4 * k)))) ∧
  (∀ (i : Iface) (x : Bool) (v : Word) (s : State), s.served i = true →
      let p := logPlaces x
      let held := (s.fld p.1 0 9 + 512 - s.fld p.2.1 0 9) % 512
      let left := (s.fld p.1 0 9 + 512 - wordField v 0 9) % 512
      (left ≤ 256 ∧ left ≤ held →
        ∃ t, exec (.logTailWrite i x v) s = .next t ∧ t.fld p.2.1 0 9 = wordField v 0 9 ∧ t = s.setFld p.2.1 0 9 (wordField v 0 9)) ∧
      (256 < left ∨ held < left →
        ∃ t, exec (.logTailWrite i x v) s = .next t ∧ t.fld p.2.1 0 9 = s.fld p.2.1 0 9 ∧
          t = match i with
            | .pcie => s.logViolation 1 5 { addr := p.2.1, detail := v.toNat }
            | .hsp => s.logViolation 2 17 { addr := p.2.1, detail := v.toNat }
            | .cc _ => s))

/-- The setting of ALERTLAT drives ALERT_N low and starts its 1 ms at the present time; that of DIAGLAT the same for DIAG_N.
PIN_HOLD_EXPIRY on a low pin whose latch is clear answers the state in which the pin is released, 1 ms or more after that time,
and nothing else has changed; on a pin whose latch is set it answers the state as it is. -/
def Obligations.PinsStayLowOneMillisecond : Prop :=
  (∀ s : State, s.alert.alertLow = true ∧ s.alert.alertAt = s.now ∧ s.alert.bit Reg.ERRLOG_STAT 4 = true ∧
      s.diag.diagLow = true ∧ s.diag.diagAt = s.now ∧ s.diag.bit Reg.ERRLOG_STAT 5 = true) ∧
  (∀ s : State, s.alertLow = true → s.bit Reg.ERRLOG_STAT 4 = false →
      ∃ t, exec (.pinHoldExpiry true) s = .next t ∧ t.alertLow = false ∧ s.alertAt + 1000 ≤ t.now ∧
        t = { s with alertLow := false, now := t.now }) ∧
  (∀ s : State, s.diagLow = true → s.bit Reg.ERRLOG_STAT 5 = false →
      ∃ t, exec (.pinHoldExpiry false) s = .next t ∧ t.diagLow = false ∧ s.diagAt + 1000 ≤ t.now ∧
        t = { s with diagLow := false, now := t.now }) ∧
  (∀ s : State, s.bit Reg.ERRLOG_STAT 4 = true → exec (.pinHoldExpiry true) s = .next s) ∧
  (∀ s : State, s.bit Reg.ERRLOG_STAT 5 = true → exec (.pinHoldExpiry false) s = .next s)

/-- TICK_RUN_START over a served interface, with ticks stopped and RUN 0: RUN and SHEDALERT take their values, both event counters
become 0, the generator waits for its first edge, 1 ms after the present time (a follower: at the first pulse), and no other
register and no other part of the state changes. TICK_RUN_STOP with RUN 1: while a plan is active RUN stays 1 and the write is
refused (CFGREJ 1); else RUN becomes 0, a start that waits for its first edge ends, and a tick in progress is left to its end.
What a follower waits for is the model's reading (R77). -/
def Obligations.RunStartsAndStopsTicks : Prop :=
  ∀ (i : Iface) (al : Bool) (s : State), s.served i = true →
    (s.bit Reg.TICK_CTRL 0 = false → s.tick.phase = .stopped →
      ∃ t, exec (.tickRunStart i al) s = .next t ∧ t.bit Reg.TICK_CTRL 0 = true ∧ t.bit Reg.TICK_CTRL 1 = al ∧
        t.reg Reg.TICK_EVCNT0 = 0 ∧ t.reg Reg.TICK_EVCNT1 = 0 ∧ t.tick.phase = .starting ∧
        t.tick.nextNominal = (if s.isFollower then none else some (s.now + 1000)) ∧
        (∀ a, a ≠ Reg.TICK_CTRL → a ≠ Reg.TICK_EVCNT0 → a ≠ Reg.TICK_EVCNT1 → t.reg a = s.reg a) ∧
        t = { s with regs := t.regs, tick := t.tick }) ∧
    (s.bit Reg.TICK_CTRL 0 = true → s.active.isSome = true →
      ∃ t, exec (.tickRunStop i al) s = .next t ∧ t.bit Reg.TICK_CTRL 0 = true ∧ t.bit Reg.TICK_STAT 12 = true ∧ t.tick = s.tick ∧
        t.active = s.active) ∧
    (s.bit Reg.TICK_CTRL 0 = true → s.active = none →
      ∃ t, exec (.tickRunStop i al) s = .next t ∧ t.bit Reg.TICK_CTRL 0 = false ∧ t.bit Reg.TICK_CTRL 1 = al ∧
        t.tick.phase = (if s.tick.phase = .starting then .stopped else s.tick.phase) ∧
        (∀ a, a ≠ Reg.TICK_CTRL → t.reg a = s.reg a) ∧ t = { s with regs := t.regs, tick := t.tick })

/-- For a state in which the next edge is due at nominal time e and actual time a with RUN 1, and all 33 engines listed: TICK_EDGE
answers a next state t that stands in a slice, with e and a as the nominal and actual edge, the timebase at a or later, the rows
that the arming step latched in force, no posts made, the skipped ticks and the lag used up, and each engine that has a variant
latched running from that variant's start, with its budget, its loops and its counts as new; an engine with none does not run.
With RUN 0 ticks stop there instead, and no engine changes. -/
def Obligations.TickEdgeStartsEverySlice : Prop :=
  (∀ (s : State) (e a : Nat), s.edgeDue = some (e, a) → s.bit Reg.TICK_CTRL 0 = true → s.engs.length = 33 →
      ∃ t, exec .tickEdge s = .next t ∧ t.tick.phase = .slice ∧ t.tick.nominal = e ∧ t.tick.edge = a ∧ t.tick.workEnd = a ∧
        t.tick.cls = s.tick.nextCls ∧ t.tick.skips = 0 ∧ t.tick.nextLag = 0 ∧ t.tick.stepsDone = false ∧ t.now = max s.now a ∧
        t.rows = s.nextRows.getD [] ∧ t.nextRows = none ∧ t.posts = [] ∧ t.active = s.active ∧ t.t1 = s.t1 ∧ t.banks = s.banks ∧
        (∀ n, n < 33 → match (s.eng n).next with
          | some v => t.eng n =
              { s.eng n with
                running := true, variant := v.variant, next := none, pc := v.start, stop := v.start + v.length, loops := [], cycles := 0,
                remain := v.budget, bubbles := 0, waiting := none, posted := [], counts := ⟨0, 0, 0, 0, 0, 0, 0, 0, 0⟩ }
          | none => (t.eng n).running = false)) ∧
  (∀ (s : State) (e a : Nat), s.edgeDue = some (e, a) → s.bit Reg.TICK_CTRL 0 = false →
      ∃ t, exec .tickEdge s = .next t ∧ t.tick.phase = .stopped ∧ t.engs = s.engs ∧ t.rwtHeld = [])

/-- For a state in a slice phase with no engine running: FALLOW_OPENING answers a next state t in the fallow phase that opened at
max(E + P − F, X), with X the last work end; no write is held any more (R22); and neither the rows in force, nor the posts of the
tick, nor its nominal and actual edge change. While some engine runs, or in another phase, it answers the state as it is. -/
def Obligations.FallowWindowOpensAfterEverySlice : Prop :=
  (∀ s : State, s.tick.phase = .slice → (s.engs.any fun g => g.running) = false →
      ∃ t, exec .fallowOpening s = .next t ∧ t.tick.phase = .fallow ∧
        t.tick.opened = max (s.tick.nominal + s.tickP - s.tickF) s.tick.workEnd ∧ t.rwtHeld = [] ∧
        t.rows = s.rows ∧ t.posts = s.posts ∧
        t.tick.nominal = s.tick.nominal ∧ t.tick.edge = s.tick.edge) ∧
  (∀ s : State, s.tick.phase ≠ .slice ∨ (s.engs.any fun g => g.running) = true → exec .fallowOpening s = .next s)

/-- For a state in a fallow window, of a chip that times its own ticks or has the class of the next: ARMING_STEP answers a next
state t that is armed, with some row map latched, the knot start values those of the plan active in t (0 in each of the 64 without
one), the look-aside buffer empty, the timebase at the step's start or later, and the rows in force and the posts as before. A
follower without the class stays in its window, sets SYNCLOST, and no row is latched. In another phase the command changes
nothing. -/
def Obligations.ArmingStepLatchesTheNextTick : Prop :=
  (∀ s : State, s.tick.phase = .fallow → (s.isFollower = false ∧ s.isMaster = false ∨ s.isFollower = true ∧ s.tick.classed = true) →
      ∃ t, exec .armingStep s = .next t ∧ t.tick.phase = .armed ∧ t.nextRows.isSome = true ∧
        t.nextKnots = (match t.active with
          | some p => p.knotStart
          | none => List.replicate 64 0) ∧
        t.lookAside = [] ∧ t.now = max s.now (s.tick.nextEdge - 100) ∧ t.rows = s.rows ∧ t.posts = s.posts) ∧
  (∀ s : State, s.tick.phase = .fallow → s.isFollower = true → s.tick.classed = false → s.bit Reg.TICK_STAT 4 = false →
      ∃ t, exec .armingStep s = .next t ∧ t.tick = s.tick ∧ t.nextRows = s.nextRows ∧ t.logSeq = (s.logSeq + 1) % 2 ^ 32) ∧
  (∀ s : State, s.tick.phase ≠ .fallow → exec .armingStep s = .next s)

/-- For a chip whose ticks run and follow port p, with the next edge not yet placed: the N-th frame sync after the edge places the
next nominal edge on itself where it lies within w of T_int, and nothing else changes but the count of syncs and the time; an
earlier one places it at T_int, a later one, or none (HOLDOVER), at T_int + w, and each of the three clears LOCKED, sets HOLDOVER
and SRCCHG. A sync before the N-th is only counted. LOCK_ACQUIRED, once 10 spans have matched, sets LOCKED and clears HOLDOVER and
changes no other register. That spans are counted anew after lock is the model's own bookkeeping. -/
def Obligations.LockAndHoldoverFollowThePortsFrameSyncs : Prop :=
  (∀ (s : State) (p : Fin 4) (u : Nat), s.tickPort = some p.val → s.locked = true → s.tick.phase ≠ .stopped → s.tick.phase ≠ .starting →
      s.tick.nextNominal = none → s.tick.lockRun < 10 →
      (s.tick.syncs + 1 < s.fld Reg.TICK_SRC 16 13 →
        ∃ t, exec (.portFrameSync p u) s = .next t ∧ t.tick = { s.tick with syncs := s.tick.syncs + 1 } ∧
          t = { s with tick := t.tick, now := t.now }) ∧
      (s.fld Reg.TICK_SRC 16 13 ≤ s.tick.syncs + 1 → s.tick.edge + s.tickP ≤ u + s.tickW → u ≤ s.tick.edge + s.tickP + s.tickW →
        ∃ t, exec (.portFrameSync p u) s = .next t ∧ t.tick = { s.tick with nextNominal := some u, syncs := 0 } ∧
          t = { s with tick := t.tick, now := t.now }) ∧
      (s.fld Reg.TICK_SRC 16 13 ≤ s.tick.syncs + 1 → u + s.tickW < s.tick.edge + s.tickP →
        ∃ t, exec (.portFrameSync p u) s = .next t ∧ t.tick.nextNominal = some (s.tick.edge + s.tickP) ∧
          t.bit Reg.TICK_STAT 2 = false ∧ t.bit Reg.TICK_STAT 3 = true ∧ t.bit Reg.TICK_STAT 14 = true) ∧
      (s.fld Reg.TICK_SRC 16 13 ≤ s.tick.syncs + 1 → s.tick.edge + s.tickP + s.tickW < u →
        ∃ t, exec (.portFrameSync p u) s = .next t ∧ t.tick.nextNominal = some (s.tick.edge + s.tickP + s.tickW) ∧
          t.bit Reg.TICK_STAT 2 = false ∧ t.bit Reg.TICK_STAT 3 = true ∧ t.bit Reg.TICK_STAT 14 = true)) ∧
  (∀ s : State, s.locked = true → s.tick.phase ≠ .stopped → s.tick.phase ≠ .starting → s.tick.nextNominal = none →
      ∃ t, exec .holdover s = .next t ∧ t.tick.nextNominal = some (s.tick.edge + s.tickP + s.tickW) ∧
        t.bit Reg.TICK_STAT 2 = false ∧ t.bit Reg.TICK_STAT 3 = true ∧ t.bit Reg.TICK_STAT 14 = true ∧
        t.tick.seeking = s.bit Reg.TICK_SRC 31) ∧
  (∀ s : State, s.tickPort.isSome = true → s.bit Reg.TICK_STAT 2 = false → s.tick.seeking = true → 10 ≤ s.tick.lockRun →
      ∃ t, exec .lockAcquired s = .next t ∧ t.bit Reg.TICK_STAT 2 = true ∧ t.bit Reg.TICK_STAT 3 = false ∧
        (∀ a, a ≠ Reg.TICK_STAT → t.reg a = s.reg a) ∧ t = { s with regs := t.regs, tick := t.tick })

/-- TICK_SYNC_PULSE at a follower that is armed with its class, or waits for its first edge, places the next edge at the pulse and
changes nothing else but the time. SYNC_PULSE_TIMEOUT at a follower that waits for a pulse sets SYNCLOST, logs an error event, and
leaves no class taken. At a follower that has lost the timing, the next pulse makes it ask to rejoin, once. WORKEND_TIMEOUT at a
tick master that lacks a live member's work end classes the next tick without it. -/
def Obligations.StookTimingIsFollowedOrLost : Prop :=
  (∀ (s : State) (u : Nat), s.isFollower = true → s.tick.halted = false →
      (s.tick.phase = .starting ∨ s.tick.phase = .armed ∧ s.tick.classed = true ∧ s.tick.nextNominal = none) →
      ∃ t, exec (.tickSyncPulse u) s = .next t ∧ t.tick = { s.tick with nextNominal := some u } ∧ t = { s with tick := t.tick, now := max s.now u }) ∧
  (∀ (s : State) (u : Nat), s.isFollower = true → s.tick.halted = false → s.tick.phase = .fallow → s.bit Reg.TICK_STAT 4 = true →
      s.tick.rejoining = false →
      ∃ t, exec (.tickSyncPulse u) s = .next t ∧ t.tick = { s.tick with rejoining := true }) ∧
  (∀ s : State, s.isFollower = true → s.tick.halted = false → s.tick.phase ≠ .stopped → s.tick.nextNominal = none →
      s.bit Reg.TICK_STAT 4 = false →
      ∃ t, exec .syncPulseTimeout s = .next t ∧ t.bit Reg.TICK_STAT 4 = true ∧ t.tick.classed = false ∧ t.tick.phase = s.tick.phase ∧
        t.logSeq = (s.logSeq + 1) % 2 ^ 32 ∧ (∀ a, a ≠ Reg.TICK_STAT → eventReg a = false → t.reg a = s.reg a)) ∧
  (∀ (s : State) (c : Fin 4), s.isMaster = true → s.live c = true → keyGet s.tick.members c.val = none → s.tick.phase = .fallow →
      s.tick.classed = false →
      ∃ t, exec (.workendTimeout c) s = .next t ∧ t.tick.classed = true ∧ t.tick.phase = .fallow ∧
        s.tick.edge + s.tickP + s.tickS ≤ t.now)

/-- An engine that has worked `n` cycles of its budget clock and then stands at the next word (R61, R136). -/
def Sys2Proof.Machine.State.workedEng (s : State) (e n : Nat) : EngState :=
  let g := s.eng e
  let c := s.after e g.cycles n
  let p := nextPc (g.pc + 1) g.loops
  { g with pc := p.1, loops := p.2, cycles := c, remain := g.remain - n, bubbles := g.bubbles + ((c - g.cycles) - toFast e n) }

/-- For an engine e that stands at the word with a budget that lasts: END leaves e not running, with 4 less in the budget that
PLAN_ENGSTAT then reports, as not exhausted; LOOP enters its body, with COUNT passes to run, no cycle passing, and nothing else
changes; IDLE passes COUNT cycles and the engine stands at the next word, nothing else changing; POST passes 2 cycles, adds VALUE
+ i × STEP to the knot, i the index of the innermost loop, and its post is visible 6 cycles later, or 12 from the Flail, the Quern
and the Glume; the engine stands at the next word, and rows, tick and memories stay. -/
def Obligations.ControlWordsActAsTabulated : Prop :=
  (∀ (e : EngineId) (s : State), s.engs.length = 33 → s.standsAt e (cWord 0 0 0) = true → 4 ≤ (s.eng e).remain → (s.eng e).remain < 2 ^ 28 →
      ∃ t, exec (.end_ e) s = .next t ∧ (t.eng e).running = false ∧ (t.eng e).remain = (s.eng e).remain - 4 ∧
        t.fld (Reg.PLAN_ENGSTAT + 4 * e) 0 28 = (s.eng e).remain - 4 ∧ t.bit (Reg.PLAN_ENGSTAT + 4 * e) 31 = false ∧
        t.posts = s.posts ∧ (∀ k, k ≠ e.val → t.eng k = s.eng k)) ∧
  (∀ (e : EngineId) (count len : BitVec 16) (s : State), s.standsAt e (cWord 1 count.toNat len.toNat) = true →
      ∃ t, exec (.loop e count len) s = .next t ∧
        t = s.setEng e { s.eng e with
          pc := (s.eng e).pc + 1, loops := ⟨(s.eng e).pc + 1, len.toNat, count.toNat, 0⟩ :: (s.eng e).loops }) ∧
  (∀ (e : EngineId) (count : BitVec 16) (s : State), s.standsAt e (cWord 2 count.toNat 0) = true → count.toNat < (s.eng e).remain →
      ∃ t, exec (.idle e count) s = .next t ∧ t = s.setEng e (s.workedEng e count.toNat)) ∧
  (∀ (e : EngineId) (knot : BitVec 6) (v st : BitVec 16) (s : State), s.engs.length = 33 →
      s.standsAt e (sWord 0x10 knot.toNat v.toNat st.toNat) = true → 2 < (s.eng e).remain →
      let a := v.toNat + loopIndex (s.eng e).loops 1 * st.toNat
      ∃ t, exec (.post e knot v st) s = .next t ∧
        t.eng e = { s.workedEng e 2 with posted := keyPut (s.eng e).posted knot.toNat (keyGetD (s.eng e).posted knot.toNat 0 + a) } ∧
        t.posts = s.posts ++ [⟨knot.toNat, (t.eng e).cycles + (if e.val < 30 then 6 else 12), a⟩] ∧
        t.fld (Reg.PLAN_KNOT + 4 * knot.toNat) 0 16 = (s.fld (Reg.PLAN_KNOT + 4 * knot.toNat) 0 16 + a) % 2 ^ 16 ∧
        (∀ r, r ≠ Reg.PLAN_KNOT + 4 * knot.toNat → t.reg r = s.reg r) ∧ (∀ k, k ≠ e.val → t.eng k = s.eng k) ∧
        t = { s with engs := t.engs, posts := t.posts, regs := t.regs })

/-- For an engine e that stands at a WAIT with a budget that lasts, with the target VALUE + i × STEP: where the knot as e sees it,
by the start value and the posts visible by then, is at the target when the WAIT starts, the engine stands at the next word after
2 cycles; where no post applied so far brings it there within those 2 cycles, the engine stalls at the word after 2 cycles, with
that knot and target. WAIT_SATISFIED of a stalled engine, where the posts bring the knot there first at a cycle c with budget to
spare, ends the stall at c, the cycles of the stall that count charged to the budget, and the engine stands at the next word.
Nothing but that engine changes. An engine without a stall, or whose knot no post brings there, is unmoved by WAIT_SATISFIED. -/
def Obligations.WaitsStallUntilTheirKnotIsReached : Prop :=
  (∀ (e : EngineId) (knot : BitVec 6) (v st : BitVec 16) (s : State), s.engs.length = 33 →
      s.standsAt e (sWord 0x11 knot.toNat v.toNat st.toNat) = true → 2 < (s.eng e).remain →
      let target := v.toNat + loopIndex (s.eng e).loops 1 * st.toNat
      (target ≤ s.knotAt knot.toNat (s.eng e).cycles →
        ∃ t, exec (.wait e knot v st) s = .next t ∧ t = s.setEng e (s.workedEng e 2)) ∧
      ((∀ c, s.knotReach knot.toNat target (s.eng e).cycles = some c → (s.workedEng e 2).cycles < c) →
        ∃ t, exec (.wait e knot v st) s = .next t ∧
          t = s.setEng e { s.workedEng e 2 with pc := (s.eng e).pc, loops := (s.eng e).loops, waiting := some (knot.toNat, target) })) ∧
  (∀ (e : EngineId) (s : State) (k target c : Nat), s.engs.length = 33 → (s.eng e).waiting = some (k, target) →
      s.knotReach k target (s.eng e).cycles = some c → s.stallCount e (s.eng e).cycles c < (s.eng e).remain →
      ∃ t, exec (.waitSatisfied e) s = .next t ∧ (t.eng e).waiting = none ∧ (t.eng e).cycles = c ∧
        (t.eng e).remain = (s.eng e).remain - s.stallCount e (s.eng e).cycles c ∧
        ((t.eng e).pc, (t.eng e).loops) = nextPc ((s.eng e).pc + 1) (s.eng e).loops ∧ t = s.setEng e (t.eng e)) ∧
  (∀ (s : State) (k target c d : Nat), s.knotReach k target c = some d →
      target ≤ s.knotAt k d ∧ (c ≤ d) ∧ ∀ x, c ≤ x → x < d → s.knotAt k x < target) ∧
  (∀ (e : EngineId) (s : State), (s.eng e).waiting = none → exec (.waitSatisfied e) s = .next s)

/-- For an engine e with nothing left in its budget counter while its slice runs, or stalled in a WAIT for a knot that no post
brings to its target: SLICE_BUDGET_EXHAUSTED answers a next state in which e no longer runs, TICK_STAT.BUDGET and PLAN_STAT.FAULT
are set, PLAN_FAULT holds a fault, one log entry is consumed for the plan fault beside those of the holes, the posts applied
before are kept with others after them, and every other engine stands as before. An engine whose slice does not run is unmoved. -/
def Obligations.AnExhaustedBudgetEndsTheSlice : Prop :=
  (∀ (e : EngineId) (s : State), s.engs.length = 33 → s.runsDry e = true →
      ∃ t, exec (.sliceBudgetExhausted e) s = .next t ∧ (t.eng e).running = false ∧ t.bit Reg.TICK_STAT 13 = true ∧
        t.bit Reg.PLAN_STAT 9 = true ∧ t.bit Reg.PLAN_FAULT 31 = true ∧ (∃ l, t.posts = s.posts ++ l) ∧
        (∀ k, k ≠ e.val → t.eng k = s.eng k)) ∧
  (∀ (e : EngineId) (s : State), (s.eng e).running = true → (s.eng e).waiting = none → (s.eng e).remain = 0 → s.runsDry e = true) ∧
  (∀ (e : EngineId) (s : State) (k target : Nat), (s.eng e).running = true → (s.eng e).waiting = some (k, target) →
      s.knotReach k target (s.eng e).cycles = none → s.runsDry e = true) ∧
  (∀ (e : EngineId) (s : State), (s.eng e).running = false → exec (.sliceBudgetExhausted e) s = .next s)

/-- The word of a Thresher instruction and its cost's bounds: ROWS × (Lk / 64) × max(64 × ⌈Q / 16⌉, t1(b)) + 160, where the t1(b) term
binds only keys that lie in T1 (Table 8-2, R259); `sum` where only summary keys are read. -/
def Sys2Proof.Machine.State.thresherBounds (s : State) (n : Fin 2) (f : TFields) (op : Nat) (sum : Bool) : Option (Nat × DWord × Nat × Nat) :=
  let dQ := s.plan.tensor f.srcA.toNat
  let dK := s.plan.tensor f.srcB.toNat
  let v := (s.plan.geom dK.region).vBits
  let b := if sum then 64 * dQ.cols else 64 * dQ.cols + 64 * dQ.cols * v / 8 + 2 * dQ.cols + 256
  let pass := 64 * ceilDiv (dQ.rows / max 1 s.planRows) 16
  let blocks := s.planRows * (dK.rows / 64)
  let lo := blocks * pass + 160
  some (16 + n, tWord op f, lo, if s.regionInT1 dK.region sum then blocks * max pass (t1Cost b t1Requesters) + 160 else lo)

/-- The engine a format T word or a FIXJOB runs on, its word, and the least and the greatest it may cost (chapters 5 to 9); a cost is exact
but for a Thresher instruction that reads T1 (R151). -/
def Sys2Proof.Machine.State.wordCost (s : State) : Instr → Option (Nat × DWord × Nat × Nat)
  | .fixjob e j => let n := s.jobCost e j.toNat; some (e, cWord 3 j.toNat 0, n, n)
  | .mmul n f => let c := s.mmulCost n f; some (n, tWord 0x20 f, c, c)
  | .accout n f =>
    let m := (s.plan.tensor f.dst.toNat).rows
    let c := m + 16 + (if f.srcC = 0xFFF then 0 else m)
    some (n, tWord 0x21 f, c, c)
  | .gate n f => let c := if f.dst = 0xFFF then 56 else 88; some (n, tWord 0x22 f, c, c)
  | .vadd n f => let c := s.vecCost f + 12; some (n, tWord 0x30 f, c, c)
  | .vmul n f => let c := s.vecCost f + 12; some (n, tWord 0x31 f, c, c)
  | .vlut n f => let c := s.vecCost f + 12; some (n, tWord 0x32 f, c, c)
  | .vnorm n f => let c := 2 * (s.vecCost f + 12); some (n, tWord 0x33 f, c, c)
  | .vmask n f => let c := s.vecCost f + 12; some (n, tWord 0x34 f, c, c)
  | .sattn n f => s.thresherBounds n f 0x40 false
  | .fattn n f =>
    let c := (s.plan.tensor f.srcB.toNat).rows / 32 * (2 * (s.plan.tensor f.srcA.toNat).cols + 32) + 64
    some (n, tWord 0x41 f, c, c)
  | .sumsc n f => s.thresherBounds n f 0x42 true
  | .sprob n f => s.thresherBounds n f 0x43 false
  | .scan f =>
    let t := f.mod.toNat % 64 + 1
    let c := s.planRows * ceilDiv (s.plan.tensor f.srcB.toNat).cols 64 * (t + 2 * ceilLog2 t) + 24
    some (rcs, tWord 0x50 f, c, c)
  | .topk f =>
    let d := s.plan.tensor f.srcA.toNat
    let c := d.rows * (ceilDiv d.cols 64 + (f.mod.toNat + 1)) + 40
    some (sve, tWord 0x60 f, c, c)
  | .beam f =>
    let w := f.mod.toNat % 16 + 1
    let c := s.planRows * (w * ceilDiv (s.plan.tensor f.srcA.toNat).cols 64 + w * w) + 40
    some (sve, tWord 0x61 f, c, c)
  | .pagesel f =>
    let c := s.planRows * (ceilDiv (s.plan.tensor f.srcA.toNat).cols 64 + (f.mod.toNat + 1)) + 40
    some (sve, tWord 0x62 f, c, c)
  | .sample f => let c := s.planRows * 2 * ceilDiv (s.plan.tensor f.srcA.toNat).cols 64 + 40; some (sve, tWord 0x63 f, c, c)
  | .hrot n f =>
    let d := s.plan.tensor f.srcA.toNat
    let c := d.rows * ceilDiv d.cols 32 * (if f.mod.toNat % 4 = 2 then 2 else 1) + 24
    some (18 + n, tWord 0x70 f, c, c)
  | .req n f =>
    let d := s.plan.tensor f.srcA.toNat
    let c := d.rows * ceilDiv d.cols 32 * (if bitOf f.mod.toNat 4 then 2 else 1) + 24
    some (18 + n, tWord 0x71 f, c, c)
  | .kvapp n f =>
    let d := s.plan.tensor f.srcA.toNat
    let c := d.rows * ceilDiv d.cols 32 * (2 + (if bitOf f.mod.toNat 2 then 16 else 0) + (if f.mod.toNat % 4 = 2 then 1 else 0)) + 64
    some (18 + n, tWord 0x72 f, c, c)
  | _ => none

/-- For every format T word and FIXJOB, at which its engine e stands with more budget than its greatest cost: it answers a next
state, and there is a cost n between its bounds (equal, but for a Thresher word that reads T1) such that e stands at the next word
with n cycles of its clock worked and charged to the budget, whatever the word's effect was on its operands; its counters of R210
aside, e is as it was in all else, and so is every other engine. Where the least cost is not less than the budget, the word does
not retire: the slice ends with an exhausted budget. The costs are those of chapters 5 to 9 and 14 to 15. -/
def Obligations.WordsRetireAfterTheirCost : Prop :=
  ∀ (c : Instr) (s : State) (e : Nat) (w : DWord) (lo hi : Nat), s.engs.length = 33 → s.wordCost c = some (e, w, lo, hi) → s.standsAt e w = true →
    (max lo hi < (s.eng e).remain →
      ∃ t n, exec c s = .next t ∧ lo ≤ n ∧ n ≤ max lo hi ∧ t.eng e = { s.workedEng e n with counts := (t.eng e).counts } ∧
        (∀ k, k ≠ e → t.eng k = { s.eng k with counts := (t.eng k).counts })) ∧
    ((s.eng e).remain ≤ lo →
      ∃ t, exec c s = .next t ∧ (t.eng e).running = false ∧ t.bit Reg.TICK_STAT 13 = true ∧ t.bit Reg.PLAN_STAT 9 = true)

/-- For Cart c standing at a MOVE with no move under way: a descriptor that passes its checks becomes a move that is copying,
shown on the channel with its owner, and the engine stands still; one that fails them ends the slice with a plan fault. For a plan
move on T0 with no error recorded there, in a slice with budget for 12 + ⌈bytes / 32⌉ cycles: MOVE_COMMIT leaves every byte of the
destination as the source was, or zero for a fill (KIND 2), and every other byte of T0 as it was; the move is gone, the channel
reads IDLE and its byte counter rose, and the Cart stands at its next word with that cost charged; the knot that the descriptor
enables gets 1, visible 12 cycles later, and no knot else. MOVE_SOURCE_ERROR inside a plan move's source in T0 drops the move,
shows FAILED and SRCERR, and the slice goes on at its next word. -/
def Obligations.MovesCopyAndPostAtTheirCommit : Prop :=
  (∀ (c : Fin 8) (md : BitVec 12) (ss ds : BitVec 16) (s : State), s.engs.length = 33 → s.planMove c = none →
      s.standsAt (22 + c) (xWord md.toNat ss.toNat ds.toNat) = true →
      let d := s.stepped c md.toNat ss.toNat ds.toNat
      (s.moveRefusal d = none →
        ∃ t, exec (.move c md ss ds) s = .next t ∧ t.moves = s.moves ++ [(c.val, ⟨d, .copying, false, .plan⟩)] ∧
          t.fld (Reg.CART_CHSTAT + 0x20 * c) 0 3 = 1 ∧ t.bit (Reg.CART_CHSTAT + 0x20 * c) 4 = false ∧
          t.fld (Reg.CART_CHSTAT + 0x20 * c) 8 7 = d.owner % 128 ∧ t.bit Reg.CART_STAT c = true ∧
          t = { s with moves := t.moves, regs := t.regs }) ∧
      (∀ b a, s.moveRefusal d = some (b, a) →
        ∃ t, exec (.move c md ss ds) s = .next t ∧ (t.eng (22 + c)).running = false ∧ t.moves = s.moves ∧
          t.bit Reg.PLAN_STAT 9 = true ∧ t.bit Reg.PLAN_FAULT 31 = true)) ∧
  (∀ (c : Fin 8) (s : State) (mv : Move), s.sound → s.engs.length = 33 → s.planMove c = some mv → s.tick.phase = .slice →
      s.t0Poison = [] → s.t0Flips = [] → mv.desc.dst + mv.desc.bytes ≤ 0x300_0000 → (mv.desc.kind = 2 ∨ mv.desc.src + mv.desc.bytes ≤ 0x300_0000) →
      12 + ceilDiv mv.desc.bytes 32 < (s.eng (22 + c)).remain → 0 < mv.desc.bytes → mv.desc.knot < 64 →
      ∃ t, exec (.moveCommit c .ok) s = .next t ∧
        (∀ i, i < mv.desc.bytes → t.byteAt (mv.desc.dst + i) = if mv.desc.kind = 2 then 0 else s.byteAt (mv.desc.src + i)) ∧
        (∀ a, a < 0x300_0000 → a < mv.desc.dst ∨ mv.desc.dst + mv.desc.bytes ≤ a → t.byteAt a = s.byteAt a) ∧
        t.planMove c = none ∧ t.fld (Reg.CART_CHSTAT + 0x20 * c) 0 3 = 0 ∧
        t.eng (22 + c) = { s.workedEng (22 + c) (12 + ceilDiv mv.desc.bytes 32) with posted := (t.eng (22 + c)).posted } ∧
        t.posts = s.posts ++ (if mv.desc.knotEn then [⟨mv.desc.knot, (t.eng (22 + c)).cycles + 12, 1⟩] else [])) ∧
  (∀ (c : Fin 8) (a : BitVec 44) (s : State) (mv : Move), s.engs.length = 33 → s.planMove c = some mv → s.tick.phase = .slice →
      mv.desc.kind ≠ 2 → mv.desc.src ≤ a.toNat → a.toNat < mv.desc.src + mv.desc.bytes → a.toNat < 0x300_0000 → mv.desc.knot < 64 →
      ∃ t, exec (.moveSourceError c a) s = .next t ∧ t.planMove c = none ∧ t.fld (Reg.CART_CHSTAT + 0x20 * c) 0 3 = 5 ∧
        t.bit Reg.CART_ERRSTAT 0 = true ∧ (t.eng (22 + c)).running = (s.eng (22 + c)).running ∧
        ((t.eng (22 + c)).pc, (t.eng (22 + c)).loops) = nextPc ((s.eng (22 + c)).pc + 1) (s.eng (22 + c)).loops)

/-- With the PCI Express function served. BAR0_BAD_ACCESS: a violation of class 1 SUB 1 with its offset is recorded; a write
changes nothing else, a read also returns 0xFF in each byte of each DW. BAR2_READ with no error recorded in T0: the bytes of T0,
at the home of one stream context the bytes of that context, 0 beyond 48 MiB, with EP where a word read is poisoned, and nothing
changes. BAR2_WRITE within the staging area, with no error and no poison recorded in T0: each byte of T0 covered takes its value,
every other stays, and nothing else changes; wholly outside it, within the 48 MiB: discarded, and recorded as class 1 SUB 2;
beyond the 48 MiB: discarded without a log entry. -/
def Obligations.HostWindowsReachTheirMemories : Prop :=
  ∀ s : State, s.served .pcie = true →
    (∀ (o : BitVec 24) (n : Nat), exec (.bar0BadAccess true o n) s = .next (s.logViolation 1 1 { addr := o.toNat }) ∧
      exec (.bar0BadAccess false o n) s = .next ((s.logViolation 1 1 { addr := o.toNat }).emit (.completion (List.replicate (4 * n) 0xFF) false))) ∧
    (∀ (o : BitVec 26) (n : Nat), s.t0Flips = [] → 0 < n →
      ∃ bs ep, exec (.bar2Read o n) s = .next (s.emit (.completion bs ep)) ∧ bs.length = n ∧
        (∀ i, i < n → (∀ e, e ∈ s.streams → e.2.runsOn = none →
            o.toNat + i < e.2.home ∨ e.2.home + (e.2.contextBytes s.plan e.1).length ≤ o.toNat + i) →
          bs.getD i 0 = if o.toNat + i < 0x300_0000 then cellGet s.t0 (o.toNat + i) else 0) ∧
        (∀ i e, i < n → e ∈ s.streams → e.2.runsOn = none → e.2.home ≤ o.toNat + i → o.toNat + i < 0x300_0000 →
          o.toNat + i < e.2.home + min (s.plan.contextSize e.2.ps) (e.2.contextBytes s.plan e.1).length →
          (∀ f, f ∈ s.streams → f ≠ e → f.2.runsOn = none →
            o.toNat + i < f.2.home ∨ f.2.home + (f.2.contextBytes s.plan f.1).length ≤ o.toNat + i) →
          bs.getD i 0 = (e.2.contextBytes s.plan e.1).getD (o.toNat + i - e.2.home) 0) ∧
        (ep = true ↔ ∃ w, w ∈ s.t0Poison ∧ o.toNat / 8 ≤ w ∧ 8 * w < min (o.toNat + n) 0x300_0000)) ∧
    (∀ (o : BitVec 26) (bs : List Byte) (b n : Nat), s.staging = some (b, n) → s.t0Flips = [] → s.t0Poison = [] →
      b ≤ o.toNat → o.toNat + bs.length ≤ b + n → b + n ≤ 0x300_0000 →
      ∃ t, exec (.bar2Write o bs) s = .next t ∧ t = { s with t0 := t.t0 } ∧
        ∀ a, cellGet t.t0 a = if o.toNat ≤ a ∧ a < o.toNat + bs.length then bs.getD (a - o.toNat) 0 else cellGet s.t0 a) ∧
    (∀ (o : BitVec 26) (bs : List Byte), bs ≠ [] → o.toNat < 0x300_0000 →
      (∀ b n, s.staging = some (b, n) → o.toNat + bs.length ≤ b ∨ b + n ≤ o.toNat) →
      exec (.bar2Write o bs) s = .next (s.logViolation 1 2 { addr := o.toNat })) ∧
    (∀ (o : BitVec 26) (bs : List Byte), 0x300_0000 ≤ o.toNat → exec (.bar2Write o bs) s = .next s)

/-- For a sound state with the main domain on, and each of the events: the next state has every host queue disabled, without
faults, with nothing fetched and an empty tag window; every register of the HOST block but HOST_STAT, the host window table,
HOST_HWTGEN and what the log entry's vector may set reads its reset value; the window table and HOST_HWTGEN stay; no staging area
is applied; MSI-X is off; and the engines, the posts, the tick, the active plan, the rows in force, T0, T1, the audio and the
Gydan ports stay. WIDTH and SPEED survive an FLR and D3hot and read 0 where the link goes down too. -/
def Obligations.HostResetsLeaveTheQueuesEmpty : Prop :=
  ∀ (s : State) (c : Instr), s.sound → s.mainOn = true → (c = .perstAssert ∨ ∃ w, c = .hostSideReset w) →
    ∃ t, exec c s = .next t ∧
      (∀ q, q < 16 → (t.queue q).reqs = [] ∧ (t.queue q).window = [] ∧ t.bit (Reg.HOST_QSTAT + 0x40 * q) 0 = false ∧
        t.bit (Reg.HOST_QSTAT + 0x40 * q) 2 = false) ∧
      (∀ a, 0x0B_0000 ≤ a → a < 0x0C_0000 → a ≠ Reg.HOST_STAT → a ≠ Reg.HOST_HWTGEN → ¬ (Reg.HOST_HWT_LO ≤ a ∧ a < Reg.HOST_HWT_LO + 0x2000) →
        eventReg a = false → t.reg a = State.reset.reg a) ∧
      t.reg Reg.HOST_HWTGEN = s.reg Reg.HOST_HWTGEN ∧
      (∀ a, Reg.HOST_HWT_LO ≤ a → a < Reg.HOST_HWT_LO + 0x2000 → t.reg a = s.reg a) ∧
      (t.fld Reg.HOST_STAT 8 5, t.fld Reg.HOST_STAT 16 4) =
        (if c = .hostSideReset .flr ∨ c = .hostSideReset .d3hot then (s.fld Reg.HOST_STAT 8 5, s.fld Reg.HOST_STAT 16 4) else (0, 0)) ∧
      t.staging = none ∧ t.msixOn = false ∧ t.engs = s.engs ∧ t.posts = s.posts ∧ t.tick = s.tick ∧ t.active = s.active ∧ t.rows = s.rows ∧
      t.t0 = s.t0 ∧ t.t1 = s.t1 ∧ t.audio = s.audio ∧ t.ports = s.ports

/-- For a queue q and an interface that is served. QUEUE_ENABLE of a disabled queue without a fault, RESET not written: where the
conditions of R302 hold with the sizes and LOC it writes, the queue reads enabled, with its four indices 0 and PHASE 1 first; else
it stays disabled, in FAULT with FCAUSE 5. QUEUE_RESET leaves EN and ENABLED 0, no FAULT, every index 0, nothing fetched, and an
empty window. SQ_DOORBELL of an enabled queue without a fault: an index inside the ring that overruns nothing becomes the tail;
one beyond the ring faults the queue with FCAUSE 3, a tail overrun with FCAUSE 4, and the tail stays. CQ_DOORBELL: an index that
does not pass the tail becomes the head; any other is recorded, class 3 SUB 1, and changes nothing else. Either doorbell of a
disabled or faulted queue is recorded, class 3 SUB 4, and changes nothing else. -/
def Obligations.QueuesEnableResetAndRing : Prop :=
  ∀ (i : Iface) (q : Fin 16) (s : State), s.served i = true → s.queues.length = 20 →
    (∀ v : Word, wordField v 1 1 = 0 → s.bit (Reg.HOST_QCTRL + 0x40 * q) 0 = false → s.qFault q = false → s.qOn q = false →
      let u := ((((s.setFld (Reg.HOST_QCTRL + 0x40 * q) 24 1 (wordField v 24 1)).setFld (Reg.HOST_QCTRL + 0x40 * q) 16 5 (wordField v 16 5)).setFld
        (Reg.HOST_QCTRL + 0x40 * q) 8 4 (wordField v 8 4)).setFld (Reg.HOST_QCTRL + 0x40 * q) 12 4 (wordField v 12 4)).setFld (Reg.HOST_QCTRL + 0x40 * q) 2 1 (wordField v 2 1)
      (u.enableOk q = true →
        ∃ t, exec (.queueEnable i q v) s = .next t ∧ t.qOn q = true ∧ t.bit (Reg.HOST_QCTRL + 0x40 * q) 0 = true ∧ t.sqHead q = 0 ∧ t.cqTail q = 0 ∧
          (t.queue q).sqTail = 0 ∧ (t.queue q).cqHead = 0 ∧ (t.queue q).phase = true ∧ (t.queue q).reqs = (s.queue q).reqs) ∧
      (u.enableOk q = false →
        ∃ t, exec (.queueEnable i q v) s = .next t ∧ t.qOn q = false ∧ t.qFault q = true ∧ t.fld (Reg.HOST_QSTAT + 0x40 * q) 8 4 = 5)) ∧
    (∀ v : Word, ∃ t, exec (.queueReset i q v) s = .next t ∧ t.qOn q = false ∧ t.qFault q = false ∧ t.bit (Reg.HOST_QCTRL + 0x40 * q) 0 = false ∧
      t.sqHead q = 0 ∧ t.cqTail q = 0 ∧ (t.queue q).sqTail = 0 ∧ (t.queue q).cqHead = 0 ∧ (t.queue q).reqs = [] ∧ (t.queue q).window = []) ∧
    (∀ (x : BitVec 16) (p : List HostBytes), s.qOn q = true → s.qFault q = false →
      let n := s.sqLen q
      let back := (x.toNat + n - s.sqHead q) % n < ((s.queue q).sqTail + n - s.sqHead q) % n
      ∃ t, exec (.sqDoorbell i q x p) s = .next t ∧
        (x.toNat < n → ¬ back → (t.queue q).sqTail = x.toNat ∧ t.regs = s.regs) ∧
        (n ≤ x.toNat ∨ back → (t.queue q).sqTail = (s.queue q).sqTail ∧ t.qFault q = true ∧
          t.fld (Reg.HOST_QSTAT + 0x40 * q) 8 4 = (if n ≤ x.toNat then 3 else 4))) ∧
    (∀ x : BitVec 16, s.qOn q = true → s.qFault q = false →
      let n := s.cqLen q
      let past := (s.cqTail q + n - (s.queue q).cqHead) % n < (x.toNat + n - (s.queue q).cqHead) % n
      (x.toNat < n → ¬ past → exec (.cqDoorbell i q x) s = .next (s.updQueue q fun h => { h with cqHead := x.toNat })) ∧
      (n ≤ x.toNat ∨ past → exec (.cqDoorbell i q x) s = .next (s.logViolation 3 1 { source := q, queue := q }))) ∧
    (∀ x : BitVec 16, s.qOn q = false ∨ s.qFault q = true →
      exec (.sqDoorbell i q x []) s = .next (s.logViolation 3 4 { source := q, queue := q }) ∧
      exec (.cqDoorbell i q x) s = .next (s.logViolation 3 4 { source := q, queue := q }))

/-- For CC1 running and a queue q that comes first, from its turn, among those it can fetch from, its ring in host memory:
REQUEST_FETCH with an answer reads the 64 bytes at the head, advances the head by one around the ring, gives the turn to the next
queue, and adds exactly one request to q, the last. Where the window holds no entry of that TAG and the record is not malformed,
it is that record's request, waiting, its TAG and CRC entered as the newest of the window; malformed, it has completed with STATUS
0x01 and the offset of its first bad byte; where the window holds the TAG, it is a replay if the CRC-32 matches, else it has
completed with 0x0D. An error answer faults the queue with FCAUSE 1 and fetches nothing. With no queue to fetch from nothing
changes. -/
def Obligations.RequestsAreFetchedInRingOrder : Prop :=
  ∀ s : State, s.coreUp 1 = true → s.queues.length = 20 →
    (∀ q, s.nextQueue = some q → s.qLocal q = false →
      let bs := cellRead s.host ((s.sqRing q).1 + 64 * s.sqHead q) 64
      let r := readReq bs
      (∃ t x, exec (.requestFetch .ok) s = .next t ∧ t.sqHead q = (s.sqHead q + 1) % s.sqLen q % 2 ^ 16 ∧ t.turn = (q + 1) % 16 ∧
        (t.queue q).reqs = (s.queue q).reqs ++ [x] ∧
        (match (s.queue q).window.find? fun e => e.tag = r.tag with
          | some e => (t.queue q).window = (s.queue q).window ∧
              x = if e.crc = r.crc then { r with replay := true } else { r with state := .done 0x0D r.tag 0 r.stream }
          | none => match badRecord bs with
            | some off => x = { r with state := .done 0x01 off 0 r.stream } ∧
                (r.tag ≠ 0xFFFF → (t.queue q).window = (⟨r.tag, r.crc, some (0x01, off, 0)⟩ :: (s.queue q).window).take 4096)
            | none => x = r ∧ (r.tag ≠ 0xFFFF → (t.queue q).window = (⟨r.tag, r.crc, none⟩ :: (s.queue q).window).take 4096))) ∧
      (∃ t, exec (.requestFetch .error) s = .next t ∧ (t.queue q).reqs = (s.queue q).reqs ∧ t.qFault q = true ∧
        t.fld (Reg.HOST_QSTAT + 0x40 * q) 8 4 = 1 ∧ t.sqHead q = s.sqHead q)) ∧
    (∀ q, s.nextQueue = some q → q < 16 ∧ s.canFetch q = true) ∧
    (∀ a, s.nextQueue = none → exec (.requestFetch a) s = .next s)

/-- A request of a queue has completed with a status, a DETAIL, a VALUE and a stream, and its window entry stores the first three (R326). -/
def Sys2Proof.Machine.State.settled (s : State) (q tag st detail v sc : Nat) : State :=
  s.updQueue q fun h =>
    { h with reqs := updReq tag (fun r => { r with state := .done st detail v sc }) h.reqs, window := setWindow h.window tag (st, detail, v) }

/-- For CC1 running and a fetched request of the kind with the TAG, waiting. NOP: it completes with STATUS, DETAIL and VALUE 0 and
nothing else changes. QUERY: items 3 and 4 give the active plan's identifier (0 without one) and the tick number; items 0, 1 and 2
of a stream that runs here give bytes 4 to 11 of its header, its energy in µJ and its next RSEQ; of a stream that is not open
STATUS 0x02; nothing else changes. ABORT of a target that its queue's window does not hold, or that has completed: STATUS 0x0C,
nothing else changing; of a target that still waits, other than itself: the target has completed with 0x07 and DETAIL 1, ABORT
with 0, and nothing else changes. -/
def Obligations.NopQueryAndAbortActAtOnce : Prop :=
  ∀ (q : Fin 16) (tag : BitVec 16) (s : State) (r : Req), s.coreUp 1 = true →
    (s.waitingReq q 0x00 tag.toNat = some r → exec (.nop q tag) s = .next (s.settled q r.tag 0 0 0 0xFF)) ∧
    (s.waitingReq q 0x01 tag.toNat = some r →
      (leAt r.param 0 1 = 3 →
        exec (.query q tag) s = .next (s.settled q r.tag 0 0 (match s.active with | some p => p.hdr.planId | none => 0) r.stream)) ∧
      (leAt r.param 0 1 = 4 → exec (.query q tag) s = .next (s.settled q r.tag 0 0 s.tickNo r.stream)) ∧
      (∀ t, leAt r.param 0 1 < 3 → s.stream r.stream = some t → t.runsOn = none →
        exec (.query q tag) s = .next (s.settled q r.tag 0 0
          (if leAt r.param 0 1 = 0 then leAt (t.header r.stream) 4 8 else if leAt r.param 0 1 = 1 then t.energy / 1000 else t.rseq) r.stream)) ∧
      (leAt r.param 0 1 < 3 → s.stream r.stream = none → exec (.query q tag) s = .next (s.settled q r.tag 2 0 0 r.stream))) ∧
    (s.waitingReq q 0x02 tag.toNat = some r →
      let tq := leAt r.param 0 1
      let tt := leAt r.param 2 2
      (((s.queue tq).window.find? fun e => e.tag = tt) = none →
        exec (.abort q tag) s = .next (s.settled q r.tag 0x0C 0 0 0xFF)) ∧
      (∀ e, ((s.queue tq).window.find? fun e => e.tag = tt) = some e → e.result.isSome = true →
        exec (.abort q tag) s = .next (s.settled q r.tag 0x0C 0 0 0xFF)) ∧
      (∀ e x, ((s.queue tq).window.find? fun e => e.tag = tt) = some e → e.result = none →
        ((s.queue tq).reqs.find? fun x => x.tag = tt && !x.replay) = some x → (x.state = .waiting ∨ x.state = .due) → (tq ≠ q ∨ tt ≠ r.tag) →
        exec (.abort q tag) s = .next ((s.settled tq tt 0x07 1 0 x.stream).settled q r.tag 0 0 0 0xFF)))

/-- For CC1 running and a fetched request of the kind with the TAG, waiting: PLAN_ACTIVATE, PLAN_DISCARD, each STREAM request,
STATE_EXPORT, MIGRATE, AUDIO_BIND, AUDIO_UNBIND and OVERLAY make that request due in its step of the next window, and nothing else
changes. PLAN_LOAD, with CC0 running too and a plan active: a buffer that R300 does not allow completes it with STATUS 0x06 and
DETAIL 1; where the buffer can be read and the header passes the first checks of R145, the load is in progress with nothing yet
copied, PLAN_STAT.LOADING is set and the request acts. -/
def Obligations.FallowRequestsWaitForTheirStep : Prop :=
  (∀ (q : Fin 16) (tag : BitVec 16) (s : State) (c : Instr) (k : Nat), s.coreUp 1 = true → (s.waitingReq q k tag.toNat).isSome = true →
      (c, k) ∈ [(Instr.planActivate q tag, 0x11), (.planDiscard q tag, 0x12), (.streamOpen q tag, 0x20), (.streamClose q tag, 0x21),
        (.streamPause q tag, 0x22), (.streamResume q tag, 0x23), (.streamAbort q tag, 0x24), (.stateExport q tag, 0x25), (.migrate q tag, 0x26),
        (.audioBind q tag, 0x30), (.audioUnbind q tag, 0x31), (.overlay q tag, 0x40)] →
      exec c s = .next (s.updQueue q fun h => { h with reqs := updReq tag.toNat (fun r => { r with state := .due }) h.reqs })) ∧
  (∀ (q : Fin 16) (tag : BitVec 16) (s : State) (r : Req), s.coreUp 1 = true → s.coreUp 0 = true → s.waitingReq q 0x10 tag.toNat = some r →
      (r.len = 0 ∨ s.bufferOk r.addr r.len false = false → exec (.planLoad q tag) s = .next (s.settled q r.tag 0x06 1 0 0xFF)) ∧
      (r.len ≠ 0 → s.bufferOk r.addr r.len false = true → s.senseRange r.addr r.len = (none, s) → s.checkFirst (s.imageAt r.addr) r.len = none →
        s.active.isSome = true →
        ∃ t, exec (.planLoad q tag) s = .next t ∧ t.bit Reg.PLAN_STAT 2 = true ∧
          t.load = some { q := q, tag := r.tag, src := r.addr, hdr := readHdr (s.imageAt r.addr), imgLen := imgLen (s.imageAt r.addr), done := 0 } ∧
          t = { s with load := t.load, regs := t.regs, queues := t.queues }))

/-- For a request that names a stream: no such stream, STATUS 0x02; one closing, migrating or in export, 0x05. A STREAM_CLOSE of
an open stream makes it closing, STREAM_ABORT ends it with reason 2 and makes the request act, STREAM_RESUME returns it to the
candidates and completes. STREAM_PAUSE of a paused stream completes, of another makes it pausing. STATE_EXPORT of a stream that
has a row or no record completes with 0x05, into a buffer too short with 0x06. PLAN_ACTIVATE is refused with 0x12 without a
pending plan; where nothing refuses it, the activation is set. PLAN_DISCARD removes the pending plan and answers its identifier,
or completes with 0x05. AUDIO_BIND of an input sets the zone; AUDIO_UNBIND of an input removes it. -/
def Obligations.FallowRequestsTakeEffectInTheirStep : Prop :=
  (∀ (s : State) (q : Nat) (r : Req), 0x21 ≤ r.kind → r.kind ≤ 0x26 →
      (s.stream r.stream = none → s.takeStreamReq true q r = s.settled q r.tag 0x02 0 0 r.stream) ∧
      (∀ t, s.stream r.stream = some t → t.runsOn = none →
        (t.state = .closing ∨ t.state = .migrating ∨ (s.exports.any fun x => x.sc = r.stream) = true →
          s.takeStreamReq true q r = s.settled q r.tag 0x05 0 0 r.stream) ∧
        ((t.state = .opened ∨ t.state = .paused) → (s.exports.any fun x => x.sc = r.stream) = false →
          (r.kind = 0x21 → s.takeStreamReq true q r = (s.setStream r.stream { t with state := .closing }).actReq q r.tag) ∧
          (r.kind = 0x24 → s.takeStreamReq true q r = (s.endStream r.stream 2 7).actReq q r.tag) ∧
          (r.kind = 0x23 → s.takeStreamReq true q r = (s.setStream r.stream { t with state := .opened }).settled q r.tag 0 0 0 r.stream) ∧
          (r.kind = 0x22 → t.state = .paused → s.takeStreamReq true q r = s.settled q r.tag 0 0 0 r.stream) ∧
          (r.kind = 0x22 → t.state ≠ .paused → s.takeStreamReq true q r = (s.setStream r.stream { t with pausing := true }).actReq q r.tag) ∧
          (r.kind = 0x25 → (t.row.isSome = true ∨ t.record = none) → s.takeStreamReq true q r = s.settled q r.tag 0x05 0 0 r.stream) ∧
          (r.kind = 0x25 → t.row = none → t.record.isSome = true → r.len < s.recordLen →
            s.takeStreamReq true q r = s.settled q r.tag 0x06 1 0 r.stream)))) ∧
  (∀ (s : State) (q tag : Nat),
      (s.activationRefusal = none → s.takeActivation q tag = ({ s with activating := some (q, tag) } : State).actReq q tag) ∧
      (s.pendingPlan = none → s.activationRefusal = some 0x12) ∧
      (∀ p, s.activating = none → s.pendingPlan = some p →
        ∃ t : State, s.takeDiscard q tag = t.settled q tag 0 0 p.hdr.planId 0xFF ∧ t.pendingPlan = none ∧ t.bit Reg.PLAN_STAT 1 = false ∧
          t.reg64 Reg.PLAN_PENDID_LO = 0 ∧ t = { s with pendingPlan := none, regs := t.regs }) ∧
      (s.pendingPlan = none → s.takeDiscard q tag = s.settled q tag 0x05 0 0 0xFF)) ∧
  (∀ (s : State) (q : Nat) (r : Req) (t : Stream), s.stream r.stream = some t → t.runsOn = none → leAt r.param 0 1 = 0 →
      ((t.state = .opened ∨ t.state = .paused) → s.takeBind q r =
        (s.setStream r.stream { t with inBind := some (leAt r.param 1 1, leAt r.param 2 1) }).settled q r.tag 0 0 0 r.stream) ∧
      s.takeUnbind q r = (s.setStream r.stream { t with inBind := none }).settled q r.tag 0 0 0 r.stream)

/-- For an enabled queue without a fault whose rings lie in host memory, CC1 running, and a first request that has completed, is
no replay and is not bound to wait for a stream-end record: COMPLETION_POST with an answer writes the 32 bytes of Table 10-3 with
its PHASE at the tail, advances the tail by one around the ring, inverts PHASE where it wraps, and removes the request; every
other byte of host memory stays. With an error it faults the queue with FCAUSE 2, and the tail stays. While the first request has
not settled, or on a queue with none, nothing changes. -/
def Obligations.CompletionsArePostedInOrder : Prop :=
  ∀ (q : Fin 16) (s : State), s.queues.length = 20 →
    (∀ (r : Req) (rs : List Req) (st d v sc : Nat), s.coreUp 1 = true → s.qOn q = true → s.qFault q = false → s.qLocal q = false →
      (s.queue q).reqs = r :: rs → r.replay = false → r.state = .done st d v sc → s.endHeld r = false → s.fld (Reg.HOST_QCTRL + 0x40 * q) 12 4 ≤ 12 →
      let base := s.reg64 (Reg.HOST_CQBASE_LO + 0x40 * q) + 32 * s.cqTail q
      let bs := completionBytes r.tag st r.kind sc (s.sqHead q) v d s.tickNo false
      let bs := bs.set 3 (if (s.queue q).phase then 1 else 0)
      let next := (s.cqTail q + 1) % s.cqLen q
      (∃ t, exec (.completionPost q .ok) s = .next t ∧ t.cqTail q = next ∧ (t.queue q).reqs = rs ∧
        (t.queue q).phase = (if next = 0 then !(s.queue q).phase else (s.queue q).phase) ∧
        (∀ i, i < 32 → cellGet t.host (base + i) = bs.getD i 0) ∧
        (∀ a, a < base ∨ base + 32 ≤ a → cellGet t.host a = cellGet s.host a)) ∧
      (∃ t, exec (.completionPost q .error) s = .next t ∧ t.qFault q = true ∧ t.fld (Reg.HOST_QSTAT + 0x40 * q) 8 4 = 2 ∧
        t.cqTail q = s.cqTail q ∧ t.host = s.host)) ∧
    (∀ (a : HostAnswer) (r : Req) (rs : List Req), (s.queue q).reqs = r :: rs → r.replay = false → (r.state = .waiting ∨ r.state = .due) →
      exec (.completionPost q a) s = .next s) ∧
    (∀ a : HostAnswer, (s.queue q).reqs = [] → exec (.completionPost q a) s = .next s)

/-- RESULT_POST in a slice or a fallow window in which every engine that writes the result region has ended its slice: the results
of the tick count as posted afterwards, and where no row is admitted nothing else changes; before that nothing changes.
HELD_RESULT_FLUSH of a queue with room whose oldest held record is that of an ended stream writes that record at the completion
tail and no longer holds it; of a queue without room nothing but the count of held records shown changes. QMOD_TIMEOUT of a queue
with IEN, TIME not 0 and unsignalled records sends the queue's vector, leaves none unsignalled, and the time is TIME µs after the
oldest at least. -/
def Obligations.ResultsAreHeldPostedAndSignalled : Prop :=
  (∀ s : State, (s.tick.phase = .slice ∨ s.tick.phase = .fallow) → s.resultsReady = true → s.resultsDone = false →
      ∃ t, exec .resultPost s = .next t ∧ t.resultsDone = true ∧ (s.rows = [] → t = { s with resultsDone := true })) ∧
  (∀ s : State, s.resultsReady = false → exec .resultPost s = .next s) ∧
  (∀ (q : Fin 16) (s : State) (bs : List Byte) (o : List (Nat × List Byte)), s.queues.length = 20 → s.resultRoom q = true → s.orphans = (q.val, bs) :: o →
      ∃ n, exec (.heldResultFlush q) s = .next ((({ s with orphans := o } : State).writeRecord q false bs).flushHeld q n)) ∧
  (∀ (q : Fin 16) (s : State), s.resultRoom q = false → 
      ∃ t, exec (.heldResultFlush q) s = .next t ∧ t = { s with regs := t.regs } ∧ (∀ a, a ≠ Reg.HOST_QSTAT + 0x40 * q → t.reg a = s.reg a)) ∧
  (∀ (q : Fin 16) (s : State), s.queues.length = 20 → s.fld (Reg.HOST_QMOD + 0x40 * q) 16 16 ≠ 0 → (s.queue q).unsignalled ≠ 0 →
      s.bit (Reg.HOST_QCTRL + 0x40 * q) 24 = true →
      ∃ t, exec (.qmodTimeout q) s = .next t ∧ (t.queue q).unsignalled = 0 ∧
        (s.queue q).oldest + s.fld (Reg.HOST_QMOD + 0x40 * q) 16 16 ≤ t.now ∧
        t = (({ s with now := t.now } : State).sendVector (s.fld (Reg.HOST_QCTRL + 0x40 * q) 16 5)).updQueue q fun h => { h with unsignalled := 0 })

/-- Over a port that is ACTIVE, the main domain on, from the chip that the port leads to. A first WRITE of 64 to 4096 bytes in
whole lines to T0 within a grant given to that chip: each byte is stored, every other byte of T0 stays, the push is known by its
MOVEID with its lines, and nothing is sent. A WRITE to an offset that the chip does not map is stored nowhere, answered REFUSE 1,
once, and recorded as class 4 SUB 4. SEAL of a push that lacks no line and was not refused: COMMIT is sent and the push is
committed; with another count of lines, or of an unknown push, REFUSE 3. RELEASED of a committed push that was not pulled counts
its bytes in its grant and ends it; DISCARD ends any push; either for an unknown push is recorded as class 4 SUB 5, and no memory
changes. -/
def Obligations.PushesThatArriveAreSealedAndReleased : Prop :=
  ∀ (port : Fin 3) (cls : Fin 2) (id : BitVec 32) (s : State), s.linkUp port = true → s.mainOn = true →
    let c := s.chipOn port
    (∀ (arg : BitVec 32) (bs : List Byte), s.rxMove c id.toNat = none → 0 < bs.length → bs.length % 64 = 0 → bs.length ≤ 4096 →
      arg.toNat * 64 + bs.length ≤ 0x300_0000 → (s.grants.any fun g => g.holds c (arg.toNat * 64) bs.length) = true →
      ∃ t, exec (.gydanWrite port cls id arg bs) s = .next t ∧
        (∀ a, a < 0x300_0000 → t.byteAt a = if arg.toNat * 64 ≤ a ∧ a < arg.toNat * 64 + bs.length then bs.getD (a - arg.toNat * 64) 0 else s.byteAt a) ∧
        t.rxMove c id.toNat = some ⟨c, id.toNat, cls, arg.toNat * 64, bs.length / 64, none, false, none⟩ ∧ t.sent = s.sent ∧ t.regs = s.regs) ∧
    (∀ (arg : BitVec 32) (bs : List Byte), s.rxMove c id.toNat = none → 0 < bs.length → bs.length % 64 = 0 → bs.length ≤ 4096 →
      peerOffsetOk s.variant (arg.toNat * 64) bs.length = false →
      ∃ t l, exec (.gydanWrite port cls id arg bs) s = .next t ∧ t.t0 = s.t0 ∧ t.t1 = s.t1 ∧ (t.rxMove c id.toNat).isSome = true ∧
        t.sent = l ++ .gydan (s.portTo c) 0x82 c [id.toNat, 1] :: s.sent ∧ t.logSeq = (s.logSeq + 1) % 2 ^ 32) ∧
    (∀ lines : BitVec 32,
      (∀ m, s.rxMove c id.toNat = some m → m.committed = false → m.bad = none → m.lines = lines.toNat →
        ∃ t, exec (.gydanSeal port cls id lines) s = .next t ∧ t.rxMove c id.toNat = some { m with committed := true } ∧
          t.sent = .gydan (s.portTo c) 0x81 c [id.toNat] :: s.sent) ∧
      ((s.rxMove c id.toNat = none ∨ ∃ m, s.rxMove c id.toNat = some m ∧ m.committed = false ∧ m.bad = none ∧ m.lines ≠ lines.toNat) →
        ∃ t, exec (.gydanSeal port cls id lines) s = .next t ∧ t.rxMove c id.toNat = none ∧
          t.sent = .gydan (s.portTo c) 0x82 c [id.toNat, 3] :: s.sent)) ∧
    (∀ m, s.rxMove c id.toNat = some m → m.committed = true → m.pull = none →
      ∃ t, exec (.gydanReleased port cls id) s = .next t ∧ t.rxMove c id.toNat = none ∧ t.sent = s.sent ∧ t.t0 = s.t0 ∧
        t.grants = s.grants.map fun g => if g.holds c m.base (64 * m.lines) then { g with got := g.got + 64 * m.lines } else g) ∧
    ((s.rxMove c id.toNat).isSome = true → ∃ t, exec (.gydanDiscard port cls id) s = .next t ∧ t.rxMove c id.toNat = none ∧ t.sent = s.sent ∧ t.t0 = s.t0) ∧
    (s.rxMove c id.toNat = none →
      (∃ t, exec (.gydanReleased port cls id) s = .next t ∧ t.logSeq = (s.logSeq + 1) % 2 ^ 32 ∧ t.t0 = s.t0 ∧ t.t1 = s.t1 ∧ t.grants = s.grants) ∧
      (∃ t, exec (.gydanDiscard port cls id) s = .next t ∧ t.logSeq = (s.logSeq + 1) % 2 ^ 32 ∧ t.t0 = s.t0 ∧ t.t1 = s.t1))

/-- Over a port that is ACTIVE, the main domain on, from the chip that the port leads to. PULL of a range that this chip maps is
added to the pushes that CC3 carries out, from that range to the place asked for; of any other range it is answered DISCARD, and
nothing is added. COMMIT of a push not yet committed, outside a fallow window, marks that push committed, and nothing is sent.
REFUSE of a push not yet committed takes it off, shows DSTERR, and its source's home does not change. COMMIT and REFUSE of an
unknown push are recorded, class 4 SUB 5. -/
def Obligations.PushesThatLeaveAreCommittedOrRefused : Prop :=
  ∀ (port : Fin 3) (cls : Fin 2) (id : BitVec 32) (s : State), s.linkUp port = true → s.mainOn = true →
    let c := s.chipOn port
    (∀ src dst lines : Nat, 0 < lines → peerOffsetOk s.variant src (64 * lines) = true →
      ∃ t m, exec (.gydanPull port cls id src dst lines) s = .next t ∧ t.pullsDue = s.pullsDue ++ [m] ∧ m.chip = c ∧ m.id = id.toNat ∧
        m.src = ownAddr src ∧ m.dst = peerAddr c dst ∧ m.len = 64 * lines ∧ m.committed = false ∧ t.sent = s.sent) ∧
    (∀ src dst lines : Nat, lines = 0 ∨ peerOffsetOk s.variant src (64 * lines) = false →
      ∃ t, exec (.gydanPull port cls id src dst lines) s = .next t ∧ t.pullsDue = s.pullsDue ∧
        t.sent = .gydan (s.portTo c) 0x04 c [id.toNat] :: s.sent) ∧
    (∀ m, s.txMove c id.toNat = some m → m.committed = false → s.tick.phase ≠ .fallow →
      ∃ t, exec (.gydanCommit port cls id) s = .next t ∧ t.txMoves = (s.txMoves.map fun x => if x = m then { x with committed := true } else x) ∧
        t.sent = s.sent ∧ t.regs = s.regs ∧ t.streams = s.streams) ∧
    (∀ (m : TxMove) (arg : BitVec 32), s.txMove c id.toNat = some m → m.committed = false → m.datum.isRecord = false →
      ∃ t, exec (.gydanRefuse port cls id arg) s = .next t ∧ t.txMoves = (s.txMoves.filter fun y => !(y.chip = m.chip && y.id = m.id)) ∧
        t.bit Reg.CART_ERRSTAT 1 = true ∧ t.streams = s.streams ∧ t.sent = s.sent) ∧
    (∀ arg : BitVec 32, s.txMove c id.toNat = none →
      (∃ t, exec (.gydanCommit port cls id) s = .next t ∧ t.logSeq = (s.logSeq + 1) % 2 ^ 32 ∧ t.txMoves = s.txMoves ∧ t.streams = s.streams) ∧
      (∃ t, exec (.gydanRefuse port cls id arg) s = .next t ∧ t.logSeq = (s.logSeq + 1) % 2 ^ 32 ∧ t.txMoves = s.txMoves ∧ t.streams = s.streams))

/-- Over a port that is ACTIVE, the main domain on. ASK with no plan active, or another plan than the active one, is answered with
a refusal of DETAIL 2; with the same plan but no row of its phase free, of DETAIL 3; no grant is added. With a row and room, and
no grant to that chip for that stream before, either a grant of its size for that row is added and answered with its base, or,
where no range can be found, nothing is. A refusing ANSWER in the window that asked settles the MIGRATE with STATUS 5 and its
DETAIL, and the stream is no longer migrating. An ANSWER out of a fallow window changes no migration. ANSWER_TIMEOUT, 100 µs after
the opening, leaves the migration to ask again. -/
def Obligations.MigrationIsAskedGrantedOrRefused : Prop :=
  (∀ (port : Fin 3) (a : AskBody) (s : State), s.linkUp port = true → s.mainOn = true →
      let c := s.chipOn port
      ((∀ p, s.active = some p → p.hdr.planId ≠ a.planId) →
        ∃ t, exec (.ask port a) s = .next t ∧ t.sent = .gydan (s.portTo c) 0x90 c [a.sc.val, 1, 2] :: s.sent ∧ (∀ g, g ∈ t.grants → g ∈ s.grants)) ∧
      (∀ p, s.active = some p → p.hdr.planId = a.planId → s.grants = [] → s.grantRow a = none →
        ∃ t, exec (.ask port a) s = .next t ∧ t.sent = .gydan (s.portTo c) 0x90 c [a.sc.val, 1, 3] :: s.sent ∧ t.grants = []) ∧
      (∀ p r, s.active = some p → p.hdr.planId = a.planId → s.grants = [] → s.grantRow a = some r → a.size ≤ s.t1Unreserved →
        ∃ t, exec (.ask port a) s = .next t ∧
          ((∃ base, t.grants = [⟨c, a.sc, a.home, base, a.size, r, a.size, 0, false, false⟩] ∧
              t.sent = .gydan (s.portTo c) 0x90 c [a.sc.val, 0, base] :: s.sent) ∨
            (t.grants = [] ∧ t.sent = s.sent)))) ∧
  (∀ (port : Fin 3) (sc : Fin 64) (d : Nat) (s : State) (m : Migration), s.linkUp port = true → s.mainOn = true →
      s.migrationOf (s.chipOn port) sc = some m → s.tick.phase = .fallow → m.exported = false → m.asked = some s.tick.opened → s.tick.stepsDone = true →
      ∃ t, exec (.answer port sc (.refuse d)) s = .next t ∧ t.queue m.q = (s.settled m.q m.tag 5 d 0 m.sc).queue m.q ∧
        t.migrations = (s.migrations.filter fun x => x.sc != m.sc) ∧ (∀ x, s.stream m.sc = some x → t.stream m.sc = some { x with state := .opened })) ∧
  (∀ (port : Fin 3) (sc : Fin 64) (b : AnswerBody) (s : State), s.linkUp port = true → s.mainOn = true → s.tick.phase ≠ .fallow →
      ∃ t, exec (.answer port sc b) s = .next t ∧ t.migrations = s.migrations ∧ t.queues = s.queues ∧ t.streams = s.streams) ∧
  (∀ (sc : Fin 64) (s : State) (m : Migration), m ∈ s.migrations → m.sc = sc.val → m.exported = false → m.asked = some s.tick.opened →
      ∃ t, exec (.answerTimeout sc) s = .next t ∧ s.tick.opened + 100 ≤ t.now ∧
        t.migrations = (s.migrations.map fun m => if m.sc = sc.val && !m.exported then { m with asked := none } else m) ∧
        t = { s with migrations := t.migrations, now := t.now })

/-- Over a port that is ACTIVE, the main domain on. REQFWD naming a stream that this chip does not run is answered as Not found,
and no host queue changes; one of a stream that it runs, other than QUERY, joins the requests of that home chip, due in its step,
the stream under this chip's number. REQDONE settles in its place the acting request that was forwarded to that chip under that
kind and TAG; for none it is recorded, class 4 SUB 5. RESULT of a stream whose proxy points to that chip is posted, record by
record, as a result of this chip is: with room in the queue the record is written at its completion tail; of any other stream it
is recorded, class 4 SUB 8. LOCATE of a stream of this chip that has a proxy moves the proxy; for an unknown stream it is
recorded, class 4 SUB 8. -/
def Obligations.RequestsAndResultsOfMigratedStreams : Prop :=
  ∀ (port : Fin 3) (s : State), s.linkUp port = true → s.mainOn = true → s.queues.length = 20 →
    let c := s.chipOn port
    (∀ (bs : List Byte), s.localSc c (readReq bs).stream = none → (∀ k, k < 4 → (s.queue (16 + k)).reqs = []) →
      ∃ t l, exec (.reqfwd port bs) s = .next t ∧ t.sent = .gydan (s.portTo c) 0x43 c (l.map (·.toNat)) :: s.sent ∧ leAt l 2 1 = 2 ∧
        (∀ q, q < 16 → t.queue q = s.queue q)) ∧
    (∀ (bs : List Byte) (sc : Nat), s.localSc c (readReq bs).stream = some sc → (readReq bs).kind ≠ 0x01 →
      ∃ t r, exec (.reqfwd port bs) s = .next t ∧ (t.queue (16 + c)).reqs = (s.queue (16 + c)).reqs ++ [r] ∧ r.stream = sc ∧ r.state = .due ∧
        r.tag = (readReq bs).tag ∧ ((readReq bs).kind ≠ 0x40 → r.kind = (readReq bs).kind) ∧ t.sent = s.sent) ∧
    (∀ (bs : List Byte) (q : Nat) (r : Req), leAt bs 4 1 ≠ 0x40 → s.forwarded c (leAt bs 4 1) (leAt bs 0 2) = some (q, r) →
      ∃ t, exec (.reqdone port bs) s = .next t ∧ t.queue q = (s.settled q r.tag (leAt bs 2 1) (leAt bs 16 4) (leAt bs 8 8) r.stream).queue q ∧
        t.sent = s.sent ∧ t.streams = s.streams) ∧
    (∀ (bs : List Byte), leAt bs 4 1 ≠ 0x40 → s.forwarded c (leAt bs 4 1) (leAt bs 0 2) = none →
      ∃ t, exec (.reqdone port bs) s = .next t ∧ t.logSeq = (s.logSeq + 1) % 2 ^ 32 ∧ t.queues = s.queues) ∧
    (∀ (sc : Fin 64) (b : List Byte) (x : Stream), s.stream sc = some x → x.runsOn = some c → x.held = [] → x.folded = none → s.orphans = [] →
      s.resultRoom x.rqueue = true → s.openUnposted sc = false → leAt b 2 1 ≠ 4 →
      ∃ t, exec (.result port sc [b]) s = .next t ∧ t.cqTail x.rqueue = (s.cqTail x.rqueue + 1) % s.cqLen x.rqueue % 2 ^ 16 ∧
        t.stream sc = some { x with rseq := (leAt b 8 4 + 1) % 2 ^ 32 } ∧ t.logSeq = s.logSeq) ∧
    (∀ (sc : Fin 64) (l : List (List Byte)), s.stream sc = none →
      ∃ t, exec (.result port sc l) s = .next t ∧ t.logSeq = (s.logSeq + 1) % 2 ^ 32 ∧ t.queues = s.queues ∧ t.streams = s.streams) ∧
    (∀ (sc : Fin 64) (d : Fin 4) (x : Stream), s.stream sc = some x → x.homeChip = none → x.runsOn.isSome = true → d.val ≠ s.chip → s.migrations = [] →
      ∃ t, exec (.locate port sc d) s = .next t ∧ t.stream sc = some { x with runsOn := some d.val } ∧ t.queues = s.queues ∧ t.regs = s.regs) ∧
    (∀ (sc : Fin 64) (d : Fin 4), s.stream sc = none →
      ∃ t, exec (.locate port sc d) s = .next t ∧ t.logSeq = (s.logSeq + 1) % 2 ^ 32 ∧ t.streams = s.streams ∧ t.queues = s.queues)

/-- Over a port that is ACTIVE, the main domain on. REPORT at the budget manager enters the sender's cap, estimate and work end.
SHARE at a member of a stook from its manager, or the first that sends one, applies the share; from another chip it is recorded,
class 4 SUB 7. WORKEND for the tick in progress at a tick master that is not in a window enters the sender's work end. CLASSMSG at
a follower in a fallow window without a class, whose mask names it, gives the next tick its class; from a chip that is not its
master it is recorded, class 4 SUB 7. REJOIN at the tick master takes the sender into its next class. LEAVE, an EJECT of another
chip from the tick master, MEMBER_EJECT at the master of a member left out EJECTTICKS times, and PEER_LOSS_TIMEOUT of a port that
was once ACTIVE declare that chip lost: its bit of GDN_STOOK.LOST is set, that of LIVE clear, and what follows waits for the next
complete window. -/
def Obligations.StookMessagesTimePowerAndMembership : Prop :=
  ∀ (port : Fin 3) (s : State), s.mainOn = true →
    let c := s.chipOn port
    (s.linkUp port = true →
      (∀ cap est x : Nat, s.isManager = true →
        ∃ t, exec (.report port cap est x) s = .next t ∧ t.power = { s.power with reports := keyPut s.power.reports c (cap, est, x) } ∧
          t = { s with power := t.power, ports := t.ports }) ∧
      (∀ mw per : Nat, s.isManager = false → s.stookOn = true → (s.power.mgr = none ∨ s.power.mgr = some c) →
        ∃ t, exec (.share port mw per) s = .next t ∧ t.power.mgr = some c ∧ t.fld Reg.PWR_SHAREMW 0 16 = satNat 16 mw ∧ t.power.shareLost = false) ∧
      (∀ mw per m : Nat, s.power.mgr = some m → m ≠ c →
        ∃ t, exec (.share port mw per) s = .next t ∧ t.logSeq = (s.logSeq + 1) % 2 ^ 32 ∧ t.power = s.power) ∧
      (∀ x : Nat, s.isMaster = true → s.tick.phase = .slice ∨ s.tick.phase = .armed →
        ∃ t, exec (.workend port s.tickNo x) s = .next t ∧ t.tick = { s.tick with members := keyPut s.tick.members c x } ∧
          t = { s with tick := t.tick, ports := t.ports }) ∧
      (∀ n cls lag mask : Nat, s.isFollower = true → (s.tick.master = none ∨ s.tick.master = some c) → s.tick.phase = .fallow → s.tick.classed = false →
        s.tickNo < n → bitOf mask s.chip = true →
        ∃ t, exec (.classmsg port n cls lag mask) s = .next t ∧ t.tick.classed = true ∧ t.tick.master = some c ∧ t.tick.nextLag = lag ∧
          t.tick.nextCls = (if cls = 1 then .shed else .normal) ∧ t.tick.phase = .fallow) ∧
      (∀ n cls lag mask m : Nat, s.isFollower = true → s.tick.master = some m → m ≠ c →
        ∃ t, exec (.classmsg port n cls lag mask) s = .next t ∧ t.logSeq = (s.logSeq + 1) % 2 ^ 32 ∧ t.tick = s.tick) ∧
      (s.isMaster = true →
        ∃ t, exec (.rejoin port) s = .next t ∧ t.tick = { s.tick with members := keyPut s.tick.members c 0, excluded := keyPut s.tick.excluded c 0 } ∧
          t = { s with tick := t.tick, ports := t.ports }) ∧
      (c ≠ s.chip → s.bit Reg.GDN_STOOK (8 + c) = false →
        ∃ t, exec (.leave port) s = .next t ∧ t.bit Reg.GDN_STOOK (8 + c) = true ∧ t.bit Reg.GDN_STOOK (4 + c) = false ∧ c ∈ t.lossDue) ∧
      (∀ (d : Fin 4) (inc : BitVec 32), s.isMaster = false → s.tick.master = some c → d.val ≠ s.chip → s.bit Reg.GDN_STOOK (8 + d) = false →
        ∃ t, exec (.eject port d inc) s = .next t ∧ t.bit Reg.GDN_STOOK (8 + d) = true ∧ t.bit Reg.GDN_STOOK (4 + d) = false ∧ d.val ∈ t.lossDue)) ∧
    (∀ d : Fin 4, s.isMaster = true → s.live d = true → s.fld Reg.GDN_LOSS 8 8 ≤ keyGetD s.tick.excluded d 0 → d.val ≠ s.chip → s.bit Reg.GDN_STOOK (8 + d) = false →
      ∃ t, exec (.memberEject d) s = .next t ∧ t.bit Reg.GDN_STOOK (8 + d) = true ∧ t.bit Reg.GDN_STOOK (4 + d) = false ∧ d.val ∈ t.lossDue) ∧
    (s.linkUp port = false → (s.port port).peerVariant ≠ 0 → c ≠ s.chip → s.bit Reg.GDN_STOOK (8 + c) = false →
      ∃ t, exec (.peerLossTimeout port) s = .next t ∧ t.bit Reg.GDN_STOOK (8 + c) = true ∧ t.bit Reg.GDN_STOOK (4 + c) = false ∧ c ∈ t.lossDue ∧
        (s.port port).leftActive + 1000 * s.fld Reg.GDN_LOSS 0 8 ≤ t.now)

/-- For an ACTIVE port with nothing to send, the main domain on. FLIT_RECEIVE of a flit whose CRC fails adds 1 to CRCCNT (kept at
its top) and makes trailers carry NAK; of a malformed flit makes them carry NAK, accepts nothing, and records one event; of a
message flit with another SEQ than the one expected makes them carry NAK and leaves the rest of the port; of the expected one, its
class having room, accepts it: the next SEQ is expected, ACK names it, NAK ends, its class holds one flit more. A trailer's ACK
frees the replay buffer up to and with the flit it names, its CREDIT adds the flits freed since the last count, mod 256, to its
class's credit, and the first NAK for an ACK sends every unacknowledged flit again, REPLAYCNT counting them. A link control flit
with the retrain bit makes the port retrain. ACK_TIMEOUT sends the unacknowledged flits again; the third in a row makes the port
retrain. -/
def Obligations.FlitsAreAcceptedResentAndRetrained : Prop :=
  ∀ (port : Fin 3) (s : State), s.mainOn = true → s.linkUp port = true → s.ports.length = 3 →
    (s.port port).txQueue = [] → (s.port port).sending = none →
    let p := s.port port
    (∀ f : Flit, f.crcOk = false →
      ∃ t, exec (.flitReceive port f) s = .next t ∧ t.fld (gdnReg Reg.GDN_CRCCNT port) 0 32 = min (s.fld (gdnReg Reg.GDN_CRCCNT port) 0 32 + 1) (2 ^ 32 - 1) ∧
        t.port port = { p with nak := true } ∧ t = { s with regs := t.regs, ports := t.ports }) ∧
    (∀ f : Flit, f.crcOk = true → badFlit f = true →
      ∃ t, exec (.flitReceive port f) s = .next t ∧ t.port port = { p with nak := true } ∧ t.logSeq = (s.logSeq + 1) % 2 ^ 32 ∧
        t.bit (gdnReg Reg.GDN_STAT port) 11 = true) ∧
    (∀ f : Flit, f.crcOk = true → badFlit f = false → f.ftype = 1 → f.seq ≠ p.rxNext →
      ∃ t, exec (.flitReceive port f) s = .next t ∧ t.port port = { p with nak := true } ∧ t.regs = s.regs) ∧
    (∀ f : Flit, f.crcOk = true → badFlit f = false → f.ftype = 1 → f.seq = p.rxNext → f.nak = false →
      p.rxHeld.getD f.cls 0 < rxBuffer.getD f.cls 0 → p.rxHeld.length = 5 →
      ∃ t, exec (.flitReceive port f) s = .next t ∧ (t.port port).rxNext = (f.seq + 1) % 4096 ∧ (t.port port).rxLast = some f.seq ∧
        (t.port port).nak = false ∧ (t.port port).rxHeld.getD f.cls 0 = p.rxHeld.getD f.cls 0 + 1 ∧ t.logSeq = s.logSeq) ∧
    (∀ (f : Flit) (a b : List TxFlit) (x : TxFlit), f.crcOk = true → badFlit f = false → f.ftype = 0 → f.nak = false → f.crClass < 5 →
      p.replay = a ++ x :: b → x.seq = f.ack → (∀ y ∈ a, y.seq ≠ f.ack) → p.credits.length = 5 →
      ∃ t, exec (.flitReceive port f) s = .next t ∧ (t.port port).replay = b ∧ (t.port port).stalls = 0 ∧
        (t.port port).credits.getD f.crClass 0 = p.credits.getD f.crClass 0 + (f.credit % 256 + 256 - p.creditSeen.getD f.crClass 0 % 256) % 256 ∧
        (t.port port).rxNext = p.rxNext) ∧
    (∀ f : Flit, f.crcOk = true → badFlit f = false → f.ftype = 0 → f.nak = true → p.nakSeen ≠ some f.ack →
      (∀ y ∈ p.replay, y.seq ≠ f.ack ∧ y.resent < 3) →
      ∃ t, exec (.flitReceive port f) s = .next t ∧ (t.port port).replay = p.replay.map (fun y => { y with resent := y.resent + 1 }) ∧
        t.fld (gdnReg Reg.GDN_REPLAYCNT port) 0 32 = min (s.fld (gdnReg Reg.GDN_REPLAYCNT port) 0 32 + p.replay.length) (2 ^ 32 - 1) ∧
        t.linkUp port = true) ∧
    (∀ f : Flit, f.crcOk = true → badFlit f = false → f.ftype = 2 →
      ∃ t, exec (.flitReceive port f) s = .next t ∧ t.linkState port = 5 ∧ (t.port port).retraining = true ∧ (t.port port).replay = p.replay) ∧
    (p.replay ≠ [] → (∀ y ∈ p.replay, y.resent < 3) →
      (p.stalls < 2 → ∃ t, exec (.ackTimeout port) s = .next t ∧ (t.port port).stalls = p.stalls + 1 ∧ t.linkUp port = true ∧
        (t.port port).replay = p.replay.map (fun y => { y with resent := y.resent + 1 })) ∧
      (2 ≤ p.stalls → ∃ t, exec (.ackTimeout port) s = .next t ∧ t.linkState port = 5 ∧
        t.fld (gdnReg Reg.GDN_RETRAINCNT port) 0 32 = min (s.fld (gdnReg Reg.GDN_RETRAINCNT port) 0 32 + 1) (2 ^ 32 - 1)))

/-- For a port, the main domain on. GDN_ENABLE with EN 1 of a port whose EN is 0 takes it to LOCK; with EN 0 of one whose EN is 1
to DISABLED, its lanes and peer cleared. GDN_RETRAIN of an ACTIVE port, EN staying 1, takes it to RETRAIN. BLOCK_LOCK_ACQUIRED in
LOCK shows all four lanes locked and takes it to DESKEW; DESKEW_DONE in DESKEW shows skew, reversal and polarity and takes it to
PARAM; PARAM_RECEIVE in PARAM takes it to ACTIVE where the checks of R406 pass, the peer becoming a live member and its variant
and incarnation recorded, else to REFUSED with one event recorded. TRAINING_LIMIT in LOCK, DESKEW or PARAM restarts from LOCK; in
RETRAIN it counts a failed attempt, and the eighth takes the port DOWN. In RETRAIN the same three steps are run while STATE shows
RETRAIN. LANE_LOCK_LOSS and MARKER_ERROR of an ACTIVE port make it retrain: STATE is RETRAIN, RETRAINCNT advances, one event is
recorded; the lane is shown without lock, and a marker error counted. -/
def Obligations.PortsTrainThroughTheirStates : Prop :=
  ∀ (port : Fin 3) (s : State), s.mainOn = true → s.ports.length = 3 →
    let st := gdnReg Reg.GDN_STAT port
    let lane := gdnReg Reg.GDN_LANE port
    let cnt := gdnReg Reg.GDN_RETRAINCNT port
    (∀ (i : Iface) (v : Word), s.served i = true → wordField v 0 1 = 1 → wordField v 1 1 = 0 → s.bit (gdnReg Reg.GDN_CTRL port) 0 = false →
      ∃ t, exec (.gdnEnable i port v) s = .next t ∧ t.bit (gdnReg Reg.GDN_CTRL port) 0 = true ∧ t.linkState port = 1 ∧ (t.port port).step = .lock) ∧
    (∀ (i : Iface) (v : Word), s.served i = true → wordField v 0 1 = 0 → s.bit (gdnReg Reg.GDN_CTRL port) 0 = true →
      ∃ t, exec (.gdnEnable i port v) s = .next t ∧ t.bit (gdnReg Reg.GDN_CTRL port) 0 = false ∧ t.linkState port = 0 ∧ t.reg lane = 0 ∧
        t.bit st 5 = false ∧ t.live (s.chipOn port) = false ∧ (t.port port).replay = []) ∧
    (∀ (i : Iface) (v : Word), s.served i = true → wordField v 0 1 = 1 → s.bit (gdnReg Reg.GDN_CTRL port) 0 = true → s.linkUp port = true →
      ∃ t, exec (.gdnRetrain i port v) s = .next t ∧ t.linkState port = 5 ∧ t.fld cnt 0 32 = min (s.fld cnt 0 32 + 1) (2 ^ 32 - 1) ∧
        (t.port port).replay = (s.port port).replay ∧ (t.port port).credits = (s.port port).credits ∧ (t.port port).txNext = (s.port port).txNext) ∧
    ((s.port port).step = .lock → s.linkState port = 1 ∨ s.linkState port = 5 →
      ∃ t, exec (.blockLockAcquired port) s = .next t ∧ t.fld lane 0 4 = 15 ∧ (t.port port).step = .deskew ∧
        t.linkState port = (if s.linkState port = 1 then 2 else 5)) ∧
    (∀ (skew : Fin 9) (rev : Bool) (pol : BitVec 4), (s.port port).step = .deskew → s.linkState port = 2 ∨ s.linkState port = 5 →
      ∃ t, exec (.deskewDone port skew rev pol) s = .next t ∧ t.fld lane 16 4 = skew.val ∧ t.bit lane 12 = rev ∧ t.fld lane 8 4 = pol.toNat ∧
        (t.port port).step = .param ∧ t.linkState port = (if s.linkState port = 2 then 3 else 5)) ∧
    (∀ p : ParamFlit, (s.port port).step = .param → s.linkState port = 3 →
      (s.paramOk port p = true →
        ∃ t, exec (.paramReceive port p) s = .next t ∧ t.linkState port = 4 ∧ t.live (s.chipOn port) = true ∧ t.bit st 5 = true ∧
          t.fld st 6 2 = s.chipOn port ∧ (t.port port).peerVariant = p.variant ∧ (t.port port).peerIncarn = p.incarnation) ∧
      (s.paramOk port p = false →
        ∃ t, exec (.paramReceive port p) s = .next t ∧ t.linkState port = 7 ∧ t.live (s.chipOn port) = false ∧ t.bit st 10 = true ∧
          t.logSeq = (s.logSeq + 1) % 2 ^ 32)) ∧
    (s.linkState port = 1 ∨ s.linkState port = 2 ∨ s.linkState port = 3 →
      ∃ t, exec (.trainingLimit port) s = .next t ∧ t.linkState port = 1 ∧ (t.port port).step = .lock) ∧
    (s.linkState port = 5 →
      ∃ t, exec (.trainingLimit port) s = .next t ∧ (t.port port).step = .lock ∧ (t.port port).attempts = (s.port port).attempts + 1 ∧
        t.linkState port = (if (s.port port).attempts < 7 then 5 else 6)) ∧
    (∀ l : Fin 4, s.linkUp port = true →
      ∃ t, exec (.laneLockLoss port l) s = .next t ∧ t.bit lane l = false ∧ t.linkState port = 5 ∧ t.fld cnt 0 32 = min (s.fld cnt 0 32 + 1) (2 ^ 32 - 1) ∧
        t.logSeq = (s.logSeq + 1) % 2 ^ 32 ∧ t.live (s.chipOn port) = false) ∧
    (s.linkUp port = true →
      ∃ t, exec (.markerError port) s = .next t ∧
        t.fld (gdnReg Reg.GDN_MARKERCNT port) 0 32 = min (s.fld (gdnReg Reg.GDN_MARKERCNT port) 0 32 + 1) (2 ^ 32 - 1) ∧ t.linkState port = 5 ∧
        t.fld cnt 0 32 = min (s.fld cnt 0 32 + 1) (2 ^ 32 - 1) ∧ t.logSeq = (s.logSeq + 1) % 2 ^ 32)

/-- SENSOR_READ with the main domain on, every sensor from 0 to 23: a reading outside -55 to 175 degrees or none marks the sensor
invalid, else TSVAL shows it; a masked sensor is in neither limit; an unmasked one is within WARN (HOT) when it reads invalid or
at or above the limit, out of it when it reads below the limit less H, and otherwise as before; a sensor that enters one sets its
bit of PWR_STAT; ANYHOT shows whether any is HOT. A sensor at or above TRIP, masked or not, that was so at the reading before
takes the engine from ON into POWERDOWN with TRIPPED set; with none such the power state is as before. THERMAL_DERATE_STEP, CC4
running and a thermal cap applying: it falls by 250 mW to no less than CAPLIM.MIN while any sensor is HOT, else rises by 250 mW
and is removed once it reaches the user cap; EFF shows the effective cap. -/
def Obligations.SensorsWarnDerateAndTrip : Prop :=
  (∀ (rs : List SensorReading) (s : State), s.mainOn = true →
    ∃ t, exec (.sensorRead rs) s = .next t ∧
      (∀ i, i < 24 →
        let r := readingOk (rs.getD i none)
        let lim := Reg.PWR_TSLIM + 4 * i
        let h : Int := 4 * s.fld lim 16 4
        t.bit (Reg.PWR_TSVAL + 4 * i) 31 = r.isSome ∧
        (∀ x, r = some x → t.fld (Reg.PWR_TSVAL + 4 * i) 0 12 = (x % 4096).toNat) ∧
        (s.sensorMasked i = true → i ∉ t.power.warn ∧ i ∉ t.power.hot) ∧
        (s.sensorMasked i = false →
          (r = none → i ∈ t.power.warn ∧ i ∈ t.power.hot) ∧
          (∀ x, r = some x →
            ((4 * s.fld lim 0 8 : Int) ≤ x → i ∈ t.power.warn) ∧ (x + h < 4 * s.fld lim 0 8 → i ∉ t.power.warn) ∧
            (x < 4 * s.fld lim 0 8 → 4 * s.fld lim 0 8 ≤ x + h → (i ∈ t.power.warn ↔ i ∈ s.power.warn)) ∧
            ((4 * s.fld lim 8 8 : Int) ≤ x → i ∈ t.power.hot) ∧ (x + h < 4 * s.fld lim 8 8 → i ∉ t.power.hot) ∧
            (x < 4 * s.fld lim 8 8 → 4 * s.fld lim 8 8 ≤ x + h → (i ∈ t.power.hot ↔ i ∈ s.power.hot)))) ∧
        (i ∈ t.power.warn → i ∉ s.power.warn → t.bit Reg.PWR_STAT 0 = true) ∧
        (i ∈ t.power.hot → i ∉ s.power.hot → t.bit Reg.PWR_STAT 1 = true)) ∧
      t.bit Reg.PWR_STAT 16 = !t.power.hot.isEmpty ∧
      ((∃ i x, i < 24 ∧ i ∈ s.power.trip ∧ readingOk (rs.getD i none) = some x ∧ (4 * s.fld Reg.PWR_TSCFG 0 8 : Int) ≤ x) → s.aon.phase = .on →
        t.aon.phase = .powerdown ∧ t.bit Reg.PWR_STAT 2 = true) ∧
      ((∀ i x, i < 24 → i ∈ s.power.trip → readingOk (rs.getD i none) = some x → x < 4 * s.fld Reg.PWR_TSCFG 0 8) → t.aon = s.aon)) ∧
  (∀ (s : State) (c : Nat), s.coreUp 4 = true → s.power.thermalCap = some c →
    ∃ t, exec .thermalDerateStep s = .next t ∧
      t.power.thermalCap =
        (if s.power.hot ≠ [] then some (max (s.fld Reg.PWR_CAPLIM 0 16) (c - 250)) else if s.fld Reg.PWR_CAPMW 0 16 ≤ c + 250 then none else some (c + 250)) ∧
      t.fld Reg.PWR_CAPEFF 0 16 = satNat 16 t.effCap.1 ∧ t = { s with regs := t.regs, power := t.power })

/-- CAP_WRITE over an interface that is served stores the value, clamped to CAPLIM.MIN and MAX (MIN not above MAX); a clamp sets
CAPCLAMP and is one event; EFF shows the effective cap, which is at most the user cap, the thermal cap while one applies, the
stook share while budgeting is in effect, and CAPLIM.MIN while CC4 is absent and a sensor is HOT, and which is one of them.
POWER_SHARE_INTERVAL advances the timebase by 10 µs and shows the effective cap; with ORDER naming each class once and no duty
applied before: where the base load and the class estimates fit the cap, every duty is 0; where the base load alone takes the cap,
a class with an estimate has duty 63 and one without has 0 (links in a slice included). In a slice the applied duty is at least
the compute duty, the memory duty and the ramp duty of the present cycle; outside a slice it shows 0. -/
def Obligations.CapIsClampedAndSharedOut : Prop :=
  (∀ (i : Iface) (v : Word) (s : State), s.served i = true →
    let lo := s.fld Reg.PWR_CAPLIM 0 16
    let hi := s.fld Reg.PWR_CAPLIM 16 16
    let mw := wordField v 0 16
    lo ≤ hi →
    ∃ t, exec (.capWrite i v) s = .next t ∧
      t.fld Reg.PWR_CAPMW 0 16 = (if mw < lo then lo else if hi < mw then hi else mw) ∧
      (mw < lo ∨ hi < mw → t.bit Reg.PWR_STAT 7 = true ∧ t.logSeq = (s.logSeq + 1) % 2 ^ 32) ∧
      (lo ≤ mw → mw ≤ hi → t.logSeq = s.logSeq) ∧ t.power = s.power ∧
      t.fld Reg.PWR_CAPEFF 0 16 = satNat 16 t.effCap.1) ∧
  (∀ s : State, let e := s.effCap.1
    e ≤ s.fld Reg.PWR_CAPMW 0 16 ∧ (∀ c, s.power.thermalCap = some c → e ≤ c) ∧ (bitOf s.power.stook 0 = true → e ≤ s.shareInForce) ∧
    (s.cc4Absent = true → s.power.hot ≠ [] → e ≤ s.fld Reg.PWR_CAPLIM 0 16) ∧
    (e = s.fld Reg.PWR_CAPMW 0 16 ∨ s.power.thermalCap = some e ∨ e = s.shareInForce ∨ e = s.fld Reg.PWR_CAPLIM 0 16)) ∧
  (∀ (raw : RawEstimate) (s : State), s.mainOn = true →
    ∃ t, exec (.powerShareInterval raw) s = .next t ∧ t.now = s.now + 10 ∧ t.fld Reg.PWR_CAPEFF 0 16 = satNat 16 s.effCap.1 ∧
      (s.tick.phase ≠ .slice → t.fld Reg.PWR_DUTY 24 7 = 0) ∧
      (s.tick.phase = .slice → s.power.common ≤ 64 →
        t.fld Reg.PWR_DUTY 8 6 ≤ t.fld Reg.PWR_DUTY 24 7 ∧ t.fld Reg.PWR_DUTY 16 6 ≤ t.fld Reg.PWR_DUTY 24 7 ∧
        rampDuty (1200 * (s.now + 10 - s.tick.edge)) ≤ t.fld Reg.PWR_DUTY 24 7) ∧
      (s.reg Reg.PWR_DUTY = 0 → s.effCap.1 < 2 ^ 16 →
        [s.fld Reg.PWR_CTRL 0 2, s.fld Reg.PWR_CTRL 2 2, s.fld Reg.PWR_CTRL 4 2].Perm [0, 1, 2] →
        (s.baseLoad raw + s.classEstimate raw.links + s.classEstimate raw.memory + s.classEstimate raw.compute ≤ 32768 * s.effCap.1 →
          t.fld Reg.PWR_DUTY 0 6 = 0 ∧ t.fld Reg.PWR_DUTY 8 6 = 0 ∧ t.fld Reg.PWR_DUTY 16 6 = 0) ∧
        (32768 * s.effCap.1 ≤ s.baseLoad raw →
          t.fld Reg.PWR_DUTY 0 6 = (if s.classEstimate raw.links = 0 then 0 else 63) ∧
          t.fld Reg.PWR_DUTY 8 6 = (if s.classEstimate raw.memory = 0 then 0 else 63) ∧
          t.fld Reg.PWR_DUTY 16 6 = (if s.classEstimate raw.compute = 0 then 0 else 63))))

/-- With CC4 running. PMBUS_PERIOD in which every rail of role 0 or 1 answers READ_POUT shows their sum and VALID 1; a failed rail
keeps its last good value, sets PMBERR, and at its third failure in a row VALID is 0. PMB_ALERT logs each status word of an
enabled rail that is not 0, sends CLEAR_FAULTS to that rail, and sets REGFAULT. CALIBRATION_FIT with fewer than 50 pairs changes
nothing but empties the window; with more it leaves OFFSET within 2000 mW and, where the raw estimates span 500 mW or more, GAIN
within 0x800 to 0x2000, else GAIN as it was; where 50 to 100 pairs lie on one line within the limits, GAIN and OFFSET are that
line's. VOLTAGE_SELECTION with no rail or more than one of role 1 sends nothing and sets VSETERR; with one: a reading more than 10
mV off takes the point to OP7, sets VSETERR and is one event; an invalid unmasked sensor holds OP7; and a hottest reading for
which the lowest point with TJLIM of 5 degrees more lies above the present point commands that point's voltage. -/
def Obligations.RailsAreMeasuredCalibratedAndSet : Prop :=
  ∀ s : State, s.coreUp 4 = true →
    (∀ (rs : List RailReading) (long : Bool),
      ∃ t, exec (.pmbusPeriod rs long) s = .next t ∧
        (∀ mw : Nat → Nat, s.rails [0, 1] ≠ [] → (∀ r ∈ s.rails [0, 1], rs.getD r .failed = .pout (mw r)) →
          t.fld Reg.PWR_MEAS 0 16 = satNat 16 ((s.rails [0, 1]).map mw).sum ∧ t.bit Reg.PWR_MEAS 31 = true) ∧
        (∀ r ∈ s.rails [0, 1], rs.getD r .failed = .failed →
          keyGet t.power.railMw r = keyGet s.power.railMw r ∧ keyGetD t.power.railFail r 0 = keyGetD s.power.railFail r 0 + 1 ∧
          t.bit Reg.PWR_STAT 4 = true ∧ (2 ≤ keyGetD s.power.railFail r 0 → t.bit Reg.PWR_MEAS 31 = false))) ∧
    (∀ st : List Word, s.logSeq < 2 ^ 32 →
      ∃ t, exec (.pmbAlert st) s = .next t ∧ t.bit Reg.PWR_STAT 5 = true ∧
        t.logSeq = (s.logSeq + ((s.rails [0, 1, 2]).filter fun r => decide (wordField (st.getD r 0) 0 16 ≠ 0)).length) % 2 ^ 32 ∧
        (∀ r ∈ s.rails [0, 1, 2], wordField (st.getD r 0) 0 16 ≠ 0 → .pmbus (s.fld (railReg r) 0 7) (s.fld (railReg r) 16 8) 0x03 0 ∈ t.sent)) ∧
    (let l := s.power.pairs
      let w := l.drop (l.length - 100)
      ∃ t, exec .calibrationFit s = .next t ∧ t.power = { s.power with pairs := [] } ∧
        (w.length < 50 → t = { s with power := t.power }) ∧
        (50 ≤ w.length → -2000 ≤ t.calOffset ∧ t.calOffset ≤ 2000 ∧
          ((∀ p ∈ w, ∀ q ∈ w, p.2 < q.2 + 500) → t.fld Reg.PWR_CAL 0 16 = s.fld Reg.PWR_CAL 0 16) ∧
          ((∃ p ∈ w, ∃ q ∈ w, q.2 + 500 ≤ p.2) → 0x800 ≤ t.fld Reg.PWR_CAL 0 16 ∧ t.fld Reg.PWR_CAL 0 16 ≤ 0x2000)) ∧
        (∀ (g : Nat) (o : Int), 50 ≤ l.length → l.length ≤ 100 → 0x800 ≤ g → g ≤ 0x2000 → -2000 ≤ o → o ≤ 2000 →
          (∀ p ∈ l, 4096 * (p.1 : Int) = g * p.2 + 4096 * o) → (∃ p ∈ l, ∃ q ∈ l, q.2 + 500 ≤ p.2) →
          t.fld Reg.PWR_CAL 0 16 = g ∧ t.calOffset = o)) ∧
    (∀ rb : Option Nat,
      ((s.rails [1]).length ≠ 1 →
        ∃ t, exec (.voltageSelection rb) s = .next t ∧ t.bit Reg.PWR_STAT 8 = true ∧ t.reg Reg.PWR_VOP = s.reg Reg.PWR_VOP ∧ t.power = s.power) ∧
      (∀ r, s.rails [1] = [r] → s.power.vHold = none →
        (∀ mv x, s.power.vCheck = some mv → rb = some x → (mv + 10 < x ∨ x + 10 < mv) →
          ∃ t, exec (.voltageSelection rb) s = .next t ∧ t.fld Reg.PWR_VOP 16 3 = 7 ∧ t.fld Reg.PWR_VOP 0 10 = (s.opPoint 7).2 ∧
            t.bit Reg.PWR_STAT 8 = true ∧ t.power.vHold.isSome = true ∧ t.logSeq = (s.logSeq + 1) % 2 ^ 32) ∧
        (s.power.vCheck = none → s.hottestShown = none →
          ∃ t, exec (.voltageSelection rb) s = .next t ∧ t.fld Reg.PWR_VOP 16 3 = 7) ∧
        (∀ x, s.power.vCheck = none → s.hottestShown = some x → s.fld Reg.PWR_VOP 16 3 < s.pointFor (x + 20) →
          ∃ t, exec (.voltageSelection rb) s = .next t ∧ t.fld Reg.PWR_VOP 16 3 = s.pointFor (x + 20) ∧
            t.fld Reg.PWR_VOP 0 10 = (s.opPoint (s.pointFor (x + 20))).2 ∧
            .pmbus (s.fld (railReg r) 0 7) (s.fld (railReg r) 16 8) 0x21 (s.opPoint (s.pointFor (x + 20))).2 ∈ t.sent)))

/-- STOOK_SHARE_PERIOD with CC4 running. With PWR_STOOK.EN 0 the share reads 0 and nothing is sent; with EN 1 and MGR 0, a known
live manager is sent one REPORT with the member's cap without the share, its estimate and its work end; with EN and MGR 1, the
shares sum to the stook cap or less, the manager's own applies, and every other member is sent a SHARE with its own. SHARE_TIMEOUT
at a member that has not yet recorded it sets SHARELOST, is one event, and keeps the share. -/
def Obligations.StookBudgetIsSharedEachMillisecond : Prop :=
  ∀ s : State, s.coreUp 4 = true →
    (s.bit Reg.PWR_STOOK 0 = false →
      ∃ t, exec .stookSharePeriod s = .next t ∧ t.reg Reg.PWR_SHAREMW = 0 ∧ t.sent = s.sent ∧ t.effCap = t.ownCap) ∧
    (∀ c, s.bit Reg.PWR_STOOK 0 = true → s.bit Reg.PWR_STOOK 1 = false → s.power.mgr = some c → s.live c = true →
      ∃ t, exec .stookSharePeriod s = .next t ∧ t.stookOn = true ∧
        t.sent = .gydan (s.portTo c) 0x20 c [s.ownCap.1, s.fld Reg.PWR_EST 0 16, s.fld Reg.TICK_WORKEND 0 16] :: s.sent) ∧
    (s.bit Reg.PWR_STOOK 0 = true → s.bit Reg.PWR_STOOK 1 = true →
      ∃ t, exec .stookSharePeriod s = .next t ∧ t.isManager = true ∧ (t.power.shares.map Prod.snd).sum ≤ s.fld Reg.PWR_STOOKCAPMW 0 17 ∧
        t.power.shares.map Prod.fst = (List.range 4).filter (fun c => decide (c = s.chip) || s.live c) ∧
        (∀ x ∈ t.power.shares, if x.1 = s.chip then t.fld Reg.PWR_SHAREMW 0 16 = satNat 16 x.2
          else .gydan (s.portTo x.1) 0x21 x.1 [x.2, s.power.sharePeriod + 1] ∈ t.sent)) ∧
    (s.stookOn = true → s.isManager = false → s.power.shareLost = false →
      ∃ t, exec .shareTimeout s = .next t ∧ t.bit Reg.PWR_STAT 10 = true ∧ t.power = { s.power with shareLost := true } ∧
        t.logSeq = (s.logSeq + 1) % 2 ^ 32 ∧ t.reg Reg.PWR_SHAREMW = s.reg Reg.PWR_SHAREMW ∧ s.power.shareAt.getD 0 + 20000 ≤ t.now)

/-- The newest entry of the journal (R508). -/
def Sys2Proof.Machine.State.newest (s : State) : Option JrnlEntry := s.store.entries.getLast?

/-- With the always-on domain running. ON_REQ_CHANGE latches the level; low in ON begins POWERDOWN: ticks and engines stop, only
moves that are Committing go on, LEAVE goes out on every ACTIVE port, code 0x03 is journaled; low in POWERUP-A returns to OFF; in
the other states only the latch changes. POWERUP_START in OFF with on latched and no TRIPHOLD enters POWERUP-A no sooner than 20
ms after OFF; else it does nothing. RELEASE_STEP in POWERUP-A enters POWERUP-B: the main domain is reset, CHIPID and BOOTSEL are
sampled, code 0x01 is journaled, and the counter, when it lies below the floor by more than 1, advances by 1 and gives the
incarnation. READY without a flash fault enters the boot wait where BOOTSEL is 2, or with ERR 3 where no factory record is valid;
with one, BOOTSEL 1, it sets READY and shows its generation; the state is ON while on is latched. POWERDOWN_OFF enters OFF no
sooner than 5,200 cycles later, the store kept. SUPPLY_LOSS outside OFF enters OFF and journals code 0x05 with what was lost. -/
def Obligations.PowerStatesFollowTheirRequests : Prop :=
  ∀ s : State, s.aon.running = true →
    (∃ t, exec (.onReqChange true) s = .next t ∧ t.bit Reg.GLOBAL_PWRSTAT 1 = true ∧ t = { s with regs := t.regs, aon := { s.aon with latch := true } }) ∧
    (∃ t, exec (.onReqChange false) s = .next t ∧ t.bit Reg.GLOBAL_PWRSTAT 1 = false ∧ t.aon.latch = false ∧ t.aon.tripHold = false ∧
      (s.aon.phase = .on → t.aon.phase = .powerdown ∧ t.aon.phaseAt = s.now ∧ t.tick.phase = .stopped ∧ (∀ e, e < 33 → (t.eng e).running = false) ∧
        (∀ m ∈ t.moves, m.2.state = .committing) ∧ (∀ k, k < 3 → s.linkUp k = true → .gydan k 0x40 (s.chipOn k) [] ∈ t.sent) ∧
        t.newest.map (·.code) = some 3) ∧
      (s.aon.phase = .powerupA → t.aon.phase = .off ∧ t.aon.offAt = s.now) ∧
      (s.aon.phase ≠ .on → s.aon.phase ≠ .powerupA → t.aon.phase = s.aon.phase ∧ t.tick = s.tick)) ∧
    (s.aon.onCell = none → s.aon.phase = .off → s.aon.latch = true → s.aon.tripHold = false →
      ∃ t, exec .powerupStart s = .next t ∧ t.aon.phase = .powerupA ∧ s.aon.offAt + 20000 ≤ t.now ∧ t.aon.phaseAt = t.now) ∧
    (s.aon.phase ≠ .off ∨ s.aon.latch = false ∨ s.aon.tripHold = true → exec .powerupStart s = .next s) ∧
    (∀ pins : BootPins, s.aon.phase = .powerupA →
      ∃ t, exec (.releaseStep pins) s = .next t ∧ t.aon.phase = .powerupB ∧ s.aon.phaseAt + 200 ≤ t.now ∧ t.aon.held = false ∧
        t.chip = pins.chipId.val ∧ t.fld Reg.NVC_BOOTSTAT 16 2 = pins.bootSel.toNat ∧ t.t0 = [] ∧ t.t1 = [] ∧ t.streams = [] ∧ t.active = none ∧
        t.reg Reg.PWR_CAPMW = State.reset.reg Reg.PWR_CAPMW ∧
        t.newest.map (·.code) = some 1 ∧ t.newest.map (·.arg1) = some (pins.bootSel.toNat * 4 + pins.chipId.val) ∧
        (s.store.mono ≠ 0 → s.store.mono + 1 < s.floor →
          t.store.mono = s.store.mono + 1 ∧ t.reg Reg.GDN_INCARN = BitVec.ofNat 32 (s.store.mono + 1))) ∧
    (s.aon.phase = .powerupB → s.aon.held = false → s.nv.fitted = 0 → s.fld Reg.NVC_BOOTSTAT 0 8 ≠ 2 → s.aon.tripDue = none → s.aon.latch = true →
      (s.aon.pins.1 = 2 → ∃ t, exec (.ready []) s = .next t ∧ t.aon.phase = .on ∧ t.bit Reg.NVC_BOOTSTAT 31 = true ∧ t.bit Reg.MEMCH_STAT 0 = true) ∧
      (s.aon.pins.1 = 1 → s.chooseSlot false [] = none →
        ∃ t, exec (.ready []) s = .next t ∧ t.aon.phase = .on ∧ t.bit Reg.NVC_BOOTSTAT 31 = true ∧ t.fld Reg.NVC_BOOTSTAT 0 8 = 3) ∧
      (∀ i f, s.aon.pins.1 = 1 → s.chooseSlot false [] = some (i, f) →
        ∃ t, exec (.ready []) s = .next t ∧ t.aon.phase = .on ∧ t.bit Reg.GLOBAL_PWRSTAT 0 = true ∧ t.bit Reg.NVC_BOOTSTAT 31 = false ∧
          t.reg Reg.NVC_FGEN = BitVec.ofNat 32 f.gen)) ∧
    (s.aon.phase = .powerdown →
      ∃ t, exec .powerdownOff s = .next t ∧ t.aon.phase = .off ∧ s.aon.phaseAt + 5200 ≤ t.now ∧ t.aon.offAt = t.now ∧ t.store = s.store ∧
        t.t0 = [] ∧ t.t1 = [] ∧ t.streams = []) ∧
    (∀ aonToo : Bool, s.aon.phase ≠ .off →
      ∃ t, exec (.supplyLoss aonToo) s = .next t ∧ t.aon.phase = .off ∧ t.t0 = [] ∧ t.streams = [] ∧ t.fld Reg.GLOBAL_PWRSTAT 8 4 = 5 ∧
        t.newest.map (fun e => (e.code, e.arg1)) = some (5, if aonToo then 2 else 1))

/-- With the main domain on, not in POWERDOWN: SYSTEM_RESET and RESET_N_ASSERT reset the main domain, hold it at the release step
and journal code 0x06 with the cause; T0, T1, streams and the plan are gone, host memory and TRIPPED are as before. AON_TO_KEEP
while VDD_AON was there ends in OFF; with 1.00 V or more the domain runs on from the cell, AONLOST is set and code 0x08 journaled
with the voltage; with less it stops. RETENTION_SENTINEL_SET of a domain without VDD_AON sets the sentinel and stops it. AON_START
of such a domain discards the store where the sentinel is set (journal code 0x0A alone, ARG1 1, and RETLOST) or no copy is valid
(ARG1 2); else it keeps the store, journaling code 0x09 where it had run from the cell; the minimum off time runs from the start.
-/
def Obligations.ResetsAndStartsKeepWhatTheyShould : Prop :=
  ∀ s : State,
    (∀ why : SysResetCause, s.aon.running = true → s.mainOn = true → s.aon.phase ≠ .powerdown →
      ∃ t, exec (.systemReset why) s = .next t ∧ t.aon.phase = .powerupB ∧ t.aon.held = true ∧ t.mainOn = false ∧ t.t0 = [] ∧ t.t1 = [] ∧
        t.streams = [] ∧ t.active = none ∧ t.host = s.host ∧ t.bit Reg.PWR_STAT 2 = s.bit Reg.PWR_STAT 2 ∧
        t.newest.map (fun e => (e.code, e.arg1)) = some (6, if why = .request then 2 else 3)) ∧
    (s.aon.running = true → s.mainOn = true → s.aon.phase ≠ .powerdown →
      ∃ t, exec .resetNAssert s = .next t ∧ t.aon.phase = .powerupB ∧ t.aon.held = true ∧ t.aon.resetN = false ∧ t.t0 = [] ∧ t.streams = [] ∧
        t.newest.map (fun e => (e.code, e.arg1)) = some (6, 1)) ∧
    (∀ mv : Nat, s.aon.running = true → s.aon.onCell = none →
      ∃ t, exec (.aonToKeep mv) s = .next t ∧ t.aon.phase = .off ∧
        (1000 ≤ mv → t.aon.running = true ∧ t.aon.onCell = some s.now ∧ t.bit Reg.GLOBAL_PWRSTAT 3 = true ∧
          t.newest.map (fun e => (e.code, e.detail)) = some (8, mv % 2 ^ 32)) ∧
        (mv < 1000 → t.aon.running = false)) ∧
    (s.aon.running = false ∨ s.aon.onCell.isSome = true →
      (∃ t, exec .retentionSentinelSet s = .next t ∧ t = { s with aon := { s.aon with sentinel := true, running := false } }) ∧
      (∃ t, exec .aonStart s = .next t ∧ t.aon.running = true ∧ t.aon.onCell = none ∧ t.aon.phase = .off ∧ t.aon.offAt = s.now ∧
        (s.aon.sentinel = true ∨ s.aon.best = none →
          t.store.mono = 0 ∧ t.store.entries.length = 1 ∧ t.bit Reg.GLOBAL_PWRSTAT 4 = true ∧
          t.newest.map (fun e => (e.code, e.arg1)) = some (0x0A, if s.aon.sentinel then 1 else 2)) ∧
        (s.aon.sentinel = false → s.aon.best ≠ none →
          t.aon.sentinel = false ∧ t.store.mono = s.store.mono ∧ t.bit Reg.GLOBAL_PWRSTAT 4 = false ∧
          (s.aon.onCell = none → t.store = s.store) ∧ (s.aon.onCell.isSome = true → t.newest.map (·.code) = some 9))))

/-- A control core is up. CONTROL_CORE_RESTART with no restart of that core in the last second: it is away, CORESTAT shows it
restarting and counts it, one event is logged, and CC4ABSENT is set for core 4. With one in the last second, CC3_RELEASE_OVERRUN,
and FIRMWARE_RESET of a running main domain are firmware resets where none came before: all six cores are away, slices and ticks
as before, code 0x07 is journaled with the cause (and the core for the first), and the counter advances by 1 where it lies below
the floor by more than 1. One less than 10 s after another is a system reset: the main domain is held at the release step, code
0x06 ARG1 3. CORE_RETURN of a core that is away (for core 0, with no plan load and no flash operation held for it): CORESTAT shows
it running. -/
def Obligations.ControlCoresRestartAndReturn : Prop :=
  ∀ s : State, s.aon.running = true →
    (∀ core : Fin 6, s.coreUp core = true → (∀ x, keyGet s.firstRestart core = some x → x + 1000000 ≤ s.now) →
      ∃ t, exec (.controlCoreRestart core) s = .next t ∧ core.val ∈ t.restarting ∧ t.coreUp core = false ∧
        t.bit (Reg.CCMB_CORESTAT + 4 * core.val) 0 = false ∧ t.bit (Reg.CCMB_CORESTAT + 4 * core.val) 1 = true ∧
        t.fld (Reg.CCMB_CORESTAT + 4 * core.val) 16 16 = min (s.fld (Reg.CCMB_CORESTAT + 4 * core.val) 16 16 + 1) 65535 ∧
        t.logSeq = (s.logSeq + 1) % 2 ^ 32 ∧ (core = 4 → t.bit Reg.PWR_STAT 17 = true) ∧ t.engs = s.engs ∧ t.tick = s.tick ∧ t.streams = s.streams) ∧
    (∀ (c : Instr) (why core : Nat),
      ((∃ k : Fin 6, c = .controlCoreRestart k ∧ why = 1 ∧ core = k ∧ s.coreUp k = true ∧ ∃ x, keyGet s.firstRestart k = some x ∧ s.now < x + 1000000) ∨
       (c = .cc3ReleaseOverrun ∧ why = 2 ∧ core = 0 ∧ s.coreUp 3 = true) ∨
       (c = .firmwareReset .request ∧ why = 3 ∧ core = 0 ∧ s.mainOn = true ∧ s.aon.phase ≠ .powerdown) ∨
       (c = .firmwareReset .escalation ∧ why = 1 ∧ core = 0 ∧ s.mainOn = true ∧ s.aon.phase ≠ .powerdown)) →
      ((∀ x, s.firmwareAt = some x → x + 10000000 ≤ s.now) →
        ∃ t, exec c s = .next t ∧ (∀ k, k < 6 → k ∈ t.restarting ∧ t.bit (Reg.CCMB_CORESTAT + 4 * k) 1 = true) ∧ t.firmwareAt = some s.now ∧
          t.engs = s.engs ∧ t.tick = s.tick ∧ t.streams = s.streams ∧ t.t0 = s.t0 ∧
          t.newest.map (fun e => (e.code, e.arg1, e.arg2)) = some (7, why, core) ∧
          (s.store.mono ≠ 0 → s.store.mono + 1 < s.floor →
            t.store.mono = s.store.mono + 1 ∧ t.reg Reg.GDN_INCARN = BitVec.ofNat 32 (s.store.mono + 1))) ∧
      (∀ x, s.firmwareAt = some x → s.now < x + 10000000 →
        ∃ t, exec c s = .next t ∧ t.aon.held = true ∧ t.aon.phase = .powerupB ∧ t.t0 = [] ∧
          t.newest.map (fun e => (e.code, e.arg1)) = some (6, 3))) ∧
    (∀ core : Fin 6, s.mainOn = true → core.val ∈ s.restarting → (core = 0 → s.load = none ∧ s.nv.goHeld = none) →
      ∃ t, exec (.coreReturn core) s = .next t ∧ core.val ∉ t.restarting ∧ t.bit (Reg.CCMB_CORESTAT + 4 * core.val) 0 = true ∧
        t.bit (Reg.CCMB_CORESTAT + 4 * core.val) 1 = false ∧ (core = 4 → t.bit Reg.PWR_STAT 17 = false))

/-- With the main domain on, not in POWERDOWN. KEEP_SAMPLE shows voltage and current. Where the charger may run it shows CHARGING,
and FLOAT once the voltage has reached the target of its type; outside the float phase, a step of 100 mV or more with the current
below a quarter of the earlier sample's or below 5 µA is a removal alone: PRESENT and CHARGING clear, REMOVED set, code 0x0B;
otherwise more than 100 mV above the target is a fault: charging stops, FAULT set, code 0x0D. Where it may not run, CHARGING and
FLOAT are 0. PRESENCE_PROBE of an absent cell that rises by less than 20 mV shows it present, and after a removal or a change of
TYPE sets INSERTED with code 0x0C; a cell in the float phase that rises by 20 mV or more is removed. -/
def Obligations.KeepCellIsSampledAndProbed : Prop :=
  ∀ s : State, s.aon.running = true → s.mainOn = true → s.aon.phase ≠ .powerdown →
    let k := Reg.GLOBAL_KEEPSTAT
    let target := if s.fld Reg.GLOBAL_KEEPCFG 0 2 = 1 then 1600 else 1550
    (∀ (mv : Nat) (i : Int),
      ∃ t, exec (.keepSample mv i) s = .next t ∧ t.fld k 0 12 = satNat 12 mv ∧ t.fld k 14 10 = satNat 10 i.toNat ∧
        (s.keepMay = false → t.bit k 30 = false ∧ t.bit k 29 = false ∧ t.store = s.store) ∧
        (∀ v j, s.keepMay = true → s.bit k 29 = false → s.aon.keep.last = some (v, j) → (v + 100 ≤ mv ∨ mv + 100 ≤ v) → (4 * i < j ∨ i < 5) →
          t.bit k 31 = false ∧ t.bit k 30 = false ∧ t.bit k 28 = true ∧ t.bit k 26 = s.bit k 26 ∧ t.newest.map (·.code) = some 0x0B) ∧
        (s.keepMay = true → (∀ v j, s.aon.keep.last = some (v, j) → s.bit k 29 = true ∨ (mv < v + 100 ∧ v < mv + 100) ∨ (j ≤ 4 * i ∧ 5 ≤ i)) →
          (target + 100 < mv → t.bit k 26 = true ∧ t.bit k 30 = false ∧ t.bit k 31 = true ∧ t.aon.keep.faulted = true ∧ t.newest.map (·.code) = some 0x0D) ∧
          (mv ≤ target + 100 → s.aon.keep.flat < 599999 →
            t.bit k 30 = true ∧ t.bit k 29 = (s.bit k 29 || decide (target ≤ mv)) ∧ t.bit k 26 = s.bit k 26 ∧ t.store = s.store))) ∧
    (∀ mv : Nat, s.keepFitted = true → s.bit k 31 = false → mv < 20 →
      ∃ t, exec (.presenceProbe mv) s = .next t ∧ t.bit k 31 = true ∧ (s.aon.keep.changed = false → t.store = s.store ∧ t.bit k 27 = s.bit k 27) ∧
        (s.aon.keep.changed = true → t.bit k 27 = true ∧ t.newest.map (·.code) = some 0x0C)) ∧
    (∀ mv : Nat, s.keepFitted = true → s.bit k 31 = true → s.bit k 29 = true → 20 ≤ mv →
      ∃ t, exec (.presenceProbe mv) s = .next t ∧ t.bit k 31 = false ∧ t.bit k 30 = false ∧ t.bit k 28 = true ∧ t.aon.keep.changed = true ∧
        t.newest.map (·.code) = some 0x0B)

/-- For an enabled port, its configuration valid. AUDIO_FRAME that does not start early, detection off: the received slots that
INMASK names, their top bits at the top of a 32-bit word, enter the input buffer behind what it holds (4,096 frames are kept);
with no ramp, the oldest committed frame is transmitted and enters the loopback buffer; with none and no output bound a zero frame
is, uncounted; with none and an output bound it is counted in ZEROCNT and the port is re-primed. NONAUDIO_HOLD_EXPIRY unmutes a
slot whose hold has passed, and nothing before. RATE_WINDOW with fewer than two frame starts shows no valid rate; else it shows
the deviation, and RATEBAD exactly where its size exceeds ten times LIMIT, one event at each entry. AUDIO_NOCLK of a slave port
that saw frames shows that they have ceased, sets NOCLK, and is one event. A port that is not enabled takes no frame. -/
def Obligations.AudioFramesAreBufferedAndTransmitted : Prop :=
  ∀ (port : Fin 4) (s : State), s.audio.ports.length = 4 →
    let k : Nat := port
    let stat := apReg Reg.AP_STAT k
    let p := s.ap k
    (s.apOn k = false → ∀ f : TdmFrame, exec (.audioFrame port f) s = .next s) ∧
    (s.apOn k = true →
      (∀ f : TdmFrame, s.apActive k = true → f.early = false → s.bit (apReg Reg.AP_NACFG k) 31 = false → p.downAt = none → p.upAt = none →
        ∃ t, exec (.audioFrame port f) s = .next t ∧ f.time ≤ t.now ∧ (t.ap k).lastStart = some f.time ∧ t.bit stat 1 = true ∧
          (t.ap k).input = newest 4096 (p.input ++ p.lag.toList ++ [(List.range (s.apSlots k)).map fun i =>
            if s.bit (apReg Reg.AP_INMASK k) i then rxSample (s.apSlotW k) (s.apWidth k) (f.slots.getD i 0) else 0]) ∧
          (∀ g rest, p.output = g :: rest → (t.ap k).output = rest ∧ (t.ap k).loop = newest 4096 (p.loop ++ [g.map (txSample (s.apWidth k))]) ∧
            t.reg (apReg Reg.AP_ZEROCNT k) = s.reg (apReg Reg.AP_ZEROCNT k)) ∧
          (p.output = [] → (t.ap k).output = [] ∧ (t.ap k).loop = newest 4096 (p.loop ++ [List.replicate (s.apSlots k) 0]) ∧
            (s.outsOn k = [] → t.reg (apReg Reg.AP_ZEROCNT k) = s.reg (apReg Reg.AP_ZEROCNT k)) ∧
            (s.outsOn k ≠ [] → (t.ap k).reprime = true ∧
              t.fld (apReg Reg.AP_ZEROCNT k) 0 32 = min (s.fld (apReg Reg.AP_ZEROCNT k) 0 32 + 1) (2 ^ 32 - 1)))) ∧
      (∀ n c : Nat, (n < 2 → ∃ t, exec (.rateWindow port n c) s = .next t ∧ t.bit (apReg Reg.AP_RATE k) 31 = false) ∧
        (2 ≤ n → 0 < c →
          let dev := rateDev (s.apRate100 k) n c
          ∃ t, exec (.rateWindow port n c) s = .next t ∧ t.bit (apReg Reg.AP_RATE k) 31 = true ∧
            t.fld (apReg Reg.AP_RATEDEV k) 0 16 = unsignedOf 16 dev ∧ t.bit stat 2 = decide (s.fld (apReg Reg.AP_RATECFG k) 16 8 * 10 < dev.natAbs) ∧
            (s.bit stat 2 = false → t.bit stat 2 = true → t.bit stat 10 = true ∧ t.logSeq = (s.logSeq + 1) % 2 ^ 32) ∧
            (s.bit stat 2 = true ∨ t.bit stat 2 = false → t.logSeq = s.logSeq))) ∧
      (∀ x, s.bit (apReg Reg.AP_CTRL k) 1 = false → s.bit stat 1 = true → p.lastStart = some x →
        ∃ t, exec (.audioNoclk port) s = .next t ∧ t.bit stat 1 = false ∧ t.bit stat 11 = true ∧ t.logSeq = (s.logSeq + 1) % 2 ^ 32 ∧
          x + 1000 ≤ t.now)) ∧
    (∀ (slot : Fin 32) (n : Nat), keyGet p.muted slot = some n →
      (s.holdFrames k ≤ n → ∃ t, exec (.nonaudioHoldExpiry port slot) s = .next t ∧ keyGet (t.ap k).muted slot = none ∧
        t.bit (apReg Reg.AP_NASLOTS k) slot = false ∧ (∀ j, j ≠ slot.val → keyGet (t.ap k).muted j = keyGet p.muted j)) ∧
      (n < s.holdFrames k → exec (.nonaudioHoldExpiry port slot) s = .next s))

/-- For the camera receiver at work, packets on the chosen channel. CAM_FRAME_START with no frame in progress takes a FREE buffer
for FILLING, else the READY one, counting a drop. CAM_LONG_PACKET of a frame in progress, a whole line of the chosen type: the
line count advances and its bytes lie at their place in the FILLING buffer; a CRC or header error, another length or another pixel
type makes the frame bad, one event, and stores nothing; with no frame in progress the packet is one event alone. CAM_FRAME_END of
a good frame of HEIGHT lines makes its buffer READY and counts it; an older READY buffer becomes FREE, counted as a drop; a bad
frame, or one of another line count, frees its buffer and is counted bad. A packet on another channel only counts in
CAM_BADCNT.OTHER. CAM_NO_FRAME sets NOCAM, one event until a Frame Start. -/
def Obligations.CameraFramesAreFilledAndEnded : Prop :=
  ∀ s : State, s.camActive = true → s.cam.bufs.length = 3 →
    (∀ vc : Fin 4, vc.val = s.camVc →
      (s.cam.inFrame = false →
        (∀ i, s.cam.bufs.findIdx? (· = .free) = some i →
          ∃ t, exec (.camFrameStart vc) s = .next t ∧ t.cam.bufs = s.cam.bufs.set i .filling ∧ t.cam.inFrame = true ∧ t.cam.line = 0 ∧
            t.bit Reg.CAM_STAT 1 = true ∧ t.reg Reg.CAM_DROPCNT = s.reg Reg.CAM_DROPCNT) ∧
        (∀ i, s.cam.bufs.findIdx? (· = .free) = none → s.cam.bufs.findIdx? (· = .ready) = some i →
          ∃ t, exec (.camFrameStart vc) s = .next t ∧ t.cam.bufs = s.cam.bufs.set i .filling ∧ t.cam.inFrame = true ∧
            t.bit Reg.CAM_STAT 11 = true ∧ t.fld Reg.CAM_DROPCNT 0 32 = min (s.fld Reg.CAM_DROPCNT 0 32 + 1) (2 ^ 32 - 1))) ∧
      (s.cam.inFrame = true → s.cam.bad = false → s.cam.line = s.camH →
        ∃ t, exec (.camFrameEnd vc) s = .next t ∧ t.cam.inFrame = false ∧
          t.cam.bufs = s.cam.bufs.map (fun b => if b = .filling then .ready else if b = .ready then .free else b) ∧
          t.fld Reg.CAM_FRAMECNT 0 32 = min (s.fld Reg.CAM_FRAMECNT 0 32 + 1) (2 ^ 32 - 1) ∧
          (BufState.ready ∈ s.cam.bufs → t.fld Reg.CAM_DROPCNT 0 32 = min (s.fld Reg.CAM_DROPCNT 0 32 + 1) (2 ^ 32 - 1)) ∧
          (BufState.ready ∉ s.cam.bufs → t.reg Reg.CAM_DROPCNT = s.reg Reg.CAM_DROPCNT)) ∧
      (s.cam.inFrame = true → s.cam.bad = true ∨ s.cam.line ≠ s.camH →
        ∃ t, exec (.camFrameEnd vc) s = .next t ∧ t.cam.inFrame = false ∧ t.cam.bufs = s.cam.bufs.map (fun b => if b = .filling then .free else b) ∧
          t.fld Reg.CAM_BADCNT 0 16 = min (s.fld Reg.CAM_BADCNT 0 16 + 1) (2 ^ 16 - 1) ∧ t.bit Reg.CAM_STAT 9 = true ∧
          t.reg Reg.CAM_FRAMECNT = s.reg Reg.CAM_FRAMECNT)) ∧
    (∀ p : LongPacket, p.vc.val = s.camVc →
      (∀ b n i, s.cam.inFrame = true → p.ecc ≤ 1 → p.crcOk = true → pixelType p.dtype = true → p.dtype = s.camType → p.bytes.length = s.camLine →
        s.cam.area = some (b, n) → s.cam.bufs.findIdx? (· = .filling) = some i → s.cam.line < s.camH →
        let a := s.camBuf b i + s.cam.line * s.camPitch
        a + p.bytes.length ≤ 0x300_0000 →
        ∃ t, exec (.camLongPacket p) s = .next t ∧ t.cam = { s.cam with line := s.cam.line + 1 } ∧
          (∀ j, j < p.bytes.length → cellGet t.t0 (a + j) = p.bytes.getD j 0) ∧
          (∀ x, x < a ∨ a + p.bytes.length ≤ x → cellGet t.t0 x = cellGet s.t0 x)) ∧
      (s.cam.inFrame = true → s.cam.bad = false → 1 < p.ecc ∨ (pixelType p.dtype = true ∧ (p.dtype ≠ s.camType ∨ p.crcOk = false ∨ p.bytes.length ≠ s.camLine)) →
        ∃ t, exec (.camLongPacket p) s = .next t ∧ t.cam = { s.cam with bad := true } ∧ t.logSeq = (s.logSeq + 1) % 2 ^ 32 ∧ t.t0 = s.t0) ∧
      (s.cam.inFrame = false → p.ecc ≤ 1 →
        ∃ t, exec (.camLongPacket p) s = .next t ∧ t.cam = s.cam ∧ t.logSeq = (s.logSeq + 1) % 2 ^ 32 ∧ t.t0 = s.t0)) ∧
    (∀ (c : Instr) (vc : Fin 4), vc.val ≠ s.camVc →
      c = .camFrameStart vc ∨ c = .camFrameEnd vc ∨ (∃ p : LongPacket, c = .camLongPacket p ∧ p.vc = vc ∧ p.ecc ≤ 1) →
      ∃ t, exec c s = .next t ∧ t.cam = s.cam ∧ t.fld Reg.CAM_BADCNT 16 16 = min (s.fld Reg.CAM_BADCNT 16 16 + 1) (2 ^ 16 - 1) ∧
        t = { s with regs := t.regs }) ∧
    (s.cam.missLogged = false →
      ∃ t, exec .camNoFrame s = .next t ∧ t.bit Reg.CAM_STAT 1 = false ∧ t.bit Reg.CAM_STAT 10 = true ∧ t.cam = { s.cam with missLogged := true } ∧
        t.logSeq = (s.logSeq + 1) % 2 ^ 32 ∧ s.cam.lastStart + 1000 * s.fld Reg.CAM_CTRL 16 8 ≤ t.now)

/-- The HSP is served, and the frame does not fall before the ready time. Each well-formed frame answers the pending reply, and
leaves its own, which REPEAT fetches too; FRAMECNT advances and the ready time is 1 µs and 10 ns a data word behind its end.
HSP_NOP has no data; HSP_RD answers the registers in ascending order; HSP_WR of one word to a register as
RegisterWriteByAccessTypes takes it stores it; HSP_MRD answers the bytes of T0, with stream contexts where they are homed; HSP_MWR
inside the staging area stores its bytes and no others, and outside stores nothing, STATUS 0x07, one event. HSP_REPEAT leaves a
copy of the last reply with REPEAT set and its CRC, or STATUS 0x08 before any, FRAMECNT staying. -/
def Obligations.HspFramesAreAnsweredInTheNext : Prop :=
  ∀ (h : HspHead) (s : State), s.served .hsp = true → s.hsp.readyAt ≤ h.fall →
    let cnt := min (s.fld Reg.HSP_FRAMECNT 0 32 + 1) (2 ^ 32 - 1)
    let out := Sent.hsp s.hspPending :: s.sent
    let sq := h.seq.toNat
    (∃ t, exec (.hspNop h) s = .next t ∧ t.sent = out ∧ t.fld Reg.HSP_FRAMECNT 0 32 = cnt ∧ t.hsp.readyAt = h.rise + 100 ∧
      t.hsp.reply = hspPack 0 0 sq 0 s.hspIntLow false false [] ∧ t.hsp.last = some t.hsp.reply) ∧
    (∀ (off : BitVec 24) (n : Nat), 1 ≤ n → n ≤ 256 → off.toNat % 4 = 0 → off.toNat + 4 * n ≤ 0x100_0000 → (∀ k, k < n → pairRole (off.toNat + 4 * k) = .single) →
      ∃ t, exec (.hspRd h off n) s = .next t ∧ t.sent = out ∧ t.fld Reg.HSP_FRAMECNT 0 32 = cnt ∧ t.hsp.readyAt = h.rise + 100 + n ∧
        t.hsp.reply = hspPack 1 (n - 1) sq 0 s.hspIntLow false false ((List.range n).map fun k => s.regRead (off.toNat + 4 * k)) ∧
        t.hsp.last = some t.hsp.reply) ∧
    (∀ (off : BitVec 24) (v : Word) (d : RegDesc) (k : Nat), findReg off.toNat = some (d, k) → pairRole off.toNat = .single → ownBehaviour off.toNat = false →
      breaksLock d v (s.reg off.toNat) = false → (s.bit Reg.TICK_STAT 0 = true ∨ rwtMask d v = 0) → off.toNat % 4 = 0 →
      off.toNat ≠ Reg.HSP_FRAMECNT → off.toNat ≠ Reg.HSP_STAT →
      ∃ t, exec (.hspWr h off [v]) s = .next t ∧ t.sent = out ∧ t.reg off.toNat = (s.regStore off.toNat v).reg off.toNat ∧
        t.fld Reg.HSP_FRAMECNT 0 32 = cnt ∧ t.hsp.readyAt = h.rise + 101 ∧ t.hsp.reply = hspPack 2 0 sq 0 t.hspIntLow false false [] ∧
        t.hsp.last = some t.hsp.reply) ∧
    (∀ (addr : BitVec 26) (n : Nat), 1 ≤ n → n ≤ 256 → addr.toNat % 4 = 0 → addr.toNat + 4 * n ≤ t0Bytes → s.t0Poison = [] → s.t0Flips = [] →
      ∃ t, exec (.hspMrd h addr n) s = .next t ∧ t.sent = out ∧ t.t0 = s.t0 ∧ t.hsp.last = some t.hsp.reply ∧
        t.hsp.reply = hspPack 3 (n - 1) sq 0 s.hspIntLow false false
          ((List.range n).map fun k => BitVec.ofNat 32 (leAt (s.showContexts addr.toNat (cellRead s.t0 addr.toNat (4 * n))) (4 * k) 4))) ∧
    (∀ (addr : BitVec 26) (ws : List Word) (b m : Nat), 1 ≤ ws.length → ws.length ≤ 256 → addr.toNat % 4 = 0 → addr.toNat + 4 * ws.length ≤ t0Bytes →
      s.t0Poison = [] → s.t0Flips = [] →
      (s.staging = some (b, m) → b ≤ addr.toNat → addr.toNat + 4 * ws.length ≤ b + m →
        ∃ t, exec (.hspMwr h addr ws) s = .next t ∧ t.sent = out ∧ t.hsp.reply = hspPack 4 (ws.length - 1) sq 0 s.hspIntLow false false [] ∧
          (∀ j, j < 4 * ws.length → cellGet t.t0 (addr.toNat + j) = (ws.flatMap fun w => leBytes 4 w.toNat).getD j 0) ∧
          (∀ x, x < addr.toNat ∨ addr.toNat + 4 * ws.length ≤ x → cellGet t.t0 x = cellGet s.t0 x)) ∧
      (s.staging = none →
        ∃ t, exec (.hspMwr h addr ws) s = .next t ∧ Sent.hsp s.hspPending ∈ t.sent ∧ t.t0 = s.t0 ∧ t.logSeq = (s.logSeq + 1) % 2 ^ 32 ∧
          t.hsp.reply = hspPack 4 (ws.length - 1) sq 7 t.hspIntLow false false [])) ∧
    (∀ (w : Word) (ws : List Word), s.hsp.last = some (w :: ws) →
      ∃ t, exec (.hspRepeat h) s = .next t ∧ t.sent = out ∧ t.hsp.last = s.hsp.last ∧ t.reg Reg.HSP_FRAMECNT = s.reg Reg.HSP_FRAMECNT ∧
        t.hsp.reply = ((w ||| 0x00010000) :: ws.dropLast) ++ [hspCrc ((w ||| 0x00010000) :: ws.dropLast)]) ∧
    (s.hsp.last = none →
      ∃ t, exec (.hspRepeat h) s = .next t ∧ t.sent = out ∧ t.hsp.last = none ∧ t.hsp.reply = hspPack 5 0 sq 8 s.hspIntLow false false [])

/-- The HSP is served, and the PSP idle or at work. HSP_REJECTED_FRAME of a frame that falls before the ready time, or that fails
a check, is rejected: REJCNT advances, REJ is set, one event is recorded, T0 and the last reply stay, and the reply bears the
frame's OP, CNT and SEQ with STATUS 0x06, or that of the first check it fails. HSP_CFG_APPLY takes CPHA and WIRE from HSP_CFG.
PSP_TRANSFER_START of an idle port whose settings the rules allow sends TXLEN bytes of the buffer to the select, BUSY set; of one
whose settings they do not, or of a busy one, it sets REFUSED and starts nothing. PSP_TRANSFER_DONE of a port at work ends it,
DONE set, with the captured bytes at the start of the receive buffer. -/
def Obligations.HspRejectsAndPspTransfers : Prop :=
  ∀ s : State,
    (∀ (h : HspHead) (x : Nat) (w : Word) (ws : List Word) (st : Nat), s.served .hsp = true →
      (h.fall < s.hsp.readyAt ∧ st = 6) ∨ (s.hsp.readyAt ≤ h.fall ∧ s.hspCheck x (w :: ws) = some st) →
      ∃ t, exec (.hspRejectedFrame h x (w :: ws)) s = .next t ∧ t.fld Reg.HSP_REJCNT 0 32 = min (s.fld Reg.HSP_REJCNT 0 32 + 1) (2 ^ 32 - 1) ∧
        t.bit Reg.HSP_STAT 8 = true ∧ t.logSeq = (s.logSeq + 1) % 2 ^ 32 ∧ t.t0 = s.t0 ∧ t.hsp.last = s.hsp.last ∧
        t.reg Reg.HSP_FRAMECNT = s.reg Reg.HSP_FRAMECNT ∧
        t.hsp.reply = hspPack (wordField w 28 4) (wordField w 20 8) (wordField w 8 8) st t.hspIntLow false false []) ∧
    (s.served .hsp = true →
      exec .hspCfgApply s = .next { s with hsp := { s.hsp with cpha := s.bit Reg.HSP_CFG 0, wire := s.bit Reg.HSP_CFG 1 } }) ∧
    (∀ (i : Iface) (v : Word), s.served i = true →
      (s.bit Reg.PSP_XCTRL 30 = true →
        ∃ t, exec (.pspTransferStart i v) s = .next t ∧ t.bit Reg.PSP_XSTAT 1 = true ∧ t.psp = s.psp ∧ t.sent = s.sent) ∧
      (s.bit Reg.PSP_XCTRL 30 = false →
        let u := s.regStore Reg.PSP_XCTRL (v ||| 0x80000000)
        (u.pspOk = false → ∃ t, exec (.pspTransferStart i v) s = .next t ∧ t.bit Reg.PSP_XSTAT 1 = true ∧ t.psp = s.psp ∧ t.sent = s.sent) ∧
        (u.pspOk = true → ∃ t, exec (.pspTransferStart i v) s = .next t ∧ t.bit Reg.PSP_XCTRL 30 = true ∧
          t.sent = .psp (u.fld Reg.PSP_XCTRL 28 2) (s.regBytes Reg.PSP_TXBUF (u.fld Reg.PSP_XCTRL 0 9)) :: s.sent ∧
          t.psp = some ⟨u.fld Reg.PSP_XCTRL 28 2, s.regBytes Reg.PSP_TXBUF (u.fld Reg.PSP_XCTRL 0 9),
            u.fld Reg.PSP_XCTRL 9 9 + (if u.bit Reg.PSP_XCTRL 24 then u.fld Reg.PSP_XCTRL 0 9 else 0)⟩))) ∧
    (∀ (bs : List Byte) (j : PspJob), s.mainOn = true → s.psp = some j → bs.length = j.capture → j.capture ≤ 256 →
      ∃ t, exec (.pspTransferDone bs) s = .next t ∧ t.psp = none ∧ t.bit Reg.PSP_XCTRL 30 = false ∧ t.bit Reg.PSP_XSTAT 0 = true ∧
        t.regBytes Reg.PSP_RXBUF j.capture = bs)

/-- NVC_UPDATE_USER, NVC_UPDATE_FACTORY and NVC_HOST_BOOT over an interface that is served: GO while BUSY, with a length that is
no multiple of 64, or a host boot outside the boot wait sets REFUSED and starts nothing. With the records in host memory, read
without fault, CC0 running: an invalid one of an update fails with CAUSE 1; a valid one that fits its slot, the flash
programmable, starts a write of the slot that is not in use, with a generation one above the pair's, that slot erased and BUSY
set; a host boot in the boot wait with one valid factory record alone reaches READY and DONE with its generation. NVC_UPDATE_DONE
with the flash as written and the slot valid commits it, DONE set; with the flash at fault it fails with CAUSE 3, one event.
FLASH_BUSY_TIMEOUT fails the operation in progress with CAUSE 3, one event, and does nothing without one. -/
def Obligations.FlashOperationsRunAndCommit : Prop :=
  ∀ s : State,
    (∀ (i : Iface) (v : Word) (c : Instr), s.served i = true →
      c = .nvcUpdateUser i v [] .ok ∨ c = .nvcUpdateFactory i v [] .ok ∨ c = .nvcHostBoot i v [] .ok →
      s.bit Reg.NVC_UPDCTRL 30 = true ∨ (s.reg Reg.NVC_UPDLEN).toNat % 64 ≠ 0 ∨ (c = .nvcHostBoot i v [] .ok ∧ s.bit Reg.NVC_BOOTSTAT 31 = false) →
      ∃ t, exec c s = .next t ∧ t.bit Reg.NVC_UPDSTAT 2 = true ∧ t.nv = s.nv ∧ t.bit Reg.NVC_UPDCTRL 30 = s.bit Reg.NVC_UPDCTRL 30 ∧ t.aon = s.aon) ∧
    (∀ (i : Iface) (v : Word), s.served i = true → s.bit Reg.NVC_UPDCTRL 30 = false → s.coreUp 0 = true → wordField v 0 1 = 1 →
      (s.reg Reg.NVC_UPDLEN).toNat % 64 = 0 → s.reg64 Reg.NVC_UPDSRC_LO + (s.reg Reg.NVC_UPDLEN).toNat ≤ 2 ^ 64 →
      let bs := cellRead s.host (s.reg64 Reg.NVC_UPDSRC_LO) (s.reg Reg.NVC_UPDLEN).toNat
      (∀ (user : Bool) (c : Instr), c = (if user then .nvcUpdateUser i v [] .ok else .nvcUpdateFactory i v [] .ok) →
        (s.nvRecord user (if user then s.nv.locked else []) bs = none →
          ∃ t, exec c s = .next t ∧ t.bit Reg.NVC_UPDSTAT 1 = true ∧ t.fld Reg.NVC_UPDSTAT 8 8 = 1 ∧ t.bit Reg.NVC_UPDCTRL 30 = false ∧
            t.nv.flash = s.nv.flash) ∧
        (∀ r, s.nvRecord user (if user then s.nv.locked else []) bs = some r → s.flashUsable = true → r.len ≤ (s.slotAt user (s.updateSlot user)).2 →
          ∃ t, exec c s = .next t ∧ t.bit Reg.NVC_UPDCTRL 30 = true ∧
            t.nv.update.map (fun j => (j.target, j.slot, j.gen)) = some (if user then 0 else 1, s.updateSlot user, s.nextGen user) ∧
            (∀ a, (s.slotAt user (s.updateSlot user)).1 ≤ a → a < (s.slotAt user (s.updateSlot user)).1 + (s.slotAt user (s.updateSlot user)).2 →
              cellGet t.nv.flash a = 0))) ∧
      (∀ f, s.bit Reg.NVC_BOOTSTAT 31 = true → s.nvRecord false [] bs = some f → f.len = bs.length →
        ∃ t, exec (.nvcHostBoot i v [] .ok) s = .next t ∧ t.bit Reg.GLOBAL_PWRSTAT 0 = true ∧ t.bit Reg.NVC_BOOTSTAT 31 = false ∧
          t.bit Reg.NVC_UPDSTAT 0 = true ∧ t.reg Reg.NVC_FGEN = BitVec.ofNat 32 f.gen ∧ t.nv.flash = s.nv.flash)) ∧
    (∀ j : UpdateJob, s.nv.update = some j →
      (∃ t, exec .flashBusyTimeout s = .next t ∧ t.nv.update = none ∧ t.bit Reg.NVC_UPDSTAT 1 = true ∧ t.fld Reg.NVC_UPDSTAT 8 8 = 3 ∧
        t.logSeq = (s.logSeq + 1) % 2 ^ 32) ∧
      (s.coreUp 0 = true →
        (∃ t, exec (.nvcUpdateDone false) s = .next t ∧ t.nv.update = none ∧ t.bit Reg.NVC_UPDSTAT 1 = true ∧ t.fld Reg.NVC_UPDSTAT 8 8 = 3 ∧
          t.logSeq = (s.logSeq + 1) % 2 ^ 32 ∧ t.store = s.store) ∧
        (∀ u : State, u = s.flashWrite (s.slotAt (decide (j.target = 0)) j.slot).1 j.record →
          (u.slotRecord (decide (j.target = 0)) (if j.target = 0 then s.nv.locked else []) j.slot).isSome = true →
          ∃ t, exec (.nvcUpdateDone true) s = .next t ∧ t.nv.update = none ∧ t.bit Reg.NVC_UPDSTAT 0 = true ∧ t.nv.flash = u.nv.flash ∧
            t.slotPair (decide (j.target = 0)) = ⟨some j.slot, j.gen, none⟩))) ∧
    (s.nv.update = none → exec .flashBusyTimeout s = .next s)

/-- Over an interface that is served. SEC_PROVISION with CHECK 0x5E in a part without an owner burns the provisioned hash into
OWNERHASH and sets PROVDONE; with another CHECK or an owner it changes neither, and over PCI Express or the HSP is one event.
DEBUG_LOCK sets LOCK and closes the debug access path. GLN_EVAC_GO with GO 1 while no evacuation runs takes up the entry and sets
BUSY; while one runs the entry stays. PCIE_LINK_UP shows width and speed of a legal link, and REFRESH_RATE_CHANGE the refresh
bits, with the main domain on. -/
def Obligations.OwnersAreBurntPathsLockedEntriesEvacuated : Prop :=
  ∀ s : State,
    (∀ (i : Iface) (v : Word), s.served i = true →
      (wordField v 24 8 = 0x5E → s.owned = false →
        ∃ t, exec (.secProvision i v) s = .next t ∧ (∀ k, k < 8 → t.reg (Reg.SEC_OWNHASH + 4 * k) = s.reg (Reg.SEC_PROVHASH + 4 * k)) ∧
          t.bit Reg.SEC_STAT 4 = true ∧ t = { s with regs := t.regs }) ∧
      (wordField v 24 8 ≠ 0x5E ∨ s.owned = true →
        ∃ t, exec (.secProvision i v) s = .next t ∧ (∀ k, k < 8 → t.reg (Reg.SEC_OWNHASH + 4 * k) = s.reg (Reg.SEC_OWNHASH + 4 * k)) ∧
          t.bit Reg.SEC_STAT 4 = s.bit Reg.SEC_STAT 4 ∧ (i = .pcie ∨ i = .hsp → t.logSeq = (s.logSeq + 1) % 2 ^ 32)) ∧
      (∃ t, exec (.debugLock i v) s = .next t ∧ t.bit Reg.SEC_DBGCTRL 0 = true ∧ t.bit Reg.SEC_STAT 8 = false ∧ t = { s with regs := t.regs }) ∧
      (wordField v 28 1 = 1 → s.bit Reg.GLN_EVAC 31 = false →
        ∃ t, exec (.glnEvacGo i v) s = .next t ∧ t.bit Reg.GLN_EVAC 31 = true ∧ t.fld Reg.GLN_EVAC 0 10 = wordField v 0 10 ∧ t = { s with regs := t.regs }) ∧
      (s.bit Reg.GLN_EVAC 31 = true →
        ∃ t, exec (.glnEvacGo i v) s = .next t ∧ t.bit Reg.GLN_EVAC 31 = true ∧ t.fld Reg.GLN_EVAC 0 10 = s.fld Reg.GLN_EVAC 0 10 ∧
          t = { s with regs := t.regs })) ∧
    (s.mainOn = true →
      (∀ w v : Nat, (w = 1 ∨ w = 2 ∨ w = 4) → 1 ≤ v → v ≤ 4 →
        ∃ t, exec (.pcieLinkUp w v) s = .next t ∧ t.fld Reg.HOST_STAT 8 5 = w ∧ t.fld Reg.HOST_STAT 16 4 = v ∧ t = { s with regs := t.regs }) ∧
      (∀ x2 x4 : Bool, ∃ t, exec (.refreshRateChange x2 x4) s = .next t ∧ t.bit Reg.MEMCH_STAT 1 = x2 ∧ t.bit Reg.MEMCH_STAT 2 = x4 ∧
        t = { s with regs := t.regs }))

/-- From the release step until OFF: TAP_RESET and IDCODE capture IDCODE and leave the pads to the system; SAMPLE_PRELOAD captures
the pads and loads the cells; EXTEST captures the pads and drives the cells out; HIGHZ puts the outputs at high impedance, CLAMP
drives the cells, both and BYPASS with a bypass register that captures 0; DEBUG selects the debug access path while it is open
(what that captures is free), and acts as BYPASS otherwise. Only SAMPLE_PRELOAD changes the cells. Otherwise each leaves the state
as it is. -/
def Obligations.TheTapSelectsItsInstructions : Prop :=
  ∀ (s : State) (pads cells : BitVec 79),
    (s.tapOn = true →
      let j := s.jtag
      let id := (s.reg Reg.GLOBAL_IDCODE).setWidth 79
      exec .tapReset s = .next { s with jtag := ⟨.idcode, j.cells, id, .system⟩ } ∧
      exec .idcode s = .next { s with jtag := ⟨.idcode, j.cells, id, .system⟩ } ∧
      exec (.samplePreload pads cells) s = .next { s with jtag := ⟨.samplePreload, cells, pads, .system⟩ } ∧
      exec (.extest pads) s = .next { s with jtag := ⟨.extest, j.cells, pads, .cells⟩ } ∧
      exec .highz s = .next { s with jtag := ⟨.highz, j.cells, 0, .highz⟩ } ∧
      exec .clamp s = .next { s with jtag := ⟨.clamp, j.cells, 0, .cells⟩ } ∧
      exec .bypass s = .next { s with jtag := ⟨.bypass, j.cells, 0, .system⟩ } ∧
      (s.bit Reg.SEC_STAT 8 = false → exec .debug s = .next { s with jtag := ⟨.bypass, j.cells, 0, .system⟩ }) ∧
      (s.bit Reg.SEC_STAT 8 = true → ∃ t, exec .debug s = .next t ∧ t.jtag.instr = .debug ∧ t.jtag.cells = j.cells ∧ t.jtag.drive = .system ∧
        t = { s with jtag := t.jtag, free := s.free + 1 })) ∧
    (s.tapOn = false →
      ∀ c : Instr, c ∈ ([.tapReset, .idcode, .samplePreload pads cells, .extest pads, .highz, .clamp, .bypass, .debug] : List Instr) → exec c s = .next s)

/-- The fields whose Reset column of Table 21-1's registers gives a number other than 0 (R17): the offset of the first register, how many
there are and how far apart, the field's lowest bit and width, and the value. -/
def resetFields : List (Nat × Nat × Nat × Nat × Nat × Nat) :=
   [(Reg.TICK_PERIOD, 1, 0x0, 0, 7, 20), (Reg.TICK_FALLOW, 1, 0x0, 0, 6, 15), (Reg.TICK_SLIP, 1, 0x0, 0, 6, 20),
    (Reg.TICK_SRC, 1, 0x0, 31, 1, 1), (Reg.TICK_LOCKTOL, 1, 0x0, 0, 12, 500), (Reg.PLAN_LOADERR, 1, 0x0, 8, 8, 255),
    (Reg.GLN_CTRL, 1, 0x0, 16, 1, 1), (Reg.GLN_CTRL, 1, 0x0, 0, 16, 200), (Reg.GLN_SWAPBUDGET, 1, 0x0, 0, 11, 64),
    (Reg.CART_CHSTAT, 8, 0x20, 8, 7, 127), (Reg.GRN_CTRL, 1, 0x0, 4, 8, 16), (Reg.GRN_CTRL, 1, 0x0, 0, 1, 1),
    (Reg.MEMCH_CFG, 1, 0x0, 16, 16, 8533), (Reg.HOST_EVTVEC0, 1, 0x0, 24, 5, 19), (Reg.HOST_EVTVEC0, 1, 0x0, 16, 5, 18),
    (Reg.HOST_EVTVEC0, 1, 0x0, 8, 5, 17), (Reg.HOST_EVTVEC0, 1, 0x0, 0, 5, 16), (Reg.HOST_EVTVEC1, 1, 0x0, 24, 5, 23),
    (Reg.HOST_EVTVEC1, 1, 0x0, 16, 5, 22), (Reg.HOST_EVTVEC1, 1, 0x0, 8, 5, 21), (Reg.HOST_EVTVEC1, 1, 0x0, 0, 5, 20),
    (Reg.HOST_QMOD, 16, 0x40, 0, 8, 1)] ++
   [(Reg.PSP_SELCLK, 4, 0x8, 0, 8, 8), (Reg.PSP_SELDLY, 4, 0x8, 16, 8, 8), (Reg.PSP_SELDLY, 4, 0x8, 8, 8, 4),
    (Reg.PSP_SELDLY, 4, 0x8, 0, 8, 4), (Reg.AP_FRAME, 4, 0x1000, 24, 5, 1), (Reg.AP_FRAME, 4, 0x1000, 16, 2, 2),
    (Reg.AP_FRAME, 4, 0x1000, 8, 5, 31), (Reg.AP_FRAME, 4, 0x1000, 0, 5, 1), (Reg.AP_FSYNC, 4, 0x1000, 16, 3, 5),
    (Reg.AP_FSYNC, 4, 0x1000, 0, 10, 32), (Reg.AP_RATECFG, 4, 0x1000, 31, 1, 1), (Reg.AP_RATECFG, 4, 0x1000, 16, 8, 10),
    (Reg.AP_RATECFG, 4, 0x1000, 0, 8, 5), (Reg.AP_NACFG, 4, 0x1000, 31, 1, 1), (Reg.AP_NACFG, 4, 0x1000, 16, 8, 20),
    (Reg.QRN_LIM, 1, 0x0, 16, 16, 4), (Reg.QRN_LIM, 1, 0x0, 0, 16, 29491), (Reg.QRN_OGAIN, 16, 0x8, 0, 16, 32768),
    (Reg.CAM_CTRL, 1, 0x0, 16, 8, 100), (Reg.CAM_CTRL, 1, 0x0, 8, 6, 42), (Reg.CAM_CTRL, 1, 0x0, 1, 1, 1),
    (Reg.CAM_SIZE, 1, 0x0, 16, 12, 480)] ++
   [(Reg.CAM_SIZE, 1, 0x0, 0, 12, 640), (Reg.CAM_GATECFG, 1, 0x0, 31, 1, 1), (Reg.CAM_GATECFG, 1, 0x0, 24, 7, 20),
    (Reg.CAM_GATECFG, 1, 0x0, 16, 8, 50), (Reg.CAM_GATECFG, 1, 0x0, 8, 8, 32), (Reg.CAM_GATECFG, 1, 0x0, 0, 8, 64),
    (Reg.GDN_LOSS, 1, 0x0, 8, 8, 16), (Reg.GDN_LOSS, 1, 0x0, 0, 8, 20), (Reg.PWR_CTRL, 1, 0x0, 8, 2, 1), (Reg.PWR_CTRL, 1, 0x0, 0, 6, 36),
    (Reg.PWR_CAPMW, 1, 0x0, 0, 16, 18000), (Reg.PWR_CAPEFF, 1, 0x0, 0, 16, 18000), (Reg.PWR_CAL, 1, 0x0, 0, 16, 4096),
    (Reg.PWR_VOP, 1, 0x0, 16, 3, 7), (Reg.PWR_STOOKCAPMW, 1, 0x0, 0, 17, 72000), (Reg.PWR_RAIL, 8, 0x4, 27, 1, 1),
    (Reg.PWR_RAIL, 8, 0x4, 16, 8, 255), (Reg.PWR_TSLIM, 24, 0x4, 16, 4, 5), (Reg.PWR_TSLIM, 24, 0x4, 8, 8, 115),
    (Reg.PWR_TSLIM, 24, 0x4, 0, 8, 105), (Reg.PWR_TSCFG, 1, 0x0, 0, 8, 130), (Reg.NVC_BOOTSTAT, 1, 0x0, 20, 2, 3)] ++
   [(Reg.ERRLOG_ALERTEN, 1, 0x0, 0, 16, 40), (Reg.ERRLOG_DIAGEN, 1, 0x0, 0, 16, 324)]

/-- For every field of a register of the main domain whose Reset column gives a number other than 0, in every instance of its
register: it holds that number in State.reset, and after RELEASE_STEP from any state that stands in POWERUP-A, with any pins; what
T0, T1, streams, queues and plans were is gone with it. (Fields whose column gives 0, a fuse, the base configuration or what was
kept are not among them; values that the spec does not give are the model's, notes/assumptions/2.md, and not stated here.) -/
def Obligations.RegistersComeUpAtTheirResetColumns : Prop :=
  (∀ x ∈ resetFields, ∀ k, k < x.2.1 → State.reset.fld (x.1 + k * x.2.2.1) x.2.2.2.1 x.2.2.2.2.1 = x.2.2.2.2.2) ∧
  (∀ (pins : BootPins) (s : State), s.aon.phase = .powerupA →
    ∃ t, exec (.releaseStep pins) s = .next t ∧
      (∀ x ∈ resetFields, ∀ k, k < x.2.1 → t.fld (x.1 + k * x.2.2.1) x.2.2.2.1 x.2.2.2.2.1 = x.2.2.2.2.2) ∧
      t.t0 = [] ∧ t.t1 = [] ∧ t.streams = [] ∧ t.active = none ∧ (∀ q, q < 16 → (t.queue q).reqs = []))

/-- Element `i` of row `k` of an operand, as an instruction reads it. -/
def Sys2Proof.Machine.State.elem (s : State) (d : TDesc) (loops : List LoopFrame) (k i : Nat) : Int :=
  (s.readRow d (s.opRow d loops k).ref d.cols).getD i 0

/-- A tensor of OWN 0 in INT8, INT16 or INT32 without shift trailer, whose rows do not meet. -/
def plainTensor (d : TDesc) : Prop :=
  d.own = 0 ∧ d.scale = 0 ∧ (d.fmt = 1 ∨ d.fmt = 2 ∨ d.fmt = 3) ∧ d.cols * 2 ^ (d.fmt - 1) ≤ 64 * d.stride

/-- Rounding by k > 0 places leaves a result that differs from x / 2^k by at most one half, and is even where it differs by one
half. For a Sheaf that stands at the word with budget for its cost, T0 without errors, and operands that are plain tensors of OWN
0 in INT8, INT16 or INT32 of fitting shapes: after VADD every element of DST is a × 2^(e_A - m) + b × 2^(e_B - m) at m = min(e_A,
e_B), requantised to DST's exponent and format with saturation; after VMUL it is a × b at e_A + e_B; with BCAST, SRCB's one row
applies to every row. After VMASK without a mask it is a, or 0 where the row's batch row is empty. After MMUL that does not
accumulate, without bias, of at most 32 rows, each word of the accumulator bank is the exact sum of products, at the recorded
exponent e_A + e_B where that lies within -31 to 31. SRCA, SRCB and DST may coincide: all is read before anything is written. -/
def Obligations.VectorAndMatrixWordsComputeExactly : Prop :=
  (∀ (x k : Int), 0 < k → let m : Int := (2 ^ k.toNat : Nat); let r := rneShift x k
      2 * (r * m - x) ≤ m ∧ 2 * (x - r * m) ≤ m ∧ ((2 * (r * m - x) = m ∨ 2 * (x - r * m) = m) → r % 2 = 0)) ∧
  (∀ (n : Fin 16) (f : TFields) (s : State), s.engs.length = 33 → s.t0Poison = [] → s.t0Flips = [] →
    let loops := (s.eng n).loops
    let dA := s.plan.tensor f.srcA.toNat
    let dB := s.plan.tensor f.srcB.toNat
    let dD := s.plan.tensor f.dst.toNat
    let one := bitOf f.mod.toNat 0
    plainTensor dA →
    (plainTensor dB → plainTensor dD → dD.rows = dA.rows → dD.cols = dA.cols → dB.cols = dA.cols → dB.rows = (if one then 1 else dA.rows) →
      s.vecCost f + 12 < (s.eng n).remain →
      (s.standsAt n (tWord 0x30 f) = true →
        ∃ t, exec (.vadd n f) s = .next t ∧ ∀ k, k < dA.rows → ∀ i, i < dA.cols → t.elem dD loops k i =
          requant (s.elem dA loops k i * (2 ^ (dA.shift - min dA.shift dB.shift).toNat : Nat) +
            s.elem dB loops (if one then 0 else k) i * (2 ^ (dB.shift - min dA.shift dB.shift).toNat : Nat)) (min dA.shift dB.shift) dD.shift dD.fmt) ∧
      (s.standsAt n (tWord 0x31 f) = true →
        ∃ t, exec (.vmul n f) s = .next t ∧ ∀ k, k < dA.rows → ∀ i, i < dA.cols → t.elem dD loops k i =
          requant (s.elem dA loops k i * s.elem dB loops (if one then 0 else k) i) (dA.shift + dB.shift) dD.shift dD.fmt)) ∧
    (plainTensor dD → dD.rows = dA.rows → dD.cols = dA.cols → f.srcB = 0xFFF → s.vecCost f + 12 < (s.eng n).remain →
      s.standsAt n (tWord 0x34 f) = true →
      ∃ t, exec (.vmask n f) s = .next t ∧ ∀ k, k < dA.rows → ∀ i, i < dA.cols → t.elem dD loops k i =
        requant (if (keyGet s.rows (k / max 1 (dA.rows / s.planRows))).isSome then s.elem dA loops k i else 0) dA.shift dD.shift dD.fmt) ∧
    (plainTensor dB → dA.rows ≤ 32 → dB.rows = dA.cols → dB.cols ≤ 32 → f.srcC = 0xFFF → bitOf f.mod.toNat 3 = false → bitOf f.mod.toNat 7 = false →
      -31 ≤ dA.shift + dB.shift → dA.shift + dB.shift ≤ 31 → s.mmulCost n f < (s.eng n).remain → s.standsAt n (tWord 0x20 f) = true →
      ∃ t, exec (.mmul n f) s = .next t ∧ ∀ k, k < dA.rows → ∀ c, c < dB.cols →
        (t.bank n (f.mod.toNat % 8)).sum k c = ((List.range dA.cols).map fun j => s.elem dA loops k j * s.elem dB loops j c).sum ∧
        (t.bank n (f.mod.toNat % 8)).exp c = dA.shift + dB.shift))
end

