-- ==== Sys2Proof/Laws/Cells.lean ====
section
/-!
SUPPORT. Laws/Cells.lean: sparse cells and keyed lists: every operation keeps the canonical form, a read after a write answers what was
written, and a write leaves every other cell alone.
-/
namespace Sys2Proof.Machine

/-! ### The canonical form is kept -/

theorem cellRising_mono {w : Nat} {m : Cells w} {a b : Nat} (h : a ≤ b) (r : cellRising b m = true) : cellRising a m = true := by
  cases m with
  | nil => rfl
  | cons c m => simp only [cellRising, Bool.and_eq_true, decide_eq_true_eq] at r ⊢; exact ⟨⟨by omega, r.1.2⟩, r.2⟩

theorem cellPut_rising {w : Nat} {v : BitVec w} (hv : v ≠ 0) :
    ∀ {m : Cells w} {lo a : Nat}, lo ≤ a → cellRising lo m = true → cellRising lo (cellPut m a v) = true
  | [], lo, a, h, _ => by simp only [cellPut, cellRising, h, decide_true, Bool.and_true, Bool.true_and]; simpa using hv
  | (k, u) :: m, lo, a, h, r => by
    simp only [cellRising, Bool.and_eq_true, decide_eq_true_eq] at r
    unfold cellPut
    split
    · simp only [cellRising, Bool.and_eq_true, decide_eq_true_eq]; exact ⟨⟨h, hv⟩, ⟨by omega, r.1.2⟩, r.2⟩
    · split
      · subst_vars; simp only [cellRising, Bool.and_eq_true, decide_eq_true_eq]; exact ⟨⟨h, hv⟩, r.2⟩
      · simp only [cellRising, Bool.and_eq_true, decide_eq_true_eq]
        exact ⟨⟨r.1.1, r.1.2⟩, cellPut_rising hv (by omega) r.2⟩

theorem cellFilter_rising {w : Nat} (p : Nat × BitVec w → Bool) :
    ∀ {m : Cells w} {lo : Nat}, cellRising lo m = true → cellRising lo (m.filter p) = true
  | [], _, _ => rfl
  | c :: m, lo, r => by
    simp only [cellRising, Bool.and_eq_true, decide_eq_true_eq] at r
    rw [List.filter_cons]
    split
    · simp only [cellRising, Bool.and_eq_true, decide_eq_true_eq]; exact ⟨r.1, cellFilter_rising p r.2⟩
    · exact cellRising_mono (by omega) (cellFilter_rising p r.2)

theorem cellDel_rising {w : Nat} {m : Cells w} {lo : Nat} (a : Nat) (h : cellRising lo m = true) :
    cellRising lo (cellDel m a) = true := cellFilter_rising _ h

theorem cellSet_wf {w : Nat} {m : Cells w} (a : Nat) (v : BitVec w) (h : cellWf m = true) : cellWf (cellSet m a v) = true := by
  unfold cellSet
  split
  · exact cellDel_rising a h
  · next hv => exact cellPut_rising hv (Nat.zero_le _) h

theorem cellSetMany_wf {w : Nat} (vs : List (BitVec w)) :
    ∀ {m : Cells w} {a : Nat}, cellWf m = true → cellWf (cellSetMany m a vs) = true := by
  induction vs with
  | nil => intro m a h; exact h
  | cons v vs ih => intro m a h; exact ih (cellSet_wf a v h)

theorem cellFilter_wf {w : Nat} {m : Cells w} (p : Nat × BitVec w → Bool) (h : cellWf m = true) : cellWf (m.filter p) = true :=
  cellFilter_rising p h

theorem cellFoldSet_wf {w : Nat} {α : Type} (k : α → Nat) (v : α → BitVec w) (l : List α) :
    ∀ {m : Cells w}, cellWf m = true → cellWf (l.foldl (fun m x => cellSet m (k x) (v x)) m) = true := by
  induction l with
  | nil => intro m h; exact h
  | cons x l ih => intro m h; exact ih (cellSet_wf _ _ h)

/-! ### Keyed lists -/

theorem keyRising_mono {α : Type} {m : List (Nat × α)} {a b : Nat} (h : a ≤ b) (r : keyRising b m = true) : keyRising a m = true := by
  cases m with
  | nil => rfl
  | cons c m => simp only [keyRising, Bool.and_eq_true, decide_eq_true_eq] at r ⊢; exact ⟨by omega, r.2⟩

theorem keyPut_rising {α : Type} (v : α) :
    ∀ {m : List (Nat × α)} {lo a : Nat}, lo ≤ a → keyRising lo m = true → keyRising lo (keyPut m a v) = true
  | [], lo, a, h, _ => by simp [keyPut, keyRising, h]
  | (k, u) :: m, lo, a, h, r => by
    simp only [keyRising, Bool.and_eq_true, decide_eq_true_eq] at r
    unfold keyPut
    split
    · simp only [keyRising, Bool.and_eq_true, decide_eq_true_eq]; exact ⟨h, by omega, r.2⟩
    · split
      · subst_vars; simp only [keyRising, Bool.and_eq_true, decide_eq_true_eq]; exact ⟨h, r.2⟩
      · simp only [keyRising, Bool.and_eq_true, decide_eq_true_eq]
        exact ⟨r.1, keyPut_rising v (by omega) r.2⟩

theorem keyFilter_rising {α : Type} (p : Nat × α → Bool) :
    ∀ {m : List (Nat × α)} {lo : Nat}, keyRising lo m = true → keyRising lo (m.filter p) = true
  | [], _, _ => rfl
  | c :: m, lo, r => by
    simp only [keyRising, Bool.and_eq_true, decide_eq_true_eq] at r
    rw [List.filter_cons]
    split
    · simp only [keyRising, Bool.and_eq_true, decide_eq_true_eq]; exact ⟨r.1, keyFilter_rising p r.2⟩
    · exact keyRising_mono (by omega) (keyFilter_rising p r.2)

theorem keyDel_rising {α : Type} {m : List (Nat × α)} {lo : Nat} (a : Nat) (h : keyRising lo m = true) :
    keyRising lo (keyDel m a) = true := keyFilter_rising _ h

theorem keyMap_rising {α : Type} (f : Nat × α → Nat × α) (hf : ∀ e, (f e).1 = e.1) :
    ∀ {m : List (Nat × α)} {lo : Nat}, keyRising lo m = true → keyRising lo (m.map f) = true
  | [], _, _ => rfl
  | c :: m, lo, r => by
    simp only [keyRising, Bool.and_eq_true, decide_eq_true_eq] at r
    simp only [List.map_cons, keyRising, Bool.and_eq_true, decide_eq_true_eq, hf]
    exact ⟨r.1, keyMap_rising f hf r.2⟩

/-! ### A read after a write -/

theorem cellGet_cellPut {w : Nat} (v : BitVec w) (b : Nat) :
    ∀ {m : Cells w} {a : Nat}, cellGet (cellPut m a v) b = if b = a then v else cellGet m b
  | [], a => by simp [cellPut, cellGet]
  | (k, u) :: m, a => by
    unfold cellPut
    split
    · rfl
    · split
      · subst_vars
        simp only [cellGet]
        split <;> rfl
      · simp only [cellGet]
        split
        · subst_vars; rw [if_neg (by omega)]
        · exact cellGet_cellPut v b

theorem cellGet_cellDel {w : Nat} (m : Cells w) (a b : Nat) :
    cellGet (cellDel m a) b = if b = a then 0 else cellGet m b := by
  induction m with
  | nil => simp [cellDel, cellGet]
  | cons c m ih =>
    unfold cellDel at ih ⊢
    rw [List.filter_cons]
    obtain ⟨k, u⟩ := c
    by_cases h : k = a
    · subst h
      rw [if_neg (by simp), ih]
      by_cases hb : b = k <;> simp [hb, cellGet]
    · rw [if_pos (by simpa using h)]
      by_cases hb : b = k
      · subst hb; simp [cellGet, h]
      · simp only [cellGet, if_neg hb]; exact ih

/-- A read after a write answers what was written there, and every other cell is as it was. -/
theorem cellGet_cellSet {w : Nat} (m : Cells w) (a b : Nat) (v : BitVec w) :
    cellGet (cellSet m a v) b = if b = a then v else cellGet m b := by
  unfold cellSet
  split
  · subst_vars; rw [cellGet_cellDel]
  · exact cellGet_cellPut v b

theorem cellGet_below {w : Nat} : ∀ {m : Cells w} {lo a : Nat}, cellRising lo m = true → a < lo → cellGet m a = 0
  | [], _, _, _, _ => rfl
  | (k, u) :: m, lo, a, r, h => by
    simp only [cellRising, Bool.and_eq_true, decide_eq_true_eq] at r
    have : a ≠ k := by omega
    simp only [cellGet, if_neg this]
    exact cellGet_below r.2 (by omega)

/-- In the canonical form, contents that read alike everywhere are equal. -/
theorem cells_ext {w : Nat} : ∀ {m n : Cells w} {lo : Nat}, cellRising lo m = true → cellRising lo n = true →
    (∀ a, cellGet m a = cellGet n a) → m = n
  | [], [], _, _, _, _ => rfl
  | [], (k, u) :: n, lo, _, rn, h => by
    simp only [cellRising, Bool.and_eq_true, decide_eq_true_eq] at rn
    have := h k; simp only [cellGet, if_true] at this; exact absurd this.symm rn.1.2
  | (k, u) :: m, [], lo, rm, _, h => by
    simp only [cellRising, Bool.and_eq_true, decide_eq_true_eq] at rm
    have := h k; simp only [cellGet, if_true] at this; exact absurd this rm.1.2
  | (k, u) :: m, (j, x) :: n, lo, rm, rn, h => by
    simp only [cellRising, Bool.and_eq_true, decide_eq_true_eq] at rm rn
    have hk := h k
    have hj := h j
    simp only [cellGet, if_true] at hk hj
    by_cases e : k = j
    · subst e
      simp only [if_true] at hk
      subst hk
      have t : ∀ a, cellGet m a = cellGet n a := by
        intro a
        by_cases ha : a = k
        · subst ha; rw [cellGet_below rm.2 (by omega), cellGet_below rn.2 (by omega)]
        · have := h a; simp only [cellGet, if_neg ha] at this; exact this
      rw [cells_ext rm.2 rn.2 t]
    · rw [if_neg e] at hk
      rw [if_neg (Ne.symm e)] at hj
      by_cases l : k < j
      · rw [cellGet_below rn.2 (by omega)] at hk; exact absurd hk rm.1.2
      · rw [cellGet_below rm.2 (by omega)] at hj; exact absurd hj.symm rn.1.2

/-- Writing what a cell reads as changes nothing. -/
theorem cellSet_self {w : Nat} {m : Cells w} (a : Nat) (h : cellWf m = true) : cellSet m a (cellGet m a) = m := by
  refine cells_ext (cellSet_wf _ _ h) h fun b => ?_
  rw [cellGet_cellSet]; split
  · subst_vars; rfl
  · rfl

/-- The later of two writes of a cell stands. -/
theorem cellSet_cellSet {w : Nat} {m : Cells w} (a : Nat) (u v : BitVec w) (h : cellWf m = true) :
    cellSet (cellSet m a u) a v = cellSet m a v := by
  refine cells_ext (cellSet_wf _ _ (cellSet_wf _ _ h)) (cellSet_wf _ _ h) fun b => ?_
  simp only [cellGet_cellSet]; split <;> rfl

theorem cellGet_cellSetMany {w : Nat} (vs : List (BitVec w)) :
    ∀ (m : Cells w) (a b : Nat),
      cellGet (cellSetMany m a vs) b = if a ≤ b ∧ b < a + vs.length then vs.getD (b - a) 0 else cellGet m b := by
  induction vs with
  | nil => intro m a b; rw [if_neg (by simp only [List.length_nil]; omega)]; rfl
  | cons v vs ih =>
    intro m a b
    rw [cellSetMany, ih, cellGet_cellSet]
    by_cases h1 : a + 1 ≤ b ∧ b < a + 1 + vs.length
    · rw [if_pos h1, if_pos ⟨by omega, by simp; omega⟩]
      obtain ⟨n, hn⟩ : ∃ n, b - a = n + 1 := ⟨b - a - 1, by omega⟩
      rw [hn, show b - (a + 1) = n by omega]; rfl
    · rw [if_neg h1]
      by_cases h2 : b = a
      · subst h2; rw [if_pos rfl, if_pos ⟨Nat.le_refl _, by simp⟩]; simp
      · rw [if_neg h2, if_neg (by simp; omega)]

theorem keyGet_keyPut {α : Type} (v : α) (b : Nat) :
    ∀ {m : List (Nat × α)} {a : Nat}, keyGet (keyPut m a v) b = if b = a then some v else keyGet m b
  | [], a => by simp [keyPut, keyGet]
  | (k, u) :: m, a => by
    unfold keyPut
    split
    · rfl
    · split
      · subst_vars
        simp only [keyGet]
        split <;> rfl
      · simp only [keyGet]
        split
        · subst_vars; rw [if_neg (by omega)]
        · exact keyGet_keyPut v b

theorem keyGet_keyDel {α : Type} (m : List (Nat × α)) (a b : Nat) :
    keyGet (keyDel m a) b = if b = a then none else keyGet m b := by
  induction m with
  | nil => simp [keyDel, keyGet]
  | cons c m ih =>
    unfold keyDel at ih ⊢
    rw [List.filter_cons]
    by_cases h : c.1 = a
    · rw [if_neg (by simp [h]), ih]
      obtain ⟨k, u⟩ := c
      simp only at h
      subst h
      by_cases hb : b = k <;> simp [hb, keyGet]
    · rw [if_pos (by simp [h])]
      obtain ⟨k, u⟩ := c
      simp only at h
      by_cases hb : b = k
      · subst hb; simp [keyGet, h]
      · simp only [keyGet, if_neg hb]; exact ih

theorem listUpd_length {α : Type} (l : List α) (i : Nat) (f : α → α) : (listUpd l i f).length = l.length := by
  unfold listUpd
  split <;> simp

end Sys2Proof.Machine
end

