-- ==== Sys2Proof/Laws/State.lean ====
section
/-!
SUPPORT. Laws/State.lean: what each update of the state leaves in each field, by computation, so that no later proof unfolds a record
update.
-/
namespace Sys2Proof.Machine

variable (s : State)

/-! ### `State.setReg` -/

@[simp] theorem State.setReg_pending (a : Nat) (v : Word) : (s.setReg a v).pending = s.pending := rfl
@[simp] theorem State.setReg_free (a : Nat) (v : Word) : (s.setReg a v).free = s.free := rfl
@[simp] theorem State.setReg_now (a : Nat) (v : Word) : (s.setReg a v).now = s.now := rfl
@[simp] theorem State.setReg_regs (a : Nat) (v : Word) : (s.setReg a v).regs = cellSet s.regs a v := rfl
@[simp] theorem State.setReg_rwtHeld (a : Nat) (v : Word) : (s.setReg a v).rwtHeld = s.rwtHeld := rfl
@[simp] theorem State.setReg_hiLatch (a : Nat) (v : Word) : (s.setReg a v).hiLatch = s.hiLatch := rfl
@[simp] theorem State.setReg_lowHeld (a : Nat) (v : Word) : (s.setReg a v).lowHeld = s.lowHeld := rfl
@[simp] theorem State.setReg_tick (a : Nat) (v : Word) : (s.setReg a v).tick = s.tick := rfl
@[simp] theorem State.setReg_active (a : Nat) (v : Word) : (s.setReg a v).active = s.active := rfl
@[simp] theorem State.setReg_pendingPlan (a : Nat) (v : Word) : (s.setReg a v).pendingPlan = s.pendingPlan := rfl
@[simp] theorem State.setReg_activating (a : Nat) (v : Word) : (s.setReg a v).activating = s.activating := rfl
@[simp] theorem State.setReg_load (a : Nat) (v : Word) : (s.setReg a v).load = s.load := rfl
@[simp] theorem State.setReg_deactivate (a : Nat) (v : Word) : (s.setReg a v).deactivate = s.deactivate := rfl
@[simp] theorem State.setReg_engs (a : Nat) (v : Word) : (s.setReg a v).engs = s.engs := rfl
@[simp] theorem State.setReg_posts (a : Nat) (v : Word) : (s.setReg a v).posts = s.posts := rfl
@[simp] theorem State.setReg_nextKnots (a : Nat) (v : Word) : (s.setReg a v).nextKnots = s.nextKnots := rfl
@[simp] theorem State.setReg_banks (a : Nat) (v : Word) : (s.setReg a v).banks = s.banks := rfl
@[simp] theorem State.setReg_bankFlips (a : Nat) (v : Word) : (s.setReg a v).bankFlips = s.bankFlips := rfl
@[simp] theorem State.setReg_rows (a : Nat) (v : Word) : (s.setReg a v).rows = s.rows := rfl
@[simp] theorem State.setReg_nextRows (a : Nat) (v : Word) : (s.setReg a v).nextRows = s.nextRows := rfl
@[simp] theorem State.setReg_unreadRows (a : Nat) (v : Word) : (s.setReg a v).unreadRows = s.unreadRows := rfl
@[simp] theorem State.setReg_unreadAll (a : Nat) (v : Word) : (s.setReg a v).unreadAll = s.unreadAll := rfl
@[simp] theorem State.setReg_resultsDone (a : Nat) (v : Word) : (s.setReg a v).resultsDone = s.resultsDone := rfl
@[simp] theorem State.setReg_t0 (a : Nat) (v : Word) : (s.setReg a v).t0 = s.t0 := rfl
@[simp] theorem State.setReg_t0Poison (a : Nat) (v : Word) : (s.setReg a v).t0Poison = s.t0Poison := rfl
@[simp] theorem State.setReg_t0Flips (a : Nat) (v : Word) : (s.setReg a v).t0Flips = s.t0Flips := rfl
@[simp] theorem State.setReg_writeBack (a : Nat) (v : Word) : (s.setReg a v).writeBack = s.writeBack := rfl
@[simp] theorem State.setReg_scrubAt (a : Nat) (v : Word) : (s.setReg a v).scrubAt = s.scrubAt := rfl
@[simp] theorem State.setReg_t1 (a : Nat) (v : Word) : (s.setReg a v).t1 = s.t1 := rfl
@[simp] theorem State.setReg_t1Read (a : Nat) (v : Word) : (s.setReg a v).t1Read = s.t1Read := rfl
@[simp] theorem State.setReg_t1Write (a : Nat) (v : Word) : (s.setReg a v).t1Write = s.t1Write := rfl
@[simp] theorem State.setReg_host (a : Nat) (v : Word) : (s.setReg a v).host = s.host := rfl
@[simp] theorem State.setReg_hostErrs (a : Nat) (v : Word) : (s.setReg a v).hostErrs = s.hostErrs := rfl
@[simp] theorem State.setReg_moves (a : Nat) (v : Word) : (s.setReg a v).moves = s.moves := rfl
@[simp] theorem State.setReg_budget (a : Nat) (v : Word) : (s.setReg a v).budget = s.budget := rfl
@[simp] theorem State.setReg_lookAside (a : Nat) (v : Word) : (s.setReg a v).lookAside = s.lookAside := rfl
@[simp] theorem State.setReg_glnHit (a : Nat) (v : Word) : (s.setReg a v).glnHit = s.glnHit := rfl
@[simp] theorem State.setReg_glnMiss (a : Nat) (v : Word) : (s.setReg a v).glnMiss = s.glnMiss := rfl
@[simp] theorem State.setReg_glnBad (a : Nat) (v : Word) : (s.setReg a v).glnBad = s.glnBad := rfl
@[simp] theorem State.setReg_ringHome (a : Nat) (v : Word) : (s.setReg a v).ringHome = s.ringHome := rfl
@[simp] theorem State.setReg_streams (a : Nat) (v : Word) : (s.setReg a v).streams = s.streams := rfl
@[simp] theorem State.setReg_lateSc (a : Nat) (v : Word) : (s.setReg a v).lateSc = s.lateSc := rfl
@[simp] theorem State.setReg_orphans (a : Nat) (v : Word) : (s.setReg a v).orphans = s.orphans := rfl
@[simp] theorem State.setReg_restarting (a : Nat) (v : Word) : (s.setReg a v).restarting = s.restarting := rfl
@[simp] theorem State.setReg_queues (a : Nat) (v : Word) : (s.setReg a v).queues = s.queues := rfl
@[simp] theorem State.setReg_exports (a : Nat) (v : Word) : (s.setReg a v).exports = s.exports := rfl
@[simp] theorem State.setReg_openings (a : Nat) (v : Word) : (s.setReg a v).openings = s.openings := rfl
@[simp] theorem State.setReg_turn (a : Nat) (v : Word) : (s.setReg a v).turn = s.turn := rfl
@[simp] theorem State.setReg_staging (a : Nat) (v : Word) : (s.setReg a v).staging = s.staging := rfl
@[simp] theorem State.setReg_stagingDue (a : Nat) (v : Word) : (s.setReg a v).stagingDue = s.stagingDue := rfl
@[simp] theorem State.setReg_msixOn (a : Nat) (v : Word) : (s.setReg a v).msixOn = s.msixOn := rfl
@[simp] theorem State.setReg_msixMask (a : Nat) (v : Word) : (s.setReg a v).msixMask = s.msixMask := rfl
@[simp] theorem State.setReg_logSeq (a : Nat) (v : Word) : (s.setReg a v).logSeq = s.logSeq := rfl
@[simp] theorem State.setReg_alertLow (a : Nat) (v : Word) : (s.setReg a v).alertLow = s.alertLow := rfl
@[simp] theorem State.setReg_alertAt (a : Nat) (v : Word) : (s.setReg a v).alertAt = s.alertAt := rfl
@[simp] theorem State.setReg_diagLow (a : Nat) (v : Word) : (s.setReg a v).diagLow = s.diagLow := rfl
@[simp] theorem State.setReg_diagAt (a : Nat) (v : Word) : (s.setReg a v).diagAt = s.diagAt := rfl
@[simp] theorem State.setReg_ports (a : Nat) (v : Word) : (s.setReg a v).ports = s.ports := rfl
@[simp] theorem State.setReg_lostIncarn (a : Nat) (v : Word) : (s.setReg a v).lostIncarn = s.lostIncarn := rfl
@[simp] theorem State.setReg_lossDue (a : Nat) (v : Word) : (s.setReg a v).lossDue = s.lossDue := rfl
@[simp] theorem State.setReg_grants (a : Nat) (v : Word) : (s.setReg a v).grants = s.grants := rfl
@[simp] theorem State.setReg_rxMoves (a : Nat) (v : Word) : (s.setReg a v).rxMoves = s.rxMoves := rfl
@[simp] theorem State.setReg_txMoves (a : Nat) (v : Word) : (s.setReg a v).txMoves = s.txMoves := rfl
@[simp] theorem State.setReg_nextMoveId (a : Nat) (v : Word) : (s.setReg a v).nextMoveId = s.nextMoveId := rfl
@[simp] theorem State.setReg_pullsDue (a : Nat) (v : Word) : (s.setReg a v).pullsDue = s.pullsDue := rfl
@[simp] theorem State.setReg_migrations (a : Nat) (v : Word) : (s.setReg a v).migrations = s.migrations := rfl
@[simp] theorem State.setReg_power (a : Nat) (v : Word) : (s.setReg a v).power = s.power := rfl
@[simp] theorem State.setReg_audio (a : Nat) (v : Word) : (s.setReg a v).audio = s.audio := rfl
@[simp] theorem State.setReg_cam (a : Nat) (v : Word) : (s.setReg a v).cam = s.cam := rfl
@[simp] theorem State.setReg_aon (a : Nat) (v : Word) : (s.setReg a v).aon = s.aon := rfl
@[simp] theorem State.setReg_nv (a : Nat) (v : Word) : (s.setReg a v).nv = s.nv := rfl
@[simp] theorem State.setReg_hsp (a : Nat) (v : Word) : (s.setReg a v).hsp = s.hsp := rfl
@[simp] theorem State.setReg_psp (a : Nat) (v : Word) : (s.setReg a v).psp = s.psp := rfl
@[simp] theorem State.setReg_jtag (a : Nat) (v : Word) : (s.setReg a v).jtag = s.jtag := rfl
@[simp] theorem State.setReg_firstRestart (a : Nat) (v : Word) : (s.setReg a v).firstRestart = s.firstRestart := rfl
@[simp] theorem State.setReg_firmwareAt (a : Nat) (v : Word) : (s.setReg a v).firmwareAt = s.firmwareAt := rfl
@[simp] theorem State.setReg_sent (a : Nat) (v : Word) : (s.setReg a v).sent = s.sent := rfl

/-! ### `State.setFld` -/

@[simp] theorem State.setFld_pending (a lo w n : Nat) : (s.setFld a lo w n).pending = s.pending := rfl
@[simp] theorem State.setFld_free (a lo w n : Nat) : (s.setFld a lo w n).free = s.free := rfl
@[simp] theorem State.setFld_now (a lo w n : Nat) : (s.setFld a lo w n).now = s.now := rfl
@[simp] theorem State.setFld_rwtHeld (a lo w n : Nat) : (s.setFld a lo w n).rwtHeld = s.rwtHeld := rfl
@[simp] theorem State.setFld_hiLatch (a lo w n : Nat) : (s.setFld a lo w n).hiLatch = s.hiLatch := rfl
@[simp] theorem State.setFld_lowHeld (a lo w n : Nat) : (s.setFld a lo w n).lowHeld = s.lowHeld := rfl
@[simp] theorem State.setFld_tick (a lo w n : Nat) : (s.setFld a lo w n).tick = s.tick := rfl
@[simp] theorem State.setFld_active (a lo w n : Nat) : (s.setFld a lo w n).active = s.active := rfl
@[simp] theorem State.setFld_pendingPlan (a lo w n : Nat) : (s.setFld a lo w n).pendingPlan = s.pendingPlan := rfl
@[simp] theorem State.setFld_activating (a lo w n : Nat) : (s.setFld a lo w n).activating = s.activating := rfl
@[simp] theorem State.setFld_load (a lo w n : Nat) : (s.setFld a lo w n).load = s.load := rfl
@[simp] theorem State.setFld_deactivate (a lo w n : Nat) : (s.setFld a lo w n).deactivate = s.deactivate := rfl
@[simp] theorem State.setFld_engs (a lo w n : Nat) : (s.setFld a lo w n).engs = s.engs := rfl
@[simp] theorem State.setFld_posts (a lo w n : Nat) : (s.setFld a lo w n).posts = s.posts := rfl
@[simp] theorem State.setFld_nextKnots (a lo w n : Nat) : (s.setFld a lo w n).nextKnots = s.nextKnots := rfl
@[simp] theorem State.setFld_banks (a lo w n : Nat) : (s.setFld a lo w n).banks = s.banks := rfl
@[simp] theorem State.setFld_bankFlips (a lo w n : Nat) : (s.setFld a lo w n).bankFlips = s.bankFlips := rfl
@[simp] theorem State.setFld_rows (a lo w n : Nat) : (s.setFld a lo w n).rows = s.rows := rfl
@[simp] theorem State.setFld_nextRows (a lo w n : Nat) : (s.setFld a lo w n).nextRows = s.nextRows := rfl
@[simp] theorem State.setFld_unreadRows (a lo w n : Nat) : (s.setFld a lo w n).unreadRows = s.unreadRows := rfl
@[simp] theorem State.setFld_unreadAll (a lo w n : Nat) : (s.setFld a lo w n).unreadAll = s.unreadAll := rfl
@[simp] theorem State.setFld_resultsDone (a lo w n : Nat) : (s.setFld a lo w n).resultsDone = s.resultsDone := rfl
@[simp] theorem State.setFld_t0 (a lo w n : Nat) : (s.setFld a lo w n).t0 = s.t0 := rfl
@[simp] theorem State.setFld_t0Poison (a lo w n : Nat) : (s.setFld a lo w n).t0Poison = s.t0Poison := rfl
@[simp] theorem State.setFld_t0Flips (a lo w n : Nat) : (s.setFld a lo w n).t0Flips = s.t0Flips := rfl
@[simp] theorem State.setFld_writeBack (a lo w n : Nat) : (s.setFld a lo w n).writeBack = s.writeBack := rfl
@[simp] theorem State.setFld_scrubAt (a lo w n : Nat) : (s.setFld a lo w n).scrubAt = s.scrubAt := rfl
@[simp] theorem State.setFld_t1 (a lo w n : Nat) : (s.setFld a lo w n).t1 = s.t1 := rfl
@[simp] theorem State.setFld_t1Read (a lo w n : Nat) : (s.setFld a lo w n).t1Read = s.t1Read := rfl
@[simp] theorem State.setFld_t1Write (a lo w n : Nat) : (s.setFld a lo w n).t1Write = s.t1Write := rfl
@[simp] theorem State.setFld_host (a lo w n : Nat) : (s.setFld a lo w n).host = s.host := rfl
@[simp] theorem State.setFld_hostErrs (a lo w n : Nat) : (s.setFld a lo w n).hostErrs = s.hostErrs := rfl
@[simp] theorem State.setFld_moves (a lo w n : Nat) : (s.setFld a lo w n).moves = s.moves := rfl
@[simp] theorem State.setFld_budget (a lo w n : Nat) : (s.setFld a lo w n).budget = s.budget := rfl
@[simp] theorem State.setFld_lookAside (a lo w n : Nat) : (s.setFld a lo w n).lookAside = s.lookAside := rfl
@[simp] theorem State.setFld_glnHit (a lo w n : Nat) : (s.setFld a lo w n).glnHit = s.glnHit := rfl
@[simp] theorem State.setFld_glnMiss (a lo w n : Nat) : (s.setFld a lo w n).glnMiss = s.glnMiss := rfl
@[simp] theorem State.setFld_glnBad (a lo w n : Nat) : (s.setFld a lo w n).glnBad = s.glnBad := rfl
@[simp] theorem State.setFld_ringHome (a lo w n : Nat) : (s.setFld a lo w n).ringHome = s.ringHome := rfl
@[simp] theorem State.setFld_streams (a lo w n : Nat) : (s.setFld a lo w n).streams = s.streams := rfl
@[simp] theorem State.setFld_lateSc (a lo w n : Nat) : (s.setFld a lo w n).lateSc = s.lateSc := rfl
@[simp] theorem State.setFld_orphans (a lo w n : Nat) : (s.setFld a lo w n).orphans = s.orphans := rfl
@[simp] theorem State.setFld_restarting (a lo w n : Nat) : (s.setFld a lo w n).restarting = s.restarting := rfl
@[simp] theorem State.setFld_queues (a lo w n : Nat) : (s.setFld a lo w n).queues = s.queues := rfl
@[simp] theorem State.setFld_exports (a lo w n : Nat) : (s.setFld a lo w n).exports = s.exports := rfl
@[simp] theorem State.setFld_openings (a lo w n : Nat) : (s.setFld a lo w n).openings = s.openings := rfl
@[simp] theorem State.setFld_turn (a lo w n : Nat) : (s.setFld a lo w n).turn = s.turn := rfl
@[simp] theorem State.setFld_staging (a lo w n : Nat) : (s.setFld a lo w n).staging = s.staging := rfl
@[simp] theorem State.setFld_stagingDue (a lo w n : Nat) : (s.setFld a lo w n).stagingDue = s.stagingDue := rfl
@[simp] theorem State.setFld_msixOn (a lo w n : Nat) : (s.setFld a lo w n).msixOn = s.msixOn := rfl
@[simp] theorem State.setFld_msixMask (a lo w n : Nat) : (s.setFld a lo w n).msixMask = s.msixMask := rfl
@[simp] theorem State.setFld_logSeq (a lo w n : Nat) : (s.setFld a lo w n).logSeq = s.logSeq := rfl
@[simp] theorem State.setFld_alertLow (a lo w n : Nat) : (s.setFld a lo w n).alertLow = s.alertLow := rfl
@[simp] theorem State.setFld_alertAt (a lo w n : Nat) : (s.setFld a lo w n).alertAt = s.alertAt := rfl
@[simp] theorem State.setFld_diagLow (a lo w n : Nat) : (s.setFld a lo w n).diagLow = s.diagLow := rfl
@[simp] theorem State.setFld_diagAt (a lo w n : Nat) : (s.setFld a lo w n).diagAt = s.diagAt := rfl
@[simp] theorem State.setFld_ports (a lo w n : Nat) : (s.setFld a lo w n).ports = s.ports := rfl
@[simp] theorem State.setFld_lostIncarn (a lo w n : Nat) : (s.setFld a lo w n).lostIncarn = s.lostIncarn := rfl
@[simp] theorem State.setFld_lossDue (a lo w n : Nat) : (s.setFld a lo w n).lossDue = s.lossDue := rfl
@[simp] theorem State.setFld_grants (a lo w n : Nat) : (s.setFld a lo w n).grants = s.grants := rfl
@[simp] theorem State.setFld_rxMoves (a lo w n : Nat) : (s.setFld a lo w n).rxMoves = s.rxMoves := rfl
@[simp] theorem State.setFld_txMoves (a lo w n : Nat) : (s.setFld a lo w n).txMoves = s.txMoves := rfl
@[simp] theorem State.setFld_nextMoveId (a lo w n : Nat) : (s.setFld a lo w n).nextMoveId = s.nextMoveId := rfl
@[simp] theorem State.setFld_pullsDue (a lo w n : Nat) : (s.setFld a lo w n).pullsDue = s.pullsDue := rfl
@[simp] theorem State.setFld_migrations (a lo w n : Nat) : (s.setFld a lo w n).migrations = s.migrations := rfl
@[simp] theorem State.setFld_power (a lo w n : Nat) : (s.setFld a lo w n).power = s.power := rfl
@[simp] theorem State.setFld_audio (a lo w n : Nat) : (s.setFld a lo w n).audio = s.audio := rfl
@[simp] theorem State.setFld_cam (a lo w n : Nat) : (s.setFld a lo w n).cam = s.cam := rfl
@[simp] theorem State.setFld_aon (a lo w n : Nat) : (s.setFld a lo w n).aon = s.aon := rfl
@[simp] theorem State.setFld_nv (a lo w n : Nat) : (s.setFld a lo w n).nv = s.nv := rfl
@[simp] theorem State.setFld_hsp (a lo w n : Nat) : (s.setFld a lo w n).hsp = s.hsp := rfl
@[simp] theorem State.setFld_psp (a lo w n : Nat) : (s.setFld a lo w n).psp = s.psp := rfl
@[simp] theorem State.setFld_jtag (a lo w n : Nat) : (s.setFld a lo w n).jtag = s.jtag := rfl
@[simp] theorem State.setFld_firstRestart (a lo w n : Nat) : (s.setFld a lo w n).firstRestart = s.firstRestart := rfl
@[simp] theorem State.setFld_firmwareAt (a lo w n : Nat) : (s.setFld a lo w n).firmwareAt = s.firmwareAt := rfl
@[simp] theorem State.setFld_sent (a lo w n : Nat) : (s.setFld a lo w n).sent = s.sent := rfl

/-! ### `State.setBit` -/

@[simp] theorem State.setBit_pending (a i : Nat) (b : Bool) : (s.setBit a i b).pending = s.pending := rfl
@[simp] theorem State.setBit_free (a i : Nat) (b : Bool) : (s.setBit a i b).free = s.free := rfl
@[simp] theorem State.setBit_now (a i : Nat) (b : Bool) : (s.setBit a i b).now = s.now := rfl
@[simp] theorem State.setBit_rwtHeld (a i : Nat) (b : Bool) : (s.setBit a i b).rwtHeld = s.rwtHeld := rfl
@[simp] theorem State.setBit_hiLatch (a i : Nat) (b : Bool) : (s.setBit a i b).hiLatch = s.hiLatch := rfl
@[simp] theorem State.setBit_lowHeld (a i : Nat) (b : Bool) : (s.setBit a i b).lowHeld = s.lowHeld := rfl
@[simp] theorem State.setBit_tick (a i : Nat) (b : Bool) : (s.setBit a i b).tick = s.tick := rfl
@[simp] theorem State.setBit_active (a i : Nat) (b : Bool) : (s.setBit a i b).active = s.active := rfl
@[simp] theorem State.setBit_pendingPlan (a i : Nat) (b : Bool) : (s.setBit a i b).pendingPlan = s.pendingPlan := rfl
@[simp] theorem State.setBit_activating (a i : Nat) (b : Bool) : (s.setBit a i b).activating = s.activating := rfl
@[simp] theorem State.setBit_load (a i : Nat) (b : Bool) : (s.setBit a i b).load = s.load := rfl
@[simp] theorem State.setBit_deactivate (a i : Nat) (b : Bool) : (s.setBit a i b).deactivate = s.deactivate := rfl
@[simp] theorem State.setBit_engs (a i : Nat) (b : Bool) : (s.setBit a i b).engs = s.engs := rfl
@[simp] theorem State.setBit_posts (a i : Nat) (b : Bool) : (s.setBit a i b).posts = s.posts := rfl
@[simp] theorem State.setBit_nextKnots (a i : Nat) (b : Bool) : (s.setBit a i b).nextKnots = s.nextKnots := rfl
@[simp] theorem State.setBit_banks (a i : Nat) (b : Bool) : (s.setBit a i b).banks = s.banks := rfl
@[simp] theorem State.setBit_bankFlips (a i : Nat) (b : Bool) : (s.setBit a i b).bankFlips = s.bankFlips := rfl
@[simp] theorem State.setBit_rows (a i : Nat) (b : Bool) : (s.setBit a i b).rows = s.rows := rfl
@[simp] theorem State.setBit_nextRows (a i : Nat) (b : Bool) : (s.setBit a i b).nextRows = s.nextRows := rfl
@[simp] theorem State.setBit_unreadRows (a i : Nat) (b : Bool) : (s.setBit a i b).unreadRows = s.unreadRows := rfl
@[simp] theorem State.setBit_unreadAll (a i : Nat) (b : Bool) : (s.setBit a i b).unreadAll = s.unreadAll := rfl
@[simp] theorem State.setBit_resultsDone (a i : Nat) (b : Bool) : (s.setBit a i b).resultsDone = s.resultsDone := rfl
@[simp] theorem State.setBit_t0 (a i : Nat) (b : Bool) : (s.setBit a i b).t0 = s.t0 := rfl
@[simp] theorem State.setBit_t0Poison (a i : Nat) (b : Bool) : (s.setBit a i b).t0Poison = s.t0Poison := rfl
@[simp] theorem State.setBit_t0Flips (a i : Nat) (b : Bool) : (s.setBit a i b).t0Flips = s.t0Flips := rfl
@[simp] theorem State.setBit_writeBack (a i : Nat) (b : Bool) : (s.setBit a i b).writeBack = s.writeBack := rfl
@[simp] theorem State.setBit_scrubAt (a i : Nat) (b : Bool) : (s.setBit a i b).scrubAt = s.scrubAt := rfl
@[simp] theorem State.setBit_t1 (a i : Nat) (b : Bool) : (s.setBit a i b).t1 = s.t1 := rfl
@[simp] theorem State.setBit_t1Read (a i : Nat) (b : Bool) : (s.setBit a i b).t1Read = s.t1Read := rfl
@[simp] theorem State.setBit_t1Write (a i : Nat) (b : Bool) : (s.setBit a i b).t1Write = s.t1Write := rfl
@[simp] theorem State.setBit_host (a i : Nat) (b : Bool) : (s.setBit a i b).host = s.host := rfl
@[simp] theorem State.setBit_hostErrs (a i : Nat) (b : Bool) : (s.setBit a i b).hostErrs = s.hostErrs := rfl
@[simp] theorem State.setBit_moves (a i : Nat) (b : Bool) : (s.setBit a i b).moves = s.moves := rfl
@[simp] theorem State.setBit_budget (a i : Nat) (b : Bool) : (s.setBit a i b).budget = s.budget := rfl
@[simp] theorem State.setBit_lookAside (a i : Nat) (b : Bool) : (s.setBit a i b).lookAside = s.lookAside := rfl
@[simp] theorem State.setBit_glnHit (a i : Nat) (b : Bool) : (s.setBit a i b).glnHit = s.glnHit := rfl
@[simp] theorem State.setBit_glnMiss (a i : Nat) (b : Bool) : (s.setBit a i b).glnMiss = s.glnMiss := rfl
@[simp] theorem State.setBit_glnBad (a i : Nat) (b : Bool) : (s.setBit a i b).glnBad = s.glnBad := rfl
@[simp] theorem State.setBit_ringHome (a i : Nat) (b : Bool) : (s.setBit a i b).ringHome = s.ringHome := rfl
@[simp] theorem State.setBit_streams (a i : Nat) (b : Bool) : (s.setBit a i b).streams = s.streams := rfl
@[simp] theorem State.setBit_lateSc (a i : Nat) (b : Bool) : (s.setBit a i b).lateSc = s.lateSc := rfl
@[simp] theorem State.setBit_orphans (a i : Nat) (b : Bool) : (s.setBit a i b).orphans = s.orphans := rfl
@[simp] theorem State.setBit_restarting (a i : Nat) (b : Bool) : (s.setBit a i b).restarting = s.restarting := rfl
@[simp] theorem State.setBit_queues (a i : Nat) (b : Bool) : (s.setBit a i b).queues = s.queues := rfl
@[simp] theorem State.setBit_exports (a i : Nat) (b : Bool) : (s.setBit a i b).exports = s.exports := rfl
@[simp] theorem State.setBit_openings (a i : Nat) (b : Bool) : (s.setBit a i b).openings = s.openings := rfl
@[simp] theorem State.setBit_turn (a i : Nat) (b : Bool) : (s.setBit a i b).turn = s.turn := rfl
@[simp] theorem State.setBit_staging (a i : Nat) (b : Bool) : (s.setBit a i b).staging = s.staging := rfl
@[simp] theorem State.setBit_stagingDue (a i : Nat) (b : Bool) : (s.setBit a i b).stagingDue = s.stagingDue := rfl
@[simp] theorem State.setBit_msixOn (a i : Nat) (b : Bool) : (s.setBit a i b).msixOn = s.msixOn := rfl
@[simp] theorem State.setBit_msixMask (a i : Nat) (b : Bool) : (s.setBit a i b).msixMask = s.msixMask := rfl
@[simp] theorem State.setBit_logSeq (a i : Nat) (b : Bool) : (s.setBit a i b).logSeq = s.logSeq := rfl
@[simp] theorem State.setBit_alertLow (a i : Nat) (b : Bool) : (s.setBit a i b).alertLow = s.alertLow := rfl
@[simp] theorem State.setBit_alertAt (a i : Nat) (b : Bool) : (s.setBit a i b).alertAt = s.alertAt := rfl
@[simp] theorem State.setBit_diagLow (a i : Nat) (b : Bool) : (s.setBit a i b).diagLow = s.diagLow := rfl
@[simp] theorem State.setBit_diagAt (a i : Nat) (b : Bool) : (s.setBit a i b).diagAt = s.diagAt := rfl
@[simp] theorem State.setBit_ports (a i : Nat) (b : Bool) : (s.setBit a i b).ports = s.ports := rfl
@[simp] theorem State.setBit_lostIncarn (a i : Nat) (b : Bool) : (s.setBit a i b).lostIncarn = s.lostIncarn := rfl
@[simp] theorem State.setBit_lossDue (a i : Nat) (b : Bool) : (s.setBit a i b).lossDue = s.lossDue := rfl
@[simp] theorem State.setBit_grants (a i : Nat) (b : Bool) : (s.setBit a i b).grants = s.grants := rfl
@[simp] theorem State.setBit_rxMoves (a i : Nat) (b : Bool) : (s.setBit a i b).rxMoves = s.rxMoves := rfl
@[simp] theorem State.setBit_txMoves (a i : Nat) (b : Bool) : (s.setBit a i b).txMoves = s.txMoves := rfl
@[simp] theorem State.setBit_nextMoveId (a i : Nat) (b : Bool) : (s.setBit a i b).nextMoveId = s.nextMoveId := rfl
@[simp] theorem State.setBit_pullsDue (a i : Nat) (b : Bool) : (s.setBit a i b).pullsDue = s.pullsDue := rfl
@[simp] theorem State.setBit_migrations (a i : Nat) (b : Bool) : (s.setBit a i b).migrations = s.migrations := rfl
@[simp] theorem State.setBit_power (a i : Nat) (b : Bool) : (s.setBit a i b).power = s.power := rfl
@[simp] theorem State.setBit_audio (a i : Nat) (b : Bool) : (s.setBit a i b).audio = s.audio := rfl
@[simp] theorem State.setBit_cam (a i : Nat) (b : Bool) : (s.setBit a i b).cam = s.cam := rfl
@[simp] theorem State.setBit_aon (a i : Nat) (b : Bool) : (s.setBit a i b).aon = s.aon := rfl
@[simp] theorem State.setBit_nv (a i : Nat) (b : Bool) : (s.setBit a i b).nv = s.nv := rfl
@[simp] theorem State.setBit_hsp (a i : Nat) (b : Bool) : (s.setBit a i b).hsp = s.hsp := rfl
@[simp] theorem State.setBit_psp (a i : Nat) (b : Bool) : (s.setBit a i b).psp = s.psp := rfl
@[simp] theorem State.setBit_jtag (a i : Nat) (b : Bool) : (s.setBit a i b).jtag = s.jtag := rfl
@[simp] theorem State.setBit_firstRestart (a i : Nat) (b : Bool) : (s.setBit a i b).firstRestart = s.firstRestart := rfl
@[simp] theorem State.setBit_firmwareAt (a i : Nat) (b : Bool) : (s.setBit a i b).firmwareAt = s.firmwareAt := rfl
@[simp] theorem State.setBit_sent (a i : Nat) (b : Bool) : (s.setBit a i b).sent = s.sent := rfl

/-! ### `State.reach` -/

@[simp] theorem State.reach_pending (n : Nat) : (s.reach n).pending = s.pending := rfl
@[simp] theorem State.reach_free (n : Nat) : (s.reach n).free = s.free := rfl
@[simp] theorem State.reach_now (n : Nat) : (s.reach n).now = max s.now n := rfl
@[simp] theorem State.reach_regs (n : Nat) : (s.reach n).regs = s.regs := rfl
@[simp] theorem State.reach_rwtHeld (n : Nat) : (s.reach n).rwtHeld = s.rwtHeld := rfl
@[simp] theorem State.reach_hiLatch (n : Nat) : (s.reach n).hiLatch = s.hiLatch := rfl
@[simp] theorem State.reach_lowHeld (n : Nat) : (s.reach n).lowHeld = s.lowHeld := rfl
@[simp] theorem State.reach_tick (n : Nat) : (s.reach n).tick = s.tick := rfl
@[simp] theorem State.reach_active (n : Nat) : (s.reach n).active = s.active := rfl
@[simp] theorem State.reach_pendingPlan (n : Nat) : (s.reach n).pendingPlan = s.pendingPlan := rfl
@[simp] theorem State.reach_activating (n : Nat) : (s.reach n).activating = s.activating := rfl
@[simp] theorem State.reach_load (n : Nat) : (s.reach n).load = s.load := rfl
@[simp] theorem State.reach_deactivate (n : Nat) : (s.reach n).deactivate = s.deactivate := rfl
@[simp] theorem State.reach_engs (n : Nat) : (s.reach n).engs = s.engs := rfl
@[simp] theorem State.reach_posts (n : Nat) : (s.reach n).posts = s.posts := rfl
@[simp] theorem State.reach_nextKnots (n : Nat) : (s.reach n).nextKnots = s.nextKnots := rfl
@[simp] theorem State.reach_banks (n : Nat) : (s.reach n).banks = s.banks := rfl
@[simp] theorem State.reach_bankFlips (n : Nat) : (s.reach n).bankFlips = s.bankFlips := rfl
@[simp] theorem State.reach_rows (n : Nat) : (s.reach n).rows = s.rows := rfl
@[simp] theorem State.reach_nextRows (n : Nat) : (s.reach n).nextRows = s.nextRows := rfl
@[simp] theorem State.reach_unreadRows (n : Nat) : (s.reach n).unreadRows = s.unreadRows := rfl
@[simp] theorem State.reach_unreadAll (n : Nat) : (s.reach n).unreadAll = s.unreadAll := rfl
@[simp] theorem State.reach_resultsDone (n : Nat) : (s.reach n).resultsDone = s.resultsDone := rfl
@[simp] theorem State.reach_t0 (n : Nat) : (s.reach n).t0 = s.t0 := rfl
@[simp] theorem State.reach_t0Poison (n : Nat) : (s.reach n).t0Poison = s.t0Poison := rfl
@[simp] theorem State.reach_t0Flips (n : Nat) : (s.reach n).t0Flips = s.t0Flips := rfl
@[simp] theorem State.reach_writeBack (n : Nat) : (s.reach n).writeBack = s.writeBack := rfl
@[simp] theorem State.reach_scrubAt (n : Nat) : (s.reach n).scrubAt = s.scrubAt := rfl
@[simp] theorem State.reach_t1 (n : Nat) : (s.reach n).t1 = s.t1 := rfl
@[simp] theorem State.reach_t1Read (n : Nat) : (s.reach n).t1Read = s.t1Read := rfl
@[simp] theorem State.reach_t1Write (n : Nat) : (s.reach n).t1Write = s.t1Write := rfl
@[simp] theorem State.reach_host (n : Nat) : (s.reach n).host = s.host := rfl
@[simp] theorem State.reach_hostErrs (n : Nat) : (s.reach n).hostErrs = s.hostErrs := rfl
@[simp] theorem State.reach_moves (n : Nat) : (s.reach n).moves = s.moves := rfl
@[simp] theorem State.reach_budget (n : Nat) : (s.reach n).budget = s.budget := rfl
@[simp] theorem State.reach_lookAside (n : Nat) : (s.reach n).lookAside = s.lookAside := rfl
@[simp] theorem State.reach_glnHit (n : Nat) : (s.reach n).glnHit = s.glnHit := rfl
@[simp] theorem State.reach_glnMiss (n : Nat) : (s.reach n).glnMiss = s.glnMiss := rfl
@[simp] theorem State.reach_glnBad (n : Nat) : (s.reach n).glnBad = s.glnBad := rfl
@[simp] theorem State.reach_ringHome (n : Nat) : (s.reach n).ringHome = s.ringHome := rfl
@[simp] theorem State.reach_streams (n : Nat) : (s.reach n).streams = s.streams := rfl
@[simp] theorem State.reach_lateSc (n : Nat) : (s.reach n).lateSc = s.lateSc := rfl
@[simp] theorem State.reach_orphans (n : Nat) : (s.reach n).orphans = s.orphans := rfl
@[simp] theorem State.reach_restarting (n : Nat) : (s.reach n).restarting = s.restarting := rfl
@[simp] theorem State.reach_queues (n : Nat) : (s.reach n).queues = s.queues := rfl
@[simp] theorem State.reach_exports (n : Nat) : (s.reach n).exports = s.exports := rfl
@[simp] theorem State.reach_openings (n : Nat) : (s.reach n).openings = s.openings := rfl
@[simp] theorem State.reach_turn (n : Nat) : (s.reach n).turn = s.turn := rfl
@[simp] theorem State.reach_staging (n : Nat) : (s.reach n).staging = s.staging := rfl
@[simp] theorem State.reach_stagingDue (n : Nat) : (s.reach n).stagingDue = s.stagingDue := rfl
@[simp] theorem State.reach_msixOn (n : Nat) : (s.reach n).msixOn = s.msixOn := rfl
@[simp] theorem State.reach_msixMask (n : Nat) : (s.reach n).msixMask = s.msixMask := rfl
@[simp] theorem State.reach_logSeq (n : Nat) : (s.reach n).logSeq = s.logSeq := rfl
@[simp] theorem State.reach_alertLow (n : Nat) : (s.reach n).alertLow = s.alertLow := rfl
@[simp] theorem State.reach_alertAt (n : Nat) : (s.reach n).alertAt = s.alertAt := rfl
@[simp] theorem State.reach_diagLow (n : Nat) : (s.reach n).diagLow = s.diagLow := rfl
@[simp] theorem State.reach_diagAt (n : Nat) : (s.reach n).diagAt = s.diagAt := rfl
@[simp] theorem State.reach_ports (n : Nat) : (s.reach n).ports = s.ports := rfl
@[simp] theorem State.reach_lostIncarn (n : Nat) : (s.reach n).lostIncarn = s.lostIncarn := rfl
@[simp] theorem State.reach_lossDue (n : Nat) : (s.reach n).lossDue = s.lossDue := rfl
@[simp] theorem State.reach_grants (n : Nat) : (s.reach n).grants = s.grants := rfl
@[simp] theorem State.reach_rxMoves (n : Nat) : (s.reach n).rxMoves = s.rxMoves := rfl
@[simp] theorem State.reach_txMoves (n : Nat) : (s.reach n).txMoves = s.txMoves := rfl
@[simp] theorem State.reach_nextMoveId (n : Nat) : (s.reach n).nextMoveId = s.nextMoveId := rfl
@[simp] theorem State.reach_pullsDue (n : Nat) : (s.reach n).pullsDue = s.pullsDue := rfl
@[simp] theorem State.reach_migrations (n : Nat) : (s.reach n).migrations = s.migrations := rfl
@[simp] theorem State.reach_power (n : Nat) : (s.reach n).power = s.power := rfl
@[simp] theorem State.reach_audio (n : Nat) : (s.reach n).audio = s.audio := rfl
@[simp] theorem State.reach_cam (n : Nat) : (s.reach n).cam = s.cam := rfl
@[simp] theorem State.reach_aon (n : Nat) : (s.reach n).aon = s.aon := rfl
@[simp] theorem State.reach_nv (n : Nat) : (s.reach n).nv = s.nv := rfl
@[simp] theorem State.reach_hsp (n : Nat) : (s.reach n).hsp = s.hsp := rfl
@[simp] theorem State.reach_psp (n : Nat) : (s.reach n).psp = s.psp := rfl
@[simp] theorem State.reach_jtag (n : Nat) : (s.reach n).jtag = s.jtag := rfl
@[simp] theorem State.reach_firstRestart (n : Nat) : (s.reach n).firstRestart = s.firstRestart := rfl
@[simp] theorem State.reach_firmwareAt (n : Nat) : (s.reach n).firmwareAt = s.firmwareAt := rfl
@[simp] theorem State.reach_sent (n : Nat) : (s.reach n).sent = s.sent := rfl

/-! ### `State.emit` -/

@[simp] theorem State.emit_pending (o : Sent) : (s.emit o).pending = s.pending := rfl
@[simp] theorem State.emit_free (o : Sent) : (s.emit o).free = s.free := rfl
@[simp] theorem State.emit_now (o : Sent) : (s.emit o).now = s.now := rfl
@[simp] theorem State.emit_regs (o : Sent) : (s.emit o).regs = s.regs := rfl
@[simp] theorem State.emit_rwtHeld (o : Sent) : (s.emit o).rwtHeld = s.rwtHeld := rfl
@[simp] theorem State.emit_hiLatch (o : Sent) : (s.emit o).hiLatch = s.hiLatch := rfl
@[simp] theorem State.emit_lowHeld (o : Sent) : (s.emit o).lowHeld = s.lowHeld := rfl
@[simp] theorem State.emit_tick (o : Sent) : (s.emit o).tick = s.tick := rfl
@[simp] theorem State.emit_active (o : Sent) : (s.emit o).active = s.active := rfl
@[simp] theorem State.emit_pendingPlan (o : Sent) : (s.emit o).pendingPlan = s.pendingPlan := rfl
@[simp] theorem State.emit_activating (o : Sent) : (s.emit o).activating = s.activating := rfl
@[simp] theorem State.emit_load (o : Sent) : (s.emit o).load = s.load := rfl
@[simp] theorem State.emit_deactivate (o : Sent) : (s.emit o).deactivate = s.deactivate := rfl
@[simp] theorem State.emit_engs (o : Sent) : (s.emit o).engs = s.engs := rfl
@[simp] theorem State.emit_posts (o : Sent) : (s.emit o).posts = s.posts := rfl
@[simp] theorem State.emit_nextKnots (o : Sent) : (s.emit o).nextKnots = s.nextKnots := rfl
@[simp] theorem State.emit_banks (o : Sent) : (s.emit o).banks = s.banks := rfl
@[simp] theorem State.emit_bankFlips (o : Sent) : (s.emit o).bankFlips = s.bankFlips := rfl
@[simp] theorem State.emit_rows (o : Sent) : (s.emit o).rows = s.rows := rfl
@[simp] theorem State.emit_nextRows (o : Sent) : (s.emit o).nextRows = s.nextRows := rfl
@[simp] theorem State.emit_unreadRows (o : Sent) : (s.emit o).unreadRows = s.unreadRows := rfl
@[simp] theorem State.emit_unreadAll (o : Sent) : (s.emit o).unreadAll = s.unreadAll := rfl
@[simp] theorem State.emit_resultsDone (o : Sent) : (s.emit o).resultsDone = s.resultsDone := rfl
@[simp] theorem State.emit_t0 (o : Sent) : (s.emit o).t0 = s.t0 := rfl
@[simp] theorem State.emit_t0Poison (o : Sent) : (s.emit o).t0Poison = s.t0Poison := rfl
@[simp] theorem State.emit_t0Flips (o : Sent) : (s.emit o).t0Flips = s.t0Flips := rfl
@[simp] theorem State.emit_writeBack (o : Sent) : (s.emit o).writeBack = s.writeBack := rfl
@[simp] theorem State.emit_scrubAt (o : Sent) : (s.emit o).scrubAt = s.scrubAt := rfl
@[simp] theorem State.emit_t1 (o : Sent) : (s.emit o).t1 = s.t1 := rfl
@[simp] theorem State.emit_t1Read (o : Sent) : (s.emit o).t1Read = s.t1Read := rfl
@[simp] theorem State.emit_t1Write (o : Sent) : (s.emit o).t1Write = s.t1Write := rfl
@[simp] theorem State.emit_host (o : Sent) : (s.emit o).host = s.host := rfl
@[simp] theorem State.emit_hostErrs (o : Sent) : (s.emit o).hostErrs = s.hostErrs := rfl
@[simp] theorem State.emit_moves (o : Sent) : (s.emit o).moves = s.moves := rfl
@[simp] theorem State.emit_budget (o : Sent) : (s.emit o).budget = s.budget := rfl
@[simp] theorem State.emit_lookAside (o : Sent) : (s.emit o).lookAside = s.lookAside := rfl
@[simp] theorem State.emit_glnHit (o : Sent) : (s.emit o).glnHit = s.glnHit := rfl
@[simp] theorem State.emit_glnMiss (o : Sent) : (s.emit o).glnMiss = s.glnMiss := rfl
@[simp] theorem State.emit_glnBad (o : Sent) : (s.emit o).glnBad = s.glnBad := rfl
@[simp] theorem State.emit_ringHome (o : Sent) : (s.emit o).ringHome = s.ringHome := rfl
@[simp] theorem State.emit_streams (o : Sent) : (s.emit o).streams = s.streams := rfl
@[simp] theorem State.emit_lateSc (o : Sent) : (s.emit o).lateSc = s.lateSc := rfl
@[simp] theorem State.emit_orphans (o : Sent) : (s.emit o).orphans = s.orphans := rfl
@[simp] theorem State.emit_restarting (o : Sent) : (s.emit o).restarting = s.restarting := rfl
@[simp] theorem State.emit_queues (o : Sent) : (s.emit o).queues = s.queues := rfl
@[simp] theorem State.emit_exports (o : Sent) : (s.emit o).exports = s.exports := rfl
@[simp] theorem State.emit_openings (o : Sent) : (s.emit o).openings = s.openings := rfl
@[simp] theorem State.emit_turn (o : Sent) : (s.emit o).turn = s.turn := rfl
@[simp] theorem State.emit_staging (o : Sent) : (s.emit o).staging = s.staging := rfl
@[simp] theorem State.emit_stagingDue (o : Sent) : (s.emit o).stagingDue = s.stagingDue := rfl
@[simp] theorem State.emit_msixOn (o : Sent) : (s.emit o).msixOn = s.msixOn := rfl
@[simp] theorem State.emit_msixMask (o : Sent) : (s.emit o).msixMask = s.msixMask := rfl
@[simp] theorem State.emit_logSeq (o : Sent) : (s.emit o).logSeq = s.logSeq := rfl
@[simp] theorem State.emit_alertLow (o : Sent) : (s.emit o).alertLow = s.alertLow := rfl
@[simp] theorem State.emit_alertAt (o : Sent) : (s.emit o).alertAt = s.alertAt := rfl
@[simp] theorem State.emit_diagLow (o : Sent) : (s.emit o).diagLow = s.diagLow := rfl
@[simp] theorem State.emit_diagAt (o : Sent) : (s.emit o).diagAt = s.diagAt := rfl
@[simp] theorem State.emit_ports (o : Sent) : (s.emit o).ports = s.ports := rfl
@[simp] theorem State.emit_lostIncarn (o : Sent) : (s.emit o).lostIncarn = s.lostIncarn := rfl
@[simp] theorem State.emit_lossDue (o : Sent) : (s.emit o).lossDue = s.lossDue := rfl
@[simp] theorem State.emit_grants (o : Sent) : (s.emit o).grants = s.grants := rfl
@[simp] theorem State.emit_rxMoves (o : Sent) : (s.emit o).rxMoves = s.rxMoves := rfl
@[simp] theorem State.emit_txMoves (o : Sent) : (s.emit o).txMoves = s.txMoves := rfl
@[simp] theorem State.emit_nextMoveId (o : Sent) : (s.emit o).nextMoveId = s.nextMoveId := rfl
@[simp] theorem State.emit_pullsDue (o : Sent) : (s.emit o).pullsDue = s.pullsDue := rfl
@[simp] theorem State.emit_migrations (o : Sent) : (s.emit o).migrations = s.migrations := rfl
@[simp] theorem State.emit_power (o : Sent) : (s.emit o).power = s.power := rfl
@[simp] theorem State.emit_audio (o : Sent) : (s.emit o).audio = s.audio := rfl
@[simp] theorem State.emit_cam (o : Sent) : (s.emit o).cam = s.cam := rfl
@[simp] theorem State.emit_aon (o : Sent) : (s.emit o).aon = s.aon := rfl
@[simp] theorem State.emit_nv (o : Sent) : (s.emit o).nv = s.nv := rfl
@[simp] theorem State.emit_hsp (o : Sent) : (s.emit o).hsp = s.hsp := rfl
@[simp] theorem State.emit_psp (o : Sent) : (s.emit o).psp = s.psp := rfl
@[simp] theorem State.emit_jtag (o : Sent) : (s.emit o).jtag = s.jtag := rfl
@[simp] theorem State.emit_firstRestart (o : Sent) : (s.emit o).firstRestart = s.firstRestart := rfl
@[simp] theorem State.emit_firmwareAt (o : Sent) : (s.emit o).firmwareAt = s.firmwareAt := rfl
@[simp] theorem State.emit_sent (o : Sent) : (s.emit o).sent = o :: s.sent := rfl

/-! ### `State.setStream` -/

@[simp] theorem State.setStream_pending (sc : Nat) (x : Stream) : (s.setStream sc x).pending = s.pending := rfl
@[simp] theorem State.setStream_free (sc : Nat) (x : Stream) : (s.setStream sc x).free = s.free := rfl
@[simp] theorem State.setStream_now (sc : Nat) (x : Stream) : (s.setStream sc x).now = s.now := rfl
@[simp] theorem State.setStream_regs (sc : Nat) (x : Stream) : (s.setStream sc x).regs = s.regs := rfl
@[simp] theorem State.setStream_rwtHeld (sc : Nat) (x : Stream) : (s.setStream sc x).rwtHeld = s.rwtHeld := rfl
@[simp] theorem State.setStream_hiLatch (sc : Nat) (x : Stream) : (s.setStream sc x).hiLatch = s.hiLatch := rfl
@[simp] theorem State.setStream_lowHeld (sc : Nat) (x : Stream) : (s.setStream sc x).lowHeld = s.lowHeld := rfl
@[simp] theorem State.setStream_tick (sc : Nat) (x : Stream) : (s.setStream sc x).tick = s.tick := rfl
@[simp] theorem State.setStream_active (sc : Nat) (x : Stream) : (s.setStream sc x).active = s.active := rfl
@[simp] theorem State.setStream_pendingPlan (sc : Nat) (x : Stream) : (s.setStream sc x).pendingPlan = s.pendingPlan := rfl
@[simp] theorem State.setStream_activating (sc : Nat) (x : Stream) : (s.setStream sc x).activating = s.activating := rfl
@[simp] theorem State.setStream_load (sc : Nat) (x : Stream) : (s.setStream sc x).load = s.load := rfl
@[simp] theorem State.setStream_deactivate (sc : Nat) (x : Stream) : (s.setStream sc x).deactivate = s.deactivate := rfl
@[simp] theorem State.setStream_engs (sc : Nat) (x : Stream) : (s.setStream sc x).engs = s.engs := rfl
@[simp] theorem State.setStream_posts (sc : Nat) (x : Stream) : (s.setStream sc x).posts = s.posts := rfl
@[simp] theorem State.setStream_nextKnots (sc : Nat) (x : Stream) : (s.setStream sc x).nextKnots = s.nextKnots := rfl
@[simp] theorem State.setStream_banks (sc : Nat) (x : Stream) : (s.setStream sc x).banks = s.banks := rfl
@[simp] theorem State.setStream_bankFlips (sc : Nat) (x : Stream) : (s.setStream sc x).bankFlips = s.bankFlips := rfl
@[simp] theorem State.setStream_rows (sc : Nat) (x : Stream) : (s.setStream sc x).rows = s.rows := rfl
@[simp] theorem State.setStream_nextRows (sc : Nat) (x : Stream) : (s.setStream sc x).nextRows = s.nextRows := rfl
@[simp] theorem State.setStream_unreadRows (sc : Nat) (x : Stream) : (s.setStream sc x).unreadRows = s.unreadRows := rfl
@[simp] theorem State.setStream_unreadAll (sc : Nat) (x : Stream) : (s.setStream sc x).unreadAll = s.unreadAll := rfl
@[simp] theorem State.setStream_resultsDone (sc : Nat) (x : Stream) : (s.setStream sc x).resultsDone = s.resultsDone := rfl
@[simp] theorem State.setStream_t0 (sc : Nat) (x : Stream) : (s.setStream sc x).t0 = s.t0 := rfl
@[simp] theorem State.setStream_t0Poison (sc : Nat) (x : Stream) : (s.setStream sc x).t0Poison = s.t0Poison := rfl
@[simp] theorem State.setStream_t0Flips (sc : Nat) (x : Stream) : (s.setStream sc x).t0Flips = s.t0Flips := rfl
@[simp] theorem State.setStream_writeBack (sc : Nat) (x : Stream) : (s.setStream sc x).writeBack = s.writeBack := rfl
@[simp] theorem State.setStream_scrubAt (sc : Nat) (x : Stream) : (s.setStream sc x).scrubAt = s.scrubAt := rfl
@[simp] theorem State.setStream_t1 (sc : Nat) (x : Stream) : (s.setStream sc x).t1 = s.t1 := rfl
@[simp] theorem State.setStream_t1Read (sc : Nat) (x : Stream) : (s.setStream sc x).t1Read = s.t1Read := rfl
@[simp] theorem State.setStream_t1Write (sc : Nat) (x : Stream) : (s.setStream sc x).t1Write = s.t1Write := rfl
@[simp] theorem State.setStream_host (sc : Nat) (x : Stream) : (s.setStream sc x).host = s.host := rfl
@[simp] theorem State.setStream_hostErrs (sc : Nat) (x : Stream) : (s.setStream sc x).hostErrs = s.hostErrs := rfl
@[simp] theorem State.setStream_moves (sc : Nat) (x : Stream) : (s.setStream sc x).moves = s.moves := rfl
@[simp] theorem State.setStream_budget (sc : Nat) (x : Stream) : (s.setStream sc x).budget = s.budget := rfl
@[simp] theorem State.setStream_lookAside (sc : Nat) (x : Stream) : (s.setStream sc x).lookAside = s.lookAside := rfl
@[simp] theorem State.setStream_glnHit (sc : Nat) (x : Stream) : (s.setStream sc x).glnHit = s.glnHit := rfl
@[simp] theorem State.setStream_glnMiss (sc : Nat) (x : Stream) : (s.setStream sc x).glnMiss = s.glnMiss := rfl
@[simp] theorem State.setStream_glnBad (sc : Nat) (x : Stream) : (s.setStream sc x).glnBad = s.glnBad := rfl
@[simp] theorem State.setStream_ringHome (sc : Nat) (x : Stream) : (s.setStream sc x).ringHome = s.ringHome := rfl
@[simp] theorem State.setStream_streams (sc : Nat) (x : Stream) : (s.setStream sc x).streams = keyPut s.streams sc x := rfl
@[simp] theorem State.setStream_lateSc (sc : Nat) (x : Stream) : (s.setStream sc x).lateSc = s.lateSc := rfl
@[simp] theorem State.setStream_orphans (sc : Nat) (x : Stream) : (s.setStream sc x).orphans = s.orphans := rfl
@[simp] theorem State.setStream_restarting (sc : Nat) (x : Stream) : (s.setStream sc x).restarting = s.restarting := rfl
@[simp] theorem State.setStream_queues (sc : Nat) (x : Stream) : (s.setStream sc x).queues = s.queues := rfl
@[simp] theorem State.setStream_exports (sc : Nat) (x : Stream) : (s.setStream sc x).exports = s.exports := rfl
@[simp] theorem State.setStream_openings (sc : Nat) (x : Stream) : (s.setStream sc x).openings = s.openings := rfl
@[simp] theorem State.setStream_turn (sc : Nat) (x : Stream) : (s.setStream sc x).turn = s.turn := rfl
@[simp] theorem State.setStream_staging (sc : Nat) (x : Stream) : (s.setStream sc x).staging = s.staging := rfl
@[simp] theorem State.setStream_stagingDue (sc : Nat) (x : Stream) : (s.setStream sc x).stagingDue = s.stagingDue := rfl
@[simp] theorem State.setStream_msixOn (sc : Nat) (x : Stream) : (s.setStream sc x).msixOn = s.msixOn := rfl
@[simp] theorem State.setStream_msixMask (sc : Nat) (x : Stream) : (s.setStream sc x).msixMask = s.msixMask := rfl
@[simp] theorem State.setStream_logSeq (sc : Nat) (x : Stream) : (s.setStream sc x).logSeq = s.logSeq := rfl
@[simp] theorem State.setStream_alertLow (sc : Nat) (x : Stream) : (s.setStream sc x).alertLow = s.alertLow := rfl
@[simp] theorem State.setStream_alertAt (sc : Nat) (x : Stream) : (s.setStream sc x).alertAt = s.alertAt := rfl
@[simp] theorem State.setStream_diagLow (sc : Nat) (x : Stream) : (s.setStream sc x).diagLow = s.diagLow := rfl
@[simp] theorem State.setStream_diagAt (sc : Nat) (x : Stream) : (s.setStream sc x).diagAt = s.diagAt := rfl
@[simp] theorem State.setStream_ports (sc : Nat) (x : Stream) : (s.setStream sc x).ports = s.ports := rfl
@[simp] theorem State.setStream_lostIncarn (sc : Nat) (x : Stream) : (s.setStream sc x).lostIncarn = s.lostIncarn := rfl
@[simp] theorem State.setStream_lossDue (sc : Nat) (x : Stream) : (s.setStream sc x).lossDue = s.lossDue := rfl
@[simp] theorem State.setStream_grants (sc : Nat) (x : Stream) : (s.setStream sc x).grants = s.grants := rfl
@[simp] theorem State.setStream_rxMoves (sc : Nat) (x : Stream) : (s.setStream sc x).rxMoves = s.rxMoves := rfl
@[simp] theorem State.setStream_txMoves (sc : Nat) (x : Stream) : (s.setStream sc x).txMoves = s.txMoves := rfl
@[simp] theorem State.setStream_nextMoveId (sc : Nat) (x : Stream) : (s.setStream sc x).nextMoveId = s.nextMoveId := rfl
@[simp] theorem State.setStream_pullsDue (sc : Nat) (x : Stream) : (s.setStream sc x).pullsDue = s.pullsDue := rfl
@[simp] theorem State.setStream_migrations (sc : Nat) (x : Stream) : (s.setStream sc x).migrations = s.migrations := rfl
@[simp] theorem State.setStream_power (sc : Nat) (x : Stream) : (s.setStream sc x).power = s.power := rfl
@[simp] theorem State.setStream_audio (sc : Nat) (x : Stream) : (s.setStream sc x).audio = s.audio := rfl
@[simp] theorem State.setStream_cam (sc : Nat) (x : Stream) : (s.setStream sc x).cam = s.cam := rfl
@[simp] theorem State.setStream_aon (sc : Nat) (x : Stream) : (s.setStream sc x).aon = s.aon := rfl
@[simp] theorem State.setStream_nv (sc : Nat) (x : Stream) : (s.setStream sc x).nv = s.nv := rfl
@[simp] theorem State.setStream_hsp (sc : Nat) (x : Stream) : (s.setStream sc x).hsp = s.hsp := rfl
@[simp] theorem State.setStream_psp (sc : Nat) (x : Stream) : (s.setStream sc x).psp = s.psp := rfl
@[simp] theorem State.setStream_jtag (sc : Nat) (x : Stream) : (s.setStream sc x).jtag = s.jtag := rfl
@[simp] theorem State.setStream_firstRestart (sc : Nat) (x : Stream) : (s.setStream sc x).firstRestart = s.firstRestart := rfl
@[simp] theorem State.setStream_firmwareAt (sc : Nat) (x : Stream) : (s.setStream sc x).firmwareAt = s.firmwareAt := rfl
@[simp] theorem State.setStream_sent (sc : Nat) (x : Stream) : (s.setStream sc x).sent = s.sent := rfl

/-! ### `State.setEng` -/

@[simp] theorem State.setEng_pending (e : Nat) (g : EngState) : (s.setEng e g).pending = s.pending := rfl
@[simp] theorem State.setEng_free (e : Nat) (g : EngState) : (s.setEng e g).free = s.free := rfl
@[simp] theorem State.setEng_now (e : Nat) (g : EngState) : (s.setEng e g).now = s.now := rfl
@[simp] theorem State.setEng_regs (e : Nat) (g : EngState) : (s.setEng e g).regs = s.regs := rfl
@[simp] theorem State.setEng_rwtHeld (e : Nat) (g : EngState) : (s.setEng e g).rwtHeld = s.rwtHeld := rfl
@[simp] theorem State.setEng_hiLatch (e : Nat) (g : EngState) : (s.setEng e g).hiLatch = s.hiLatch := rfl
@[simp] theorem State.setEng_lowHeld (e : Nat) (g : EngState) : (s.setEng e g).lowHeld = s.lowHeld := rfl
@[simp] theorem State.setEng_tick (e : Nat) (g : EngState) : (s.setEng e g).tick = s.tick := rfl
@[simp] theorem State.setEng_active (e : Nat) (g : EngState) : (s.setEng e g).active = s.active := rfl
@[simp] theorem State.setEng_pendingPlan (e : Nat) (g : EngState) : (s.setEng e g).pendingPlan = s.pendingPlan := rfl
@[simp] theorem State.setEng_activating (e : Nat) (g : EngState) : (s.setEng e g).activating = s.activating := rfl
@[simp] theorem State.setEng_load (e : Nat) (g : EngState) : (s.setEng e g).load = s.load := rfl
@[simp] theorem State.setEng_deactivate (e : Nat) (g : EngState) : (s.setEng e g).deactivate = s.deactivate := rfl
@[simp] theorem State.setEng_engs (e : Nat) (g : EngState) : (s.setEng e g).engs = s.engs.set e g := rfl
@[simp] theorem State.setEng_posts (e : Nat) (g : EngState) : (s.setEng e g).posts = s.posts := rfl
@[simp] theorem State.setEng_nextKnots (e : Nat) (g : EngState) : (s.setEng e g).nextKnots = s.nextKnots := rfl
@[simp] theorem State.setEng_banks (e : Nat) (g : EngState) : (s.setEng e g).banks = s.banks := rfl
@[simp] theorem State.setEng_bankFlips (e : Nat) (g : EngState) : (s.setEng e g).bankFlips = s.bankFlips := rfl
@[simp] theorem State.setEng_rows (e : Nat) (g : EngState) : (s.setEng e g).rows = s.rows := rfl
@[simp] theorem State.setEng_nextRows (e : Nat) (g : EngState) : (s.setEng e g).nextRows = s.nextRows := rfl
@[simp] theorem State.setEng_unreadRows (e : Nat) (g : EngState) : (s.setEng e g).unreadRows = s.unreadRows := rfl
@[simp] theorem State.setEng_unreadAll (e : Nat) (g : EngState) : (s.setEng e g).unreadAll = s.unreadAll := rfl
@[simp] theorem State.setEng_resultsDone (e : Nat) (g : EngState) : (s.setEng e g).resultsDone = s.resultsDone := rfl
@[simp] theorem State.setEng_t0 (e : Nat) (g : EngState) : (s.setEng e g).t0 = s.t0 := rfl
@[simp] theorem State.setEng_t0Poison (e : Nat) (g : EngState) : (s.setEng e g).t0Poison = s.t0Poison := rfl
@[simp] theorem State.setEng_t0Flips (e : Nat) (g : EngState) : (s.setEng e g).t0Flips = s.t0Flips := rfl
@[simp] theorem State.setEng_writeBack (e : Nat) (g : EngState) : (s.setEng e g).writeBack = s.writeBack := rfl
@[simp] theorem State.setEng_scrubAt (e : Nat) (g : EngState) : (s.setEng e g).scrubAt = s.scrubAt := rfl
@[simp] theorem State.setEng_t1 (e : Nat) (g : EngState) : (s.setEng e g).t1 = s.t1 := rfl
@[simp] theorem State.setEng_t1Read (e : Nat) (g : EngState) : (s.setEng e g).t1Read = s.t1Read := rfl
@[simp] theorem State.setEng_t1Write (e : Nat) (g : EngState) : (s.setEng e g).t1Write = s.t1Write := rfl
@[simp] theorem State.setEng_host (e : Nat) (g : EngState) : (s.setEng e g).host = s.host := rfl
@[simp] theorem State.setEng_hostErrs (e : Nat) (g : EngState) : (s.setEng e g).hostErrs = s.hostErrs := rfl
@[simp] theorem State.setEng_moves (e : Nat) (g : EngState) : (s.setEng e g).moves = s.moves := rfl
@[simp] theorem State.setEng_budget (e : Nat) (g : EngState) : (s.setEng e g).budget = s.budget := rfl
@[simp] theorem State.setEng_lookAside (e : Nat) (g : EngState) : (s.setEng e g).lookAside = s.lookAside := rfl
@[simp] theorem State.setEng_glnHit (e : Nat) (g : EngState) : (s.setEng e g).glnHit = s.glnHit := rfl
@[simp] theorem State.setEng_glnMiss (e : Nat) (g : EngState) : (s.setEng e g).glnMiss = s.glnMiss := rfl
@[simp] theorem State.setEng_glnBad (e : Nat) (g : EngState) : (s.setEng e g).glnBad = s.glnBad := rfl
@[simp] theorem State.setEng_ringHome (e : Nat) (g : EngState) : (s.setEng e g).ringHome = s.ringHome := rfl
@[simp] theorem State.setEng_streams (e : Nat) (g : EngState) : (s.setEng e g).streams = s.streams := rfl
@[simp] theorem State.setEng_lateSc (e : Nat) (g : EngState) : (s.setEng e g).lateSc = s.lateSc := rfl
@[simp] theorem State.setEng_orphans (e : Nat) (g : EngState) : (s.setEng e g).orphans = s.orphans := rfl
@[simp] theorem State.setEng_restarting (e : Nat) (g : EngState) : (s.setEng e g).restarting = s.restarting := rfl
@[simp] theorem State.setEng_queues (e : Nat) (g : EngState) : (s.setEng e g).queues = s.queues := rfl
@[simp] theorem State.setEng_exports (e : Nat) (g : EngState) : (s.setEng e g).exports = s.exports := rfl
@[simp] theorem State.setEng_openings (e : Nat) (g : EngState) : (s.setEng e g).openings = s.openings := rfl
@[simp] theorem State.setEng_turn (e : Nat) (g : EngState) : (s.setEng e g).turn = s.turn := rfl
@[simp] theorem State.setEng_staging (e : Nat) (g : EngState) : (s.setEng e g).staging = s.staging := rfl
@[simp] theorem State.setEng_stagingDue (e : Nat) (g : EngState) : (s.setEng e g).stagingDue = s.stagingDue := rfl
@[simp] theorem State.setEng_msixOn (e : Nat) (g : EngState) : (s.setEng e g).msixOn = s.msixOn := rfl
@[simp] theorem State.setEng_msixMask (e : Nat) (g : EngState) : (s.setEng e g).msixMask = s.msixMask := rfl
@[simp] theorem State.setEng_logSeq (e : Nat) (g : EngState) : (s.setEng e g).logSeq = s.logSeq := rfl
@[simp] theorem State.setEng_alertLow (e : Nat) (g : EngState) : (s.setEng e g).alertLow = s.alertLow := rfl
@[simp] theorem State.setEng_alertAt (e : Nat) (g : EngState) : (s.setEng e g).alertAt = s.alertAt := rfl
@[simp] theorem State.setEng_diagLow (e : Nat) (g : EngState) : (s.setEng e g).diagLow = s.diagLow := rfl
@[simp] theorem State.setEng_diagAt (e : Nat) (g : EngState) : (s.setEng e g).diagAt = s.diagAt := rfl
@[simp] theorem State.setEng_ports (e : Nat) (g : EngState) : (s.setEng e g).ports = s.ports := rfl
@[simp] theorem State.setEng_lostIncarn (e : Nat) (g : EngState) : (s.setEng e g).lostIncarn = s.lostIncarn := rfl
@[simp] theorem State.setEng_lossDue (e : Nat) (g : EngState) : (s.setEng e g).lossDue = s.lossDue := rfl
@[simp] theorem State.setEng_grants (e : Nat) (g : EngState) : (s.setEng e g).grants = s.grants := rfl
@[simp] theorem State.setEng_rxMoves (e : Nat) (g : EngState) : (s.setEng e g).rxMoves = s.rxMoves := rfl
@[simp] theorem State.setEng_txMoves (e : Nat) (g : EngState) : (s.setEng e g).txMoves = s.txMoves := rfl
@[simp] theorem State.setEng_nextMoveId (e : Nat) (g : EngState) : (s.setEng e g).nextMoveId = s.nextMoveId := rfl
@[simp] theorem State.setEng_pullsDue (e : Nat) (g : EngState) : (s.setEng e g).pullsDue = s.pullsDue := rfl
@[simp] theorem State.setEng_migrations (e : Nat) (g : EngState) : (s.setEng e g).migrations = s.migrations := rfl
@[simp] theorem State.setEng_power (e : Nat) (g : EngState) : (s.setEng e g).power = s.power := rfl
@[simp] theorem State.setEng_audio (e : Nat) (g : EngState) : (s.setEng e g).audio = s.audio := rfl
@[simp] theorem State.setEng_cam (e : Nat) (g : EngState) : (s.setEng e g).cam = s.cam := rfl
@[simp] theorem State.setEng_aon (e : Nat) (g : EngState) : (s.setEng e g).aon = s.aon := rfl
@[simp] theorem State.setEng_nv (e : Nat) (g : EngState) : (s.setEng e g).nv = s.nv := rfl
@[simp] theorem State.setEng_hsp (e : Nat) (g : EngState) : (s.setEng e g).hsp = s.hsp := rfl
@[simp] theorem State.setEng_psp (e : Nat) (g : EngState) : (s.setEng e g).psp = s.psp := rfl
@[simp] theorem State.setEng_jtag (e : Nat) (g : EngState) : (s.setEng e g).jtag = s.jtag := rfl
@[simp] theorem State.setEng_firstRestart (e : Nat) (g : EngState) : (s.setEng e g).firstRestart = s.firstRestart := rfl
@[simp] theorem State.setEng_firmwareAt (e : Nat) (g : EngState) : (s.setEng e g).firmwareAt = s.firmwareAt := rfl
@[simp] theorem State.setEng_sent (e : Nat) (g : EngState) : (s.setEng e g).sent = s.sent := rfl

/-! ### `State.updEng` -/

@[simp] theorem State.updEng_pending (e : Nat) (f : EngState → EngState) : (s.updEng e f).pending = s.pending := rfl
@[simp] theorem State.updEng_free (e : Nat) (f : EngState → EngState) : (s.updEng e f).free = s.free := rfl
@[simp] theorem State.updEng_now (e : Nat) (f : EngState → EngState) : (s.updEng e f).now = s.now := rfl
@[simp] theorem State.updEng_regs (e : Nat) (f : EngState → EngState) : (s.updEng e f).regs = s.regs := rfl
@[simp] theorem State.updEng_rwtHeld (e : Nat) (f : EngState → EngState) : (s.updEng e f).rwtHeld = s.rwtHeld := rfl
@[simp] theorem State.updEng_hiLatch (e : Nat) (f : EngState → EngState) : (s.updEng e f).hiLatch = s.hiLatch := rfl
@[simp] theorem State.updEng_lowHeld (e : Nat) (f : EngState → EngState) : (s.updEng e f).lowHeld = s.lowHeld := rfl
@[simp] theorem State.updEng_tick (e : Nat) (f : EngState → EngState) : (s.updEng e f).tick = s.tick := rfl
@[simp] theorem State.updEng_active (e : Nat) (f : EngState → EngState) : (s.updEng e f).active = s.active := rfl
@[simp] theorem State.updEng_pendingPlan (e : Nat) (f : EngState → EngState) : (s.updEng e f).pendingPlan = s.pendingPlan := rfl
@[simp] theorem State.updEng_activating (e : Nat) (f : EngState → EngState) : (s.updEng e f).activating = s.activating := rfl
@[simp] theorem State.updEng_load (e : Nat) (f : EngState → EngState) : (s.updEng e f).load = s.load := rfl
@[simp] theorem State.updEng_deactivate (e : Nat) (f : EngState → EngState) : (s.updEng e f).deactivate = s.deactivate := rfl
@[simp] theorem State.updEng_engs (e : Nat) (f : EngState → EngState) : (s.updEng e f).engs = s.engs.set e (f (s.eng e)) := rfl
@[simp] theorem State.updEng_posts (e : Nat) (f : EngState → EngState) : (s.updEng e f).posts = s.posts := rfl
@[simp] theorem State.updEng_nextKnots (e : Nat) (f : EngState → EngState) : (s.updEng e f).nextKnots = s.nextKnots := rfl
@[simp] theorem State.updEng_banks (e : Nat) (f : EngState → EngState) : (s.updEng e f).banks = s.banks := rfl
@[simp] theorem State.updEng_bankFlips (e : Nat) (f : EngState → EngState) : (s.updEng e f).bankFlips = s.bankFlips := rfl
@[simp] theorem State.updEng_rows (e : Nat) (f : EngState → EngState) : (s.updEng e f).rows = s.rows := rfl
@[simp] theorem State.updEng_nextRows (e : Nat) (f : EngState → EngState) : (s.updEng e f).nextRows = s.nextRows := rfl
@[simp] theorem State.updEng_unreadRows (e : Nat) (f : EngState → EngState) : (s.updEng e f).unreadRows = s.unreadRows := rfl
@[simp] theorem State.updEng_unreadAll (e : Nat) (f : EngState → EngState) : (s.updEng e f).unreadAll = s.unreadAll := rfl
@[simp] theorem State.updEng_resultsDone (e : Nat) (f : EngState → EngState) : (s.updEng e f).resultsDone = s.resultsDone := rfl
@[simp] theorem State.updEng_t0 (e : Nat) (f : EngState → EngState) : (s.updEng e f).t0 = s.t0 := rfl
@[simp] theorem State.updEng_t0Poison (e : Nat) (f : EngState → EngState) : (s.updEng e f).t0Poison = s.t0Poison := rfl
@[simp] theorem State.updEng_t0Flips (e : Nat) (f : EngState → EngState) : (s.updEng e f).t0Flips = s.t0Flips := rfl
@[simp] theorem State.updEng_writeBack (e : Nat) (f : EngState → EngState) : (s.updEng e f).writeBack = s.writeBack := rfl
@[simp] theorem State.updEng_scrubAt (e : Nat) (f : EngState → EngState) : (s.updEng e f).scrubAt = s.scrubAt := rfl
@[simp] theorem State.updEng_t1 (e : Nat) (f : EngState → EngState) : (s.updEng e f).t1 = s.t1 := rfl
@[simp] theorem State.updEng_t1Read (e : Nat) (f : EngState → EngState) : (s.updEng e f).t1Read = s.t1Read := rfl
@[simp] theorem State.updEng_t1Write (e : Nat) (f : EngState → EngState) : (s.updEng e f).t1Write = s.t1Write := rfl
@[simp] theorem State.updEng_host (e : Nat) (f : EngState → EngState) : (s.updEng e f).host = s.host := rfl
@[simp] theorem State.updEng_hostErrs (e : Nat) (f : EngState → EngState) : (s.updEng e f).hostErrs = s.hostErrs := rfl
@[simp] theorem State.updEng_moves (e : Nat) (f : EngState → EngState) : (s.updEng e f).moves = s.moves := rfl
@[simp] theorem State.updEng_budget (e : Nat) (f : EngState → EngState) : (s.updEng e f).budget = s.budget := rfl
@[simp] theorem State.updEng_lookAside (e : Nat) (f : EngState → EngState) : (s.updEng e f).lookAside = s.lookAside := rfl
@[simp] theorem State.updEng_glnHit (e : Nat) (f : EngState → EngState) : (s.updEng e f).glnHit = s.glnHit := rfl
@[simp] theorem State.updEng_glnMiss (e : Nat) (f : EngState → EngState) : (s.updEng e f).glnMiss = s.glnMiss := rfl
@[simp] theorem State.updEng_glnBad (e : Nat) (f : EngState → EngState) : (s.updEng e f).glnBad = s.glnBad := rfl
@[simp] theorem State.updEng_ringHome (e : Nat) (f : EngState → EngState) : (s.updEng e f).ringHome = s.ringHome := rfl
@[simp] theorem State.updEng_streams (e : Nat) (f : EngState → EngState) : (s.updEng e f).streams = s.streams := rfl
@[simp] theorem State.updEng_lateSc (e : Nat) (f : EngState → EngState) : (s.updEng e f).lateSc = s.lateSc := rfl
@[simp] theorem State.updEng_orphans (e : Nat) (f : EngState → EngState) : (s.updEng e f).orphans = s.orphans := rfl
@[simp] theorem State.updEng_restarting (e : Nat) (f : EngState → EngState) : (s.updEng e f).restarting = s.restarting := rfl
@[simp] theorem State.updEng_queues (e : Nat) (f : EngState → EngState) : (s.updEng e f).queues = s.queues := rfl
@[simp] theorem State.updEng_exports (e : Nat) (f : EngState → EngState) : (s.updEng e f).exports = s.exports := rfl
@[simp] theorem State.updEng_openings (e : Nat) (f : EngState → EngState) : (s.updEng e f).openings = s.openings := rfl
@[simp] theorem State.updEng_turn (e : Nat) (f : EngState → EngState) : (s.updEng e f).turn = s.turn := rfl
@[simp] theorem State.updEng_staging (e : Nat) (f : EngState → EngState) : (s.updEng e f).staging = s.staging := rfl
@[simp] theorem State.updEng_stagingDue (e : Nat) (f : EngState → EngState) : (s.updEng e f).stagingDue = s.stagingDue := rfl
@[simp] theorem State.updEng_msixOn (e : Nat) (f : EngState → EngState) : (s.updEng e f).msixOn = s.msixOn := rfl
@[simp] theorem State.updEng_msixMask (e : Nat) (f : EngState → EngState) : (s.updEng e f).msixMask = s.msixMask := rfl
@[simp] theorem State.updEng_logSeq (e : Nat) (f : EngState → EngState) : (s.updEng e f).logSeq = s.logSeq := rfl
@[simp] theorem State.updEng_alertLow (e : Nat) (f : EngState → EngState) : (s.updEng e f).alertLow = s.alertLow := rfl
@[simp] theorem State.updEng_alertAt (e : Nat) (f : EngState → EngState) : (s.updEng e f).alertAt = s.alertAt := rfl
@[simp] theorem State.updEng_diagLow (e : Nat) (f : EngState → EngState) : (s.updEng e f).diagLow = s.diagLow := rfl
@[simp] theorem State.updEng_diagAt (e : Nat) (f : EngState → EngState) : (s.updEng e f).diagAt = s.diagAt := rfl
@[simp] theorem State.updEng_ports (e : Nat) (f : EngState → EngState) : (s.updEng e f).ports = s.ports := rfl
@[simp] theorem State.updEng_lostIncarn (e : Nat) (f : EngState → EngState) : (s.updEng e f).lostIncarn = s.lostIncarn := rfl
@[simp] theorem State.updEng_lossDue (e : Nat) (f : EngState → EngState) : (s.updEng e f).lossDue = s.lossDue := rfl
@[simp] theorem State.updEng_grants (e : Nat) (f : EngState → EngState) : (s.updEng e f).grants = s.grants := rfl
@[simp] theorem State.updEng_rxMoves (e : Nat) (f : EngState → EngState) : (s.updEng e f).rxMoves = s.rxMoves := rfl
@[simp] theorem State.updEng_txMoves (e : Nat) (f : EngState → EngState) : (s.updEng e f).txMoves = s.txMoves := rfl
@[simp] theorem State.updEng_nextMoveId (e : Nat) (f : EngState → EngState) : (s.updEng e f).nextMoveId = s.nextMoveId := rfl
@[simp] theorem State.updEng_pullsDue (e : Nat) (f : EngState → EngState) : (s.updEng e f).pullsDue = s.pullsDue := rfl
@[simp] theorem State.updEng_migrations (e : Nat) (f : EngState → EngState) : (s.updEng e f).migrations = s.migrations := rfl
@[simp] theorem State.updEng_power (e : Nat) (f : EngState → EngState) : (s.updEng e f).power = s.power := rfl
@[simp] theorem State.updEng_audio (e : Nat) (f : EngState → EngState) : (s.updEng e f).audio = s.audio := rfl
@[simp] theorem State.updEng_cam (e : Nat) (f : EngState → EngState) : (s.updEng e f).cam = s.cam := rfl
@[simp] theorem State.updEng_aon (e : Nat) (f : EngState → EngState) : (s.updEng e f).aon = s.aon := rfl
@[simp] theorem State.updEng_nv (e : Nat) (f : EngState → EngState) : (s.updEng e f).nv = s.nv := rfl
@[simp] theorem State.updEng_hsp (e : Nat) (f : EngState → EngState) : (s.updEng e f).hsp = s.hsp := rfl
@[simp] theorem State.updEng_psp (e : Nat) (f : EngState → EngState) : (s.updEng e f).psp = s.psp := rfl
@[simp] theorem State.updEng_jtag (e : Nat) (f : EngState → EngState) : (s.updEng e f).jtag = s.jtag := rfl
@[simp] theorem State.updEng_firstRestart (e : Nat) (f : EngState → EngState) : (s.updEng e f).firstRestart = s.firstRestart := rfl
@[simp] theorem State.updEng_firmwareAt (e : Nat) (f : EngState → EngState) : (s.updEng e f).firmwareAt = s.firmwareAt := rfl
@[simp] theorem State.updEng_sent (e : Nat) (f : EngState → EngState) : (s.updEng e f).sent = s.sent := rfl

/-! ### `State.updQueue` -/

@[simp] theorem State.updQueue_pending (k : Nat) (f : Queue → Queue) : (s.updQueue k f).pending = s.pending := rfl
@[simp] theorem State.updQueue_free (k : Nat) (f : Queue → Queue) : (s.updQueue k f).free = s.free := rfl
@[simp] theorem State.updQueue_now (k : Nat) (f : Queue → Queue) : (s.updQueue k f).now = s.now := rfl
@[simp] theorem State.updQueue_regs (k : Nat) (f : Queue → Queue) : (s.updQueue k f).regs = s.regs := rfl
@[simp] theorem State.updQueue_rwtHeld (k : Nat) (f : Queue → Queue) : (s.updQueue k f).rwtHeld = s.rwtHeld := rfl
@[simp] theorem State.updQueue_hiLatch (k : Nat) (f : Queue → Queue) : (s.updQueue k f).hiLatch = s.hiLatch := rfl
@[simp] theorem State.updQueue_lowHeld (k : Nat) (f : Queue → Queue) : (s.updQueue k f).lowHeld = s.lowHeld := rfl
@[simp] theorem State.updQueue_tick (k : Nat) (f : Queue → Queue) : (s.updQueue k f).tick = s.tick := rfl
@[simp] theorem State.updQueue_active (k : Nat) (f : Queue → Queue) : (s.updQueue k f).active = s.active := rfl
@[simp] theorem State.updQueue_pendingPlan (k : Nat) (f : Queue → Queue) : (s.updQueue k f).pendingPlan = s.pendingPlan := rfl
@[simp] theorem State.updQueue_activating (k : Nat) (f : Queue → Queue) : (s.updQueue k f).activating = s.activating := rfl
@[simp] theorem State.updQueue_load (k : Nat) (f : Queue → Queue) : (s.updQueue k f).load = s.load := rfl
@[simp] theorem State.updQueue_deactivate (k : Nat) (f : Queue → Queue) : (s.updQueue k f).deactivate = s.deactivate := rfl
@[simp] theorem State.updQueue_engs (k : Nat) (f : Queue → Queue) : (s.updQueue k f).engs = s.engs := rfl
@[simp] theorem State.updQueue_posts (k : Nat) (f : Queue → Queue) : (s.updQueue k f).posts = s.posts := rfl
@[simp] theorem State.updQueue_nextKnots (k : Nat) (f : Queue → Queue) : (s.updQueue k f).nextKnots = s.nextKnots := rfl
@[simp] theorem State.updQueue_banks (k : Nat) (f : Queue → Queue) : (s.updQueue k f).banks = s.banks := rfl
@[simp] theorem State.updQueue_bankFlips (k : Nat) (f : Queue → Queue) : (s.updQueue k f).bankFlips = s.bankFlips := rfl
@[simp] theorem State.updQueue_rows (k : Nat) (f : Queue → Queue) : (s.updQueue k f).rows = s.rows := rfl
@[simp] theorem State.updQueue_nextRows (k : Nat) (f : Queue → Queue) : (s.updQueue k f).nextRows = s.nextRows := rfl
@[simp] theorem State.updQueue_unreadRows (k : Nat) (f : Queue → Queue) : (s.updQueue k f).unreadRows = s.unreadRows := rfl
@[simp] theorem State.updQueue_unreadAll (k : Nat) (f : Queue → Queue) : (s.updQueue k f).unreadAll = s.unreadAll := rfl
@[simp] theorem State.updQueue_resultsDone (k : Nat) (f : Queue → Queue) : (s.updQueue k f).resultsDone = s.resultsDone := rfl
@[simp] theorem State.updQueue_t0 (k : Nat) (f : Queue → Queue) : (s.updQueue k f).t0 = s.t0 := rfl
@[simp] theorem State.updQueue_t0Poison (k : Nat) (f : Queue → Queue) : (s.updQueue k f).t0Poison = s.t0Poison := rfl
@[simp] theorem State.updQueue_t0Flips (k : Nat) (f : Queue → Queue) : (s.updQueue k f).t0Flips = s.t0Flips := rfl
@[simp] theorem State.updQueue_writeBack (k : Nat) (f : Queue → Queue) : (s.updQueue k f).writeBack = s.writeBack := rfl
@[simp] theorem State.updQueue_scrubAt (k : Nat) (f : Queue → Queue) : (s.updQueue k f).scrubAt = s.scrubAt := rfl
@[simp] theorem State.updQueue_t1 (k : Nat) (f : Queue → Queue) : (s.updQueue k f).t1 = s.t1 := rfl
@[simp] theorem State.updQueue_t1Read (k : Nat) (f : Queue → Queue) : (s.updQueue k f).t1Read = s.t1Read := rfl
@[simp] theorem State.updQueue_t1Write (k : Nat) (f : Queue → Queue) : (s.updQueue k f).t1Write = s.t1Write := rfl
@[simp] theorem State.updQueue_host (k : Nat) (f : Queue → Queue) : (s.updQueue k f).host = s.host := rfl
@[simp] theorem State.updQueue_hostErrs (k : Nat) (f : Queue → Queue) : (s.updQueue k f).hostErrs = s.hostErrs := rfl
@[simp] theorem State.updQueue_moves (k : Nat) (f : Queue → Queue) : (s.updQueue k f).moves = s.moves := rfl
@[simp] theorem State.updQueue_budget (k : Nat) (f : Queue → Queue) : (s.updQueue k f).budget = s.budget := rfl
@[simp] theorem State.updQueue_lookAside (k : Nat) (f : Queue → Queue) : (s.updQueue k f).lookAside = s.lookAside := rfl
@[simp] theorem State.updQueue_glnHit (k : Nat) (f : Queue → Queue) : (s.updQueue k f).glnHit = s.glnHit := rfl
@[simp] theorem State.updQueue_glnMiss (k : Nat) (f : Queue → Queue) : (s.updQueue k f).glnMiss = s.glnMiss := rfl
@[simp] theorem State.updQueue_glnBad (k : Nat) (f : Queue → Queue) : (s.updQueue k f).glnBad = s.glnBad := rfl
@[simp] theorem State.updQueue_ringHome (k : Nat) (f : Queue → Queue) : (s.updQueue k f).ringHome = s.ringHome := rfl
@[simp] theorem State.updQueue_streams (k : Nat) (f : Queue → Queue) : (s.updQueue k f).streams = s.streams := rfl
@[simp] theorem State.updQueue_lateSc (k : Nat) (f : Queue → Queue) : (s.updQueue k f).lateSc = s.lateSc := rfl
@[simp] theorem State.updQueue_orphans (k : Nat) (f : Queue → Queue) : (s.updQueue k f).orphans = s.orphans := rfl
@[simp] theorem State.updQueue_restarting (k : Nat) (f : Queue → Queue) : (s.updQueue k f).restarting = s.restarting := rfl
@[simp] theorem State.updQueue_queues (k : Nat) (f : Queue → Queue) : (s.updQueue k f).queues = s.queues.set k (f (s.queue k)) := rfl
@[simp] theorem State.updQueue_exports (k : Nat) (f : Queue → Queue) : (s.updQueue k f).exports = s.exports := rfl
@[simp] theorem State.updQueue_openings (k : Nat) (f : Queue → Queue) : (s.updQueue k f).openings = s.openings := rfl
@[simp] theorem State.updQueue_turn (k : Nat) (f : Queue → Queue) : (s.updQueue k f).turn = s.turn := rfl
@[simp] theorem State.updQueue_staging (k : Nat) (f : Queue → Queue) : (s.updQueue k f).staging = s.staging := rfl
@[simp] theorem State.updQueue_stagingDue (k : Nat) (f : Queue → Queue) : (s.updQueue k f).stagingDue = s.stagingDue := rfl
@[simp] theorem State.updQueue_msixOn (k : Nat) (f : Queue → Queue) : (s.updQueue k f).msixOn = s.msixOn := rfl
@[simp] theorem State.updQueue_msixMask (k : Nat) (f : Queue → Queue) : (s.updQueue k f).msixMask = s.msixMask := rfl
@[simp] theorem State.updQueue_logSeq (k : Nat) (f : Queue → Queue) : (s.updQueue k f).logSeq = s.logSeq := rfl
@[simp] theorem State.updQueue_alertLow (k : Nat) (f : Queue → Queue) : (s.updQueue k f).alertLow = s.alertLow := rfl
@[simp] theorem State.updQueue_alertAt (k : Nat) (f : Queue → Queue) : (s.updQueue k f).alertAt = s.alertAt := rfl
@[simp] theorem State.updQueue_diagLow (k : Nat) (f : Queue → Queue) : (s.updQueue k f).diagLow = s.diagLow := rfl
@[simp] theorem State.updQueue_diagAt (k : Nat) (f : Queue → Queue) : (s.updQueue k f).diagAt = s.diagAt := rfl
@[simp] theorem State.updQueue_ports (k : Nat) (f : Queue → Queue) : (s.updQueue k f).ports = s.ports := rfl
@[simp] theorem State.updQueue_lostIncarn (k : Nat) (f : Queue → Queue) : (s.updQueue k f).lostIncarn = s.lostIncarn := rfl
@[simp] theorem State.updQueue_lossDue (k : Nat) (f : Queue → Queue) : (s.updQueue k f).lossDue = s.lossDue := rfl
@[simp] theorem State.updQueue_grants (k : Nat) (f : Queue → Queue) : (s.updQueue k f).grants = s.grants := rfl
@[simp] theorem State.updQueue_rxMoves (k : Nat) (f : Queue → Queue) : (s.updQueue k f).rxMoves = s.rxMoves := rfl
@[simp] theorem State.updQueue_txMoves (k : Nat) (f : Queue → Queue) : (s.updQueue k f).txMoves = s.txMoves := rfl
@[simp] theorem State.updQueue_nextMoveId (k : Nat) (f : Queue → Queue) : (s.updQueue k f).nextMoveId = s.nextMoveId := rfl
@[simp] theorem State.updQueue_pullsDue (k : Nat) (f : Queue → Queue) : (s.updQueue k f).pullsDue = s.pullsDue := rfl
@[simp] theorem State.updQueue_migrations (k : Nat) (f : Queue → Queue) : (s.updQueue k f).migrations = s.migrations := rfl
@[simp] theorem State.updQueue_power (k : Nat) (f : Queue → Queue) : (s.updQueue k f).power = s.power := rfl
@[simp] theorem State.updQueue_audio (k : Nat) (f : Queue → Queue) : (s.updQueue k f).audio = s.audio := rfl
@[simp] theorem State.updQueue_cam (k : Nat) (f : Queue → Queue) : (s.updQueue k f).cam = s.cam := rfl
@[simp] theorem State.updQueue_aon (k : Nat) (f : Queue → Queue) : (s.updQueue k f).aon = s.aon := rfl
@[simp] theorem State.updQueue_nv (k : Nat) (f : Queue → Queue) : (s.updQueue k f).nv = s.nv := rfl
@[simp] theorem State.updQueue_hsp (k : Nat) (f : Queue → Queue) : (s.updQueue k f).hsp = s.hsp := rfl
@[simp] theorem State.updQueue_psp (k : Nat) (f : Queue → Queue) : (s.updQueue k f).psp = s.psp := rfl
@[simp] theorem State.updQueue_jtag (k : Nat) (f : Queue → Queue) : (s.updQueue k f).jtag = s.jtag := rfl
@[simp] theorem State.updQueue_firstRestart (k : Nat) (f : Queue → Queue) : (s.updQueue k f).firstRestart = s.firstRestart := rfl
@[simp] theorem State.updQueue_firmwareAt (k : Nat) (f : Queue → Queue) : (s.updQueue k f).firmwareAt = s.firmwareAt := rfl
@[simp] theorem State.updQueue_sent (k : Nat) (f : Queue → Queue) : (s.updQueue k f).sent = s.sent := rfl

/-! ### `State.updPort` -/

@[simp] theorem State.updPort_pending (k : Nat) (f : Port → Port) : (s.updPort k f).pending = s.pending := rfl
@[simp] theorem State.updPort_free (k : Nat) (f : Port → Port) : (s.updPort k f).free = s.free := rfl
@[simp] theorem State.updPort_now (k : Nat) (f : Port → Port) : (s.updPort k f).now = s.now := rfl
@[simp] theorem State.updPort_regs (k : Nat) (f : Port → Port) : (s.updPort k f).regs = s.regs := rfl
@[simp] theorem State.updPort_rwtHeld (k : Nat) (f : Port → Port) : (s.updPort k f).rwtHeld = s.rwtHeld := rfl
@[simp] theorem State.updPort_hiLatch (k : Nat) (f : Port → Port) : (s.updPort k f).hiLatch = s.hiLatch := rfl
@[simp] theorem State.updPort_lowHeld (k : Nat) (f : Port → Port) : (s.updPort k f).lowHeld = s.lowHeld := rfl
@[simp] theorem State.updPort_tick (k : Nat) (f : Port → Port) : (s.updPort k f).tick = s.tick := rfl
@[simp] theorem State.updPort_active (k : Nat) (f : Port → Port) : (s.updPort k f).active = s.active := rfl
@[simp] theorem State.updPort_pendingPlan (k : Nat) (f : Port → Port) : (s.updPort k f).pendingPlan = s.pendingPlan := rfl
@[simp] theorem State.updPort_activating (k : Nat) (f : Port → Port) : (s.updPort k f).activating = s.activating := rfl
@[simp] theorem State.updPort_load (k : Nat) (f : Port → Port) : (s.updPort k f).load = s.load := rfl
@[simp] theorem State.updPort_deactivate (k : Nat) (f : Port → Port) : (s.updPort k f).deactivate = s.deactivate := rfl
@[simp] theorem State.updPort_engs (k : Nat) (f : Port → Port) : (s.updPort k f).engs = s.engs := rfl
@[simp] theorem State.updPort_posts (k : Nat) (f : Port → Port) : (s.updPort k f).posts = s.posts := rfl
@[simp] theorem State.updPort_nextKnots (k : Nat) (f : Port → Port) : (s.updPort k f).nextKnots = s.nextKnots := rfl
@[simp] theorem State.updPort_banks (k : Nat) (f : Port → Port) : (s.updPort k f).banks = s.banks := rfl
@[simp] theorem State.updPort_bankFlips (k : Nat) (f : Port → Port) : (s.updPort k f).bankFlips = s.bankFlips := rfl
@[simp] theorem State.updPort_rows (k : Nat) (f : Port → Port) : (s.updPort k f).rows = s.rows := rfl
@[simp] theorem State.updPort_nextRows (k : Nat) (f : Port → Port) : (s.updPort k f).nextRows = s.nextRows := rfl
@[simp] theorem State.updPort_unreadRows (k : Nat) (f : Port → Port) : (s.updPort k f).unreadRows = s.unreadRows := rfl
@[simp] theorem State.updPort_unreadAll (k : Nat) (f : Port → Port) : (s.updPort k f).unreadAll = s.unreadAll := rfl
@[simp] theorem State.updPort_resultsDone (k : Nat) (f : Port → Port) : (s.updPort k f).resultsDone = s.resultsDone := rfl
@[simp] theorem State.updPort_t0 (k : Nat) (f : Port → Port) : (s.updPort k f).t0 = s.t0 := rfl
@[simp] theorem State.updPort_t0Poison (k : Nat) (f : Port → Port) : (s.updPort k f).t0Poison = s.t0Poison := rfl
@[simp] theorem State.updPort_t0Flips (k : Nat) (f : Port → Port) : (s.updPort k f).t0Flips = s.t0Flips := rfl
@[simp] theorem State.updPort_writeBack (k : Nat) (f : Port → Port) : (s.updPort k f).writeBack = s.writeBack := rfl
@[simp] theorem State.updPort_scrubAt (k : Nat) (f : Port → Port) : (s.updPort k f).scrubAt = s.scrubAt := rfl
@[simp] theorem State.updPort_t1 (k : Nat) (f : Port → Port) : (s.updPort k f).t1 = s.t1 := rfl
@[simp] theorem State.updPort_t1Read (k : Nat) (f : Port → Port) : (s.updPort k f).t1Read = s.t1Read := rfl
@[simp] theorem State.updPort_t1Write (k : Nat) (f : Port → Port) : (s.updPort k f).t1Write = s.t1Write := rfl
@[simp] theorem State.updPort_host (k : Nat) (f : Port → Port) : (s.updPort k f).host = s.host := rfl
@[simp] theorem State.updPort_hostErrs (k : Nat) (f : Port → Port) : (s.updPort k f).hostErrs = s.hostErrs := rfl
@[simp] theorem State.updPort_moves (k : Nat) (f : Port → Port) : (s.updPort k f).moves = s.moves := rfl
@[simp] theorem State.updPort_budget (k : Nat) (f : Port → Port) : (s.updPort k f).budget = s.budget := rfl
@[simp] theorem State.updPort_lookAside (k : Nat) (f : Port → Port) : (s.updPort k f).lookAside = s.lookAside := rfl
@[simp] theorem State.updPort_glnHit (k : Nat) (f : Port → Port) : (s.updPort k f).glnHit = s.glnHit := rfl
@[simp] theorem State.updPort_glnMiss (k : Nat) (f : Port → Port) : (s.updPort k f).glnMiss = s.glnMiss := rfl
@[simp] theorem State.updPort_glnBad (k : Nat) (f : Port → Port) : (s.updPort k f).glnBad = s.glnBad := rfl
@[simp] theorem State.updPort_ringHome (k : Nat) (f : Port → Port) : (s.updPort k f).ringHome = s.ringHome := rfl
@[simp] theorem State.updPort_streams (k : Nat) (f : Port → Port) : (s.updPort k f).streams = s.streams := rfl
@[simp] theorem State.updPort_lateSc (k : Nat) (f : Port → Port) : (s.updPort k f).lateSc = s.lateSc := rfl
@[simp] theorem State.updPort_orphans (k : Nat) (f : Port → Port) : (s.updPort k f).orphans = s.orphans := rfl
@[simp] theorem State.updPort_restarting (k : Nat) (f : Port → Port) : (s.updPort k f).restarting = s.restarting := rfl
@[simp] theorem State.updPort_queues (k : Nat) (f : Port → Port) : (s.updPort k f).queues = s.queues := rfl
@[simp] theorem State.updPort_exports (k : Nat) (f : Port → Port) : (s.updPort k f).exports = s.exports := rfl
@[simp] theorem State.updPort_openings (k : Nat) (f : Port → Port) : (s.updPort k f).openings = s.openings := rfl
@[simp] theorem State.updPort_turn (k : Nat) (f : Port → Port) : (s.updPort k f).turn = s.turn := rfl
@[simp] theorem State.updPort_staging (k : Nat) (f : Port → Port) : (s.updPort k f).staging = s.staging := rfl
@[simp] theorem State.updPort_stagingDue (k : Nat) (f : Port → Port) : (s.updPort k f).stagingDue = s.stagingDue := rfl
@[simp] theorem State.updPort_msixOn (k : Nat) (f : Port → Port) : (s.updPort k f).msixOn = s.msixOn := rfl
@[simp] theorem State.updPort_msixMask (k : Nat) (f : Port → Port) : (s.updPort k f).msixMask = s.msixMask := rfl
@[simp] theorem State.updPort_logSeq (k : Nat) (f : Port → Port) : (s.updPort k f).logSeq = s.logSeq := rfl
@[simp] theorem State.updPort_alertLow (k : Nat) (f : Port → Port) : (s.updPort k f).alertLow = s.alertLow := rfl
@[simp] theorem State.updPort_alertAt (k : Nat) (f : Port → Port) : (s.updPort k f).alertAt = s.alertAt := rfl
@[simp] theorem State.updPort_diagLow (k : Nat) (f : Port → Port) : (s.updPort k f).diagLow = s.diagLow := rfl
@[simp] theorem State.updPort_diagAt (k : Nat) (f : Port → Port) : (s.updPort k f).diagAt = s.diagAt := rfl
@[simp] theorem State.updPort_ports (k : Nat) (f : Port → Port) : (s.updPort k f).ports = s.ports.set k (f (s.port k)) := rfl
@[simp] theorem State.updPort_lostIncarn (k : Nat) (f : Port → Port) : (s.updPort k f).lostIncarn = s.lostIncarn := rfl
@[simp] theorem State.updPort_lossDue (k : Nat) (f : Port → Port) : (s.updPort k f).lossDue = s.lossDue := rfl
@[simp] theorem State.updPort_grants (k : Nat) (f : Port → Port) : (s.updPort k f).grants = s.grants := rfl
@[simp] theorem State.updPort_rxMoves (k : Nat) (f : Port → Port) : (s.updPort k f).rxMoves = s.rxMoves := rfl
@[simp] theorem State.updPort_txMoves (k : Nat) (f : Port → Port) : (s.updPort k f).txMoves = s.txMoves := rfl
@[simp] theorem State.updPort_nextMoveId (k : Nat) (f : Port → Port) : (s.updPort k f).nextMoveId = s.nextMoveId := rfl
@[simp] theorem State.updPort_pullsDue (k : Nat) (f : Port → Port) : (s.updPort k f).pullsDue = s.pullsDue := rfl
@[simp] theorem State.updPort_migrations (k : Nat) (f : Port → Port) : (s.updPort k f).migrations = s.migrations := rfl
@[simp] theorem State.updPort_power (k : Nat) (f : Port → Port) : (s.updPort k f).power = s.power := rfl
@[simp] theorem State.updPort_audio (k : Nat) (f : Port → Port) : (s.updPort k f).audio = s.audio := rfl
@[simp] theorem State.updPort_cam (k : Nat) (f : Port → Port) : (s.updPort k f).cam = s.cam := rfl
@[simp] theorem State.updPort_aon (k : Nat) (f : Port → Port) : (s.updPort k f).aon = s.aon := rfl
@[simp] theorem State.updPort_nv (k : Nat) (f : Port → Port) : (s.updPort k f).nv = s.nv := rfl
@[simp] theorem State.updPort_hsp (k : Nat) (f : Port → Port) : (s.updPort k f).hsp = s.hsp := rfl
@[simp] theorem State.updPort_psp (k : Nat) (f : Port → Port) : (s.updPort k f).psp = s.psp := rfl
@[simp] theorem State.updPort_jtag (k : Nat) (f : Port → Port) : (s.updPort k f).jtag = s.jtag := rfl
@[simp] theorem State.updPort_firstRestart (k : Nat) (f : Port → Port) : (s.updPort k f).firstRestart = s.firstRestart := rfl
@[simp] theorem State.updPort_firmwareAt (k : Nat) (f : Port → Port) : (s.updPort k f).firmwareAt = s.firmwareAt := rfl
@[simp] theorem State.updPort_sent (k : Nat) (f : Port → Port) : (s.updPort k f).sent = s.sent := rfl

/-! ### `State.updTick` -/

@[simp] theorem State.updTick_pending (f : TickState → TickState) : (s.updTick f).pending = s.pending := rfl
@[simp] theorem State.updTick_free (f : TickState → TickState) : (s.updTick f).free = s.free := rfl
@[simp] theorem State.updTick_now (f : TickState → TickState) : (s.updTick f).now = s.now := rfl
@[simp] theorem State.updTick_regs (f : TickState → TickState) : (s.updTick f).regs = s.regs := rfl
@[simp] theorem State.updTick_rwtHeld (f : TickState → TickState) : (s.updTick f).rwtHeld = s.rwtHeld := rfl
@[simp] theorem State.updTick_hiLatch (f : TickState → TickState) : (s.updTick f).hiLatch = s.hiLatch := rfl
@[simp] theorem State.updTick_lowHeld (f : TickState → TickState) : (s.updTick f).lowHeld = s.lowHeld := rfl
@[simp] theorem State.updTick_tick (f : TickState → TickState) : (s.updTick f).tick = f s.tick := rfl
@[simp] theorem State.updTick_active (f : TickState → TickState) : (s.updTick f).active = s.active := rfl
@[simp] theorem State.updTick_pendingPlan (f : TickState → TickState) : (s.updTick f).pendingPlan = s.pendingPlan := rfl
@[simp] theorem State.updTick_activating (f : TickState → TickState) : (s.updTick f).activating = s.activating := rfl
@[simp] theorem State.updTick_load (f : TickState → TickState) : (s.updTick f).load = s.load := rfl
@[simp] theorem State.updTick_deactivate (f : TickState → TickState) : (s.updTick f).deactivate = s.deactivate := rfl
@[simp] theorem State.updTick_engs (f : TickState → TickState) : (s.updTick f).engs = s.engs := rfl
@[simp] theorem State.updTick_posts (f : TickState → TickState) : (s.updTick f).posts = s.posts := rfl
@[simp] theorem State.updTick_nextKnots (f : TickState → TickState) : (s.updTick f).nextKnots = s.nextKnots := rfl
@[simp] theorem State.updTick_banks (f : TickState → TickState) : (s.updTick f).banks = s.banks := rfl
@[simp] theorem State.updTick_bankFlips (f : TickState → TickState) : (s.updTick f).bankFlips = s.bankFlips := rfl
@[simp] theorem State.updTick_rows (f : TickState → TickState) : (s.updTick f).rows = s.rows := rfl
@[simp] theorem State.updTick_nextRows (f : TickState → TickState) : (s.updTick f).nextRows = s.nextRows := rfl
@[simp] theorem State.updTick_unreadRows (f : TickState → TickState) : (s.updTick f).unreadRows = s.unreadRows := rfl
@[simp] theorem State.updTick_unreadAll (f : TickState → TickState) : (s.updTick f).unreadAll = s.unreadAll := rfl
@[simp] theorem State.updTick_resultsDone (f : TickState → TickState) : (s.updTick f).resultsDone = s.resultsDone := rfl
@[simp] theorem State.updTick_t0 (f : TickState → TickState) : (s.updTick f).t0 = s.t0 := rfl
@[simp] theorem State.updTick_t0Poison (f : TickState → TickState) : (s.updTick f).t0Poison = s.t0Poison := rfl
@[simp] theorem State.updTick_t0Flips (f : TickState → TickState) : (s.updTick f).t0Flips = s.t0Flips := rfl
@[simp] theorem State.updTick_writeBack (f : TickState → TickState) : (s.updTick f).writeBack = s.writeBack := rfl
@[simp] theorem State.updTick_scrubAt (f : TickState → TickState) : (s.updTick f).scrubAt = s.scrubAt := rfl
@[simp] theorem State.updTick_t1 (f : TickState → TickState) : (s.updTick f).t1 = s.t1 := rfl
@[simp] theorem State.updTick_t1Read (f : TickState → TickState) : (s.updTick f).t1Read = s.t1Read := rfl
@[simp] theorem State.updTick_t1Write (f : TickState → TickState) : (s.updTick f).t1Write = s.t1Write := rfl
@[simp] theorem State.updTick_host (f : TickState → TickState) : (s.updTick f).host = s.host := rfl
@[simp] theorem State.updTick_hostErrs (f : TickState → TickState) : (s.updTick f).hostErrs = s.hostErrs := rfl
@[simp] theorem State.updTick_moves (f : TickState → TickState) : (s.updTick f).moves = s.moves := rfl
@[simp] theorem State.updTick_budget (f : TickState → TickState) : (s.updTick f).budget = s.budget := rfl
@[simp] theorem State.updTick_lookAside (f : TickState → TickState) : (s.updTick f).lookAside = s.lookAside := rfl
@[simp] theorem State.updTick_glnHit (f : TickState → TickState) : (s.updTick f).glnHit = s.glnHit := rfl
@[simp] theorem State.updTick_glnMiss (f : TickState → TickState) : (s.updTick f).glnMiss = s.glnMiss := rfl
@[simp] theorem State.updTick_glnBad (f : TickState → TickState) : (s.updTick f).glnBad = s.glnBad := rfl
@[simp] theorem State.updTick_ringHome (f : TickState → TickState) : (s.updTick f).ringHome = s.ringHome := rfl
@[simp] theorem State.updTick_streams (f : TickState → TickState) : (s.updTick f).streams = s.streams := rfl
@[simp] theorem State.updTick_lateSc (f : TickState → TickState) : (s.updTick f).lateSc = s.lateSc := rfl
@[simp] theorem State.updTick_orphans (f : TickState → TickState) : (s.updTick f).orphans = s.orphans := rfl
@[simp] theorem State.updTick_restarting (f : TickState → TickState) : (s.updTick f).restarting = s.restarting := rfl
@[simp] theorem State.updTick_queues (f : TickState → TickState) : (s.updTick f).queues = s.queues := rfl
@[simp] theorem State.updTick_exports (f : TickState → TickState) : (s.updTick f).exports = s.exports := rfl
@[simp] theorem State.updTick_openings (f : TickState → TickState) : (s.updTick f).openings = s.openings := rfl
@[simp] theorem State.updTick_turn (f : TickState → TickState) : (s.updTick f).turn = s.turn := rfl
@[simp] theorem State.updTick_staging (f : TickState → TickState) : (s.updTick f).staging = s.staging := rfl
@[simp] theorem State.updTick_stagingDue (f : TickState → TickState) : (s.updTick f).stagingDue = s.stagingDue := rfl
@[simp] theorem State.updTick_msixOn (f : TickState → TickState) : (s.updTick f).msixOn = s.msixOn := rfl
@[simp] theorem State.updTick_msixMask (f : TickState → TickState) : (s.updTick f).msixMask = s.msixMask := rfl
@[simp] theorem State.updTick_logSeq (f : TickState → TickState) : (s.updTick f).logSeq = s.logSeq := rfl
@[simp] theorem State.updTick_alertLow (f : TickState → TickState) : (s.updTick f).alertLow = s.alertLow := rfl
@[simp] theorem State.updTick_alertAt (f : TickState → TickState) : (s.updTick f).alertAt = s.alertAt := rfl
@[simp] theorem State.updTick_diagLow (f : TickState → TickState) : (s.updTick f).diagLow = s.diagLow := rfl
@[simp] theorem State.updTick_diagAt (f : TickState → TickState) : (s.updTick f).diagAt = s.diagAt := rfl
@[simp] theorem State.updTick_ports (f : TickState → TickState) : (s.updTick f).ports = s.ports := rfl
@[simp] theorem State.updTick_lostIncarn (f : TickState → TickState) : (s.updTick f).lostIncarn = s.lostIncarn := rfl
@[simp] theorem State.updTick_lossDue (f : TickState → TickState) : (s.updTick f).lossDue = s.lossDue := rfl
@[simp] theorem State.updTick_grants (f : TickState → TickState) : (s.updTick f).grants = s.grants := rfl
@[simp] theorem State.updTick_rxMoves (f : TickState → TickState) : (s.updTick f).rxMoves = s.rxMoves := rfl
@[simp] theorem State.updTick_txMoves (f : TickState → TickState) : (s.updTick f).txMoves = s.txMoves := rfl
@[simp] theorem State.updTick_nextMoveId (f : TickState → TickState) : (s.updTick f).nextMoveId = s.nextMoveId := rfl
@[simp] theorem State.updTick_pullsDue (f : TickState → TickState) : (s.updTick f).pullsDue = s.pullsDue := rfl
@[simp] theorem State.updTick_migrations (f : TickState → TickState) : (s.updTick f).migrations = s.migrations := rfl
@[simp] theorem State.updTick_power (f : TickState → TickState) : (s.updTick f).power = s.power := rfl
@[simp] theorem State.updTick_audio (f : TickState → TickState) : (s.updTick f).audio = s.audio := rfl
@[simp] theorem State.updTick_cam (f : TickState → TickState) : (s.updTick f).cam = s.cam := rfl
@[simp] theorem State.updTick_aon (f : TickState → TickState) : (s.updTick f).aon = s.aon := rfl
@[simp] theorem State.updTick_nv (f : TickState → TickState) : (s.updTick f).nv = s.nv := rfl
@[simp] theorem State.updTick_hsp (f : TickState → TickState) : (s.updTick f).hsp = s.hsp := rfl
@[simp] theorem State.updTick_psp (f : TickState → TickState) : (s.updTick f).psp = s.psp := rfl
@[simp] theorem State.updTick_jtag (f : TickState → TickState) : (s.updTick f).jtag = s.jtag := rfl
@[simp] theorem State.updTick_firstRestart (f : TickState → TickState) : (s.updTick f).firstRestart = s.firstRestart := rfl
@[simp] theorem State.updTick_firmwareAt (f : TickState → TickState) : (s.updTick f).firmwareAt = s.firmwareAt := rfl
@[simp] theorem State.updTick_sent (f : TickState → TickState) : (s.updTick f).sent = s.sent := rfl

/-! ### `State.updPwr` -/

@[simp] theorem State.updPwr_pending (f : PowerState → PowerState) : (s.updPwr f).pending = s.pending := rfl
@[simp] theorem State.updPwr_free (f : PowerState → PowerState) : (s.updPwr f).free = s.free := rfl
@[simp] theorem State.updPwr_now (f : PowerState → PowerState) : (s.updPwr f).now = s.now := rfl
@[simp] theorem State.updPwr_regs (f : PowerState → PowerState) : (s.updPwr f).regs = s.regs := rfl
@[simp] theorem State.updPwr_rwtHeld (f : PowerState → PowerState) : (s.updPwr f).rwtHeld = s.rwtHeld := rfl
@[simp] theorem State.updPwr_hiLatch (f : PowerState → PowerState) : (s.updPwr f).hiLatch = s.hiLatch := rfl
@[simp] theorem State.updPwr_lowHeld (f : PowerState → PowerState) : (s.updPwr f).lowHeld = s.lowHeld := rfl
@[simp] theorem State.updPwr_tick (f : PowerState → PowerState) : (s.updPwr f).tick = s.tick := rfl
@[simp] theorem State.updPwr_active (f : PowerState → PowerState) : (s.updPwr f).active = s.active := rfl
@[simp] theorem State.updPwr_pendingPlan (f : PowerState → PowerState) : (s.updPwr f).pendingPlan = s.pendingPlan := rfl
@[simp] theorem State.updPwr_activating (f : PowerState → PowerState) : (s.updPwr f).activating = s.activating := rfl
@[simp] theorem State.updPwr_load (f : PowerState → PowerState) : (s.updPwr f).load = s.load := rfl
@[simp] theorem State.updPwr_deactivate (f : PowerState → PowerState) : (s.updPwr f).deactivate = s.deactivate := rfl
@[simp] theorem State.updPwr_engs (f : PowerState → PowerState) : (s.updPwr f).engs = s.engs := rfl
@[simp] theorem State.updPwr_posts (f : PowerState → PowerState) : (s.updPwr f).posts = s.posts := rfl
@[simp] theorem State.updPwr_nextKnots (f : PowerState → PowerState) : (s.updPwr f).nextKnots = s.nextKnots := rfl
@[simp] theorem State.updPwr_banks (f : PowerState → PowerState) : (s.updPwr f).banks = s.banks := rfl
@[simp] theorem State.updPwr_bankFlips (f : PowerState → PowerState) : (s.updPwr f).bankFlips = s.bankFlips := rfl
@[simp] theorem State.updPwr_rows (f : PowerState → PowerState) : (s.updPwr f).rows = s.rows := rfl
@[simp] theorem State.updPwr_nextRows (f : PowerState → PowerState) : (s.updPwr f).nextRows = s.nextRows := rfl
@[simp] theorem State.updPwr_unreadRows (f : PowerState → PowerState) : (s.updPwr f).unreadRows = s.unreadRows := rfl
@[simp] theorem State.updPwr_unreadAll (f : PowerState → PowerState) : (s.updPwr f).unreadAll = s.unreadAll := rfl
@[simp] theorem State.updPwr_resultsDone (f : PowerState → PowerState) : (s.updPwr f).resultsDone = s.resultsDone := rfl
@[simp] theorem State.updPwr_t0 (f : PowerState → PowerState) : (s.updPwr f).t0 = s.t0 := rfl
@[simp] theorem State.updPwr_t0Poison (f : PowerState → PowerState) : (s.updPwr f).t0Poison = s.t0Poison := rfl
@[simp] theorem State.updPwr_t0Flips (f : PowerState → PowerState) : (s.updPwr f).t0Flips = s.t0Flips := rfl
@[simp] theorem State.updPwr_writeBack (f : PowerState → PowerState) : (s.updPwr f).writeBack = s.writeBack := rfl
@[simp] theorem State.updPwr_scrubAt (f : PowerState → PowerState) : (s.updPwr f).scrubAt = s.scrubAt := rfl
@[simp] theorem State.updPwr_t1 (f : PowerState → PowerState) : (s.updPwr f).t1 = s.t1 := rfl
@[simp] theorem State.updPwr_t1Read (f : PowerState → PowerState) : (s.updPwr f).t1Read = s.t1Read := rfl
@[simp] theorem State.updPwr_t1Write (f : PowerState → PowerState) : (s.updPwr f).t1Write = s.t1Write := rfl
@[simp] theorem State.updPwr_host (f : PowerState → PowerState) : (s.updPwr f).host = s.host := rfl
@[simp] theorem State.updPwr_hostErrs (f : PowerState → PowerState) : (s.updPwr f).hostErrs = s.hostErrs := rfl
@[simp] theorem State.updPwr_moves (f : PowerState → PowerState) : (s.updPwr f).moves = s.moves := rfl
@[simp] theorem State.updPwr_budget (f : PowerState → PowerState) : (s.updPwr f).budget = s.budget := rfl
@[simp] theorem State.updPwr_lookAside (f : PowerState → PowerState) : (s.updPwr f).lookAside = s.lookAside := rfl
@[simp] theorem State.updPwr_glnHit (f : PowerState → PowerState) : (s.updPwr f).glnHit = s.glnHit := rfl
@[simp] theorem State.updPwr_glnMiss (f : PowerState → PowerState) : (s.updPwr f).glnMiss = s.glnMiss := rfl
@[simp] theorem State.updPwr_glnBad (f : PowerState → PowerState) : (s.updPwr f).glnBad = s.glnBad := rfl
@[simp] theorem State.updPwr_ringHome (f : PowerState → PowerState) : (s.updPwr f).ringHome = s.ringHome := rfl
@[simp] theorem State.updPwr_streams (f : PowerState → PowerState) : (s.updPwr f).streams = s.streams := rfl
@[simp] theorem State.updPwr_lateSc (f : PowerState → PowerState) : (s.updPwr f).lateSc = s.lateSc := rfl
@[simp] theorem State.updPwr_orphans (f : PowerState → PowerState) : (s.updPwr f).orphans = s.orphans := rfl
@[simp] theorem State.updPwr_restarting (f : PowerState → PowerState) : (s.updPwr f).restarting = s.restarting := rfl
@[simp] theorem State.updPwr_queues (f : PowerState → PowerState) : (s.updPwr f).queues = s.queues := rfl
@[simp] theorem State.updPwr_exports (f : PowerState → PowerState) : (s.updPwr f).exports = s.exports := rfl
@[simp] theorem State.updPwr_openings (f : PowerState → PowerState) : (s.updPwr f).openings = s.openings := rfl
@[simp] theorem State.updPwr_turn (f : PowerState → PowerState) : (s.updPwr f).turn = s.turn := rfl
@[simp] theorem State.updPwr_staging (f : PowerState → PowerState) : (s.updPwr f).staging = s.staging := rfl
@[simp] theorem State.updPwr_stagingDue (f : PowerState → PowerState) : (s.updPwr f).stagingDue = s.stagingDue := rfl
@[simp] theorem State.updPwr_msixOn (f : PowerState → PowerState) : (s.updPwr f).msixOn = s.msixOn := rfl
@[simp] theorem State.updPwr_msixMask (f : PowerState → PowerState) : (s.updPwr f).msixMask = s.msixMask := rfl
@[simp] theorem State.updPwr_logSeq (f : PowerState → PowerState) : (s.updPwr f).logSeq = s.logSeq := rfl
@[simp] theorem State.updPwr_alertLow (f : PowerState → PowerState) : (s.updPwr f).alertLow = s.alertLow := rfl
@[simp] theorem State.updPwr_alertAt (f : PowerState → PowerState) : (s.updPwr f).alertAt = s.alertAt := rfl
@[simp] theorem State.updPwr_diagLow (f : PowerState → PowerState) : (s.updPwr f).diagLow = s.diagLow := rfl
@[simp] theorem State.updPwr_diagAt (f : PowerState → PowerState) : (s.updPwr f).diagAt = s.diagAt := rfl
@[simp] theorem State.updPwr_ports (f : PowerState → PowerState) : (s.updPwr f).ports = s.ports := rfl
@[simp] theorem State.updPwr_lostIncarn (f : PowerState → PowerState) : (s.updPwr f).lostIncarn = s.lostIncarn := rfl
@[simp] theorem State.updPwr_lossDue (f : PowerState → PowerState) : (s.updPwr f).lossDue = s.lossDue := rfl
@[simp] theorem State.updPwr_grants (f : PowerState → PowerState) : (s.updPwr f).grants = s.grants := rfl
@[simp] theorem State.updPwr_rxMoves (f : PowerState → PowerState) : (s.updPwr f).rxMoves = s.rxMoves := rfl
@[simp] theorem State.updPwr_txMoves (f : PowerState → PowerState) : (s.updPwr f).txMoves = s.txMoves := rfl
@[simp] theorem State.updPwr_nextMoveId (f : PowerState → PowerState) : (s.updPwr f).nextMoveId = s.nextMoveId := rfl
@[simp] theorem State.updPwr_pullsDue (f : PowerState → PowerState) : (s.updPwr f).pullsDue = s.pullsDue := rfl
@[simp] theorem State.updPwr_migrations (f : PowerState → PowerState) : (s.updPwr f).migrations = s.migrations := rfl
@[simp] theorem State.updPwr_power (f : PowerState → PowerState) : (s.updPwr f).power = f s.power := rfl
@[simp] theorem State.updPwr_audio (f : PowerState → PowerState) : (s.updPwr f).audio = s.audio := rfl
@[simp] theorem State.updPwr_cam (f : PowerState → PowerState) : (s.updPwr f).cam = s.cam := rfl
@[simp] theorem State.updPwr_aon (f : PowerState → PowerState) : (s.updPwr f).aon = s.aon := rfl
@[simp] theorem State.updPwr_nv (f : PowerState → PowerState) : (s.updPwr f).nv = s.nv := rfl
@[simp] theorem State.updPwr_hsp (f : PowerState → PowerState) : (s.updPwr f).hsp = s.hsp := rfl
@[simp] theorem State.updPwr_psp (f : PowerState → PowerState) : (s.updPwr f).psp = s.psp := rfl
@[simp] theorem State.updPwr_jtag (f : PowerState → PowerState) : (s.updPwr f).jtag = s.jtag := rfl
@[simp] theorem State.updPwr_firstRestart (f : PowerState → PowerState) : (s.updPwr f).firstRestart = s.firstRestart := rfl
@[simp] theorem State.updPwr_firmwareAt (f : PowerState → PowerState) : (s.updPwr f).firmwareAt = s.firmwareAt := rfl
@[simp] theorem State.updPwr_sent (f : PowerState → PowerState) : (s.updPwr f).sent = s.sent := rfl

/-! ### `State.updAon` -/

@[simp] theorem State.updAon_pending (f : AonState → AonState) : (s.updAon f).pending = s.pending := rfl
@[simp] theorem State.updAon_free (f : AonState → AonState) : (s.updAon f).free = s.free := rfl
@[simp] theorem State.updAon_now (f : AonState → AonState) : (s.updAon f).now = s.now := rfl
@[simp] theorem State.updAon_regs (f : AonState → AonState) : (s.updAon f).regs = s.regs := rfl
@[simp] theorem State.updAon_rwtHeld (f : AonState → AonState) : (s.updAon f).rwtHeld = s.rwtHeld := rfl
@[simp] theorem State.updAon_hiLatch (f : AonState → AonState) : (s.updAon f).hiLatch = s.hiLatch := rfl
@[simp] theorem State.updAon_lowHeld (f : AonState → AonState) : (s.updAon f).lowHeld = s.lowHeld := rfl
@[simp] theorem State.updAon_tick (f : AonState → AonState) : (s.updAon f).tick = s.tick := rfl
@[simp] theorem State.updAon_active (f : AonState → AonState) : (s.updAon f).active = s.active := rfl
@[simp] theorem State.updAon_pendingPlan (f : AonState → AonState) : (s.updAon f).pendingPlan = s.pendingPlan := rfl
@[simp] theorem State.updAon_activating (f : AonState → AonState) : (s.updAon f).activating = s.activating := rfl
@[simp] theorem State.updAon_load (f : AonState → AonState) : (s.updAon f).load = s.load := rfl
@[simp] theorem State.updAon_deactivate (f : AonState → AonState) : (s.updAon f).deactivate = s.deactivate := rfl
@[simp] theorem State.updAon_engs (f : AonState → AonState) : (s.updAon f).engs = s.engs := rfl
@[simp] theorem State.updAon_posts (f : AonState → AonState) : (s.updAon f).posts = s.posts := rfl
@[simp] theorem State.updAon_nextKnots (f : AonState → AonState) : (s.updAon f).nextKnots = s.nextKnots := rfl
@[simp] theorem State.updAon_banks (f : AonState → AonState) : (s.updAon f).banks = s.banks := rfl
@[simp] theorem State.updAon_bankFlips (f : AonState → AonState) : (s.updAon f).bankFlips = s.bankFlips := rfl
@[simp] theorem State.updAon_rows (f : AonState → AonState) : (s.updAon f).rows = s.rows := rfl
@[simp] theorem State.updAon_nextRows (f : AonState → AonState) : (s.updAon f).nextRows = s.nextRows := rfl
@[simp] theorem State.updAon_unreadRows (f : AonState → AonState) : (s.updAon f).unreadRows = s.unreadRows := rfl
@[simp] theorem State.updAon_unreadAll (f : AonState → AonState) : (s.updAon f).unreadAll = s.unreadAll := rfl
@[simp] theorem State.updAon_resultsDone (f : AonState → AonState) : (s.updAon f).resultsDone = s.resultsDone := rfl
@[simp] theorem State.updAon_t0 (f : AonState → AonState) : (s.updAon f).t0 = s.t0 := rfl
@[simp] theorem State.updAon_t0Poison (f : AonState → AonState) : (s.updAon f).t0Poison = s.t0Poison := rfl
@[simp] theorem State.updAon_t0Flips (f : AonState → AonState) : (s.updAon f).t0Flips = s.t0Flips := rfl
@[simp] theorem State.updAon_writeBack (f : AonState → AonState) : (s.updAon f).writeBack = s.writeBack := rfl
@[simp] theorem State.updAon_scrubAt (f : AonState → AonState) : (s.updAon f).scrubAt = s.scrubAt := rfl
@[simp] theorem State.updAon_t1 (f : AonState → AonState) : (s.updAon f).t1 = s.t1 := rfl
@[simp] theorem State.updAon_t1Read (f : AonState → AonState) : (s.updAon f).t1Read = s.t1Read := rfl
@[simp] theorem State.updAon_t1Write (f : AonState → AonState) : (s.updAon f).t1Write = s.t1Write := rfl
@[simp] theorem State.updAon_host (f : AonState → AonState) : (s.updAon f).host = s.host := rfl
@[simp] theorem State.updAon_hostErrs (f : AonState → AonState) : (s.updAon f).hostErrs = s.hostErrs := rfl
@[simp] theorem State.updAon_moves (f : AonState → AonState) : (s.updAon f).moves = s.moves := rfl
@[simp] theorem State.updAon_budget (f : AonState → AonState) : (s.updAon f).budget = s.budget := rfl
@[simp] theorem State.updAon_lookAside (f : AonState → AonState) : (s.updAon f).lookAside = s.lookAside := rfl
@[simp] theorem State.updAon_glnHit (f : AonState → AonState) : (s.updAon f).glnHit = s.glnHit := rfl
@[simp] theorem State.updAon_glnMiss (f : AonState → AonState) : (s.updAon f).glnMiss = s.glnMiss := rfl
@[simp] theorem State.updAon_glnBad (f : AonState → AonState) : (s.updAon f).glnBad = s.glnBad := rfl
@[simp] theorem State.updAon_ringHome (f : AonState → AonState) : (s.updAon f).ringHome = s.ringHome := rfl
@[simp] theorem State.updAon_streams (f : AonState → AonState) : (s.updAon f).streams = s.streams := rfl
@[simp] theorem State.updAon_lateSc (f : AonState → AonState) : (s.updAon f).lateSc = s.lateSc := rfl
@[simp] theorem State.updAon_orphans (f : AonState → AonState) : (s.updAon f).orphans = s.orphans := rfl
@[simp] theorem State.updAon_restarting (f : AonState → AonState) : (s.updAon f).restarting = s.restarting := rfl
@[simp] theorem State.updAon_queues (f : AonState → AonState) : (s.updAon f).queues = s.queues := rfl
@[simp] theorem State.updAon_exports (f : AonState → AonState) : (s.updAon f).exports = s.exports := rfl
@[simp] theorem State.updAon_openings (f : AonState → AonState) : (s.updAon f).openings = s.openings := rfl
@[simp] theorem State.updAon_turn (f : AonState → AonState) : (s.updAon f).turn = s.turn := rfl
@[simp] theorem State.updAon_staging (f : AonState → AonState) : (s.updAon f).staging = s.staging := rfl
@[simp] theorem State.updAon_stagingDue (f : AonState → AonState) : (s.updAon f).stagingDue = s.stagingDue := rfl
@[simp] theorem State.updAon_msixOn (f : AonState → AonState) : (s.updAon f).msixOn = s.msixOn := rfl
@[simp] theorem State.updAon_msixMask (f : AonState → AonState) : (s.updAon f).msixMask = s.msixMask := rfl
@[simp] theorem State.updAon_logSeq (f : AonState → AonState) : (s.updAon f).logSeq = s.logSeq := rfl
@[simp] theorem State.updAon_alertLow (f : AonState → AonState) : (s.updAon f).alertLow = s.alertLow := rfl
@[simp] theorem State.updAon_alertAt (f : AonState → AonState) : (s.updAon f).alertAt = s.alertAt := rfl
@[simp] theorem State.updAon_diagLow (f : AonState → AonState) : (s.updAon f).diagLow = s.diagLow := rfl
@[simp] theorem State.updAon_diagAt (f : AonState → AonState) : (s.updAon f).diagAt = s.diagAt := rfl
@[simp] theorem State.updAon_ports (f : AonState → AonState) : (s.updAon f).ports = s.ports := rfl
@[simp] theorem State.updAon_lostIncarn (f : AonState → AonState) : (s.updAon f).lostIncarn = s.lostIncarn := rfl
@[simp] theorem State.updAon_lossDue (f : AonState → AonState) : (s.updAon f).lossDue = s.lossDue := rfl
@[simp] theorem State.updAon_grants (f : AonState → AonState) : (s.updAon f).grants = s.grants := rfl
@[simp] theorem State.updAon_rxMoves (f : AonState → AonState) : (s.updAon f).rxMoves = s.rxMoves := rfl
@[simp] theorem State.updAon_txMoves (f : AonState → AonState) : (s.updAon f).txMoves = s.txMoves := rfl
@[simp] theorem State.updAon_nextMoveId (f : AonState → AonState) : (s.updAon f).nextMoveId = s.nextMoveId := rfl
@[simp] theorem State.updAon_pullsDue (f : AonState → AonState) : (s.updAon f).pullsDue = s.pullsDue := rfl
@[simp] theorem State.updAon_migrations (f : AonState → AonState) : (s.updAon f).migrations = s.migrations := rfl
@[simp] theorem State.updAon_power (f : AonState → AonState) : (s.updAon f).power = s.power := rfl
@[simp] theorem State.updAon_audio (f : AonState → AonState) : (s.updAon f).audio = s.audio := rfl
@[simp] theorem State.updAon_cam (f : AonState → AonState) : (s.updAon f).cam = s.cam := rfl
@[simp] theorem State.updAon_aon (f : AonState → AonState) : (s.updAon f).aon = f s.aon := rfl
@[simp] theorem State.updAon_nv (f : AonState → AonState) : (s.updAon f).nv = s.nv := rfl
@[simp] theorem State.updAon_hsp (f : AonState → AonState) : (s.updAon f).hsp = s.hsp := rfl
@[simp] theorem State.updAon_psp (f : AonState → AonState) : (s.updAon f).psp = s.psp := rfl
@[simp] theorem State.updAon_jtag (f : AonState → AonState) : (s.updAon f).jtag = s.jtag := rfl
@[simp] theorem State.updAon_firstRestart (f : AonState → AonState) : (s.updAon f).firstRestart = s.firstRestart := rfl
@[simp] theorem State.updAon_firmwareAt (f : AonState → AonState) : (s.updAon f).firmwareAt = s.firmwareAt := rfl
@[simp] theorem State.updAon_sent (f : AonState → AonState) : (s.updAon f).sent = s.sent := rfl

/-! ### `State.updCam` -/

@[simp] theorem State.updCam_pending (f : CamState → CamState) : (s.updCam f).pending = s.pending := rfl
@[simp] theorem State.updCam_free (f : CamState → CamState) : (s.updCam f).free = s.free := rfl
@[simp] theorem State.updCam_now (f : CamState → CamState) : (s.updCam f).now = s.now := rfl
@[simp] theorem State.updCam_regs (f : CamState → CamState) : (s.updCam f).regs = s.regs := rfl
@[simp] theorem State.updCam_rwtHeld (f : CamState → CamState) : (s.updCam f).rwtHeld = s.rwtHeld := rfl
@[simp] theorem State.updCam_hiLatch (f : CamState → CamState) : (s.updCam f).hiLatch = s.hiLatch := rfl
@[simp] theorem State.updCam_lowHeld (f : CamState → CamState) : (s.updCam f).lowHeld = s.lowHeld := rfl
@[simp] theorem State.updCam_tick (f : CamState → CamState) : (s.updCam f).tick = s.tick := rfl
@[simp] theorem State.updCam_active (f : CamState → CamState) : (s.updCam f).active = s.active := rfl
@[simp] theorem State.updCam_pendingPlan (f : CamState → CamState) : (s.updCam f).pendingPlan = s.pendingPlan := rfl
@[simp] theorem State.updCam_activating (f : CamState → CamState) : (s.updCam f).activating = s.activating := rfl
@[simp] theorem State.updCam_load (f : CamState → CamState) : (s.updCam f).load = s.load := rfl
@[simp] theorem State.updCam_deactivate (f : CamState → CamState) : (s.updCam f).deactivate = s.deactivate := rfl
@[simp] theorem State.updCam_engs (f : CamState → CamState) : (s.updCam f).engs = s.engs := rfl
@[simp] theorem State.updCam_posts (f : CamState → CamState) : (s.updCam f).posts = s.posts := rfl
@[simp] theorem State.updCam_nextKnots (f : CamState → CamState) : (s.updCam f).nextKnots = s.nextKnots := rfl
@[simp] theorem State.updCam_banks (f : CamState → CamState) : (s.updCam f).banks = s.banks := rfl
@[simp] theorem State.updCam_bankFlips (f : CamState → CamState) : (s.updCam f).bankFlips = s.bankFlips := rfl
@[simp] theorem State.updCam_rows (f : CamState → CamState) : (s.updCam f).rows = s.rows := rfl
@[simp] theorem State.updCam_nextRows (f : CamState → CamState) : (s.updCam f).nextRows = s.nextRows := rfl
@[simp] theorem State.updCam_unreadRows (f : CamState → CamState) : (s.updCam f).unreadRows = s.unreadRows := rfl
@[simp] theorem State.updCam_unreadAll (f : CamState → CamState) : (s.updCam f).unreadAll = s.unreadAll := rfl
@[simp] theorem State.updCam_resultsDone (f : CamState → CamState) : (s.updCam f).resultsDone = s.resultsDone := rfl
@[simp] theorem State.updCam_t0 (f : CamState → CamState) : (s.updCam f).t0 = s.t0 := rfl
@[simp] theorem State.updCam_t0Poison (f : CamState → CamState) : (s.updCam f).t0Poison = s.t0Poison := rfl
@[simp] theorem State.updCam_t0Flips (f : CamState → CamState) : (s.updCam f).t0Flips = s.t0Flips := rfl
@[simp] theorem State.updCam_writeBack (f : CamState → CamState) : (s.updCam f).writeBack = s.writeBack := rfl
@[simp] theorem State.updCam_scrubAt (f : CamState → CamState) : (s.updCam f).scrubAt = s.scrubAt := rfl
@[simp] theorem State.updCam_t1 (f : CamState → CamState) : (s.updCam f).t1 = s.t1 := rfl
@[simp] theorem State.updCam_t1Read (f : CamState → CamState) : (s.updCam f).t1Read = s.t1Read := rfl
@[simp] theorem State.updCam_t1Write (f : CamState → CamState) : (s.updCam f).t1Write = s.t1Write := rfl
@[simp] theorem State.updCam_host (f : CamState → CamState) : (s.updCam f).host = s.host := rfl
@[simp] theorem State.updCam_hostErrs (f : CamState → CamState) : (s.updCam f).hostErrs = s.hostErrs := rfl
@[simp] theorem State.updCam_moves (f : CamState → CamState) : (s.updCam f).moves = s.moves := rfl
@[simp] theorem State.updCam_budget (f : CamState → CamState) : (s.updCam f).budget = s.budget := rfl
@[simp] theorem State.updCam_lookAside (f : CamState → CamState) : (s.updCam f).lookAside = s.lookAside := rfl
@[simp] theorem State.updCam_glnHit (f : CamState → CamState) : (s.updCam f).glnHit = s.glnHit := rfl
@[simp] theorem State.updCam_glnMiss (f : CamState → CamState) : (s.updCam f).glnMiss = s.glnMiss := rfl
@[simp] theorem State.updCam_glnBad (f : CamState → CamState) : (s.updCam f).glnBad = s.glnBad := rfl
@[simp] theorem State.updCam_ringHome (f : CamState → CamState) : (s.updCam f).ringHome = s.ringHome := rfl
@[simp] theorem State.updCam_streams (f : CamState → CamState) : (s.updCam f).streams = s.streams := rfl
@[simp] theorem State.updCam_lateSc (f : CamState → CamState) : (s.updCam f).lateSc = s.lateSc := rfl
@[simp] theorem State.updCam_orphans (f : CamState → CamState) : (s.updCam f).orphans = s.orphans := rfl
@[simp] theorem State.updCam_restarting (f : CamState → CamState) : (s.updCam f).restarting = s.restarting := rfl
@[simp] theorem State.updCam_queues (f : CamState → CamState) : (s.updCam f).queues = s.queues := rfl
@[simp] theorem State.updCam_exports (f : CamState → CamState) : (s.updCam f).exports = s.exports := rfl
@[simp] theorem State.updCam_openings (f : CamState → CamState) : (s.updCam f).openings = s.openings := rfl
@[simp] theorem State.updCam_turn (f : CamState → CamState) : (s.updCam f).turn = s.turn := rfl
@[simp] theorem State.updCam_staging (f : CamState → CamState) : (s.updCam f).staging = s.staging := rfl
@[simp] theorem State.updCam_stagingDue (f : CamState → CamState) : (s.updCam f).stagingDue = s.stagingDue := rfl
@[simp] theorem State.updCam_msixOn (f : CamState → CamState) : (s.updCam f).msixOn = s.msixOn := rfl
@[simp] theorem State.updCam_msixMask (f : CamState → CamState) : (s.updCam f).msixMask = s.msixMask := rfl
@[simp] theorem State.updCam_logSeq (f : CamState → CamState) : (s.updCam f).logSeq = s.logSeq := rfl
@[simp] theorem State.updCam_alertLow (f : CamState → CamState) : (s.updCam f).alertLow = s.alertLow := rfl
@[simp] theorem State.updCam_alertAt (f : CamState → CamState) : (s.updCam f).alertAt = s.alertAt := rfl
@[simp] theorem State.updCam_diagLow (f : CamState → CamState) : (s.updCam f).diagLow = s.diagLow := rfl
@[simp] theorem State.updCam_diagAt (f : CamState → CamState) : (s.updCam f).diagAt = s.diagAt := rfl
@[simp] theorem State.updCam_ports (f : CamState → CamState) : (s.updCam f).ports = s.ports := rfl
@[simp] theorem State.updCam_lostIncarn (f : CamState → CamState) : (s.updCam f).lostIncarn = s.lostIncarn := rfl
@[simp] theorem State.updCam_lossDue (f : CamState → CamState) : (s.updCam f).lossDue = s.lossDue := rfl
@[simp] theorem State.updCam_grants (f : CamState → CamState) : (s.updCam f).grants = s.grants := rfl
@[simp] theorem State.updCam_rxMoves (f : CamState → CamState) : (s.updCam f).rxMoves = s.rxMoves := rfl
@[simp] theorem State.updCam_txMoves (f : CamState → CamState) : (s.updCam f).txMoves = s.txMoves := rfl
@[simp] theorem State.updCam_nextMoveId (f : CamState → CamState) : (s.updCam f).nextMoveId = s.nextMoveId := rfl
@[simp] theorem State.updCam_pullsDue (f : CamState → CamState) : (s.updCam f).pullsDue = s.pullsDue := rfl
@[simp] theorem State.updCam_migrations (f : CamState → CamState) : (s.updCam f).migrations = s.migrations := rfl
@[simp] theorem State.updCam_power (f : CamState → CamState) : (s.updCam f).power = s.power := rfl
@[simp] theorem State.updCam_audio (f : CamState → CamState) : (s.updCam f).audio = s.audio := rfl
@[simp] theorem State.updCam_cam (f : CamState → CamState) : (s.updCam f).cam = f s.cam := rfl
@[simp] theorem State.updCam_aon (f : CamState → CamState) : (s.updCam f).aon = s.aon := rfl
@[simp] theorem State.updCam_nv (f : CamState → CamState) : (s.updCam f).nv = s.nv := rfl
@[simp] theorem State.updCam_hsp (f : CamState → CamState) : (s.updCam f).hsp = s.hsp := rfl
@[simp] theorem State.updCam_psp (f : CamState → CamState) : (s.updCam f).psp = s.psp := rfl
@[simp] theorem State.updCam_jtag (f : CamState → CamState) : (s.updCam f).jtag = s.jtag := rfl
@[simp] theorem State.updCam_firstRestart (f : CamState → CamState) : (s.updCam f).firstRestart = s.firstRestart := rfl
@[simp] theorem State.updCam_firmwareAt (f : CamState → CamState) : (s.updCam f).firmwareAt = s.firmwareAt := rfl
@[simp] theorem State.updCam_sent (f : CamState → CamState) : (s.updCam f).sent = s.sent := rfl

end Sys2Proof.Machine
end

