-- ==== Sys2Proof/Laws/Eff.lean ====
section
/-!
SUPPORT. Laws/Eff.lean: what a meaning leaves alone, field by field of the state. A mask names the fields that may change, by their place
in the list below; the files Laws/Eff*.lean give each definition its mask, in the order of the machine, and `exec_eff` gives every
command its own.
-/
namespace Sys2Proof.Machine

/-- A mask lies within another. -/
structure Sub (a m : Nat) : Prop where
  eq : a &&& m = a

theorem Sub.bit {a m i : Nat} (h : Sub a m) (hi : a.testBit i = true) : m.testBit i = true := by
  have := congrArg (fun x => Nat.testBit x i) h.eq
  simp only [Nat.testBit_and, hi, Bool.true_and] at this
  exact this

theorem Sub.trans {a b m : Nat} (h : a &&& b = a) (k : Sub b m) : Sub a m := by
  refine ⟨Nat.eq_of_testBit_eq fun i => ?_⟩
  rw [Nat.testBit_and]
  cases hi : a.testBit i with
  | false => rfl
  | true =>
    have := k.bit (Sub.bit ⟨h⟩ hi)
    simp [this]

theorem Sub.no {a m i : Nat} {P : Prop} (h : Sub a m) (hi : a.testBit i = true) (hm : m.testBit i = false) : P := by
  rw [h.bit hi] at hm; exact absurd hm (by simp)

theorem Sub.rfl {m : Nat} : Sub m m := ⟨Nat.and_self m⟩

/-- From `s` to `t`, only fields that the mask `m` names change. -/
structure Eff (m : Nat) (s t : State) : Prop where
  pending : m.testBit 0 = false → t.pending = s.pending
  free : m.testBit 1 = false → t.free = s.free
  now : m.testBit 2 = false → t.now = s.now
  regs : m.testBit 3 = false → t.regs = s.regs
  rwtHeld : m.testBit 4 = false → t.rwtHeld = s.rwtHeld
  hiLatch : m.testBit 5 = false → t.hiLatch = s.hiLatch
  lowHeld : m.testBit 6 = false → t.lowHeld = s.lowHeld
  tick : m.testBit 7 = false → t.tick = s.tick
  active : m.testBit 8 = false → t.active = s.active
  pendingPlan : m.testBit 9 = false → t.pendingPlan = s.pendingPlan
  activating : m.testBit 10 = false → t.activating = s.activating
  load : m.testBit 11 = false → t.load = s.load
  deactivate : m.testBit 12 = false → t.deactivate = s.deactivate
  engs : m.testBit 13 = false → t.engs = s.engs
  posts : m.testBit 14 = false → t.posts = s.posts
  nextKnots : m.testBit 15 = false → t.nextKnots = s.nextKnots
  banks : m.testBit 16 = false → t.banks = s.banks
  bankFlips : m.testBit 17 = false → t.bankFlips = s.bankFlips
  rows : m.testBit 18 = false → t.rows = s.rows
  nextRows : m.testBit 19 = false → t.nextRows = s.nextRows
  unreadRows : m.testBit 20 = false → t.unreadRows = s.unreadRows
  unreadAll : m.testBit 21 = false → t.unreadAll = s.unreadAll
  resultsDone : m.testBit 22 = false → t.resultsDone = s.resultsDone
  t0 : m.testBit 23 = false → t.t0 = s.t0
  t0Poison : m.testBit 24 = false → t.t0Poison = s.t0Poison
  t0Flips : m.testBit 25 = false → t.t0Flips = s.t0Flips
  writeBack : m.testBit 26 = false → t.writeBack = s.writeBack
  scrubAt : m.testBit 27 = false → t.scrubAt = s.scrubAt
  t1 : m.testBit 28 = false → t.t1 = s.t1
  t1Read : m.testBit 29 = false → t.t1Read = s.t1Read
  t1Write : m.testBit 30 = false → t.t1Write = s.t1Write
  host : m.testBit 31 = false → t.host = s.host
  hostErrs : m.testBit 32 = false → t.hostErrs = s.hostErrs
  moves : m.testBit 33 = false → t.moves = s.moves
  budget : m.testBit 34 = false → t.budget = s.budget
  lookAside : m.testBit 35 = false → t.lookAside = s.lookAside
  glnHit : m.testBit 36 = false → t.glnHit = s.glnHit
  glnMiss : m.testBit 37 = false → t.glnMiss = s.glnMiss
  glnBad : m.testBit 38 = false → t.glnBad = s.glnBad
  ringHome : m.testBit 39 = false → t.ringHome = s.ringHome
  streams : m.testBit 40 = false → t.streams = s.streams
  lateSc : m.testBit 41 = false → t.lateSc = s.lateSc
  orphans : m.testBit 42 = false → t.orphans = s.orphans
  restarting : m.testBit 43 = false → t.restarting = s.restarting
  queues : m.testBit 44 = false → t.queues = s.queues
  exports : m.testBit 45 = false → t.exports = s.exports
  openings : m.testBit 46 = false → t.openings = s.openings
  turn : m.testBit 47 = false → t.turn = s.turn
  staging : m.testBit 48 = false → t.staging = s.staging
  stagingDue : m.testBit 49 = false → t.stagingDue = s.stagingDue
  msixOn : m.testBit 50 = false → t.msixOn = s.msixOn
  msixMask : m.testBit 51 = false → t.msixMask = s.msixMask
  logSeq : m.testBit 52 = false → t.logSeq = s.logSeq
  alertLow : m.testBit 53 = false → t.alertLow = s.alertLow
  alertAt : m.testBit 54 = false → t.alertAt = s.alertAt
  diagLow : m.testBit 55 = false → t.diagLow = s.diagLow
  diagAt : m.testBit 56 = false → t.diagAt = s.diagAt
  ports : m.testBit 57 = false → t.ports = s.ports
  lostIncarn : m.testBit 58 = false → t.lostIncarn = s.lostIncarn
  lossDue : m.testBit 59 = false → t.lossDue = s.lossDue
  grants : m.testBit 60 = false → t.grants = s.grants
  rxMoves : m.testBit 61 = false → t.rxMoves = s.rxMoves
  txMoves : m.testBit 62 = false → t.txMoves = s.txMoves
  nextMoveId : m.testBit 63 = false → t.nextMoveId = s.nextMoveId
  pullsDue : m.testBit 64 = false → t.pullsDue = s.pullsDue
  migrations : m.testBit 65 = false → t.migrations = s.migrations
  power : m.testBit 66 = false → t.power = s.power
  audio : m.testBit 67 = false → t.audio = s.audio
  cam : m.testBit 68 = false → t.cam = s.cam
  aon : m.testBit 69 = false → t.aon = s.aon
  nv : m.testBit 70 = false → t.nv = s.nv
  hsp : m.testBit 71 = false → t.hsp = s.hsp
  psp : m.testBit 72 = false → t.psp = s.psp
  jtag : m.testBit 73 = false → t.jtag = s.jtag
  firstRestart : m.testBit 74 = false → t.firstRestart = s.firstRestart
  firmwareAt : m.testBit 75 = false → t.firmwareAt = s.firmwareAt
  sent : m.testBit 76 = false → t.sent = s.sent

/-- The same of an optional state. -/
structure EffO (m : Nat) (s : State) (o : Option State) : Prop where
  kept : ∀ t, o = some t → Eff m s t

/-- The same of an optional value with a state. -/
structure EffON {α : Type} (m : Nat) (s : State) (o : Option (α × State)) : Prop where
  kept : ∀ r, o = some r → Eff m s r.2

/-- The same of the outcome of a meaning. -/
structure EffX (m : Nat) (s : State) (o : Host.Outcome State Fault Refusal) : Prop where
  kept : ∀ t, o = .next t → Eff m s t

theorem Eff.refl {m : Nat} {s : State} : Eff m s s :=
  ⟨fun _ => rfl, fun _ => rfl, fun _ => rfl, fun _ => rfl, fun _ => rfl, fun _ => rfl, fun _ => rfl, fun _ => rfl, fun _ => rfl, fun _ => rfl, fun _ => rfl, fun _ => rfl, fun _ => rfl, fun _ => rfl, fun _ => rfl, fun _ => rfl, fun _ => rfl, fun _ => rfl, fun _ => rfl, fun _ => rfl, fun _ => rfl, fun _ => rfl, fun _ => rfl, fun _ => rfl, fun _ => rfl, fun _ => rfl, fun _ => rfl, fun _ => rfl, fun _ => rfl, fun _ => rfl, fun _ => rfl, fun _ => rfl, fun _ => rfl, fun _ => rfl, fun _ => rfl, fun _ => rfl, fun _ => rfl, fun _ => rfl, fun _ => rfl, fun _ => rfl, fun _ => rfl, fun _ => rfl, fun _ => rfl, fun _ => rfl, fun _ => rfl, fun _ => rfl, fun _ => rfl, fun _ => rfl, fun _ => rfl, fun _ => rfl, fun _ => rfl, fun _ => rfl, fun _ => rfl, fun _ => rfl, fun _ => rfl, fun _ => rfl, fun _ => rfl, fun _ => rfl, fun _ => rfl, fun _ => rfl, fun _ => rfl, fun _ => rfl, fun _ => rfl, fun _ => rfl, fun _ => rfl, fun _ => rfl, fun _ => rfl, fun _ => rfl, fun _ => rfl, fun _ => rfl, fun _ => rfl, fun _ => rfl, fun _ => rfl, fun _ => rfl, fun _ => rfl, fun _ => rfl, fun _ => rfl⟩

theorem Eff.trans {m : Nat} {s t u : State} (h : Eff m s t) (k : Eff m t u) : Eff m s u :=
  ⟨fun e => (k.pending e).trans (h.pending e), fun e => (k.free e).trans (h.free e), fun e => (k.now e).trans (h.now e), fun e => (k.regs e).trans (h.regs e), fun e => (k.rwtHeld e).trans (h.rwtHeld e), fun e => (k.hiLatch e).trans (h.hiLatch e), fun e => (k.lowHeld e).trans (h.lowHeld e), fun e => (k.tick e).trans (h.tick e), fun e => (k.active e).trans (h.active e), fun e => (k.pendingPlan e).trans (h.pendingPlan e), fun e => (k.activating e).trans (h.activating e), fun e => (k.load e).trans (h.load e), fun e => (k.deactivate e).trans (h.deactivate e), fun e => (k.engs e).trans (h.engs e), fun e => (k.posts e).trans (h.posts e), fun e => (k.nextKnots e).trans (h.nextKnots e), fun e => (k.banks e).trans (h.banks e), fun e => (k.bankFlips e).trans (h.bankFlips e), fun e => (k.rows e).trans (h.rows e), fun e => (k.nextRows e).trans (h.nextRows e), fun e => (k.unreadRows e).trans (h.unreadRows e), fun e => (k.unreadAll e).trans (h.unreadAll e), fun e => (k.resultsDone e).trans (h.resultsDone e), fun e => (k.t0 e).trans (h.t0 e), fun e => (k.t0Poison e).trans (h.t0Poison e), fun e => (k.t0Flips e).trans (h.t0Flips e), fun e => (k.writeBack e).trans (h.writeBack e), fun e => (k.scrubAt e).trans (h.scrubAt e), fun e => (k.t1 e).trans (h.t1 e), fun e => (k.t1Read e).trans (h.t1Read e), fun e => (k.t1Write e).trans (h.t1Write e), fun e => (k.host e).trans (h.host e), fun e => (k.hostErrs e).trans (h.hostErrs e), fun e => (k.moves e).trans (h.moves e), fun e => (k.budget e).trans (h.budget e), fun e => (k.lookAside e).trans (h.lookAside e), fun e => (k.glnHit e).trans (h.glnHit e), fun e => (k.glnMiss e).trans (h.glnMiss e), fun e => (k.glnBad e).trans (h.glnBad e), fun e => (k.ringHome e).trans (h.ringHome e), fun e => (k.streams e).trans (h.streams e), fun e => (k.lateSc e).trans (h.lateSc e), fun e => (k.orphans e).trans (h.orphans e), fun e => (k.restarting e).trans (h.restarting e), fun e => (k.queues e).trans (h.queues e), fun e => (k.exports e).trans (h.exports e), fun e => (k.openings e).trans (h.openings e), fun e => (k.turn e).trans (h.turn e), fun e => (k.staging e).trans (h.staging e), fun e => (k.stagingDue e).trans (h.stagingDue e), fun e => (k.msixOn e).trans (h.msixOn e), fun e => (k.msixMask e).trans (h.msixMask e), fun e => (k.logSeq e).trans (h.logSeq e), fun e => (k.alertLow e).trans (h.alertLow e), fun e => (k.alertAt e).trans (h.alertAt e), fun e => (k.diagLow e).trans (h.diagLow e), fun e => (k.diagAt e).trans (h.diagAt e), fun e => (k.ports e).trans (h.ports e), fun e => (k.lostIncarn e).trans (h.lostIncarn e), fun e => (k.lossDue e).trans (h.lossDue e), fun e => (k.grants e).trans (h.grants e), fun e => (k.rxMoves e).trans (h.rxMoves e), fun e => (k.txMoves e).trans (h.txMoves e), fun e => (k.nextMoveId e).trans (h.nextMoveId e), fun e => (k.pullsDue e).trans (h.pullsDue e), fun e => (k.migrations e).trans (h.migrations e), fun e => (k.power e).trans (h.power e), fun e => (k.audio e).trans (h.audio e), fun e => (k.cam e).trans (h.cam e), fun e => (k.aon e).trans (h.aon e), fun e => (k.nv e).trans (h.nv e), fun e => (k.hsp e).trans (h.hsp e), fun e => (k.psp e).trans (h.psp e), fun e => (k.jtag e).trans (h.jtag e), fun e => (k.firstRestart e).trans (h.firstRestart e), fun e => (k.firmwareAt e).trans (h.firmwareAt e), fun e => (k.sent e).trans (h.sent e)⟩

variable {m : Nat} {s₀ : State}

/-- The same, of an update written out. -/
structure EffL (m : Nat) (s t : State) : Prop where
  eff : Eff m s t

/-- An update, written out, of a state. -/
theorem Eff.lit {s : State} {pending' : List Instr} {free' : Nat} {now' : Nat} {regs' : Cells 32} {rwtHeld' : List (Nat ×
    Word × Word)} {hiLatch' : Cells 32} {lowHeld' : List (Nat × Word)} {tick' : TickState} {active' : Option Plan} {pendingPlan'
    : Option Plan} {activating' : Option (Nat × Nat)} {load' : Option LoadJob} {deactivate' : Bool} {engs' : List EngState}
    {posts' : List KnotPost} {nextKnots' : List Nat} {banks' : List (Nat × AccBank)} {bankFlips' : List (Nat × BitFlips)} {rows'
    : List (Nat × Nat)} {nextRows' : Option (List (Nat × Nat))} {unreadRows' : List Nat} {unreadAll' : Bool} {resultsDone' :
    Bool} {t0' : Cells 8} {t0Poison' : List Nat} {t0Flips' : List (Nat × BitFlips)} {writeBack' : List Nat} {scrubAt' : Nat} {t1'
    : Cells 8} {t1Read' : List (Nat × BurstFault)} {t1Write' : List (Nat × BurstFault)} {host' : Cells 8} {hostErrs' : List (Nat
    × Nat)} {moves' : List (Nat × Move)} {budget' : Nat} {lookAside' : List (Nat × Nat × Nat)} {glnHit' : Nat} {glnMiss' : Nat}
    {glnBad' : Nat} {ringHome' : Option Nat} {streams' : List (Nat × Stream)} {lateSc' : List Nat} {orphans' : List (Nat × List
    Byte)} {restarting' : List Nat} {queues' : List Queue} {exports' : List ExportJob} {openings' : List OpenJob} {turn' : Nat}
    {staging' : Option (Nat × Nat)} {stagingDue' : Option (Nat × Nat)} {msixOn' : Bool} {msixMask' : Bool} {logSeq' : Nat}
    {alertLow' : Bool} {alertAt' : Nat} {diagLow' : Bool} {diagAt' : Nat} {ports' : List Port} {lostIncarn' : List (Nat × Nat)}
    {lossDue' : List Nat} {grants' : List Grant} {rxMoves' : List RxMove} {txMoves' : List TxMove} {nextMoveId' : Nat} {pullsDue'
    : List TxMove} {migrations' : List Migration} {power' : PowerState} {audio' : AudioState} {cam' : CamState} {aon' : AonState}
    {nv' : NvState} {hsp' : HspState} {psp' : Option PspJob} {jtag' : JtagState} {firstRestart' : List (Nat × Nat)} {firmwareAt'
    : Option Nat} {sent' : List Sent} (h : Eff m s₀ s) (_ : s.pending = pending') (k : EffL m s ⟨pending', free', now', regs',
    rwtHeld', hiLatch', lowHeld', tick', active', pendingPlan', activating', load', deactivate', engs', posts', nextKnots',
    banks', bankFlips', rows', nextRows', unreadRows', unreadAll', resultsDone', t0', t0Poison', t0Flips', writeBack', scrubAt',
    t1', t1Read', t1Write', host', hostErrs', moves', budget', lookAside', glnHit', glnMiss', glnBad', ringHome', streams',
    lateSc', orphans', restarting', queues', exports', openings', turn', staging', stagingDue', msixOn', msixMask', logSeq',
    alertLow', alertAt', diagLow', diagAt', ports', lostIncarn', lossDue', grants', rxMoves', txMoves', nextMoveId', pullsDue',
    migrations', power', audio', cam', aon', nv', hsp', psp', jtag', firstRestart', firmwareAt', sent'⟩) : Eff m s₀ ⟨pending',
    free', now', regs', rwtHeld', hiLatch', lowHeld', tick', active', pendingPlan', activating', load', deactivate', engs',
    posts', nextKnots', banks', bankFlips', rows', nextRows', unreadRows', unreadAll', resultsDone', t0', t0Poison', t0Flips',
    writeBack', scrubAt', t1', t1Read', t1Write', host', hostErrs', moves', budget', lookAside', glnHit', glnMiss', glnBad',
    ringHome', streams', lateSc', orphans', restarting', queues', exports', openings', turn', staging', stagingDue', msixOn',
    msixMask', logSeq', alertLow', alertAt', diagLow', diagAt', ports', lostIncarn', lossDue', grants', rxMoves', txMoves',
    nextMoveId', pullsDue', migrations', power', audio', cam', aon', nv', hsp', psp', jtag', firstRestart', firmwareAt', sent'⟩
    := h.trans k.eff

theorem Eff.snd {α : Type} {r : α × State} {a : α} {t : State} (e : r = (a, t)) (h : Eff m s₀ r.2) : Eff m s₀ t := by subst e; exact h
theorem Eff.fst {α : Type} {r : State × α} {a : α} {t : State} (e : r = (t, a)) (h : Eff m s₀ r.1) : Eff m s₀ t := by subst e; exact h
theorem Eff.snd2 {α β : Type} {r : α × β × State} {a : α} {b : β} {t : State} (e : r = (a, b, t)) (h : Eff m s₀ r.2.2) : Eff m s₀ t := by
  subst e; exact h
theorem Eff.ofSome {o : Option State} {t : State} (e : o = some t) (h : EffO m s₀ o) : Eff m s₀ t := h.kept t e
theorem Eff.ofSomeSnd {α : Type} {o : Option (α × State)} {a : α} {t : State} (e : o = some (a, t)) (h : EffON m s₀ o) : Eff m s₀ t :=
  h.kept (a, t) e
theorem Eff.ofSomeVal {α : Type} {o : Option (α × State)} {r : α × State} (e : o = some r) (h : EffON m s₀ o) : Eff m s₀ r.2 := h.kept r e

/-! ### Branches -/

theorem Eff.ite {c : Prop} [Decidable c] {a b : State} (ha : Eff m s₀ a) (hb : Eff m s₀ b) : Eff m s₀ (if c then a else b) := by
  split <;> assumption
theorem Eff.iteSnd {α : Type} {c : Prop} [Decidable c] {a b : α × State} (ha : Eff m s₀ a.2) (hb : Eff m s₀ b.2) :
    Eff m s₀ (if c then a else b).2 := by split <;> assumption
theorem Eff.iteFst {α : Type} {c : Prop} [Decidable c] {a b : State × α} (ha : Eff m s₀ a.1) (hb : Eff m s₀ b.1) :
    Eff m s₀ (if c then a else b).1 := by split <;> assumption
theorem Eff.iteSnd2 {α β : Type} {c : Prop} [Decidable c] {a b : α × β × State} (ha : Eff m s₀ a.2.2) (hb : Eff m s₀ b.2.2) :
    Eff m s₀ (if c then a else b).2.2 := by split <;> assumption

/-! ### Folds -/

theorem Eff.foldl {α : Type} {f : State → α → State} (l : List α) (hf : ∀ s x, Eff m s₀ s → Eff m s₀ (f s x)) :
    ∀ {s : State}, Eff m s₀ s → Eff m s₀ (l.foldl f s) := by
  induction l with
  | nil => intro s h; exact h
  | cons x l ih => intro s h; exact ih (hf s x h)

theorem Eff.foldlSnd {α β : Type} {f : β × State → α → β × State} (l : List α)
    (hf : ∀ r x, Eff m s₀ r.2 → Eff m s₀ (f r x).2) : ∀ {r : β × State}, Eff m s₀ r.2 → Eff m s₀ (l.foldl f r).2 := by
  induction l with
  | nil => intro s h; exact h
  | cons x l ih => intro s h; exact ih (hf s x h)

theorem Eff.foldlFst {α β : Type} {f : State × β → α → State × β} (l : List α)
    (hf : ∀ r x, Eff m s₀ r.1 → Eff m s₀ (f r x).1) : ∀ {r : State × β}, Eff m s₀ r.1 → Eff m s₀ (l.foldl f r).1 := by
  induction l with
  | nil => intro s h; exact h
  | cons x l ih => intro s h; exact ih (hf s x h)

theorem Eff.foldlSnd2 {α β γ : Type} {f : β × γ × State → α → β × γ × State} (l : List α)
    (hf : ∀ r x, Eff m s₀ r.2.2 → Eff m s₀ (f r x).2.2) : ∀ {r : β × γ × State}, Eff m s₀ r.2.2 → Eff m s₀ (l.foldl f r).2.2 := by
  induction l with
  | nil => intro s h; exact h
  | cons x l ih => intro s h; exact ih (hf s x h)

theorem EffO.foldl {α : Type} {f : Option State → α → Option State} (l : List α) (hf : ∀ o x, EffO m s₀ o → EffO m s₀ (f o x)) :
    ∀ {o : Option State}, EffO m s₀ o → EffO m s₀ (l.foldl f o) := by
  induction l with
  | nil => intro s h; exact h
  | cons x l ih => intro s h; exact ih (hf s x h)

/-! ### Optional states -/

theorem EffO.of_some {s : State} (h : Eff m s₀ s) : EffO m s₀ (some s) := ⟨by intro t e; cases e; exact h⟩
theorem EffO.of_none : EffO m s₀ none := ⟨by intro t e; cases e⟩
theorem EffON.of_some {α : Type} {r : α × State} (h : Eff m s₀ r.2) : EffON m s₀ (some r) := ⟨by intro t e; cases e; exact h⟩
theorem EffON.of_none {α : Type} : EffON m s₀ (none : Option (α × State)) := ⟨by intro t e; cases e⟩
theorem EffX.of_next {s : State} (h : Eff m s₀ s) : EffX m s₀ (.next s) := ⟨by intro t e; cases e; exact h⟩
theorem EffO.ite {c : Prop} [Decidable c] {a b : Option State} (ha : EffO m s₀ a) (hb : EffO m s₀ b) : EffO m s₀ (if c then a else b) := by
  split <;> assumption
theorem EffON.ite {α : Type} {c : Prop} [Decidable c] {a b : Option (α × State)} (ha : EffON m s₀ a) (hb : EffON m s₀ b) :
    EffON m s₀ (if c then a else b) := by split <;> assumption
theorem EffO.bind {α : Type} {o : Option α} {f : α → Option State} (hf : ∀ a, EffO m s₀ (f a)) : EffO m s₀ (o.bind f) := by
  cases o with
  | none => exact EffO.of_none
  | some a => exact hf a
theorem EffO.bindState {o : Option State} {f : State → Option State} (ho : EffO m s₀ o) (hf : ∀ s, Eff m s₀ s → EffO m s₀ (f s)) :
    EffO m s₀ (o.bind f) := by
  cases o with
  | none => exact EffO.of_none
  | some a => exact hf a (ho.kept a rfl)
theorem EffO.bindSnd {α : Type} {o : Option (α × State)} {f : α × State → Option State} (ho : EffON m s₀ o)
    (hf : ∀ r, Eff m s₀ r.2 → EffO m s₀ (f r)) : EffO m s₀ (o.bind f) := by
  cases o with
  | none => exact EffO.of_none
  | some a => exact hf a (ho.kept a rfl)
theorem EffO.mapSnd {α : Type} {o : Option (α × State)} {f : α × State → State} (ho : EffON m s₀ o)
    (hf : ∀ r, Eff m s₀ r.2 → Eff m s₀ (f r)) : EffO m s₀ (o.map f) := by
  cases o with
  | none => exact EffO.of_none
  | some a => exact EffO.of_some (hf a (ho.kept a rfl))
theorem Eff.getD {o : Option State} {d : State} (ho : EffO m s₀ o) (hd : Eff m s₀ d) : Eff m s₀ (o.getD d) := by
  cases o with
  | none => exact hd
  | some a => exact ho.kept a rfl

end Sys2Proof.Machine
end

