-- ==== Sys2Proof/Laws/EffOps.lean ====
section
/-!
SUPPORT. Laws/EffOps.lean: which fields of the state every operation of Machine/Ops.lean may change.
-/
namespace Sys2Proof.Machine

variable {W : Nat} {s₀ : State}

theorem State.setReg_eff {s : State} {off : Nat} {v : Word}
    (hW : Sub 0x8 W) (h : Eff W s₀ s)  : Eff W s₀ (State.setReg s off v) := by
  unfold State.setReg
  repeat' first
    | ((with_reducible refine EffL.mk ?_); constructor <;> first | (intro _; with_reducible rfl) | exact fun e => hW.no rfl e)
    | (refine Eff.lit ?_ rfl ?_; with_reducible assumption)

theorem State.setFld_eff {s : State} {off : Nat} {lo : Nat} {width : Nat} {n : Nat}
    (hW : Sub 0x8 W) (h : Eff W s₀ s)  : Eff W s₀ (State.setFld s off lo width n) := by
  unfold State.setFld
  repeat' first
    | with_reducible assumption
    | with_reducible apply State.setReg_eff

theorem State.setBit_eff {s : State} {off : Nat} {i : Nat} {b : Bool}
    (hW : Sub 0x8 W) (h : Eff W s₀ s)  : Eff W s₀ (State.setBit s off i b) := by
  unfold State.setBit
  repeat' first
    | with_reducible assumption
    | with_reducible apply State.setFld_eff

theorem State.addSat_eff {s : State} {off : Nat} {lo : Nat} {width : Nat} {n : Nat}
    (hW : Sub 0x8 W) (h : Eff W s₀ s)  : Eff W s₀ (State.addSat s off lo width n) := by
  unfold State.addSat
  repeat' first
    | with_reducible assumption
    | with_reducible apply State.setFld_eff

theorem State.setReg64_eff {s : State} {lo : Nat} {v : Nat}
    (hW : Sub 0x8 W) (h : Eff W s₀ s)  : Eff W s₀ (State.setReg64 s lo v) := by
  unfold State.setReg64
  repeat' first
    | with_reducible assumption
    | with_reducible apply State.setReg_eff

theorem State.add64_eff {s : State} {lo : Nat} {n : Nat}
    (hW : Sub 0x8 W) (h : Eff W s₀ s)  : Eff W s₀ (State.add64 s lo n) := by
  unfold State.add64
  repeat' first
    | with_reducible assumption
    | with_reducible apply Eff.ite
    | with_reducible apply State.setReg64_eff

theorem State.draw_eff {s : State}
    (hW : Sub 0x2 W) (h : Eff W s₀ s)  : Eff W s₀ (State.draw s).2 := by
  unfold State.draw
  repeat' first
    | ((with_reducible refine EffL.mk ?_); constructor <;> first | (intro _; with_reducible rfl) | exact fun e => hW.no rfl e)
    | dsimp -zeta only
    | (refine Eff.lit ?_ rfl ?_; with_reducible assumption)

theorem State.reach_eff {s : State} {t : Nat}
    (hW : Sub 0x4 W) (h : Eff W s₀ s)  : Eff W s₀ (State.reach s t) := by
  unfold State.reach
  repeat' first
    | ((with_reducible refine EffL.mk ?_); constructor <;> first | (intro _; with_reducible rfl) | exact fun e => hW.no rfl e)
    | (refine Eff.lit ?_ rfl ?_; with_reducible assumption)

theorem State.sendVector_eff {s : State} {v : Nat}
    (hW : Sub 0x10000000000000000008 W) (h : Eff W s₀ s)  : Eff W s₀ (State.sendVector s v) := by
  unfold State.sendVector
  repeat' first
    | with_reducible assumption
    | ((with_reducible refine Sub.trans ?_ hW); exact rfl)
    | ((with_reducible refine EffL.mk ?_); constructor <;> first | (intro _; with_reducible rfl) | exact fun e => hW.no rfl e)
    | (extract_lets +onlyGivenNames v; refine (fun (hv : Eff W s₀ v) => ?_) ?_; clear_value v; rotate_left; subst v)
    | with_reducible apply Eff.ite
    | with_reducible apply State.setBit_eff
    | (refine Eff.lit ?_ rfl ?_; with_reducible assumption)

theorem State.flushVector_eff {s : State} {v : Nat}
    (hW : Sub 0x10000000000000000008 W) (h : Eff W s₀ s)  : Eff W s₀ (State.flushVector s v) := by
  unfold State.flushVector
  repeat' first
    | with_reducible assumption
    | ((with_reducible refine Sub.trans ?_ hW); exact rfl)
    | ((with_reducible refine EffL.mk ?_); constructor <;> first | (intro _; with_reducible rfl) | exact fun e => hW.no rfl e)
    | (extract_lets +onlyGivenNames v; refine (fun (hv : Eff W s₀ v) => ?_) ?_; clear_value v; rotate_left; subst v)
    | with_reducible apply Eff.ite
    | with_reducible apply State.setBit_eff
    | (refine Eff.lit ?_ rfl ?_; with_reducible assumption)

theorem State.raise_eff {s : State} {src : EvtSource} {stat : Nat} {b : Nat}
    (hW : Sub 0x10000000000000000008 W) (h : Eff W s₀ s)  : Eff W s₀ (State.raise s src stat b) := by
  unfold State.raise
  repeat' first
    | with_reducible assumption
    | ((with_reducible refine Sub.trans ?_ hW); exact rfl)
    | (extract_lets +onlyGivenNames v; refine (fun (hv : Eff W s₀ v) => ?_) ?_; clear_value v; rotate_left; subst v)
    | (extract_lets +onlyGivenNames v; clear_value v)
    | with_reducible apply Eff.ite
    | with_reducible apply State.sendVector_eff
    | with_reducible apply State.setBit_eff

theorem State.alert_eff {s : State}
    (hW : Sub 0x60000000000008 W) (h : Eff W s₀ s)  : Eff W s₀ (State.alert s) := by
  unfold State.alert
  repeat' first
    | with_reducible assumption
    | ((with_reducible refine Sub.trans ?_ hW); exact rfl)
    | ((with_reducible refine EffL.mk ?_); constructor <;> first | (intro _; with_reducible rfl) | exact fun e => hW.no rfl e)
    | (extract_lets +onlyGivenNames v; refine (fun (hv : Eff W s₀ v) => ?_) ?_; clear_value v; rotate_left; subst v)
    | with_reducible apply State.setBit_eff
    | (refine Eff.lit ?_ rfl ?_; with_reducible assumption)

theorem State.diag_eff {s : State}
    (hW : Sub 0x180000000000008 W) (h : Eff W s₀ s)  : Eff W s₀ (State.diag s) := by
  unfold State.diag
  repeat' first
    | with_reducible assumption
    | ((with_reducible refine Sub.trans ?_ hW); exact rfl)
    | ((with_reducible refine EffL.mk ?_); constructor <;> first | (intro _; with_reducible rfl) | exact fun e => hW.no rfl e)
    | (extract_lets +onlyGivenNames v; refine (fun (hv : Eff W s₀ v) => ?_) ?_; clear_value v; rotate_left; subst v)
    | with_reducible apply State.setBit_eff
    | (refine Eff.lit ?_ rfl ?_; with_reducible assumption)

theorem State.setRegs_eff {s : State} {off : Nat} {x2 : List Word}
    (hW : Sub 0x8 W) (h : Eff W s₀ s)  : Eff W s₀ (State.setRegs s off x2) := by
  induction x2 generalizing s off with
  | nil =>
    unfold State.setRegs
    repeat' with_reducible assumption
  | cons x l ih =>
    unfold State.setRegs
    repeat' first
      | with_reducible assumption
      | with_reducible apply State.setReg_eff
      | with_reducible apply ih

theorem State.logEvent_eff {s : State} {violation : Bool} {cls : Nat} {sub : Nat} {i : optParam LogInfo { }}
    (hW : Sub 0x100001F0000000000008 W) (h : Eff W s₀ s)  : Eff W s₀ (State.logEvent s violation cls sub i) := by
  unfold State.logEvent
  repeat' first
    | with_reducible assumption
    | ((with_reducible refine Sub.trans ?_ hW); exact rfl)
    | ((with_reducible refine EffL.mk ?_); constructor <;> first | (intro _; with_reducible rfl) | exact fun e => hW.no rfl e)
    | (extract_lets +onlyGivenNames v; refine (fun (hv : Eff W s₀ v) => ?_) ?_; clear_value v; rotate_left; subst v)
    | (extract_lets +onlyGivenNames v; clear_value v)
    | (extract_lets +onlyGivenNames v; subst v)
    | with_reducible apply Eff.ite
    | with_reducible apply State.setRegs_eff
    | with_reducible apply State.diag_eff
    | with_reducible apply State.alert_eff
    | with_reducible apply State.raise_eff
    | with_reducible apply State.addSat_eff
    | with_reducible apply State.setFld_eff
    | (refine Eff.lit ?_ rfl ?_; with_reducible assumption)

theorem State.logError_eff {s : State} {cls : Nat} {sub : Nat} {i : optParam LogInfo { }}
    (hW : Sub 0x100001F0000000000008 W) (h : Eff W s₀ s)  : Eff W s₀ (State.logError s cls sub i) := by
  unfold State.logError
  repeat' first
    | with_reducible assumption
    | with_reducible apply State.logEvent_eff

theorem State.logViolation_eff {s : State} {cls : Nat} {sub : Nat} {i : optParam LogInfo { }}
    (hW : Sub 0x100001F0000000000008 W) (h : Eff W s₀ s)  : Eff W s₀ (State.logViolation s cls sub i) := by
  unfold State.logViolation
  repeat' first
    | with_reducible assumption
    | with_reducible apply State.logEvent_eff

theorem State.setStream_eff {s : State} {sc : Nat} {t : Stream}
    (hW : Sub 0x10000000000 W) (h : Eff W s₀ s)  : Eff W s₀ (State.setStream s sc t) := by
  unfold State.setStream
  repeat' first
    | ((with_reducible refine EffL.mk ?_); constructor <;> first | (intro _; with_reducible rfl) | exact fun e => hW.no rfl e)
    | (refine Eff.lit ?_ rfl ?_; with_reducible assumption)

theorem State.updStream_eff {s : State} {sc : Nat} {f : Stream → Stream}
    (hW : Sub 0x10000000000 W) (h : Eff W s₀ s)  : Eff W s₀ (State.updStream s sc f) := by
  unfold State.updStream
  repeat' first
    | with_reducible assumption
    | with_reducible apply State.setStream_eff
    | split

theorem State.setEng_eff {s : State} {e : Nat} {g : EngState}
    (hW : Sub 0x2000 W) (h : Eff W s₀ s)  : Eff W s₀ (State.setEng s e g) := by
  unfold State.setEng
  repeat' first
    | ((with_reducible refine EffL.mk ?_); constructor <;> first | (intro _; with_reducible rfl) | exact fun e => hW.no rfl e)
    | (refine Eff.lit ?_ rfl ?_; with_reducible assumption)

theorem State.updEng_eff {s : State} {e : Nat} {f : EngState → EngState}
    (hW : Sub 0x2000 W) (h : Eff W s₀ s)  : Eff W s₀ (State.updEng s e f) := by
  unfold State.updEng
  repeat' first
    | with_reducible assumption
    | with_reducible apply State.setEng_eff

theorem State.updQueue_eff {s : State} {q : Nat} {f : Queue → Queue}
    (hW : Sub 0x100000000000 W) (h : Eff W s₀ s)  : Eff W s₀ (State.updQueue s q f) := by
  unfold State.updQueue
  repeat' first
    | ((with_reducible refine EffL.mk ?_); constructor <;> first | (intro _; with_reducible rfl) | exact fun e => hW.no rfl e)
    | (refine Eff.lit ?_ rfl ?_; with_reducible assumption)

theorem State.updPort_eff {s : State} {k : Nat} {f : Port → Port}
    (hW : Sub 0x200000000000000 W) (h : Eff W s₀ s)  : Eff W s₀ (State.updPort s k f) := by
  unfold State.updPort
  repeat' first
    | ((with_reducible refine EffL.mk ?_); constructor <;> first | (intro _; with_reducible rfl) | exact fun e => hW.no rfl e)
    | (refine Eff.lit ?_ rfl ?_; with_reducible assumption)

theorem State.emit_eff {s : State} {o : Sent}
    (hW : Sub 0x10000000000000000000 W) (h : Eff W s₀ s)  : Eff W s₀ (State.emit s o) := by
  unfold State.emit
  repeat' first
    | ((with_reducible refine EffL.mk ?_); constructor <;> first | (intro _; with_reducible rfl) | exact fun e => hW.no rfl e)
    | (refine Eff.lit ?_ rfl ?_; with_reducible assumption)

end Sys2Proof.Machine
end

