-- ==== Sys2Proof/Laws/EffLink.lean ====
section
/-!
SUPPORT. Laws/EffLink.lean: which fields of the state every operation of Machine/Link.lean may change.
-/
namespace Sys2Proof.Machine

variable {W : Nat} {s₀ : State}

theorem State.pumpPort_eff {s : State} {k : Nat}
    (hW : Sub 0x200000000000008 W) (h : Eff W s₀ s)  : Eff W s₀ (State.pumpPort s k) := by
  unfold State.pumpPort
  repeat' first
    | with_reducible assumption
    | ((with_reducible refine Sub.trans ?_ hW); exact rfl)
    | (extract_lets +onlyGivenNames v; clear_value v)
    | with_reducible apply Eff.ite
    | with_reducible apply State.updPort_eff
    | with_reducible apply State.add64_eff

theorem State.peerMsg_eff {s : State} {chip : Nat} {cls : Nat} {opc : Nat} {payload : List Nat} {bytes : Nat}
    (hW : Sub 0x10000200000000000008 W) (h : Eff W s₀ s)  : Eff W s₀ (State.peerMsg s chip cls opc payload bytes) := by
  unfold State.peerMsg
  repeat' first
    | with_reducible assumption
    | ((with_reducible refine Sub.trans ?_ hW); exact rfl)
    | (extract_lets +onlyGivenNames v; refine (fun (hv : Eff W s₀ v) => ?_) ?_; clear_value v; rotate_left; subst v)
    | (extract_lets +onlyGivenNames v; clear_value v)
    | with_reducible apply State.pumpPort_eff
    | with_reducible apply State.emit_eff
    | with_reducible apply State.updPort_eff

end Sys2Proof.Machine
end

