-- ==== Sys2Proof/Laws/EffMemory.lean ====
section
/-!
SUPPORT. Laws/EffMemory.lean: which fields of the state every operation of Machine/Memory.lean may change.
-/
namespace Sys2Proof.Machine

variable {W : Nat} {s₀ : State}

theorem State.t0Store_eff {s : State} {a : Nat} {bs : List Byte}
    (hW : Sub 0x3800000 W) (h : Eff W s₀ s)  : Eff W s₀ (State.t0Store s a bs) := by
  unfold State.t0Store
  repeat' first
    | ((with_reducible refine EffL.mk ?_); constructor <;> first | (intro _; with_reducible rfl) | exact fun e => hW.no rfl e)
    | (extract_lets +onlyGivenNames v; clear_value v)
    | split
    | (refine Eff.lit ?_ rfl ?_; with_reducible assumption)

theorem State.t1Access_eff {s : State} {burst : Nat} {write : Bool}
    (hW : Sub 0x60000008 W) (h : Eff W s₀ s)  : Eff W s₀ (State.t1Access s burst write).2 := by
  unfold State.t1Access
  repeat' first
    | with_reducible assumption
    | ((with_reducible refine Sub.trans ?_ hW); exact rfl)
    | ((with_reducible refine EffL.mk ?_); constructor <;> first | (intro _; with_reducible rfl) | exact fun e => hW.no rfl e)
    | (extract_lets +onlyGivenNames v; refine (fun (hv : Eff W s₀ v) => ?_) ?_; clear_value v; rotate_left; subst v)
    | (extract_lets +onlyGivenNames v; clear_value v)
    | with_reducible apply Eff.ite
    | with_reducible apply State.addSat_eff
    | with_reducible apply State.setBit_eff
    | with_reducible apply State.setReg_eff
    | split
    | (refine Eff.lit ?_ rfl ?_; with_reducible assumption)

theorem State.t1Range_eff {s : State} {a : Nat} {len : Nat} {write : Bool}
    (hW : Sub 0x60000008 W) (h : Eff W s₀ s)  : Eff W s₀ (State.t1Range s a len write).2 := by
  unfold State.t1Range
  repeat' first
    | with_reducible assumption
    | (extract_lets +onlyGivenNames v; clear_value v)
    | with_reducible refine Eff.foldlSnd _ (fun _ _ _ => ?_) ?_
    | with_reducible apply State.t1Access_eff

theorem State.queueWriteBack_eff {s : State} {w : Nat}
    (hW : Sub 0x4000008 W) (h : Eff W s₀ s)  : Eff W s₀ (State.queueWriteBack s w) := by
  unfold State.queueWriteBack
  repeat' first
    | with_reducible assumption
    | ((with_reducible refine Sub.trans ?_ hW); exact rfl)
    | ((with_reducible refine EffL.mk ?_); constructor <;> first | (intro _; with_reducible rfl) | exact fun e => hW.no rfl e)
    | with_reducible apply Eff.ite
    | with_reducible apply State.setBit_eff
    | (refine Eff.lit ?_ rfl ?_; with_reducible assumption)

theorem State.t0Sense_eff {s : State} {w : Nat} {f : BitFlips}
    (hW : Sub 0x7000008 W) (h : Eff W s₀ s)  : Eff W s₀ (State.t0Sense s w f).2 := by
  unfold State.t0Sense
  repeat' first
    | with_reducible assumption
    | ((with_reducible refine Sub.trans ?_ hW); exact rfl)
    | ((with_reducible refine EffL.mk ?_); constructor <;> first | (intro _; with_reducible rfl) | exact fun e => hW.no rfl e)
    | (extract_lets +onlyGivenNames v; refine (fun (hv : Eff W s₀ v) => ?_) ?_; clear_value v; rotate_left; subst v)
    | with_reducible apply State.queueWriteBack_eff
    | with_reducible apply State.addSat_eff
    | with_reducible apply State.setBit_eff
    | with_reducible apply State.setReg_eff
    | dsimp -zeta only
    | split
    | (refine Eff.lit ?_ rfl ?_; with_reducible assumption)

theorem State.t0Range_eff {s : State} {a : Nat} {len : Nat}
    (hW : Sub 0x7000008 W) (h : Eff W s₀ s)  : Eff W s₀ (State.t0Range s a len).2 := by
  unfold State.t0Range
  repeat' first
    | with_reducible assumption
    | (extract_lets +onlyGivenNames v; clear_value v)
    | with_reducible apply Eff.iteSnd
    | with_reducible refine Eff.foldlSnd _ (fun _ _ _ => ?_) ?_
    | with_reducible apply State.t0Sense_eff

theorem State.logFlips_eff {s : State} {a : Nat} {len : Nat}
    (hW : Sub 0x100001F0000000000008 W) (h : Eff W s₀ s)  : Eff W s₀ (State.logFlips s a len) := by
  unfold State.logFlips
  repeat' first
    | with_reducible assumption
    | with_reducible refine Eff.foldl _ (fun _ _ _ => ?_) ?_
    | with_reducible apply State.logError_eff

theorem State.senseRange_eff {s : State} {a : Nat} {len : Nat}
    (hW : Sub 0x67000008 W) (h : Eff W s₀ s)  : Eff W s₀ (State.senseRange s a len).2 := by
  unfold State.senseRange
  repeat' first
    | with_reducible assumption
    | ((with_reducible refine Sub.trans ?_ hW); exact rfl)
    | with_reducible apply Eff.ite
    | with_reducible apply Eff.iteSnd
    | with_reducible apply State.t0Range_eff
    | with_reducible apply State.t1Range_eff
    | with_reducible apply State.setBit_eff
    | dsimp -zeta only
    | split

theorem State.senseWrite_eff {s : State} {a : Nat} {len : Nat}
    (hW : Sub 0x60000008 W) (h : Eff W s₀ s)  : Eff W s₀ (State.senseWrite s a len).2 := by
  unfold State.senseWrite
  repeat' first
    | with_reducible assumption
    | with_reducible apply State.t1Range_eff
    | split

theorem State.endStream_eff {s : State} {sc : Nat} {end_ : Nat} {cause : Nat}
    (hW : Sub 0x10000000000 W) (h : Eff W s₀ s)  : Eff W s₀ (State.endStream s sc end_ cause) := by
  unfold State.endStream
  repeat' first
    | with_reducible assumption
    | with_reducible apply State.updStream_eff

theorem State.openHole_eff {s : State} {sc : Nat} {cause : Nat} {first : Nat} {lanes : Nat}
    (hW : Sub 0x10000000000 W) (h : Eff W s₀ s)  : Eff W s₀ (State.openHole s sc cause first lanes) := by
  unfold State.openHole
  repeat' first
    | with_reducible assumption
    | with_reducible apply State.updStream_eff

theorem State.holeAll_eff {s : State} {cause : Nat}
    (hW : Sub 0x10000000000 W) (h : Eff W s₀ s)  : Eff W s₀ (State.holeAll s cause) := by
  unfold State.holeAll
  repeat' first
    | with_reducible assumption
    | with_reducible refine Eff.foldl _ (fun _ _ _ => ?_) ?_
    | with_reducible apply State.openHole_eff

theorem State.reportUnread_eff {s : State} {e : Nat} {own : Nat} {row : Option Nat} {a : Nat}
    (hW : Sub 0x100001F0010000301008 W) (h : Eff W s₀ s)  : Eff W s₀ (State.reportUnread s e own row a) := by
  unfold State.reportUnread
  repeat' first
    | with_reducible assumption
    | ((with_reducible refine Sub.trans ?_ hW); exact rfl)
    | ((with_reducible refine EffL.mk ?_); constructor <;> first | (intro _; with_reducible rfl) | exact fun e => hW.no rfl e)
    | (extract_lets +onlyGivenNames v; refine (fun (hv : Eff W s₀ v) => ?_) ?_; clear_value v; rotate_left; subst v)
    | (extract_lets +onlyGivenNames v; clear_value v)
    | with_reducible apply Eff.ite
    | with_reducible apply State.holeAll_eff
    | with_reducible apply State.openHole_eff
    | with_reducible apply State.endStream_eff
    | with_reducible apply State.logError_eff
    | split
    | (refine Eff.lit ?_ rfl ?_; with_reducible assumption)

end Sys2Proof.Machine
end

