-- ==== Sys2Proof/Laws/EffQueues.lean ====
section
/-!
SUPPORT. Laws/EffQueues.lean: which fields of the state every operation of Machine/Queues.lean may change.
-/
namespace Sys2Proof.Machine

variable {W : Nat} {s₀ : State}

theorem State.faultQueue_eff {s : State} {q : Nat} {cause : Nat}
    (hW : Sub 0x100001F0000000000008 W) (h : Eff W s₀ s)  : Eff W s₀ (State.faultQueue s q cause) := by
  unfold State.faultQueue
  repeat' first
    | with_reducible assumption
    | ((with_reducible refine Sub.trans ?_ hW); exact rfl)
    | (extract_lets +onlyGivenNames v; clear_value v)
    | with_reducible apply State.logError_eff
    | with_reducible apply State.setBit_eff
    | with_reducible apply State.setFld_eff

theorem State.ringWrite_eff {s : State} {q : Nat} {a : Nat} {bs : List Byte}
    (hW : Sub 0x83800000 W) (h : Eff W s₀ s)  : Eff W s₀ (State.ringWrite s q a bs) := by
  unfold State.ringWrite
  repeat' first
    | with_reducible assumption
    | ((with_reducible refine Sub.trans ?_ hW); exact rfl)
    | ((with_reducible refine EffL.mk ?_); constructor <;> first | (intro _; with_reducible rfl) | exact fun e => hW.no rfl e)
    | with_reducible apply Eff.ite
    | with_reducible apply State.t0Store_eff
    | (refine Eff.lit ?_ rfl ?_; with_reducible assumption)

theorem State.signal_eff {s : State} {q : Nat}
    (hW : Sub 0x10000000100000000008 W) (h : Eff W s₀ s)  : Eff W s₀ (State.signal s q) := by
  unfold State.signal
  repeat' first
    | with_reducible assumption
    | ((with_reducible refine Sub.trans ?_ hW); exact rfl)
    | with_reducible apply State.updQueue_eff
    | with_reducible apply State.sendVector_eff

theorem State.checkSignal_eff {s : State} {q : Nat} {irqNow : Bool}
    (hW : Sub 0x10000000100000000008 W) (h : Eff W s₀ s)  : Eff W s₀ (State.checkSignal s q irqNow) := by
  unfold State.checkSignal
  repeat' first
    | with_reducible assumption
    | with_reducible apply Eff.ite
    | with_reducible apply State.signal_eff

theorem State.writeRecord_eff {s : State} {q : Nat} {irqNow : Bool} {bs : List Byte}
    (hW : Sub 0x10000000100083800008 W) (h : Eff W s₀ s)  : Eff W s₀ (State.writeRecord s q irqNow bs) := by
  unfold State.writeRecord
  repeat' first
    | with_reducible assumption
    | ((with_reducible refine Sub.trans ?_ hW); exact rfl)
    | (extract_lets +onlyGivenNames v; refine (fun (hv : Eff W s₀ v) => ?_) ?_; clear_value v; rotate_left; subst v)
    | (extract_lets +onlyGivenNames v; clear_value v)
    | with_reducible apply State.checkSignal_eff
    | with_reducible apply State.ringWrite_eff
    | with_reducible apply State.updQueue_eff
    | with_reducible apply State.setFld_eff

theorem State.showHeld_eff {s : State} {q : Nat}
    (hW : Sub 0x8 W) (h : Eff W s₀ s)  : Eff W s₀ (State.showHeld s q) := by
  unfold State.showHeld
  repeat' first
    | with_reducible assumption
    | (extract_lets +onlyGivenNames v; clear_value v)
    | with_reducible apply State.setFld_eff

theorem State.postResult_eff {s : State} {sc : Nat} {rtype : Nat} {lane : Nat} {count : Nat} {tick : Nat} {first : Nat} {body : List Byte}
    (hW : Sub 0x10000200110083800008 W) (h : Eff W s₀ s)  : Eff W s₀ (State.postResult s sc rtype lane count tick first body) := by
  unfold State.postResult
  repeat' first
    | with_reducible assumption
    | ((with_reducible refine Sub.trans ?_ hW); exact rfl)
    | (extract_lets +onlyGivenNames v; clear_value v)
    | with_reducible apply Eff.ite
    | with_reducible apply State.showHeld_eff
    | with_reducible apply State.writeRecord_eff
    | with_reducible apply State.peerMsg_eff
    | with_reducible apply State.setStream_eff
    | split

theorem State.flushHeld_eff {s : State} {q : Nat} {x2 : Nat}
    (hW : Sub 0x10000000150083800008 W) (h : Eff W s₀ s)  : Eff W s₀ (State.flushHeld s q x2) := by
  induction x2 generalizing s q with
  | zero =>
    unfold State.flushHeld
    repeat' with_reducible assumption
  | succ n ih =>
    unfold State.flushHeld
    repeat' first
      | with_reducible assumption
      | ((with_reducible refine Sub.trans ?_ hW); exact rfl)
      | ((with_reducible refine EffL.mk ?_); constructor <;> first | (intro _; with_reducible rfl) | exact fun e => hW.no rfl e)
      | (extract_lets +onlyGivenNames v; clear_value v)
      | with_reducible apply Eff.ite
      | with_reducible apply State.showHeld_eff
      | with_reducible apply State.writeRecord_eff
      | with_reducible apply State.setStream_eff
      | with_reducible apply ih
      | split
      | (refine Eff.lit ?_ rfl ?_; with_reducible assumption)

theorem State.postHole_eff {s : State} {sc : Nat} {last : Nat} {tick : Nat} {ended : Bool}
    (hW : Sub 0x10000200110083800008 W) (h : Eff W s₀ s)  : Eff W s₀ (State.postHole s sc last tick ended) := by
  unfold State.postHole
  repeat' first
    | with_reducible assumption
    | ((with_reducible refine Sub.trans ?_ hW); exact rfl)
    | (extract_lets +onlyGivenNames v; clear_value v)
    | with_reducible apply State.postResult_eff
    | with_reducible apply State.setStream_eff
    | split

theorem State.settle_eff {s : State} {q : Nat} {tag : Nat} {status : Nat} {detail : Nat} {value : Nat} {stream : Nat}
    (hW : Sub 0x100000000000 W) (h : Eff W s₀ s)  : Eff W s₀ (State.settle s q tag status detail value stream) := by
  unfold State.settle
  repeat' first
    | with_reducible assumption
    | with_reducible apply State.updQueue_eff

theorem State.actReq_eff {s : State} {q : Nat} {tag : Nat}
    (hW : Sub 0x100000000000 W) (h : Eff W s₀ s)  : Eff W s₀ (State.actReq s q tag) := by
  unfold State.actReq
  repeat' first
    | with_reducible assumption
    | with_reducible apply State.updQueue_eff

theorem State.dueReq_eff {s : State} {q : Nat} {kind : Nat} {tag : Nat}
    (hW : Sub 0x100000000000 W) (h : Eff W s₀ s)  : Eff W s₀ (State.dueReq s q kind tag) := by
  unfold State.dueReq
  repeat' first
    | with_reducible assumption
    | with_reducible apply State.updQueue_eff
    | split

theorem State.settleStream_eff {s : State} {sc : Nat} {status : Nat → Nat}
    (hW : Sub 0x100000000000 W) (h : Eff W s₀ s)  : Eff W s₀ (State.settleStream s sc status) := by
  unfold State.settleStream
  repeat' first
    | with_reducible assumption
    | with_reducible refine Eff.foldl _ (fun _ _ _ => ?_) ?_
    | with_reducible apply State.settle_eff

end Sys2Proof.Machine
end

