-- ==== Sys2Proof/Laws/EffAudio.lean ====
section
/-!
SUPPORT. Laws/EffAudio.lean: which fields of the state every operation of Machine/Audio.lean may change.
-/
namespace Sys2Proof.Machine

variable {W : Nat} {s₀ : State}

theorem State.setAps_eff {s : State} {ps : List AudioPort}
    (hW : Sub 0x80000000000000000 W) (h : Eff W s₀ s)  : Eff W s₀ (State.setAps s ps) := by
  unfold State.setAps
  repeat' first
    | ((with_reducible refine EffL.mk ?_); constructor <;> first | (intro _; with_reducible rfl) | exact fun e => hW.no rfl e)
    | (extract_lets +onlyGivenNames v; clear_value v)
    | (refine Eff.lit ?_ rfl ?_; with_reducible assumption)

theorem State.setOuts_eff {s : State} {os : List (Nat × AudioOut)}
    (hW : Sub 0x80000000000000000 W) (h : Eff W s₀ s)  : Eff W s₀ (State.setOuts s os) := by
  unfold State.setOuts
  repeat' first
    | ((with_reducible refine EffL.mk ?_); constructor <;> first | (intro _; with_reducible rfl) | exact fun e => hW.no rfl e)
    | (extract_lets +onlyGivenNames v; clear_value v)
    | (refine Eff.lit ?_ rfl ?_; with_reducible assumption)

theorem State.updAp_eff {s : State} {k : Nat} {f : AudioPort → AudioPort}
    (hW : Sub 0x80000000000000000 W) (h : Eff W s₀ s)  : Eff W s₀ (State.updAp s k f) := by
  unfold State.updAp
  repeat' first
    | with_reducible assumption
    | with_reducible apply State.setAps_eff

theorem State.apRaise_eff {s : State} {k : Nat} {b : Nat}
    (hW : Sub 0x10000000000000000008 W) (h : Eff W s₀ s)  : Eff W s₀ (State.apRaise s k b) := by
  unfold State.apRaise
  repeat' first
    | with_reducible assumption
    | with_reducible apply State.raise_eff

theorem State.applyPort_eff {s : State} {k : Nat}
    (hW : Sub 0x10080000000000000008 W) (h : Eff W s₀ s)  : Eff W s₀ (State.applyPort s k) := by
  unfold State.applyPort
  repeat' first
    | with_reducible assumption
    | ((with_reducible refine Sub.trans ?_ hW); exact rfl)
    | (extract_lets +onlyGivenNames v; refine (fun (hv : Eff W s₀ v) => ?_) ?_; clear_value v; rotate_left; subst v)
    | (extract_lets +onlyGivenNames v; clear_value v)
    | with_reducible apply Eff.ite
    | with_reducible apply State.apRaise_eff
    | with_reducible apply State.updAp_eff
    | with_reducible apply State.setBit_eff
    | with_reducible apply State.setReg_eff

theorem State.countZeros_eff {s : State} {k : Nat} {n : Nat}
    (hW : Sub 0x10080000000000000008 W) (h : Eff W s₀ s)  : Eff W s₀ (State.countZeros s k n) := by
  unfold State.countZeros
  repeat' first
    | with_reducible assumption
    | ((with_reducible refine Sub.trans ?_ hW); exact rfl)
    | with_reducible apply Eff.ite
    | with_reducible apply State.apRaise_eff
    | with_reducible apply State.updAp_eff
    | with_reducible apply State.addSat_eff

theorem State.showMuted_eff {s : State} {k : Nat}
    (hW : Sub 0x100001F0000000000008 W) (h : Eff W s₀ s)  : Eff W s₀ (State.showMuted s k) := by
  unfold State.showMuted
  repeat' first
    | with_reducible assumption
    | ((with_reducible refine Sub.trans ?_ hW); exact rfl)
    | (extract_lets +onlyGivenNames v; refine (fun (hv : Eff W s₀ v) => ?_) ?_; clear_value v; rotate_left; subst v)
    | (extract_lets +onlyGivenNames v; clear_value v)
    | with_reducible apply Eff.ite
    | with_reducible apply State.apRaise_eff
    | with_reducible apply State.logViolation_eff
    | with_reducible apply State.setBit_eff
    | with_reducible apply State.setReg_eff

theorem State.inspect_eff {s : State} {k : Nat} {f : List Int}
    (hW : Sub 0x100801F0000000000008 W) (h : Eff W s₀ s)  : Eff W s₀ (State.inspect s k f) := by
  unfold State.inspect
  repeat' first
    | with_reducible assumption
    | ((with_reducible refine Sub.trans ?_ hW); exact rfl)
    | (extract_lets +onlyGivenNames v; clear_value v)
    | with_reducible apply State.showMuted_eff
    | with_reducible apply State.updAp_eff

theorem State.receive_eff {s : State} {k : Nat} {f : List Int}
    (hW : Sub 0x100801F0000000000008 W) (h : Eff W s₀ s)  : Eff W s₀ (State.receive s k f) := by
  unfold State.receive
  repeat' first
    | with_reducible assumption
    | ((with_reducible refine Sub.trans ?_ hW); exact rfl)
    | (extract_lets +onlyGivenNames v; refine (fun (hv : Eff W s₀ v) => ?_) ?_; clear_value v; rotate_left; subst v)
    | with_reducible apply Eff.ite
    | with_reducible apply State.inspect_eff
    | with_reducible apply State.showMuted_eff
    | with_reducible apply State.updAp_eff

theorem State.setOut_eff {s : State} {o : Nat} {x : AudioOut}
    (hW : Sub 0x80000000000000000 W) (h : Eff W s₀ s)  : Eff W s₀ (State.setOut s o x) := by
  unfold State.setOut
  repeat' first
    | with_reducible assumption
    | with_reducible apply State.setOuts_eff

theorem State.showOut_eff {s : State} {o : Nat}
    (hW : Sub 0x8 W) (h : Eff W s₀ s)  : Eff W s₀ (State.showOut s o) := by
  unfold State.showOut
  repeat' first
    | with_reducible assumption
    | (extract_lets +onlyGivenNames v; clear_value v)
    | with_reducible apply State.setReg_eff
    | split

theorem State.leaveOut_eff {s : State} {sc : Nat}
    (hW : Sub 0x80000010000000000 W) (h : Eff W s₀ s)  : Eff W s₀ (State.leaveOut s sc) := by
  unfold State.leaveOut
  repeat' first
    | with_reducible assumption
    | ((with_reducible refine Sub.trans ?_ hW); exact rfl)
    | (extract_lets +onlyGivenNames v; refine (fun (hv : Eff W s₀ v) => ?_) ?_; clear_value v; rotate_left; subst v)
    | with_reducible apply State.setOuts_eff
    | with_reducible apply State.updStream_eff

theorem State.bindOut_eff {s : State} {sc : Nat} {port : Nat} {slot : Nat} {two : Bool}
    (hW : Sub 0x80000010000000008 W) (h : Eff W s₀ s)  : Eff W s₀ (State.bindOut s sc port slot two).2 := by
  unfold State.bindOut
  repeat' first
    | with_reducible assumption
    | ((with_reducible refine Sub.trans ?_ hW); exact rfl)
    | (extract_lets +onlyGivenNames v; refine (fun (hv : Eff W s₀ v) => ?_) ?_; clear_value v; rotate_left; subst v)
    | (extract_lets +onlyGivenNames v; clear_value v)
    | (extract_lets +onlyGivenNames v; subst v)
    | with_reducible apply Eff.iteSnd
    | with_reducible apply State.leaveOut_eff
    | with_reducible apply State.showOut_eff
    | with_reducible apply State.setOut_eff
    | with_reducible apply State.updStream_eff
    | split

theorem State.commitOut_eff {s : State} {o : Nat} {x : AudioOut}
    (hW : Sub 0x80000000000000008 W) (h : Eff W s₀ s)  : Eff W s₀ (State.commitOut s o x).2 := by
  unfold State.commitOut
  repeat' first
    | with_reducible assumption
    | ((with_reducible refine Sub.trans ?_ hW); exact rfl)
    | (extract_lets +onlyGivenNames v; refine (fun (hv : Eff W s₀ v) => ?_) ?_; clear_value v; rotate_left; subst v)
    | (extract_lets +onlyGivenNames v; clear_value v)
    | with_reducible apply Eff.ite
    | with_reducible apply State.showOut_eff
    | with_reducible apply State.setOut_eff
    | with_reducible apply State.setOuts_eff

theorem State.commitPort_eff {s : State} {k : Nat}
    (hW : Sub 0x80000000000000008 W) (h : Eff W s₀ s)  : Eff W s₀ (State.commitPort s k) := by
  unfold State.commitPort
  repeat' first
    | with_reducible assumption
    | ((with_reducible refine Sub.trans ?_ hW); exact rfl)
    | (extract_lets +onlyGivenNames v; refine (fun (hv : Eff W s₀ v.2) => ?_) ?_; clear_value v; rotate_left; subst v)
    | (extract_lets +onlyGivenNames v; clear_value v)
    | with_reducible apply Eff.ite
    | with_reducible refine Eff.foldlSnd _ (fun _ _ _ => ?_) ?_
    | with_reducible apply State.commitOut_eff
    | with_reducible apply State.updAp_eff

theorem State.portEdge_eff {s : State} {k : Nat} {ticks : Nat} {lag : Nat}
    (hW : Sub 0x10080000000000000008 W) (h : Eff W s₀ s)  : Eff W s₀ (State.portEdge s k ticks lag) := by
  unfold State.portEdge
  repeat' first
    | with_reducible assumption
    | ((with_reducible refine Sub.trans ?_ hW); exact rfl)
    | (extract_lets +onlyGivenNames v; refine (fun (hv : Eff W s₀ v) => ?_) ?_; clear_value v; rotate_left; subst v)
    | (extract_lets +onlyGivenNames v; clear_value v)
    | with_reducible apply Eff.ite
    | with_reducible apply State.commitPort_eff
    | with_reducible apply State.countZeros_eff
    | with_reducible apply State.apRaise_eff
    | with_reducible apply State.updAp_eff
    | with_reducible apply State.addSat_eff

theorem State.endRamp_eff {s : State}
    (hW : Sub 0x10080200110083800008 W) (h : Eff W s₀ s)  : Eff W s₀ (State.endRamp s) := by
  unfold State.endRamp
  repeat' first
    | with_reducible assumption
    | ((with_reducible refine Sub.trans ?_ hW); exact rfl)
    | ((with_reducible refine EffL.mk ?_); constructor <;> first | (intro _; with_reducible rfl) | exact fun e => hW.no rfl e)
    | (extract_lets +onlyGivenNames v; refine (fun (hv : Eff W s₀ v) => ?_) ?_; clear_value v; rotate_left; subst v)
    | (extract_lets +onlyGivenNames v; clear_value v)
    | with_reducible apply Eff.ite
    | with_reducible refine Eff.foldl _ (fun _ _ _ => ?_) ?_
    | with_reducible apply State.setAps_eff
    | with_reducible apply State.postResult_eff
    | with_reducible apply State.setBit_eff
    | split
    | (refine Eff.lit ?_ rfl ?_; with_reducible assumption)

theorem State.audioEdge_eff {s : State} {lag : Nat}
    (hW : Sub 0x10080200110083800008 W) (h : Eff W s₀ s)  : Eff W s₀ (State.audioEdge s lag) := by
  unfold State.audioEdge
  repeat' first
    | with_reducible assumption
    | ((with_reducible refine Sub.trans ?_ hW); exact rfl)
    | ((with_reducible refine EffL.mk ?_); constructor <;> first | (intro _; with_reducible rfl) | exact fun e => hW.no rfl e)
    | (extract_lets +onlyGivenNames v; refine (fun (hv : Eff W s₀ v) => ?_) ?_; clear_value v; rotate_left; subst v)
    | (extract_lets +onlyGivenNames v; clear_value v)
    | with_reducible refine Eff.foldl _ (fun _ _ _ => ?_) ?_
    | with_reducible apply State.endRamp_eff
    | with_reducible apply State.portEdge_eff
    | (refine Eff.lit ?_ rfl ?_; with_reducible assumption)

theorem State.audioStart_eff {s : State}
    (hW : Sub 0x80000000000000000 W) (h : Eff W s₀ s)  : Eff W s₀ (State.audioStart s) := by
  unfold State.audioStart
  repeat' first
    | with_reducible assumption
    | ((with_reducible refine EffL.mk ?_); constructor <;> first | (intro _; with_reducible rfl) | exact fun e => hW.no rfl e)
    | (extract_lets +onlyGivenNames v; refine (fun (hv : Eff W s₀ v) => ?_) ?_; clear_value v; rotate_left; subst v)
    | (extract_lets +onlyGivenNames v; clear_value v)
    | with_reducible apply State.setAps_eff
    | (refine Eff.lit ?_ rfl ?_; with_reducible assumption)

theorem State.latchPlay_eff {s : State}
    (hW : Sub 0x80000000000000000 W) (h : Eff W s₀ s)  : Eff W s₀ (State.latchPlay s) := by
  unfold State.latchPlay
  repeat' first
    | with_reducible assumption
    | (extract_lets +onlyGivenNames v; clear_value v)
    | with_reducible apply State.setOuts_eff

theorem State.beginRamp_eff {s : State}
    (hW : Sub 0x80000000000000008 W) (h : Eff W s₀ s)  : Eff W s₀ (State.beginRamp s) := by
  unfold State.beginRamp
  repeat' first
    | with_reducible assumption
    | ((with_reducible refine Sub.trans ?_ hW); exact rfl)
    | ((with_reducible refine EffL.mk ?_); constructor <;> first | (intro _; with_reducible rfl) | exact fun e => hW.no rfl e)
    | (extract_lets +onlyGivenNames v; refine (fun (hv : Eff W s₀ v) => ?_) ?_; clear_value v; rotate_left; subst v)
    | (extract_lets +onlyGivenNames v; clear_value v)
    | with_reducible apply Eff.ite
    | with_reducible apply State.setAps_eff
    | with_reducible apply State.setBit_eff
    | (refine Eff.lit ?_ rfl ?_; with_reducible assumption)

theorem State.rampFrame_eff {s : State} {k : Nat} {f : List Int}
    (hW : Sub 0x80000000000000000 W) (h : Eff W s₀ s)  : Eff W s₀ (State.rampFrame s k f).2 := by
  unfold State.rampFrame
  repeat' first
    | with_reducible assumption
    | (extract_lets +onlyGivenNames v; clear_value v)
    | with_reducible apply State.updAp_eff
    | split

theorem State.transmit_eff {s : State} {k : Nat}
    (hW : Sub 0x10080000000000000008 W) (h : Eff W s₀ s)  : Eff W s₀ (State.transmit s k) := by
  unfold State.transmit
  repeat' first
    | with_reducible assumption
    | ((with_reducible refine Sub.trans ?_ hW); exact rfl)
    | (extract_lets +onlyGivenNames v; clear_value v)
    | with_reducible apply Eff.iteSnd
    | with_reducible apply State.rampFrame_eff
    | with_reducible apply State.countZeros_eff
    | with_reducible apply State.updAp_eff
    | split

theorem State.audioFrame_eff {s : State} {k : Nat} {f : TdmFrame}
    (hW : Sub 0x100801F000000000000C W) (h : Eff W s₀ s)  : Eff W s₀ (State.audioFrame s k f) := by
  unfold State.audioFrame
  repeat' first
    | with_reducible assumption
    | ((with_reducible refine Sub.trans ?_ hW); exact rfl)
    | (extract_lets +onlyGivenNames v; refine (fun (hv : Eff W s₀ v) => ?_) ?_; clear_value v; rotate_left; subst v)
    | (extract_lets +onlyGivenNames v; clear_value v)
    | with_reducible apply Eff.ite
    | with_reducible apply State.transmit_eff
    | with_reducible apply State.receive_eff
    | with_reducible apply State.apRaise_eff
    | with_reducible apply State.updAp_eff
    | with_reducible apply State.logViolation_eff
    | with_reducible apply State.reach_eff
    | with_reducible apply State.addSat_eff
    | with_reducible apply State.setBit_eff

theorem execAudioFrame_eff {port : Fin 4} {f : TdmFrame} {s : State}
    (hW : Sub 0x100801F000000000000C W) (h : Eff W s₀ s)  : EffX W s₀ (execAudioFrame port f s) := by
  unfold execAudioFrame
  repeat' first
    | with_reducible assumption
    | with_reducible apply EffX.of_next
    | with_reducible apply State.audioFrame_eff

theorem execNonaudioHoldExpiry_eff {port : Fin 4} {slot : Fin 32} {s : State}
    (hW : Sub 0x100801F0000000000008 W) (h : Eff W s₀ s)  : EffX W s₀ (execNonaudioHoldExpiry port slot s) := by
  unfold execNonaudioHoldExpiry
  repeat' first
    | with_reducible assumption
    | ((with_reducible refine Sub.trans ?_ hW); exact rfl)
    | with_reducible apply EffX.of_next
    | with_reducible apply Eff.ite
    | with_reducible apply State.showMuted_eff
    | with_reducible apply State.updAp_eff
    | split

theorem execRateWindow_eff {port : Fin 4} {frames : Nat} {cycles : Nat} {s : State}
    (hW : Sub 0x100001F0000000000008 W) (h : Eff W s₀ s)  : EffX W s₀ (execRateWindow port frames cycles s) := by
  unfold execRateWindow
  repeat' first
    | with_reducible assumption
    | ((with_reducible refine Sub.trans ?_ hW); exact rfl)
    | (extract_lets +onlyGivenNames v; refine (fun (hv : Eff W s₀ v) => ?_) ?_; clear_value v; rotate_left; subst v)
    | (extract_lets +onlyGivenNames v; clear_value v)
    | with_reducible apply EffX.of_next
    | with_reducible apply Eff.ite
    | with_reducible apply State.apRaise_eff
    | with_reducible apply State.logViolation_eff
    | with_reducible apply State.setBit_eff
    | with_reducible apply State.setFld_eff
    | with_reducible apply State.setReg_eff

theorem execAudioNoclk_eff {port : Fin 4} {s : State}
    (hW : Sub 0x100001F000000000000C W) (h : Eff W s₀ s)  : EffX W s₀ (execAudioNoclk port s) := by
  unfold execAudioNoclk
  repeat' first
    | with_reducible assumption
    | ((with_reducible refine Sub.trans ?_ hW); exact rfl)
    | (extract_lets +onlyGivenNames v; refine (fun (hv : Eff W s₀ v) => ?_) ?_; clear_value v; rotate_left; subst v)
    | (extract_lets +onlyGivenNames v; clear_value v)
    | with_reducible apply EffX.of_next
    | with_reducible apply Eff.ite
    | with_reducible apply State.apRaise_eff
    | with_reducible apply State.logViolation_eff
    | with_reducible apply State.reach_eff
    | with_reducible apply State.setBit_eff
    | split

end Sys2Proof.Machine
end

