-- ==== Sys2Proof/Laws/EffEngine.lean ====
section
/-!
SUPPORT. Laws/EffEngine.lean: which fields of the state every operation of Machine/Engine.lean may change.
-/
namespace Sys2Proof.Machine

variable {W : Nat} {s₀ : State}

theorem State.setBusy_eff {s : State} {e : Nat} {b : Bool}
    (hW : Sub 0x8 W) (h : Eff W s₀ s)  : Eff W s₀ (State.setBusy s e b) := by
  unfold State.setBusy
  repeat' first
    | with_reducible assumption
    | with_reducible apply State.setBit_eff
    | split

theorem State.applyPost_eff {s : State} {k : Nat} {amount : Nat} {c : Nat} {delay : Nat}
    (hW : Sub 0x4008 W) (h : Eff W s₀ s)  : Eff W s₀ (State.applyPost s k amount c delay) := by
  unfold State.applyPost
  repeat' first
    | with_reducible assumption
    | ((with_reducible refine Sub.trans ?_ hW); exact rfl)
    | ((with_reducible refine EffL.mk ?_); constructor <;> first | (intro _; with_reducible rfl) | exact fun e => hW.no rfl e)
    | (extract_lets +onlyGivenNames v; refine (fun (hv : Eff W s₀ v) => ?_) ?_; clear_value v; rotate_left; subst v)
    | with_reducible apply State.setFld_eff
    | (refine Eff.lit ?_ rfl ?_; with_reducible assumption)

theorem State.engPost_eff {s : State} {e : Nat} {k : Nat} {amount : Nat} {delay : Nat}
    (hW : Sub 0x6008 W) (h : Eff W s₀ s)  : Eff W s₀ (State.engPost s e k amount delay) := by
  unfold State.engPost
  repeat' first
    | with_reducible assumption
    | ((with_reducible refine Sub.trans ?_ hW); exact rfl)
    | (extract_lets +onlyGivenNames v; refine (fun (hv : Eff W s₀ v) => ?_) ?_; clear_value v; rotate_left; subst v)
    | (extract_lets +onlyGivenNames v; clear_value v)
    | with_reducible apply State.applyPost_eff
    | with_reducible apply State.setEng_eff

theorem State.dropPlanMove_eff {s : State} {e : Nat}
    (hW : Sub 0x200000008 W) (h : Eff W s₀ s)  : Eff W s₀ (State.dropPlanMove s e) := by
  unfold State.dropPlanMove
  repeat' first
    | with_reducible assumption
    | ((with_reducible refine Sub.trans ?_ hW); exact rfl)
    | ((with_reducible refine EffL.mk ?_); constructor <;> first | (intro _; with_reducible rfl) | exact fun e => hW.no rfl e)
    | (extract_lets +onlyGivenNames v; refine (fun (hv : Eff W s₀ v) => ?_) ?_; clear_value v; rotate_left; subst v)
    | with_reducible apply Eff.ite
    | with_reducible apply State.setBit_eff
    | with_reducible apply State.setFld_eff
    | (refine Eff.lit ?_ rfl ?_; with_reducible assumption)

theorem State.endSlice_eff {s : State} {e : Nat} {exhausted : Bool}
    (hW : Sub 0x200002088 W) (h : Eff W s₀ s)  : Eff W s₀ (State.endSlice s e exhausted) := by
  unfold State.endSlice
  repeat' first
    | with_reducible assumption
    | ((with_reducible refine Sub.trans ?_ hW); exact rfl)
    | ((with_reducible refine EffL.mk ?_); constructor <;> first | (intro _; with_reducible rfl) | exact fun e => hW.no rfl e)
    | (extract_lets +onlyGivenNames v; refine (fun (hv : Eff W s₀ v) => ?_) ?_; clear_value v; rotate_left; subst v)
    | (extract_lets +onlyGivenNames v; clear_value v)
    | with_reducible apply State.dropPlanMove_eff
    | with_reducible apply State.setBusy_eff
    | with_reducible apply State.setEng_eff
    | with_reducible apply State.setBit_eff
    | with_reducible apply State.setFld_eff
    | (refine Eff.lit ?_ rfl ?_; with_reducible assumption)

theorem State.planFault_eff {s : State} {cause : Nat} {engine : Nat} {variant : Nat} {pc : Nat} {i : LogInfo}
    (hW : Sub 0x100001F0000000000008 W) (h : Eff W s₀ s)  : Eff W s₀ (State.planFault s cause engine variant pc i) := by
  unfold State.planFault
  repeat' first
    | with_reducible assumption
    | ((with_reducible refine Sub.trans ?_ hW); exact rfl)
    | (extract_lets +onlyGivenNames v; refine (fun (hv : Eff W s₀ v) => ?_) ?_; clear_value v; rotate_left; subst v)
    | with_reducible apply Eff.ite
    | with_reducible apply State.logError_eff
    | with_reducible apply State.raise_eff
    | with_reducible apply State.setReg_eff

theorem State.postRest_eff {s : State} {e : Nat}
    (hW : Sub 0x6008 W) (h : Eff W s₀ s)  : Eff W s₀ (State.postRest s e) := by
  unfold State.postRest
  repeat' first
    | with_reducible assumption
    | (extract_lets +onlyGivenNames v; clear_value v)
    | with_reducible apply Eff.ite
    | with_reducible refine Eff.foldl _ (fun _ _ _ => ?_) ?_
    | with_reducible apply State.engPost_eff

theorem State.faultSlice_eff {s : State} {e : Nat} {cause : Nat} {addr : Nat}
    (hW : Sub 0x100001F0010200006088 W) (h : Eff W s₀ s)  : Eff W s₀ (State.faultSlice s e cause addr) := by
  unfold State.faultSlice
  repeat' first
    | with_reducible assumption
    | ((with_reducible refine Sub.trans ?_ hW); exact rfl)
    | (extract_lets +onlyGivenNames v; refine (fun (hv : Eff W s₀ v) => ?_) ?_; clear_value v; rotate_left; subst v)
    | (extract_lets +onlyGivenNames v; clear_value v)
    | with_reducible apply State.postRest_eff
    | with_reducible apply State.planFault_eff
    | with_reducible apply State.endSlice_eff
    | with_reducible apply State.holeAll_eff

theorem State.exhaust_eff {s : State} {e : Nat}
    (hW : Sub 0x100001F0010200006088 W) (h : Eff W s₀ s)  : Eff W s₀ (State.exhaust s e) := by
  unfold State.exhaust
  repeat' first
    | with_reducible assumption
    | ((with_reducible refine Sub.trans ?_ hW); exact rfl)
    | (extract_lets +onlyGivenNames v; refine (fun (hv : Eff W s₀ v) => ?_) ?_; clear_value v; rotate_left; subst v)
    | with_reducible apply State.faultSlice_eff
    | with_reducible apply State.updEng_eff
    | with_reducible apply State.raise_eff

theorem State.work_eff {s : State} {e : Nat} {n : Nat}
    (hW : Sub 0x2000 W) (h : Eff W s₀ s)  : Eff W s₀ (State.work s e n) := by
  unfold State.work
  repeat' first
    | with_reducible assumption
    | with_reducible apply State.updEng_eff

theorem State.retire_eff {s : State} {e : Nat}
    (hW : Sub 0x2000 W) (h : Eff W s₀ s)  : Eff W s₀ (State.retire s e) := by
  unfold State.retire
  repeat' first
    | with_reducible assumption
    | with_reducible apply State.updEng_eff

theorem State.runFor_eff {s : State} {e : Nat} {n : Nat} {f : State → State}
    (hW : Sub 0x100001F0010200006088 W) (h : Eff W s₀ s)  (hf : ∀ y0, Eff W s₀ y0 → Eff W s₀ (f y0)) : Eff W s₀ (State.runFor s e n f) := by
  unfold State.runFor
  repeat' first
    | with_reducible assumption
    | ((with_reducible refine Sub.trans ?_ hW); exact rfl)
    | with_reducible apply Eff.ite
    | with_reducible apply State.retire_eff
    | with_reducible apply State.work_eff
    | with_reducible apply State.exhaust_eff
    | with_reducible apply hf

theorem State.runWord_eff {s : State} {e : Nat} {w : DWord} {n : Nat} {f : State → State}
    (hW : Sub 0x100001F0010200006088 W) (h : Eff W s₀ s)  (hf : ∀ y0, Eff W s₀ y0 → Eff W s₀ (f y0)) : Eff W s₀ (State.runWord s e w n f) := by
  unfold State.runWord
  repeat' first
    | with_reducible assumption
    | with_reducible apply Eff.ite
    | with_reducible refine State.runFor_eff ?_ ?_ (fun _ _ => ?_)
    | with_reducible apply hf

theorem State.boundedCost_eff {s : State} {lo : Nat} {hi : Nat}
    (hW : Sub 0x2 W) (h : Eff W s₀ s)  : Eff W s₀ (State.boundedCost s lo hi).2 := by
  unfold State.boundedCost
  repeat' first
    | with_reducible assumption
    | with_reducible apply Eff.iteSnd
    | with_reducible apply State.draw_eff

theorem State.count_eff {s : State} {e : Nat} {f : SliceCounts → SliceCounts}
    (hW : Sub 0x2000 W) (h : Eff W s₀ s)  : Eff W s₀ (State.count s e f) := by
  unfold State.count
  repeat' first
    | with_reducible assumption
    | with_reducible apply State.updEng_eff

theorem execEnd_eff {e : EngineId} {s : State}
    (hW : Sub 0x100001F0010200006088 W) (h : Eff W s₀ s)  : EffX W s₀ (execEnd e s) := by
  unfold execEnd
  repeat' first
    | with_reducible assumption
    | ((with_reducible refine Sub.trans ?_ hW); exact rfl)
    | with_reducible apply EffX.of_next
    | with_reducible apply Eff.ite
    | with_reducible apply State.work_eff
    | with_reducible apply State.exhaust_eff
    | with_reducible apply State.endSlice_eff

theorem execLoop_eff {e : EngineId} {count : BitVec 16} {len : BitVec 16} {s : State}
    (hW : Sub 0x2000 W) (h : Eff W s₀ s)  : EffX W s₀ (execLoop e count len s) := by
  unfold execLoop
  repeat' first
    | with_reducible assumption
    | with_reducible apply EffX.of_next
    | with_reducible apply Eff.ite
    | with_reducible apply State.updEng_eff

theorem execIdle_eff {e : EngineId} {count : BitVec 16} {s : State}
    (hW : Sub 0x100001F0010200006088 W) (h : Eff W s₀ s)  : EffX W s₀ (execIdle e count s) := by
  unfold execIdle
  repeat' first
    | with_reducible assumption
    | ((with_reducible refine EffL.mk ?_); constructor <;> first | (intro _; with_reducible rfl) | exact fun e => hW.no rfl e)
    | with_reducible apply EffX.of_next
    | with_reducible refine State.runWord_eff ?_ ?_ (fun _ _ => ?_)
    | (refine Eff.lit ?_ rfl ?_; with_reducible assumption)

theorem execPost_eff {e : EngineId} {knot : BitVec 6} {value : BitVec 16} {step : BitVec 16} {s : State}
    (hW : Sub 0x100001F0010200006088 W) (h : Eff W s₀ s)  : EffX W s₀ (execPost e knot value step s) := by
  unfold execPost
  repeat' first
    | with_reducible assumption
    | ((with_reducible refine Sub.trans ?_ hW); exact rfl)
    | with_reducible apply EffX.of_next
    | with_reducible refine State.runWord_eff ?_ ?_ (fun _ _ => ?_)
    | with_reducible apply State.engPost_eff

theorem execWait_eff {e : EngineId} {knot : BitVec 6} {value : BitVec 16} {step : BitVec 16} {s : State}
    (hW : Sub 0x100001F0010200006088 W) (h : Eff W s₀ s)  : EffX W s₀ (execWait e knot value step s) := by
  unfold execWait
  repeat' first
    | with_reducible assumption
    | ((with_reducible refine Sub.trans ?_ hW); exact rfl)
    | (extract_lets +onlyGivenNames v; refine (fun (hv : Eff W s₀ v) => ?_) ?_; clear_value v; rotate_left; subst v)
    | (extract_lets +onlyGivenNames v; clear_value v)
    | with_reducible apply EffX.of_next
    | with_reducible apply Eff.ite
    | with_reducible apply State.retire_eff
    | with_reducible apply State.work_eff
    | with_reducible apply State.exhaust_eff
    | with_reducible apply State.updEng_eff
    | split

theorem execWaitSatisfied_eff {e : EngineId} {s : State}
    (hW : Sub 0x100001F0010200006088 W) (h : Eff W s₀ s)  : EffX W s₀ (execWaitSatisfied e s) := by
  unfold execWaitSatisfied
  repeat' first
    | with_reducible assumption
    | ((with_reducible refine Sub.trans ?_ hW); exact rfl)
    | (extract_lets +onlyGivenNames v; clear_value v)
    | with_reducible apply EffX.of_next
    | with_reducible apply Eff.ite
    | with_reducible apply State.retire_eff
    | with_reducible apply State.work_eff
    | with_reducible apply State.exhaust_eff
    | with_reducible apply State.setEng_eff
    | split

theorem execSliceBudgetExhausted_eff {e : EngineId} {s : State}
    (hW : Sub 0x100001F0010200006088 W) (h : Eff W s₀ s)  : EffX W s₀ (execSliceBudgetExhausted e s) := by
  unfold execSliceBudgetExhausted
  repeat' first
    | with_reducible assumption
    | ((with_reducible refine Sub.trans ?_ hW); exact rfl)
    | with_reducible apply EffX.of_next
    | with_reducible apply Eff.ite
    | with_reducible apply State.work_eff
    | with_reducible apply State.exhaust_eff

end Sys2Proof.Machine
end

