-- ==== Sys2Proof/Laws/EffMove.lean ====
section
/-!
SUPPORT. Laws/EffMove.lean: which fields of the state every operation of Machine/Move.lean may change.
-/
namespace Sys2Proof.Machine

variable {W : Nat} {s₀ : State}

theorem State.setCells_eff {s : State} {sp : Space} {lo : Nat} {len : Nat} {m : Cells 8}
    (hW : Sub 0x93800000 W) (h : Eff W s₀ s)  : Eff W s₀ (State.setCells s sp lo len m) := by
  unfold State.setCells
  repeat' first
    | ((with_reducible refine EffL.mk ?_); constructor <;> first | (intro _; with_reducible rfl) | exact fun e => hW.no rfl e)
    | (extract_lets +onlyGivenNames v; clear_value v)
    | split
    | (refine Eff.lit ?_ rfl ?_; with_reducible assumption)

theorem State.sparseWrite_eff {s : State} {a : Nat} {len : Nat} {bs : Cells 8}
    (hW : Sub 0x93800000 W) (h : Eff W s₀ s)  : Eff W s₀ (State.sparseWrite s a len bs) := by
  unfold State.sparseWrite
  repeat' first
    | with_reducible assumption
    | (extract_lets +onlyGivenNames v; clear_value v)
    | with_reducible refine Eff.foldlSnd _ (fun _ _ _ => ?_) ?_
    | with_reducible apply State.setCells_eff

theorem State.zeroRange_eff {s : State} {a : Nat} {len : Nat}
    (hW : Sub 0x93800000 W) (h : Eff W s₀ s)  : Eff W s₀ (State.zeroRange s a len) := by
  unfold State.zeroRange
  repeat' first
    | with_reducible assumption
    | with_reducible apply State.sparseWrite_eff

theorem State.storeBytes_eff {s : State} {a : Nat} {bs : List Byte}
    (hW : Sub 0x93800000 W) (h : Eff W s₀ s)  : Eff W s₀ (State.storeBytes s a bs) := by
  unfold State.storeBytes
  repeat' first
    | with_reducible assumption
    | with_reducible apply State.sparseWrite_eff

theorem State.showMove_eff {s : State} {cart : Nat} {owner : Nat} {fallow : Bool} {st : MoveState}
    (hW : Sub 0x8 W) (h : Eff W s₀ s)  : Eff W s₀ (State.showMove s cart owner fallow st) := by
  unfold State.showMove
  repeat' first
    | with_reducible assumption
    | (extract_lets +onlyGivenNames v; refine (fun (hv : Eff W s₀ v) => ?_) ?_; clear_value v; rotate_left; subst v)
    | (extract_lets +onlyGivenNames v; clear_value v)
    | with_reducible apply State.setBit_eff
    | with_reducible apply State.setFld_eff

theorem State.cartError_eff {s : State} {cart : Nat} {bit : Nat} {addr : Nat}
    (hW : Sub 0x8 W) (h : Eff W s₀ s)  : Eff W s₀ (State.cartError s cart bit addr) := by
  unfold State.cartError
  repeat' first
    | with_reducible assumption
    | (extract_lets +onlyGivenNames v; refine (fun (hv : Eff W s₀ v) => ?_) ?_; clear_value v; rotate_left; subst v)
    | with_reducible apply State.setReg64_eff
    | with_reducible apply State.addSat_eff
    | with_reducible apply State.setBit_eff
    | with_reducible apply State.setFld_eff

theorem State.countBytes_eff {s : State} {cart : Nat} {d : MoveDesc}
    (hW : Sub 0x8 W) (h : Eff W s₀ s)  : Eff W s₀ (State.countBytes s cart d) := by
  unfold State.countBytes
  repeat' first
    | with_reducible assumption
    | with_reducible apply State.add64_eff

theorem State.dropMove_eff {s : State} {cart : Nat} {fallow : Bool}
    (hW : Sub 0x200000000 W) (h : Eff W s₀ s)  : Eff W s₀ (State.dropMove s cart fallow) := by
  unfold State.dropMove
  repeat' first
    | ((with_reducible refine EffL.mk ?_); constructor <;> first | (intro _; with_reducible rfl) | exact fun e => hW.no rfl e)
    | (refine Eff.lit ?_ rfl ?_; with_reducible assumption)

theorem State.setFallowMove_eff {s : State} {cart : Nat} {mv : Move}
    (hW : Sub 0x200000000 W) (h : Eff W s₀ s)  : Eff W s₀ (State.setFallowMove s cart mv) := by
  unfold State.setFallowMove
  repeat' first
    | ((with_reducible refine EffL.mk ?_); constructor <;> first | (intro _; with_reducible rfl) | exact fun e => hW.no rfl e)
    | (refine Eff.lit ?_ rfl ?_; with_reducible assumption)

theorem State.senseSource_eff {s : State} {d : MoveDesc}
    (hW : Sub 0x67000008 W) (h : Eff W s₀ s)  : Eff W s₀ (State.senseSource s d).2 := by
  unfold State.senseSource
  repeat' first
    | with_reducible assumption
    | with_reducible apply Eff.iteSnd
    | with_reducible apply State.senseRange_eff

theorem State.copyMove_eff {s : State} {d : MoveDesc}
    (hW : Sub 0xF3800008 W) (h : Eff W s₀ s)  : Eff W s₀ (State.copyMove s d).2 := by
  unfold State.copyMove
  repeat' first
    | with_reducible assumption
    | ((with_reducible refine Sub.trans ?_ hW); exact rfl)
    | (extract_lets +onlyGivenNames v; clear_value v)
    | with_reducible apply State.sparseWrite_eff
    | with_reducible apply State.t1Range_eff
    | dsimp -zeta only
    | split

theorem execMove_eff {cart : Fin 8} {mdesc : BitVec 12} {srcStep : BitVec 16} {dstStep : BitVec 16} {s : State}
    (hW : Sub 0x100001F0010200006088 W) (h : Eff W s₀ s)  : EffX W s₀ (execMove cart mdesc srcStep dstStep s) := by
  unfold execMove
  repeat' first
    | with_reducible assumption
    | ((with_reducible refine Sub.trans ?_ hW); exact rfl)
    | ((with_reducible refine EffL.mk ?_); constructor <;> first | (intro _; with_reducible rfl) | exact fun e => hW.no rfl e)
    | (extract_lets +onlyGivenNames v; refine (fun (hv : Eff W s₀ v) => ?_) ?_; clear_value v; rotate_left; subst v)
    | (extract_lets +onlyGivenNames v; clear_value v)
    | with_reducible apply EffX.of_next
    | with_reducible apply Eff.ite
    | with_reducible apply State.cartError_eff
    | with_reducible apply State.showMove_eff
    | with_reducible apply State.faultSlice_eff
    | split
    | (refine Eff.lit ?_ rfl ?_; with_reducible assumption)

theorem State.moveCost_eff {s : State} {d : MoveDesc}
    (hW : Sub 0x2 W) (h : Eff W s₀ s)  : Eff W s₀ (State.moveCost s d).2 := by
  unfold State.moveCost
  repeat' first
    | with_reducible assumption
    | (extract_lets +onlyGivenNames v; clear_value v)
    | with_reducible apply Eff.iteSnd
    | with_reducible apply State.boundedCost_eff

theorem State.failPlanMove_eff {s : State} {cart : Nat} {mv : Move} {src : Bool} {addr : Nat}
    (hW : Sub 0x100001F0010200207008 W) (h : Eff W s₀ s)  : Eff W s₀ (State.failPlanMove s cart mv src addr) := by
  unfold State.failPlanMove
  repeat' first
    | with_reducible assumption
    | ((with_reducible refine Sub.trans ?_ hW); exact rfl)
    | ((with_reducible refine EffL.mk ?_); constructor <;> first | (intro _; with_reducible rfl) | exact fun e => hW.no rfl e)
    | (extract_lets +onlyGivenNames v; refine (fun (hv : Eff W s₀ v) => ?_) ?_; clear_value v; rotate_left; subst v)
    | (extract_lets +onlyGivenNames v; clear_value v)
    | with_reducible apply Eff.ite
    | with_reducible apply State.dropMove_eff
    | with_reducible apply State.cartError_eff
    | with_reducible apply State.showMove_eff
    | with_reducible apply State.retire_eff
    | with_reducible apply State.engPost_eff
    | with_reducible apply State.holeAll_eff
    | with_reducible apply State.logError_eff
    | (refine Eff.lit ?_ rfl ?_; with_reducible assumption)

theorem State.commitPlanMove_eff {s : State} {cart : Nat} {mv : Move} {a : CommitAnswer}
    (hW : Sub 0x100001F00102F7A0708A W) (h : Eff W s₀ s)  : Eff W s₀ (State.commitPlanMove s cart mv a) := by
  unfold State.commitPlanMove
  repeat' first
    | with_reducible assumption
    | ((with_reducible refine Sub.trans ?_ hW); exact rfl)
    | (extract_lets +onlyGivenNames v; refine (fun (hv : Eff W s₀ v) => ?_) ?_; clear_value v; rotate_left; subst v)
    | (extract_lets +onlyGivenNames v; clear_value v)
    | with_reducible apply Eff.ite
    | with_reducible apply State.failPlanMove_eff
    | with_reducible apply State.moveCost_eff
    | with_reducible apply State.copyMove_eff
    | with_reducible apply State.senseSource_eff
    | with_reducible apply State.dropMove_eff
    | with_reducible apply State.countBytes_eff
    | with_reducible apply State.showMove_eff
    | with_reducible apply State.retire_eff
    | with_reducible apply State.work_eff
    | with_reducible apply State.exhaust_eff
    | with_reducible apply State.engPost_eff
    | with_reducible refine Eff.snd (by with_reducible assumption) ?_
    | split

end Sys2Proof.Machine
end

