-- ==== Sys2Proof/Laws/EffCamera.lean ====
section
/-!
SUPPORT. Laws/EffCamera.lean: which fields of the state every operation of Machine/Camera.lean may change.
-/
namespace Sys2Proof.Machine

variable {W : Nat} {s₀ : State}

theorem State.updCam_eff {s : State} {f : CamState → CamState}
    (hW : Sub 0x100000000000000000 W) (h : Eff W s₀ s)  : Eff W s₀ (State.updCam s f) := by
  unfold State.updCam
  repeat' first
    | ((with_reducible refine EffL.mk ?_); constructor <;> first | (intro _; with_reducible rfl) | exact fun e => hW.no rfl e)
    | (refine Eff.lit ?_ rfl ?_; with_reducible assumption)

theorem State.camDrop_eff {s : State}
    (hW : Sub 0x10000000000000000008 W) (h : Eff W s₀ s)  : Eff W s₀ (State.camDrop s) := by
  unfold State.camDrop
  repeat' first
    | with_reducible assumption
    | ((with_reducible refine Sub.trans ?_ hW); exact rfl)
    | with_reducible apply State.raise_eff
    | with_reducible apply State.addSat_eff

theorem State.camBad_eff {s : State} {sub : Nat}
    (hW : Sub 0x101001F0000000000008 W) (h : Eff W s₀ s)  : Eff W s₀ (State.camBad s sub) := by
  unfold State.camBad
  repeat' first
    | with_reducible assumption
    | ((with_reducible refine Sub.trans ?_ hW); exact rfl)
    | with_reducible apply Eff.ite
    | with_reducible apply State.updCam_eff
    | with_reducible apply State.logViolation_eff

theorem State.camEndBad_eff {s : State}
    (hW : Sub 0x10100000000000000008 W) (h : Eff W s₀ s)  : Eff W s₀ (State.camEndBad s) := by
  unfold State.camEndBad
  repeat' first
    | with_reducible assumption
    | ((with_reducible refine Sub.trans ?_ hW); exact rfl)
    | (extract_lets +onlyGivenNames v; refine (fun (hv : Eff W s₀ v) => ?_) ?_; clear_value v; rotate_left; subst v)
    | with_reducible apply State.updCam_eff
    | with_reducible apply State.raise_eff
    | with_reducible apply State.addSat_eff

theorem State.camOther_eff {s : State}
    (hW : Sub 0x8 W) (h : Eff W s₀ s)  : Eff W s₀ (State.camOther s) := by
  unfold State.camOther
  repeat' first
    | with_reducible assumption
    | with_reducible apply State.addSat_eff

theorem execCamFrameStart_eff {vc : Fin 4} {s : State}
    (hW : Sub 0x101001F0000000000008 W) (h : Eff W s₀ s)  : EffX W s₀ (execCamFrameStart vc s) := by
  unfold execCamFrameStart
  repeat' first
    | with_reducible assumption
    | ((with_reducible refine Sub.trans ?_ hW); exact rfl)
    | (extract_lets +onlyGivenNames v; refine (fun (hv : Eff W s₀ v) => ?_) ?_; clear_value v; rotate_left; subst v)
    | (extract_lets +onlyGivenNames v; have hp := fun a => Eff W s₀ (v a); clear hp; subst v)
    | with_reducible apply EffX.of_next
    | with_reducible apply Eff.ite
    | with_reducible apply State.camOther_eff
    | with_reducible apply State.camEndBad_eff
    | with_reducible apply State.camBad_eff
    | with_reducible apply State.camDrop_eff
    | with_reducible apply State.updCam_eff
    | with_reducible apply State.setBit_eff
    | dsimp -zeta only
    | split

theorem execCamLongPacket_eff {p : LongPacket} {s : State}
    (hW : Sub 0x101001F0000093800008 W) (h : Eff W s₀ s)  : EffX W s₀ (execCamLongPacket p s) := by
  unfold execCamLongPacket
  repeat' first
    | with_reducible assumption
    | ((with_reducible refine Sub.trans ?_ hW); exact rfl)
    | (extract_lets +onlyGivenNames v; refine (fun (hv : Eff W s₀ v) => ?_) ?_; clear_value v; rotate_left; subst v)
    | (extract_lets +onlyGivenNames v; clear_value v)
    | with_reducible apply EffX.of_next
    | with_reducible apply Eff.ite
    | with_reducible apply State.camOther_eff
    | with_reducible apply State.camBad_eff
    | with_reducible apply State.updCam_eff
    | with_reducible apply State.storeBytes_eff
    | with_reducible apply State.logViolation_eff
    | split

theorem execCamFrameEnd_eff {vc : Fin 4} {s : State}
    (hW : Sub 0x101001F0000000000008 W) (h : Eff W s₀ s)  : EffX W s₀ (execCamFrameEnd vc s) := by
  unfold execCamFrameEnd
  repeat' first
    | with_reducible assumption
    | ((with_reducible refine Sub.trans ?_ hW); exact rfl)
    | (extract_lets +onlyGivenNames v; refine (fun (hv : Eff W s₀ v) => ?_) ?_; clear_value v; rotate_left; subst v)
    | with_reducible apply EffX.of_next
    | with_reducible apply Eff.ite
    | with_reducible apply State.camOther_eff
    | with_reducible apply State.camEndBad_eff
    | with_reducible apply State.camBad_eff
    | with_reducible apply State.camDrop_eff
    | with_reducible apply State.updCam_eff
    | with_reducible apply State.logViolation_eff
    | with_reducible apply State.addSat_eff

theorem execCamNoFrame_eff {s : State}
    (hW : Sub 0x101001F000000000000C W) (h : Eff W s₀ s)  : EffX W s₀ (execCamNoFrame s) := by
  unfold execCamNoFrame
  repeat' first
    | with_reducible assumption
    | ((with_reducible refine Sub.trans ?_ hW); exact rfl)
    | (extract_lets +onlyGivenNames v; refine (fun (hv : Eff W s₀ v) => ?_) ?_; clear_value v; rotate_left; subst v)
    | with_reducible apply EffX.of_next
    | with_reducible apply Eff.ite
    | with_reducible apply State.updCam_eff
    | with_reducible apply State.logViolation_eff
    | with_reducible apply State.raise_eff
    | with_reducible apply State.reach_eff
    | with_reducible apply State.setBit_eff

theorem State.camArm_eff {s : State}
    (hW : Sub 0x100000000093800008 W) (h : Eff W s₀ s)  : Eff W s₀ (State.camArm s) := by
  unfold State.camArm
  repeat' first
    | with_reducible assumption
    | ((with_reducible refine Sub.trans ?_ hW); exact rfl)
    | (extract_lets +onlyGivenNames v; refine (fun (hv : Eff W s₀ v) => ?_) ?_; clear_value v; rotate_left; subst v)
    | (extract_lets +onlyGivenNames v; clear_value v)
    | with_reducible apply Eff.ite
    | with_reducible apply State.updCam_eff
    | with_reducible apply State.storeBytes_eff
    | with_reducible apply State.setBit_eff
    | split

theorem State.zoneStep_eff {s : State} {base : Nat} {z : Nat}
    (hW : Sub 0x100000000000000008 W) (h : Eff W s₀ s)  : Eff W s₀ (State.zoneStep s base z) := by
  unfold State.zoneStep
  repeat' first
    | with_reducible assumption
    | ((with_reducible refine Sub.trans ?_ hW); exact rfl)
    | (extract_lets +onlyGivenNames v; clear_value v)
    | with_reducible apply Eff.ite
    | with_reducible apply State.updCam_eff
    | with_reducible apply State.setBit_eff

theorem State.updateZones_eff {s : State}
    (hW : Sub 0x100000000000000008 W) (h : Eff W s₀ s)  : Eff W s₀ (State.updateZones s) := by
  unfold State.updateZones
  repeat' first
    | with_reducible assumption
    | ((with_reducible refine Sub.trans ?_ hW); exact rfl)
    | (extract_lets +onlyGivenNames v; refine (fun (hv : Eff W s₀ v) => ?_) ?_; clear_value v; rotate_left; subst v)
    | (extract_lets +onlyGivenNames v; clear_value v)
    | with_reducible apply Eff.ite
    | with_reducible refine Eff.foldl _ (fun _ _ _ => ?_) ?_
    | with_reducible apply State.zoneStep_eff
    | with_reducible apply State.setBit_eff
    | split

end Sys2Proof.Machine
end

