-- ==== Sys2Proof/Laws/EffFixJob.lean ====
section
/-!
SUPPORT. Laws/EffFixJob.lean: which fields of the state every operation of Machine/FixJob.lean may change.
-/
namespace Sys2Proof.Machine

variable {W : Nat} {s₀ : State}

theorem State.f32_eff {s : State} {b : Nat}
    (hW : Sub 0x2 W) (h : Eff W s₀ s)  : Eff W s₀ (State.f32 s b).2 := by
  unfold State.f32
  repeat' first
    | with_reducible assumption
    | with_reducible apply State.draw_eff
    | dsimp -zeta only
    | split

theorem State.f32s_eff {s : State} {x1 : List Nat}
    (hW : Sub 0x2 W) (h : Eff W s₀ s)  : Eff W s₀ (State.f32s s x1).2 := by
  induction x1 generalizing s with
  | nil =>
    unfold State.f32s
    repeat' with_reducible assumption
  | cons x l ih =>
    unfold State.f32s
    repeat' first
      | with_reducible assumption
      | with_reducible apply State.f32_eff
      | with_reducible apply ih

theorem State.applyZone_eff {s : State} {z : Nat}
    (hW : Sub 0x80000000000000002 W) (h : Eff W s₀ s)  : Eff W s₀ (State.applyZone s z).2 := by
  unfold State.applyZone
  repeat' first
    | with_reducible assumption
    | ((with_reducible refine Sub.trans ?_ hW); exact rfl)
    | ((with_reducible refine EffL.mk ?_); constructor <;> first | (intro _; with_reducible rfl) | exact fun e => hW.no rfl e)
    | (extract_lets +onlyGivenNames v; refine (fun (hv : Eff W s₀ v) => ?_) ?_; clear_value v; rotate_left; subst v)
    | (extract_lets +onlyGivenNames v; clear_value v)
    | with_reducible apply Eff.iteSnd
    | dsimp -zeta only
    | (refine Eff.lit ?_ rfl ?_; with_reducible assumption)
    | (refine Eff.lit ?_ rfl ?_; with_reducible apply State.f32s_eff)

theorem State.freeHop_eff {s : State} {z : Zone}
    (hW : Sub 0x2 W) (h : Eff W s₀ s)  : Eff W s₀ (State.freeHop s z).2.2 := by
  unfold State.freeHop
  repeat' first
    | ((with_reducible refine EffL.mk ?_); constructor <;> first | (intro _; with_reducible rfl) | exact fun e => hW.no rfl e)
    | (extract_lets +onlyGivenNames v; clear_value v)
    | dsimp -zeta only
    | (refine Eff.lit ?_ rfl ?_; with_reducible assumption)

theorem State.hops_eff {s : State} {z : Zone} {x2 : List (List (List F32) × List F32)}
    (hW : Sub 0x2 W) (h : Eff W s₀ s)  : Eff W s₀ (State.hops s z x2).2.2 := by
  induction x2 generalizing s z with
  | nil =>
    unfold State.hops
    repeat' with_reducible assumption
  | cons x l ih =>
    unfold State.hops
    repeat' first
      | with_reducible assumption
      | (extract_lets +onlyGivenNames v; clear_value v)
      | with_reducible apply Eff.iteSnd2
      | with_reducible apply State.freeHop_eff
      | with_reducible apply ih

theorem State.zoneFrames_eff {s : State} {z : Nat} {kfr : Nat}
    (hW : Sub 0x80000000000000002 W) (h : Eff W s₀ s)  : Eff W s₀ (State.zoneFrames s z kfr).2 := by
  unfold State.zoneFrames
  repeat' first
    | with_reducible assumption
    | ((with_reducible refine Sub.trans ?_ hW); exact rfl)
    | ((with_reducible refine EffL.mk ?_); constructor <;> first | (intro _; with_reducible rfl) | exact fun e => hW.no rfl e)
    | (extract_lets +onlyGivenNames v; clear_value v)
    | dsimp -zeta only
    | split
    | (refine Eff.lit ?_ rfl ?_; with_reducible apply State.hops_eff)

theorem State.framing_eff {s : State} {j : Nat}
    (hW : Sub 0x80000000093800002 W) (h : Eff W s₀ s)  : Eff W s₀ (State.framing s j) := by
  unfold State.framing
  repeat' first
    | with_reducible assumption
    | ((with_reducible refine Sub.trans ?_ hW); exact rfl)
    | (extract_lets +onlyGivenNames v; clear_value v)
    | with_reducible refine Eff.foldl _ (fun _ _ _ => ?_) ?_
    | with_reducible refine Eff.foldlSnd _ (fun _ _ _ => ?_) ?_
    | with_reducible apply State.zoneFrames_eff
    | with_reducible apply State.storeBytes_eff
    | dsimp -zeta only
    | with_reducible refine Eff.snd (by with_reducible assumption) ?_
    | split

theorem State.outputRow_eff {s : State} {base : Nat} {o : Nat} {x : AudioOut} {row : Nat}
    (hW : Sub 0x100801F0010067301008 W) (h : Eff W s₀ s)  : Eff W s₀ (State.outputRow s base o x row) := by
  unfold State.outputRow
  repeat' first
    | with_reducible assumption
    | ((with_reducible refine Sub.trans ?_ hW); exact rfl)
    | (extract_lets +onlyGivenNames v; clear_value v)
    | with_reducible apply State.setOut_eff
    | with_reducible apply State.reportUnread_eff
    | with_reducible apply State.senseRange_eff
    | with_reducible refine Eff.snd (by with_reducible assumption) ?_
    | split

theorem State.outputJob_eff {s : State} {j : Nat}
    (hW : Sub 0x100801F0010067301008 W) (h : Eff W s₀ s)  : Eff W s₀ (State.outputJob s j) := by
  unfold State.outputJob
  repeat' first
    | with_reducible assumption
    | (extract_lets +onlyGivenNames v; clear_value v)
    | with_reducible apply Eff.ite
    | with_reducible refine Eff.foldl _ (fun _ _ _ => ?_) ?_
    | with_reducible apply State.outputRow_eff
    | split

theorem State.cropJob_eff {s : State} {j : Nat}
    (hW : Sub 0x100001F00100F7B01008 W) (h : Eff W s₀ s)  : Eff W s₀ (State.cropJob s j) := by
  unfold State.cropJob
  repeat' first
    | with_reducible assumption
    | ((with_reducible refine Sub.trans ?_ hW); exact rfl)
    | with_reducible refine Eff.foldl _ (fun _ _ _ => ?_) ?_
    | with_reducible apply State.storeBytes_eff
    | with_reducible apply State.reportUnread_eff
    | with_reducible apply State.senseRange_eff
    | with_reducible refine Eff.snd (by with_reducible assumption) ?_
    | split

theorem State.runJob_eff {s : State} {e : Nat} {j : Nat}
    (hW : Sub 0x100801F00100F7B0100A W) (h : Eff W s₀ s)  : Eff W s₀ (State.runJob s e j) := by
  unfold State.runJob
  repeat' first
    | with_reducible assumption
    | ((with_reducible refine Sub.trans ?_ hW); exact rfl)
    | with_reducible apply Eff.ite
    | with_reducible apply State.cropJob_eff
    | with_reducible apply State.outputJob_eff
    | with_reducible apply State.framing_eff

theorem execFixjob_eff {e : EngineId} {job : BitVec 16} {s : State}
    (hW : Sub 0x100801F00102F7B0708A W) (h : Eff W s₀ s)  : EffX W s₀ (execFixjob e job s) := by
  unfold execFixjob
  repeat' first
    | with_reducible assumption
    | ((with_reducible refine Sub.trans ?_ hW); exact rfl)
    | with_reducible apply EffX.of_next
    | with_reducible apply State.runJob_eff
    | with_reducible refine State.runWord_eff ?_ ?_ (fun _ _ => ?_)

end Sys2Proof.Machine
end

