-- ==== Sys2Proof/Laws/EffPools.lean ====
section
/-!
SUPPORT. Laws/EffPools.lean: which fields of the state every operation of Machine/Pools.lean may change.
-/
namespace Sys2Proof.Machine

variable {W : Nat} {s₀ : State}

theorem State.rehome_eff {s : State} {d : MoveDatum} {a : Nat}
    (hW : Sub 0x10000000000 W) (h : Eff W s₀ s)  : Eff W s₀ (State.rehome s d a) := by
  unfold State.rehome
  repeat' first
    | with_reducible assumption
    | with_reducible apply State.updStream_eff
    | split

theorem State.choose_eff {s : State} {tier : Tier} {len : Nat}
    (hW : Sub 0x2 W) (h : Eff W s₀ s)  : Eff W s₀ (State.choose s tier len).2 := by
  unfold State.choose
  repeat' first
    | with_reducible assumption
    | (extract_lets +onlyGivenNames v; clear_value v)
    | with_reducible apply Eff.iteSnd
    | with_reducible apply State.draw_eff

theorem State.pickCart_eff {s : State}
    (hW : Sub 0x2 W) (h : Eff W s₀ s)  : Eff W s₀ (State.pickCart s).2 := by
  unfold State.pickCart
  repeat' first
    | with_reducible assumption
    | (extract_lets +onlyGivenNames v; clear_value v)
    | with_reducible apply Eff.iteSnd
    | with_reducible apply State.draw_eff

theorem State.lostDatum_eff {s : State} {d : MoveDatum} {sub : Nat} {addr : Nat}
    (hW : Sub 0x100001F0010000000008 W) (h : Eff W s₀ s)  : Eff W s₀ (State.lostDatum s d sub addr) := by
  unfold State.lostDatum
  repeat' first
    | with_reducible assumption
    | ((with_reducible refine Sub.trans ?_ hW); exact rfl)
    | (extract_lets +onlyGivenNames v; refine (fun (hv : Eff W s₀ v) => ?_) ?_; clear_value v; rotate_left; subst v)
    | with_reducible apply State.endStream_eff
    | with_reducible apply State.logError_eff
    | split

theorem State.moveNow_eff {s : State} {d : MoveDatum} {kind : Nat} {src : Nat} {dst : Nat} {len : Nat}
    (hW : Sub 0x100001F00104F780000A W) (h : Eff W s₀ s)  : EffO W s₀ (State.moveNow s d kind src dst len) := by
  unfold State.moveNow
  repeat' first
    | with_reducible assumption
    | ((with_reducible refine Sub.trans ?_ hW); exact rfl)
    | ((with_reducible refine EffL.mk ?_); constructor <;> first | (intro _; with_reducible rfl) | exact fun e => hW.no rfl e)
    | (extract_lets +onlyGivenNames v; refine (fun (hv : Eff W s₀ v) => ?_) ?_; clear_value v; rotate_left; subst v)
    | (extract_lets +onlyGivenNames v; clear_value v)
    | with_reducible apply EffO.of_some
    | with_reducible apply EffO.of_none
    | with_reducible apply EffO.ite
    | with_reducible apply State.lostDatum_eff
    | with_reducible apply State.pickCart_eff
    | with_reducible apply State.rehome_eff
    | with_reducible apply State.copyMove_eff
    | with_reducible apply State.senseSource_eff
    | with_reducible apply State.countBytes_eff
    | with_reducible apply State.cartError_eff
    | with_reducible apply State.showMove_eff
    | with_reducible apply State.logError_eff
    | with_reducible refine Eff.snd (by with_reducible assumption) ?_
    | split
    | (refine Eff.lit ?_ rfl ?_; with_reducible refine Eff.snd (by with_reducible assumption) ?_)

theorem State.issueFar_eff {s : State} {d : MoveDatum} {src : Nat} {dst : Nat} {len : Nat}
    (hW : Sub 0x60000000A W) (h : Eff W s₀ s)  : EffO W s₀ (State.issueFar s d src dst len) := by
  unfold State.issueFar
  repeat' first
    | with_reducible assumption
    | ((with_reducible refine Sub.trans ?_ hW); exact rfl)
    | ((with_reducible refine EffL.mk ?_); constructor <;> first | (intro _; with_reducible rfl) | exact fun e => hW.no rfl e)
    | (extract_lets +onlyGivenNames v; refine (fun (hv : Eff W s₀ v) => ?_) ?_; clear_value v; rotate_left; subst v)
    | (extract_lets +onlyGivenNames v; clear_value v)
    | with_reducible apply EffO.of_some
    | with_reducible apply EffO.of_none
    | with_reducible apply EffO.ite
    | with_reducible apply State.pickCart_eff
    | with_reducible apply State.cartError_eff
    | with_reducible apply State.showMove_eff
    | with_reducible refine Eff.snd (by with_reducible assumption) ?_
    | split
    | (refine Eff.lit ?_ rfl ?_; with_reducible refine Eff.snd (by with_reducible assumption) ?_)

theorem State.moveTo_eff {s : State} {x1 : Homed} {tier : Tier}
    (hW : Sub 0x100001F00106F780000A W) (h : Eff W s₀ s)  : Eff W s₀ (State.moveTo s x1 tier) := by
  unfold State.moveTo
  repeat' first
    | with_reducible assumption
    | ((with_reducible refine Sub.trans ?_ hW); exact rfl)
    | with_reducible apply Eff.ite
    | with_reducible apply Eff.getD
    | with_reducible apply State.issueFar_eff
    | with_reducible apply State.moveNow_eff
    | with_reducible apply State.choose_eff
    | with_reducible refine Eff.snd (by with_reducible assumption) ?_
    | split

theorem State.zeroNew_eff {s : State} {tier : Tier} {d : MoveDatum} {len : Nat}
    (hW : Sub 0x100001F00104F780000A W) (h : Eff W s₀ s)  : Eff W s₀ (State.zeroNew s tier d len).2 := by
  unfold State.zeroNew
  repeat' first
    | with_reducible assumption
    | ((with_reducible refine Sub.trans ?_ hW); exact rfl)
    | with_reducible apply State.moveNow_eff
    | with_reducible apply State.choose_eff
    | dsimp -zeta only
    | with_reducible refine Eff.snd (by with_reducible assumption) ?_
    | with_reducible refine Eff.ofSome (by with_reducible assumption) ?_
    | split

theorem State.closeGaps_eff {s : State} {tier : Tier}
    (hW : Sub 0x100001F00104F780000A W) (h : Eff W s₀ s)  : Eff W s₀ (State.closeGaps s tier) := by
  unfold State.closeGaps
  repeat' first
    | with_reducible assumption
    | (extract_lets +onlyGivenNames v; clear_value v)
    | with_reducible apply Eff.ite
    | with_reducible refine Eff.foldl _ (fun _ _ _ => ?_) ?_
    | with_reducible apply Eff.getD
    | with_reducible apply State.moveNow_eff
    | split

theorem State.makeRoom_eff {s : State} {tier : Tier} {len : Nat}
    (hW : Sub 0x100001F00104F780000A W) (h : Eff W s₀ s)  : Eff W s₀ (State.makeRoom s tier len) := by
  unfold State.makeRoom
  repeat' first
    | with_reducible assumption
    | (extract_lets +onlyGivenNames v; clear_value v)
    | with_reducible apply Eff.ite
    | with_reducible apply State.closeGaps_eff

end Sys2Proof.Machine
end

