-- ==== Sys2Proof/Laws/EffApply.lean ====
section
/-!
SUPPORT. Laws/EffApply.lean: which fields of the state every operation of Machine/Apply.lean may change.
-/
namespace Sys2Proof.Machine

variable {W : Nat} {s₀ : State}

theorem State.take_eff {s : State} {w : Want} {offs : List Nat}
    (hW : Sub 0x8 W) (h : Eff W s₀ s)  : Eff W s₀ (State.take s w offs) := by
  unfold State.take
  repeat' first
    | with_reducible assumption
    | with_reducible apply Eff.ite
    | with_reducible refine Eff.foldl _ (fun _ _ _ => ?_) ?_
    | with_reducible apply State.setReg_eff

theorem State.tickRefused_eff {s : State}
    (hW : Sub 0x100001F0000000000008 W) (h : Eff W s₀ s)  : Eff W s₀ (State.tickRefused s) := by
  unfold State.tickRefused
  repeat' first
    | with_reducible assumption
    | ((with_reducible refine Sub.trans ?_ hW); exact rfl)
    | with_reducible apply State.logError_eff
    | with_reducible apply State.raise_eff

theorem State.newSource_eff {s : State}
    (hW : Sub 0x100001F0000000000088 W) (h : Eff W s₀ s)  : Eff W s₀ (State.newSource s) := by
  unfold State.newSource
  repeat' first
    | with_reducible assumption
    | ((with_reducible refine Sub.trans ?_ hW); exact rfl)
    | ((with_reducible refine EffL.mk ?_); constructor <;> first | (intro _; with_reducible rfl) | exact fun e => hW.no rfl e)
    | (extract_lets +onlyGivenNames v; refine (fun (hv : Eff W s₀ v) => ?_) ?_; clear_value v; rotate_left; subst v)
    | (extract_lets +onlyGivenNames v; clear_value v)
    | with_reducible apply Eff.ite
    | with_reducible apply State.tickRefused_eff
    | with_reducible apply State.setBit_eff
    | (refine Eff.lit ?_ rfl ?_; with_reducible assumption)

theorem State.applyTick_eff {s : State} {w : Want}
    (hW : Sub 0x100001F0000000000088 W) (h : Eff W s₀ s)  : Eff W s₀ (State.applyTick s w) := by
  unfold State.applyTick
  repeat' first
    | with_reducible assumption
    | ((with_reducible refine Sub.trans ?_ hW); exact rfl)
    | ((with_reducible refine EffL.mk ?_); constructor <;> first | (intro _; with_reducible rfl) | exact fun e => hW.no rfl e)
    | (extract_lets +onlyGivenNames v; refine (fun (hv : Eff W s₀ v) => ?_) ?_; clear_value v; rotate_left; subst v)
    | (extract_lets +onlyGivenNames v; clear_value v)
    | with_reducible apply Eff.ite
    | with_reducible apply State.newSource_eff
    | with_reducible apply State.tickRefused_eff
    | with_reducible apply State.take_eff
    | (refine Eff.lit ?_ rfl ?_; with_reducible assumption)

theorem State.applyStage_eff {s : State} {w : Want}
    (hW : Sub 0x3000000000008 W) (h : Eff W s₀ s)  : Eff W s₀ (State.applyStage s w) := by
  unfold State.applyStage
  repeat' first
    | with_reducible assumption
    | ((with_reducible refine Sub.trans ?_ hW); exact rfl)
    | ((with_reducible refine EffL.mk ?_); constructor <;> first | (intro _; with_reducible rfl) | exact fun e => hW.no rfl e)
    | (extract_lets +onlyGivenNames v; refine (fun (hv : Eff W s₀ v) => ?_) ?_; clear_value v; rotate_left; subst v)
    | (extract_lets +onlyGivenNames v; clear_value v)
    | with_reducible apply Eff.ite
    | with_reducible apply State.setBit_eff
    | with_reducible apply State.setReg_eff
    | split
    | (refine Eff.lit ?_ rfl ?_; with_reducible assumption)

theorem State.stageReady_eff {s : State}
    (hW : Sub 0x3000000000008 W) (h : Eff W s₀ s)  : Eff W s₀ (State.stageReady s) := by
  unfold State.stageReady
  repeat' first
    | with_reducible assumption
    | ((with_reducible refine Sub.trans ?_ hW); exact rfl)
    | ((with_reducible refine EffL.mk ?_); constructor <;> first | (intro _; with_reducible rfl) | exact fun e => hW.no rfl e)
    | (extract_lets +onlyGivenNames v; refine (fun (hv : Eff W s₀ v) => ?_) ?_; clear_value v; rotate_left; subst v)
    | with_reducible apply Eff.ite
    | with_reducible apply State.setBit_eff
    | split
    | (refine Eff.lit ?_ rfl ?_; with_reducible assumption)

theorem State.entryGone_eff {s : State} {e : Nat}
    (hW : Sub 0x100001F0010000000008 W) (h : Eff W s₀ s)  : Eff W s₀ (State.entryGone s e) := by
  unfold State.entryGone
  repeat' first
    | with_reducible assumption
    | with_reducible refine Eff.foldl _ (fun _ _ _ => ?_) ?_
    | with_reducible apply State.lostDatum_eff

theorem State.applyHwt_eff {s : State} {w : Want}
    (hW : Sub 0x100001F0010000000008 W) (h : Eff W s₀ s)  : Eff W s₀ (State.applyHwt s w) := by
  unfold State.applyHwt
  repeat' first
    | with_reducible assumption
    | ((with_reducible refine Sub.trans ?_ hW); exact rfl)
    | (extract_lets +onlyGivenNames v; refine (fun (hv : Eff W s₀ v) => ?_) ?_; clear_value v; rotate_left; subst v)
    | (extract_lets +onlyGivenNames v; clear_value v)
    | with_reducible apply Eff.ite
    | with_reducible refine Eff.foldl _ (fun _ _ _ => ?_) ?_
    | with_reducible apply State.entryGone_eff
    | with_reducible apply State.setFld_eff
    | with_reducible apply State.setReg_eff

theorem State.showModes_eff {s : State}
    (hW : Sub 0x8 W) (h : Eff W s₀ s)  : Eff W s₀ (State.showModes s) := by
  unfold State.showModes
  repeat' first
    | with_reducible assumption
    | with_reducible refine Eff.foldl _ (fun _ _ _ => ?_) ?_
    | with_reducible apply State.setFld_eff

theorem State.applyPager_eff {s : State} {w : Want}
    (hW : Sub 0x800000000A W) (h : Eff W s₀ s)  : Eff W s₀ (State.applyPager s w) := by
  unfold State.applyPager
  repeat' first
    | with_reducible assumption
    | ((with_reducible refine Sub.trans ?_ hW); exact rfl)
    | ((with_reducible refine EffL.mk ?_); constructor <;> first | (intro _; with_reducible rfl) | exact fun e => hW.no rfl e)
    | (extract_lets +onlyGivenNames v; refine (fun (hv : Eff W s₀ v) => ?_) ?_; clear_value v; rotate_left; subst v)
    | (extract_lets +onlyGivenNames v; clear_value v)
    | with_reducible apply Eff.ite
    | with_reducible apply State.showModes_eff
    | with_reducible apply State.take_eff
    | dsimp -zeta only
    | (refine Eff.lit ?_ rfl ?_; with_reducible assumption)
    | (refine Eff.lit ?_ rfl ?_; with_reducible apply State.choose_eff)

theorem State.applyAp_eff {s : State} {w : Want} {k : Nat}
    (hW : Sub 0x10080000000000000008 W) (h : Eff W s₀ s)  : Eff W s₀ (State.applyAp s w k) := by
  unfold State.applyAp
  repeat' first
    | with_reducible assumption
    | ((with_reducible refine Sub.trans ?_ hW); exact rfl)
    | (extract_lets +onlyGivenNames v; refine (fun (hv : Eff W s₀ v) => ?_) ?_; clear_value v; rotate_left; subst v)
    | with_reducible apply Eff.ite
    | with_reducible apply State.take_eff
    | with_reducible apply State.applyPort_eff

theorem State.recheckPorts_eff {s : State}
    (hW : Sub 0x10080000000000000008 W) (h : Eff W s₀ s)  : Eff W s₀ (State.recheckPorts s) := by
  unfold State.recheckPorts
  repeat' first
    | with_reducible assumption
    | with_reducible apply Eff.ite
    | with_reducible refine Eff.foldl _ (fun _ _ _ => ?_) ?_
    | with_reducible apply State.applyPort_eff

theorem State.applyJob_eff {s : State} {w : Want} {e : Nat} {j : Nat} {cfg : Nat} {out : Nat} {stat : Nat}
    (hW : Sub 0x8 W) (h : Eff W s₀ s)  : Eff W s₀ (State.applyJob s w e j cfg out stat) := by
  unfold State.applyJob
  repeat' first
    | with_reducible assumption
    | (extract_lets +onlyGivenNames v; refine (fun (hv : Eff W s₀ v) => ?_) ?_; clear_value v; rotate_left; subst v)
    | with_reducible apply Eff.ite
    | with_reducible apply State.take_eff
    | with_reducible apply State.setBit_eff
    | with_reducible apply State.setReg_eff
    | split

theorem State.applyZoneRegs_eff {s : State} {w : Want} {z : Nat}
    (hW : Sub 0x8000000000000000A W) (h : Eff W s₀ s)  : Eff W s₀ (State.applyZoneRegs s w z) := by
  unfold State.applyZoneRegs
  repeat' first
    | with_reducible assumption
    | ((with_reducible refine Sub.trans ?_ hW); exact rfl)
    | with_reducible apply Eff.ite
    | with_reducible apply State.take_eff
    | with_reducible apply State.applyZone_eff
    | with_reducible apply State.setBit_eff
    | with_reducible refine Eff.snd (by with_reducible assumption) ?_
    | split

theorem State.applyGlm_eff {s : State} {w : Want} {j : Nat}
    (hW : Sub 0x8 W) (h : Eff W s₀ s)  : Eff W s₀ (State.applyGlm s w j) := by
  unfold State.applyGlm
  repeat' first
    | with_reducible assumption
    | (extract_lets +onlyGivenNames v; refine (fun (hv : Eff W s₀ v) => ?_) ?_; clear_value v; rotate_left; subst v)
    | (extract_lets +onlyGivenNames v; clear_value v)
    | with_reducible apply Eff.ite
    | with_reducible apply State.take_eff
    | with_reducible apply State.setBit_eff

theorem State.camRefused_eff {s : State}
    (hW : Sub 0x10000000000000000008 W) (h : Eff W s₀ s)  : Eff W s₀ (State.camRefused s) := by
  unfold State.camRefused
  repeat' first
    | with_reducible assumption
    | with_reducible apply State.raise_eff

theorem State.camReady_eff {s : State}
    (hW : Sub 0x100000000000000008 W) (h : Eff W s₀ s)  : Eff W s₀ (State.camReady s) := by
  unfold State.camReady
  repeat' first
    | with_reducible assumption
    | ((with_reducible refine Sub.trans ?_ hW); exact rfl)
    | (extract_lets +onlyGivenNames v; refine (fun (hv : Eff W s₀ v) => ?_) ?_; clear_value v; rotate_left; subst v)
    | with_reducible apply Eff.ite
    | with_reducible apply State.updCam_eff
    | with_reducible apply State.setBit_eff
    | with_reducible apply State.setFld_eff
    | split

theorem State.camOff_eff {s : State}
    (hW : Sub 0x100000000000000008 W) (h : Eff W s₀ s)  : Eff W s₀ (State.camOff s) := by
  unfold State.camOff
  repeat' first
    | with_reducible assumption
    | ((with_reducible refine Sub.trans ?_ hW); exact rfl)
    | (extract_lets +onlyGivenNames v; refine (fun (hv : Eff W s₀ v) => ?_) ?_; clear_value v; rotate_left; subst v)
    | (extract_lets +onlyGivenNames v; clear_value v)
    | with_reducible apply State.updCam_eff
    | with_reducible apply State.setBit_eff
    | with_reducible apply State.setFld_eff

theorem State.applyCam_eff {s : State} {w : Want}
    (hW : Sub 0x10100000000000000008 W) (h : Eff W s₀ s)  : Eff W s₀ (State.applyCam s w) := by
  unfold State.applyCam
  repeat' first
    | with_reducible assumption
    | ((with_reducible refine Sub.trans ?_ hW); exact rfl)
    | (extract_lets +onlyGivenNames v; refine (fun (hv : Eff W s₀ v) => ?_) ?_; clear_value v; rotate_left; subst v)
    | (extract_lets +onlyGivenNames v; clear_value v)
    | with_reducible apply Eff.ite
    | with_reducible apply State.camOff_eff
    | with_reducible apply State.camReady_eff
    | with_reducible apply State.camRefused_eff
    | with_reducible apply State.take_eff
    | with_reducible apply State.updCam_eff
    | with_reducible apply State.setReg_eff
    | split

theorem State.applyWant_eff {s : State} {w : Want}
    (hW : Sub 0x101801F301800000008A W) (h : Eff W s₀ s)  : Eff W s₀ (State.applyWant s w) := by
  unfold State.applyWant
  repeat' first
    | with_reducible assumption
    | ((with_reducible refine Sub.trans ?_ hW); exact rfl)
    | (extract_lets +onlyGivenNames v; refine (fun (hv : Eff W s₀ v) => ?_) ?_; clear_value v; rotate_left; subst v)
    | with_reducible apply Eff.ite
    | with_reducible refine Eff.foldl _ (fun _ _ _ => ?_) ?_
    | with_reducible apply State.applyCam_eff
    | with_reducible apply State.applyGlm_eff
    | with_reducible apply State.applyZoneRegs_eff
    | with_reducible apply State.applyJob_eff
    | with_reducible apply State.recheckPorts_eff
    | with_reducible apply State.applyAp_eff
    | with_reducible apply State.applyPager_eff
    | with_reducible apply State.applyHwt_eff
    | with_reducible apply State.applyStage_eff
    | with_reducible apply State.applyTick_eff

theorem State.applyHeld_eff {s : State}
    (hW : Sub 0x101801F301800000009A W) (h : Eff W s₀ s)  : Eff W s₀ (State.applyHeld s) := by
  unfold State.applyHeld
  repeat' first
    | with_reducible assumption
    | ((with_reducible refine Sub.trans ?_ hW); exact rfl)
    | ((with_reducible refine EffL.mk ?_); constructor <;> first | (intro _; with_reducible rfl) | exact fun e => hW.no rfl e)
    | (extract_lets +onlyGivenNames v; clear_value v)
    | with_reducible apply Eff.ite
    | with_reducible apply State.applyWant_eff
    | (refine Eff.lit ?_ rfl ?_; with_reducible assumption)

end Sys2Proof.Machine
end

