-- ==== Sys2Proof/Laws/EffHostQueue.lean ====
section
/-!
SUPPORT. Laws/EffHostQueue.lean: which fields of the state every operation of Machine/HostQueue.lean may change.
-/
namespace Sys2Proof.Machine

variable {W : Nat} {s₀ : State}

theorem State.queueZero_eff {s : State} {q : Nat}
    (hW : Sub 0x100000000008 W) (h : Eff W s₀ s)  : Eff W s₀ (State.queueZero s q) := by
  unfold State.queueZero
  repeat' first
    | with_reducible assumption
    | ((with_reducible refine Sub.trans ?_ hW); exact rfl)
    | (extract_lets +onlyGivenNames v; refine (fun (hv : Eff W s₀ v) => ?_) ?_; clear_value v; rotate_left; subst v)
    | with_reducible apply State.updQueue_eff
    | with_reducible apply State.setReg_eff

theorem State.enableQueue_eff {s : State} {q : Nat}
    (hW : Sub 0x100001F0100000000008 W) (h : Eff W s₀ s)  : Eff W s₀ (State.enableQueue s q) := by
  unfold State.enableQueue
  repeat' first
    | with_reducible assumption
    | ((with_reducible refine Sub.trans ?_ hW); exact rfl)
    | with_reducible apply Eff.ite
    | with_reducible apply State.queueZero_eff
    | with_reducible apply State.faultQueue_eff
    | with_reducible apply State.setBit_eff

theorem State.stopLoad_eff {s : State}
    (hW : Sub 0x200000808 W) (h : Eff W s₀ s)  : Eff W s₀ (State.stopLoad s) := by
  unfold State.stopLoad
  repeat' first
    | with_reducible assumption
    | ((with_reducible refine Sub.trans ?_ hW); exact rfl)
    | ((with_reducible refine EffL.mk ?_); constructor <;> first | (intro _; with_reducible rfl) | exact fun e => hW.no rfl e)
    | (extract_lets +onlyGivenNames v; refine (fun (hv : Eff W s₀ v) => ?_) ?_; clear_value v; rotate_left; subst v)
    | (extract_lets +onlyGivenNames v; clear_value v)
    | with_reducible refine Eff.foldl _ (fun _ _ _ => ?_) ?_
    | with_reducible apply State.showMove_eff
    | with_reducible apply State.setBit_eff
    | (refine Eff.lit ?_ rfl ?_; with_reducible assumption)

theorem State.stopMoves_eff {s : State} {mine : MoveDatum → Bool}
    (hW : Sub 0x200000008 W) (h : Eff W s₀ s)  : Eff W s₀ (State.stopMoves s mine).2 := by
  unfold State.stopMoves
  repeat' first
    | with_reducible assumption
    | ((with_reducible refine Sub.trans ?_ hW); exact rfl)
    | ((with_reducible refine EffL.mk ?_); constructor <;> first | (intro _; with_reducible rfl) | exact fun e => hW.no rfl e)
    | (extract_lets +onlyGivenNames v; refine (fun (hv : Eff W s₀ v) => ?_) ?_; clear_value v; rotate_left; subst v)
    | (extract_lets +onlyGivenNames v; clear_value v)
    | with_reducible refine Eff.foldl _ (fun _ _ _ => ?_) ?_
    | with_reducible apply State.showMove_eff
    | dsimp -zeta only
    | (refine Eff.lit ?_ rfl ?_; with_reducible assumption)

theorem State.stopReq_eff {s : State} {q : Nat} {r : Req}
    (hW : Sub 0x24000210200000808 W) (h : Eff W s₀ s)  : Eff W s₀ (State.stopReq s q r).2 := by
  unfold State.stopReq
  repeat' first
    | with_reducible assumption
    | ((with_reducible refine Sub.trans ?_ hW); exact rfl)
    | ((with_reducible refine EffL.mk ?_); constructor <;> first | (intro _; with_reducible rfl) | exact fun e => hW.no rfl e)
    | (extract_lets +onlyGivenNames v; clear_value v)
    | with_reducible apply Eff.iteSnd
    | with_reducible apply State.stopLoad_eff
    | with_reducible apply State.updStream_eff
    | dsimp -zeta only
    | (refine Eff.lit ?_ rfl ?_; with_reducible apply State.stopMoves_eff)

theorem State.resetQueue_eff {s : State} {q : Nat}
    (hW : Sub 0x24000310200000808 W) (h : Eff W s₀ s)  : Eff W s₀ (State.resetQueue s q) := by
  unfold State.resetQueue
  repeat' first
    | with_reducible assumption
    | ((with_reducible refine Sub.trans ?_ hW); exact rfl)
    | (extract_lets +onlyGivenNames v; refine (fun (hv : Eff W s₀ v) => ?_) ?_; clear_value v; rotate_left; subst v)
    | (extract_lets +onlyGivenNames v; clear_value v)
    | with_reducible refine Eff.foldl _ (fun _ _ _ => ?_) ?_
    | with_reducible apply State.stopReq_eff
    | with_reducible apply State.queueZero_eff
    | with_reducible apply State.showHeld_eff
    | with_reducible apply State.updQueue_eff
    | with_reducible apply State.setBit_eff
    | with_reducible apply State.setFld_eff

theorem State.writeQctrl_eff {s : State} {q : Nat} {v : Word}
    (hW : Sub 0x100241F0310200000808 W) (h : Eff W s₀ s)  : Eff W s₀ (State.writeQctrl s q v) := by
  unfold State.writeQctrl
  repeat' first
    | with_reducible assumption
    | ((with_reducible refine Sub.trans ?_ hW); exact rfl)
    | (extract_lets +onlyGivenNames v; refine (fun (hv : Eff W s₀ v) => ?_) ?_; clear_value v; rotate_left; subst v)
    | (extract_lets +onlyGivenNames v; clear_value v)
    | with_reducible apply Eff.ite
    | with_reducible apply State.resetQueue_eff
    | with_reducible apply State.enableQueue_eff
    | with_reducible apply State.setFld_eff

theorem execQueueEnable_eff {i : Iface} {q : Fin 16} {v : Word} {s : State}
    (hW : Sub 0x100241F0310200000808 W) (h : Eff W s₀ s)  : EffX W s₀ (execQueueEnable i q v s) := by
  unfold execQueueEnable
  repeat' first
    | with_reducible assumption
    | with_reducible apply EffX.of_next
    | with_reducible apply Eff.ite
    | with_reducible apply State.writeQctrl_eff

theorem execQueueReset_eff {i : Iface} {q : Fin 16} {v : Word} {s : State}
    (hW : Sub 0x100241F0310200000808 W) (h : Eff W s₀ s)  : EffX W s₀ (execQueueReset i q v s) := by
  unfold execQueueReset
  repeat' first
    | with_reducible assumption
    | with_reducible apply EffX.of_next
    | with_reducible apply Eff.ite
    | with_reducible apply State.writeQctrl_eff

theorem State.placed_eff {s : State} {l : List HostBytes}
    (hW : Sub 0x80000000 W) (h : Eff W s₀ s)  : Eff W s₀ (State.placed s l) := by
  unfold State.placed
  repeat' first
    | with_reducible assumption
    | ((with_reducible refine EffL.mk ?_); constructor <;> first | (intro _; with_reducible rfl) | exact fun e => hW.no rfl e)
    | with_reducible refine Eff.foldl _ (fun _ _ _ => ?_) ?_
    | (refine Eff.lit ?_ rfl ?_; with_reducible assumption)

theorem State.deadDoorbell_eff {s : State} {q : Nat}
    (hW : Sub 0x100001F0000000000008 W) (h : Eff W s₀ s)  : Eff W s₀ (State.deadDoorbell s q) := by
  unfold State.deadDoorbell
  repeat' first
    | with_reducible assumption
    | with_reducible apply State.logViolation_eff

theorem State.ringSq_eff {s : State} {q : Nat} {v : Nat}
    (hW : Sub 0x100001F0100000000008 W) (h : Eff W s₀ s)  : Eff W s₀ (State.ringSq s q v) := by
  unfold State.ringSq
  repeat' first
    | with_reducible assumption
    | ((with_reducible refine Sub.trans ?_ hW); exact rfl)
    | (extract_lets +onlyGivenNames v; clear_value v)
    | with_reducible apply Eff.ite
    | with_reducible apply State.deadDoorbell_eff
    | with_reducible apply State.faultQueue_eff
    | with_reducible apply State.updQueue_eff

theorem State.ringCq_eff {s : State} {q : Nat} {v : Nat}
    (hW : Sub 0x100001F0100000000008 W) (h : Eff W s₀ s)  : Eff W s₀ (State.ringCq s q v) := by
  unfold State.ringCq
  repeat' first
    | with_reducible assumption
    | ((with_reducible refine Sub.trans ?_ hW); exact rfl)
    | (extract_lets +onlyGivenNames v; clear_value v)
    | with_reducible apply Eff.ite
    | with_reducible apply State.deadDoorbell_eff
    | with_reducible apply State.updQueue_eff
    | with_reducible apply State.logViolation_eff

theorem execSqDoorbell_eff {i : Iface} {q : Fin 16} {index : BitVec 16} {placed : List HostBytes} {s : State}
    (hW : Sub 0x100001F0100080000008 W) (h : Eff W s₀ s)  : EffX W s₀ (execSqDoorbell i q index placed s) := by
  unfold execSqDoorbell
  repeat' first
    | with_reducible assumption
    | ((with_reducible refine Sub.trans ?_ hW); exact rfl)
    | (extract_lets +onlyGivenNames v; refine (fun (hv : Eff W s₀ v) => ?_) ?_; clear_value v; rotate_left; subst v)
    | with_reducible apply EffX.of_next
    | with_reducible apply Eff.ite
    | with_reducible apply State.ringSq_eff
    | with_reducible apply State.placed_eff

theorem execCqDoorbell_eff {i : Iface} {q : Fin 16} {index : BitVec 16} {s : State}
    (hW : Sub 0x100001F0100000000008 W) (h : Eff W s₀ s)  : EffX W s₀ (execCqDoorbell i q index s) := by
  unfold execCqDoorbell
  repeat' first
    | with_reducible assumption
    | with_reducible apply EffX.of_next
    | with_reducible apply Eff.ite
    | with_reducible apply State.ringCq_eff

theorem State.enterWindow_eff {s : State} {q : Nat} {r : Req} {result : Option (Nat × Nat × Nat)}
    (hW : Sub 0x100000000000 W) (h : Eff W s₀ s)  : Eff W s₀ (State.enterWindow s q r result) := by
  unfold State.enterWindow
  repeat' first
    | with_reducible assumption
    | with_reducible apply Eff.ite
    | with_reducible apply State.updQueue_eff

theorem State.joinReq_eff {s : State} {q : Nat} {r : Req}
    (hW : Sub 0x100000000000 W) (h : Eff W s₀ s)  : Eff W s₀ (State.joinReq s q r) := by
  unfold State.joinReq
  repeat' first
    | with_reducible assumption
    | with_reducible apply State.updQueue_eff

theorem State.takeRecord_eff {s : State} {q : Nat} {bs : List Byte}
    (hW : Sub 0x100001F0100000000008 W) (h : Eff W s₀ s)  : Eff W s₀ (State.takeRecord s q bs) := by
  unfold State.takeRecord
  repeat' first
    | with_reducible assumption
    | ((with_reducible refine Sub.trans ?_ hW); exact rfl)
    | (extract_lets +onlyGivenNames v; have hp := fun a b c => Eff W s₀ (v a b c); clear hp; subst v)
    | (extract_lets +onlyGivenNames v; clear_value v)
    | with_reducible apply Eff.ite
    | with_reducible apply State.joinReq_eff
    | with_reducible apply State.enterWindow_eff
    | with_reducible apply State.logViolation_eff
    | dsimp -zeta only
    | split

theorem execRequestFetch_eff {a : HostAnswer} {s : State}
    (hW : Sub 0x100001F0900067000008 W) (h : Eff W s₀ s)  : EffX W s₀ (execRequestFetch a s) := by
  unfold execRequestFetch
  repeat' first
    | with_reducible assumption
    | ((with_reducible refine Sub.trans ?_ hW); exact rfl)
    | ((with_reducible refine EffL.mk ?_); constructor <;> first | (intro _; with_reducible rfl) | exact fun e => hW.no rfl e)
    | (extract_lets +onlyGivenNames v; refine (fun (hv : Eff W s₀ v) => ?_) ?_; clear_value v; rotate_left; subst v)
    | (extract_lets +onlyGivenNames v; clear_value v)
    | (extract_lets +onlyGivenNames v; subst v)
    | with_reducible apply EffX.of_next
    | with_reducible apply Eff.ite
    | with_reducible apply Eff.iteSnd
    | with_reducible apply State.takeRecord_eff
    | with_reducible apply State.faultQueue_eff
    | with_reducible apply State.senseRange_eff
    | with_reducible apply State.logFlips_eff
    | with_reducible apply State.setFld_eff
    | dsimp -zeta only
    | split
    | (refine Eff.lit ?_ rfl ?_; with_reducible assumption)

theorem execCompletionPost_eff {q : Fin 16} {a : HostAnswer} {s : State}
    (hW : Sub 0x100001F0100083800008 W) (h : Eff W s₀ s)  : EffX W s₀ (execCompletionPost q a s) := by
  unfold execCompletionPost
  repeat' first
    | with_reducible assumption
    | ((with_reducible refine Sub.trans ?_ hW); exact rfl)
    | (extract_lets +onlyGivenNames v; refine (fun (hv : Eff W s₀ v) => ?_) ?_; clear_value v; rotate_left; subst v)
    | with_reducible apply EffX.of_next
    | with_reducible apply Eff.ite
    | with_reducible apply State.writeRecord_eff
    | with_reducible apply State.faultQueue_eff
    | with_reducible apply State.updQueue_eff
    | split

theorem execHeldResultFlush_eff {q : Fin 16} {s : State}
    (hW : Sub 0x10000000150083800008 W) (h : Eff W s₀ s)  : EffX W s₀ (execHeldResultFlush q s) := by
  unfold execHeldResultFlush
  repeat' first
    | with_reducible assumption
    | with_reducible apply EffX.of_next
    | with_reducible apply State.flushHeld_eff

theorem execQmodTimeout_eff {q : Fin 16} {s : State}
    (hW : Sub 0x1000000010000000000C W) (h : Eff W s₀ s)  : EffX W s₀ (execQmodTimeout q s) := by
  unfold execQmodTimeout
  repeat' first
    | with_reducible assumption
    | ((with_reducible refine Sub.trans ?_ hW); exact rfl)
    | (extract_lets +onlyGivenNames v; clear_value v)
    | with_reducible apply EffX.of_next
    | with_reducible apply Eff.ite
    | with_reducible apply State.signal_eff
    | with_reducible apply State.reach_eff

theorem State.streamResults_eff {s : State} {sc : Nat} {r : Nat} {t : Stream}
    (hW : Sub 0x100003F01100F7800008 W) (h : Eff W s₀ s)  : Eff W s₀ (State.streamResults s sc r t) := by
  unfold State.streamResults
  repeat' first
    | with_reducible assumption
    | ((with_reducible refine Sub.trans ?_ hW); exact rfl)
    | with_reducible apply Eff.ite
    | with_reducible apply State.postHole_eff
    | with_reducible apply State.postResult_eff
    | with_reducible apply State.storeBytes_eff
    | with_reducible apply State.planFault_eff
    | with_reducible apply State.openHole_eff
    | with_reducible apply State.endStream_eff
    | with_reducible apply State.senseRange_eff
    | with_reducible apply State.updStream_eff
    | with_reducible apply State.logError_eff
    | dsimp -zeta only
    | split

theorem State.postResults_eff {s : State}
    (hW : Sub 0x100003F01100F7C00008 W) (h : Eff W s₀ s)  : Eff W s₀ (State.postResults s) := by
  unfold State.postResults
  repeat' first
    | with_reducible assumption
    | ((with_reducible refine Sub.trans ?_ hW); exact rfl)
    | ((with_reducible refine EffL.mk ?_); constructor <;> first | (intro _; with_reducible rfl) | exact fun e => hW.no rfl e)
    | with_reducible apply Eff.ite
    | with_reducible refine Eff.foldl _ (fun _ _ _ => ?_) ?_
    | with_reducible apply State.streamResults_eff
    | split
    | (refine Eff.lit ?_ rfl ?_; with_reducible assumption)

theorem execResultPost_eff {s : State}
    (hW : Sub 0x100003F01100F7C00008 W) (h : Eff W s₀ s)  : EffX W s₀ (execResultPost s) := by
  unfold execResultPost
  repeat' first
    | with_reducible assumption
    | with_reducible apply EffX.of_next
    | with_reducible apply Eff.ite
    | with_reducible apply State.postResults_eff

end Sys2Proof.Machine
end

