-- ==== Sys2Proof/Laws/EffLoad.lean ====
section
/-!
SUPPORT. Laws/EffLoad.lean: which fields of the state every operation of Machine/Load.lean may change.
-/
namespace Sys2Proof.Machine

variable {W : Nat} {s₀ : State}

theorem State.showLoadErr_eff {s : State} {code : Nat} {sec : Nat}
    (hW : Sub 0x10000000000000000008 W) (h : Eff W s₀ s)  : Eff W s₀ (State.showLoadErr s code sec) := by
  unfold State.showLoadErr
  repeat' first
    | with_reducible assumption
    | ((with_reducible refine Sub.trans ?_ hW); exact rfl)
    | with_reducible apply State.raise_eff
    | with_reducible apply State.setReg_eff

theorem State.refusePlan_eff {s : State} {q : Nat} {tag : Nat} {code : Nat} {sec : Nat}
    (hW : Sub 0x10000000100000000008 W) (h : Eff W s₀ s)  : Eff W s₀ (State.refusePlan s q tag code sec) := by
  unfold State.refusePlan
  repeat' first
    | with_reducible assumption
    | ((with_reducible refine Sub.trans ?_ hW); exact rfl)
    | with_reducible apply State.showLoadErr_eff
    | with_reducible apply State.settle_eff

theorem State.failLoad_eff {s : State} {j : LoadJob}
    (hW : Sub 0x100200000808 W) (h : Eff W s₀ s)  : Eff W s₀ (State.failLoad s j) := by
  unfold State.failLoad
  repeat' first
    | with_reducible assumption
    | ((with_reducible refine Sub.trans ?_ hW); exact rfl)
    | with_reducible apply State.stopLoad_eff
    | with_reducible apply State.settle_eff

theorem State.placeConst_eff {s : State} {x1 : PlanHdr} {rd : Reader}
    (hW : Sub 0xF3800008 W) (h : Eff W s₀ s)  : Eff W s₀ (State.placeConst s x1 rd).2 := by
  unfold State.placeConst
  repeat' first
    | with_reducible assumption
    | ((with_reducible refine Sub.trans ?_ hW); exact rfl)
    | (extract_lets +onlyGivenNames v; clear_value v)
    | with_reducible apply Eff.iteSnd
    | with_reducible apply State.sparseWrite_eff
    | with_reducible apply State.t1Range_eff
    | dsimp -zeta only
    | with_reducible refine Eff.snd (by with_reducible assumption) ?_
    | split

theorem State.finishLoad_eff {s : State} {j : LoadJob}
    (hW : Sub 0x100001F01002F7800A08 W) (h : Eff W s₀ s)  : Eff W s₀ (State.finishLoad s j) := by
  unfold State.finishLoad
  repeat' first
    | with_reducible assumption
    | ((with_reducible refine Sub.trans ?_ hW); exact rfl)
    | ((with_reducible refine EffL.mk ?_); constructor <;> first | (intro _; with_reducible rfl) | exact fun e => hW.no rfl e)
    | (extract_lets +onlyGivenNames v; refine (fun (hv : Eff W s₀ v) => ?_) ?_; clear_value v; rotate_left; subst v)
    | (extract_lets +onlyGivenNames v; clear_value v)
    | with_reducible apply Eff.ite
    | with_reducible apply State.placeConst_eff
    | with_reducible apply State.failLoad_eff
    | with_reducible apply State.refusePlan_eff
    | with_reducible apply State.stopLoad_eff
    | with_reducible apply State.settle_eff
    | with_reducible apply State.senseRange_eff
    | with_reducible apply State.logError_eff
    | with_reducible apply State.setReg64_eff
    | with_reducible apply State.setBit_eff
    | with_reducible refine Eff.snd (by with_reducible assumption) ?_
    | split
    | (refine Eff.lit ?_ rfl ?_; with_reducible refine Eff.snd (by with_reducible assumption) ?_)

theorem State.loaded_eff {s : State} {j : LoadJob} {n : Nat}
    (hW : Sub 0x800 W) (h : Eff W s₀ s)  : Eff W s₀ (State.loaded s j n) := by
  unfold State.loaded
  repeat' first
    | ((with_reducible refine EffL.mk ?_); constructor <;> first | (intro _; with_reducible rfl) | exact fun e => hW.no rfl e)
    | (refine Eff.lit ?_ rfl ?_; with_reducible assumption)

theorem State.clearForLoad_eff {s : State} {j : LoadJob}
    (hW : Sub 0x100001F00106F780000A W) (h : Eff W s₀ s)  : Eff W s₀ (State.clearForLoad s j) := by
  unfold State.clearForLoad
  repeat' first
    | with_reducible assumption
    | with_reducible refine Eff.foldl _ (fun _ _ _ => ?_) ?_
    | with_reducible apply State.moveTo_eff

theorem State.loadChunk_eff {s : State} {j : LoadJob} {n : Nat}
    (hW : Sub 0x100001F01006F780080A W) (h : Eff W s₀ s)  : Eff W s₀ (State.loadChunk s j n) := by
  unfold State.loadChunk
  repeat' first
    | with_reducible assumption
    | ((with_reducible refine Sub.trans ?_ hW); exact rfl)
    | ((with_reducible refine EffL.mk ?_); constructor <;> first | (intro _; with_reducible rfl) | exact fun e => hW.no rfl e)
    | (extract_lets +onlyGivenNames v; refine (fun (hv : Eff W s₀ v) => ?_) ?_; clear_value v; rotate_left; subst v)
    | (extract_lets +onlyGivenNames v; clear_value v)
    | with_reducible apply Eff.ite
    | with_reducible apply State.loaded_eff
    | with_reducible apply State.failLoad_eff
    | with_reducible apply State.pickCart_eff
    | with_reducible apply State.copyMove_eff
    | with_reducible apply State.senseSource_eff
    | with_reducible apply State.countBytes_eff
    | with_reducible apply State.cartError_eff
    | with_reducible apply State.showMove_eff
    | with_reducible apply State.logError_eff
    | with_reducible refine Eff.snd (by with_reducible assumption) ?_
    | split
    | (refine Eff.lit ?_ rfl ?_; with_reducible assumption)
    | (refine Eff.lit ?_ rfl ?_; with_reducible refine Eff.snd (by with_reducible assumption) ?_)

theorem State.runLoad_eff {s : State} {x1 : Nat}
    (hW : Sub 0x100001F01006F7800A0A W) (h : Eff W s₀ s)  : Eff W s₀ (State.runLoad s x1) := by
  induction x1 generalizing s with
  | zero =>
    unfold State.runLoad
    repeat' with_reducible assumption
  | succ n ih =>
    unfold State.runLoad
    repeat' first
      | with_reducible assumption
      | ((with_reducible refine Sub.trans ?_ hW); exact rfl)
      | (extract_lets +onlyGivenNames v; clear_value v)
      | with_reducible apply Eff.ite
      | with_reducible apply State.loadChunk_eff
      | with_reducible apply State.finishLoad_eff
      | with_reducible apply ih
      | split

theorem State.planLoad_eff {s : State} {q : Nat} {r : Req}
    (hW : Sub 0x100001F01006F7800A0A W) (h : Eff W s₀ s)  : Eff W s₀ (State.planLoad s q r) := by
  unfold State.planLoad
  repeat' first
    | with_reducible assumption
    | ((with_reducible refine Sub.trans ?_ hW); exact rfl)
    | ((with_reducible refine EffL.mk ?_); constructor <;> first | (intro _; with_reducible rfl) | exact fun e => hW.no rfl e)
    | (extract_lets +onlyGivenNames v; refine (fun (hv : Eff W s₀ v) => ?_) ?_; clear_value v; rotate_left; subst v)
    | (extract_lets +onlyGivenNames v; clear_value v)
    | with_reducible apply Eff.ite
    | with_reducible apply State.runLoad_eff
    | with_reducible apply State.refusePlan_eff
    | with_reducible apply State.actReq_eff
    | with_reducible apply State.settle_eff
    | with_reducible apply State.senseRange_eff
    | with_reducible apply State.logError_eff
    | with_reducible apply State.setBit_eff
    | with_reducible refine Eff.snd (by with_reducible assumption) ?_
    | split
    | (refine Eff.lit ?_ rfl ?_; with_reducible refine Eff.snd (by with_reducible assumption) ?_)

theorem execPlanLoad_eff {q : Fin 16} {tag : BitVec 16} {s : State}
    (hW : Sub 0x100001F01006F7800A0A W) (h : Eff W s₀ s)  : EffX W s₀ (execPlanLoad q tag s) := by
  unfold execPlanLoad
  repeat' first
    | with_reducible assumption
    | with_reducible apply EffX.of_next
    | with_reducible apply State.planLoad_eff
    | split

theorem State.bootPlanRefused_eff {s : State}
    (hW : Sub 0x8 W) (h : Eff W s₀ s)  : Eff W s₀ (State.bootPlanRefused s) := by
  unfold State.bootPlanRefused
  repeat' first
    | with_reducible assumption
    | with_reducible apply State.setBit_eff
    | with_reducible apply State.setFld_eff

theorem State.takeActivation_eff {s : State} {q : Nat} {tag : Nat}
    (hW : Sub 0x10000000100000000408 W) (h : Eff W s₀ s)  : Eff W s₀ (State.takeActivation s q tag) := by
  unfold State.takeActivation
  repeat' first
    | with_reducible assumption
    | ((with_reducible refine Sub.trans ?_ hW); exact rfl)
    | ((with_reducible refine EffL.mk ?_); constructor <;> first | (intro _; with_reducible rfl) | exact fun e => hW.no rfl e)
    | with_reducible apply State.refusePlan_eff
    | with_reducible apply State.actReq_eff
    | split
    | (refine Eff.lit ?_ rfl ?_; with_reducible assumption)

theorem State.takeDiscard_eff {s : State} {q : Nat} {tag : Nat}
    (hW : Sub 0x100000000208 W) (h : Eff W s₀ s)  : Eff W s₀ (State.takeDiscard s q tag) := by
  unfold State.takeDiscard
  repeat' first
    | with_reducible assumption
    | ((with_reducible refine Sub.trans ?_ hW); exact rfl)
    | ((with_reducible refine EffL.mk ?_); constructor <;> first | (intro _; with_reducible rfl) | exact fun e => hW.no rfl e)
    | (extract_lets +onlyGivenNames v; refine (fun (hv : Eff W s₀ v) => ?_) ?_; clear_value v; rotate_left; subst v)
    | with_reducible apply State.settle_eff
    | with_reducible apply State.setReg64_eff
    | with_reducible apply State.setBit_eff
    | split
    | (refine Eff.lit ?_ rfl ?_; with_reducible assumption)

theorem execPlanActivate_eff {q : Fin 16} {tag : BitVec 16} {s : State}
    (hW : Sub 0x100000000000 W) (h : Eff W s₀ s)  : EffX W s₀ (execPlanActivate q tag s) := by
  unfold execPlanActivate
  repeat' first
    | with_reducible assumption
    | with_reducible apply EffX.of_next
    | with_reducible apply State.dueReq_eff

theorem execPlanDiscard_eff {q : Fin 16} {tag : BitVec 16} {s : State}
    (hW : Sub 0x100000000000 W) (h : Eff W s₀ s)  : EffX W s₀ (execPlanDiscard q tag s) := by
  unfold execPlanDiscard
  repeat' first
    | with_reducible assumption
    | with_reducible apply EffX.of_next
    | with_reducible apply State.dueReq_eff

end Sys2Proof.Machine
end

