-- ==== Sys2Proof/Laws/EffOperands.lean ====
section
/-!
SUPPORT. Laws/EffOperands.lean: which fields of the state every operation of Machine/Operands.lean may change.
-/
namespace Sys2Proof.Machine

variable {W : Nat} {s₀ : State}

theorem State.reportAway_eff {s : State} {e : Nat} {batch : Nat}
    (hW : Sub 0x100001F0010000100008 W) (h : Eff W s₀ s)  : Eff W s₀ (State.reportAway s e batch) := by
  unfold State.reportAway
  repeat' first
    | with_reducible assumption
    | ((with_reducible refine Sub.trans ?_ hW); exact rfl)
    | ((with_reducible refine EffL.mk ?_); constructor <;> first | (intro _; with_reducible rfl) | exact fun e => hW.no rfl e)
    | (extract_lets +onlyGivenNames v; refine (fun (hv : Eff W s₀ v) => ?_) ?_; clear_value v; rotate_left; subst v)
    | with_reducible apply State.openHole_eff
    | with_reducible apply State.endStream_eff
    | with_reducible apply State.logError_eff
    | split
    | (refine Eff.lit ?_ rfl ?_; with_reducible assumption)

theorem State.senseOp_eff {s : State} {e : Nat} {d : TDesc} {loops : List LoopFrame}
    (hW : Sub 0x100001F0010067301008 W) (h : Eff W s₀ s)  : Eff W s₀ (State.senseOp s e d loops) := by
  unfold State.senseOp
  repeat' first
    | with_reducible assumption
    | ((with_reducible refine Sub.trans ?_ hW); exact rfl)
    | (extract_lets +onlyGivenNames v; clear_value v)
    | with_reducible apply Eff.ite
    | with_reducible refine Eff.foldl _ (fun _ _ _ => ?_) ?_
    | with_reducible apply State.reportAway_eff
    | with_reducible apply State.reportUnread_eff
    | with_reducible apply State.senseRange_eff
    | with_reducible refine Eff.snd (by with_reducible assumption) ?_
    | split

theorem State.writeRow_eff {s : State} {d : TDesc} {o : OpRow} {xs : List Int}
    (hW : Sub 0x10003800000 W) (h : Eff W s₀ s)  : Eff W s₀ (State.writeRow s d o xs) := by
  unfold State.writeRow
  repeat' first
    | with_reducible assumption
    | ((with_reducible refine Sub.trans ?_ hW); exact rfl)
    | (extract_lets +onlyGivenNames v; clear_value v)
    | with_reducible apply State.t0Store_eff
    | with_reducible apply State.updStream_eff
    | split

theorem State.writeRows_eff {s : State} {d : TDesc} {loops : List LoopFrame} {rows : List (List Int)}
    (hW : Sub 0x10003800000 W) (h : Eff W s₀ s)  : Eff W s₀ (State.writeRows s d loops rows) := by
  unfold State.writeRows
  repeat' first
    | with_reducible assumption
    | with_reducible refine Eff.foldl _ (fun _ _ _ => ?_) ?_
    | with_reducible apply State.writeRow_eff

theorem State.readOp_eff {s : State} {e : Nat} {d : TDesc} {loops : List LoopFrame}
    (hW : Sub 0x100001F0010067301008 W) (h : Eff W s₀ s)  : Eff W s₀ (State.readOp s e d loops).2 := by
  unfold State.readOp
  repeat' first
    | with_reducible assumption
    | (extract_lets +onlyGivenNames v; refine (fun (hv : Eff W s₀ v) => ?_) ?_; clear_value v; rotate_left; subst v)
    | with_reducible apply State.senseOp_eff

theorem State.senseTrailer_eff {s : State} {e : Nat} {d : TDesc} {loops : List LoopFrame}
    (hW : Sub 0x100001F0010067301008 W) (h : Eff W s₀ s)  : Eff W s₀ (State.senseTrailer s e d loops) := by
  unfold State.senseTrailer
  repeat' first
    | with_reducible assumption
    | ((with_reducible refine Sub.trans ?_ hW); exact rfl)
    | with_reducible apply Eff.ite
    | with_reducible apply State.reportUnread_eff
    | with_reducible apply State.senseRange_eff
    | with_reducible refine Eff.snd (by with_reducible assumption) ?_
    | split

theorem State.writeShifts_eff {s : State} {d : TDesc} {loops : List LoopFrame} {shifts : List Int}
    (hW : Sub 0x3800000 W) (h : Eff W s₀ s)  : Eff W s₀ (State.writeShifts s d loops shifts) := by
  unfold State.writeShifts
  repeat' first
    | with_reducible assumption
    | with_reducible apply State.t0Store_eff

end Sys2Proof.Machine
end

