-- ==== Sys2Proof/Laws/EffMatrix.lean ====
section
/-!
SUPPORT. Laws/EffMatrix.lean: which fields of the state every operation of Machine/Matrix.lean may change.
-/
namespace Sys2Proof.Machine

variable {W : Nat} {s₀ : State}

theorem State.setBank_eff {s : State} {n : Nat} {b : Nat} {v : AccBank}
    (hW : Sub 0x10000 W) (h : Eff W s₀ s)  : Eff W s₀ (State.setBank s n b v) := by
  unfold State.setBank
  repeat' first
    | ((with_reducible refine EffL.mk ?_); constructor <;> first | (intro _; with_reducible rfl) | exact fun e => hW.no rfl e)
    | split
    | (refine Eff.lit ?_ rfl ?_; with_reducible assumption)

theorem State.senseWord_eff {s : State} {n : Nat} {b : Nat} {w : Nat} {f : BitFlips}
    (hW : Sub 0x100001F0010000330008 W) (h : Eff W s₀ s)  : Eff W s₀ (State.senseWord s n b w f) := by
  unfold State.senseWord
  repeat' first
    | with_reducible assumption
    | ((with_reducible refine Sub.trans ?_ hW); exact rfl)
    | ((with_reducible refine EffL.mk ?_); constructor <;> first | (intro _; with_reducible rfl) | exact fun e => hW.no rfl e)
    | (extract_lets +onlyGivenNames v; refine (fun (hv : Eff W s₀ v) => ?_) ?_; clear_value v; rotate_left; subst v)
    | (extract_lets +onlyGivenNames v; clear_value v)
    | with_reducible apply Eff.ite
    | with_reducible apply State.setBank_eff
    | with_reducible apply State.holeAll_eff
    | with_reducible apply State.openHole_eff
    | with_reducible apply State.endStream_eff
    | with_reducible apply State.logError_eff
    | with_reducible apply State.addSat_eff
    | with_reducible apply State.setBit_eff
    | with_reducible apply State.setFld_eff
    | split
    | (refine Eff.lit ?_ rfl ?_; with_reducible assumption)

theorem State.senseBank_eff {s : State} {n : Nat} {b : Nat} {rows : Nat}
    (hW : Sub 0x100001F0010000330008 W) (h : Eff W s₀ s)  : Eff W s₀ (State.senseBank s n b rows) := by
  unfold State.senseBank
  repeat' first
    | with_reducible assumption
    | with_reducible apply Eff.ite
    | with_reducible refine Eff.foldl _ (fun _ _ _ => ?_) ?_
    | with_reducible apply State.senseWord_eff

theorem State.meetBank_eff {s : State} {acc : Bool} {n : Nat} {b : Nat} {rows : Nat} {cols : Nat}
    (hW : Sub 0x100001F0010000330008 W) (h : Eff W s₀ s)  : Eff W s₀ (State.meetBank s acc n b rows cols) := by
  unfold State.meetBank
  repeat' first
    | with_reducible assumption
    | ((with_reducible refine EffL.mk ?_); constructor <;> first | (intro _; with_reducible rfl) | exact fun e => hW.no rfl e)
    | with_reducible apply Eff.ite
    | with_reducible apply State.senseBank_eff
    | (refine Eff.lit ?_ rfl ?_; with_reducible assumption)

theorem State.mmul_eff {s : State} {n : Nat} {f : TFields}
    (hW : Sub 0x100001F0010067333008 W) (h : Eff W s₀ s)  : Eff W s₀ (State.mmul s n f) := by
  unfold State.mmul
  repeat' first
    | with_reducible assumption
    | ((with_reducible refine Sub.trans ?_ hW); exact rfl)
    | (extract_lets +onlyGivenNames v; refine (fun (hv : Eff W s₀ v) => ?_) ?_; clear_value v; rotate_left; subst v)
    | (extract_lets +onlyGivenNames v; clear_value v)
    | with_reducible apply Eff.iteSnd
    | with_reducible refine Eff.foldl _ (fun _ _ _ => ?_) ?_
    | with_reducible apply State.meetBank_eff
    | with_reducible apply State.senseBank_eff
    | with_reducible apply State.setBank_eff
    | with_reducible apply State.count_eff
    | with_reducible apply State.senseTrailer_eff
    | with_reducible apply State.readOp_eff

theorem execMmul_eff {n : Fin 16} {f : TFields} {s : State}
    (hW : Sub 0x100001F0010267337088 W) (h : Eff W s₀ s)  : EffX W s₀ (execMmul n f s) := by
  unfold execMmul
  repeat' first
    | with_reducible assumption
    | ((with_reducible refine Sub.trans ?_ hW); exact rfl)
    | with_reducible apply EffX.of_next
    | with_reducible apply State.mmul_eff
    | with_reducible refine State.runWord_eff ?_ ?_ (fun _ _ => ?_)

theorem State.accout_eff {s : State} {n : Nat} {f : TFields}
    (hW : Sub 0x100001F0010067B33008 W) (h : Eff W s₀ s)  : Eff W s₀ (State.accout s n f) := by
  unfold State.accout
  repeat' first
    | with_reducible assumption
    | ((with_reducible refine Sub.trans ?_ hW); exact rfl)
    | (extract_lets +onlyGivenNames v; refine (fun (hv : Eff W s₀ v) => ?_) ?_; clear_value v; rotate_left; subst v)
    | (extract_lets +onlyGivenNames v; clear_value v)
    | with_reducible apply Eff.iteSnd
    | with_reducible refine Eff.foldl _ (fun _ _ _ => ?_) ?_
    | with_reducible apply State.senseBank_eff
    | with_reducible apply State.count_eff
    | with_reducible apply State.readOp_eff
    | with_reducible apply State.writeRows_eff

theorem execAccout_eff {n : Fin 16} {f : TFields} {s : State}
    (hW : Sub 0x100001F0010267B37088 W) (h : Eff W s₀ s)  : EffX W s₀ (execAccout n f s) := by
  unfold execAccout
  repeat' first
    | with_reducible assumption
    | ((with_reducible refine Sub.trans ?_ hW); exact rfl)
    | (extract_lets +onlyGivenNames v; clear_value v)
    | with_reducible apply EffX.of_next
    | with_reducible apply State.accout_eff
    | with_reducible refine State.runWord_eff ?_ ?_ (fun _ _ => ?_)

theorem State.gate_eff {s : State} {n : Nat} {f : TFields}
    (hW : Sub 0x100001F0010067B33008 W) (h : Eff W s₀ s)  : Eff W s₀ (State.gate s n f) := by
  unfold State.gate
  repeat' first
    | with_reducible assumption
    | ((with_reducible refine Sub.trans ?_ hW); exact rfl)
    | (extract_lets +onlyGivenNames v; refine (fun (hv : Eff W s₀ v) => ?_) ?_; clear_value v; rotate_left; subst v)
    | (extract_lets +onlyGivenNames v; clear_value v)
    | with_reducible apply Eff.ite
    | with_reducible apply State.senseBank_eff
    | with_reducible apply State.setBank_eff
    | with_reducible apply State.count_eff
    | with_reducible apply State.readOp_eff
    | with_reducible apply State.writeRows_eff

theorem execGate_eff {n : Fin 16} {f : TFields} {s : State}
    (hW : Sub 0x100001F0010267B37088 W) (h : Eff W s₀ s)  : EffX W s₀ (execGate n f s) := by
  unfold execGate
  repeat' first
    | with_reducible assumption
    | ((with_reducible refine Sub.trans ?_ hW); exact rfl)
    | with_reducible apply EffX.of_next
    | with_reducible apply State.gate_eff
    | with_reducible refine State.runWord_eff ?_ ?_ (fun _ _ => ?_)

end Sys2Proof.Machine
end

