-- ==== Sys2Proof/Laws/EffOverlay.lean ====
section
/-!
SUPPORT. Laws/EffOverlay.lean: which fields of the state every operation of Machine/Overlay.lean may change.
-/
namespace Sys2Proof.Machine

variable {W : Nat} {s₀ : State}

theorem State.writeCap_eff {s : State} {mw : Nat}
    (hW : Sub 0x100001F0000000000008 W) (h : Eff W s₀ s)  : Eff W s₀ (State.writeCap s mw) := by
  unfold State.writeCap
  repeat' first
    | with_reducible assumption
    | ((with_reducible refine Sub.trans ?_ hW); exact rfl)
    | (extract_lets +onlyGivenNames v; refine (fun (hv : Eff W s₀ v) => ?_) ?_; clear_value v; rotate_left; subst v)
    | (extract_lets +onlyGivenNames v; clear_value v)
    | with_reducible apply Eff.ite
    | with_reducible apply State.logError_eff
    | with_reducible apply State.raise_eff
    | with_reducible apply State.setFld_eff

theorem State.writeIds_eff {s : State} {fields : List (Nat × Nat)}
    (hW : Sub 0x101801F301800000008A W) (h : Eff W s₀ s)  : Eff W s₀ (State.writeIds s fields) := by
  unfold State.writeIds
  repeat' first
    | with_reducible assumption
    | ((with_reducible refine Sub.trans ?_ hW); exact rfl)
    | (extract_lets +onlyGivenNames v; refine (fun (hv : Eff W s₀ v) => ?_) ?_; clear_value v; rotate_left; subst v)
    | (extract_lets +onlyGivenNames v; clear_value v)
    | with_reducible apply Eff.ite
    | with_reducible refine Eff.foldl _ (fun _ _ _ => ?_) ?_
    | with_reducible apply State.writeCap_eff
    | with_reducible apply State.applyWant_eff
    | with_reducible apply State.setReg_eff

theorem State.showEpoch_eff {s : State}
    (hW : Sub 0x8 W) (h : Eff W s₀ s)  : Eff W s₀ (State.showEpoch s) := by
  unfold State.showEpoch
  repeat' first
    | with_reducible assumption
    | (extract_lets +onlyGivenNames v; refine (fun (hv : Eff W s₀ v) => ?_) ?_; clear_value v; rotate_left; subst v)
    | (extract_lets +onlyGivenNames v; clear_value v)
    | with_reducible apply State.setReg64_eff
    | with_reducible apply State.setBit_eff
    | with_reducible apply State.setFld_eff

theorem State.giveBoundary_eff {s : State} {sc : Nat} {vals : List (Nat × Nat)}
    (hW : Sub 0x10093800000 W) (h : Eff W s₀ s)  : Eff W s₀ (State.giveBoundary s sc vals) := by
  unfold State.giveBoundary
  repeat' first
    | with_reducible assumption
    | ((with_reducible refine Sub.trans ?_ hW); exact rfl)
    | (extract_lets +onlyGivenNames v; refine (fun (hv : Eff W s₀ v) => ?_) ?_; clear_value v; rotate_left; subst v)
    | (extract_lets +onlyGivenNames v; clear_value v)
    | with_reducible apply Eff.ite
    | with_reducible refine Eff.foldl _ (fun _ _ _ => ?_) ?_
    | with_reducible apply State.storeBytes_eff
    | with_reducible apply State.updStream_eff
    | split

theorem State.sendBoundary_eff {s : State} {sc : Nat} {chip : Nat} {vals : List (Nat × Nat)}
    (hW : Sub 0x10000200000000000008 W) (h : Eff W s₀ s)  : Eff W s₀ (State.sendBoundary s sc chip vals) := by
  unfold State.sendBoundary
  repeat' first
    | with_reducible assumption
    | with_reducible apply State.peerMsg_eff

theorem State.advanceEpoch_eff {s : State}
    (hW : Sub 0x10400200110093800008 W) (h : Eff W s₀ s)  : Eff W s₀ (State.advanceEpoch s) := by
  unfold State.advanceEpoch
  repeat' first
    | with_reducible assumption
    | ((with_reducible refine Sub.trans ?_ hW); exact rfl)
    | ((with_reducible refine EffL.mk ?_); constructor <;> first | (intro _; with_reducible rfl) | exact fun e => hW.no rfl e)
    | (extract_lets +onlyGivenNames v; refine (fun (hv : Eff W s₀ v) => ?_) ?_; clear_value v; rotate_left; subst v)
    | (extract_lets +onlyGivenNames v; have hp := v.flash; clear hp; subst v)
    | (extract_lets +onlyGivenNames v; clear_value v)
    | with_reducible apply Eff.ite
    | with_reducible refine Eff.foldl _ (fun _ _ _ => ?_) ?_
    | with_reducible apply State.sendBoundary_eff
    | with_reducible apply State.giveBoundary_eff
    | with_reducible apply State.showEpoch_eff
    | with_reducible apply State.settle_eff
    | split
    | (refine Eff.lit ?_ rfl ?_; with_reducible assumption)

theorem State.takeEpoch_eff {s : State} {q : Nat} {tag : Nat} {epoch : Nat} {mode : Nat} {list : List (Nat × Nat)}
    (hW : Sub 0x105801F311800000009A W) (h : Eff W s₀ s)  : Eff W s₀ (State.takeEpoch s q tag epoch mode list) := by
  unfold State.takeEpoch
  repeat' first
    | with_reducible assumption
    | ((with_reducible refine Sub.trans ?_ hW); exact rfl)
    | ((with_reducible refine EffL.mk ?_); constructor <;> first | (intro _; with_reducible rfl) | exact fun e => hW.no rfl e)
    | (extract_lets +onlyGivenNames v; refine (fun (hv : Eff W s₀ v) => ?_) ?_; clear_value v; rotate_left; subst v)
    | (extract_lets +onlyGivenNames v; have hp := v.flash; clear hp; subst v)
    | (extract_lets +onlyGivenNames v; clear_value v)
    | with_reducible apply Eff.ite
    | with_reducible apply State.writeIds_eff
    | with_reducible apply State.actReq_eff
    | with_reducible apply State.settle_eff
    | with_reducible apply State.logViolation_eff
    | with_reducible apply State.draw_eff
    | with_reducible apply State.setFld_eff
    | with_reducible apply State.setReg_eff
    | split
    | (refine Eff.lit ?_ rfl ?_; with_reducible assumption)

theorem State.takeOverlay_eff {s : State} {q : Nat} {r : Req}
    (hW : Sub 0x105801F311806700009A W) (h : Eff W s₀ s)  : Eff W s₀ (State.takeOverlay s q r) := by
  unfold State.takeOverlay
  repeat' first
    | with_reducible assumption
    | ((with_reducible refine Sub.trans ?_ hW); exact rfl)
    | (extract_lets +onlyGivenNames v; clear_value v)
    | with_reducible apply Eff.ite
    | with_reducible apply State.takeEpoch_eff
    | with_reducible apply State.settle_eff
    | with_reducible apply State.senseRange_eff
    | with_reducible apply State.logViolation_eff
    | with_reducible apply State.logError_eff
    | with_reducible refine Eff.snd (by with_reducible assumption) ?_
    | split

theorem State.runEpochs_eff {s : State} {x1 : Nat}
    (hW : Sub 0x105803F31180F780009A W) (h : Eff W s₀ s)  : Eff W s₀ (State.runEpochs s x1) := by
  induction x1 generalizing s with
  | zero =>
    unfold State.runEpochs
    repeat' with_reducible assumption
  | succ n ih =>
    unfold State.runEpochs
    repeat' first
      | with_reducible assumption
      | ((with_reducible refine Sub.trans ?_ hW); exact rfl)
      | (extract_lets +onlyGivenNames v; refine (fun (hv : Eff W s₀ v) => ?_) ?_; clear_value v; rotate_left; subst v)
      | with_reducible apply Eff.ite
      | with_reducible apply State.takeOverlay_eff
      | with_reducible apply State.advanceEpoch_eff
      | with_reducible apply ih
      | split

theorem State.applySwitch_eff {s : State}
    (hW : Sub 0x400000000000000008 W) (h : Eff W s₀ s)  : Eff W s₀ (State.applySwitch s) := by
  unfold State.applySwitch
  repeat' first
    | with_reducible assumption
    | ((with_reducible refine Sub.trans ?_ hW); exact rfl)
    | ((with_reducible refine EffL.mk ?_); constructor <;> first | (intro _; with_reducible rfl) | exact fun e => hW.no rfl e)
    | (extract_lets +onlyGivenNames v; refine (fun (hv : Eff W s₀ v) => ?_) ?_; clear_value v; rotate_left; subst v)
    | (extract_lets +onlyGivenNames v; have hp := v.flash; clear hp; subst v)
    | (extract_lets +onlyGivenNames v; clear_value v)
    | with_reducible apply Eff.ite
    | with_reducible refine Eff.foldl _ (fun _ _ _ => ?_) ?_
    | with_reducible apply State.showEpoch_eff
    | with_reducible apply State.setReg_eff
    | (refine Eff.lit ?_ rfl ?_; with_reducible assumption)

end Sys2Proof.Machine
end

