-- ==== Sys2Proof/Laws/EffRecords.lean ====
section
/-!
SUPPORT. Laws/EffRecords.lean: which fields of the state every operation of Machine/Records.lean may change.
-/
namespace Sys2Proof.Machine

variable {W : Nat} {s₀ : State}

theorem State.setPinnedRow_eff {s : State} {n : Nat} {slot : Nat} {batch : Nat} {xs : List Int}
    (hW : Sub 0x30000 W) (h : Eff W s₀ s)  : Eff W s₀ (State.setPinnedRow s n slot batch xs) := by
  unfold State.setPinnedRow
  repeat' first
    | with_reducible assumption
    | ((with_reducible refine Sub.trans ?_ hW); exact rfl)
    | ((with_reducible refine EffL.mk ?_); constructor <;> first | (intro _; with_reducible rfl) | exact fun e => hW.no rfl e)
    | (extract_lets +onlyGivenNames v; refine (fun (hv : Eff W s₀ v) => ?_) ?_; clear_value v; rotate_left; subst v)
    | (extract_lets +onlyGivenNames v; clear_value v)
    | with_reducible apply State.setBank_eff
    | (refine Eff.lit ?_ rfl ?_; with_reducible assumption)

theorem State.zeroPinned_eff {s : State} {batch : Nat}
    (hW : Sub 0x30000 W) (h : Eff W s₀ s)  : Eff W s₀ (State.zeroPinned s batch) := by
  unfold State.zeroPinned
  repeat' first
    | with_reducible assumption
    | with_reducible refine Eff.foldl _ (fun _ _ _ => ?_) ?_
    | with_reducible apply State.setPinnedRow_eff

theorem State.loadPinned_eff {s : State} {batch : Nat} {bs : List Byte}
    (hW : Sub 0x30000 W) (h : Eff W s₀ s)  : Eff W s₀ (State.loadPinned s batch bs) := by
  unfold State.loadPinned
  repeat' first
    | with_reducible assumption
    | with_reducible refine Eff.foldl _ (fun _ _ _ => ?_) ?_
    | with_reducible apply State.setPinnedRow_eff

end Sys2Proof.Machine
end

