-- ==== Sys2Proof/Laws/EffStreams.lean ====
section
/-!
SUPPORT. Laws/EffStreams.lean: which fields of the state every operation of Machine/Streams.lean may change.
-/
namespace Sys2Proof.Machine

variable {W : Nat} {s₀ : State}

theorem State.finalHole_eff {s : State} {sc : Nat} {t : Stream}
    (hW : Sub 0x10000200110083800008 W) (h : Eff W s₀ s)  : Eff W s₀ (State.finalHole s sc t) := by
  unfold State.finalHole
  repeat' first
    | with_reducible assumption
    | ((with_reducible refine Sub.trans ?_ hW); exact rfl)
    | (extract_lets +onlyGivenNames v; refine (fun (hv : Eff W s₀ v) => ?_) ?_; clear_value v; rotate_left; subst v)
    | (extract_lets +onlyGivenNames v; clear_value v)
    | with_reducible apply Eff.ite
    | with_reducible apply State.postHole_eff
    | with_reducible apply State.updStream_eff

theorem State.finishStream_eff {s : State} {sc : Nat} {end_ : Nat} {status : Nat → Nat}
    (hW : Sub 0x100A4200370A83830008 W) (h : Eff W s₀ s)  : Eff W s₀ (State.finishStream s sc end_ status) := by
  unfold State.finishStream
  repeat' first
    | with_reducible assumption
    | ((with_reducible refine Sub.trans ?_ hW); exact rfl)
    | ((with_reducible refine EffL.mk ?_); constructor <;> first | (intro _; with_reducible rfl) | exact fun e => hW.no rfl e)
    | (extract_lets +onlyGivenNames v; refine (fun (hv : Eff W s₀ v) => ?_) ?_; clear_value v; rotate_left; subst v)
    | (extract_lets +onlyGivenNames v; clear_value v)
    | with_reducible refine Eff.foldl _ (fun _ _ _ => ?_) ?_
    | with_reducible apply State.finalHole_eff
    | with_reducible apply State.zeroPinned_eff
    | with_reducible apply State.stopMoves_eff
    | with_reducible apply State.leaveOut_eff
    | with_reducible apply State.settleStream_eff
    | with_reducible apply State.postResult_eff
    | with_reducible apply State.showHeld_eff
    | with_reducible apply State.peerMsg_eff
    | split
    | (refine Eff.lit ?_ rfl ?_; with_reducible assumption)

theorem State.takeEndings_eff {s : State}
    (hW : Sub 0x100A4200370A83830008 W) (h : Eff W s₀ s)  : Eff W s₀ (State.takeEndings s) := by
  unfold State.takeEndings
  repeat' first
    | with_reducible assumption
    | with_reducible refine Eff.foldl _ (fun _ _ _ => ?_) ?_
    | with_reducible apply State.finishStream_eff
    | split

theorem State.closeResting_eff {s : State}
    (hW : Sub 0x100A4200370A83830008 W) (h : Eff W s₀ s)  : Eff W s₀ (State.closeResting s) := by
  unfold State.closeResting
  repeat' first
    | with_reducible assumption
    | with_reducible apply Eff.ite
    | with_reducible refine Eff.foldl _ (fun _ _ _ => ?_) ?_
    | with_reducible apply State.finishStream_eff

theorem State.deactivatePlan_eff {s : State}
    (hW : Sub 0x100A4200778A83833108 W) (h : Eff W s₀ s)  : Eff W s₀ (State.deactivatePlan s) := by
  unfold State.deactivatePlan
  repeat' first
    | with_reducible assumption
    | ((with_reducible refine Sub.trans ?_ hW); exact rfl)
    | ((with_reducible refine EffL.mk ?_); constructor <;> first | (intro _; with_reducible rfl) | exact fun e => hW.no rfl e)
    | (extract_lets +onlyGivenNames v; refine (fun (hv : Eff W s₀ v) => ?_) ?_; clear_value v; rotate_left; subst v)
    | with_reducible apply Eff.ite
    | with_reducible refine Eff.foldl _ (fun _ _ _ => ?_) ?_
    | with_reducible apply State.finishStream_eff
    | with_reducible apply State.raise_eff
    | with_reducible apply State.setReg64_eff
    | with_reducible apply State.setBit_eff
    | with_reducible apply State.setFld_eff
    | (refine Eff.lit ?_ rfl ?_; with_reducible assumption)

theorem State.zeroHome_eff {s : State} {d : MoveDatum} {len : Nat}
    (hW : Sub 0x100001F00104F780000A W) (h : Eff W s₀ s)  : EffON W s₀ (State.zeroHome s d len) := by
  unfold State.zeroHome
  repeat' first
    | with_reducible assumption
    | with_reducible apply EffON.of_some
    | with_reducible apply EffON.of_none
    | with_reducible apply State.makeRoom_eff
    | with_reducible apply State.zeroNew_eff
    | dsimp -zeta only
    | with_reducible refine Eff.snd (by with_reducible assumption) ?_
    | split

theorem State.placeBytes_eff {s : State} {bs : List Byte}
    (hW : Sub 0x93800002 W) (h : Eff W s₀ s)  : EffON W s₀ (State.placeBytes s bs) := by
  unfold State.placeBytes
  repeat' first
    | with_reducible assumption
    | ((with_reducible refine Sub.trans ?_ hW); exact rfl)
    | with_reducible apply EffON.of_some
    | with_reducible apply EffON.of_none
    | with_reducible apply State.choose_eff
    | with_reducible apply State.storeBytes_eff
    | with_reducible refine Eff.snd (by with_reducible assumption) ?_
    | split

theorem State.keepJob_eff {s : State} {o : OpenJob}
    (hW : Sub 0x400000000000 W) (h : Eff W s₀ s)  : Eff W s₀ (State.keepJob s o) := by
  unfold State.keepJob
  repeat' first
    | ((with_reducible refine EffL.mk ?_); constructor <;> first | (intro _; with_reducible rfl) | exact fun e => hW.no rfl e)
    | (refine Eff.lit ?_ rfl ?_; with_reducible assumption)

theorem State.dropJob_eff {s : State} {q : Nat} {tag : Nat}
    (hW : Sub 0x400000000000 W) (h : Eff W s₀ s)  : Eff W s₀ (State.dropJob s q tag) := by
  unfold State.dropJob
  repeat' first
    | ((with_reducible refine EffL.mk ?_); constructor <;> first | (intro _; with_reducible rfl) | exact fun e => hW.no rfl e)
    | (refine Eff.lit ?_ rfl ?_; with_reducible assumption)

theorem State.runOpen_eff {s : State} {sc : Nat} {p : Plan} {ps : Nat} {o : OpenJob}
    (hW : Sub 0x100001F04104F780000A W) (h : Eff W s₀ s)  : Eff W s₀ (State.runOpen s sc p ps o).2.2 := by
  unfold State.runOpen
  repeat' first
    | with_reducible assumption
    | ((with_reducible refine Sub.trans ?_ hW); exact rfl)
    | (extract_lets +onlyGivenNames v; clear_value v)
    | with_reducible apply Eff.iteSnd
    | with_reducible refine Eff.foldlSnd _ (fun _ _ _ => ?_) ?_
    | with_reducible apply State.keepJob_eff
    | with_reducible apply State.zeroHome_eff
    | with_reducible refine Eff.ofSomeSnd (by with_reducible assumption) ?_
    | split

theorem State.fillFlats_eff {s : State} {sc : Nat} {p : Plan} {t : Stream}
    (hW : Sub 0x93800000 W) (h : Eff W s₀ s)  : Eff W s₀ (State.fillFlats s sc p t) := by
  unfold State.fillFlats
  repeat' first
    | with_reducible assumption
    | (extract_lets +onlyGivenNames v; refine (fun (hv : Eff W s₀ v) => ?_) ?_; clear_value v; rotate_left; subst v)
    | with_reducible apply Eff.ite
    | with_reducible refine Eff.foldl _ (fun _ _ _ => ?_) ?_
    | with_reducible apply State.storeBytes_eff
    | split

theorem State.firstRecord_eff {s : State} {sc : Nat} {r : Req}
    (hW : Sub 0x10093800002 W) (h : Eff W s₀ s)  : EffO W s₀ (State.firstRecord s sc r) := by
  unfold State.firstRecord
  repeat' first
    | with_reducible assumption
    | ((with_reducible refine Sub.trans ?_ hW); exact rfl)
    | with_reducible apply EffO.of_some
    | with_reducible apply EffO.ite
    | with_reducible refine EffO.mapSnd ?_ (fun _ _ => ?_)
    | with_reducible apply State.placeBytes_eff
    | with_reducible apply State.updStream_eff

theorem State.openStream_eff {s : State} {q : Nat} {r : Req}
    (hW : Sub 0x100001F05104F780000A W) (h : Eff W s₀ s)  : Eff W s₀ (State.openStream s q r) := by
  unfold State.openStream
  repeat' first
    | with_reducible assumption
    | ((with_reducible refine Sub.trans ?_ hW); exact rfl)
    | (extract_lets +onlyGivenNames v; refine (fun (hv : Eff W s₀ v) => ?_) ?_; clear_value v; rotate_left; subst v)
    | (extract_lets +onlyGivenNames v; clear_value v)
    | with_reducible apply Eff.ite
    | with_reducible apply Eff.iteSnd
    | with_reducible apply State.firstRecord_eff
    | with_reducible apply State.fillFlats_eff
    | with_reducible apply State.runOpen_eff
    | with_reducible apply State.dropJob_eff
    | with_reducible apply State.settle_eff
    | with_reducible apply State.senseRange_eff
    | with_reducible apply State.setStream_eff
    | with_reducible apply State.logError_eff
    | dsimp -zeta only
    | with_reducible refine Eff.snd2 (by with_reducible assumption) ?_
    | with_reducible refine Eff.ofSome (by with_reducible assumption) ?_
    | split

theorem State.exportRow_eff {s : State} {sc : Nat} {migrates : optParam Bool false}
    (hW : Sub 0x10093830002 W) (h : Eff W s₀ s)  : Eff W s₀ (State.exportRow s sc migrates) := by
  unfold State.exportRow
  repeat' first
    | with_reducible assumption
    | ((with_reducible refine Sub.trans ?_ hW); exact rfl)
    | (extract_lets +onlyGivenNames v; refine (fun (hv : Eff W s₀ v) => ?_) ?_; clear_value v; rotate_left; subst v)
    | with_reducible apply Eff.ite
    | with_reducible apply State.placeBytes_eff
    | with_reducible apply State.zeroPinned_eff
    | with_reducible apply State.openHole_eff
    | with_reducible apply State.updStream_eff
    | with_reducible refine Eff.ofSomeSnd (by with_reducible assumption) ?_
    | split

end Sys2Proof.Machine
end

