-- ==== Sys2Proof/Laws/EffPeer.lean ====
section
/-!
SUPPORT. Laws/EffPeer.lean: which fields of the state every operation of Machine/Peer.lean may change.
-/
namespace Sys2Proof.Machine

variable {W : Nat} {s₀ : State}

theorem State.peerViolation_eff {s : State} {k : Nat} {sub : Nat}
    (hW : Sub 0x100001F0000000000008 W) (h : Eff W s₀ s)  : Eff W s₀ (State.peerViolation s k sub) := by
  unfold State.peerViolation
  repeat' first
    | with_reducible assumption
    | ((with_reducible refine Sub.trans ?_ hW); exact rfl)
    | with_reducible apply State.logViolation_eff
    | with_reducible apply State.raise_eff

theorem State.sendWrites_eff {s : State} {chip : Nat} {cls : Nat} {id : Nat} {off : Nat} {bs : List Byte}
    (hW : Sub 0x10000200000000000008 W) (h : Eff W s₀ s)  : Eff W s₀ (State.sendWrites s chip cls id off bs) := by
  unfold State.sendWrites
  repeat' first
    | with_reducible assumption
    | (extract_lets +onlyGivenNames v; refine (fun (hv : Eff W s₀ v) => ?_) ?_; clear_value v; rotate_left; subst v)
    | (extract_lets +onlyGivenNames v; clear_value v)
    | with_reducible refine Eff.foldl _ (fun _ _ _ => ?_) ?_
    | with_reducible apply State.peerMsg_eff

theorem State.pushDatum_eff {s : State} {chip : Nat} {off : Nat} {x3 : Homed}
    (hW : Sub 0x1000C3F001046700000A W) (h : Eff W s₀ s)  : Eff W s₀ (State.pushDatum s chip off x3) := by
  unfold State.pushDatum
  repeat' first
    | with_reducible assumption
    | ((with_reducible refine Sub.trans ?_ hW); exact rfl)
    | ((with_reducible refine EffL.mk ?_); constructor <;> first | (intro _; with_reducible rfl) | exact fun e => hW.no rfl e)
    | (extract_lets +onlyGivenNames v; refine (fun (hv : Eff W s₀ v) => ?_) ?_; clear_value v; rotate_left; subst v)
    | (extract_lets +onlyGivenNames v; clear_value v)
    | with_reducible apply Eff.ite
    | with_reducible apply Eff.iteSnd
    | with_reducible apply State.sendWrites_eff
    | with_reducible apply State.lostDatum_eff
    | with_reducible apply State.cartError_eff
    | with_reducible apply State.showMove_eff
    | with_reducible apply State.senseRange_eff
    | dsimp -zeta only
    | with_reducible refine Eff.snd (by with_reducible assumption) ?_
    | split
    | (refine Eff.lit ?_ rfl ?_; with_reducible apply State.draw_eff)
    | (refine Eff.lit ?_ rfl ?_; with_reducible refine Eff.snd (by with_reducible assumption) ?_)

theorem State.pushSet_eff {s : State} {m : Migration}
    (hW : Sub 0x1000C3F00106F780000A W) (h : Eff W s₀ s)  : Eff W s₀ (State.pushSet s m) := by
  unfold State.pushSet
  repeat' first
    | with_reducible assumption
    | ((with_reducible refine Sub.trans ?_ hW); exact rfl)
    | with_reducible apply Eff.ite
    | with_reducible refine Eff.foldl _ (fun _ _ _ => ?_) ?_
    | with_reducible apply State.pushDatum_eff
    | with_reducible apply State.moveTo_eff
    | split

theorem State.pushRecord_eff {s : State} {m : Migration}
    (hW : Sub 0x1000C3F001046700000A W) (h : Eff W s₀ s)  : Eff W s₀ (State.pushRecord s m) := by
  unfold State.pushRecord
  repeat' first
    | with_reducible assumption
    | with_reducible apply Eff.ite
    | with_reducible apply State.pushDatum_eff
    | split

theorem State.sendAsk_eff {s : State} {m : Migration}
    (hW : Sub 0x10020200000000000008 W) (h : Eff W s₀ s)  : Eff W s₀ (State.sendAsk s m) := by
  unfold State.sendAsk
  repeat' first
    | with_reducible assumption
    | ((with_reducible refine Sub.trans ?_ hW); exact rfl)
    | ((with_reducible refine EffL.mk ?_); constructor <;> first | (intro _; with_reducible rfl) | exact fun e => hW.no rfl e)
    | (extract_lets +onlyGivenNames v; refine (fun (hv : Eff W s₀ v) => ?_) ?_; clear_value v; rotate_left; subst v)
    | with_reducible apply State.peerMsg_eff
    | split
    | (refine Eff.lit ?_ rfl ?_; with_reducible assumption)

theorem State.takeMigrate_eff {s : State} {q : Nat} {r : Req}
    (hW : Sub 0x10020200110000000008 W) (h : Eff W s₀ s)  : Eff W s₀ (State.takeMigrate s q r) := by
  unfold State.takeMigrate
  repeat' first
    | with_reducible assumption
    | ((with_reducible refine Sub.trans ?_ hW); exact rfl)
    | ((with_reducible refine EffL.mk ?_); constructor <;> first | (intro _; with_reducible rfl) | exact fun e => hW.no rfl e)
    | (extract_lets +onlyGivenNames v; refine (fun (hv : Eff W s₀ v) => ?_) ?_; clear_value v; rotate_left; subst v)
    | (extract_lets +onlyGivenNames v; clear_value v)
    | with_reducible apply Eff.ite
    | with_reducible apply State.sendAsk_eff
    | with_reducible apply State.actReq_eff
    | with_reducible apply State.settle_eff
    | with_reducible apply State.updStream_eff
    | (refine Eff.lit ?_ rfl ?_; with_reducible assumption)

theorem State.dropMigration_eff {s : State} {sc : Nat}
    (hW : Sub 0x20000010000000000 W) (h : Eff W s₀ s)  : Eff W s₀ (State.dropMigration s sc) := by
  unfold State.dropMigration
  repeat' first
    | ((with_reducible refine Sub.trans ?_ hW); exact rfl)
    | ((with_reducible refine EffL.mk ?_); constructor <;> first | (intro _; with_reducible rfl) | exact fun e => hW.no rfl e)
    | with_reducible apply State.updStream_eff
    | (refine Eff.lit ?_ rfl ?_; with_reducible assumption)

theorem State.handOver_eff {s : State} {m : Migration}
    (hW : Sub 0xA0000130000000000 W) (h : Eff W s₀ s)  : Eff W s₀ (State.handOver s m) := by
  unfold State.handOver
  repeat' first
    | with_reducible assumption
    | ((with_reducible refine Sub.trans ?_ hW); exact rfl)
    | ((with_reducible refine EffL.mk ?_); constructor <;> first | (intro _; with_reducible rfl) | exact fun e => hW.no rfl e)
    | (extract_lets +onlyGivenNames v; refine (fun (hv : Eff W s₀ v) => ?_) ?_; clear_value v; rotate_left; subst v)
    | with_reducible apply State.leaveOut_eff
    | with_reducible apply State.settle_eff
    | with_reducible apply State.setStream_eff
    | split
    | (refine Eff.lit ?_ rfl ?_; with_reducible assumption)

theorem State.releaseTx_eff {s : State} {x : TxMove}
    (hW : Sub 0x100AC3F013046700000A W) (h : Eff W s₀ s)  : Eff W s₀ (State.releaseTx s x) := by
  unfold State.releaseTx
  repeat' first
    | with_reducible assumption
    | ((with_reducible refine Sub.trans ?_ hW); exact rfl)
    | ((with_reducible refine EffL.mk ?_); constructor <;> first | (intro _; with_reducible rfl) | exact fun e => hW.no rfl e)
    | (extract_lets +onlyGivenNames v; refine (fun (hv : Eff W s₀ v) => ?_) ?_; clear_value v; rotate_left; subst v)
    | with_reducible apply Eff.ite
    | with_reducible apply State.handOver_eff
    | with_reducible apply State.pushRecord_eff
    | with_reducible apply State.rehome_eff
    | with_reducible apply State.showMove_eff
    | with_reducible apply State.peerMsg_eff
    | with_reducible apply State.add64_eff
    | split
    | (refine Eff.lit ?_ rfl ?_; with_reducible assumption)

theorem State.keepHere_eff {s : State} {m : Migration}
    (hW : Sub 0x20000110000000000 W) (h : Eff W s₀ s)  : Eff W s₀ (State.keepHere s m) := by
  unfold State.keepHere
  repeat' first
    | with_reducible assumption
    | ((with_reducible refine Sub.trans ?_ hW); exact rfl)
    | (extract_lets +onlyGivenNames v; refine (fun (hv : Eff W s₀ v) => ?_) ?_; clear_value v; rotate_left; subst v)
    | with_reducible apply Eff.ite
    | with_reducible apply State.dropMigration_eff
    | with_reducible apply State.settle_eff
    | with_reducible apply State.openHole_eff
    | with_reducible apply State.updStream_eff
    | split

theorem State.failTx_eff {s : State} {x : TxMove}
    (hW : Sub 0x24000110000000008 W) (h : Eff W s₀ s)  : Eff W s₀ (State.failTx s x) := by
  unfold State.failTx
  repeat' first
    | with_reducible assumption
    | ((with_reducible refine Sub.trans ?_ hW); exact rfl)
    | ((with_reducible refine EffL.mk ?_); constructor <;> first | (intro _; with_reducible rfl) | exact fun e => hW.no rfl e)
    | (extract_lets +onlyGivenNames v; refine (fun (hv : Eff W s₀ v) => ?_) ?_; clear_value v; rotate_left; subst v)
    | with_reducible apply State.keepHere_eff
    | with_reducible apply State.cartError_eff
    | with_reducible apply State.showMove_eff
    | split
    | (refine Eff.lit ?_ rfl ?_; with_reducible assumption)

theorem State.pullDatum_eff {s : State} {x1 : Homed}
    (hW : Sub 0x1000A20000000000000A W) (h : Eff W s₀ s)  : Eff W s₀ (State.pullDatum s x1) := by
  unfold State.pullDatum
  repeat' first
    | with_reducible assumption
    | ((with_reducible refine Sub.trans ?_ hW); exact rfl)
    | ((with_reducible refine EffL.mk ?_); constructor <;> first | (intro _; with_reducible rfl) | exact fun e => hW.no rfl e)
    | (extract_lets +onlyGivenNames v; refine (fun (hv : Eff W s₀ v) => ?_) ?_; clear_value v; rotate_left; subst v)
    | (extract_lets +onlyGivenNames v; clear_value v)
    | with_reducible apply Eff.ite
    | with_reducible apply State.choose_eff
    | with_reducible apply State.peerMsg_eff
    | split
    | (refine Eff.lit ?_ rfl ?_; with_reducible refine Eff.snd (by with_reducible assumption) ?_)

theorem State.pullHome_eff {s : State}
    (hW : Sub 0x1000A20000000000000A W) (h : Eff W s₀ s)  : Eff W s₀ (State.pullHome s) := by
  unfold State.pullHome
  repeat' first
    | with_reducible assumption
    | with_reducible apply Eff.ite
    | with_reducible refine Eff.foldl _ (fun _ _ _ => ?_) ?_
    | with_reducible apply State.pullDatum_eff

theorem State.servePulls_eff {s : State}
    (hW : Sub 0x100143F0000467000008 W) (h : Eff W s₀ s)  : Eff W s₀ (State.servePulls s) := by
  unfold State.servePulls
  repeat' first
    | with_reducible assumption
    | ((with_reducible refine Sub.trans ?_ hW); exact rfl)
    | ((with_reducible refine EffL.mk ?_); constructor <;> first | (intro _; with_reducible rfl) | exact fun e => hW.no rfl e)
    | (extract_lets +onlyGivenNames v; refine (fun (hv : Eff W s₀ v) => ?_) ?_; clear_value v; rotate_left; subst v)
    | with_reducible apply Eff.ite
    | with_reducible refine Eff.foldl _ (fun _ _ _ => ?_) ?_
    | with_reducible apply State.sendWrites_eff
    | with_reducible apply State.cartError_eff
    | with_reducible apply State.peerMsg_eff
    | with_reducible apply State.senseRange_eff
    | with_reducible apply State.logError_eff
    | with_reducible refine Eff.snd (by with_reducible assumption) ?_
    | split
    | (refine Eff.lit ?_ rfl ?_; with_reducible assumption)
    | (refine Eff.lit ?_ rfl ?_; with_reducible refine Eff.snd (by with_reducible assumption) ?_)

theorem State.placeGrant_eff {s : State} {g : Grant}
    (hW : Sub 0x100213F0110000000008 W) (h : Eff W s₀ s)  : EffON W s₀ (State.placeGrant s g) := by
  unfold State.placeGrant
  repeat' first
    | with_reducible assumption
    | ((with_reducible refine Sub.trans ?_ hW); exact rfl)
    | ((with_reducible refine EffL.mk ?_); constructor <;> first | (intro _; with_reducible rfl) | exact fun e => hW.no rfl e)
    | (extract_lets +onlyGivenNames v; refine (fun (hv : Eff W s₀ v) => ?_) ?_; clear_value v; rotate_left; subst v)
    | (extract_lets +onlyGivenNames v; clear_value v)
    | with_reducible apply EffON.of_some
    | with_reducible apply EffON.of_none
    | with_reducible apply EffON.ite
    | with_reducible apply State.settle_eff
    | with_reducible apply State.peerMsg_eff
    | with_reducible apply State.endStream_eff
    | with_reducible apply State.setStream_eff
    | with_reducible apply State.logError_eff
    | split
    | (refine Eff.lit ?_ rfl ?_; with_reducible assumption)

theorem State.placeLate_eff {s : State}
    (hW : Sub 0x100213F0110000000008 W) (h : Eff W s₀ s)  : Eff W s₀ (State.placeLate s) := by
  unfold State.placeLate
  repeat' first
    | with_reducible assumption
    | ((with_reducible refine Sub.trans ?_ hW); exact rfl)
    | with_reducible refine Eff.foldl _ (fun _ _ _ => ?_) ?_
    | with_reducible apply State.placeGrant_eff
    | with_reducible apply State.openHole_eff
    | with_reducible apply State.updStream_eff
    | with_reducible refine Eff.ofSomeSnd (by with_reducible assumption) ?_
    | split

theorem State.declareLost_eff {s : State} {c : Nat}
    (hW : Sub 0x10000DF0000000000088 W) (h : Eff W s₀ s)  : Eff W s₀ (State.declareLost s c) := by
  unfold State.declareLost
  repeat' first
    | with_reducible assumption
    | ((with_reducible refine Sub.trans ?_ hW); exact rfl)
    | ((with_reducible refine EffL.mk ?_); constructor <;> first | (intro _; with_reducible rfl) | exact fun e => hW.no rfl e)
    | (extract_lets +onlyGivenNames v; refine (fun (hv : Eff W s₀ v) => ?_) ?_; clear_value v; rotate_left; subst v)
    | (extract_lets +onlyGivenNames v; clear_value v)
    | with_reducible apply Eff.ite
    | with_reducible apply State.logError_eff
    | with_reducible apply State.raise_eff
    | with_reducible apply State.setBit_eff
    | (refine Eff.lit ?_ rfl ?_; with_reducible assumption)

theorem State.settleLoss_eff {s : State} {c : Nat}
    (hW : Sub 0x100B7200370A83830008 W) (h : Eff W s₀ s)  : Eff W s₀ (State.settleLoss s c) := by
  unfold State.settleLoss
  repeat' first
    | with_reducible assumption
    | ((with_reducible refine Sub.trans ?_ hW); exact rfl)
    | ((with_reducible refine EffL.mk ?_); constructor <;> first | (intro _; with_reducible rfl) | exact fun e => hW.no rfl e)
    | (extract_lets +onlyGivenNames v; refine (fun (hv : Eff W s₀ v) => ?_) ?_; clear_value v; rotate_left; subst v)
    | (extract_lets +onlyGivenNames v; clear_value v)
    | with_reducible apply Eff.ite
    | with_reducible refine Eff.foldl _ (fun _ _ _ => ?_) ?_
    | with_reducible apply State.dropMigration_eff
    | with_reducible apply State.finishStream_eff
    | with_reducible apply State.settle_eff
    | (refine Eff.lit ?_ rfl ?_; with_reducible assumption)

theorem State.settleLosses_eff {s : State}
    (hW : Sub 0x100B7A00370A83830008 W) (h : Eff W s₀ s)  : Eff W s₀ (State.settleLosses s) := by
  unfold State.settleLosses
  repeat' first
    | with_reducible assumption
    | ((with_reducible refine Sub.trans ?_ hW); exact rfl)
    | ((with_reducible refine EffL.mk ?_); constructor <;> first | (intro _; with_reducible rfl) | exact fun e => hW.no rfl e)
    | with_reducible refine Eff.foldl _ (fun _ _ _ => ?_) ?_
    | with_reducible apply State.settleLoss_eff
    | (refine Eff.lit ?_ rfl ?_; with_reducible assumption)

theorem State.forwardReq_eff {s : State} {q : Nat} {r : Req} {chip : Nat}
    (hW : Sub 0x10000200100000000008 W) (h : Eff W s₀ s)  : Eff W s₀ (State.forwardReq s q r chip) := by
  unfold State.forwardReq
  repeat' first
    | with_reducible assumption
    | ((with_reducible refine Sub.trans ?_ hW); exact rfl)
    | with_reducible apply State.actReq_eff
    | with_reducible apply State.peerMsg_eff

theorem State.answerForwarded_eff {s : State}
    (hW : Sub 0x10000200100000000008 W) (h : Eff W s₀ s)  : Eff W s₀ (State.answerForwarded s) := by
  unfold State.answerForwarded
  repeat' first
    | with_reducible assumption
    | ((with_reducible refine Sub.trans ?_ hW); exact rfl)
    | (extract_lets +onlyGivenNames v; clear_value v)
    | with_reducible refine Eff.foldl _ (fun _ _ _ => ?_) ?_
    | with_reducible apply State.peerMsg_eff
    | with_reducible apply State.updQueue_eff
    | split

end Sys2Proof.Machine
end

