-- ==== Sys2Proof/Laws/EffWinnow.lean ====
section
/-!
SUPPORT. Laws/EffWinnow.lean: which fields of the state every operation of Machine/Winnow.lean may change.
-/
namespace Sys2Proof.Machine

variable {W : Nat} {s₀ : State}

theorem State.hrot_eff {s : State} {e : Nat} {f : TFields}
    (hW : Sub 0x100001F0010067B03008 W) (h : Eff W s₀ s)  : Eff W s₀ (State.hrot s e f) := by
  unfold State.hrot
  repeat' first
    | with_reducible assumption
    | ((with_reducible refine Sub.trans ?_ hW); exact rfl)
    | (extract_lets +onlyGivenNames v; clear_value v)
    | with_reducible apply State.count_eff
    | with_reducible apply State.readOp_eff
    | with_reducible apply State.writeRows_eff

theorem execHrot_eff {n : Fin 2} {f : TFields} {s : State}
    (hW : Sub 0x100001F0010267B07088 W) (h : Eff W s₀ s)  : EffX W s₀ (execHrot n f s) := by
  unfold execHrot
  repeat' first
    | with_reducible assumption
    | ((with_reducible refine Sub.trans ?_ hW); exact rfl)
    | (extract_lets +onlyGivenNames v; clear_value v)
    | with_reducible apply EffX.of_next
    | with_reducible apply State.hrot_eff
    | with_reducible refine State.runWord_eff ?_ ?_ (fun _ _ => ?_)

theorem State.req_eff {s : State} {e : Nat} {f : TFields}
    (hW : Sub 0x100001F0010067B03008 W) (h : Eff W s₀ s)  : Eff W s₀ (State.req s e f) := by
  unfold State.req
  repeat' first
    | with_reducible assumption
    | ((with_reducible refine Sub.trans ?_ hW); exact rfl)
    | (extract_lets +onlyGivenNames v; clear_value v)
    | with_reducible apply Eff.ite
    | with_reducible apply State.count_eff
    | with_reducible apply State.writeShifts_eff
    | with_reducible apply State.senseTrailer_eff
    | with_reducible apply State.readOp_eff
    | with_reducible apply State.writeRows_eff

theorem execReq_eff {n : Fin 2} {f : TFields} {s : State}
    (hW : Sub 0x100001F0010267B07088 W) (h : Eff W s₀ s)  : EffX W s₀ (execReq n f s) := by
  unfold execReq
  repeat' first
    | with_reducible assumption
    | ((with_reducible refine Sub.trans ?_ hW); exact rfl)
    | (extract_lets +onlyGivenNames v; clear_value v)
    | with_reducible apply EffX.of_next
    | with_reducible apply State.req_eff
    | with_reducible refine State.runWord_eff ?_ ?_ (fun _ _ => ?_)

theorem State.writeMeta_eff {s : State} {g : Geom} {ps : Nat} {p : Page} {t : Nat} {tok : NewToken}
    (hW : Sub 0x3800000 W) (h : Eff W s₀ s)  : Eff W s₀ (State.writeMeta s g ps p t tok) := by
  unfold State.writeMeta
  repeat' first
    | with_reducible assumption
    | with_reducible apply State.t0Store_eff

theorem State.writeGroup_eff {s : State} {e : Nat} {batch : Nat} {g : Geom} {ps : Nat} {r : PagedRegion} {expIn : Int} {g0 : Nat} {last : Nat}
    (hW : Sub 0x100001F0010003902008 W) (h : Eff W s₀ s)  : Eff W s₀ (State.writeGroup s e batch g ps r expIn g0 last) := by
  unfold State.writeGroup
  repeat' first
    | with_reducible assumption
    | ((with_reducible refine Sub.trans ?_ hW); exact rfl)
    | (extract_lets +onlyGivenNames v; refine (fun (hv : Eff W s₀ v) => ?_) ?_; clear_value v; rotate_left; subst v)
    | (extract_lets +onlyGivenNames v; clear_value v)
    | with_reducible apply Eff.ite
    | with_reducible refine Eff.foldl _ (fun _ _ _ => ?_) ?_
    | with_reducible apply State.count_eff
    | with_reducible apply State.reportAway_eff
    | with_reducible apply State.t0Store_eff
    | split

theorem State.setPaged_eff {s : State} {sc : Nat} {region : Nat} {r : PagedRegion}
    (hW : Sub 0x10000000000 W) (h : Eff W s₀ s)  : Eff W s₀ (State.setPaged s sc region r) := by
  unfold State.setPaged
  repeat' first
    | with_reducible assumption
    | with_reducible apply State.updStream_eff

theorem State.appendValues_eff {s : State} {e : Nat} {batch : Nat} {sc : Nat} {region : Nat} {g : Geom} {ps : Nat} {expIn : Int} {x8 : Nat} {x9 : Nat} {x10 : List NewToken}
    (hW : Sub 0x100001F0010003902008 W) (h : Eff W s₀ s)  : Eff W s₀ (State.appendValues s e batch sc region g ps expIn x8 x9 x10) := by
  induction x8 generalizing s e batch sc region g ps expIn x9 x10 with
  | zero =>
    unfold State.appendValues
    repeat' with_reducible assumption
  | succ n ih =>
    unfold State.appendValues
    repeat' first
      | with_reducible assumption
      | ((with_reducible refine Sub.trans ?_ hW); exact rfl)
      | (extract_lets +onlyGivenNames v; refine (fun (hv : Eff W s₀ v) => ?_) ?_; clear_value v; rotate_left; subst v)
      | (extract_lets +onlyGivenNames v; clear_value v)
      | with_reducible apply Eff.ite
      | with_reducible refine Eff.foldl _ (fun _ _ _ => ?_) ?_
      | with_reducible apply State.setPaged_eff
      | with_reducible apply State.writeGroup_eff
      | with_reducible apply State.writeMeta_eff
      | with_reducible apply ih
      | split

theorem State.appendKeys_eff {s : State} {e : Nat} {batch : Nat} {g : Geom} {ps : Nat} {r : PagedRegion} {expIn : Int} {shifts : List Int} {t0 : Nat} {toks : List NewToken}
    (hW : Sub 0x100001F0010003902008 W) (h : Eff W s₀ s)  : Eff W s₀ (State.appendKeys s e batch g ps r expIn shifts t0 toks) := by
  unfold State.appendKeys
  repeat' first
    | with_reducible assumption
    | ((with_reducible refine Sub.trans ?_ hW); exact rfl)
    | (extract_lets +onlyGivenNames v; refine (fun (hv : Eff W s₀ v) => ?_) ?_; clear_value v; rotate_left; subst v)
    | (extract_lets +onlyGivenNames v; clear_value v)
    | with_reducible refine Eff.foldl _ (fun _ _ _ => ?_) ?_
    | with_reducible apply State.writeMeta_eff
    | with_reducible apply State.count_eff
    | with_reducible apply State.reportAway_eff
    | with_reducible apply State.t0Store_eff
    | split

theorem State.appendRow_eff {s : State} {e : Nat} {batch : Nat} {f : TFields} {expIn : Int} {shifts : List Int} {toks : List NewToken}
    (hW : Sub 0x100001F0010003902008 W) (h : Eff W s₀ s)  : Eff W s₀ (State.appendRow s e batch f expIn shifts toks) := by
  unfold State.appendRow
  repeat' first
    | with_reducible assumption
    | ((with_reducible refine Sub.trans ?_ hW); exact rfl)
    | (extract_lets +onlyGivenNames v; refine (fun (hv : Eff W s₀ v) => ?_) ?_; clear_value v; rotate_left; subst v)
    | (extract_lets +onlyGivenNames v; clear_value v)
    | with_reducible apply Eff.ite
    | with_reducible apply State.appendKeys_eff
    | with_reducible apply State.appendValues_eff
    | with_reducible apply State.setPaged_eff
    | with_reducible apply State.count_eff
    | with_reducible apply State.reportAway_eff
    | with_reducible apply State.updStream_eff
    | split

theorem State.kvapp_eff {s : State} {e : Nat} {f : TFields}
    (hW : Sub 0x100001F0010067B03008 W) (h : Eff W s₀ s)  : Eff W s₀ (State.kvapp s e f) := by
  unfold State.kvapp
  repeat' first
    | with_reducible assumption
    | ((with_reducible refine Sub.trans ?_ hW); exact rfl)
    | (extract_lets +onlyGivenNames v; clear_value v)
    | with_reducible apply Eff.ite
    | with_reducible apply Eff.iteSnd
    | with_reducible refine Eff.foldl _ (fun _ _ _ => ?_) ?_
    | with_reducible apply State.appendRow_eff
    | with_reducible apply State.count_eff
    | with_reducible apply State.readOp_eff

theorem execKvapp_eff {n : Fin 2} {f : TFields} {s : State}
    (hW : Sub 0x100001F0010267B07088 W) (h : Eff W s₀ s)  : EffX W s₀ (execKvapp n f s) := by
  unfold execKvapp
  repeat' first
    | with_reducible assumption
    | ((with_reducible refine Sub.trans ?_ hW); exact rfl)
    | (extract_lets +onlyGivenNames v; clear_value v)
    | with_reducible apply EffX.of_next
    | with_reducible apply State.kvapp_eff
    | with_reducible refine State.runWord_eff ?_ ?_ (fun _ _ => ?_)

end Sys2Proof.Machine
end

