-- ==== Sys2Proof/Laws/EffPager.lean ====
section
/-!
SUPPORT. Laws/EffPager.lean: which fields of the state every operation of Machine/Pager.lean may change.
-/
namespace Sys2Proof.Machine

variable {W : Nat} {s₀ : State}

theorem State.moveSummaries_eff {s : State} {sc : Nat} {region : Nat} {g : Geom} {x4 : Nat}
    (hW : Sub 0x10493800000 W) (h : Eff W s₀ s)  : Eff W s₀ (State.moveSummaries s sc region g x4) := by
  induction x4 generalizing s sc region g with
  | zero =>
    unfold State.moveSummaries
    repeat' with_reducible assumption
  | succ n ih =>
    unfold State.moveSummaries
    repeat' first
      | with_reducible assumption
      | ((with_reducible refine Sub.trans ?_ hW); exact rfl)
      | ((with_reducible refine EffL.mk ?_); constructor <;> first | (intro _; with_reducible rfl) | exact fun e => hW.no rfl e)
      | (extract_lets +onlyGivenNames v; refine (fun (hv : Eff W s₀ v) => ?_) ?_; clear_value v; rotate_left; subst v)
      | (extract_lets +onlyGivenNames v; clear_value v)
      | with_reducible apply Eff.ite
      | with_reducible apply State.setPaged_eff
      | with_reducible apply State.storeBytes_eff
      | with_reducible apply ih
      | split
      | (refine Eff.lit ?_ rfl ?_; with_reducible assumption)

theorem State.allSummaries_eff {s : State}
    (hW : Sub 0x10493800000 W) (h : Eff W s₀ s)  : Eff W s₀ (State.allSummaries s) := by
  unfold State.allSummaries
  repeat' first
    | with_reducible assumption
    | with_reducible apply Eff.ite
    | with_reducible refine Eff.foldl _ (fun _ _ _ => ?_) ?_
    | with_reducible apply State.moveSummaries_eff

theorem State.takeExport_eff {s : State} {q : Nat} {r : Req} {t : Stream}
    (hW : Sub 0x300000000000 W) (h : Eff W s₀ s)  : Eff W s₀ (State.takeExport s q r t) := by
  unfold State.takeExport
  repeat' first
    | with_reducible assumption
    | ((with_reducible refine Sub.trans ?_ hW); exact rfl)
    | ((with_reducible refine EffL.mk ?_); constructor <;> first | (intro _; with_reducible rfl) | exact fun e => hW.no rfl e)
    | (extract_lets +onlyGivenNames v; clear_value v)
    | with_reducible apply Eff.ite
    | with_reducible apply State.actReq_eff
    | with_reducible apply State.settle_eff
    | (refine Eff.lit ?_ rfl ?_; with_reducible assumption)

theorem State.takeStreamReq_eff {s : State} {complete : Bool} {q : Nat} {r : Req}
    (hW : Sub 0x100203F07104F780000A W) (h : Eff W s₀ s)  : Eff W s₀ (State.takeStreamReq s complete q r) := by
  unfold State.takeStreamReq
  repeat' first
    | with_reducible assumption
    | ((with_reducible refine Sub.trans ?_ hW); exact rfl)
    | with_reducible apply Eff.ite
    | with_reducible apply State.takeExport_eff
    | with_reducible apply State.forwardReq_eff
    | with_reducible apply State.takeMigrate_eff
    | with_reducible apply State.openStream_eff
    | with_reducible apply State.actReq_eff
    | with_reducible apply State.settle_eff
    | with_reducible apply State.endStream_eff
    | with_reducible apply State.updStream_eff
    | split

theorem State.takeStreamReqs_eff {s : State} {complete : Bool}
    (hW : Sub 0x100203F07104F780000A W) (h : Eff W s₀ s)  : Eff W s₀ (State.takeStreamReqs s complete) := by
  unfold State.takeStreamReqs
  repeat' first
    | with_reducible assumption
    | ((with_reducible refine EffL.mk ?_); constructor <;> first | (intro _; with_reducible rfl) | exact fun e => hW.no rfl e)
    | (extract_lets +onlyGivenNames v; clear_value v)
    | with_reducible refine Eff.foldl _ (fun _ _ _ => ?_) ?_
    | with_reducible apply State.takeStreamReq_eff
    | (refine Eff.lit ?_ rfl ?_; with_reducible assumption)

theorem State.settlePauses_eff {s : State} {sc : Nat}
    (hW : Sub 0x100000000000 W) (h : Eff W s₀ s)  : Eff W s₀ (State.settlePauses s sc) := by
  unfold State.settlePauses
  repeat' first
    | with_reducible assumption
    | with_reducible apply Eff.ite
    | with_reducible refine Eff.foldl _ (fun _ _ _ => ?_) ?_
    | with_reducible apply State.settle_eff

theorem State.pauseResting_eff {s : State}
    (hW : Sub 0x110093830002 W) (h : Eff W s₀ s)  : Eff W s₀ (State.pauseResting s) := by
  unfold State.pauseResting
  repeat' first
    | with_reducible assumption
    | ((with_reducible refine Sub.trans ?_ hW); exact rfl)
    | with_reducible apply Eff.ite
    | with_reducible refine Eff.foldl _ (fun _ _ _ => ?_) ?_
    | with_reducible apply State.settlePauses_eff
    | with_reducible apply State.exportRow_eff
    | with_reducible apply State.updStream_eff

theorem State.takeVictim_eff {s : State} {sc : Nat} {t : Stream}
    (hW : Sub 0x10000000008 W) (h : Eff W s₀ s)  : Eff W s₀ (State.takeVictim s sc t) := by
  unfold State.takeVictim
  repeat' first
    | with_reducible assumption
    | ((with_reducible refine Sub.trans ?_ hW); exact rfl)
    | with_reducible apply State.setStream_eff
    | with_reducible apply State.addSat_eff

theorem State.preempt_eff {s : State} {key : Nat} {short : Nat}
    (hW : Sub 0x10000000008 W) (h : Eff W s₀ s)  : Eff W s₀ (State.preempt s key short) := by
  unfold State.preempt
  repeat' first
    | with_reducible assumption
    | (extract_lets +onlyGivenNames v; clear_value v)
    | with_reducible apply Eff.iteSnd
    | with_reducible refine Eff.foldlSnd _ (fun _ _ _ => ?_) ?_
    | with_reducible apply State.takeVictim_eff

theorem State.reserve_eff {s : State} {sc : Nat}
    (hW : Sub 0x10000000008 W) (h : Eff W s₀ s)  : Eff W s₀ (State.reserve s sc) := by
  unfold State.reserve
  repeat' first
    | with_reducible assumption
    | ((with_reducible refine Sub.trans ?_ hW); exact rfl)
    | (extract_lets +onlyGivenNames v; refine (fun (hv : Eff W s₀ v) => ?_) ?_; clear_value v; rotate_left; subst v)
    | (extract_lets +onlyGivenNames v; clear_value v)
    | with_reducible apply Eff.ite
    | with_reducible apply State.preempt_eff
    | with_reducible apply State.setStream_eff
    | split

theorem State.allocPage_eff {s : State} {sc : Nat} {region : Nat} {g : Geom} {t : Stream} {r : PagedRegion}
    (hW : Sub 0x100001F00104F780000A W) (h : Eff W s₀ s)  : EffO W s₀ (State.allocPage s sc region g t r) := by
  unfold State.allocPage
  repeat' first
    | with_reducible assumption
    | ((with_reducible refine Sub.trans ?_ hW); exact rfl)
    | (extract_lets +onlyGivenNames v; refine (fun (hv : Eff W s₀ v) => ?_) ?_; clear_value v; rotate_left; subst v)
    | (extract_lets +onlyGivenNames v; clear_value v)
    | with_reducible apply EffO.of_some
    | with_reducible apply EffO.of_none
    | with_reducible apply State.setPaged_eff
    | with_reducible apply State.makeRoom_eff
    | with_reducible apply State.zeroNew_eff
    | with_reducible refine Eff.snd (by with_reducible assumption) ?_
    | split

theorem State.allocPages_eff {s : State} {sc : Nat} {region : Nat} {g : Geom} {x4 : Nat}
    (hW : Sub 0x100001F00104F780000A W) (h : Eff W s₀ s)  : Eff W s₀ (State.allocPages s sc region g x4) := by
  induction x4 generalizing s sc region g with
  | zero =>
    unfold State.allocPages
    repeat' with_reducible assumption
  | succ n ih =>
    unfold State.allocPages
    repeat' first
      | with_reducible assumption
      | with_reducible apply Eff.ite
      | with_reducible apply State.allocPage_eff
      | with_reducible apply ih
      | with_reducible refine Eff.ofSome (by with_reducible assumption) ?_
      | split

theorem State.allocSummary_eff {s : State} {sc : Nat} {region : Nat} {g : Geom}
    (hW : Sub 0x100001F00104F780000A W) (h : Eff W s₀ s)  : Eff W s₀ (State.allocSummary s sc region g) := by
  unfold State.allocSummary
  repeat' first
    | with_reducible assumption
    | ((with_reducible refine Sub.trans ?_ hW); exact rfl)
    | with_reducible apply Eff.ite
    | with_reducible apply State.setPaged_eff
    | with_reducible apply State.zeroNew_eff
    | with_reducible refine Eff.snd (by with_reducible assumption) ?_
    | split

theorem State.allocStream_eff {s : State} {sc : Nat}
    (hW : Sub 0x100001F00104F780000A W) (h : Eff W s₀ s)  : Eff W s₀ (State.allocStream s sc) := by
  unfold State.allocStream
  repeat' first
    | with_reducible assumption
    | with_reducible refine Eff.foldl _ (fun _ _ _ => ?_) ?_
    | with_reducible apply State.allocSummary_eff
    | with_reducible apply State.allocPages_eff

theorem State.demoteStream_eff {s : State} {sc : Nat}
    (hW : Sub 0x100001F00106F780000A W) (h : Eff W s₀ s)  : Eff W s₀ (State.demoteStream s sc) := by
  unfold State.demoteStream
  repeat' first
    | with_reducible assumption
    | with_reducible apply Eff.ite
    | with_reducible refine Eff.foldl _ (fun _ _ _ => ?_) ?_
    | with_reducible apply State.moveTo_eff
    | split

theorem State.promoteStream_eff {s : State} {sc : Nat}
    (hW : Sub 0x100001F00106F780000A W) (h : Eff W s₀ s)  : Eff W s₀ (State.promoteStream s sc) := by
  unfold State.promoteStream
  repeat' first
    | with_reducible assumption
    | ((with_reducible refine Sub.trans ?_ hW); exact rfl)
    | with_reducible apply Eff.ite
    | with_reducible refine Eff.foldl _ (fun _ _ _ => ?_) ?_
    | with_reducible apply State.makeRoom_eff
    | with_reducible apply State.moveTo_eff
    | split

theorem State.provide_eff {s : State} {complete : Bool}
    (hW : Sub 0x100001F00106F780000A W) (h : Eff W s₀ s)  : Eff W s₀ (State.provide s complete) := by
  unfold State.provide
  repeat' first
    | with_reducible assumption
    | ((with_reducible refine Sub.trans ?_ hW); exact rfl)
    | (extract_lets +onlyGivenNames v; refine (fun (hv : Eff W s₀ v) => ?_) ?_; clear_value v; rotate_left; subst v)
    | (extract_lets +onlyGivenNames v; clear_value v)
    | with_reducible apply Eff.ite
    | with_reducible refine Eff.foldl _ (fun _ _ _ => ?_) ?_
    | with_reducible apply State.promoteStream_eff
    | with_reducible apply State.demoteStream_eff
    | with_reducible apply State.allocStream_eff
    | with_reducible apply State.reserve_eff
    | split

theorem State.swapStream_eff {s : State} {sc : Nat}
    (hW : Sub 0x100001F00106F780000A W) (h : Eff W s₀ s)  : Eff W s₀ (State.swapStream s sc) := by
  unfold State.swapStream
  repeat' first
    | with_reducible assumption
    | ((with_reducible refine Sub.trans ?_ hW); exact rfl)
    | (extract_lets +onlyGivenNames v; clear_value v)
    | with_reducible apply Eff.ite
    | with_reducible refine Eff.foldl _ (fun _ _ _ => ?_) ?_
    | with_reducible apply State.moveTo_eff
    | with_reducible apply State.setStream_eff
    | split

theorem State.swapOut_eff {s : State}
    (hW : Sub 0x100001F00106F780000A W) (h : Eff W s₀ s)  : Eff W s₀ (State.swapOut s) := by
  unfold State.swapOut
  repeat' first
    | with_reducible assumption
    | with_reducible refine Eff.foldl _ (fun _ _ _ => ?_) ?_
    | with_reducible apply State.swapStream_eff

theorem State.endEvac_eff {s : State} {b : Nat}
    (hW : Sub 0x8 W) (h : Eff W s₀ s)  : Eff W s₀ (State.endEvac s b) := by
  unfold State.endEvac
  repeat' first
    | with_reducible assumption
    | with_reducible apply State.setBit_eff

theorem State.evacDatum_eff {s : State} {x1 : Homed}
    (hW : Sub 0x100001F00106F780000A W) (h : Eff W s₀ s)  : Eff W s₀ (State.evacDatum s x1) := by
  unfold State.evacDatum
  repeat' first
    | with_reducible assumption
    | ((with_reducible refine Sub.trans ?_ hW); exact rfl)
    | (extract_lets +onlyGivenNames v; refine (fun (hv : Eff W s₀ v) => ?_) ?_; clear_value v; rotate_left; subst v)
    | (extract_lets +onlyGivenNames v; clear_value v)
    | with_reducible apply Eff.ite
    | with_reducible apply State.endEvac_eff
    | with_reducible apply State.moveTo_eff
    | with_reducible apply State.updStream_eff
    | split

theorem State.evacuate_eff {s : State}
    (hW : Sub 0x100001F00106F780000A W) (h : Eff W s₀ s)  : Eff W s₀ (State.evacuate s) := by
  unfold State.evacuate
  repeat' first
    | with_reducible assumption
    | ((with_reducible refine Sub.trans ?_ hW); exact rfl)
    | (extract_lets +onlyGivenNames v; clear_value v)
    | with_reducible apply Eff.ite
    | with_reducible refine Eff.foldl _ (fun _ _ _ => ?_) ?_
    | with_reducible apply State.evacDatum_eff
    | with_reducible apply State.endEvac_eff

theorem State.clearRanges_eff {s : State}
    (hW : Sub 0x100001F00186F780000A W) (h : Eff W s₀ s)  : Eff W s₀ (State.clearRanges s) := by
  unfold State.clearRanges
  repeat' first
    | with_reducible assumption
    | ((with_reducible refine Sub.trans ?_ hW); exact rfl)
    | ((with_reducible refine EffL.mk ?_); constructor <;> first | (intro _; with_reducible rfl) | exact fun e => hW.no rfl e)
    | (extract_lets +onlyGivenNames v; refine (fun (hv : Eff W s₀ v) => ?_) ?_; clear_value v; rotate_left; subst v)
    | (extract_lets +onlyGivenNames v; refine (fun (hv : Eff W s₀ v.2) => ?_) ?_; clear_value v; rotate_left; subst v)
    | with_reducible apply Eff.ite
    | with_reducible refine Eff.foldl _ (fun _ _ _ => ?_) ?_
    | with_reducible apply State.moveTo_eff
    | with_reducible apply State.choose_eff
    | split
    | (refine Eff.lit ?_ rfl ?_; with_reducible assumption)

theorem State.startEvac_eff {s : State} {v : Word}
    (hW : Sub 0x8 W) (h : Eff W s₀ s)  : Eff W s₀ (State.startEvac s v) := by
  unfold State.startEvac
  repeat' first
    | with_reducible assumption
    | (extract_lets +onlyGivenNames v; refine (fun (hv : Eff W s₀ v) => ?_) ?_; clear_value v; rotate_left; subst v)
    | (extract_lets +onlyGivenNames v; have hp := fun a b => Eff W s₀ (v a b); clear hp; subst v)
    | (extract_lets +onlyGivenNames v; clear_value v)
    | with_reducible apply Eff.ite
    | with_reducible apply State.setBit_eff
    | with_reducible apply State.setFld_eff

theorem execGlnEvacGo_eff {i : Iface} {v : Word} {s : State}
    (hW : Sub 0x8 W) (h : Eff W s₀ s)  : EffX W s₀ (execGlnEvacGo i v s) := by
  unfold execGlnEvacGo
  repeat' first
    | with_reducible assumption
    | with_reducible apply EffX.of_next
    | with_reducible apply Eff.ite
    | with_reducible apply State.startEvac_eff

theorem State.endExport_eff {s : State} {x : ExportJob}
    (hW : Sub 0x100A4200370A83830008 W) (h : Eff W s₀ s)  : Eff W s₀ (State.endExport s x) := by
  unfold State.endExport
  repeat' first
    | with_reducible assumption
    | ((with_reducible refine Sub.trans ?_ hW); exact rfl)
    | ((with_reducible refine EffL.mk ?_); constructor <;> first | (intro _; with_reducible rfl) | exact fun e => hW.no rfl e)
    | with_reducible apply State.finishStream_eff
    | with_reducible apply State.settle_eff
    | (refine Eff.lit ?_ rfl ?_; with_reducible assumption)

theorem State.failExport_eff {s : State} {x : ExportJob}
    (hW : Sub 0x300000000000 W) (h : Eff W s₀ s)  : Eff W s₀ (State.failExport s x) := by
  unfold State.failExport
  repeat' first
    | ((with_reducible refine Sub.trans ?_ hW); exact rfl)
    | ((with_reducible refine EffL.mk ?_); constructor <;> first | (intro _; with_reducible rfl) | exact fun e => hW.no rfl e)
    | with_reducible apply State.settle_eff
    | (refine Eff.lit ?_ rfl ?_; with_reducible assumption)

theorem State.runExports_eff {s : State}
    (hW : Sub 0x100A43F0370EF783000A W) (h : Eff W s₀ s)  : Eff W s₀ (State.runExports s) := by
  unfold State.runExports
  repeat' first
    | with_reducible assumption
    | ((with_reducible refine Sub.trans ?_ hW); exact rfl)
    | ((with_reducible refine EffL.mk ?_); constructor <;> first | (intro _; with_reducible rfl) | exact fun e => hW.no rfl e)
    | (extract_lets +onlyGivenNames v; clear_value v)
    | with_reducible apply Eff.ite
    | with_reducible refine Eff.foldl _ (fun _ _ _ => ?_) ?_
    | with_reducible apply Eff.getD
    | with_reducible apply State.failExport_eff
    | with_reducible apply State.endExport_eff
    | with_reducible apply State.moveTo_eff
    | with_reducible apply State.issueFar_eff
    | with_reducible apply State.moveNow_eff
    | with_reducible refine Eff.ofSome (by with_reducible assumption) ?_
    | split
    | (refine Eff.lit ?_ rfl ?_; with_reducible refine Eff.ofSome (by with_reducible assumption) ?_)

theorem State.checkRecord_eff {s : State} {sc : Nat} {t : Stream}
    (hW : Sub 0x100001F0010067000008 W) (h : Eff W s₀ s)  : Eff W s₀ (State.checkRecord s sc t).2 := by
  unfold State.checkRecord
  repeat' first
    | with_reducible assumption
    | ((with_reducible refine Sub.trans ?_ hW); exact rfl)
    | with_reducible apply Eff.iteSnd
    | with_reducible apply State.lostDatum_eff
    | with_reducible apply State.endStream_eff
    | with_reducible apply State.senseRange_eff
    | with_reducible apply State.logError_eff
    | dsimp -zeta only
    | with_reducible refine Eff.snd (by with_reducible assumption) ?_
    | split

theorem State.takeRow_eff {s : State} {sc : Nat} {t : Stream} {r : Nat} {n : Nat}
    (hW : Sub 0x10000000000 W) (h : Eff W s₀ s)  : Eff W s₀ (State.takeRow s sc t r n) := by
  unfold State.takeRow
  repeat' first
    | with_reducible assumption
    | (extract_lets +onlyGivenNames v; clear_value v)
    | with_reducible apply Eff.ite
    | with_reducible apply State.updStream_eff

theorem State.miss_eff {s : State} {sc : Nat}
    (hW : Sub 0x100001F0000000000008 W) (h : Eff W s₀ s)  : Eff W s₀ (State.miss s sc) := by
  unfold State.miss
  repeat' first
    | with_reducible assumption
    | ((with_reducible refine Sub.trans ?_ hW); exact rfl)
    | with_reducible apply State.logError_eff
    | with_reducible apply State.addSat_eff

theorem State.admitAll_eff {x0 : State} {x1 : List (Nat × Nat)} {x2 : List (Nat × Stream)}
    (hW : Sub 0x100001F0010067000008 W) (h : Eff W s₀ x0)  : Eff W s₀ (State.admitAll x0 x1 x2).1 := by
  induction x2 generalizing x0 x1 with
  | nil =>
    unfold State.admitAll
    repeat' with_reducible assumption
  | cons x l ih =>
    unfold State.admitAll
    repeat' first
      | with_reducible assumption
      | ((with_reducible refine Sub.trans ?_ hW); exact rfl)
      | with_reducible apply Eff.iteSnd
      | with_reducible apply State.miss_eff
      | with_reducible apply State.checkRecord_eff
      | with_reducible apply ih
      | dsimp -zeta only
      | split

theorem State.admission_eff {s : State}
    (hW : Sub 0x101001F00100F78B000A W) (h : Eff W s₀ s)  : Eff W s₀ (State.admission s) := by
  unfold State.admission
  repeat' first
    | with_reducible assumption
    | ((with_reducible refine Sub.trans ?_ hW); exact rfl)
    | ((with_reducible refine EffL.mk ?_); constructor <;> first | (intro _; with_reducible rfl) | exact fun e => hW.no rfl e)
    | (extract_lets +onlyGivenNames v; refine (fun (hv : Eff W s₀ v) => ?_) ?_; clear_value v; rotate_left; subst v)
    | (extract_lets +onlyGivenNames v; clear_value v)
    | with_reducible refine Eff.foldl _ (fun _ _ _ => ?_) ?_
    | with_reducible apply State.admitAll_eff
    | with_reducible apply State.exportRow_eff
    | with_reducible apply State.updateZones_eff
    | dsimp -zeta only
    | (refine Eff.lit ?_ rfl ?_; with_reducible assumption)

theorem State.endFallow_eff {s : State} {cart : Nat} {mv : Move} {st : MoveState}
    (hW : Sub 0x200000008 W) (h : Eff W s₀ s)  : Eff W s₀ (State.endFallow s cart mv st) := by
  unfold State.endFallow
  repeat' first
    | ((with_reducible refine Sub.trans ?_ hW); exact rfl)
    | ((with_reducible refine EffL.mk ?_); constructor <;> first | (intro _; with_reducible rfl) | exact fun e => hW.no rfl e)
    | with_reducible apply State.showMove_eff
    | (refine Eff.lit ?_ rfl ?_; with_reducible assumption)

theorem State.failFallow_eff {s : State} {mv : Move}
    (hW : Sub 0x310200000808 W) (h : Eff W s₀ s)  : Eff W s₀ (State.failFallow s mv) := by
  unfold State.failFallow
  repeat' first
    | with_reducible assumption
    | ((with_reducible refine Sub.trans ?_ hW); exact rfl)
    | with_reducible apply State.failExport_eff
    | with_reducible apply State.failLoad_eff
    | with_reducible apply State.updStream_eff
    | split

theorem State.commitFallow_eff {s : State} {cart : Nat} {mv : Move}
    (hW : Sub 0x100A43F0370EF7830A0A W) (h : Eff W s₀ s)  : Eff W s₀ (State.commitFallow s cart mv) := by
  unfold State.commitFallow
  repeat' first
    | with_reducible assumption
    | ((with_reducible refine Sub.trans ?_ hW); exact rfl)
    | (extract_lets +onlyGivenNames v; refine (fun (hv : Eff W s₀ v) => ?_) ?_; clear_value v; rotate_left; subst v)
    | (extract_lets +onlyGivenNames v; clear_value v)
    | with_reducible apply Eff.ite
    | with_reducible apply State.endFallow_eff
    | with_reducible apply State.endExport_eff
    | with_reducible apply State.swapStream_eff
    | with_reducible apply State.runLoad_eff
    | with_reducible apply State.loaded_eff
    | with_reducible apply State.rehome_eff
    | with_reducible apply State.countBytes_eff
    | with_reducible apply State.setStream_eff
    | with_reducible apply State.add64_eff
    | split

theorem State.commitFar_eff {s : State} {cart : Nat} {mv : Move} {a : CommitAnswer}
    (hW : Sub 0x100A43F0370EF7830A0A W) (h : Eff W s₀ s)  : Eff W s₀ (State.commitFar s cart mv a) := by
  unfold State.commitFar
  repeat' first
    | with_reducible assumption
    | ((with_reducible refine Sub.trans ?_ hW); exact rfl)
    | (extract_lets +onlyGivenNames v; refine (fun (hv : Eff W s₀ v) => ?_) ?_; clear_value v; rotate_left; subst v)
    | (extract_lets +onlyGivenNames v; have hp := fun a => Eff W s₀ (v a); clear hp; subst v)
    | (extract_lets +onlyGivenNames v; have hp := fun a b => Eff W s₀ (v a b); clear hp; subst v)
    | (extract_lets +onlyGivenNames v; clear_value v)
    | with_reducible apply Eff.ite
    | with_reducible apply State.commitFallow_eff
    | with_reducible apply State.failFallow_eff
    | with_reducible apply State.endFallow_eff
    | with_reducible apply State.lostDatum_eff
    | with_reducible apply State.copyMove_eff
    | with_reducible apply State.senseSource_eff
    | with_reducible apply State.cartError_eff
    | with_reducible apply State.logError_eff
    | dsimp -zeta only
    | with_reducible refine Eff.snd (by with_reducible assumption) ?_
    | split

theorem execMoveCommit_eff {cart : Fin 8} {a : CommitAnswer} {s : State}
    (hW : Sub 0x100A43F0370EF7A37A8A W) (h : Eff W s₀ s)  : EffX W s₀ (execMoveCommit cart a s) := by
  unfold execMoveCommit
  repeat' first
    | with_reducible assumption
    | ((with_reducible refine Sub.trans ?_ hW); exact rfl)
    | with_reducible apply EffX.of_next
    | with_reducible apply Eff.ite
    | with_reducible apply State.commitFar_eff
    | with_reducible apply State.commitPlanMove_eff
    | split

theorem State.badSource_eff {s : State} {addr : Nat}
    (hW : Sub 0x22000000 W) (h : Eff W s₀ s)  : Eff W s₀ (State.badSource s addr) := by
  unfold State.badSource
  repeat' first
    | with_reducible assumption
    | ((with_reducible refine EffL.mk ?_); constructor <;> first | (intro _; with_reducible rfl) | exact fun e => hW.no rfl e)
    | split
    | (refine Eff.lit ?_ rfl ?_; with_reducible assumption)

theorem State.failSource_eff {s : State} {cart : Nat} {mv : Move} {addr : Nat}
    (hW : Sub 0x100001F0310267207808 W) (h : Eff W s₀ s)  : Eff W s₀ (State.failSource s cart mv addr) := by
  unfold State.failSource
  repeat' first
    | with_reducible assumption
    | ((with_reducible refine Sub.trans ?_ hW); exact rfl)
    | (extract_lets +onlyGivenNames v; refine (fun (hv : Eff W s₀ v) => ?_) ?_; clear_value v; rotate_left; subst v)
    | (extract_lets +onlyGivenNames v; clear_value v)
    | with_reducible apply Eff.ite
    | with_reducible apply State.badSource_eff
    | with_reducible apply State.failFallow_eff
    | with_reducible apply State.endFallow_eff
    | with_reducible apply State.lostDatum_eff
    | with_reducible apply State.failPlanMove_eff
    | with_reducible apply State.cartError_eff
    | with_reducible apply State.senseRange_eff
    | with_reducible apply State.logError_eff
    | split

theorem execMoveSourceError_eff {cart : Fin 8} {addr : BitVec 44} {s : State}
    (hW : Sub 0x100001F0310267207808 W) (h : Eff W s₀ s)  : EffX W s₀ (execMoveSourceError cart addr s) := by
  unfold execMoveSourceError
  repeat' first
    | with_reducible assumption
    | with_reducible apply EffX.of_next
    | with_reducible apply Eff.ite
    | with_reducible apply State.failSource_eff
    | split

end Sys2Proof.Machine
end

