-- ==== Sys2Proof/Laws/EffTick.lean ====
section
/-!
SUPPORT. Laws/EffTick.lean: which fields of the state every operation of Machine/Tick.lean may change.
-/
namespace Sys2Proof.Machine

variable {W : Nat} {s₀ : State}

theorem State.updTick_eff {s : State} {f : TickState → TickState}
    (hW : Sub 0x80 W) (h : Eff W s₀ s)  : Eff W s₀ (State.updTick s f) := by
  unfold State.updTick
  repeat' first
    | ((with_reducible refine EffL.mk ?_); constructor <;> first | (intro _; with_reducible rfl) | exact fun e => hW.no rfl e)
    | (refine Eff.lit ?_ rfl ?_; with_reducible assumption)

theorem State.runStart_eff {s : State}
    (hW : Sub 0x88 W) (h : Eff W s₀ s)  : Eff W s₀ (State.runStart s) := by
  unfold State.runStart
  repeat' first
    | with_reducible assumption
    | ((with_reducible refine Sub.trans ?_ hW); exact rfl)
    | (extract_lets +onlyGivenNames v; refine (fun (hv : Eff W s₀ v) => ?_) ?_; clear_value v; rotate_left; subst v)
    | with_reducible apply Eff.ite
    | with_reducible apply State.updTick_eff
    | with_reducible apply State.setBit_eff
    | with_reducible apply State.setReg_eff

theorem State.runStop_eff {s : State}
    (hW : Sub 0x100001F0000000000088 W) (h : Eff W s₀ s)  : Eff W s₀ (State.runStop s) := by
  unfold State.runStop
  repeat' first
    | with_reducible assumption
    | ((with_reducible refine Sub.trans ?_ hW); exact rfl)
    | (extract_lets +onlyGivenNames v; refine (fun (hv : Eff W s₀ v) => ?_) ?_; clear_value v; rotate_left; subst v)
    | with_reducible apply Eff.ite
    | with_reducible apply State.updTick_eff
    | with_reducible apply State.tickRefused_eff
    | with_reducible apply State.setBit_eff

theorem State.writeTickCtrl_eff {s : State} {run : Bool} {shedAlert : Bool}
    (hW : Sub 0x100001F0000000000088 W) (h : Eff W s₀ s)  : Eff W s₀ (State.writeTickCtrl s run shedAlert) := by
  unfold State.writeTickCtrl
  repeat' first
    | with_reducible assumption
    | ((with_reducible refine Sub.trans ?_ hW); exact rfl)
    | (extract_lets +onlyGivenNames v; refine (fun (hv : Eff W s₀ v) => ?_) ?_; clear_value v; rotate_left; subst v)
    | with_reducible apply Eff.ite
    | with_reducible apply State.runStop_eff
    | with_reducible apply State.runStart_eff
    | with_reducible apply State.setBit_eff

theorem execTickRunStart_eff {i : Iface} {shedAlert : Bool} {s : State}
    (hW : Sub 0x100001F0000000000088 W) (h : Eff W s₀ s)  : EffX W s₀ (execTickRunStart i shedAlert s) := by
  unfold execTickRunStart
  repeat' first
    | with_reducible assumption
    | with_reducible apply EffX.of_next
    | with_reducible apply Eff.ite
    | with_reducible apply State.writeTickCtrl_eff

theorem execTickRunStop_eff {i : Iface} {shedAlert : Bool} {s : State}
    (hW : Sub 0x100001F0000000000088 W) (h : Eff W s₀ s)  : EffX W s₀ (execTickRunStop i shedAlert s) := by
  unfold execTickRunStop
  repeat' first
    | with_reducible assumption
    | with_reducible apply EffX.of_next
    | with_reducible apply Eff.ite
    | with_reducible apply State.writeTickCtrl_eff

theorem State.reportSkip_eff {s : State}
    (hW : Sub 0x100001F0000000000008 W) (h : Eff W s₀ s)  : Eff W s₀ (State.reportSkip s) := by
  unfold State.reportSkip
  repeat' first
    | with_reducible assumption
    | ((with_reducible refine Sub.trans ?_ hW); exact rfl)
    | with_reducible apply State.logError_eff
    | with_reducible apply State.alert_eff
    | with_reducible apply State.raise_eff
    | with_reducible apply State.addSat_eff

theorem State.reportSkips_eff {s : State} {k : Nat}
    (hW : Sub 0x100001F0000000000008 W) (h : Eff W s₀ s)  : Eff W s₀ (State.reportSkips s k) := by
  unfold State.reportSkips
  repeat' first
    | with_reducible assumption
    | with_reducible refine Eff.foldl _ (fun _ _ _ => ?_) ?_
    | with_reducible apply State.reportSkip_eff

theorem State.loseNext_eff {s : State} {cause : Nat}
    (hW : Sub 0x10000000000 W) (h : Eff W s₀ s)  : Eff W s₀ (State.loseNext s cause) := by
  unfold State.loseNext
  repeat' first
    | with_reducible assumption
    | with_reducible refine Eff.foldl _ (fun _ _ _ => ?_) ?_
    | with_reducible apply State.openHole_eff

theorem State.reportShed_eff {s : State}
    (hW : Sub 0x100001F0000000000008 W) (h : Eff W s₀ s)  : Eff W s₀ (State.reportShed s) := by
  unfold State.reportShed
  repeat' first
    | with_reducible assumption
    | ((with_reducible refine Sub.trans ?_ hW); exact rfl)
    | (extract_lets +onlyGivenNames v; refine (fun (hv : Eff W s₀ v) => ?_) ?_; clear_value v; rotate_left; subst v)
    | with_reducible apply Eff.ite
    | with_reducible apply State.logError_eff
    | with_reducible apply State.alert_eff
    | with_reducible apply State.raise_eff
    | with_reducible apply State.addSat_eff

theorem State.reportStretch_eff {s : State}
    (hW : Sub 0x10000000000000000008 W) (h : Eff W s₀ s)  : Eff W s₀ (State.reportStretch s) := by
  unfold State.reportStretch
  repeat' first
    | with_reducible assumption
    | ((with_reducible refine Sub.trans ?_ hW); exact rfl)
    | with_reducible apply State.raise_eff
    | with_reducible apply State.addSat_eff

theorem State.showClass_eff {s : State} {c : TickClass} {lag : Nat} {k : Nat}
    (hW : Sub 0x100001F0010000000008 W) (h : Eff W s₀ s)  : Eff W s₀ (State.showClass s c lag k) := by
  unfold State.showClass
  repeat' first
    | with_reducible assumption
    | ((with_reducible refine Sub.trans ?_ hW); exact rfl)
    | with_reducible apply Eff.ite
    | with_reducible apply State.reportStretch_eff
    | with_reducible apply State.reportShed_eff
    | with_reducible apply State.loseNext_eff
    | with_reducible apply State.reportSkips_eff
    | split

theorem State.setClass_eff {s : State} {c : TickClass} {opening : Nat}
    (hW : Sub 0x100001F0010000000088 W) (h : Eff W s₀ s)  : Eff W s₀ (State.setClass s c opening) := by
  unfold State.setClass
  repeat' first
    | with_reducible assumption
    | ((with_reducible refine Sub.trans ?_ hW); exact rfl)
    | (extract_lets +onlyGivenNames v; refine (fun (hv : Eff W s₀ v) => ?_) ?_; clear_value v; rotate_left; subst v)
    | (extract_lets +onlyGivenNames v; clear_value v)
    | with_reducible apply State.showClass_eff
    | with_reducible apply State.updTick_eff
    | split

theorem State.enterHoldover_eff {s : State}
    (hW : Sub 0x10000000000000000088 W) (h : Eff W s₀ s)  : Eff W s₀ (State.enterHoldover s) := by
  unfold State.enterHoldover
  repeat' first
    | with_reducible assumption
    | ((with_reducible refine Sub.trans ?_ hW); exact rfl)
    | (extract_lets +onlyGivenNames v; refine (fun (hv : Eff W s₀ v) => ?_) ?_; clear_value v; rotate_left; subst v)
    | with_reducible apply State.updTick_eff
    | with_reducible apply State.raise_eff
    | with_reducible apply State.setBit_eff

theorem State.measureSpan_eff {s : State} {t : Nat}
    (hW : Sub 0x80 W) (h : Eff W s₀ s)  : Eff W s₀ (State.measureSpan s t) := by
  unfold State.measureSpan
  repeat' first
    | with_reducible assumption
    | (extract_lets +onlyGivenNames v; clear_value v)
    | with_reducible apply Eff.ite
    | with_reducible apply State.updTick_eff
    | split

theorem State.lockedSync_eff {s : State} {t : Nat}
    (hW : Sub 0x10000000000000000088 W) (h : Eff W s₀ s)  : Eff W s₀ (State.lockedSync s t) := by
  unfold State.lockedSync
  repeat' first
    | with_reducible assumption
    | ((with_reducible refine Sub.trans ?_ hW); exact rfl)
    | (extract_lets +onlyGivenNames v; clear_value v)
    | with_reducible apply Eff.ite
    | with_reducible apply State.enterHoldover_eff
    | with_reducible apply State.updTick_eff

theorem execPortFrameSync_eff {port : Fin 4} {t : Nat} {s : State}
    (hW : Sub 0x1000000000000000008C W) (h : Eff W s₀ s)  : EffX W s₀ (execPortFrameSync port t s) := by
  unfold execPortFrameSync
  repeat' first
    | with_reducible assumption
    | ((with_reducible refine Sub.trans ?_ hW); exact rfl)
    | (extract_lets +onlyGivenNames v; refine (fun (hv : Eff W s₀ v) => ?_) ?_; clear_value v; rotate_left; subst v)
    | with_reducible apply EffX.of_next
    | with_reducible apply Eff.ite
    | with_reducible apply State.lockedSync_eff
    | with_reducible apply State.measureSpan_eff
    | with_reducible apply State.reach_eff

theorem execLockAcquired_eff {s : State}
    (hW : Sub 0x88 W) (h : Eff W s₀ s)  : EffX W s₀ (execLockAcquired s) := by
  unfold execLockAcquired
  repeat' first
    | with_reducible assumption
    | ((with_reducible refine Sub.trans ?_ hW); exact rfl)
    | with_reducible apply EffX.of_next
    | with_reducible apply Eff.ite
    | with_reducible apply State.updTick_eff
    | with_reducible apply State.setBit_eff

theorem execHoldover_eff {s : State}
    (hW : Sub 0x1000000000000000008C W) (h : Eff W s₀ s)  : EffX W s₀ (execHoldover s) := by
  unfold execHoldover
  repeat' first
    | with_reducible assumption
    | ((with_reducible refine Sub.trans ?_ hW); exact rfl)
    | (extract_lets +onlyGivenNames v; clear_value v)
    | with_reducible apply EffX.of_next
    | with_reducible apply Eff.ite
    | with_reducible apply State.enterHoldover_eff
    | with_reducible apply State.updTick_eff
    | with_reducible apply State.reach_eff

theorem State.stookClass_eff {s : State} {force : Bool}
    (hW : Sub 0x100003F0010000000088 W) (h : Eff W s₀ s)  : Eff W s₀ (State.stookClass s force) := by
  unfold State.stookClass
  repeat' first
    | with_reducible assumption
    | ((with_reducible refine Sub.trans ?_ hW); exact rfl)
    | (extract_lets +onlyGivenNames v; refine (fun (hv : Eff W s₀ v) => ?_) ?_; clear_value v; rotate_left; subst v)
    | (extract_lets +onlyGivenNames v; clear_value v)
    | with_reducible apply Eff.ite
    | with_reducible refine Eff.foldl _ (fun _ _ _ => ?_) ?_
    | with_reducible apply State.setClass_eff
    | with_reducible apply State.updTick_eff
    | with_reducible apply State.peerMsg_eff
    | with_reducible apply State.logError_eff
    | with_reducible apply State.setBit_eff

theorem execWorkendTimeout_eff {chip : Fin 4} {s : State}
    (hW : Sub 0x100003F001000000008C W) (h : Eff W s₀ s)  : EffX W s₀ (execWorkendTimeout chip s) := by
  unfold execWorkendTimeout
  repeat' first
    | with_reducible assumption
    | ((with_reducible refine Sub.trans ?_ hW); exact rfl)
    | with_reducible apply EffX.of_next
    | with_reducible apply Eff.ite
    | with_reducible apply State.stookClass_eff
    | with_reducible apply State.reach_eff

theorem execTickSyncPulse_eff {t : Nat} {s : State}
    (hW : Sub 0x1000020000000000008C W) (h : Eff W s₀ s)  : EffX W s₀ (execTickSyncPulse t s) := by
  unfold execTickSyncPulse
  repeat' first
    | with_reducible assumption
    | ((with_reducible refine Sub.trans ?_ hW); exact rfl)
    | (extract_lets +onlyGivenNames v; refine (fun (hv : Eff W s₀ v) => ?_) ?_; clear_value v; rotate_left; subst v)
    | with_reducible apply EffX.of_next
    | with_reducible apply Eff.ite
    | with_reducible refine Eff.foldl _ (fun _ _ _ => ?_) ?_
    | with_reducible apply State.updTick_eff
    | with_reducible apply State.peerMsg_eff
    | with_reducible apply State.reach_eff
    | split

theorem execSyncPulseTimeout_eff {s : State}
    (hW : Sub 0x100001F000000000008C W) (h : Eff W s₀ s)  : EffX W s₀ (execSyncPulseTimeout s) := by
  unfold execSyncPulseTimeout
  repeat' first
    | with_reducible assumption
    | ((with_reducible refine Sub.trans ?_ hW); exact rfl)
    | (extract_lets +onlyGivenNames v; refine (fun (hv : Eff W s₀ v) => ?_) ?_; clear_value v; rotate_left; subst v)
    | with_reducible apply EffX.of_next
    | with_reducible apply Eff.ite
    | with_reducible apply State.updTick_eff
    | with_reducible apply State.logError_eff
    | with_reducible apply State.reach_eff
    | with_reducible apply State.setBit_eff

end Sys2Proof.Machine
end

