-- ==== Sys2Proof/Laws/EffFallow.lean ====
section
/-!
SUPPORT. Laws/EffFallow.lean: which fields of the state every operation of Machine/Fallow.lean may change.
-/
namespace Sys2Proof.Machine

variable {W : Nat} {s₀ : State}

theorem State.addCounts_eff {s : State} {e : Nat}
    (hW : Sub 0x2008 W) (h : Eff W s₀ s)  : Eff W s₀ (State.addCounts s e) := by
  unfold State.addCounts
  repeat' first
    | with_reducible assumption
    | ((with_reducible refine Sub.trans ?_ hW); exact rfl)
    | (extract_lets +onlyGivenNames v; refine (fun (hv : Eff W s₀ v) => ?_) ?_; clear_value v; rotate_left; subst v)
    | (extract_lets +onlyGivenNames v; clear_value v)
    | with_reducible apply Eff.ite
    | with_reducible apply State.updEng_eff
    | with_reducible apply State.add64_eff
    | with_reducible apply State.addSat_eff

theorem State.foldCounts_eff {s : State}
    (hW : Sub 0x7000002008 W) (h : Eff W s₀ s)  : Eff W s₀ (State.foldCounts s) := by
  unfold State.foldCounts
  repeat' first
    | with_reducible assumption
    | ((with_reducible refine Sub.trans ?_ hW); exact rfl)
    | ((with_reducible refine EffL.mk ?_); constructor <;> first | (intro _; with_reducible rfl) | exact fun e => hW.no rfl e)
    | (extract_lets +onlyGivenNames v; refine (fun (hv : Eff W s₀ v) => ?_) ?_; clear_value v; rotate_left; subst v)
    | with_reducible refine Eff.foldl _ (fun _ _ _ => ?_) ?_
    | with_reducible apply State.addCounts_eff
    | with_reducible apply State.addSat_eff
    | (refine Eff.lit ?_ rfl ?_; with_reducible assumption)

theorem State.doWriteBack_eff {s : State}
    (hW : Sub 0x6000000 W) (h : Eff W s₀ s)  : Eff W s₀ (State.doWriteBack s) := by
  unfold State.doWriteBack
  repeat' first
    | ((with_reducible refine EffL.mk ?_); constructor <;> first | (intro _; with_reducible rfl) | exact fun e => hW.no rfl e)
    | (refine Eff.lit ?_ rfl ?_; with_reducible assumption)

theorem State.scrubWord_eff {s : State} {w : Nat} {f : BitFlips}
    (hW : Sub 0x100001F0010007000008 W) (h : Eff W s₀ s)  : Eff W s₀ (State.scrubWord s w f) := by
  unfold State.scrubWord
  repeat' first
    | with_reducible assumption
    | ((with_reducible refine Sub.trans ?_ hW); exact rfl)
    | ((with_reducible refine EffL.mk ?_); constructor <;> first | (intro _; with_reducible rfl) | exact fun e => hW.no rfl e)
    | (extract_lets +onlyGivenNames v; refine (fun (hv : Eff W s₀ v) => ?_) ?_; clear_value v; rotate_left; subst v)
    | (extract_lets +onlyGivenNames v; clear_value v)
    | with_reducible apply State.openHole_eff
    | with_reducible apply State.endStream_eff
    | with_reducible apply State.t0Sense_eff
    | with_reducible apply State.logError_eff
    | split
    | (refine Eff.lit ?_ rfl ?_; with_reducible assumption)

theorem State.scrub_eff {s : State}
    (hW : Sub 0x100001F001000F000008 W) (h : Eff W s₀ s)  : Eff W s₀ (State.scrub s) := by
  unfold State.scrub
  repeat' first
    | with_reducible assumption
    | ((with_reducible refine Sub.trans ?_ hW); exact rfl)
    | ((with_reducible refine EffL.mk ?_); constructor <;> first | (intro _; with_reducible rfl) | exact fun e => hW.no rfl e)
    | (extract_lets +onlyGivenNames v; refine (fun (hv : Eff W s₀ v) => ?_) ?_; clear_value v; rotate_left; subst v)
    | (extract_lets +onlyGivenNames v; clear_value v)
    | with_reducible apply Eff.ite
    | with_reducible refine Eff.foldl _ (fun _ _ _ => ?_) ?_
    | with_reducible apply State.scrubWord_eff
    | (refine Eff.lit ?_ rfl ?_; with_reducible assumption)

theorem State.checkPinned_eff {s : State}
    (hW : Sub 0x100001F0010000330008 W) (h : Eff W s₀ s)  : Eff W s₀ (State.checkPinned s) := by
  unfold State.checkPinned
  repeat' first
    | with_reducible assumption
    | ((with_reducible refine Sub.trans ?_ hW); exact rfl)
    | (extract_lets +onlyGivenNames v; refine (fun (hv : Eff W s₀ v) => ?_) ?_; clear_value v; rotate_left; subst v)
    | (extract_lets +onlyGivenNames v; clear_value v)
    | with_reducible apply Eff.ite
    | with_reducible refine Eff.foldl _ (fun _ _ _ => ?_) ?_
    | with_reducible apply State.setPinnedRow_eff
    | with_reducible apply State.senseBank_eff

theorem State.clearBanks_eff {s : State}
    (hW : Sub 0x30000 W) (h : Eff W s₀ s)  : Eff W s₀ (State.clearBanks s) := by
  unfold State.clearBanks
  repeat' first
    | ((with_reducible refine EffL.mk ?_); constructor <;> first | (intro _; with_reducible rfl) | exact fun e => hW.no rfl e)
    | (extract_lets +onlyGivenNames v; clear_value v)
    | (refine Eff.lit ?_ rfl ?_; with_reducible assumption)

theorem State.creditEnergy_eff {s : State}
    (hW : Sub 0x40000010000000000 W) (h : Eff W s₀ s)  : Eff W s₀ (State.creditEnergy s) := by
  unfold State.creditEnergy
  repeat' first
    | with_reducible assumption
    | ((with_reducible refine Sub.trans ?_ hW); exact rfl)
    | ((with_reducible refine EffL.mk ?_); constructor <;> first | (intro _; with_reducible rfl) | exact fun e => hW.no rfl e)
    | (extract_lets +onlyGivenNames v; refine (fun (hv : Eff W s₀ v) => ?_) ?_; clear_value v; rotate_left; subst v)
    | (extract_lets +onlyGivenNames v; clear_value v)
    | with_reducible refine Eff.foldl _ (fun _ _ _ => ?_) ?_
    | with_reducible apply State.updStream_eff
    | (refine Eff.lit ?_ rfl ?_; with_reducible assumption)

theorem State.beginFallow_eff {s : State}
    (hW : Sub 0x100003F01374F7C0208C W) (h : Eff W s₀ s)  : Eff W s₀ (State.beginFallow s) := by
  unfold State.beginFallow
  repeat' first
    | with_reducible assumption
    | ((with_reducible refine Sub.trans ?_ hW); exact rfl)
    | ((with_reducible refine EffL.mk ?_); constructor <;> first | (intro _; with_reducible rfl) | exact fun e => hW.no rfl e)
    | (extract_lets +onlyGivenNames v; refine (fun (hv : Eff W s₀ v) => ?_) ?_; clear_value v; rotate_left; subst v)
    | (extract_lets +onlyGivenNames v; clear_value v)
    | with_reducible apply State.foldCounts_eff
    | with_reducible apply State.updTick_eff
    | with_reducible apply State.postResults_eff
    | with_reducible apply State.reach_eff
    | with_reducible apply State.setBit_eff
    | with_reducible apply State.setFld_eff
    | (refine Eff.lit ?_ rfl ?_; with_reducible assumption)

theorem State.step1_eff {s : State}
    (hW : Sub 0x101C01F301800F33009A W) (h : Eff W s₀ s)  : Eff W s₀ (State.step1 s) := by
  unfold State.step1
  repeat' first
    | with_reducible assumption
    | ((with_reducible refine Sub.trans ?_ hW); exact rfl)
    | with_reducible apply State.creditEnergy_eff
    | with_reducible apply State.clearBanks_eff
    | with_reducible apply State.checkPinned_eff
    | with_reducible apply State.scrub_eff
    | with_reducible apply State.doWriteBack_eff
    | with_reducible apply State.applyHeld_eff
    | with_reducible apply State.camReady_eff
    | with_reducible apply State.stageReady_eff

theorem State.takeBind_eff {s : State} {q : Nat} {r : Req}
    (hW : Sub 0x10080200110000000008 W) (h : Eff W s₀ s)  : Eff W s₀ (State.takeBind s q r) := by
  unfold State.takeBind
  repeat' first
    | with_reducible assumption
    | ((with_reducible refine Sub.trans ?_ hW); exact rfl)
    | (extract_lets +onlyGivenNames v; refine (fun (hv : Eff W s₀ v.2) => ?_) ?_; clear_value v; rotate_left; subst v)
    | with_reducible apply Eff.ite
    | with_reducible apply State.forwardReq_eff
    | with_reducible apply State.bindOut_eff
    | with_reducible apply State.settle_eff
    | with_reducible apply State.setStream_eff
    | split

theorem State.takeUnbind_eff {s : State} {q : Nat} {r : Req}
    (hW : Sub 0x10080200110000000008 W) (h : Eff W s₀ s)  : Eff W s₀ (State.takeUnbind s q r) := by
  unfold State.takeUnbind
  repeat' first
    | with_reducible assumption
    | ((with_reducible refine Sub.trans ?_ hW); exact rfl)
    | (extract_lets +onlyGivenNames v; refine (fun (hv : Eff W s₀ v) => ?_) ?_; clear_value v; rotate_left; subst v)
    | with_reducible apply Eff.ite
    | with_reducible apply State.forwardReq_eff
    | with_reducible apply State.leaveOut_eff
    | with_reducible apply State.settle_eff
    | with_reducible apply State.setStream_eff
    | split

theorem State.takeStep3Reqs_eff {s : State}
    (hW : Sub 0x10080200110000000608 W) (h : Eff W s₀ s)  : Eff W s₀ (State.takeStep3Reqs s) := by
  unfold State.takeStep3Reqs
  repeat' first
    | with_reducible assumption
    | ((with_reducible refine Sub.trans ?_ hW); exact rfl)
    | with_reducible apply Eff.ite
    | with_reducible refine Eff.foldl _ (fun _ _ _ => ?_) ?_
    | with_reducible apply State.takeUnbind_eff
    | with_reducible apply State.takeBind_eff
    | with_reducible apply State.takeDiscard_eff
    | with_reducible apply State.takeActivation_eff

theorem State.takeBoundaries_eff {s : State}
    (hW : Sub 0x110093800000 W) (h : Eff W s₀ s)  : Eff W s₀ (State.takeBoundaries s) := by
  unfold State.takeBoundaries
  repeat' first
    | with_reducible assumption
    | ((with_reducible refine Sub.trans ?_ hW); exact rfl)
    | with_reducible apply Eff.ite
    | with_reducible refine Eff.foldl _ (fun _ _ _ => ?_) ?_
    | with_reducible apply State.giveBoundary_eff
    | with_reducible apply State.settle_eff
    | split

theorem State.takeBootPlan_eff {s : State}
    (hW : Sub 0x10400000100000000408 W) (h : Eff W s₀ s)  : Eff W s₀ (State.takeBootPlan s) := by
  unfold State.takeBootPlan
  repeat' first
    | with_reducible assumption
    | ((with_reducible refine Sub.trans ?_ hW); exact rfl)
    | ((with_reducible refine EffL.mk ?_); constructor <;> first | (intro _; with_reducible rfl) | exact fun e => hW.no rfl e)
    | (extract_lets +onlyGivenNames v; refine (fun (hv : Eff W s₀ v) => ?_) ?_; clear_value v; rotate_left; subst v)
    | (extract_lets +onlyGivenNames v; have hp := v.flash; clear hp; subst v)
    | with_reducible apply Eff.ite
    | with_reducible apply State.takeActivation_eff
    | with_reducible apply State.bootPlanRefused_eff
    | (refine Eff.lit ?_ rfl ?_; with_reducible assumption)

theorem State.step3_eff {s : State}
    (hW : Sub 0x105803F31180F780069A W) (h : Eff W s₀ s)  : Eff W s₀ (State.step3 s) := by
  unfold State.step3
  repeat' first
    | with_reducible assumption
    | ((with_reducible refine Sub.trans ?_ hW); exact rfl)
    | (extract_lets +onlyGivenNames v; refine (fun (hv : Eff W s₀ v) => ?_) ?_; clear_value v; rotate_left; subst v)
    | with_reducible apply State.takeBootPlan_eff
    | with_reducible apply State.takeBoundaries_eff
    | with_reducible apply State.takeStep3Reqs_eff
    | with_reducible apply State.runEpochs_eff

theorem State.resumeMoves_eff {s : State}
    (hW : Sub 0x200000008 W) (h : Eff W s₀ s)  : Eff W s₀ (State.resumeMoves s) := by
  unfold State.resumeMoves
  repeat' first
    | with_reducible assumption
    | ((with_reducible refine Sub.trans ?_ hW); exact rfl)
    | ((with_reducible refine EffL.mk ?_); constructor <;> first | (intro _; with_reducible rfl) | exact fun e => hW.no rfl e)
    | (extract_lets +onlyGivenNames v; refine (fun (hv : Eff W s₀ v) => ?_) ?_; clear_value v; rotate_left; subst v)
    | with_reducible refine Eff.foldl _ (fun _ _ _ => ?_) ?_
    | with_reducible apply State.showMove_eff
    | (refine Eff.lit ?_ rfl ?_; with_reducible assumption)

theorem State.takeEnds_eff {s : State}
    (hW : Sub 0x100A4200370A83830008 W) (h : Eff W s₀ s)  : Eff W s₀ (State.takeEnds s) := by
  unfold State.takeEnds
  repeat' first
    | with_reducible assumption
    | with_reducible apply State.closeResting_eff
    | with_reducible apply State.takeEndings_eff

theorem State.peerStep_eff {s : State} {complete : Bool}
    (hW : Sub 0x100BFBF0370EF783000A W) (h : Eff W s₀ s)  : Eff W s₀ (State.peerStep s complete) := by
  unfold State.peerStep
  repeat' first
    | with_reducible assumption
    | ((with_reducible refine Sub.trans ?_ hW); exact rfl)
    | (extract_lets +onlyGivenNames v; refine (fun (hv : Eff W s₀ v) => ?_) ?_; clear_value v; rotate_left; subst v)
    | with_reducible apply Eff.ite
    | with_reducible refine Eff.foldl _ (fun _ _ _ => ?_) ?_
    | with_reducible apply State.settleLosses_eff
    | with_reducible apply State.placeLate_eff
    | with_reducible apply State.servePulls_eff
    | with_reducible apply State.pullHome_eff
    | with_reducible apply State.releaseTx_eff
    | with_reducible apply State.sendAsk_eff
    | with_reducible apply State.pushRecord_eff
    | with_reducible apply State.pushSet_eff

theorem State.step4_eff {s : State} {complete : Bool}
    (hW : Sub 0x100BFBF0778EF783310A W) (h : Eff W s₀ s)  : Eff W s₀ (State.step4 s complete) := by
  unfold State.step4
  repeat' first
    | with_reducible assumption
    | ((with_reducible refine Sub.trans ?_ hW); exact rfl)
    | (extract_lets +onlyGivenNames v; refine (fun (hv : Eff W s₀ v) => ?_) ?_; clear_value v; rotate_left; subst v)
    | with_reducible apply Eff.ite
    | with_reducible apply State.peerStep_eff
    | with_reducible apply State.takeEnds_eff
    | with_reducible apply State.resumeMoves_eff
    | with_reducible apply State.clearRanges_eff
    | with_reducible apply State.evacuate_eff
    | with_reducible apply State.provide_eff
    | with_reducible apply State.takeStreamReqs_eff
    | with_reducible apply State.allSummaries_eff
    | with_reducible apply State.deactivatePlan_eff
    | with_reducible apply State.closeResting_eff
    | with_reducible apply State.takeEndings_eff

theorem State.step5_eff {s : State}
    (hW : Sub 0x100A43F0370EF783000A W) (h : Eff W s₀ s)  : Eff W s₀ (State.step5 s) := by
  unfold State.step5
  repeat' first
    | with_reducible assumption
    | ((with_reducible refine Sub.trans ?_ hW); exact rfl)
    | (extract_lets +onlyGivenNames v; refine (fun (hv : Eff W s₀ v) => ?_) ?_; clear_value v; rotate_left; subst v)
    | with_reducible refine Eff.foldl _ (fun _ _ _ => ?_) ?_
    | with_reducible apply State.runExports_eff
    | with_reducible apply State.swapOut_eff
    | with_reducible apply State.pauseResting_eff
    | with_reducible apply State.exportRow_eff

theorem State.loadStep_eff {s : State}
    (hW : Sub 0x100001F01106F7800A0A W) (h : Eff W s₀ s)  : Eff W s₀ (State.loadStep s) := by
  unfold State.loadStep
  repeat' first
    | with_reducible assumption
    | ((with_reducible refine Sub.trans ?_ hW); exact rfl)
    | with_reducible apply State.runLoad_eff
    | with_reducible apply State.clearForLoad_eff
    | split

theorem State.writeRing_eff {s : State} {rows : List (Nat × Nat)}
    (hW : Sub 0x93800000 W) (h : Eff W s₀ s)  : Eff W s₀ (State.writeRing s rows) := by
  unfold State.writeRing
  repeat' first
    | with_reducible assumption
    | with_reducible refine Eff.foldl _ (fun _ _ _ => ?_) ?_
    | with_reducible apply State.storeBytes_eff
    | split

theorem State.writeRowMap_eff {s : State} {rows : List (Nat × Nat)}
    (hW : Sub 0x93800000 W) (h : Eff W s₀ s)  : Eff W s₀ (State.writeRowMap s rows) := by
  unfold State.writeRowMap
  repeat' first
    | with_reducible assumption
    | with_reducible apply State.writeRing_eff
    | with_reducible apply State.storeBytes_eff
    | split

theorem State.fallowSteps_eff {s : State}
    (hW : Sub 0x105BFBF3778EF78B3F9A W) (h : Eff W s₀ s)  : Eff W s₀ (State.fallowSteps s) := by
  unfold State.fallowSteps
  repeat' first
    | with_reducible assumption
    | ((with_reducible refine Sub.trans ?_ hW); exact rfl)
    | ((with_reducible refine EffL.mk ?_); constructor <;> first | (intro _; with_reducible rfl) | exact fun e => hW.no rfl e)
    | (extract_lets +onlyGivenNames v; refine (fun (hv : Eff W s₀ v) => ?_) ?_; clear_value v; rotate_left; subst v)
    | (extract_lets +onlyGivenNames v; clear_value v)
    | with_reducible apply Eff.ite
    | with_reducible apply State.writeRowMap_eff
    | with_reducible apply State.loadStep_eff
    | with_reducible apply State.step5_eff
    | with_reducible apply State.step4_eff
    | with_reducible apply State.step3_eff
    | with_reducible apply State.updTick_eff
    | with_reducible apply State.admission_eff
    | with_reducible apply State.answerForwarded_eff
    | split
    | (refine Eff.lit ?_ rfl ?_; with_reducible assumption)

theorem State.openFallow_eff {s : State}
    (hW : Sub 0x105FFBF377FEFFFB3F9E W) (h : Eff W s₀ s)  : Eff W s₀ (State.openFallow s) := by
  unfold State.openFallow
  repeat' first
    | with_reducible assumption
    | ((with_reducible refine Sub.trans ?_ hW); exact rfl)
    | (extract_lets +onlyGivenNames v; refine (fun (hv : Eff W s₀ v) => ?_) ?_; clear_value v; rotate_left; subst v)
    | (extract_lets +onlyGivenNames v; clear_value v)
    | with_reducible apply Eff.ite
    | with_reducible refine Eff.foldl _ (fun _ _ _ => ?_) ?_
    | with_reducible apply State.fallowSteps_eff
    | with_reducible apply State.step1_eff
    | with_reducible apply State.beginFallow_eff
    | with_reducible apply State.stookClass_eff
    | with_reducible apply State.setClass_eff
    | with_reducible apply State.loseNext_eff
    | with_reducible apply State.reportSkips_eff
    | with_reducible apply State.updTick_eff
    | with_reducible apply State.peerMsg_eff
    | split

theorem execFallowOpening_eff {s : State}
    (hW : Sub 0x105FFBF377FEFFFB3F9E W) (h : Eff W s₀ s)  : EffX W s₀ (execFallowOpening s) := by
  unfold execFallowOpening
  repeat' first
    | with_reducible assumption
    | with_reducible apply EffX.of_next
    | with_reducible apply Eff.ite
    | with_reducible apply State.openFallow_eff

end Sys2Proof.Machine
end

