-- ==== Sys2Proof/Laws/EffArming.lean ====
section
/-!
SUPPORT. Laws/EffArming.lean: which fields of the state every operation of Machine/Arming.lean may change.
-/
namespace Sys2Proof.Machine

variable {W : Nat} {s₀ : State}

theorem State.pauseMove_eff {s : State} {m : Nat × Move}
    (hW : Sub 0x20000000A W) (h : Eff W s₀ s)  : Eff W s₀ (State.pauseMove s m) := by
  unfold State.pauseMove
  repeat' first
    | with_reducible assumption
    | ((with_reducible refine Sub.trans ?_ hW); exact rfl)
    | ((with_reducible refine EffL.mk ?_); constructor <;> first | (intro _; with_reducible rfl) | exact fun e => hW.no rfl e)
    | (extract_lets +onlyGivenNames v; refine (fun (hv : Eff W s₀ v) => ?_) ?_; clear_value v; rotate_left; subst v)
    | (extract_lets +onlyGivenNames v; clear_value v)
    | with_reducible apply Eff.ite
    | with_reducible apply State.showMove_eff
    | with_reducible apply State.draw_eff
    | dsimp -zeta only
    | (refine Eff.lit ?_ rfl ?_; with_reducible assumption)

theorem State.pauseMoves_eff {s : State}
    (hW : Sub 0x20000000A W) (h : Eff W s₀ s)  : Eff W s₀ (State.pauseMoves s) := by
  unfold State.pauseMoves
  repeat' first
    | with_reducible assumption
    | with_reducible refine Eff.foldl _ (fun _ _ _ => ?_) ?_
    | with_reducible apply State.pauseMove_eff

theorem State.failUpdate_eff {s : State} {cause : Nat}
    (hW : Sub 0x10400000000000000008 W) (h : Eff W s₀ s)  : Eff W s₀ (State.failUpdate s cause) := by
  unfold State.failUpdate
  repeat' first
    | with_reducible assumption
    | ((with_reducible refine Sub.trans ?_ hW); exact rfl)
    | ((with_reducible refine EffL.mk ?_); constructor <;> first | (intro _; with_reducible rfl) | exact fun e => hW.no rfl e)
    | (extract_lets +onlyGivenNames v; refine (fun (hv : Eff W s₀ v) => ?_) ?_; clear_value v; rotate_left; subst v)
    | (extract_lets +onlyGivenNames v; have hp := v.flash; clear hp; subst v)
    | with_reducible apply State.raise_eff
    | with_reducible apply State.setBit_eff
    | with_reducible apply State.setFld_eff
    | (refine Eff.lit ?_ rfl ?_; with_reducible assumption)

theorem State.endUpdateFrom_eff {s : State} {base : Nat} {len : Nat}
    (hW : Sub 0x10400000000000000008 W) (h : Eff W s₀ s)  : Eff W s₀ (State.endUpdateFrom s base len) := by
  unfold State.endUpdateFrom
  repeat' first
    | with_reducible assumption
    | (extract_lets +onlyGivenNames v; clear_value v)
    | with_reducible apply Eff.ite
    | with_reducible apply State.failUpdate_eff
    | split

theorem State.dropStage_eff {s : State} {a : Nat} {n : Nat}
    (hW : Sub 0x10424003310200000808 W) (h : Eff W s₀ s)  : Eff W s₀ (State.dropStage s a n) := by
  unfold State.dropStage
  repeat' first
    | with_reducible assumption
    | ((with_reducible refine Sub.trans ?_ hW); exact rfl)
    | ((with_reducible refine EffL.mk ?_); constructor <;> first | (intro _; with_reducible rfl) | exact fun e => hW.no rfl e)
    | (extract_lets +onlyGivenNames v; refine (fun (hv : Eff W s₀ v) => ?_) ?_; clear_value v; rotate_left; subst v)
    | with_reducible apply Eff.ite
    | with_reducible refine Eff.foldl _ (fun _ _ _ => ?_) ?_
    | with_reducible apply State.endUpdateFrom_eff
    | with_reducible apply State.resetQueue_eff
    | with_reducible apply State.stopReq_eff
    | with_reducible apply State.settle_eff
    | with_reducible apply State.setBit_eff
    | (refine Eff.lit ?_ rfl ?_; with_reducible assumption)

theorem State.yieldAreas_eff {s : State}
    (hW : Sub 0x10524003310200000808 W) (h : Eff W s₀ s)  : Eff W s₀ (State.yieldAreas s) := by
  unfold State.yieldAreas
  repeat' first
    | with_reducible assumption
    | ((with_reducible refine Sub.trans ?_ hW); exact rfl)
    | (extract_lets +onlyGivenNames v; refine (fun (hv : Eff W s₀ v) => ?_) ?_; clear_value v; rotate_left; subst v)
    | with_reducible apply Eff.ite
    | with_reducible apply State.dropStage_eff
    | with_reducible apply State.camOff_eff
    | with_reducible apply State.camRefused_eff
    | with_reducible apply State.setBit_eff
    | split

theorem State.showPinned_eff {s : State} {p : Plan}
    (hW : Sub 0x8 W) (h : Eff W s₀ s)  : Eff W s₀ (State.showPinned s p) := by
  unfold State.showPinned
  repeat' first
    | with_reducible assumption
    | with_reducible refine Eff.foldl _ (fun _ _ _ => ?_) ?_
    | with_reducible apply State.setFld_eff

theorem State.latch_eff {s : State} {f : Nat → Option VariantRec}
    (hW : Sub 0x2000 W) (h : Eff W s₀ s)  : Eff W s₀ (State.latch s f) := by
  unfold State.latch
  repeat' first
    | ((with_reducible refine EffL.mk ?_); constructor <;> first | (intro _; with_reducible rfl) | exact fun e => hW.no rfl e)
    | (refine Eff.lit ?_ rfl ?_; with_reducible assumption)

theorem State.latchFor_eff {s : State} {shed : Bool} {rows : List (Nat × Nat)}
    (hW : Sub 0x2000 W) (h : Eff W s₀ s)  : Eff W s₀ (State.latchFor s shed rows) := by
  unfold State.latchFor
  repeat' first
    | with_reducible assumption
    | (extract_lets +onlyGivenNames v; clear_value v)
    | with_reducible apply State.latch_eff
    | split

theorem State.swapBanks_eff {s : State} {q : Nat} {tag : Nat} {p : Plan}
    (hW : Sub 0x10524003318293832F0A W) (h : Eff W s₀ s)  : Eff W s₀ (State.swapBanks s q tag p) := by
  unfold State.swapBanks
  repeat' first
    | with_reducible assumption
    | ((with_reducible refine Sub.trans ?_ hW); exact rfl)
    | ((with_reducible refine EffL.mk ?_); constructor <;> first | (intro _; with_reducible rfl) | exact fun e => hW.no rfl e)
    | (extract_lets +onlyGivenNames v; refine (fun (hv : Eff W s₀ v) => ?_) ?_; clear_value v; rotate_left; subst v)
    | (extract_lets +onlyGivenNames v; refine (fun (hv : Eff W s₀ v.2) => ?_) ?_; clear_value v; rotate_left; subst v)
    | with_reducible apply Eff.ite
    | with_reducible apply State.latch_eff
    | with_reducible apply State.showPinned_eff
    | with_reducible apply State.yieldAreas_eff
    | with_reducible apply State.writeRowMap_eff
    | with_reducible apply State.applySwitch_eff
    | with_reducible apply State.settle_eff
    | with_reducible apply State.choose_eff
    | with_reducible apply State.setReg64_eff
    | with_reducible apply State.setBit_eff
    | (refine Eff.lit ?_ rfl ?_; with_reducible assumption)

theorem State.takeGrants_eff {s : State} {n : Nat} {rows : List (Nat × Nat)}
    (hW : Sub 0x100213F0110000000008 W) (h : Eff W s₀ s)  : Eff W s₀ (State.takeGrants s n rows).1 := by
  unfold State.takeGrants
  repeat' first
    | with_reducible assumption
    | ((with_reducible refine Sub.trans ?_ hW); exact rfl)
    | ((with_reducible refine EffL.mk ?_); constructor <;> first | (intro _; with_reducible rfl) | exact fun e => hW.no rfl e)
    | with_reducible apply Eff.iteFst
    | with_reducible refine Eff.foldlFst _ (fun _ _ _ => ?_) ?_
    | with_reducible apply State.takeRow_eff
    | with_reducible apply State.placeGrant_eff
    | dsimp -zeta only
    | with_reducible refine Eff.ofSomeSnd (by with_reducible assumption) ?_
    | split
    | (refine Eff.lit ?_ rfl ?_; with_reducible assumption)

theorem State.loadRow_eff {s : State} {r : Nat} {sc : Nat}
    (hW : Sub 0x10000030000 W) (h : Eff W s₀ s)  : Eff W s₀ (State.loadRow s r sc) := by
  unfold State.loadRow
  repeat' first
    | with_reducible assumption
    | ((with_reducible refine Sub.trans ?_ hW); exact rfl)
    | (extract_lets +onlyGivenNames v; refine (fun (hv : Eff W s₀ v) => ?_) ?_; clear_value v; rotate_left; subst v)
    | with_reducible apply Eff.ite
    | with_reducible apply State.loadPinned_eff
    | with_reducible apply State.zeroPinned_eff
    | with_reducible apply State.updStream_eff
    | split

theorem State.loadRows_eff {s : State} {rows : List (Nat × Nat)}
    (hW : Sub 0x10000030000 W) (h : Eff W s₀ s)  : Eff W s₀ (State.loadRows s rows) := by
  unfold State.loadRows
  repeat' first
    | with_reducible assumption
    | with_reducible apply Eff.ite
    | with_reducible refine Eff.foldl _ (fun _ _ _ => ?_) ?_
    | with_reducible apply State.loadRow_eff

theorem State.shedHoles_eff {s : State} {rows : List (Nat × Nat)} {n : Nat}
    (hW : Sub 0x10000000000 W) (h : Eff W s₀ s)  : Eff W s₀ (State.shedHoles s rows n) := by
  unfold State.shedHoles
  repeat' first
    | with_reducible assumption
    | with_reducible apply Eff.ite
    | with_reducible refine Eff.foldl _ (fun _ _ _ => ?_) ?_
    | with_reducible apply State.openHole_eff
    | split

theorem State.showPools_eff {s : State}
    (hW : Sub 0x8 W) (h : Eff W s₀ s)  : Eff W s₀ (State.showPools s) := by
  unfold State.showPools
  repeat' first
    | with_reducible assumption
    | (extract_lets +onlyGivenNames v; refine (fun (hv : Eff W s₀ v) => ?_) ?_; clear_value v; rotate_left; subst v)
    | with_reducible apply State.setFld_eff

theorem State.armCarry_eff {s : State}
    (hW : Sub 0x100001F0000093832008 W) (h : Eff W s₀ s)  : Eff W s₀ (State.armCarry s).1 := by
  unfold State.armCarry
  repeat' first
    | with_reducible assumption
    | ((with_reducible refine Sub.trans ?_ hW); exact rfl)
    | (extract_lets +onlyGivenNames v; refine (fun (hv : Eff W s₀ v) => ?_) ?_; clear_value v; rotate_left; subst v)
    | (extract_lets +onlyGivenNames v; clear_value v)
    | with_reducible refine Eff.foldl _ (fun _ _ _ => ?_) ?_
    | with_reducible apply State.latch_eff
    | with_reducible apply State.writeRowMap_eff
    | with_reducible apply State.zeroPinned_eff
    | with_reducible apply State.logError_eff
    | with_reducible apply State.raise_eff
    | with_reducible apply State.addSat_eff
    | split

theorem State.armFull_eff {s : State}
    (hW : Sub 0x105253F3318293832F0A W) (h : Eff W s₀ s)  : Eff W s₀ (State.armFull s).1 := by
  unfold State.armFull
  repeat' first
    | with_reducible assumption
    | ((with_reducible refine Sub.trans ?_ hW); exact rfl)
    | (extract_lets +onlyGivenNames v; refine (fun (hv : Eff W s₀ v) => ?_) ?_; clear_value v; rotate_left; subst v)
    | (extract_lets +onlyGivenNames v; clear_value v)
    | with_reducible refine Eff.foldl _ (fun _ _ _ => ?_) ?_
    | with_reducible apply State.loadRows_eff
    | with_reducible apply State.takeGrants_eff
    | with_reducible apply State.swapBanks_eff
    | with_reducible apply State.latchFor_eff
    | with_reducible apply State.writeRowMap_eff
    | with_reducible apply State.takeRow_eff
    | dsimp -zeta only
    | split

theorem State.arm_eff {s : State}
    (hW : Sub 0x105A53F3318A938BAF8E W) (h : Eff W s₀ s)  : Eff W s₀ (State.arm s) := by
  unfold State.arm
  repeat' first
    | with_reducible assumption
    | ((with_reducible refine Sub.trans ?_ hW); exact rfl)
    | ((with_reducible refine EffL.mk ?_); constructor <;> first | (intro _; with_reducible rfl) | exact fun e => hW.no rfl e)
    | (extract_lets +onlyGivenNames v; refine (fun (hv : Eff W s₀ v) => ?_) ?_; clear_value v; rotate_left; subst v)
    | with_reducible apply State.armFull_eff
    | with_reducible apply State.armCarry_eff
    | with_reducible apply State.showPools_eff
    | with_reducible apply State.pauseMoves_eff
    | with_reducible apply State.updTick_eff
    | with_reducible apply State.camArm_eff
    | with_reducible apply State.latchPlay_eff
    | with_reducible apply State.reach_eff
    | split
    | (refine Eff.lit ?_ rfl ?_; with_reducible apply State.armFull_eff)
    | (refine Eff.lit ?_ rfl ?_; with_reducible apply State.armCarry_eff)
    | (refine Eff.lit ?_ rfl ?_; with_reducible apply State.shedHoles_eff)

theorem State.missClass_eff {s : State}
    (hW : Sub 0x100001F0010000000008 W) (h : Eff W s₀ s)  : Eff W s₀ (State.missClass s) := by
  unfold State.missClass
  repeat' first
    | with_reducible assumption
    | ((with_reducible refine Sub.trans ?_ hW); exact rfl)
    | with_reducible apply Eff.ite
    | with_reducible apply State.loseNext_eff
    | with_reducible apply State.logError_eff
    | with_reducible apply State.setBit_eff

theorem execArmingStep_eff {s : State}
    (hW : Sub 0x105A53F3318A938BAF8E W) (h : Eff W s₀ s)  : EffX W s₀ (execArmingStep s) := by
  unfold execArmingStep
  repeat' first
    | with_reducible assumption
    | ((with_reducible refine Sub.trans ?_ hW); exact rfl)
    | with_reducible apply EffX.of_next
    | with_reducible apply Eff.ite
    | with_reducible apply State.missClass_eff
    | with_reducible apply State.arm_eff
    | with_reducible apply State.stookClass_eff

theorem State.startEngine_eff {s : State} {e : Nat}
    (hW : Sub 0x2008 W) (h : Eff W s₀ s)  : Eff W s₀ (State.startEngine s e) := by
  unfold State.startEngine
  repeat' first
    | with_reducible assumption
    | ((with_reducible refine Sub.trans ?_ hW); exact rfl)
    | (extract_lets +onlyGivenNames v; refine (fun (hv : Eff W s₀ v) => ?_) ?_; clear_value v; rotate_left; subst v)
    | (extract_lets +onlyGivenNames v; clear_value v)
    | with_reducible apply State.setBusy_eff
    | with_reducible apply State.setEng_eff
    | with_reducible apply State.setFld_eff
    | split

theorem State.startKnots_eff {s : State}
    (hW : Sub 0x4008 W) (h : Eff W s₀ s)  : Eff W s₀ (State.startKnots s) := by
  unfold State.startKnots
  repeat' first
    | with_reducible assumption
    | ((with_reducible refine Sub.trans ?_ hW); exact rfl)
    | ((with_reducible refine EffL.mk ?_); constructor <;> first | (intro _; with_reducible rfl) | exact fun e => hW.no rfl e)
    | (extract_lets +onlyGivenNames v; clear_value v)
    | with_reducible refine Eff.foldl _ (fun _ _ _ => ?_) ?_
    | with_reducible apply State.setReg_eff
    | (refine Eff.lit ?_ rfl ?_; with_reducible assumption)

theorem State.startRows_eff {s : State}
    (hW : Sub 0x100007C0008 W) (h : Eff W s₀ s)  : Eff W s₀ (State.startRows s) := by
  unfold State.startRows
  repeat' first
    | with_reducible assumption
    | ((with_reducible refine Sub.trans ?_ hW); exact rfl)
    | ((with_reducible refine EffL.mk ?_); constructor <;> first | (intro _; with_reducible rfl) | exact fun e => hW.no rfl e)
    | (extract_lets +onlyGivenNames v; refine (fun (hv : Eff W s₀ v) => ?_) ?_; clear_value v; rotate_left; subst v)
    | (extract_lets +onlyGivenNames v; clear_value v)
    | with_reducible apply State.setFld_eff
    | (refine Eff.lit ?_ rfl ?_; with_reducible assumption)

theorem State.stopTicks_eff {s : State}
    (hW : Sub 0x101801F301800000009A W) (h : Eff W s₀ s)  : Eff W s₀ (State.stopTicks s) := by
  unfold State.stopTicks
  repeat' first
    | with_reducible assumption
    | ((with_reducible refine Sub.trans ?_ hW); exact rfl)
    | (extract_lets +onlyGivenNames v; refine (fun (hv : Eff W s₀ v) => ?_) ?_; clear_value v; rotate_left; subst v)
    | with_reducible apply State.updTick_eff
    | with_reducible apply State.applyHeld_eff
    | with_reducible apply State.setBit_eff

theorem State.startTick_eff {s : State} {e : Nat} {a : Nat}
    (hW : Sub 0x100C0200110083FC608C W) (h : Eff W s₀ s)  : Eff W s₀ (State.startTick s e a) := by
  unfold State.startTick
  repeat' first
    | with_reducible assumption
    | ((with_reducible refine Sub.trans ?_ hW); exact rfl)
    | ((with_reducible refine EffL.mk ?_); constructor <;> first | (intro _; with_reducible rfl) | exact fun e => hW.no rfl e)
    | (extract_lets +onlyGivenNames v; refine (fun (hv : Eff W s₀ v) => ?_) ?_; clear_value v; rotate_left; subst v)
    | (extract_lets +onlyGivenNames v; clear_value v)
    | (extract_lets +onlyGivenNames v; subst v)
    | with_reducible apply Eff.ite
    | with_reducible refine Eff.foldl _ (fun _ _ _ => ?_) ?_
    | with_reducible apply State.startRows_eff
    | with_reducible apply State.startKnots_eff
    | with_reducible apply State.startEngine_eff
    | with_reducible apply State.updTick_eff
    | with_reducible apply State.audioStart_eff
    | with_reducible apply State.audioEdge_eff
    | with_reducible apply State.emit_eff
    | with_reducible apply State.reach_eff
    | with_reducible apply State.setReg64_eff
    | with_reducible apply State.setBit_eff
    | with_reducible apply State.setFld_eff
    | (refine Eff.lit ?_ rfl ?_; with_reducible assumption)

theorem execTickEdge_eff {s : State}
    (hW : Sub 0x101C03F3118083FC609E W) (h : Eff W s₀ s)  : EffX W s₀ (execTickEdge s) := by
  unfold execTickEdge
  repeat' first
    | with_reducible assumption
    | ((with_reducible refine Sub.trans ?_ hW); exact rfl)
    | with_reducible apply EffX.of_next
    | with_reducible apply Eff.ite
    | with_reducible apply State.startTick_eff
    | with_reducible apply State.stopTicks_eff
    | with_reducible apply State.reach_eff
    | split

end Sys2Proof.Machine
end

