-- ==== Sys2Proof/Laws/EffAttention.lean ====
section
/-!
SUPPORT. Laws/EffAttention.lean: which fields of the state every operation of Machine/Attention.lean may change.
-/
namespace Sys2Proof.Machine

variable {W : Nat} {s₀ : State}

theorem State.lookUp_eff {s : State} {sc : Nat} {region : Nat} {slot : Nat}
    (hW : Sub 0x3800000000 W) (h : Eff W s₀ s)  : Eff W s₀ (State.lookUp s sc region slot) := by
  unfold State.lookUp
  repeat' first
    | ((with_reducible refine EffL.mk ?_); constructor <;> first | (intro _; with_reducible rfl) | exact fun e => hW.no rfl e)
    | (extract_lets +onlyGivenNames v; clear_value v)
    | with_reducible apply Eff.ite
    | (refine Eff.lit ?_ rfl ?_; with_reducible assumption)

theorem State.walk_eff {s : State} {n : Nat} {ch : Nat} {sc : Nat} {region : Nat} {slots : List Nat}
    (hW : Sub 0x3800000000 W) (h : Eff W s₀ s)  : Eff W s₀ (State.walk s n ch sc region slots) := by
  unfold State.walk
  repeat' first
    | with_reducible assumption
    | with_reducible apply Eff.ite
    | with_reducible refine Eff.foldl _ (fun _ _ _ => ?_) ?_
    | with_reducible apply State.lookUp_eff

theorem State.sensePages_eff {s : State} {e : Nat} {batch : Nat} {r : PagedRegion} {size : Nat} {extraBad : Nat} {qs : List Nat}
    (hW : Sub 0x100001F0014067301008 W) (h : Eff W s₀ s)  : Eff W s₀ (State.sensePages s e batch r size extraBad qs) := by
  unfold State.sensePages
  repeat' first
    | with_reducible assumption
    | ((with_reducible refine Sub.trans ?_ hW); exact rfl)
    | ((with_reducible refine EffL.mk ?_); constructor <;> first | (intro _; with_reducible rfl) | exact fun e => hW.no rfl e)
    | (extract_lets +onlyGivenNames v; refine (fun (hv : Eff W s₀ v) => ?_) ?_; clear_value v; rotate_left; subst v)
    | (extract_lets +onlyGivenNames v; clear_value v)
    | with_reducible apply Eff.ite
    | with_reducible refine Eff.foldl _ (fun _ _ _ => ?_) ?_
    | with_reducible apply State.reportAway_eff
    | with_reducible apply State.reportUnread_eff
    | with_reducible apply State.senseRange_eff
    | with_reducible refine Eff.snd (by with_reducible assumption) ?_
    | split
    | (refine Eff.lit ?_ rfl ?_; with_reducible assumption)

theorem State.fetchPages_eff {s : State} {n : Nat} {batch : Nat} {region : Nat} {a : AttnRow} {vals : Bool}
    (hW : Sub 0x100001F0017867301008 W) (h : Eff W s₀ s)  : Eff W s₀ (State.fetchPages s n batch region a vals) := by
  unfold State.fetchPages
  repeat' first
    | with_reducible assumption
    | ((with_reducible refine Sub.trans ?_ hW); exact rfl)
    | (extract_lets +onlyGivenNames v; refine (fun (hv : Eff W s₀ v) => ?_) ?_; clear_value v; rotate_left; subst v)
    | (extract_lets +onlyGivenNames v; clear_value v)
    | with_reducible apply Eff.ite
    | with_reducible apply State.sensePages_eff
    | with_reducible apply State.walk_eff

theorem State.countRow_eff {s : State} {e : Nat} {pads : Nat} {blocks : Nat}
    (hW : Sub 0x2000 W) (h : Eff W s₀ s)  : Eff W s₀ (State.countRow s e pads blocks) := by
  unfold State.countRow
  repeat' first
    | with_reducible assumption
    | with_reducible apply State.count_eff

theorem State.sattn_eff {s : State} {n : Nat} {f : TFields}
    (hW : Sub 0x100001F0017867B03008 W) (h : Eff W s₀ s)  : Eff W s₀ (State.sattn s n f) := by
  unfold State.sattn
  repeat' first
    | with_reducible assumption
    | ((with_reducible refine Sub.trans ?_ hW); exact rfl)
    | (extract_lets +onlyGivenNames v; refine (fun (hv : Eff W s₀ v) => ?_) ?_; clear_value v; rotate_left; subst v)
    | (extract_lets +onlyGivenNames v; clear_value v)
    | with_reducible apply Eff.ite
    | with_reducible refine Eff.foldlSnd _ (fun _ _ _ => ?_) ?_
    | with_reducible apply State.countRow_eff
    | with_reducible apply State.fetchPages_eff
    | with_reducible apply State.count_eff
    | with_reducible apply State.readOp_eff
    | with_reducible apply State.writeRows_eff
    | with_reducible apply State.t0Store_eff
    | split

theorem State.thresherCost_eff {s : State} {q : Nat} {blocks : Nat} {b : Nat} {t1 : Bool}
    (hW : Sub 0x2 W) (h : Eff W s₀ s)  : Eff W s₀ (State.thresherCost s q blocks b t1).2 := by
  unfold State.thresherCost
  repeat' first
    | with_reducible assumption
    | (extract_lets +onlyGivenNames v; clear_value v)
    | with_reducible apply Eff.iteSnd
    | with_reducible apply State.boundedCost_eff

theorem execSattn_eff {n : Fin 2} {f : TFields} {s : State}
    (hW : Sub 0x100001F0017A67B0708A W) (h : Eff W s₀ s)  : EffX W s₀ (execSattn n f s) := by
  unfold execSattn
  repeat' first
    | with_reducible assumption
    | ((with_reducible refine Sub.trans ?_ hW); exact rfl)
    | (extract_lets +onlyGivenNames v; clear_value v)
    | with_reducible apply EffX.of_next
    | with_reducible apply Eff.ite
    | with_reducible apply State.thresherCost_eff
    | with_reducible apply State.sattn_eff
    | with_reducible refine State.runFor_eff ?_ ?_ (fun _ _ => ?_)

theorem State.sumsc_eff {s : State} {n : Nat} {f : TFields}
    (hW : Sub 0x100001F0010067B03008 W) (h : Eff W s₀ s)  : Eff W s₀ (State.sumsc s n f) := by
  unfold State.sumsc
  repeat' first
    | with_reducible assumption
    | ((with_reducible refine Sub.trans ?_ hW); exact rfl)
    | (extract_lets +onlyGivenNames v; refine (fun (hv : Eff W s₀ v) => ?_) ?_; clear_value v; rotate_left; subst v)
    | (extract_lets +onlyGivenNames v; clear_value v)
    | with_reducible apply Eff.ite
    | with_reducible refine Eff.foldlSnd _ (fun _ _ _ => ?_) ?_
    | with_reducible apply State.countRow_eff
    | with_reducible apply State.readOp_eff
    | with_reducible apply State.writeRows_eff
    | with_reducible apply State.reportUnread_eff
    | with_reducible apply State.senseRange_eff
    | with_reducible refine Eff.snd (by with_reducible assumption) ?_
    | split

theorem execSumsc_eff {n : Fin 2} {f : TFields} {s : State}
    (hW : Sub 0x100001F0010267B0708A W) (h : Eff W s₀ s)  : EffX W s₀ (execSumsc n f s) := by
  unfold execSumsc
  repeat' first
    | with_reducible assumption
    | ((with_reducible refine Sub.trans ?_ hW); exact rfl)
    | (extract_lets +onlyGivenNames v; clear_value v)
    | with_reducible apply EffX.of_next
    | with_reducible apply Eff.ite
    | with_reducible apply State.sumsc_eff
    | with_reducible apply State.thresherCost_eff
    | with_reducible refine State.runFor_eff ?_ ?_ (fun _ _ => ?_)

theorem State.sprob_eff {s : State} {n : Nat} {f : TFields}
    (hW : Sub 0x100001F0017867B0300A W) (h : Eff W s₀ s)  : Eff W s₀ (State.sprob s n f) := by
  unfold State.sprob
  repeat' first
    | with_reducible assumption
    | ((with_reducible refine Sub.trans ?_ hW); exact rfl)
    | (extract_lets +onlyGivenNames v; refine (fun (hv : Eff W s₀ v) => ?_) ?_; clear_value v; rotate_left; subst v)
    | (extract_lets +onlyGivenNames v; clear_value v)
    | with_reducible apply Eff.ite
    | with_reducible refine Eff.foldlSnd _ (fun _ _ _ => ?_) ?_
    | with_reducible apply State.countRow_eff
    | with_reducible apply State.fetchPages_eff
    | with_reducible apply State.count_eff
    | with_reducible apply State.readOp_eff
    | with_reducible apply State.writeRows_eff
    | with_reducible apply State.reportUnread_eff
    | with_reducible apply State.senseRange_eff
    | with_reducible apply State.draw_eff
    | dsimp -zeta only
    | with_reducible refine Eff.snd (by with_reducible assumption) ?_
    | split

theorem execSprob_eff {n : Fin 2} {f : TFields} {s : State}
    (hW : Sub 0x100001F0017A67B0708A W) (h : Eff W s₀ s)  : EffX W s₀ (execSprob n f s) := by
  unfold execSprob
  repeat' first
    | with_reducible assumption
    | ((with_reducible refine Sub.trans ?_ hW); exact rfl)
    | (extract_lets +onlyGivenNames v; clear_value v)
    | with_reducible apply EffX.of_next
    | with_reducible apply Eff.ite
    | with_reducible apply State.sprob_eff
    | with_reducible apply State.thresherCost_eff
    | with_reducible refine State.runFor_eff ?_ ?_ (fun _ _ => ?_)

theorem State.fattn_eff {s : State} {n : Nat} {f : TFields}
    (hW : Sub 0x100001F0010067B33008 W) (h : Eff W s₀ s)  : Eff W s₀ (State.fattn s n f) := by
  unfold State.fattn
  repeat' first
    | with_reducible assumption
    | ((with_reducible refine Sub.trans ?_ hW); exact rfl)
    | ((with_reducible refine EffL.mk ?_); constructor <;> first | (intro _; with_reducible rfl) | exact fun e => hW.no rfl e)
    | (extract_lets +onlyGivenNames v; refine (fun (hv : Eff W s₀ v) => ?_) ?_; clear_value v; rotate_left; subst v)
    | (extract_lets +onlyGivenNames v; clear_value v)
    | with_reducible apply Eff.iteSnd
    | with_reducible refine Eff.foldl _ (fun _ _ _ => ?_) ?_
    | with_reducible apply State.setBank_eff
    | with_reducible apply State.count_eff
    | with_reducible apply State.readOp_eff
    | with_reducible apply State.writeRows_eff
    | (refine Eff.lit ?_ rfl ?_; with_reducible assumption)

theorem execFattn_eff {n : Fin 16} {f : TFields} {s : State}
    (hW : Sub 0x100001F0010267B37088 W) (h : Eff W s₀ s)  : EffX W s₀ (execFattn n f s) := by
  unfold execFattn
  repeat' first
    | with_reducible assumption
    | ((with_reducible refine Sub.trans ?_ hW); exact rfl)
    | (extract_lets +onlyGivenNames v; clear_value v)
    | with_reducible apply EffX.of_next
    | with_reducible apply State.fattn_eff
    | with_reducible refine State.runWord_eff ?_ ?_ (fun _ _ => ?_)

end Sys2Proof.Machine
end

