-- ==== Sys2Proof/Laws/EffDomain.lean ====
section
/-!
SUPPORT. Laws/EffDomain.lean: which fields of the state every operation of Machine/Domain.lean may change.
-/
namespace Sys2Proof.Machine

variable {W : Nat} {s₀ : State}

theorem State.updAon_eff {s : State} {f : AonState → AonState}
    (hW : Sub 0x200000000000000000 W) (h : Eff W s₀ s)  : Eff W s₀ (State.updAon s f) := by
  unfold State.updAon
  repeat' first
    | ((with_reducible refine EffL.mk ?_); constructor <;> first | (intro _; with_reducible rfl) | exact fun e => hW.no rfl e)
    | (refine Eff.lit ?_ rfl ?_; with_reducible assumption)

theorem State.showStore_eff {s : State}
    (hW : Sub 0x8 W) (h : Eff W s₀ s)  : Eff W s₀ (State.showStore s) := by
  unfold State.showStore
  repeat' first
    | with_reducible assumption
    | (extract_lets +onlyGivenNames v; refine (fun (hv : Eff W s₀ v) => ?_) ?_; clear_value v; rotate_left; subst v)
    | (extract_lets +onlyGivenNames v; clear_value v)
    | with_reducible refine Eff.foldl _ (fun _ _ _ => ?_) ?_
    | with_reducible apply State.setRegs_eff
    | with_reducible apply State.setReg64_eff

theorem State.putStore_eff {s : State} {d : StoreData}
    (hW : Sub 0x200000000000000008 W) (h : Eff W s₀ s)  : Eff W s₀ (State.putStore s d) := by
  unfold State.putStore
  repeat' first
    | with_reducible assumption
    | ((with_reducible refine Sub.trans ?_ hW); exact rfl)
    | (extract_lets +onlyGivenNames v; clear_value v)
    | with_reducible apply State.showStore_eff
    | with_reducible apply State.updAon_eff

theorem State.journal_eff {s : State} {code : Nat} {arg1 : Nat} {arg2 : Nat} {detail : Nat}
    (hW : Sub 0x200000000000000008 W) (h : Eff W s₀ s)  : Eff W s₀ (State.journal s code arg1 arg2 detail) := by
  unfold State.journal
  repeat' first
    | with_reducible assumption
    | (extract_lets +onlyGivenNames v; clear_value v)
    | with_reducible apply Eff.ite
    | with_reducible apply State.putStore_eff

theorem State.flashErase_eff {s : State} {off : Nat} {n : Nat}
    (hW : Sub 0x400000000000000000 W) (h : Eff W s₀ s)  : Eff W s₀ (State.flashErase s off n) := by
  unfold State.flashErase
  repeat' first
    | ((with_reducible refine EffL.mk ?_); constructor <;> first | (intro _; with_reducible rfl) | exact fun e => hW.no rfl e)
    | (extract_lets +onlyGivenNames v; have hp := v.flash; clear hp; subst v)
    | (refine Eff.lit ?_ rfl ?_; with_reducible assumption)

theorem State.flashWrite_eff {s : State} {off : Nat} {bs : List Byte}
    (hW : Sub 0x400000000000000000 W) (h : Eff W s₀ s)  : Eff W s₀ (State.flashWrite s off bs) := by
  unfold State.flashWrite
  repeat' first
    | ((with_reducible refine EffL.mk ?_); constructor <;> first | (intro _; with_reducible rfl) | exact fun e => hW.no rfl e)
    | (extract_lets +onlyGivenNames v; have hp := v.flash; clear hp; subst v)
    | (refine Eff.lit ?_ rfl ?_; with_reducible assumption)

theorem State.raiseFloor_eff {s : State}
    (hW : Sub 0x600000000000000008 W) (h : Eff W s₀ s)  : Eff W s₀ (State.raiseFloor s) := by
  unfold State.raiseFloor
  repeat' first
    | with_reducible assumption
    | ((with_reducible refine Sub.trans ?_ hW); exact rfl)
    | (extract_lets +onlyGivenNames v; clear_value v)
    | with_reducible apply State.flashWrite_eff
    | with_reducible apply State.flashErase_eff
    | with_reducible apply State.journal_eff

theorem State.advanceCounter_eff {s : State}
    (hW : Sub 0x600000000000000008 W) (h : Eff W s₀ s)  : Eff W s₀ (State.advanceCounter s) := by
  unfold State.advanceCounter
  repeat' first
    | with_reducible assumption
    | ((with_reducible refine Sub.trans ?_ hW); exact rfl)
    | (extract_lets +onlyGivenNames v; refine (fun (hv : Eff W s₀ v) => ?_) ?_; clear_value v; rotate_left; subst v)
    | (extract_lets +onlyGivenNames v; clear_value v)
    | (extract_lets +onlyGivenNames v; subst v)
    | with_reducible apply Eff.ite
    | with_reducible apply State.raiseFloor_eff
    | with_reducible apply State.putStore_eff
    | with_reducible apply State.setFld_eff
    | with_reducible apply State.setReg_eff

theorem State.mainReset_eff {s : State} (hW : Sub 0xDDFFFFFFFFE7FFFFFF8 W) (h : Eff W s₀ s) : Eff W s₀ s.mainReset := by
  unfold State.mainReset
  refine State.setFld_eff (Sub.trans rfl hW) (State.setFld_eff (Sub.trans rfl hW) (h.trans ?_))
  constructor <;> first | (intro _; with_reducible rfl) | exact fun e => hW.no rfl e


theorem State.enterOff_eff {s : State}
    (hW : Sub 0xFFFFFFFFFFE7FFFFFF8 W) (h : Eff W s₀ s)  : Eff W s₀ (State.enterOff s) := by
  unfold State.enterOff
  repeat' first
    | with_reducible assumption
    | ((with_reducible refine Sub.trans ?_ hW); exact rfl)
    | ((with_reducible refine EffL.mk ?_); constructor <;> first | (intro _; with_reducible rfl) | exact fun e => hW.no rfl e)
    | (extract_lets +onlyGivenNames v; refine (fun (hv : Eff W s₀ v) => ?_) ?_; clear_value v; rotate_left; subst v)
    | with_reducible apply State.mainReset_eff
    | with_reducible apply State.updAon_eff
    | (refine Eff.lit ?_ rfl ?_; with_reducible assumption)

theorem State.setLastOff_eff {s : State} {code : Nat}
    (hW : Sub 0x8 W) (h : Eff W s₀ s)  : Eff W s₀ (State.setLastOff s code) := by
  unfold State.setLastOff
  repeat' first
    | with_reducible assumption
    | with_reducible apply State.setFld_eff

theorem State.interruptUpdate_eff {s : State}
    (hW : Sub 0x10400000000000000008 W) (h : Eff W s₀ s)  : Eff W s₀ (State.interruptUpdate s) := by
  unfold State.interruptUpdate
  repeat' first
    | with_reducible assumption
    | ((with_reducible refine Sub.trans ?_ hW); exact rfl)
    | ((with_reducible refine EffL.mk ?_); constructor <;> first | (intro _; with_reducible rfl) | exact fun e => hW.no rfl e)
    | (extract_lets +onlyGivenNames v; refine (fun (hv : Eff W s₀ v) => ?_) ?_; clear_value v; rotate_left; subst v)
    | (extract_lets +onlyGivenNames v; have hp := v.flash; clear hp; subst v)
    | with_reducible apply Eff.ite
    | with_reducible apply State.raise_eff
    | with_reducible apply State.setBit_eff
    | with_reducible apply State.setFld_eff
    | (refine Eff.lit ?_ rfl ?_; with_reducible assumption)

theorem State.stopAllMoves_eff {s : State}
    (hW : Sub 0x200000008 W) (h : Eff W s₀ s)  : Eff W s₀ (State.stopAllMoves s) := by
  unfold State.stopAllMoves
  repeat' first
    | with_reducible assumption
    | ((with_reducible refine Sub.trans ?_ hW); exact rfl)
    | ((with_reducible refine EffL.mk ?_); constructor <;> first | (intro _; with_reducible rfl) | exact fun e => hW.no rfl e)
    | (extract_lets +onlyGivenNames v; refine (fun (hv : Eff W s₀ v) => ?_) ?_; clear_value v; rotate_left; subst v)
    | (extract_lets +onlyGivenNames v; clear_value v)
    | with_reducible refine Eff.foldl _ (fun _ _ _ => ?_) ?_
    | with_reducible apply State.showMove_eff
    | (refine Eff.lit ?_ rfl ?_; with_reducible assumption)

theorem State.stopWork_eff {s : State}
    (hW : Sub 0x2088 W) (h : Eff W s₀ s)  : Eff W s₀ (State.stopWork s) := by
  unfold State.stopWork
  repeat' first
    | with_reducible assumption
    | ((with_reducible refine Sub.trans ?_ hW); exact rfl)
    | ((with_reducible refine EffL.mk ?_); constructor <;> first | (intro _; with_reducible rfl) | exact fun e => hW.no rfl e)
    | (extract_lets +onlyGivenNames v; refine (fun (hv : Eff W s₀ v) => ?_) ?_; clear_value v; rotate_left; subst v)
    | (extract_lets +onlyGivenNames v; clear_value v)
    | with_reducible apply Eff.ite
    | with_reducible refine Eff.foldl _ (fun _ _ _ => ?_) ?_
    | with_reducible apply State.setBusy_eff
    | with_reducible apply State.updEng_eff
    | with_reducible apply State.setBit_eff
    | (refine Eff.lit ?_ rfl ?_; with_reducible assumption)

theorem State.sendLeave_eff {s : State}
    (hW : Sub 0x10000200000000000008 W) (h : Eff W s₀ s)  : Eff W s₀ (State.sendLeave s) := by
  unfold State.sendLeave
  repeat' first
    | with_reducible assumption
    | with_reducible apply Eff.ite
    | with_reducible refine Eff.foldl _ (fun _ _ _ => ?_) ?_
    | with_reducible apply State.peerMsg_eff

theorem State.powerDown_eff {s : State} {code : Nat} {arg1 : Nat} {arg2 : Nat}
    (hW : Sub 0x10680200000200002088 W) (h : Eff W s₀ s)  : Eff W s₀ (State.powerDown s code arg1 arg2) := by
  unfold State.powerDown
  repeat' first
    | with_reducible assumption
    | ((with_reducible refine Sub.trans ?_ hW); exact rfl)
    | (extract_lets +onlyGivenNames v; refine (fun (hv : Eff W s₀ v) => ?_) ?_; clear_value v; rotate_left; subst v)
    | with_reducible apply State.sendLeave_eff
    | with_reducible apply State.stopWork_eff
    | with_reducible apply State.stopAllMoves_eff
    | with_reducible apply State.interruptUpdate_eff
    | with_reducible apply State.journal_eff
    | with_reducible apply State.updAon_eff
    | with_reducible apply State.beginRamp_eff

theorem State.thermalTrip_eff {s : State} {sensor : Nat} {reading : Nat}
    (hW : Sub 0x10680200000200002088 W) (h : Eff W s₀ s)  : Eff W s₀ (State.thermalTrip s sensor reading) := by
  unfold State.thermalTrip
  repeat' first
    | with_reducible assumption
    | ((with_reducible refine Sub.trans ?_ hW); exact rfl)
    | (extract_lets +onlyGivenNames v; refine (fun (hv : Eff W s₀ v) => ?_) ?_; clear_value v; rotate_left; subst v)
    | with_reducible apply Eff.ite
    | with_reducible apply State.powerDown_eff
    | with_reducible apply State.updAon_eff
    | with_reducible apply State.raise_eff
    | split

theorem execPowerdownOff_eff {s : State}
    (hW : Sub 0xFFFFFFFFFFE7FFFFFFC W) (h : Eff W s₀ s)  : EffX W s₀ (execPowerdownOff s) := by
  unfold execPowerdownOff
  repeat' first
    | with_reducible assumption
    | ((with_reducible refine Sub.trans ?_ hW); exact rfl)
    | (extract_lets +onlyGivenNames v; refine (fun (hv : Eff W s₀ v) => ?_) ?_; clear_value v; rotate_left; subst v)
    | (extract_lets +onlyGivenNames v; clear_value v)
    | with_reducible apply EffX.of_next
    | with_reducible apply Eff.ite
    | with_reducible apply State.setLastOff_eff
    | with_reducible apply State.enterOff_eff
    | with_reducible apply State.putStore_eff
    | with_reducible apply State.reach_eff

theorem State.supplyLost_eff {s : State} {what : Nat}
    (hW : Sub 0xFFFFFFFFFFE7FFFFFF8 W) (h : Eff W s₀ s)  : Eff W s₀ (State.supplyLost s what) := by
  unfold State.supplyLost
  repeat' first
    | with_reducible assumption
    | ((with_reducible refine Sub.trans ?_ hW); exact rfl)
    | with_reducible apply Eff.ite
    | with_reducible apply State.setLastOff_eff
    | with_reducible apply State.enterOff_eff
    | with_reducible apply State.journal_eff

theorem execSupplyLoss_eff {aonToo : Bool} {s : State}
    (hW : Sub 0xFFFFFFFFFFE7FFFFFF8 W) (h : Eff W s₀ s)  : EffX W s₀ (execSupplyLoss aonToo s) := by
  unfold execSupplyLoss
  repeat' first
    | with_reducible assumption
    | ((with_reducible refine Sub.trans ?_ hW); exact rfl)
    | (extract_lets +onlyGivenNames v; refine (fun (hv : Eff W s₀ v) => ?_) ?_; clear_value v; rotate_left; subst v)
    | with_reducible apply EffX.of_next
    | with_reducible apply Eff.ite
    | with_reducible apply State.supplyLost_eff
    | with_reducible apply State.updAon_eff
    | with_reducible apply State.setBit_eff

theorem execOnReqChange_eff {level : Bool} {s : State}
    (hW : Sub 0x1FFFFFFFFFFE7FFFFFF8 W) (h : Eff W s₀ s)  : EffX W s₀ (execOnReqChange level s) := by
  unfold execOnReqChange
  repeat' first
    | with_reducible assumption
    | ((with_reducible refine Sub.trans ?_ hW); exact rfl)
    | (extract_lets +onlyGivenNames v; refine (fun (hv : Eff W s₀ v) => ?_) ?_; clear_value v; rotate_left; subst v)
    | with_reducible apply EffX.of_next
    | with_reducible apply Eff.ite
    | with_reducible apply State.powerDown_eff
    | with_reducible apply State.enterOff_eff
    | with_reducible apply State.updAon_eff
    | with_reducible apply State.setBit_eff
    | split

theorem execPowerupStart_eff {s : State}
    (hW : Sub 0x20000000000000000C W) (h : Eff W s₀ s)  : EffX W s₀ (execPowerupStart s) := by
  unfold execPowerupStart
  repeat' first
    | with_reducible assumption
    | ((with_reducible refine Sub.trans ?_ hW); exact rfl)
    | (extract_lets +onlyGivenNames v; refine (fun (hv : Eff W s₀ v) => ?_) ?_; clear_value v; rotate_left; subst v)
    | with_reducible apply EffX.of_next
    | with_reducible apply Eff.ite
    | with_reducible apply State.updAon_eff
    | with_reducible apply State.reach_eff
    | with_reducible apply State.setBit_eff

theorem State.showCore_eff {s : State} {c : Nat} {run : Bool} {restarting : Bool}
    (hW : Sub 0x8 W) (h : Eff W s₀ s)  : Eff W s₀ (State.showCore s c run restarting) := by
  unfold State.showCore
  repeat' first
    | with_reducible assumption
    | (extract_lets +onlyGivenNames v; clear_value v)
    | with_reducible apply State.setBit_eff

theorem State.release_eff {s : State} {pins : BootPins}
    (hW : Sub 0xDFFFFFFFFFE7FFFFFF8 W) (h : Eff W s₀ s)  : Eff W s₀ (State.release s pins) := by
  unfold State.release
  repeat' first
    | with_reducible assumption
    | ((with_reducible refine Sub.trans ?_ hW); exact rfl)
    | (extract_lets +onlyGivenNames v; refine (fun (hv : Eff W s₀ v) => ?_) ?_; clear_value v; rotate_left; subst v)
    | with_reducible apply State.showCore_eff
    | with_reducible apply State.mainReset_eff
    | with_reducible apply State.advanceCounter_eff
    | with_reducible apply State.journal_eff
    | with_reducible apply State.updAon_eff
    | with_reducible apply State.setFld_eff

theorem execReleaseStep_eff {pins : BootPins} {s : State}
    (hW : Sub 0xDFFFFFFFFFE7FFFFFFC W) (h : Eff W s₀ s)  : EffX W s₀ (execReleaseStep pins s) := by
  unfold execReleaseStep
  repeat' first
    | with_reducible assumption
    | ((with_reducible refine Sub.trans ?_ hW); exact rfl)
    | with_reducible apply EffX.of_next
    | with_reducible apply Eff.ite
    | with_reducible apply State.release_eff
    | with_reducible apply State.reach_eff

theorem State.systemReset_eff {s : State} {why : Nat}
    (hW : Sub 0xDFFFFFFFFFE7FFFFFF8 W) (h : Eff W s₀ s)  : Eff W s₀ (State.systemReset s why) := by
  unfold State.systemReset
  repeat' first
    | with_reducible assumption
    | ((with_reducible refine Sub.trans ?_ hW); exact rfl)
    | with_reducible apply Eff.ite
    | with_reducible apply State.mainReset_eff
    | with_reducible apply State.journal_eff
    | with_reducible apply State.updAon_eff

theorem execSystemReset_eff {why : SysResetCause} {s : State}
    (hW : Sub 0xDFFFFFFFFFE7FFFFFF8 W) (h : Eff W s₀ s)  : EffX W s₀ (execSystemReset why s) := by
  unfold execSystemReset
  repeat' first
    | with_reducible assumption
    | with_reducible apply EffX.of_next
    | with_reducible apply State.systemReset_eff

theorem execResetNAssert_eff {s : State}
    (hW : Sub 0xDFFFFFFFFFE7FFFFFF8 W) (h : Eff W s₀ s)  : EffX W s₀ (execResetNAssert s) := by
  unfold execResetNAssert
  repeat' first
    | with_reducible assumption
    | ((with_reducible refine Sub.trans ?_ hW); exact rfl)
    | with_reducible apply EffX.of_next
    | with_reducible apply Eff.ite
    | with_reducible apply State.systemReset_eff
    | with_reducible apply State.updAon_eff

theorem State.showCap_eff {s : State}
    (hW : Sub 0x8 W) (h : Eff W s₀ s)  : Eff W s₀ (State.showCap s) := by
  unfold State.showCap
  repeat' first
    | with_reducible assumption
    | (extract_lets +onlyGivenNames v; clear_value v)
    | with_reducible apply State.setFld_eff

theorem State.coreAway_eff {s : State} {c : Nat}
    (hW : Sub 0x100801F0080000000008 W) (h : Eff W s₀ s)  : Eff W s₀ (State.coreAway s c) := by
  unfold State.coreAway
  repeat' first
    | with_reducible assumption
    | ((with_reducible refine Sub.trans ?_ hW); exact rfl)
    | ((with_reducible refine EffL.mk ?_); constructor <;> first | (intro _; with_reducible rfl) | exact fun e => hW.no rfl e)
    | (extract_lets +onlyGivenNames v; refine (fun (hv : Eff W s₀ v) => ?_) ?_; clear_value v; rotate_left; subst v)
    | with_reducible apply Eff.ite
    | with_reducible apply State.showCap_eff
    | with_reducible apply State.showCore_eff
    | with_reducible apply State.beginRamp_eff
    | with_reducible apply State.logError_eff
    | with_reducible apply State.addSat_eff
    | with_reducible apply State.setBit_eff
    | (refine Eff.lit ?_ rfl ?_; with_reducible assumption)

theorem State.firmwareReset_eff {s : State} {why : Nat} {core : Nat}
    (hW : Sub 0x1DFFFFFFFFFE7FFFFFF8 W) (h : Eff W s₀ s)  : Eff W s₀ (State.firmwareReset s why core) := by
  unfold State.firmwareReset
  repeat' first
    | with_reducible assumption
    | ((with_reducible refine Sub.trans ?_ hW); exact rfl)
    | ((with_reducible refine EffL.mk ?_); constructor <;> first | (intro _; with_reducible rfl) | exact fun e => hW.no rfl e)
    | (extract_lets +onlyGivenNames v; refine (fun (hv : Eff W s₀ v) => ?_) ?_; clear_value v; rotate_left; subst v)
    | with_reducible apply Eff.ite
    | with_reducible refine Eff.foldl _ (fun _ _ _ => ?_) ?_
    | with_reducible apply State.coreAway_eff
    | with_reducible apply State.systemReset_eff
    | with_reducible apply State.interruptUpdate_eff
    | with_reducible apply State.advanceCounter_eff
    | with_reducible apply State.journal_eff
    | (refine Eff.lit ?_ rfl ?_; with_reducible assumption)

theorem execControlCoreRestart_eff {core : Fin 6} {s : State}
    (hW : Sub 0x1DFFFFFFFFFE7FFFFFF8 W) (h : Eff W s₀ s)  : EffX W s₀ (execControlCoreRestart core s) := by
  unfold execControlCoreRestart
  repeat' first
    | with_reducible assumption
    | ((with_reducible refine Sub.trans ?_ hW); exact rfl)
    | ((with_reducible refine EffL.mk ?_); constructor <;> first | (intro _; with_reducible rfl) | exact fun e => hW.no rfl e)
    | with_reducible apply EffX.of_next
    | with_reducible apply Eff.ite
    | with_reducible apply State.firmwareReset_eff
    | with_reducible apply State.coreAway_eff
    | (refine Eff.lit ?_ rfl ?_; with_reducible assumption)

theorem execCc3ReleaseOverrun_eff {s : State}
    (hW : Sub 0x1DFFFFFFFFFE7FFFFFF8 W) (h : Eff W s₀ s)  : EffX W s₀ (execCc3ReleaseOverrun s) := by
  unfold execCc3ReleaseOverrun
  repeat' first
    | with_reducible assumption
    | with_reducible apply EffX.of_next
    | with_reducible apply Eff.ite
    | with_reducible apply State.firmwareReset_eff

theorem execFirmwareReset_eff {why : FwResetCause} {s : State}
    (hW : Sub 0x1DFFFFFFFFFE7FFFFFF8 W) (h : Eff W s₀ s)  : EffX W s₀ (execFirmwareReset why s) := by
  unfold execFirmwareReset
  repeat' first
    | with_reducible assumption
    | with_reducible apply EffX.of_next
    | with_reducible apply State.firmwareReset_eff

theorem State.endWaiting_eff {s : State}
    (hW : Sub 0x100000000000 W) (h : Eff W s₀ s)  : Eff W s₀ (State.endWaiting s) := by
  unfold State.endWaiting
  repeat' first
    | with_reducible assumption
    | with_reducible refine Eff.foldl _ (fun _ _ _ => ?_) ?_
    | with_reducible apply State.settle_eff

theorem execAonToKeep_eff {keepMv : Nat} {s : State}
    (hW : Sub 0xFFFFFFFFFFE7FFFFFF8 W) (h : Eff W s₀ s)  : EffX W s₀ (execAonToKeep keepMv s) := by
  unfold execAonToKeep
  repeat' first
    | with_reducible assumption
    | ((with_reducible refine Sub.trans ?_ hW); exact rfl)
    | (extract_lets +onlyGivenNames v; refine (fun (hv : Eff W s₀ v) => ?_) ?_; clear_value v; rotate_left; subst v)
    | with_reducible apply EffX.of_next
    | with_reducible apply Eff.ite
    | with_reducible apply State.supplyLost_eff
    | with_reducible apply State.journal_eff
    | with_reducible apply State.updAon_eff
    | with_reducible apply State.setBit_eff

theorem execRetentionSentinelSet_eff {s : State}
    (hW : Sub 0x200000000000000000 W) (h : Eff W s₀ s)  : EffX W s₀ (execRetentionSentinelSet s) := by
  unfold execRetentionSentinelSet
  repeat' first
    | with_reducible assumption
    | with_reducible apply EffX.of_next
    | with_reducible apply Eff.ite
    | with_reducible apply State.updAon_eff

theorem State.keepStore_eff {s : State}
    (hW : Sub 0x20000000000000000A W) (h : Eff W s₀ s)  : Eff W s₀ (State.keepStore s) := by
  unfold State.keepStore
  repeat' first
    | with_reducible assumption
    | ((with_reducible refine Sub.trans ?_ hW); exact rfl)
    | with_reducible apply Eff.ite
    | with_reducible apply Eff.iteSnd
    | with_reducible apply State.journal_eff
    | with_reducible apply State.showStore_eff
    | with_reducible apply State.updAon_eff
    | with_reducible apply State.draw_eff
    | with_reducible apply State.setBit_eff

theorem State.dropStore_eff {s : State} {why : Nat}
    (hW : Sub 0x200000000000000008 W) (h : Eff W s₀ s)  : Eff W s₀ (State.dropStore s why) := by
  unfold State.dropStore
  repeat' first
    | with_reducible assumption
    | ((with_reducible refine Sub.trans ?_ hW); exact rfl)
    | (extract_lets +onlyGivenNames v; refine (fun (hv : Eff W s₀ v) => ?_) ?_; clear_value v; rotate_left; subst v)
    | with_reducible apply State.setLastOff_eff
    | with_reducible apply State.journal_eff
    | with_reducible apply State.updAon_eff
    | with_reducible apply State.setBit_eff

theorem execAonStart_eff {s : State}
    (hW : Sub 0xFFFFFFFFFFE7FFFFFFA W) (h : Eff W s₀ s)  : EffX W s₀ (execAonStart s) := by
  unfold execAonStart
  repeat' first
    | with_reducible assumption
    | ((with_reducible refine Sub.trans ?_ hW); exact rfl)
    | (extract_lets +onlyGivenNames v; refine (fun (hv : Eff W s₀ v) => ?_) ?_; clear_value v; rotate_left; subst v)
    | with_reducible apply EffX.of_next
    | with_reducible apply Eff.ite
    | with_reducible apply State.dropStore_eff
    | with_reducible apply State.keepStore_eff
    | with_reducible apply State.enterOff_eff
    | with_reducible apply State.updAon_eff

theorem State.updKeep_eff {s : State} {f : KeepState → KeepState}
    (hW : Sub 0x200000000000000000 W) (h : Eff W s₀ s)  : Eff W s₀ (State.updKeep s f) := by
  unfold State.updKeep
  repeat' first
    | with_reducible assumption
    | with_reducible apply State.updAon_eff

theorem State.keepStop_eff {s : State}
    (hW : Sub 0x200000000000000008 W) (h : Eff W s₀ s)  : Eff W s₀ (State.keepStop s) := by
  unfold State.keepStop
  repeat' first
    | with_reducible assumption
    | ((with_reducible refine Sub.trans ?_ hW); exact rfl)
    | with_reducible apply State.updKeep_eff
    | with_reducible apply State.setBit_eff

theorem State.keepRemoved_eff {s : State} {detail : Nat}
    (hW : Sub 0x200000000000000008 W) (h : Eff W s₀ s)  : Eff W s₀ (State.keepRemoved s detail) := by
  unfold State.keepRemoved
  repeat' first
    | with_reducible assumption
    | ((with_reducible refine Sub.trans ?_ hW); exact rfl)
    | (extract_lets +onlyGivenNames v; refine (fun (hv : Eff W s₀ v) => ?_) ?_; clear_value v; rotate_left; subst v)
    | with_reducible apply State.keepStop_eff
    | with_reducible apply State.updKeep_eff
    | with_reducible apply State.journal_eff
    | with_reducible apply State.setBit_eff

theorem State.twoVolts_eff {s : State} {a : Nat} {b : Nat}
    (hW : Sub 0x2 W) (h : Eff W s₀ s)  : Eff W s₀ (State.twoVolts s a b).2 := by
  unfold State.twoVolts
  repeat' first
    | with_reducible assumption
    | with_reducible apply State.draw_eff

theorem State.keepCharge_eff {s : State} {mv : Nat} {i : Int}
    (hW : Sub 0x20000000000000000A W) (h : Eff W s₀ s)  : Eff W s₀ (State.keepCharge s mv i) := by
  unfold State.keepCharge
  repeat' first
    | with_reducible assumption
    | ((with_reducible refine Sub.trans ?_ hW); exact rfl)
    | (extract_lets +onlyGivenNames v; refine (fun (hv : Eff W s₀ v) => ?_) ?_; clear_value v; rotate_left; subst v)
    | (extract_lets +onlyGivenNames v; clear_value v)
    | with_reducible apply Eff.ite
    | with_reducible apply State.twoVolts_eff
    | with_reducible apply State.keepRemoved_eff
    | with_reducible apply State.keepStop_eff
    | with_reducible apply State.updKeep_eff
    | with_reducible apply State.journal_eff
    | with_reducible apply State.setBit_eff

theorem execKeepSample_eff {mv : Nat} {current : Int} {s : State}
    (hW : Sub 0x20000000000000000A W) (h : Eff W s₀ s)  : EffX W s₀ (execKeepSample mv current s) := by
  unfold execKeepSample
  repeat' first
    | with_reducible assumption
    | ((with_reducible refine Sub.trans ?_ hW); exact rfl)
    | (extract_lets +onlyGivenNames v; refine (fun (hv : Eff W s₀ v) => ?_) ?_; clear_value v; rotate_left; subst v)
    | with_reducible apply EffX.of_next
    | with_reducible apply Eff.ite
    | with_reducible apply State.keepCharge_eff
    | with_reducible apply State.keepStop_eff
    | with_reducible apply State.setFld_eff

theorem execPresenceProbe_eff {mv : Nat} {s : State}
    (hW : Sub 0x20000000000000000A W) (h : Eff W s₀ s)  : EffX W s₀ (execPresenceProbe mv s) := by
  unfold execPresenceProbe
  repeat' first
    | with_reducible assumption
    | ((with_reducible refine Sub.trans ?_ hW); exact rfl)
    | (extract_lets +onlyGivenNames v; refine (fun (hv : Eff W s₀ v) => ?_) ?_; clear_value v; rotate_left; subst v)
    | (extract_lets +onlyGivenNames v; clear_value v)
    | with_reducible apply EffX.of_next
    | with_reducible apply Eff.ite
    | with_reducible apply State.keepRemoved_eff
    | with_reducible apply State.updKeep_eff
    | with_reducible apply State.journal_eff
    | with_reducible apply State.draw_eff
    | with_reducible apply State.setBit_eff

theorem State.keepWritten_eff {s : State} {was : State}
    (hW : Sub 0x200000000000000008 W) (h : Eff W s₀ s) (h2 : Eff W s₀ was) : Eff W s₀ (State.keepWritten s was) := by
  unfold State.keepWritten
  repeat' first
    | with_reducible assumption
    | ((with_reducible refine Sub.trans ?_ hW); exact rfl)
    | (extract_lets +onlyGivenNames v; refine (fun (hv : Eff W s₀ v) => ?_) ?_; clear_value v; rotate_left; subst v)
    | (extract_lets +onlyGivenNames v; clear_value v)
    | with_reducible apply Eff.ite
    | with_reducible apply State.keepStop_eff
    | with_reducible apply State.updKeep_eff
    | with_reducible apply State.setBit_eff

end Sys2Proof.Machine
end

