-- ==== Sys2Proof/Laws/EffRegs.lean ====
section
/-!
SUPPORT. Laws/EffRegs.lean: which fields of the state every operation of Machine/Regs.lean may change.
-/
namespace Sys2Proof.Machine

variable {W : Nat} {s₀ : State}

theorem State.holdRwt_eff {s : State} {off : Nat} {m : Word} {v : Word}
    (hW : Sub 0x10 W) (h : Eff W s₀ s)  : Eff W s₀ (State.holdRwt s off m v) := by
  unfold State.holdRwt
  repeat' first
    | with_reducible assumption
    | ((with_reducible refine EffL.mk ?_); constructor <;> first | (intro _; with_reducible rfl) | exact fun e => hW.no rfl e)
    | with_reducible apply Eff.ite
    | (refine Eff.lit ?_ rfl ?_; with_reducible assumption)

theorem State.regStore_eff {s : State} {off : Nat} {v : Word}
    (hW : Sub 0x18 W) (h : Eff W s₀ s)  : Eff W s₀ (State.regStore s off v) := by
  unfold State.regStore
  repeat' first
    | with_reducible assumption
    | ((with_reducible refine Sub.trans ?_ hW); exact rfl)
    | with_reducible apply State.holdRwt_eff
    | with_reducible apply State.setReg_eff
    | split

theorem State.lockViolation_eff {s : State} {i : Iface} {off : Nat} {v : Word}
    (hW : Sub 0x100001F0000000000008 W) (h : Eff W s₀ s)  : Eff W s₀ (State.lockViolation s i off v) := by
  unfold State.lockViolation
  repeat' first
    | with_reducible assumption
    | with_reducible apply Eff.ite
    | with_reducible apply State.logViolation_eff
    | split

theorem State.writeViolation_eff {s : State} {i : Iface} {pcieSub : Nat} {hspSub : Nat} {off : Nat} {v : Word}
    (hW : Sub 0x100001F0000000000008 W) (h : Eff W s₀ s)  : Eff W s₀ (State.writeViolation s i pcieSub hspSub off v) := by
  unfold State.writeViolation
  repeat' first
    | with_reducible assumption
    | with_reducible apply State.logViolation_eff
    | split

theorem State.latchHigh_eff {s : State} {i : Iface} {low : Nat}
    (hW : Sub 0x20 W) (h : Eff W s₀ s)  : Eff W s₀ (State.latchHigh s i low) := by
  unfold State.latchHigh
  repeat' first
    | ((with_reducible refine EffL.mk ?_); constructor <;> first | (intro _; with_reducible rfl) | exact fun e => hW.no rfl e)
    | (refine Eff.lit ?_ rfl ?_; with_reducible assumption)

theorem State.holdLow_eff {s : State} {i : Iface} {low : Nat} {v : Word}
    (hW : Sub 0x40 W) (h : Eff W s₀ s)  : Eff W s₀ (State.holdLow s i low v) := by
  unfold State.holdLow
  repeat' first
    | ((with_reducible refine EffL.mk ?_); constructor <;> first | (intro _; with_reducible rfl) | exact fun e => hW.no rfl e)
    | (refine Eff.lit ?_ rfl ?_; with_reducible assumption)

theorem State.commitPair_eff {s : State} {i : Iface} {high : Nat} {v : Word}
    (hW : Sub 0x58 W) (h : Eff W s₀ s)  : Eff W s₀ (State.commitPair s i high v) := by
  unfold State.commitPair
  repeat' first
    | with_reducible assumption
    | ((with_reducible refine Sub.trans ?_ hW); exact rfl)
    | ((with_reducible refine EffL.mk ?_); constructor <;> first | (intro _; with_reducible rfl) | exact fun e => hW.no rfl e)
    | (extract_lets +onlyGivenNames v; refine (fun (hv : Eff W s₀ v) => ?_) ?_; clear_value v; rotate_left; subst v)
    | (extract_lets +onlyGivenNames v; clear_value v)
    | with_reducible apply State.regStore_eff
    | split
    | (refine Eff.lit ?_ rfl ?_; with_reducible assumption)

theorem State.regFetch_eff {s : State} {i : Iface} {off : Nat}
    (hW : Sub 0x20 W) (h : Eff W s₀ s)  : Eff W s₀ (State.regFetch s i off).2 := by
  unfold State.regFetch
  repeat' first
    | with_reducible assumption
    | with_reducible apply State.latchHigh_eff
    | split

end Sys2Proof.Machine
end

