-- ==== Sys2Proof/Laws/EffBoot.lean ====
section
/-!
SUPPORT. Laws/EffBoot.lean: which fields of the state every operation of Machine/Boot.lean may change.
-/
namespace Sys2Proof.Machine

variable {W : Nat} {s₀ : State}

theorem State.putPair_eff {s : State} {user : Bool} {p : SlotPair}
    (hW : Sub 0x200000000000000008 W) (h : Eff W s₀ s)  : Eff W s₀ (State.putPair s user p) := by
  unfold State.putPair
  repeat' first
    | with_reducible assumption
    | (extract_lets +onlyGivenNames v; clear_value v)
    | with_reducible apply State.putStore_eff

theorem State.takeLayers_eff {s : State} {f : NvRecord} {u : Option NvRecord}
    (hW : Sub 0x400000000000000008 W) (h : Eff W s₀ s)  : Eff W s₀ (State.takeLayers s f u) := by
  unfold State.takeLayers
  repeat' first
    | with_reducible assumption
    | ((with_reducible refine Sub.trans ?_ hW); exact rfl)
    | ((with_reducible refine EffL.mk ?_); constructor <;> first | (intro _; with_reducible rfl) | exact fun e => hW.no rfl e)
    | (extract_lets +onlyGivenNames v; refine (fun (hv : Eff W s₀ v) => ?_) ?_; clear_value v; rotate_left; subst v)
    | (extract_lets +onlyGivenNames v; have hp := v.flash; clear hp; subst v)
    | (extract_lets +onlyGivenNames v; clear_value v)
    | with_reducible apply State.setBit_eff
    | with_reducible apply State.setReg_eff
    | split
    | (refine Eff.lit ?_ rfl ?_; with_reducible assumption)

theorem State.hspCfg_eff {s : State}
    (hW : Sub 0x800000000000000000 W) (h : Eff W s₀ s)  : Eff W s₀ (State.hspCfg s) := by
  unfold State.hspCfg
  repeat' first
    | ((with_reducible refine EffL.mk ?_); constructor <;> first | (intro _; with_reducible rfl) | exact fun e => hW.no rfl e)
    | (extract_lets +onlyGivenNames v; clear_value v)
    | (refine Eff.lit ?_ rfl ?_; with_reducible assumption)

theorem State.applyBase_eff {s : State}
    (hW : Sub 0x10B801F301800000008A W) (h : Eff W s₀ s)  : Eff W s₀ (State.applyBase s) := by
  unfold State.applyBase
  repeat' first
    | with_reducible assumption
    | ((with_reducible refine Sub.trans ?_ hW); exact rfl)
    | (extract_lets +onlyGivenNames v; refine (fun (hv : Eff W s₀ v) => ?_) ?_; clear_value v; rotate_left; subst v)
    | (extract_lets +onlyGivenNames v; clear_value v)
    | with_reducible apply State.hspCfg_eff
    | with_reducible apply State.keepWritten_eff
    | with_reducible apply State.writeIds_eff
    | with_reducible apply State.applyWant_eff
    | with_reducible apply State.setFld_eff
    | with_reducible apply State.setReg_eff

theorem State.readLatch_eff {s : State}
    (hW : Sub 0x10680200000200002088 W) (h : Eff W s₀ s)  : Eff W s₀ (State.readLatch s) := by
  unfold State.readLatch
  repeat' first
    | with_reducible assumption
    | ((with_reducible refine Sub.trans ?_ hW); exact rfl)
    | with_reducible apply Eff.ite
    | with_reducible apply State.powerDown_eff
    | with_reducible apply State.updAon_eff
    | with_reducible apply State.raise_eff
    | split

theorem State.bootWait_eff {s : State} {err : Nat}
    (hW : Sub 0x10680200000200002088 W) (h : Eff W s₀ s)  : Eff W s₀ (State.bootWait s err) := by
  unfold State.bootWait
  repeat' first
    | with_reducible assumption
    | ((with_reducible refine Sub.trans ?_ hW); exact rfl)
    | (extract_lets +onlyGivenNames v; refine (fun (hv : Eff W s₀ v) => ?_) ?_; clear_value v; rotate_left; subst v)
    | with_reducible apply State.readLatch_eff
    | with_reducible apply State.updAon_eff
    | with_reducible apply State.setBit_eff
    | with_reducible apply State.setFld_eff

theorem State.openDebug_eff {s : State}
    (hW : Sub 0x8 W) (h : Eff W s₀ s)  : Eff W s₀ (State.openDebug s) := by
  unfold State.openDebug
  repeat' first
    | with_reducible assumption
    | with_reducible apply State.setBit_eff

theorem State.loadBootPlan_eff {s : State}
    (hW : Sub 0x104001F01002F7800A88 W) (h : Eff W s₀ s)  : Eff W s₀ (State.loadBootPlan s) := by
  unfold State.loadBootPlan
  repeat' first
    | with_reducible assumption
    | ((with_reducible refine Sub.trans ?_ hW); exact rfl)
    | ((with_reducible refine EffL.mk ?_); constructor <;> first | (intro _; with_reducible rfl) | exact fun e => hW.no rfl e)
    | (extract_lets +onlyGivenNames v; refine (fun (hv : Eff W s₀ v) => ?_) ?_; clear_value v; rotate_left; subst v)
    | (extract_lets +onlyGivenNames v; have hp := fun a => Eff W s₀ (v a); clear hp; subst v)
    | (extract_lets +onlyGivenNames v; have hp := v.flash; clear hp; subst v)
    | (extract_lets +onlyGivenNames v; clear_value v)
    | with_reducible apply Eff.ite
    | with_reducible apply State.writeTickCtrl_eff
    | with_reducible apply State.bootPlanRefused_eff
    | with_reducible apply State.finishLoad_eff
    | with_reducible apply State.storeBytes_eff
    | with_reducible apply State.t1Range_eff
    | dsimp -zeta only
    | with_reducible refine Eff.snd (by with_reducible assumption) ?_
    | split
    | (refine Eff.lit ?_ rfl ?_; with_reducible assumption)
    | (refine Eff.lit ?_ rfl ?_; with_reducible apply State.showLoadErr_eff)
    | (refine Eff.lit ?_ rfl ?_; with_reducible apply State.logError_eff)

theorem State.reachReady_eff {s : State}
    (hW : Sub 0x107803F31182F7802A9A W) (h : Eff W s₀ s)  : Eff W s₀ (State.reachReady s) := by
  unfold State.reachReady
  repeat' first
    | with_reducible assumption
    | ((with_reducible refine Sub.trans ?_ hW); exact rfl)
    | (extract_lets +onlyGivenNames v; refine (fun (hv : Eff W s₀ v) => ?_) ?_; clear_value v; rotate_left; subst v)
    | with_reducible refine Eff.foldl _ (fun _ _ _ => ?_) ?_
    | with_reducible apply State.loadBootPlan_eff
    | with_reducible apply State.openDebug_eff
    | with_reducible apply State.readLatch_eff
    | with_reducible apply State.showCore_eff
    | with_reducible apply State.journal_eff
    | with_reducible apply State.updAon_eff
    | with_reducible apply State.takeEpoch_eff
    | with_reducible apply State.advanceEpoch_eff
    | with_reducible apply State.draw_eff
    | with_reducible apply State.setBit_eff
    | with_reducible apply State.setReg_eff

theorem State.bootWith_eff {s : State} {f : NvRecord} {fslot : Nat} {u : Option NvRecord} {uslot : Nat}
    (hW : Sub 0x10F803F31182F7802A9A W) (h : Eff W s₀ s)  : Eff W s₀ (State.bootWith s f fslot u uslot) := by
  unfold State.bootWith
  repeat' first
    | with_reducible assumption
    | ((with_reducible refine Sub.trans ?_ hW); exact rfl)
    | (extract_lets +onlyGivenNames v; refine (fun (hv : Eff W s₀ v) => ?_) ?_; clear_value v; rotate_left; subst v)
    | with_reducible apply State.reachReady_eff
    | with_reducible apply State.applyBase_eff
    | with_reducible apply State.takeLayers_eff
    | with_reducible apply State.setBit_eff
    | with_reducible apply State.setFld_eff

theorem State.bootFlash_eff {s : State} {useUser : Bool}
    (hW : Sub 0x10F803F31182F7802A9A W) (h : Eff W s₀ s)  : Eff W s₀ (State.bootFlash s useUser) := by
  unfold State.bootFlash
  repeat' first
    | with_reducible assumption
    | ((with_reducible refine Sub.trans ?_ hW); exact rfl)
    | (extract_lets +onlyGivenNames v; clear_value v)
    | with_reducible apply Eff.ite
    | with_reducible apply State.bootWith_eff
    | with_reducible apply State.bootWait_eff
    | with_reducible apply State.setBit_eff
    | with_reducible apply State.setFld_eff
    | split

theorem execReady_eff {flash : List HostBytes} {s : State}
    (hW : Sub 0x10F803F31182F7802A9A W) (h : Eff W s₀ s)  : EffX W s₀ (execReady flash s) := by
  unfold execReady
  repeat' first
    | with_reducible assumption
    | ((with_reducible refine Sub.trans ?_ hW); exact rfl)
    | (extract_lets +onlyGivenNames v; refine (fun (hv : Eff W s₀ v) => ?_) ?_; clear_value v; rotate_left; subst v)
    | (extract_lets +onlyGivenNames v; clear_value v)
    | with_reducible apply EffX.of_next
    | with_reducible apply Eff.ite
    | with_reducible refine Eff.foldl _ (fun _ _ _ => ?_) ?_
    | with_reducible apply State.bootFlash_eff
    | with_reducible apply State.bootWait_eff
    | with_reducible apply State.flashWrite_eff
    | with_reducible apply State.logViolation_eff
    | with_reducible apply State.setBit_eff

theorem State.endUpdate_eff {s : State}
    (hW : Sub 0x10400000000000000008 W) (h : Eff W s₀ s)  : Eff W s₀ (State.endUpdate s) := by
  unfold State.endUpdate
  repeat' first
    | with_reducible assumption
    | ((with_reducible refine Sub.trans ?_ hW); exact rfl)
    | ((with_reducible refine EffL.mk ?_); constructor <;> first | (intro _; with_reducible rfl) | exact fun e => hW.no rfl e)
    | (extract_lets +onlyGivenNames v; refine (fun (hv : Eff W s₀ v) => ?_) ?_; clear_value v; rotate_left; subst v)
    | (extract_lets +onlyGivenNames v; have hp := v.flash; clear hp; subst v)
    | with_reducible apply State.raise_eff
    | with_reducible apply State.setBit_eff
    | with_reducible apply State.setFld_eff
    | (refine Eff.lit ?_ rfl ?_; with_reducible assumption)

theorem State.startWrite_eff {s : State} {user : Bool} {src : Option (Nat × Nat)} {bs : List Byte}
    (hW : Sub 0x10600000000000000008 W) (h : Eff W s₀ s)  : Eff W s₀ (State.startWrite s user src bs) := by
  unfold State.startWrite
  repeat' first
    | with_reducible assumption
    | ((with_reducible refine Sub.trans ?_ hW); exact rfl)
    | ((with_reducible refine EffL.mk ?_); constructor <;> first | (intro _; with_reducible rfl) | exact fun e => hW.no rfl e)
    | (extract_lets +onlyGivenNames v; refine (fun (hv : Eff W s₀ v) => ?_) ?_; clear_value v; rotate_left; subst v)
    | (extract_lets +onlyGivenNames v; have hp := v.flash; clear hp; subst v)
    | (extract_lets +onlyGivenNames v; clear_value v)
    | with_reducible apply Eff.ite
    | with_reducible apply State.putPair_eff
    | with_reducible apply State.flashErase_eff
    | with_reducible apply State.failUpdate_eff
    | split
    | (refine Eff.lit ?_ rfl ?_; with_reducible assumption)

theorem State.hostBoot_eff {s : State} {bs : List Byte}
    (hW : Sub 0x10F803F31182F7802A9A W) (h : Eff W s₀ s)  : Eff W s₀ (State.hostBoot s bs) := by
  unfold State.hostBoot
  repeat' first
    | with_reducible assumption
    | ((with_reducible refine Sub.trans ?_ hW); exact rfl)
    | (extract_lets +onlyGivenNames v; clear_value v)
    | with_reducible apply Eff.ite
    | with_reducible apply State.endUpdate_eff
    | with_reducible apply State.bootWith_eff
    | with_reducible apply State.failUpdate_eff
    | with_reducible apply State.setFld_eff
    | split

theorem State.runUpdate_eff {s : State} {hostOk : Bool}
    (hW : Sub 0x10F803F31182F7802A9A W) (h : Eff W s₀ s)  : Eff W s₀ (State.runUpdate s hostOk) := by
  unfold State.runUpdate
  repeat' first
    | with_reducible assumption
    | ((with_reducible refine Sub.trans ?_ hW); exact rfl)
    | (extract_lets +onlyGivenNames v; refine (fun (hv : Eff W s₀ v) => ?_) ?_; clear_value v; rotate_left; subst v)
    | (extract_lets +onlyGivenNames v; clear_value v)
    | (extract_lets +onlyGivenNames v; subst v)
    | with_reducible apply Eff.ite
    | with_reducible apply Eff.iteSnd
    | with_reducible apply State.hostBoot_eff
    | with_reducible apply State.startWrite_eff
    | with_reducible apply State.failUpdate_eff
    | with_reducible apply State.senseRange_eff
    | with_reducible apply State.logError_eff
    | with_reducible apply State.setFld_eff
    | dsimp -zeta only
    | with_reducible refine Eff.snd (by with_reducible assumption) ?_
    | split

theorem State.writeUpdCtrl_eff {s : State} {v : Word} {hostOk : Bool}
    (hW : Sub 0x10F803F31182F7802A9A W) (h : Eff W s₀ s)  : Eff W s₀ (State.writeUpdCtrl s v hostOk) := by
  unfold State.writeUpdCtrl
  repeat' first
    | with_reducible assumption
    | ((with_reducible refine Sub.trans ?_ hW); exact rfl)
    | ((with_reducible refine EffL.mk ?_); constructor <;> first | (intro _; with_reducible rfl) | exact fun e => hW.no rfl e)
    | (extract_lets +onlyGivenNames v; refine (fun (hv : Eff W s₀ v) => ?_) ?_; clear_value v; rotate_left; subst v)
    | (extract_lets +onlyGivenNames v; have hp := v.flash; clear hp; subst v)
    | (extract_lets +onlyGivenNames v; clear_value v)
    | with_reducible apply Eff.ite
    | with_reducible apply State.runUpdate_eff
    | with_reducible apply State.regStore_eff
    | with_reducible apply State.setBit_eff
    | (refine Eff.lit ?_ rfl ?_; with_reducible assumption)

theorem State_goUpdate_eff {s : State} {i : Iface} {target : Nat} {v : Word} {source : List HostBytes} {a : HostAnswer}
    (hW : Sub 0x10F803F31182F7802A9A W) (h : Eff W s₀ s)  : Eff W s₀ (State.goUpdate s i target v source a) := by
  unfold State.goUpdate
  repeat' first
    | with_reducible assumption
    | ((with_reducible refine Sub.trans ?_ hW); exact rfl)
    | (extract_lets +onlyGivenNames v; refine (fun (hv : Eff W s₀ v) => ?_) ?_; clear_value v; rotate_left; subst v)
    | with_reducible apply Eff.ite
    | with_reducible apply State.writeUpdCtrl_eff
    | with_reducible apply State.placed_eff

theorem execNvcUpdateUser_eff {i : Iface} {v : Word} {source : List HostBytes} {a : HostAnswer} {s : State}
    (hW : Sub 0x10F803F31182F7802A9A W) (h : Eff W s₀ s)  : EffX W s₀ (execNvcUpdateUser i v source a s) := by
  unfold execNvcUpdateUser
  repeat' first
    | with_reducible assumption
    | with_reducible apply EffX.of_next
    | with_reducible apply State_goUpdate_eff

theorem execNvcUpdateFactory_eff {i : Iface} {v : Word} {source : List HostBytes} {a : HostAnswer} {s : State}
    (hW : Sub 0x10F803F31182F7802A9A W) (h : Eff W s₀ s)  : EffX W s₀ (execNvcUpdateFactory i v source a s) := by
  unfold execNvcUpdateFactory
  repeat' first
    | with_reducible assumption
    | with_reducible apply EffX.of_next
    | with_reducible apply State_goUpdate_eff

theorem execNvcHostBoot_eff {i : Iface} {v : Word} {source : List HostBytes} {a : HostAnswer} {s : State}
    (hW : Sub 0x10F803F31182F7802A9A W) (h : Eff W s₀ s)  : EffX W s₀ (execNvcHostBoot i v source a s) := by
  unfold execNvcHostBoot
  repeat' first
    | with_reducible assumption
    | with_reducible apply EffX.of_next
    | with_reducible apply State_goUpdate_eff

theorem execNvcUpdateDone_eff {flashOk : Bool} {s : State}
    (hW : Sub 0x106001F0000000000008 W) (h : Eff W s₀ s)  : EffX W s₀ (execNvcUpdateDone flashOk s) := by
  unfold execNvcUpdateDone
  repeat' first
    | with_reducible assumption
    | ((with_reducible refine Sub.trans ?_ hW); exact rfl)
    | (extract_lets +onlyGivenNames v; refine (fun (hv : Eff W s₀ v) => ?_) ?_; clear_value v; rotate_left; subst v)
    | (extract_lets +onlyGivenNames v; subst v)
    | with_reducible apply EffX.of_next
    | with_reducible apply Eff.ite
    | with_reducible apply State.endUpdate_eff
    | with_reducible apply State.putPair_eff
    | with_reducible apply State.flashWrite_eff
    | with_reducible apply State.failUpdate_eff
    | with_reducible apply State.logViolation_eff
    | split

theorem execFlashBusyTimeout_eff {s : State}
    (hW : Sub 0x104001F0000000000008 W) (h : Eff W s₀ s)  : EffX W s₀ (execFlashBusyTimeout s) := by
  unfold execFlashBusyTimeout
  repeat' first
    | with_reducible assumption
    | ((with_reducible refine Sub.trans ?_ hW); exact rfl)
    | with_reducible apply EffX.of_next
    | with_reducible apply Eff.ite
    | with_reducible apply State.failUpdate_eff
    | with_reducible apply State.logViolation_eff

theorem State.coreBack_eff {s : State} {c : Nat}
    (hW : Sub 0x10FC03F31982F7802A9A W) (h : Eff W s₀ s)  : Eff W s₀ (State.coreBack s c) := by
  unfold State.coreBack
  repeat' first
    | with_reducible assumption
    | ((with_reducible refine Sub.trans ?_ hW); exact rfl)
    | ((with_reducible refine EffL.mk ?_); constructor <;> first | (intro _; with_reducible rfl) | exact fun e => hW.no rfl e)
    | (extract_lets +onlyGivenNames v; refine (fun (hv : Eff W s₀ v) => ?_) ?_; clear_value v; rotate_left; subst v)
    | (extract_lets +onlyGivenNames v; have hp := v.flash; clear hp; subst v)
    | (extract_lets +onlyGivenNames v; clear_value v)
    | with_reducible apply Eff.ite
    | with_reducible apply State.runUpdate_eff
    | with_reducible apply State.endWaiting_eff
    | with_reducible apply State.showCap_eff
    | with_reducible apply State.showCore_eff
    | with_reducible apply State.finishLoad_eff
    | with_reducible apply State.setBit_eff
    | split
    | (refine Eff.lit ?_ rfl ?_; with_reducible assumption)

theorem execCoreReturn_eff {core : Fin 6} {s : State}
    (hW : Sub 0x10FC03F31982F7802A9A W) (h : Eff W s₀ s)  : EffX W s₀ (execCoreReturn core s) := by
  unfold execCoreReturn
  repeat' first
    | with_reducible assumption
    | with_reducible apply EffX.of_next
    | with_reducible apply Eff.ite
    | with_reducible apply State.coreBack_eff

theorem State.writeProvCmd_eff {s : State} {i : Iface} {v : Word}
    (hW : Sub 0x100001F0000000000008 W) (h : Eff W s₀ s)  : Eff W s₀ (State.writeProvCmd s i v) := by
  unfold State.writeProvCmd
  repeat' first
    | with_reducible assumption
    | ((with_reducible refine Sub.trans ?_ hW); exact rfl)
    | (extract_lets +onlyGivenNames v; refine (fun (hv : Eff W s₀ v) => ?_) ?_; clear_value v; rotate_left; subst v)
    | with_reducible apply Eff.ite
    | with_reducible refine Eff.foldl _ (fun _ _ _ => ?_) ?_
    | with_reducible apply State.writeViolation_eff
    | with_reducible apply State.setBit_eff
    | with_reducible apply State.setReg_eff

theorem execSecProvision_eff {i : Iface} {v : Word} {s : State}
    (hW : Sub 0x100001F0000000000008 W) (h : Eff W s₀ s)  : EffX W s₀ (execSecProvision i v s) := by
  unfold execSecProvision
  repeat' first
    | with_reducible assumption
    | with_reducible apply EffX.of_next
    | with_reducible apply Eff.ite
    | with_reducible apply State.writeProvCmd_eff

theorem State.writeDbgCtrl_eff {s : State} {v : Word}
    (hW : Sub 0x18 W) (h : Eff W s₀ s)  : Eff W s₀ (State.writeDbgCtrl s v) := by
  unfold State.writeDbgCtrl
  repeat' first
    | with_reducible assumption
    | ((with_reducible refine Sub.trans ?_ hW); exact rfl)
    | (extract_lets +onlyGivenNames v; refine (fun (hv : Eff W s₀ v) => ?_) ?_; clear_value v; rotate_left; subst v)
    | with_reducible apply Eff.ite
    | with_reducible apply State.regStore_eff
    | with_reducible apply State.setBit_eff

theorem execDebugLock_eff {i : Iface} {v : Word} {s : State}
    (hW : Sub 0x18 W) (h : Eff W s₀ s)  : EffX W s₀ (execDebugLock i v s) := by
  unfold execDebugLock
  repeat' first
    | with_reducible assumption
    | with_reducible apply EffX.of_next
    | with_reducible apply Eff.ite
    | with_reducible apply State.writeDbgCtrl_eff

end Sys2Proof.Machine
end

