-- ==== Sys2Proof/Laws/EffHostSide.lean ====
section
/-!
SUPPORT. Laws/EffHostSide.lean: which fields of the state every operation of Machine/HostSide.lean may change.
-/
namespace Sys2Proof.Machine

variable {W : Nat} {s₀ : State}

theorem State.hostStore_eff {s : State} {a : Nat} {bs : List Byte}
    (hW : Sub 0x100001F0000007800008 W) (h : Eff W s₀ s)  : Eff W s₀ (State.hostStore s a bs) := by
  unfold State.hostStore
  repeat' first
    | with_reducible assumption
    | ((with_reducible refine Sub.trans ?_ hW); exact rfl)
    | ((with_reducible refine EffL.mk ?_); constructor <;> first | (intro _; with_reducible rfl) | exact fun e => hW.no rfl e)
    | (extract_lets +onlyGivenNames v; refine (fun (hv : Eff W s₀ v) => ?_) ?_; clear_value v; rotate_left; subst v)
    | (extract_lets +onlyGivenNames v; clear_value v)
    | with_reducible apply Eff.ite
    | with_reducible refine Eff.foldl _ (fun _ _ _ => ?_) ?_
    | with_reducible apply State.logFlips_eff
    | with_reducible apply State.t0Sense_eff
    | with_reducible apply State.t0Store_eff
    | split
    | (refine Eff.lit ?_ rfl ?_; with_reducible assumption)

theorem State.hostLoad_eff {s : State} {a : Nat} {n : Nat}
    (hW : Sub 0x100001F0000007000008 W) (h : Eff W s₀ s)  : Eff W s₀ (State.hostLoad s a n).2.2 := by
  unfold State.hostLoad
  repeat' first
    | with_reducible assumption
    | ((with_reducible refine Sub.trans ?_ hW); exact rfl)
    | (extract_lets +onlyGivenNames v; refine (fun (hv : Eff W s₀ v) => ?_) ?_; clear_value v; rotate_left; subst v)
    | with_reducible apply Eff.iteSnd2
    | with_reducible apply State.logFlips_eff
    | with_reducible apply State.t0Range_eff

theorem execBar0BadAccess_eff {write : Bool} {off : BitVec 24} {dwords : Nat} {s : State}
    (hW : Sub 0x100001F0000000000008 W) (h : Eff W s₀ s)  : EffX W s₀ (execBar0BadAccess write off dwords s) := by
  unfold execBar0BadAccess
  repeat' first
    | with_reducible assumption
    | ((with_reducible refine Sub.trans ?_ hW); exact rfl)
    | (extract_lets +onlyGivenNames v; refine (fun (hv : Eff W s₀ v) => ?_) ?_; clear_value v; rotate_left; subst v)
    | with_reducible apply EffX.of_next
    | with_reducible apply Eff.ite
    | with_reducible apply State.emit_eff
    | with_reducible apply State.logViolation_eff

theorem execBar2Read_eff {off : BitVec 26} {len : Nat} {s : State}
    (hW : Sub 0x100001F0000007000008 W) (h : Eff W s₀ s)  : EffX W s₀ (execBar2Read off len s) := by
  unfold execBar2Read
  repeat' first
    | with_reducible assumption
    | ((with_reducible refine Sub.trans ?_ hW); exact rfl)
    | (extract_lets +onlyGivenNames v; clear_value v)
    | with_reducible apply EffX.of_next
    | with_reducible apply Eff.ite
    | with_reducible apply State.hostLoad_eff
    | with_reducible apply State.emit_eff

theorem execBar2Write_eff {off : BitVec 26} {bytes : List Byte} {s : State}
    (hW : Sub 0x100001F0000007800008 W) (h : Eff W s₀ s)  : EffX W s₀ (execBar2Write off bytes s) := by
  unfold execBar2Write
  repeat' first
    | with_reducible assumption
    | ((with_reducible refine Sub.trans ?_ hW); exact rfl)
    | (extract_lets +onlyGivenNames v; clear_value v)
    | with_reducible apply EffX.of_next
    | with_reducible apply Eff.ite
    | with_reducible apply State.hostStore_eff
    | with_reducible apply State.logViolation_eff

theorem State.hostReset_eff {s : State} {down : Bool}
    (hW : Sub 0x100241FF310200000878 W) (h : Eff W s₀ s)  : Eff W s₀ (State.hostReset s down) := by
  unfold State.hostReset
  repeat' first
    | with_reducible assumption
    | ((with_reducible refine Sub.trans ?_ hW); exact rfl)
    | ((with_reducible refine EffL.mk ?_); constructor <;> first | (intro _; with_reducible rfl) | exact fun e => hW.no rfl e)
    | (extract_lets +onlyGivenNames v; refine (fun (hv : Eff W s₀ v) => ?_) ?_; clear_value v; rotate_left; subst v)
    | (extract_lets +onlyGivenNames v; clear_value v)
    | with_reducible apply Eff.ite
    | with_reducible refine Eff.foldl _ (fun _ _ _ => ?_) ?_
    | with_reducible apply State.resetQueue_eff
    | with_reducible apply State.logError_eff
    | with_reducible apply State.setBit_eff
    | with_reducible apply State.setReg_eff
    | (refine Eff.lit ?_ rfl ?_; with_reducible assumption)

theorem execHostSideReset_eff {why : HostReset} {s : State}
    (hW : Sub 0x100241FF310200000878 W) (h : Eff W s₀ s)  : EffX W s₀ (execHostSideReset why s) := by
  unfold execHostSideReset
  repeat' first
    | with_reducible assumption
    | with_reducible apply EffX.of_next
    | with_reducible apply Eff.ite
    | with_reducible apply State.hostReset_eff

theorem execPerstAssert_eff {s : State}
    (hW : Sub 0x100241FF310200000878 W) (h : Eff W s₀ s)  : EffX W s₀ (execPerstAssert s) := by
  unfold execPerstAssert
  repeat' first
    | with_reducible assumption
    | with_reducible apply EffX.of_next
    | with_reducible apply Eff.ite
    | with_reducible apply State.hostReset_eff

theorem execPcieLinkUp_eff {width : Nat} {speed : Nat} {s : State}
    (hW : Sub 0x8 W) (h : Eff W s₀ s)  : EffX W s₀ (execPcieLinkUp width speed s) := by
  unfold execPcieLinkUp
  repeat' first
    | with_reducible assumption
    | with_reducible apply EffX.of_next
    | with_reducible apply Eff.ite
    | with_reducible apply State.setFld_eff

theorem execRefreshRateChange_eff {x2 : Bool} {x4 : Bool} {s : State}
    (hW : Sub 0x8 W) (h : Eff W s₀ s)  : EffX W s₀ (execRefreshRateChange x2 x4 s) := by
  unfold execRefreshRateChange
  repeat' first
    | with_reducible assumption
    | with_reducible apply EffX.of_next
    | with_reducible apply Eff.ite
    | with_reducible apply State.setBit_eff

end Sys2Proof.Machine
end

