-- ==== Sys2Proof/Laws/EffJtag.lean ====
section
/-!
SUPPORT. Laws/EffJtag.lean: which fields of the state every operation of Machine/Jtag.lean may change.
-/
namespace Sys2Proof.Machine

variable {W : Nat} {s₀ : State}

theorem State.tap_eff {s : State} {j : JtagState}
    (hW : Sub 0x2000000000000000000 W) (h : Eff W s₀ s)  : Eff W s₀ (State.tap s j) := by
  unfold State.tap
  repeat' first
    | with_reducible assumption
    | ((with_reducible refine EffL.mk ?_); constructor <;> first | (intro _; with_reducible rfl) | exact fun e => hW.no rfl e)
    | with_reducible apply Eff.ite
    | (refine Eff.lit ?_ rfl ?_; with_reducible assumption)

theorem execTapReset_eff {s : State}
    (hW : Sub 0x2000000000000000000 W) (h : Eff W s₀ s)  : EffX W s₀ (execTapReset s) := by
  unfold execTapReset
  repeat' first
    | with_reducible assumption
    | (extract_lets +onlyGivenNames v; clear_value v)
    | with_reducible apply EffX.of_next
    | with_reducible apply State.tap_eff

theorem execIdcode_eff {s : State}
    (hW : Sub 0x2000000000000000000 W) (h : Eff W s₀ s)  : EffX W s₀ (execIdcode s) := by
  unfold execIdcode
  repeat' first
    | with_reducible assumption
    | (extract_lets +onlyGivenNames v; clear_value v)
    | with_reducible apply EffX.of_next
    | with_reducible apply State.tap_eff

theorem execSamplePreload_eff {pads : BitVec 79} {cells : BitVec 79} {s : State}
    (hW : Sub 0x2000000000000000000 W) (h : Eff W s₀ s)  : EffX W s₀ (execSamplePreload pads cells s) := by
  unfold execSamplePreload
  repeat' first
    | with_reducible assumption
    | with_reducible apply EffX.of_next
    | with_reducible apply State.tap_eff

theorem execExtest_eff {pads : BitVec 79} {s : State}
    (hW : Sub 0x2000000000000000000 W) (h : Eff W s₀ s)  : EffX W s₀ (execExtest pads s) := by
  unfold execExtest
  repeat' first
    | with_reducible assumption
    | (extract_lets +onlyGivenNames v; clear_value v)
    | with_reducible apply EffX.of_next
    | with_reducible apply State.tap_eff

theorem execHighz_eff {s : State}
    (hW : Sub 0x2000000000000000000 W) (h : Eff W s₀ s)  : EffX W s₀ (execHighz s) := by
  unfold execHighz
  repeat' first
    | with_reducible assumption
    | (extract_lets +onlyGivenNames v; clear_value v)
    | with_reducible apply EffX.of_next
    | with_reducible apply State.tap_eff

theorem execClamp_eff {s : State}
    (hW : Sub 0x2000000000000000000 W) (h : Eff W s₀ s)  : EffX W s₀ (execClamp s) := by
  unfold execClamp
  repeat' first
    | with_reducible assumption
    | (extract_lets +onlyGivenNames v; clear_value v)
    | with_reducible apply EffX.of_next
    | with_reducible apply State.tap_eff

theorem execBypass_eff {s : State}
    (hW : Sub 0x2000000000000000000 W) (h : Eff W s₀ s)  : EffX W s₀ (execBypass s) := by
  unfold execBypass
  repeat' first
    | with_reducible assumption
    | (extract_lets +onlyGivenNames v; clear_value v)
    | with_reducible apply EffX.of_next
    | with_reducible apply State.tap_eff

theorem execDebug_eff {s : State}
    (hW : Sub 0x2000000000000000002 W) (h : Eff W s₀ s)  : EffX W s₀ (execDebug s) := by
  unfold execDebug
  repeat' first
    | with_reducible assumption
    | ((with_reducible refine Sub.trans ?_ hW); exact rfl)
    | (extract_lets +onlyGivenNames v; clear_value v)
    | with_reducible apply EffX.of_next
    | with_reducible apply Eff.ite
    | with_reducible apply State.tap_eff
    | with_reducible apply State.draw_eff

end Sys2Proof.Machine
end

