-- ==== Sys2Proof/Laws/EffRequests.lean ====
section
/-!
SUPPORT. Laws/EffRequests.lean: which fields of the state every operation of Machine/Requests.lean may change.
-/
namespace Sys2Proof.Machine

variable {W : Nat} {s₀ : State}

theorem execNop_eff {q : Fin 16} {tag : BitVec 16} {s : State}
    (hW : Sub 0x100000000000 W) (h : Eff W s₀ s)  : EffX W s₀ (execNop q tag s) := by
  unfold execNop
  repeat' first
    | with_reducible assumption
    | with_reducible apply EffX.of_next
    | with_reducible apply State.settle_eff
    | split

theorem State.answerQuery_eff {s : State} {q : Nat} {r : Req}
    (hW : Sub 0x100001F01000F3800008 W) (h : Eff W s₀ s)  : Eff W s₀ (State.answerQuery s q r) := by
  unfold State.answerQuery
  repeat' first
    | with_reducible assumption
    | ((with_reducible refine Sub.trans ?_ hW); exact rfl)
    | (extract_lets +onlyGivenNames v; have hp := fun a b => Eff W s₀ (v a b); clear hp; subst v)
    | (extract_lets +onlyGivenNames v; clear_value v)
    | with_reducible apply Eff.ite
    | with_reducible apply State.settle_eff
    | with_reducible apply State.storeBytes_eff
    | with_reducible apply State.senseWrite_eff
    | with_reducible apply State.logError_eff
    | dsimp -zeta only
    | with_reducible refine Eff.snd (by with_reducible assumption) ?_
    | split

theorem State.abortTarget_eff {s : State} {q : Nat} {r : Req}
    (hW : Sub 0x24000310200000808 W) (h : Eff W s₀ s)  : Eff W s₀ (State.abortTarget s q r) := by
  unfold State.abortTarget
  repeat' first
    | with_reducible assumption
    | ((with_reducible refine Sub.trans ?_ hW); exact rfl)
    | (extract_lets +onlyGivenNames v; have hp := fun a b => Eff W s₀ (v a b); clear hp; subst v)
    | (extract_lets +onlyGivenNames v; clear_value v)
    | with_reducible apply Eff.ite
    | with_reducible apply State.stopReq_eff
    | with_reducible apply State.actReq_eff
    | with_reducible apply State.settle_eff
    | dsimp -zeta only
    | with_reducible refine Eff.snd (by with_reducible assumption) ?_
    | split

theorem execAbort_eff {q : Fin 16} {tag : BitVec 16} {s : State}
    (hW : Sub 0x24000310200000808 W) (h : Eff W s₀ s)  : EffX W s₀ (execAbort q tag s) := by
  unfold execAbort
  repeat' first
    | with_reducible assumption
    | with_reducible apply EffX.of_next
    | with_reducible apply State.abortTarget_eff
    | split

theorem execStreamOpen_eff {q : Fin 16} {tag : BitVec 16} {s : State}
    (hW : Sub 0x100000000000 W) (h : Eff W s₀ s)  : EffX W s₀ (execStreamOpen q tag s) := by
  unfold execStreamOpen
  repeat' first
    | with_reducible assumption
    | with_reducible apply EffX.of_next
    | with_reducible apply State.dueReq_eff

theorem execStreamClose_eff {q : Fin 16} {tag : BitVec 16} {s : State}
    (hW : Sub 0x100000000000 W) (h : Eff W s₀ s)  : EffX W s₀ (execStreamClose q tag s) := by
  unfold execStreamClose
  repeat' first
    | with_reducible assumption
    | with_reducible apply EffX.of_next
    | with_reducible apply State.dueReq_eff

theorem execStreamPause_eff {q : Fin 16} {tag : BitVec 16} {s : State}
    (hW : Sub 0x100000000000 W) (h : Eff W s₀ s)  : EffX W s₀ (execStreamPause q tag s) := by
  unfold execStreamPause
  repeat' first
    | with_reducible assumption
    | with_reducible apply EffX.of_next
    | with_reducible apply State.dueReq_eff

theorem execStreamResume_eff {q : Fin 16} {tag : BitVec 16} {s : State}
    (hW : Sub 0x100000000000 W) (h : Eff W s₀ s)  : EffX W s₀ (execStreamResume q tag s) := by
  unfold execStreamResume
  repeat' first
    | with_reducible assumption
    | with_reducible apply EffX.of_next
    | with_reducible apply State.dueReq_eff

theorem execStreamAbort_eff {q : Fin 16} {tag : BitVec 16} {s : State}
    (hW : Sub 0x100000000000 W) (h : Eff W s₀ s)  : EffX W s₀ (execStreamAbort q tag s) := by
  unfold execStreamAbort
  repeat' first
    | with_reducible assumption
    | with_reducible apply EffX.of_next
    | with_reducible apply State.dueReq_eff

theorem execStateExport_eff {q : Fin 16} {tag : BitVec 16} {s : State}
    (hW : Sub 0x100000000000 W) (h : Eff W s₀ s)  : EffX W s₀ (execStateExport q tag s) := by
  unfold execStateExport
  repeat' first
    | with_reducible assumption
    | with_reducible apply EffX.of_next
    | with_reducible apply State.dueReq_eff

theorem execMigrate_eff {q : Fin 16} {tag : BitVec 16} {s : State}
    (hW : Sub 0x100000000000 W) (h : Eff W s₀ s)  : EffX W s₀ (execMigrate q tag s) := by
  unfold execMigrate
  repeat' first
    | with_reducible assumption
    | with_reducible apply EffX.of_next
    | with_reducible apply State.dueReq_eff

theorem execAudioBind_eff {q : Fin 16} {tag : BitVec 16} {s : State}
    (hW : Sub 0x100000000000 W) (h : Eff W s₀ s)  : EffX W s₀ (execAudioBind q tag s) := by
  unfold execAudioBind
  repeat' first
    | with_reducible assumption
    | with_reducible apply EffX.of_next
    | with_reducible apply State.dueReq_eff

theorem execAudioUnbind_eff {q : Fin 16} {tag : BitVec 16} {s : State}
    (hW : Sub 0x100000000000 W) (h : Eff W s₀ s)  : EffX W s₀ (execAudioUnbind q tag s) := by
  unfold execAudioUnbind
  repeat' first
    | with_reducible assumption
    | with_reducible apply EffX.of_next
    | with_reducible apply State.dueReq_eff

theorem execOverlay_eff {q : Fin 16} {tag : BitVec 16} {s : State}
    (hW : Sub 0x100000000000 W) (h : Eff W s₀ s)  : EffX W s₀ (execOverlay q tag s) := by
  unfold execOverlay
  repeat' first
    | with_reducible assumption
    | with_reducible apply EffX.of_next
    | with_reducible apply State.dueReq_eff

end Sys2Proof.Machine
end

