-- ==== Sys2Proof/Laws/EffStook.lean ====
section
/-!
SUPPORT. Laws/EffStook.lean: which fields of the state every operation of Machine/Stook.lean may change.
-/
namespace Sys2Proof.Machine

variable {W : Nat} {s₀ : State}

theorem State.freeFlits_eff {s : State} {k : Nat} {cls : Nat} {bytes : Nat}
    (hW : Sub 0x200000000000000 W) (h : Eff W s₀ s)  : Eff W s₀ (State.freeFlits s k cls bytes) := by
  unfold State.freeFlits
  repeat' first
    | with_reducible assumption
    | (extract_lets +onlyGivenNames v; clear_value v)
    | with_reducible apply State.updPort_eff

theorem State.deliver_eff {s : State} {k : Nat} {cls : Nat} {bytes : Nat} {f : State → State}
    (hW : Sub 0x200000000000000 W) (h : Eff W s₀ s)  (hf : ∀ y0, Eff W s₀ y0 → Eff W s₀ (f y0)) : Eff W s₀ (State.deliver s k cls bytes f) := by
  unfold State.deliver
  repeat' first
    | with_reducible assumption
    | with_reducible apply Eff.ite
    | with_reducible apply State.freeFlits_eff
    | with_reducible apply hf

theorem State.setRx_eff {s : State} {m : RxMove}
    (hW : Sub 0x2000000000000000 W) (h : Eff W s₀ s)  : Eff W s₀ (State.setRx s m) := by
  unfold State.setRx
  repeat' first
    | ((with_reducible refine EffL.mk ?_); constructor <;> first | (intro _; with_reducible rfl) | exact fun e => hW.no rfl e)
    | (refine Eff.lit ?_ rfl ?_; with_reducible assumption)

theorem State.dropRx_eff {s : State} {chip : Nat} {id : Nat}
    (hW : Sub 0x2000000000000000 W) (h : Eff W s₀ s)  : Eff W s₀ (State.dropRx s chip id) := by
  unfold State.dropRx
  repeat' first
    | ((with_reducible refine EffL.mk ?_); constructor <;> first | (intro _; with_reducible rfl) | exact fun e => hW.no rfl e)
    | (refine Eff.lit ?_ rfl ?_; with_reducible assumption)

theorem State.storeLines_eff {s : State} {m : RxMove} {a : Nat} {bs : List Byte}
    (hW : Sub 0x100031F00000F3800008 W) (h : Eff W s₀ s)  : Eff W s₀ (State.storeLines s m a bs) := by
  unfold State.storeLines
  repeat' first
    | with_reducible assumption
    | ((with_reducible refine Sub.trans ?_ hW); exact rfl)
    | ((with_reducible refine EffL.mk ?_); constructor <;> first | (intro _; with_reducible rfl) | exact fun e => hW.no rfl e)
    | (extract_lets +onlyGivenNames v; refine (fun (hv : Eff W s₀ v) => ?_) ?_; clear_value v; rotate_left; subst v)
    | with_reducible apply Eff.iteSnd
    | with_reducible apply State.setRx_eff
    | with_reducible apply State.storeBytes_eff
    | with_reducible apply State.t1Range_eff
    | with_reducible apply State.logError_eff
    | dsimp -zeta only
    | split
    | (refine Eff.lit ?_ rfl ?_; with_reducible assumption)

theorem State.takeWrite_eff {s : State} {k : Nat} {cls : Nat} {id : Nat} {arg : Nat} {bs : List Byte}
    (hW : Sub 0x100033F00000F3800008 W) (h : Eff W s₀ s)  : Eff W s₀ (State.takeWrite s k cls id arg bs) := by
  unfold State.takeWrite
  repeat' first
    | with_reducible assumption
    | ((with_reducible refine Sub.trans ?_ hW); exact rfl)
    | (extract_lets +onlyGivenNames v; refine (fun (hv : Eff W s₀ v) => ?_) ?_; clear_value v; rotate_left; subst v)
    | (extract_lets +onlyGivenNames v; clear_value v)
    | with_reducible apply Eff.ite
    | with_reducible apply State.storeLines_eff
    | with_reducible apply State.setRx_eff
    | with_reducible apply State.peerViolation_eff
    | with_reducible apply State.peerMsg_eff

theorem execGydanWrite_eff {port : Fin 3} {cls : Fin 2} {moveId : BitVec 32} {arg : BitVec 32} {bytes : List Byte} {s : State}
    (hW : Sub 0x100033F00000F3800008 W) (h : Eff W s₀ s)  : EffX W s₀ (execGydanWrite port cls moveId arg bytes s) := by
  unfold execGydanWrite
  repeat' first
    | with_reducible assumption
    | ((with_reducible refine Sub.trans ?_ hW); exact rfl)
    | with_reducible apply EffX.of_next
    | with_reducible apply State.takeWrite_eff
    | with_reducible refine State.deliver_eff ?_ ?_ (fun _ _ => ?_)

theorem State.takeSeal_eff {s : State} {k : Nat} {cls : Nat} {id : Nat} {lines : Nat}
    (hW : Sub 0x10002200000000000008 W) (h : Eff W s₀ s)  : Eff W s₀ (State.takeSeal s k cls id lines) := by
  unfold State.takeSeal
  repeat' first
    | with_reducible assumption
    | ((with_reducible refine Sub.trans ?_ hW); exact rfl)
    | (extract_lets +onlyGivenNames v; clear_value v)
    | with_reducible apply Eff.ite
    | with_reducible apply State.dropRx_eff
    | with_reducible apply State.setRx_eff
    | with_reducible apply State.peerMsg_eff
    | split

theorem execGydanSeal_eff {port : Fin 3} {cls : Fin 2} {moveId : BitVec 32} {lines : BitVec 32} {s : State}
    (hW : Sub 0x10002200000000000008 W) (h : Eff W s₀ s)  : EffX W s₀ (execGydanSeal port cls moveId lines s) := by
  unfold execGydanSeal
  repeat' first
    | with_reducible assumption
    | ((with_reducible refine Sub.trans ?_ hW); exact rfl)
    | with_reducible apply EffX.of_next
    | with_reducible apply State.takeSeal_eff
    | with_reducible refine State.deliver_eff ?_ ?_ (fun _ _ => ?_)

theorem State.takeReleased_eff {s : State} {k : Nat} {id : Nat}
    (hW : Sub 0x100031F0010000000008 W) (h : Eff W s₀ s)  : Eff W s₀ (State.takeReleased s k id) := by
  unfold State.takeReleased
  repeat' first
    | with_reducible assumption
    | ((with_reducible refine Sub.trans ?_ hW); exact rfl)
    | ((with_reducible refine EffL.mk ?_); constructor <;> first | (intro _; with_reducible rfl) | exact fun e => hW.no rfl e)
    | (extract_lets +onlyGivenNames v; refine (fun (hv : Eff W s₀ v) => ?_) ?_; clear_value v; rotate_left; subst v)
    | (extract_lets +onlyGivenNames v; clear_value v)
    | with_reducible apply State.dropRx_eff
    | with_reducible apply State.peerViolation_eff
    | with_reducible apply State.rehome_eff
    | split
    | (refine Eff.lit ?_ rfl ?_; with_reducible assumption)

theorem execGydanReleased_eff {port : Fin 3} {cls : Fin 2} {moveId : BitVec 32} {s : State}
    (hW : Sub 0x100033F0010000000008 W) (h : Eff W s₀ s)  : EffX W s₀ (execGydanReleased port cls moveId s) := by
  unfold execGydanReleased
  repeat' first
    | with_reducible assumption
    | ((with_reducible refine Sub.trans ?_ hW); exact rfl)
    | with_reducible apply EffX.of_next
    | with_reducible apply State.takeReleased_eff
    | with_reducible refine State.deliver_eff ?_ ?_ (fun _ _ => ?_)

theorem State.takeDiscardMsg_eff {s : State} {k : Nat} {id : Nat}
    (hW : Sub 0x100021F0000000000008 W) (h : Eff W s₀ s)  : Eff W s₀ (State.takeDiscardMsg s k id) := by
  unfold State.takeDiscardMsg
  repeat' first
    | with_reducible assumption
    | ((with_reducible refine Sub.trans ?_ hW); exact rfl)
    | (extract_lets +onlyGivenNames v; clear_value v)
    | with_reducible apply Eff.ite
    | with_reducible apply State.dropRx_eff
    | with_reducible apply State.peerViolation_eff

theorem execGydanDiscard_eff {port : Fin 3} {cls : Fin 2} {moveId : BitVec 32} {s : State}
    (hW : Sub 0x100023F0000000000008 W) (h : Eff W s₀ s)  : EffX W s₀ (execGydanDiscard port cls moveId s) := by
  unfold execGydanDiscard
  repeat' first
    | with_reducible assumption
    | ((with_reducible refine Sub.trans ?_ hW); exact rfl)
    | with_reducible apply EffX.of_next
    | with_reducible apply State.takeDiscardMsg_eff
    | with_reducible refine State.deliver_eff ?_ ?_ (fun _ _ => ?_)

theorem State.takePull_eff {s : State} {k : Nat} {cls : Nat} {id : Nat} {src : Nat} {dst : Nat} {lines : Nat}
    (hW : Sub 0x1001020000000000000A W) (h : Eff W s₀ s)  : Eff W s₀ (State.takePull s k cls id src dst lines) := by
  unfold State.takePull
  repeat' first
    | with_reducible assumption
    | ((with_reducible refine Sub.trans ?_ hW); exact rfl)
    | ((with_reducible refine EffL.mk ?_); constructor <;> first | (intro _; with_reducible rfl) | exact fun e => hW.no rfl e)
    | (extract_lets +onlyGivenNames v; clear_value v)
    | with_reducible apply Eff.ite
    | with_reducible apply State.peerMsg_eff
    | dsimp -zeta only
    | (refine Eff.lit ?_ rfl ?_; with_reducible apply State.draw_eff)

theorem execGydanPull_eff {port : Fin 3} {cls : Fin 2} {moveId : BitVec 32} {src : Nat} {dst : Nat} {lines : Nat} {s : State}
    (hW : Sub 0x1001020000000000000A W) (h : Eff W s₀ s)  : EffX W s₀ (execGydanPull port cls moveId src dst lines s) := by
  unfold execGydanPull
  repeat' first
    | with_reducible assumption
    | ((with_reducible refine Sub.trans ?_ hW); exact rfl)
    | with_reducible apply EffX.of_next
    | with_reducible apply State.takePull_eff
    | with_reducible refine State.deliver_eff ?_ ?_ (fun _ _ => ?_)

theorem State.takeCommit_eff {s : State} {k : Nat} {id : Nat}
    (hW : Sub 0x100AC3F013046700000A W) (h : Eff W s₀ s)  : Eff W s₀ (State.takeCommit s k id) := by
  unfold State.takeCommit
  repeat' first
    | with_reducible assumption
    | ((with_reducible refine Sub.trans ?_ hW); exact rfl)
    | ((with_reducible refine EffL.mk ?_); constructor <;> first | (intro _; with_reducible rfl) | exact fun e => hW.no rfl e)
    | (extract_lets +onlyGivenNames v; clear_value v)
    | with_reducible apply Eff.ite
    | with_reducible apply State.releaseTx_eff
    | with_reducible apply State.peerViolation_eff
    | split
    | (refine Eff.lit ?_ rfl ?_; with_reducible assumption)

theorem execGydanCommit_eff {port : Fin 3} {cls : Fin 2} {moveId : BitVec 32} {s : State}
    (hW : Sub 0x100AC3F013046700000A W) (h : Eff W s₀ s)  : EffX W s₀ (execGydanCommit port cls moveId s) := by
  unfold execGydanCommit
  repeat' first
    | with_reducible assumption
    | ((with_reducible refine Sub.trans ?_ hW); exact rfl)
    | with_reducible apply EffX.of_next
    | with_reducible apply State.takeCommit_eff
    | with_reducible refine State.deliver_eff ?_ ?_ (fun _ _ => ?_)

theorem State.takeRefuse_eff {s : State} {k : Nat} {id : Nat}
    (hW : Sub 0x100241F0110000000008 W) (h : Eff W s₀ s)  : Eff W s₀ (State.takeRefuse s k id) := by
  unfold State.takeRefuse
  repeat' first
    | with_reducible assumption
    | ((with_reducible refine Sub.trans ?_ hW); exact rfl)
    | with_reducible apply State.failTx_eff
    | with_reducible apply State.peerViolation_eff
    | split

theorem execGydanRefuse_eff {port : Fin 3} {cls : Fin 2} {moveId : BitVec 32} {x3 : BitVec 32} {s : State}
    (hW : Sub 0x100243F0110000000008 W) (h : Eff W s₀ s)  : EffX W s₀ (execGydanRefuse port cls moveId x3 s) := by
  unfold execGydanRefuse
  repeat' first
    | with_reducible assumption
    | ((with_reducible refine Sub.trans ?_ hW); exact rfl)
    | with_reducible apply EffX.of_next
    | with_reducible apply State.takeRefuse_eff
    | with_reducible refine State.deliver_eff ?_ ?_ (fun _ _ => ?_)

theorem State.takeAsk_eff {s : State} {k : Nat} {a : AskBody}
    (hW : Sub 0x1000120000000000000A W) (h : Eff W s₀ s)  : Eff W s₀ (State.takeAsk s k a) := by
  unfold State.takeAsk
  repeat' first
    | with_reducible assumption
    | ((with_reducible refine Sub.trans ?_ hW); exact rfl)
    | ((with_reducible refine EffL.mk ?_); constructor <;> first | (intro _; with_reducible rfl) | exact fun e => hW.no rfl e)
    | (extract_lets +onlyGivenNames v; refine (fun (hv : Eff W s₀ v) => ?_) ?_; clear_value v; rotate_left; subst v)
    | (extract_lets +onlyGivenNames v; have hp := fun a b c => Eff W s₀ (v a b c); clear hp; subst v)
    | (extract_lets +onlyGivenNames v; clear_value v)
    | with_reducible apply Eff.ite
    | with_reducible apply State.choose_eff
    | with_reducible apply State.peerMsg_eff
    | dsimp -zeta only
    | split
    | (refine Eff.lit ?_ rfl ?_; with_reducible assumption)
    | (refine Eff.lit ?_ rfl ?_; with_reducible refine Eff.snd (by with_reducible assumption) ?_)

theorem execAsk_eff {port : Fin 3} {a : AskBody} {s : State}
    (hW : Sub 0x1000120000000000000A W) (h : Eff W s₀ s)  : EffX W s₀ (execAsk port a s) := by
  unfold execAsk
  repeat' first
    | with_reducible assumption
    | ((with_reducible refine Sub.trans ?_ hW); exact rfl)
    | with_reducible apply EffX.of_next
    | with_reducible apply State.takeAsk_eff
    | with_reducible refine State.deliver_eff ?_ ?_ (fun _ _ => ?_)

theorem State.takeGrant_eff {s : State} {m : Migration} {base : Nat}
    (hW : Sub 0x1002C3F00106F78B000A W) (h : Eff W s₀ s)  : Eff W s₀ (State.takeGrant s m base) := by
  unfold State.takeGrant
  repeat' first
    | with_reducible assumption
    | ((with_reducible refine Sub.trans ?_ hW); exact rfl)
    | ((with_reducible refine EffL.mk ?_); constructor <;> first | (intro _; with_reducible rfl) | exact fun e => hW.no rfl e)
    | (extract_lets +onlyGivenNames v; refine (fun (hv : Eff W s₀ v) => ?_) ?_; clear_value v; rotate_left; subst v)
    | (extract_lets +onlyGivenNames v; clear_value v)
    | with_reducible apply State.writeRowMap_eff
    | with_reducible apply State.pushRecord_eff
    | with_reducible apply State.pushSet_eff
    | with_reducible apply State.exportRow_eff
    | (refine Eff.lit ?_ rfl ?_; with_reducible assumption)

theorem State.takeAnswer_eff {s : State} {k : Nat} {sc : Nat} {a : AnswerBody}
    (hW : Sub 0x1002C3F01106F78B000A W) (h : Eff W s₀ s)  : Eff W s₀ (State.takeAnswer s k sc a) := by
  unfold State.takeAnswer
  repeat' first
    | with_reducible assumption
    | ((with_reducible refine Sub.trans ?_ hW); exact rfl)
    | with_reducible apply Eff.ite
    | with_reducible apply State.takeGrant_eff
    | with_reducible apply State.dropMigration_eff
    | with_reducible apply State.settle_eff
    | split

theorem execAnswer_eff {port : Fin 3} {sc : Fin 64} {a : AnswerBody} {s : State}
    (hW : Sub 0x1002C3F01106F78B000A W) (h : Eff W s₀ s)  : EffX W s₀ (execAnswer port sc a s) := by
  unfold execAnswer
  repeat' first
    | with_reducible assumption
    | ((with_reducible refine Sub.trans ?_ hW); exact rfl)
    | with_reducible apply EffX.of_next
    | with_reducible apply State.takeAnswer_eff
    | with_reducible refine State.deliver_eff ?_ ?_ (fun _ _ => ?_)

theorem execAnswerTimeout_eff {sc : Fin 64} {s : State}
    (hW : Sub 0x20000000000000004 W) (h : Eff W s₀ s)  : EffX W s₀ (execAnswerTimeout sc s) := by
  unfold execAnswerTimeout
  repeat' first
    | with_reducible assumption
    | ((with_reducible refine Sub.trans ?_ hW); exact rfl)
    | ((with_reducible refine EffL.mk ?_); constructor <;> first | (intro _; with_reducible rfl) | exact fun e => hW.no rfl e)
    | (extract_lets +onlyGivenNames v; refine (fun (hv : Eff W s₀ v) => ?_) ?_; clear_value v; rotate_left; subst v)
    | with_reducible apply EffX.of_next
    | with_reducible apply State.reach_eff
    | split
    | (refine Eff.lit ?_ rfl ?_; with_reducible assumption)

theorem State.takeWorkend_eff {s : State} {k : Nat} {tick : Nat} {x : Nat}
    (hW : Sub 0x100003F0010000000088 W) (h : Eff W s₀ s)  : Eff W s₀ (State.takeWorkend s k tick x) := by
  unfold State.takeWorkend
  repeat' first
    | with_reducible assumption
    | ((with_reducible refine Sub.trans ?_ hW); exact rfl)
    | with_reducible apply Eff.ite
    | with_reducible apply State.stookClass_eff
    | with_reducible apply State.updTick_eff
    | with_reducible apply State.peerViolation_eff

theorem execWorkend_eff {port : Fin 3} {tick : Nat} {x : Nat} {s : State}
    (hW : Sub 0x100003F0010000000088 W) (h : Eff W s₀ s)  : EffX W s₀ (execWorkend port tick x s) := by
  unfold execWorkend
  repeat' first
    | with_reducible assumption
    | ((with_reducible refine Sub.trans ?_ hW); exact rfl)
    | with_reducible apply EffX.of_next
    | with_reducible apply State.takeWorkend_eff
    | with_reducible refine State.deliver_eff ?_ ?_ (fun _ _ => ?_)

theorem State.followClass_eff {s : State} {tick : Nat} {c : TickClass} {lag : Nat}
    (hW : Sub 0x100001F0010000002088 W) (h : Eff W s₀ s)  : Eff W s₀ (State.followClass s tick c lag) := by
  unfold State.followClass
  repeat' first
    | with_reducible assumption
    | ((with_reducible refine Sub.trans ?_ hW); exact rfl)
    | (extract_lets +onlyGivenNames v; refine (fun (hv : Eff W s₀ v) => ?_) ?_; clear_value v; rotate_left; subst v)
    | (extract_lets +onlyGivenNames v; clear_value v)
    | with_reducible apply Eff.ite
    | with_reducible apply State.latchFor_eff
    | with_reducible apply State.showClass_eff
    | with_reducible apply State.updTick_eff

theorem State.takeClassmsg_eff {s : State} {k : Nat} {tick : Nat} {cls : Nat} {lag : Nat} {mask : Nat}
    (hW : Sub 0x100001F0010000002088 W) (h : Eff W s₀ s)  : Eff W s₀ (State.takeClassmsg s k tick cls lag mask) := by
  unfold State.takeClassmsg
  repeat' first
    | with_reducible assumption
    | ((with_reducible refine Sub.trans ?_ hW); exact rfl)
    | (extract_lets +onlyGivenNames v; refine (fun (hv : Eff W s₀ v) => ?_) ?_; clear_value v; rotate_left; subst v)
    | (extract_lets +onlyGivenNames v; clear_value v)
    | with_reducible apply Eff.ite
    | with_reducible apply State.followClass_eff
    | with_reducible apply State.loseNext_eff
    | with_reducible apply State.reportSkips_eff
    | with_reducible apply State.updTick_eff
    | with_reducible apply State.peerViolation_eff

theorem execClassmsg_eff {port : Fin 3} {tick : Nat} {cls : Nat} {lag : Nat} {mask : Nat} {s : State}
    (hW : Sub 0x100003F0010000002088 W) (h : Eff W s₀ s)  : EffX W s₀ (execClassmsg port tick cls lag mask s) := by
  unfold execClassmsg
  repeat' first
    | with_reducible assumption
    | ((with_reducible refine Sub.trans ?_ hW); exact rfl)
    | with_reducible apply EffX.of_next
    | with_reducible apply State.takeClassmsg_eff
    | with_reducible refine State.deliver_eff ?_ ?_ (fun _ _ => ?_)

theorem execRejoin_eff {port : Fin 3} {s : State}
    (hW : Sub 0x200000000000080 W) (h : Eff W s₀ s)  : EffX W s₀ (execRejoin port s) := by
  unfold execRejoin
  repeat' first
    | with_reducible assumption
    | ((with_reducible refine Sub.trans ?_ hW); exact rfl)
    | with_reducible apply EffX.of_next
    | with_reducible apply Eff.ite
    | with_reducible refine State.deliver_eff ?_ ?_ (fun _ _ => ?_)
    | with_reducible apply State.updTick_eff

theorem execMemberEject_eff {chip : Fin 4} {s : State}
    (hW : Sub 0x10000FF0000000000088 W) (h : Eff W s₀ s)  : EffX W s₀ (execMemberEject chip s) := by
  unfold execMemberEject
  repeat' first
    | with_reducible assumption
    | ((with_reducible refine Sub.trans ?_ hW); exact rfl)
    | (extract_lets +onlyGivenNames v; clear_value v)
    | with_reducible apply EffX.of_next
    | with_reducible apply Eff.ite
    | with_reducible refine Eff.foldl _ (fun _ _ _ => ?_) ?_
    | with_reducible apply State.declareLost_eff
    | with_reducible apply State.peerMsg_eff

theorem execLeave_eff {port : Fin 3} {s : State}
    (hW : Sub 0x10000FF0000000000088 W) (h : Eff W s₀ s)  : EffX W s₀ (execLeave port s) := by
  unfold execLeave
  repeat' first
    | with_reducible assumption
    | ((with_reducible refine Sub.trans ?_ hW); exact rfl)
    | with_reducible apply EffX.of_next
    | with_reducible refine State.deliver_eff ?_ ?_ (fun _ _ => ?_)
    | with_reducible apply State.declareLost_eff

theorem State.takeEject_eff {s : State} {k : Nat} {chip : Nat}
    (hW : Sub 0x10000DF0000000000088 W) (h : Eff W s₀ s)  : Eff W s₀ (State.takeEject s k chip) := by
  unfold State.takeEject
  repeat' first
    | with_reducible assumption
    | ((with_reducible refine Sub.trans ?_ hW); exact rfl)
    | with_reducible apply Eff.ite
    | with_reducible refine Eff.foldl _ (fun _ _ _ => ?_) ?_
    | with_reducible apply State.declareLost_eff
    | with_reducible apply State.peerViolation_eff

theorem execEject_eff {port : Fin 3} {chip : Fin 4} {x2 : BitVec 32} {s : State}
    (hW : Sub 0x10000FF0000000000088 W) (h : Eff W s₀ s)  : EffX W s₀ (execEject port chip x2 s) := by
  unfold execEject
  repeat' first
    | with_reducible assumption
    | ((with_reducible refine Sub.trans ?_ hW); exact rfl)
    | with_reducible apply EffX.of_next
    | with_reducible apply State.takeEject_eff
    | with_reducible refine State.deliver_eff ?_ ?_ (fun _ _ => ?_)

theorem State.takeQuery_eff {s : State} {q : Nat} {r : Req}
    (hW : Sub 0x100003F01000F3800008 W) (h : Eff W s₀ s)  : Eff W s₀ (State.takeQuery s q r) := by
  unfold State.takeQuery
  repeat' first
    | with_reducible assumption
    | ((with_reducible refine Sub.trans ?_ hW); exact rfl)
    | with_reducible apply State.forwardReq_eff
    | with_reducible apply State.answerQuery_eff
    | split

theorem execQuery_eff {q : Fin 16} {tag : BitVec 16} {s : State}
    (hW : Sub 0x100003F01000F3800008 W) (h : Eff W s₀ s)  : EffX W s₀ (execQuery q tag s) := by
  unfold execQuery
  repeat' first
    | with_reducible assumption
    | with_reducible apply EffX.of_next
    | with_reducible apply State.takeQuery_eff
    | split

theorem State.takeReqfwd_eff {s : State} {k : Nat} {bs : List Byte}
    (hW : Sub 0x100003F01000F3800008 W) (h : Eff W s₀ s)  : Eff W s₀ (State.takeReqfwd s k bs) := by
  unfold State.takeReqfwd
  repeat' first
    | with_reducible assumption
    | ((with_reducible refine Sub.trans ?_ hW); exact rfl)
    | (extract_lets +onlyGivenNames v; clear_value v)
    | (extract_lets +onlyGivenNames v; subst v)
    | with_reducible apply Eff.ite
    | with_reducible apply State.answerForwarded_eff
    | with_reducible apply State.answerQuery_eff
    | with_reducible apply State.joinReq_eff
    | split

theorem execReqfwd_eff {port : Fin 3} {record : List Byte} {s : State}
    (hW : Sub 0x100003F01000F3800008 W) (h : Eff W s₀ s)  : EffX W s₀ (execReqfwd port record s) := by
  unfold execReqfwd
  repeat' first
    | with_reducible assumption
    | ((with_reducible refine Sub.trans ?_ hW); exact rfl)
    | with_reducible apply EffX.of_next
    | with_reducible apply State.takeReqfwd_eff
    | with_reducible refine State.deliver_eff ?_ ?_ (fun _ _ => ?_)

theorem State.takeReqdone_eff {s : State} {k : Nat} {bs : List Byte}
    (hW : Sub 0x104001F0100000000008 W) (h : Eff W s₀ s)  : Eff W s₀ (State.takeReqdone s k bs) := by
  unfold State.takeReqdone
  repeat' first
    | with_reducible assumption
    | ((with_reducible refine Sub.trans ?_ hW); exact rfl)
    | ((with_reducible refine EffL.mk ?_); constructor <;> first | (intro _; with_reducible rfl) | exact fun e => hW.no rfl e)
    | (extract_lets +onlyGivenNames v; have hp := v.flash; clear hp; subst v)
    | (extract_lets +onlyGivenNames v; clear_value v)
    | with_reducible apply Eff.ite
    | with_reducible apply State.peerViolation_eff
    | with_reducible apply State.showEpoch_eff
    | with_reducible apply State.settle_eff
    | split
    | (refine Eff.lit ?_ rfl ?_; with_reducible assumption)

theorem execReqdone_eff {port : Fin 3} {record : List Byte} {s : State}
    (hW : Sub 0x104003F0100000000008 W) (h : Eff W s₀ s)  : EffX W s₀ (execReqdone port record s) := by
  unfold execReqdone
  repeat' first
    | with_reducible assumption
    | ((with_reducible refine Sub.trans ?_ hW); exact rfl)
    | with_reducible apply EffX.of_next
    | with_reducible apply State.takeReqdone_eff
    | with_reducible refine State.deliver_eff ?_ ?_ (fun _ _ => ?_)

theorem State.postProxied_eff {s : State} {sc : Nat} {bs : List Byte}
    (hW : Sub 0x10000000170083800008 W) (h : Eff W s₀ s)  : Eff W s₀ (State.postProxied s sc bs) := by
  unfold State.postProxied
  repeat' first
    | with_reducible assumption
    | ((with_reducible refine Sub.trans ?_ hW); exact rfl)
    | ((with_reducible refine EffL.mk ?_); constructor <;> first | (intro _; with_reducible rfl) | exact fun e => hW.no rfl e)
    | (extract_lets +onlyGivenNames v; refine (fun (hv : Eff W s₀ v) => ?_) ?_; clear_value v; rotate_left; subst v)
    | (extract_lets +onlyGivenNames v; clear_value v)
    | with_reducible apply Eff.ite
    | with_reducible apply State.showHeld_eff
    | with_reducible apply State.writeRecord_eff
    | with_reducible apply State.setStream_eff
    | split
    | (refine Eff.lit ?_ rfl ?_; with_reducible assumption)

theorem State.takeResult_eff {s : State} {k : Nat} {sc : Nat} {records : List (List Byte)}
    (hW : Sub 0x100001F0170083800008 W) (h : Eff W s₀ s)  : Eff W s₀ (State.takeResult s k sc records) := by
  unfold State.takeResult
  repeat' first
    | with_reducible assumption
    | ((with_reducible refine Sub.trans ?_ hW); exact rfl)
    | with_reducible apply Eff.ite
    | with_reducible refine Eff.foldl _ (fun _ _ _ => ?_) ?_
    | with_reducible apply State.postProxied_eff
    | with_reducible apply State.peerViolation_eff

theorem execResult_eff {port : Fin 3} {sc : Fin 64} {records : List (List Byte)} {s : State}
    (hW : Sub 0x100003F0170083800008 W) (h : Eff W s₀ s)  : EffX W s₀ (execResult port sc records s) := by
  unfold execResult
  repeat' first
    | with_reducible assumption
    | ((with_reducible refine Sub.trans ?_ hW); exact rfl)
    | with_reducible apply EffX.of_next
    | with_reducible apply State.takeResult_eff
    | with_reducible refine State.deliver_eff ?_ ?_ (fun _ _ => ?_)

theorem State.takeLocate_eff {s : State} {k : Nat} {sc : Nat} {chip : Nat}
    (hW : Sub 0x100201F0110000000008 W) (h : Eff W s₀ s)  : Eff W s₀ (State.takeLocate s k sc chip) := by
  unfold State.takeLocate
  repeat' first
    | with_reducible assumption
    | ((with_reducible refine Sub.trans ?_ hW); exact rfl)
    | ((with_reducible refine EffL.mk ?_); constructor <;> first | (intro _; with_reducible rfl) | exact fun e => hW.no rfl e)
    | (extract_lets +onlyGivenNames v; refine (fun (hv : Eff W s₀ v) => ?_) ?_; clear_value v; rotate_left; subst v)
    | with_reducible apply Eff.ite
    | with_reducible apply State.peerViolation_eff
    | with_reducible apply State.settle_eff
    | with_reducible apply State.setStream_eff
    | split
    | (refine Eff.lit ?_ rfl ?_; with_reducible assumption)

theorem execLocate_eff {port : Fin 3} {sc : Fin 64} {chip : Fin 4} {s : State}
    (hW : Sub 0x100203F0110000000008 W) (h : Eff W s₀ s)  : EffX W s₀ (execLocate port sc chip s) := by
  unfold execLocate
  repeat' first
    | with_reducible assumption
    | ((with_reducible refine Sub.trans ?_ hW); exact rfl)
    | with_reducible apply EffX.of_next
    | with_reducible apply State.takeLocate_eff
    | with_reducible refine State.deliver_eff ?_ ?_ (fun _ _ => ?_)

end Sys2Proof.Machine
end

