-- ==== Sys2Proof/Laws/EffPower.lean ====
section
/-!
SUPPORT. Laws/EffPower.lean: which fields of the state every operation of Machine/Power.lean may change.
-/
namespace Sys2Proof.Machine

variable {W : Nat} {s₀ : State}

theorem State.updPwr_eff {s : State} {f : PowerState → PowerState}
    (hW : Sub 0x40000000000000000 W) (h : Eff W s₀ s)  : Eff W s₀ (State.updPwr s f) := by
  unfold State.updPwr
  repeat' first
    | ((with_reducible refine EffL.mk ?_); constructor <;> first | (intro _; with_reducible rfl) | exact fun e => hW.no rfl e)
    | (refine Eff.lit ?_ rfl ?_; with_reducible assumption)

theorem State.divOpen_eff {s : State} {a : Int} {b : Nat}
    (hW : Sub 0x2 W) (h : Eff W s₀ s)  : Eff W s₀ (State.divOpen s a b).2 := by
  unfold State.divOpen
  repeat' first
    | with_reducible assumption
    | (extract_lets +onlyGivenNames v; clear_value v)
    | with_reducible apply Eff.iteSnd
    | with_reducible apply State.draw_eff

theorem State.divOpenNat_eff {s : State} {a : Nat} {b : Nat}
    (hW : Sub 0x2 W) (h : Eff W s₀ s)  : Eff W s₀ (State.divOpenNat s a b).2 := by
  unfold State.divOpenNat
  repeat' first
    | with_reducible assumption
    | with_reducible apply State.divOpen_eff

theorem State.showReading_eff {s : State} {i : Nat} {r : Option Int}
    (hW : Sub 0x8 W) (h : Eff W s₀ s)  : Eff W s₀ (State.showReading s i r) := by
  unfold State.showReading
  repeat' first
    | with_reducible assumption
    | (extract_lets +onlyGivenNames v; clear_value v)
    | with_reducible apply State.setBit_eff
    | with_reducible apply State.setFld_eff
    | split

theorem State.readSensor_eff {s : State} {i : Nat} {r : Option Int}
    (hW : Sub 0x100401F0000000000008 W) (h : Eff W s₀ s)  : Eff W s₀ (State.readSensor s i r) := by
  unfold State.readSensor
  repeat' first
    | with_reducible assumption
    | ((with_reducible refine Sub.trans ?_ hW); exact rfl)
    | (extract_lets +onlyGivenNames v; refine (fun (hv : Eff W s₀ v) => ?_) ?_; clear_value v; rotate_left; subst v)
    | (extract_lets +onlyGivenNames v; clear_value v)
    | with_reducible apply Eff.ite
    | with_reducible apply State.showReading_eff
    | with_reducible apply State.updPwr_eff
    | with_reducible apply State.logError_eff
    | with_reducible apply State.raise_eff

theorem State.startDerating_eff {s : State}
    (hW : Sub 0x40000000000000000 W) (h : Eff W s₀ s)  : Eff W s₀ (State.startDerating s) := by
  unfold State.startDerating
  repeat' first
    | with_reducible assumption
    | with_reducible apply Eff.ite
    | with_reducible apply State.updPwr_eff

theorem State.readSensors_eff {s : State} {readings : List SensorReading}
    (hW : Sub 0x106C03F0000200002088 W) (h : Eff W s₀ s)  : Eff W s₀ (State.readSensors s readings) := by
  unfold State.readSensors
  repeat' first
    | with_reducible assumption
    | ((with_reducible refine Sub.trans ?_ hW); exact rfl)
    | (extract_lets +onlyGivenNames v; refine (fun (hv : Eff W s₀ v) => ?_) ?_; clear_value v; rotate_left; subst v)
    | (extract_lets +onlyGivenNames v; clear_value v)
    | with_reducible refine Eff.foldl _ (fun _ _ _ => ?_) ?_
    | with_reducible apply State.startDerating_eff
    | with_reducible apply State.readSensor_eff
    | with_reducible apply State.updPwr_eff
    | with_reducible apply State.showCap_eff
    | with_reducible apply State.thermalTrip_eff
    | with_reducible apply State.setBit_eff
    | with_reducible apply State.setFld_eff
    | split

theorem execSensorRead_eff {readings : List SensorReading} {s : State}
    (hW : Sub 0x106C03F0000200002088 W) (h : Eff W s₀ s)  : EffX W s₀ (execSensorRead readings s) := by
  unfold execSensorRead
  repeat' first
    | with_reducible assumption
    | with_reducible apply EffX.of_next
    | with_reducible apply Eff.ite
    | with_reducible apply State.readSensors_eff

theorem execThermalDerateStep_eff {s : State}
    (hW : Sub 0x40000000000000008 W) (h : Eff W s₀ s)  : EffX W s₀ (execThermalDerateStep s) := by
  unfold execThermalDerateStep
  repeat' first
    | with_reducible assumption
    | ((with_reducible refine Sub.trans ?_ hW); exact rfl)
    | (extract_lets +onlyGivenNames v; clear_value v)
    | with_reducible apply EffX.of_next
    | with_reducible apply Eff.ite
    | with_reducible apply State.updPwr_eff
    | with_reducible apply State.showCap_eff
    | split

theorem State.readRail_eff {s : State} {r : Nat} {x : RailReading}
    (hW : Sub 0x100401F000000000000A W) (h : Eff W s₀ s)  : Eff W s₀ (State.readRail s r x) := by
  unfold State.readRail
  repeat' first
    | with_reducible assumption
    | ((with_reducible refine Sub.trans ?_ hW); exact rfl)
    | (extract_lets +onlyGivenNames v; have hp := fun a b => Eff W s₀ (v a b); clear hp; subst v)
    | with_reducible apply State.divOpenNat_eff
    | with_reducible apply State.updPwr_eff
    | with_reducible apply State.logError_eff
    | with_reducible apply State.raise_eff
    | dsimp -zeta only
    | split

theorem State.closePeriod_eff {s : State} {mw : Nat}
    (hW : Sub 0x40000000000000002 W) (h : Eff W s₀ s)  : Eff W s₀ (State.closePeriod s mw) := by
  unfold State.closePeriod
  repeat' first
    | with_reducible assumption
    | ((with_reducible refine Sub.trans ?_ hW); exact rfl)
    | (extract_lets +onlyGivenNames v; clear_value v)
    | with_reducible apply Eff.iteSnd
    | with_reducible apply State.divOpenNat_eff
    | with_reducible apply State.updPwr_eff

theorem State.measure_eff {s : State} {readings : List RailReading}
    (hW : Sub 0x100401F000000000000A W) (h : Eff W s₀ s)  : Eff W s₀ (State.measure s readings) := by
  unfold State.measure
  repeat' first
    | with_reducible assumption
    | ((with_reducible refine Sub.trans ?_ hW); exact rfl)
    | (extract_lets +onlyGivenNames v; refine (fun (hv : Eff W s₀ v) => ?_) ?_; clear_value v; rotate_left; subst v)
    | (extract_lets +onlyGivenNames v; clear_value v)
    | with_reducible apply Eff.ite
    | with_reducible refine Eff.foldl _ (fun _ _ _ => ?_) ?_
    | with_reducible apply State.closePeriod_eff
    | with_reducible apply State.readRail_eff
    | with_reducible apply State.logError_eff
    | with_reducible apply State.raise_eff
    | with_reducible apply State.setBit_eff
    | with_reducible apply State.setFld_eff

theorem execPmbusPeriod_eff {readings : List RailReading} {lengthened : Bool} {s : State}
    (hW : Sub 0x100401F000000000000A W) (h : Eff W s₀ s)  : EffX W s₀ (execPmbusPeriod readings lengthened s) := by
  unfold execPmbusPeriod
  repeat' first
    | with_reducible assumption
    | ((with_reducible refine Sub.trans ?_ hW); exact rfl)
    | (extract_lets +onlyGivenNames v; refine (fun (hv : Eff W s₀ v) => ?_) ?_; clear_value v; rotate_left; subst v)
    | with_reducible apply EffX.of_next
    | with_reducible apply Eff.ite
    | with_reducible apply State.measure_eff
    | with_reducible apply State.raise_eff

theorem State.pmbus_eff {s : State} {r : Nat} {command : Nat} {data : Nat}
    (hW : Sub 0x10000000000000000000 W) (h : Eff W s₀ s)  : Eff W s₀ (State.pmbus s r command data) := by
  unfold State.pmbus
  repeat' first
    | with_reducible assumption
    | with_reducible apply State.emit_eff

theorem execPmbAlert_eff {status : List Word} {s : State}
    (hW : Sub 0x100001F0000000000008 W) (h : Eff W s₀ s)  : EffX W s₀ (execPmbAlert status s) := by
  unfold execPmbAlert
  repeat' first
    | with_reducible assumption
    | ((with_reducible refine Sub.trans ?_ hW); exact rfl)
    | (extract_lets +onlyGivenNames v; refine (fun (hv : Eff W s₀ v) => ?_) ?_; clear_value v; rotate_left; subst v)
    | (extract_lets +onlyGivenNames v; clear_value v)
    | with_reducible apply EffX.of_next
    | with_reducible apply Eff.ite
    | with_reducible refine Eff.foldl _ (fun _ _ _ => ?_) ?_
    | with_reducible apply State.pmbus_eff
    | with_reducible apply State.logError_eff
    | with_reducible apply State.raise_eff

theorem State.addMicro_eff {s : State} {r : Nat} {carry : Nat} {nj : Nat}
    (hW : Sub 0x8 W) (h : Eff W s₀ s)  : Eff W s₀ (State.addMicro s r carry nj).2 := by
  unfold State.addMicro
  repeat' first
    | with_reducible assumption
    | with_reducible apply State.add64_eff

theorem State.unattributed_eff {s : State} {nj : Nat}
    (hW : Sub 0x40000000000000008 W) (h : Eff W s₀ s)  : Eff W s₀ (State.unattributed s nj) := by
  unfold State.unattributed
  repeat' first
    | with_reducible assumption
    | ((with_reducible refine Sub.trans ?_ hW); exact rfl)
    | with_reducible apply State.addMicro_eff
    | with_reducible apply State.updPwr_eff

theorem State.shareEnergy_eff {s : State} {owners : List Nat} {nj : Nat}
    (hW : Sub 0x40000000000000008 W) (h : Eff W s₀ s)  : Eff W s₀ (State.shareEnergy s owners nj) := by
  unfold State.shareEnergy
  repeat' first
    | with_reducible assumption
    | ((with_reducible refine Sub.trans ?_ hW); exact rfl)
    | (extract_lets +onlyGivenNames v; refine (fun (hv : Eff W s₀ v) => ?_) ?_; clear_value v; rotate_left; subst v)
    | (extract_lets +onlyGivenNames v; clear_value v)
    | with_reducible apply Eff.ite
    | with_reducible apply State.unattributed_eff
    | with_reducible apply State.updPwr_eff

theorem State.attribute_eff {s : State} {all : Nat} {far : Nat}
    (hW : Sub 0x40000000000000008 W) (h : Eff W s₀ s)  : Eff W s₀ (State.attribute s all far) := by
  unfold State.attribute
  repeat' first
    | with_reducible assumption
    | ((with_reducible refine Sub.trans ?_ hW); exact rfl)
    | with_reducible apply Eff.ite
    | with_reducible apply State.shareEnergy_eff
    | with_reducible apply State.addMicro_eff
    | with_reducible apply State.updPwr_eff

theorem State.setDuty_eff {s : State} {c : Nat} {deficit : Nat} {demand : Nat}
    (hW : Sub 0x100401F0000000000008 W) (h : Eff W s₀ s)  : Eff W s₀ (State.setDuty s c deficit demand) := by
  unfold State.setDuty
  repeat' first
    | with_reducible assumption
    | ((with_reducible refine Sub.trans ?_ hW); exact rfl)
    | (extract_lets +onlyGivenNames v; refine (fun (hv : Eff W s₀ v) => ?_) ?_; clear_value v; rotate_left; subst v)
    | (extract_lets +onlyGivenNames v; clear_value v)
    | with_reducible apply Eff.ite
    | with_reducible apply State.updPwr_eff
    | with_reducible apply State.logError_eff
    | with_reducible apply State.raise_eff
    | with_reducible apply State.setFld_eff

theorem State.applyCommon_eff {s : State}
    (hW : Sub 0x40000000000000008 W) (h : Eff W s₀ s)  : Eff W s₀ (State.applyCommon s) := by
  unfold State.applyCommon
  repeat' first
    | with_reducible assumption
    | ((with_reducible refine Sub.trans ?_ hW); exact rfl)
    | (extract_lets +onlyGivenNames v; clear_value v)
    | with_reducible apply Eff.ite
    | with_reducible apply State.updPwr_eff
    | with_reducible apply State.setFld_eff

theorem State.countEstimate_eff {s : State} {raw : RawEstimate} {b : Nat}
    (hW : Sub 0x4000000000000000A W) (h : Eff W s₀ s)  : Eff W s₀ (State.countEstimate s raw b) := by
  unfold State.countEstimate
  repeat' first
    | with_reducible assumption
    | ((with_reducible refine Sub.trans ?_ hW); exact rfl)
    | (extract_lets +onlyGivenNames v; clear_value v)
    | with_reducible apply State.attribute_eff
    | with_reducible apply State.divOpenNat_eff
    | with_reducible apply State.updPwr_eff
    | with_reducible apply State.setFld_eff

theorem State.shareCap_eff {s : State} {raw : RawEstimate}
    (hW : Sub 0x100401F000000000000A W) (h : Eff W s₀ s)  : Eff W s₀ (State.shareCap s raw) := by
  unfold State.shareCap
  repeat' first
    | with_reducible assumption
    | ((with_reducible refine Sub.trans ?_ hW); exact rfl)
    | (extract_lets +onlyGivenNames v; refine (fun (hv : Eff W s₀ v) => ?_) ?_; clear_value v; rotate_left; subst v)
    | (extract_lets +onlyGivenNames v; clear_value v)
    | (extract_lets +onlyGivenNames v; subst v)
    | with_reducible refine Eff.foldl _ (fun _ _ _ => ?_) ?_
    | with_reducible apply State.countEstimate_eff
    | with_reducible apply State.setDuty_eff

theorem execPowerShareInterval_eff {raw : RawEstimate} {s : State}
    (hW : Sub 0x100401F000000000000E W) (h : Eff W s₀ s)  : EffX W s₀ (execPowerShareInterval raw s) := by
  unfold execPowerShareInterval
  repeat' first
    | with_reducible assumption
    | ((with_reducible refine Sub.trans ?_ hW); exact rfl)
    | with_reducible apply EffX.of_next
    | with_reducible apply Eff.ite
    | with_reducible apply State.shareCap_eff
    | with_reducible apply State.applyCommon_eff
    | with_reducible apply State.showCap_eff
    | with_reducible apply State.reach_eff

theorem State.fitOffset_eff {s : State} {n : Nat} {sx : Int} {sy : Int} {a : Int} {b : Nat}
    (hW : Sub 0xA W) (h : Eff W s₀ s)  : Eff W s₀ (State.fitOffset s n sx sy a b).2 := by
  unfold State.fitOffset
  repeat' first
    | with_reducible assumption
    | ((with_reducible refine Sub.trans ?_ hW); exact rfl)
    | with_reducible apply State.divOpen_eff
    | with_reducible apply State.setFld_eff

theorem State.calLimited_eff {s : State} {out : Bool}
    (hW : Sub 0x100001F0000000000008 W) (h : Eff W s₀ s)  : Eff W s₀ (State.calLimited s out) := by
  unfold State.calLimited
  repeat' first
    | with_reducible assumption
    | ((with_reducible refine Sub.trans ?_ hW); exact rfl)
    | with_reducible apply Eff.ite
    | with_reducible apply State.logError_eff
    | with_reducible apply State.raise_eff

theorem State.fit_eff {s : State} {pairs : List (Nat × Nat)}
    (hW : Sub 0x100001F000000000000A W) (h : Eff W s₀ s)  : Eff W s₀ (State.fit s pairs) := by
  unfold State.fit
  repeat' first
    | with_reducible assumption
    | ((with_reducible refine Sub.trans ?_ hW); exact rfl)
    | (extract_lets +onlyGivenNames v; clear_value v)
    | with_reducible apply Eff.ite
    | with_reducible apply Eff.iteSnd
    | with_reducible apply State.calLimited_eff
    | with_reducible apply State.fitOffset_eff
    | with_reducible apply State.divOpen_eff
    | with_reducible apply State.setFld_eff

theorem execCalibrationFit_eff {s : State}
    (hW : Sub 0x100401F000000000000A W) (h : Eff W s₀ s)  : EffX W s₀ (execCalibrationFit s) := by
  unfold execCalibrationFit
  repeat' first
    | with_reducible assumption
    | ((with_reducible refine Sub.trans ?_ hW); exact rfl)
    | (extract_lets +onlyGivenNames v; refine (fun (hv : Eff W s₀ v) => ?_) ?_; clear_value v; rotate_left; subst v)
    | (extract_lets +onlyGivenNames v; clear_value v)
    | with_reducible apply EffX.of_next
    | with_reducible apply Eff.ite
    | with_reducible apply State.fit_eff
    | with_reducible apply State.updPwr_eff

theorem State.commandPoint_eff {s : State} {rail : Nat} {p : Nat}
    (hW : Sub 0x10040000000000000008 W) (h : Eff W s₀ s)  : Eff W s₀ (State.commandPoint s rail p) := by
  unfold State.commandPoint
  repeat' first
    | with_reducible assumption
    | ((with_reducible refine Sub.trans ?_ hW); exact rfl)
    | (extract_lets +onlyGivenNames v; refine (fun (hv : Eff W s₀ v) => ?_) ?_; clear_value v; rotate_left; subst v)
    | (extract_lets +onlyGivenNames v; clear_value v)
    | with_reducible apply State.pmbus_eff
    | with_reducible apply State.updPwr_eff
    | with_reducible apply State.setFld_eff

theorem State.checkVoltage_eff {s : State} {rail : Nat} {readBack : Option Nat}
    (hW : Sub 0x100401F0000000000008 W) (h : Eff W s₀ s)  : Eff W s₀ (State.checkVoltage s rail readBack) := by
  unfold State.checkVoltage
  repeat' first
    | with_reducible assumption
    | ((with_reducible refine Sub.trans ?_ hW); exact rfl)
    | (extract_lets +onlyGivenNames v; refine (fun (hv : Eff W s₀ v) => ?_) ?_; clear_value v; rotate_left; subst v)
    | with_reducible apply Eff.ite
    | with_reducible apply State.commandPoint_eff
    | with_reducible apply State.updPwr_eff
    | with_reducible apply State.logError_eff
    | with_reducible apply State.raise_eff
    | split

theorem State.choosePoint_eff {s : State} {rail : Nat}
    (hW : Sub 0x10040000000000000008 W) (h : Eff W s₀ s)  : Eff W s₀ (State.choosePoint s rail) := by
  unfold State.choosePoint
  repeat' first
    | with_reducible assumption
    | ((with_reducible refine Sub.trans ?_ hW); exact rfl)
    | (extract_lets +onlyGivenNames v; refine (fun (hv : Eff W s₀ v) => ?_) ?_; clear_value v; rotate_left; subst v)
    | (extract_lets +onlyGivenNames v; clear_value v)
    | with_reducible apply Eff.ite
    | with_reducible apply State.commandPoint_eff
    | with_reducible apply State.updPwr_eff
    | split

theorem execVoltageSelection_eff {readBack : Option Nat} {s : State}
    (hW : Sub 0x100401F0000000000008 W) (h : Eff W s₀ s)  : EffX W s₀ (execVoltageSelection readBack s) := by
  unfold execVoltageSelection
  repeat' first
    | with_reducible assumption
    | ((with_reducible refine Sub.trans ?_ hW); exact rfl)
    | (extract_lets +onlyGivenNames v; refine (fun (hv : Eff W s₀ v) => ?_) ?_; clear_value v; rotate_left; subst v)
    | with_reducible apply EffX.of_next
    | with_reducible apply Eff.ite
    | with_reducible apply State.choosePoint_eff
    | with_reducible apply State.checkVoltage_eff
    | with_reducible apply State.commandPoint_eff
    | with_reducible apply State.updPwr_eff
    | with_reducible apply State.raise_eff
    | split

theorem execCapWrite_eff {i : Iface} {v : Word} {s : State}
    (hW : Sub 0x100001F0000000000008 W) (h : Eff W s₀ s)  : EffX W s₀ (execCapWrite i v s) := by
  unfold execCapWrite
  repeat' first
    | with_reducible assumption
    | ((with_reducible refine Sub.trans ?_ hW); exact rfl)
    | with_reducible apply EffX.of_next
    | with_reducible apply Eff.ite
    | with_reducible apply State.showCap_eff
    | with_reducible apply State.writeCap_eff

theorem State.applyShare_eff {s : State} {mw : Nat}
    (hW : Sub 0x40000000000000008 W) (h : Eff W s₀ s)  : Eff W s₀ (State.applyShare s mw) := by
  unfold State.applyShare
  repeat' first
    | with_reducible assumption
    | ((with_reducible refine Sub.trans ?_ hW); exact rfl)
    | (extract_lets +onlyGivenNames v; refine (fun (hv : Eff W s₀ v) => ?_) ?_; clear_value v; rotate_left; subst v)
    | with_reducible apply State.updPwr_eff
    | with_reducible apply State.showCap_eff
    | with_reducible apply State.setFld_eff

theorem State.sendShares_eff {s : State}
    (hW : Sub 0x10040200000000000008 W) (h : Eff W s₀ s)  : Eff W s₀ (State.sendShares s) := by
  unfold State.sendShares
  repeat' first
    | with_reducible assumption
    | ((with_reducible refine Sub.trans ?_ hW); exact rfl)
    | (extract_lets +onlyGivenNames v; refine (fun (hv : Eff W s₀ v) => ?_) ?_; clear_value v; rotate_left; subst v)
    | (extract_lets +onlyGivenNames v; clear_value v)
    | with_reducible apply Eff.ite
    | with_reducible refine Eff.foldl _ (fun _ _ _ => ?_) ?_
    | with_reducible apply State.applyShare_eff
    | with_reducible apply State.updPwr_eff
    | with_reducible apply State.peerMsg_eff
    | with_reducible apply State.setFld_eff

theorem execStookSharePeriod_eff {s : State}
    (hW : Sub 0x10040200000000000008 W) (h : Eff W s₀ s)  : EffX W s₀ (execStookSharePeriod s) := by
  unfold execStookSharePeriod
  repeat' first
    | with_reducible assumption
    | ((with_reducible refine Sub.trans ?_ hW); exact rfl)
    | (extract_lets +onlyGivenNames v; refine (fun (hv : Eff W s₀ v) => ?_) ?_; clear_value v; rotate_left; subst v)
    | (extract_lets +onlyGivenNames v; clear_value v)
    | with_reducible apply EffX.of_next
    | with_reducible apply Eff.ite
    | with_reducible refine Eff.foldl _ (fun _ _ _ => ?_) ?_
    | with_reducible apply State.sendShares_eff
    | with_reducible apply State.updPwr_eff
    | with_reducible apply State.showCap_eff
    | with_reducible apply State.peerMsg_eff
    | with_reducible apply State.setFld_eff
    | with_reducible apply State.setReg_eff

theorem execReport_eff {port : Fin 3} {cap : Nat} {estimate : Nat} {workEnd : Nat} {s : State}
    (hW : Sub 0x40200000000000000 W) (h : Eff W s₀ s)  : EffX W s₀ (execReport port cap estimate workEnd s) := by
  unfold execReport
  repeat' first
    | with_reducible assumption
    | ((with_reducible refine Sub.trans ?_ hW); exact rfl)
    | with_reducible apply EffX.of_next
    | with_reducible apply Eff.ite
    | with_reducible apply State.updPwr_eff
    | with_reducible refine State.deliver_eff ?_ ?_ (fun _ _ => ?_)

theorem execShare_eff {port : Fin 3} {mw : Nat} {x2 : Nat} {s : State}
    (hW : Sub 0x100403F0000000000008 W) (h : Eff W s₀ s)  : EffX W s₀ (execShare port mw x2 s) := by
  unfold execShare
  repeat' first
    | with_reducible assumption
    | ((with_reducible refine Sub.trans ?_ hW); exact rfl)
    | (extract_lets +onlyGivenNames v; clear_value v)
    | with_reducible apply EffX.of_next
    | with_reducible apply Eff.ite
    | with_reducible apply State.applyShare_eff
    | with_reducible apply State.updPwr_eff
    | with_reducible refine State.deliver_eff ?_ ?_ (fun _ _ => ?_)
    | with_reducible apply State.peerViolation_eff

theorem execShareTimeout_eff {s : State}
    (hW : Sub 0x100401F000000000000C W) (h : Eff W s₀ s)  : EffX W s₀ (execShareTimeout s) := by
  unfold execShareTimeout
  repeat' first
    | with_reducible assumption
    | ((with_reducible refine Sub.trans ?_ hW); exact rfl)
    | (extract_lets +onlyGivenNames v; refine (fun (hv : Eff W s₀ v) => ?_) ?_; clear_value v; rotate_left; subst v)
    | with_reducible apply EffX.of_next
    | with_reducible apply Eff.ite
    | with_reducible apply State.updPwr_eff
    | with_reducible apply State.logError_eff
    | with_reducible apply State.raise_eff
    | with_reducible apply State.reach_eff

end Sys2Proof.Machine
end

