-- ==== Sys2Proof/Laws/EffTraining.lean ====
section
/-!
SUPPORT. Laws/EffTraining.lean: which fields of the state every operation of Machine/Training.lean may change.
-/
namespace Sys2Proof.Machine

variable {W : Nat} {s₀ : State}

theorem State.setLink_eff {s : State} {k : Nat} {st : Nat}
    (hW : Sub 0x8 W) (h : Eff W s₀ s)  : Eff W s₀ (State.setLink s k st) := by
  unfold State.setLink
  repeat' first
    | with_reducible assumption
    | (extract_lets +onlyGivenNames v; refine (fun (hv : Eff W s₀ v) => ?_) ?_; clear_value v; rotate_left; subst v)
    | (extract_lets +onlyGivenNames v; clear_value v)
    | with_reducible apply State.setBit_eff
    | with_reducible apply State.setFld_eff

theorem State.retrain_eff {s : State} {k : Nat}
    (hW : Sub 0x100003F0000000000008 W) (h : Eff W s₀ s)  : Eff W s₀ (State.retrain s k) := by
  unfold State.retrain
  repeat' first
    | with_reducible assumption
    | ((with_reducible refine Sub.trans ?_ hW); exact rfl)
    | (extract_lets +onlyGivenNames v; refine (fun (hv : Eff W s₀ v) => ?_) ?_; clear_value v; rotate_left; subst v)
    | with_reducible apply Eff.ite
    | with_reducible apply State.setLink_eff
    | with_reducible apply State.emit_eff
    | with_reducible apply State.updPort_eff
    | with_reducible apply State.logError_eff
    | with_reducible apply State.addSat_eff

theorem State.resend_eff {s : State} {k : Nat}
    (hW : Sub 0x100003F0000000000008 W) (h : Eff W s₀ s)  : Eff W s₀ (State.resend s k) := by
  unfold State.resend
  repeat' first
    | with_reducible assumption
    | ((with_reducible refine Sub.trans ?_ hW); exact rfl)
    | (extract_lets +onlyGivenNames v; refine (fun (hv : Eff W s₀ v) => ?_) ?_; clear_value v; rotate_left; subst v)
    | (extract_lets +onlyGivenNames v; clear_value v)
    | with_reducible apply Eff.ite
    | with_reducible apply State.retrain_eff
    | with_reducible apply State.updPort_eff
    | with_reducible apply State.addSat_eff

theorem State.takeTrailer_eff {s : State} {k : Nat} {f : Flit}
    (hW : Sub 0x100003F0000000000008 W) (h : Eff W s₀ s)  : Eff W s₀ (State.takeTrailer s k f) := by
  unfold State.takeTrailer
  repeat' first
    | with_reducible assumption
    | ((with_reducible refine Sub.trans ?_ hW); exact rfl)
    | (extract_lets +onlyGivenNames v; refine (fun (hv : Eff W s₀ v) => ?_) ?_; clear_value v; rotate_left; subst v)
    | with_reducible apply Eff.ite
    | with_reducible apply State.resend_eff
    | with_reducible apply State.updPort_eff

theorem State.discardFlit_eff {s : State} {k : Nat}
    (hW : Sub 0x200000000000000 W) (h : Eff W s₀ s)  : Eff W s₀ (State.discardFlit s k) := by
  unfold State.discardFlit
  repeat' first
    | with_reducible assumption
    | with_reducible apply State.updPort_eff

theorem State.takeMessageFlit_eff {s : State} {k : Nat} {f : Flit}
    (hW : Sub 0x100003F0000000000008 W) (h : Eff W s₀ s)  : Eff W s₀ (State.takeMessageFlit s k f) := by
  unfold State.takeMessageFlit
  repeat' first
    | with_reducible assumption
    | ((with_reducible refine Sub.trans ?_ hW); exact rfl)
    | (extract_lets +onlyGivenNames v; clear_value v)
    | with_reducible apply Eff.ite
    | with_reducible apply State.discardFlit_eff
    | with_reducible apply State.takeTrailer_eff
    | with_reducible apply State.peerViolation_eff
    | with_reducible apply State.updPort_eff

theorem execFlitReceive_eff {port : Fin 3} {f : Flit} {s : State}
    (hW : Sub 0x100003F0000000000008 W) (h : Eff W s₀ s)  : EffX W s₀ (execFlitReceive port f s) := by
  unfold execFlitReceive
  repeat' first
    | with_reducible assumption
    | ((with_reducible refine Sub.trans ?_ hW); exact rfl)
    | with_reducible apply EffX.of_next
    | with_reducible apply Eff.ite
    | with_reducible apply State.takeMessageFlit_eff
    | with_reducible apply State.discardFlit_eff
    | with_reducible apply State.takeTrailer_eff
    | with_reducible apply State.retrain_eff
    | with_reducible apply State.peerViolation_eff
    | with_reducible apply State.pumpPort_eff
    | with_reducible apply State.addSat_eff

theorem execAckTimeout_eff {port : Fin 3} {s : State}
    (hW : Sub 0x100003F0000000000008 W) (h : Eff W s₀ s)  : EffX W s₀ (execAckTimeout port s) := by
  unfold execAckTimeout
  repeat' first
    | with_reducible assumption
    | ((with_reducible refine Sub.trans ?_ hW); exact rfl)
    | (extract_lets +onlyGivenNames v; refine (fun (hv : Eff W s₀ v) => ?_) ?_; clear_value v; rotate_left; subst v)
    | with_reducible apply EffX.of_next
    | with_reducible apply Eff.ite
    | with_reducible apply State.resend_eff
    | with_reducible apply State.retrain_eff
    | with_reducible apply State.updPort_eff

theorem State.writeGdnCtrl_eff {s : State} {k : Nat} {v : Word}
    (hW : Sub 0x100003F0000000000008 W) (h : Eff W s₀ s)  : Eff W s₀ (State.writeGdnCtrl s k v) := by
  unfold State.writeGdnCtrl
  repeat' first
    | with_reducible assumption
    | ((with_reducible refine Sub.trans ?_ hW); exact rfl)
    | (extract_lets +onlyGivenNames v; refine (fun (hv : Eff W s₀ v) => ?_) ?_; clear_value v; rotate_left; subst v)
    | (extract_lets +onlyGivenNames v; clear_value v)
    | (extract_lets +onlyGivenNames v; subst v)
    | with_reducible apply Eff.ite
    | with_reducible apply State.retrain_eff
    | with_reducible apply State.setLink_eff
    | with_reducible apply State.updPort_eff
    | with_reducible apply State.setBit_eff
    | with_reducible apply State.setReg_eff

theorem execGdnEnable_eff {i : Iface} {port : Fin 3} {v : Word} {s : State}
    (hW : Sub 0x100003F0000000000008 W) (h : Eff W s₀ s)  : EffX W s₀ (execGdnEnable i port v s) := by
  unfold execGdnEnable
  repeat' first
    | with_reducible assumption
    | with_reducible apply EffX.of_next
    | with_reducible apply Eff.ite
    | with_reducible apply State.writeGdnCtrl_eff

theorem execGdnRetrain_eff {i : Iface} {port : Fin 3} {v : Word} {s : State}
    (hW : Sub 0x100003F0000000000008 W) (h : Eff W s₀ s)  : EffX W s₀ (execGdnRetrain i port v s) := by
  unfold execGdnRetrain
  repeat' first
    | with_reducible assumption
    | with_reducible apply EffX.of_next
    | with_reducible apply Eff.ite
    | with_reducible apply State.writeGdnCtrl_eff

theorem State.toStep_eff {s : State} {k : Nat} {t : TrainStep}
    (hW : Sub 0x200000000000008 W) (h : Eff W s₀ s)  : Eff W s₀ (State.toStep s k t) := by
  unfold State.toStep
  repeat' first
    | with_reducible assumption
    | ((with_reducible refine Sub.trans ?_ hW); exact rfl)
    | (extract_lets +onlyGivenNames v; refine (fun (hv : Eff W s₀ v) => ?_) ?_; clear_value v; rotate_left; subst v)
    | with_reducible apply Eff.ite
    | with_reducible apply State.setLink_eff
    | with_reducible apply State.updPort_eff

theorem execBlockLockAcquired_eff {port : Fin 3} {s : State}
    (hW : Sub 0x200000000000008 W) (h : Eff W s₀ s)  : EffX W s₀ (execBlockLockAcquired port s) := by
  unfold execBlockLockAcquired
  repeat' first
    | with_reducible assumption
    | ((with_reducible refine Sub.trans ?_ hW); exact rfl)
    | with_reducible apply EffX.of_next
    | with_reducible apply Eff.ite
    | with_reducible apply State.toStep_eff
    | with_reducible apply State.setFld_eff

theorem execDeskewDone_eff {port : Fin 3} {skew : Fin 9} {reversed : Bool} {polarity : BitVec 4} {s : State}
    (hW : Sub 0x200000000000008 W) (h : Eff W s₀ s)  : EffX W s₀ (execDeskewDone port skew reversed polarity s) := by
  unfold execDeskewDone
  repeat' first
    | with_reducible assumption
    | ((with_reducible refine Sub.trans ?_ hW); exact rfl)
    | (extract_lets +onlyGivenNames v; clear_value v)
    | with_reducible apply EffX.of_next
    | with_reducible apply Eff.ite
    | with_reducible apply State.toStep_eff
    | with_reducible apply State.setBit_eff
    | with_reducible apply State.setFld_eff

theorem State_goActive_eff {s : State} {k : Nat} {f : ParamFlit}
    (hW : Sub 0x10000200000000000008 W) (h : Eff W s₀ s)  : Eff W s₀ (State.goActive s k f) := by
  unfold State.goActive
  repeat' first
    | with_reducible assumption
    | ((with_reducible refine Sub.trans ?_ hW); exact rfl)
    | (extract_lets +onlyGivenNames v; refine (fun (hv : Eff W s₀ v) => ?_) ?_; clear_value v; rotate_left; subst v)
    | (extract_lets +onlyGivenNames v; clear_value v)
    | with_reducible apply Eff.ite
    | with_reducible apply State.setLink_eff
    | with_reducible apply State.pumpPort_eff
    | with_reducible apply State.updPort_eff
    | with_reducible apply State.raise_eff
    | with_reducible apply State.addSat_eff
    | with_reducible apply State.setBit_eff
    | with_reducible apply State.setFld_eff

theorem State.refuseLink_eff {s : State} {k : Nat} {f : ParamFlit}
    (hW : Sub 0x100003F0000000000008 W) (h : Eff W s₀ s)  : Eff W s₀ (State.refuseLink s k f) := by
  unfold State.refuseLink
  repeat' first
    | with_reducible assumption
    | ((with_reducible refine Sub.trans ?_ hW); exact rfl)
    | (extract_lets +onlyGivenNames v; refine (fun (hv : Eff W s₀ v) => ?_) ?_; clear_value v; rotate_left; subst v)
    | with_reducible apply State.setLink_eff
    | with_reducible apply State.peerViolation_eff
    | with_reducible apply State.updPort_eff
    | with_reducible apply State.raise_eff

theorem execParamReceive_eff {port : Fin 3} {p : ParamFlit} {s : State}
    (hW : Sub 0x100003F0000000000008 W) (h : Eff W s₀ s)  : EffX W s₀ (execParamReceive port p s) := by
  unfold execParamReceive
  repeat' first
    | with_reducible assumption
    | ((with_reducible refine Sub.trans ?_ hW); exact rfl)
    | with_reducible apply EffX.of_next
    | with_reducible apply Eff.ite
    | with_reducible apply State.refuseLink_eff
    | with_reducible apply State_goActive_eff

theorem execTrainingLimit_eff {port : Fin 3} {s : State}
    (hW : Sub 0x10000200000000000008 W) (h : Eff W s₀ s)  : EffX W s₀ (execTrainingLimit port s) := by
  unfold execTrainingLimit
  repeat' first
    | with_reducible assumption
    | ((with_reducible refine Sub.trans ?_ hW); exact rfl)
    | (extract_lets +onlyGivenNames v; refine (fun (hv : Eff W s₀ v) => ?_) ?_; clear_value v; rotate_left; subst v)
    | with_reducible apply EffX.of_next
    | with_reducible apply Eff.ite
    | with_reducible apply State.toStep_eff
    | with_reducible apply State.setLink_eff
    | with_reducible apply State.updPort_eff
    | with_reducible apply State.raise_eff

theorem execLaneLockLoss_eff {port : Fin 3} {lane : Fin 4} {s : State}
    (hW : Sub 0x100003F0000000000008 W) (h : Eff W s₀ s)  : EffX W s₀ (execLaneLockLoss port lane s) := by
  unfold execLaneLockLoss
  repeat' first
    | with_reducible assumption
    | ((with_reducible refine Sub.trans ?_ hW); exact rfl)
    | with_reducible apply EffX.of_next
    | with_reducible apply Eff.ite
    | with_reducible apply State.retrain_eff
    | with_reducible apply State.setBit_eff

theorem execMarkerError_eff {port : Fin 3} {s : State}
    (hW : Sub 0x100003F0000000000008 W) (h : Eff W s₀ s)  : EffX W s₀ (execMarkerError port s) := by
  unfold execMarkerError
  repeat' first
    | with_reducible assumption
    | ((with_reducible refine Sub.trans ?_ hW); exact rfl)
    | with_reducible apply EffX.of_next
    | with_reducible apply Eff.ite
    | with_reducible apply State.retrain_eff
    | with_reducible apply State.addSat_eff

theorem execPeerLossTimeout_eff {port : Fin 3} {s : State}
    (hW : Sub 0x10000DF000000000008C W) (h : Eff W s₀ s)  : EffX W s₀ (execPeerLossTimeout port s) := by
  unfold execPeerLossTimeout
  repeat' first
    | with_reducible assumption
    | ((with_reducible refine Sub.trans ?_ hW); exact rfl)
    | (extract_lets +onlyGivenNames v; refine (fun (hv : Eff W s₀ v) => ?_) ?_; clear_value v; rotate_left; subst v)
    | with_reducible apply EffX.of_next
    | with_reducible apply Eff.ite
    | with_reducible apply State.setLink_eff
    | with_reducible apply State.declareLost_eff
    | with_reducible apply State.raise_eff
    | with_reducible apply State.reach_eff

end Sys2Proof.Machine
end

