-- ==== Sys2Proof/Laws/EffRegAccess.lean ====
section
/-!
SUPPORT. Laws/EffRegAccess.lean: which fields of the state every operation of Machine/RegAccess.lean may change.
-/
namespace Sys2Proof.Machine

variable {W : Nat} {s₀ : State}

theorem State.writeRstReq_eff {s : State} {i : Iface} {v : Word}
    (hW : Sub 0x1DFFFFFFFFFE7FFFFFF8 W) (h : Eff W s₀ s)  : Eff W s₀ (State.writeRstReq s i v) := by
  unfold State.writeRstReq
  repeat' first
    | with_reducible assumption
    | ((with_reducible refine Sub.trans ?_ hW); exact rfl)
    | with_reducible apply Eff.ite
    | with_reducible apply State.firmwareReset_eff
    | with_reducible apply State.systemReset_eff
    | with_reducible apply State.writeViolation_eff

theorem State.writePlanStat_eff {s : State} {v : Word}
    (hW : Sub 0x18 W) (h : Eff W s₀ s)  : Eff W s₀ (State.writePlanStat s v) := by
  unfold State.writePlanStat
  repeat' first
    | with_reducible assumption
    | ((with_reducible refine Sub.trans ?_ hW); exact rfl)
    | (extract_lets +onlyGivenNames v; refine (fun (hv : Eff W s₀ v) => ?_) ?_; clear_value v; rotate_left; subst v)
    | with_reducible apply Eff.ite
    | with_reducible apply State.regStore_eff
    | with_reducible apply State.setBit_eff

theorem State.writeTail_eff {s : State} {i : Iface} {violation : Bool} {v : Word}
    (hW : Sub 0x100001F0000000000008 W) (h : Eff W s₀ s)  : Eff W s₀ (State.writeTail s i violation v) := by
  unfold State.writeTail
  repeat' first
    | with_reducible assumption
    | ((with_reducible refine Sub.trans ?_ hW); exact rfl)
    | with_reducible apply Eff.ite
    | with_reducible apply State.writeViolation_eff
    | with_reducible apply State.setFld_eff

theorem State.writeXctrl_eff {s : State} {v : Word}
    (hW : Sub 0x11000000000000000018 W) (h : Eff W s₀ s)  : Eff W s₀ (State.writeXctrl s v) := by
  unfold State.writeXctrl
  repeat' first
    | with_reducible assumption
    | ((with_reducible refine Sub.trans ?_ hW); exact rfl)
    | ((with_reducible refine EffL.mk ?_); constructor <;> first | (intro _; with_reducible rfl) | exact fun e => hW.no rfl e)
    | (extract_lets +onlyGivenNames v; refine (fun (hv : Eff W s₀ v) => ?_) ?_; clear_value v; rotate_left; subst v)
    | (extract_lets +onlyGivenNames v; clear_value v)
    | with_reducible apply Eff.ite
    | with_reducible apply State.regStore_eff
    | with_reducible apply State.emit_eff
    | with_reducible apply State.setBit_eff
    | (refine Eff.lit ?_ rfl ?_; with_reducible assumption)

theorem State.writePsp_eff {s : State} {i : Iface} {off : Nat} {v : Word}
    (hW : Sub 0x18 W) (h : Eff W s₀ s)  : Eff W s₀ (State.writePsp s i off v) := by
  unfold State.writePsp
  repeat' first
    | with_reducible assumption
    | (extract_lets +onlyGivenNames v; clear_value v)
    | with_reducible apply Eff.ite
    | with_reducible apply State.regStore_eff

theorem execPspTransferStart_eff {i : Iface} {v : Word} {s : State}
    (hW : Sub 0x11000000000000000018 W) (h : Eff W s₀ s)  : EffX W s₀ (execPspTransferStart i v s) := by
  unfold execPspTransferStart
  repeat' first
    | with_reducible assumption
    | with_reducible apply EffX.of_next
    | with_reducible apply Eff.ite
    | with_reducible apply State.writeXctrl_eff

theorem execPspTransferDone_eff {received : List Byte} {s : State}
    (hW : Sub 0x1000000000000000008 W) (h : Eff W s₀ s)  : EffX W s₀ (execPspTransferDone received s) := by
  unfold execPspTransferDone
  repeat' first
    | with_reducible assumption
    | ((with_reducible refine Sub.trans ?_ hW); exact rfl)
    | ((with_reducible refine EffL.mk ?_); constructor <;> first | (intro _; with_reducible rfl) | exact fun e => hW.no rfl e)
    | (extract_lets +onlyGivenNames v; refine (fun (hv : Eff W s₀ v) => ?_) ?_; clear_value v; rotate_left; subst v)
    | with_reducible apply EffX.of_next
    | with_reducible refine Eff.foldl _ (fun _ _ _ => ?_) ?_
    | with_reducible apply State.setBit_eff
    | with_reducible apply State.setFld_eff
    | split
    | (refine Eff.lit ?_ rfl ?_; with_reducible assumption)

theorem State.applyStopped_eff {s : State} {was : State}
    (hW : Sub 0x101801F301800000009A W) (h : Eff W s₀ s) (h2 : Eff W s₀ was) : Eff W s₀ (State.applyStopped s was) := by
  unfold State.applyStopped
  repeat' first
    | with_reducible assumption
    | with_reducible apply Eff.ite
    | with_reducible apply State.applyHeld_eff

theorem State.writeArray_eff {s : State} {off : Nat} {v : Word}
    (hW : Sub 0x100243F0310200000818 W) (h : Eff W s₀ s)  : EffO W s₀ (State.writeArray s off v) := by
  unfold State.writeArray
  repeat' first
    | with_reducible assumption
    | ((with_reducible refine Sub.trans ?_ hW); exact rfl)
    | with_reducible apply EffO.of_some
    | with_reducible apply EffO.of_none
    | with_reducible apply State.writeGdnCtrl_eff
    | with_reducible apply State.ringCq_eff
    | with_reducible apply State.ringSq_eff
    | with_reducible apply State.writeQctrl_eff
    | with_reducible apply State.regStore_eff
    | with_reducible apply State.flushVector_eff
    | split

theorem State.writePlain_eff {s : State} {i : Iface} {off : Nat} {v : Word}
    (hW : Sub 0x101801F30180000000DA W) (h : Eff W s₀ s)  : Eff W s₀ (State.writePlain s i off v) := by
  unfold State.writePlain
  repeat' first
    | with_reducible assumption
    | ((with_reducible refine Sub.trans ?_ hW); exact rfl)
    | with_reducible apply State.applyStopped_eff
    | with_reducible apply State.commitPair_eff
    | with_reducible apply State.holdLow_eff
    | with_reducible apply State.regStore_eff
    | split

theorem State.regWrite_eff {s : State} {i : Iface} {off : Nat} {v : Word}
    (hW : Sub 0x1DFFFFFFFFFEFFFFFFFA W) (h : Eff W s₀ s)  : Eff W s₀ (State.regWrite s i off v) := by
  unfold State.regWrite
  repeat' first
    | with_reducible assumption
    | ((with_reducible refine Sub.trans ?_ hW); exact rfl)
    | (extract_lets +onlyGivenNames v; refine (fun (hv : Eff W s₀ v) => ?_) ?_; clear_value v; rotate_left; subst v)
    | with_reducible apply Eff.ite
    | with_reducible apply State.writePlain_eff
    | with_reducible apply State.writeArray_eff
    | with_reducible apply State.writePsp_eff
    | with_reducible apply State.writeXctrl_eff
    | with_reducible apply State.writeTail_eff
    | with_reducible apply State.writePlanStat_eff
    | with_reducible apply State.writeRstReq_eff
    | with_reducible apply State.writeDbgCtrl_eff
    | with_reducible apply State.writeProvCmd_eff
    | with_reducible apply State.writeUpdCtrl_eff
    | with_reducible apply State.keepWritten_eff
    | with_reducible apply State.showCap_eff
    | with_reducible apply State.writeTickCtrl_eff
    | with_reducible apply State.startEvac_eff
    | with_reducible apply State.writeCap_eff
    | with_reducible apply State.lockViolation_eff
    | with_reducible apply State.regStore_eff
    | with_reducible refine Eff.ofSome (by with_reducible assumption) ?_
    | split

theorem execRegisterWrite_eff {i : Iface} {off : BitVec 24} {v : Word} {s : State}
    (hW : Sub 0x1DFFFFFFFFFEFFFFFFFA W) (h : Eff W s₀ s)  : EffX W s₀ (execRegisterWrite i off v s) := by
  unfold execRegisterWrite
  repeat' first
    | with_reducible assumption
    | with_reducible apply EffX.of_next
    | with_reducible apply Eff.ite
    | with_reducible apply State.regWrite_eff

theorem execRwtApplyWhileStopped_eff {i : Iface} {off : BitVec 24} {v : Word} {s : State}
    (hW : Sub 0x1DFFFFFFFFFEFFFFFFFA W) (h : Eff W s₀ s)  : EffX W s₀ (execRwtApplyWhileStopped i off v s) := by
  unfold execRwtApplyWhileStopped
  repeat' first
    | with_reducible assumption
    | with_reducible apply EffX.of_next
    | with_reducible apply Eff.ite
    | with_reducible apply State.regWrite_eff

theorem execPairLowRead_eff {i : Iface} {off : BitVec 24} {s : State}
    (hW : Sub 0x10000000000000000020 W) (h : Eff W s₀ s)  : EffX W s₀ (execPairLowRead i off s) := by
  unfold execPairLowRead
  repeat' first
    | with_reducible assumption
    | ((with_reducible refine Sub.trans ?_ hW); exact rfl)
    | (extract_lets +onlyGivenNames v; refine (fun (hv : Eff W s₀ v.2) => ?_) ?_; clear_value v; rotate_left; subst v)
    | with_reducible apply EffX.of_next
    | with_reducible apply Eff.ite
    | with_reducible apply State.regFetch_eff
    | with_reducible apply State.emit_eff

theorem execPairLowWrite_eff {i : Iface} {off : BitVec 24} {v : Word} {s : State}
    (hW : Sub 0x40 W) (h : Eff W s₀ s)  : EffX W s₀ (execPairLowWrite i off v s) := by
  unfold execPairLowWrite
  repeat' first
    | with_reducible assumption
    | with_reducible apply EffX.of_next
    | with_reducible apply Eff.ite
    | with_reducible apply State.holdLow_eff

theorem execPairHighWrite_eff {i : Iface} {off : BitVec 24} {v : Word} {s : State}
    (hW : Sub 0x101801F30180000000DA W) (h : Eff W s₀ s)  : EffX W s₀ (execPairHighWrite i off v s) := by
  unfold execPairHighWrite
  repeat' first
    | with_reducible assumption
    | ((with_reducible refine Sub.trans ?_ hW); exact rfl)
    | with_reducible apply EffX.of_next
    | with_reducible apply Eff.ite
    | with_reducible apply State.applyStopped_eff
    | with_reducible apply State.commitPair_eff

theorem execLogTailWrite_eff {i : Iface} {violation : Bool} {v : Word} {s : State}
    (hW : Sub 0x100001F0000000000008 W) (h : Eff W s₀ s)  : EffX W s₀ (execLogTailWrite i violation v s) := by
  unfold execLogTailWrite
  repeat' first
    | with_reducible assumption
    | with_reducible apply EffX.of_next
    | with_reducible apply Eff.ite
    | with_reducible apply State.writeTail_eff

theorem execPinHoldExpiry_eff {alert : Bool} {s : State}
    (hW : Sub 0xA0000000000004 W) (h : Eff W s₀ s)  : EffX W s₀ (execPinHoldExpiry alert s) := by
  unfold execPinHoldExpiry
  repeat' first
    | with_reducible assumption
    | ((with_reducible refine Sub.trans ?_ hW); exact rfl)
    | ((with_reducible refine EffL.mk ?_); constructor <;> first | (intro _; with_reducible rfl) | exact fun e => hW.no rfl e)
    | (extract_lets +onlyGivenNames v; refine (fun (hv : Eff W s₀ v) => ?_) ?_; clear_value v; rotate_left; subst v)
    | with_reducible apply EffX.of_next
    | with_reducible apply Eff.ite
    | with_reducible apply State.reach_eff
    | (refine Eff.lit ?_ rfl ?_; with_reducible assumption)

end Sys2Proof.Machine
end

