-- ==== Sys2Proof/Laws/EffSelect.lean ====
section
/-!
SUPPORT. Laws/EffSelect.lean: which fields of the state every operation of Machine/Select.lean may change.
-/
namespace Sys2Proof.Machine

variable {W : Nat} {s₀ : State}

theorem State.topk_eff {s : State} {f : TFields}
    (hW : Sub 0x100001F0010067B01008 W) (h : Eff W s₀ s)  : Eff W s₀ (State.topk s f) := by
  unfold State.topk
  repeat' first
    | with_reducible assumption
    | ((with_reducible refine Sub.trans ?_ hW); exact rfl)
    | (extract_lets +onlyGivenNames v; clear_value v)
    | with_reducible apply Eff.iteSnd
    | with_reducible apply State.readOp_eff
    | with_reducible apply State.writeRows_eff

theorem execTopk_eff {f : TFields} {s : State}
    (hW : Sub 0x100001F0010267B07088 W) (h : Eff W s₀ s)  : EffX W s₀ (execTopk f s) := by
  unfold execTopk
  repeat' first
    | with_reducible assumption
    | ((with_reducible refine Sub.trans ?_ hW); exact rfl)
    | (extract_lets +onlyGivenNames v; clear_value v)
    | with_reducible apply EffX.of_next
    | with_reducible apply State.topk_eff
    | with_reducible refine State.runWord_eff ?_ ?_ (fun _ _ => ?_)

theorem State.beam_eff {s : State} {f : TFields}
    (hW : Sub 0x100001F0010067B01008 W) (h : Eff W s₀ s)  : Eff W s₀ (State.beam s f) := by
  unfold State.beam
  repeat' first
    | with_reducible assumption
    | ((with_reducible refine Sub.trans ?_ hW); exact rfl)
    | (extract_lets +onlyGivenNames v; clear_value v)
    | with_reducible apply Eff.ite
    | with_reducible apply State.readOp_eff
    | with_reducible apply State.writeRows_eff

theorem execBeam_eff {f : TFields} {s : State}
    (hW : Sub 0x100001F0010267B07088 W) (h : Eff W s₀ s)  : EffX W s₀ (execBeam f s) := by
  unfold execBeam
  repeat' first
    | with_reducible assumption
    | ((with_reducible refine Sub.trans ?_ hW); exact rfl)
    | (extract_lets +onlyGivenNames v; clear_value v)
    | with_reducible apply EffX.of_next
    | with_reducible apply State.beam_eff
    | with_reducible refine State.runWord_eff ?_ ?_ (fun _ _ => ?_)

theorem State.pagesel_eff {s : State} {f : TFields}
    (hW : Sub 0x100001F0010067B01008 W) (h : Eff W s₀ s)  : Eff W s₀ (State.pagesel s f) := by
  unfold State.pagesel
  repeat' first
    | with_reducible assumption
    | ((with_reducible refine Sub.trans ?_ hW); exact rfl)
    | (extract_lets +onlyGivenNames v; clear_value v)
    | with_reducible apply State.readOp_eff
    | with_reducible apply State.writeRows_eff

theorem execPagesel_eff {f : TFields} {s : State}
    (hW : Sub 0x100001F0010267B07088 W) (h : Eff W s₀ s)  : EffX W s₀ (execPagesel f s) := by
  unfold execPagesel
  repeat' first
    | with_reducible assumption
    | ((with_reducible refine Sub.trans ?_ hW); exact rfl)
    | (extract_lets +onlyGivenNames v; clear_value v)
    | with_reducible apply EffX.of_next
    | with_reducible apply State.pagesel_eff
    | with_reducible refine State.runWord_eff ?_ ?_ (fun _ _ => ?_)

theorem State.sample_eff {s : State} {f : TFields}
    (hW : Sub 0x100001F0010067B03008 W) (h : Eff W s₀ s)  : Eff W s₀ (State.sample s f) := by
  unfold State.sample
  repeat' first
    | with_reducible assumption
    | ((with_reducible refine Sub.trans ?_ hW); exact rfl)
    | (extract_lets +onlyGivenNames v; clear_value v)
    | with_reducible apply State.count_eff
    | with_reducible apply State.readOp_eff
    | with_reducible apply State.writeRows_eff

theorem execSample_eff {f : TFields} {s : State}
    (hW : Sub 0x100001F0010267B07088 W) (h : Eff W s₀ s)  : EffX W s₀ (execSample f s) := by
  unfold execSample
  repeat' first
    | with_reducible assumption
    | ((with_reducible refine Sub.trans ?_ hW); exact rfl)
    | (extract_lets +onlyGivenNames v; clear_value v)
    | with_reducible apply EffX.of_next
    | with_reducible apply State.sample_eff
    | with_reducible refine State.runWord_eff ?_ ?_ (fun _ _ => ?_)

theorem State.scan_eff {s : State} {f : TFields}
    (hW : Sub 0x100001F0010067B03008 W) (h : Eff W s₀ s)  : Eff W s₀ (State.scan s f) := by
  unfold State.scan
  repeat' first
    | with_reducible assumption
    | ((with_reducible refine Sub.trans ?_ hW); exact rfl)
    | (extract_lets +onlyGivenNames v; clear_value v)
    | with_reducible apply Eff.ite
    | with_reducible apply Eff.iteSnd
    | with_reducible apply State.count_eff
    | with_reducible apply State.readOp_eff
    | with_reducible apply State.writeRows_eff

theorem execScan_eff {f : TFields} {s : State}
    (hW : Sub 0x100001F0010267B07088 W) (h : Eff W s₀ s)  : EffX W s₀ (execScan f s) := by
  unfold execScan
  repeat' first
    | with_reducible assumption
    | ((with_reducible refine Sub.trans ?_ hW); exact rfl)
    | (extract_lets +onlyGivenNames v; clear_value v)
    | with_reducible apply EffX.of_next
    | with_reducible apply State.scan_eff
    | with_reducible refine State.runWord_eff ?_ ?_ (fun _ _ => ?_)

end Sys2Proof.Machine
end

