-- ==== Sys2Proof/Laws/EffSerial.lean ====
section
/-!
SUPPORT. Laws/EffSerial.lean: which fields of the state every operation of Machine/Serial.lean may change.
-/
namespace Sys2Proof.Machine

variable {W : Nat} {s₀ : State}

theorem State.hspEnd_eff {s : State} {x1 : HspHead} {data : Nat}
    (hW : Sub 0x800000000000000008 W) (h : Eff W s₀ s)  : Eff W s₀ (State.hspEnd s x1 data) := by
  unfold State.hspEnd
  repeat' first
    | with_reducible assumption
    | ((with_reducible refine Sub.trans ?_ hW); exact rfl)
    | ((with_reducible refine EffL.mk ?_); constructor <;> first | (intro _; with_reducible rfl) | exact fun e => hW.no rfl e)
    | (extract_lets +onlyGivenNames v; refine (fun (hv : Eff W s₀ v) => ?_) ?_; clear_value v; rotate_left; subst v)
    | (extract_lets +onlyGivenNames v; clear_value v)
    | with_reducible apply State.hspCfg_eff
    | with_reducible apply State.setBit_eff
    | (refine Eff.lit ?_ rfl ?_; with_reducible assumption)

theorem State.hspReply_eff {s : State} {ws : List Word}
    (hW : Sub 0x800000000000000000 W) (h : Eff W s₀ s)  : Eff W s₀ (State.hspReply s ws) := by
  unfold State.hspReply
  repeat' first
    | ((with_reducible refine EffL.mk ?_); constructor <;> first | (intro _; with_reducible rfl) | exact fun e => hW.no rfl e)
    | (extract_lets +onlyGivenNames v; clear_value v)
    | (refine Eff.lit ?_ rfl ?_; with_reducible assumption)

theorem State.hspReject_eff {s : State} {x1 : HspHead} {op : Nat} {cnt : Nat} {seq : Nat} {data : Nat} {status : Nat}
    (hW : Sub 0x108001F0000000000008 W) (h : Eff W s₀ s)  : Eff W s₀ (State.hspReject s x1 op cnt seq data status) := by
  unfold State.hspReject
  repeat' first
    | with_reducible assumption
    | ((with_reducible refine Sub.trans ?_ hW); exact rfl)
    | (extract_lets +onlyGivenNames v; refine (fun (hv : Eff W s₀ v) => ?_) ?_; clear_value v; rotate_left; subst v)
    | with_reducible apply State.hspReply_eff
    | with_reducible apply State.hspEnd_eff
    | with_reducible apply State.logViolation_eff
    | with_reducible apply State.addSat_eff
    | with_reducible apply State.setBit_eff

theorem State.hspDone_eff {s : State} {x1 : HspHead} {op : Nat} {cnt : Nat} {data : Nat} {status : Nat} {poison : Bool} {words : List Word}
    (hW : Sub 0x800000000000000008 W) (h : Eff W s₀ s)  : Eff W s₀ (State.hspDone s x1 op cnt data status poison words) := by
  unfold State.hspDone
  repeat' first
    | with_reducible assumption
    | ((with_reducible refine Sub.trans ?_ hW); exact rfl)
    | ((with_reducible refine EffL.mk ?_); constructor <;> first | (intro _; with_reducible rfl) | exact fun e => hW.no rfl e)
    | (extract_lets +onlyGivenNames v; refine (fun (hv : Eff W s₀ v) => ?_) ?_; clear_value v; rotate_left; subst v)
    | (extract_lets +onlyGivenNames v; clear_value v)
    | with_reducible apply State.hspEnd_eff
    | with_reducible apply State.addSat_eff
    | (refine Eff.lit ?_ rfl ?_; with_reducible assumption)

theorem State.hspFrame_eff {s : State} {x1 : HspHead} {op : Nat} {cnt : Nat} {data : Nat} {rangeOk : Bool} {f : State → State}
    (hW : Sub 0x108001F0000000000008 W) (h : Eff W s₀ s)  (hf : ∀ y0, Eff W s₀ y0 → Eff W s₀ (f y0)) : Eff W s₀ (State.hspFrame s x1 op cnt data rangeOk f) := by
  unfold State.hspFrame
  repeat' first
    | with_reducible assumption
    | ((with_reducible refine Sub.trans ?_ hW); exact rfl)
    | (extract_lets +onlyGivenNames v; refine (fun (hv : Eff W s₀ v) => ?_) ?_; clear_value v; rotate_left; subst v)
    | with_reducible apply Eff.ite
    | with_reducible apply State.hspReject_eff
    | with_reducible apply State.emit_eff
    | with_reducible apply hf

theorem execHspNop_eff {x0 : HspHead} {s : State}
    (hW : Sub 0x108001F0000000000008 W) (h : Eff W s₀ s)  : EffX W s₀ (execHspNop x0 s) := by
  unfold execHspNop
  repeat' first
    | with_reducible assumption
    | ((with_reducible refine Sub.trans ?_ hW); exact rfl)
    | with_reducible apply EffX.of_next
    | with_reducible refine State.hspFrame_eff ?_ ?_ (fun _ _ => ?_)
    | with_reducible apply State.hspDone_eff

theorem State.hspRegs_eff {s : State} {off : Nat} {x2 : Nat}
    (hW : Sub 0x20 W) (h : Eff W s₀ s)  : Eff W s₀ (State.hspRegs s off x2).2 := by
  induction x2 generalizing s off with
  | zero =>
    unfold State.hspRegs
    repeat' with_reducible assumption
  | succ n ih =>
    unfold State.hspRegs
    repeat' first
      | with_reducible assumption
      | (extract_lets +onlyGivenNames v; refine (fun (hv : Eff W s₀ v.2) => ?_) ?_; clear_value v; rotate_left; subst v)
      | with_reducible apply State.regFetch_eff
      | with_reducible apply ih

theorem execHspRd_eff {x0 : HspHead} {off : BitVec 24} {count : Nat} {s : State}
    (hW : Sub 0x108001F0000000000028 W) (h : Eff W s₀ s)  : EffX W s₀ (execHspRd x0 off count s) := by
  unfold execHspRd
  repeat' first
    | with_reducible assumption
    | ((with_reducible refine Sub.trans ?_ hW); exact rfl)
    | (extract_lets +onlyGivenNames v; refine (fun (hv : Eff W s₀ v.2) => ?_) ?_; clear_value v; rotate_left; subst v)
    | with_reducible apply EffX.of_next
    | with_reducible apply Eff.ite
    | with_reducible apply State.hspRegs_eff
    | with_reducible refine State.hspFrame_eff ?_ ?_ (fun _ _ => ?_)
    | with_reducible apply State.hspDone_eff

theorem State.hspWrites_eff {s : State} {off : Nat} {x2 : List Word}
    (hW : Sub 0x1DFFFFFFFFFEFFFFFFFA W) (h : Eff W s₀ s)  : Eff W s₀ (State.hspWrites s off x2).2 := by
  induction x2 generalizing s off with
  | nil =>
    unfold State.hspWrites
    repeat' with_reducible assumption
  | cons x l ih =>
    unfold State.hspWrites
    repeat' first
      | with_reducible assumption
      | (extract_lets +onlyGivenNames v; refine (fun (hv : Eff W s₀ v.2) => ?_) ?_; clear_value v; rotate_left; subst v)
      | (extract_lets +onlyGivenNames v; clear_value v)
      | with_reducible apply State.regWrite_eff
      | with_reducible apply ih

theorem execHspWr_eff {x0 : HspHead} {off : BitVec 24} {words : HspWords} {s : State}
    (hW : Sub 0x1DFFFFFFFFFEFFFFFFFA W) (h : Eff W s₀ s)  : EffX W s₀ (execHspWr x0 off words s) := by
  unfold execHspWr
  repeat' first
    | with_reducible assumption
    | ((with_reducible refine Sub.trans ?_ hW); exact rfl)
    | (extract_lets +onlyGivenNames v; refine (fun (hv : Eff W s₀ v.2) => ?_) ?_; clear_value v; rotate_left; subst v)
    | (extract_lets +onlyGivenNames v; clear_value v)
    | with_reducible apply EffX.of_next
    | with_reducible apply Eff.ite
    | with_reducible apply State.hspWrites_eff
    | with_reducible refine State.hspFrame_eff ?_ ?_ (fun _ _ => ?_)
    | with_reducible apply State.hspDone_eff

theorem execHspMrd_eff {x0 : HspHead} {addr : BitVec 26} {count : Nat} {s : State}
    (hW : Sub 0x108001F0000007000008 W) (h : Eff W s₀ s)  : EffX W s₀ (execHspMrd x0 addr count s) := by
  unfold execHspMrd
  repeat' first
    | with_reducible assumption
    | ((with_reducible refine Sub.trans ?_ hW); exact rfl)
    | with_reducible apply EffX.of_next
    | with_reducible apply Eff.ite
    | with_reducible refine State.hspFrame_eff ?_ ?_ (fun _ _ => ?_)
    | with_reducible apply State.hspDone_eff
    | with_reducible apply State.hostLoad_eff

theorem execHspMwr_eff {x0 : HspHead} {addr : BitVec 26} {words : HspWords} {s : State}
    (hW : Sub 0x108001F0000007800008 W) (h : Eff W s₀ s)  : EffX W s₀ (execHspMwr x0 addr words s) := by
  unfold execHspMwr
  repeat' first
    | with_reducible assumption
    | ((with_reducible refine Sub.trans ?_ hW); exact rfl)
    | (extract_lets +onlyGivenNames v; clear_value v)
    | with_reducible apply EffX.of_next
    | with_reducible apply Eff.ite
    | with_reducible refine State.hspFrame_eff ?_ ?_ (fun _ _ => ?_)
    | with_reducible apply State.hspDone_eff
    | with_reducible apply State.hostStore_eff
    | with_reducible apply State.logViolation_eff

theorem execHspRepeat_eff {x0 : HspHead} {s : State}
    (hW : Sub 0x108001F0000000000008 W) (h : Eff W s₀ s)  : EffX W s₀ (execHspRepeat x0 s) := by
  unfold execHspRepeat
  repeat' first
    | with_reducible assumption
    | ((with_reducible refine Sub.trans ?_ hW); exact rfl)
    | (extract_lets +onlyGivenNames v; refine (fun (hv : Eff W s₀ v) => ?_) ?_; clear_value v; rotate_left; subst v)
    | (extract_lets +onlyGivenNames v; clear_value v)
    | with_reducible apply EffX.of_next
    | with_reducible refine State.hspFrame_eff ?_ ?_ (fun _ _ => ?_)
    | with_reducible apply State.hspReply_eff
    | with_reducible apply State.hspEnd_eff
    | split

theorem execHspRejectedFrame_eff {x0 : HspHead} {extra : Nat} {words : HspWords} {s : State}
    (hW : Sub 0x108001F000000000000A W) (h : Eff W s₀ s)  : EffX W s₀ (execHspRejectedFrame x0 extra words s) := by
  unfold execHspRejectedFrame
  repeat' first
    | with_reducible assumption
    | ((with_reducible refine Sub.trans ?_ hW); exact rfl)
    | (extract_lets +onlyGivenNames v; refine (fun (hv : Eff W s₀ v) => ?_) ?_; clear_value v; rotate_left; subst v)
    | (extract_lets +onlyGivenNames v; clear_value v)
    | with_reducible apply EffX.of_next
    | with_reducible apply Eff.ite
    | with_reducible apply State.hspReject_eff
    | with_reducible apply State.emit_eff
    | with_reducible apply State.draw_eff
    | dsimp -zeta only
    | split

theorem execHspCfgApply_eff {s : State}
    (hW : Sub 0x800000000000000000 W) (h : Eff W s₀ s)  : EffX W s₀ (execHspCfgApply s) := by
  unfold execHspCfgApply
  repeat' first
    | with_reducible assumption
    | with_reducible apply EffX.of_next
    | with_reducible apply Eff.ite
    | with_reducible apply State.hspCfg_eff

end Sys2Proof.Machine
end

