-- ==== Sys2Proof/Laws/EffVector.lean ====
section
/-!
SUPPORT. Laws/EffVector.lean: which fields of the state every operation of Machine/Vector.lean may change.
-/
namespace Sys2Proof.Machine

variable {W : Nat} {s₀ : State}

theorem State.putVector_eff {s : State} {n : Nat} {dD : TDesc} {loops : List LoopFrame} {e : Int} {raw : List (List Int)}
    (hW : Sub 0x10003802000 W) (h : Eff W s₀ s)  : Eff W s₀ (State.putVector s n dD loops e raw) := by
  unfold State.putVector
  repeat' first
    | with_reducible assumption
    | ((with_reducible refine Sub.trans ?_ hW); exact rfl)
    | (extract_lets +onlyGivenNames v; refine (fun (hv : Eff W s₀ v) => ?_) ?_; clear_value v; rotate_left; subst v)
    | (extract_lets +onlyGivenNames v; clear_value v)
    | with_reducible apply State.count_eff
    | with_reducible apply State.writeRows_eff

theorem State.vadd_eff {s : State} {n : Nat} {f : TFields}
    (hW : Sub 0x100001F0010067B03008 W) (h : Eff W s₀ s)  : Eff W s₀ (State.vadd s n f) := by
  unfold State.vadd
  repeat' first
    | with_reducible assumption
    | ((with_reducible refine Sub.trans ?_ hW); exact rfl)
    | (extract_lets +onlyGivenNames v; clear_value v)
    | with_reducible apply State.putVector_eff
    | with_reducible apply State.readOp_eff

theorem State.vmul_eff {s : State} {n : Nat} {f : TFields}
    (hW : Sub 0x100001F0010067B03008 W) (h : Eff W s₀ s)  : Eff W s₀ (State.vmul s n f) := by
  unfold State.vmul
  repeat' first
    | with_reducible assumption
    | ((with_reducible refine Sub.trans ?_ hW); exact rfl)
    | (extract_lets +onlyGivenNames v; clear_value v)
    | with_reducible apply State.putVector_eff
    | with_reducible apply State.readOp_eff

theorem State.vlut_eff {s : State} {n : Nat} {f : TFields}
    (hW : Sub 0x100001F0010067B01008 W) (h : Eff W s₀ s)  : Eff W s₀ (State.vlut s n f) := by
  unfold State.vlut
  repeat' first
    | with_reducible assumption
    | ((with_reducible refine Sub.trans ?_ hW); exact rfl)
    | (extract_lets +onlyGivenNames v; clear_value v)
    | with_reducible apply State.readOp_eff
    | with_reducible apply State.writeRows_eff

theorem State.vnorm_eff {s : State} {n : Nat} {f : TFields}
    (hW : Sub 0x100001F0010067B03008 W) (h : Eff W s₀ s)  : Eff W s₀ (State.vnorm s n f) := by
  unfold State.vnorm
  repeat' first
    | with_reducible assumption
    | ((with_reducible refine Sub.trans ?_ hW); exact rfl)
    | (extract_lets +onlyGivenNames v; clear_value v)
    | with_reducible apply State.putVector_eff
    | with_reducible apply State.readOp_eff

theorem State.vmask_eff {s : State} {n : Nat} {f : TFields}
    (hW : Sub 0x100001F0010067B03008 W) (h : Eff W s₀ s)  : Eff W s₀ (State.vmask s n f) := by
  unfold State.vmask
  repeat' first
    | with_reducible assumption
    | ((with_reducible refine Sub.trans ?_ hW); exact rfl)
    | (extract_lets +onlyGivenNames v; clear_value v)
    | with_reducible apply Eff.iteSnd
    | with_reducible apply State.putVector_eff
    | with_reducible apply State.readOp_eff

theorem execVadd_eff {n : Fin 16} {f : TFields} {s : State}
    (hW : Sub 0x100001F0010267B07088 W) (h : Eff W s₀ s)  : EffX W s₀ (execVadd n f s) := by
  unfold execVadd
  repeat' first
    | with_reducible assumption
    | ((with_reducible refine Sub.trans ?_ hW); exact rfl)
    | with_reducible apply EffX.of_next
    | with_reducible apply State.vadd_eff
    | with_reducible refine State.runWord_eff ?_ ?_ (fun _ _ => ?_)

theorem execVmul_eff {n : Fin 16} {f : TFields} {s : State}
    (hW : Sub 0x100001F0010267B07088 W) (h : Eff W s₀ s)  : EffX W s₀ (execVmul n f s) := by
  unfold execVmul
  repeat' first
    | with_reducible assumption
    | ((with_reducible refine Sub.trans ?_ hW); exact rfl)
    | with_reducible apply EffX.of_next
    | with_reducible apply State.vmul_eff
    | with_reducible refine State.runWord_eff ?_ ?_ (fun _ _ => ?_)

theorem execVlut_eff {n : Fin 16} {f : TFields} {s : State}
    (hW : Sub 0x100001F0010267B07088 W) (h : Eff W s₀ s)  : EffX W s₀ (execVlut n f s) := by
  unfold execVlut
  repeat' first
    | with_reducible assumption
    | ((with_reducible refine Sub.trans ?_ hW); exact rfl)
    | with_reducible apply EffX.of_next
    | with_reducible apply State.vlut_eff
    | with_reducible refine State.runWord_eff ?_ ?_ (fun _ _ => ?_)

theorem execVnorm_eff {n : Fin 16} {f : TFields} {s : State}
    (hW : Sub 0x100001F0010267B07088 W) (h : Eff W s₀ s)  : EffX W s₀ (execVnorm n f s) := by
  unfold execVnorm
  repeat' first
    | with_reducible assumption
    | ((with_reducible refine Sub.trans ?_ hW); exact rfl)
    | with_reducible apply EffX.of_next
    | with_reducible apply State.vnorm_eff
    | with_reducible refine State.runWord_eff ?_ ?_ (fun _ _ => ?_)

theorem execVmask_eff {n : Fin 16} {f : TFields} {s : State}
    (hW : Sub 0x100001F0010267B07088 W) (h : Eff W s₀ s)  : EffX W s₀ (execVmask n f s) := by
  unfold execVmask
  repeat' first
    | with_reducible assumption
    | ((with_reducible refine Sub.trans ?_ hW); exact rfl)
    | with_reducible apply EffX.of_next
    | with_reducible apply State.vmask_eff
    | with_reducible refine State.runWord_eff ?_ ?_ (fun _ _ => ?_)

end Sys2Proof.Machine
end

