-- ==== Sys2Proof/Laws/EffDispatch.lean ====
section
/-!
SUPPORT. Laws/EffDispatch.lean: which fields of the state each command may change.
-/
namespace Sys2Proof.Machine

/-- The mask of a command. -/
def effMask : Instr → Nat
  | .tickEdge => 0x101C03F3118083FC609E
  | .fallowOpening => 0x105FFBF377FEFFFB3F9E
  | .armingStep => 0x105A53F3318A938BAF8E
  | .sliceBudgetExhausted .. => 0x100001F0010200006088
  | .portFrameSync .. => 0x1000000000000000008C
  | .lockAcquired => 0x88
  | .holdover => 0x1000000000000000008C
  | .tickSyncPulse .. => 0x1000020000000000008C
  | .syncPulseTimeout => 0x100001F000000000008C
  | .workendTimeout .. => 0x100003F001000000008C
  | .tickRunStart .. => 0x100001F0000000000088
  | .tickRunStop .. => 0x100001F0000000000088
  | .registerWrite .. => 0x1DFFFFFFFFFEFFFFFFFA
  | .rwtApplyWhileStopped .. => 0x1DFFFFFFFFFEFFFFFFFA
  | .pairLowRead .. => 0x10000000000000000020
  | .pairLowWrite .. => 0x40
  | .pairHighWrite .. => 0x101801F30180000000DA
  | .end_ .. => 0x100001F0010200006088
  | .loop .. => 0x2000
  | .idle .. => 0x100001F0010200006088
  | .fixjob .. => 0x100801F00102F7B0708A
  | .post .. => 0x100001F0010200006088
  | .wait .. => 0x100001F0010200006088
  | .waitSatisfied .. => 0x100001F0010200006088
  | .mmul .. => 0x100001F0010267337088
  | .accout .. => 0x100001F0010267B37088
  | .gate .. => 0x100001F0010267B37088
  | .vadd .. => 0x100001F0010267B07088
  | .vmul .. => 0x100001F0010267B07088
  | .vlut .. => 0x100001F0010267B07088
  | .vnorm .. => 0x100001F0010267B07088
  | .vmask .. => 0x100001F0010267B07088
  | .sattn .. => 0x100001F0017A67B0708A
  | .fattn .. => 0x100001F0010267B37088
  | .sumsc .. => 0x100001F0010267B0708A
  | .sprob .. => 0x100001F0017A67B0708A
  | .scan .. => 0x100001F0010267B07088
  | .topk .. => 0x100001F0010267B07088
  | .beam .. => 0x100001F0010267B07088
  | .pagesel .. => 0x100001F0010267B07088
  | .sample .. => 0x100001F0010267B07088
  | .hrot .. => 0x100001F0010267B07088
  | .req .. => 0x100001F0010267B07088
  | .kvapp .. => 0x100001F0010267B07088
  | .move .. => 0x100001F0010200006088
  | .moveCommit .. => 0x100A43F0370EF7A37A8A
  | .moveSourceError .. => 0x100001F0310267207808
  | .bar0BadAccess .. => 0x100001F0000000000008
  | .bar2Read .. => 0x100001F0000007000008
  | .bar2Write .. => 0x100001F0000007800008
  | .hostSideReset .. => 0x100241FF310200000878
  | .perstAssert => 0x100241FF310200000878
  | .queueEnable .. => 0x100241F0310200000808
  | .queueReset .. => 0x100241F0310200000808
  | .sqDoorbell .. => 0x100001F0100080000008
  | .cqDoorbell .. => 0x100001F0100000000008
  | .requestFetch .. => 0x100001F0900067000008
  | .nop .. => 0x100000000000
  | .query .. => 0x100003F01000F3800008
  | .abort .. => 0x24000310200000808
  | .planLoad .. => 0x100001F01006F7800A0A
  | .planActivate .. => 0x100000000000
  | .planDiscard .. => 0x100000000000
  | .streamOpen .. => 0x100000000000
  | .streamClose .. => 0x100000000000
  | .streamPause .. => 0x100000000000
  | .streamResume .. => 0x100000000000
  | .streamAbort .. => 0x100000000000
  | .stateExport .. => 0x100000000000
  | .migrate .. => 0x100000000000
  | .audioBind .. => 0x100000000000
  | .audioUnbind .. => 0x100000000000
  | .overlay .. => 0x100000000000
  | .completionPost .. => 0x100001F0100083800008
  | .resultPost => 0x100003F01100F7C00008
  | .heldResultFlush .. => 0x10000000150083800008
  | .qmodTimeout .. => 0x1000000010000000000C
  | .gydanWrite .. => 0x100033F00000F3800008
  | .gydanSeal .. => 0x10002200000000000008
  | .gydanReleased .. => 0x100033F0010000000008
  | .gydanDiscard .. => 0x100023F0000000000008
  | .gydanPull .. => 0x1001020000000000000A
  | .gydanCommit .. => 0x100AC3F013046700000A
  | .gydanRefuse .. => 0x100243F0110000000008
  | .ask .. => 0x1000120000000000000A
  | .answer .. => 0x1002C3F01106F78B000A
  | .answerTimeout .. => 0x20000000000000004
  | .report .. => 0x40200000000000000
  | .share .. => 0x100403F0000000000008
  | .workend .. => 0x100003F0010000000088
  | .classmsg .. => 0x100003F0010000002088
  | .rejoin .. => 0x200000000000080
  | .memberEject .. => 0x10000FF0000000000088
  | .leave .. => 0x10000FF0000000000088
  | .eject .. => 0x10000FF0000000000088
  | .reqfwd .. => 0x100003F01000F3800008
  | .reqdone .. => 0x104003F0100000000008
  | .result .. => 0x100003F0170083800008
  | .locate .. => 0x100203F0110000000008
  | .flitReceive .. => 0x100003F0000000000008
  | .ackTimeout .. => 0x100003F0000000000008
  | .gdnEnable .. => 0x100003F0000000000008
  | .gdnRetrain .. => 0x100003F0000000000008
  | .blockLockAcquired .. => 0x200000000000008
  | .deskewDone .. => 0x200000000000008
  | .paramReceive .. => 0x100003F0000000000008
  | .trainingLimit .. => 0x10000200000000000008
  | .laneLockLoss .. => 0x100003F0000000000008
  | .markerError .. => 0x100003F0000000000008
  | .peerLossTimeout .. => 0x10000DF000000000008C
  | .sensorRead .. => 0x106C03F0000200002088
  | .thermalDerateStep => 0x40000000000000008
  | .pmbusPeriod .. => 0x100401F000000000000A
  | .pmbAlert .. => 0x100001F0000000000008
  | .powerShareInterval .. => 0x100401F000000000000E
  | .calibrationFit => 0x100401F000000000000A
  | .voltageSelection .. => 0x100401F0000000000008
  | .capWrite .. => 0x100001F0000000000008
  | .stookSharePeriod => 0x10040200000000000008
  | .shareTimeout => 0x100401F000000000000C
  | .controlCoreRestart .. => 0x1DFFFFFFFFFE7FFFFFF8
  | .coreReturn .. => 0x10FC03F31982F7802A9A
  | .cc3ReleaseOverrun => 0x1DFFFFFFFFFE7FFFFFF8
  | .firmwareReset .. => 0x1DFFFFFFFFFE7FFFFFF8
  | .systemReset .. => 0xDFFFFFFFFFE7FFFFFF8
  | .resetNAssert => 0xDFFFFFFFFFE7FFFFFF8
  | .onReqChange .. => 0x1FFFFFFFFFFE7FFFFFF8
  | .powerupStart => 0x20000000000000000C
  | .releaseStep .. => 0xDFFFFFFFFFE7FFFFFFC
  | .ready .. => 0x10F803F31182F7802A9A
  | .powerdownOff => 0xFFFFFFFFFFE7FFFFFFC
  | .supplyLoss .. => 0xFFFFFFFFFFE7FFFFFF8
  | .aonToKeep .. => 0xFFFFFFFFFFE7FFFFFF8
  | .aonStart => 0xFFFFFFFFFFE7FFFFFFA
  | .keepSample .. => 0x20000000000000000A
  | .presenceProbe .. => 0x20000000000000000A
  | .audioFrame .. => 0x100801F000000000000C
  | .nonaudioHoldExpiry .. => 0x100801F0000000000008
  | .rateWindow .. => 0x100001F0000000000008
  | .audioNoclk .. => 0x100001F000000000000C
  | .camFrameStart .. => 0x101001F0000000000008
  | .camLongPacket .. => 0x101001F0000093800008
  | .camFrameEnd .. => 0x101001F0000000000008
  | .camNoFrame => 0x101001F000000000000C
  | .hspNop .. => 0x108001F0000000000008
  | .hspRd .. => 0x108001F0000000000028
  | .hspWr .. => 0x1DFFFFFFFFFEFFFFFFFA
  | .hspMrd .. => 0x108001F0000007000008
  | .hspMwr .. => 0x108001F0000007800008
  | .hspRepeat .. => 0x108001F0000000000008
  | .hspCfgApply => 0x800000000000000000
  | .pspTransferStart .. => 0x11000000000000000018
  | .pspTransferDone .. => 0x1000000000000000008
  | .flashBusyTimeout => 0x104001F0000000000008
  | .nvcUpdateUser .. => 0x10F803F31182F7802A9A
  | .nvcUpdateFactory .. => 0x10F803F31182F7802A9A
  | .nvcHostBoot .. => 0x10F803F31182F7802A9A
  | .nvcUpdateDone .. => 0x106001F0000000000008
  | .glnEvacGo .. => 0x8
  | .secProvision .. => 0x100001F0000000000008
  | .debugLock .. => 0x18
  | .logTailWrite .. => 0x100001F0000000000008
  | .pinHoldExpiry .. => 0xA0000000000004
  | .tapReset => 0x2000000000000000000
  | .idcode => 0x2000000000000000000
  | .samplePreload .. => 0x2000000000000000000
  | .extest .. => 0x2000000000000000000
  | .highz => 0x2000000000000000000
  | .clamp => 0x2000000000000000000
  | .debug => 0x2000000000000000002
  | .bypass => 0x2000000000000000000
  | .retentionSentinelSet => 0x200000000000000000
  | .refreshRateChange .. => 0x8
  | .pcieLinkUp .. => 0x8
  | .hspRejectedFrame .. => 0x108001F000000000000A

/-- Every command changes only the fields that its mask names. -/
theorem exec_eff (i : Instr) (s : State) : EffX (effMask i) s (exec i s) :=
  match i with
  | .tickEdge => execTickEdge_eff Sub.rfl Eff.refl
  | .fallowOpening => execFallowOpening_eff Sub.rfl Eff.refl
  | .armingStep => execArmingStep_eff Sub.rfl Eff.refl
  | .sliceBudgetExhausted .. => execSliceBudgetExhausted_eff Sub.rfl Eff.refl
  | .portFrameSync .. => execPortFrameSync_eff Sub.rfl Eff.refl
  | .lockAcquired => execLockAcquired_eff Sub.rfl Eff.refl
  | .holdover => execHoldover_eff Sub.rfl Eff.refl
  | .tickSyncPulse .. => execTickSyncPulse_eff Sub.rfl Eff.refl
  | .syncPulseTimeout => execSyncPulseTimeout_eff Sub.rfl Eff.refl
  | .workendTimeout .. => execWorkendTimeout_eff Sub.rfl Eff.refl
  | .tickRunStart .. => execTickRunStart_eff Sub.rfl Eff.refl
  | .tickRunStop .. => execTickRunStop_eff Sub.rfl Eff.refl
  | .registerWrite .. => execRegisterWrite_eff Sub.rfl Eff.refl
  | .rwtApplyWhileStopped .. => execRwtApplyWhileStopped_eff Sub.rfl Eff.refl
  | .pairLowRead .. => execPairLowRead_eff Sub.rfl Eff.refl
  | .pairLowWrite .. => execPairLowWrite_eff Sub.rfl Eff.refl
  | .pairHighWrite .. => execPairHighWrite_eff Sub.rfl Eff.refl
  | .end_ .. => execEnd_eff Sub.rfl Eff.refl
  | .loop .. => execLoop_eff Sub.rfl Eff.refl
  | .idle .. => execIdle_eff Sub.rfl Eff.refl
  | .fixjob .. => execFixjob_eff Sub.rfl Eff.refl
  | .post .. => execPost_eff Sub.rfl Eff.refl
  | .wait .. => execWait_eff Sub.rfl Eff.refl
  | .waitSatisfied .. => execWaitSatisfied_eff Sub.rfl Eff.refl
  | .mmul .. => execMmul_eff Sub.rfl Eff.refl
  | .accout .. => execAccout_eff Sub.rfl Eff.refl
  | .gate .. => execGate_eff Sub.rfl Eff.refl
  | .vadd .. => execVadd_eff Sub.rfl Eff.refl
  | .vmul .. => execVmul_eff Sub.rfl Eff.refl
  | .vlut .. => execVlut_eff Sub.rfl Eff.refl
  | .vnorm .. => execVnorm_eff Sub.rfl Eff.refl
  | .vmask .. => execVmask_eff Sub.rfl Eff.refl
  | .sattn .. => execSattn_eff Sub.rfl Eff.refl
  | .fattn .. => execFattn_eff Sub.rfl Eff.refl
  | .sumsc .. => execSumsc_eff Sub.rfl Eff.refl
  | .sprob .. => execSprob_eff Sub.rfl Eff.refl
  | .scan .. => execScan_eff Sub.rfl Eff.refl
  | .topk .. => execTopk_eff Sub.rfl Eff.refl
  | .beam .. => execBeam_eff Sub.rfl Eff.refl
  | .pagesel .. => execPagesel_eff Sub.rfl Eff.refl
  | .sample .. => execSample_eff Sub.rfl Eff.refl
  | .hrot .. => execHrot_eff Sub.rfl Eff.refl
  | .req .. => execReq_eff Sub.rfl Eff.refl
  | .kvapp .. => execKvapp_eff Sub.rfl Eff.refl
  | .move .. => execMove_eff Sub.rfl Eff.refl
  | .moveCommit .. => execMoveCommit_eff Sub.rfl Eff.refl
  | .moveSourceError .. => execMoveSourceError_eff Sub.rfl Eff.refl
  | .bar0BadAccess .. => execBar0BadAccess_eff Sub.rfl Eff.refl
  | .bar2Read .. => execBar2Read_eff Sub.rfl Eff.refl
  | .bar2Write .. => execBar2Write_eff Sub.rfl Eff.refl
  | .hostSideReset .. => execHostSideReset_eff Sub.rfl Eff.refl
  | .perstAssert => execPerstAssert_eff Sub.rfl Eff.refl
  | .queueEnable .. => execQueueEnable_eff Sub.rfl Eff.refl
  | .queueReset .. => execQueueReset_eff Sub.rfl Eff.refl
  | .sqDoorbell .. => execSqDoorbell_eff Sub.rfl Eff.refl
  | .cqDoorbell .. => execCqDoorbell_eff Sub.rfl Eff.refl
  | .requestFetch .. => execRequestFetch_eff Sub.rfl Eff.refl
  | .nop .. => execNop_eff Sub.rfl Eff.refl
  | .query .. => execQuery_eff Sub.rfl Eff.refl
  | .abort .. => execAbort_eff Sub.rfl Eff.refl
  | .planLoad .. => execPlanLoad_eff Sub.rfl Eff.refl
  | .planActivate .. => execPlanActivate_eff Sub.rfl Eff.refl
  | .planDiscard .. => execPlanDiscard_eff Sub.rfl Eff.refl
  | .streamOpen .. => execStreamOpen_eff Sub.rfl Eff.refl
  | .streamClose .. => execStreamClose_eff Sub.rfl Eff.refl
  | .streamPause .. => execStreamPause_eff Sub.rfl Eff.refl
  | .streamResume .. => execStreamResume_eff Sub.rfl Eff.refl
  | .streamAbort .. => execStreamAbort_eff Sub.rfl Eff.refl
  | .stateExport .. => execStateExport_eff Sub.rfl Eff.refl
  | .migrate .. => execMigrate_eff Sub.rfl Eff.refl
  | .audioBind .. => execAudioBind_eff Sub.rfl Eff.refl
  | .audioUnbind .. => execAudioUnbind_eff Sub.rfl Eff.refl
  | .overlay .. => execOverlay_eff Sub.rfl Eff.refl
  | .completionPost .. => execCompletionPost_eff Sub.rfl Eff.refl
  | .resultPost => execResultPost_eff Sub.rfl Eff.refl
  | .heldResultFlush .. => execHeldResultFlush_eff Sub.rfl Eff.refl
  | .qmodTimeout .. => execQmodTimeout_eff Sub.rfl Eff.refl
  | .gydanWrite .. => execGydanWrite_eff Sub.rfl Eff.refl
  | .gydanSeal .. => execGydanSeal_eff Sub.rfl Eff.refl
  | .gydanReleased .. => execGydanReleased_eff Sub.rfl Eff.refl
  | .gydanDiscard .. => execGydanDiscard_eff Sub.rfl Eff.refl
  | .gydanPull .. => execGydanPull_eff Sub.rfl Eff.refl
  | .gydanCommit .. => execGydanCommit_eff Sub.rfl Eff.refl
  | .gydanRefuse port cls moveId arg => (execGydanRefuse_eff Sub.rfl Eff.refl : EffX _ s (execGydanRefuse port cls moveId arg s))
  | .ask .. => execAsk_eff Sub.rfl Eff.refl
  | .answer .. => execAnswer_eff Sub.rfl Eff.refl
  | .answerTimeout .. => execAnswerTimeout_eff Sub.rfl Eff.refl
  | .report .. => execReport_eff Sub.rfl Eff.refl
  | .share port mw period => (execShare_eff Sub.rfl Eff.refl : EffX _ s (execShare port mw period s))
  | .workend .. => execWorkend_eff Sub.rfl Eff.refl
  | .classmsg .. => execClassmsg_eff Sub.rfl Eff.refl
  | .rejoin .. => execRejoin_eff Sub.rfl Eff.refl
  | .memberEject .. => execMemberEject_eff Sub.rfl Eff.refl
  | .leave .. => execLeave_eff Sub.rfl Eff.refl
  | .eject port chip incarnation => (execEject_eff Sub.rfl Eff.refl : EffX _ s (execEject port chip incarnation s))
  | .reqfwd .. => execReqfwd_eff Sub.rfl Eff.refl
  | .reqdone .. => execReqdone_eff Sub.rfl Eff.refl
  | .result .. => execResult_eff Sub.rfl Eff.refl
  | .locate .. => execLocate_eff Sub.rfl Eff.refl
  | .flitReceive .. => execFlitReceive_eff Sub.rfl Eff.refl
  | .ackTimeout .. => execAckTimeout_eff Sub.rfl Eff.refl
  | .gdnEnable .. => execGdnEnable_eff Sub.rfl Eff.refl
  | .gdnRetrain .. => execGdnRetrain_eff Sub.rfl Eff.refl
  | .blockLockAcquired .. => execBlockLockAcquired_eff Sub.rfl Eff.refl
  | .deskewDone .. => execDeskewDone_eff Sub.rfl Eff.refl
  | .paramReceive .. => execParamReceive_eff Sub.rfl Eff.refl
  | .trainingLimit .. => execTrainingLimit_eff Sub.rfl Eff.refl
  | .laneLockLoss .. => execLaneLockLoss_eff Sub.rfl Eff.refl
  | .markerError .. => execMarkerError_eff Sub.rfl Eff.refl
  | .peerLossTimeout .. => execPeerLossTimeout_eff Sub.rfl Eff.refl
  | .sensorRead .. => execSensorRead_eff Sub.rfl Eff.refl
  | .thermalDerateStep => execThermalDerateStep_eff Sub.rfl Eff.refl
  | .pmbusPeriod .. => execPmbusPeriod_eff Sub.rfl Eff.refl
  | .pmbAlert .. => execPmbAlert_eff Sub.rfl Eff.refl
  | .powerShareInterval .. => execPowerShareInterval_eff Sub.rfl Eff.refl
  | .calibrationFit => execCalibrationFit_eff Sub.rfl Eff.refl
  | .voltageSelection .. => execVoltageSelection_eff Sub.rfl Eff.refl
  | .capWrite .. => execCapWrite_eff Sub.rfl Eff.refl
  | .stookSharePeriod => execStookSharePeriod_eff Sub.rfl Eff.refl
  | .shareTimeout => execShareTimeout_eff Sub.rfl Eff.refl
  | .controlCoreRestart .. => execControlCoreRestart_eff Sub.rfl Eff.refl
  | .coreReturn .. => execCoreReturn_eff Sub.rfl Eff.refl
  | .cc3ReleaseOverrun => execCc3ReleaseOverrun_eff Sub.rfl Eff.refl
  | .firmwareReset .. => execFirmwareReset_eff Sub.rfl Eff.refl
  | .systemReset .. => execSystemReset_eff Sub.rfl Eff.refl
  | .resetNAssert => execResetNAssert_eff Sub.rfl Eff.refl
  | .onReqChange .. => execOnReqChange_eff Sub.rfl Eff.refl
  | .powerupStart => execPowerupStart_eff Sub.rfl Eff.refl
  | .releaseStep .. => execReleaseStep_eff Sub.rfl Eff.refl
  | .ready .. => execReady_eff Sub.rfl Eff.refl
  | .powerdownOff => execPowerdownOff_eff Sub.rfl Eff.refl
  | .supplyLoss .. => execSupplyLoss_eff Sub.rfl Eff.refl
  | .aonToKeep .. => execAonToKeep_eff Sub.rfl Eff.refl
  | .aonStart => execAonStart_eff Sub.rfl Eff.refl
  | .keepSample .. => execKeepSample_eff Sub.rfl Eff.refl
  | .presenceProbe .. => execPresenceProbe_eff Sub.rfl Eff.refl
  | .audioFrame .. => execAudioFrame_eff Sub.rfl Eff.refl
  | .nonaudioHoldExpiry .. => execNonaudioHoldExpiry_eff Sub.rfl Eff.refl
  | .rateWindow .. => execRateWindow_eff Sub.rfl Eff.refl
  | .audioNoclk .. => execAudioNoclk_eff Sub.rfl Eff.refl
  | .camFrameStart .. => execCamFrameStart_eff Sub.rfl Eff.refl
  | .camLongPacket .. => execCamLongPacket_eff Sub.rfl Eff.refl
  | .camFrameEnd .. => execCamFrameEnd_eff Sub.rfl Eff.refl
  | .camNoFrame => execCamNoFrame_eff Sub.rfl Eff.refl
  | .hspNop .. => execHspNop_eff Sub.rfl Eff.refl
  | .hspRd .. => execHspRd_eff Sub.rfl Eff.refl
  | .hspWr .. => execHspWr_eff Sub.rfl Eff.refl
  | .hspMrd .. => execHspMrd_eff Sub.rfl Eff.refl
  | .hspMwr .. => execHspMwr_eff Sub.rfl Eff.refl
  | .hspRepeat .. => execHspRepeat_eff Sub.rfl Eff.refl
  | .hspCfgApply => execHspCfgApply_eff Sub.rfl Eff.refl
  | .pspTransferStart .. => execPspTransferStart_eff Sub.rfl Eff.refl
  | .pspTransferDone .. => execPspTransferDone_eff Sub.rfl Eff.refl
  | .flashBusyTimeout => execFlashBusyTimeout_eff Sub.rfl Eff.refl
  | .nvcUpdateUser .. => execNvcUpdateUser_eff Sub.rfl Eff.refl
  | .nvcUpdateFactory .. => execNvcUpdateFactory_eff Sub.rfl Eff.refl
  | .nvcHostBoot .. => execNvcHostBoot_eff Sub.rfl Eff.refl
  | .nvcUpdateDone .. => execNvcUpdateDone_eff Sub.rfl Eff.refl
  | .glnEvacGo .. => execGlnEvacGo_eff Sub.rfl Eff.refl
  | .secProvision .. => execSecProvision_eff Sub.rfl Eff.refl
  | .debugLock .. => execDebugLock_eff Sub.rfl Eff.refl
  | .logTailWrite .. => execLogTailWrite_eff Sub.rfl Eff.refl
  | .pinHoldExpiry .. => execPinHoldExpiry_eff Sub.rfl Eff.refl
  | .tapReset => execTapReset_eff Sub.rfl Eff.refl
  | .idcode => execIdcode_eff Sub.rfl Eff.refl
  | .samplePreload .. => execSamplePreload_eff Sub.rfl Eff.refl
  | .extest .. => execExtest_eff Sub.rfl Eff.refl
  | .highz => execHighz_eff Sub.rfl Eff.refl
  | .clamp => execClamp_eff Sub.rfl Eff.refl
  | .debug => execDebug_eff Sub.rfl Eff.refl
  | .bypass => execBypass_eff Sub.rfl Eff.refl
  | .retentionSentinelSet => execRetentionSentinelSet_eff Sub.rfl Eff.refl
  | .refreshRateChange .. => execRefreshRateChange_eff Sub.rfl Eff.refl
  | .pcieLinkUp .. => execPcieLinkUp_eff Sub.rfl Eff.refl
  | .hspRejectedFrame .. => execHspRejectedFrame_eff Sub.rfl Eff.refl

end Sys2Proof.Machine
end

