-- ==== Sys2Proof/Laws/Clock.lean ====
section
/-!
SUPPORT. Laws/Clock.lean: nothing within a fallow window but the window's own opening and its arming step moves the tick from its phase, or
changes when the tick began, when its work ended and when its window opened.
-/
namespace Sys2Proof.Machine

set_option linter.unusedTactic false
set_option linter.unreachableTactic false

/-- The phase of the tick and its times are those of another state. -/
structure Clock (s t : State) : Prop where
  phase : t.tick.phase = s.tick.phase
  nominal : t.tick.nominal = s.tick.nominal
  edge : t.tick.edge = s.tick.edge
  workEnd : t.tick.workEnd = s.tick.workEnd
  opened : t.tick.opened = s.tick.opened

variable {s₀ : State}

theorem Clock.refl {s : State} : Clock s s := ⟨rfl, rfl, rfl, rfl, rfl⟩

theorem Clock.ofTick {s t : State} (h : Clock s₀ s) (e : t.tick = s.tick) : Clock s₀ t :=
  ⟨by rw [e]; exact h.phase, by rw [e]; exact h.nominal, by rw [e]; exact h.edge, by rw [e]; exact h.workEnd, by rw [e]; exact h.opened⟩

theorem Clock.eff {m : Nat} {s t : State} (h : Clock s₀ s) (k : Eff m s t) (hm : m.testBit 7 = false) : Clock s₀ t := h.ofTick (k.tick hm)

theorem Clock.lit {s t : State} (h : Clock s₀ s) (e : t.tick = s.tick) : Clock s₀ t := h.ofTick e

theorem Clock.litTick {s t : State} (h : Clock s₀ s) (e1 : t.tick.phase = s.tick.phase) (e2 : t.tick.nominal = s.tick.nominal)
    (e3 : t.tick.edge = s.tick.edge) (e4 : t.tick.workEnd = s.tick.workEnd) (e5 : t.tick.opened = s.tick.opened) : Clock s₀ t :=
  ⟨e1.trans h.phase, e2.trans h.nominal, e3.trans h.edge, e4.trans h.workEnd, e5.trans h.opened⟩

theorem State.updTick_clock {s : State} {f : TickState → TickState} (h : Clock s₀ s) (e1 : (f s.tick).phase = s.tick.phase)
    (e2 : (f s.tick).nominal = s.tick.nominal) (e3 : (f s.tick).edge = s.tick.edge) (e4 : (f s.tick).workEnd = s.tick.workEnd)
    (e5 : (f s.tick).opened = s.tick.opened) : Clock s₀ (s.updTick f) := Clock.litTick (s := s) h e1 e2 e3 e4 e5

theorem Clock.snd {α : Type} {r : α × State} {a : α} {t : State} (e : r = (a, t)) (h : Clock s₀ r.2) : Clock s₀ t := by subst e; exact h

theorem Clock.ite {c : Prop} [Decidable c] {a b : State} (ha : Clock s₀ a) (hb : Clock s₀ b) : Clock s₀ (if c then a else b) := by
  split <;> assumption

theorem Clock.foldl {α : Type} {f : State → α → State} (l : List α) (hf : ∀ s x, Clock s₀ s → Clock s₀ (f s x)) :
    ∀ {s : State}, Clock s₀ s → Clock s₀ (l.foldl f s) := by
  induction l with
  | nil => intro s h; exact h
  | cons x l ih => intro s h; exact ih (hf s x h)

theorem State.newSource_clock {s : State} (h : Clock s₀ s) : Clock s₀ (State.newSource s) := by
  unfold State.newSource
  repeat' first
    | with_reducible assumption
    | (extract_lets +onlyGivenNames v; refine (fun (hv : Clock s₀ v) => ?_) ?_; clear_value v; rotate_left; subst v)
    | (extract_lets +onlyGivenNames v; refine (fun (hv : Clock s₀ v.2) => ?_) ?_; clear_value v; rotate_left; subst v)
    | (extract_lets +onlyGivenNames v; refine (fun (hv : Clock s₀ v.1) => ?_) ?_; clear_value v; rotate_left; subst v)
    | (extract_lets +onlyGivenNames v; (have hp := v.seeking; clear hp; subst v))
    | (extract_lets +onlyGivenNames v; clear_value v)
    | with_reducible apply Clock.ite
    | with_reducible refine Clock.foldl _ (fun _ _ _ => ?_) ?_
    | with_reducible refine Clock.eff ?_ (State.tickRefused_eff Sub.rfl Eff.refl) rfl
    | with_reducible refine Clock.eff ?_ (State.setBit_eff Sub.rfl Eff.refl) rfl
    | dsimp -zeta only
    | intro _
    | with_reducible refine Clock.snd (by with_reducible assumption) ?_
    | split
    | with_reducible exact Clock.lit hv rfl
    | with_reducible exact Clock.lit h rfl
    | with_reducible exact Clock.litTick hv rfl rfl rfl rfl rfl
    | with_reducible exact Clock.litTick h rfl rfl rfl rfl rfl
    | (refine Clock.lit ?_ rfl; with_reducible assumption)
    | (refine Clock.lit ?_ rfl; with_reducible refine Clock.eff ?_ (State.tickRefused_eff Sub.rfl Eff.refl) rfl)
    | (refine Clock.lit ?_ rfl; with_reducible refine Clock.eff ?_ (State.setBit_eff Sub.rfl Eff.refl) rfl)
    | (refine Clock.litTick ?_ rfl rfl rfl rfl rfl; with_reducible refine Clock.eff ?_ (State.tickRefused_eff Sub.rfl Eff.refl) rfl)
    | (refine Clock.litTick ?_ rfl rfl rfl rfl rfl; with_reducible refine Clock.eff ?_ (State.setBit_eff Sub.rfl Eff.refl) rfl)

theorem State.applyTick_clock {s : State} {w : Want} (h : Clock s₀ s) : Clock s₀ (State.applyTick s w) := by
  unfold State.applyTick
  repeat' first
    | with_reducible assumption
    | (extract_lets +onlyGivenNames v; refine (fun (hv : Clock s₀ v) => ?_) ?_; clear_value v; rotate_left; subst v)
    | (extract_lets +onlyGivenNames v; refine (fun (hv : Clock s₀ v.2) => ?_) ?_; clear_value v; rotate_left; subst v)
    | (extract_lets +onlyGivenNames v; refine (fun (hv : Clock s₀ v.1) => ?_) ?_; clear_value v; rotate_left; subst v)
    | (extract_lets +onlyGivenNames v; (have hp := v.seeking; clear hp; subst v))
    | (extract_lets +onlyGivenNames v; clear_value v)
    | with_reducible apply Clock.ite
    | with_reducible refine Clock.foldl _ (fun _ _ _ => ?_) ?_
    | with_reducible apply State.newSource_clock
    | with_reducible refine Clock.eff ?_ (State.tickRefused_eff Sub.rfl Eff.refl) rfl
    | with_reducible refine Clock.eff ?_ (State.take_eff Sub.rfl Eff.refl) rfl
    | dsimp -zeta only
    | intro _
    | with_reducible refine Clock.snd (by with_reducible assumption) ?_
    | split
    | with_reducible exact Clock.lit hv rfl
    | with_reducible exact Clock.lit h rfl
    | with_reducible exact Clock.litTick hv rfl rfl rfl rfl rfl
    | with_reducible exact Clock.litTick h rfl rfl rfl rfl rfl
    | (refine Clock.lit ?_ rfl; with_reducible assumption)
    | (refine Clock.lit ?_ rfl; with_reducible apply State.newSource_clock)
    | (refine Clock.lit ?_ rfl; with_reducible refine Clock.eff ?_ (State.tickRefused_eff Sub.rfl Eff.refl) rfl)
    | (refine Clock.lit ?_ rfl; with_reducible refine Clock.eff ?_ (State.take_eff Sub.rfl Eff.refl) rfl)
    | (refine Clock.litTick ?_ rfl rfl rfl rfl rfl; with_reducible apply State.newSource_clock)
    | (refine Clock.litTick ?_ rfl rfl rfl rfl rfl; with_reducible refine Clock.eff ?_ (State.tickRefused_eff Sub.rfl Eff.refl) rfl)
    | (refine Clock.litTick ?_ rfl rfl rfl rfl rfl; with_reducible refine Clock.eff ?_ (State.take_eff Sub.rfl Eff.refl) rfl)

theorem State.applyWant_clock {s : State} {w : Want} (h : Clock s₀ s) : Clock s₀ (State.applyWant s w) := by
  unfold State.applyWant
  repeat' first
    | with_reducible assumption
    | (extract_lets +onlyGivenNames v; refine (fun (hv : Clock s₀ v) => ?_) ?_; clear_value v; rotate_left; subst v)
    | (extract_lets +onlyGivenNames v; refine (fun (hv : Clock s₀ v.2) => ?_) ?_; clear_value v; rotate_left; subst v)
    | (extract_lets +onlyGivenNames v; refine (fun (hv : Clock s₀ v.1) => ?_) ?_; clear_value v; rotate_left; subst v)
    | (extract_lets +onlyGivenNames v; (have hp := v.seeking; clear hp; subst v))
    | (extract_lets +onlyGivenNames v; clear_value v)
    | with_reducible apply Clock.ite
    | with_reducible refine Clock.foldl _ (fun _ _ _ => ?_) ?_
    | with_reducible refine Clock.eff ?_ (State.applyCam_eff Sub.rfl Eff.refl) rfl
    | with_reducible refine Clock.eff ?_ (State.applyGlm_eff Sub.rfl Eff.refl) rfl
    | with_reducible refine Clock.eff ?_ (State.applyZoneRegs_eff Sub.rfl Eff.refl) rfl
    | with_reducible refine Clock.eff ?_ (State.applyJob_eff Sub.rfl Eff.refl) rfl
    | with_reducible refine Clock.eff ?_ (State.recheckPorts_eff Sub.rfl Eff.refl) rfl
    | with_reducible refine Clock.eff ?_ (State.applyAp_eff Sub.rfl Eff.refl) rfl
    | with_reducible refine Clock.eff ?_ (State.applyPager_eff Sub.rfl Eff.refl) rfl
    | with_reducible refine Clock.eff ?_ (State.applyHwt_eff Sub.rfl Eff.refl) rfl
    | with_reducible refine Clock.eff ?_ (State.applyStage_eff Sub.rfl Eff.refl) rfl
    | with_reducible apply State.applyTick_clock
    | dsimp -zeta only
    | intro _
    | with_reducible refine Clock.snd (by with_reducible assumption) ?_
    | split
    | with_reducible exact Clock.lit hv rfl
    | with_reducible exact Clock.lit h rfl
    | with_reducible exact Clock.litTick hv rfl rfl rfl rfl rfl
    | with_reducible exact Clock.litTick h rfl rfl rfl rfl rfl
    | (refine Clock.lit ?_ rfl; with_reducible assumption)
    | (refine Clock.lit ?_ rfl; with_reducible refine Clock.eff ?_ (State.applyCam_eff Sub.rfl Eff.refl) rfl)
    | (refine Clock.lit ?_ rfl; with_reducible refine Clock.eff ?_ (State.applyGlm_eff Sub.rfl Eff.refl) rfl)
    | (refine Clock.lit ?_ rfl; with_reducible refine Clock.eff ?_ (State.applyZoneRegs_eff Sub.rfl Eff.refl) rfl)
    | (refine Clock.lit ?_ rfl; with_reducible refine Clock.eff ?_ (State.applyJob_eff Sub.rfl Eff.refl) rfl)
    | (refine Clock.lit ?_ rfl; with_reducible refine Clock.eff ?_ (State.recheckPorts_eff Sub.rfl Eff.refl) rfl)
    | (refine Clock.lit ?_ rfl; with_reducible refine Clock.eff ?_ (State.applyAp_eff Sub.rfl Eff.refl) rfl)
    | (refine Clock.lit ?_ rfl; with_reducible refine Clock.eff ?_ (State.applyPager_eff Sub.rfl Eff.refl) rfl)
    | (refine Clock.lit ?_ rfl; with_reducible refine Clock.eff ?_ (State.applyHwt_eff Sub.rfl Eff.refl) rfl)
    | (refine Clock.lit ?_ rfl; with_reducible refine Clock.eff ?_ (State.applyStage_eff Sub.rfl Eff.refl) rfl)
    | (refine Clock.lit ?_ rfl; with_reducible apply State.applyTick_clock)
    | (refine Clock.litTick ?_ rfl rfl rfl rfl rfl; with_reducible refine Clock.eff ?_ (State.applyCam_eff Sub.rfl Eff.refl) rfl)
    | (refine Clock.litTick ?_ rfl rfl rfl rfl rfl; with_reducible refine Clock.eff ?_ (State.applyGlm_eff Sub.rfl Eff.refl) rfl)
    | (refine Clock.litTick ?_ rfl rfl rfl rfl rfl; with_reducible refine Clock.eff ?_ (State.applyZoneRegs_eff Sub.rfl Eff.refl) rfl)
    | (refine Clock.litTick ?_ rfl rfl rfl rfl rfl; with_reducible refine Clock.eff ?_ (State.applyJob_eff Sub.rfl Eff.refl) rfl)
    | (refine Clock.litTick ?_ rfl rfl rfl rfl rfl; with_reducible refine Clock.eff ?_ (State.recheckPorts_eff Sub.rfl Eff.refl) rfl)
    | (refine Clock.litTick ?_ rfl rfl rfl rfl rfl; with_reducible refine Clock.eff ?_ (State.applyAp_eff Sub.rfl Eff.refl) rfl)
    | (refine Clock.litTick ?_ rfl rfl rfl rfl rfl; with_reducible refine Clock.eff ?_ (State.applyPager_eff Sub.rfl Eff.refl) rfl)
    | (refine Clock.litTick ?_ rfl rfl rfl rfl rfl; with_reducible refine Clock.eff ?_ (State.applyHwt_eff Sub.rfl Eff.refl) rfl)
    | (refine Clock.litTick ?_ rfl rfl rfl rfl rfl; with_reducible refine Clock.eff ?_ (State.applyStage_eff Sub.rfl Eff.refl) rfl)
    | (refine Clock.litTick ?_ rfl rfl rfl rfl rfl; with_reducible apply State.applyTick_clock)

theorem State.applyHeld_clock {s : State} (h : Clock s₀ s) : Clock s₀ (State.applyHeld s) := by
  unfold State.applyHeld
  repeat' first
    | with_reducible assumption
    | (extract_lets +onlyGivenNames v; refine (fun (hv : Clock s₀ v) => ?_) ?_; clear_value v; rotate_left; subst v)
    | (extract_lets +onlyGivenNames v; refine (fun (hv : Clock s₀ v.2) => ?_) ?_; clear_value v; rotate_left; subst v)
    | (extract_lets +onlyGivenNames v; refine (fun (hv : Clock s₀ v.1) => ?_) ?_; clear_value v; rotate_left; subst v)
    | (extract_lets +onlyGivenNames v; (have hp := v.seeking; clear hp; subst v))
    | (extract_lets +onlyGivenNames v; clear_value v)
    | with_reducible apply Clock.ite
    | with_reducible refine Clock.foldl _ (fun _ _ _ => ?_) ?_
    | with_reducible apply State.applyWant_clock
    | dsimp -zeta only
    | intro _
    | with_reducible refine Clock.snd (by with_reducible assumption) ?_
    | split
    | with_reducible exact Clock.lit hv rfl
    | with_reducible exact Clock.lit h rfl
    | with_reducible exact Clock.litTick hv rfl rfl rfl rfl rfl
    | with_reducible exact Clock.litTick h rfl rfl rfl rfl rfl
    | (refine Clock.lit ?_ rfl; with_reducible assumption)
    | (refine Clock.lit ?_ rfl; with_reducible apply State.applyWant_clock)
    | (refine Clock.litTick ?_ rfl rfl rfl rfl rfl; with_reducible apply State.applyWant_clock)

theorem State.writeIds_clock {s : State} {fields : List (Nat × Nat)} (h : Clock s₀ s) : Clock s₀ (State.writeIds s fields) := by
  unfold State.writeIds
  repeat' first
    | with_reducible assumption
    | (extract_lets +onlyGivenNames v; refine (fun (hv : Clock s₀ v) => ?_) ?_; clear_value v; rotate_left; subst v)
    | (extract_lets +onlyGivenNames v; refine (fun (hv : Clock s₀ v.2) => ?_) ?_; clear_value v; rotate_left; subst v)
    | (extract_lets +onlyGivenNames v; refine (fun (hv : Clock s₀ v.1) => ?_) ?_; clear_value v; rotate_left; subst v)
    | (extract_lets +onlyGivenNames v; (have hp := v.seeking; clear hp; subst v))
    | (extract_lets +onlyGivenNames v; clear_value v)
    | with_reducible apply Clock.ite
    | with_reducible refine Clock.foldl _ (fun _ _ _ => ?_) ?_
    | with_reducible refine Clock.eff ?_ (State.writeCap_eff Sub.rfl Eff.refl) rfl
    | with_reducible apply State.applyWant_clock
    | with_reducible refine Clock.eff ?_ (State.setReg_eff Sub.rfl Eff.refl) rfl
    | dsimp -zeta only
    | intro _
    | with_reducible refine Clock.snd (by with_reducible assumption) ?_
    | split
    | with_reducible exact Clock.lit hv rfl
    | with_reducible exact Clock.lit h rfl
    | with_reducible exact Clock.litTick hv rfl rfl rfl rfl rfl
    | with_reducible exact Clock.litTick h rfl rfl rfl rfl rfl
    | (refine Clock.lit ?_ rfl; with_reducible assumption)
    | (refine Clock.lit ?_ rfl; with_reducible refine Clock.eff ?_ (State.writeCap_eff Sub.rfl Eff.refl) rfl)
    | (refine Clock.lit ?_ rfl; with_reducible apply State.applyWant_clock)
    | (refine Clock.lit ?_ rfl; with_reducible refine Clock.eff ?_ (State.setReg_eff Sub.rfl Eff.refl) rfl)
    | (refine Clock.litTick ?_ rfl rfl rfl rfl rfl; with_reducible refine Clock.eff ?_ (State.writeCap_eff Sub.rfl Eff.refl) rfl)
    | (refine Clock.litTick ?_ rfl rfl rfl rfl rfl; with_reducible apply State.applyWant_clock)
    | (refine Clock.litTick ?_ rfl rfl rfl rfl rfl; with_reducible refine Clock.eff ?_ (State.setReg_eff Sub.rfl Eff.refl) rfl)

theorem State.takeEpoch_clock {s : State} {q : Nat} {tag : Nat} {epoch : Nat} {mode : Nat} {list : List (Nat × Nat)} (h : Clock s₀ s) : Clock s₀ (State.takeEpoch s q tag epoch mode list) := by
  unfold State.takeEpoch
  extract_lets v1 v2 v3 v4 v5 v6 v7 v8
  clear_value v8 v7 v6 v5 v4 v3 v2 v1
  refine Clock.ite ?_ ?_
  · exact h.eff (m := 0x1FFFFFFFFFFFFFFFFF7F) (State.settle_eff (Sub.mk rfl) (State.logViolation_eff (Sub.mk rfl) (State.draw_eff (Sub.mk rfl) Eff.refl))) rfl
  · split
    · exact h.eff (State.settle_eff Sub.rfl Eff.refl) rfl
    · exact h.eff (State.settle_eff Sub.rfl Eff.refl) rfl
    · rename_i offs w1 w2 held w3 w4 vals set src w5 x1 x2 heq
      have k2 : Clock s₀ w2 := State.writeIds_clock (h.lit rfl)
      have k4 : Clock s₀ w4 := (k2.eff (State.setReg_eff Sub.rfl Eff.refl) rfl).eff (State.setFld_eff Sub.rfl Eff.refl) rfl
      exact (k4.lit (t := w5) rfl).eff (State.actReq_eff Sub.rfl Eff.refl) rfl

theorem State.takeOverlay_clock {s : State} {q : Nat} {r : Req} (h : Clock s₀ s) : Clock s₀ (State.takeOverlay s q r) := by
  unfold State.takeOverlay
  extract_lets v1 v2
  clear_value v2 v1
  refine Clock.ite (h.eff (State.settle_eff Sub.rfl Eff.refl) rfl) (Clock.ite (State.takeEpoch_clock h)
    (Clock.ite (h.eff (State.settle_eff Sub.rfl Eff.refl) rfl) ?_))
  have k : Clock s₀ (s.senseRange r.addr r.len).2 := h.eff (State.senseRange_eff Sub.rfl Eff.refl) rfl
  rcases hr : s.senseRange r.addr r.len with ⟨_ | bad, t⟩
  · rw [hr] at k
    dsimp only at k ⊢
    split
    · exact k.eff (m := 0x1FFFFFFFFFFFFFFFFF7F) (State.settle_eff (Sub.mk rfl) (State.logViolation_eff (Sub.mk rfl) Eff.refl)) rfl
    · exact State.takeEpoch_clock k
  · rw [hr] at k
    exact k.eff (m := 0x1FFFFFFFFFFFFFFFFF7F) (State.settle_eff (Sub.mk rfl) (State.logError_eff (Sub.mk rfl) Eff.refl)) rfl

theorem State.runEpochs_clock {s : State} {x1 : Nat} (h : Clock s₀ s) : Clock s₀ (State.runEpochs s x1) := by
  induction x1 generalizing s with
  | zero =>
    unfold State.runEpochs
    repeat' first
      | with_reducible assumption
      | (extract_lets +onlyGivenNames v; refine (fun (hv : Clock s₀ v) => ?_) ?_; clear_value v; rotate_left; subst v)
      | (extract_lets +onlyGivenNames v; refine (fun (hv : Clock s₀ v.2) => ?_) ?_; clear_value v; rotate_left; subst v)
      | (extract_lets +onlyGivenNames v; refine (fun (hv : Clock s₀ v.1) => ?_) ?_; clear_value v; rotate_left; subst v)
      | (extract_lets +onlyGivenNames v; (have hp := v.seeking; clear hp; subst v))
      | (extract_lets +onlyGivenNames v; clear_value v)
      | with_reducible apply Clock.ite
      | with_reducible refine Clock.foldl _ (fun _ _ _ => ?_) ?_
      | with_reducible apply State.takeOverlay_clock
      | with_reducible refine Clock.eff ?_ (State.advanceEpoch_eff Sub.rfl Eff.refl) rfl
      | with_reducible apply ih
      | dsimp -zeta only
      | intro _
      | with_reducible refine Clock.snd (by with_reducible assumption) ?_
      | split
      | with_reducible exact Clock.lit hv rfl
      | with_reducible exact Clock.lit h rfl
      | with_reducible exact Clock.litTick hv rfl rfl rfl rfl rfl
      | with_reducible exact Clock.litTick h rfl rfl rfl rfl rfl
      | (refine Clock.lit ?_ rfl; with_reducible assumption)
      | (refine Clock.lit ?_ rfl; with_reducible apply State.takeOverlay_clock)
      | (refine Clock.lit ?_ rfl; with_reducible refine Clock.eff ?_ (State.advanceEpoch_eff Sub.rfl Eff.refl) rfl)
      | (refine Clock.lit ?_ rfl; with_reducible apply ih)
      | (refine Clock.litTick ?_ rfl rfl rfl rfl rfl; with_reducible apply State.takeOverlay_clock)
      | (refine Clock.litTick ?_ rfl rfl rfl rfl rfl; with_reducible refine Clock.eff ?_ (State.advanceEpoch_eff Sub.rfl Eff.refl) rfl)
      | (refine Clock.litTick ?_ rfl rfl rfl rfl rfl; with_reducible apply ih)
  | succ n ih =>
    unfold State.runEpochs
    repeat' first
      | with_reducible assumption
      | (extract_lets +onlyGivenNames v; refine (fun (hv : Clock s₀ v) => ?_) ?_; clear_value v; rotate_left; subst v)
      | (extract_lets +onlyGivenNames v; refine (fun (hv : Clock s₀ v.2) => ?_) ?_; clear_value v; rotate_left; subst v)
      | (extract_lets +onlyGivenNames v; refine (fun (hv : Clock s₀ v.1) => ?_) ?_; clear_value v; rotate_left; subst v)
      | (extract_lets +onlyGivenNames v; (have hp := v.seeking; clear hp; subst v))
      | (extract_lets +onlyGivenNames v; clear_value v)
      | with_reducible apply Clock.ite
      | with_reducible refine Clock.foldl _ (fun _ _ _ => ?_) ?_
      | with_reducible apply State.takeOverlay_clock
      | with_reducible refine Clock.eff ?_ (State.advanceEpoch_eff Sub.rfl Eff.refl) rfl
      | with_reducible apply ih
      | dsimp -zeta only
      | intro _
      | with_reducible refine Clock.snd (by with_reducible assumption) ?_
      | split
      | with_reducible exact Clock.lit hv rfl
      | with_reducible exact Clock.lit h rfl
      | with_reducible exact Clock.litTick hv rfl rfl rfl rfl rfl
      | with_reducible exact Clock.litTick h rfl rfl rfl rfl rfl
      | (refine Clock.lit ?_ rfl; with_reducible assumption)
      | (refine Clock.lit ?_ rfl; with_reducible apply State.takeOverlay_clock)
      | (refine Clock.lit ?_ rfl; with_reducible refine Clock.eff ?_ (State.advanceEpoch_eff Sub.rfl Eff.refl) rfl)
      | (refine Clock.lit ?_ rfl; with_reducible apply ih)
      | (refine Clock.litTick ?_ rfl rfl rfl rfl rfl; with_reducible apply State.takeOverlay_clock)
      | (refine Clock.litTick ?_ rfl rfl rfl rfl rfl; with_reducible refine Clock.eff ?_ (State.advanceEpoch_eff Sub.rfl Eff.refl) rfl)
      | (refine Clock.litTick ?_ rfl rfl rfl rfl rfl; with_reducible apply ih)

theorem State.setClass_clock {s : State} {c : TickClass} {opening : Nat} (h : Clock s₀ s) : Clock s₀ (State.setClass s c opening) := by
  unfold State.setClass
  repeat' first
    | with_reducible assumption
    | (extract_lets +onlyGivenNames v; refine (fun (hv : Clock s₀ v) => ?_) ?_; clear_value v; rotate_left; subst v)
    | (extract_lets +onlyGivenNames v; refine (fun (hv : Clock s₀ v.2) => ?_) ?_; clear_value v; rotate_left; subst v)
    | (extract_lets +onlyGivenNames v; refine (fun (hv : Clock s₀ v.1) => ?_) ?_; clear_value v; rotate_left; subst v)
    | (extract_lets +onlyGivenNames v; (have hp := v.seeking; clear hp; subst v))
    | (extract_lets +onlyGivenNames v; clear_value v)
    | with_reducible apply Clock.ite
    | with_reducible refine Clock.foldl _ (fun _ _ _ => ?_) ?_
    | with_reducible refine Clock.eff ?_ (State.showClass_eff Sub.rfl Eff.refl) rfl
    | with_reducible refine State.updTick_clock ?_ rfl rfl rfl rfl rfl
    | dsimp -zeta only
    | intro _
    | with_reducible refine Clock.snd (by with_reducible assumption) ?_
    | split
    | with_reducible exact Clock.lit hv rfl
    | with_reducible exact Clock.lit h rfl
    | with_reducible exact Clock.litTick hv rfl rfl rfl rfl rfl
    | with_reducible exact Clock.litTick h rfl rfl rfl rfl rfl
    | (refine Clock.lit ?_ rfl; with_reducible assumption)
    | (refine Clock.lit ?_ rfl; with_reducible refine Clock.eff ?_ (State.showClass_eff Sub.rfl Eff.refl) rfl)
    | (refine Clock.lit ?_ rfl; with_reducible refine State.updTick_clock ?_ rfl rfl rfl rfl rfl)
    | (refine Clock.litTick ?_ rfl rfl rfl rfl rfl; with_reducible refine Clock.eff ?_ (State.showClass_eff Sub.rfl Eff.refl) rfl)
    | (refine Clock.litTick ?_ rfl rfl rfl rfl rfl; with_reducible refine State.updTick_clock ?_ rfl rfl rfl rfl rfl)

theorem State.stookClass_clock {s : State} {force : Bool} (h : Clock s₀ s) : Clock s₀ (State.stookClass s force) := by
  unfold State.stookClass
  repeat' first
    | with_reducible assumption
    | (extract_lets +onlyGivenNames v; refine (fun (hv : Clock s₀ v) => ?_) ?_; clear_value v; rotate_left; subst v)
    | (extract_lets +onlyGivenNames v; refine (fun (hv : Clock s₀ v.2) => ?_) ?_; clear_value v; rotate_left; subst v)
    | (extract_lets +onlyGivenNames v; refine (fun (hv : Clock s₀ v.1) => ?_) ?_; clear_value v; rotate_left; subst v)
    | (extract_lets +onlyGivenNames v; (have hp := v.seeking; clear hp; subst v))
    | (extract_lets +onlyGivenNames v; clear_value v)
    | with_reducible apply Clock.ite
    | with_reducible refine Clock.foldl _ (fun _ _ _ => ?_) ?_
    | with_reducible apply State.setClass_clock
    | with_reducible refine State.updTick_clock ?_ rfl rfl rfl rfl rfl
    | with_reducible refine Clock.eff ?_ (State.peerMsg_eff Sub.rfl Eff.refl) rfl
    | with_reducible refine Clock.eff ?_ (State.logError_eff Sub.rfl Eff.refl) rfl
    | with_reducible refine Clock.eff ?_ (State.setBit_eff Sub.rfl Eff.refl) rfl
    | dsimp -zeta only
    | intro _
    | with_reducible refine Clock.snd (by with_reducible assumption) ?_
    | split
    | with_reducible exact Clock.lit hv rfl
    | with_reducible exact Clock.lit h rfl
    | with_reducible exact Clock.litTick hv rfl rfl rfl rfl rfl
    | with_reducible exact Clock.litTick h rfl rfl rfl rfl rfl
    | (refine Clock.lit ?_ rfl; with_reducible assumption)
    | (refine Clock.lit ?_ rfl; with_reducible apply State.setClass_clock)
    | (refine Clock.lit ?_ rfl; with_reducible refine State.updTick_clock ?_ rfl rfl rfl rfl rfl)
    | (refine Clock.lit ?_ rfl; with_reducible refine Clock.eff ?_ (State.peerMsg_eff Sub.rfl Eff.refl) rfl)
    | (refine Clock.lit ?_ rfl; with_reducible refine Clock.eff ?_ (State.logError_eff Sub.rfl Eff.refl) rfl)
    | (refine Clock.lit ?_ rfl; with_reducible refine Clock.eff ?_ (State.setBit_eff Sub.rfl Eff.refl) rfl)
    | (refine Clock.litTick ?_ rfl rfl rfl rfl rfl; with_reducible apply State.setClass_clock)
    | (refine Clock.litTick ?_ rfl rfl rfl rfl rfl; with_reducible refine State.updTick_clock ?_ rfl rfl rfl rfl rfl)
    | (refine Clock.litTick ?_ rfl rfl rfl rfl rfl; with_reducible refine Clock.eff ?_ (State.peerMsg_eff Sub.rfl Eff.refl) rfl)
    | (refine Clock.litTick ?_ rfl rfl rfl rfl rfl; with_reducible refine Clock.eff ?_ (State.logError_eff Sub.rfl Eff.refl) rfl)
    | (refine Clock.litTick ?_ rfl rfl rfl rfl rfl; with_reducible refine Clock.eff ?_ (State.setBit_eff Sub.rfl Eff.refl) rfl)

theorem State.step1_clock {s : State} (h : Clock s₀ s) : Clock s₀ (State.step1 s) := by
  unfold State.step1
  repeat' first
    | with_reducible assumption
    | (extract_lets +onlyGivenNames v; refine (fun (hv : Clock s₀ v) => ?_) ?_; clear_value v; rotate_left; subst v)
    | (extract_lets +onlyGivenNames v; refine (fun (hv : Clock s₀ v.2) => ?_) ?_; clear_value v; rotate_left; subst v)
    | (extract_lets +onlyGivenNames v; refine (fun (hv : Clock s₀ v.1) => ?_) ?_; clear_value v; rotate_left; subst v)
    | (extract_lets +onlyGivenNames v; (have hp := v.seeking; clear hp; subst v))
    | (extract_lets +onlyGivenNames v; clear_value v)
    | with_reducible apply Clock.ite
    | with_reducible refine Clock.foldl _ (fun _ _ _ => ?_) ?_
    | with_reducible refine Clock.eff ?_ (State.creditEnergy_eff Sub.rfl Eff.refl) rfl
    | with_reducible refine Clock.eff ?_ (State.clearBanks_eff Sub.rfl Eff.refl) rfl
    | with_reducible refine Clock.eff ?_ (State.checkPinned_eff Sub.rfl Eff.refl) rfl
    | with_reducible refine Clock.eff ?_ (State.scrub_eff Sub.rfl Eff.refl) rfl
    | with_reducible refine Clock.eff ?_ (State.doWriteBack_eff Sub.rfl Eff.refl) rfl
    | with_reducible apply State.applyHeld_clock
    | with_reducible refine Clock.eff ?_ (State.camReady_eff Sub.rfl Eff.refl) rfl
    | with_reducible refine Clock.eff ?_ (State.stageReady_eff Sub.rfl Eff.refl) rfl
    | dsimp -zeta only
    | intro _
    | with_reducible refine Clock.snd (by with_reducible assumption) ?_
    | split
    | with_reducible exact Clock.lit hv rfl
    | with_reducible exact Clock.lit h rfl
    | with_reducible exact Clock.litTick hv rfl rfl rfl rfl rfl
    | with_reducible exact Clock.litTick h rfl rfl rfl rfl rfl
    | (refine Clock.lit ?_ rfl; with_reducible assumption)
    | (refine Clock.lit ?_ rfl; with_reducible refine Clock.eff ?_ (State.creditEnergy_eff Sub.rfl Eff.refl) rfl)
    | (refine Clock.lit ?_ rfl; with_reducible refine Clock.eff ?_ (State.clearBanks_eff Sub.rfl Eff.refl) rfl)
    | (refine Clock.lit ?_ rfl; with_reducible refine Clock.eff ?_ (State.checkPinned_eff Sub.rfl Eff.refl) rfl)
    | (refine Clock.lit ?_ rfl; with_reducible refine Clock.eff ?_ (State.scrub_eff Sub.rfl Eff.refl) rfl)
    | (refine Clock.lit ?_ rfl; with_reducible refine Clock.eff ?_ (State.doWriteBack_eff Sub.rfl Eff.refl) rfl)
    | (refine Clock.lit ?_ rfl; with_reducible apply State.applyHeld_clock)
    | (refine Clock.lit ?_ rfl; with_reducible refine Clock.eff ?_ (State.camReady_eff Sub.rfl Eff.refl) rfl)
    | (refine Clock.lit ?_ rfl; with_reducible refine Clock.eff ?_ (State.stageReady_eff Sub.rfl Eff.refl) rfl)
    | (refine Clock.litTick ?_ rfl rfl rfl rfl rfl; with_reducible refine Clock.eff ?_ (State.creditEnergy_eff Sub.rfl Eff.refl) rfl)
    | (refine Clock.litTick ?_ rfl rfl rfl rfl rfl; with_reducible refine Clock.eff ?_ (State.clearBanks_eff Sub.rfl Eff.refl) rfl)
    | (refine Clock.litTick ?_ rfl rfl rfl rfl rfl; with_reducible refine Clock.eff ?_ (State.checkPinned_eff Sub.rfl Eff.refl) rfl)
    | (refine Clock.litTick ?_ rfl rfl rfl rfl rfl; with_reducible refine Clock.eff ?_ (State.scrub_eff Sub.rfl Eff.refl) rfl)
    | (refine Clock.litTick ?_ rfl rfl rfl rfl rfl; with_reducible refine Clock.eff ?_ (State.doWriteBack_eff Sub.rfl Eff.refl) rfl)
    | (refine Clock.litTick ?_ rfl rfl rfl rfl rfl; with_reducible apply State.applyHeld_clock)
    | (refine Clock.litTick ?_ rfl rfl rfl rfl rfl; with_reducible refine Clock.eff ?_ (State.camReady_eff Sub.rfl Eff.refl) rfl)
    | (refine Clock.litTick ?_ rfl rfl rfl rfl rfl; with_reducible refine Clock.eff ?_ (State.stageReady_eff Sub.rfl Eff.refl) rfl)

theorem State.step3_clock {s : State} (h : Clock s₀ s) : Clock s₀ (State.step3 s) := by
  unfold State.step3
  repeat' first
    | with_reducible assumption
    | (extract_lets +onlyGivenNames v; refine (fun (hv : Clock s₀ v) => ?_) ?_; clear_value v; rotate_left; subst v)
    | (extract_lets +onlyGivenNames v; refine (fun (hv : Clock s₀ v.2) => ?_) ?_; clear_value v; rotate_left; subst v)
    | (extract_lets +onlyGivenNames v; refine (fun (hv : Clock s₀ v.1) => ?_) ?_; clear_value v; rotate_left; subst v)
    | (extract_lets +onlyGivenNames v; (have hp := v.seeking; clear hp; subst v))
    | (extract_lets +onlyGivenNames v; clear_value v)
    | with_reducible apply Clock.ite
    | with_reducible refine Clock.foldl _ (fun _ _ _ => ?_) ?_
    | with_reducible refine Clock.eff ?_ (State.takeBootPlan_eff Sub.rfl Eff.refl) rfl
    | with_reducible refine Clock.eff ?_ (State.takeBoundaries_eff Sub.rfl Eff.refl) rfl
    | with_reducible refine Clock.eff ?_ (State.takeStep3Reqs_eff Sub.rfl Eff.refl) rfl
    | with_reducible apply State.runEpochs_clock
    | dsimp -zeta only
    | intro _
    | with_reducible refine Clock.snd (by with_reducible assumption) ?_
    | split
    | with_reducible exact Clock.lit hv rfl
    | with_reducible exact Clock.lit h rfl
    | with_reducible exact Clock.litTick hv rfl rfl rfl rfl rfl
    | with_reducible exact Clock.litTick h rfl rfl rfl rfl rfl
    | (refine Clock.lit ?_ rfl; with_reducible assumption)
    | (refine Clock.lit ?_ rfl; with_reducible refine Clock.eff ?_ (State.takeBootPlan_eff Sub.rfl Eff.refl) rfl)
    | (refine Clock.lit ?_ rfl; with_reducible refine Clock.eff ?_ (State.takeBoundaries_eff Sub.rfl Eff.refl) rfl)
    | (refine Clock.lit ?_ rfl; with_reducible refine Clock.eff ?_ (State.takeStep3Reqs_eff Sub.rfl Eff.refl) rfl)
    | (refine Clock.lit ?_ rfl; with_reducible apply State.runEpochs_clock)
    | (refine Clock.litTick ?_ rfl rfl rfl rfl rfl; with_reducible refine Clock.eff ?_ (State.takeBootPlan_eff Sub.rfl Eff.refl) rfl)
    | (refine Clock.litTick ?_ rfl rfl rfl rfl rfl; with_reducible refine Clock.eff ?_ (State.takeBoundaries_eff Sub.rfl Eff.refl) rfl)
    | (refine Clock.litTick ?_ rfl rfl rfl rfl rfl; with_reducible refine Clock.eff ?_ (State.takeStep3Reqs_eff Sub.rfl Eff.refl) rfl)
    | (refine Clock.litTick ?_ rfl rfl rfl rfl rfl; with_reducible apply State.runEpochs_clock)

theorem State.fallowSteps_clock {s : State} (h : Clock s₀ s) : Clock s₀ (State.fallowSteps s) := by
  unfold State.fallowSteps
  extract_lets c s1 s2 s3 s4 s5 s6
  have h1 : Clock s₀ s1 := Clock.ite (State.step3_clock h) h
  have h2 : Clock s₀ s2 := Clock.ite (h1.eff (State.step4_eff Sub.rfl Eff.refl) rfl) h1
  have h3 : Clock s₀ s3 := Clock.ite (h2.eff (State.step5_eff Sub.rfl Eff.refl) rfl) h2
  have h4 : Clock s₀ s4 := Clock.ite (h3.eff (State.loadStep_eff Sub.rfl Eff.refl) rfl) h3
  have h5 : Clock s₀ s5 := Clock.ite (h4.eff (State.admission_eff Sub.rfl Eff.refl) rfl) (h4.lit rfl)
  have h6 : Clock s₀ s6 := by
    show Clock s₀ (match s5.nextRows with | some rows => s5.writeRowMap rows | none => s5)
    split
    · exact h5.eff (State.writeRowMap_eff Sub.rfl Eff.refl) rfl
    · exact h5
  exact State.updTick_clock (h6.eff (State.answerForwarded_eff Sub.rfl Eff.refl) rfl) rfl rfl rfl rfl rfl


/-! ### Once the writes held have taken effect at the opening, the window holds none (R22) -/

theorem State.rwtHeld_takeEpoch {s : State} {q tag epoch mode : Nat} {list : List (Nat × Nat)} (h : s.rwtHeld = []) :
    (s.takeEpoch q tag epoch mode list).rwtHeld = [] := by
  have e : ∀ {t u : State} {m : Nat}, Eff m t u → m.testBit 4 = false → t.rwtHeld = [] → u.rwtHeld = [] := fun k hm ht => (k.rwtHeld hm).trans ht
  unfold State.takeEpoch
  extract_lets v1 v2 v3 v4 v5 v6 v7 v8
  clear_value v8 v7 v6 v5 v4 v3 v2 v1
  split
  · exact e (m := 0x1fffffffffffffffffef) (State.settle_eff (Sub.mk rfl) (State.logViolation_eff (Sub.mk rfl) (State.draw_eff (Sub.mk rfl) Eff.refl))) rfl h
  · split
    · exact e (State.settle_eff Sub.rfl Eff.refl) rfl h
    · exact e (State.settle_eff Sub.rfl Eff.refl) rfl h
    · rename_i offs w1 w2 held w3 w4 vals set src w5 a1 a2 a3 a4
      have k1 : w1.rwtHeld = [] := by show s.rwtHeld.filter _ = []; rw [h]; rfl
      have k2 : w2.rwtHeld = [] := e (State.writeIds_eff Sub.rfl Eff.refl) rfl k1
      have k4 : w4.rwtHeld = [] := e (State.setFld_eff Sub.rfl Eff.refl) rfl (e (State.setReg_eff Sub.rfl Eff.refl) rfl k2)
      have k5 : w5.rwtHeld = [] := k4
      exact e (State.actReq_eff Sub.rfl Eff.refl) rfl k5

theorem State.rwtHeld_takeOverlay {s : State} {q : Nat} {r : Req} (h : s.rwtHeld = []) : (s.takeOverlay q r).rwtHeld = [] := by
  have e : ∀ {t u : State} {m : Nat}, Eff m t u → m.testBit 4 = false → t.rwtHeld = [] → u.rwtHeld = [] := fun k hm ht => (k.rwtHeld hm).trans ht
  have se : ∀ {t : State} {a b c d f : Nat}, t.rwtHeld = [] → (t.settle a b c d f 0xFF).rwtHeld = [] := fun h => e (State.settle_eff Sub.rfl Eff.refl) rfl h
  unfold State.takeOverlay
  extract_lets v1 v2
  clear_value v2 v1
  have k : (s.senseRange r.addr r.len).2.rwtHeld = [] := e (State.senseRange_eff Sub.rfl Eff.refl) rfl h
  split
  · exact se h
  · split
    · exact State.rwtHeld_takeEpoch h
    · split
      · exact se h
      · rcases hr : s.senseRange r.addr r.len with ⟨_ | bad, t⟩
        · rw [hr] at k
          dsimp only at k ⊢
          split
          · exact se (e (State.logViolation_eff Sub.rfl Eff.refl) rfl k)
          · exact State.rwtHeld_takeEpoch k
        · rw [hr] at k
          exact se (e (State.logError_eff Sub.rfl Eff.refl) rfl k)

theorem State.rwtHeld_runEpochs (n : Nat) : ∀ {s : State}, s.rwtHeld = [] → (s.runEpochs n).rwtHeld = [] := by
  induction n with
  | zero => intro s h; exact h
  | succ n ih =>
    intro s h
    have k : s.advanceEpoch.rwtHeld = [] := ((State.advanceEpoch_eff Sub.rfl Eff.refl).rwtHeld rfl).trans h
    unfold State.runEpochs
    dsimp only
    split
    · exact k
    · split
      · exact k
      · exact ih (State.rwtHeld_takeOverlay k)

theorem State.rwtHeld_fallowSteps {s : State} (h : s.rwtHeld = []) : s.fallowSteps.rwtHeld = [] := by
  have e : ∀ {t u : State} {m : Nat}, Eff m t u → m.testBit 4 = false → t.rwtHeld = [] → u.rwtHeld = [] := fun k hm ht => (k.rwtHeld hm).trans ht
  unfold State.fallowSteps
  extract_lets c s1 s2 s3 s4 s5 s6
  have h1 : s1.rwtHeld = [] := by
    show (if c then s.step3 else s).rwtHeld = []
    split
    · unfold State.step3
      apply State.rwtHeld_runEpochs
      exact e (State.takeBoundaries_eff Sub.rfl Eff.refl) rfl (e (State.takeStep3Reqs_eff Sub.rfl Eff.refl) rfl (e (State.takeBootPlan_eff Sub.rfl Eff.refl) rfl h))
    · exact h
  have h2 : s2.rwtHeld = [] := by
    show (if s1.coreUp 3 then s1.step4 c else s1).rwtHeld = []
    split
    · exact e (State.step4_eff Sub.rfl Eff.refl) rfl h1
    · exact h1
  have h3 : s3.rwtHeld = [] := by
    show (if c then s2.step5 else s2).rwtHeld = []
    split
    · exact e (State.step5_eff Sub.rfl Eff.refl) rfl h2
    · exact h2
  have h4 : s4.rwtHeld = [] := by
    show (if s3.coreUp 3 then s3.loadStep else s3).rwtHeld = []
    split
    · exact e (State.loadStep_eff Sub.rfl Eff.refl) rfl h3
    · exact h3
  have h5 : s5.rwtHeld = [] := by
    show (if c then s4.admission else { s4 with nextRows := none }).rwtHeld = []
    split
    · exact e (State.admission_eff Sub.rfl Eff.refl) rfl h4
    · exact h4
  have h6 : s6.rwtHeld = [] := by
    show (match s5.nextRows with | some rows => s5.writeRowMap rows | none => s5).rwtHeld = []
    split
    · exact e (State.writeRowMap_eff Sub.rfl Eff.refl) rfl h5
    · exact h5
  rw [State.updTick_rwtHeld]
  exact e (State.answerForwarded_eff Sub.rfl Eff.refl) rfl h6

theorem State.rwtHeld_applyHeld (s : State) : s.applyHeld.rwtHeld = [] := by
  unfold State.applyHeld
  split
  · next h => exact List.isEmpty_iff.1 h
  · exact (State.applyWant_eff Sub.rfl Eff.refl).rwtHeld rfl

theorem State.rwtHeld_step1 (s : State) : s.step1.rwtHeld = [] := by
  have e : ∀ {t u : State} {m : Nat}, Eff m t u → m.testBit 4 = false → t.rwtHeld = [] → u.rwtHeld = [] := fun k hm ht => (k.rwtHeld hm).trans ht
  unfold State.step1
  exact e (State.creditEnergy_eff Sub.rfl Eff.refl) rfl (e (State.clearBanks_eff Sub.rfl Eff.refl) rfl (e (State.checkPinned_eff Sub.rfl Eff.refl) rfl
    (e (State.scrub_eff Sub.rfl Eff.refl) rfl (e (State.doWriteBack_eff Sub.rfl Eff.refl) rfl (e (State.camReady_eff Sub.rfl Eff.refl) rfl
      (e (State.stageReady_eff Sub.rfl Eff.refl) rfl s.rwtHeld_applyHeld))))))

end Sys2Proof.Machine
end

