-- ==== Sys2Proof/Laws/Regs.lean ====
section
/-!
SUPPORT. Laws/Regs.lean: registers and their fields: a read after a write, and what a write of one register, field or bit leaves alone.
-/
namespace Sys2Proof.Machine

/-! ### Fields of a word -/

theorem wordField_eq (v : Word) (lo w : Nat) : wordField v lo w = v.toNat / 2 ^ lo % 2 ^ w := rfl

theorem wordField_lt (v : Word) (lo w : Nat) : wordField v lo w < 2 ^ w := Nat.mod_lt _ (Nat.two_pow_pos w)

theorem wordField_testBit (v : Word) (lo w j : Nat) : (wordField v lo w).testBit j = (decide (j < w) && v.getLsbD (lo + j)) := by
  rw [wordField_eq, Nat.testBit_mod_two_pow, ← Nat.shiftRight_eq_div_pow, Nat.testBit_shiftRight]
  rfl

theorem fieldMask_getLsbD (lo w j : Nat) :
    (fieldMask lo w).getLsbD j = (decide (j < 32) && (decide (lo ≤ j) && decide (j - lo < w))) := by
  unfold fieldMask
  rw [BitVec.getLsbD_ofNat, Nat.testBit_mul_two_pow, Nat.testBit_two_pow_sub_one]

theorem wordSetField_getLsbD (v : Word) (lo w n j : Nat) :
    (wordSetField v lo w n).getLsbD j =
      if lo ≤ j ∧ j - lo < w then decide (j < 32) && n.testBit (j - lo) else v.getLsbD j := by
  unfold wordSetField
  rw [BitVec.getLsbD_or, BitVec.getLsbD_and, BitVec.getLsbD_not, fieldMask_getLsbD, BitVec.getLsbD_ofNat,
    Nat.testBit_mul_two_pow, Nat.testBit_mod_two_pow]
  by_cases hj : j < 32
  · by_cases h1 : lo ≤ j <;> by_cases h2 : j - lo < w <;> simp [hj, h1, h2]
  · have : v.getLsbD j = false := BitVec.getLsbD_of_ge v j (by omega)
    simp [hj, this]

/-- A field reads what was written to it, cut to its width. -/
theorem wordField_wordSetField (v : Word) (lo w n : Nat) (h : lo + w ≤ 32) :
    wordField (wordSetField v lo w n) lo w = n % 2 ^ w := by
  apply Nat.eq_of_testBit_eq
  intro j
  rw [wordField_testBit, wordSetField_getLsbD, Nat.testBit_mod_two_pow]
  by_cases hj : j < w
  · have h3 : lo + j - lo = j := by omega
    have h4 : lo + j < 32 := by omega
    simp [hj, h3, h4]
  · simp [hj]

/-- A field apart from the one written reads as before. -/
theorem wordField_wordSetField_apart (v : Word) (lo w n lo' w' : Nat) (h : lo' + w' ≤ lo ∨ lo + w ≤ lo') :
    wordField (wordSetField v lo w n) lo' w' = wordField v lo' w' := by
  apply Nat.eq_of_testBit_eq
  intro j
  rw [wordField_testBit, wordField_testBit, wordSetField_getLsbD]
  by_cases hj : j < w'
  · rw [if_neg (by omega)]
  · simp [hj]

/-! ### Registers of a state -/

theorem State.reg_setReg (s : State) (a b : Nat) (v : Word) : (s.setReg a v).reg b = if b = a then v else s.reg b :=
  cellGet_cellSet _ _ _ _

@[simp] theorem State.reg_setReg_self (s : State) (a : Nat) (v : Word) : (s.setReg a v).reg a = v := by simp [State.reg_setReg]

theorem State.reg_setReg_apart (s : State) {a b : Nat} (v : Word) (h : b ≠ a) : (s.setReg a v).reg b = s.reg b := by
  simp [State.reg_setReg, h]

theorem State.reg_setFld (s : State) (a b lo w n : Nat) :
    (s.setFld a lo w n).reg b = if b = a then wordSetField (s.reg a) lo w n else s.reg b := State.reg_setReg _ _ _ _

theorem State.reg_setFld_apart (s : State) {a b : Nat} (lo w n : Nat) (h : b ≠ a) : (s.setFld a lo w n).reg b = s.reg b := by
  simp [State.reg_setFld, h]

theorem State.reg_setBit_apart (s : State) {a b : Nat} (i : Nat) (x : Bool) (h : b ≠ a) : (s.setBit a i x).reg b = s.reg b :=
  State.reg_setFld_apart _ _ _ _ h

theorem State.fld_setFld (s : State) (a lo w n : Nat) (h : lo + w ≤ 32) : (s.setFld a lo w n).fld a lo w = n % 2 ^ w := by
  unfold State.fld; rw [State.reg_setFld, if_pos rfl, wordField_wordSetField _ _ _ _ h]

theorem State.fld_setFld_apart (s : State) (a lo w n b lo' w' : Nat) (h : b ≠ a ∨ lo' + w' ≤ lo ∨ lo + w ≤ lo') :
    (s.setFld a lo w n).fld b lo' w' = s.fld b lo' w' := by
  unfold State.fld
  rw [State.reg_setFld]
  split
  · next e => subst e; exact wordField_wordSetField_apart _ _ _ _ _ _ (h.resolve_left (fun h => h rfl))
  · rfl

theorem State.bit_setBit (s : State) (a i : Nat) (x : Bool) (h : i < 32) : (s.setBit a i x).bit a i = x := by
  unfold State.bit State.setBit
  rw [State.fld_setFld _ _ _ _ _ (by omega)]
  cases x <;> simp

theorem State.bit_setBit_apart (s : State) (a i : Nat) (x : Bool) (b j : Nat) (h : b ≠ a ∨ j ≠ i) :
    (s.setBit a i x).bit b j = s.bit b j := by
  unfold State.bit State.setBit
  rw [State.fld_setFld_apart _ _ _ _ _ _ _ _ (by omega)]

theorem State.fld_setReg (s : State) (a b : Nat) (v : Word) (lo w : Nat) :
    (s.setReg a v).fld b lo w = if b = a then wordField v lo w else s.fld b lo w := by
  unfold State.fld; rw [State.reg_setReg]; split <;> rfl

theorem State.fld_setBit_apart (s : State) (a i : Nat) (x : Bool) (b lo w : Nat) (h : b ≠ a ∨ lo + w ≤ i ∨ i + 1 ≤ lo) :
    (s.setBit a i x).fld b lo w = s.fld b lo w := State.fld_setFld_apart _ _ _ _ _ _ _ _ h

theorem State.bit_setFld_apart (s : State) (a lo w n b i : Nat) (h : b ≠ a ∨ i < lo ∨ lo + w ≤ i) :
    (s.setFld a lo w n).bit b i = s.bit b i := by
  unfold State.bit; rw [State.fld_setFld_apart _ _ _ _ _ _ _ _ (by omega)]

/-- A counter that saturates holds the sum, or the largest value of its field. -/
theorem State.fld_addSat (s : State) (a lo w n : Nat) (h : lo + w ≤ 32) :
    (s.addSat a lo w n).fld a lo w = min (s.fld a lo w + n) (2 ^ w - 1) := by
  unfold State.addSat
  rw [State.fld_setFld _ _ _ _ _ h]
  apply Nat.mod_eq_of_lt
  have : 0 < 2 ^ w := Nat.two_pow_pos w
  omega

/-! ### Updates that reach no register -/

@[simp] theorem State.reg_reach (s : State) (n : Nat) (a : Nat) : (s.reach n).reg a = s.reg a := rfl
@[simp] theorem State.fld_reach (s : State) (n : Nat) (a lo w : Nat) : (s.reach n).fld a lo w = s.fld a lo w := rfl
@[simp] theorem State.bit_reach (s : State) (n : Nat) (a i : Nat) : (s.reach n).bit a i = s.bit a i := rfl
@[simp] theorem State.reg_emit (s : State) (o : Sent) (a : Nat) : (s.emit o).reg a = s.reg a := rfl
@[simp] theorem State.fld_emit (s : State) (o : Sent) (a lo w : Nat) : (s.emit o).fld a lo w = s.fld a lo w := rfl
@[simp] theorem State.bit_emit (s : State) (o : Sent) (a i : Nat) : (s.emit o).bit a i = s.bit a i := rfl
@[simp] theorem State.reg_setStream (s : State) (sc : Nat) (x : Stream) (a : Nat) : (s.setStream sc x).reg a = s.reg a := rfl
@[simp] theorem State.fld_setStream (s : State) (sc : Nat) (x : Stream) (a lo w : Nat) : (s.setStream sc x).fld a lo w = s.fld a lo w := rfl
@[simp] theorem State.bit_setStream (s : State) (sc : Nat) (x : Stream) (a i : Nat) : (s.setStream sc x).bit a i = s.bit a i := rfl
@[simp] theorem State.reg_setEng (s : State) (e : Nat) (g : EngState) (a : Nat) : (s.setEng e g).reg a = s.reg a := rfl
@[simp] theorem State.fld_setEng (s : State) (e : Nat) (g : EngState) (a lo w : Nat) : (s.setEng e g).fld a lo w = s.fld a lo w := rfl
@[simp] theorem State.bit_setEng (s : State) (e : Nat) (g : EngState) (a i : Nat) : (s.setEng e g).bit a i = s.bit a i := rfl
@[simp] theorem State.reg_updEng (s : State) (e : Nat) (f : EngState → EngState) (a : Nat) : (s.updEng e f).reg a = s.reg a := rfl
@[simp] theorem State.fld_updEng (s : State) (e : Nat) (f : EngState → EngState) (a lo w : Nat) : (s.updEng e f).fld a lo w = s.fld a lo w := rfl
@[simp] theorem State.bit_updEng (s : State) (e : Nat) (f : EngState → EngState) (a i : Nat) : (s.updEng e f).bit a i = s.bit a i := rfl
@[simp] theorem State.reg_updQueue (s : State) (k : Nat) (f : Queue → Queue) (a : Nat) : (s.updQueue k f).reg a = s.reg a := rfl
@[simp] theorem State.fld_updQueue (s : State) (k : Nat) (f : Queue → Queue) (a lo w : Nat) : (s.updQueue k f).fld a lo w = s.fld a lo w := rfl
@[simp] theorem State.bit_updQueue (s : State) (k : Nat) (f : Queue → Queue) (a i : Nat) : (s.updQueue k f).bit a i = s.bit a i := rfl
@[simp] theorem State.reg_updPort (s : State) (k : Nat) (f : Port → Port) (a : Nat) : (s.updPort k f).reg a = s.reg a := rfl
@[simp] theorem State.fld_updPort (s : State) (k : Nat) (f : Port → Port) (a lo w : Nat) : (s.updPort k f).fld a lo w = s.fld a lo w := rfl
@[simp] theorem State.bit_updPort (s : State) (k : Nat) (f : Port → Port) (a i : Nat) : (s.updPort k f).bit a i = s.bit a i := rfl
@[simp] theorem State.reg_updTick (s : State) (f : TickState → TickState) (a : Nat) : (s.updTick f).reg a = s.reg a := rfl
@[simp] theorem State.fld_updTick (s : State) (f : TickState → TickState) (a lo w : Nat) : (s.updTick f).fld a lo w = s.fld a lo w := rfl
@[simp] theorem State.bit_updTick (s : State) (f : TickState → TickState) (a i : Nat) : (s.updTick f).bit a i = s.bit a i := rfl
@[simp] theorem State.reg_updPwr (s : State) (f : PowerState → PowerState) (a : Nat) : (s.updPwr f).reg a = s.reg a := rfl
@[simp] theorem State.fld_updPwr (s : State) (f : PowerState → PowerState) (a lo w : Nat) : (s.updPwr f).fld a lo w = s.fld a lo w := rfl
@[simp] theorem State.bit_updPwr (s : State) (f : PowerState → PowerState) (a i : Nat) : (s.updPwr f).bit a i = s.bit a i := rfl
@[simp] theorem State.reg_updAon (s : State) (f : AonState → AonState) (a : Nat) : (s.updAon f).reg a = s.reg a := rfl
@[simp] theorem State.fld_updAon (s : State) (f : AonState → AonState) (a lo w : Nat) : (s.updAon f).fld a lo w = s.fld a lo w := rfl
@[simp] theorem State.bit_updAon (s : State) (f : AonState → AonState) (a i : Nat) : (s.updAon f).bit a i = s.bit a i := rfl
@[simp] theorem State.reg_updCam (s : State) (f : CamState → CamState) (a : Nat) : (s.updCam f).reg a = s.reg a := rfl
@[simp] theorem State.fld_updCam (s : State) (f : CamState → CamState) (a lo w : Nat) : (s.updCam f).fld a lo w = s.fld a lo w := rfl
@[simp] theorem State.bit_updCam (s : State) (f : CamState → CamState) (a i : Nat) : (s.updCam f).bit a i = s.bit a i := rfl

/-- A field of a register that is the same. -/
theorem State.fld_of_reg {s t : State} {a : Nat} (h : t.reg a = s.reg a) (lo w : Nat) : t.fld a lo w = s.fld a lo w := by
  unfold State.fld; rw [h]

theorem State.bit_of_reg {s t : State} {a : Nat} (h : t.reg a = s.reg a) (i : Nat) : t.bit a i = s.bit a i := by
  unfold State.bit; rw [State.fld_of_reg h]

theorem State.bit_setReg_apart (s : State) {a b : Nat} (v : Word) (i : Nat) (h : b ≠ a) : (s.setReg a v).bit b i = s.bit b i :=
  State.bit_of_reg (State.reg_setReg_apart _ _ h) _

theorem State.fld_setReg_apart (s : State) {a b : Nat} (v : Word) (lo w : Nat) (h : b ≠ a) : (s.setReg a v).fld b lo w = s.fld b lo w :=
  State.fld_of_reg (State.reg_setReg_apart _ _ h) _ _

end Sys2Proof.Machine
end

