-- ==== Sys2Proof/Laws/Events.lean ====
section
/-!
SUPPORT. Laws/Events.lean: what the raising of an interrupt status bit and the logging of an event change, and what they leave alone: every
register but those that `eventReg` names, and every part of the state but the registers, the log's counter, its pins and what has been sent.
-/
namespace Sys2Proof.Machine

variable (s : State)

/-! ### Registers -/

theorem State.reg_of_regs {s t : State} (h : t.regs = s.regs) (a : Nat) : t.reg a = s.reg a := by unfold State.reg; rw [h]

theorem State.reg_sendVector_apart {a : Nat} (v : Nat) (h1 : a ≠ Reg.HSP_INTPEND) (h2 : a ≠ Reg.HOST_MSIX_PBA) :
    (s.sendVector v).reg a = s.reg a := by
  unfold State.sendVector
  dsimp only
  split
  · split
    · rw [State.reg_setBit_apart _ _ _ h2, State.reg_setBit_apart _ _ _ h1]
    · exact State.reg_setBit_apart _ _ _ h1
  · exact State.reg_setBit_apart _ _ _ h1

theorem State.reg_raise_apart {a : Nat} (src : EvtSource) (stat b : Nat) (h1 : a ≠ Reg.HSP_INTPEND) (h2 : a ≠ Reg.HOST_MSIX_PBA)
    (ha : a ≠ stat) : (s.raise src stat b).reg a = s.reg a := by
  unfold State.raise
  split
  · rfl
  · dsimp only
    split <;> split
    all_goals first
      | rw [State.reg_sendVector_apart _ _ h1 h2, State.reg_setBit_apart _ _ _ ha]
      | exact State.reg_setBit_apart _ _ _ ha

theorem State.reg_sendVector {a : Nat} (v : Nat) (h : eventReg a = false) : (s.sendVector v).reg a = s.reg a :=
  State.reg_sendVector_apart _ _ (by intro e; subst e; revert h; decide) (by intro e; subst e; revert h; decide)

theorem State.reg_raise {a : Nat} (src : EvtSource) (stat b : Nat) (h : eventReg a = false) (ha : a ≠ stat) :
    (s.raise src stat b).reg a = s.reg a :=
  State.reg_raise_apart _ _ _ _ (by intro e; subst e; revert h; decide) (by intro e; subst e; revert h; decide) ha

/-- A raised bit reads 1. -/
theorem State.reg_raise_self_apart (src : EvtSource) (stat b : Nat) (h1 : stat ≠ Reg.HSP_INTPEND) (h2 : stat ≠ Reg.HOST_MSIX_PBA) :
    (s.raise src stat b).reg stat = (s.setBit stat b true).reg stat := by
  unfold State.raise
  split
  · next e =>
    have : s.fld stat b 1 = 1 := by simpa [State.bit] using e
    unfold State.setBit
    rw [State.reg_setFld, if_pos rfl]
    apply BitVec.eq_of_getLsbD_eq
    intro j hj
    rw [wordSetField_getLsbD]
    split
    · next k =>
      have hb : j = b := by omega
      subst hb
      have : (wordField (s.reg stat) j 1).testBit 0 = true := by
        have h2 : wordField (s.reg stat) j 1 = 1 := this
        rw [h2]; rfl
      rw [wordField_testBit] at this
      simpa [hj] using this
    · rfl
  · dsimp only
    split <;> split <;> first | rw [State.reg_sendVector_apart _ _ h1 h2] | rfl

theorem State.reg_raise_self (src : EvtSource) (stat b : Nat) (h : eventReg stat = false) :
    (s.raise src stat b).reg stat = (s.setBit stat b true).reg stat :=
  State.reg_raise_self_apart _ _ _ _ (by intro e; subst e; revert h; decide) (by intro e; subst e; revert h; decide)

theorem State.bit_raise (src : EvtSource) (stat b : Nat) (h : eventReg stat = false) (hb : b < 32) :
    (s.raise src stat b).bit stat b = true := by
  have := s.bit_setBit stat b true hb
  unfold State.bit State.fld at *
  rw [State.reg_raise_self _ _ _ _ h]; exact this

theorem State.reg_setRegs (ws : List Word) (o a : Nat) (h : a < o ∨ o + 4 * ws.length ≤ a) : (s.setRegs o ws).reg a = s.reg a := by
  induction ws generalizing s o with
  | nil => rfl
  | cons w ws ih =>
    unfold State.setRegs
    rw [ih _ _ (by simp only [List.length_cons] at h; omega), State.reg_setReg_apart]
    simp only [List.length_cons] at h; omega

/-- A written run of registers reads what was written. -/
theorem State.reg_setRegs_at (ws : List Word) (s : State) (o k : Nat) (h : k < ws.length) : (s.setRegs o ws).reg (o + 4 * k) = ws.getD k 0 := by
  induction ws generalizing s o k with
  | nil => simp at h
  | cons w ws ih =>
    unfold State.setRegs
    cases k with
    | zero => rw [State.reg_setRegs _ _ _ _ (by omega)]; simp
    | succ k =>
      have := ih (s.setReg o w) (o + 4) k (by simpa using h)
      rw [show o + 4 * (k + 1) = o + 4 + 4 * k by omega, this]; simp

/-! ### The logging of an event, in its three parts -/

/-- The count of the class. -/
def State.logCount (s : State) (cnt cls : Nat) : State :=
  if cls < 16 then ({ s with logSeq := (s.logSeq + 1) % 2 ^ 32 } : State).addSat (cnt + 4 * cls) 0 32 1
  else { s with logSeq := (s.logSeq + 1) % 2 ^ 32 }

/-- The entry, or the overflow of a log that holds 256. -/
def State.logPlace (s : State) (head tail ring full new : Nat) (words : State → List Word) : State :=
  if (s.fld head 0 9 + 512 - s.fld tail 0 9) % 512 ≥ 256 then s.raise .errlog Reg.ERRLOG_STAT full
  else
    ((s.setRegs (ring + 32 * (s.fld head 0 9 % 256)) (words s)).setFld head 0 9 ((s.fld head 0 9 + 1) % 512)).raise .errlog
      Reg.ERRLOG_STAT new

/-- The pins. -/
def State.logPins (s : State) (cls b : Nat) : State :=
  let s := if cls < 16 && s.bit Reg.ERRLOG_ALERTEN b then s.alert else s
  if cls < 16 && s.bit Reg.ERRLOG_DIAGEN b then s.diag else s

theorem State.logError_eq (cls sub : Nat) (i : LogInfo) :
    s.logError cls sub i = ((s.logCount Reg.ERRLOG_ECNT cls).logPlace Reg.ERRLOG_HEAD Reg.ERRLOG_TAIL Reg.ERRLOG_E 2 0
      fun t => logWords t.tickNo s.logSeq cls sub i).logPins cls cls := rfl

theorem State.logViolation_eq (cls sub : Nat) (i : LogInfo) :
    s.logViolation cls sub i = ((s.logCount Reg.ERRLOG_VCNT cls).logPlace Reg.ERRLOG_VHEAD Reg.ERRLOG_VTAIL Reg.ERRLOG_V 3 1
      fun t => logWords t.tickNo s.logSeq cls sub i).logPins cls (cls + 16) := rfl

theorem State.reg_logCount {a cnt : Nat} (cls : Nat) (h : a < cnt ∨ cnt + 0x40 ≤ a) : (s.logCount cnt cls).reg a = s.reg a := by
  unfold State.logCount
  split
  · unfold State.addSat; rw [State.reg_setFld_apart _ _ _ _ (by omega)]; rfl
  · rfl

theorem State.reg_logPins {a : Nat} (cls b : Nat) (h : a ≠ Reg.ERRLOG_STAT) : (s.logPins cls b).reg a = s.reg a := by
  have one : ∀ (t : State) (b : Nat) (x : Bool), (t.setBit Reg.ERRLOG_STAT b x).reg a = t.reg a := fun t b x => State.reg_setBit_apart _ _ _ h
  have al : ∀ t : State, t.alert.reg a = t.reg a := fun t => one t 4 true
  have di : ∀ t : State, t.diag.reg a = t.reg a := fun t => one t 5 true
  unfold State.logPins
  dsimp only
  split <;> split <;> simp only [al, di]

theorem State.reg_logPlace {a head tail ring : Nat} (full new : Nat) (words : State → List Word) (h : eventReg a = false)
    (hh : a ≠ head) (hr : a < ring ∨ ring + 0x2000 ≤ a) (hw : ∀ t, (words t).length = 8) :
    (s.logPlace head tail ring full new words).reg a = s.reg a := by
  have hs : a ≠ Reg.ERRLOG_STAT := by intro e; subst e; revert h; decide
  unfold State.logPlace
  split
  · exact State.reg_raise _ _ _ _ h hs
  · rw [State.reg_raise _ _ _ _ h hs, State.reg_setFld_apart _ _ _ _ hh, State.reg_setRegs]
    have := Nat.mod_lt (s.fld head 0 9) (show 0 < 256 by omega)
    rw [hw]
    omega

/-- The logging of an event leaves every register alone but those of the logs and the pending vectors. -/
theorem State.reg_logError {a : Nat} (cls sub : Nat) (i : LogInfo) (h : eventReg a = false) : (s.logError cls sub i).reg a = s.reg a := by
  have k := h
  simp only [eventReg, Bool.or_eq_false_iff, decide_eq_false_iff_not, inRange, Bool.and_eq_false_iff] at k
  rw [State.logError_eq, State.reg_logPins _ _ _ (by omega), State.reg_logPlace _ _ _ _ h (by omega) (by omega) (fun _ => rfl),
    State.reg_logCount _ _ (by omega)]

theorem State.reg_logViolation {a : Nat} (cls sub : Nat) (i : LogInfo) (h : eventReg a = false) :
    (s.logViolation cls sub i).reg a = s.reg a := by
  have k := h
  simp only [eventReg, Bool.or_eq_false_iff, decide_eq_false_iff_not, inRange, Bool.and_eq_false_iff] at k
  rw [State.logViolation_eq, State.reg_logPins _ _ _ (by omega), State.reg_logPlace _ _ _ _ h (by omega) (by omega) (fun _ => rfl),
    State.reg_logCount _ _ (by omega)]

theorem State.fld_logError {a : Nat} (cls sub : Nat) (i : LogInfo) (lo w : Nat) (h : eventReg a = false) :
    (s.logError cls sub i).fld a lo w = s.fld a lo w := by unfold State.fld; rw [State.reg_logError _ _ _ _ h]

theorem State.fld_logViolation {a : Nat} (cls sub : Nat) (i : LogInfo) (lo w : Nat) (h : eventReg a = false) :
    (s.logViolation cls sub i).fld a lo w = s.fld a lo w := by unfold State.fld; rw [State.reg_logViolation _ _ _ _ h]

theorem State.bit_logError {a : Nat} (cls sub : Nat) (i : LogInfo) (b : Nat) (h : eventReg a = false) :
    (s.logError cls sub i).bit a b = s.bit a b := by unfold State.bit; rw [State.fld_logError _ _ _ _ _ _ h]

theorem State.bit_logViolation {a : Nat} (cls sub : Nat) (i : LogInfo) (b : Nat) (h : eventReg a = false) :
    (s.logViolation cls sub i).bit a b = s.bit a b := by unfold State.bit; rw [State.fld_logViolation _ _ _ _ _ _ h]

theorem State.fld_raise {a : Nat} (src : EvtSource) (stat b lo w : Nat) (h : eventReg a = false) (ha : a ≠ stat ∨ lo + w ≤ b ∨ b + 1 ≤ lo) :
    (s.raise src stat b).fld a lo w = s.fld a lo w := by
  unfold State.fld
  by_cases e : a = stat
  · subst e
    rw [State.reg_raise_self _ _ _ _ h]
    exact State.fld_setBit_apart _ _ _ _ _ _ _ ha
  · rw [State.reg_raise _ _ _ _ h e]

theorem State.bit_raise_apart {a : Nat} (src : EvtSource) (stat b i : Nat) (h : eventReg a = false) (ha : a ≠ stat ∨ i ≠ b) :
    (s.raise src stat b).bit a i = s.bit a i := by
  unfold State.bit; rw [State.fld_raise _ _ _ _ _ _ h (by omega)]

/-! ### The other parts of the state -/

@[simp] theorem State.raise_pending (src : EvtSource) (stat b : Nat) : (s.raise src stat b).pending = s.pending :=
  (State.raise_eff Sub.rfl Eff.refl).pending rfl
@[simp] theorem State.raise_free (src : EvtSource) (stat b : Nat) : (s.raise src stat b).free = s.free :=
  (State.raise_eff Sub.rfl Eff.refl).free rfl
@[simp] theorem State.raise_now (src : EvtSource) (stat b : Nat) : (s.raise src stat b).now = s.now :=
  (State.raise_eff Sub.rfl Eff.refl).now rfl
@[simp] theorem State.raise_rwtHeld (src : EvtSource) (stat b : Nat) : (s.raise src stat b).rwtHeld = s.rwtHeld :=
  (State.raise_eff Sub.rfl Eff.refl).rwtHeld rfl
@[simp] theorem State.raise_hiLatch (src : EvtSource) (stat b : Nat) : (s.raise src stat b).hiLatch = s.hiLatch :=
  (State.raise_eff Sub.rfl Eff.refl).hiLatch rfl
@[simp] theorem State.raise_lowHeld (src : EvtSource) (stat b : Nat) : (s.raise src stat b).lowHeld = s.lowHeld :=
  (State.raise_eff Sub.rfl Eff.refl).lowHeld rfl
@[simp] theorem State.raise_tick (src : EvtSource) (stat b : Nat) : (s.raise src stat b).tick = s.tick :=
  (State.raise_eff Sub.rfl Eff.refl).tick rfl
@[simp] theorem State.raise_active (src : EvtSource) (stat b : Nat) : (s.raise src stat b).active = s.active :=
  (State.raise_eff Sub.rfl Eff.refl).active rfl
@[simp] theorem State.raise_pendingPlan (src : EvtSource) (stat b : Nat) : (s.raise src stat b).pendingPlan = s.pendingPlan :=
  (State.raise_eff Sub.rfl Eff.refl).pendingPlan rfl
@[simp] theorem State.raise_activating (src : EvtSource) (stat b : Nat) : (s.raise src stat b).activating = s.activating :=
  (State.raise_eff Sub.rfl Eff.refl).activating rfl
@[simp] theorem State.raise_load (src : EvtSource) (stat b : Nat) : (s.raise src stat b).load = s.load :=
  (State.raise_eff Sub.rfl Eff.refl).load rfl
@[simp] theorem State.raise_deactivate (src : EvtSource) (stat b : Nat) : (s.raise src stat b).deactivate = s.deactivate :=
  (State.raise_eff Sub.rfl Eff.refl).deactivate rfl
@[simp] theorem State.raise_engs (src : EvtSource) (stat b : Nat) : (s.raise src stat b).engs = s.engs :=
  (State.raise_eff Sub.rfl Eff.refl).engs rfl
@[simp] theorem State.raise_posts (src : EvtSource) (stat b : Nat) : (s.raise src stat b).posts = s.posts :=
  (State.raise_eff Sub.rfl Eff.refl).posts rfl
@[simp] theorem State.raise_nextKnots (src : EvtSource) (stat b : Nat) : (s.raise src stat b).nextKnots = s.nextKnots :=
  (State.raise_eff Sub.rfl Eff.refl).nextKnots rfl
@[simp] theorem State.raise_banks (src : EvtSource) (stat b : Nat) : (s.raise src stat b).banks = s.banks :=
  (State.raise_eff Sub.rfl Eff.refl).banks rfl
@[simp] theorem State.raise_bankFlips (src : EvtSource) (stat b : Nat) : (s.raise src stat b).bankFlips = s.bankFlips :=
  (State.raise_eff Sub.rfl Eff.refl).bankFlips rfl
@[simp] theorem State.raise_rows (src : EvtSource) (stat b : Nat) : (s.raise src stat b).rows = s.rows :=
  (State.raise_eff Sub.rfl Eff.refl).rows rfl
@[simp] theorem State.raise_nextRows (src : EvtSource) (stat b : Nat) : (s.raise src stat b).nextRows = s.nextRows :=
  (State.raise_eff Sub.rfl Eff.refl).nextRows rfl
@[simp] theorem State.raise_unreadRows (src : EvtSource) (stat b : Nat) : (s.raise src stat b).unreadRows = s.unreadRows :=
  (State.raise_eff Sub.rfl Eff.refl).unreadRows rfl
@[simp] theorem State.raise_unreadAll (src : EvtSource) (stat b : Nat) : (s.raise src stat b).unreadAll = s.unreadAll :=
  (State.raise_eff Sub.rfl Eff.refl).unreadAll rfl
@[simp] theorem State.raise_resultsDone (src : EvtSource) (stat b : Nat) : (s.raise src stat b).resultsDone = s.resultsDone :=
  (State.raise_eff Sub.rfl Eff.refl).resultsDone rfl
@[simp] theorem State.raise_t0 (src : EvtSource) (stat b : Nat) : (s.raise src stat b).t0 = s.t0 :=
  (State.raise_eff Sub.rfl Eff.refl).t0 rfl
@[simp] theorem State.raise_t0Poison (src : EvtSource) (stat b : Nat) : (s.raise src stat b).t0Poison = s.t0Poison :=
  (State.raise_eff Sub.rfl Eff.refl).t0Poison rfl
@[simp] theorem State.raise_t0Flips (src : EvtSource) (stat b : Nat) : (s.raise src stat b).t0Flips = s.t0Flips :=
  (State.raise_eff Sub.rfl Eff.refl).t0Flips rfl
@[simp] theorem State.raise_writeBack (src : EvtSource) (stat b : Nat) : (s.raise src stat b).writeBack = s.writeBack :=
  (State.raise_eff Sub.rfl Eff.refl).writeBack rfl
@[simp] theorem State.raise_scrubAt (src : EvtSource) (stat b : Nat) : (s.raise src stat b).scrubAt = s.scrubAt :=
  (State.raise_eff Sub.rfl Eff.refl).scrubAt rfl
@[simp] theorem State.raise_t1 (src : EvtSource) (stat b : Nat) : (s.raise src stat b).t1 = s.t1 :=
  (State.raise_eff Sub.rfl Eff.refl).t1 rfl
@[simp] theorem State.raise_t1Read (src : EvtSource) (stat b : Nat) : (s.raise src stat b).t1Read = s.t1Read :=
  (State.raise_eff Sub.rfl Eff.refl).t1Read rfl
@[simp] theorem State.raise_t1Write (src : EvtSource) (stat b : Nat) : (s.raise src stat b).t1Write = s.t1Write :=
  (State.raise_eff Sub.rfl Eff.refl).t1Write rfl
@[simp] theorem State.raise_host (src : EvtSource) (stat b : Nat) : (s.raise src stat b).host = s.host :=
  (State.raise_eff Sub.rfl Eff.refl).host rfl
@[simp] theorem State.raise_hostErrs (src : EvtSource) (stat b : Nat) : (s.raise src stat b).hostErrs = s.hostErrs :=
  (State.raise_eff Sub.rfl Eff.refl).hostErrs rfl
@[simp] theorem State.raise_moves (src : EvtSource) (stat b : Nat) : (s.raise src stat b).moves = s.moves :=
  (State.raise_eff Sub.rfl Eff.refl).moves rfl
@[simp] theorem State.raise_budget (src : EvtSource) (stat b : Nat) : (s.raise src stat b).budget = s.budget :=
  (State.raise_eff Sub.rfl Eff.refl).budget rfl
@[simp] theorem State.raise_lookAside (src : EvtSource) (stat b : Nat) : (s.raise src stat b).lookAside = s.lookAside :=
  (State.raise_eff Sub.rfl Eff.refl).lookAside rfl
@[simp] theorem State.raise_glnHit (src : EvtSource) (stat b : Nat) : (s.raise src stat b).glnHit = s.glnHit :=
  (State.raise_eff Sub.rfl Eff.refl).glnHit rfl
@[simp] theorem State.raise_glnMiss (src : EvtSource) (stat b : Nat) : (s.raise src stat b).glnMiss = s.glnMiss :=
  (State.raise_eff Sub.rfl Eff.refl).glnMiss rfl
@[simp] theorem State.raise_glnBad (src : EvtSource) (stat b : Nat) : (s.raise src stat b).glnBad = s.glnBad :=
  (State.raise_eff Sub.rfl Eff.refl).glnBad rfl
@[simp] theorem State.raise_ringHome (src : EvtSource) (stat b : Nat) : (s.raise src stat b).ringHome = s.ringHome :=
  (State.raise_eff Sub.rfl Eff.refl).ringHome rfl
@[simp] theorem State.raise_streams (src : EvtSource) (stat b : Nat) : (s.raise src stat b).streams = s.streams :=
  (State.raise_eff Sub.rfl Eff.refl).streams rfl
@[simp] theorem State.raise_lateSc (src : EvtSource) (stat b : Nat) : (s.raise src stat b).lateSc = s.lateSc :=
  (State.raise_eff Sub.rfl Eff.refl).lateSc rfl
@[simp] theorem State.raise_orphans (src : EvtSource) (stat b : Nat) : (s.raise src stat b).orphans = s.orphans :=
  (State.raise_eff Sub.rfl Eff.refl).orphans rfl
@[simp] theorem State.raise_restarting (src : EvtSource) (stat b : Nat) : (s.raise src stat b).restarting = s.restarting :=
  (State.raise_eff Sub.rfl Eff.refl).restarting rfl
@[simp] theorem State.raise_queues (src : EvtSource) (stat b : Nat) : (s.raise src stat b).queues = s.queues :=
  (State.raise_eff Sub.rfl Eff.refl).queues rfl
@[simp] theorem State.raise_exports (src : EvtSource) (stat b : Nat) : (s.raise src stat b).exports = s.exports :=
  (State.raise_eff Sub.rfl Eff.refl).exports rfl
@[simp] theorem State.raise_openings (src : EvtSource) (stat b : Nat) : (s.raise src stat b).openings = s.openings :=
  (State.raise_eff Sub.rfl Eff.refl).openings rfl
@[simp] theorem State.raise_turn (src : EvtSource) (stat b : Nat) : (s.raise src stat b).turn = s.turn :=
  (State.raise_eff Sub.rfl Eff.refl).turn rfl
@[simp] theorem State.raise_staging (src : EvtSource) (stat b : Nat) : (s.raise src stat b).staging = s.staging :=
  (State.raise_eff Sub.rfl Eff.refl).staging rfl
@[simp] theorem State.raise_stagingDue (src : EvtSource) (stat b : Nat) : (s.raise src stat b).stagingDue = s.stagingDue :=
  (State.raise_eff Sub.rfl Eff.refl).stagingDue rfl
@[simp] theorem State.raise_msixOn (src : EvtSource) (stat b : Nat) : (s.raise src stat b).msixOn = s.msixOn :=
  (State.raise_eff Sub.rfl Eff.refl).msixOn rfl
@[simp] theorem State.raise_msixMask (src : EvtSource) (stat b : Nat) : (s.raise src stat b).msixMask = s.msixMask :=
  (State.raise_eff Sub.rfl Eff.refl).msixMask rfl
@[simp] theorem State.raise_logSeq (src : EvtSource) (stat b : Nat) : (s.raise src stat b).logSeq = s.logSeq :=
  (State.raise_eff Sub.rfl Eff.refl).logSeq rfl
@[simp] theorem State.raise_alertLow (src : EvtSource) (stat b : Nat) : (s.raise src stat b).alertLow = s.alertLow :=
  (State.raise_eff Sub.rfl Eff.refl).alertLow rfl
@[simp] theorem State.raise_alertAt (src : EvtSource) (stat b : Nat) : (s.raise src stat b).alertAt = s.alertAt :=
  (State.raise_eff Sub.rfl Eff.refl).alertAt rfl
@[simp] theorem State.raise_diagLow (src : EvtSource) (stat b : Nat) : (s.raise src stat b).diagLow = s.diagLow :=
  (State.raise_eff Sub.rfl Eff.refl).diagLow rfl
@[simp] theorem State.raise_diagAt (src : EvtSource) (stat b : Nat) : (s.raise src stat b).diagAt = s.diagAt :=
  (State.raise_eff Sub.rfl Eff.refl).diagAt rfl
@[simp] theorem State.raise_ports (src : EvtSource) (stat b : Nat) : (s.raise src stat b).ports = s.ports :=
  (State.raise_eff Sub.rfl Eff.refl).ports rfl
@[simp] theorem State.raise_lostIncarn (src : EvtSource) (stat b : Nat) : (s.raise src stat b).lostIncarn = s.lostIncarn :=
  (State.raise_eff Sub.rfl Eff.refl).lostIncarn rfl
@[simp] theorem State.raise_lossDue (src : EvtSource) (stat b : Nat) : (s.raise src stat b).lossDue = s.lossDue :=
  (State.raise_eff Sub.rfl Eff.refl).lossDue rfl
@[simp] theorem State.raise_grants (src : EvtSource) (stat b : Nat) : (s.raise src stat b).grants = s.grants :=
  (State.raise_eff Sub.rfl Eff.refl).grants rfl
@[simp] theorem State.raise_rxMoves (src : EvtSource) (stat b : Nat) : (s.raise src stat b).rxMoves = s.rxMoves :=
  (State.raise_eff Sub.rfl Eff.refl).rxMoves rfl
@[simp] theorem State.raise_txMoves (src : EvtSource) (stat b : Nat) : (s.raise src stat b).txMoves = s.txMoves :=
  (State.raise_eff Sub.rfl Eff.refl).txMoves rfl
@[simp] theorem State.raise_nextMoveId (src : EvtSource) (stat b : Nat) : (s.raise src stat b).nextMoveId = s.nextMoveId :=
  (State.raise_eff Sub.rfl Eff.refl).nextMoveId rfl
@[simp] theorem State.raise_pullsDue (src : EvtSource) (stat b : Nat) : (s.raise src stat b).pullsDue = s.pullsDue :=
  (State.raise_eff Sub.rfl Eff.refl).pullsDue rfl
@[simp] theorem State.raise_migrations (src : EvtSource) (stat b : Nat) : (s.raise src stat b).migrations = s.migrations :=
  (State.raise_eff Sub.rfl Eff.refl).migrations rfl
@[simp] theorem State.raise_power (src : EvtSource) (stat b : Nat) : (s.raise src stat b).power = s.power :=
  (State.raise_eff Sub.rfl Eff.refl).power rfl
@[simp] theorem State.raise_audio (src : EvtSource) (stat b : Nat) : (s.raise src stat b).audio = s.audio :=
  (State.raise_eff Sub.rfl Eff.refl).audio rfl
@[simp] theorem State.raise_cam (src : EvtSource) (stat b : Nat) : (s.raise src stat b).cam = s.cam :=
  (State.raise_eff Sub.rfl Eff.refl).cam rfl
@[simp] theorem State.raise_aon (src : EvtSource) (stat b : Nat) : (s.raise src stat b).aon = s.aon :=
  (State.raise_eff Sub.rfl Eff.refl).aon rfl
@[simp] theorem State.raise_nv (src : EvtSource) (stat b : Nat) : (s.raise src stat b).nv = s.nv :=
  (State.raise_eff Sub.rfl Eff.refl).nv rfl
@[simp] theorem State.raise_hsp (src : EvtSource) (stat b : Nat) : (s.raise src stat b).hsp = s.hsp :=
  (State.raise_eff Sub.rfl Eff.refl).hsp rfl
@[simp] theorem State.raise_psp (src : EvtSource) (stat b : Nat) : (s.raise src stat b).psp = s.psp :=
  (State.raise_eff Sub.rfl Eff.refl).psp rfl
@[simp] theorem State.raise_jtag (src : EvtSource) (stat b : Nat) : (s.raise src stat b).jtag = s.jtag :=
  (State.raise_eff Sub.rfl Eff.refl).jtag rfl
@[simp] theorem State.raise_firstRestart (src : EvtSource) (stat b : Nat) : (s.raise src stat b).firstRestart = s.firstRestart :=
  (State.raise_eff Sub.rfl Eff.refl).firstRestart rfl
@[simp] theorem State.raise_firmwareAt (src : EvtSource) (stat b : Nat) : (s.raise src stat b).firmwareAt = s.firmwareAt :=
  (State.raise_eff Sub.rfl Eff.refl).firmwareAt rfl

@[simp] theorem State.logError_pending (cls sub : Nat) (i : LogInfo) : (s.logError cls sub i).pending = s.pending :=
  (State.logError_eff Sub.rfl Eff.refl).pending rfl
@[simp] theorem State.logError_free (cls sub : Nat) (i : LogInfo) : (s.logError cls sub i).free = s.free :=
  (State.logError_eff Sub.rfl Eff.refl).free rfl
@[simp] theorem State.logError_now (cls sub : Nat) (i : LogInfo) : (s.logError cls sub i).now = s.now :=
  (State.logError_eff Sub.rfl Eff.refl).now rfl
@[simp] theorem State.logError_rwtHeld (cls sub : Nat) (i : LogInfo) : (s.logError cls sub i).rwtHeld = s.rwtHeld :=
  (State.logError_eff Sub.rfl Eff.refl).rwtHeld rfl
@[simp] theorem State.logError_hiLatch (cls sub : Nat) (i : LogInfo) : (s.logError cls sub i).hiLatch = s.hiLatch :=
  (State.logError_eff Sub.rfl Eff.refl).hiLatch rfl
@[simp] theorem State.logError_lowHeld (cls sub : Nat) (i : LogInfo) : (s.logError cls sub i).lowHeld = s.lowHeld :=
  (State.logError_eff Sub.rfl Eff.refl).lowHeld rfl
@[simp] theorem State.logError_tick (cls sub : Nat) (i : LogInfo) : (s.logError cls sub i).tick = s.tick :=
  (State.logError_eff Sub.rfl Eff.refl).tick rfl
@[simp] theorem State.logError_active (cls sub : Nat) (i : LogInfo) : (s.logError cls sub i).active = s.active :=
  (State.logError_eff Sub.rfl Eff.refl).active rfl
@[simp] theorem State.logError_pendingPlan (cls sub : Nat) (i : LogInfo) : (s.logError cls sub i).pendingPlan = s.pendingPlan :=
  (State.logError_eff Sub.rfl Eff.refl).pendingPlan rfl
@[simp] theorem State.logError_activating (cls sub : Nat) (i : LogInfo) : (s.logError cls sub i).activating = s.activating :=
  (State.logError_eff Sub.rfl Eff.refl).activating rfl
@[simp] theorem State.logError_load (cls sub : Nat) (i : LogInfo) : (s.logError cls sub i).load = s.load :=
  (State.logError_eff Sub.rfl Eff.refl).load rfl
@[simp] theorem State.logError_deactivate (cls sub : Nat) (i : LogInfo) : (s.logError cls sub i).deactivate = s.deactivate :=
  (State.logError_eff Sub.rfl Eff.refl).deactivate rfl
@[simp] theorem State.logError_engs (cls sub : Nat) (i : LogInfo) : (s.logError cls sub i).engs = s.engs :=
  (State.logError_eff Sub.rfl Eff.refl).engs rfl
@[simp] theorem State.logError_posts (cls sub : Nat) (i : LogInfo) : (s.logError cls sub i).posts = s.posts :=
  (State.logError_eff Sub.rfl Eff.refl).posts rfl
@[simp] theorem State.logError_nextKnots (cls sub : Nat) (i : LogInfo) : (s.logError cls sub i).nextKnots = s.nextKnots :=
  (State.logError_eff Sub.rfl Eff.refl).nextKnots rfl
@[simp] theorem State.logError_banks (cls sub : Nat) (i : LogInfo) : (s.logError cls sub i).banks = s.banks :=
  (State.logError_eff Sub.rfl Eff.refl).banks rfl
@[simp] theorem State.logError_bankFlips (cls sub : Nat) (i : LogInfo) : (s.logError cls sub i).bankFlips = s.bankFlips :=
  (State.logError_eff Sub.rfl Eff.refl).bankFlips rfl
@[simp] theorem State.logError_rows (cls sub : Nat) (i : LogInfo) : (s.logError cls sub i).rows = s.rows :=
  (State.logError_eff Sub.rfl Eff.refl).rows rfl
@[simp] theorem State.logError_nextRows (cls sub : Nat) (i : LogInfo) : (s.logError cls sub i).nextRows = s.nextRows :=
  (State.logError_eff Sub.rfl Eff.refl).nextRows rfl
@[simp] theorem State.logError_unreadRows (cls sub : Nat) (i : LogInfo) : (s.logError cls sub i).unreadRows = s.unreadRows :=
  (State.logError_eff Sub.rfl Eff.refl).unreadRows rfl
@[simp] theorem State.logError_unreadAll (cls sub : Nat) (i : LogInfo) : (s.logError cls sub i).unreadAll = s.unreadAll :=
  (State.logError_eff Sub.rfl Eff.refl).unreadAll rfl
@[simp] theorem State.logError_resultsDone (cls sub : Nat) (i : LogInfo) : (s.logError cls sub i).resultsDone = s.resultsDone :=
  (State.logError_eff Sub.rfl Eff.refl).resultsDone rfl
@[simp] theorem State.logError_t0 (cls sub : Nat) (i : LogInfo) : (s.logError cls sub i).t0 = s.t0 :=
  (State.logError_eff Sub.rfl Eff.refl).t0 rfl
@[simp] theorem State.logError_t0Poison (cls sub : Nat) (i : LogInfo) : (s.logError cls sub i).t0Poison = s.t0Poison :=
  (State.logError_eff Sub.rfl Eff.refl).t0Poison rfl
@[simp] theorem State.logError_t0Flips (cls sub : Nat) (i : LogInfo) : (s.logError cls sub i).t0Flips = s.t0Flips :=
  (State.logError_eff Sub.rfl Eff.refl).t0Flips rfl
@[simp] theorem State.logError_writeBack (cls sub : Nat) (i : LogInfo) : (s.logError cls sub i).writeBack = s.writeBack :=
  (State.logError_eff Sub.rfl Eff.refl).writeBack rfl
@[simp] theorem State.logError_scrubAt (cls sub : Nat) (i : LogInfo) : (s.logError cls sub i).scrubAt = s.scrubAt :=
  (State.logError_eff Sub.rfl Eff.refl).scrubAt rfl
@[simp] theorem State.logError_t1 (cls sub : Nat) (i : LogInfo) : (s.logError cls sub i).t1 = s.t1 :=
  (State.logError_eff Sub.rfl Eff.refl).t1 rfl
@[simp] theorem State.logError_t1Read (cls sub : Nat) (i : LogInfo) : (s.logError cls sub i).t1Read = s.t1Read :=
  (State.logError_eff Sub.rfl Eff.refl).t1Read rfl
@[simp] theorem State.logError_t1Write (cls sub : Nat) (i : LogInfo) : (s.logError cls sub i).t1Write = s.t1Write :=
  (State.logError_eff Sub.rfl Eff.refl).t1Write rfl
@[simp] theorem State.logError_host (cls sub : Nat) (i : LogInfo) : (s.logError cls sub i).host = s.host :=
  (State.logError_eff Sub.rfl Eff.refl).host rfl
@[simp] theorem State.logError_hostErrs (cls sub : Nat) (i : LogInfo) : (s.logError cls sub i).hostErrs = s.hostErrs :=
  (State.logError_eff Sub.rfl Eff.refl).hostErrs rfl
@[simp] theorem State.logError_moves (cls sub : Nat) (i : LogInfo) : (s.logError cls sub i).moves = s.moves :=
  (State.logError_eff Sub.rfl Eff.refl).moves rfl
@[simp] theorem State.logError_budget (cls sub : Nat) (i : LogInfo) : (s.logError cls sub i).budget = s.budget :=
  (State.logError_eff Sub.rfl Eff.refl).budget rfl
@[simp] theorem State.logError_lookAside (cls sub : Nat) (i : LogInfo) : (s.logError cls sub i).lookAside = s.lookAside :=
  (State.logError_eff Sub.rfl Eff.refl).lookAside rfl
@[simp] theorem State.logError_glnHit (cls sub : Nat) (i : LogInfo) : (s.logError cls sub i).glnHit = s.glnHit :=
  (State.logError_eff Sub.rfl Eff.refl).glnHit rfl
@[simp] theorem State.logError_glnMiss (cls sub : Nat) (i : LogInfo) : (s.logError cls sub i).glnMiss = s.glnMiss :=
  (State.logError_eff Sub.rfl Eff.refl).glnMiss rfl
@[simp] theorem State.logError_glnBad (cls sub : Nat) (i : LogInfo) : (s.logError cls sub i).glnBad = s.glnBad :=
  (State.logError_eff Sub.rfl Eff.refl).glnBad rfl
@[simp] theorem State.logError_ringHome (cls sub : Nat) (i : LogInfo) : (s.logError cls sub i).ringHome = s.ringHome :=
  (State.logError_eff Sub.rfl Eff.refl).ringHome rfl
@[simp] theorem State.logError_streams (cls sub : Nat) (i : LogInfo) : (s.logError cls sub i).streams = s.streams :=
  (State.logError_eff Sub.rfl Eff.refl).streams rfl
@[simp] theorem State.logError_lateSc (cls sub : Nat) (i : LogInfo) : (s.logError cls sub i).lateSc = s.lateSc :=
  (State.logError_eff Sub.rfl Eff.refl).lateSc rfl
@[simp] theorem State.logError_orphans (cls sub : Nat) (i : LogInfo) : (s.logError cls sub i).orphans = s.orphans :=
  (State.logError_eff Sub.rfl Eff.refl).orphans rfl
@[simp] theorem State.logError_restarting (cls sub : Nat) (i : LogInfo) : (s.logError cls sub i).restarting = s.restarting :=
  (State.logError_eff Sub.rfl Eff.refl).restarting rfl
@[simp] theorem State.logError_queues (cls sub : Nat) (i : LogInfo) : (s.logError cls sub i).queues = s.queues :=
  (State.logError_eff Sub.rfl Eff.refl).queues rfl
@[simp] theorem State.logError_exports (cls sub : Nat) (i : LogInfo) : (s.logError cls sub i).exports = s.exports :=
  (State.logError_eff Sub.rfl Eff.refl).exports rfl
@[simp] theorem State.logError_openings (cls sub : Nat) (i : LogInfo) : (s.logError cls sub i).openings = s.openings :=
  (State.logError_eff Sub.rfl Eff.refl).openings rfl
@[simp] theorem State.logError_turn (cls sub : Nat) (i : LogInfo) : (s.logError cls sub i).turn = s.turn :=
  (State.logError_eff Sub.rfl Eff.refl).turn rfl
@[simp] theorem State.logError_staging (cls sub : Nat) (i : LogInfo) : (s.logError cls sub i).staging = s.staging :=
  (State.logError_eff Sub.rfl Eff.refl).staging rfl
@[simp] theorem State.logError_stagingDue (cls sub : Nat) (i : LogInfo) : (s.logError cls sub i).stagingDue = s.stagingDue :=
  (State.logError_eff Sub.rfl Eff.refl).stagingDue rfl
@[simp] theorem State.logError_msixOn (cls sub : Nat) (i : LogInfo) : (s.logError cls sub i).msixOn = s.msixOn :=
  (State.logError_eff Sub.rfl Eff.refl).msixOn rfl
@[simp] theorem State.logError_msixMask (cls sub : Nat) (i : LogInfo) : (s.logError cls sub i).msixMask = s.msixMask :=
  (State.logError_eff Sub.rfl Eff.refl).msixMask rfl
@[simp] theorem State.logError_ports (cls sub : Nat) (i : LogInfo) : (s.logError cls sub i).ports = s.ports :=
  (State.logError_eff Sub.rfl Eff.refl).ports rfl
@[simp] theorem State.logError_lostIncarn (cls sub : Nat) (i : LogInfo) : (s.logError cls sub i).lostIncarn = s.lostIncarn :=
  (State.logError_eff Sub.rfl Eff.refl).lostIncarn rfl
@[simp] theorem State.logError_lossDue (cls sub : Nat) (i : LogInfo) : (s.logError cls sub i).lossDue = s.lossDue :=
  (State.logError_eff Sub.rfl Eff.refl).lossDue rfl
@[simp] theorem State.logError_grants (cls sub : Nat) (i : LogInfo) : (s.logError cls sub i).grants = s.grants :=
  (State.logError_eff Sub.rfl Eff.refl).grants rfl
@[simp] theorem State.logError_rxMoves (cls sub : Nat) (i : LogInfo) : (s.logError cls sub i).rxMoves = s.rxMoves :=
  (State.logError_eff Sub.rfl Eff.refl).rxMoves rfl
@[simp] theorem State.logError_txMoves (cls sub : Nat) (i : LogInfo) : (s.logError cls sub i).txMoves = s.txMoves :=
  (State.logError_eff Sub.rfl Eff.refl).txMoves rfl
@[simp] theorem State.logError_nextMoveId (cls sub : Nat) (i : LogInfo) : (s.logError cls sub i).nextMoveId = s.nextMoveId :=
  (State.logError_eff Sub.rfl Eff.refl).nextMoveId rfl
@[simp] theorem State.logError_pullsDue (cls sub : Nat) (i : LogInfo) : (s.logError cls sub i).pullsDue = s.pullsDue :=
  (State.logError_eff Sub.rfl Eff.refl).pullsDue rfl
@[simp] theorem State.logError_migrations (cls sub : Nat) (i : LogInfo) : (s.logError cls sub i).migrations = s.migrations :=
  (State.logError_eff Sub.rfl Eff.refl).migrations rfl
@[simp] theorem State.logError_power (cls sub : Nat) (i : LogInfo) : (s.logError cls sub i).power = s.power :=
  (State.logError_eff Sub.rfl Eff.refl).power rfl
@[simp] theorem State.logError_audio (cls sub : Nat) (i : LogInfo) : (s.logError cls sub i).audio = s.audio :=
  (State.logError_eff Sub.rfl Eff.refl).audio rfl
@[simp] theorem State.logError_cam (cls sub : Nat) (i : LogInfo) : (s.logError cls sub i).cam = s.cam :=
  (State.logError_eff Sub.rfl Eff.refl).cam rfl
@[simp] theorem State.logError_aon (cls sub : Nat) (i : LogInfo) : (s.logError cls sub i).aon = s.aon :=
  (State.logError_eff Sub.rfl Eff.refl).aon rfl
@[simp] theorem State.logError_nv (cls sub : Nat) (i : LogInfo) : (s.logError cls sub i).nv = s.nv :=
  (State.logError_eff Sub.rfl Eff.refl).nv rfl
@[simp] theorem State.logError_hsp (cls sub : Nat) (i : LogInfo) : (s.logError cls sub i).hsp = s.hsp :=
  (State.logError_eff Sub.rfl Eff.refl).hsp rfl
@[simp] theorem State.logError_psp (cls sub : Nat) (i : LogInfo) : (s.logError cls sub i).psp = s.psp :=
  (State.logError_eff Sub.rfl Eff.refl).psp rfl
@[simp] theorem State.logError_jtag (cls sub : Nat) (i : LogInfo) : (s.logError cls sub i).jtag = s.jtag :=
  (State.logError_eff Sub.rfl Eff.refl).jtag rfl
@[simp] theorem State.logError_firstRestart (cls sub : Nat) (i : LogInfo) : (s.logError cls sub i).firstRestart = s.firstRestart :=
  (State.logError_eff Sub.rfl Eff.refl).firstRestart rfl
@[simp] theorem State.logError_firmwareAt (cls sub : Nat) (i : LogInfo) : (s.logError cls sub i).firmwareAt = s.firmwareAt :=
  (State.logError_eff Sub.rfl Eff.refl).firmwareAt rfl

@[simp] theorem State.logViolation_pending (cls sub : Nat) (i : LogInfo) : (s.logViolation cls sub i).pending = s.pending :=
  (State.logViolation_eff Sub.rfl Eff.refl).pending rfl
@[simp] theorem State.logViolation_free (cls sub : Nat) (i : LogInfo) : (s.logViolation cls sub i).free = s.free :=
  (State.logViolation_eff Sub.rfl Eff.refl).free rfl
@[simp] theorem State.logViolation_now (cls sub : Nat) (i : LogInfo) : (s.logViolation cls sub i).now = s.now :=
  (State.logViolation_eff Sub.rfl Eff.refl).now rfl
@[simp] theorem State.logViolation_rwtHeld (cls sub : Nat) (i : LogInfo) : (s.logViolation cls sub i).rwtHeld = s.rwtHeld :=
  (State.logViolation_eff Sub.rfl Eff.refl).rwtHeld rfl
@[simp] theorem State.logViolation_hiLatch (cls sub : Nat) (i : LogInfo) : (s.logViolation cls sub i).hiLatch = s.hiLatch :=
  (State.logViolation_eff Sub.rfl Eff.refl).hiLatch rfl
@[simp] theorem State.logViolation_lowHeld (cls sub : Nat) (i : LogInfo) : (s.logViolation cls sub i).lowHeld = s.lowHeld :=
  (State.logViolation_eff Sub.rfl Eff.refl).lowHeld rfl
@[simp] theorem State.logViolation_tick (cls sub : Nat) (i : LogInfo) : (s.logViolation cls sub i).tick = s.tick :=
  (State.logViolation_eff Sub.rfl Eff.refl).tick rfl
@[simp] theorem State.logViolation_active (cls sub : Nat) (i : LogInfo) : (s.logViolation cls sub i).active = s.active :=
  (State.logViolation_eff Sub.rfl Eff.refl).active rfl
@[simp] theorem State.logViolation_pendingPlan (cls sub : Nat) (i : LogInfo) : (s.logViolation cls sub i).pendingPlan = s.pendingPlan :=
  (State.logViolation_eff Sub.rfl Eff.refl).pendingPlan rfl
@[simp] theorem State.logViolation_activating (cls sub : Nat) (i : LogInfo) : (s.logViolation cls sub i).activating = s.activating :=
  (State.logViolation_eff Sub.rfl Eff.refl).activating rfl
@[simp] theorem State.logViolation_load (cls sub : Nat) (i : LogInfo) : (s.logViolation cls sub i).load = s.load :=
  (State.logViolation_eff Sub.rfl Eff.refl).load rfl
@[simp] theorem State.logViolation_deactivate (cls sub : Nat) (i : LogInfo) : (s.logViolation cls sub i).deactivate = s.deactivate :=
  (State.logViolation_eff Sub.rfl Eff.refl).deactivate rfl
@[simp] theorem State.logViolation_engs (cls sub : Nat) (i : LogInfo) : (s.logViolation cls sub i).engs = s.engs :=
  (State.logViolation_eff Sub.rfl Eff.refl).engs rfl
@[simp] theorem State.logViolation_posts (cls sub : Nat) (i : LogInfo) : (s.logViolation cls sub i).posts = s.posts :=
  (State.logViolation_eff Sub.rfl Eff.refl).posts rfl
@[simp] theorem State.logViolation_nextKnots (cls sub : Nat) (i : LogInfo) : (s.logViolation cls sub i).nextKnots = s.nextKnots :=
  (State.logViolation_eff Sub.rfl Eff.refl).nextKnots rfl
@[simp] theorem State.logViolation_banks (cls sub : Nat) (i : LogInfo) : (s.logViolation cls sub i).banks = s.banks :=
  (State.logViolation_eff Sub.rfl Eff.refl).banks rfl
@[simp] theorem State.logViolation_bankFlips (cls sub : Nat) (i : LogInfo) : (s.logViolation cls sub i).bankFlips = s.bankFlips :=
  (State.logViolation_eff Sub.rfl Eff.refl).bankFlips rfl
@[simp] theorem State.logViolation_rows (cls sub : Nat) (i : LogInfo) : (s.logViolation cls sub i).rows = s.rows :=
  (State.logViolation_eff Sub.rfl Eff.refl).rows rfl
@[simp] theorem State.logViolation_nextRows (cls sub : Nat) (i : LogInfo) : (s.logViolation cls sub i).nextRows = s.nextRows :=
  (State.logViolation_eff Sub.rfl Eff.refl).nextRows rfl
@[simp] theorem State.logViolation_unreadRows (cls sub : Nat) (i : LogInfo) : (s.logViolation cls sub i).unreadRows = s.unreadRows :=
  (State.logViolation_eff Sub.rfl Eff.refl).unreadRows rfl
@[simp] theorem State.logViolation_unreadAll (cls sub : Nat) (i : LogInfo) : (s.logViolation cls sub i).unreadAll = s.unreadAll :=
  (State.logViolation_eff Sub.rfl Eff.refl).unreadAll rfl
@[simp] theorem State.logViolation_resultsDone (cls sub : Nat) (i : LogInfo) : (s.logViolation cls sub i).resultsDone = s.resultsDone :=
  (State.logViolation_eff Sub.rfl Eff.refl).resultsDone rfl
@[simp] theorem State.logViolation_t0 (cls sub : Nat) (i : LogInfo) : (s.logViolation cls sub i).t0 = s.t0 :=
  (State.logViolation_eff Sub.rfl Eff.refl).t0 rfl
@[simp] theorem State.logViolation_t0Poison (cls sub : Nat) (i : LogInfo) : (s.logViolation cls sub i).t0Poison = s.t0Poison :=
  (State.logViolation_eff Sub.rfl Eff.refl).t0Poison rfl
@[simp] theorem State.logViolation_t0Flips (cls sub : Nat) (i : LogInfo) : (s.logViolation cls sub i).t0Flips = s.t0Flips :=
  (State.logViolation_eff Sub.rfl Eff.refl).t0Flips rfl
@[simp] theorem State.logViolation_writeBack (cls sub : Nat) (i : LogInfo) : (s.logViolation cls sub i).writeBack = s.writeBack :=
  (State.logViolation_eff Sub.rfl Eff.refl).writeBack rfl
@[simp] theorem State.logViolation_scrubAt (cls sub : Nat) (i : LogInfo) : (s.logViolation cls sub i).scrubAt = s.scrubAt :=
  (State.logViolation_eff Sub.rfl Eff.refl).scrubAt rfl
@[simp] theorem State.logViolation_t1 (cls sub : Nat) (i : LogInfo) : (s.logViolation cls sub i).t1 = s.t1 :=
  (State.logViolation_eff Sub.rfl Eff.refl).t1 rfl
@[simp] theorem State.logViolation_t1Read (cls sub : Nat) (i : LogInfo) : (s.logViolation cls sub i).t1Read = s.t1Read :=
  (State.logViolation_eff Sub.rfl Eff.refl).t1Read rfl
@[simp] theorem State.logViolation_t1Write (cls sub : Nat) (i : LogInfo) : (s.logViolation cls sub i).t1Write = s.t1Write :=
  (State.logViolation_eff Sub.rfl Eff.refl).t1Write rfl
@[simp] theorem State.logViolation_host (cls sub : Nat) (i : LogInfo) : (s.logViolation cls sub i).host = s.host :=
  (State.logViolation_eff Sub.rfl Eff.refl).host rfl
@[simp] theorem State.logViolation_hostErrs (cls sub : Nat) (i : LogInfo) : (s.logViolation cls sub i).hostErrs = s.hostErrs :=
  (State.logViolation_eff Sub.rfl Eff.refl).hostErrs rfl
@[simp] theorem State.logViolation_moves (cls sub : Nat) (i : LogInfo) : (s.logViolation cls sub i).moves = s.moves :=
  (State.logViolation_eff Sub.rfl Eff.refl).moves rfl
@[simp] theorem State.logViolation_budget (cls sub : Nat) (i : LogInfo) : (s.logViolation cls sub i).budget = s.budget :=
  (State.logViolation_eff Sub.rfl Eff.refl).budget rfl
@[simp] theorem State.logViolation_lookAside (cls sub : Nat) (i : LogInfo) : (s.logViolation cls sub i).lookAside = s.lookAside :=
  (State.logViolation_eff Sub.rfl Eff.refl).lookAside rfl
@[simp] theorem State.logViolation_glnHit (cls sub : Nat) (i : LogInfo) : (s.logViolation cls sub i).glnHit = s.glnHit :=
  (State.logViolation_eff Sub.rfl Eff.refl).glnHit rfl
@[simp] theorem State.logViolation_glnMiss (cls sub : Nat) (i : LogInfo) : (s.logViolation cls sub i).glnMiss = s.glnMiss :=
  (State.logViolation_eff Sub.rfl Eff.refl).glnMiss rfl
@[simp] theorem State.logViolation_glnBad (cls sub : Nat) (i : LogInfo) : (s.logViolation cls sub i).glnBad = s.glnBad :=
  (State.logViolation_eff Sub.rfl Eff.refl).glnBad rfl
@[simp] theorem State.logViolation_ringHome (cls sub : Nat) (i : LogInfo) : (s.logViolation cls sub i).ringHome = s.ringHome :=
  (State.logViolation_eff Sub.rfl Eff.refl).ringHome rfl
@[simp] theorem State.logViolation_streams (cls sub : Nat) (i : LogInfo) : (s.logViolation cls sub i).streams = s.streams :=
  (State.logViolation_eff Sub.rfl Eff.refl).streams rfl
@[simp] theorem State.logViolation_lateSc (cls sub : Nat) (i : LogInfo) : (s.logViolation cls sub i).lateSc = s.lateSc :=
  (State.logViolation_eff Sub.rfl Eff.refl).lateSc rfl
@[simp] theorem State.logViolation_orphans (cls sub : Nat) (i : LogInfo) : (s.logViolation cls sub i).orphans = s.orphans :=
  (State.logViolation_eff Sub.rfl Eff.refl).orphans rfl
@[simp] theorem State.logViolation_restarting (cls sub : Nat) (i : LogInfo) : (s.logViolation cls sub i).restarting = s.restarting :=
  (State.logViolation_eff Sub.rfl Eff.refl).restarting rfl
@[simp] theorem State.logViolation_queues (cls sub : Nat) (i : LogInfo) : (s.logViolation cls sub i).queues = s.queues :=
  (State.logViolation_eff Sub.rfl Eff.refl).queues rfl
@[simp] theorem State.logViolation_exports (cls sub : Nat) (i : LogInfo) : (s.logViolation cls sub i).exports = s.exports :=
  (State.logViolation_eff Sub.rfl Eff.refl).exports rfl
@[simp] theorem State.logViolation_openings (cls sub : Nat) (i : LogInfo) : (s.logViolation cls sub i).openings = s.openings :=
  (State.logViolation_eff Sub.rfl Eff.refl).openings rfl
@[simp] theorem State.logViolation_turn (cls sub : Nat) (i : LogInfo) : (s.logViolation cls sub i).turn = s.turn :=
  (State.logViolation_eff Sub.rfl Eff.refl).turn rfl
@[simp] theorem State.logViolation_staging (cls sub : Nat) (i : LogInfo) : (s.logViolation cls sub i).staging = s.staging :=
  (State.logViolation_eff Sub.rfl Eff.refl).staging rfl
@[simp] theorem State.logViolation_stagingDue (cls sub : Nat) (i : LogInfo) : (s.logViolation cls sub i).stagingDue = s.stagingDue :=
  (State.logViolation_eff Sub.rfl Eff.refl).stagingDue rfl
@[simp] theorem State.logViolation_msixOn (cls sub : Nat) (i : LogInfo) : (s.logViolation cls sub i).msixOn = s.msixOn :=
  (State.logViolation_eff Sub.rfl Eff.refl).msixOn rfl
@[simp] theorem State.logViolation_msixMask (cls sub : Nat) (i : LogInfo) : (s.logViolation cls sub i).msixMask = s.msixMask :=
  (State.logViolation_eff Sub.rfl Eff.refl).msixMask rfl
@[simp] theorem State.logViolation_ports (cls sub : Nat) (i : LogInfo) : (s.logViolation cls sub i).ports = s.ports :=
  (State.logViolation_eff Sub.rfl Eff.refl).ports rfl
@[simp] theorem State.logViolation_lostIncarn (cls sub : Nat) (i : LogInfo) : (s.logViolation cls sub i).lostIncarn = s.lostIncarn :=
  (State.logViolation_eff Sub.rfl Eff.refl).lostIncarn rfl
@[simp] theorem State.logViolation_lossDue (cls sub : Nat) (i : LogInfo) : (s.logViolation cls sub i).lossDue = s.lossDue :=
  (State.logViolation_eff Sub.rfl Eff.refl).lossDue rfl
@[simp] theorem State.logViolation_grants (cls sub : Nat) (i : LogInfo) : (s.logViolation cls sub i).grants = s.grants :=
  (State.logViolation_eff Sub.rfl Eff.refl).grants rfl
@[simp] theorem State.logViolation_rxMoves (cls sub : Nat) (i : LogInfo) : (s.logViolation cls sub i).rxMoves = s.rxMoves :=
  (State.logViolation_eff Sub.rfl Eff.refl).rxMoves rfl
@[simp] theorem State.logViolation_txMoves (cls sub : Nat) (i : LogInfo) : (s.logViolation cls sub i).txMoves = s.txMoves :=
  (State.logViolation_eff Sub.rfl Eff.refl).txMoves rfl
@[simp] theorem State.logViolation_nextMoveId (cls sub : Nat) (i : LogInfo) : (s.logViolation cls sub i).nextMoveId = s.nextMoveId :=
  (State.logViolation_eff Sub.rfl Eff.refl).nextMoveId rfl
@[simp] theorem State.logViolation_pullsDue (cls sub : Nat) (i : LogInfo) : (s.logViolation cls sub i).pullsDue = s.pullsDue :=
  (State.logViolation_eff Sub.rfl Eff.refl).pullsDue rfl
@[simp] theorem State.logViolation_migrations (cls sub : Nat) (i : LogInfo) : (s.logViolation cls sub i).migrations = s.migrations :=
  (State.logViolation_eff Sub.rfl Eff.refl).migrations rfl
@[simp] theorem State.logViolation_power (cls sub : Nat) (i : LogInfo) : (s.logViolation cls sub i).power = s.power :=
  (State.logViolation_eff Sub.rfl Eff.refl).power rfl
@[simp] theorem State.logViolation_audio (cls sub : Nat) (i : LogInfo) : (s.logViolation cls sub i).audio = s.audio :=
  (State.logViolation_eff Sub.rfl Eff.refl).audio rfl
@[simp] theorem State.logViolation_cam (cls sub : Nat) (i : LogInfo) : (s.logViolation cls sub i).cam = s.cam :=
  (State.logViolation_eff Sub.rfl Eff.refl).cam rfl
@[simp] theorem State.logViolation_aon (cls sub : Nat) (i : LogInfo) : (s.logViolation cls sub i).aon = s.aon :=
  (State.logViolation_eff Sub.rfl Eff.refl).aon rfl
@[simp] theorem State.logViolation_nv (cls sub : Nat) (i : LogInfo) : (s.logViolation cls sub i).nv = s.nv :=
  (State.logViolation_eff Sub.rfl Eff.refl).nv rfl
@[simp] theorem State.logViolation_hsp (cls sub : Nat) (i : LogInfo) : (s.logViolation cls sub i).hsp = s.hsp :=
  (State.logViolation_eff Sub.rfl Eff.refl).hsp rfl
@[simp] theorem State.logViolation_psp (cls sub : Nat) (i : LogInfo) : (s.logViolation cls sub i).psp = s.psp :=
  (State.logViolation_eff Sub.rfl Eff.refl).psp rfl
@[simp] theorem State.logViolation_jtag (cls sub : Nat) (i : LogInfo) : (s.logViolation cls sub i).jtag = s.jtag :=
  (State.logViolation_eff Sub.rfl Eff.refl).jtag rfl
@[simp] theorem State.logViolation_firstRestart (cls sub : Nat) (i : LogInfo) : (s.logViolation cls sub i).firstRestart = s.firstRestart :=
  (State.logViolation_eff Sub.rfl Eff.refl).firstRestart rfl
@[simp] theorem State.logViolation_firmwareAt (cls sub : Nat) (i : LogInfo) : (s.logViolation cls sub i).firmwareAt = s.firmwareAt :=
  (State.logViolation_eff Sub.rfl Eff.refl).firmwareAt rfl


/-! ### The pins -/

theorem State.alert_bit : s.alert.bit Reg.ERRLOG_STAT 4 = true := by
  have := s.bit_setBit Reg.ERRLOG_STAT 4 true (by decide)
  unfold State.bit State.fld State.reg at *; exact this

theorem State.diag_bit : s.diag.bit Reg.ERRLOG_STAT 5 = true := by
  have := s.bit_setBit Reg.ERRLOG_STAT 5 true (by decide)
  unfold State.bit State.fld State.reg at *; exact this

end Sys2Proof.Machine
end

