-- ==== Sys2Proof/Laws/Stand.lean ====
section
/-!
SUPPORT. Laws/Stand.lean: what an instruction word does besides the cycles it takes leaves every engine where it stands: an effect
moves no engine's position, loops, clock or budget; it only counts.
-/
namespace Sys2Proof.Machine

set_option linter.unusedTactic false
set_option linter.unreachableTactic false

/-- An engine, its counters aside. -/
def EngState.stand (g : EngState) : EngState := { g with counts := ⟨0, 0, 0, 0, 0, 0, 0, 0, 0⟩ }

/-- Every engine stands as in another state. -/
def Stand (s t : State) : Prop := t.engs.map EngState.stand = s.engs.map EngState.stand

variable {s₀ : State}

theorem Stand.refl {s : State} : Stand s s := rfl

theorem Stand.lit {s t : State} (h : Stand s₀ s) (e : t.engs = s.engs) : Stand s₀ t := by
  unfold Stand at h ⊢; rw [e]; exact h

theorem Stand.eff {m : Nat} {s t : State} (h : Stand s₀ s) (k : Eff m s t) (hm : m.testBit 13 = false) : Stand s₀ t :=
  h.lit (k.engs hm)

theorem Stand.eng {s t : State} (h : Stand s t) (e : Nat) : (t.eng e).stand = (s.eng e).stand := by
  have k := congrArg (fun l => l[e]?) h
  simp only [List.getElem?_map] at k
  unfold State.eng
  cases ht : t.engs[e]? <;> cases hs : s.engs[e]? <;> simp_all

theorem Stand.length {s t : State} (h : Stand s t) : t.engs.length = s.engs.length := by
  simpa using congrArg List.length h

theorem Stand.snd {α : Type} {r : α × State} {a : α} {t : State} (e : r = (a, t)) (h : Stand s₀ r.2) : Stand s₀ t := by subst e; exact h

theorem Stand.ite {c : Prop} [Decidable c] {a b : State} (ha : Stand s₀ a) (hb : Stand s₀ b) : Stand s₀ (if c then a else b) := by
  split <;> assumption

theorem Stand.foldl {α : Type} {f : State → α → State} (l : List α) (hf : ∀ s x, Stand s₀ s → Stand s₀ (f s x)) :
    ∀ {s : State}, Stand s₀ s → Stand s₀ (l.foldl f s) := by
  induction l with
  | nil => intro s h; exact h
  | cons x l ih => intro s h; exact ih (hf s x h)

theorem Stand.foldlSnd {α β : Type} {f : β × State → α → β × State} (l : List α) (hf : ∀ s x, Stand s₀ s.2 → Stand s₀ (f s x).2) :
    ∀ {s : β × State}, Stand s₀ s.2 → Stand s₀ (l.foldl f s).2 := by
  induction l with
  | nil => intro s h; exact h
  | cons x l ih => intro s h; exact ih (hf s x h)

theorem State.count_stand {s : State} {e : Nat} {f : SliceCounts → SliceCounts} (h : Stand s₀ s) : Stand s₀ (s.count e f) := by
  unfold Stand at h ⊢
  rw [← h]
  show (s.engs.set e { s.eng e with counts := f (s.eng e).counts }).map EngState.stand = s.engs.map EngState.stand
  apply List.ext_getElem?
  intro i
  simp only [List.getElem?_map, List.getElem?_set]
  split
  · next hi =>
    subst hi
    split
    · next hl => simp [State.eng, List.getElem?_eq_getElem hl, EngState.stand]
    · next hl => simp [List.getElem?_eq_none (Nat.le_of_not_lt hl)]
  · rfl

theorem State.mmul_stand {s : State} {n : Nat} {f : TFields} (h : Stand s₀ s) : Stand s₀ (State.mmul s n f) := by
  unfold State.mmul
  repeat' first
    | with_reducible assumption
    | (extract_lets +onlyGivenNames v; refine (fun (hv : Stand s₀ v) => ?_) ?_; clear_value v; rotate_left; subst v)
    | (extract_lets +onlyGivenNames v; refine (fun (hv : Stand s₀ v.2) => ?_) ?_; clear_value v; rotate_left; subst v)
    | (extract_lets +onlyGivenNames v; refine (fun (hv : Stand s₀ v.1) => ?_) ?_; clear_value v; rotate_left; subst v)
    | (extract_lets +onlyGivenNames v; (have hp := v.cycles; clear hp; subst v))
    | (extract_lets +onlyGivenNames v; clear_value v)
    | with_reducible apply Stand.ite
    | with_reducible refine Stand.foldlSnd _ (fun _ _ _ => ?_) ?_
    | with_reducible refine Stand.foldl _ (fun _ _ _ => ?_) ?_
    | with_reducible refine Stand.eff ?_ (State.meetBank_eff Sub.rfl Eff.refl) rfl
    | with_reducible refine Stand.eff ?_ (State.senseBank_eff Sub.rfl Eff.refl) rfl
    | with_reducible refine Stand.eff ?_ (State.setBank_eff Sub.rfl Eff.refl) rfl
    | with_reducible apply State.count_stand
    | with_reducible refine Stand.eff ?_ (State.senseTrailer_eff Sub.rfl Eff.refl) rfl
    | with_reducible refine Stand.eff ?_ (State.readOp_eff Sub.rfl Eff.refl) rfl
    | dsimp -zeta only
    | intro _
    | with_reducible refine Stand.snd (by with_reducible assumption) ?_
    | split
    | with_reducible exact Stand.lit hv rfl
    | with_reducible exact Stand.lit h rfl
    | (refine Stand.lit ?_ rfl; with_reducible assumption)
    | (refine Stand.lit ?_ rfl; with_reducible refine Stand.eff ?_ (State.meetBank_eff Sub.rfl Eff.refl) rfl)
    | (refine Stand.lit ?_ rfl; with_reducible refine Stand.eff ?_ (State.senseBank_eff Sub.rfl Eff.refl) rfl)
    | (refine Stand.lit ?_ rfl; with_reducible refine Stand.eff ?_ (State.setBank_eff Sub.rfl Eff.refl) rfl)
    | (refine Stand.lit ?_ rfl; with_reducible apply State.count_stand)
    | (refine Stand.lit ?_ rfl; with_reducible refine Stand.eff ?_ (State.senseTrailer_eff Sub.rfl Eff.refl) rfl)
    | (refine Stand.lit ?_ rfl; with_reducible refine Stand.eff ?_ (State.readOp_eff Sub.rfl Eff.refl) rfl)

theorem State.accout_stand {s : State} {n : Nat} {f : TFields} (h : Stand s₀ s) : Stand s₀ (State.accout s n f) := by
  unfold State.accout
  repeat' first
    | with_reducible assumption
    | (extract_lets +onlyGivenNames v; refine (fun (hv : Stand s₀ v) => ?_) ?_; clear_value v; rotate_left; subst v)
    | (extract_lets +onlyGivenNames v; refine (fun (hv : Stand s₀ v.2) => ?_) ?_; clear_value v; rotate_left; subst v)
    | (extract_lets +onlyGivenNames v; refine (fun (hv : Stand s₀ v.1) => ?_) ?_; clear_value v; rotate_left; subst v)
    | (extract_lets +onlyGivenNames v; (have hp := v.cycles; clear hp; subst v))
    | (extract_lets +onlyGivenNames v; clear_value v)
    | with_reducible apply Stand.ite
    | with_reducible refine Stand.foldlSnd _ (fun _ _ _ => ?_) ?_
    | with_reducible refine Stand.foldl _ (fun _ _ _ => ?_) ?_
    | with_reducible refine Stand.eff ?_ (State.senseBank_eff Sub.rfl Eff.refl) rfl
    | with_reducible apply State.count_stand
    | with_reducible refine Stand.eff ?_ (State.readOp_eff Sub.rfl Eff.refl) rfl
    | with_reducible refine Stand.eff ?_ (State.writeRows_eff Sub.rfl Eff.refl) rfl
    | dsimp -zeta only
    | intro _
    | with_reducible refine Stand.snd (by with_reducible assumption) ?_
    | split
    | with_reducible exact Stand.lit hv rfl
    | with_reducible exact Stand.lit h rfl
    | (refine Stand.lit ?_ rfl; with_reducible assumption)
    | (refine Stand.lit ?_ rfl; with_reducible refine Stand.eff ?_ (State.senseBank_eff Sub.rfl Eff.refl) rfl)
    | (refine Stand.lit ?_ rfl; with_reducible apply State.count_stand)
    | (refine Stand.lit ?_ rfl; with_reducible refine Stand.eff ?_ (State.readOp_eff Sub.rfl Eff.refl) rfl)
    | (refine Stand.lit ?_ rfl; with_reducible refine Stand.eff ?_ (State.writeRows_eff Sub.rfl Eff.refl) rfl)

theorem State.gate_stand {s : State} {n : Nat} {f : TFields} (h : Stand s₀ s) : Stand s₀ (State.gate s n f) := by
  unfold State.gate
  repeat' first
    | with_reducible assumption
    | (extract_lets +onlyGivenNames v; refine (fun (hv : Stand s₀ v) => ?_) ?_; clear_value v; rotate_left; subst v)
    | (extract_lets +onlyGivenNames v; refine (fun (hv : Stand s₀ v.2) => ?_) ?_; clear_value v; rotate_left; subst v)
    | (extract_lets +onlyGivenNames v; refine (fun (hv : Stand s₀ v.1) => ?_) ?_; clear_value v; rotate_left; subst v)
    | (extract_lets +onlyGivenNames v; (have hp := v.cycles; clear hp; subst v))
    | (extract_lets +onlyGivenNames v; clear_value v)
    | with_reducible apply Stand.ite
    | with_reducible refine Stand.foldlSnd _ (fun _ _ _ => ?_) ?_
    | with_reducible refine Stand.foldl _ (fun _ _ _ => ?_) ?_
    | with_reducible refine Stand.eff ?_ (State.senseBank_eff Sub.rfl Eff.refl) rfl
    | with_reducible refine Stand.eff ?_ (State.setBank_eff Sub.rfl Eff.refl) rfl
    | with_reducible apply State.count_stand
    | with_reducible refine Stand.eff ?_ (State.readOp_eff Sub.rfl Eff.refl) rfl
    | with_reducible refine Stand.eff ?_ (State.writeRows_eff Sub.rfl Eff.refl) rfl
    | dsimp -zeta only
    | intro _
    | with_reducible refine Stand.snd (by with_reducible assumption) ?_
    | split
    | with_reducible exact Stand.lit hv rfl
    | with_reducible exact Stand.lit h rfl
    | (refine Stand.lit ?_ rfl; with_reducible assumption)
    | (refine Stand.lit ?_ rfl; with_reducible refine Stand.eff ?_ (State.senseBank_eff Sub.rfl Eff.refl) rfl)
    | (refine Stand.lit ?_ rfl; with_reducible refine Stand.eff ?_ (State.setBank_eff Sub.rfl Eff.refl) rfl)
    | (refine Stand.lit ?_ rfl; with_reducible apply State.count_stand)
    | (refine Stand.lit ?_ rfl; with_reducible refine Stand.eff ?_ (State.readOp_eff Sub.rfl Eff.refl) rfl)
    | (refine Stand.lit ?_ rfl; with_reducible refine Stand.eff ?_ (State.writeRows_eff Sub.rfl Eff.refl) rfl)

theorem State.hrot_stand {s : State} {e : Nat} {f : TFields} (h : Stand s₀ s) : Stand s₀ (State.hrot s e f) := by
  unfold State.hrot
  repeat' first
    | with_reducible assumption
    | (extract_lets +onlyGivenNames v; refine (fun (hv : Stand s₀ v) => ?_) ?_; clear_value v; rotate_left; subst v)
    | (extract_lets +onlyGivenNames v; refine (fun (hv : Stand s₀ v.2) => ?_) ?_; clear_value v; rotate_left; subst v)
    | (extract_lets +onlyGivenNames v; refine (fun (hv : Stand s₀ v.1) => ?_) ?_; clear_value v; rotate_left; subst v)
    | (extract_lets +onlyGivenNames v; (have hp := v.cycles; clear hp; subst v))
    | (extract_lets +onlyGivenNames v; clear_value v)
    | with_reducible apply Stand.ite
    | with_reducible refine Stand.foldlSnd _ (fun _ _ _ => ?_) ?_
    | with_reducible refine Stand.foldl _ (fun _ _ _ => ?_) ?_
    | with_reducible apply State.count_stand
    | with_reducible refine Stand.eff ?_ (State.readOp_eff Sub.rfl Eff.refl) rfl
    | with_reducible refine Stand.eff ?_ (State.writeRows_eff Sub.rfl Eff.refl) rfl
    | dsimp -zeta only
    | intro _
    | with_reducible refine Stand.snd (by with_reducible assumption) ?_
    | split
    | with_reducible exact Stand.lit hv rfl
    | with_reducible exact Stand.lit h rfl
    | (refine Stand.lit ?_ rfl; with_reducible assumption)
    | (refine Stand.lit ?_ rfl; with_reducible apply State.count_stand)
    | (refine Stand.lit ?_ rfl; with_reducible refine Stand.eff ?_ (State.readOp_eff Sub.rfl Eff.refl) rfl)
    | (refine Stand.lit ?_ rfl; with_reducible refine Stand.eff ?_ (State.writeRows_eff Sub.rfl Eff.refl) rfl)

theorem State.req_stand {s : State} {e : Nat} {f : TFields} (h : Stand s₀ s) : Stand s₀ (State.req s e f) := by
  unfold State.req
  repeat' first
    | with_reducible assumption
    | (extract_lets +onlyGivenNames v; refine (fun (hv : Stand s₀ v) => ?_) ?_; clear_value v; rotate_left; subst v)
    | (extract_lets +onlyGivenNames v; refine (fun (hv : Stand s₀ v.2) => ?_) ?_; clear_value v; rotate_left; subst v)
    | (extract_lets +onlyGivenNames v; refine (fun (hv : Stand s₀ v.1) => ?_) ?_; clear_value v; rotate_left; subst v)
    | (extract_lets +onlyGivenNames v; (have hp := v.cycles; clear hp; subst v))
    | (extract_lets +onlyGivenNames v; clear_value v)
    | with_reducible apply Stand.ite
    | with_reducible refine Stand.foldlSnd _ (fun _ _ _ => ?_) ?_
    | with_reducible refine Stand.foldl _ (fun _ _ _ => ?_) ?_
    | with_reducible apply State.count_stand
    | with_reducible refine Stand.eff ?_ (State.writeShifts_eff Sub.rfl Eff.refl) rfl
    | with_reducible refine Stand.eff ?_ (State.senseTrailer_eff Sub.rfl Eff.refl) rfl
    | with_reducible refine Stand.eff ?_ (State.readOp_eff Sub.rfl Eff.refl) rfl
    | with_reducible refine Stand.eff ?_ (State.writeRows_eff Sub.rfl Eff.refl) rfl
    | dsimp -zeta only
    | intro _
    | with_reducible refine Stand.snd (by with_reducible assumption) ?_
    | split
    | with_reducible exact Stand.lit hv rfl
    | with_reducible exact Stand.lit h rfl
    | (refine Stand.lit ?_ rfl; with_reducible assumption)
    | (refine Stand.lit ?_ rfl; with_reducible apply State.count_stand)
    | (refine Stand.lit ?_ rfl; with_reducible refine Stand.eff ?_ (State.writeShifts_eff Sub.rfl Eff.refl) rfl)
    | (refine Stand.lit ?_ rfl; with_reducible refine Stand.eff ?_ (State.senseTrailer_eff Sub.rfl Eff.refl) rfl)
    | (refine Stand.lit ?_ rfl; with_reducible refine Stand.eff ?_ (State.readOp_eff Sub.rfl Eff.refl) rfl)
    | (refine Stand.lit ?_ rfl; with_reducible refine Stand.eff ?_ (State.writeRows_eff Sub.rfl Eff.refl) rfl)

theorem State.writeGroup_stand {s : State} {e : Nat} {batch : Nat} {g : Geom} {ps : Nat} {r : PagedRegion} {expIn : Int} {g0 : Nat} {last : Nat} (h : Stand s₀ s) : Stand s₀ (State.writeGroup s e batch g ps r expIn g0 last) := by
  unfold State.writeGroup
  repeat' first
    | with_reducible assumption
    | (extract_lets +onlyGivenNames v; refine (fun (hv : Stand s₀ v) => ?_) ?_; clear_value v; rotate_left; subst v)
    | (extract_lets +onlyGivenNames v; refine (fun (hv : Stand s₀ v.2) => ?_) ?_; clear_value v; rotate_left; subst v)
    | (extract_lets +onlyGivenNames v; refine (fun (hv : Stand s₀ v.1) => ?_) ?_; clear_value v; rotate_left; subst v)
    | (extract_lets +onlyGivenNames v; (have hp := v.cycles; clear hp; subst v))
    | (extract_lets +onlyGivenNames v; clear_value v)
    | with_reducible apply Stand.ite
    | with_reducible refine Stand.foldlSnd _ (fun _ _ _ => ?_) ?_
    | with_reducible refine Stand.foldl _ (fun _ _ _ => ?_) ?_
    | with_reducible apply State.count_stand
    | with_reducible refine Stand.eff ?_ (State.reportAway_eff Sub.rfl Eff.refl) rfl
    | with_reducible refine Stand.eff ?_ (State.t0Store_eff Sub.rfl Eff.refl) rfl
    | dsimp -zeta only
    | intro _
    | with_reducible refine Stand.snd (by with_reducible assumption) ?_
    | split
    | with_reducible exact Stand.lit hv rfl
    | with_reducible exact Stand.lit h rfl
    | (refine Stand.lit ?_ rfl; with_reducible assumption)
    | (refine Stand.lit ?_ rfl; with_reducible apply State.count_stand)
    | (refine Stand.lit ?_ rfl; with_reducible refine Stand.eff ?_ (State.reportAway_eff Sub.rfl Eff.refl) rfl)
    | (refine Stand.lit ?_ rfl; with_reducible refine Stand.eff ?_ (State.t0Store_eff Sub.rfl Eff.refl) rfl)

theorem State.appendValues_stand {s : State} {e : Nat} {batch : Nat} {sc : Nat} {region : Nat} {g : Geom} {ps : Nat} {expIn : Int} {x8 : Nat} {x9 : Nat} {x10 : List NewToken} (h : Stand s₀ s) : Stand s₀ (State.appendValues s e batch sc region g ps expIn x8 x9 x10) := by
  induction x8 generalizing s e batch sc region g ps expIn x9 x10 with
  | zero =>
    unfold State.appendValues
    repeat' first
      | with_reducible assumption
      | (extract_lets +onlyGivenNames v; refine (fun (hv : Stand s₀ v) => ?_) ?_; clear_value v; rotate_left; subst v)
      | (extract_lets +onlyGivenNames v; refine (fun (hv : Stand s₀ v.2) => ?_) ?_; clear_value v; rotate_left; subst v)
      | (extract_lets +onlyGivenNames v; refine (fun (hv : Stand s₀ v.1) => ?_) ?_; clear_value v; rotate_left; subst v)
      | (extract_lets +onlyGivenNames v; (have hp := v.cycles; clear hp; subst v))
      | (extract_lets +onlyGivenNames v; clear_value v)
      | with_reducible apply Stand.ite
      | with_reducible refine Stand.foldlSnd _ (fun _ _ _ => ?_) ?_
      | with_reducible refine Stand.foldl _ (fun _ _ _ => ?_) ?_
      | with_reducible refine Stand.eff ?_ (State.setPaged_eff Sub.rfl Eff.refl) rfl
      | with_reducible apply State.writeGroup_stand
      | with_reducible refine Stand.eff ?_ (State.writeMeta_eff Sub.rfl Eff.refl) rfl
      | with_reducible apply ih
      | dsimp -zeta only
      | intro _
      | with_reducible refine Stand.snd (by with_reducible assumption) ?_
      | split
      | with_reducible exact Stand.lit hv rfl
      | with_reducible exact Stand.lit h rfl
      | (refine Stand.lit ?_ rfl; with_reducible assumption)
      | (refine Stand.lit ?_ rfl; with_reducible refine Stand.eff ?_ (State.setPaged_eff Sub.rfl Eff.refl) rfl)
      | (refine Stand.lit ?_ rfl; with_reducible apply State.writeGroup_stand)
      | (refine Stand.lit ?_ rfl; with_reducible refine Stand.eff ?_ (State.writeMeta_eff Sub.rfl Eff.refl) rfl)
      | (refine Stand.lit ?_ rfl; with_reducible apply ih)
  | succ n ih =>
    unfold State.appendValues
    repeat' first
      | with_reducible assumption
      | (extract_lets +onlyGivenNames v; refine (fun (hv : Stand s₀ v) => ?_) ?_; clear_value v; rotate_left; subst v)
      | (extract_lets +onlyGivenNames v; refine (fun (hv : Stand s₀ v.2) => ?_) ?_; clear_value v; rotate_left; subst v)
      | (extract_lets +onlyGivenNames v; refine (fun (hv : Stand s₀ v.1) => ?_) ?_; clear_value v; rotate_left; subst v)
      | (extract_lets +onlyGivenNames v; (have hp := v.cycles; clear hp; subst v))
      | (extract_lets +onlyGivenNames v; clear_value v)
      | with_reducible apply Stand.ite
      | with_reducible refine Stand.foldlSnd _ (fun _ _ _ => ?_) ?_
      | with_reducible refine Stand.foldl _ (fun _ _ _ => ?_) ?_
      | with_reducible refine Stand.eff ?_ (State.setPaged_eff Sub.rfl Eff.refl) rfl
      | with_reducible apply State.writeGroup_stand
      | with_reducible refine Stand.eff ?_ (State.writeMeta_eff Sub.rfl Eff.refl) rfl
      | with_reducible apply ih
      | dsimp -zeta only
      | intro _
      | with_reducible refine Stand.snd (by with_reducible assumption) ?_
      | split
      | with_reducible exact Stand.lit hv rfl
      | with_reducible exact Stand.lit h rfl
      | (refine Stand.lit ?_ rfl; with_reducible assumption)
      | (refine Stand.lit ?_ rfl; with_reducible refine Stand.eff ?_ (State.setPaged_eff Sub.rfl Eff.refl) rfl)
      | (refine Stand.lit ?_ rfl; with_reducible apply State.writeGroup_stand)
      | (refine Stand.lit ?_ rfl; with_reducible refine Stand.eff ?_ (State.writeMeta_eff Sub.rfl Eff.refl) rfl)
      | (refine Stand.lit ?_ rfl; with_reducible apply ih)

theorem State.appendKeys_stand {s : State} {e : Nat} {batch : Nat} {g : Geom} {ps : Nat} {r : PagedRegion} {expIn : Int} {shifts : List Int} {t0 : Nat} {toks : List NewToken} (h : Stand s₀ s) : Stand s₀ (State.appendKeys s e batch g ps r expIn shifts t0 toks) := by
  unfold State.appendKeys
  repeat' first
    | with_reducible assumption
    | (extract_lets +onlyGivenNames v; refine (fun (hv : Stand s₀ v) => ?_) ?_; clear_value v; rotate_left; subst v)
    | (extract_lets +onlyGivenNames v; refine (fun (hv : Stand s₀ v.2) => ?_) ?_; clear_value v; rotate_left; subst v)
    | (extract_lets +onlyGivenNames v; refine (fun (hv : Stand s₀ v.1) => ?_) ?_; clear_value v; rotate_left; subst v)
    | (extract_lets +onlyGivenNames v; (have hp := v.cycles; clear hp; subst v))
    | (extract_lets +onlyGivenNames v; clear_value v)
    | with_reducible apply Stand.ite
    | with_reducible refine Stand.foldlSnd _ (fun _ _ _ => ?_) ?_
    | with_reducible refine Stand.foldl _ (fun _ _ _ => ?_) ?_
    | with_reducible refine Stand.eff ?_ (State.writeMeta_eff Sub.rfl Eff.refl) rfl
    | with_reducible apply State.count_stand
    | with_reducible refine Stand.eff ?_ (State.reportAway_eff Sub.rfl Eff.refl) rfl
    | with_reducible refine Stand.eff ?_ (State.t0Store_eff Sub.rfl Eff.refl) rfl
    | dsimp -zeta only
    | intro _
    | with_reducible refine Stand.snd (by with_reducible assumption) ?_
    | split
    | with_reducible exact Stand.lit hv rfl
    | with_reducible exact Stand.lit h rfl
    | (refine Stand.lit ?_ rfl; with_reducible assumption)
    | (refine Stand.lit ?_ rfl; with_reducible refine Stand.eff ?_ (State.writeMeta_eff Sub.rfl Eff.refl) rfl)
    | (refine Stand.lit ?_ rfl; with_reducible apply State.count_stand)
    | (refine Stand.lit ?_ rfl; with_reducible refine Stand.eff ?_ (State.reportAway_eff Sub.rfl Eff.refl) rfl)
    | (refine Stand.lit ?_ rfl; with_reducible refine Stand.eff ?_ (State.t0Store_eff Sub.rfl Eff.refl) rfl)

theorem State.appendRow_stand {s : State} {e : Nat} {batch : Nat} {f : TFields} {expIn : Int} {shifts : List Int} {toks : List NewToken} (h : Stand s₀ s) : Stand s₀ (State.appendRow s e batch f expIn shifts toks) := by
  unfold State.appendRow
  repeat' first
    | with_reducible assumption
    | (extract_lets +onlyGivenNames v; refine (fun (hv : Stand s₀ v) => ?_) ?_; clear_value v; rotate_left; subst v)
    | (extract_lets +onlyGivenNames v; refine (fun (hv : Stand s₀ v.2) => ?_) ?_; clear_value v; rotate_left; subst v)
    | (extract_lets +onlyGivenNames v; refine (fun (hv : Stand s₀ v.1) => ?_) ?_; clear_value v; rotate_left; subst v)
    | (extract_lets +onlyGivenNames v; (have hp := v.cycles; clear hp; subst v))
    | (extract_lets +onlyGivenNames v; clear_value v)
    | with_reducible apply Stand.ite
    | with_reducible refine Stand.foldlSnd _ (fun _ _ _ => ?_) ?_
    | with_reducible refine Stand.foldl _ (fun _ _ _ => ?_) ?_
    | with_reducible apply State.appendKeys_stand
    | with_reducible apply State.appendValues_stand
    | with_reducible refine Stand.eff ?_ (State.setPaged_eff Sub.rfl Eff.refl) rfl
    | with_reducible apply State.count_stand
    | with_reducible refine Stand.eff ?_ (State.reportAway_eff Sub.rfl Eff.refl) rfl
    | with_reducible refine Stand.eff ?_ (State.updStream_eff Sub.rfl Eff.refl) rfl
    | dsimp -zeta only
    | intro _
    | with_reducible refine Stand.snd (by with_reducible assumption) ?_
    | split
    | with_reducible exact Stand.lit hv rfl
    | with_reducible exact Stand.lit h rfl
    | (refine Stand.lit ?_ rfl; with_reducible assumption)
    | (refine Stand.lit ?_ rfl; with_reducible apply State.appendKeys_stand)
    | (refine Stand.lit ?_ rfl; with_reducible apply State.appendValues_stand)
    | (refine Stand.lit ?_ rfl; with_reducible refine Stand.eff ?_ (State.setPaged_eff Sub.rfl Eff.refl) rfl)
    | (refine Stand.lit ?_ rfl; with_reducible apply State.count_stand)
    | (refine Stand.lit ?_ rfl; with_reducible refine Stand.eff ?_ (State.reportAway_eff Sub.rfl Eff.refl) rfl)
    | (refine Stand.lit ?_ rfl; with_reducible refine Stand.eff ?_ (State.updStream_eff Sub.rfl Eff.refl) rfl)

theorem State.kvapp_stand {s : State} {e : Nat} {f : TFields} (h : Stand s₀ s) : Stand s₀ (State.kvapp s e f) := by
  unfold State.kvapp
  repeat' first
    | with_reducible assumption
    | (extract_lets +onlyGivenNames v; refine (fun (hv : Stand s₀ v) => ?_) ?_; clear_value v; rotate_left; subst v)
    | (extract_lets +onlyGivenNames v; refine (fun (hv : Stand s₀ v.2) => ?_) ?_; clear_value v; rotate_left; subst v)
    | (extract_lets +onlyGivenNames v; refine (fun (hv : Stand s₀ v.1) => ?_) ?_; clear_value v; rotate_left; subst v)
    | (extract_lets +onlyGivenNames v; (have hp := v.cycles; clear hp; subst v))
    | (extract_lets +onlyGivenNames v; clear_value v)
    | with_reducible apply Stand.ite
    | with_reducible refine Stand.foldlSnd _ (fun _ _ _ => ?_) ?_
    | with_reducible refine Stand.foldl _ (fun _ _ _ => ?_) ?_
    | with_reducible apply State.appendRow_stand
    | with_reducible apply State.count_stand
    | with_reducible refine Stand.eff ?_ (State.readOp_eff Sub.rfl Eff.refl) rfl
    | dsimp -zeta only
    | intro _
    | with_reducible refine Stand.snd (by with_reducible assumption) ?_
    | split
    | with_reducible exact Stand.lit hv rfl
    | with_reducible exact Stand.lit h rfl
    | (refine Stand.lit ?_ rfl; with_reducible assumption)
    | (refine Stand.lit ?_ rfl; with_reducible apply State.appendRow_stand)
    | (refine Stand.lit ?_ rfl; with_reducible apply State.count_stand)
    | (refine Stand.lit ?_ rfl; with_reducible refine Stand.eff ?_ (State.readOp_eff Sub.rfl Eff.refl) rfl)

theorem State.countRow_stand {s : State} {e : Nat} {pads : Nat} {blocks : Nat} (h : Stand s₀ s) : Stand s₀ (State.countRow s e pads blocks) := by
  unfold State.countRow
  repeat' first
    | with_reducible assumption
    | (extract_lets +onlyGivenNames v; refine (fun (hv : Stand s₀ v) => ?_) ?_; clear_value v; rotate_left; subst v)
    | (extract_lets +onlyGivenNames v; refine (fun (hv : Stand s₀ v.2) => ?_) ?_; clear_value v; rotate_left; subst v)
    | (extract_lets +onlyGivenNames v; refine (fun (hv : Stand s₀ v.1) => ?_) ?_; clear_value v; rotate_left; subst v)
    | (extract_lets +onlyGivenNames v; (have hp := v.cycles; clear hp; subst v))
    | (extract_lets +onlyGivenNames v; clear_value v)
    | with_reducible apply Stand.ite
    | with_reducible refine Stand.foldlSnd _ (fun _ _ _ => ?_) ?_
    | with_reducible refine Stand.foldl _ (fun _ _ _ => ?_) ?_
    | with_reducible apply State.count_stand
    | dsimp -zeta only
    | intro _
    | with_reducible refine Stand.snd (by with_reducible assumption) ?_
    | split
    | with_reducible exact Stand.lit hv rfl
    | with_reducible exact Stand.lit h rfl
    | (refine Stand.lit ?_ rfl; with_reducible assumption)
    | (refine Stand.lit ?_ rfl; with_reducible apply State.count_stand)

theorem State.sattn_stand {s : State} {n : Nat} {f : TFields} (h : Stand s₀ s) : Stand s₀ (State.sattn s n f) := by
  unfold State.sattn
  repeat' first
    | with_reducible assumption
    | (extract_lets +onlyGivenNames v; refine (fun (hv : Stand s₀ v) => ?_) ?_; clear_value v; rotate_left; subst v)
    | (extract_lets +onlyGivenNames v; refine (fun (hv : Stand s₀ v.2) => ?_) ?_; clear_value v; rotate_left; subst v)
    | (extract_lets +onlyGivenNames v; refine (fun (hv : Stand s₀ v.1) => ?_) ?_; clear_value v; rotate_left; subst v)
    | (extract_lets +onlyGivenNames v; (have hp := v.cycles; clear hp; subst v))
    | (extract_lets +onlyGivenNames v; clear_value v)
    | with_reducible apply Stand.ite
    | with_reducible refine Stand.foldlSnd _ (fun _ _ _ => ?_) ?_
    | with_reducible refine Stand.foldl _ (fun _ _ _ => ?_) ?_
    | with_reducible apply State.countRow_stand
    | with_reducible refine Stand.eff ?_ (State.fetchPages_eff Sub.rfl Eff.refl) rfl
    | with_reducible apply State.count_stand
    | with_reducible refine Stand.eff ?_ (State.readOp_eff Sub.rfl Eff.refl) rfl
    | with_reducible refine Stand.eff ?_ (State.writeRows_eff Sub.rfl Eff.refl) rfl
    | with_reducible refine Stand.eff ?_ (State.t0Store_eff Sub.rfl Eff.refl) rfl
    | dsimp -zeta only
    | intro _
    | with_reducible refine Stand.snd (by with_reducible assumption) ?_
    | split
    | with_reducible exact Stand.lit hv rfl
    | with_reducible exact Stand.lit h rfl
    | (refine Stand.lit ?_ rfl; with_reducible assumption)
    | (refine Stand.lit ?_ rfl; with_reducible apply State.countRow_stand)
    | (refine Stand.lit ?_ rfl; with_reducible refine Stand.eff ?_ (State.fetchPages_eff Sub.rfl Eff.refl) rfl)
    | (refine Stand.lit ?_ rfl; with_reducible apply State.count_stand)
    | (refine Stand.lit ?_ rfl; with_reducible refine Stand.eff ?_ (State.readOp_eff Sub.rfl Eff.refl) rfl)
    | (refine Stand.lit ?_ rfl; with_reducible refine Stand.eff ?_ (State.writeRows_eff Sub.rfl Eff.refl) rfl)
    | (refine Stand.lit ?_ rfl; with_reducible refine Stand.eff ?_ (State.t0Store_eff Sub.rfl Eff.refl) rfl)

theorem State.sumsc_stand {s : State} {n : Nat} {f : TFields} (h : Stand s₀ s) : Stand s₀ (State.sumsc s n f) := by
  unfold State.sumsc
  repeat' first
    | with_reducible assumption
    | (extract_lets +onlyGivenNames v; refine (fun (hv : Stand s₀ v) => ?_) ?_; clear_value v; rotate_left; subst v)
    | (extract_lets +onlyGivenNames v; refine (fun (hv : Stand s₀ v.2) => ?_) ?_; clear_value v; rotate_left; subst v)
    | (extract_lets +onlyGivenNames v; refine (fun (hv : Stand s₀ v.1) => ?_) ?_; clear_value v; rotate_left; subst v)
    | (extract_lets +onlyGivenNames v; (have hp := v.cycles; clear hp; subst v))
    | (extract_lets +onlyGivenNames v; clear_value v)
    | with_reducible apply Stand.ite
    | with_reducible refine Stand.foldlSnd _ (fun _ _ _ => ?_) ?_
    | with_reducible refine Stand.foldl _ (fun _ _ _ => ?_) ?_
    | with_reducible apply State.countRow_stand
    | with_reducible refine Stand.eff ?_ (State.readOp_eff Sub.rfl Eff.refl) rfl
    | with_reducible refine Stand.eff ?_ (State.writeRows_eff Sub.rfl Eff.refl) rfl
    | with_reducible refine Stand.eff ?_ (State.reportUnread_eff Sub.rfl Eff.refl) rfl
    | with_reducible refine Stand.eff ?_ (State.senseRange_eff Sub.rfl Eff.refl) rfl
    | dsimp -zeta only
    | intro _
    | with_reducible refine Stand.snd (by with_reducible assumption) ?_
    | split
    | with_reducible exact Stand.lit hv rfl
    | with_reducible exact Stand.lit h rfl
    | (refine Stand.lit ?_ rfl; with_reducible assumption)
    | (refine Stand.lit ?_ rfl; with_reducible apply State.countRow_stand)
    | (refine Stand.lit ?_ rfl; with_reducible refine Stand.eff ?_ (State.readOp_eff Sub.rfl Eff.refl) rfl)
    | (refine Stand.lit ?_ rfl; with_reducible refine Stand.eff ?_ (State.writeRows_eff Sub.rfl Eff.refl) rfl)
    | (refine Stand.lit ?_ rfl; with_reducible refine Stand.eff ?_ (State.reportUnread_eff Sub.rfl Eff.refl) rfl)
    | (refine Stand.lit ?_ rfl; with_reducible refine Stand.eff ?_ (State.senseRange_eff Sub.rfl Eff.refl) rfl)

theorem State.sprob_stand {s : State} {n : Nat} {f : TFields} (h : Stand s₀ s) : Stand s₀ (State.sprob s n f) := by
  unfold State.sprob
  repeat' first
    | with_reducible assumption
    | (extract_lets +onlyGivenNames v; refine (fun (hv : Stand s₀ v) => ?_) ?_; clear_value v; rotate_left; subst v)
    | (extract_lets +onlyGivenNames v; refine (fun (hv : Stand s₀ v.2) => ?_) ?_; clear_value v; rotate_left; subst v)
    | (extract_lets +onlyGivenNames v; refine (fun (hv : Stand s₀ v.1) => ?_) ?_; clear_value v; rotate_left; subst v)
    | (extract_lets +onlyGivenNames v; (have hp := v.cycles; clear hp; subst v))
    | (extract_lets +onlyGivenNames v; clear_value v)
    | with_reducible apply Stand.ite
    | with_reducible refine Stand.foldlSnd _ (fun _ _ _ => ?_) ?_
    | with_reducible refine Stand.foldl _ (fun _ _ _ => ?_) ?_
    | with_reducible apply State.countRow_stand
    | with_reducible refine Stand.eff ?_ (State.fetchPages_eff Sub.rfl Eff.refl) rfl
    | with_reducible apply State.count_stand
    | with_reducible refine Stand.eff ?_ (State.readOp_eff Sub.rfl Eff.refl) rfl
    | with_reducible refine Stand.eff ?_ (State.writeRows_eff Sub.rfl Eff.refl) rfl
    | with_reducible refine Stand.eff ?_ (State.reportUnread_eff Sub.rfl Eff.refl) rfl
    | with_reducible refine Stand.eff ?_ (State.senseRange_eff Sub.rfl Eff.refl) rfl
    | with_reducible refine Stand.eff ?_ (State.draw_eff Sub.rfl Eff.refl) rfl
    | dsimp -zeta only
    | intro _
    | with_reducible refine Stand.snd (by with_reducible assumption) ?_
    | split
    | with_reducible exact Stand.lit hv rfl
    | with_reducible exact Stand.lit h rfl
    | (refine Stand.lit ?_ rfl; with_reducible assumption)
    | (refine Stand.lit ?_ rfl; with_reducible apply State.countRow_stand)
    | (refine Stand.lit ?_ rfl; with_reducible refine Stand.eff ?_ (State.fetchPages_eff Sub.rfl Eff.refl) rfl)
    | (refine Stand.lit ?_ rfl; with_reducible apply State.count_stand)
    | (refine Stand.lit ?_ rfl; with_reducible refine Stand.eff ?_ (State.readOp_eff Sub.rfl Eff.refl) rfl)
    | (refine Stand.lit ?_ rfl; with_reducible refine Stand.eff ?_ (State.writeRows_eff Sub.rfl Eff.refl) rfl)
    | (refine Stand.lit ?_ rfl; with_reducible refine Stand.eff ?_ (State.reportUnread_eff Sub.rfl Eff.refl) rfl)
    | (refine Stand.lit ?_ rfl; with_reducible refine Stand.eff ?_ (State.senseRange_eff Sub.rfl Eff.refl) rfl)
    | (refine Stand.lit ?_ rfl; with_reducible refine Stand.eff ?_ (State.draw_eff Sub.rfl Eff.refl) rfl)

theorem State.fattn_stand {s : State} {n : Nat} {f : TFields} (h : Stand s₀ s) : Stand s₀ (State.fattn s n f) := by
  unfold State.fattn
  repeat' first
    | with_reducible assumption
    | (extract_lets +onlyGivenNames v; refine (fun (hv : Stand s₀ v) => ?_) ?_; clear_value v; rotate_left; subst v)
    | (extract_lets +onlyGivenNames v; refine (fun (hv : Stand s₀ v.2) => ?_) ?_; clear_value v; rotate_left; subst v)
    | (extract_lets +onlyGivenNames v; refine (fun (hv : Stand s₀ v.1) => ?_) ?_; clear_value v; rotate_left; subst v)
    | (extract_lets +onlyGivenNames v; (have hp := v.cycles; clear hp; subst v))
    | (extract_lets +onlyGivenNames v; clear_value v)
    | with_reducible apply Stand.ite
    | with_reducible refine Stand.foldlSnd _ (fun _ _ _ => ?_) ?_
    | with_reducible refine Stand.foldl _ (fun _ _ _ => ?_) ?_
    | with_reducible refine Stand.eff ?_ (State.setBank_eff Sub.rfl Eff.refl) rfl
    | with_reducible apply State.count_stand
    | with_reducible refine Stand.eff ?_ (State.readOp_eff Sub.rfl Eff.refl) rfl
    | with_reducible refine Stand.eff ?_ (State.writeRows_eff Sub.rfl Eff.refl) rfl
    | dsimp -zeta only
    | intro _
    | with_reducible refine Stand.snd (by with_reducible assumption) ?_
    | split
    | with_reducible exact Stand.lit hv rfl
    | with_reducible exact Stand.lit h rfl
    | (refine Stand.lit ?_ rfl; with_reducible assumption)
    | (refine Stand.lit ?_ rfl; with_reducible refine Stand.eff ?_ (State.setBank_eff Sub.rfl Eff.refl) rfl)
    | (refine Stand.lit ?_ rfl; with_reducible apply State.count_stand)
    | (refine Stand.lit ?_ rfl; with_reducible refine Stand.eff ?_ (State.readOp_eff Sub.rfl Eff.refl) rfl)
    | (refine Stand.lit ?_ rfl; with_reducible refine Stand.eff ?_ (State.writeRows_eff Sub.rfl Eff.refl) rfl)

theorem State.sample_stand {s : State} {f : TFields} (h : Stand s₀ s) : Stand s₀ (State.sample s f) := by
  unfold State.sample
  repeat' first
    | with_reducible assumption
    | (extract_lets +onlyGivenNames v; refine (fun (hv : Stand s₀ v) => ?_) ?_; clear_value v; rotate_left; subst v)
    | (extract_lets +onlyGivenNames v; refine (fun (hv : Stand s₀ v.2) => ?_) ?_; clear_value v; rotate_left; subst v)
    | (extract_lets +onlyGivenNames v; refine (fun (hv : Stand s₀ v.1) => ?_) ?_; clear_value v; rotate_left; subst v)
    | (extract_lets +onlyGivenNames v; (have hp := v.cycles; clear hp; subst v))
    | (extract_lets +onlyGivenNames v; clear_value v)
    | with_reducible apply Stand.ite
    | with_reducible refine Stand.foldlSnd _ (fun _ _ _ => ?_) ?_
    | with_reducible refine Stand.foldl _ (fun _ _ _ => ?_) ?_
    | with_reducible apply State.count_stand
    | with_reducible refine Stand.eff ?_ (State.readOp_eff Sub.rfl Eff.refl) rfl
    | with_reducible refine Stand.eff ?_ (State.writeRows_eff Sub.rfl Eff.refl) rfl
    | dsimp -zeta only
    | intro _
    | with_reducible refine Stand.snd (by with_reducible assumption) ?_
    | split
    | with_reducible exact Stand.lit hv rfl
    | with_reducible exact Stand.lit h rfl
    | (refine Stand.lit ?_ rfl; with_reducible assumption)
    | (refine Stand.lit ?_ rfl; with_reducible apply State.count_stand)
    | (refine Stand.lit ?_ rfl; with_reducible refine Stand.eff ?_ (State.readOp_eff Sub.rfl Eff.refl) rfl)
    | (refine Stand.lit ?_ rfl; with_reducible refine Stand.eff ?_ (State.writeRows_eff Sub.rfl Eff.refl) rfl)

theorem State.scan_stand {s : State} {f : TFields} (h : Stand s₀ s) : Stand s₀ (State.scan s f) := by
  unfold State.scan
  repeat' first
    | with_reducible assumption
    | (extract_lets +onlyGivenNames v; refine (fun (hv : Stand s₀ v) => ?_) ?_; clear_value v; rotate_left; subst v)
    | (extract_lets +onlyGivenNames v; refine (fun (hv : Stand s₀ v.2) => ?_) ?_; clear_value v; rotate_left; subst v)
    | (extract_lets +onlyGivenNames v; refine (fun (hv : Stand s₀ v.1) => ?_) ?_; clear_value v; rotate_left; subst v)
    | (extract_lets +onlyGivenNames v; (have hp := v.cycles; clear hp; subst v))
    | (extract_lets +onlyGivenNames v; clear_value v)
    | with_reducible apply Stand.ite
    | with_reducible refine Stand.foldlSnd _ (fun _ _ _ => ?_) ?_
    | with_reducible refine Stand.foldl _ (fun _ _ _ => ?_) ?_
    | with_reducible apply State.count_stand
    | with_reducible refine Stand.eff ?_ (State.readOp_eff Sub.rfl Eff.refl) rfl
    | with_reducible refine Stand.eff ?_ (State.writeRows_eff Sub.rfl Eff.refl) rfl
    | dsimp -zeta only
    | intro _
    | with_reducible refine Stand.snd (by with_reducible assumption) ?_
    | split
    | with_reducible exact Stand.lit hv rfl
    | with_reducible exact Stand.lit h rfl
    | (refine Stand.lit ?_ rfl; with_reducible assumption)
    | (refine Stand.lit ?_ rfl; with_reducible apply State.count_stand)
    | (refine Stand.lit ?_ rfl; with_reducible refine Stand.eff ?_ (State.readOp_eff Sub.rfl Eff.refl) rfl)
    | (refine Stand.lit ?_ rfl; with_reducible refine Stand.eff ?_ (State.writeRows_eff Sub.rfl Eff.refl) rfl)

theorem State.putVector_stand {s : State} {n : Nat} {dD : TDesc} {loops : List LoopFrame} {e : Int} {raw : List (List Int)} (h : Stand s₀ s) : Stand s₀ (State.putVector s n dD loops e raw) := by
  unfold State.putVector
  repeat' first
    | with_reducible assumption
    | (extract_lets +onlyGivenNames v; refine (fun (hv : Stand s₀ v) => ?_) ?_; clear_value v; rotate_left; subst v)
    | (extract_lets +onlyGivenNames v; refine (fun (hv : Stand s₀ v.2) => ?_) ?_; clear_value v; rotate_left; subst v)
    | (extract_lets +onlyGivenNames v; refine (fun (hv : Stand s₀ v.1) => ?_) ?_; clear_value v; rotate_left; subst v)
    | (extract_lets +onlyGivenNames v; (have hp := v.cycles; clear hp; subst v))
    | (extract_lets +onlyGivenNames v; clear_value v)
    | with_reducible apply Stand.ite
    | with_reducible refine Stand.foldlSnd _ (fun _ _ _ => ?_) ?_
    | with_reducible refine Stand.foldl _ (fun _ _ _ => ?_) ?_
    | with_reducible apply State.count_stand
    | with_reducible refine Stand.eff ?_ (State.writeRows_eff Sub.rfl Eff.refl) rfl
    | dsimp -zeta only
    | intro _
    | with_reducible refine Stand.snd (by with_reducible assumption) ?_
    | split
    | with_reducible exact Stand.lit hv rfl
    | with_reducible exact Stand.lit h rfl
    | (refine Stand.lit ?_ rfl; with_reducible assumption)
    | (refine Stand.lit ?_ rfl; with_reducible apply State.count_stand)
    | (refine Stand.lit ?_ rfl; with_reducible refine Stand.eff ?_ (State.writeRows_eff Sub.rfl Eff.refl) rfl)

theorem State.vadd_stand {s : State} {n : Nat} {f : TFields} (h : Stand s₀ s) : Stand s₀ (State.vadd s n f) := by
  unfold State.vadd
  repeat' first
    | with_reducible assumption
    | (extract_lets +onlyGivenNames v; refine (fun (hv : Stand s₀ v) => ?_) ?_; clear_value v; rotate_left; subst v)
    | (extract_lets +onlyGivenNames v; refine (fun (hv : Stand s₀ v.2) => ?_) ?_; clear_value v; rotate_left; subst v)
    | (extract_lets +onlyGivenNames v; refine (fun (hv : Stand s₀ v.1) => ?_) ?_; clear_value v; rotate_left; subst v)
    | (extract_lets +onlyGivenNames v; (have hp := v.cycles; clear hp; subst v))
    | (extract_lets +onlyGivenNames v; clear_value v)
    | with_reducible apply Stand.ite
    | with_reducible refine Stand.foldlSnd _ (fun _ _ _ => ?_) ?_
    | with_reducible refine Stand.foldl _ (fun _ _ _ => ?_) ?_
    | with_reducible apply State.putVector_stand
    | with_reducible refine Stand.eff ?_ (State.readOp_eff Sub.rfl Eff.refl) rfl
    | dsimp -zeta only
    | intro _
    | with_reducible refine Stand.snd (by with_reducible assumption) ?_
    | split
    | with_reducible exact Stand.lit hv rfl
    | with_reducible exact Stand.lit h rfl
    | (refine Stand.lit ?_ rfl; with_reducible assumption)
    | (refine Stand.lit ?_ rfl; with_reducible apply State.putVector_stand)
    | (refine Stand.lit ?_ rfl; with_reducible refine Stand.eff ?_ (State.readOp_eff Sub.rfl Eff.refl) rfl)

theorem State.vmul_stand {s : State} {n : Nat} {f : TFields} (h : Stand s₀ s) : Stand s₀ (State.vmul s n f) := by
  unfold State.vmul
  repeat' first
    | with_reducible assumption
    | (extract_lets +onlyGivenNames v; refine (fun (hv : Stand s₀ v) => ?_) ?_; clear_value v; rotate_left; subst v)
    | (extract_lets +onlyGivenNames v; refine (fun (hv : Stand s₀ v.2) => ?_) ?_; clear_value v; rotate_left; subst v)
    | (extract_lets +onlyGivenNames v; refine (fun (hv : Stand s₀ v.1) => ?_) ?_; clear_value v; rotate_left; subst v)
    | (extract_lets +onlyGivenNames v; (have hp := v.cycles; clear hp; subst v))
    | (extract_lets +onlyGivenNames v; clear_value v)
    | with_reducible apply Stand.ite
    | with_reducible refine Stand.foldlSnd _ (fun _ _ _ => ?_) ?_
    | with_reducible refine Stand.foldl _ (fun _ _ _ => ?_) ?_
    | with_reducible apply State.putVector_stand
    | with_reducible refine Stand.eff ?_ (State.readOp_eff Sub.rfl Eff.refl) rfl
    | dsimp -zeta only
    | intro _
    | with_reducible refine Stand.snd (by with_reducible assumption) ?_
    | split
    | with_reducible exact Stand.lit hv rfl
    | with_reducible exact Stand.lit h rfl
    | (refine Stand.lit ?_ rfl; with_reducible assumption)
    | (refine Stand.lit ?_ rfl; with_reducible apply State.putVector_stand)
    | (refine Stand.lit ?_ rfl; with_reducible refine Stand.eff ?_ (State.readOp_eff Sub.rfl Eff.refl) rfl)

theorem State.vnorm_stand {s : State} {n : Nat} {f : TFields} (h : Stand s₀ s) : Stand s₀ (State.vnorm s n f) := by
  unfold State.vnorm
  repeat' first
    | with_reducible assumption
    | (extract_lets +onlyGivenNames v; refine (fun (hv : Stand s₀ v) => ?_) ?_; clear_value v; rotate_left; subst v)
    | (extract_lets +onlyGivenNames v; refine (fun (hv : Stand s₀ v.2) => ?_) ?_; clear_value v; rotate_left; subst v)
    | (extract_lets +onlyGivenNames v; refine (fun (hv : Stand s₀ v.1) => ?_) ?_; clear_value v; rotate_left; subst v)
    | (extract_lets +onlyGivenNames v; (have hp := v.cycles; clear hp; subst v))
    | (extract_lets +onlyGivenNames v; clear_value v)
    | with_reducible apply Stand.ite
    | with_reducible refine Stand.foldlSnd _ (fun _ _ _ => ?_) ?_
    | with_reducible refine Stand.foldl _ (fun _ _ _ => ?_) ?_
    | with_reducible apply State.putVector_stand
    | with_reducible refine Stand.eff ?_ (State.readOp_eff Sub.rfl Eff.refl) rfl
    | dsimp -zeta only
    | intro _
    | with_reducible refine Stand.snd (by with_reducible assumption) ?_
    | split
    | with_reducible exact Stand.lit hv rfl
    | with_reducible exact Stand.lit h rfl
    | (refine Stand.lit ?_ rfl; with_reducible assumption)
    | (refine Stand.lit ?_ rfl; with_reducible apply State.putVector_stand)
    | (refine Stand.lit ?_ rfl; with_reducible refine Stand.eff ?_ (State.readOp_eff Sub.rfl Eff.refl) rfl)

theorem State.vmask_stand {s : State} {n : Nat} {f : TFields} (h : Stand s₀ s) : Stand s₀ (State.vmask s n f) := by
  unfold State.vmask
  repeat' first
    | with_reducible assumption
    | (extract_lets +onlyGivenNames v; refine (fun (hv : Stand s₀ v) => ?_) ?_; clear_value v; rotate_left; subst v)
    | (extract_lets +onlyGivenNames v; refine (fun (hv : Stand s₀ v.2) => ?_) ?_; clear_value v; rotate_left; subst v)
    | (extract_lets +onlyGivenNames v; refine (fun (hv : Stand s₀ v.1) => ?_) ?_; clear_value v; rotate_left; subst v)
    | (extract_lets +onlyGivenNames v; (have hp := v.cycles; clear hp; subst v))
    | (extract_lets +onlyGivenNames v; clear_value v)
    | with_reducible apply Stand.ite
    | with_reducible refine Stand.foldlSnd _ (fun _ _ _ => ?_) ?_
    | with_reducible refine Stand.foldl _ (fun _ _ _ => ?_) ?_
    | with_reducible apply State.putVector_stand
    | with_reducible refine Stand.eff ?_ (State.readOp_eff Sub.rfl Eff.refl) rfl
    | dsimp -zeta only
    | intro _
    | with_reducible refine Stand.snd (by with_reducible assumption) ?_
    | split
    | with_reducible exact Stand.lit hv rfl
    | with_reducible exact Stand.lit h rfl
    | (refine Stand.lit ?_ rfl; with_reducible assumption)
    | (refine Stand.lit ?_ rfl; with_reducible apply State.putVector_stand)
    | (refine Stand.lit ?_ rfl; with_reducible refine Stand.eff ?_ (State.readOp_eff Sub.rfl Eff.refl) rfl)

end Sys2Proof.Machine
end

