-- ==== Sys2Proof/Laws/Engines.lean ====
section
/-!
SUPPORT. Laws/Engines.lean: what reading an engine gives after it or another was replaced, and what a step of an engine's clock and the
end of its word do to it.
-/
namespace Sys2Proof.Machine

variable (s : State)

theorem State.eng_setEng (e : Nat) (g : EngState) (h : e < s.engs.length) : (s.setEng e g).eng e = g := by
  simp [State.eng, State.setEng, h]

theorem State.eng_setEng_apart (e k : Nat) (g : EngState) (h : k ≠ e) : (s.setEng e g).eng k = s.eng k := by
  simp [State.eng, State.setEng, Ne.symm h]

theorem State.setEng_setEng (e : Nat) (g g' : EngState) : (s.setEng e g).setEng e g' = s.setEng e g' := by
  simp [State.setEng]

@[simp] theorem State.setEng_length (e : Nat) (g : EngState) : (s.setEng e g).engs.length = s.engs.length := by
  simp [State.setEng]

theorem State.eng_of_engs {s t : State} (h : t.engs = s.engs) (e : Nat) : t.eng e = s.eng e := by unfold State.eng; rw [h]

/-- An engine's clock depends on the duties and the power state alone. -/
theorem State.steady_setEng (e : Nat) (g : EngState) : (s.setEng e g).steadyFrom = s.steadyFrom := rfl

theorem State.advance_setEng (e : Nat) (g : EngState) (fuel : Nat) : ∀ c n, (s.setEng e g).advance fuel c n = s.advance fuel c n := by
  have hd : ∀ c, (s.setEng e g).dutyAt c = s.dutyAt c := fun _ => rfl
  induction fuel with
  | zero => intro c n; rfl
  | succ fuel ih => intro c n; unfold State.advance; simp only [hd, ih, State.steady_setEng]; rfl

theorem State.after_setEng (e k : Nat) (g : EngState) (c n : Nat) : (s.setEng e g).after k c n = s.after k c n := by
  unfold State.after; rw [State.advance_setEng]

/-- The clock never runs backwards. -/
theorem reachIn_le (d n : Nat) : reachIn d n ≤ 64 := by
  unfold reachIn
  cases h : (List.range 65).find? fun j => n ≤ workIn d j with
  | none => exact Nat.le_refl _
  | some j => have := List.mem_of_find?_eq_some h; simp at this ⊢; omega

theorem workIn_le (d j : Nat) : workIn d j ≤ j := Nat.sub_le _ _

theorem le_reachIn (d n m : Nat) (hm : m ≤ 64) (h : ∀ j, j < m → workIn d j < n) : m ≤ reachIn d n := by
  unfold reachIn
  cases e : (List.range 65).find? fun j => n ≤ workIn d j with
  | none => exact hm
  | some j =>
    have := List.find?_some e
    have k := of_decide_eq_true this
    simp only [Option.getD_some]
    refine Nat.le_of_not_lt fun hj => ?_
    have := h j hj
    omega

theorem workIn_mono (d : Nat) {j m : Nat} (h : j ≤ m) : workIn d j ≤ workIn d m := by
  unfold workIn
  rcases Nat.lt_or_ge 64 d with hd | hd
  · have : j ≤ j * d / 64 := by
      rw [Nat.le_div_iff_mul_le (by decide)]; exact Nat.mul_le_mul_left j (Nat.le_of_lt hd)
    omega
  · induction m with
    | zero => simp [Nat.le_zero.1 h]
    | succ m ih =>
      rcases Nat.lt_or_ge m j with hj | hj
      · have : j = m + 1 := by omega
        subst this; exact Nat.le_refl _
      · refine Nat.le_trans (ih hj) ?_
        have h1 : (m + 1) * d / 64 ≤ m * d / 64 + 1 := by
          rw [Nat.add_mul, Nat.one_mul]
          omega
        have h2 : m * d / 64 ≤ (m + 1) * d / 64 := Nat.div_le_div_right (Nat.mul_le_mul_right _ (Nat.le_succ _))
        have h3 : m * d / 64 ≤ m := by
          refine Nat.div_le_of_le_mul ?_; rw [Nat.mul_comm]; exact Nat.mul_le_mul_right m hd
        omega

theorem State.le_advance (fuel : Nat) : ∀ c n, c ≤ s.advance fuel c n := by
  induction fuel with
  | zero => intro c n; exact Nat.le_add_right _ _
  | succ fuel ih =>
    intro c n
    unfold State.advance
    split
    · exact Nat.le_refl _
    · next hn =>
      dsimp only
      split
      · exact Nat.le_add_right _ _
      · split
        · have := le_reachIn (s.dutyAt (64 * (c / 64))) (workIn (s.dutyAt (64 * (c / 64))) (c % 64) + n) (c % 64) (by omega)
            (fun j hj => by have := workIn_mono (s.dutyAt (64 * (c / 64))) (Nat.le_of_lt hj); omega)
          omega
        · split
          · next h =>
            have h0 : c % 64 = 0 := by simp at h; exact h.1.2
            have h1 : ∀ q r : Nat, c ≤ 64 * (c / 64 + q) + r := fun q r => by omega
            exact h1 _ _
          · exact Nat.le_trans (by omega) (ih _ _)

theorem State.le_after (e c n : Nat) : c ≤ s.after e c n := by
  unfold State.after
  split
  · exact s.le_advance _ _ _
  · exact Nat.le_add_right _ _

/-! ### Working and retiring -/

theorem State.work_eq (e n : Nat) : s.work e n = s.setEng e { s.eng e with
    cycles := s.after e (s.eng e).cycles n, remain := (s.eng e).remain - n,
    bubbles := (s.eng e).bubbles + ((s.after e (s.eng e).cycles n - (s.eng e).cycles) - toFast e n) } := rfl

theorem State.retire_eq (e : Nat) : s.retire e = s.setEng e { s.eng e with
    pc := (nextPc ((s.eng e).pc + 1) (s.eng e).loops).1, loops := (nextPc ((s.eng e).pc + 1) (s.eng e).loops).2 } := rfl

theorem State.standsAt_waiting {e : Nat} {w : DWord} (h : s.standsAt e w = true) : (s.eng e).waiting = none ∧ (s.eng e).running = true := by
  unfold State.standsAt State.fetch at h
  have k := of_decide_eq_true h
  dsimp only at k
  split at k
  · next h => simp at h; exact ⟨h.1.2, h.1.1⟩
  · cases k

/-! ### The end of a slice -/

/-- What every step of `f` keeps, a fold keeps. -/
theorem foldl_keeps {α : Type} {P : State → Prop} {f : State → α → State} (l : List α) (hf : ∀ u x, P u → P (f u x)) :
    ∀ u, P u → P (l.foldl f u) := by
  induction l with
  | nil => intro u h; exact h
  | cons x l ih => intro u h; exact ih _ (hf u x h)

/-- Posting for an engine adds to the posts, to the knots' counts and to that engine. -/
structure PostsFor (s : State) (e : Nat) (t : State) : Prop where
  reg : ∀ a, a < Reg.PLAN_KNOT → t.reg a = s.reg a
  posts : ∃ l, t.posts = s.posts ++ l
  eng : ∀ k, k ≠ e → t.eng k = s.eng k
  len : t.engs.length = s.engs.length

theorem PostsFor.refl (e : Nat) : PostsFor s e s := ⟨fun _ _ => rfl, ⟨[], by simp⟩, fun _ _ => rfl, rfl⟩

theorem State.applyPost_posts (k n c d : Nat) : (s.applyPost k n c d).posts = s.posts ++ [⟨k, c + d, n⟩] := by
  unfold State.applyPost; rfl

theorem State.engPost_for {s₀ : State} {e : Nat} {s : State} (h : PostsFor s₀ e s) (k n d : Nat) : PostsFor s₀ e (s.engPost e k n d) := by
  refine ⟨fun a ha => ?_, ?_, fun j hj => ?_, ?_⟩
  · rw [← h.reg a ha]
    exact State.reg_setFld_apart _ _ _ _ (by omega)
  · obtain ⟨l, hl⟩ := h.posts
    exact ⟨l ++ [⟨k, (s.eng e).cycles + d, n⟩], by rw [← List.append_assoc, ← hl]; rfl⟩
  · rw [← h.eng j hj]
    exact State.eng_setEng_apart _ _ _ _ hj
  · rw [← h.len]; exact State.setEng_length _ _ _

theorem State.postRest_for (e : Nat) : PostsFor s e (s.postRest e) := by
  unfold State.postRest
  refine foldl_keeps (P := PostsFor s e) _ (fun u x hu => ?_) s (PostsFor.refl s e)
  dsimp only
  split
  · exact hu
  · exact State.engPost_for hu _ _ _

theorem State.reg_setBusy (e : Nat) (b : Bool) {a : Nat} (h : a < Reg.SHF_STAT) : (s.setBusy e b).reg a = s.reg a := by
  unfold State.setBusy
  split
  · next r i hr =>
    refine State.reg_setBit_apart _ _ _ ?_
    have : Reg.SHF_STAT ≤ r := by
      unfold busyBit at hr
      repeat' split at hr
      all_goals cases hr
      all_goals simp only [Reg.SHF_STAT, Reg.TSH_STAT, Reg.WNW_STAT, Reg.SVE_STAT, Reg.RCS_STAT, Reg.FLL_STAT, Reg.QRN_STAT, Reg.GLM_STAT]
      all_goals omega
    omega
  · rfl

theorem State.setBusy_engs (e : Nat) (b : Bool) : (s.setBusy e b).engs = s.engs := by
  unfold State.setBusy; split <;> rfl

theorem State.reg_dropPlanMove (e : Nat) {a : Nat} (h : a < Reg.CART_STAT) : (s.dropPlanMove e).reg a = s.reg a := by
  unfold State.dropPlanMove
  split
  · rw [State.reg_setBit_apart _ _ _ (by omega), State.reg_setFld_apart _ _ _ _ (by simp only [Reg.CART_CHSTAT, Reg.CART_STAT] at *; omega)]
    rfl
  · rfl

theorem State.dropPlanMove_engs (e : Nat) : (s.dropPlanMove e).engs = s.engs := by unfold State.dropPlanMove; split <;> rfl

/-- The end of a slice before the tick's work end takes it in. -/
def State.endEng (s : State) (e : Nat) (x : Bool) : State :=
  (((((s.setEng e { s.eng e with running := false, waiting := none, loops := [] }).setFld (Reg.PLAN_ENGSTAT + 4 * e) 0 28
    (s.eng e).remain).setBit (Reg.PLAN_ENGSTAT + 4 * e) 31 x).setBusy e false).dropPlanMove e)

theorem State.endSlice_eq (e : Nat) (x : Bool) : s.endSlice e x =
    (s.endEng e x).updTick fun t => { t with workEnd := max t.workEnd ((s.endEng e x).cycleTime (s.eng e).cycles) } := rfl

theorem State.reg_endSlice (e : Nat) (x : Bool) {a : Nat} (h : a < Reg.SHF_STAT) (ha : a ≠ Reg.PLAN_ENGSTAT + 4 * e) :
    (s.endSlice e x).reg a = s.reg a := by
  rw [State.endSlice_eq, State.reg_updTick]
  unfold State.endEng
  rw [State.reg_dropPlanMove _ _ (by simp only [Reg.CART_STAT, Reg.SHF_STAT] at *; omega), State.reg_setBusy _ _ _ h,
    State.reg_setBit_apart _ _ _ ha, State.reg_setFld_apart _ _ _ _ ha]
  rfl

theorem State.endSlice_engs (e : Nat) (x : Bool) :
    (s.endSlice e x).engs = s.engs.set e { s.eng e with running := false, waiting := none, loops := [] } := by
  rw [State.endSlice_eq]
  show (s.endEng e x).engs = _
  unfold State.endEng
  rw [State.dropPlanMove_engs, State.setBusy_engs]; rfl

theorem State.eng_endSlice (e : Nat) (x : Bool) (h : e < s.engs.length) :
    (s.endSlice e x).eng e = { s.eng e with running := false, waiting := none, loops := [] } := by
  rw [State.eng_of_engs (s := s.setEng e { s.eng e with running := false, waiting := none, loops := [] }) (s.endSlice_engs e x),
    State.eng_setEng _ _ _ h]

theorem State.eng_endSlice_apart (e k : Nat) (x : Bool) (h : k ≠ e) : (s.endSlice e x).eng k = s.eng k := by
  rw [State.eng_of_engs (s := s.setEng e { s.eng e with running := false, waiting := none, loops := [] }) (s.endSlice_engs e x),
    State.eng_setEng_apart _ _ _ _ h]

theorem State.bit_eq_getLsbD (a i : Nat) : s.bit a i = (s.reg a).getLsbD i := by
  show decide (s.fld a i 1 = 1) = _
  rw [show s.fld a i 1 = wordField (s.reg a) i 1 from rfl, wordField_eq, BitVec.getLsbD, Nat.testBit_eq_decide_div_mod_eq, Nat.pow_one]

theorem planFault_valid (s : State) (a b c : Nat) :
    (s.setReg Reg.PLAN_FAULT (BitVec.ofNat 32 (2 ^ 31 + a % 64 * 2 ^ 16 + b % 8 * 2 ^ 8 + c % 16))).bit Reg.PLAN_FAULT 31 = true := by
  have h : 2 ^ 31 ≤ 2 ^ 31 + a % 64 * 2 ^ 16 + b % 8 * 2 ^ 8 + c % 16 ∧ 2 ^ 31 + a % 64 * 2 ^ 16 + b % 8 * 2 ^ 8 + c % 16 < 2 ^ 32 := by omega
  generalize 2 ^ 31 + a % 64 * 2 ^ 16 + b % 8 * 2 ^ 8 + c % 16 = n at h
  rw [State.bit_eq_getLsbD, State.reg_setReg_self, BitVec.getLsbD_ofNat]
  have : n / 2 ^ 31 = 1 := by omega
  rw [Nat.testBit_eq_decide_div_mod_eq, this]; rfl

/-- What a fault that stops a slice leaves (R62, R149). -/
theorem State.faultSlice_facts (e cause addr : Nat) (h : e < s.engs.length) (he : e < 33) :
    let t := s.faultSlice e cause addr
    (t.eng e).running = false ∧ (∀ a, a < Reg.PLAN_STAT → eventReg a = false → t.reg a = s.reg a) ∧ t.bit Reg.PLAN_STAT 9 = true ∧
    t.bit Reg.PLAN_FAULT 31 = true ∧ (∃ l, t.posts = s.posts ++ l) ∧ (∀ k, k ≠ e → t.eng k = s.eng k) ∧
    ((s.moves.any fun m => m.1 + 22 = e && !m.2.fallow) = false → t.moves = s.moves) := by
  intro t
  let u1 := s
  let i : LogInfo := { source := e, addr := addr }
  let u2 := u1.planFault cause e (u1.eng e).variant (u1.eng e).pc i
  let u3 := u2.postRest e
  let u4 := u3.endSlice e (cause = 2)
  have he' : t = u4.holeAll 3 := rfl
  have hole := State.holeAll_eff (s := u4) (cause := 3) Sub.rfl Eff.refl
  have r4 : ∀ a, (u4.holeAll 3).reg a = u4.reg a := fun a => State.reg_of_regs (hole.regs rfl) a
  have e4 : ∀ k, (u4.holeAll 3).eng k = u4.eng k := fun k => State.eng_of_engs (hole.engs rfl) k
  have pf := State.planFault_eff (s := u1) (cause := cause) (engine := e) (variant := (u1.eng e).variant) (pc := (u1.eng e).pc) (i := i) Sub.rfl Eff.refl
  have pr := u2.postRest_for e
  have l2 : u2.engs = s.engs := pf.engs rfl
  have len : u3.engs.length = s.engs.length := by rw [pr.len, l2]
  have low : ∀ a, a < Reg.PLAN_ENGSTAT → t.reg a = u2.reg a := fun a ha => by
    rw [he', r4, State.reg_endSlice _ _ _ (by simp only [Reg.PLAN_ENGSTAT, Reg.SHF_STAT] at *; omega) (by omega),
      pr.reg _ (by simp only [Reg.PLAN_ENGSTAT, Reg.PLAN_KNOT] at *; omega)]
  let v1 := u1.logError 1 cause i
  let v2 := v1.raise .plan Reg.PLAN_STAT 9
  let v3 := (v2.setReg Reg.PLAN_FAULT (BitVec.ofNat 32 (2 ^ 31 + e % 64 * 2 ^ 16 + (u1.eng e).variant % 8 * 2 ^ 8 + cause % 16))).setReg Reg.PLAN_FAULTPC
    (BitVec.ofNat 32 (u1.eng e).pc)
  have hu2 : u2 = if v2.bit Reg.PLAN_FAULT 31 then v2 else
      v3.setReg Reg.PLAN_FAULTTICK (BitVec.ofNat 32 v3.tickNo) := rfl
  have keep : ∀ a, a ≠ Reg.PLAN_FAULT → a ≠ Reg.PLAN_FAULTPC → a ≠ Reg.PLAN_FAULTTICK → u2.reg a = v2.reg a := fun a h1 h2 h3 => by
    rw [hu2]; split
    · rfl
    · rw [State.reg_setReg_apart _ _ h3, State.reg_setReg_apart _ _ h2, State.reg_setReg_apart _ _ h1]
  refine ⟨?_, fun a ha hv => ?_, ?_, ?_, ?_, fun k hk => ?_, fun hm => ?_⟩
  · rw [he', e4, State.eng_endSlice _ _ _ (by rw [len]; exact h)]
  · rw [low _ (by simp only [Reg.PLAN_STAT, Reg.PLAN_ENGSTAT] at *; omega), keep _ (by simp only [Reg.PLAN_STAT, Reg.PLAN_FAULT] at *; omega)
      (by simp only [Reg.PLAN_STAT, Reg.PLAN_FAULTPC] at *; omega) (by simp only [Reg.PLAN_STAT, Reg.PLAN_FAULTTICK] at *; omega),
      State.reg_raise _ _ _ _ hv (by omega), State.reg_logError _ _ _ _ hv]
  · rw [State.bit_of_reg ((low _ (by decide)).trans (keep _ (by decide) (by decide) (by decide)))]
    exact State.bit_raise _ _ _ _ (by decide) (by decide)
  · rw [State.bit_of_reg (low _ (by decide)), hu2]
    split
    · assumption
    · rw [State.bit_setReg_apart _ _ _ (by decide), State.bit_setReg_apart _ _ _ (by decide)]
      exact planFault_valid v2 _ _ _
  · obtain ⟨l, hl⟩ := pr.posts
    refine ⟨l, ?_⟩
    rw [he', hole.posts rfl, (State.endSlice_eff Sub.rfl Eff.refl).posts rfl, hl, pf.posts rfl]
  · rw [he', e4, State.eng_endSlice_apart _ _ _ _ hk, pr.eng k hk, State.eng_of_engs l2]
  · have m3 : u3.moves = s.moves := ((State.postRest_eff (s := u2) (e := e) Sub.rfl Eff.refl).moves rfl).trans (pf.moves rfl)
    rw [he', hole.moves rfl]
    show (u3.endEng e (decide (cause = 2))).moves = _
    unfold State.endEng State.dropPlanMove
    split
    · next z =>
      rw [show ((((u3.setEng e { u3.eng e with running := false, waiting := none, loops := [] }).setFld (Reg.PLAN_ENGSTAT + 4 * e) 0 28
        (u3.eng e).remain).setBit (Reg.PLAN_ENGSTAT + 4 * e) 31 (decide (cause = 2))).setBusy e false).moves = u3.moves from
          (State.setBusy_eff Sub.rfl Eff.refl).moves rfl, m3, hm] at z
      cases z
    · rw [(State.setBusy_eff Sub.rfl Eff.refl).moves rfl]; exact m3

theorem State.exhaust_facts (e : Nat) (h : e < s.engs.length) (he : e < 33) :
    ((s.exhaust e).eng e).running = false ∧ (s.exhaust e).bit Reg.TICK_STAT 13 = true ∧ (s.exhaust e).bit Reg.PLAN_STAT 9 = true ∧
    (s.exhaust e).bit Reg.PLAN_FAULT 31 = true ∧ (∃ l, (s.exhaust e).posts = s.posts ++ l) ∧
    (∀ k, k ≠ e → (s.exhaust e).eng k = s.eng k) := by
  have l1 : ((s.updEng e fun g => { g with remain := 0 }).raise .tick Reg.TICK_STAT 13).engs = (s.updEng e fun g => { g with remain := 0 }).engs :=
    State.raise_engs _ _ _ _
  have k := State.faultSlice_facts ((s.updEng e fun g => { g with remain := 0 }).raise .tick Reg.TICK_STAT 13) e 2 0
    (by rw [l1]; exact Nat.lt_of_lt_of_eq h (State.setEng_length s e _).symm) he
  refine ⟨k.1, ?_, k.2.2.1, k.2.2.2.1, ?_, fun j hj => ?_⟩
  · rw [show s.exhaust e = ((s.updEng e fun g => { g with remain := 0 }).raise .tick Reg.TICK_STAT 13).faultSlice e 2 0 from rfl,
      State.bit_of_reg (k.2.1 _ (by decide) (by decide))]
    exact State.bit_raise _ _ _ _ (by decide) (by decide)
  · obtain ⟨l, hl⟩ := k.2.2.2.2.1
    exact ⟨l, hl.trans (by rw [State.raise_posts]; rfl)⟩
  · rw [show s.exhaust e = ((s.updEng e fun g => { g with remain := 0 }).raise .tick Reg.TICK_STAT 13).faultSlice e 2 0 from rfl,
      k.2.2.2.2.2.1 j hj, State.eng_of_engs l1]
    exact State.eng_setEng_apart _ _ _ _ hj

end Sys2Proof.Machine
end

