-- ==== Sys2Proof/Laws/Exec.lean ====
section
/-!
SUPPORT. Laws/Exec.lean: the meaning that each command calls, so that a proof about one command never unfolds the dispatch.
-/
namespace Sys2Proof.Machine

variable (s : State)

@[simp] theorem exec_tickEdge : exec .tickEdge s = execTickEdge s := rfl
@[simp] theorem exec_fallowOpening : exec .fallowOpening s = execFallowOpening s := rfl
@[simp] theorem exec_armingStep : exec .armingStep s = execArmingStep s := rfl
@[simp] theorem exec_sliceBudgetExhausted (e : EngineId) : exec (.sliceBudgetExhausted e) s = execSliceBudgetExhausted e s := rfl
@[simp] theorem exec_portFrameSync (port : Fin 4) (t : Nat) : exec (.portFrameSync port t) s = execPortFrameSync port t s := rfl
@[simp] theorem exec_lockAcquired : exec .lockAcquired s = execLockAcquired s := rfl
@[simp] theorem exec_holdover : exec .holdover s = execHoldover s := rfl
@[simp] theorem exec_tickSyncPulse (t : Nat) : exec (.tickSyncPulse t) s = execTickSyncPulse t s := rfl
@[simp] theorem exec_syncPulseTimeout : exec .syncPulseTimeout s = execSyncPulseTimeout s := rfl
@[simp] theorem exec_workendTimeout (chip : Fin 4) : exec (.workendTimeout chip) s = execWorkendTimeout chip s := rfl
@[simp] theorem exec_tickRunStart (i : Iface) (shedAlert : Bool) : exec (.tickRunStart i shedAlert) s = execTickRunStart i shedAlert s := rfl
@[simp] theorem exec_tickRunStop (i : Iface) (shedAlert : Bool) : exec (.tickRunStop i shedAlert) s = execTickRunStop i shedAlert s := rfl
@[simp] theorem exec_registerWrite (i : Iface) (off : BitVec 24) (v : Word) : exec (.registerWrite i off v) s = execRegisterWrite i off v s := rfl
@[simp] theorem exec_rwtApplyWhileStopped (i : Iface) (off : BitVec 24) (v : Word) : exec (.rwtApplyWhileStopped i off v) s = execRwtApplyWhileStopped i off v s := rfl
@[simp] theorem exec_pairLowRead (i : Iface) (off : BitVec 24) : exec (.pairLowRead i off) s = execPairLowRead i off s := rfl
@[simp] theorem exec_pairLowWrite (i : Iface) (off : BitVec 24) (v : Word) : exec (.pairLowWrite i off v) s = execPairLowWrite i off v s := rfl
@[simp] theorem exec_pairHighWrite (i : Iface) (off : BitVec 24) (v : Word) : exec (.pairHighWrite i off v) s = execPairHighWrite i off v s := rfl
@[simp] theorem exec_end_ (e : EngineId) : exec (.end_ e) s = execEnd e s := rfl
@[simp] theorem exec_loop (e : EngineId) (count len : BitVec 16) : exec (.loop e count len) s = execLoop e count len s := rfl
@[simp] theorem exec_idle (e : EngineId) (count : BitVec 16) : exec (.idle e count) s = execIdle e count s := rfl
@[simp] theorem exec_fixjob (e : EngineId) (job : BitVec 16) : exec (.fixjob e job) s = execFixjob e job s := rfl
@[simp] theorem exec_post (e : EngineId) (knot : BitVec 6) (value step : BitVec 16) : exec (.post e knot value step) s = execPost e knot value step s := rfl
@[simp] theorem exec_wait (e : EngineId) (knot : BitVec 6) (value step : BitVec 16) : exec (.wait e knot value step) s = execWait e knot value step s := rfl
@[simp] theorem exec_waitSatisfied (e : EngineId) : exec (.waitSatisfied e) s = execWaitSatisfied e s := rfl
@[simp] theorem exec_mmul (n : Fin 16) (f : TFields) : exec (.mmul n f) s = execMmul n f s := rfl
@[simp] theorem exec_accout (n : Fin 16) (f : TFields) : exec (.accout n f) s = execAccout n f s := rfl
@[simp] theorem exec_gate (n : Fin 16) (f : TFields) : exec (.gate n f) s = execGate n f s := rfl
@[simp] theorem exec_vadd (n : Fin 16) (f : TFields) : exec (.vadd n f) s = execVadd n f s := rfl
@[simp] theorem exec_vmul (n : Fin 16) (f : TFields) : exec (.vmul n f) s = execVmul n f s := rfl
@[simp] theorem exec_vlut (n : Fin 16) (f : TFields) : exec (.vlut n f) s = execVlut n f s := rfl
@[simp] theorem exec_vnorm (n : Fin 16) (f : TFields) : exec (.vnorm n f) s = execVnorm n f s := rfl
@[simp] theorem exec_vmask (n : Fin 16) (f : TFields) : exec (.vmask n f) s = execVmask n f s := rfl
@[simp] theorem exec_sattn (n : Fin 2) (f : TFields) : exec (.sattn n f) s = execSattn n f s := rfl
@[simp] theorem exec_fattn (n : Fin 16) (f : TFields) : exec (.fattn n f) s = execFattn n f s := rfl
@[simp] theorem exec_sumsc (n : Fin 2) (f : TFields) : exec (.sumsc n f) s = execSumsc n f s := rfl
@[simp] theorem exec_sprob (n : Fin 2) (f : TFields) : exec (.sprob n f) s = execSprob n f s := rfl
@[simp] theorem exec_scan (f : TFields) : exec (.scan f) s = execScan f s := rfl
@[simp] theorem exec_topk (f : TFields) : exec (.topk f) s = execTopk f s := rfl
@[simp] theorem exec_beam (f : TFields) : exec (.beam f) s = execBeam f s := rfl
@[simp] theorem exec_pagesel (f : TFields) : exec (.pagesel f) s = execPagesel f s := rfl
@[simp] theorem exec_sample (f : TFields) : exec (.sample f) s = execSample f s := rfl
@[simp] theorem exec_hrot (n : Fin 2) (f : TFields) : exec (.hrot n f) s = execHrot n f s := rfl
@[simp] theorem exec_req (n : Fin 2) (f : TFields) : exec (.req n f) s = execReq n f s := rfl
@[simp] theorem exec_kvapp (n : Fin 2) (f : TFields) : exec (.kvapp n f) s = execKvapp n f s := rfl
@[simp] theorem exec_move (cart : Fin 8) (mdesc : BitVec 12) (srcStep dstStep : BitVec 16) : exec (.move cart mdesc srcStep dstStep) s = execMove cart mdesc srcStep dstStep s := rfl
@[simp] theorem exec_moveCommit (cart : Fin 8) (a : CommitAnswer) : exec (.moveCommit cart a) s = execMoveCommit cart a s := rfl
@[simp] theorem exec_moveSourceError (cart : Fin 8) (addr : BitVec 44) : exec (.moveSourceError cart addr) s = execMoveSourceError cart addr s := rfl
@[simp] theorem exec_bar0BadAccess (write : Bool) (off : BitVec 24) (dwords : Nat) : exec (.bar0BadAccess write off dwords) s = execBar0BadAccess write off dwords s := rfl
@[simp] theorem exec_bar2Read (off : BitVec 26) (len : Nat) : exec (.bar2Read off len) s = execBar2Read off len s := rfl
@[simp] theorem exec_bar2Write (off : BitVec 26) (bytes : List Byte) : exec (.bar2Write off bytes) s = execBar2Write off bytes s := rfl
@[simp] theorem exec_hostSideReset (why : HostReset) : exec (.hostSideReset why) s = execHostSideReset why s := rfl
@[simp] theorem exec_perstAssert : exec .perstAssert s = execPerstAssert s := rfl
@[simp] theorem exec_queueEnable (i : Iface) (q : Fin 16) (v : Word) : exec (.queueEnable i q v) s = execQueueEnable i q v s := rfl
@[simp] theorem exec_queueReset (i : Iface) (q : Fin 16) (v : Word) : exec (.queueReset i q v) s = execQueueReset i q v s := rfl
@[simp] theorem exec_sqDoorbell (i : Iface) (q : Fin 16) (index : BitVec 16) (placed : List HostBytes) : exec (.sqDoorbell i q index placed) s = execSqDoorbell i q index placed s := rfl
@[simp] theorem exec_cqDoorbell (i : Iface) (q : Fin 16) (index : BitVec 16) : exec (.cqDoorbell i q index) s = execCqDoorbell i q index s := rfl
@[simp] theorem exec_requestFetch (a : HostAnswer) : exec (.requestFetch a) s = execRequestFetch a s := rfl
@[simp] theorem exec_nop (q : Fin 16) (tag : BitVec 16) : exec (.nop q tag) s = execNop q tag s := rfl
@[simp] theorem exec_query (q : Fin 16) (tag : BitVec 16) : exec (.query q tag) s = execQuery q tag s := rfl
@[simp] theorem exec_abort (q : Fin 16) (tag : BitVec 16) : exec (.abort q tag) s = execAbort q tag s := rfl
@[simp] theorem exec_planLoad (q : Fin 16) (tag : BitVec 16) : exec (.planLoad q tag) s = execPlanLoad q tag s := rfl
@[simp] theorem exec_planActivate (q : Fin 16) (tag : BitVec 16) : exec (.planActivate q tag) s = execPlanActivate q tag s := rfl
@[simp] theorem exec_planDiscard (q : Fin 16) (tag : BitVec 16) : exec (.planDiscard q tag) s = execPlanDiscard q tag s := rfl
@[simp] theorem exec_streamOpen (q : Fin 16) (tag : BitVec 16) : exec (.streamOpen q tag) s = execStreamOpen q tag s := rfl
@[simp] theorem exec_streamClose (q : Fin 16) (tag : BitVec 16) : exec (.streamClose q tag) s = execStreamClose q tag s := rfl
@[simp] theorem exec_streamPause (q : Fin 16) (tag : BitVec 16) : exec (.streamPause q tag) s = execStreamPause q tag s := rfl
@[simp] theorem exec_streamResume (q : Fin 16) (tag : BitVec 16) : exec (.streamResume q tag) s = execStreamResume q tag s := rfl
@[simp] theorem exec_streamAbort (q : Fin 16) (tag : BitVec 16) : exec (.streamAbort q tag) s = execStreamAbort q tag s := rfl
@[simp] theorem exec_stateExport (q : Fin 16) (tag : BitVec 16) : exec (.stateExport q tag) s = execStateExport q tag s := rfl
@[simp] theorem exec_migrate (q : Fin 16) (tag : BitVec 16) : exec (.migrate q tag) s = execMigrate q tag s := rfl
@[simp] theorem exec_audioBind (q : Fin 16) (tag : BitVec 16) : exec (.audioBind q tag) s = execAudioBind q tag s := rfl
@[simp] theorem exec_audioUnbind (q : Fin 16) (tag : BitVec 16) : exec (.audioUnbind q tag) s = execAudioUnbind q tag s := rfl
@[simp] theorem exec_overlay (q : Fin 16) (tag : BitVec 16) : exec (.overlay q tag) s = execOverlay q tag s := rfl
@[simp] theorem exec_completionPost (q : Fin 16) (a : HostAnswer) : exec (.completionPost q a) s = execCompletionPost q a s := rfl
@[simp] theorem exec_resultPost : exec .resultPost s = execResultPost s := rfl
@[simp] theorem exec_heldResultFlush (q : Fin 16) : exec (.heldResultFlush q) s = execHeldResultFlush q s := rfl
@[simp] theorem exec_qmodTimeout (q : Fin 16) : exec (.qmodTimeout q) s = execQmodTimeout q s := rfl
@[simp] theorem exec_gydanWrite (port : Fin 3) (cls : Fin 2) (moveId arg : BitVec 32) (bytes : List Byte) : exec (.gydanWrite port cls moveId arg bytes) s = execGydanWrite port cls moveId arg bytes s := rfl
@[simp] theorem exec_gydanSeal (port : Fin 3) (cls : Fin 2) (moveId lines : BitVec 32) : exec (.gydanSeal port cls moveId lines) s = execGydanSeal port cls moveId lines s := rfl
@[simp] theorem exec_gydanReleased (port : Fin 3) (cls : Fin 2) (moveId : BitVec 32) : exec (.gydanReleased port cls moveId) s = execGydanReleased port cls moveId s := rfl
@[simp] theorem exec_gydanDiscard (port : Fin 3) (cls : Fin 2) (moveId : BitVec 32) : exec (.gydanDiscard port cls moveId) s = execGydanDiscard port cls moveId s := rfl
@[simp] theorem exec_gydanPull (port : Fin 3) (cls : Fin 2) (moveId : BitVec 32) (src dst lines : Nat) : exec (.gydanPull port cls moveId src dst lines) s = execGydanPull port cls moveId src dst lines s := rfl
@[simp] theorem exec_gydanCommit (port : Fin 3) (cls : Fin 2) (moveId : BitVec 32) : exec (.gydanCommit port cls moveId) s = execGydanCommit port cls moveId s := rfl
@[simp] theorem exec_gydanRefuse (port : Fin 3) (cls : Fin 2) (moveId arg : BitVec 32) : exec (.gydanRefuse port cls moveId arg) s = execGydanRefuse port cls moveId arg s := rfl
@[simp] theorem exec_ask (port : Fin 3) (a : AskBody) : exec (.ask port a) s = execAsk port a s := rfl
@[simp] theorem exec_answer (port : Fin 3) (sc : Fin 64) (a : AnswerBody) : exec (.answer port sc a) s = execAnswer port sc a s := rfl
@[simp] theorem exec_answerTimeout (sc : Fin 64) : exec (.answerTimeout sc) s = execAnswerTimeout sc s := rfl
@[simp] theorem exec_report (port : Fin 3) (cap estimate workEnd : Nat) : exec (.report port cap estimate workEnd) s = execReport port cap estimate workEnd s := rfl
@[simp] theorem exec_share (port : Fin 3) (mw period : Nat) : exec (.share port mw period) s = execShare port mw period s := rfl
@[simp] theorem exec_workend (port : Fin 3) (tick x : Nat) : exec (.workend port tick x) s = execWorkend port tick x s := rfl
@[simp] theorem exec_classmsg (port : Fin 3) (tick cls lag mask : Nat) : exec (.classmsg port tick cls lag mask) s = execClassmsg port tick cls lag mask s := rfl
@[simp] theorem exec_rejoin (port : Fin 3) : exec (.rejoin port) s = execRejoin port s := rfl
@[simp] theorem exec_memberEject (chip : Fin 4) : exec (.memberEject chip) s = execMemberEject chip s := rfl
@[simp] theorem exec_leave (port : Fin 3) : exec (.leave port) s = execLeave port s := rfl
@[simp] theorem exec_eject (port : Fin 3) (chip : Fin 4) (incarnation : BitVec 32) : exec (.eject port chip incarnation) s = execEject port chip incarnation s := rfl
@[simp] theorem exec_reqfwd (port : Fin 3) (record : List Byte) : exec (.reqfwd port record) s = execReqfwd port record s := rfl
@[simp] theorem exec_reqdone (port : Fin 3) (record : List Byte) : exec (.reqdone port record) s = execReqdone port record s := rfl
@[simp] theorem exec_result (port : Fin 3) (sc : Fin 64) (records : List (List Byte)) : exec (.result port sc records) s = execResult port sc records s := rfl
@[simp] theorem exec_locate (port : Fin 3) (sc : Fin 64) (chip : Fin 4) : exec (.locate port sc chip) s = execLocate port sc chip s := rfl
@[simp] theorem exec_flitReceive (port : Fin 3) (f : Flit) : exec (.flitReceive port f) s = execFlitReceive port f s := rfl
@[simp] theorem exec_ackTimeout (port : Fin 3) : exec (.ackTimeout port) s = execAckTimeout port s := rfl
@[simp] theorem exec_gdnEnable (i : Iface) (port : Fin 3) (v : Word) : exec (.gdnEnable i port v) s = execGdnEnable i port v s := rfl
@[simp] theorem exec_gdnRetrain (i : Iface) (port : Fin 3) (v : Word) : exec (.gdnRetrain i port v) s = execGdnRetrain i port v s := rfl
@[simp] theorem exec_blockLockAcquired (port : Fin 3) : exec (.blockLockAcquired port) s = execBlockLockAcquired port s := rfl
@[simp] theorem exec_deskewDone (port : Fin 3) (skew : Fin 9) (reversed : Bool) (polarity : BitVec 4) : exec (.deskewDone port skew reversed polarity) s = execDeskewDone port skew reversed polarity s := rfl
@[simp] theorem exec_paramReceive (port : Fin 3) (p : ParamFlit) : exec (.paramReceive port p) s = execParamReceive port p s := rfl
@[simp] theorem exec_trainingLimit (port : Fin 3) : exec (.trainingLimit port) s = execTrainingLimit port s := rfl
@[simp] theorem exec_laneLockLoss (port : Fin 3) (lane : Fin 4) : exec (.laneLockLoss port lane) s = execLaneLockLoss port lane s := rfl
@[simp] theorem exec_markerError (port : Fin 3) : exec (.markerError port) s = execMarkerError port s := rfl
@[simp] theorem exec_peerLossTimeout (port : Fin 3) : exec (.peerLossTimeout port) s = execPeerLossTimeout port s := rfl
@[simp] theorem exec_sensorRead (readings : List SensorReading) : exec (.sensorRead readings) s = execSensorRead readings s := rfl
@[simp] theorem exec_thermalDerateStep : exec .thermalDerateStep s = execThermalDerateStep s := rfl
@[simp] theorem exec_pmbusPeriod (readings : List RailReading) (lengthened : Bool) : exec (.pmbusPeriod readings lengthened) s = execPmbusPeriod readings lengthened s := rfl
@[simp] theorem exec_pmbAlert (status : List Word) : exec (.pmbAlert status) s = execPmbAlert status s := rfl
@[simp] theorem exec_powerShareInterval (raw : RawEstimate) : exec (.powerShareInterval raw) s = execPowerShareInterval raw s := rfl
@[simp] theorem exec_calibrationFit : exec .calibrationFit s = execCalibrationFit s := rfl
@[simp] theorem exec_voltageSelection (readBack : Option Nat) : exec (.voltageSelection readBack) s = execVoltageSelection readBack s := rfl
@[simp] theorem exec_capWrite (i : Iface) (v : Word) : exec (.capWrite i v) s = execCapWrite i v s := rfl
@[simp] theorem exec_stookSharePeriod : exec .stookSharePeriod s = execStookSharePeriod s := rfl
@[simp] theorem exec_shareTimeout : exec .shareTimeout s = execShareTimeout s := rfl
@[simp] theorem exec_controlCoreRestart (core : Fin 6) : exec (.controlCoreRestart core) s = execControlCoreRestart core s := rfl
@[simp] theorem exec_coreReturn (core : Fin 6) : exec (.coreReturn core) s = execCoreReturn core s := rfl
@[simp] theorem exec_cc3ReleaseOverrun : exec .cc3ReleaseOverrun s = execCc3ReleaseOverrun s := rfl
@[simp] theorem exec_firmwareReset (why : FwResetCause) : exec (.firmwareReset why) s = execFirmwareReset why s := rfl
@[simp] theorem exec_systemReset (why : SysResetCause) : exec (.systemReset why) s = execSystemReset why s := rfl
@[simp] theorem exec_resetNAssert : exec .resetNAssert s = execResetNAssert s := rfl
@[simp] theorem exec_onReqChange (level : Bool) : exec (.onReqChange level) s = execOnReqChange level s := rfl
@[simp] theorem exec_powerupStart : exec .powerupStart s = execPowerupStart s := rfl
@[simp] theorem exec_releaseStep (pins : BootPins) : exec (.releaseStep pins) s = execReleaseStep pins s := rfl
@[simp] theorem exec_ready (flash : List HostBytes) : exec (.ready flash) s = execReady flash s := rfl
@[simp] theorem exec_powerdownOff : exec .powerdownOff s = execPowerdownOff s := rfl
@[simp] theorem exec_supplyLoss (aonToo : Bool) : exec (.supplyLoss aonToo) s = execSupplyLoss aonToo s := rfl
@[simp] theorem exec_aonToKeep (keepMv : Nat) : exec (.aonToKeep keepMv) s = execAonToKeep keepMv s := rfl
@[simp] theorem exec_aonStart : exec .aonStart s = execAonStart s := rfl
@[simp] theorem exec_keepSample (mv : Nat) (current : Int) : exec (.keepSample mv current) s = execKeepSample mv current s := rfl
@[simp] theorem exec_presenceProbe (mv : Nat) : exec (.presenceProbe mv) s = execPresenceProbe mv s := rfl
@[simp] theorem exec_audioFrame (port : Fin 4) (f : TdmFrame) : exec (.audioFrame port f) s = execAudioFrame port f s := rfl
@[simp] theorem exec_nonaudioHoldExpiry (port : Fin 4) (slot : Fin 32) : exec (.nonaudioHoldExpiry port slot) s = execNonaudioHoldExpiry port slot s := rfl
@[simp] theorem exec_rateWindow (port : Fin 4) (frames cycles : Nat) : exec (.rateWindow port frames cycles) s = execRateWindow port frames cycles s := rfl
@[simp] theorem exec_audioNoclk (port : Fin 4) : exec (.audioNoclk port) s = execAudioNoclk port s := rfl
@[simp] theorem exec_camFrameStart (vc : Fin 4) : exec (.camFrameStart vc) s = execCamFrameStart vc s := rfl
@[simp] theorem exec_camLongPacket (p : LongPacket) : exec (.camLongPacket p) s = execCamLongPacket p s := rfl
@[simp] theorem exec_camFrameEnd (vc : Fin 4) : exec (.camFrameEnd vc) s = execCamFrameEnd vc s := rfl
@[simp] theorem exec_camNoFrame : exec .camNoFrame s = execCamNoFrame s := rfl
@[simp] theorem exec_hspNop (h : HspHead) : exec (.hspNop h) s = execHspNop h s := rfl
@[simp] theorem exec_hspRd (h : HspHead) (off : BitVec 24) (count : Nat) : exec (.hspRd h off count) s = execHspRd h off count s := rfl
@[simp] theorem exec_hspWr (h : HspHead) (off : BitVec 24) (words : HspWords) : exec (.hspWr h off words) s = execHspWr h off words s := rfl
@[simp] theorem exec_hspMrd (h : HspHead) (addr : BitVec 26) (count : Nat) : exec (.hspMrd h addr count) s = execHspMrd h addr count s := rfl
@[simp] theorem exec_hspMwr (h : HspHead) (addr : BitVec 26) (words : HspWords) : exec (.hspMwr h addr words) s = execHspMwr h addr words s := rfl
@[simp] theorem exec_hspRepeat (h : HspHead) : exec (.hspRepeat h) s = execHspRepeat h s := rfl
@[simp] theorem exec_hspCfgApply : exec .hspCfgApply s = execHspCfgApply s := rfl
@[simp] theorem exec_pspTransferStart (i : Iface) (v : Word) : exec (.pspTransferStart i v) s = execPspTransferStart i v s := rfl
@[simp] theorem exec_pspTransferDone (received : List Byte) : exec (.pspTransferDone received) s = execPspTransferDone received s := rfl
@[simp] theorem exec_flashBusyTimeout : exec .flashBusyTimeout s = execFlashBusyTimeout s := rfl
@[simp] theorem exec_nvcUpdateUser (i : Iface) (v : Word) (source : List HostBytes) (a : HostAnswer) : exec (.nvcUpdateUser i v source a) s = execNvcUpdateUser i v source a s := rfl
@[simp] theorem exec_nvcUpdateFactory (i : Iface) (v : Word) (source : List HostBytes) (a : HostAnswer) : exec (.nvcUpdateFactory i v source a) s = execNvcUpdateFactory i v source a s := rfl
@[simp] theorem exec_nvcHostBoot (i : Iface) (v : Word) (source : List HostBytes) (a : HostAnswer) : exec (.nvcHostBoot i v source a) s = execNvcHostBoot i v source a s := rfl
@[simp] theorem exec_nvcUpdateDone (flashOk : Bool) : exec (.nvcUpdateDone flashOk) s = execNvcUpdateDone flashOk s := rfl
@[simp] theorem exec_glnEvacGo (i : Iface) (v : Word) : exec (.glnEvacGo i v) s = execGlnEvacGo i v s := rfl
@[simp] theorem exec_secProvision (i : Iface) (v : Word) : exec (.secProvision i v) s = execSecProvision i v s := rfl
@[simp] theorem exec_debugLock (i : Iface) (v : Word) : exec (.debugLock i v) s = execDebugLock i v s := rfl
@[simp] theorem exec_logTailWrite (i : Iface) (violation : Bool) (v : Word) : exec (.logTailWrite i violation v) s = execLogTailWrite i violation v s := rfl
@[simp] theorem exec_pinHoldExpiry (alert : Bool) : exec (.pinHoldExpiry alert) s = execPinHoldExpiry alert s := rfl
@[simp] theorem exec_tapReset : exec .tapReset s = execTapReset s := rfl
@[simp] theorem exec_idcode : exec .idcode s = execIdcode s := rfl
@[simp] theorem exec_samplePreload (pads cells : BitVec 79) : exec (.samplePreload pads cells) s = execSamplePreload pads cells s := rfl
@[simp] theorem exec_extest (pads : BitVec 79) : exec (.extest pads) s = execExtest pads s := rfl
@[simp] theorem exec_highz : exec .highz s = execHighz s := rfl
@[simp] theorem exec_clamp : exec .clamp s = execClamp s := rfl
@[simp] theorem exec_debug : exec .debug s = execDebug s := rfl
@[simp] theorem exec_bypass : exec .bypass s = execBypass s := rfl
@[simp] theorem exec_retentionSentinelSet : exec .retentionSentinelSet s = execRetentionSentinelSet s := rfl
@[simp] theorem exec_refreshRateChange (x2 x4 : Bool) : exec (.refreshRateChange x2 x4) s = execRefreshRateChange x2 x4 s := rfl
@[simp] theorem exec_pcieLinkUp (width speed : Nat) : exec (.pcieLinkUp width speed) s = execPcieLinkUp width speed s := rfl
@[simp] theorem exec_hspRejectedFrame (h : HspHead) (extra : Nat) (words : HspWords) : exec (.hspRejectedFrame h extra words) s = execHspRejectedFrame h extra words s := rfl

end Sys2Proof.Machine
end

