-- ==== Sys2Proof/Laws/Kept.lean ====
section
/-!
SUPPORT. Laws/Kept.lean: what every meaning keeps, as one predicate over a state: its queue is a given one and the state is sound.  The
lemmas here take the shapes of definitions apart; the files Laws/Keeps*.lean say it of each definition, in the order of the machine.
-/
namespace Sys2Proof.Machine

/-- The queue of a state is `q`, and the state is sound. -/
structure Kept (q : List Instr) (s : State) : Prop where
  pending : s.pending = q
  regs : cellWf s.regs = true
  hiLatch : cellWf s.hiLatch = true
  t0 : cellWf s.t0 = true
  t1 : cellWf s.t1 = true
  host : cellWf s.host = true
  flash : cellWf s.nv.flash = true
  streams : keyRising 0 s.streams = true
  banks : keyRising 0 s.banks = true
  engs : s.engs.length = 33
  queues : s.queues.length = 20
  ports : s.ports.length = 3

theorem kept_iff (q : List Instr) (s : State) : Kept q s ↔ s.pending = q ∧ s.sound = true := by
  simp only [State.sound, Bool.and_eq_true, decide_eq_true_eq]
  constructor
  · intro h; exact ⟨h.pending, ⟨⟨⟨⟨⟨⟨⟨⟨⟨⟨h.regs, h.hiLatch⟩, h.t0⟩, h.t1⟩, h.host⟩, h.flash⟩, h.streams⟩, h.banks⟩, h.engs⟩, h.queues⟩, h.ports⟩⟩
  · rintro ⟨h, ⟨⟨⟨⟨⟨⟨⟨⟨⟨⟨h1, h2⟩, h3⟩, h4⟩, h5⟩, h6⟩, h7⟩, h8⟩, h9⟩, h10⟩, h11⟩⟩
    exact ⟨h, h1, h2, h3, h4, h5, h6, h7, h8, h9, h10, h11⟩

/-- What an optional state keeps. -/
structure KeptO (q : List Instr) (o : Option State) : Prop where
  kept : ∀ t, o = some t → Kept q t

/-- What an optional value with a state keeps. -/
structure KeptON {α : Type} (q : List Instr) (o : Option (α × State)) : Prop where
  kept : ∀ r, o = some r → Kept q r.2

/-- What the outcome of a meaning keeps. -/
structure KeptX (q : List Instr) (o : Host.Outcome State Fault Refusal) : Prop where
  kept : ∀ t, o = .next t → Kept q t

/-- Registers after reset are in canonical form. -/
theorem resetRegCells_wf : cellWf resetRegCells = true := by decide +kernel

/-- The state after reset is sound, and its queue is empty. -/
theorem reset_sound : Kept [] State.reset where
  pending := rfl
  regs := resetRegCells_wf
  hiLatch := rfl
  t0 := rfl
  t1 := rfl
  host := rfl
  flash := rfl
  streams := rfl
  banks := rfl
  engs := rfl
  queues := rfl
  ports := rfl

variable {q : List Instr}

/-! ### Leaves -/

/-- An update, written out, of fields that soundness does not look at. -/
theorem Kept.lit {s : State} {pending' : List Instr} {free' : Nat} {now' : Nat} {regs' : Cells 32} {rwtHeld' : List (Nat × Word
    × Word)} {hiLatch' : Cells 32} {lowHeld' : List (Nat × Word)} {tick' : TickState} {active' : Option Plan} {pendingPlan' :
    Option Plan} {activating' : Option (Nat × Nat)} {load' : Option LoadJob} {deactivate' : Bool} {engs' : List EngState}
    {posts' : List KnotPost} {nextKnots' : List Nat} {banks' : List (Nat × AccBank)} {bankFlips' : List (Nat × BitFlips)} {rows'
    : List (Nat × Nat)} {nextRows' : Option (List (Nat × Nat))} {unreadRows' : List Nat} {unreadAll' : Bool} {resultsDone' :
    Bool} {t0' : Cells 8} {t0Poison' : List Nat} {t0Flips' : List (Nat × BitFlips)} {writeBack' : List Nat} {scrubAt' : Nat}
    {t1' : Cells 8} {t1Read' : List (Nat × BurstFault)} {t1Write' : List (Nat × BurstFault)} {host' : Cells 8} {hostErrs' : List
    (Nat × Nat)} {moves' : List (Nat × Move)} {budget' : Nat} {lookAside' : List (Nat × Nat × Nat)} {glnHit' : Nat} {glnMiss' :
    Nat} {glnBad' : Nat} {ringHome' : Option Nat} {streams' : List (Nat × Stream)} {lateSc' : List Nat} {orphans' : List (Nat ×
    List Byte)} {restarting' : List Nat} {queues' : List Queue} {exports' : List ExportJob} {openings' : List OpenJob} {turn' :
    Nat} {staging' : Option (Nat × Nat)} {stagingDue' : Option (Nat × Nat)} {msixOn' : Bool} {msixMask' : Bool} {logSeq' : Nat}
    {alertLow' : Bool} {alertAt' : Nat} {diagLow' : Bool} {diagAt' : Nat} {ports' : List Port} {lostIncarn' : List (Nat × Nat)}
    {lossDue' : List Nat} {grants' : List Grant} {rxMoves' : List RxMove} {txMoves' : List TxMove} {nextMoveId' : Nat}
    {pullsDue' : List TxMove} {migrations' : List Migration} {power' : PowerState} {audio' : AudioState} {cam' : CamState} {aon'
    : AonState} {nv' : NvState} {hsp' : HspState} {psp' : Option PspJob} {jtag' : JtagState} {firstRestart' : List (Nat × Nat)}
    {firmwareAt' : Option Nat} {sent' : List Sent}
    (h : Kept q s) (epending : s.pending = pending') (eregs : s.regs = regs') (ehiLatch : s.hiLatch = hiLatch') (et0 : s.t0 =
    t0') (et1 : s.t1 = t1') (ehost : s.host = host') (estreams : s.streams = streams') (ebanks : s.banks = banks') (eengs :
    s.engs = engs') (equeues : s.queues = queues') (eports : s.ports = ports') (eflash : s.nv.flash = nv'.flash) :
    Kept q ⟨pending', free', now', regs', rwtHeld', hiLatch', lowHeld', tick', active', pendingPlan', activating', load',
    deactivate', engs', posts', nextKnots', banks', bankFlips', rows', nextRows', unreadRows', unreadAll', resultsDone', t0',
    t0Poison', t0Flips', writeBack', scrubAt', t1', t1Read', t1Write', host', hostErrs', moves', budget', lookAside', glnHit',
    glnMiss', glnBad', ringHome', streams', lateSc', orphans', restarting', queues', exports', openings', turn', staging',
    stagingDue', msixOn', msixMask', logSeq', alertLow', alertAt', diagLow', diagAt', ports', lostIncarn', lossDue', grants',
    rxMoves', txMoves', nextMoveId', pullsDue', migrations', power', audio', cam', aon', nv', hsp', psp', jtag', firstRestart',
    firmwareAt', sent'⟩ := by
  subst_vars
  exact ⟨h.pending, h.regs, h.hiLatch, h.t0, h.t1, h.host, eflash ▸ h.flash, h.streams, h.banks, h.engs, h.queues, h.ports⟩

/-- The same, where a stream leaves. -/
theorem Kept.litDel {s : State} {sc : Nat} {pending' : List Instr} {free' : Nat} {now' : Nat} {regs' : Cells 32} {rwtHeld' : List (Nat × Word
    × Word)} {hiLatch' : Cells 32} {lowHeld' : List (Nat × Word)} {tick' : TickState} {active' : Option Plan} {pendingPlan' :
    Option Plan} {activating' : Option (Nat × Nat)} {load' : Option LoadJob} {deactivate' : Bool} {engs' : List EngState}
    {posts' : List KnotPost} {nextKnots' : List Nat} {banks' : List (Nat × AccBank)} {bankFlips' : List (Nat × BitFlips)} {rows'
    : List (Nat × Nat)} {nextRows' : Option (List (Nat × Nat))} {unreadRows' : List Nat} {unreadAll' : Bool} {resultsDone' :
    Bool} {t0' : Cells 8} {t0Poison' : List Nat} {t0Flips' : List (Nat × BitFlips)} {writeBack' : List Nat} {scrubAt' : Nat}
    {t1' : Cells 8} {t1Read' : List (Nat × BurstFault)} {t1Write' : List (Nat × BurstFault)} {host' : Cells 8} {hostErrs' : List
    (Nat × Nat)} {moves' : List (Nat × Move)} {budget' : Nat} {lookAside' : List (Nat × Nat × Nat)} {glnHit' : Nat} {glnMiss' :
    Nat} {glnBad' : Nat} {ringHome' : Option Nat} {streams' : List (Nat × Stream)} {lateSc' : List Nat} {orphans' : List (Nat ×
    List Byte)} {restarting' : List Nat} {queues' : List Queue} {exports' : List ExportJob} {openings' : List OpenJob} {turn' :
    Nat} {staging' : Option (Nat × Nat)} {stagingDue' : Option (Nat × Nat)} {msixOn' : Bool} {msixMask' : Bool} {logSeq' : Nat}
    {alertLow' : Bool} {alertAt' : Nat} {diagLow' : Bool} {diagAt' : Nat} {ports' : List Port} {lostIncarn' : List (Nat × Nat)}
    {lossDue' : List Nat} {grants' : List Grant} {rxMoves' : List RxMove} {txMoves' : List TxMove} {nextMoveId' : Nat}
    {pullsDue' : List TxMove} {migrations' : List Migration} {power' : PowerState} {audio' : AudioState} {cam' : CamState} {aon'
    : AonState} {nv' : NvState} {hsp' : HspState} {psp' : Option PspJob} {jtag' : JtagState} {firstRestart' : List (Nat × Nat)}
    {firmwareAt' : Option Nat} {sent' : List Sent}
    (h : Kept q s) (epending : s.pending = pending') (eregs : s.regs = regs') (ehiLatch : s.hiLatch = hiLatch') (et0 : s.t0 =
    t0') (et1 : s.t1 = t1') (ehost : s.host = host') (estreams : keyDel s.streams sc = streams') (ebanks : s.banks = banks') (eengs :
    s.engs = engs') (equeues : s.queues = queues') (eports : s.ports = ports') (eflash : s.nv.flash = nv'.flash) :
    Kept q ⟨pending', free', now', regs', rwtHeld', hiLatch', lowHeld', tick', active', pendingPlan', activating', load',
    deactivate', engs', posts', nextKnots', banks', bankFlips', rows', nextRows', unreadRows', unreadAll', resultsDone', t0',
    t0Poison', t0Flips', writeBack', scrubAt', t1', t1Read', t1Write', host', hostErrs', moves', budget', lookAside', glnHit',
    glnMiss', glnBad', ringHome', streams', lateSc', orphans', restarting', queues', exports', openings', turn', staging',
    stagingDue', msixOn', msixMask', logSeq', alertLow', alertAt', diagLow', diagAt', ports', lostIncarn', lossDue', grants',
    rxMoves', txMoves', nextMoveId', pullsDue', migrations', power', audio', cam', aon', nv', hsp', psp', jtag', firstRestart',
    firmwareAt', sent'⟩ := by
  subst_vars
  exact ⟨h.pending, h.regs, h.hiLatch, h.t0, h.t1, h.host, eflash ▸ h.flash, keyDel_rising _ h.streams, h.banks, h.engs, h.queues, h.ports⟩

/-- The same, where a queue is replaced. -/
theorem Kept.litSet {s : State} {i : Nat} {x : Queue} {pending' : List Instr} {free' : Nat} {now' : Nat} {regs' : Cells 32} {rwtHeld' : List (Nat × Word
    × Word)} {hiLatch' : Cells 32} {lowHeld' : List (Nat × Word)} {tick' : TickState} {active' : Option Plan} {pendingPlan' :
    Option Plan} {activating' : Option (Nat × Nat)} {load' : Option LoadJob} {deactivate' : Bool} {engs' : List EngState}
    {posts' : List KnotPost} {nextKnots' : List Nat} {banks' : List (Nat × AccBank)} {bankFlips' : List (Nat × BitFlips)} {rows'
    : List (Nat × Nat)} {nextRows' : Option (List (Nat × Nat))} {unreadRows' : List Nat} {unreadAll' : Bool} {resultsDone' :
    Bool} {t0' : Cells 8} {t0Poison' : List Nat} {t0Flips' : List (Nat × BitFlips)} {writeBack' : List Nat} {scrubAt' : Nat}
    {t1' : Cells 8} {t1Read' : List (Nat × BurstFault)} {t1Write' : List (Nat × BurstFault)} {host' : Cells 8} {hostErrs' : List
    (Nat × Nat)} {moves' : List (Nat × Move)} {budget' : Nat} {lookAside' : List (Nat × Nat × Nat)} {glnHit' : Nat} {glnMiss' :
    Nat} {glnBad' : Nat} {ringHome' : Option Nat} {streams' : List (Nat × Stream)} {lateSc' : List Nat} {orphans' : List (Nat ×
    List Byte)} {restarting' : List Nat} {queues' : List Queue} {exports' : List ExportJob} {openings' : List OpenJob} {turn' :
    Nat} {staging' : Option (Nat × Nat)} {stagingDue' : Option (Nat × Nat)} {msixOn' : Bool} {msixMask' : Bool} {logSeq' : Nat}
    {alertLow' : Bool} {alertAt' : Nat} {diagLow' : Bool} {diagAt' : Nat} {ports' : List Port} {lostIncarn' : List (Nat × Nat)}
    {lossDue' : List Nat} {grants' : List Grant} {rxMoves' : List RxMove} {txMoves' : List TxMove} {nextMoveId' : Nat}
    {pullsDue' : List TxMove} {migrations' : List Migration} {power' : PowerState} {audio' : AudioState} {cam' : CamState} {aon'
    : AonState} {nv' : NvState} {hsp' : HspState} {psp' : Option PspJob} {jtag' : JtagState} {firstRestart' : List (Nat × Nat)}
    {firmwareAt' : Option Nat} {sent' : List Sent}
    (h : Kept q s) (epending : s.pending = pending') (eregs : s.regs = regs') (ehiLatch : s.hiLatch = hiLatch') (et0 : s.t0 =
    t0') (et1 : s.t1 = t1') (ehost : s.host = host') (estreams : s.streams = streams') (ebanks : s.banks = banks') (eengs :
    s.engs = engs') (equeues : s.queues.set i x = queues') (eports : s.ports = ports') (eflash : s.nv.flash = nv'.flash) :
    Kept q ⟨pending', free', now', regs', rwtHeld', hiLatch', lowHeld', tick', active', pendingPlan', activating', load',
    deactivate', engs', posts', nextKnots', banks', bankFlips', rows', nextRows', unreadRows', unreadAll', resultsDone', t0',
    t0Poison', t0Flips', writeBack', scrubAt', t1', t1Read', t1Write', host', hostErrs', moves', budget', lookAside', glnHit',
    glnMiss', glnBad', ringHome', streams', lateSc', orphans', restarting', queues', exports', openings', turn', staging',
    stagingDue', msixOn', msixMask', logSeq', alertLow', alertAt', diagLow', diagAt', ports', lostIncarn', lossDue', grants',
    rxMoves', txMoves', nextMoveId', pullsDue', migrations', power', audio', cam', aon', nv', hsp', psp', jtag', firstRestart',
    firmwareAt', sent'⟩ := by
  subst_vars
  exact ⟨h.pending, h.regs, h.hiLatch, h.t0, h.t1, h.host, eflash ▸ h.flash, h.streams, h.banks, h.engs, (List.length_set ..).trans h.queues, h.ports⟩

/-- No accumulator bank holds anything. -/
theorem Kept.noBanks {s : State} (h : Kept q s) : Kept q { s with banks := [] } :=
  ⟨h.pending, h.regs, h.hiLatch, h.t0, h.t1, h.host, h.flash, h.streams, rfl, h.engs, h.queues, h.ports⟩

theorem Kept.snd {α : Type} {r : α × State} {a : α} {t : State} (e : r = (a, t)) (h : Kept q r.2) : Kept q t := by subst e; exact h
theorem Kept.fst {α : Type} {r : State × α} {a : α} {t : State} (e : r = (t, a)) (h : Kept q r.1) : Kept q t := by subst e; exact h
theorem Kept.snd2 {α β : Type} {r : α × β × State} {a : α} {b : β} {t : State} (e : r = (a, b, t)) (h : Kept q r.2.2) : Kept q t := by
  subst e; exact h
theorem Kept.ofSome {o : Option State} {t : State} (e : o = some t) (h : KeptO q o) : Kept q t := h.kept t e
theorem Kept.ofSomeSnd {α : Type} {o : Option (α × State)} {a : α} {t : State} (e : o = some (a, t)) (h : KeptON q o) : Kept q t :=
  h.kept (a, t) e
theorem Kept.ofSomeVal {α : Type} {o : Option (α × State)} {r : α × State} (e : o = some r) (h : KeptON q o) : Kept q r.2 := h.kept r e

/-! ### Branches -/

theorem Kept.ite {c : Prop} [Decidable c] {a b : State} (ha : Kept q a) (hb : Kept q b) : Kept q (if c then a else b) := by
  split <;> assumption
theorem Kept.iteSnd {α : Type} {c : Prop} [Decidable c] {a b : α × State} (ha : Kept q a.2) (hb : Kept q b.2) :
    Kept q (if c then a else b).2 := by split <;> assumption
theorem Kept.iteFst {α : Type} {c : Prop} [Decidable c] {a b : State × α} (ha : Kept q a.1) (hb : Kept q b.1) :
    Kept q (if c then a else b).1 := by split <;> assumption
theorem Kept.iteSnd2 {α β : Type} {c : Prop} [Decidable c] {a b : α × β × State} (ha : Kept q a.2.2) (hb : Kept q b.2.2) :
    Kept q (if c then a else b).2.2 := by split <;> assumption

/-! ### Folds -/

theorem Kept.foldl {α : Type} {f : State → α → State} (l : List α) (hf : ∀ s x, Kept q s → Kept q (f s x)) :
    ∀ {s : State}, Kept q s → Kept q (l.foldl f s) := by
  induction l with
  | nil => intro s h; exact h
  | cons x l ih => intro s h; exact ih (hf s x h)

theorem Kept.foldlSnd {α β : Type} {f : β × State → α → β × State} (l : List α)
    (hf : ∀ r x, Kept q r.2 → Kept q (f r x).2) : ∀ {r : β × State}, Kept q r.2 → Kept q (l.foldl f r).2 := by
  induction l with
  | nil => intro s h; exact h
  | cons x l ih => intro s h; exact ih (hf s x h)

theorem Kept.foldlFst {α β : Type} {f : State × β → α → State × β} (l : List α)
    (hf : ∀ r x, Kept q r.1 → Kept q (f r x).1) : ∀ {r : State × β}, Kept q r.1 → Kept q (l.foldl f r).1 := by
  induction l with
  | nil => intro s h; exact h
  | cons x l ih => intro s h; exact ih (hf s x h)

theorem Kept.foldlSnd2 {α β γ : Type} {f : β × γ × State → α → β × γ × State} (l : List α)
    (hf : ∀ r x, Kept q r.2.2 → Kept q (f r x).2.2) : ∀ {r : β × γ × State}, Kept q r.2.2 → Kept q (l.foldl f r).2.2 := by
  induction l with
  | nil => intro s h; exact h
  | cons x l ih => intro s h; exact ih (hf s x h)

theorem KeptO.foldl {α : Type} {f : Option State → α → Option State} (l : List α) (hf : ∀ o x, KeptO q o → KeptO q (f o x)) :
    ∀ {o : Option State}, KeptO q o → KeptO q (l.foldl f o) := by
  induction l with
  | nil => intro s h; exact h
  | cons x l ih => intro s h; exact ih (hf s x h)

/-! ### Optional states -/

theorem KeptO.of_some {s : State} (h : Kept q s) : KeptO q (some s) := ⟨by intro t e; cases e; exact h⟩
theorem KeptO.of_none : KeptO q none := ⟨by intro t e; cases e⟩
theorem KeptON.of_some {α : Type} {r : α × State} (h : Kept q r.2) : KeptON q (some r) := ⟨by intro t e; cases e; exact h⟩
theorem KeptON.of_none {α : Type} : KeptON q (none : Option (α × State)) := ⟨by intro t e; cases e⟩
theorem KeptX.of_next {s : State} (h : Kept q s) : KeptX q (.next s) := ⟨by intro t e; cases e; exact h⟩
theorem KeptO.ite {c : Prop} [Decidable c] {a b : Option State} (ha : KeptO q a) (hb : KeptO q b) : KeptO q (if c then a else b) := by
  split <;> assumption
theorem KeptON.ite {α : Type} {c : Prop} [Decidable c] {a b : Option (α × State)} (ha : KeptON q a) (hb : KeptON q b) :
    KeptON q (if c then a else b) := by split <;> assumption
theorem KeptO.bind {α : Type} {o : Option α} {f : α → Option State} (hf : ∀ a, KeptO q (f a)) : KeptO q (o.bind f) := by
  cases o with
  | none => exact KeptO.of_none
  | some a => exact hf a
theorem KeptO.bindState {o : Option State} {f : State → Option State} (ho : KeptO q o) (hf : ∀ s, Kept q s → KeptO q (f s)) :
    KeptO q (o.bind f) := by
  cases o with
  | none => exact KeptO.of_none
  | some a => exact hf a (ho.kept a rfl)
theorem KeptO.bindSnd {α : Type} {o : Option (α × State)} {f : α × State → Option State} (ho : KeptON q o)
    (hf : ∀ r, Kept q r.2 → KeptO q (f r)) : KeptO q (o.bind f) := by
  cases o with
  | none => exact KeptO.of_none
  | some a => exact hf a (ho.kept a rfl)
theorem KeptO.mapSnd {α : Type} {o : Option (α × State)} {f : α × State → State} (ho : KeptON q o)
    (hf : ∀ r, Kept q r.2 → Kept q (f r)) : KeptO q (o.map f) := by
  cases o with
  | none => exact KeptO.of_none
  | some a => exact KeptO.of_some (hf a (ho.kept a rfl))
theorem Kept.getD {o : Option State} {d : State} (ho : KeptO q o) (hd : Kept q d) : Kept q (o.getD d) := by
  cases o with
  | none => exact hd
  | some a => exact ho.kept a rfl

end Sys2Proof.Machine
end

