-- ==== Sys2Proof/Laws/KeepsOps.lean ====
section
/-!
SUPPORT. Laws/KeepsOps.lean: every operation of Machine/Ops.lean keeps the queue and a sound state sound.
-/
namespace Sys2Proof.Machine

variable {q : List Instr}

theorem State.setReg_kept {s : State} {off : Nat} {v : Word} (h : Kept q s) : Kept q (s.setReg off v) :=
  ⟨h.pending, cellSet_wf _ _ h.regs, h.hiLatch, h.t0, h.t1, h.host, h.flash, h.streams, h.banks, h.engs, h.queues, h.ports⟩

theorem State.setFld_kept {s : State} {off : Nat} {lo : Nat} {width : Nat} {n : Nat}
    (h : Kept q s)  : Kept q (State.setFld s off lo width n) := by
  unfold State.setFld
  repeat' first
    | with_reducible assumption
    | with_reducible apply State.setReg_kept

theorem State.setBit_kept {s : State} {off : Nat} {i : Nat} {b : Bool}
    (h : Kept q s)  : Kept q (State.setBit s off i b) := by
  unfold State.setBit
  repeat' first
    | with_reducible assumption
    | with_reducible apply State.setFld_kept

theorem State.addSat_kept {s : State} {off : Nat} {lo : Nat} {width : Nat} {n : Nat}
    (h : Kept q s)  : Kept q (State.addSat s off lo width n) := by
  unfold State.addSat
  repeat' first
    | with_reducible assumption
    | with_reducible apply State.setFld_kept

theorem State.setReg64_kept {s : State} {lo : Nat} {v : Nat}
    (h : Kept q s)  : Kept q (State.setReg64 s lo v) := by
  unfold State.setReg64
  repeat' first
    | with_reducible assumption
    | with_reducible apply State.setReg_kept

theorem State.add64_kept {s : State} {lo : Nat} {n : Nat}
    (h : Kept q s)  : Kept q (State.add64 s lo n) := by
  unfold State.add64
  repeat' first
    | with_reducible assumption
    | with_reducible apply Kept.ite
    | with_reducible apply State.setReg64_kept

theorem State.draw_kept {s : State}
    (h : Kept q s)  : Kept q (State.draw s).2 := by
  unfold State.draw
  repeat' first
    | dsimp -zeta only
    | (refine Kept.lit ?_ rfl rfl rfl rfl rfl rfl rfl rfl rfl rfl rfl rfl; with_reducible assumption)

theorem State.reach_kept {s : State} {t : Nat}
    (h : Kept q s)  : Kept q (State.reach s t) := by
  unfold State.reach
  repeat' (refine Kept.lit ?_ rfl rfl rfl rfl rfl rfl rfl rfl rfl rfl rfl rfl; with_reducible assumption)

theorem State.sendVector_kept {s : State} {v : Nat}
    (h : Kept q s)  : Kept q (State.sendVector s v) := by
  unfold State.sendVector
  repeat' first
    | with_reducible assumption
    | with_reducible apply Kept.ite
    | with_reducible apply State.setBit_kept
    | (refine Kept.lit ?_ rfl rfl rfl rfl rfl rfl rfl rfl rfl rfl rfl rfl; with_reducible apply State.setBit_kept)

theorem State.flushVector_kept {s : State} {v : Nat}
    (h : Kept q s)  : Kept q (State.flushVector s v) := by
  unfold State.flushVector
  repeat' first
    | with_reducible assumption
    | with_reducible apply Kept.ite
    | with_reducible apply State.setBit_kept
    | (extract_lets +onlyGivenNames v; refine (fun (hv : Kept q v) => ?_) ?_; clear_value v; rotate_left; subst v)
    | (refine Kept.lit ?_ rfl rfl rfl rfl rfl rfl rfl rfl rfl rfl rfl rfl; with_reducible assumption)

theorem State.raise_kept {s : State} {src : EvtSource} {stat : Nat} {b : Nat}
    (h : Kept q s)  : Kept q (State.raise s src stat b) := by
  unfold State.raise
  repeat' first
    | with_reducible assumption
    | with_reducible apply Kept.ite
    | with_reducible apply State.sendVector_kept
    | with_reducible apply State.setBit_kept

theorem State.alert_kept {s : State}
    (h : Kept q s)  : Kept q (State.alert s) := by
  unfold State.alert
  repeat' first
    | with_reducible assumption
    | with_reducible apply State.setBit_kept
    | (extract_lets +onlyGivenNames v; refine (fun (hv : Kept q v) => ?_) ?_; clear_value v; rotate_left; subst v)
    | (refine Kept.lit ?_ rfl rfl rfl rfl rfl rfl rfl rfl rfl rfl rfl rfl; with_reducible assumption)

theorem State.diag_kept {s : State}
    (h : Kept q s)  : Kept q (State.diag s) := by
  unfold State.diag
  repeat' first
    | with_reducible assumption
    | with_reducible apply State.setBit_kept
    | (extract_lets +onlyGivenNames v; refine (fun (hv : Kept q v) => ?_) ?_; clear_value v; rotate_left; subst v)
    | (refine Kept.lit ?_ rfl rfl rfl rfl rfl rfl rfl rfl rfl rfl rfl rfl; with_reducible assumption)

theorem State.setRegs_kept {ws : List Word} : ∀ {s : State} {off : Nat}, Kept q s → Kept q (s.setRegs off ws) := by
  induction ws with
  | nil => intro s off h; exact h
  | cons w ws ih => intro s off h; exact ih (State.setReg_kept h)


theorem State.logEvent_kept {s : State} {violation : Bool} {cls : Nat} {sub : Nat} {i : optParam LogInfo { }}
    (h : Kept q s)  : Kept q (State.logEvent s violation cls sub i) := by
  unfold State.logEvent
  repeat' first
    | with_reducible apply Kept.ite
    | with_reducible apply State.setRegs_kept
    | with_reducible apply State.diag_kept
    | with_reducible apply State.alert_kept
    | with_reducible apply State.raise_kept
    | with_reducible apply State.addSat_kept
    | with_reducible apply State.setFld_kept
    | (refine Kept.lit ?_ rfl rfl rfl rfl rfl rfl rfl rfl rfl rfl rfl rfl; with_reducible assumption)

theorem State.logError_kept {s : State} {cls : Nat} {sub : Nat} {i : optParam LogInfo { }}
    (h : Kept q s)  : Kept q (State.logError s cls sub i) := by
  unfold State.logError
  repeat' first
    | with_reducible assumption
    | with_reducible apply State.logEvent_kept

theorem State.logViolation_kept {s : State} {cls : Nat} {sub : Nat} {i : optParam LogInfo { }}
    (h : Kept q s)  : Kept q (State.logViolation s cls sub i) := by
  unfold State.logViolation
  repeat' first
    | with_reducible assumption
    | with_reducible apply State.logEvent_kept

theorem State.setStream_kept {s : State} {sc : Nat} {t : Stream} (h : Kept q s) : Kept q (s.setStream sc t) :=
  ⟨h.pending, h.regs, h.hiLatch, h.t0, h.t1, h.host, h.flash, keyPut_rising _ (Nat.zero_le _) h.streams, h.banks, h.engs, h.queues, h.ports⟩

theorem State.updStream_kept {s : State} {sc : Nat} {f : Stream → Stream}
    (h : Kept q s)  : Kept q (State.updStream s sc f) := by
  unfold State.updStream
  repeat' first
    | with_reducible assumption
    | with_reducible apply State.setStream_kept
    | split

theorem State.setEng_kept {s : State} {e : Nat} {g : EngState} (h : Kept q s) : Kept q (s.setEng e g) :=
  ⟨h.pending, h.regs, h.hiLatch, h.t0, h.t1, h.host, h.flash, h.streams, h.banks, (List.length_set ..).trans h.engs, h.queues, h.ports⟩

theorem State.updEng_kept {s : State} {e : Nat} {f : EngState → EngState}
    (h : Kept q s)  : Kept q (State.updEng s e f) := by
  unfold State.updEng
  repeat' first
    | with_reducible assumption
    | with_reducible apply State.setEng_kept

theorem State.updQueue_kept {s : State} {x1 : Nat} {f : Queue → Queue} (h : Kept q s) : Kept q (s.updQueue x1 f) :=
  ⟨h.pending, h.regs, h.hiLatch, h.t0, h.t1, h.host, h.flash, h.streams, h.banks, h.engs, (List.length_set ..).trans h.queues, h.ports⟩

theorem State.updPort_kept {s : State} {k : Nat} {f : Port → Port} (h : Kept q s) : Kept q (s.updPort k f) :=
  ⟨h.pending, h.regs, h.hiLatch, h.t0, h.t1, h.host, h.flash, h.streams, h.banks, h.engs, h.queues, (List.length_set ..).trans h.ports⟩

theorem State.emit_kept {s : State} {o : Sent}
    (h : Kept q s)  : Kept q (State.emit s o) := by
  unfold State.emit
  repeat' (refine Kept.lit ?_ rfl rfl rfl rfl rfl rfl rfl rfl rfl rfl rfl rfl; with_reducible assumption)

end Sys2Proof.Machine
end

