-- ==== Sys2Proof/Laws/KeepsLink.lean ====
section
/-!
SUPPORT. Laws/KeepsLink.lean: every operation of Machine/Link.lean keeps the queue and a sound state sound.
-/
namespace Sys2Proof.Machine

variable {q : List Instr}

theorem State.pumpPort_kept {s : State} {k : Nat}
    (h : Kept q s)  : Kept q (State.pumpPort s k) := by
  unfold State.pumpPort
  repeat' first
    | with_reducible assumption
    | with_reducible apply Kept.ite
    | with_reducible apply State.updPort_kept
    | with_reducible apply State.add64_kept

theorem State.peerMsg_kept {s : State} {chip : Nat} {cls : Nat} {opc : Nat} {payload : List Nat} {bytes : Nat}
    (h : Kept q s)  : Kept q (State.peerMsg s chip cls opc payload bytes) := by
  unfold State.peerMsg
  repeat' first
    | with_reducible assumption
    | with_reducible apply State.pumpPort_kept
    | with_reducible apply State.emit_kept
    | with_reducible apply State.updPort_kept

end Sys2Proof.Machine
end

