-- ==== Sys2Proof/Laws/KeepsMemory.lean ====
section
/-!
SUPPORT. Laws/KeepsMemory.lean: every operation of Machine/Memory.lean keeps the queue and a sound state sound.
-/
namespace Sys2Proof.Machine

variable {q : List Instr}

theorem State.t0Store_kept {s : State} {a : Nat} {bs : List Byte} (h : Kept q s) : Kept q (s.t0Store a bs) :=
  ⟨h.pending, h.regs, h.hiLatch, cellSetMany_wf _ h.t0, h.t1, h.host, h.flash, h.streams, h.banks, h.engs, h.queues, h.ports⟩

theorem State.t1Access_kept {s : State} {burst : Nat} {write : Bool}
    (h : Kept q s)  : Kept q (State.t1Access s burst write).2 := by
  unfold State.t1Access
  repeat' first
    | with_reducible assumption
    | with_reducible apply Kept.ite
    | with_reducible apply State.addSat_kept
    | with_reducible apply State.setBit_kept
    | with_reducible apply State.setReg_kept
    | (extract_lets +onlyGivenNames v; refine (fun (hv : Kept q v) => ?_) ?_; clear_value v; rotate_left; subst v)
    | (extract_lets +onlyGivenNames v; clear_value v)
    | split
    | (refine Kept.lit ?_ rfl rfl rfl rfl rfl rfl rfl rfl rfl rfl rfl rfl; with_reducible assumption)

theorem State.t1Range_kept {s : State} {a : Nat} {len : Nat} {write : Bool}
    (h : Kept q s)  : Kept q (State.t1Range s a len write).2 := by
  unfold State.t1Range
  repeat' first
    | with_reducible assumption
    | with_reducible refine Kept.foldlSnd _ (fun _ _ _ => ?_) ?_
    | with_reducible apply State.t1Access_kept

theorem State.queueWriteBack_kept {s : State} {w : Nat}
    (h : Kept q s)  : Kept q (State.queueWriteBack s w) := by
  unfold State.queueWriteBack
  repeat' first
    | with_reducible assumption
    | with_reducible apply Kept.ite
    | with_reducible apply State.setBit_kept
    | (refine Kept.lit ?_ rfl rfl rfl rfl rfl rfl rfl rfl rfl rfl rfl rfl; with_reducible assumption)

theorem State.t0Sense_kept {s : State} {w : Nat} {f : BitFlips}
    (h : Kept q s)  : Kept q (State.t0Sense s w f).2 := by
  unfold State.t0Sense
  repeat' first
    | with_reducible assumption
    | with_reducible apply State.queueWriteBack_kept
    | with_reducible apply State.addSat_kept
    | with_reducible apply State.setBit_kept
    | with_reducible apply State.setReg_kept
    | (extract_lets +onlyGivenNames v; refine (fun (hv : Kept q v) => ?_) ?_; clear_value v; rotate_left; subst v)
    | dsimp -zeta only
    | split
    | (refine Kept.lit ?_ rfl rfl rfl rfl rfl rfl rfl rfl rfl rfl rfl rfl; with_reducible assumption)

theorem State.t0Range_kept {s : State} {a : Nat} {len : Nat}
    (h : Kept q s)  : Kept q (State.t0Range s a len).2 := by
  unfold State.t0Range
  repeat' first
    | with_reducible assumption
    | with_reducible apply Kept.iteSnd
    | with_reducible refine Kept.foldlSnd _ (fun _ _ _ => ?_) ?_
    | with_reducible apply State.t0Sense_kept

theorem State.logFlips_kept {s : State} {a : Nat} {len : Nat}
    (h : Kept q s)  : Kept q (State.logFlips s a len) := by
  unfold State.logFlips
  repeat' first
    | with_reducible assumption
    | with_reducible refine Kept.foldl _ (fun _ _ _ => ?_) ?_
    | with_reducible apply State.logError_kept

theorem State.senseRange_kept {s : State} {a : Nat} {len : Nat}
    (h : Kept q s)  : Kept q (State.senseRange s a len).2 := by
  unfold State.senseRange
  repeat' first
    | with_reducible assumption
    | with_reducible apply Kept.ite
    | with_reducible apply Kept.iteSnd
    | with_reducible apply State.t0Range_kept
    | with_reducible apply State.t1Range_kept
    | with_reducible apply State.setBit_kept
    | dsimp -zeta only
    | split

theorem State.senseWrite_kept {s : State} {a : Nat} {len : Nat}
    (h : Kept q s)  : Kept q (State.senseWrite s a len).2 := by
  unfold State.senseWrite
  repeat' first
    | with_reducible assumption
    | with_reducible apply State.t1Range_kept
    | split

theorem State.endStream_kept {s : State} {sc : Nat} {end_ : Nat} {cause : Nat}
    (h : Kept q s)  : Kept q (State.endStream s sc end_ cause) := by
  unfold State.endStream
  repeat' first
    | with_reducible assumption
    | with_reducible apply State.updStream_kept

theorem State.openHole_kept {s : State} {sc : Nat} {cause : Nat} {first : Nat} {lanes : Nat}
    (h : Kept q s)  : Kept q (State.openHole s sc cause first lanes) := by
  unfold State.openHole
  repeat' first
    | with_reducible assumption
    | with_reducible apply State.updStream_kept

theorem State.holeAll_kept {s : State} {cause : Nat}
    (h : Kept q s)  : Kept q (State.holeAll s cause) := by
  unfold State.holeAll
  repeat' first
    | with_reducible assumption
    | with_reducible refine Kept.foldl _ (fun _ _ _ => ?_) ?_
    | with_reducible apply State.openHole_kept

theorem State.reportUnread_kept {s : State} {e : Nat} {own : Nat} {row : Option Nat} {a : Nat}
    (h : Kept q s)  : Kept q (State.reportUnread s e own row a) := by
  unfold State.reportUnread
  repeat' first
    | with_reducible assumption
    | with_reducible apply Kept.ite
    | with_reducible apply State.holeAll_kept
    | with_reducible apply State.openHole_kept
    | with_reducible apply State.endStream_kept
    | with_reducible apply State.logError_kept
    | (extract_lets +onlyGivenNames v; refine (fun (hv : Kept q v) => ?_) ?_; clear_value v; rotate_left; subst v)
    | (extract_lets +onlyGivenNames v; clear_value v)
    | split
    | (refine Kept.lit ?_ rfl rfl rfl rfl rfl rfl rfl rfl rfl rfl rfl rfl; with_reducible assumption)

end Sys2Proof.Machine
end

