-- ==== Sys2Proof/Laws/KeepsQueues.lean ====
section
/-!
SUPPORT. Laws/KeepsQueues.lean: every operation of Machine/Queues.lean keeps the queue and a sound state sound.
-/
namespace Sys2Proof.Machine

variable {q : List Instr}

theorem State.faultQueue_kept {s : State} {x1 : Nat} {cause : Nat}
    (h : Kept q s)  : Kept q (State.faultQueue s x1 cause) := by
  unfold State.faultQueue
  repeat' first
    | with_reducible assumption
    | with_reducible apply State.logError_kept
    | with_reducible apply State.setBit_kept
    | with_reducible apply State.setFld_kept

theorem State.ringWrite_kept {s : State} {x1 a : Nat} {bs : List Byte} (h : Kept q s) : Kept q (s.ringWrite x1 a bs) :=
  by
  unfold State.ringWrite
  split
  · exact State.t0Store_kept h
  · exact ⟨h.pending, h.regs, h.hiLatch, h.t0, h.t1, cellSetMany_wf _ h.host, h.flash, h.streams, h.banks, h.engs, h.queues, h.ports⟩

theorem State.signal_kept {s : State} {x1 : Nat}
    (h : Kept q s)  : Kept q (State.signal s x1) := by
  unfold State.signal
  repeat' first
    | with_reducible assumption
    | with_reducible apply State.updQueue_kept
    | with_reducible apply State.sendVector_kept

theorem State.checkSignal_kept {s : State} {x1 : Nat} {irqNow : Bool}
    (h : Kept q s)  : Kept q (State.checkSignal s x1 irqNow) := by
  unfold State.checkSignal
  repeat' first
    | with_reducible assumption
    | with_reducible apply Kept.ite
    | with_reducible apply State.signal_kept

theorem State.writeRecord_kept {s : State} {x1 : Nat} {irqNow : Bool} {bs : List Byte}
    (h : Kept q s)  : Kept q (State.writeRecord s x1 irqNow bs) := by
  unfold State.writeRecord
  repeat' first
    | with_reducible assumption
    | with_reducible apply State.checkSignal_kept
    | with_reducible apply State.ringWrite_kept
    | with_reducible apply State.updQueue_kept
    | with_reducible apply State.setFld_kept

theorem State.showHeld_kept {s : State} {x1 : Nat}
    (h : Kept q s)  : Kept q (State.showHeld s x1) := by
  unfold State.showHeld
  repeat' first
    | with_reducible assumption
    | with_reducible apply State.setFld_kept

theorem State.postResult_kept {s : State} {sc : Nat} {rtype : Nat} {lane : Nat} {count : Nat} {tick : Nat} {first : Nat} {body : List Byte}
    (h : Kept q s)  : Kept q (State.postResult s sc rtype lane count tick first body) := by
  unfold State.postResult
  repeat' first
    | with_reducible assumption
    | with_reducible apply Kept.ite
    | with_reducible apply State.showHeld_kept
    | with_reducible apply State.writeRecord_kept
    | with_reducible apply State.peerMsg_kept
    | with_reducible apply State.setStream_kept
    | (extract_lets +onlyGivenNames v; clear_value v)
    | split

theorem State.flushHeld_kept {s : State} {x1 : Nat} {x2 : Nat}
    (h : Kept q s)  : Kept q (State.flushHeld s x1 x2) := by
  induction x2 generalizing s x1 with
  | zero =>
    unfold State.flushHeld
    repeat' with_reducible assumption
  | succ n ih =>
    unfold State.flushHeld
    repeat' first
      | with_reducible assumption
      | with_reducible apply Kept.ite
      | with_reducible apply State.showHeld_kept
      | with_reducible apply State.writeRecord_kept
      | with_reducible apply State.setStream_kept
      | with_reducible apply ih
      | (extract_lets +onlyGivenNames v; clear_value v)
      | split
      | (refine Kept.lit ?_ rfl rfl rfl rfl rfl rfl rfl rfl rfl rfl rfl rfl; with_reducible assumption)

theorem State.postHole_kept {s : State} {sc : Nat} {last : Nat} {tick : Nat} {ended : Bool}
    (h : Kept q s)  : Kept q (State.postHole s sc last tick ended) := by
  unfold State.postHole
  repeat' first
    | with_reducible assumption
    | with_reducible apply State.postResult_kept
    | with_reducible apply State.setStream_kept
    | split

theorem State.settle_kept {s : State} {x1 : Nat} {tag : Nat} {status : Nat} {detail : Nat} {value : Nat} {stream : Nat}
    (h : Kept q s)  : Kept q (State.settle s x1 tag status detail value stream) := by
  unfold State.settle
  repeat' first
    | with_reducible assumption
    | with_reducible apply State.updQueue_kept

theorem State.actReq_kept {s : State} {x1 : Nat} {tag : Nat}
    (h : Kept q s)  : Kept q (State.actReq s x1 tag) := by
  unfold State.actReq
  repeat' first
    | with_reducible assumption
    | with_reducible apply State.updQueue_kept

theorem State.dueReq_kept {s : State} {x1 : Nat} {kind : Nat} {tag : Nat}
    (h : Kept q s)  : Kept q (State.dueReq s x1 kind tag) := by
  unfold State.dueReq
  repeat' first
    | with_reducible assumption
    | with_reducible apply State.updQueue_kept
    | split

theorem State.settleStream_kept {s : State} {sc : Nat} {status : Nat → Nat}
    (h : Kept q s)  : Kept q (State.settleStream s sc status) := by
  unfold State.settleStream
  repeat' first
    | with_reducible assumption
    | with_reducible refine Kept.foldl _ (fun _ _ _ => ?_) ?_
    | with_reducible apply State.settle_kept

end Sys2Proof.Machine
end

