-- ==== Sys2Proof/Laws/KeepsAudio.lean ====
section
/-!
SUPPORT. Laws/KeepsAudio.lean: every operation of Machine/Audio.lean keeps the queue and a sound state sound.
-/
namespace Sys2Proof.Machine

variable {q : List Instr}

theorem State.setAps_kept {s : State} {ps : List AudioPort}
    (h : Kept q s)  : Kept q (State.setAps s ps) := by
  unfold State.setAps
  repeat' first
    | (extract_lets +onlyGivenNames v; clear_value v)
    | (refine Kept.lit ?_ rfl rfl rfl rfl rfl rfl rfl rfl rfl rfl rfl rfl; with_reducible assumption)

theorem State.setOuts_kept {s : State} {os : List (Nat × AudioOut)}
    (h : Kept q s)  : Kept q (State.setOuts s os) := by
  unfold State.setOuts
  repeat' first
    | (extract_lets +onlyGivenNames v; clear_value v)
    | (refine Kept.lit ?_ rfl rfl rfl rfl rfl rfl rfl rfl rfl rfl rfl rfl; with_reducible assumption)

theorem State.updAp_kept {s : State} {k : Nat} {f : AudioPort → AudioPort}
    (h : Kept q s)  : Kept q (State.updAp s k f) := by
  unfold State.updAp
  repeat' first
    | with_reducible assumption
    | with_reducible apply State.setAps_kept

theorem State.apRaise_kept {s : State} {k : Nat} {b : Nat}
    (h : Kept q s)  : Kept q (State.apRaise s k b) := by
  unfold State.apRaise
  repeat' first
    | with_reducible assumption
    | with_reducible apply State.raise_kept

theorem State.applyPort_kept {s : State} {k : Nat}
    (h : Kept q s)  : Kept q (State.applyPort s k) := by
  unfold State.applyPort
  repeat' first
    | with_reducible assumption
    | with_reducible apply Kept.ite
    | with_reducible apply State.apRaise_kept
    | with_reducible apply State.updAp_kept
    | with_reducible apply State.setBit_kept
    | with_reducible apply State.setReg_kept

theorem State.countZeros_kept {s : State} {k : Nat} {n : Nat}
    (h : Kept q s)  : Kept q (State.countZeros s k n) := by
  unfold State.countZeros
  repeat' first
    | with_reducible assumption
    | with_reducible apply Kept.ite
    | with_reducible apply State.apRaise_kept
    | with_reducible apply State.updAp_kept
    | with_reducible apply State.addSat_kept

theorem State.showMuted_kept {s : State} {k : Nat}
    (h : Kept q s)  : Kept q (State.showMuted s k) := by
  unfold State.showMuted
  repeat' first
    | with_reducible assumption
    | with_reducible apply Kept.ite
    | with_reducible apply State.apRaise_kept
    | with_reducible apply State.logViolation_kept
    | with_reducible apply State.setBit_kept
    | with_reducible apply State.setReg_kept

theorem State.inspect_kept {s : State} {k : Nat} {f : List Int}
    (h : Kept q s)  : Kept q (State.inspect s k f) := by
  unfold State.inspect
  repeat' first
    | with_reducible assumption
    | with_reducible apply State.showMuted_kept
    | with_reducible apply State.updAp_kept

theorem State.receive_kept {s : State} {k : Nat} {f : List Int}
    (h : Kept q s)  : Kept q (State.receive s k f) := by
  unfold State.receive
  repeat' first
    | with_reducible assumption
    | with_reducible apply Kept.ite
    | with_reducible apply State.inspect_kept
    | with_reducible apply State.showMuted_kept
    | with_reducible apply State.updAp_kept

theorem State.setOut_kept {s : State} {o : Nat} {x : AudioOut}
    (h : Kept q s)  : Kept q (State.setOut s o x) := by
  unfold State.setOut
  repeat' first
    | with_reducible assumption
    | with_reducible apply State.setOuts_kept

theorem State.showOut_kept {s : State} {o : Nat}
    (h : Kept q s)  : Kept q (State.showOut s o) := by
  unfold State.showOut
  repeat' first
    | with_reducible assumption
    | with_reducible apply State.setReg_kept
    | (extract_lets +onlyGivenNames v; clear_value v)
    | split

theorem State.leaveOut_kept {s : State} {sc : Nat}
    (h : Kept q s)  : Kept q (State.leaveOut s sc) := by
  unfold State.leaveOut
  repeat' first
    | with_reducible assumption
    | with_reducible apply State.setOuts_kept
    | with_reducible apply State.updStream_kept

theorem State.bindOut_kept {s : State} {sc : Nat} {port : Nat} {slot : Nat} {two : Bool}
    (h : Kept q s)  : Kept q (State.bindOut s sc port slot two).2 := by
  unfold State.bindOut
  repeat' first
    | with_reducible assumption
    | with_reducible apply Kept.iteSnd
    | with_reducible apply State.leaveOut_kept
    | with_reducible apply State.showOut_kept
    | with_reducible apply State.setOut_kept
    | with_reducible apply State.updStream_kept
    | (extract_lets +onlyGivenNames v; refine (fun (hv : Kept q v) => ?_) ?_; clear_value v; rotate_left; subst v)
    | (extract_lets +onlyGivenNames v; clear_value v)
    | (extract_lets +onlyGivenNames v; subst v)
    | split

theorem State.commitOut_kept {s : State} {o : Nat} {x : AudioOut}
    (h : Kept q s)  : Kept q (State.commitOut s o x).2 := by
  unfold State.commitOut
  repeat' first
    | with_reducible assumption
    | with_reducible apply Kept.ite
    | with_reducible apply State.showOut_kept
    | with_reducible apply State.setOut_kept
    | with_reducible apply State.setOuts_kept

theorem State.commitPort_kept {s : State} {k : Nat}
    (h : Kept q s)  : Kept q (State.commitPort s k) := by
  unfold State.commitPort
  repeat' first
    | with_reducible assumption
    | with_reducible apply Kept.ite
    | with_reducible refine Kept.foldlSnd _ (fun _ _ _ => ?_) ?_
    | with_reducible apply State.commitOut_kept
    | with_reducible apply State.updAp_kept

theorem State.portEdge_kept {s : State} {k : Nat} {ticks : Nat} {lag : Nat}
    (h : Kept q s)  : Kept q (State.portEdge s k ticks lag) := by
  unfold State.portEdge
  repeat' first
    | with_reducible assumption
    | with_reducible apply Kept.ite
    | with_reducible apply State.commitPort_kept
    | with_reducible apply State.countZeros_kept
    | with_reducible apply State.apRaise_kept
    | with_reducible apply State.updAp_kept
    | with_reducible apply State.addSat_kept

theorem State.endRamp_kept {s : State}
    (h : Kept q s)  : Kept q (State.endRamp s) := by
  unfold State.endRamp
  repeat' first
    | with_reducible assumption
    | with_reducible apply Kept.ite
    | with_reducible refine Kept.foldl _ (fun _ _ _ => ?_) ?_
    | with_reducible apply State.setAps_kept
    | with_reducible apply State.postResult_kept
    | with_reducible apply State.setBit_kept
    | (extract_lets +onlyGivenNames v; refine (fun (hv : Kept q v) => ?_) ?_; clear_value v; rotate_left; subst v)
    | (extract_lets +onlyGivenNames v; clear_value v)
    | split
    | (refine Kept.lit ?_ rfl rfl rfl rfl rfl rfl rfl rfl rfl rfl rfl rfl; with_reducible assumption)

theorem State.audioEdge_kept {s : State} {lag : Nat}
    (h : Kept q s)  : Kept q (State.audioEdge s lag) := by
  unfold State.audioEdge
  repeat' first
    | with_reducible assumption
    | with_reducible apply State.endRamp_kept
    | with_reducible apply State.portEdge_kept
    | (extract_lets +onlyGivenNames v; clear_value v)
    | split
    | (refine Kept.lit ?_ rfl rfl rfl rfl rfl rfl rfl rfl rfl rfl rfl rfl; with_reducible refine Kept.foldl _ (fun _ _ _ => ?_) ?_)

theorem State.audioStart_kept {s : State}
    (h : Kept q s)  : Kept q (State.audioStart s) := by
  unfold State.audioStart
  repeat' first
    | with_reducible apply State.setAps_kept
    | (extract_lets +onlyGivenNames v; clear_value v)
    | (refine Kept.lit ?_ rfl rfl rfl rfl rfl rfl rfl rfl rfl rfl rfl rfl; with_reducible assumption)

theorem State.latchPlay_kept {s : State}
    (h : Kept q s)  : Kept q (State.latchPlay s) := by
  unfold State.latchPlay
  repeat' first
    | with_reducible assumption
    | with_reducible apply State.setOuts_kept

theorem State.beginRamp_kept {s : State}
    (h : Kept q s)  : Kept q (State.beginRamp s) := by
  unfold State.beginRamp
  repeat' first
    | with_reducible assumption
    | with_reducible apply Kept.ite
    | with_reducible apply State.setAps_kept
    | with_reducible apply State.setBit_kept
    | (extract_lets +onlyGivenNames v; clear_value v)
    | (refine Kept.lit ?_ rfl rfl rfl rfl rfl rfl rfl rfl rfl rfl rfl rfl; with_reducible assumption)

theorem State.rampFrame_kept {s : State} {k : Nat} {f : List Int}
    (h : Kept q s)  : Kept q (State.rampFrame s k f).2 := by
  unfold State.rampFrame
  repeat' first
    | with_reducible assumption
    | with_reducible apply State.updAp_kept
    | (extract_lets +onlyGivenNames v; clear_value v)
    | split

theorem State.transmit_kept {s : State} {k : Nat}
    (h : Kept q s)  : Kept q (State.transmit s k) := by
  unfold State.transmit
  repeat' first
    | with_reducible assumption
    | with_reducible apply Kept.iteSnd
    | with_reducible apply State.rampFrame_kept
    | with_reducible apply State.countZeros_kept
    | with_reducible apply State.updAp_kept
    | (extract_lets +onlyGivenNames v; clear_value v)
    | split

theorem State.audioFrame_kept {s : State} {k : Nat} {f : TdmFrame}
    (h : Kept q s)  : Kept q (State.audioFrame s k f) := by
  unfold State.audioFrame
  repeat' first
    | with_reducible assumption
    | with_reducible apply Kept.ite
    | with_reducible apply State.transmit_kept
    | with_reducible apply State.receive_kept
    | with_reducible apply State.apRaise_kept
    | with_reducible apply State.updAp_kept
    | with_reducible apply State.logViolation_kept
    | with_reducible apply State.reach_kept
    | with_reducible apply State.addSat_kept
    | with_reducible apply State.setBit_kept

theorem execAudioFrame_kept {port : Fin 4} {f : TdmFrame} {s : State}
    (h : Kept q s)  : KeptX q (execAudioFrame port f s) := by
  unfold execAudioFrame
  repeat' first
    | with_reducible assumption
    | with_reducible apply KeptX.of_next
    | with_reducible apply State.audioFrame_kept

theorem execNonaudioHoldExpiry_kept {port : Fin 4} {slot : Fin 32} {s : State}
    (h : Kept q s)  : KeptX q (execNonaudioHoldExpiry port slot s) := by
  unfold execNonaudioHoldExpiry
  repeat' first
    | with_reducible assumption
    | with_reducible apply KeptX.of_next
    | with_reducible apply Kept.ite
    | with_reducible apply State.showMuted_kept
    | with_reducible apply State.updAp_kept
    | split

theorem execRateWindow_kept {port : Fin 4} {frames : Nat} {cycles : Nat} {s : State}
    (h : Kept q s)  : KeptX q (execRateWindow port frames cycles s) := by
  unfold execRateWindow
  repeat' first
    | with_reducible assumption
    | with_reducible apply KeptX.of_next
    | with_reducible apply Kept.ite
    | with_reducible apply State.apRaise_kept
    | with_reducible apply State.logViolation_kept
    | with_reducible apply State.setBit_kept
    | with_reducible apply State.setFld_kept
    | with_reducible apply State.setReg_kept

theorem execAudioNoclk_kept {port : Fin 4} {s : State}
    (h : Kept q s)  : KeptX q (execAudioNoclk port s) := by
  unfold execAudioNoclk
  repeat' first
    | with_reducible assumption
    | with_reducible apply KeptX.of_next
    | with_reducible apply Kept.ite
    | with_reducible apply State.apRaise_kept
    | with_reducible apply State.logViolation_kept
    | with_reducible apply State.reach_kept
    | with_reducible apply State.setBit_kept
    | split

end Sys2Proof.Machine
end

