-- ==== Sys2Proof/Laws/KeepsEngine.lean ====
section
/-!
SUPPORT. Laws/KeepsEngine.lean: every operation of Machine/Engine.lean keeps the queue and a sound state sound.
-/
namespace Sys2Proof.Machine

variable {q : List Instr}

theorem State.setBusy_kept {s : State} {e : Nat} {b : Bool}
    (h : Kept q s)  : Kept q (State.setBusy s e b) := by
  unfold State.setBusy
  repeat' first
    | with_reducible assumption
    | with_reducible apply State.setBit_kept
    | split

theorem State.applyPost_kept {s : State} {k : Nat} {amount : Nat} {c : Nat} {delay : Nat}
    (h : Kept q s)  : Kept q (State.applyPost s k amount c delay) := by
  unfold State.applyPost
  repeat' first
    | with_reducible assumption
    | with_reducible apply State.setFld_kept
    | (extract_lets +onlyGivenNames v; refine (fun (hv : Kept q v) => ?_) ?_; clear_value v; rotate_left; subst v)
    | (refine Kept.lit ?_ rfl rfl rfl rfl rfl rfl rfl rfl rfl rfl rfl rfl; with_reducible assumption)

theorem State.engPost_kept {s : State} {e : Nat} {k : Nat} {amount : Nat} {delay : Nat}
    (h : Kept q s)  : Kept q (State.engPost s e k amount delay) := by
  unfold State.engPost
  repeat' first
    | with_reducible assumption
    | with_reducible apply State.applyPost_kept
    | with_reducible apply State.setEng_kept

theorem State.dropPlanMove_kept {s : State} {e : Nat}
    (h : Kept q s)  : Kept q (State.dropPlanMove s e) := by
  unfold State.dropPlanMove
  repeat' first
    | with_reducible assumption
    | with_reducible apply Kept.ite
    | with_reducible apply State.setBit_kept
    | with_reducible apply State.setFld_kept
    | (refine Kept.lit ?_ rfl rfl rfl rfl rfl rfl rfl rfl rfl rfl rfl rfl; with_reducible assumption)

theorem State.endSlice_kept {s : State} {e : Nat} {exhausted : Bool}
    (h : Kept q s)  : Kept q (State.endSlice s e exhausted) := by
  unfold State.endSlice
  repeat' first
    | with_reducible assumption
    | with_reducible apply State.dropPlanMove_kept
    | with_reducible apply State.setBusy_kept
    | with_reducible apply State.setEng_kept
    | with_reducible apply State.setBit_kept
    | with_reducible apply State.setFld_kept
    | (extract_lets +onlyGivenNames v; refine (fun (hv : Kept q v) => ?_) ?_; clear_value v; rotate_left; subst v)
    | (extract_lets +onlyGivenNames v; clear_value v)
    | (refine Kept.lit ?_ rfl rfl rfl rfl rfl rfl rfl rfl rfl rfl rfl rfl; with_reducible assumption)

theorem State.planFault_kept {s : State} {cause : Nat} {engine : Nat} {variant : Nat} {pc : Nat} {i : LogInfo}
    (h : Kept q s)  : Kept q (State.planFault s cause engine variant pc i) := by
  unfold State.planFault
  repeat' first
    | with_reducible assumption
    | with_reducible apply Kept.ite
    | with_reducible apply State.logError_kept
    | with_reducible apply State.raise_kept
    | with_reducible apply State.setReg_kept

theorem State.postRest_kept {s : State} {e : Nat}
    (h : Kept q s)  : Kept q (State.postRest s e) := by
  unfold State.postRest
  repeat' first
    | with_reducible assumption
    | with_reducible apply Kept.ite
    | with_reducible refine Kept.foldl _ (fun _ _ _ => ?_) ?_
    | with_reducible apply State.engPost_kept

theorem State.faultSlice_kept {s : State} {e : Nat} {cause : Nat} {addr : Nat}
    (h : Kept q s)  : Kept q (State.faultSlice s e cause addr) := by
  unfold State.faultSlice
  repeat' first
    | with_reducible assumption
    | with_reducible apply State.postRest_kept
    | with_reducible apply State.planFault_kept
    | with_reducible apply State.endSlice_kept
    | with_reducible apply State.holeAll_kept

theorem State.exhaust_kept {s : State} {e : Nat}
    (h : Kept q s)  : Kept q (State.exhaust s e) := by
  unfold State.exhaust
  repeat' first
    | with_reducible assumption
    | with_reducible apply State.faultSlice_kept
    | with_reducible apply State.updEng_kept
    | with_reducible apply State.raise_kept

theorem State.work_kept {s : State} {e : Nat} {n : Nat}
    (h : Kept q s)  : Kept q (State.work s e n) := by
  unfold State.work
  repeat' first
    | with_reducible assumption
    | with_reducible apply State.updEng_kept

theorem State.retire_kept {s : State} {e : Nat}
    (h : Kept q s)  : Kept q (State.retire s e) := by
  unfold State.retire
  repeat' first
    | with_reducible assumption
    | with_reducible apply State.updEng_kept

theorem State.runFor_kept {s : State} {e : Nat} {n : Nat} {f : State → State}
    (h : Kept q s)  (hf : ∀ y0, Kept q y0 → Kept q (f y0)) : Kept q (State.runFor s e n f) := by
  unfold State.runFor
  repeat' first
    | with_reducible assumption
    | with_reducible apply Kept.ite
    | with_reducible apply State.retire_kept
    | with_reducible apply State.work_kept
    | with_reducible apply State.exhaust_kept
    | with_reducible apply hf

theorem State.runWord_kept {s : State} {e : Nat} {w : DWord} {n : Nat} {f : State → State}
    (h : Kept q s)  (hf : ∀ y0, Kept q y0 → Kept q (f y0)) : Kept q (State.runWord s e w n f) := by
  unfold State.runWord
  repeat' first
    | with_reducible assumption
    | with_reducible apply Kept.ite
    | with_reducible refine State.runFor_kept ?_ (fun _ _ => ?_)
    | with_reducible apply hf

theorem State.boundedCost_kept {s : State} {lo : Nat} {hi : Nat}
    (h : Kept q s)  : Kept q (State.boundedCost s lo hi).2 := by
  unfold State.boundedCost
  repeat' first
    | with_reducible assumption
    | with_reducible apply Kept.iteSnd
    | with_reducible apply State.draw_kept

theorem State.count_kept {s : State} {e : Nat} {f : SliceCounts → SliceCounts}
    (h : Kept q s)  : Kept q (State.count s e f) := by
  unfold State.count
  repeat' first
    | with_reducible assumption
    | with_reducible apply State.updEng_kept

theorem execEnd_kept {e : EngineId} {s : State}
    (h : Kept q s)  : KeptX q (execEnd e s) := by
  unfold execEnd
  repeat' first
    | with_reducible assumption
    | with_reducible apply KeptX.of_next
    | with_reducible apply Kept.ite
    | with_reducible apply State.work_kept
    | with_reducible apply State.exhaust_kept
    | with_reducible apply State.endSlice_kept

theorem execLoop_kept {e : EngineId} {count : BitVec 16} {len : BitVec 16} {s : State}
    (h : Kept q s)  : KeptX q (execLoop e count len s) := by
  unfold execLoop
  repeat' first
    | with_reducible assumption
    | with_reducible apply KeptX.of_next
    | with_reducible apply Kept.ite
    | with_reducible apply State.updEng_kept

theorem execIdle_kept {e : EngineId} {count : BitVec 16} {s : State}
    (h : Kept q s)  : KeptX q (execIdle e count s) := by
  unfold execIdle
  repeat' first
    | with_reducible assumption
    | with_reducible apply KeptX.of_next
    | with_reducible refine State.runWord_kept ?_ (fun _ _ => ?_)
    | (refine Kept.lit ?_ rfl rfl rfl rfl rfl rfl rfl rfl rfl rfl rfl rfl; with_reducible assumption)

theorem execPost_kept {e : EngineId} {knot : BitVec 6} {value : BitVec 16} {step : BitVec 16} {s : State}
    (h : Kept q s)  : KeptX q (execPost e knot value step s) := by
  unfold execPost
  repeat' first
    | with_reducible assumption
    | with_reducible apply KeptX.of_next
    | with_reducible refine State.runWord_kept ?_ (fun _ _ => ?_)
    | with_reducible apply State.engPost_kept

theorem execWait_kept {e : EngineId} {knot : BitVec 6} {value : BitVec 16} {step : BitVec 16} {s : State}
    (h : Kept q s)  : KeptX q (execWait e knot value step s) := by
  unfold execWait
  repeat' first
    | with_reducible assumption
    | with_reducible apply KeptX.of_next
    | with_reducible apply Kept.ite
    | with_reducible apply State.retire_kept
    | with_reducible apply State.work_kept
    | with_reducible apply State.exhaust_kept
    | with_reducible apply State.updEng_kept
    | (extract_lets +onlyGivenNames v; refine (fun (hv : Kept q v) => ?_) ?_; clear_value v; rotate_left; subst v)
    | split

theorem execWaitSatisfied_kept {e : EngineId} {s : State}
    (h : Kept q s)  : KeptX q (execWaitSatisfied e s) := by
  unfold execWaitSatisfied
  repeat' first
    | with_reducible assumption
    | with_reducible apply KeptX.of_next
    | with_reducible apply Kept.ite
    | with_reducible apply State.retire_kept
    | with_reducible apply State.work_kept
    | with_reducible apply State.exhaust_kept
    | with_reducible apply State.setEng_kept
    | (extract_lets +onlyGivenNames v; clear_value v)
    | split

theorem execSliceBudgetExhausted_kept {e : EngineId} {s : State}
    (h : Kept q s)  : KeptX q (execSliceBudgetExhausted e s) := by
  unfold execSliceBudgetExhausted
  repeat' first
    | with_reducible assumption
    | with_reducible apply KeptX.of_next
    | with_reducible apply Kept.ite
    | with_reducible apply State.work_kept
    | with_reducible apply State.exhaust_kept

end Sys2Proof.Machine
end

