-- ==== Sys2Proof/Laws/KeepsMove.lean ====
section
/-!
SUPPORT. Laws/KeepsMove.lean: every operation of Machine/Move.lean keeps the queue and a sound state sound.
-/
namespace Sys2Proof.Machine

variable {q : List Instr}

theorem State.setCells_kept {s : State} {sp : Space} {lo len : Nat} {m : Cells 8} (hm : cellWf m = true) (h : Kept q s) :
    Kept q (s.setCells sp lo len m) := by
  unfold State.setCells
  cases sp
  · exact ⟨h.pending, h.regs, h.hiLatch, hm, h.t1, h.host, h.flash, h.streams, h.banks, h.engs, h.queues, h.ports⟩
  · exact ⟨h.pending, h.regs, h.hiLatch, h.t0, hm, h.host, h.flash, h.streams, h.banks, h.engs, h.queues, h.ports⟩
  · exact ⟨h.pending, h.regs, h.hiLatch, h.t0, h.t1, hm, h.flash, h.streams, h.banks, h.engs, h.queues, h.ports⟩

theorem State.cells_wf {s : State} (sp : Space) (h : Kept q s) : cellWf (s.cells sp) = true := by
  cases sp
  · exact h.t0
  · exact h.t1
  · exact h.host


theorem State.sparseWrite_kept {s : State} {a len : Nat} {bs : Cells 8} (h : Kept q s) : Kept q (s.sparseWrite a len bs) := by
  unfold State.sparseWrite
  refine Kept.foldlSnd _ (fun r p hr => ?_) h
  exact State.setCells_kept (cellFoldSet_wf _ _ _ (cellFilter_wf _ (State.cells_wf _ hr))) hr


theorem State.zeroRange_kept {s : State} {a : Nat} {len : Nat}
    (h : Kept q s)  : Kept q (State.zeroRange s a len) := by
  unfold State.zeroRange
  repeat' first
    | with_reducible assumption
    | with_reducible apply State.sparseWrite_kept

theorem State.storeBytes_kept {s : State} {a : Nat} {bs : List Byte}
    (h : Kept q s)  : Kept q (State.storeBytes s a bs) := by
  unfold State.storeBytes
  repeat' first
    | with_reducible assumption
    | with_reducible apply State.sparseWrite_kept

theorem State.showMove_kept {s : State} {cart : Nat} {owner : Nat} {fallow : Bool} {st : MoveState}
    (h : Kept q s)  : Kept q (State.showMove s cart owner fallow st) := by
  unfold State.showMove
  repeat' first
    | with_reducible assumption
    | with_reducible apply State.setBit_kept
    | with_reducible apply State.setFld_kept

theorem State.cartError_kept {s : State} {cart : Nat} {bit : Nat} {addr : Nat}
    (h : Kept q s)  : Kept q (State.cartError s cart bit addr) := by
  unfold State.cartError
  repeat' first
    | with_reducible assumption
    | with_reducible apply State.setReg64_kept
    | with_reducible apply State.addSat_kept
    | with_reducible apply State.setBit_kept
    | with_reducible apply State.setFld_kept

theorem State.countBytes_kept {s : State} {cart : Nat} {d : MoveDesc}
    (h : Kept q s)  : Kept q (State.countBytes s cart d) := by
  unfold State.countBytes
  repeat' first
    | with_reducible assumption
    | with_reducible apply State.add64_kept

theorem State.dropMove_kept {s : State} {cart : Nat} {fallow : Bool}
    (h : Kept q s)  : Kept q (State.dropMove s cart fallow) := by
  unfold State.dropMove
  repeat' (refine Kept.lit ?_ rfl rfl rfl rfl rfl rfl rfl rfl rfl rfl rfl rfl; with_reducible assumption)

theorem State.setFallowMove_kept {s : State} {cart : Nat} {mv : Move}
    (h : Kept q s)  : Kept q (State.setFallowMove s cart mv) := by
  unfold State.setFallowMove
  repeat' (refine Kept.lit ?_ rfl rfl rfl rfl rfl rfl rfl rfl rfl rfl rfl rfl; with_reducible assumption)

theorem State.senseSource_kept {s : State} {d : MoveDesc}
    (h : Kept q s)  : Kept q (State.senseSource s d).2 := by
  unfold State.senseSource
  repeat' first
    | with_reducible assumption
    | with_reducible apply Kept.iteSnd
    | with_reducible apply State.senseRange_kept

theorem State.copyMove_kept {s : State} {d : MoveDesc}
    (h : Kept q s)  : Kept q (State.copyMove s d).2 := by
  unfold State.copyMove
  repeat' first
    | with_reducible assumption
    | with_reducible apply State.sparseWrite_kept
    | with_reducible apply State.t1Range_kept
    | (extract_lets +onlyGivenNames v; clear_value v)
    | dsimp -zeta only
    | split

theorem execMove_kept {cart : Fin 8} {mdesc : BitVec 12} {srcStep : BitVec 16} {dstStep : BitVec 16} {s : State}
    (h : Kept q s)  : KeptX q (execMove cart mdesc srcStep dstStep s) := by
  unfold execMove
  repeat' first
    | with_reducible assumption
    | with_reducible apply KeptX.of_next
    | with_reducible apply Kept.ite
    | with_reducible apply State.cartError_kept
    | with_reducible apply State.showMove_kept
    | with_reducible apply State.faultSlice_kept
    | (extract_lets +onlyGivenNames v; refine (fun (hv : Kept q v) => ?_) ?_; clear_value v; rotate_left; subst v)
    | (extract_lets +onlyGivenNames v; clear_value v)
    | split
    | (refine Kept.lit ?_ rfl rfl rfl rfl rfl rfl rfl rfl rfl rfl rfl rfl; with_reducible assumption)

theorem State.moveCost_kept {s : State} {d : MoveDesc}
    (h : Kept q s)  : Kept q (State.moveCost s d).2 := by
  unfold State.moveCost
  repeat' first
    | with_reducible assumption
    | with_reducible apply Kept.iteSnd
    | with_reducible apply State.boundedCost_kept

theorem State.failPlanMove_kept {s : State} {cart : Nat} {mv : Move} {src : Bool} {addr : Nat}
    (h : Kept q s)  : Kept q (State.failPlanMove s cart mv src addr) := by
  unfold State.failPlanMove
  repeat' first
    | with_reducible assumption
    | with_reducible apply Kept.ite
    | with_reducible apply State.dropMove_kept
    | with_reducible apply State.cartError_kept
    | with_reducible apply State.showMove_kept
    | with_reducible apply State.retire_kept
    | with_reducible apply State.engPost_kept
    | with_reducible apply State.holeAll_kept
    | with_reducible apply State.logError_kept
    | (extract_lets +onlyGivenNames v; refine (fun (hv : Kept q v) => ?_) ?_; clear_value v; rotate_left; subst v)
    | dsimp -zeta only
    | (refine Kept.lit ?_ rfl rfl rfl rfl rfl rfl rfl rfl rfl rfl rfl rfl; with_reducible assumption)

theorem State.commitPlanMove_kept {s : State} {cart : Nat} {mv : Move} {a : CommitAnswer}
    (h : Kept q s)  : Kept q (State.commitPlanMove s cart mv a) := by
  unfold State.commitPlanMove
  repeat' first
    | with_reducible assumption
    | with_reducible apply Kept.ite
    | with_reducible apply State.failPlanMove_kept
    | with_reducible apply State.moveCost_kept
    | with_reducible apply State.copyMove_kept
    | with_reducible apply State.senseSource_kept
    | with_reducible apply State.dropMove_kept
    | with_reducible apply State.countBytes_kept
    | with_reducible apply State.showMove_kept
    | with_reducible apply State.retire_kept
    | with_reducible apply State.work_kept
    | with_reducible apply State.exhaust_kept
    | with_reducible apply State.engPost_kept
    | (extract_lets +onlyGivenNames v; refine (fun (hv : Kept q v) => ?_) ?_; clear_value v; rotate_left; subst v)
    | with_reducible refine Kept.snd (by with_reducible assumption) ?_
    | split

end Sys2Proof.Machine
end

