-- ==== Sys2Proof/Laws/KeepsCamera.lean ====
section
/-!
SUPPORT. Laws/KeepsCamera.lean: every operation of Machine/Camera.lean keeps the queue and a sound state sound.
-/
namespace Sys2Proof.Machine

variable {q : List Instr}

theorem State.updCam_kept {s : State} {f : CamState → CamState}
    (h : Kept q s)  : Kept q (State.updCam s f) := by
  unfold State.updCam
  repeat' (refine Kept.lit ?_ rfl rfl rfl rfl rfl rfl rfl rfl rfl rfl rfl rfl; with_reducible assumption)

theorem State.camDrop_kept {s : State}
    (h : Kept q s)  : Kept q (State.camDrop s) := by
  unfold State.camDrop
  repeat' first
    | with_reducible assumption
    | with_reducible apply State.raise_kept
    | with_reducible apply State.addSat_kept

theorem State.camBad_kept {s : State} {sub : Nat}
    (h : Kept q s)  : Kept q (State.camBad s sub) := by
  unfold State.camBad
  repeat' first
    | with_reducible assumption
    | with_reducible apply Kept.ite
    | with_reducible apply State.updCam_kept
    | with_reducible apply State.logViolation_kept

theorem State.camEndBad_kept {s : State}
    (h : Kept q s)  : Kept q (State.camEndBad s) := by
  unfold State.camEndBad
  repeat' first
    | with_reducible assumption
    | with_reducible apply State.updCam_kept
    | with_reducible apply State.raise_kept
    | with_reducible apply State.addSat_kept

theorem State.camOther_kept {s : State}
    (h : Kept q s)  : Kept q (State.camOther s) := by
  unfold State.camOther
  repeat' first
    | with_reducible assumption
    | with_reducible apply State.addSat_kept

theorem execCamFrameStart_kept {vc : Fin 4} {s : State}
    (h : Kept q s)  : KeptX q (execCamFrameStart vc s) := by
  unfold execCamFrameStart
  repeat' first
    | with_reducible assumption
    | with_reducible apply KeptX.of_next
    | with_reducible apply Kept.ite
    | with_reducible apply State.camOther_kept
    | with_reducible apply State.camEndBad_kept
    | with_reducible apply State.camBad_kept
    | with_reducible apply State.camDrop_kept
    | with_reducible apply State.updCam_kept
    | with_reducible apply State.setBit_kept
    | (extract_lets +onlyGivenNames v; refine (fun (hv : Kept q v) => ?_) ?_; clear_value v; rotate_left; subst v)
    | (extract_lets +onlyGivenNames v; have hp := fun a => Kept q (v a); clear hp; subst v)
    | dsimp -zeta only
    | split

theorem execCamLongPacket_kept {p : LongPacket} {s : State}
    (h : Kept q s)  : KeptX q (execCamLongPacket p s) := by
  unfold execCamLongPacket
  repeat' first
    | with_reducible assumption
    | with_reducible apply KeptX.of_next
    | with_reducible apply Kept.ite
    | with_reducible apply State.camOther_kept
    | with_reducible apply State.camBad_kept
    | with_reducible apply State.updCam_kept
    | with_reducible apply State.storeBytes_kept
    | with_reducible apply State.logViolation_kept
    | (extract_lets +onlyGivenNames v; refine (fun (hv : Kept q v) => ?_) ?_; clear_value v; rotate_left; subst v)
    | (extract_lets +onlyGivenNames v; clear_value v)
    | split

theorem execCamFrameEnd_kept {vc : Fin 4} {s : State}
    (h : Kept q s)  : KeptX q (execCamFrameEnd vc s) := by
  unfold execCamFrameEnd
  repeat' first
    | with_reducible assumption
    | with_reducible apply KeptX.of_next
    | with_reducible apply Kept.ite
    | with_reducible apply State.camOther_kept
    | with_reducible apply State.camEndBad_kept
    | with_reducible apply State.camBad_kept
    | with_reducible apply State.camDrop_kept
    | with_reducible apply State.updCam_kept
    | with_reducible apply State.logViolation_kept
    | with_reducible apply State.addSat_kept

theorem execCamNoFrame_kept {s : State}
    (h : Kept q s)  : KeptX q (execCamNoFrame s) := by
  unfold execCamNoFrame
  repeat' first
    | with_reducible assumption
    | with_reducible apply KeptX.of_next
    | with_reducible apply Kept.ite
    | with_reducible apply State.updCam_kept
    | with_reducible apply State.logViolation_kept
    | with_reducible apply State.raise_kept
    | with_reducible apply State.reach_kept
    | with_reducible apply State.setBit_kept

theorem State.camArm_kept {s : State}
    (h : Kept q s)  : Kept q (State.camArm s) := by
  unfold State.camArm
  repeat' first
    | with_reducible assumption
    | with_reducible apply Kept.ite
    | with_reducible apply State.updCam_kept
    | with_reducible apply State.storeBytes_kept
    | with_reducible apply State.setBit_kept
    | (extract_lets +onlyGivenNames v; refine (fun (hv : Kept q v) => ?_) ?_; clear_value v; rotate_left; subst v)
    | (extract_lets +onlyGivenNames v; clear_value v)
    | split

theorem State.zoneStep_kept {s : State} {base : Nat} {z : Nat}
    (h : Kept q s)  : Kept q (State.zoneStep s base z) := by
  unfold State.zoneStep
  repeat' first
    | with_reducible assumption
    | with_reducible apply Kept.ite
    | with_reducible apply State.updCam_kept
    | with_reducible apply State.setBit_kept

theorem State.updateZones_kept {s : State}
    (h : Kept q s)  : Kept q (State.updateZones s) := by
  unfold State.updateZones
  repeat' first
    | with_reducible assumption
    | with_reducible apply Kept.ite
    | with_reducible refine Kept.foldl _ (fun _ _ _ => ?_) ?_
    | with_reducible apply State.zoneStep_kept
    | with_reducible apply State.setBit_kept
    | (extract_lets +onlyGivenNames v; refine (fun (hv : Kept q v) => ?_) ?_; clear_value v; rotate_left; subst v)
    | (extract_lets +onlyGivenNames v; clear_value v)
    | split

end Sys2Proof.Machine
end

