-- ==== Sys2Proof/Laws/KeepsFixJob.lean ====
section
/-!
SUPPORT. Laws/KeepsFixJob.lean: every operation of Machine/FixJob.lean keeps the queue and a sound state sound.
-/
namespace Sys2Proof.Machine

variable {q : List Instr}

theorem State.f32_kept {s : State} {b : Nat}
    (h : Kept q s)  : Kept q (State.f32 s b).2 := by
  unfold State.f32
  repeat' first
    | with_reducible assumption
    | with_reducible apply State.draw_kept
    | dsimp -zeta only
    | split

theorem State.f32s_kept {s : State} {x1 : List Nat}
    (h : Kept q s)  : Kept q (State.f32s s x1).2 := by
  induction x1 generalizing s with
  | nil =>
    unfold State.f32s
    repeat' with_reducible assumption
  | cons x l ih =>
    unfold State.f32s
    repeat' first
      | with_reducible assumption
      | with_reducible apply State.f32_kept
      | with_reducible apply ih

theorem State.applyZone_kept {s : State} {z : Nat}
    (h : Kept q s)  : Kept q (State.applyZone s z).2 := by
  unfold State.applyZone
  repeat' first
    | with_reducible assumption
    | with_reducible apply Kept.iteSnd
    | (extract_lets +onlyGivenNames v; clear_value v)
    | dsimp -zeta only
    | (refine Kept.lit ?_ rfl rfl rfl rfl rfl rfl rfl rfl rfl rfl rfl rfl; with_reducible assumption)
    | (refine Kept.lit ?_ rfl rfl rfl rfl rfl rfl rfl rfl rfl rfl rfl rfl; with_reducible apply State.f32s_kept)

theorem State.freeHop_kept {s : State} {z : Zone}
    (h : Kept q s)  : Kept q (State.freeHop s z).2.2 := by
  unfold State.freeHop
  repeat' first
    | (extract_lets +onlyGivenNames v; clear_value v)
    | dsimp -zeta only
    | (refine Kept.lit ?_ rfl rfl rfl rfl rfl rfl rfl rfl rfl rfl rfl rfl; with_reducible assumption)

theorem State.hops_kept {s : State} {z : Zone} {x2 : List (List (List F32) × List F32)}
    (h : Kept q s)  : Kept q (State.hops s z x2).2.2 := by
  induction x2 generalizing s z with
  | nil =>
    unfold State.hops
    repeat' with_reducible assumption
  | cons x l ih =>
    unfold State.hops
    repeat' first
      | with_reducible assumption
      | with_reducible apply Kept.iteSnd2
      | with_reducible apply State.freeHop_kept
      | with_reducible apply ih

theorem State.zoneFrames_kept {s : State} {z : Nat} {kfr : Nat}
    (h : Kept q s)  : Kept q (State.zoneFrames s z kfr).2 := by
  unfold State.zoneFrames
  repeat' first
    | with_reducible assumption
    | (extract_lets +onlyGivenNames v; clear_value v)
    | dsimp -zeta only
    | split
    | (refine Kept.lit ?_ rfl rfl rfl rfl rfl rfl rfl rfl rfl rfl rfl rfl; with_reducible apply State.hops_kept)

theorem State.framing_kept {s : State} {j : Nat}
    (h : Kept q s)  : Kept q (State.framing s j) := by
  unfold State.framing
  repeat' first
    | with_reducible assumption
    | with_reducible refine Kept.foldl _ (fun _ _ _ => ?_) ?_
    | with_reducible refine Kept.foldlSnd _ (fun _ _ _ => ?_) ?_
    | with_reducible apply State.zoneFrames_kept
    | with_reducible apply State.storeBytes_kept
    | dsimp -zeta only
    | with_reducible refine Kept.snd (by with_reducible assumption) ?_
    | split

theorem State.outputRow_kept {s : State} {base : Nat} {o : Nat} {x : AudioOut} {row : Nat}
    (h : Kept q s)  : Kept q (State.outputRow s base o x row) := by
  unfold State.outputRow
  repeat' first
    | with_reducible assumption
    | with_reducible apply State.setOut_kept
    | with_reducible apply State.reportUnread_kept
    | with_reducible apply State.senseRange_kept
    | (extract_lets +onlyGivenNames v; clear_value v)
    | with_reducible refine Kept.snd (by with_reducible assumption) ?_
    | split

theorem State.outputJob_kept {s : State} {j : Nat}
    (h : Kept q s)  : Kept q (State.outputJob s j) := by
  unfold State.outputJob
  repeat' first
    | with_reducible assumption
    | with_reducible apply Kept.ite
    | with_reducible refine Kept.foldl _ (fun _ _ _ => ?_) ?_
    | with_reducible apply State.outputRow_kept
    | split

theorem State.cropJob_kept {s : State} {j : Nat}
    (h : Kept q s)  : Kept q (State.cropJob s j) := by
  unfold State.cropJob
  repeat' first
    | with_reducible assumption
    | with_reducible refine Kept.foldl _ (fun _ _ _ => ?_) ?_
    | with_reducible apply State.storeBytes_kept
    | with_reducible apply State.reportUnread_kept
    | with_reducible apply State.senseRange_kept
    | with_reducible refine Kept.snd (by with_reducible assumption) ?_
    | split

theorem State.runJob_kept {s : State} {e : Nat} {j : Nat}
    (h : Kept q s)  : Kept q (State.runJob s e j) := by
  unfold State.runJob
  repeat' first
    | with_reducible assumption
    | with_reducible apply Kept.ite
    | with_reducible apply State.cropJob_kept
    | with_reducible apply State.outputJob_kept
    | with_reducible apply State.framing_kept

theorem execFixjob_kept {e : EngineId} {job : BitVec 16} {s : State}
    (h : Kept q s)  : KeptX q (execFixjob e job s) := by
  unfold execFixjob
  repeat' first
    | with_reducible assumption
    | with_reducible apply KeptX.of_next
    | with_reducible apply State.runJob_kept
    | with_reducible refine State.runWord_kept ?_ (fun _ _ => ?_)

end Sys2Proof.Machine
end

