-- ==== Sys2Proof/Laws/KeepsPools.lean ====
section
/-!
SUPPORT. Laws/KeepsPools.lean: every operation of Machine/Pools.lean keeps the queue and a sound state sound.
-/
namespace Sys2Proof.Machine

variable {q : List Instr}

theorem State.rehome_kept {s : State} {d : MoveDatum} {a : Nat}
    (h : Kept q s)  : Kept q (State.rehome s d a) := by
  unfold State.rehome
  repeat' first
    | with_reducible assumption
    | with_reducible apply State.updStream_kept
    | split

theorem State.choose_kept {s : State} {tier : Tier} {len : Nat}
    (h : Kept q s)  : Kept q (State.choose s tier len).2 := by
  unfold State.choose
  repeat' first
    | with_reducible assumption
    | with_reducible apply Kept.iteSnd
    | with_reducible apply State.draw_kept

theorem State.pickCart_kept {s : State}
    (h : Kept q s)  : Kept q (State.pickCart s).2 := by
  unfold State.pickCart
  repeat' first
    | with_reducible assumption
    | with_reducible apply Kept.iteSnd
    | with_reducible apply State.draw_kept

theorem State.lostDatum_kept {s : State} {d : MoveDatum} {sub : Nat} {addr : Nat}
    (h : Kept q s)  : Kept q (State.lostDatum s d sub addr) := by
  unfold State.lostDatum
  repeat' first
    | with_reducible assumption
    | with_reducible apply State.endStream_kept
    | with_reducible apply State.logError_kept
    | (extract_lets +onlyGivenNames v; refine (fun (hv : Kept q v) => ?_) ?_; clear_value v; rotate_left; subst v)
    | split

theorem State.moveNow_kept {s : State} {d : MoveDatum} {kind : Nat} {src : Nat} {dst : Nat} {len : Nat}
    (h : Kept q s)  : KeptO q (State.moveNow s d kind src dst len) := by
  unfold State.moveNow
  repeat' first
    | with_reducible assumption
    | with_reducible apply KeptO.of_some
    | with_reducible apply KeptO.of_none
    | with_reducible apply KeptO.ite
    | with_reducible apply State.lostDatum_kept
    | with_reducible apply State.pickCart_kept
    | with_reducible apply State.rehome_kept
    | with_reducible apply State.copyMove_kept
    | with_reducible apply State.senseSource_kept
    | with_reducible apply State.countBytes_kept
    | with_reducible apply State.cartError_kept
    | with_reducible apply State.showMove_kept
    | with_reducible apply State.logError_kept
    | (extract_lets +onlyGivenNames v; refine (fun (hv : Kept q v) => ?_) ?_; clear_value v; rotate_left; subst v)
    | (extract_lets +onlyGivenNames v; clear_value v)
    | with_reducible refine Kept.snd (by with_reducible assumption) ?_
    | split
    | (refine Kept.lit ?_ rfl rfl rfl rfl rfl rfl rfl rfl rfl rfl rfl rfl; with_reducible refine Kept.snd (by with_reducible assumption) ?_)

theorem State.issueFar_kept {s : State} {d : MoveDatum} {src : Nat} {dst : Nat} {len : Nat}
    (h : Kept q s)  : KeptO q (State.issueFar s d src dst len) := by
  unfold State.issueFar
  repeat' first
    | with_reducible assumption
    | with_reducible apply KeptO.of_some
    | with_reducible apply KeptO.of_none
    | with_reducible apply KeptO.ite
    | with_reducible apply State.pickCart_kept
    | with_reducible apply State.cartError_kept
    | with_reducible apply State.showMove_kept
    | (extract_lets +onlyGivenNames v; refine (fun (hv : Kept q v) => ?_) ?_; clear_value v; rotate_left; subst v)
    | (extract_lets +onlyGivenNames v; clear_value v)
    | with_reducible refine Kept.snd (by with_reducible assumption) ?_
    | split
    | (refine Kept.lit ?_ rfl rfl rfl rfl rfl rfl rfl rfl rfl rfl rfl rfl; with_reducible refine Kept.snd (by with_reducible assumption) ?_)

theorem State.moveTo_kept {s : State} {x1 : Homed} {tier : Tier}
    (h : Kept q s)  : Kept q (State.moveTo s x1 tier) := by
  unfold State.moveTo
  repeat' first
    | with_reducible assumption
    | with_reducible apply Kept.ite
    | with_reducible apply Kept.getD
    | with_reducible apply State.issueFar_kept
    | with_reducible apply State.moveNow_kept
    | with_reducible apply State.choose_kept
    | with_reducible refine Kept.snd (by with_reducible assumption) ?_
    | split

theorem State.zeroNew_kept {s : State} {tier : Tier} {d : MoveDatum} {len : Nat}
    (h : Kept q s)  : Kept q (State.zeroNew s tier d len).2 := by
  unfold State.zeroNew
  repeat' first
    | with_reducible assumption
    | with_reducible apply State.moveNow_kept
    | with_reducible apply State.choose_kept
    | dsimp -zeta only
    | with_reducible refine Kept.snd (by with_reducible assumption) ?_
    | with_reducible refine Kept.ofSome (by with_reducible assumption) ?_
    | split

theorem State.closeGaps_kept {s : State} {tier : Tier}
    (h : Kept q s)  : Kept q (State.closeGaps s tier) := by
  unfold State.closeGaps
  repeat' first
    | with_reducible assumption
    | with_reducible apply Kept.ite
    | with_reducible refine Kept.foldl _ (fun _ _ _ => ?_) ?_
    | with_reducible apply Kept.getD
    | with_reducible apply State.moveNow_kept
    | split

theorem State.makeRoom_kept {s : State} {tier : Tier} {len : Nat}
    (h : Kept q s)  : Kept q (State.makeRoom s tier len) := by
  unfold State.makeRoom
  repeat' first
    | with_reducible assumption
    | with_reducible apply Kept.ite
    | with_reducible apply State.closeGaps_kept

end Sys2Proof.Machine
end

