-- ==== Sys2Proof/Laws/KeepsApply.lean ====
section
/-!
SUPPORT. Laws/KeepsApply.lean: every operation of Machine/Apply.lean keeps the queue and a sound state sound.
-/
namespace Sys2Proof.Machine

variable {q : List Instr}

theorem State.take_kept {s : State} {w : Want} {offs : List Nat}
    (h : Kept q s)  : Kept q (State.take s w offs) := by
  unfold State.take
  repeat' first
    | with_reducible assumption
    | with_reducible apply Kept.ite
    | with_reducible refine Kept.foldl _ (fun _ _ _ => ?_) ?_
    | with_reducible apply State.setReg_kept

theorem State.tickRefused_kept {s : State}
    (h : Kept q s)  : Kept q (State.tickRefused s) := by
  unfold State.tickRefused
  repeat' first
    | with_reducible assumption
    | with_reducible apply State.logError_kept
    | with_reducible apply State.raise_kept

theorem State.newSource_kept {s : State}
    (h : Kept q s)  : Kept q (State.newSource s) := by
  unfold State.newSource
  repeat' first
    | with_reducible assumption
    | with_reducible apply Kept.ite
    | with_reducible apply State.tickRefused_kept
    | with_reducible apply State.setBit_kept
    | (extract_lets +onlyGivenNames v; clear_value v)
    | (refine Kept.lit ?_ rfl rfl rfl rfl rfl rfl rfl rfl rfl rfl rfl rfl; with_reducible apply State.setBit_kept)

theorem State.applyTick_kept {s : State} {w : Want}
    (h : Kept q s)  : Kept q (State.applyTick s w) := by
  unfold State.applyTick
  repeat' first
    | with_reducible assumption
    | with_reducible apply Kept.ite
    | with_reducible apply State.newSource_kept
    | with_reducible apply State.tickRefused_kept
    | with_reducible apply State.take_kept
    | (extract_lets +onlyGivenNames v; clear_value v)
    | (refine Kept.lit ?_ rfl rfl rfl rfl rfl rfl rfl rfl rfl rfl rfl rfl; with_reducible apply State.take_kept)

theorem State.applyStage_kept {s : State} {w : Want}
    (h : Kept q s)  : Kept q (State.applyStage s w) := by
  unfold State.applyStage
  repeat' first
    | with_reducible assumption
    | with_reducible apply Kept.ite
    | with_reducible apply State.setBit_kept
    | with_reducible apply State.setReg_kept
    | (extract_lets +onlyGivenNames v; refine (fun (hv : Kept q v) => ?_) ?_; clear_value v; rotate_left; subst v)
    | split
    | (refine Kept.lit ?_ rfl rfl rfl rfl rfl rfl rfl rfl rfl rfl rfl rfl; with_reducible assumption)

theorem State.stageReady_kept {s : State}
    (h : Kept q s)  : Kept q (State.stageReady s) := by
  unfold State.stageReady
  repeat' first
    | with_reducible assumption
    | with_reducible apply Kept.ite
    | with_reducible apply State.setBit_kept
    | (extract_lets +onlyGivenNames v; refine (fun (hv : Kept q v) => ?_) ?_; clear_value v; rotate_left; subst v)
    | split
    | (refine Kept.lit ?_ rfl rfl rfl rfl rfl rfl rfl rfl rfl rfl rfl rfl; with_reducible assumption)

theorem State.entryGone_kept {s : State} {e : Nat}
    (h : Kept q s)  : Kept q (State.entryGone s e) := by
  unfold State.entryGone
  repeat' first
    | with_reducible assumption
    | with_reducible refine Kept.foldl _ (fun _ _ _ => ?_) ?_
    | with_reducible apply State.lostDatum_kept

theorem State.applyHwt_kept {s : State} {w : Want}
    (h : Kept q s)  : Kept q (State.applyHwt s w) := by
  unfold State.applyHwt
  repeat' first
    | with_reducible assumption
    | with_reducible apply Kept.ite
    | with_reducible refine Kept.foldl _ (fun _ _ _ => ?_) ?_
    | with_reducible apply State.entryGone_kept
    | with_reducible apply State.setFld_kept
    | with_reducible apply State.setReg_kept

theorem State.showModes_kept {s : State}
    (h : Kept q s)  : Kept q (State.showModes s) := by
  unfold State.showModes
  repeat' first
    | with_reducible assumption
    | with_reducible refine Kept.foldl _ (fun _ _ _ => ?_) ?_
    | with_reducible apply State.setFld_kept

theorem State.applyPager_kept {s : State} {w : Want}
    (h : Kept q s)  : Kept q (State.applyPager s w) := by
  unfold State.applyPager
  repeat' first
    | with_reducible assumption
    | with_reducible apply Kept.ite
    | with_reducible apply State.showModes_kept
    | with_reducible apply State.take_kept
    | dsimp -zeta only
    | (refine Kept.lit ?_ rfl rfl rfl rfl rfl rfl rfl rfl rfl rfl rfl rfl; with_reducible apply State.showModes_kept)
    | (refine Kept.lit ?_ rfl rfl rfl rfl rfl rfl rfl rfl rfl rfl rfl rfl; with_reducible apply State.choose_kept)

theorem State.applyAp_kept {s : State} {w : Want} {k : Nat}
    (h : Kept q s)  : Kept q (State.applyAp s w k) := by
  unfold State.applyAp
  repeat' first
    | with_reducible assumption
    | with_reducible apply Kept.ite
    | with_reducible apply State.take_kept
    | with_reducible apply State.applyPort_kept

theorem State.recheckPorts_kept {s : State}
    (h : Kept q s)  : Kept q (State.recheckPorts s) := by
  unfold State.recheckPorts
  repeat' first
    | with_reducible assumption
    | with_reducible apply Kept.ite
    | with_reducible refine Kept.foldl _ (fun _ _ _ => ?_) ?_
    | with_reducible apply State.applyPort_kept

theorem State.applyJob_kept {s : State} {w : Want} {e : Nat} {j : Nat} {cfg : Nat} {out : Nat} {stat : Nat}
    (h : Kept q s)  : Kept q (State.applyJob s w e j cfg out stat) := by
  unfold State.applyJob
  repeat' first
    | with_reducible assumption
    | with_reducible apply Kept.ite
    | with_reducible apply State.take_kept
    | with_reducible apply State.setBit_kept
    | with_reducible apply State.setReg_kept
    | (extract_lets +onlyGivenNames v; refine (fun (hv : Kept q v) => ?_) ?_; clear_value v; rotate_left; subst v)
    | split

theorem State.applyZoneRegs_kept {s : State} {w : Want} {z : Nat}
    (h : Kept q s)  : Kept q (State.applyZoneRegs s w z) := by
  unfold State.applyZoneRegs
  repeat' first
    | with_reducible assumption
    | with_reducible apply Kept.ite
    | with_reducible apply State.take_kept
    | with_reducible apply State.applyZone_kept
    | with_reducible apply State.setBit_kept
    | with_reducible refine Kept.snd (by with_reducible assumption) ?_
    | split

theorem State.applyGlm_kept {s : State} {w : Want} {j : Nat}
    (h : Kept q s)  : Kept q (State.applyGlm s w j) := by
  unfold State.applyGlm
  repeat' first
    | with_reducible assumption
    | with_reducible apply Kept.ite
    | with_reducible apply State.take_kept
    | with_reducible apply State.setBit_kept

theorem State.camRefused_kept {s : State}
    (h : Kept q s)  : Kept q (State.camRefused s) := by
  unfold State.camRefused
  repeat' first
    | with_reducible assumption
    | with_reducible apply State.raise_kept

theorem State.camReady_kept {s : State}
    (h : Kept q s)  : Kept q (State.camReady s) := by
  unfold State.camReady
  repeat' first
    | with_reducible assumption
    | with_reducible apply Kept.ite
    | with_reducible apply State.updCam_kept
    | with_reducible apply State.setBit_kept
    | with_reducible apply State.setFld_kept
    | split

theorem State.camOff_kept {s : State}
    (h : Kept q s)  : Kept q (State.camOff s) := by
  unfold State.camOff
  repeat' first
    | with_reducible assumption
    | with_reducible apply State.updCam_kept
    | with_reducible apply State.setBit_kept
    | with_reducible apply State.setFld_kept

theorem State.applyCam_kept {s : State} {w : Want}
    (h : Kept q s)  : Kept q (State.applyCam s w) := by
  unfold State.applyCam
  repeat' first
    | with_reducible assumption
    | with_reducible apply Kept.ite
    | with_reducible apply State.camOff_kept
    | with_reducible apply State.camReady_kept
    | with_reducible apply State.camRefused_kept
    | with_reducible apply State.take_kept
    | with_reducible apply State.updCam_kept
    | with_reducible apply State.setReg_kept
    | split

theorem State.applyWant_kept {s : State} {w : Want}
    (h : Kept q s)  : Kept q (State.applyWant s w) := by
  unfold State.applyWant
  repeat' first
    | with_reducible assumption
    | with_reducible apply Kept.ite
    | with_reducible refine Kept.foldl _ (fun _ _ _ => ?_) ?_
    | with_reducible apply State.applyCam_kept
    | with_reducible apply State.applyGlm_kept
    | with_reducible apply State.applyZoneRegs_kept
    | with_reducible apply State.applyJob_kept
    | with_reducible apply State.recheckPorts_kept
    | with_reducible apply State.applyAp_kept
    | with_reducible apply State.applyPager_kept
    | with_reducible apply State.applyHwt_kept
    | with_reducible apply State.applyStage_kept
    | with_reducible apply State.applyTick_kept

theorem State.applyHeld_kept {s : State}
    (h : Kept q s)  : Kept q (State.applyHeld s) := by
  unfold State.applyHeld
  repeat' first
    | with_reducible assumption
    | with_reducible apply Kept.ite
    | with_reducible apply State.applyWant_kept
    | (refine Kept.lit ?_ rfl rfl rfl rfl rfl rfl rfl rfl rfl rfl rfl rfl; with_reducible assumption)

end Sys2Proof.Machine
end

