-- ==== Sys2Proof/Laws/KeepsHostQueue.lean ====
section
/-!
SUPPORT. Laws/KeepsHostQueue.lean: every operation of Machine/HostQueue.lean keeps the queue and a sound state sound.
-/
namespace Sys2Proof.Machine

variable {q : List Instr}

theorem State.queueZero_kept {s : State} {x1 : Nat}
    (h : Kept q s)  : Kept q (State.queueZero s x1) := by
  unfold State.queueZero
  repeat' first
    | with_reducible assumption
    | with_reducible apply State.updQueue_kept
    | with_reducible apply State.setReg_kept

theorem State.enableQueue_kept {s : State} {x1 : Nat}
    (h : Kept q s)  : Kept q (State.enableQueue s x1) := by
  unfold State.enableQueue
  repeat' first
    | with_reducible assumption
    | with_reducible apply Kept.ite
    | with_reducible apply State.queueZero_kept
    | with_reducible apply State.faultQueue_kept
    | with_reducible apply State.setBit_kept

theorem State.stopLoad_kept {s : State}
    (h : Kept q s)  : Kept q (State.stopLoad s) := by
  unfold State.stopLoad
  repeat' first
    | with_reducible assumption
    | with_reducible apply State.showMove_kept
    | with_reducible apply State.setBit_kept
    | dsimp -zeta only
    | (refine Kept.lit ?_ rfl rfl rfl rfl rfl rfl rfl rfl rfl rfl rfl rfl; with_reducible refine Kept.foldl _ (fun _ _ _ => ?_) ?_)

theorem State.stopMoves_kept {s : State} {mine : MoveDatum → Bool}
    (h : Kept q s)  : Kept q (State.stopMoves s mine).2 := by
  unfold State.stopMoves
  repeat' first
    | with_reducible assumption
    | with_reducible refine Kept.foldl _ (fun _ _ _ => ?_) ?_
    | with_reducible apply State.showMove_kept
    | (extract_lets +onlyGivenNames v; refine (fun (hv : Kept q v) => ?_) ?_; clear_value v; rotate_left; subst v)
    | (extract_lets +onlyGivenNames v; clear_value v)
    | dsimp -zeta only
    | (refine Kept.lit ?_ rfl rfl rfl rfl rfl rfl rfl rfl rfl rfl rfl rfl; with_reducible assumption)

theorem State.stopReq_kept {s : State} {x1 : Nat} {r : Req}
    (h : Kept q s)  : Kept q (State.stopReq s x1 r).2 := by
  unfold State.stopReq
  repeat' first
    | with_reducible assumption
    | with_reducible apply Kept.iteSnd
    | with_reducible apply State.stopLoad_kept
    | with_reducible apply State.updStream_kept
    | dsimp -zeta only
    | (refine Kept.lit ?_ rfl rfl rfl rfl rfl rfl rfl rfl rfl rfl rfl rfl; with_reducible apply State.stopMoves_kept)

theorem State.resetQueue_kept {s : State} {x1 : Nat}
    (h : Kept q s)  : Kept q (State.resetQueue s x1) := by
  unfold State.resetQueue
  repeat' first
    | with_reducible assumption
    | with_reducible refine Kept.foldl _ (fun _ _ _ => ?_) ?_
    | with_reducible apply State.stopReq_kept
    | with_reducible apply State.queueZero_kept
    | with_reducible apply State.showHeld_kept
    | with_reducible apply State.updQueue_kept
    | with_reducible apply State.setBit_kept
    | with_reducible apply State.setFld_kept

theorem State.writeQctrl_kept {s : State} {x1 : Nat} {v : Word}
    (h : Kept q s)  : Kept q (State.writeQctrl s x1 v) := by
  unfold State.writeQctrl
  repeat' first
    | with_reducible assumption
    | with_reducible apply Kept.ite
    | with_reducible apply State.resetQueue_kept
    | with_reducible apply State.enableQueue_kept
    | with_reducible apply State.setFld_kept

theorem execQueueEnable_kept {i : Iface} {x1 : Fin 16} {v : Word} {s : State}
    (h : Kept q s)  : KeptX q (execQueueEnable i x1 v s) := by
  unfold execQueueEnable
  repeat' first
    | with_reducible assumption
    | with_reducible apply KeptX.of_next
    | with_reducible apply Kept.ite
    | with_reducible apply State.writeQctrl_kept

theorem execQueueReset_kept {i : Iface} {x1 : Fin 16} {v : Word} {s : State}
    (h : Kept q s)  : KeptX q (execQueueReset i x1 v s) := by
  unfold execQueueReset
  repeat' first
    | with_reducible assumption
    | with_reducible apply KeptX.of_next
    | with_reducible apply Kept.ite
    | with_reducible apply State.writeQctrl_kept

theorem State.placed_kept {s : State} {l : List HostBytes} (h : Kept q s) : Kept q (s.placed l) := by
  unfold State.placed
  refine Kept.foldl _ (fun s b hs => ?_) h
  exact ⟨hs.pending, hs.regs, hs.hiLatch, hs.t0, hs.t1, cellSetMany_wf _ hs.host, hs.flash, hs.streams, hs.banks, hs.engs, hs.queues, hs.ports⟩


theorem State.deadDoorbell_kept {s : State} {x1 : Nat}
    (h : Kept q s)  : Kept q (State.deadDoorbell s x1) := by
  unfold State.deadDoorbell
  repeat' first
    | with_reducible assumption
    | with_reducible apply State.logViolation_kept

theorem State.ringSq_kept {s : State} {x1 : Nat} {v : Nat}
    (h : Kept q s)  : Kept q (State.ringSq s x1 v) := by
  unfold State.ringSq
  repeat' first
    | with_reducible assumption
    | with_reducible apply Kept.ite
    | with_reducible apply State.deadDoorbell_kept
    | with_reducible apply State.faultQueue_kept
    | with_reducible apply State.updQueue_kept

theorem State.ringCq_kept {s : State} {x1 : Nat} {v : Nat}
    (h : Kept q s)  : Kept q (State.ringCq s x1 v) := by
  unfold State.ringCq
  repeat' first
    | with_reducible assumption
    | with_reducible apply Kept.ite
    | with_reducible apply State.deadDoorbell_kept
    | with_reducible apply State.updQueue_kept
    | with_reducible apply State.logViolation_kept

theorem execSqDoorbell_kept {i : Iface} {x1 : Fin 16} {index : BitVec 16} {placed : List HostBytes} {s : State}
    (h : Kept q s)  : KeptX q (execSqDoorbell i x1 index placed s) := by
  unfold execSqDoorbell
  repeat' first
    | with_reducible assumption
    | with_reducible apply KeptX.of_next
    | with_reducible apply Kept.ite
    | with_reducible apply State.ringSq_kept
    | with_reducible apply State.placed_kept

theorem execCqDoorbell_kept {i : Iface} {x1 : Fin 16} {index : BitVec 16} {s : State}
    (h : Kept q s)  : KeptX q (execCqDoorbell i x1 index s) := by
  unfold execCqDoorbell
  repeat' first
    | with_reducible assumption
    | with_reducible apply KeptX.of_next
    | with_reducible apply Kept.ite
    | with_reducible apply State.ringCq_kept

theorem State.enterWindow_kept {s : State} {x1 : Nat} {r : Req} {result : Option (Nat × Nat × Nat)}
    (h : Kept q s)  : Kept q (State.enterWindow s x1 r result) := by
  unfold State.enterWindow
  repeat' first
    | with_reducible assumption
    | with_reducible apply Kept.ite
    | with_reducible apply State.updQueue_kept

theorem State.joinReq_kept {s : State} {x1 : Nat} {r : Req}
    (h : Kept q s)  : Kept q (State.joinReq s x1 r) := by
  unfold State.joinReq
  repeat' first
    | with_reducible assumption
    | with_reducible apply State.updQueue_kept

theorem State.takeRecord_kept {s : State} {x1 : Nat} {bs : List Byte}
    (h : Kept q s)  : Kept q (State.takeRecord s x1 bs) := by
  unfold State.takeRecord
  repeat' first
    | with_reducible assumption
    | with_reducible apply Kept.ite
    | with_reducible apply State.joinReq_kept
    | with_reducible apply State.enterWindow_kept
    | with_reducible apply State.logViolation_kept
    | (extract_lets +onlyGivenNames v; have hp := fun a b c => Kept q (v a b c); clear hp; subst v)
    | (extract_lets +onlyGivenNames v; clear_value v)
    | dsimp -zeta only
    | split

theorem execRequestFetch_kept {a : HostAnswer} {s : State}
    (h : Kept q s)  : KeptX q (execRequestFetch a s) := by
  unfold execRequestFetch
  repeat' first
    | with_reducible assumption
    | with_reducible apply KeptX.of_next
    | with_reducible apply Kept.ite
    | with_reducible apply Kept.iteSnd
    | with_reducible apply State.takeRecord_kept
    | with_reducible apply State.faultQueue_kept
    | with_reducible apply State.senseRange_kept
    | with_reducible apply State.logFlips_kept
    | with_reducible apply State.setFld_kept
    | dsimp -zeta only
    | split
    | (refine Kept.lit ?_ rfl rfl rfl rfl rfl rfl rfl rfl rfl rfl rfl rfl; with_reducible assumption)

theorem execCompletionPost_kept {x0 : Fin 16} {a : HostAnswer} {s : State}
    (h : Kept q s)  : KeptX q (execCompletionPost x0 a s) := by
  unfold execCompletionPost
  repeat' first
    | with_reducible assumption
    | with_reducible apply KeptX.of_next
    | with_reducible apply Kept.ite
    | with_reducible apply State.writeRecord_kept
    | with_reducible apply State.faultQueue_kept
    | with_reducible apply State.updQueue_kept
    | split

theorem execHeldResultFlush_kept {x0 : Fin 16} {s : State}
    (h : Kept q s)  : KeptX q (execHeldResultFlush x0 s) := by
  unfold execHeldResultFlush
  repeat' first
    | with_reducible assumption
    | with_reducible apply KeptX.of_next
    | with_reducible apply State.flushHeld_kept

theorem execQmodTimeout_kept {x0 : Fin 16} {s : State}
    (h : Kept q s)  : KeptX q (execQmodTimeout x0 s) := by
  unfold execQmodTimeout
  repeat' first
    | with_reducible assumption
    | with_reducible apply KeptX.of_next
    | with_reducible apply Kept.ite
    | with_reducible apply State.signal_kept
    | with_reducible apply State.reach_kept

theorem State.streamResults_kept {s : State} {sc : Nat} {r : Nat} {t : Stream}
    (h : Kept q s)  : Kept q (State.streamResults s sc r t) := by
  unfold State.streamResults
  repeat' first
    | with_reducible assumption
    | with_reducible apply Kept.ite
    | with_reducible apply State.postHole_kept
    | with_reducible apply State.postResult_kept
    | with_reducible apply State.storeBytes_kept
    | with_reducible apply State.planFault_kept
    | with_reducible apply State.openHole_kept
    | with_reducible apply State.endStream_kept
    | with_reducible apply State.senseRange_kept
    | with_reducible apply State.updStream_kept
    | with_reducible apply State.logError_kept
    | dsimp -zeta only
    | split

theorem State.postResults_kept {s : State}
    (h : Kept q s)  : Kept q (State.postResults s) := by
  unfold State.postResults
  repeat' first
    | with_reducible assumption
    | with_reducible apply Kept.ite
    | with_reducible refine Kept.foldl _ (fun _ _ _ => ?_) ?_
    | with_reducible apply State.streamResults_kept
    | split
    | (refine Kept.lit ?_ rfl rfl rfl rfl rfl rfl rfl rfl rfl rfl rfl rfl; with_reducible assumption)

theorem execResultPost_kept {s : State}
    (h : Kept q s)  : KeptX q (execResultPost s) := by
  unfold execResultPost
  repeat' first
    | with_reducible assumption
    | with_reducible apply KeptX.of_next
    | with_reducible apply Kept.ite
    | with_reducible apply State.postResults_kept

end Sys2Proof.Machine
end

