-- ==== Sys2Proof/Laws/KeepsLoad.lean ====
section
/-!
SUPPORT. Laws/KeepsLoad.lean: every operation of Machine/Load.lean keeps the queue and a sound state sound.
-/
namespace Sys2Proof.Machine

variable {q : List Instr}

theorem State.showLoadErr_kept {s : State} {code : Nat} {sec : Nat}
    (h : Kept q s)  : Kept q (State.showLoadErr s code sec) := by
  unfold State.showLoadErr
  repeat' first
    | with_reducible assumption
    | with_reducible apply State.raise_kept
    | with_reducible apply State.setReg_kept

theorem State.refusePlan_kept {s : State} {x1 : Nat} {tag : Nat} {code : Nat} {sec : Nat}
    (h : Kept q s)  : Kept q (State.refusePlan s x1 tag code sec) := by
  unfold State.refusePlan
  repeat' first
    | with_reducible assumption
    | with_reducible apply State.showLoadErr_kept
    | with_reducible apply State.settle_kept

theorem State.failLoad_kept {s : State} {j : LoadJob}
    (h : Kept q s)  : Kept q (State.failLoad s j) := by
  unfold State.failLoad
  repeat' first
    | with_reducible assumption
    | with_reducible apply State.stopLoad_kept
    | with_reducible apply State.settle_kept

theorem State.placeConst_kept {s : State} {x1 : PlanHdr} {rd : Reader}
    (h : Kept q s)  : Kept q (State.placeConst s x1 rd).2 := by
  unfold State.placeConst
  repeat' first
    | with_reducible assumption
    | with_reducible apply Kept.iteSnd
    | with_reducible apply State.sparseWrite_kept
    | with_reducible apply State.t1Range_kept
    | (extract_lets +onlyGivenNames v; clear_value v)
    | dsimp -zeta only
    | with_reducible refine Kept.snd (by with_reducible assumption) ?_
    | split

theorem State.finishLoad_kept {s : State} {j : LoadJob}
    (h : Kept q s)  : Kept q (State.finishLoad s j) := by
  unfold State.finishLoad
  repeat' first
    | with_reducible assumption
    | with_reducible apply Kept.ite
    | with_reducible apply State.placeConst_kept
    | with_reducible apply State.failLoad_kept
    | with_reducible apply State.refusePlan_kept
    | with_reducible apply State.stopLoad_kept
    | with_reducible apply State.settle_kept
    | with_reducible apply State.senseRange_kept
    | with_reducible apply State.logError_kept
    | with_reducible apply State.setReg64_kept
    | with_reducible apply State.setBit_kept
    | (extract_lets +onlyGivenNames v; clear_value v)
    | with_reducible refine Kept.snd (by with_reducible assumption) ?_
    | split
    | (refine Kept.lit ?_ rfl rfl rfl rfl rfl rfl rfl rfl rfl rfl rfl rfl; with_reducible refine Kept.snd (by with_reducible assumption) ?_)

theorem State.loaded_kept {s : State} {j : LoadJob} {n : Nat}
    (h : Kept q s)  : Kept q (State.loaded s j n) := by
  unfold State.loaded
  repeat' (refine Kept.lit ?_ rfl rfl rfl rfl rfl rfl rfl rfl rfl rfl rfl rfl; with_reducible assumption)

theorem State.clearForLoad_kept {s : State} {j : LoadJob}
    (h : Kept q s)  : Kept q (State.clearForLoad s j) := by
  unfold State.clearForLoad
  repeat' first
    | with_reducible assumption
    | with_reducible refine Kept.foldl _ (fun _ _ _ => ?_) ?_
    | with_reducible apply State.moveTo_kept

theorem State.loadChunk_kept {s : State} {j : LoadJob} {n : Nat}
    (h : Kept q s)  : Kept q (State.loadChunk s j n) := by
  unfold State.loadChunk
  repeat' first
    | with_reducible assumption
    | with_reducible apply Kept.ite
    | with_reducible apply State.loaded_kept
    | with_reducible apply State.failLoad_kept
    | with_reducible apply State.pickCart_kept
    | with_reducible apply State.copyMove_kept
    | with_reducible apply State.senseSource_kept
    | with_reducible apply State.countBytes_kept
    | with_reducible apply State.cartError_kept
    | with_reducible apply State.showMove_kept
    | with_reducible apply State.logError_kept
    | (extract_lets +onlyGivenNames v; refine (fun (hv : Kept q v) => ?_) ?_; clear_value v; rotate_left; subst v)
    | (extract_lets +onlyGivenNames v; clear_value v)
    | with_reducible refine Kept.snd (by with_reducible assumption) ?_
    | split
    | (refine Kept.lit ?_ rfl rfl rfl rfl rfl rfl rfl rfl rfl rfl rfl rfl; with_reducible assumption)
    | (refine Kept.lit ?_ rfl rfl rfl rfl rfl rfl rfl rfl rfl rfl rfl rfl; with_reducible refine Kept.snd (by with_reducible assumption) ?_)

theorem State.runLoad_kept {s : State} {x1 : Nat}
    (h : Kept q s)  : Kept q (State.runLoad s x1) := by
  induction x1 generalizing s with
  | zero =>
    unfold State.runLoad
    repeat' with_reducible assumption
  | succ n ih =>
    unfold State.runLoad
    repeat' first
      | with_reducible assumption
      | with_reducible apply Kept.ite
      | with_reducible apply State.loadChunk_kept
      | with_reducible apply State.finishLoad_kept
      | with_reducible apply ih
      | split

theorem State.planLoad_kept {s : State} {x1 : Nat} {r : Req}
    (h : Kept q s)  : Kept q (State.planLoad s x1 r) := by
  unfold State.planLoad
  repeat' first
    | with_reducible assumption
    | with_reducible apply Kept.ite
    | with_reducible apply State.runLoad_kept
    | with_reducible apply State.refusePlan_kept
    | with_reducible apply State.actReq_kept
    | with_reducible apply State.settle_kept
    | with_reducible apply State.senseRange_kept
    | with_reducible apply State.logError_kept
    | with_reducible apply State.setBit_kept
    | (extract_lets +onlyGivenNames v; refine (fun (hv : Kept q v) => ?_) ?_; clear_value v; rotate_left; subst v)
    | (extract_lets +onlyGivenNames v; clear_value v)
    | with_reducible refine Kept.snd (by with_reducible assumption) ?_
    | split
    | (refine Kept.lit ?_ rfl rfl rfl rfl rfl rfl rfl rfl rfl rfl rfl rfl; with_reducible refine Kept.snd (by with_reducible assumption) ?_)

theorem execPlanLoad_kept {x0 : Fin 16} {tag : BitVec 16} {s : State}
    (h : Kept q s)  : KeptX q (execPlanLoad x0 tag s) := by
  unfold execPlanLoad
  repeat' first
    | with_reducible assumption
    | with_reducible apply KeptX.of_next
    | with_reducible apply State.planLoad_kept
    | split

theorem State.bootPlanRefused_kept {s : State}
    (h : Kept q s)  : Kept q (State.bootPlanRefused s) := by
  unfold State.bootPlanRefused
  repeat' first
    | with_reducible assumption
    | with_reducible apply State.setBit_kept
    | with_reducible apply State.setFld_kept

theorem State.takeActivation_kept {s : State} {x1 : Nat} {tag : Nat}
    (h : Kept q s)  : Kept q (State.takeActivation s x1 tag) := by
  unfold State.takeActivation
  repeat' first
    | with_reducible assumption
    | with_reducible apply State.refusePlan_kept
    | with_reducible apply State.actReq_kept
    | split
    | (refine Kept.lit ?_ rfl rfl rfl rfl rfl rfl rfl rfl rfl rfl rfl rfl; with_reducible assumption)

theorem State.takeDiscard_kept {s : State} {x1 : Nat} {tag : Nat}
    (h : Kept q s)  : Kept q (State.takeDiscard s x1 tag) := by
  unfold State.takeDiscard
  repeat' first
    | with_reducible assumption
    | with_reducible apply State.settle_kept
    | with_reducible apply State.setReg64_kept
    | with_reducible apply State.setBit_kept
    | (extract_lets +onlyGivenNames v; refine (fun (hv : Kept q v) => ?_) ?_; clear_value v; rotate_left; subst v)
    | split
    | (refine Kept.lit ?_ rfl rfl rfl rfl rfl rfl rfl rfl rfl rfl rfl rfl; with_reducible assumption)

theorem execPlanActivate_kept {x0 : Fin 16} {tag : BitVec 16} {s : State}
    (h : Kept q s)  : KeptX q (execPlanActivate x0 tag s) := by
  unfold execPlanActivate
  repeat' first
    | with_reducible assumption
    | with_reducible apply KeptX.of_next
    | with_reducible apply State.dueReq_kept

theorem execPlanDiscard_kept {x0 : Fin 16} {tag : BitVec 16} {s : State}
    (h : Kept q s)  : KeptX q (execPlanDiscard x0 tag s) := by
  unfold execPlanDiscard
  repeat' first
    | with_reducible assumption
    | with_reducible apply KeptX.of_next
    | with_reducible apply State.dueReq_kept

end Sys2Proof.Machine
end

