-- ==== Sys2Proof/Laws/KeepsOperands.lean ====
section
/-!
SUPPORT. Laws/KeepsOperands.lean: every operation of Machine/Operands.lean keeps the queue and a sound state sound.
-/
namespace Sys2Proof.Machine

variable {q : List Instr}

theorem State.reportAway_kept {s : State} {e : Nat} {batch : Nat}
    (h : Kept q s)  : Kept q (State.reportAway s e batch) := by
  unfold State.reportAway
  repeat' first
    | with_reducible assumption
    | with_reducible apply State.openHole_kept
    | with_reducible apply State.endStream_kept
    | split
    | (refine Kept.lit ?_ rfl rfl rfl rfl rfl rfl rfl rfl rfl rfl rfl rfl; with_reducible apply State.logError_kept)

theorem State.senseOp_kept {s : State} {e : Nat} {d : TDesc} {loops : List LoopFrame}
    (h : Kept q s)  : Kept q (State.senseOp s e d loops) := by
  unfold State.senseOp
  repeat' first
    | with_reducible assumption
    | with_reducible apply Kept.ite
    | with_reducible refine Kept.foldl _ (fun _ _ _ => ?_) ?_
    | with_reducible apply State.reportAway_kept
    | with_reducible apply State.reportUnread_kept
    | with_reducible apply State.senseRange_kept
    | (extract_lets +onlyGivenNames v; clear_value v)
    | with_reducible refine Kept.snd (by with_reducible assumption) ?_
    | split

theorem State.writeRow_kept {s : State} {d : TDesc} {o : OpRow} {xs : List Int}
    (h : Kept q s)  : Kept q (State.writeRow s d o xs) := by
  unfold State.writeRow
  repeat' first
    | with_reducible assumption
    | with_reducible apply State.t0Store_kept
    | with_reducible apply State.updStream_kept
    | (extract_lets +onlyGivenNames v; clear_value v)
    | split

theorem State.writeRows_kept {s : State} {d : TDesc} {loops : List LoopFrame} {rows : List (List Int)}
    (h : Kept q s)  : Kept q (State.writeRows s d loops rows) := by
  unfold State.writeRows
  repeat' first
    | with_reducible assumption
    | with_reducible refine Kept.foldl _ (fun _ _ _ => ?_) ?_
    | with_reducible apply State.writeRow_kept

theorem State.readOp_kept {s : State} {e : Nat} {d : TDesc} {loops : List LoopFrame}
    (h : Kept q s)  : Kept q (State.readOp s e d loops).2 := by
  unfold State.readOp
  repeat' first
    | with_reducible assumption
    | with_reducible apply State.senseOp_kept

theorem State.senseTrailer_kept {s : State} {e : Nat} {d : TDesc} {loops : List LoopFrame}
    (h : Kept q s)  : Kept q (State.senseTrailer s e d loops) := by
  unfold State.senseTrailer
  repeat' first
    | with_reducible assumption
    | with_reducible apply Kept.ite
    | with_reducible apply State.reportUnread_kept
    | with_reducible apply State.senseRange_kept
    | with_reducible refine Kept.snd (by with_reducible assumption) ?_
    | split

theorem State.writeShifts_kept {s : State} {d : TDesc} {loops : List LoopFrame} {shifts : List Int}
    (h : Kept q s)  : Kept q (State.writeShifts s d loops shifts) := by
  unfold State.writeShifts
  repeat' first
    | with_reducible assumption
    | with_reducible apply State.t0Store_kept

end Sys2Proof.Machine
end

