-- ==== Sys2Proof/Laws/KeepsMatrix.lean ====
section
/-!
SUPPORT. Laws/KeepsMatrix.lean: every operation of Machine/Matrix.lean keeps the queue and a sound state sound.
-/
namespace Sys2Proof.Machine

variable {q : List Instr}

theorem State.setBank_kept {s : State} {n b : Nat} {v : AccBank} (h : Kept q s) : Kept q (s.setBank n b v) :=
  by
  unfold State.setBank
  refine ⟨h.pending, h.regs, h.hiLatch, h.t0, h.t1, h.host, h.flash, h.streams, ?_, h.engs, h.queues, h.ports⟩
  show keyRising 0 (if _ then _ else _) = true
  split
  · exact keyDel_rising _ h.banks
  · exact keyPut_rising _ (Nat.zero_le _) h.banks

theorem State.senseWord_kept {s : State} {n : Nat} {b : Nat} {w : Nat} {f : BitFlips}
    (h : Kept q s)  : Kept q (State.senseWord s n b w f) := by
  unfold State.senseWord
  repeat' first
    | with_reducible assumption
    | with_reducible apply Kept.ite
    | with_reducible apply State.setBank_kept
    | with_reducible apply State.holeAll_kept
    | with_reducible apply State.openHole_kept
    | with_reducible apply State.endStream_kept
    | with_reducible apply State.logError_kept
    | with_reducible apply State.addSat_kept
    | with_reducible apply State.setBit_kept
    | with_reducible apply State.setFld_kept
    | (extract_lets +onlyGivenNames v; refine (fun (hv : Kept q v) => ?_) ?_; clear_value v; rotate_left; subst v)
    | (extract_lets +onlyGivenNames v; clear_value v)
    | split
    | (refine Kept.lit ?_ rfl rfl rfl rfl rfl rfl rfl rfl rfl rfl rfl rfl; with_reducible assumption)

theorem State.senseBank_kept {s : State} {n : Nat} {b : Nat} {rows : Nat}
    (h : Kept q s)  : Kept q (State.senseBank s n b rows) := by
  unfold State.senseBank
  repeat' first
    | with_reducible assumption
    | with_reducible apply Kept.ite
    | with_reducible refine Kept.foldl _ (fun _ _ _ => ?_) ?_
    | with_reducible apply State.senseWord_kept

theorem State.meetBank_kept {s : State} {acc : Bool} {n : Nat} {b : Nat} {rows : Nat} {cols : Nat}
    (h : Kept q s)  : Kept q (State.meetBank s acc n b rows cols) := by
  unfold State.meetBank
  repeat' first
    | with_reducible assumption
    | with_reducible apply Kept.ite
    | with_reducible apply State.senseBank_kept
    | (refine Kept.lit ?_ rfl rfl rfl rfl rfl rfl rfl rfl rfl rfl rfl rfl; with_reducible assumption)

theorem State.mmul_kept {s : State} {n : Nat} {f : TFields}
    (h : Kept q s)  : Kept q (State.mmul s n f) := by
  unfold State.mmul
  repeat' first
    | with_reducible assumption
    | with_reducible apply Kept.iteSnd
    | with_reducible refine Kept.foldl _ (fun _ _ _ => ?_) ?_
    | with_reducible apply State.meetBank_kept
    | with_reducible apply State.senseBank_kept
    | with_reducible apply State.setBank_kept
    | with_reducible apply State.count_kept
    | with_reducible apply State.senseTrailer_kept
    | with_reducible apply State.readOp_kept

theorem execMmul_kept {n : Fin 16} {f : TFields} {s : State}
    (h : Kept q s)  : KeptX q (execMmul n f s) := by
  unfold execMmul
  repeat' first
    | with_reducible assumption
    | with_reducible apply KeptX.of_next
    | with_reducible apply State.mmul_kept
    | with_reducible refine State.runWord_kept ?_ (fun _ _ => ?_)

theorem State.accout_kept {s : State} {n : Nat} {f : TFields}
    (h : Kept q s)  : Kept q (State.accout s n f) := by
  unfold State.accout
  repeat' first
    | with_reducible assumption
    | with_reducible apply Kept.iteSnd
    | with_reducible refine Kept.foldl _ (fun _ _ _ => ?_) ?_
    | with_reducible apply State.senseBank_kept
    | with_reducible apply State.count_kept
    | with_reducible apply State.readOp_kept
    | with_reducible apply State.writeRows_kept

theorem execAccout_kept {n : Fin 16} {f : TFields} {s : State}
    (h : Kept q s)  : KeptX q (execAccout n f s) := by
  unfold execAccout
  repeat' first
    | with_reducible assumption
    | with_reducible apply KeptX.of_next
    | with_reducible apply State.accout_kept
    | with_reducible refine State.runWord_kept ?_ (fun _ _ => ?_)

theorem State.gate_kept {s : State} {n : Nat} {f : TFields}
    (h : Kept q s)  : Kept q (State.gate s n f) := by
  unfold State.gate
  repeat' first
    | with_reducible assumption
    | with_reducible apply Kept.ite
    | with_reducible apply State.senseBank_kept
    | with_reducible apply State.setBank_kept
    | with_reducible apply State.count_kept
    | with_reducible apply State.readOp_kept
    | with_reducible apply State.writeRows_kept

theorem execGate_kept {n : Fin 16} {f : TFields} {s : State}
    (h : Kept q s)  : KeptX q (execGate n f s) := by
  unfold execGate
  repeat' first
    | with_reducible assumption
    | with_reducible apply KeptX.of_next
    | with_reducible apply State.gate_kept
    | with_reducible refine State.runWord_kept ?_ (fun _ _ => ?_)

end Sys2Proof.Machine
end

