-- ==== Sys2Proof/Laws/KeepsOverlay.lean ====
section
/-!
SUPPORT. Laws/KeepsOverlay.lean: every operation of Machine/Overlay.lean keeps the queue and a sound state sound.
-/
namespace Sys2Proof.Machine

variable {q : List Instr}

theorem State.writeCap_kept {s : State} {mw : Nat}
    (h : Kept q s)  : Kept q (State.writeCap s mw) := by
  unfold State.writeCap
  repeat' first
    | with_reducible assumption
    | with_reducible apply Kept.ite
    | with_reducible apply State.logError_kept
    | with_reducible apply State.raise_kept
    | with_reducible apply State.setFld_kept

theorem State.writeIds_kept {s : State} {fields : List (Nat × Nat)}
    (h : Kept q s)  : Kept q (State.writeIds s fields) := by
  unfold State.writeIds
  repeat' first
    | with_reducible assumption
    | with_reducible apply Kept.ite
    | with_reducible refine Kept.foldl _ (fun _ _ _ => ?_) ?_
    | with_reducible apply State.writeCap_kept
    | with_reducible apply State.applyWant_kept
    | with_reducible apply State.setReg_kept

theorem State.showEpoch_kept {s : State}
    (h : Kept q s)  : Kept q (State.showEpoch s) := by
  unfold State.showEpoch
  repeat' first
    | with_reducible assumption
    | with_reducible apply State.setReg64_kept
    | with_reducible apply State.setBit_kept
    | with_reducible apply State.setFld_kept

theorem State.giveBoundary_kept {s : State} {sc : Nat} {vals : List (Nat × Nat)}
    (h : Kept q s)  : Kept q (State.giveBoundary s sc vals) := by
  unfold State.giveBoundary
  repeat' first
    | with_reducible assumption
    | with_reducible apply Kept.ite
    | with_reducible refine Kept.foldl _ (fun _ _ _ => ?_) ?_
    | with_reducible apply State.storeBytes_kept
    | with_reducible apply State.updStream_kept
    | (extract_lets +onlyGivenNames v; refine (fun (hv : Kept q v) => ?_) ?_; clear_value v; rotate_left; subst v)
    | (extract_lets +onlyGivenNames v; clear_value v)
    | split

theorem State.sendBoundary_kept {s : State} {sc : Nat} {chip : Nat} {vals : List (Nat × Nat)}
    (h : Kept q s)  : Kept q (State.sendBoundary s sc chip vals) := by
  unfold State.sendBoundary
  repeat' first
    | with_reducible assumption
    | with_reducible apply State.peerMsg_kept

theorem State.advanceEpoch_kept {s : State}
    (h : Kept q s)  : Kept q (State.advanceEpoch s) := by
  unfold State.advanceEpoch
  repeat' first
    | with_reducible assumption
    | with_reducible apply Kept.ite
    | with_reducible apply State.sendBoundary_kept
    | with_reducible apply State.giveBoundary_kept
    | with_reducible apply State.showEpoch_kept
    | with_reducible apply State.settle_kept
    | (extract_lets +onlyGivenNames v; have hp := v.flash; clear hp; subst v)
    | split
    | (refine Kept.lit ?_ rfl rfl rfl rfl rfl rfl rfl rfl rfl rfl rfl rfl; with_reducible refine Kept.foldl _ (fun _ _ _ => ?_) ?_)

theorem State.takeEpoch_kept {s : State} {x1 : Nat} {tag : Nat} {epoch : Nat} {mode : Nat} {list : List (Nat × Nat)}
    (h : Kept q s)  : Kept q (State.takeEpoch s x1 tag epoch mode list) := by
  unfold State.takeEpoch
  repeat' first
    | with_reducible assumption
    | with_reducible apply Kept.ite
    | with_reducible apply State.writeIds_kept
    | with_reducible apply State.actReq_kept
    | with_reducible apply State.settle_kept
    | with_reducible apply State.logViolation_kept
    | with_reducible apply State.draw_kept
    | with_reducible apply State.setFld_kept
    | with_reducible apply State.setReg_kept
    | (extract_lets +onlyGivenNames v; refine (fun (hv : Kept q v) => ?_) ?_; clear_value v; rotate_left; subst v)
    | (extract_lets +onlyGivenNames v; have hp := v.flash; clear hp; subst v)
    | (extract_lets +onlyGivenNames v; clear_value v)
    | dsimp -zeta only
    | split
    | (refine Kept.lit ?_ rfl rfl rfl rfl rfl rfl rfl rfl rfl rfl rfl rfl; with_reducible assumption)

theorem State.takeOverlay_kept {s : State} {x1 : Nat} {r : Req}
    (h : Kept q s)  : Kept q (State.takeOverlay s x1 r) := by
  unfold State.takeOverlay
  repeat' first
    | with_reducible assumption
    | with_reducible apply Kept.ite
    | with_reducible apply State.takeEpoch_kept
    | with_reducible apply State.settle_kept
    | with_reducible apply State.senseRange_kept
    | with_reducible apply State.logViolation_kept
    | with_reducible apply State.logError_kept
    | (extract_lets +onlyGivenNames v; clear_value v)
    | with_reducible refine Kept.snd (by with_reducible assumption) ?_
    | split

theorem State.runEpochs_kept {s : State} {x1 : Nat}
    (h : Kept q s)  : Kept q (State.runEpochs s x1) := by
  induction x1 generalizing s with
  | zero =>
    unfold State.runEpochs
    repeat' with_reducible assumption
  | succ n ih =>
    unfold State.runEpochs
    repeat' first
      | with_reducible assumption
      | with_reducible apply Kept.ite
      | with_reducible apply State.takeOverlay_kept
      | with_reducible apply State.advanceEpoch_kept
      | with_reducible apply ih
      | split

theorem State.applySwitch_kept {s : State}
    (h : Kept q s)  : Kept q (State.applySwitch s) := by
  unfold State.applySwitch
  repeat' first
    | with_reducible assumption
    | with_reducible apply Kept.ite
    | with_reducible apply State.showEpoch_kept
    | with_reducible apply State.setReg_kept
    | (extract_lets +onlyGivenNames v; have hp := v.flash; clear hp; subst v)
    | (refine Kept.lit ?_ rfl rfl rfl rfl rfl rfl rfl rfl rfl rfl rfl rfl; with_reducible refine Kept.foldl _ (fun _ _ _ => ?_) ?_)

end Sys2Proof.Machine
end

