-- ==== Sys2Proof/Laws/KeepsRecords.lean ====
section
/-!
SUPPORT. Laws/KeepsRecords.lean: every operation of Machine/Records.lean keeps the queue and a sound state sound.
-/
namespace Sys2Proof.Machine

variable {q : List Instr}

theorem State.setPinnedRow_kept {s : State} {n : Nat} {slot : Nat} {batch : Nat} {xs : List Int}
    (h : Kept q s)  : Kept q (State.setPinnedRow s n slot batch xs) := by
  unfold State.setPinnedRow
  repeat' first
    | with_reducible assumption
    | with_reducible apply State.setBank_kept
    | (extract_lets +onlyGivenNames v; refine (fun (hv : Kept q v) => ?_) ?_; clear_value v; rotate_left; subst v)
    | (extract_lets +onlyGivenNames v; clear_value v)
    | (refine Kept.lit ?_ rfl rfl rfl rfl rfl rfl rfl rfl rfl rfl rfl rfl; with_reducible assumption)

theorem State.zeroPinned_kept {s : State} {batch : Nat}
    (h : Kept q s)  : Kept q (State.zeroPinned s batch) := by
  unfold State.zeroPinned
  repeat' first
    | with_reducible assumption
    | with_reducible refine Kept.foldl _ (fun _ _ _ => ?_) ?_
    | with_reducible apply State.setPinnedRow_kept

theorem State.loadPinned_kept {s : State} {batch : Nat} {bs : List Byte}
    (h : Kept q s)  : Kept q (State.loadPinned s batch bs) := by
  unfold State.loadPinned
  repeat' first
    | with_reducible assumption
    | with_reducible refine Kept.foldl _ (fun _ _ _ => ?_) ?_
    | with_reducible apply State.setPinnedRow_kept

end Sys2Proof.Machine
end

