-- ==== Sys2Proof/Laws/KeepsStreams.lean ====
section
/-!
SUPPORT. Laws/KeepsStreams.lean: every operation of Machine/Streams.lean keeps the queue and a sound state sound.
-/
namespace Sys2Proof.Machine

variable {q : List Instr}

theorem State.finalHole_kept {s : State} {sc : Nat} {t : Stream}
    (h : Kept q s)  : Kept q (State.finalHole s sc t) := by
  unfold State.finalHole
  repeat' first
    | with_reducible assumption
    | with_reducible apply Kept.ite
    | with_reducible apply State.postHole_kept
    | with_reducible apply State.updStream_kept

theorem State.dropStream_kept {s : State} {sc : Nat} (h : Kept q s) : Kept q { s with streams := keyDel s.streams sc } :=
  ⟨h.pending, h.regs, h.hiLatch, h.t0, h.t1, h.host, h.flash, keyDel_rising _ h.streams, h.banks, h.engs, h.queues, h.ports⟩

theorem State.finishStream_kept {s : State} {sc end_ : Nat} {status : Nat → Nat} (h : Kept q s) :
    Kept q (s.finishStream sc end_ status) := by
  unfold State.finishStream
  split
  · exact h
  extract_lets +onlyGivenNames s1 s2 s3 s4 s5 s6 s7 held
  have h1 : Kept q s1 := State.stopMoves_kept h
  have h2 : Kept q s2 := Kept.foldl _ (fun _ _ hs => State.peerMsg_kept hs) h1
  have h3 : Kept q s3 := by
    unfold s3
    split
    · exact State.zeroPinned_kept h2
    · exact h2
  have h7 : Kept q s7 :=
    State.settleStream_kept (State.postResult_kept (State.finalHole_kept (State.leaveOut_kept h3)))
  clear_value s7
  refine State.showHeld_kept (Kept.lit (State.dropStream_kept h7 (sc := sc)) rfl rfl rfl rfl rfl rfl rfl rfl rfl rfl rfl rfl)


theorem State.takeEndings_kept {s : State}
    (h : Kept q s)  : Kept q (State.takeEndings s) := by
  unfold State.takeEndings
  repeat' first
    | with_reducible assumption
    | with_reducible refine Kept.foldl _ (fun _ _ _ => ?_) ?_
    | with_reducible apply State.finishStream_kept
    | split

theorem State.closeResting_kept {s : State}
    (h : Kept q s)  : Kept q (State.closeResting s) := by
  unfold State.closeResting
  repeat' first
    | with_reducible assumption
    | with_reducible apply Kept.ite
    | with_reducible refine Kept.foldl _ (fun _ _ _ => ?_) ?_
    | with_reducible apply State.finishStream_kept

theorem State.deactivatePlan_kept {s : State} (h : Kept q s) : Kept q s.deactivatePlan := by
  unfold State.deactivatePlan
  extract_lets +onlyGivenNames s1
  have h1 : Kept q s1 := Kept.foldl _ (fun _ _ hs => Kept.ite (State.finishStream_kept hs) hs) h
  clear_value s1
  extract_lets +onlyGivenNames s2 s3 s4
  have h2 : Kept q s2 := ⟨h1.pending, h1.regs, h1.hiLatch, h1.t0, h1.t1, h1.host, h1.flash, h1.streams, h1.banks,
    (List.length_map ..).trans h1.engs, h1.queues, h1.ports⟩
  clear_value s2
  have h3 : Kept q s3 := Kept.foldl _ (fun _ _ hs => State.setFld_kept hs) h2
  exact State.raise_kept (State.setReg64_kept (State.setBit_kept h3))


theorem State.zeroHome_kept {s : State} {d : MoveDatum} {len : Nat}
    (h : Kept q s)  : KeptON q (State.zeroHome s d len) := by
  unfold State.zeroHome
  repeat' first
    | with_reducible assumption
    | with_reducible apply KeptON.of_some
    | with_reducible apply KeptON.of_none
    | with_reducible apply State.makeRoom_kept
    | with_reducible apply State.zeroNew_kept
    | dsimp -zeta only
    | with_reducible refine Kept.snd (by with_reducible assumption) ?_
    | split

theorem State.placeBytes_kept {s : State} {bs : List Byte}
    (h : Kept q s)  : KeptON q (State.placeBytes s bs) := by
  unfold State.placeBytes
  repeat' first
    | with_reducible assumption
    | with_reducible apply KeptON.of_some
    | with_reducible apply KeptON.of_none
    | with_reducible apply State.choose_kept
    | with_reducible apply State.storeBytes_kept
    | with_reducible refine Kept.snd (by with_reducible assumption) ?_
    | split

theorem State.keepJob_kept {s : State} {o : OpenJob}
    (h : Kept q s)  : Kept q (State.keepJob s o) := by
  unfold State.keepJob
  repeat' (refine Kept.lit ?_ rfl rfl rfl rfl rfl rfl rfl rfl rfl rfl rfl rfl; with_reducible assumption)

theorem State.dropJob_kept {s : State} {x1 : Nat} {tag : Nat}
    (h : Kept q s)  : Kept q (State.dropJob s x1 tag) := by
  unfold State.dropJob
  repeat' (refine Kept.lit ?_ rfl rfl rfl rfl rfl rfl rfl rfl rfl rfl rfl rfl; with_reducible assumption)

theorem State.runOpen_kept {s : State} {sc : Nat} {p : Plan} {ps : Nat} {o : OpenJob}
    (h : Kept q s)  : Kept q (State.runOpen s sc p ps o).2.2 := by
  unfold State.runOpen
  repeat' first
    | with_reducible assumption
    | with_reducible apply Kept.iteSnd
    | with_reducible refine Kept.foldlSnd _ (fun _ _ _ => ?_) ?_
    | with_reducible apply State.keepJob_kept
    | with_reducible apply State.zeroHome_kept
    | (extract_lets +onlyGivenNames v; clear_value v)
    | with_reducible refine Kept.ofSomeSnd (by with_reducible assumption) ?_
    | split

theorem State.fillFlats_kept {s : State} {sc : Nat} {p : Plan} {t : Stream}
    (h : Kept q s)  : Kept q (State.fillFlats s sc p t) := by
  unfold State.fillFlats
  repeat' first
    | with_reducible assumption
    | with_reducible apply Kept.ite
    | with_reducible refine Kept.foldl _ (fun _ _ _ => ?_) ?_
    | with_reducible apply State.storeBytes_kept
    | split

theorem State.firstRecord_kept {s : State} {sc : Nat} {r : Req}
    (h : Kept q s)  : KeptO q (State.firstRecord s sc r) := by
  unfold State.firstRecord
  repeat' first
    | with_reducible assumption
    | with_reducible apply KeptO.of_some
    | with_reducible apply KeptO.ite
    | with_reducible refine KeptO.mapSnd ?_ (fun _ _ => ?_)
    | with_reducible apply State.placeBytes_kept
    | with_reducible apply State.updStream_kept

theorem State.openStream_kept {s : State} {x1 : Nat} {r : Req}
    (h : Kept q s)  : Kept q (State.openStream s x1 r) := by
  unfold State.openStream
  repeat' first
    | with_reducible assumption
    | with_reducible apply Kept.ite
    | with_reducible apply Kept.iteSnd
    | with_reducible apply State.firstRecord_kept
    | with_reducible apply State.fillFlats_kept
    | with_reducible apply State.runOpen_kept
    | with_reducible apply State.dropJob_kept
    | with_reducible apply State.settle_kept
    | with_reducible apply State.senseRange_kept
    | with_reducible apply State.setStream_kept
    | with_reducible apply State.logError_kept
    | (extract_lets +onlyGivenNames v; clear_value v)
    | dsimp -zeta only
    | with_reducible refine Kept.snd2 (by with_reducible assumption) ?_
    | with_reducible refine Kept.ofSome (by with_reducible assumption) ?_
    | split

theorem State.exportRow_kept {s : State} {sc : Nat} {migrates : optParam Bool false}
    (h : Kept q s)  : Kept q (State.exportRow s sc migrates) := by
  unfold State.exportRow
  repeat' first
    | with_reducible assumption
    | with_reducible apply Kept.ite
    | with_reducible apply State.placeBytes_kept
    | with_reducible apply State.zeroPinned_kept
    | with_reducible apply State.openHole_kept
    | with_reducible apply State.updStream_kept
    | (extract_lets +onlyGivenNames v; refine (fun (hv : Kept q v) => ?_) ?_; clear_value v; rotate_left; subst v)
    | with_reducible refine Kept.ofSomeSnd (by with_reducible assumption) ?_
    | split

end Sys2Proof.Machine
end

