-- ==== Sys2Proof/Laws/KeepsPeer.lean ====
section
/-!
SUPPORT. Laws/KeepsPeer.lean: every operation of Machine/Peer.lean keeps the queue and a sound state sound.
-/
namespace Sys2Proof.Machine

variable {q : List Instr}

theorem State.peerViolation_kept {s : State} {k : Nat} {sub : Nat}
    (h : Kept q s)  : Kept q (State.peerViolation s k sub) := by
  unfold State.peerViolation
  repeat' first
    | with_reducible assumption
    | with_reducible apply State.logViolation_kept
    | with_reducible apply State.raise_kept

theorem State.sendWrites_kept {s : State} {chip : Nat} {cls : Nat} {id : Nat} {off : Nat} {bs : List Byte}
    (h : Kept q s)  : Kept q (State.sendWrites s chip cls id off bs) := by
  unfold State.sendWrites
  repeat' first
    | with_reducible assumption
    | with_reducible refine Kept.foldl _ (fun _ _ _ => ?_) ?_
    | with_reducible apply State.peerMsg_kept

theorem State.pushDatum_kept {s : State} {chip : Nat} {off : Nat} {x3 : Homed}
    (h : Kept q s)  : Kept q (State.pushDatum s chip off x3) := by
  unfold State.pushDatum
  repeat' first
    | with_reducible assumption
    | with_reducible apply Kept.ite
    | with_reducible apply Kept.iteSnd
    | with_reducible apply State.sendWrites_kept
    | with_reducible apply State.lostDatum_kept
    | with_reducible apply State.cartError_kept
    | with_reducible apply State.showMove_kept
    | with_reducible apply State.senseRange_kept
    | (extract_lets +onlyGivenNames v; refine (fun (hv : Kept q v) => ?_) ?_; clear_value v; rotate_left; subst v)
    | (extract_lets +onlyGivenNames v; clear_value v)
    | dsimp -zeta only
    | with_reducible refine Kept.snd (by with_reducible assumption) ?_
    | split
    | (refine Kept.lit ?_ rfl rfl rfl rfl rfl rfl rfl rfl rfl rfl rfl rfl; with_reducible apply State.draw_kept)
    | (refine Kept.lit ?_ rfl rfl rfl rfl rfl rfl rfl rfl rfl rfl rfl rfl; with_reducible refine Kept.snd (by with_reducible assumption) ?_)

theorem State.pushSet_kept {s : State} {m : Migration}
    (h : Kept q s)  : Kept q (State.pushSet s m) := by
  unfold State.pushSet
  repeat' first
    | with_reducible assumption
    | with_reducible apply Kept.ite
    | with_reducible refine Kept.foldl _ (fun _ _ _ => ?_) ?_
    | with_reducible apply State.pushDatum_kept
    | with_reducible apply State.moveTo_kept
    | split

theorem State.pushRecord_kept {s : State} {m : Migration}
    (h : Kept q s)  : Kept q (State.pushRecord s m) := by
  unfold State.pushRecord
  repeat' first
    | with_reducible assumption
    | with_reducible apply Kept.ite
    | with_reducible apply State.pushDatum_kept
    | split

theorem State.sendAsk_kept {s : State} {m : Migration}
    (h : Kept q s)  : Kept q (State.sendAsk s m) := by
  unfold State.sendAsk
  repeat' first
    | with_reducible assumption
    | with_reducible apply State.peerMsg_kept
    | (extract_lets +onlyGivenNames v; refine (fun (hv : Kept q v) => ?_) ?_; clear_value v; rotate_left; subst v)
    | split
    | (refine Kept.lit ?_ rfl rfl rfl rfl rfl rfl rfl rfl rfl rfl rfl rfl; with_reducible assumption)

theorem State.takeMigrate_kept {s : State} {x1 : Nat} {r : Req}
    (h : Kept q s)  : Kept q (State.takeMigrate s x1 r) := by
  unfold State.takeMigrate
  repeat' first
    | with_reducible assumption
    | with_reducible apply Kept.ite
    | with_reducible apply State.sendAsk_kept
    | with_reducible apply State.actReq_kept
    | with_reducible apply State.settle_kept
    | with_reducible apply State.updStream_kept
    | (refine Kept.lit ?_ rfl rfl rfl rfl rfl rfl rfl rfl rfl rfl rfl rfl; with_reducible assumption)

theorem State.dropMigration_kept {s : State} {sc : Nat}
    (h : Kept q s)  : Kept q (State.dropMigration s sc) := by
  unfold State.dropMigration
  repeat' first
    | with_reducible apply State.updStream_kept
    | (refine Kept.lit ?_ rfl rfl rfl rfl rfl rfl rfl rfl rfl rfl rfl rfl; with_reducible assumption)

theorem State.handOver_kept {s : State} {m : Migration}
    (h : Kept q s)  : Kept q (State.handOver s m) := by
  unfold State.handOver
  repeat' first
    | with_reducible assumption
    | with_reducible apply State.leaveOut_kept
    | with_reducible apply State.settle_kept
    | with_reducible apply State.setStream_kept
    | (extract_lets +onlyGivenNames v; refine (fun (hv : Kept q v) => ?_) ?_; clear_value v; rotate_left; subst v)
    | split
    | refine Kept.litDel ?_ rfl rfl rfl rfl rfl rfl rfl rfl rfl rfl rfl rfl

theorem State.releaseTx_kept {s : State} {x : TxMove}
    (h : Kept q s)  : Kept q (State.releaseTx s x) := by
  unfold State.releaseTx
  repeat' first
    | with_reducible assumption
    | with_reducible apply Kept.ite
    | with_reducible apply State.handOver_kept
    | with_reducible apply State.pushRecord_kept
    | with_reducible apply State.rehome_kept
    | with_reducible apply State.showMove_kept
    | with_reducible apply State.peerMsg_kept
    | with_reducible apply State.add64_kept
    | (extract_lets +onlyGivenNames v; refine (fun (hv : Kept q v) => ?_) ?_; clear_value v; rotate_left; subst v)
    | split
    | (refine Kept.lit ?_ rfl rfl rfl rfl rfl rfl rfl rfl rfl rfl rfl rfl; with_reducible assumption)

theorem State.keepHere_kept {s : State} {m : Migration}
    (h : Kept q s)  : Kept q (State.keepHere s m) := by
  unfold State.keepHere
  repeat' first
    | with_reducible assumption
    | with_reducible apply Kept.ite
    | with_reducible apply State.dropMigration_kept
    | with_reducible apply State.settle_kept
    | with_reducible apply State.openHole_kept
    | with_reducible apply State.updStream_kept
    | (extract_lets +onlyGivenNames v; refine (fun (hv : Kept q v) => ?_) ?_; clear_value v; rotate_left; subst v)
    | split

theorem State.failTx_kept {s : State} {x : TxMove}
    (h : Kept q s)  : Kept q (State.failTx s x) := by
  unfold State.failTx
  repeat' first
    | with_reducible assumption
    | with_reducible apply State.keepHere_kept
    | with_reducible apply State.cartError_kept
    | with_reducible apply State.showMove_kept
    | (extract_lets +onlyGivenNames v; refine (fun (hv : Kept q v) => ?_) ?_; clear_value v; rotate_left; subst v)
    | split
    | (refine Kept.lit ?_ rfl rfl rfl rfl rfl rfl rfl rfl rfl rfl rfl rfl; with_reducible assumption)

theorem State.pullDatum_kept {s : State} {x1 : Homed}
    (h : Kept q s)  : Kept q (State.pullDatum s x1) := by
  unfold State.pullDatum
  repeat' first
    | with_reducible assumption
    | with_reducible apply Kept.ite
    | with_reducible apply State.choose_kept
    | with_reducible apply State.peerMsg_kept
    | (extract_lets +onlyGivenNames v; clear_value v)
    | split
    | (refine Kept.lit ?_ rfl rfl rfl rfl rfl rfl rfl rfl rfl rfl rfl rfl; with_reducible refine Kept.snd (by with_reducible assumption) ?_)

theorem State.pullHome_kept {s : State}
    (h : Kept q s)  : Kept q (State.pullHome s) := by
  unfold State.pullHome
  repeat' first
    | with_reducible assumption
    | with_reducible apply Kept.ite
    | with_reducible refine Kept.foldl _ (fun _ _ _ => ?_) ?_
    | with_reducible apply State.pullDatum_kept

theorem State.servePulls_kept {s : State}
    (h : Kept q s)  : Kept q (State.servePulls s) := by
  unfold State.servePulls
  repeat' first
    | with_reducible assumption
    | with_reducible apply Kept.ite
    | with_reducible refine Kept.foldl _ (fun _ _ _ => ?_) ?_
    | with_reducible apply State.sendWrites_kept
    | with_reducible apply State.cartError_kept
    | with_reducible apply State.peerMsg_kept
    | with_reducible apply State.senseRange_kept
    | with_reducible apply State.logError_kept
    | (extract_lets +onlyGivenNames v; refine (fun (hv : Kept q v) => ?_) ?_; clear_value v; rotate_left; subst v)
    | with_reducible refine Kept.snd (by with_reducible assumption) ?_
    | split
    | (refine Kept.lit ?_ rfl rfl rfl rfl rfl rfl rfl rfl rfl rfl rfl rfl; with_reducible assumption)
    | (refine Kept.lit ?_ rfl rfl rfl rfl rfl rfl rfl rfl rfl rfl rfl rfl; with_reducible refine Kept.snd (by with_reducible assumption) ?_)

theorem State.placeGrant_kept {s : State} {g : Grant}
    (h : Kept q s)  : KeptON q (State.placeGrant s g) := by
  unfold State.placeGrant
  repeat' first
    | with_reducible apply KeptON.of_some
    | with_reducible apply KeptON.of_none
    | with_reducible apply KeptON.ite
    | with_reducible apply State.settle_kept
    | with_reducible apply State.peerMsg_kept
    | with_reducible apply State.endStream_kept
    | with_reducible apply State.setStream_kept
    | with_reducible apply State.logError_kept
    | (extract_lets +onlyGivenNames v; clear_value v)
    | dsimp -zeta only
    | split
    | (refine Kept.lit ?_ rfl rfl rfl rfl rfl rfl rfl rfl rfl rfl rfl rfl; with_reducible assumption)
    | (refine Kept.lit ?_ rfl rfl rfl rfl rfl rfl rfl rfl rfl rfl rfl rfl; with_reducible apply State.setStream_kept)

theorem State.placeLate_kept {s : State}
    (h : Kept q s)  : Kept q (State.placeLate s) := by
  unfold State.placeLate
  repeat' first
    | with_reducible assumption
    | with_reducible refine Kept.foldl _ (fun _ _ _ => ?_) ?_
    | with_reducible apply State.placeGrant_kept
    | with_reducible apply State.openHole_kept
    | with_reducible apply State.updStream_kept
    | with_reducible refine Kept.ofSomeSnd (by with_reducible assumption) ?_
    | split

theorem State.declareLost_kept {s : State} {c : Nat}
    (h : Kept q s)  : Kept q (State.declareLost s c) := by
  unfold State.declareLost
  repeat' first
    | with_reducible assumption
    | with_reducible apply Kept.ite
    | with_reducible apply State.logError_kept
    | with_reducible apply State.raise_kept
    | with_reducible apply State.setBit_kept
    | (extract_lets +onlyGivenNames v; clear_value v)
    | (refine Kept.lit ?_ rfl rfl rfl rfl rfl rfl rfl rfl rfl rfl rfl rfl; with_reducible apply State.logError_kept)
    | (refine Kept.lit ?_ rfl rfl rfl rfl rfl rfl rfl rfl rfl rfl rfl rfl; with_reducible apply State.setBit_kept)

theorem State.settleLoss_kept {s : State} {c : Nat}
    (h : Kept q s)  : Kept q (State.settleLoss s c) := by
  unfold State.settleLoss
  repeat' first
    | with_reducible assumption
    | with_reducible apply Kept.ite
    | with_reducible refine Kept.foldl _ (fun _ _ _ => ?_) ?_
    | with_reducible apply State.dropMigration_kept
    | with_reducible apply State.finishStream_kept
    | with_reducible apply State.settle_kept
    | (extract_lets +onlyGivenNames v; refine (fun (hv : Kept q v) => ?_) ?_; clear_value v; rotate_left; subst v)
    | (extract_lets +onlyGivenNames v; clear_value v)
    | (refine Kept.lit ?_ rfl rfl rfl rfl rfl rfl rfl rfl rfl rfl rfl rfl; with_reducible assumption)
    | refine Kept.litSet ?_ rfl rfl rfl rfl rfl rfl rfl rfl rfl rfl rfl rfl

theorem State.settleLosses_kept {s : State}
    (h : Kept q s)  : Kept q (State.settleLosses s) := by
  unfold State.settleLosses
  repeat' first
    | with_reducible assumption
    | with_reducible refine Kept.foldl _ (fun _ _ _ => ?_) ?_
    | with_reducible apply State.settleLoss_kept
    | (refine Kept.lit ?_ rfl rfl rfl rfl rfl rfl rfl rfl rfl rfl rfl rfl; with_reducible assumption)

theorem State.forwardReq_kept {s : State} {x1 : Nat} {r : Req} {chip : Nat}
    (h : Kept q s)  : Kept q (State.forwardReq s x1 r chip) := by
  unfold State.forwardReq
  repeat' first
    | with_reducible assumption
    | with_reducible apply State.actReq_kept
    | with_reducible apply State.peerMsg_kept

theorem State.answerForwarded_kept {s : State}
    (h : Kept q s)  : Kept q (State.answerForwarded s) := by
  unfold State.answerForwarded
  repeat' first
    | with_reducible assumption
    | with_reducible refine Kept.foldl _ (fun _ _ _ => ?_) ?_
    | with_reducible apply State.peerMsg_kept
    | with_reducible apply State.updQueue_kept
    | split

end Sys2Proof.Machine
end

