-- ==== Sys2Proof/Laws/KeepsWinnow.lean ====
section
/-!
SUPPORT. Laws/KeepsWinnow.lean: every operation of Machine/Winnow.lean keeps the queue and a sound state sound.
-/
namespace Sys2Proof.Machine

variable {q : List Instr}

theorem State.hrot_kept {s : State} {e : Nat} {f : TFields}
    (h : Kept q s)  : Kept q (State.hrot s e f) := by
  unfold State.hrot
  repeat' first
    | with_reducible assumption
    | with_reducible apply State.count_kept
    | with_reducible apply State.readOp_kept
    | with_reducible apply State.writeRows_kept

theorem execHrot_kept {n : Fin 2} {f : TFields} {s : State}
    (h : Kept q s)  : KeptX q (execHrot n f s) := by
  unfold execHrot
  repeat' first
    | with_reducible assumption
    | with_reducible apply KeptX.of_next
    | with_reducible apply State.hrot_kept
    | with_reducible refine State.runWord_kept ?_ (fun _ _ => ?_)

theorem State.req_kept {s : State} {e : Nat} {f : TFields}
    (h : Kept q s)  : Kept q (State.req s e f) := by
  unfold State.req
  repeat' first
    | with_reducible assumption
    | with_reducible apply Kept.ite
    | with_reducible apply State.count_kept
    | with_reducible apply State.writeShifts_kept
    | with_reducible apply State.senseTrailer_kept
    | with_reducible apply State.readOp_kept
    | with_reducible apply State.writeRows_kept

theorem execReq_kept {n : Fin 2} {f : TFields} {s : State}
    (h : Kept q s)  : KeptX q (execReq n f s) := by
  unfold execReq
  repeat' first
    | with_reducible assumption
    | with_reducible apply KeptX.of_next
    | with_reducible apply State.req_kept
    | with_reducible refine State.runWord_kept ?_ (fun _ _ => ?_)

theorem State.writeMeta_kept {s : State} {g : Geom} {ps : Nat} {p : Page} {t : Nat} {tok : NewToken}
    (h : Kept q s)  : Kept q (State.writeMeta s g ps p t tok) := by
  unfold State.writeMeta
  repeat' first
    | with_reducible assumption
    | with_reducible apply State.t0Store_kept

theorem State.writeGroup_kept {s : State} {e : Nat} {batch : Nat} {g : Geom} {ps : Nat} {r : PagedRegion} {expIn : Int} {g0 : Nat} {last : Nat}
    (h : Kept q s)  : Kept q (State.writeGroup s e batch g ps r expIn g0 last) := by
  unfold State.writeGroup
  repeat' first
    | with_reducible assumption
    | with_reducible apply Kept.ite
    | with_reducible refine Kept.foldl _ (fun _ _ _ => ?_) ?_
    | with_reducible apply State.count_kept
    | with_reducible apply State.reportAway_kept
    | with_reducible apply State.t0Store_kept
    | (extract_lets +onlyGivenNames v; refine (fun (hv : Kept q v) => ?_) ?_; clear_value v; rotate_left; subst v)
    | (extract_lets +onlyGivenNames v; clear_value v)
    | split

theorem State.setPaged_kept {s : State} {sc : Nat} {region : Nat} {r : PagedRegion}
    (h : Kept q s)  : Kept q (State.setPaged s sc region r) := by
  unfold State.setPaged
  repeat' first
    | with_reducible assumption
    | with_reducible apply State.updStream_kept

theorem State.appendValues_kept {s : State} {e : Nat} {batch : Nat} {sc : Nat} {region : Nat} {g : Geom} {ps : Nat} {expIn : Int} {x8 : Nat} {x9 : Nat} {x10 : List NewToken}
    (h : Kept q s)  : Kept q (State.appendValues s e batch sc region g ps expIn x8 x9 x10) := by
  induction x8 generalizing s e batch sc region g ps expIn x9 x10 with
  | zero =>
    unfold State.appendValues
    repeat' with_reducible assumption
  | succ n ih =>
    unfold State.appendValues
    repeat' first
      | with_reducible assumption
      | with_reducible apply Kept.ite
      | with_reducible refine Kept.foldl _ (fun _ _ _ => ?_) ?_
      | with_reducible apply State.setPaged_kept
      | with_reducible apply State.writeGroup_kept
      | with_reducible apply State.writeMeta_kept
      | with_reducible apply ih
      | (extract_lets +onlyGivenNames v; clear_value v)
      | split

theorem State.appendKeys_kept {s : State} {e : Nat} {batch : Nat} {g : Geom} {ps : Nat} {r : PagedRegion} {expIn : Int} {shifts : List Int} {t0 : Nat} {toks : List NewToken}
    (h : Kept q s)  : Kept q (State.appendKeys s e batch g ps r expIn shifts t0 toks) := by
  unfold State.appendKeys
  repeat' first
    | with_reducible assumption
    | with_reducible refine Kept.foldl _ (fun _ _ _ => ?_) ?_
    | with_reducible apply State.writeMeta_kept
    | with_reducible apply State.count_kept
    | with_reducible apply State.reportAway_kept
    | with_reducible apply State.t0Store_kept
    | (extract_lets +onlyGivenNames v; refine (fun (hv : Kept q v) => ?_) ?_; clear_value v; rotate_left; subst v)
    | (extract_lets +onlyGivenNames v; clear_value v)
    | split

theorem State.appendRow_kept {s : State} {e : Nat} {batch : Nat} {f : TFields} {expIn : Int} {shifts : List Int} {toks : List NewToken}
    (h : Kept q s)  : Kept q (State.appendRow s e batch f expIn shifts toks) := by
  unfold State.appendRow
  repeat' first
    | with_reducible assumption
    | with_reducible apply Kept.ite
    | with_reducible apply State.appendKeys_kept
    | with_reducible apply State.appendValues_kept
    | with_reducible apply State.setPaged_kept
    | with_reducible apply State.count_kept
    | with_reducible apply State.reportAway_kept
    | with_reducible apply State.updStream_kept
    | (extract_lets +onlyGivenNames v; clear_value v)
    | split

theorem State.kvapp_kept {s : State} {e : Nat} {f : TFields}
    (h : Kept q s)  : Kept q (State.kvapp s e f) := by
  unfold State.kvapp
  repeat' first
    | with_reducible assumption
    | with_reducible apply Kept.ite
    | with_reducible apply Kept.iteSnd
    | with_reducible refine Kept.foldl _ (fun _ _ _ => ?_) ?_
    | with_reducible apply State.appendRow_kept
    | with_reducible apply State.count_kept
    | with_reducible apply State.readOp_kept

theorem execKvapp_kept {n : Fin 2} {f : TFields} {s : State}
    (h : Kept q s)  : KeptX q (execKvapp n f s) := by
  unfold execKvapp
  repeat' first
    | with_reducible assumption
    | with_reducible apply KeptX.of_next
    | with_reducible apply State.kvapp_kept
    | with_reducible refine State.runWord_kept ?_ (fun _ _ => ?_)

end Sys2Proof.Machine
end

