-- ==== Sys2Proof/Laws/KeepsPager.lean ====
section
/-!
SUPPORT. Laws/KeepsPager.lean: every operation of Machine/Pager.lean keeps the queue and a sound state sound.
-/
namespace Sys2Proof.Machine

variable {q : List Instr}

theorem State.moveSummaries_kept {s : State} {sc : Nat} {region : Nat} {g : Geom} {x4 : Nat}
    (h : Kept q s)  : Kept q (State.moveSummaries s sc region g x4) := by
  induction x4 generalizing s sc region g with
  | zero =>
    unfold State.moveSummaries
    repeat' with_reducible assumption
  | succ n ih =>
    unfold State.moveSummaries
    repeat' first
      | with_reducible assumption
      | with_reducible apply Kept.ite
      | with_reducible apply State.setPaged_kept
      | with_reducible apply State.storeBytes_kept
      | with_reducible apply ih
      | (extract_lets +onlyGivenNames v; clear_value v)
      | split
      | (refine Kept.lit ?_ rfl rfl rfl rfl rfl rfl rfl rfl rfl rfl rfl rfl; with_reducible assumption)

theorem State.allSummaries_kept {s : State}
    (h : Kept q s)  : Kept q (State.allSummaries s) := by
  unfold State.allSummaries
  repeat' first
    | with_reducible assumption
    | with_reducible apply Kept.ite
    | with_reducible refine Kept.foldl _ (fun _ _ _ => ?_) ?_
    | with_reducible apply State.moveSummaries_kept

theorem State.takeExport_kept {s : State} {x1 : Nat} {r : Req} {t : Stream}
    (h : Kept q s)  : Kept q (State.takeExport s x1 r t) := by
  unfold State.takeExport
  repeat' first
    | with_reducible assumption
    | with_reducible apply Kept.ite
    | with_reducible apply State.actReq_kept
    | with_reducible apply State.settle_kept
    | (refine Kept.lit ?_ rfl rfl rfl rfl rfl rfl rfl rfl rfl rfl rfl rfl; with_reducible assumption)

theorem State.takeStreamReq_kept {s : State} {complete : Bool} {x2 : Nat} {r : Req}
    (h : Kept q s)  : Kept q (State.takeStreamReq s complete x2 r) := by
  unfold State.takeStreamReq
  repeat' first
    | with_reducible assumption
    | with_reducible apply Kept.ite
    | with_reducible apply State.takeExport_kept
    | with_reducible apply State.forwardReq_kept
    | with_reducible apply State.takeMigrate_kept
    | with_reducible apply State.openStream_kept
    | with_reducible apply State.actReq_kept
    | with_reducible apply State.settle_kept
    | with_reducible apply State.endStream_kept
    | with_reducible apply State.updStream_kept
    | split

theorem State.takeStreamReqs_kept {s : State} {complete : Bool}
    (h : Kept q s)  : Kept q (State.takeStreamReqs s complete) := by
  unfold State.takeStreamReqs
  repeat' first
    | with_reducible assumption
    | with_reducible refine Kept.foldl _ (fun _ _ _ => ?_) ?_
    | with_reducible apply State.takeStreamReq_kept
    | (refine Kept.lit ?_ rfl rfl rfl rfl rfl rfl rfl rfl rfl rfl rfl rfl; with_reducible assumption)

theorem State.settlePauses_kept {s : State} {sc : Nat}
    (h : Kept q s)  : Kept q (State.settlePauses s sc) := by
  unfold State.settlePauses
  repeat' first
    | with_reducible assumption
    | with_reducible apply Kept.ite
    | with_reducible refine Kept.foldl _ (fun _ _ _ => ?_) ?_
    | with_reducible apply State.settle_kept

theorem State.pauseResting_kept {s : State}
    (h : Kept q s)  : Kept q (State.pauseResting s) := by
  unfold State.pauseResting
  repeat' first
    | with_reducible assumption
    | with_reducible apply Kept.ite
    | with_reducible refine Kept.foldl _ (fun _ _ _ => ?_) ?_
    | with_reducible apply State.settlePauses_kept
    | with_reducible apply State.exportRow_kept
    | with_reducible apply State.updStream_kept

theorem State.takeVictim_kept {s : State} {sc : Nat} {t : Stream}
    (h : Kept q s)  : Kept q (State.takeVictim s sc t) := by
  unfold State.takeVictim
  repeat' first
    | with_reducible assumption
    | with_reducible apply State.setStream_kept
    | with_reducible apply State.addSat_kept

theorem State.preempt_kept {s : State} {key : Nat} {short : Nat}
    (h : Kept q s)  : Kept q (State.preempt s key short) := by
  unfold State.preempt
  repeat' first
    | with_reducible assumption
    | with_reducible apply Kept.iteSnd
    | with_reducible refine Kept.foldlSnd _ (fun _ _ _ => ?_) ?_
    | with_reducible apply State.takeVictim_kept

theorem State.reserve_kept {s : State} {sc : Nat}
    (h : Kept q s)  : Kept q (State.reserve s sc) := by
  unfold State.reserve
  repeat' first
    | with_reducible assumption
    | with_reducible apply Kept.ite
    | with_reducible apply State.preempt_kept
    | with_reducible apply State.setStream_kept
    | split

theorem State.allocPage_kept {s : State} {sc : Nat} {region : Nat} {g : Geom} {t : Stream} {r : PagedRegion}
    (h : Kept q s)  : KeptO q (State.allocPage s sc region g t r) := by
  unfold State.allocPage
  repeat' first
    | with_reducible assumption
    | with_reducible apply KeptO.of_some
    | with_reducible apply KeptO.of_none
    | with_reducible apply State.setPaged_kept
    | with_reducible apply State.makeRoom_kept
    | with_reducible apply State.zeroNew_kept
    | (extract_lets +onlyGivenNames v; refine (fun (hv : Kept q v) => ?_) ?_; clear_value v; rotate_left; subst v)
    | (extract_lets +onlyGivenNames v; clear_value v)
    | with_reducible refine Kept.snd (by with_reducible assumption) ?_
    | split

theorem State.allocPages_kept {s : State} {sc : Nat} {region : Nat} {g : Geom} {x4 : Nat}
    (h : Kept q s)  : Kept q (State.allocPages s sc region g x4) := by
  induction x4 generalizing s sc region g with
  | zero =>
    unfold State.allocPages
    repeat' with_reducible assumption
  | succ n ih =>
    unfold State.allocPages
    repeat' first
      | with_reducible assumption
      | with_reducible apply Kept.ite
      | with_reducible apply State.allocPage_kept
      | with_reducible apply ih
      | with_reducible refine Kept.ofSome (by with_reducible assumption) ?_
      | split

theorem State.allocSummary_kept {s : State} {sc : Nat} {region : Nat} {g : Geom}
    (h : Kept q s)  : Kept q (State.allocSummary s sc region g) := by
  unfold State.allocSummary
  repeat' first
    | with_reducible assumption
    | with_reducible apply Kept.ite
    | with_reducible apply State.setPaged_kept
    | with_reducible apply State.zeroNew_kept
    | with_reducible refine Kept.snd (by with_reducible assumption) ?_
    | split

theorem State.allocStream_kept {s : State} {sc : Nat}
    (h : Kept q s)  : Kept q (State.allocStream s sc) := by
  unfold State.allocStream
  repeat' first
    | with_reducible assumption
    | with_reducible refine Kept.foldl _ (fun _ _ _ => ?_) ?_
    | with_reducible apply State.allocSummary_kept
    | with_reducible apply State.allocPages_kept

theorem State.demoteStream_kept {s : State} {sc : Nat}
    (h : Kept q s)  : Kept q (State.demoteStream s sc) := by
  unfold State.demoteStream
  repeat' first
    | with_reducible assumption
    | with_reducible apply Kept.ite
    | with_reducible refine Kept.foldl _ (fun _ _ _ => ?_) ?_
    | with_reducible apply State.moveTo_kept
    | split

theorem State.promoteStream_kept {s : State} {sc : Nat}
    (h : Kept q s)  : Kept q (State.promoteStream s sc) := by
  unfold State.promoteStream
  repeat' first
    | with_reducible assumption
    | with_reducible apply Kept.ite
    | with_reducible refine Kept.foldl _ (fun _ _ _ => ?_) ?_
    | with_reducible apply State.makeRoom_kept
    | with_reducible apply State.moveTo_kept
    | split

theorem State.provide_kept {s : State} {complete : Bool}
    (h : Kept q s)  : Kept q (State.provide s complete) := by
  unfold State.provide
  repeat' first
    | with_reducible assumption
    | with_reducible apply Kept.ite
    | with_reducible refine Kept.foldl _ (fun _ _ _ => ?_) ?_
    | with_reducible apply State.promoteStream_kept
    | with_reducible apply State.demoteStream_kept
    | with_reducible apply State.allocStream_kept
    | with_reducible apply State.reserve_kept
    | (extract_lets +onlyGivenNames v; refine (fun (hv : Kept q v) => ?_) ?_; clear_value v; rotate_left; subst v)
    | split

theorem State.swapStream_kept {s : State} {sc : Nat}
    (h : Kept q s)  : Kept q (State.swapStream s sc) := by
  unfold State.swapStream
  repeat' first
    | with_reducible assumption
    | with_reducible apply Kept.ite
    | with_reducible refine Kept.foldl _ (fun _ _ _ => ?_) ?_
    | with_reducible apply State.moveTo_kept
    | with_reducible apply State.setStream_kept
    | split

theorem State.swapOut_kept {s : State}
    (h : Kept q s)  : Kept q (State.swapOut s) := by
  unfold State.swapOut
  repeat' first
    | with_reducible assumption
    | with_reducible refine Kept.foldl _ (fun _ _ _ => ?_) ?_
    | with_reducible apply State.swapStream_kept

theorem State.endEvac_kept {s : State} {b : Nat}
    (h : Kept q s)  : Kept q (State.endEvac s b) := by
  unfold State.endEvac
  repeat' first
    | with_reducible assumption
    | with_reducible apply State.setBit_kept

theorem State.evacDatum_kept {s : State} {x1 : Homed}
    (h : Kept q s)  : Kept q (State.evacDatum s x1) := by
  unfold State.evacDatum
  repeat' first
    | with_reducible assumption
    | with_reducible apply Kept.ite
    | with_reducible apply State.endEvac_kept
    | with_reducible apply State.moveTo_kept
    | with_reducible apply State.updStream_kept
    | (extract_lets +onlyGivenNames v; refine (fun (hv : Kept q v) => ?_) ?_; clear_value v; rotate_left; subst v)
    | (extract_lets +onlyGivenNames v; clear_value v)
    | split

theorem State.evacuate_kept {s : State}
    (h : Kept q s)  : Kept q (State.evacuate s) := by
  unfold State.evacuate
  repeat' first
    | with_reducible assumption
    | with_reducible apply Kept.ite
    | with_reducible refine Kept.foldl _ (fun _ _ _ => ?_) ?_
    | with_reducible apply State.evacDatum_kept
    | with_reducible apply State.endEvac_kept

theorem State.clearRanges_kept {s : State}
    (h : Kept q s)  : Kept q (State.clearRanges s) := by
  unfold State.clearRanges
  repeat' first
    | with_reducible assumption
    | with_reducible apply Kept.ite
    | with_reducible refine Kept.foldl _ (fun _ _ _ => ?_) ?_
    | with_reducible apply State.moveTo_kept
    | with_reducible apply State.choose_kept
    | (extract_lets +onlyGivenNames v; refine (fun (hv : Kept q v) => ?_) ?_; clear_value v; rotate_left; subst v)
    | (extract_lets +onlyGivenNames v; refine (fun (hv : Kept q v.2) => ?_) ?_; clear_value v; rotate_left; subst v)
    | split
    | (refine Kept.lit ?_ rfl rfl rfl rfl rfl rfl rfl rfl rfl rfl rfl rfl; with_reducible assumption)

theorem State.startEvac_kept {s : State} {v : Word}
    (h : Kept q s)  : Kept q (State.startEvac s v) := by
  unfold State.startEvac
  repeat' first
    | with_reducible assumption
    | with_reducible apply Kept.ite
    | with_reducible apply State.setBit_kept
    | with_reducible apply State.setFld_kept

theorem execGlnEvacGo_kept {i : Iface} {v : Word} {s : State}
    (h : Kept q s)  : KeptX q (execGlnEvacGo i v s) := by
  unfold execGlnEvacGo
  repeat' first
    | with_reducible assumption
    | with_reducible apply KeptX.of_next
    | with_reducible apply Kept.ite
    | with_reducible apply State.startEvac_kept

theorem State.endExport_kept {s : State} {x : ExportJob}
    (h : Kept q s)  : Kept q (State.endExport s x) := by
  unfold State.endExport
  repeat' first
    | with_reducible apply State.finishStream_kept
    | with_reducible apply State.settle_kept
    | (refine Kept.lit ?_ rfl rfl rfl rfl rfl rfl rfl rfl rfl rfl rfl rfl; with_reducible assumption)

theorem State.failExport_kept {s : State} {x : ExportJob}
    (h : Kept q s)  : Kept q (State.failExport s x) := by
  unfold State.failExport
  repeat' first
    | with_reducible apply State.settle_kept
    | (refine Kept.lit ?_ rfl rfl rfl rfl rfl rfl rfl rfl rfl rfl rfl rfl; with_reducible assumption)

theorem State.runExports_kept {s : State}
    (h : Kept q s)  : Kept q (State.runExports s) := by
  unfold State.runExports
  repeat' first
    | with_reducible assumption
    | with_reducible apply Kept.ite
    | with_reducible refine Kept.foldl _ (fun _ _ _ => ?_) ?_
    | with_reducible apply Kept.getD
    | with_reducible apply State.failExport_kept
    | with_reducible apply State.endExport_kept
    | with_reducible apply State.moveTo_kept
    | with_reducible apply State.issueFar_kept
    | with_reducible apply State.moveNow_kept
    | (extract_lets +onlyGivenNames v; clear_value v)
    | dsimp -zeta only
    | with_reducible refine Kept.ofSome (by with_reducible assumption) ?_
    | split
    | (refine Kept.lit ?_ rfl rfl rfl rfl rfl rfl rfl rfl rfl rfl rfl rfl; with_reducible refine Kept.ofSome (by with_reducible assumption) ?_)

theorem State.checkRecord_kept {s : State} {sc : Nat} {t : Stream}
    (h : Kept q s)  : Kept q (State.checkRecord s sc t).2 := by
  unfold State.checkRecord
  repeat' first
    | with_reducible assumption
    | with_reducible apply Kept.iteSnd
    | with_reducible apply State.lostDatum_kept
    | with_reducible apply State.endStream_kept
    | with_reducible apply State.senseRange_kept
    | with_reducible apply State.logError_kept
    | dsimp -zeta only
    | with_reducible refine Kept.snd (by with_reducible assumption) ?_
    | split

theorem State.takeRow_kept {s : State} {sc : Nat} {t : Stream} {r : Nat} {n : Nat}
    (h : Kept q s)  : Kept q (State.takeRow s sc t r n) := by
  unfold State.takeRow
  repeat' first
    | with_reducible assumption
    | with_reducible apply Kept.ite
    | with_reducible apply State.updStream_kept

theorem State.miss_kept {s : State} {sc : Nat}
    (h : Kept q s)  : Kept q (State.miss s sc) := by
  unfold State.miss
  repeat' first
    | with_reducible assumption
    | with_reducible apply State.logError_kept
    | with_reducible apply State.addSat_kept

theorem State.admitAll_kept {x0 : State} {x1 : List (Nat × Nat)} {x2 : List (Nat × Stream)}
    (h : Kept q x0)  : Kept q (State.admitAll x0 x1 x2).1 := by
  induction x2 generalizing x0 x1 with
  | nil =>
    unfold State.admitAll
    repeat' with_reducible assumption
  | cons x l ih =>
    unfold State.admitAll
    repeat' first
      | with_reducible assumption
      | with_reducible apply Kept.iteSnd
      | with_reducible apply State.miss_kept
      | with_reducible apply State.checkRecord_kept
      | with_reducible apply ih
      | dsimp -zeta only
      | split

theorem State.admission_kept {s : State}
    (h : Kept q s)  : Kept q (State.admission s) := by
  unfold State.admission
  repeat' first
    | with_reducible assumption
    | with_reducible refine Kept.foldl _ (fun _ _ _ => ?_) ?_
    | with_reducible apply State.admitAll_kept
    | with_reducible apply State.exportRow_kept
    | with_reducible apply State.updateZones_kept
    | (extract_lets +onlyGivenNames v; refine (fun (hv : Kept q v) => ?_) ?_; clear_value v; rotate_left; subst v)
    | (extract_lets +onlyGivenNames v; clear_value v)
    | dsimp -zeta only
    | (refine Kept.lit ?_ rfl rfl rfl rfl rfl rfl rfl rfl rfl rfl rfl rfl; with_reducible assumption)

theorem State.endFallow_kept {s : State} {cart : Nat} {mv : Move} {st : MoveState}
    (h : Kept q s)  : Kept q (State.endFallow s cart mv st) := by
  unfold State.endFallow
  repeat' first
    | with_reducible apply State.showMove_kept
    | (refine Kept.lit ?_ rfl rfl rfl rfl rfl rfl rfl rfl rfl rfl rfl rfl; with_reducible assumption)

theorem State.failFallow_kept {s : State} {mv : Move}
    (h : Kept q s)  : Kept q (State.failFallow s mv) := by
  unfold State.failFallow
  repeat' first
    | with_reducible assumption
    | with_reducible apply State.failExport_kept
    | with_reducible apply State.failLoad_kept
    | with_reducible apply State.updStream_kept
    | split

theorem State.commitFallow_kept {s : State} {cart : Nat} {mv : Move}
    (h : Kept q s)  : Kept q (State.commitFallow s cart mv) := by
  unfold State.commitFallow
  repeat' first
    | with_reducible assumption
    | with_reducible apply Kept.ite
    | with_reducible apply State.endFallow_kept
    | with_reducible apply State.endExport_kept
    | with_reducible apply State.swapStream_kept
    | with_reducible apply State.runLoad_kept
    | with_reducible apply State.loaded_kept
    | with_reducible apply State.rehome_kept
    | with_reducible apply State.countBytes_kept
    | with_reducible apply State.setStream_kept
    | with_reducible apply State.add64_kept
    | (extract_lets +onlyGivenNames v; refine (fun (hv : Kept q v) => ?_) ?_; clear_value v; rotate_left; subst v)
    | (extract_lets +onlyGivenNames v; clear_value v)
    | split

theorem State.commitFar_kept {s : State} {cart : Nat} {mv : Move} {a : CommitAnswer}
    (h : Kept q s)  : Kept q (State.commitFar s cart mv a) := by
  unfold State.commitFar
  repeat' first
    | with_reducible assumption
    | with_reducible apply Kept.ite
    | with_reducible apply State.commitFallow_kept
    | with_reducible apply State.failFallow_kept
    | with_reducible apply State.endFallow_kept
    | with_reducible apply State.lostDatum_kept
    | with_reducible apply State.copyMove_kept
    | with_reducible apply State.senseSource_kept
    | with_reducible apply State.cartError_kept
    | with_reducible apply State.logError_kept
    | (extract_lets +onlyGivenNames v; refine (fun (hv : Kept q v) => ?_) ?_; clear_value v; rotate_left; subst v)
    | (extract_lets +onlyGivenNames v; have hp := fun a => Kept q (v a); clear hp; subst v)
    | (extract_lets +onlyGivenNames v; have hp := fun a b => Kept q (v a b); clear hp; subst v)
    | (extract_lets +onlyGivenNames v; clear_value v)
    | dsimp -zeta only
    | with_reducible refine Kept.snd (by with_reducible assumption) ?_
    | split

theorem execMoveCommit_kept {cart : Fin 8} {a : CommitAnswer} {s : State}
    (h : Kept q s)  : KeptX q (execMoveCommit cart a s) := by
  unfold execMoveCommit
  repeat' first
    | with_reducible assumption
    | with_reducible apply KeptX.of_next
    | with_reducible apply Kept.ite
    | with_reducible apply State.commitFar_kept
    | with_reducible apply State.commitPlanMove_kept
    | split

theorem State.badSource_kept {s : State} {addr : Nat}
    (h : Kept q s)  : Kept q (State.badSource s addr) := by
  unfold State.badSource
  repeat' first
    | with_reducible assumption
    | split
    | (refine Kept.lit ?_ rfl rfl rfl rfl rfl rfl rfl rfl rfl rfl rfl rfl; with_reducible assumption)

theorem State.failSource_kept {s : State} {cart : Nat} {mv : Move} {addr : Nat}
    (h : Kept q s)  : Kept q (State.failSource s cart mv addr) := by
  unfold State.failSource
  repeat' first
    | with_reducible assumption
    | with_reducible apply Kept.ite
    | with_reducible apply State.badSource_kept
    | with_reducible apply State.failFallow_kept
    | with_reducible apply State.endFallow_kept
    | with_reducible apply State.lostDatum_kept
    | with_reducible apply State.failPlanMove_kept
    | with_reducible apply State.cartError_kept
    | with_reducible apply State.senseRange_kept
    | with_reducible apply State.logError_kept
    | (extract_lets +onlyGivenNames v; refine (fun (hv : Kept q v) => ?_) ?_; clear_value v; rotate_left; subst v)
    | (extract_lets +onlyGivenNames v; clear_value v)
    | split

theorem execMoveSourceError_kept {cart : Fin 8} {addr : BitVec 44} {s : State}
    (h : Kept q s)  : KeptX q (execMoveSourceError cart addr s) := by
  unfold execMoveSourceError
  repeat' first
    | with_reducible assumption
    | with_reducible apply KeptX.of_next
    | with_reducible apply Kept.ite
    | with_reducible apply State.failSource_kept
    | split

end Sys2Proof.Machine
end

