-- ==== Sys2Proof/Laws/KeepsTick.lean ====
section
/-!
SUPPORT. Laws/KeepsTick.lean: every operation of Machine/Tick.lean keeps the queue and a sound state sound.
-/
namespace Sys2Proof.Machine

variable {q : List Instr}

theorem State.updTick_kept {s : State} {f : TickState → TickState}
    (h : Kept q s)  : Kept q (State.updTick s f) := by
  unfold State.updTick
  repeat' (refine Kept.lit ?_ rfl rfl rfl rfl rfl rfl rfl rfl rfl rfl rfl rfl; with_reducible assumption)

theorem State.runStart_kept {s : State}
    (h : Kept q s)  : Kept q (State.runStart s) := by
  unfold State.runStart
  repeat' first
    | with_reducible assumption
    | with_reducible apply Kept.ite
    | with_reducible apply State.updTick_kept
    | with_reducible apply State.setBit_kept
    | with_reducible apply State.setReg_kept

theorem State.runStop_kept {s : State}
    (h : Kept q s)  : Kept q (State.runStop s) := by
  unfold State.runStop
  repeat' first
    | with_reducible assumption
    | with_reducible apply Kept.ite
    | with_reducible apply State.updTick_kept
    | with_reducible apply State.tickRefused_kept
    | with_reducible apply State.setBit_kept

theorem State.writeTickCtrl_kept {s : State} {run : Bool} {shedAlert : Bool}
    (h : Kept q s)  : Kept q (State.writeTickCtrl s run shedAlert) := by
  unfold State.writeTickCtrl
  repeat' first
    | with_reducible assumption
    | with_reducible apply Kept.ite
    | with_reducible apply State.runStop_kept
    | with_reducible apply State.runStart_kept
    | with_reducible apply State.setBit_kept

theorem execTickRunStart_kept {i : Iface} {shedAlert : Bool} {s : State}
    (h : Kept q s)  : KeptX q (execTickRunStart i shedAlert s) := by
  unfold execTickRunStart
  repeat' first
    | with_reducible assumption
    | with_reducible apply KeptX.of_next
    | with_reducible apply Kept.ite
    | with_reducible apply State.writeTickCtrl_kept

theorem execTickRunStop_kept {i : Iface} {shedAlert : Bool} {s : State}
    (h : Kept q s)  : KeptX q (execTickRunStop i shedAlert s) := by
  unfold execTickRunStop
  repeat' first
    | with_reducible assumption
    | with_reducible apply KeptX.of_next
    | with_reducible apply Kept.ite
    | with_reducible apply State.writeTickCtrl_kept

theorem State.reportSkip_kept {s : State}
    (h : Kept q s)  : Kept q (State.reportSkip s) := by
  unfold State.reportSkip
  repeat' first
    | with_reducible assumption
    | with_reducible apply State.logError_kept
    | with_reducible apply State.alert_kept
    | with_reducible apply State.raise_kept
    | with_reducible apply State.addSat_kept

theorem State.reportSkips_kept {s : State} {k : Nat}
    (h : Kept q s)  : Kept q (State.reportSkips s k) := by
  unfold State.reportSkips
  repeat' first
    | with_reducible assumption
    | with_reducible refine Kept.foldl _ (fun _ _ _ => ?_) ?_
    | with_reducible apply State.reportSkip_kept

theorem State.loseNext_kept {s : State} {cause : Nat}
    (h : Kept q s)  : Kept q (State.loseNext s cause) := by
  unfold State.loseNext
  repeat' first
    | with_reducible assumption
    | with_reducible refine Kept.foldl _ (fun _ _ _ => ?_) ?_
    | with_reducible apply State.openHole_kept

theorem State.reportShed_kept {s : State}
    (h : Kept q s)  : Kept q (State.reportShed s) := by
  unfold State.reportShed
  repeat' first
    | with_reducible assumption
    | with_reducible apply Kept.ite
    | with_reducible apply State.logError_kept
    | with_reducible apply State.alert_kept
    | with_reducible apply State.raise_kept
    | with_reducible apply State.addSat_kept

theorem State.reportStretch_kept {s : State}
    (h : Kept q s)  : Kept q (State.reportStretch s) := by
  unfold State.reportStretch
  repeat' first
    | with_reducible assumption
    | with_reducible apply State.raise_kept
    | with_reducible apply State.addSat_kept

theorem State.showClass_kept {s : State} {c : TickClass} {lag : Nat} {k : Nat}
    (h : Kept q s)  : Kept q (State.showClass s c lag k) := by
  unfold State.showClass
  repeat' first
    | with_reducible assumption
    | with_reducible apply Kept.ite
    | with_reducible apply State.reportStretch_kept
    | with_reducible apply State.reportShed_kept
    | with_reducible apply State.loseNext_kept
    | with_reducible apply State.reportSkips_kept
    | split

theorem State.setClass_kept {s : State} {c : TickClass} {opening : Nat}
    (h : Kept q s)  : Kept q (State.setClass s c opening) := by
  unfold State.setClass
  repeat' first
    | with_reducible assumption
    | with_reducible apply State.showClass_kept
    | with_reducible apply State.updTick_kept
    | (extract_lets +onlyGivenNames v; refine (fun (hv : Kept q v) => ?_) ?_; clear_value v; rotate_left; subst v)
    | (extract_lets +onlyGivenNames v; clear_value v)
    | split

theorem State.enterHoldover_kept {s : State}
    (h : Kept q s)  : Kept q (State.enterHoldover s) := by
  unfold State.enterHoldover
  repeat' first
    | with_reducible assumption
    | with_reducible apply State.updTick_kept
    | with_reducible apply State.raise_kept
    | with_reducible apply State.setBit_kept

theorem State.measureSpan_kept {s : State} {t : Nat}
    (h : Kept q s)  : Kept q (State.measureSpan s t) := by
  unfold State.measureSpan
  repeat' first
    | with_reducible assumption
    | with_reducible apply Kept.ite
    | with_reducible apply State.updTick_kept
    | split

theorem State.lockedSync_kept {s : State} {t : Nat}
    (h : Kept q s)  : Kept q (State.lockedSync s t) := by
  unfold State.lockedSync
  repeat' first
    | with_reducible assumption
    | with_reducible apply Kept.ite
    | with_reducible apply State.enterHoldover_kept
    | with_reducible apply State.updTick_kept

theorem execPortFrameSync_kept {port : Fin 4} {t : Nat} {s : State}
    (h : Kept q s)  : KeptX q (execPortFrameSync port t s) := by
  unfold execPortFrameSync
  repeat' first
    | with_reducible assumption
    | with_reducible apply KeptX.of_next
    | with_reducible apply Kept.ite
    | with_reducible apply State.lockedSync_kept
    | with_reducible apply State.measureSpan_kept
    | with_reducible apply State.reach_kept

theorem execLockAcquired_kept {s : State}
    (h : Kept q s)  : KeptX q (execLockAcquired s) := by
  unfold execLockAcquired
  repeat' first
    | with_reducible assumption
    | with_reducible apply KeptX.of_next
    | with_reducible apply Kept.ite
    | with_reducible apply State.updTick_kept
    | with_reducible apply State.setBit_kept

theorem execHoldover_kept {s : State}
    (h : Kept q s)  : KeptX q (execHoldover s) := by
  unfold execHoldover
  repeat' first
    | with_reducible assumption
    | with_reducible apply KeptX.of_next
    | with_reducible apply Kept.ite
    | with_reducible apply State.enterHoldover_kept
    | with_reducible apply State.updTick_kept
    | with_reducible apply State.reach_kept

theorem State.stookClass_kept {s : State} {force : Bool}
    (h : Kept q s)  : Kept q (State.stookClass s force) := by
  unfold State.stookClass
  repeat' first
    | with_reducible assumption
    | with_reducible apply Kept.ite
    | with_reducible refine Kept.foldl _ (fun _ _ _ => ?_) ?_
    | with_reducible apply State.setClass_kept
    | with_reducible apply State.updTick_kept
    | with_reducible apply State.peerMsg_kept
    | with_reducible apply State.logError_kept
    | with_reducible apply State.setBit_kept

theorem execWorkendTimeout_kept {chip : Fin 4} {s : State}
    (h : Kept q s)  : KeptX q (execWorkendTimeout chip s) := by
  unfold execWorkendTimeout
  repeat' first
    | with_reducible assumption
    | with_reducible apply KeptX.of_next
    | with_reducible apply Kept.ite
    | with_reducible apply State.stookClass_kept
    | with_reducible apply State.reach_kept

theorem execTickSyncPulse_kept {t : Nat} {s : State}
    (h : Kept q s)  : KeptX q (execTickSyncPulse t s) := by
  unfold execTickSyncPulse
  repeat' first
    | with_reducible assumption
    | with_reducible apply KeptX.of_next
    | with_reducible apply Kept.ite
    | with_reducible refine Kept.foldl _ (fun _ _ _ => ?_) ?_
    | with_reducible apply State.updTick_kept
    | with_reducible apply State.peerMsg_kept
    | with_reducible apply State.reach_kept
    | (extract_lets +onlyGivenNames v; refine (fun (hv : Kept q v) => ?_) ?_; clear_value v; rotate_left; subst v)
    | split

theorem execSyncPulseTimeout_kept {s : State}
    (h : Kept q s)  : KeptX q (execSyncPulseTimeout s) := by
  unfold execSyncPulseTimeout
  repeat' first
    | with_reducible assumption
    | with_reducible apply KeptX.of_next
    | with_reducible apply Kept.ite
    | with_reducible apply State.updTick_kept
    | with_reducible apply State.logError_kept
    | with_reducible apply State.reach_kept
    | with_reducible apply State.setBit_kept

end Sys2Proof.Machine
end

