-- ==== Sys2Proof/Laws/KeepsFallow.lean ====
section
/-!
SUPPORT. Laws/KeepsFallow.lean: every operation of Machine/Fallow.lean keeps the queue and a sound state sound.
-/
namespace Sys2Proof.Machine

variable {q : List Instr}

theorem State.addCounts_kept {s : State} {e : Nat}
    (h : Kept q s)  : Kept q (State.addCounts s e) := by
  unfold State.addCounts
  repeat' first
    | with_reducible assumption
    | with_reducible apply Kept.ite
    | with_reducible apply State.updEng_kept
    | with_reducible apply State.add64_kept
    | with_reducible apply State.addSat_kept

theorem State.foldCounts_kept {s : State}
    (h : Kept q s)  : Kept q (State.foldCounts s) := by
  unfold State.foldCounts
  repeat' first
    | with_reducible assumption
    | with_reducible refine Kept.foldl _ (fun _ _ _ => ?_) ?_
    | with_reducible apply State.addCounts_kept
    | with_reducible apply State.addSat_kept
    | (extract_lets +onlyGivenNames v; refine (fun (hv : Kept q v) => ?_) ?_; clear_value v; rotate_left; subst v)
    | (refine Kept.lit ?_ rfl rfl rfl rfl rfl rfl rfl rfl rfl rfl rfl rfl; with_reducible assumption)

theorem State.doWriteBack_kept {s : State}
    (h : Kept q s)  : Kept q (State.doWriteBack s) := by
  unfold State.doWriteBack
  repeat' (refine Kept.lit ?_ rfl rfl rfl rfl rfl rfl rfl rfl rfl rfl rfl rfl; with_reducible assumption)

theorem State.scrubWord_kept {s : State} {w : Nat} {f : BitFlips}
    (h : Kept q s)  : Kept q (State.scrubWord s w f) := by
  unfold State.scrubWord
  repeat' first
    | with_reducible assumption
    | with_reducible apply State.openHole_kept
    | with_reducible apply State.endStream_kept
    | with_reducible apply State.t0Sense_kept
    | with_reducible apply State.logError_kept
    | (extract_lets +onlyGivenNames v; refine (fun (hv : Kept q v) => ?_) ?_; clear_value v; rotate_left; subst v)
    | (extract_lets +onlyGivenNames v; clear_value v)
    | split
    | (refine Kept.lit ?_ rfl rfl rfl rfl rfl rfl rfl rfl rfl rfl rfl rfl; with_reducible assumption)

theorem State.scrub_kept {s : State}
    (h : Kept q s)  : Kept q (State.scrub s) := by
  unfold State.scrub
  repeat' first
    | with_reducible assumption
    | with_reducible apply Kept.ite
    | with_reducible refine Kept.foldl _ (fun _ _ _ => ?_) ?_
    | with_reducible apply State.scrubWord_kept
    | (extract_lets +onlyGivenNames v; refine (fun (hv : Kept q v) => ?_) ?_; clear_value v; rotate_left; subst v)
    | (extract_lets +onlyGivenNames v; clear_value v)
    | (refine Kept.lit ?_ rfl rfl rfl rfl rfl rfl rfl rfl rfl rfl rfl rfl; with_reducible assumption)

theorem State.checkPinned_kept {s : State}
    (h : Kept q s)  : Kept q (State.checkPinned s) := by
  unfold State.checkPinned
  repeat' first
    | with_reducible assumption
    | with_reducible apply Kept.ite
    | with_reducible refine Kept.foldl _ (fun _ _ _ => ?_) ?_
    | with_reducible apply State.setPinnedRow_kept
    | with_reducible apply State.senseBank_kept

theorem State.clearBanks_kept {s : State}  (h : Kept q s) : Kept q (s.clearBanks) :=
  ⟨h.pending, h.regs, h.hiLatch, h.t0, h.t1, h.host, h.flash, h.streams, keyFilter_rising _ h.banks, h.engs, h.queues, h.ports⟩

theorem State.creditEnergy_kept {s : State}
    (h : Kept q s)  : Kept q (State.creditEnergy s) := by
  unfold State.creditEnergy
  repeat' first
    | with_reducible assumption
    | with_reducible refine Kept.foldl _ (fun _ _ _ => ?_) ?_
    | with_reducible apply State.updStream_kept
    | (extract_lets +onlyGivenNames v; refine (fun (hv : Kept q v) => ?_) ?_; clear_value v; rotate_left; subst v)
    | (extract_lets +onlyGivenNames v; clear_value v)
    | (refine Kept.lit ?_ rfl rfl rfl rfl rfl rfl rfl rfl rfl rfl rfl rfl; with_reducible assumption)

theorem State.beginFallow_kept {s : State}
    (h : Kept q s)  : Kept q (State.beginFallow s) := by
  unfold State.beginFallow
  repeat' first
    | with_reducible assumption
    | with_reducible apply State.foldCounts_kept
    | with_reducible apply State.updTick_kept
    | with_reducible apply State.postResults_kept
    | with_reducible apply State.reach_kept
    | with_reducible apply State.setBit_kept
    | with_reducible apply State.setFld_kept
    | (extract_lets +onlyGivenNames v; refine (fun (hv : Kept q v) => ?_) ?_; clear_value v; rotate_left; subst v)
    | (extract_lets +onlyGivenNames v; clear_value v)
    | (refine Kept.lit ?_ rfl rfl rfl rfl rfl rfl rfl rfl rfl rfl rfl rfl; with_reducible assumption)

theorem State.step1_kept {s : State}
    (h : Kept q s)  : Kept q (State.step1 s) := by
  unfold State.step1
  repeat' first
    | with_reducible assumption
    | with_reducible apply State.creditEnergy_kept
    | with_reducible apply State.clearBanks_kept
    | with_reducible apply State.checkPinned_kept
    | with_reducible apply State.scrub_kept
    | with_reducible apply State.doWriteBack_kept
    | with_reducible apply State.applyHeld_kept
    | with_reducible apply State.camReady_kept
    | with_reducible apply State.stageReady_kept

theorem State.takeBind_kept {s : State} {x1 : Nat} {r : Req}
    (h : Kept q s)  : Kept q (State.takeBind s x1 r) := by
  unfold State.takeBind
  repeat' first
    | with_reducible assumption
    | with_reducible apply Kept.ite
    | with_reducible apply State.forwardReq_kept
    | with_reducible apply State.bindOut_kept
    | with_reducible apply State.settle_kept
    | with_reducible apply State.setStream_kept
    | (extract_lets +onlyGivenNames v; refine (fun (hv : Kept q v.2) => ?_) ?_; clear_value v; rotate_left; subst v)
    | split

theorem State.takeUnbind_kept {s : State} {x1 : Nat} {r : Req}
    (h : Kept q s)  : Kept q (State.takeUnbind s x1 r) := by
  unfold State.takeUnbind
  repeat' first
    | with_reducible assumption
    | with_reducible apply Kept.ite
    | with_reducible apply State.forwardReq_kept
    | with_reducible apply State.leaveOut_kept
    | with_reducible apply State.settle_kept
    | with_reducible apply State.setStream_kept
    | (extract_lets +onlyGivenNames v; refine (fun (hv : Kept q v) => ?_) ?_; clear_value v; rotate_left; subst v)
    | split

theorem State.takeStep3Reqs_kept {s : State}
    (h : Kept q s)  : Kept q (State.takeStep3Reqs s) := by
  unfold State.takeStep3Reqs
  repeat' first
    | with_reducible assumption
    | with_reducible apply Kept.ite
    | with_reducible refine Kept.foldl _ (fun _ _ _ => ?_) ?_
    | with_reducible apply State.takeUnbind_kept
    | with_reducible apply State.takeBind_kept
    | with_reducible apply State.takeDiscard_kept
    | with_reducible apply State.takeActivation_kept

theorem State.takeBoundaries_kept {s : State}
    (h : Kept q s)  : Kept q (State.takeBoundaries s) := by
  unfold State.takeBoundaries
  repeat' first
    | with_reducible assumption
    | with_reducible apply Kept.ite
    | with_reducible refine Kept.foldl _ (fun _ _ _ => ?_) ?_
    | with_reducible apply State.giveBoundary_kept
    | with_reducible apply State.settle_kept
    | split

theorem State.takeBootPlan_kept {s : State}
    (h : Kept q s)  : Kept q (State.takeBootPlan s) := by
  unfold State.takeBootPlan
  repeat' first
    | with_reducible assumption
    | with_reducible apply Kept.ite
    | with_reducible apply State.takeActivation_kept
    | with_reducible apply State.bootPlanRefused_kept
    | (extract_lets +onlyGivenNames v; have hp := v.flash; clear hp; subst v)
    | (refine Kept.lit ?_ rfl rfl rfl rfl rfl rfl rfl rfl rfl rfl rfl rfl; with_reducible assumption)

theorem State.step3_kept {s : State}
    (h : Kept q s)  : Kept q (State.step3 s) := by
  unfold State.step3
  repeat' first
    | with_reducible assumption
    | with_reducible apply State.takeBootPlan_kept
    | with_reducible apply State.takeBoundaries_kept
    | with_reducible apply State.takeStep3Reqs_kept
    | with_reducible apply State.runEpochs_kept

theorem State.resumeMoves_kept {s : State}
    (h : Kept q s)  : Kept q (State.resumeMoves s) := by
  unfold State.resumeMoves
  repeat' first
    | with_reducible assumption
    | with_reducible refine Kept.foldl _ (fun _ _ _ => ?_) ?_
    | with_reducible apply State.showMove_kept
    | (extract_lets +onlyGivenNames v; refine (fun (hv : Kept q v) => ?_) ?_; clear_value v; rotate_left; subst v)
    | (refine Kept.lit ?_ rfl rfl rfl rfl rfl rfl rfl rfl rfl rfl rfl rfl; with_reducible assumption)

theorem State.takeEnds_kept {s : State}
    (h : Kept q s)  : Kept q (State.takeEnds s) := by
  unfold State.takeEnds
  repeat' first
    | with_reducible assumption
    | with_reducible apply State.closeResting_kept
    | with_reducible apply State.takeEndings_kept

theorem State.peerStep_kept {s : State} {complete : Bool}
    (h : Kept q s)  : Kept q (State.peerStep s complete) := by
  unfold State.peerStep
  repeat' first
    | with_reducible assumption
    | with_reducible apply Kept.ite
    | with_reducible refine Kept.foldl _ (fun _ _ _ => ?_) ?_
    | with_reducible apply State.settleLosses_kept
    | with_reducible apply State.placeLate_kept
    | with_reducible apply State.servePulls_kept
    | with_reducible apply State.pullHome_kept
    | with_reducible apply State.releaseTx_kept
    | with_reducible apply State.sendAsk_kept
    | with_reducible apply State.pushRecord_kept
    | with_reducible apply State.pushSet_kept

theorem State.step4_kept {s : State} {complete : Bool}
    (h : Kept q s)  : Kept q (State.step4 s complete) := by
  unfold State.step4
  repeat' first
    | with_reducible assumption
    | with_reducible apply Kept.ite
    | with_reducible apply State.peerStep_kept
    | with_reducible apply State.takeEnds_kept
    | with_reducible apply State.resumeMoves_kept
    | with_reducible apply State.clearRanges_kept
    | with_reducible apply State.evacuate_kept
    | with_reducible apply State.provide_kept
    | with_reducible apply State.takeStreamReqs_kept
    | with_reducible apply State.allSummaries_kept
    | with_reducible apply State.deactivatePlan_kept
    | with_reducible apply State.closeResting_kept
    | with_reducible apply State.takeEndings_kept

theorem State.step5_kept {s : State}
    (h : Kept q s)  : Kept q (State.step5 s) := by
  unfold State.step5
  repeat' first
    | with_reducible assumption
    | with_reducible refine Kept.foldl _ (fun _ _ _ => ?_) ?_
    | with_reducible apply State.runExports_kept
    | with_reducible apply State.swapOut_kept
    | with_reducible apply State.pauseResting_kept
    | with_reducible apply State.exportRow_kept

theorem State.loadStep_kept {s : State}
    (h : Kept q s)  : Kept q (State.loadStep s) := by
  unfold State.loadStep
  repeat' first
    | with_reducible assumption
    | with_reducible apply State.runLoad_kept
    | with_reducible apply State.clearForLoad_kept
    | split

theorem State.writeRing_kept {s : State} {rows : List (Nat × Nat)}
    (h : Kept q s)  : Kept q (State.writeRing s rows) := by
  unfold State.writeRing
  repeat' first
    | with_reducible assumption
    | with_reducible refine Kept.foldl _ (fun _ _ _ => ?_) ?_
    | with_reducible apply State.storeBytes_kept
    | split

theorem State.writeRowMap_kept {s : State} {rows : List (Nat × Nat)}
    (h : Kept q s)  : Kept q (State.writeRowMap s rows) := by
  unfold State.writeRowMap
  repeat' first
    | with_reducible assumption
    | with_reducible apply State.writeRing_kept
    | with_reducible apply State.storeBytes_kept
    | split

theorem State.fallowSteps_kept {s : State}
    (h : Kept q s)  : Kept q (State.fallowSteps s) := by
  unfold State.fallowSteps
  repeat' first
    | with_reducible assumption
    | with_reducible apply Kept.ite
    | with_reducible apply State.writeRowMap_kept
    | with_reducible apply State.loadStep_kept
    | with_reducible apply State.step5_kept
    | with_reducible apply State.step4_kept
    | with_reducible apply State.step3_kept
    | with_reducible apply State.updTick_kept
    | with_reducible apply State.admission_kept
    | with_reducible apply State.answerForwarded_kept
    | split
    | (refine Kept.lit ?_ rfl rfl rfl rfl rfl rfl rfl rfl rfl rfl rfl rfl; with_reducible assumption)
    | (refine Kept.lit ?_ rfl rfl rfl rfl rfl rfl rfl rfl rfl rfl rfl rfl; with_reducible apply State.loadStep_kept)
    | (refine Kept.lit ?_ rfl rfl rfl rfl rfl rfl rfl rfl rfl rfl rfl rfl; with_reducible apply State.step5_kept)
    | (refine Kept.lit ?_ rfl rfl rfl rfl rfl rfl rfl rfl rfl rfl rfl rfl; with_reducible apply State.step4_kept)

theorem State.openFallow_kept {s : State}
    (h : Kept q s)  : Kept q (State.openFallow s) := by
  unfold State.openFallow
  repeat' first
    | with_reducible assumption
    | with_reducible apply Kept.ite
    | with_reducible refine Kept.foldl _ (fun _ _ _ => ?_) ?_
    | with_reducible apply State.fallowSteps_kept
    | with_reducible apply State.step1_kept
    | with_reducible apply State.beginFallow_kept
    | with_reducible apply State.stookClass_kept
    | with_reducible apply State.setClass_kept
    | with_reducible apply State.loseNext_kept
    | with_reducible apply State.reportSkips_kept
    | with_reducible apply State.updTick_kept
    | with_reducible apply State.peerMsg_kept
    | split

theorem execFallowOpening_kept {s : State}
    (h : Kept q s)  : KeptX q (execFallowOpening s) := by
  unfold execFallowOpening
  repeat' first
    | with_reducible assumption
    | with_reducible apply KeptX.of_next
    | with_reducible apply Kept.ite
    | with_reducible apply State.openFallow_kept

end Sys2Proof.Machine
end

