-- ==== Sys2Proof/Laws/KeepsArming.lean ====
section
/-!
SUPPORT. Laws/KeepsArming.lean: every operation of Machine/Arming.lean keeps the queue and a sound state sound.
-/
namespace Sys2Proof.Machine

variable {q : List Instr}

theorem State.pauseMove_kept {s : State} {m : Nat × Move}
    (h : Kept q s)  : Kept q (State.pauseMove s m) := by
  unfold State.pauseMove
  repeat' first
    | with_reducible assumption
    | with_reducible apply Kept.ite
    | with_reducible apply State.showMove_kept
    | with_reducible apply State.draw_kept
    | (extract_lets +onlyGivenNames v; refine (fun (hv : Kept q v) => ?_) ?_; clear_value v; rotate_left; subst v)
    | (extract_lets +onlyGivenNames v; clear_value v)
    | dsimp -zeta only
    | (refine Kept.lit ?_ rfl rfl rfl rfl rfl rfl rfl rfl rfl rfl rfl rfl; with_reducible assumption)

theorem State.pauseMoves_kept {s : State}
    (h : Kept q s)  : Kept q (State.pauseMoves s) := by
  unfold State.pauseMoves
  repeat' first
    | with_reducible assumption
    | with_reducible refine Kept.foldl _ (fun _ _ _ => ?_) ?_
    | with_reducible apply State.pauseMove_kept

theorem State.failUpdate_kept {s : State} {cause : Nat}
    (h : Kept q s)  : Kept q (State.failUpdate s cause) := by
  unfold State.failUpdate
  repeat' first
    | with_reducible apply State.raise_kept
    | with_reducible apply State.setBit_kept
    | with_reducible apply State.setFld_kept
    | (extract_lets +onlyGivenNames v; have hp := v.flash; clear hp; subst v)
    | (refine Kept.lit ?_ rfl rfl rfl rfl rfl rfl rfl rfl rfl rfl rfl rfl; with_reducible assumption)

theorem State.endUpdateFrom_kept {s : State} {base : Nat} {len : Nat}
    (h : Kept q s)  : Kept q (State.endUpdateFrom s base len) := by
  unfold State.endUpdateFrom
  repeat' first
    | with_reducible assumption
    | with_reducible apply Kept.ite
    | with_reducible apply State.failUpdate_kept
    | (extract_lets +onlyGivenNames v; clear_value v)
    | split

theorem State.dropStage_kept {s : State} {a : Nat} {n : Nat}
    (h : Kept q s)  : Kept q (State.dropStage s a n) := by
  unfold State.dropStage
  repeat' first
    | with_reducible assumption
    | with_reducible apply Kept.ite
    | with_reducible refine Kept.foldl _ (fun _ _ _ => ?_) ?_
    | with_reducible apply State.endUpdateFrom_kept
    | with_reducible apply State.resetQueue_kept
    | with_reducible apply State.stopReq_kept
    | with_reducible apply State.settle_kept
    | with_reducible apply State.setBit_kept
    | (extract_lets +onlyGivenNames v; refine (fun (hv : Kept q v) => ?_) ?_; clear_value v; rotate_left; subst v)
    | (refine Kept.lit ?_ rfl rfl rfl rfl rfl rfl rfl rfl rfl rfl rfl rfl; with_reducible assumption)

theorem State.yieldAreas_kept {s : State}
    (h : Kept q s)  : Kept q (State.yieldAreas s) := by
  unfold State.yieldAreas
  repeat' first
    | with_reducible assumption
    | with_reducible apply Kept.ite
    | with_reducible apply State.dropStage_kept
    | with_reducible apply State.camOff_kept
    | with_reducible apply State.camRefused_kept
    | with_reducible apply State.setBit_kept
    | (extract_lets +onlyGivenNames v; refine (fun (hv : Kept q v) => ?_) ?_; clear_value v; rotate_left; subst v)
    | split

theorem State.showPinned_kept {s : State} {p : Plan}
    (h : Kept q s)  : Kept q (State.showPinned s p) := by
  unfold State.showPinned
  repeat' first
    | with_reducible assumption
    | with_reducible refine Kept.foldl _ (fun _ _ _ => ?_) ?_
    | with_reducible apply State.setFld_kept

theorem State.latch_kept {s : State} {f : Nat → Option VariantRec} (h : Kept q s) : Kept q (s.latch f) :=
  ⟨h.pending, h.regs, h.hiLatch, h.t0, h.t1, h.host, h.flash, h.streams, h.banks, by unfold State.latch; simp only [List.length_map, List.length_zipIdx]; exact h.engs, h.queues, h.ports⟩

theorem State.latchFor_kept {s : State} {shed : Bool} {rows : List (Nat × Nat)}
    (h : Kept q s)  : Kept q (State.latchFor s shed rows) := by
  unfold State.latchFor
  repeat' first
    | with_reducible assumption
    | with_reducible apply State.latch_kept
    | (extract_lets +onlyGivenNames v; clear_value v)
    | split

theorem State.swapBanks_kept {s : State} {x1 : Nat} {tag : Nat} {p : Plan}
    (h : Kept q s)  : Kept q (State.swapBanks s x1 tag p) := by
  unfold State.swapBanks
  repeat' first
    | with_reducible assumption
    | with_reducible apply Kept.ite
    | with_reducible apply State.latch_kept
    | with_reducible apply State.showPinned_kept
    | with_reducible apply State.yieldAreas_kept
    | with_reducible apply State.writeRowMap_kept
    | with_reducible apply State.applySwitch_kept
    | with_reducible apply State.settle_kept
    | with_reducible apply State.choose_kept
    | with_reducible apply State.setReg64_kept
    | with_reducible apply State.setBit_kept
    | (extract_lets +onlyGivenNames v; refine (fun (hv : Kept q v) => ?_) ?_; clear_value v; rotate_left; subst v)
    | (extract_lets +onlyGivenNames v; refine (fun (hv : Kept q v.2) => ?_) ?_; clear_value v; rotate_left; subst v)
    | (refine Kept.lit ?_ rfl rfl rfl rfl rfl rfl rfl rfl rfl rfl rfl rfl; with_reducible assumption)
    | refine Kept.lit (Kept.noBanks ?_) rfl rfl rfl rfl rfl rfl rfl rfl rfl rfl rfl rfl

theorem State.takeGrants_kept {s : State} {n : Nat} {rows : List (Nat × Nat)}
    (h : Kept q s)  : Kept q (State.takeGrants s n rows).1 := by
  unfold State.takeGrants
  repeat' first
    | with_reducible assumption
    | with_reducible apply Kept.iteFst
    | with_reducible refine Kept.foldlFst _ (fun _ _ _ => ?_) ?_
    | with_reducible apply State.takeRow_kept
    | with_reducible apply State.placeGrant_kept
    | dsimp -zeta only
    | with_reducible refine Kept.ofSomeSnd (by with_reducible assumption) ?_
    | split
    | (refine Kept.lit ?_ rfl rfl rfl rfl rfl rfl rfl rfl rfl rfl rfl rfl; with_reducible assumption)

theorem State.loadRow_kept {s : State} {r : Nat} {sc : Nat}
    (h : Kept q s)  : Kept q (State.loadRow s r sc) := by
  unfold State.loadRow
  repeat' first
    | with_reducible assumption
    | with_reducible apply Kept.ite
    | with_reducible apply State.loadPinned_kept
    | with_reducible apply State.zeroPinned_kept
    | with_reducible apply State.updStream_kept
    | split

theorem State.loadRows_kept {s : State} {rows : List (Nat × Nat)}
    (h : Kept q s)  : Kept q (State.loadRows s rows) := by
  unfold State.loadRows
  repeat' first
    | with_reducible assumption
    | with_reducible apply Kept.ite
    | with_reducible refine Kept.foldl _ (fun _ _ _ => ?_) ?_
    | with_reducible apply State.loadRow_kept

theorem State.shedHoles_kept {s : State} {rows : List (Nat × Nat)} {n : Nat}
    (h : Kept q s)  : Kept q (State.shedHoles s rows n) := by
  unfold State.shedHoles
  repeat' first
    | with_reducible assumption
    | with_reducible apply Kept.ite
    | with_reducible refine Kept.foldl _ (fun _ _ _ => ?_) ?_
    | with_reducible apply State.openHole_kept
    | split

theorem State.showPools_kept {s : State}
    (h : Kept q s)  : Kept q (State.showPools s) := by
  unfold State.showPools
  repeat' first
    | with_reducible assumption
    | with_reducible apply State.setFld_kept

theorem State.armCarry_kept {s : State}
    (h : Kept q s)  : Kept q (State.armCarry s).1 := by
  unfold State.armCarry
  repeat' first
    | with_reducible assumption
    | with_reducible refine Kept.foldl _ (fun _ _ _ => ?_) ?_
    | with_reducible apply State.latch_kept
    | with_reducible apply State.writeRowMap_kept
    | with_reducible apply State.zeroPinned_kept
    | with_reducible apply State.logError_kept
    | with_reducible apply State.raise_kept
    | with_reducible apply State.addSat_kept
    | split

theorem State.armFull_kept {s : State}
    (h : Kept q s)  : Kept q (State.armFull s).1 := by
  unfold State.armFull
  repeat' first
    | with_reducible assumption
    | with_reducible refine Kept.foldl _ (fun _ _ _ => ?_) ?_
    | with_reducible apply State.loadRows_kept
    | with_reducible apply State.takeGrants_kept
    | with_reducible apply State.swapBanks_kept
    | with_reducible apply State.latchFor_kept
    | with_reducible apply State.writeRowMap_kept
    | with_reducible apply State.takeRow_kept
    | (extract_lets +onlyGivenNames v; refine (fun (hv : Kept q v) => ?_) ?_; clear_value v; rotate_left; subst v)
    | (extract_lets +onlyGivenNames v; clear_value v)
    | dsimp -zeta only
    | split

theorem State.arm_kept {s : State}
    (h : Kept q s)  : Kept q (State.arm s) := by
  unfold State.arm
  repeat' first
    | with_reducible assumption
    | with_reducible apply State.armFull_kept
    | with_reducible apply State.armCarry_kept
    | with_reducible apply State.showPools_kept
    | with_reducible apply State.pauseMoves_kept
    | with_reducible apply State.updTick_kept
    | with_reducible apply State.camArm_kept
    | with_reducible apply State.latchPlay_kept
    | with_reducible apply State.reach_kept
    | split
    | (refine Kept.lit ?_ rfl rfl rfl rfl rfl rfl rfl rfl rfl rfl rfl rfl; with_reducible apply State.armFull_kept)
    | (refine Kept.lit ?_ rfl rfl rfl rfl rfl rfl rfl rfl rfl rfl rfl rfl; with_reducible apply State.armCarry_kept)
    | (refine Kept.lit ?_ rfl rfl rfl rfl rfl rfl rfl rfl rfl rfl rfl rfl; with_reducible apply State.shedHoles_kept)

theorem State.missClass_kept {s : State}
    (h : Kept q s)  : Kept q (State.missClass s) := by
  unfold State.missClass
  repeat' first
    | with_reducible assumption
    | with_reducible apply Kept.ite
    | with_reducible apply State.loseNext_kept
    | with_reducible apply State.logError_kept
    | with_reducible apply State.setBit_kept

theorem execArmingStep_kept {s : State}
    (h : Kept q s)  : KeptX q (execArmingStep s) := by
  unfold execArmingStep
  repeat' first
    | with_reducible assumption
    | with_reducible apply KeptX.of_next
    | with_reducible apply Kept.ite
    | with_reducible apply State.missClass_kept
    | with_reducible apply State.arm_kept
    | with_reducible apply State.stookClass_kept

theorem State.startEngine_kept {s : State} {e : Nat}
    (h : Kept q s)  : Kept q (State.startEngine s e) := by
  unfold State.startEngine
  repeat' first
    | with_reducible assumption
    | with_reducible apply State.setBusy_kept
    | with_reducible apply State.setEng_kept
    | with_reducible apply State.setFld_kept
    | (extract_lets +onlyGivenNames v; clear_value v)
    | split

theorem State.startKnots_kept {s : State}
    (h : Kept q s)  : Kept q (State.startKnots s) := by
  unfold State.startKnots
  repeat' first
    | with_reducible assumption
    | with_reducible refine Kept.foldl _ (fun _ _ _ => ?_) ?_
    | with_reducible apply State.setReg_kept
    | (refine Kept.lit ?_ rfl rfl rfl rfl rfl rfl rfl rfl rfl rfl rfl rfl; with_reducible assumption)

theorem State.startRows_kept {s : State} (h : Kept q s) : Kept q s.startRows := by
  unfold State.startRows
  extract_lets +onlyGivenNames rows streams s1
  have hstr : keyRising 0 streams = true := keyMap_rising _ (fun _ => by rfl) h.streams
  clear_value streams
  have h1 : Kept q s1 := ⟨h.pending, h.regs, h.hiLatch, h.t0, h.t1, h.host, h.flash, hstr, h.banks,
    h.engs, h.queues, h.ports⟩
  exact State.setFld_kept (State.setFld_kept (State.setFld_kept h1))


theorem State.stopTicks_kept {s : State}
    (h : Kept q s)  : Kept q (State.stopTicks s) := by
  unfold State.stopTicks
  repeat' first
    | with_reducible assumption
    | with_reducible apply State.updTick_kept
    | with_reducible apply State.applyHeld_kept
    | with_reducible apply State.setBit_kept

theorem State.startTick_kept {s : State} {e : Nat} {a : Nat}
    (h : Kept q s)  : Kept q (State.startTick s e a) := by
  unfold State.startTick
  repeat' first
    | with_reducible assumption
    | with_reducible apply Kept.ite
    | with_reducible refine Kept.foldl _ (fun _ _ _ => ?_) ?_
    | with_reducible apply State.startRows_kept
    | with_reducible apply State.startKnots_kept
    | with_reducible apply State.startEngine_kept
    | with_reducible apply State.audioStart_kept
    | with_reducible apply State.audioEdge_kept
    | with_reducible apply State.emit_kept
    | with_reducible apply State.reach_kept
    | with_reducible apply State.setReg64_kept
    | with_reducible apply State.setBit_kept
    | with_reducible apply State.setFld_kept
    | (extract_lets +onlyGivenNames v; clear_value v)
    | split
    | (refine Kept.lit ?_ rfl rfl rfl rfl rfl rfl rfl rfl rfl rfl rfl rfl; with_reducible apply State.updTick_kept)

theorem execTickEdge_kept {s : State}
    (h : Kept q s)  : KeptX q (execTickEdge s) := by
  unfold execTickEdge
  repeat' first
    | with_reducible assumption
    | with_reducible apply KeptX.of_next
    | with_reducible apply Kept.ite
    | with_reducible apply State.startTick_kept
    | with_reducible apply State.stopTicks_kept
    | with_reducible apply State.reach_kept
    | split

end Sys2Proof.Machine
end

