-- ==== Sys2Proof/Laws/KeepsAttention.lean ====
section
/-!
SUPPORT. Laws/KeepsAttention.lean: every operation of Machine/Attention.lean keeps the queue and a sound state sound.
-/
namespace Sys2Proof.Machine

variable {q : List Instr}

theorem State.lookUp_kept {s : State} {sc : Nat} {region : Nat} {slot : Nat}
    (h : Kept q s)  : Kept q (State.lookUp s sc region slot) := by
  unfold State.lookUp
  repeat' first
    | with_reducible apply Kept.ite
    | (refine Kept.lit ?_ rfl rfl rfl rfl rfl rfl rfl rfl rfl rfl rfl rfl; with_reducible assumption)

theorem State.walk_kept {s : State} {n : Nat} {ch : Nat} {sc : Nat} {region : Nat} {slots : List Nat}
    (h : Kept q s)  : Kept q (State.walk s n ch sc region slots) := by
  unfold State.walk
  repeat' first
    | with_reducible assumption
    | with_reducible apply Kept.ite
    | with_reducible refine Kept.foldl _ (fun _ _ _ => ?_) ?_
    | with_reducible apply State.lookUp_kept

theorem State.sensePages_kept {s : State} {e : Nat} {batch : Nat} {r : PagedRegion} {size : Nat} {extraBad : Nat} {qs : List Nat}
    (h : Kept q s)  : Kept q (State.sensePages s e batch r size extraBad qs) := by
  unfold State.sensePages
  repeat' first
    | with_reducible assumption
    | with_reducible apply Kept.ite
    | with_reducible refine Kept.foldl _ (fun _ _ _ => ?_) ?_
    | with_reducible apply State.reportAway_kept
    | with_reducible apply State.reportUnread_kept
    | with_reducible apply State.senseRange_kept
    | with_reducible refine Kept.snd (by with_reducible assumption) ?_
    | split
    | (refine Kept.lit ?_ rfl rfl rfl rfl rfl rfl rfl rfl rfl rfl rfl rfl; with_reducible refine Kept.foldl _ (fun _ _ _ => ?_) ?_)

theorem State.fetchPages_kept {s : State} {n : Nat} {batch : Nat} {region : Nat} {a : AttnRow} {vals : Bool}
    (h : Kept q s)  : Kept q (State.fetchPages s n batch region a vals) := by
  unfold State.fetchPages
  repeat' first
    | with_reducible assumption
    | with_reducible apply Kept.ite
    | with_reducible apply State.sensePages_kept
    | with_reducible apply State.walk_kept

theorem State.countRow_kept {s : State} {e : Nat} {pads : Nat} {blocks : Nat}
    (h : Kept q s)  : Kept q (State.countRow s e pads blocks) := by
  unfold State.countRow
  repeat' first
    | with_reducible assumption
    | with_reducible apply State.count_kept

theorem State.sattn_kept {s : State} {n : Nat} {f : TFields}
    (h : Kept q s)  : Kept q (State.sattn s n f) := by
  unfold State.sattn
  repeat' first
    | with_reducible assumption
    | with_reducible apply Kept.ite
    | with_reducible refine Kept.foldlSnd _ (fun _ _ _ => ?_) ?_
    | with_reducible apply State.countRow_kept
    | with_reducible apply State.fetchPages_kept
    | with_reducible apply State.count_kept
    | with_reducible apply State.readOp_kept
    | with_reducible apply State.writeRows_kept
    | with_reducible apply State.t0Store_kept
    | split

theorem State.thresherCost_kept {s : State} {x1 : Nat} {blocks : Nat} {b : Nat} {t1 : Bool}
    (h : Kept q s)  : Kept q (State.thresherCost s x1 blocks b t1).2 := by
  unfold State.thresherCost
  repeat' first
    | with_reducible assumption
    | with_reducible apply Kept.iteSnd
    | with_reducible apply State.boundedCost_kept

theorem execSattn_kept {n : Fin 2} {f : TFields} {s : State}
    (h : Kept q s)  : KeptX q (execSattn n f s) := by
  unfold execSattn
  repeat' first
    | with_reducible assumption
    | with_reducible apply KeptX.of_next
    | with_reducible apply Kept.ite
    | with_reducible apply State.thresherCost_kept
    | with_reducible apply State.sattn_kept
    | with_reducible refine State.runFor_kept ?_ (fun _ _ => ?_)

theorem State.sumsc_kept {s : State} {n : Nat} {f : TFields}
    (h : Kept q s)  : Kept q (State.sumsc s n f) := by
  unfold State.sumsc
  repeat' first
    | with_reducible assumption
    | with_reducible apply Kept.ite
    | with_reducible refine Kept.foldlSnd _ (fun _ _ _ => ?_) ?_
    | with_reducible apply State.countRow_kept
    | with_reducible apply State.readOp_kept
    | with_reducible apply State.writeRows_kept
    | with_reducible apply State.reportUnread_kept
    | with_reducible apply State.senseRange_kept
    | (extract_lets +onlyGivenNames v; refine (fun (hv : Kept q v) => ?_) ?_; clear_value v; rotate_left; subst v)
    | with_reducible refine Kept.snd (by with_reducible assumption) ?_
    | split

theorem execSumsc_kept {n : Fin 2} {f : TFields} {s : State}
    (h : Kept q s)  : KeptX q (execSumsc n f s) := by
  unfold execSumsc
  repeat' first
    | with_reducible assumption
    | with_reducible apply KeptX.of_next
    | with_reducible apply Kept.ite
    | with_reducible apply State.sumsc_kept
    | with_reducible apply State.thresherCost_kept
    | with_reducible refine State.runFor_kept ?_ (fun _ _ => ?_)

theorem State.sprob_kept {s : State} {n : Nat} {f : TFields}
    (h : Kept q s)  : Kept q (State.sprob s n f) := by
  unfold State.sprob
  repeat' first
    | with_reducible assumption
    | with_reducible apply Kept.ite
    | with_reducible refine Kept.foldlSnd _ (fun _ _ _ => ?_) ?_
    | with_reducible apply State.countRow_kept
    | with_reducible apply State.fetchPages_kept
    | with_reducible apply State.count_kept
    | with_reducible apply State.readOp_kept
    | with_reducible apply State.writeRows_kept
    | with_reducible apply State.reportUnread_kept
    | with_reducible apply State.senseRange_kept
    | with_reducible apply State.draw_kept
    | (extract_lets +onlyGivenNames v; clear_value v)
    | dsimp -zeta only
    | with_reducible refine Kept.snd (by with_reducible assumption) ?_
    | split

theorem execSprob_kept {n : Fin 2} {f : TFields} {s : State}
    (h : Kept q s)  : KeptX q (execSprob n f s) := by
  unfold execSprob
  repeat' first
    | with_reducible assumption
    | with_reducible apply KeptX.of_next
    | with_reducible apply Kept.ite
    | with_reducible apply State.sprob_kept
    | with_reducible apply State.thresherCost_kept
    | with_reducible refine State.runFor_kept ?_ (fun _ _ => ?_)

theorem State.fattn_kept {s : State} {n : Nat} {f : TFields}
    (h : Kept q s)  : Kept q (State.fattn s n f) := by
  unfold State.fattn
  repeat' first
    | with_reducible assumption
    | with_reducible apply Kept.iteSnd
    | with_reducible refine Kept.foldl _ (fun _ _ _ => ?_) ?_
    | with_reducible apply State.setBank_kept
    | with_reducible apply State.count_kept
    | with_reducible apply State.readOp_kept
    | with_reducible apply State.writeRows_kept
    | (extract_lets +onlyGivenNames v; refine (fun (hv : Kept q v) => ?_) ?_; clear_value v; rotate_left; subst v)
    | (extract_lets +onlyGivenNames v; clear_value v)
    | (refine Kept.lit ?_ rfl rfl rfl rfl rfl rfl rfl rfl rfl rfl rfl rfl; with_reducible assumption)

theorem execFattn_kept {n : Fin 16} {f : TFields} {s : State}
    (h : Kept q s)  : KeptX q (execFattn n f s) := by
  unfold execFattn
  repeat' first
    | with_reducible assumption
    | with_reducible apply KeptX.of_next
    | with_reducible apply State.fattn_kept
    | with_reducible refine State.runWord_kept ?_ (fun _ _ => ?_)

end Sys2Proof.Machine
end

