-- ==== Sys2Proof/Laws/KeepsDomain.lean ====
section
/-!
SUPPORT. Laws/KeepsDomain.lean: every operation of Machine/Domain.lean keeps the queue and a sound state sound.
-/
namespace Sys2Proof.Machine

variable {q : List Instr}

theorem State.updAon_kept {s : State} {f : AonState → AonState}
    (h : Kept q s)  : Kept q (State.updAon s f) := by
  unfold State.updAon
  repeat' (refine Kept.lit ?_ rfl rfl rfl rfl rfl rfl rfl rfl rfl rfl rfl rfl; with_reducible assumption)

theorem State.showStore_kept {s : State}
    (h : Kept q s)  : Kept q (State.showStore s) := by
  unfold State.showStore
  repeat' first
    | with_reducible assumption
    | with_reducible refine Kept.foldl _ (fun _ _ _ => ?_) ?_
    | with_reducible apply State.setRegs_kept
    | with_reducible apply State.setReg64_kept

theorem State.putStore_kept {s : State} {d : StoreData}
    (h : Kept q s)  : Kept q (State.putStore s d) := by
  unfold State.putStore
  repeat' first
    | with_reducible assumption
    | with_reducible apply State.showStore_kept
    | with_reducible apply State.updAon_kept

theorem State.journal_kept {s : State} {code : Nat} {arg1 : Nat} {arg2 : Nat} {detail : Nat}
    (h : Kept q s)  : Kept q (State.journal s code arg1 arg2 detail) := by
  unfold State.journal
  repeat' first
    | with_reducible assumption
    | with_reducible apply Kept.ite
    | with_reducible apply State.putStore_kept

theorem State.flashErase_kept {s : State} {off n : Nat} (h : Kept q s) : Kept q (s.flashErase off n) :=
  ⟨h.pending, h.regs, h.hiLatch, h.t0, h.t1, h.host, cellFilter_wf _ h.flash, h.streams, h.banks, h.engs, h.queues, h.ports⟩

theorem State.flashWrite_kept {s : State} {off : Nat} {bs : List Byte} (h : Kept q s) : Kept q (s.flashWrite off bs) :=
  ⟨h.pending, h.regs, h.hiLatch, h.t0, h.t1, h.host, cellSetMany_wf _ h.flash, h.streams, h.banks, h.engs, h.queues, h.ports⟩

theorem State.raiseFloor_kept {s : State}
    (h : Kept q s)  : Kept q (State.raiseFloor s) := by
  unfold State.raiseFloor
  repeat' first
    | with_reducible assumption
    | with_reducible apply State.flashWrite_kept
    | with_reducible apply State.flashErase_kept
    | with_reducible apply State.journal_kept

theorem State.advanceCounter_kept {s : State}
    (h : Kept q s)  : Kept q (State.advanceCounter s) := by
  unfold State.advanceCounter
  repeat' first
    | with_reducible assumption
    | with_reducible apply Kept.ite
    | with_reducible apply State.raiseFloor_kept
    | with_reducible apply State.putStore_kept
    | with_reducible apply State.setFld_kept
    | with_reducible apply State.setReg_kept

theorem State.resetRegs_wf (s : State) : cellWf s.resetRegs = true := by
  unfold State.resetRegs
  generalize keptRegs = l
  suffices ∀ c : Cells 32, cellWf c = true → cellWf (l.foldl (fun (c : Cells 32) x =>
      cellSet c x.1 ((s.reg x.1 &&& x.2) ||| (cellGet c x.1 &&& ~~~x.2))) c) = true from this _ resetRegCells_wf
  induction l with
  | nil => intro c h; exact h
  | cons x l ih => intro c h; exact ih _ (cellSet_wf _ _ h)

theorem State.mainReset_kept {s : State} (h : Kept q s) : Kept q s.mainReset := by
  unfold State.mainReset
  refine State.setFld_kept (State.setFld_kept ?_)
  have hr := State.resetRegs_wf s
  generalize s.resetRegs = r at hr ⊢
  exact ⟨h.pending, hr, reset_sound.hiLatch, reset_sound.t0, reset_sound.t1, h.host, h.flash, reset_sound.streams, reset_sound.banks, reset_sound.engs,
    reset_sound.queues, reset_sound.ports⟩


theorem State.enterOff_kept {s : State}
    (h : Kept q s)  : Kept q (State.enterOff s) := by
  unfold State.enterOff
  repeat' first
    | with_reducible assumption
    | with_reducible apply State.mainReset_kept
    | with_reducible apply State.updAon_kept
    | (extract_lets +onlyGivenNames v; refine (fun (hv : Kept q v) => ?_) ?_; clear_value v; rotate_left; subst v)
    | (refine Kept.lit ?_ rfl rfl rfl rfl rfl rfl rfl rfl rfl rfl rfl rfl; with_reducible assumption)

theorem State.setLastOff_kept {s : State} {code : Nat}
    (h : Kept q s)  : Kept q (State.setLastOff s code) := by
  unfold State.setLastOff
  repeat' first
    | with_reducible assumption
    | with_reducible apply State.setFld_kept

theorem State.interruptUpdate_kept {s : State}
    (h : Kept q s)  : Kept q (State.interruptUpdate s) := by
  unfold State.interruptUpdate
  repeat' first
    | with_reducible assumption
    | with_reducible apply Kept.ite
    | with_reducible apply State.raise_kept
    | with_reducible apply State.setBit_kept
    | with_reducible apply State.setFld_kept
    | (extract_lets +onlyGivenNames v; have hp := v.flash; clear hp; subst v)
    | (refine Kept.lit ?_ rfl rfl rfl rfl rfl rfl rfl rfl rfl rfl rfl rfl; with_reducible assumption)

theorem State.stopAllMoves_kept {s : State}
    (h : Kept q s)  : Kept q (State.stopAllMoves s) := by
  unfold State.stopAllMoves
  repeat' first
    | with_reducible assumption
    | with_reducible refine Kept.foldl _ (fun _ _ _ => ?_) ?_
    | with_reducible apply State.showMove_kept
    | (extract_lets +onlyGivenNames v; refine (fun (hv : Kept q v) => ?_) ?_; clear_value v; rotate_left; subst v)
    | (extract_lets +onlyGivenNames v; clear_value v)
    | (refine Kept.lit ?_ rfl rfl rfl rfl rfl rfl rfl rfl rfl rfl rfl rfl; with_reducible assumption)

theorem State.stopWork_kept {s : State}
    (h : Kept q s)  : Kept q (State.stopWork s) := by
  unfold State.stopWork
  repeat' first
    | with_reducible assumption
    | with_reducible apply Kept.ite
    | with_reducible refine Kept.foldl _ (fun _ _ _ => ?_) ?_
    | with_reducible apply State.setBusy_kept
    | with_reducible apply State.updEng_kept
    | with_reducible apply State.setBit_kept
    | (extract_lets +onlyGivenNames v; clear_value v)
    | (refine Kept.lit ?_ rfl rfl rfl rfl rfl rfl rfl rfl rfl rfl rfl rfl; with_reducible apply State.setBit_kept)

theorem State.sendLeave_kept {s : State}
    (h : Kept q s)  : Kept q (State.sendLeave s) := by
  unfold State.sendLeave
  repeat' first
    | with_reducible assumption
    | with_reducible apply Kept.ite
    | with_reducible refine Kept.foldl _ (fun _ _ _ => ?_) ?_
    | with_reducible apply State.peerMsg_kept

theorem State.powerDown_kept {s : State} {code : Nat} {arg1 : Nat} {arg2 : Nat}
    (h : Kept q s)  : Kept q (State.powerDown s code arg1 arg2) := by
  unfold State.powerDown
  repeat' first
    | with_reducible assumption
    | with_reducible apply State.sendLeave_kept
    | with_reducible apply State.stopWork_kept
    | with_reducible apply State.stopAllMoves_kept
    | with_reducible apply State.interruptUpdate_kept
    | with_reducible apply State.journal_kept
    | with_reducible apply State.updAon_kept
    | with_reducible apply State.beginRamp_kept

theorem State.thermalTrip_kept {s : State} {sensor : Nat} {reading : Nat}
    (h : Kept q s)  : Kept q (State.thermalTrip s sensor reading) := by
  unfold State.thermalTrip
  repeat' first
    | with_reducible assumption
    | with_reducible apply Kept.ite
    | with_reducible apply State.powerDown_kept
    | with_reducible apply State.updAon_kept
    | with_reducible apply State.raise_kept
    | (extract_lets +onlyGivenNames v; refine (fun (hv : Kept q v) => ?_) ?_; clear_value v; rotate_left; subst v)
    | split

theorem execPowerdownOff_kept {s : State}
    (h : Kept q s)  : KeptX q (execPowerdownOff s) := by
  unfold execPowerdownOff
  repeat' first
    | with_reducible assumption
    | with_reducible apply KeptX.of_next
    | with_reducible apply Kept.ite
    | with_reducible apply State.setLastOff_kept
    | with_reducible apply State.enterOff_kept
    | with_reducible apply State.putStore_kept
    | with_reducible apply State.reach_kept

theorem State.supplyLost_kept {s : State} {what : Nat}
    (h : Kept q s)  : Kept q (State.supplyLost s what) := by
  unfold State.supplyLost
  repeat' first
    | with_reducible assumption
    | with_reducible apply Kept.ite
    | with_reducible apply State.setLastOff_kept
    | with_reducible apply State.enterOff_kept
    | with_reducible apply State.journal_kept

theorem execSupplyLoss_kept {aonToo : Bool} {s : State}
    (h : Kept q s)  : KeptX q (execSupplyLoss aonToo s) := by
  unfold execSupplyLoss
  repeat' first
    | with_reducible assumption
    | with_reducible apply KeptX.of_next
    | with_reducible apply Kept.ite
    | with_reducible apply State.supplyLost_kept
    | with_reducible apply State.updAon_kept
    | with_reducible apply State.setBit_kept

theorem execOnReqChange_kept {level : Bool} {s : State}
    (h : Kept q s)  : KeptX q (execOnReqChange level s) := by
  unfold execOnReqChange
  repeat' first
    | with_reducible assumption
    | with_reducible apply KeptX.of_next
    | with_reducible apply Kept.ite
    | with_reducible apply State.powerDown_kept
    | with_reducible apply State.enterOff_kept
    | with_reducible apply State.updAon_kept
    | with_reducible apply State.setBit_kept
    | split

theorem execPowerupStart_kept {s : State}
    (h : Kept q s)  : KeptX q (execPowerupStart s) := by
  unfold execPowerupStart
  repeat' first
    | with_reducible assumption
    | with_reducible apply KeptX.of_next
    | with_reducible apply Kept.ite
    | with_reducible apply State.updAon_kept
    | with_reducible apply State.reach_kept
    | with_reducible apply State.setBit_kept

theorem State.showCore_kept {s : State} {c : Nat} {run : Bool} {restarting : Bool}
    (h : Kept q s)  : Kept q (State.showCore s c run restarting) := by
  unfold State.showCore
  repeat' first
    | with_reducible assumption
    | with_reducible apply State.setBit_kept

theorem State.release_kept {s : State} {pins : BootPins}
    (h : Kept q s)  : Kept q (State.release s pins) := by
  unfold State.release
  repeat' first
    | with_reducible assumption
    | with_reducible apply State.showCore_kept
    | with_reducible apply State.mainReset_kept
    | with_reducible apply State.advanceCounter_kept
    | with_reducible apply State.journal_kept
    | with_reducible apply State.updAon_kept
    | with_reducible apply State.setFld_kept

theorem execReleaseStep_kept {pins : BootPins} {s : State}
    (h : Kept q s)  : KeptX q (execReleaseStep pins s) := by
  unfold execReleaseStep
  repeat' first
    | with_reducible assumption
    | with_reducible apply KeptX.of_next
    | with_reducible apply Kept.ite
    | with_reducible apply State.release_kept
    | with_reducible apply State.reach_kept

theorem State.systemReset_kept {s : State} {why : Nat}
    (h : Kept q s)  : Kept q (State.systemReset s why) := by
  unfold State.systemReset
  repeat' first
    | with_reducible assumption
    | with_reducible apply Kept.ite
    | with_reducible apply State.mainReset_kept
    | with_reducible apply State.journal_kept
    | with_reducible apply State.updAon_kept

theorem execSystemReset_kept {why : SysResetCause} {s : State}
    (h : Kept q s)  : KeptX q (execSystemReset why s) := by
  unfold execSystemReset
  repeat' first
    | with_reducible assumption
    | with_reducible apply KeptX.of_next
    | with_reducible apply State.systemReset_kept

theorem execResetNAssert_kept {s : State}
    (h : Kept q s)  : KeptX q (execResetNAssert s) := by
  unfold execResetNAssert
  repeat' first
    | with_reducible assumption
    | with_reducible apply KeptX.of_next
    | with_reducible apply Kept.ite
    | with_reducible apply State.systemReset_kept
    | with_reducible apply State.updAon_kept

theorem State.showCap_kept {s : State}
    (h : Kept q s)  : Kept q (State.showCap s) := by
  unfold State.showCap
  repeat' first
    | with_reducible assumption
    | with_reducible apply State.setFld_kept

theorem State.coreAway_kept {s : State} {c : Nat}
    (h : Kept q s)  : Kept q (State.coreAway s c) := by
  unfold State.coreAway
  repeat' first
    | with_reducible apply Kept.ite
    | with_reducible apply State.showCap_kept
    | with_reducible apply State.showCore_kept
    | with_reducible apply State.beginRamp_kept
    | with_reducible apply State.logError_kept
    | with_reducible apply State.addSat_kept
    | with_reducible apply State.setBit_kept
    | (refine Kept.lit ?_ rfl rfl rfl rfl rfl rfl rfl rfl rfl rfl rfl rfl; with_reducible assumption)

theorem State.firmwareReset_kept {s : State} {why : Nat} {core : Nat}
    (h : Kept q s)  : Kept q (State.firmwareReset s why core) := by
  unfold State.firmwareReset
  repeat' first
    | with_reducible assumption
    | with_reducible apply Kept.ite
    | with_reducible apply State.coreAway_kept
    | with_reducible apply State.systemReset_kept
    | with_reducible apply State.interruptUpdate_kept
    | with_reducible apply State.advanceCounter_kept
    | with_reducible apply State.journal_kept
    | (refine Kept.lit ?_ rfl rfl rfl rfl rfl rfl rfl rfl rfl rfl rfl rfl; with_reducible refine Kept.foldl _ (fun _ _ _ => ?_) ?_)

theorem execControlCoreRestart_kept {core : Fin 6} {s : State}
    (h : Kept q s)  : KeptX q (execControlCoreRestart core s) := by
  unfold execControlCoreRestart
  repeat' first
    | with_reducible assumption
    | with_reducible apply KeptX.of_next
    | with_reducible apply Kept.ite
    | with_reducible apply State.firmwareReset_kept
    | with_reducible apply State.coreAway_kept
    | (refine Kept.lit ?_ rfl rfl rfl rfl rfl rfl rfl rfl rfl rfl rfl rfl; with_reducible assumption)

theorem execCc3ReleaseOverrun_kept {s : State}
    (h : Kept q s)  : KeptX q (execCc3ReleaseOverrun s) := by
  unfold execCc3ReleaseOverrun
  repeat' first
    | with_reducible assumption
    | with_reducible apply KeptX.of_next
    | with_reducible apply Kept.ite
    | with_reducible apply State.firmwareReset_kept

theorem execFirmwareReset_kept {why : FwResetCause} {s : State}
    (h : Kept q s)  : KeptX q (execFirmwareReset why s) := by
  unfold execFirmwareReset
  repeat' first
    | with_reducible assumption
    | with_reducible apply KeptX.of_next
    | with_reducible apply State.firmwareReset_kept

theorem State.endWaiting_kept {s : State}
    (h : Kept q s)  : Kept q (State.endWaiting s) := by
  unfold State.endWaiting
  repeat' first
    | with_reducible assumption
    | with_reducible refine Kept.foldl _ (fun _ _ _ => ?_) ?_
    | with_reducible apply State.settle_kept

theorem execAonToKeep_kept {keepMv : Nat} {s : State}
    (h : Kept q s)  : KeptX q (execAonToKeep keepMv s) := by
  unfold execAonToKeep
  repeat' first
    | with_reducible assumption
    | with_reducible apply KeptX.of_next
    | with_reducible apply Kept.ite
    | with_reducible apply State.supplyLost_kept
    | with_reducible apply State.journal_kept
    | with_reducible apply State.updAon_kept
    | with_reducible apply State.setBit_kept

theorem execRetentionSentinelSet_kept {s : State}
    (h : Kept q s)  : KeptX q (execRetentionSentinelSet s) := by
  unfold execRetentionSentinelSet
  repeat' first
    | with_reducible assumption
    | with_reducible apply KeptX.of_next
    | with_reducible apply Kept.ite
    | with_reducible apply State.updAon_kept

theorem State.keepStore_kept {s : State}
    (h : Kept q s)  : Kept q (State.keepStore s) := by
  unfold State.keepStore
  repeat' first
    | with_reducible assumption
    | with_reducible apply Kept.ite
    | with_reducible apply Kept.iteSnd
    | with_reducible apply State.journal_kept
    | with_reducible apply State.showStore_kept
    | with_reducible apply State.updAon_kept
    | with_reducible apply State.draw_kept
    | with_reducible apply State.setBit_kept

theorem State.dropStore_kept {s : State} {why : Nat}
    (h : Kept q s)  : Kept q (State.dropStore s why) := by
  unfold State.dropStore
  repeat' first
    | with_reducible assumption
    | with_reducible apply State.setLastOff_kept
    | with_reducible apply State.journal_kept
    | with_reducible apply State.updAon_kept
    | with_reducible apply State.setBit_kept

theorem execAonStart_kept {s : State}
    (h : Kept q s)  : KeptX q (execAonStart s) := by
  unfold execAonStart
  repeat' first
    | with_reducible assumption
    | with_reducible apply KeptX.of_next
    | with_reducible apply Kept.ite
    | with_reducible apply State.dropStore_kept
    | with_reducible apply State.keepStore_kept
    | with_reducible apply State.enterOff_kept
    | with_reducible apply State.updAon_kept

theorem State.updKeep_kept {s : State} {f : KeepState → KeepState}
    (h : Kept q s)  : Kept q (State.updKeep s f) := by
  unfold State.updKeep
  repeat' first
    | with_reducible assumption
    | with_reducible apply State.updAon_kept

theorem State.keepStop_kept {s : State}
    (h : Kept q s)  : Kept q (State.keepStop s) := by
  unfold State.keepStop
  repeat' first
    | with_reducible assumption
    | with_reducible apply State.updKeep_kept
    | with_reducible apply State.setBit_kept

theorem State.keepRemoved_kept {s : State} {detail : Nat}
    (h : Kept q s)  : Kept q (State.keepRemoved s detail) := by
  unfold State.keepRemoved
  repeat' first
    | with_reducible assumption
    | with_reducible apply State.keepStop_kept
    | with_reducible apply State.updKeep_kept
    | with_reducible apply State.journal_kept
    | with_reducible apply State.setBit_kept

theorem State.twoVolts_kept {s : State} {a : Nat} {b : Nat}
    (h : Kept q s)  : Kept q (State.twoVolts s a b).2 := by
  unfold State.twoVolts
  repeat' first
    | with_reducible assumption
    | with_reducible apply State.draw_kept

theorem State.keepCharge_kept {s : State} {mv : Nat} {i : Int}
    (h : Kept q s)  : Kept q (State.keepCharge s mv i) := by
  unfold State.keepCharge
  repeat' first
    | with_reducible assumption
    | with_reducible apply Kept.ite
    | with_reducible apply State.twoVolts_kept
    | with_reducible apply State.keepRemoved_kept
    | with_reducible apply State.keepStop_kept
    | with_reducible apply State.updKeep_kept
    | with_reducible apply State.journal_kept
    | with_reducible apply State.setBit_kept

theorem execKeepSample_kept {mv : Nat} {current : Int} {s : State}
    (h : Kept q s)  : KeptX q (execKeepSample mv current s) := by
  unfold execKeepSample
  repeat' first
    | with_reducible assumption
    | with_reducible apply KeptX.of_next
    | with_reducible apply Kept.ite
    | with_reducible apply State.keepCharge_kept
    | with_reducible apply State.keepStop_kept
    | with_reducible apply State.setFld_kept

theorem execPresenceProbe_kept {mv : Nat} {s : State}
    (h : Kept q s)  : KeptX q (execPresenceProbe mv s) := by
  unfold execPresenceProbe
  repeat' first
    | with_reducible assumption
    | with_reducible apply KeptX.of_next
    | with_reducible apply Kept.ite
    | with_reducible apply State.keepRemoved_kept
    | with_reducible apply State.updKeep_kept
    | with_reducible apply State.journal_kept
    | with_reducible apply State.draw_kept
    | with_reducible apply State.setBit_kept

theorem State.keepWritten_kept {s : State} {was : State}
    (h : Kept q s) (h2 : Kept q was) : Kept q (State.keepWritten s was) := by
  unfold State.keepWritten
  repeat' first
    | with_reducible assumption
    | with_reducible apply Kept.ite
    | with_reducible apply State.keepStop_kept
    | with_reducible apply State.updKeep_kept
    | with_reducible apply State.setBit_kept

end Sys2Proof.Machine
end

