-- ==== Sys2Proof/Laws/KeepsRegs.lean ====
section
/-!
SUPPORT. Laws/KeepsRegs.lean: every operation of Machine/Regs.lean keeps the queue and a sound state sound.
-/
namespace Sys2Proof.Machine

variable {q : List Instr}

theorem State.holdRwt_kept {s : State} {off : Nat} {m : Word} {v : Word}
    (h : Kept q s)  : Kept q (State.holdRwt s off m v) := by
  unfold State.holdRwt
  repeat' first
    | with_reducible assumption
    | with_reducible apply Kept.ite
    | (refine Kept.lit ?_ rfl rfl rfl rfl rfl rfl rfl rfl rfl rfl rfl rfl; with_reducible assumption)

theorem State.regStore_kept {s : State} {off : Nat} {v : Word}
    (h : Kept q s)  : Kept q (State.regStore s off v) := by
  unfold State.regStore
  repeat' first
    | with_reducible assumption
    | with_reducible apply State.holdRwt_kept
    | with_reducible apply State.setReg_kept
    | split

theorem State.lockViolation_kept {s : State} {i : Iface} {off : Nat} {v : Word}
    (h : Kept q s)  : Kept q (State.lockViolation s i off v) := by
  unfold State.lockViolation
  repeat' first
    | with_reducible assumption
    | with_reducible apply Kept.ite
    | with_reducible apply State.logViolation_kept
    | split

theorem State.writeViolation_kept {s : State} {i : Iface} {pcieSub : Nat} {hspSub : Nat} {off : Nat} {v : Word}
    (h : Kept q s)  : Kept q (State.writeViolation s i pcieSub hspSub off v) := by
  unfold State.writeViolation
  repeat' first
    | with_reducible assumption
    | with_reducible apply State.logViolation_kept
    | split

theorem State.latchHigh_kept {s : State} {i : Iface} {low : Nat} (h : Kept q s) : Kept q (s.latchHigh i low) :=
  ⟨h.pending, h.regs, cellSet_wf _ _ h.hiLatch, h.t0, h.t1, h.host, h.flash, h.streams, h.banks, h.engs, h.queues, h.ports⟩

theorem State.holdLow_kept {s : State} {i : Iface} {low : Nat} {v : Word}
    (h : Kept q s)  : Kept q (State.holdLow s i low v) := by
  unfold State.holdLow
  repeat' (refine Kept.lit ?_ rfl rfl rfl rfl rfl rfl rfl rfl rfl rfl rfl rfl; with_reducible assumption)

theorem State.commitPair_kept {s : State} {i : Iface} {high : Nat} {v : Word}
    (h : Kept q s)  : Kept q (State.commitPair s i high v) := by
  unfold State.commitPair
  repeat' first
    | with_reducible assumption
    | with_reducible apply State.regStore_kept
    | split
    | (refine Kept.lit ?_ rfl rfl rfl rfl rfl rfl rfl rfl rfl rfl rfl rfl; with_reducible assumption)
    | (refine Kept.lit ?_ rfl rfl rfl rfl rfl rfl rfl rfl rfl rfl rfl rfl; with_reducible apply State.regStore_kept)

theorem State.regFetch_kept {s : State} {i : Iface} {off : Nat}
    (h : Kept q s)  : Kept q (State.regFetch s i off).2 := by
  unfold State.regFetch
  repeat' first
    | with_reducible assumption
    | with_reducible apply State.latchHigh_kept
    | split

end Sys2Proof.Machine
end

