-- ==== Sys2Proof/Laws/KeepsBoot.lean ====
section
/-!
SUPPORT. Laws/KeepsBoot.lean: every operation of Machine/Boot.lean keeps the queue and a sound state sound.
-/
namespace Sys2Proof.Machine

variable {q : List Instr}

theorem State.putPair_kept {s : State} {user : Bool} {p : SlotPair}
    (h : Kept q s)  : Kept q (State.putPair s user p) := by
  unfold State.putPair
  repeat' first
    | with_reducible assumption
    | with_reducible apply State.putStore_kept

theorem State.takeLayers_kept {s : State} {f : NvRecord} {u : Option NvRecord}
    (h : Kept q s)  : Kept q (State.takeLayers s f u) := by
  unfold State.takeLayers
  repeat' first
    | with_reducible apply State.setBit_kept
    | with_reducible apply State.setReg_kept
    | (extract_lets +onlyGivenNames v; have hp := v.flash; clear hp; subst v)
    | dsimp -zeta only
    | split
    | (refine Kept.lit ?_ rfl rfl rfl rfl rfl rfl rfl rfl rfl rfl rfl rfl; with_reducible assumption)

theorem State.hspCfg_kept {s : State}
    (h : Kept q s)  : Kept q (State.hspCfg s) := by
  unfold State.hspCfg
  repeat' first
    | (extract_lets +onlyGivenNames v; clear_value v)
    | (refine Kept.lit ?_ rfl rfl rfl rfl rfl rfl rfl rfl rfl rfl rfl rfl; with_reducible assumption)

theorem State.applyBase_kept {s : State}
    (h : Kept q s)  : Kept q (State.applyBase s) := by
  unfold State.applyBase
  repeat' first
    | with_reducible assumption
    | with_reducible apply State.hspCfg_kept
    | with_reducible apply State.keepWritten_kept
    | with_reducible apply State.writeIds_kept
    | with_reducible apply State.applyWant_kept
    | with_reducible apply State.setFld_kept
    | with_reducible apply State.setReg_kept

theorem State.readLatch_kept {s : State}
    (h : Kept q s)  : Kept q (State.readLatch s) := by
  unfold State.readLatch
  repeat' first
    | with_reducible assumption
    | with_reducible apply Kept.ite
    | with_reducible apply State.powerDown_kept
    | with_reducible apply State.updAon_kept
    | with_reducible apply State.raise_kept
    | split

theorem State.bootWait_kept {s : State} {err : Nat}
    (h : Kept q s)  : Kept q (State.bootWait s err) := by
  unfold State.bootWait
  repeat' first
    | with_reducible assumption
    | with_reducible apply State.readLatch_kept
    | with_reducible apply State.updAon_kept
    | with_reducible apply State.setBit_kept
    | with_reducible apply State.setFld_kept

theorem State.openDebug_kept {s : State}
    (h : Kept q s)  : Kept q (State.openDebug s) := by
  unfold State.openDebug
  repeat' first
    | with_reducible assumption
    | with_reducible apply State.setBit_kept

theorem State.loadBootPlan_kept {s : State}
    (h : Kept q s)  : Kept q (State.loadBootPlan s) := by
  unfold State.loadBootPlan
  repeat' first
    | with_reducible assumption
    | with_reducible apply Kept.ite
    | with_reducible apply State.writeTickCtrl_kept
    | with_reducible apply State.bootPlanRefused_kept
    | with_reducible apply State.finishLoad_kept
    | with_reducible apply State.storeBytes_kept
    | with_reducible apply State.t1Range_kept
    | (extract_lets +onlyGivenNames v; have hp := fun a => Kept q (v a); clear hp; subst v)
    | (extract_lets +onlyGivenNames v; have hp := v.flash; clear hp; subst v)
    | (extract_lets +onlyGivenNames v; clear_value v)
    | dsimp -zeta only
    | with_reducible refine Kept.snd (by with_reducible assumption) ?_
    | split
    | (refine Kept.lit ?_ rfl rfl rfl rfl rfl rfl rfl rfl rfl rfl rfl rfl; with_reducible apply State.finishLoad_kept)
    | (refine Kept.lit ?_ rfl rfl rfl rfl rfl rfl rfl rfl rfl rfl rfl rfl; with_reducible apply State.showLoadErr_kept)
    | (refine Kept.lit ?_ rfl rfl rfl rfl rfl rfl rfl rfl rfl rfl rfl rfl; with_reducible apply State.logError_kept)

theorem State.reachReady_kept {s : State}
    (h : Kept q s)  : Kept q (State.reachReady s) := by
  unfold State.reachReady
  repeat' first
    | with_reducible assumption
    | with_reducible refine Kept.foldl _ (fun _ _ _ => ?_) ?_
    | with_reducible apply State.loadBootPlan_kept
    | with_reducible apply State.openDebug_kept
    | with_reducible apply State.readLatch_kept
    | with_reducible apply State.showCore_kept
    | with_reducible apply State.journal_kept
    | with_reducible apply State.updAon_kept
    | with_reducible apply State.takeEpoch_kept
    | with_reducible apply State.advanceEpoch_kept
    | with_reducible apply State.draw_kept
    | with_reducible apply State.setBit_kept
    | with_reducible apply State.setReg_kept

theorem State.bootWith_kept {s : State} {f : NvRecord} {fslot : Nat} {u : Option NvRecord} {uslot : Nat}
    (h : Kept q s)  : Kept q (State.bootWith s f fslot u uslot) := by
  unfold State.bootWith
  repeat' first
    | with_reducible assumption
    | with_reducible apply State.reachReady_kept
    | with_reducible apply State.applyBase_kept
    | with_reducible apply State.takeLayers_kept
    | with_reducible apply State.setBit_kept
    | with_reducible apply State.setFld_kept

theorem State.bootFlash_kept {s : State} {useUser : Bool}
    (h : Kept q s)  : Kept q (State.bootFlash s useUser) := by
  unfold State.bootFlash
  repeat' first
    | with_reducible assumption
    | with_reducible apply Kept.ite
    | with_reducible apply State.bootWith_kept
    | with_reducible apply State.bootWait_kept
    | with_reducible apply State.setBit_kept
    | with_reducible apply State.setFld_kept
    | (extract_lets +onlyGivenNames v; clear_value v)
    | split

theorem execReady_kept {flash : List HostBytes} {s : State}
    (h : Kept q s)  : KeptX q (execReady flash s) := by
  unfold execReady
  repeat' first
    | with_reducible assumption
    | with_reducible apply KeptX.of_next
    | with_reducible apply Kept.ite
    | with_reducible refine Kept.foldl _ (fun _ _ _ => ?_) ?_
    | with_reducible apply State.bootFlash_kept
    | with_reducible apply State.bootWait_kept
    | with_reducible apply State.flashWrite_kept
    | with_reducible apply State.logViolation_kept
    | with_reducible apply State.setBit_kept

theorem State.endUpdate_kept {s : State}
    (h : Kept q s)  : Kept q (State.endUpdate s) := by
  unfold State.endUpdate
  repeat' first
    | with_reducible apply State.raise_kept
    | with_reducible apply State.setBit_kept
    | with_reducible apply State.setFld_kept
    | (extract_lets +onlyGivenNames v; have hp := v.flash; clear hp; subst v)
    | (refine Kept.lit ?_ rfl rfl rfl rfl rfl rfl rfl rfl rfl rfl rfl rfl; with_reducible assumption)

theorem State.startWrite_kept {s : State} {user : Bool} {src : Option (Nat × Nat)} {bs : List Byte}
    (h : Kept q s)  : Kept q (State.startWrite s user src bs) := by
  unfold State.startWrite
  repeat' first
    | with_reducible assumption
    | with_reducible apply Kept.ite
    | with_reducible apply State.putPair_kept
    | with_reducible apply State.flashErase_kept
    | with_reducible apply State.failUpdate_kept
    | (extract_lets +onlyGivenNames v; refine (fun (hv : Kept q v) => ?_) ?_; clear_value v; rotate_left; subst v)
    | (extract_lets +onlyGivenNames v; have hp := v.flash; clear hp; subst v)
    | (extract_lets +onlyGivenNames v; clear_value v)
    | split
    | (refine Kept.lit ?_ rfl rfl rfl rfl rfl rfl rfl rfl rfl rfl rfl rfl; with_reducible assumption)

theorem State.hostBoot_kept {s : State} {bs : List Byte}
    (h : Kept q s)  : Kept q (State.hostBoot s bs) := by
  unfold State.hostBoot
  repeat' first
    | with_reducible assumption
    | with_reducible apply Kept.ite
    | with_reducible apply State.endUpdate_kept
    | with_reducible apply State.bootWith_kept
    | with_reducible apply State.failUpdate_kept
    | with_reducible apply State.setFld_kept
    | split

theorem State.runUpdate_kept {s : State} {hostOk : Bool}
    (h : Kept q s)  : Kept q (State.runUpdate s hostOk) := by
  unfold State.runUpdate
  repeat' first
    | with_reducible assumption
    | with_reducible apply Kept.ite
    | with_reducible apply Kept.iteSnd
    | with_reducible apply State.hostBoot_kept
    | with_reducible apply State.startWrite_kept
    | with_reducible apply State.failUpdate_kept
    | with_reducible apply State.senseRange_kept
    | with_reducible apply State.logError_kept
    | with_reducible apply State.setFld_kept
    | (extract_lets +onlyGivenNames v; subst v)
    | dsimp -zeta only
    | with_reducible refine Kept.snd (by with_reducible assumption) ?_
    | split

theorem State.writeUpdCtrl_kept {s : State} {v : Word} {hostOk : Bool}
    (h : Kept q s)  : Kept q (State.writeUpdCtrl s v hostOk) := by
  unfold State.writeUpdCtrl
  repeat' first
    | with_reducible assumption
    | with_reducible apply Kept.ite
    | with_reducible apply State.runUpdate_kept
    | with_reducible apply State.regStore_kept
    | with_reducible apply State.setBit_kept
    | (extract_lets +onlyGivenNames v; have hp := v.flash; clear hp; subst v)
    | (refine Kept.lit ?_ rfl rfl rfl rfl rfl rfl rfl rfl rfl rfl rfl rfl; with_reducible apply State.setBit_kept)

theorem State_goUpdate_kept {s : State} {i : Iface} {target : Nat} {v : Word} {source : List HostBytes} {a : HostAnswer}
    (h : Kept q s)  : Kept q (State.goUpdate s i target v source a) := by
  unfold State.goUpdate
  repeat' first
    | with_reducible assumption
    | with_reducible apply Kept.ite
    | with_reducible apply State.writeUpdCtrl_kept
    | with_reducible apply State.placed_kept

theorem execNvcUpdateUser_kept {i : Iface} {v : Word} {source : List HostBytes} {a : HostAnswer} {s : State}
    (h : Kept q s)  : KeptX q (execNvcUpdateUser i v source a s) := by
  unfold execNvcUpdateUser
  repeat' first
    | with_reducible assumption
    | with_reducible apply KeptX.of_next
    | with_reducible apply State_goUpdate_kept

theorem execNvcUpdateFactory_kept {i : Iface} {v : Word} {source : List HostBytes} {a : HostAnswer} {s : State}
    (h : Kept q s)  : KeptX q (execNvcUpdateFactory i v source a s) := by
  unfold execNvcUpdateFactory
  repeat' first
    | with_reducible assumption
    | with_reducible apply KeptX.of_next
    | with_reducible apply State_goUpdate_kept

theorem execNvcHostBoot_kept {i : Iface} {v : Word} {source : List HostBytes} {a : HostAnswer} {s : State}
    (h : Kept q s)  : KeptX q (execNvcHostBoot i v source a s) := by
  unfold execNvcHostBoot
  repeat' first
    | with_reducible assumption
    | with_reducible apply KeptX.of_next
    | with_reducible apply State_goUpdate_kept

theorem execNvcUpdateDone_kept {flashOk : Bool} {s : State}
    (h : Kept q s)  : KeptX q (execNvcUpdateDone flashOk s) := by
  unfold execNvcUpdateDone
  repeat' first
    | with_reducible assumption
    | with_reducible apply KeptX.of_next
    | with_reducible apply Kept.ite
    | with_reducible apply State.endUpdate_kept
    | with_reducible apply State.putPair_kept
    | with_reducible apply State.flashWrite_kept
    | with_reducible apply State.failUpdate_kept
    | with_reducible apply State.logViolation_kept
    | (extract_lets +onlyGivenNames v; refine (fun (hv : Kept q v) => ?_) ?_; clear_value v; rotate_left; subst v)
    | split

theorem execFlashBusyTimeout_kept {s : State}
    (h : Kept q s)  : KeptX q (execFlashBusyTimeout s) := by
  unfold execFlashBusyTimeout
  repeat' first
    | with_reducible assumption
    | with_reducible apply KeptX.of_next
    | with_reducible apply Kept.ite
    | with_reducible apply State.failUpdate_kept
    | with_reducible apply State.logViolation_kept

theorem State.coreBack_kept {s : State} {c : Nat}
    (h : Kept q s)  : Kept q (State.coreBack s c) := by
  unfold State.coreBack
  repeat' first
    | with_reducible assumption
    | with_reducible apply Kept.ite
    | with_reducible apply State.runUpdate_kept
    | with_reducible apply State.endWaiting_kept
    | with_reducible apply State.showCap_kept
    | with_reducible apply State.showCore_kept
    | with_reducible apply State.finishLoad_kept
    | with_reducible apply State.setBit_kept
    | (extract_lets +onlyGivenNames v; refine (fun (hv : Kept q v) => ?_) ?_; clear_value v; rotate_left; subst v)
    | (extract_lets +onlyGivenNames v; have hp := v.flash; clear hp; subst v)
    | (extract_lets +onlyGivenNames v; clear_value v)
    | split
    | (refine Kept.lit ?_ rfl rfl rfl rfl rfl rfl rfl rfl rfl rfl rfl rfl; with_reducible assumption)
    | (refine Kept.lit ?_ rfl rfl rfl rfl rfl rfl rfl rfl rfl rfl rfl rfl; with_reducible apply State.showCore_kept)

theorem execCoreReturn_kept {core : Fin 6} {s : State}
    (h : Kept q s)  : KeptX q (execCoreReturn core s) := by
  unfold execCoreReturn
  repeat' first
    | with_reducible assumption
    | with_reducible apply KeptX.of_next
    | with_reducible apply Kept.ite
    | with_reducible apply State.coreBack_kept

theorem State.writeProvCmd_kept {s : State} {i : Iface} {v : Word}
    (h : Kept q s)  : Kept q (State.writeProvCmd s i v) := by
  unfold State.writeProvCmd
  repeat' first
    | with_reducible assumption
    | with_reducible apply Kept.ite
    | with_reducible refine Kept.foldl _ (fun _ _ _ => ?_) ?_
    | with_reducible apply State.writeViolation_kept
    | with_reducible apply State.setBit_kept
    | with_reducible apply State.setReg_kept

theorem execSecProvision_kept {i : Iface} {v : Word} {s : State}
    (h : Kept q s)  : KeptX q (execSecProvision i v s) := by
  unfold execSecProvision
  repeat' first
    | with_reducible assumption
    | with_reducible apply KeptX.of_next
    | with_reducible apply Kept.ite
    | with_reducible apply State.writeProvCmd_kept

theorem State.writeDbgCtrl_kept {s : State} {v : Word}
    (h : Kept q s)  : Kept q (State.writeDbgCtrl s v) := by
  unfold State.writeDbgCtrl
  repeat' first
    | with_reducible assumption
    | with_reducible apply Kept.ite
    | with_reducible apply State.regStore_kept
    | with_reducible apply State.setBit_kept

theorem execDebugLock_kept {i : Iface} {v : Word} {s : State}
    (h : Kept q s)  : KeptX q (execDebugLock i v s) := by
  unfold execDebugLock
  repeat' first
    | with_reducible assumption
    | with_reducible apply KeptX.of_next
    | with_reducible apply Kept.ite
    | with_reducible apply State.writeDbgCtrl_kept

end Sys2Proof.Machine
end

