-- ==== Sys2Proof/Laws/KeepsHostSide.lean ====
section
/-!
SUPPORT. Laws/KeepsHostSide.lean: every operation of Machine/HostSide.lean keeps the queue and a sound state sound.
-/
namespace Sys2Proof.Machine

variable {q : List Instr}

theorem State.hostStore_kept {s : State} {a : Nat} {bs : List Byte}
    (h : Kept q s)  : Kept q (State.hostStore s a bs) := by
  unfold State.hostStore
  repeat' first
    | with_reducible assumption
    | with_reducible apply Kept.ite
    | with_reducible refine Kept.foldl _ (fun _ _ _ => ?_) ?_
    | with_reducible apply State.logFlips_kept
    | with_reducible apply State.t0Sense_kept
    | with_reducible apply State.t0Store_kept
    | (extract_lets +onlyGivenNames v; refine (fun (hv : Kept q v) => ?_) ?_; clear_value v; rotate_left; subst v)
    | split
    | (refine Kept.lit ?_ rfl rfl rfl rfl rfl rfl rfl rfl rfl rfl rfl rfl; with_reducible assumption)

theorem State.hostLoad_kept {s : State} {a : Nat} {n : Nat}
    (h : Kept q s)  : Kept q (State.hostLoad s a n).2.2 := by
  unfold State.hostLoad
  repeat' first
    | with_reducible assumption
    | with_reducible apply Kept.iteSnd2
    | with_reducible apply State.logFlips_kept
    | with_reducible apply State.t0Range_kept

theorem execBar0BadAccess_kept {write : Bool} {off : BitVec 24} {dwords : Nat} {s : State}
    (h : Kept q s)  : KeptX q (execBar0BadAccess write off dwords s) := by
  unfold execBar0BadAccess
  repeat' first
    | with_reducible assumption
    | with_reducible apply KeptX.of_next
    | with_reducible apply Kept.ite
    | with_reducible apply State.emit_kept
    | with_reducible apply State.logViolation_kept

theorem execBar2Read_kept {off : BitVec 26} {len : Nat} {s : State}
    (h : Kept q s)  : KeptX q (execBar2Read off len s) := by
  unfold execBar2Read
  repeat' first
    | with_reducible assumption
    | with_reducible apply KeptX.of_next
    | with_reducible apply Kept.ite
    | with_reducible apply State.hostLoad_kept
    | with_reducible apply State.emit_kept

theorem execBar2Write_kept {off : BitVec 26} {bytes : List Byte} {s : State}
    (h : Kept q s)  : KeptX q (execBar2Write off bytes s) := by
  unfold execBar2Write
  repeat' first
    | with_reducible assumption
    | with_reducible apply KeptX.of_next
    | with_reducible apply Kept.ite
    | with_reducible apply State.hostStore_kept
    | with_reducible apply State.logViolation_kept

theorem State.hostRegs_wf {m : Cells 32} (l : List (Nat × Word)) (h : cellWf m = true) :
    cellWf (l.foldl (fun (m : Cells 32) c => cellSet m c.1 c.2) m) = true := cellFoldSet_wf _ _ l h

theorem State.hostReset_kept {s : State} {down : Bool} (h : Kept q s) : Kept q (s.hostReset down) := by
  unfold State.hostReset
  generalize (resetRegCells.filter fun c => hostOff c.1) = l
  extract_lets +onlyGivenNames s1
  have h1 : Kept q s1 := Kept.foldl _ (fun _ _ hs => State.resetQueue_kept hs) h
  clear_value s1
  extract_lets +onlyGivenNames link keep regs s2
  have h2 : Kept q s2 := ⟨h1.pending, State.hostRegs_wf _ (cellFilter_wf _ h1.regs), cellFilter_wf _ h1.hiLatch, h1.t0, h1.t1,
    h1.host, h1.flash, h1.streams, h1.banks, h1.engs, h1.queues, h1.ports⟩
  clear_value s2
  exact State.logError_kept (State.setBit_kept (Kept.ite h2 (State.setReg_kept h2)))


theorem execHostSideReset_kept {why : HostReset} {s : State}
    (h : Kept q s)  : KeptX q (execHostSideReset why s) := by
  unfold execHostSideReset
  repeat' first
    | with_reducible assumption
    | with_reducible apply KeptX.of_next
    | with_reducible apply Kept.ite
    | with_reducible apply State.hostReset_kept

theorem execPerstAssert_kept {s : State}
    (h : Kept q s)  : KeptX q (execPerstAssert s) := by
  unfold execPerstAssert
  repeat' first
    | with_reducible assumption
    | with_reducible apply KeptX.of_next
    | with_reducible apply Kept.ite
    | with_reducible apply State.hostReset_kept

theorem execPcieLinkUp_kept {width : Nat} {speed : Nat} {s : State}
    (h : Kept q s)  : KeptX q (execPcieLinkUp width speed s) := by
  unfold execPcieLinkUp
  repeat' first
    | with_reducible assumption
    | with_reducible apply KeptX.of_next
    | with_reducible apply Kept.ite
    | with_reducible apply State.setFld_kept

theorem execRefreshRateChange_kept {x2 : Bool} {x4 : Bool} {s : State}
    (h : Kept q s)  : KeptX q (execRefreshRateChange x2 x4 s) := by
  unfold execRefreshRateChange
  repeat' first
    | with_reducible assumption
    | with_reducible apply KeptX.of_next
    | with_reducible apply Kept.ite
    | with_reducible apply State.setBit_kept

end Sys2Proof.Machine
end

