-- ==== Sys2Proof/Laws/KeepsJtag.lean ====
section
/-!
SUPPORT. Laws/KeepsJtag.lean: every operation of Machine/Jtag.lean keeps the queue and a sound state sound.
-/
namespace Sys2Proof.Machine

variable {q : List Instr}

theorem State.tap_kept {s : State} {j : JtagState}
    (h : Kept q s)  : Kept q (State.tap s j) := by
  unfold State.tap
  repeat' first
    | with_reducible assumption
    | with_reducible apply Kept.ite
    | (refine Kept.lit ?_ rfl rfl rfl rfl rfl rfl rfl rfl rfl rfl rfl rfl; with_reducible assumption)

theorem execTapReset_kept {s : State}
    (h : Kept q s)  : KeptX q (execTapReset s) := by
  unfold execTapReset
  repeat' first
    | with_reducible assumption
    | with_reducible apply KeptX.of_next
    | with_reducible apply State.tap_kept

theorem execIdcode_kept {s : State}
    (h : Kept q s)  : KeptX q (execIdcode s) := by
  unfold execIdcode
  repeat' first
    | with_reducible assumption
    | with_reducible apply KeptX.of_next
    | with_reducible apply State.tap_kept

theorem execSamplePreload_kept {pads : BitVec 79} {cells : BitVec 79} {s : State}
    (h : Kept q s)  : KeptX q (execSamplePreload pads cells s) := by
  unfold execSamplePreload
  repeat' first
    | with_reducible assumption
    | with_reducible apply KeptX.of_next
    | with_reducible apply State.tap_kept

theorem execExtest_kept {pads : BitVec 79} {s : State}
    (h : Kept q s)  : KeptX q (execExtest pads s) := by
  unfold execExtest
  repeat' first
    | with_reducible assumption
    | with_reducible apply KeptX.of_next
    | with_reducible apply State.tap_kept

theorem execHighz_kept {s : State}
    (h : Kept q s)  : KeptX q (execHighz s) := by
  unfold execHighz
  repeat' first
    | with_reducible assumption
    | with_reducible apply KeptX.of_next
    | with_reducible apply State.tap_kept

theorem execClamp_kept {s : State}
    (h : Kept q s)  : KeptX q (execClamp s) := by
  unfold execClamp
  repeat' first
    | with_reducible assumption
    | with_reducible apply KeptX.of_next
    | with_reducible apply State.tap_kept

theorem execBypass_kept {s : State}
    (h : Kept q s)  : KeptX q (execBypass s) := by
  unfold execBypass
  repeat' first
    | with_reducible assumption
    | with_reducible apply KeptX.of_next
    | with_reducible apply State.tap_kept

theorem execDebug_kept {s : State}
    (h : Kept q s)  : KeptX q (execDebug s) := by
  unfold execDebug
  repeat' first
    | with_reducible assumption
    | with_reducible apply KeptX.of_next
    | with_reducible apply Kept.ite
    | with_reducible apply State.tap_kept
    | with_reducible apply State.draw_kept

end Sys2Proof.Machine
end

