-- ==== Sys2Proof/Laws/KeepsRequests.lean ====
section
/-!
SUPPORT. Laws/KeepsRequests.lean: every operation of Machine/Requests.lean keeps the queue and a sound state sound.
-/
namespace Sys2Proof.Machine

variable {q : List Instr}

theorem execNop_kept {x0 : Fin 16} {tag : BitVec 16} {s : State}
    (h : Kept q s)  : KeptX q (execNop x0 tag s) := by
  unfold execNop
  repeat' first
    | with_reducible assumption
    | with_reducible apply KeptX.of_next
    | with_reducible apply State.settle_kept
    | split

theorem State.answerQuery_kept {s : State} {x1 : Nat} {r : Req}
    (h : Kept q s)  : Kept q (State.answerQuery s x1 r) := by
  unfold State.answerQuery
  repeat' first
    | with_reducible assumption
    | with_reducible apply Kept.ite
    | with_reducible apply State.settle_kept
    | with_reducible apply State.storeBytes_kept
    | with_reducible apply State.senseWrite_kept
    | with_reducible apply State.logError_kept
    | dsimp -zeta only
    | with_reducible refine Kept.snd (by with_reducible assumption) ?_
    | split

theorem State.abortTarget_kept {s : State} {x1 : Nat} {r : Req}
    (h : Kept q s)  : Kept q (State.abortTarget s x1 r) := by
  unfold State.abortTarget
  repeat' first
    | with_reducible assumption
    | with_reducible apply Kept.ite
    | with_reducible apply State.stopReq_kept
    | with_reducible apply State.actReq_kept
    | with_reducible apply State.settle_kept
    | (extract_lets +onlyGivenNames v; have hp := fun a b => Kept q (v a b); clear hp; subst v)
    | (extract_lets +onlyGivenNames v; clear_value v)
    | dsimp -zeta only
    | with_reducible refine Kept.snd (by with_reducible assumption) ?_
    | split

theorem execAbort_kept {x0 : Fin 16} {tag : BitVec 16} {s : State}
    (h : Kept q s)  : KeptX q (execAbort x0 tag s) := by
  unfold execAbort
  repeat' first
    | with_reducible assumption
    | with_reducible apply KeptX.of_next
    | with_reducible apply State.abortTarget_kept
    | split

theorem execStreamOpen_kept {x0 : Fin 16} {tag : BitVec 16} {s : State}
    (h : Kept q s)  : KeptX q (execStreamOpen x0 tag s) := by
  unfold execStreamOpen
  repeat' first
    | with_reducible assumption
    | with_reducible apply KeptX.of_next
    | with_reducible apply State.dueReq_kept

theorem execStreamClose_kept {x0 : Fin 16} {tag : BitVec 16} {s : State}
    (h : Kept q s)  : KeptX q (execStreamClose x0 tag s) := by
  unfold execStreamClose
  repeat' first
    | with_reducible assumption
    | with_reducible apply KeptX.of_next
    | with_reducible apply State.dueReq_kept

theorem execStreamPause_kept {x0 : Fin 16} {tag : BitVec 16} {s : State}
    (h : Kept q s)  : KeptX q (execStreamPause x0 tag s) := by
  unfold execStreamPause
  repeat' first
    | with_reducible assumption
    | with_reducible apply KeptX.of_next
    | with_reducible apply State.dueReq_kept

theorem execStreamResume_kept {x0 : Fin 16} {tag : BitVec 16} {s : State}
    (h : Kept q s)  : KeptX q (execStreamResume x0 tag s) := by
  unfold execStreamResume
  repeat' first
    | with_reducible assumption
    | with_reducible apply KeptX.of_next
    | with_reducible apply State.dueReq_kept

theorem execStreamAbort_kept {x0 : Fin 16} {tag : BitVec 16} {s : State}
    (h : Kept q s)  : KeptX q (execStreamAbort x0 tag s) := by
  unfold execStreamAbort
  repeat' first
    | with_reducible assumption
    | with_reducible apply KeptX.of_next
    | with_reducible apply State.dueReq_kept

theorem execStateExport_kept {x0 : Fin 16} {tag : BitVec 16} {s : State}
    (h : Kept q s)  : KeptX q (execStateExport x0 tag s) := by
  unfold execStateExport
  repeat' first
    | with_reducible assumption
    | with_reducible apply KeptX.of_next
    | with_reducible apply State.dueReq_kept

theorem execMigrate_kept {x0 : Fin 16} {tag : BitVec 16} {s : State}
    (h : Kept q s)  : KeptX q (execMigrate x0 tag s) := by
  unfold execMigrate
  repeat' first
    | with_reducible assumption
    | with_reducible apply KeptX.of_next
    | with_reducible apply State.dueReq_kept

theorem execAudioBind_kept {x0 : Fin 16} {tag : BitVec 16} {s : State}
    (h : Kept q s)  : KeptX q (execAudioBind x0 tag s) := by
  unfold execAudioBind
  repeat' first
    | with_reducible assumption
    | with_reducible apply KeptX.of_next
    | with_reducible apply State.dueReq_kept

theorem execAudioUnbind_kept {x0 : Fin 16} {tag : BitVec 16} {s : State}
    (h : Kept q s)  : KeptX q (execAudioUnbind x0 tag s) := by
  unfold execAudioUnbind
  repeat' first
    | with_reducible assumption
    | with_reducible apply KeptX.of_next
    | with_reducible apply State.dueReq_kept

theorem execOverlay_kept {x0 : Fin 16} {tag : BitVec 16} {s : State}
    (h : Kept q s)  : KeptX q (execOverlay x0 tag s) := by
  unfold execOverlay
  repeat' first
    | with_reducible assumption
    | with_reducible apply KeptX.of_next
    | with_reducible apply State.dueReq_kept

end Sys2Proof.Machine
end

