-- ==== Sys2Proof/Laws/KeepsStook.lean ====
section
/-!
SUPPORT. Laws/KeepsStook.lean: every operation of Machine/Stook.lean keeps the queue and a sound state sound.
-/
namespace Sys2Proof.Machine

variable {q : List Instr}

theorem State.freeFlits_kept {s : State} {k : Nat} {cls : Nat} {bytes : Nat}
    (h : Kept q s)  : Kept q (State.freeFlits s k cls bytes) := by
  unfold State.freeFlits
  repeat' first
    | with_reducible assumption
    | with_reducible apply State.updPort_kept

theorem State.deliver_kept {s : State} {k : Nat} {cls : Nat} {bytes : Nat} {f : State → State}
    (h : Kept q s)  (hf : ∀ y0, Kept q y0 → Kept q (f y0)) : Kept q (State.deliver s k cls bytes f) := by
  unfold State.deliver
  repeat' first
    | with_reducible assumption
    | with_reducible apply Kept.ite
    | with_reducible apply State.freeFlits_kept
    | with_reducible apply hf

theorem State.setRx_kept {s : State} {m : RxMove}
    (h : Kept q s)  : Kept q (State.setRx s m) := by
  unfold State.setRx
  repeat' (refine Kept.lit ?_ rfl rfl rfl rfl rfl rfl rfl rfl rfl rfl rfl rfl; with_reducible assumption)

theorem State.dropRx_kept {s : State} {chip : Nat} {id : Nat}
    (h : Kept q s)  : Kept q (State.dropRx s chip id) := by
  unfold State.dropRx
  repeat' (refine Kept.lit ?_ rfl rfl rfl rfl rfl rfl rfl rfl rfl rfl rfl rfl; with_reducible assumption)

theorem State.storeLines_kept {s : State} {m : RxMove} {a : Nat} {bs : List Byte}
    (h : Kept q s)  : Kept q (State.storeLines s m a bs) := by
  unfold State.storeLines
  repeat' first
    | with_reducible assumption
    | with_reducible apply Kept.iteSnd
    | with_reducible apply State.setRx_kept
    | with_reducible apply State.storeBytes_kept
    | with_reducible apply State.t1Range_kept
    | with_reducible apply State.logError_kept
    | (extract_lets +onlyGivenNames v; refine (fun (hv : Kept q v) => ?_) ?_; clear_value v; rotate_left; subst v)
    | dsimp -zeta only
    | split
    | (refine Kept.lit ?_ rfl rfl rfl rfl rfl rfl rfl rfl rfl rfl rfl rfl; with_reducible assumption)

theorem State.takeWrite_kept {s : State} {k : Nat} {cls : Nat} {id : Nat} {arg : Nat} {bs : List Byte}
    (h : Kept q s)  : Kept q (State.takeWrite s k cls id arg bs) := by
  unfold State.takeWrite
  repeat' first
    | with_reducible assumption
    | with_reducible apply Kept.ite
    | with_reducible apply State.storeLines_kept
    | with_reducible apply State.setRx_kept
    | with_reducible apply State.peerViolation_kept
    | with_reducible apply State.peerMsg_kept

theorem execGydanWrite_kept {port : Fin 3} {cls : Fin 2} {moveId : BitVec 32} {arg : BitVec 32} {bytes : List Byte} {s : State}
    (h : Kept q s)  : KeptX q (execGydanWrite port cls moveId arg bytes s) := by
  unfold execGydanWrite
  repeat' first
    | with_reducible assumption
    | with_reducible apply KeptX.of_next
    | with_reducible apply State.takeWrite_kept
    | with_reducible refine State.deliver_kept ?_ (fun _ _ => ?_)

theorem State.takeSeal_kept {s : State} {k : Nat} {cls : Nat} {id : Nat} {lines : Nat}
    (h : Kept q s)  : Kept q (State.takeSeal s k cls id lines) := by
  unfold State.takeSeal
  repeat' first
    | with_reducible assumption
    | with_reducible apply Kept.ite
    | with_reducible apply State.dropRx_kept
    | with_reducible apply State.setRx_kept
    | with_reducible apply State.peerMsg_kept
    | (extract_lets +onlyGivenNames v; clear_value v)
    | split

theorem execGydanSeal_kept {port : Fin 3} {cls : Fin 2} {moveId : BitVec 32} {lines : BitVec 32} {s : State}
    (h : Kept q s)  : KeptX q (execGydanSeal port cls moveId lines s) := by
  unfold execGydanSeal
  repeat' first
    | with_reducible assumption
    | with_reducible apply KeptX.of_next
    | with_reducible apply State.takeSeal_kept
    | with_reducible refine State.deliver_kept ?_ (fun _ _ => ?_)

theorem State.takeReleased_kept {s : State} {k : Nat} {id : Nat}
    (h : Kept q s)  : Kept q (State.takeReleased s k id) := by
  unfold State.takeReleased
  repeat' first
    | with_reducible assumption
    | with_reducible apply State.dropRx_kept
    | with_reducible apply State.peerViolation_kept
    | with_reducible apply State.rehome_kept
    | (extract_lets +onlyGivenNames v; refine (fun (hv : Kept q v) => ?_) ?_; clear_value v; rotate_left; subst v)
    | (extract_lets +onlyGivenNames v; clear_value v)
    | split
    | (refine Kept.lit ?_ rfl rfl rfl rfl rfl rfl rfl rfl rfl rfl rfl rfl; with_reducible assumption)

theorem execGydanReleased_kept {port : Fin 3} {cls : Fin 2} {moveId : BitVec 32} {s : State}
    (h : Kept q s)  : KeptX q (execGydanReleased port cls moveId s) := by
  unfold execGydanReleased
  repeat' first
    | with_reducible assumption
    | with_reducible apply KeptX.of_next
    | with_reducible apply State.takeReleased_kept
    | with_reducible refine State.deliver_kept ?_ (fun _ _ => ?_)

theorem State.takeDiscardMsg_kept {s : State} {k : Nat} {id : Nat}
    (h : Kept q s)  : Kept q (State.takeDiscardMsg s k id) := by
  unfold State.takeDiscardMsg
  repeat' first
    | with_reducible assumption
    | with_reducible apply Kept.ite
    | with_reducible apply State.dropRx_kept
    | with_reducible apply State.peerViolation_kept

theorem execGydanDiscard_kept {port : Fin 3} {cls : Fin 2} {moveId : BitVec 32} {s : State}
    (h : Kept q s)  : KeptX q (execGydanDiscard port cls moveId s) := by
  unfold execGydanDiscard
  repeat' first
    | with_reducible assumption
    | with_reducible apply KeptX.of_next
    | with_reducible apply State.takeDiscardMsg_kept
    | with_reducible refine State.deliver_kept ?_ (fun _ _ => ?_)

theorem State.takePull_kept {s : State} {k : Nat} {cls : Nat} {id : Nat} {src : Nat} {dst : Nat} {lines : Nat}
    (h : Kept q s)  : Kept q (State.takePull s k cls id src dst lines) := by
  unfold State.takePull
  repeat' first
    | with_reducible assumption
    | with_reducible apply Kept.ite
    | with_reducible apply State.peerMsg_kept
    | (extract_lets +onlyGivenNames v; clear_value v)
    | dsimp -zeta only
    | (refine Kept.lit ?_ rfl rfl rfl rfl rfl rfl rfl rfl rfl rfl rfl rfl; with_reducible apply State.draw_kept)

theorem execGydanPull_kept {port : Fin 3} {cls : Fin 2} {moveId : BitVec 32} {src : Nat} {dst : Nat} {lines : Nat} {s : State}
    (h : Kept q s)  : KeptX q (execGydanPull port cls moveId src dst lines s) := by
  unfold execGydanPull
  repeat' first
    | with_reducible assumption
    | with_reducible apply KeptX.of_next
    | with_reducible apply State.takePull_kept
    | with_reducible refine State.deliver_kept ?_ (fun _ _ => ?_)

theorem State.takeCommit_kept {s : State} {k : Nat} {id : Nat}
    (h : Kept q s)  : Kept q (State.takeCommit s k id) := by
  unfold State.takeCommit
  repeat' first
    | with_reducible assumption
    | with_reducible apply Kept.ite
    | with_reducible apply State.releaseTx_kept
    | with_reducible apply State.peerViolation_kept
    | (extract_lets +onlyGivenNames v; clear_value v)
    | split
    | (refine Kept.lit ?_ rfl rfl rfl rfl rfl rfl rfl rfl rfl rfl rfl rfl; with_reducible assumption)

theorem execGydanCommit_kept {port : Fin 3} {cls : Fin 2} {moveId : BitVec 32} {s : State}
    (h : Kept q s)  : KeptX q (execGydanCommit port cls moveId s) := by
  unfold execGydanCommit
  repeat' first
    | with_reducible assumption
    | with_reducible apply KeptX.of_next
    | with_reducible apply State.takeCommit_kept
    | with_reducible refine State.deliver_kept ?_ (fun _ _ => ?_)

theorem State.takeRefuse_kept {s : State} {k : Nat} {id : Nat}
    (h : Kept q s)  : Kept q (State.takeRefuse s k id) := by
  unfold State.takeRefuse
  repeat' first
    | with_reducible assumption
    | with_reducible apply State.failTx_kept
    | with_reducible apply State.peerViolation_kept
    | split

theorem execGydanRefuse_kept {port : Fin 3} {cls : Fin 2} {moveId : BitVec 32} {x3 : BitVec 32} {s : State}
    (h : Kept q s)  : KeptX q (execGydanRefuse port cls moveId x3 s) := by
  unfold execGydanRefuse
  repeat' first
    | with_reducible assumption
    | with_reducible apply KeptX.of_next
    | with_reducible apply State.takeRefuse_kept
    | with_reducible refine State.deliver_kept ?_ (fun _ _ => ?_)

theorem State.takeAsk_kept {s : State} {k : Nat} {a : AskBody}
    (h : Kept q s)  : Kept q (State.takeAsk s k a) := by
  unfold State.takeAsk
  repeat' first
    | with_reducible assumption
    | with_reducible apply Kept.ite
    | with_reducible apply State.choose_kept
    | with_reducible apply State.peerMsg_kept
    | (extract_lets +onlyGivenNames v; refine (fun (hv : Kept q v) => ?_) ?_; clear_value v; rotate_left; subst v)
    | (extract_lets +onlyGivenNames v; have hp := fun a b c => Kept q (v a b c); clear hp; subst v)
    | (extract_lets +onlyGivenNames v; clear_value v)
    | dsimp -zeta only
    | split
    | (refine Kept.lit ?_ rfl rfl rfl rfl rfl rfl rfl rfl rfl rfl rfl rfl; with_reducible assumption)
    | (refine Kept.lit ?_ rfl rfl rfl rfl rfl rfl rfl rfl rfl rfl rfl rfl; with_reducible refine Kept.snd (by with_reducible assumption) ?_)

theorem execAsk_kept {port : Fin 3} {a : AskBody} {s : State}
    (h : Kept q s)  : KeptX q (execAsk port a s) := by
  unfold execAsk
  repeat' first
    | with_reducible assumption
    | with_reducible apply KeptX.of_next
    | with_reducible apply State.takeAsk_kept
    | with_reducible refine State.deliver_kept ?_ (fun _ _ => ?_)

theorem State.takeGrant_kept {s : State} {m : Migration} {base : Nat}
    (h : Kept q s)  : Kept q (State.takeGrant s m base) := by
  unfold State.takeGrant
  repeat' first
    | with_reducible assumption
    | with_reducible apply State.pushRecord_kept
    | with_reducible apply State.pushSet_kept
    | dsimp -zeta only
    | (refine Kept.lit ?_ rfl rfl rfl rfl rfl rfl rfl rfl rfl rfl rfl rfl; with_reducible apply State.writeRowMap_kept)
    | (refine Kept.lit ?_ rfl rfl rfl rfl rfl rfl rfl rfl rfl rfl rfl rfl; with_reducible apply State.exportRow_kept)

theorem State.takeAnswer_kept {s : State} {k : Nat} {sc : Nat} {a : AnswerBody}
    (h : Kept q s)  : Kept q (State.takeAnswer s k sc a) := by
  unfold State.takeAnswer
  repeat' first
    | with_reducible assumption
    | with_reducible apply Kept.ite
    | with_reducible apply State.takeGrant_kept
    | with_reducible apply State.dropMigration_kept
    | with_reducible apply State.settle_kept
    | split

theorem execAnswer_kept {port : Fin 3} {sc : Fin 64} {a : AnswerBody} {s : State}
    (h : Kept q s)  : KeptX q (execAnswer port sc a s) := by
  unfold execAnswer
  repeat' first
    | with_reducible assumption
    | with_reducible apply KeptX.of_next
    | with_reducible apply State.takeAnswer_kept
    | with_reducible refine State.deliver_kept ?_ (fun _ _ => ?_)

theorem execAnswerTimeout_kept {sc : Fin 64} {s : State}
    (h : Kept q s)  : KeptX q (execAnswerTimeout sc s) := by
  unfold execAnswerTimeout
  repeat' first
    | with_reducible assumption
    | with_reducible apply KeptX.of_next
    | with_reducible apply State.reach_kept
    | (extract_lets +onlyGivenNames v; refine (fun (hv : Kept q v) => ?_) ?_; clear_value v; rotate_left; subst v)
    | split
    | (refine Kept.lit ?_ rfl rfl rfl rfl rfl rfl rfl rfl rfl rfl rfl rfl; with_reducible assumption)

theorem State.takeWorkend_kept {s : State} {k : Nat} {tick : Nat} {x : Nat}
    (h : Kept q s)  : Kept q (State.takeWorkend s k tick x) := by
  unfold State.takeWorkend
  repeat' first
    | with_reducible assumption
    | with_reducible apply Kept.ite
    | with_reducible apply State.stookClass_kept
    | with_reducible apply State.updTick_kept
    | with_reducible apply State.peerViolation_kept

theorem execWorkend_kept {port : Fin 3} {tick : Nat} {x : Nat} {s : State}
    (h : Kept q s)  : KeptX q (execWorkend port tick x s) := by
  unfold execWorkend
  repeat' first
    | with_reducible assumption
    | with_reducible apply KeptX.of_next
    | with_reducible apply State.takeWorkend_kept
    | with_reducible refine State.deliver_kept ?_ (fun _ _ => ?_)

theorem State.followClass_kept {s : State} {tick : Nat} {c : TickClass} {lag : Nat}
    (h : Kept q s)  : Kept q (State.followClass s tick c lag) := by
  unfold State.followClass
  repeat' first
    | with_reducible assumption
    | with_reducible apply Kept.ite
    | with_reducible apply State.latchFor_kept
    | with_reducible apply State.showClass_kept
    | with_reducible apply State.updTick_kept

theorem State.takeClassmsg_kept {s : State} {k : Nat} {tick : Nat} {cls : Nat} {lag : Nat} {mask : Nat}
    (h : Kept q s)  : Kept q (State.takeClassmsg s k tick cls lag mask) := by
  unfold State.takeClassmsg
  repeat' first
    | with_reducible assumption
    | with_reducible apply Kept.ite
    | with_reducible apply State.followClass_kept
    | with_reducible apply State.loseNext_kept
    | with_reducible apply State.reportSkips_kept
    | with_reducible apply State.updTick_kept
    | with_reducible apply State.peerViolation_kept

theorem execClassmsg_kept {port : Fin 3} {tick : Nat} {cls : Nat} {lag : Nat} {mask : Nat} {s : State}
    (h : Kept q s)  : KeptX q (execClassmsg port tick cls lag mask s) := by
  unfold execClassmsg
  repeat' first
    | with_reducible assumption
    | with_reducible apply KeptX.of_next
    | with_reducible apply State.takeClassmsg_kept
    | with_reducible refine State.deliver_kept ?_ (fun _ _ => ?_)

theorem execRejoin_kept {port : Fin 3} {s : State}
    (h : Kept q s)  : KeptX q (execRejoin port s) := by
  unfold execRejoin
  repeat' first
    | with_reducible assumption
    | with_reducible apply KeptX.of_next
    | with_reducible apply Kept.ite
    | with_reducible refine State.deliver_kept ?_ (fun _ _ => ?_)
    | with_reducible apply State.updTick_kept

theorem execMemberEject_kept {chip : Fin 4} {s : State}
    (h : Kept q s)  : KeptX q (execMemberEject chip s) := by
  unfold execMemberEject
  repeat' first
    | with_reducible assumption
    | with_reducible apply KeptX.of_next
    | with_reducible apply Kept.ite
    | with_reducible refine Kept.foldl _ (fun _ _ _ => ?_) ?_
    | with_reducible apply State.declareLost_kept
    | with_reducible apply State.peerMsg_kept

theorem execLeave_kept {port : Fin 3} {s : State}
    (h : Kept q s)  : KeptX q (execLeave port s) := by
  unfold execLeave
  repeat' first
    | with_reducible assumption
    | with_reducible apply KeptX.of_next
    | with_reducible refine State.deliver_kept ?_ (fun _ _ => ?_)
    | with_reducible apply State.declareLost_kept

theorem State.takeEject_kept {s : State} {k : Nat} {chip : Nat}
    (h : Kept q s)  : Kept q (State.takeEject s k chip) := by
  unfold State.takeEject
  repeat' first
    | with_reducible assumption
    | with_reducible apply Kept.ite
    | with_reducible refine Kept.foldl _ (fun _ _ _ => ?_) ?_
    | with_reducible apply State.declareLost_kept
    | with_reducible apply State.peerViolation_kept

theorem execEject_kept {port : Fin 3} {chip : Fin 4} {x2 : BitVec 32} {s : State}
    (h : Kept q s)  : KeptX q (execEject port chip x2 s) := by
  unfold execEject
  repeat' first
    | with_reducible assumption
    | with_reducible apply KeptX.of_next
    | with_reducible apply State.takeEject_kept
    | with_reducible refine State.deliver_kept ?_ (fun _ _ => ?_)

theorem State.takeQuery_kept {s : State} {x1 : Nat} {r : Req}
    (h : Kept q s)  : Kept q (State.takeQuery s x1 r) := by
  unfold State.takeQuery
  repeat' first
    | with_reducible assumption
    | with_reducible apply State.forwardReq_kept
    | with_reducible apply State.answerQuery_kept
    | split

theorem execQuery_kept {x0 : Fin 16} {tag : BitVec 16} {s : State}
    (h : Kept q s)  : KeptX q (execQuery x0 tag s) := by
  unfold execQuery
  repeat' first
    | with_reducible assumption
    | with_reducible apply KeptX.of_next
    | with_reducible apply State.takeQuery_kept
    | split

theorem State.takeReqfwd_kept {s : State} {k : Nat} {bs : List Byte}
    (h : Kept q s)  : Kept q (State.takeReqfwd s k bs) := by
  unfold State.takeReqfwd
  repeat' first
    | with_reducible assumption
    | with_reducible apply Kept.ite
    | with_reducible apply State.answerForwarded_kept
    | with_reducible apply State.answerQuery_kept
    | with_reducible apply State.joinReq_kept
    | (extract_lets +onlyGivenNames v; clear_value v)
    | split

theorem execReqfwd_kept {port : Fin 3} {record : List Byte} {s : State}
    (h : Kept q s)  : KeptX q (execReqfwd port record s) := by
  unfold execReqfwd
  repeat' first
    | with_reducible assumption
    | with_reducible apply KeptX.of_next
    | with_reducible apply State.takeReqfwd_kept
    | with_reducible refine State.deliver_kept ?_ (fun _ _ => ?_)

theorem State.takeReqdone_kept {s : State} {k : Nat} {bs : List Byte}
    (h : Kept q s)  : Kept q (State.takeReqdone s k bs) := by
  unfold State.takeReqdone
  repeat' first
    | with_reducible assumption
    | with_reducible apply Kept.ite
    | with_reducible apply State.peerViolation_kept
    | with_reducible apply State.showEpoch_kept
    | with_reducible apply State.settle_kept
    | (extract_lets +onlyGivenNames v; have hp := v.flash; clear hp; subst v)
    | split
    | (refine Kept.lit ?_ rfl rfl rfl rfl rfl rfl rfl rfl rfl rfl rfl rfl; with_reducible assumption)

theorem execReqdone_kept {port : Fin 3} {record : List Byte} {s : State}
    (h : Kept q s)  : KeptX q (execReqdone port record s) := by
  unfold execReqdone
  repeat' first
    | with_reducible assumption
    | with_reducible apply KeptX.of_next
    | with_reducible apply State.takeReqdone_kept
    | with_reducible refine State.deliver_kept ?_ (fun _ _ => ?_)

theorem State.postProxied_kept {s : State} {sc : Nat} {bs : List Byte}
    (h : Kept q s)  : Kept q (State.postProxied s sc bs) := by
  unfold State.postProxied
  repeat' first
    | with_reducible assumption
    | with_reducible apply Kept.ite
    | with_reducible apply State.showHeld_kept
    | with_reducible apply State.writeRecord_kept
    | with_reducible apply State.setStream_kept
    | (extract_lets +onlyGivenNames v; clear_value v)
    | dsimp -zeta only
    | split
    | refine Kept.litDel ?_ rfl rfl rfl rfl rfl rfl rfl rfl rfl rfl rfl rfl

theorem State.takeResult_kept {s : State} {k : Nat} {sc : Nat} {records : List (List Byte)}
    (h : Kept q s)  : Kept q (State.takeResult s k sc records) := by
  unfold State.takeResult
  repeat' first
    | with_reducible assumption
    | with_reducible apply Kept.ite
    | with_reducible refine Kept.foldl _ (fun _ _ _ => ?_) ?_
    | with_reducible apply State.postProxied_kept
    | with_reducible apply State.peerViolation_kept

theorem execResult_kept {port : Fin 3} {sc : Fin 64} {records : List (List Byte)} {s : State}
    (h : Kept q s)  : KeptX q (execResult port sc records s) := by
  unfold execResult
  repeat' first
    | with_reducible assumption
    | with_reducible apply KeptX.of_next
    | with_reducible apply State.takeResult_kept
    | with_reducible refine State.deliver_kept ?_ (fun _ _ => ?_)

theorem State.takeLocate_kept {s : State} {k : Nat} {sc : Nat} {chip : Nat}
    (h : Kept q s)  : Kept q (State.takeLocate s k sc chip) := by
  unfold State.takeLocate
  repeat' first
    | with_reducible assumption
    | with_reducible apply Kept.ite
    | with_reducible apply State.peerViolation_kept
    | with_reducible apply State.settle_kept
    | with_reducible apply State.setStream_kept
    | (extract_lets +onlyGivenNames v; refine (fun (hv : Kept q v) => ?_) ?_; clear_value v; rotate_left; subst v)
    | split
    | (refine Kept.lit ?_ rfl rfl rfl rfl rfl rfl rfl rfl rfl rfl rfl rfl; with_reducible assumption)

theorem execLocate_kept {port : Fin 3} {sc : Fin 64} {chip : Fin 4} {s : State}
    (h : Kept q s)  : KeptX q (execLocate port sc chip s) := by
  unfold execLocate
  repeat' first
    | with_reducible assumption
    | with_reducible apply KeptX.of_next
    | with_reducible apply State.takeLocate_kept
    | with_reducible refine State.deliver_kept ?_ (fun _ _ => ?_)

end Sys2Proof.Machine
end

