-- ==== Sys2Proof/Laws/KeepsPower.lean ====
section
/-!
SUPPORT. Laws/KeepsPower.lean: every operation of Machine/Power.lean keeps the queue and a sound state sound.
-/
namespace Sys2Proof.Machine

variable {q : List Instr}

theorem State.updPwr_kept {s : State} {f : PowerState → PowerState}
    (h : Kept q s)  : Kept q (State.updPwr s f) := by
  unfold State.updPwr
  repeat' (refine Kept.lit ?_ rfl rfl rfl rfl rfl rfl rfl rfl rfl rfl rfl rfl; with_reducible assumption)

theorem State.divOpen_kept {s : State} {a : Int} {b : Nat}
    (h : Kept q s)  : Kept q (State.divOpen s a b).2 := by
  unfold State.divOpen
  repeat' first
    | with_reducible assumption
    | with_reducible apply Kept.iteSnd
    | with_reducible apply State.draw_kept

theorem State.divOpenNat_kept {s : State} {a : Nat} {b : Nat}
    (h : Kept q s)  : Kept q (State.divOpenNat s a b).2 := by
  unfold State.divOpenNat
  repeat' first
    | with_reducible assumption
    | with_reducible apply State.divOpen_kept

theorem State.showReading_kept {s : State} {i : Nat} {r : Option Int}
    (h : Kept q s)  : Kept q (State.showReading s i r) := by
  unfold State.showReading
  repeat' first
    | with_reducible assumption
    | with_reducible apply State.setBit_kept
    | with_reducible apply State.setFld_kept
    | (extract_lets +onlyGivenNames v; clear_value v)
    | split

theorem State.readSensor_kept {s : State} {i : Nat} {r : Option Int}
    (h : Kept q s)  : Kept q (State.readSensor s i r) := by
  unfold State.readSensor
  repeat' first
    | with_reducible assumption
    | with_reducible apply Kept.ite
    | with_reducible apply State.showReading_kept
    | with_reducible apply State.updPwr_kept
    | with_reducible apply State.logError_kept
    | with_reducible apply State.raise_kept

theorem State.startDerating_kept {s : State}
    (h : Kept q s)  : Kept q (State.startDerating s) := by
  unfold State.startDerating
  repeat' first
    | with_reducible assumption
    | with_reducible apply Kept.ite
    | with_reducible apply State.updPwr_kept

theorem State.readSensors_kept {s : State} {readings : List SensorReading}
    (h : Kept q s)  : Kept q (State.readSensors s readings) := by
  unfold State.readSensors
  repeat' first
    | with_reducible assumption
    | with_reducible refine Kept.foldl _ (fun _ _ _ => ?_) ?_
    | with_reducible apply State.startDerating_kept
    | with_reducible apply State.readSensor_kept
    | with_reducible apply State.updPwr_kept
    | with_reducible apply State.showCap_kept
    | with_reducible apply State.thermalTrip_kept
    | with_reducible apply State.setBit_kept
    | with_reducible apply State.setFld_kept
    | (extract_lets +onlyGivenNames v; refine (fun (hv : Kept q v) => ?_) ?_; clear_value v; rotate_left; subst v)
    | (extract_lets +onlyGivenNames v; clear_value v)
    | split

theorem execSensorRead_kept {readings : List SensorReading} {s : State}
    (h : Kept q s)  : KeptX q (execSensorRead readings s) := by
  unfold execSensorRead
  repeat' first
    | with_reducible assumption
    | with_reducible apply KeptX.of_next
    | with_reducible apply Kept.ite
    | with_reducible apply State.readSensors_kept

theorem execThermalDerateStep_kept {s : State}
    (h : Kept q s)  : KeptX q (execThermalDerateStep s) := by
  unfold execThermalDerateStep
  repeat' first
    | with_reducible assumption
    | with_reducible apply KeptX.of_next
    | with_reducible apply Kept.ite
    | with_reducible apply State.updPwr_kept
    | with_reducible apply State.showCap_kept
    | split

theorem State.readRail_kept {s : State} {r : Nat} {x : RailReading}
    (h : Kept q s)  : Kept q (State.readRail s r x) := by
  unfold State.readRail
  repeat' first
    | with_reducible assumption
    | with_reducible apply State.divOpenNat_kept
    | with_reducible apply State.updPwr_kept
    | with_reducible apply State.logError_kept
    | with_reducible apply State.raise_kept
    | (extract_lets +onlyGivenNames v; have hp := fun a b => Kept q (v a b); clear hp; subst v)
    | dsimp -zeta only
    | split

theorem State.closePeriod_kept {s : State} {mw : Nat}
    (h : Kept q s)  : Kept q (State.closePeriod s mw) := by
  unfold State.closePeriod
  repeat' first
    | with_reducible assumption
    | with_reducible apply Kept.iteSnd
    | with_reducible apply State.divOpenNat_kept
    | with_reducible apply State.updPwr_kept

theorem State.measure_kept {s : State} {readings : List RailReading}
    (h : Kept q s)  : Kept q (State.measure s readings) := by
  unfold State.measure
  repeat' first
    | with_reducible assumption
    | with_reducible apply Kept.ite
    | with_reducible refine Kept.foldl _ (fun _ _ _ => ?_) ?_
    | with_reducible apply State.closePeriod_kept
    | with_reducible apply State.readRail_kept
    | with_reducible apply State.logError_kept
    | with_reducible apply State.raise_kept
    | with_reducible apply State.setBit_kept
    | with_reducible apply State.setFld_kept

theorem execPmbusPeriod_kept {readings : List RailReading} {lengthened : Bool} {s : State}
    (h : Kept q s)  : KeptX q (execPmbusPeriod readings lengthened s) := by
  unfold execPmbusPeriod
  repeat' first
    | with_reducible assumption
    | with_reducible apply KeptX.of_next
    | with_reducible apply Kept.ite
    | with_reducible apply State.measure_kept
    | with_reducible apply State.raise_kept

theorem State.pmbus_kept {s : State} {r : Nat} {command : Nat} {data : Nat}
    (h : Kept q s)  : Kept q (State.pmbus s r command data) := by
  unfold State.pmbus
  repeat' first
    | with_reducible assumption
    | with_reducible apply State.emit_kept

theorem execPmbAlert_kept {status : List Word} {s : State}
    (h : Kept q s)  : KeptX q (execPmbAlert status s) := by
  unfold execPmbAlert
  repeat' first
    | with_reducible assumption
    | with_reducible apply KeptX.of_next
    | with_reducible apply Kept.ite
    | with_reducible refine Kept.foldl _ (fun _ _ _ => ?_) ?_
    | with_reducible apply State.pmbus_kept
    | with_reducible apply State.logError_kept
    | with_reducible apply State.raise_kept

theorem State.addMicro_kept {s : State} {r : Nat} {carry : Nat} {nj : Nat}
    (h : Kept q s)  : Kept q (State.addMicro s r carry nj).2 := by
  unfold State.addMicro
  repeat' first
    | with_reducible assumption
    | with_reducible apply State.add64_kept

theorem State.unattributed_kept {s : State} {nj : Nat}
    (h : Kept q s)  : Kept q (State.unattributed s nj) := by
  unfold State.unattributed
  repeat' first
    | with_reducible assumption
    | with_reducible apply State.addMicro_kept
    | with_reducible apply State.updPwr_kept

theorem State.shareEnergy_kept {s : State} {owners : List Nat} {nj : Nat}
    (h : Kept q s)  : Kept q (State.shareEnergy s owners nj) := by
  unfold State.shareEnergy
  repeat' first
    | with_reducible assumption
    | with_reducible apply Kept.ite
    | with_reducible apply State.unattributed_kept
    | with_reducible apply State.updPwr_kept

theorem State.attribute_kept {s : State} {all : Nat} {far : Nat}
    (h : Kept q s)  : Kept q (State.attribute s all far) := by
  unfold State.attribute
  repeat' first
    | with_reducible assumption
    | with_reducible apply Kept.ite
    | with_reducible apply State.shareEnergy_kept
    | with_reducible apply State.addMicro_kept
    | with_reducible apply State.updPwr_kept

theorem State.setDuty_kept {s : State} {c : Nat} {deficit : Nat} {demand : Nat}
    (h : Kept q s)  : Kept q (State.setDuty s c deficit demand) := by
  unfold State.setDuty
  repeat' first
    | with_reducible assumption
    | with_reducible apply Kept.ite
    | with_reducible apply State.updPwr_kept
    | with_reducible apply State.logError_kept
    | with_reducible apply State.raise_kept
    | with_reducible apply State.setFld_kept

theorem State.applyCommon_kept {s : State}
    (h : Kept q s)  : Kept q (State.applyCommon s) := by
  unfold State.applyCommon
  repeat' first
    | with_reducible assumption
    | with_reducible apply Kept.ite
    | with_reducible apply State.updPwr_kept
    | with_reducible apply State.setFld_kept

theorem State.countEstimate_kept {s : State} {raw : RawEstimate} {b : Nat}
    (h : Kept q s)  : Kept q (State.countEstimate s raw b) := by
  unfold State.countEstimate
  repeat' first
    | with_reducible assumption
    | with_reducible apply State.attribute_kept
    | with_reducible apply State.divOpenNat_kept
    | with_reducible apply State.updPwr_kept
    | with_reducible apply State.setFld_kept

theorem State.shareCap_kept {s : State} {raw : RawEstimate}
    (h : Kept q s)  : Kept q (State.shareCap s raw) := by
  unfold State.shareCap
  repeat' first
    | with_reducible assumption
    | with_reducible refine Kept.foldl _ (fun _ _ _ => ?_) ?_
    | with_reducible apply State.countEstimate_kept
    | with_reducible apply State.setDuty_kept

theorem execPowerShareInterval_kept {raw : RawEstimate} {s : State}
    (h : Kept q s)  : KeptX q (execPowerShareInterval raw s) := by
  unfold execPowerShareInterval
  repeat' first
    | with_reducible assumption
    | with_reducible apply KeptX.of_next
    | with_reducible apply Kept.ite
    | with_reducible apply State.shareCap_kept
    | with_reducible apply State.applyCommon_kept
    | with_reducible apply State.showCap_kept
    | with_reducible apply State.reach_kept

theorem State.fitOffset_kept {s : State} {n : Nat} {sx : Int} {sy : Int} {a : Int} {b : Nat}
    (h : Kept q s)  : Kept q (State.fitOffset s n sx sy a b).2 := by
  unfold State.fitOffset
  repeat' first
    | with_reducible assumption
    | with_reducible apply State.divOpen_kept
    | with_reducible apply State.setFld_kept

theorem State.calLimited_kept {s : State} {out : Bool}
    (h : Kept q s)  : Kept q (State.calLimited s out) := by
  unfold State.calLimited
  repeat' first
    | with_reducible assumption
    | with_reducible apply Kept.ite
    | with_reducible apply State.logError_kept
    | with_reducible apply State.raise_kept

theorem State.fit_kept {s : State} {pairs : List (Nat × Nat)}
    (h : Kept q s)  : Kept q (State.fit s pairs) := by
  unfold State.fit
  repeat' first
    | with_reducible assumption
    | with_reducible apply Kept.ite
    | with_reducible apply Kept.iteSnd
    | with_reducible apply State.calLimited_kept
    | with_reducible apply State.fitOffset_kept
    | with_reducible apply State.divOpen_kept
    | with_reducible apply State.setFld_kept

theorem execCalibrationFit_kept {s : State}
    (h : Kept q s)  : KeptX q (execCalibrationFit s) := by
  unfold execCalibrationFit
  repeat' first
    | with_reducible assumption
    | with_reducible apply KeptX.of_next
    | with_reducible apply Kept.ite
    | with_reducible apply State.fit_kept
    | with_reducible apply State.updPwr_kept

theorem State.commandPoint_kept {s : State} {rail : Nat} {p : Nat}
    (h : Kept q s)  : Kept q (State.commandPoint s rail p) := by
  unfold State.commandPoint
  repeat' first
    | with_reducible assumption
    | with_reducible apply State.pmbus_kept
    | with_reducible apply State.updPwr_kept
    | with_reducible apply State.setFld_kept

theorem State.checkVoltage_kept {s : State} {rail : Nat} {readBack : Option Nat}
    (h : Kept q s)  : Kept q (State.checkVoltage s rail readBack) := by
  unfold State.checkVoltage
  repeat' first
    | with_reducible assumption
    | with_reducible apply Kept.ite
    | with_reducible apply State.commandPoint_kept
    | with_reducible apply State.updPwr_kept
    | with_reducible apply State.logError_kept
    | with_reducible apply State.raise_kept
    | (extract_lets +onlyGivenNames v; refine (fun (hv : Kept q v) => ?_) ?_; clear_value v; rotate_left; subst v)
    | split

theorem State.choosePoint_kept {s : State} {rail : Nat}
    (h : Kept q s)  : Kept q (State.choosePoint s rail) := by
  unfold State.choosePoint
  repeat' first
    | with_reducible assumption
    | with_reducible apply Kept.ite
    | with_reducible apply State.commandPoint_kept
    | with_reducible apply State.updPwr_kept
    | (extract_lets +onlyGivenNames v; refine (fun (hv : Kept q v) => ?_) ?_; clear_value v; rotate_left; subst v)
    | (extract_lets +onlyGivenNames v; clear_value v)
    | split

theorem execVoltageSelection_kept {readBack : Option Nat} {s : State}
    (h : Kept q s)  : KeptX q (execVoltageSelection readBack s) := by
  unfold execVoltageSelection
  repeat' first
    | with_reducible assumption
    | with_reducible apply KeptX.of_next
    | with_reducible apply Kept.ite
    | with_reducible apply State.choosePoint_kept
    | with_reducible apply State.checkVoltage_kept
    | with_reducible apply State.commandPoint_kept
    | with_reducible apply State.updPwr_kept
    | with_reducible apply State.raise_kept
    | (extract_lets +onlyGivenNames v; refine (fun (hv : Kept q v) => ?_) ?_; clear_value v; rotate_left; subst v)
    | split

theorem execCapWrite_kept {i : Iface} {v : Word} {s : State}
    (h : Kept q s)  : KeptX q (execCapWrite i v s) := by
  unfold execCapWrite
  repeat' first
    | with_reducible assumption
    | with_reducible apply KeptX.of_next
    | with_reducible apply Kept.ite
    | with_reducible apply State.showCap_kept
    | with_reducible apply State.writeCap_kept

theorem State.applyShare_kept {s : State} {mw : Nat}
    (h : Kept q s)  : Kept q (State.applyShare s mw) := by
  unfold State.applyShare
  repeat' first
    | with_reducible assumption
    | with_reducible apply State.updPwr_kept
    | with_reducible apply State.showCap_kept
    | with_reducible apply State.setFld_kept

theorem State.sendShares_kept {s : State}
    (h : Kept q s)  : Kept q (State.sendShares s) := by
  unfold State.sendShares
  repeat' first
    | with_reducible assumption
    | with_reducible apply Kept.ite
    | with_reducible refine Kept.foldl _ (fun _ _ _ => ?_) ?_
    | with_reducible apply State.applyShare_kept
    | with_reducible apply State.updPwr_kept
    | with_reducible apply State.peerMsg_kept
    | with_reducible apply State.setFld_kept

theorem execStookSharePeriod_kept {s : State}
    (h : Kept q s)  : KeptX q (execStookSharePeriod s) := by
  unfold execStookSharePeriod
  repeat' first
    | with_reducible assumption
    | with_reducible apply KeptX.of_next
    | with_reducible apply Kept.ite
    | with_reducible refine Kept.foldl _ (fun _ _ _ => ?_) ?_
    | with_reducible apply State.sendShares_kept
    | with_reducible apply State.updPwr_kept
    | with_reducible apply State.showCap_kept
    | with_reducible apply State.peerMsg_kept
    | with_reducible apply State.setFld_kept
    | with_reducible apply State.setReg_kept

theorem execReport_kept {port : Fin 3} {cap : Nat} {estimate : Nat} {workEnd : Nat} {s : State}
    (h : Kept q s)  : KeptX q (execReport port cap estimate workEnd s) := by
  unfold execReport
  repeat' first
    | with_reducible assumption
    | with_reducible apply KeptX.of_next
    | with_reducible apply Kept.ite
    | with_reducible apply State.updPwr_kept
    | with_reducible refine State.deliver_kept ?_ (fun _ _ => ?_)

theorem execShare_kept {port : Fin 3} {mw : Nat} {x2 : Nat} {s : State}
    (h : Kept q s)  : KeptX q (execShare port mw x2 s) := by
  unfold execShare
  repeat' first
    | with_reducible assumption
    | with_reducible apply KeptX.of_next
    | with_reducible apply Kept.ite
    | with_reducible apply State.applyShare_kept
    | with_reducible apply State.updPwr_kept
    | with_reducible refine State.deliver_kept ?_ (fun _ _ => ?_)
    | with_reducible apply State.peerViolation_kept

theorem execShareTimeout_kept {s : State}
    (h : Kept q s)  : KeptX q (execShareTimeout s) := by
  unfold execShareTimeout
  repeat' first
    | with_reducible assumption
    | with_reducible apply KeptX.of_next
    | with_reducible apply Kept.ite
    | with_reducible apply State.updPwr_kept
    | with_reducible apply State.logError_kept
    | with_reducible apply State.raise_kept
    | with_reducible apply State.reach_kept

end Sys2Proof.Machine
end

