-- ==== Sys2Proof/Laws/KeepsTraining.lean ====
section
/-!
SUPPORT. Laws/KeepsTraining.lean: every operation of Machine/Training.lean keeps the queue and a sound state sound.
-/
namespace Sys2Proof.Machine

variable {q : List Instr}

theorem State.setLink_kept {s : State} {k : Nat} {st : Nat}
    (h : Kept q s)  : Kept q (State.setLink s k st) := by
  unfold State.setLink
  repeat' first
    | with_reducible assumption
    | with_reducible apply State.setBit_kept
    | with_reducible apply State.setFld_kept

theorem State.retrain_kept {s : State} {k : Nat}
    (h : Kept q s)  : Kept q (State.retrain s k) := by
  unfold State.retrain
  repeat' first
    | with_reducible assumption
    | with_reducible apply Kept.ite
    | with_reducible apply State.setLink_kept
    | with_reducible apply State.emit_kept
    | with_reducible apply State.updPort_kept
    | with_reducible apply State.logError_kept
    | with_reducible apply State.addSat_kept

theorem State.resend_kept {s : State} {k : Nat}
    (h : Kept q s)  : Kept q (State.resend s k) := by
  unfold State.resend
  repeat' first
    | with_reducible assumption
    | with_reducible apply Kept.ite
    | with_reducible apply State.retrain_kept
    | with_reducible apply State.updPort_kept
    | with_reducible apply State.addSat_kept

theorem State.takeTrailer_kept {s : State} {k : Nat} {f : Flit}
    (h : Kept q s)  : Kept q (State.takeTrailer s k f) := by
  unfold State.takeTrailer
  repeat' first
    | with_reducible assumption
    | with_reducible apply Kept.ite
    | with_reducible apply State.resend_kept
    | with_reducible apply State.updPort_kept

theorem State.discardFlit_kept {s : State} {k : Nat}
    (h : Kept q s)  : Kept q (State.discardFlit s k) := by
  unfold State.discardFlit
  repeat' first
    | with_reducible assumption
    | with_reducible apply State.updPort_kept

theorem State.takeMessageFlit_kept {s : State} {k : Nat} {f : Flit}
    (h : Kept q s)  : Kept q (State.takeMessageFlit s k f) := by
  unfold State.takeMessageFlit
  repeat' first
    | with_reducible assumption
    | with_reducible apply Kept.ite
    | with_reducible apply State.discardFlit_kept
    | with_reducible apply State.takeTrailer_kept
    | with_reducible apply State.peerViolation_kept
    | with_reducible apply State.updPort_kept

theorem execFlitReceive_kept {port : Fin 3} {f : Flit} {s : State}
    (h : Kept q s)  : KeptX q (execFlitReceive port f s) := by
  unfold execFlitReceive
  repeat' first
    | with_reducible assumption
    | with_reducible apply KeptX.of_next
    | with_reducible apply Kept.ite
    | with_reducible apply State.takeMessageFlit_kept
    | with_reducible apply State.discardFlit_kept
    | with_reducible apply State.takeTrailer_kept
    | with_reducible apply State.retrain_kept
    | with_reducible apply State.peerViolation_kept
    | with_reducible apply State.pumpPort_kept
    | with_reducible apply State.addSat_kept

theorem execAckTimeout_kept {port : Fin 3} {s : State}
    (h : Kept q s)  : KeptX q (execAckTimeout port s) := by
  unfold execAckTimeout
  repeat' first
    | with_reducible assumption
    | with_reducible apply KeptX.of_next
    | with_reducible apply Kept.ite
    | with_reducible apply State.resend_kept
    | with_reducible apply State.retrain_kept
    | with_reducible apply State.updPort_kept

theorem State.writeGdnCtrl_kept {s : State} {k : Nat} {v : Word}
    (h : Kept q s)  : Kept q (State.writeGdnCtrl s k v) := by
  unfold State.writeGdnCtrl
  repeat' first
    | with_reducible assumption
    | with_reducible apply Kept.ite
    | with_reducible apply State.retrain_kept
    | with_reducible apply State.setLink_kept
    | with_reducible apply State.updPort_kept
    | with_reducible apply State.setBit_kept
    | with_reducible apply State.setReg_kept

theorem execGdnEnable_kept {i : Iface} {port : Fin 3} {v : Word} {s : State}
    (h : Kept q s)  : KeptX q (execGdnEnable i port v s) := by
  unfold execGdnEnable
  repeat' first
    | with_reducible assumption
    | with_reducible apply KeptX.of_next
    | with_reducible apply Kept.ite
    | with_reducible apply State.writeGdnCtrl_kept

theorem execGdnRetrain_kept {i : Iface} {port : Fin 3} {v : Word} {s : State}
    (h : Kept q s)  : KeptX q (execGdnRetrain i port v s) := by
  unfold execGdnRetrain
  repeat' first
    | with_reducible assumption
    | with_reducible apply KeptX.of_next
    | with_reducible apply Kept.ite
    | with_reducible apply State.writeGdnCtrl_kept

theorem State.toStep_kept {s : State} {k : Nat} {t : TrainStep}
    (h : Kept q s)  : Kept q (State.toStep s k t) := by
  unfold State.toStep
  repeat' first
    | with_reducible assumption
    | with_reducible apply Kept.ite
    | with_reducible apply State.setLink_kept
    | with_reducible apply State.updPort_kept

theorem execBlockLockAcquired_kept {port : Fin 3} {s : State}
    (h : Kept q s)  : KeptX q (execBlockLockAcquired port s) := by
  unfold execBlockLockAcquired
  repeat' first
    | with_reducible assumption
    | with_reducible apply KeptX.of_next
    | with_reducible apply Kept.ite
    | with_reducible apply State.toStep_kept
    | with_reducible apply State.setFld_kept

theorem execDeskewDone_kept {port : Fin 3} {skew : Fin 9} {reversed : Bool} {polarity : BitVec 4} {s : State}
    (h : Kept q s)  : KeptX q (execDeskewDone port skew reversed polarity s) := by
  unfold execDeskewDone
  repeat' first
    | with_reducible assumption
    | with_reducible apply KeptX.of_next
    | with_reducible apply Kept.ite
    | with_reducible apply State.toStep_kept
    | with_reducible apply State.setBit_kept
    | with_reducible apply State.setFld_kept

theorem State_goActive_kept {s : State} {k : Nat} {f : ParamFlit}
    (h : Kept q s)  : Kept q (State.goActive s k f) := by
  unfold State.goActive
  repeat' first
    | with_reducible assumption
    | with_reducible apply Kept.ite
    | with_reducible apply State.setLink_kept
    | with_reducible apply State.pumpPort_kept
    | with_reducible apply State.updPort_kept
    | with_reducible apply State.raise_kept
    | with_reducible apply State.addSat_kept
    | with_reducible apply State.setBit_kept
    | with_reducible apply State.setFld_kept

theorem State.refuseLink_kept {s : State} {k : Nat} {f : ParamFlit}
    (h : Kept q s)  : Kept q (State.refuseLink s k f) := by
  unfold State.refuseLink
  repeat' first
    | with_reducible assumption
    | with_reducible apply State.setLink_kept
    | with_reducible apply State.peerViolation_kept
    | with_reducible apply State.updPort_kept
    | with_reducible apply State.raise_kept

theorem execParamReceive_kept {port : Fin 3} {p : ParamFlit} {s : State}
    (h : Kept q s)  : KeptX q (execParamReceive port p s) := by
  unfold execParamReceive
  repeat' first
    | with_reducible assumption
    | with_reducible apply KeptX.of_next
    | with_reducible apply Kept.ite
    | with_reducible apply State.refuseLink_kept
    | with_reducible apply State_goActive_kept

theorem execTrainingLimit_kept {port : Fin 3} {s : State}
    (h : Kept q s)  : KeptX q (execTrainingLimit port s) := by
  unfold execTrainingLimit
  repeat' first
    | with_reducible assumption
    | with_reducible apply KeptX.of_next
    | with_reducible apply Kept.ite
    | with_reducible apply State.toStep_kept
    | with_reducible apply State.setLink_kept
    | with_reducible apply State.updPort_kept
    | with_reducible apply State.raise_kept

theorem execLaneLockLoss_kept {port : Fin 3} {lane : Fin 4} {s : State}
    (h : Kept q s)  : KeptX q (execLaneLockLoss port lane s) := by
  unfold execLaneLockLoss
  repeat' first
    | with_reducible assumption
    | with_reducible apply KeptX.of_next
    | with_reducible apply Kept.ite
    | with_reducible apply State.retrain_kept
    | with_reducible apply State.setBit_kept

theorem execMarkerError_kept {port : Fin 3} {s : State}
    (h : Kept q s)  : KeptX q (execMarkerError port s) := by
  unfold execMarkerError
  repeat' first
    | with_reducible assumption
    | with_reducible apply KeptX.of_next
    | with_reducible apply Kept.ite
    | with_reducible apply State.retrain_kept
    | with_reducible apply State.addSat_kept

theorem execPeerLossTimeout_kept {port : Fin 3} {s : State}
    (h : Kept q s)  : KeptX q (execPeerLossTimeout port s) := by
  unfold execPeerLossTimeout
  repeat' first
    | with_reducible assumption
    | with_reducible apply KeptX.of_next
    | with_reducible apply Kept.ite
    | with_reducible apply State.setLink_kept
    | with_reducible apply State.declareLost_kept
    | with_reducible apply State.raise_kept
    | with_reducible apply State.reach_kept

end Sys2Proof.Machine
end

