-- ==== Sys2Proof/Laws/KeepsRegAccess.lean ====
section
/-!
SUPPORT. Laws/KeepsRegAccess.lean: every operation of Machine/RegAccess.lean keeps the queue and a sound state sound.
-/
namespace Sys2Proof.Machine

variable {q : List Instr}

theorem State.writeRstReq_kept {s : State} {i : Iface} {v : Word}
    (h : Kept q s)  : Kept q (State.writeRstReq s i v) := by
  unfold State.writeRstReq
  repeat' first
    | with_reducible assumption
    | with_reducible apply Kept.ite
    | with_reducible apply State.firmwareReset_kept
    | with_reducible apply State.systemReset_kept
    | with_reducible apply State.writeViolation_kept

theorem State.writePlanStat_kept {s : State} {v : Word}
    (h : Kept q s)  : Kept q (State.writePlanStat s v) := by
  unfold State.writePlanStat
  repeat' first
    | with_reducible assumption
    | with_reducible apply Kept.ite
    | with_reducible apply State.regStore_kept
    | with_reducible apply State.setBit_kept

theorem State.writeTail_kept {s : State} {i : Iface} {violation : Bool} {v : Word}
    (h : Kept q s)  : Kept q (State.writeTail s i violation v) := by
  unfold State.writeTail
  repeat' first
    | with_reducible assumption
    | with_reducible apply Kept.ite
    | with_reducible apply State.writeViolation_kept
    | with_reducible apply State.setFld_kept

theorem State.writeXctrl_kept {s : State} {v : Word}
    (h : Kept q s)  : Kept q (State.writeXctrl s v) := by
  unfold State.writeXctrl
  repeat' first
    | with_reducible assumption
    | with_reducible apply Kept.ite
    | with_reducible apply State.regStore_kept
    | with_reducible apply State.emit_kept
    | with_reducible apply State.setBit_kept
    | split
    | (refine Kept.lit ?_ rfl rfl rfl rfl rfl rfl rfl rfl rfl rfl rfl rfl; with_reducible apply State.regStore_kept)

theorem State.writePsp_kept {s : State} {i : Iface} {off : Nat} {v : Word}
    (h : Kept q s)  : Kept q (State.writePsp s i off v) := by
  unfold State.writePsp
  repeat' first
    | with_reducible assumption
    | with_reducible apply Kept.ite
    | with_reducible apply State.regStore_kept

theorem execPspTransferStart_kept {i : Iface} {v : Word} {s : State}
    (h : Kept q s)  : KeptX q (execPspTransferStart i v s) := by
  unfold execPspTransferStart
  repeat' first
    | with_reducible assumption
    | with_reducible apply KeptX.of_next
    | with_reducible apply Kept.ite
    | with_reducible apply State.writeXctrl_kept

theorem execPspTransferDone_kept {received : List Byte} {s : State}
    (h : Kept q s)  : KeptX q (execPspTransferDone received s) := by
  unfold execPspTransferDone
  repeat' first
    | with_reducible assumption
    | with_reducible apply KeptX.of_next
    | with_reducible apply State.setBit_kept
    | with_reducible apply State.setFld_kept
    | split
    | (refine Kept.lit ?_ rfl rfl rfl rfl rfl rfl rfl rfl rfl rfl rfl rfl; with_reducible refine Kept.foldl _ (fun _ _ _ => ?_) ?_)

theorem State.applyStopped_kept {s : State} {was : State}
    (h : Kept q s) (h2 : Kept q was) : Kept q (State.applyStopped s was) := by
  unfold State.applyStopped
  repeat' first
    | with_reducible assumption
    | with_reducible apply Kept.ite
    | with_reducible apply State.applyHeld_kept

theorem State.writeArray_kept {s : State} {off : Nat} {v : Word}
    (h : Kept q s)  : KeptO q (State.writeArray s off v) := by
  unfold State.writeArray
  repeat' first
    | with_reducible assumption
    | with_reducible apply KeptO.of_some
    | with_reducible apply KeptO.of_none
    | with_reducible apply State.writeGdnCtrl_kept
    | with_reducible apply State.ringCq_kept
    | with_reducible apply State.ringSq_kept
    | with_reducible apply State.writeQctrl_kept
    | with_reducible apply State.regStore_kept
    | with_reducible apply State.flushVector_kept
    | split

theorem State.writePlain_kept {s : State} {i : Iface} {off : Nat} {v : Word}
    (h : Kept q s)  : Kept q (State.writePlain s i off v) := by
  unfold State.writePlain
  repeat' first
    | with_reducible assumption
    | with_reducible apply State.applyStopped_kept
    | with_reducible apply State.commitPair_kept
    | with_reducible apply State.holdLow_kept
    | with_reducible apply State.regStore_kept
    | split

theorem State.regWrite_kept {s : State} {i : Iface} {off : Nat} {v : Word}
    (h : Kept q s)  : Kept q (State.regWrite s i off v) := by
  unfold State.regWrite
  repeat' first
    | with_reducible assumption
    | with_reducible apply Kept.ite
    | with_reducible apply State.writePlain_kept
    | with_reducible apply State.writeArray_kept
    | with_reducible apply State.writePsp_kept
    | with_reducible apply State.writeXctrl_kept
    | with_reducible apply State.writeTail_kept
    | with_reducible apply State.writePlanStat_kept
    | with_reducible apply State.writeRstReq_kept
    | with_reducible apply State.writeDbgCtrl_kept
    | with_reducible apply State.writeProvCmd_kept
    | with_reducible apply State.writeUpdCtrl_kept
    | with_reducible apply State.keepWritten_kept
    | with_reducible apply State.showCap_kept
    | with_reducible apply State.writeTickCtrl_kept
    | with_reducible apply State.startEvac_kept
    | with_reducible apply State.writeCap_kept
    | with_reducible apply State.lockViolation_kept
    | with_reducible apply State.regStore_kept
    | with_reducible refine Kept.ofSome (by with_reducible assumption) ?_
    | split

theorem execRegisterWrite_kept {i : Iface} {off : BitVec 24} {v : Word} {s : State}
    (h : Kept q s)  : KeptX q (execRegisterWrite i off v s) := by
  unfold execRegisterWrite
  repeat' first
    | with_reducible assumption
    | with_reducible apply KeptX.of_next
    | with_reducible apply Kept.ite
    | with_reducible apply State.regWrite_kept

theorem execRwtApplyWhileStopped_kept {i : Iface} {off : BitVec 24} {v : Word} {s : State}
    (h : Kept q s)  : KeptX q (execRwtApplyWhileStopped i off v s) := by
  unfold execRwtApplyWhileStopped
  repeat' first
    | with_reducible assumption
    | with_reducible apply KeptX.of_next
    | with_reducible apply Kept.ite
    | with_reducible apply State.regWrite_kept

theorem execPairLowRead_kept {i : Iface} {off : BitVec 24} {s : State}
    (h : Kept q s)  : KeptX q (execPairLowRead i off s) := by
  unfold execPairLowRead
  repeat' first
    | with_reducible assumption
    | with_reducible apply KeptX.of_next
    | with_reducible apply Kept.ite
    | with_reducible apply State.regFetch_kept
    | with_reducible apply State.emit_kept

theorem execPairLowWrite_kept {i : Iface} {off : BitVec 24} {v : Word} {s : State}
    (h : Kept q s)  : KeptX q (execPairLowWrite i off v s) := by
  unfold execPairLowWrite
  repeat' first
    | with_reducible assumption
    | with_reducible apply KeptX.of_next
    | with_reducible apply Kept.ite
    | with_reducible apply State.holdLow_kept

theorem execPairHighWrite_kept {i : Iface} {off : BitVec 24} {v : Word} {s : State}
    (h : Kept q s)  : KeptX q (execPairHighWrite i off v s) := by
  unfold execPairHighWrite
  repeat' first
    | with_reducible assumption
    | with_reducible apply KeptX.of_next
    | with_reducible apply Kept.ite
    | with_reducible apply State.applyStopped_kept
    | with_reducible apply State.commitPair_kept

theorem execLogTailWrite_kept {i : Iface} {violation : Bool} {v : Word} {s : State}
    (h : Kept q s)  : KeptX q (execLogTailWrite i violation v s) := by
  unfold execLogTailWrite
  repeat' first
    | with_reducible assumption
    | with_reducible apply KeptX.of_next
    | with_reducible apply Kept.ite
    | with_reducible apply State.writeTail_kept

theorem execPinHoldExpiry_kept {alert : Bool} {s : State}
    (h : Kept q s)  : KeptX q (execPinHoldExpiry alert s) := by
  unfold execPinHoldExpiry
  repeat' first
    | with_reducible assumption
    | with_reducible apply KeptX.of_next
    | with_reducible apply Kept.ite
    | with_reducible apply State.reach_kept
    | (extract_lets +onlyGivenNames v; refine (fun (hv : Kept q v) => ?_) ?_; clear_value v; rotate_left; subst v)
    | (refine Kept.lit ?_ rfl rfl rfl rfl rfl rfl rfl rfl rfl rfl rfl rfl; with_reducible assumption)

end Sys2Proof.Machine
end

