-- ==== Sys2Proof/Laws/KeepsSelect.lean ====
section
/-!
SUPPORT. Laws/KeepsSelect.lean: every operation of Machine/Select.lean keeps the queue and a sound state sound.
-/
namespace Sys2Proof.Machine

variable {q : List Instr}

theorem State.topk_kept {s : State} {f : TFields}
    (h : Kept q s)  : Kept q (State.topk s f) := by
  unfold State.topk
  repeat' first
    | with_reducible assumption
    | with_reducible apply Kept.iteSnd
    | with_reducible apply State.readOp_kept
    | with_reducible apply State.writeRows_kept

theorem execTopk_kept {f : TFields} {s : State}
    (h : Kept q s)  : KeptX q (execTopk f s) := by
  unfold execTopk
  repeat' first
    | with_reducible assumption
    | with_reducible apply KeptX.of_next
    | with_reducible apply State.topk_kept
    | with_reducible refine State.runWord_kept ?_ (fun _ _ => ?_)

theorem State.beam_kept {s : State} {f : TFields}
    (h : Kept q s)  : Kept q (State.beam s f) := by
  unfold State.beam
  repeat' first
    | with_reducible assumption
    | with_reducible apply Kept.ite
    | with_reducible apply State.readOp_kept
    | with_reducible apply State.writeRows_kept

theorem execBeam_kept {f : TFields} {s : State}
    (h : Kept q s)  : KeptX q (execBeam f s) := by
  unfold execBeam
  repeat' first
    | with_reducible assumption
    | with_reducible apply KeptX.of_next
    | with_reducible apply State.beam_kept
    | with_reducible refine State.runWord_kept ?_ (fun _ _ => ?_)

theorem State.pagesel_kept {s : State} {f : TFields}
    (h : Kept q s)  : Kept q (State.pagesel s f) := by
  unfold State.pagesel
  repeat' first
    | with_reducible assumption
    | with_reducible apply State.readOp_kept
    | with_reducible apply State.writeRows_kept

theorem execPagesel_kept {f : TFields} {s : State}
    (h : Kept q s)  : KeptX q (execPagesel f s) := by
  unfold execPagesel
  repeat' first
    | with_reducible assumption
    | with_reducible apply KeptX.of_next
    | with_reducible apply State.pagesel_kept
    | with_reducible refine State.runWord_kept ?_ (fun _ _ => ?_)

theorem State.sample_kept {s : State} {f : TFields}
    (h : Kept q s)  : Kept q (State.sample s f) := by
  unfold State.sample
  repeat' first
    | with_reducible assumption
    | with_reducible apply State.count_kept
    | with_reducible apply State.readOp_kept
    | with_reducible apply State.writeRows_kept

theorem execSample_kept {f : TFields} {s : State}
    (h : Kept q s)  : KeptX q (execSample f s) := by
  unfold execSample
  repeat' first
    | with_reducible assumption
    | with_reducible apply KeptX.of_next
    | with_reducible apply State.sample_kept
    | with_reducible refine State.runWord_kept ?_ (fun _ _ => ?_)

theorem State.scan_kept {s : State} {f : TFields}
    (h : Kept q s)  : Kept q (State.scan s f) := by
  unfold State.scan
  repeat' first
    | with_reducible assumption
    | with_reducible apply Kept.ite
    | with_reducible apply Kept.iteSnd
    | with_reducible apply State.count_kept
    | with_reducible apply State.readOp_kept
    | with_reducible apply State.writeRows_kept

theorem execScan_kept {f : TFields} {s : State}
    (h : Kept q s)  : KeptX q (execScan f s) := by
  unfold execScan
  repeat' first
    | with_reducible assumption
    | with_reducible apply KeptX.of_next
    | with_reducible apply State.scan_kept
    | with_reducible refine State.runWord_kept ?_ (fun _ _ => ?_)

end Sys2Proof.Machine
end

