-- ==== Sys2Proof/Laws/KeepsSerial.lean ====
section
/-!
SUPPORT. Laws/KeepsSerial.lean: every operation of Machine/Serial.lean keeps the queue and a sound state sound.
-/
namespace Sys2Proof.Machine

variable {q : List Instr}

theorem State.hspEnd_kept {s : State} {x1 : HspHead} {data : Nat}
    (h : Kept q s)  : Kept q (State.hspEnd s x1 data) := by
  unfold State.hspEnd
  repeat' first
    | with_reducible assumption
    | with_reducible apply State.hspCfg_kept
    | with_reducible apply State.setBit_kept
    | (extract_lets +onlyGivenNames v; refine (fun (hv : Kept q v) => ?_) ?_; clear_value v; rotate_left; subst v)
    | (extract_lets +onlyGivenNames v; clear_value v)
    | (refine Kept.lit ?_ rfl rfl rfl rfl rfl rfl rfl rfl rfl rfl rfl rfl; with_reducible assumption)

theorem State.hspReply_kept {s : State} {ws : List Word}
    (h : Kept q s)  : Kept q (State.hspReply s ws) := by
  unfold State.hspReply
  repeat' first
    | (extract_lets +onlyGivenNames v; clear_value v)
    | (refine Kept.lit ?_ rfl rfl rfl rfl rfl rfl rfl rfl rfl rfl rfl rfl; with_reducible assumption)

theorem State.hspReject_kept {s : State} {x1 : HspHead} {op : Nat} {cnt : Nat} {seq : Nat} {data : Nat} {status : Nat}
    (h : Kept q s)  : Kept q (State.hspReject s x1 op cnt seq data status) := by
  unfold State.hspReject
  repeat' first
    | with_reducible assumption
    | with_reducible apply State.hspReply_kept
    | with_reducible apply State.hspEnd_kept
    | with_reducible apply State.logViolation_kept
    | with_reducible apply State.addSat_kept
    | with_reducible apply State.setBit_kept

theorem State.hspDone_kept {s : State} {x1 : HspHead} {op : Nat} {cnt : Nat} {data : Nat} {status : Nat} {poison : Bool} {words : List Word}
    (h : Kept q s)  : Kept q (State.hspDone s x1 op cnt data status poison words) := by
  unfold State.hspDone
  repeat' first
    | with_reducible assumption
    | with_reducible apply State.hspEnd_kept
    | with_reducible apply State.addSat_kept
    | (extract_lets +onlyGivenNames v; refine (fun (hv : Kept q v) => ?_) ?_; clear_value v; rotate_left; subst v)
    | (extract_lets +onlyGivenNames v; clear_value v)
    | (refine Kept.lit ?_ rfl rfl rfl rfl rfl rfl rfl rfl rfl rfl rfl rfl; with_reducible assumption)

theorem State.hspFrame_kept {s : State} {x1 : HspHead} {op : Nat} {cnt : Nat} {data : Nat} {rangeOk : Bool} {f : State → State}
    (h : Kept q s)  (hf : ∀ y0, Kept q y0 → Kept q (f y0)) : Kept q (State.hspFrame s x1 op cnt data rangeOk f) := by
  unfold State.hspFrame
  repeat' first
    | with_reducible assumption
    | with_reducible apply Kept.ite
    | with_reducible apply State.hspReject_kept
    | with_reducible apply State.emit_kept
    | with_reducible apply hf

theorem execHspNop_kept {x0 : HspHead} {s : State}
    (h : Kept q s)  : KeptX q (execHspNop x0 s) := by
  unfold execHspNop
  repeat' first
    | with_reducible assumption
    | with_reducible apply KeptX.of_next
    | with_reducible refine State.hspFrame_kept ?_ (fun _ _ => ?_)
    | with_reducible apply State.hspDone_kept

theorem State.hspRegs_kept {s : State} {off : Nat} {x2 : Nat}
    (h : Kept q s)  : Kept q (State.hspRegs s off x2).2 := by
  induction x2 generalizing s off with
  | zero =>
    unfold State.hspRegs
    repeat' with_reducible assumption
  | succ n ih =>
    unfold State.hspRegs
    repeat' first
      | with_reducible assumption
      | with_reducible apply State.regFetch_kept
      | with_reducible apply ih

theorem execHspRd_kept {x0 : HspHead} {off : BitVec 24} {count : Nat} {s : State}
    (h : Kept q s)  : KeptX q (execHspRd x0 off count s) := by
  unfold execHspRd
  repeat' first
    | with_reducible assumption
    | with_reducible apply KeptX.of_next
    | with_reducible apply Kept.ite
    | with_reducible apply State.hspRegs_kept
    | with_reducible refine State.hspFrame_kept ?_ (fun _ _ => ?_)
    | with_reducible apply State.hspDone_kept

theorem State.hspWrites_kept {s : State} {off : Nat} {x2 : List Word}
    (h : Kept q s)  : Kept q (State.hspWrites s off x2).2 := by
  induction x2 generalizing s off with
  | nil =>
    unfold State.hspWrites
    repeat' with_reducible assumption
  | cons x l ih =>
    unfold State.hspWrites
    repeat' first
      | with_reducible assumption
      | with_reducible apply State.regWrite_kept
      | with_reducible apply ih

theorem execHspWr_kept {x0 : HspHead} {off : BitVec 24} {words : HspWords} {s : State}
    (h : Kept q s)  : KeptX q (execHspWr x0 off words s) := by
  unfold execHspWr
  repeat' first
    | with_reducible assumption
    | with_reducible apply KeptX.of_next
    | with_reducible apply Kept.ite
    | with_reducible apply State.hspWrites_kept
    | with_reducible refine State.hspFrame_kept ?_ (fun _ _ => ?_)
    | with_reducible apply State.hspDone_kept

theorem execHspMrd_kept {x0 : HspHead} {addr : BitVec 26} {count : Nat} {s : State}
    (h : Kept q s)  : KeptX q (execHspMrd x0 addr count s) := by
  unfold execHspMrd
  repeat' first
    | with_reducible assumption
    | with_reducible apply KeptX.of_next
    | with_reducible apply Kept.ite
    | with_reducible refine State.hspFrame_kept ?_ (fun _ _ => ?_)
    | with_reducible apply State.hspDone_kept
    | with_reducible apply State.hostLoad_kept

theorem execHspMwr_kept {x0 : HspHead} {addr : BitVec 26} {words : HspWords} {s : State}
    (h : Kept q s)  : KeptX q (execHspMwr x0 addr words s) := by
  unfold execHspMwr
  repeat' first
    | with_reducible assumption
    | with_reducible apply KeptX.of_next
    | with_reducible apply Kept.ite
    | with_reducible refine State.hspFrame_kept ?_ (fun _ _ => ?_)
    | with_reducible apply State.hspDone_kept
    | with_reducible apply State.hostStore_kept
    | with_reducible apply State.logViolation_kept

theorem execHspRepeat_kept {x0 : HspHead} {s : State}
    (h : Kept q s)  : KeptX q (execHspRepeat x0 s) := by
  unfold execHspRepeat
  repeat' first
    | with_reducible assumption
    | with_reducible apply KeptX.of_next
    | with_reducible refine State.hspFrame_kept ?_ (fun _ _ => ?_)
    | with_reducible apply State.hspReply_kept
    | with_reducible apply State.hspEnd_kept
    | (extract_lets +onlyGivenNames v; refine (fun (hv : Kept q v) => ?_) ?_; clear_value v; rotate_left; subst v)
    | split

theorem execHspRejectedFrame_kept {x0 : HspHead} {extra : Nat} {words : HspWords} {s : State}
    (h : Kept q s)  : KeptX q (execHspRejectedFrame x0 extra words s) := by
  unfold execHspRejectedFrame
  repeat' first
    | with_reducible assumption
    | with_reducible apply KeptX.of_next
    | with_reducible apply Kept.ite
    | with_reducible apply State.hspReject_kept
    | with_reducible apply State.emit_kept
    | with_reducible apply State.draw_kept
    | (extract_lets +onlyGivenNames v; clear_value v)
    | dsimp -zeta only
    | split

theorem execHspCfgApply_kept {s : State}
    (h : Kept q s)  : KeptX q (execHspCfgApply s) := by
  unfold execHspCfgApply
  repeat' first
    | with_reducible assumption
    | with_reducible apply KeptX.of_next
    | with_reducible apply Kept.ite
    | with_reducible apply State.hspCfg_kept

end Sys2Proof.Machine
end

