-- ==== Sys2Proof/Laws/KeepsVector.lean ====
section
/-!
SUPPORT. Laws/KeepsVector.lean: every operation of Machine/Vector.lean keeps the queue and a sound state sound.
-/
namespace Sys2Proof.Machine

variable {q : List Instr}

theorem State.putVector_kept {s : State} {n : Nat} {dD : TDesc} {loops : List LoopFrame} {e : Int} {raw : List (List Int)}
    (h : Kept q s)  : Kept q (State.putVector s n dD loops e raw) := by
  unfold State.putVector
  repeat' first
    | with_reducible assumption
    | with_reducible apply State.count_kept
    | with_reducible apply State.writeRows_kept

theorem State.vadd_kept {s : State} {n : Nat} {f : TFields}
    (h : Kept q s)  : Kept q (State.vadd s n f) := by
  unfold State.vadd
  repeat' first
    | with_reducible assumption
    | with_reducible apply State.putVector_kept
    | with_reducible apply State.readOp_kept

theorem State.vmul_kept {s : State} {n : Nat} {f : TFields}
    (h : Kept q s)  : Kept q (State.vmul s n f) := by
  unfold State.vmul
  repeat' first
    | with_reducible assumption
    | with_reducible apply State.putVector_kept
    | with_reducible apply State.readOp_kept

theorem State.vlut_kept {s : State} {n : Nat} {f : TFields}
    (h : Kept q s)  : Kept q (State.vlut s n f) := by
  unfold State.vlut
  repeat' first
    | with_reducible assumption
    | with_reducible apply State.readOp_kept
    | with_reducible apply State.writeRows_kept

theorem State.vnorm_kept {s : State} {n : Nat} {f : TFields}
    (h : Kept q s)  : Kept q (State.vnorm s n f) := by
  unfold State.vnorm
  repeat' first
    | with_reducible assumption
    | with_reducible apply State.putVector_kept
    | with_reducible apply State.readOp_kept

theorem State.vmask_kept {s : State} {n : Nat} {f : TFields}
    (h : Kept q s)  : Kept q (State.vmask s n f) := by
  unfold State.vmask
  repeat' first
    | with_reducible assumption
    | with_reducible apply Kept.iteSnd
    | with_reducible apply State.putVector_kept
    | with_reducible apply State.readOp_kept

theorem execVadd_kept {n : Fin 16} {f : TFields} {s : State}
    (h : Kept q s)  : KeptX q (execVadd n f s) := by
  unfold execVadd
  repeat' first
    | with_reducible assumption
    | with_reducible apply KeptX.of_next
    | with_reducible apply State.vadd_kept
    | with_reducible refine State.runWord_kept ?_ (fun _ _ => ?_)

theorem execVmul_kept {n : Fin 16} {f : TFields} {s : State}
    (h : Kept q s)  : KeptX q (execVmul n f s) := by
  unfold execVmul
  repeat' first
    | with_reducible assumption
    | with_reducible apply KeptX.of_next
    | with_reducible apply State.vmul_kept
    | with_reducible refine State.runWord_kept ?_ (fun _ _ => ?_)

theorem execVlut_kept {n : Fin 16} {f : TFields} {s : State}
    (h : Kept q s)  : KeptX q (execVlut n f s) := by
  unfold execVlut
  repeat' first
    | with_reducible assumption
    | with_reducible apply KeptX.of_next
    | with_reducible apply State.vlut_kept
    | with_reducible refine State.runWord_kept ?_ (fun _ _ => ?_)

theorem execVnorm_kept {n : Fin 16} {f : TFields} {s : State}
    (h : Kept q s)  : KeptX q (execVnorm n f s) := by
  unfold execVnorm
  repeat' first
    | with_reducible assumption
    | with_reducible apply KeptX.of_next
    | with_reducible apply State.vnorm_kept
    | with_reducible refine State.runWord_kept ?_ (fun _ _ => ?_)

theorem execVmask_kept {n : Fin 16} {f : TFields} {s : State}
    (h : Kept q s)  : KeptX q (execVmask n f s) := by
  unfold execVmask
  repeat' first
    | with_reducible assumption
    | with_reducible apply KeptX.of_next
    | with_reducible apply State.vmask_kept
    | with_reducible refine State.runWord_kept ?_ (fun _ _ => ?_)

end Sys2Proof.Machine
end

