-- ==== Sys2Proof/Laws/KeepsDispatch.lean ====
section
/-!
SUPPORT. Laws/KeepsDispatch.lean: every operation of Machine/Dispatch.lean keeps the queue and a sound state sound.
-/
namespace Sys2Proof.Machine

variable {q : List Instr}

theorem exec_kept {i : Instr} {s : State}
    (h : Kept q s)  : KeptX q (exec i s) := by
  unfold exec
  repeat' first
    | with_reducible assumption
    | with_reducible apply execVmask_kept
    | with_reducible apply execVnorm_kept
    | with_reducible apply execVlut_kept
    | with_reducible apply execVmul_kept
    | with_reducible apply execVadd_kept
    | with_reducible apply execHspCfgApply_kept
    | with_reducible apply execHspRejectedFrame_kept
    | with_reducible apply execHspRepeat_kept
    | with_reducible apply execHspMwr_kept
    | with_reducible apply execHspMrd_kept
    | with_reducible apply execHspWr_kept
    | with_reducible apply execHspRd_kept
    | with_reducible apply execHspNop_kept
    | with_reducible apply execScan_kept
    | with_reducible apply execSample_kept
    | with_reducible apply execPagesel_kept
    | with_reducible apply execBeam_kept
    | with_reducible apply execTopk_kept
    | with_reducible apply execDebug_kept
    | with_reducible apply execBypass_kept
    | with_reducible apply execClamp_kept
    | with_reducible apply execHighz_kept
    | with_reducible apply execExtest_kept
    | with_reducible apply execSamplePreload_kept
    | with_reducible apply execIdcode_kept
    | with_reducible apply execTapReset_kept
    | with_reducible apply execRefreshRateChange_kept
    | with_reducible apply execPcieLinkUp_kept
    | with_reducible apply execPerstAssert_kept
    | with_reducible apply execHostSideReset_kept
    | with_reducible apply execBar2Write_kept
    | with_reducible apply execBar2Read_kept
    | with_reducible apply execBar0BadAccess_kept
    | with_reducible apply execPinHoldExpiry_kept
    | with_reducible apply execLogTailWrite_kept
    | with_reducible apply execPairHighWrite_kept
    | with_reducible apply execPairLowWrite_kept
    | with_reducible apply execPairLowRead_kept
    | with_reducible apply execRwtApplyWhileStopped_kept
    | with_reducible apply execRegisterWrite_kept
    | with_reducible apply execPspTransferDone_kept
    | with_reducible apply execPspTransferStart_kept
    | with_reducible apply execDebugLock_kept
    | with_reducible apply execSecProvision_kept
    | with_reducible apply execCoreReturn_kept
    | with_reducible apply execFlashBusyTimeout_kept
    | with_reducible apply execNvcUpdateDone_kept
    | with_reducible apply execNvcHostBoot_kept
    | with_reducible apply execNvcUpdateFactory_kept
    | with_reducible apply execNvcUpdateUser_kept
    | with_reducible apply execReady_kept
    | with_reducible apply execShareTimeout_kept
    | with_reducible apply execShare_kept
    | with_reducible apply execReport_kept
    | with_reducible apply execStookSharePeriod_kept
    | with_reducible apply execCapWrite_kept
    | with_reducible apply execVoltageSelection_kept
    | with_reducible apply execCalibrationFit_kept
    | with_reducible apply execPowerShareInterval_kept
    | with_reducible apply execPmbAlert_kept
    | with_reducible apply execPmbusPeriod_kept
    | with_reducible apply execThermalDerateStep_kept
    | with_reducible apply execSensorRead_kept
    | with_reducible apply execPresenceProbe_kept
    | with_reducible apply execKeepSample_kept
    | with_reducible apply execAonStart_kept
    | with_reducible apply execRetentionSentinelSet_kept
    | with_reducible apply execAonToKeep_kept
    | with_reducible apply execFirmwareReset_kept
    | with_reducible apply execCc3ReleaseOverrun_kept
    | with_reducible apply execControlCoreRestart_kept
    | with_reducible apply execResetNAssert_kept
    | with_reducible apply execSystemReset_kept
    | with_reducible apply execReleaseStep_kept
    | with_reducible apply execPowerupStart_kept
    | with_reducible apply execOnReqChange_kept
    | with_reducible apply execSupplyLoss_kept
    | with_reducible apply execPowerdownOff_kept
    | with_reducible apply execPeerLossTimeout_kept
    | with_reducible apply execMarkerError_kept
    | with_reducible apply execLaneLockLoss_kept
    | with_reducible apply execTrainingLimit_kept
    | with_reducible apply execParamReceive_kept
    | with_reducible apply execDeskewDone_kept
    | with_reducible apply execBlockLockAcquired_kept
    | with_reducible apply execGdnRetrain_kept
    | with_reducible apply execGdnEnable_kept
    | with_reducible apply execAckTimeout_kept
    | with_reducible apply execFlitReceive_kept
    | with_reducible apply execLocate_kept
    | with_reducible apply execResult_kept
    | with_reducible apply execReqdone_kept
    | with_reducible apply execReqfwd_kept
    | with_reducible apply execQuery_kept
    | with_reducible apply execEject_kept
    | with_reducible apply execLeave_kept
    | with_reducible apply execMemberEject_kept
    | with_reducible apply execRejoin_kept
    | with_reducible apply execClassmsg_kept
    | with_reducible apply execWorkend_kept
    | with_reducible apply execAnswerTimeout_kept
    | with_reducible apply execAnswer_kept
    | with_reducible apply execAsk_kept
    | with_reducible apply execGydanRefuse_kept
    | with_reducible apply execGydanCommit_kept
    | with_reducible apply execGydanPull_kept
    | with_reducible apply execGydanDiscard_kept
    | with_reducible apply execGydanReleased_kept
    | with_reducible apply execGydanSeal_kept
    | with_reducible apply execGydanWrite_kept
    | with_reducible apply execFattn_kept
    | with_reducible apply execSprob_kept
    | with_reducible apply execSumsc_kept
    | with_reducible apply execSattn_kept
    | with_reducible apply execTickEdge_kept
    | with_reducible apply execArmingStep_kept
    | with_reducible apply execFallowOpening_kept
    | with_reducible apply execSyncPulseTimeout_kept
    | with_reducible apply execTickSyncPulse_kept
    | with_reducible apply execWorkendTimeout_kept
    | with_reducible apply execHoldover_kept
    | with_reducible apply execLockAcquired_kept
    | with_reducible apply execPortFrameSync_kept
    | with_reducible apply execTickRunStop_kept
    | with_reducible apply execTickRunStart_kept
    | with_reducible apply execMoveSourceError_kept
    | with_reducible apply execMoveCommit_kept
    | with_reducible apply execGlnEvacGo_kept
    | with_reducible apply execKvapp_kept
    | with_reducible apply execReq_kept
    | with_reducible apply execHrot_kept
    | with_reducible apply execOverlay_kept
    | with_reducible apply execAudioUnbind_kept
    | with_reducible apply execAudioBind_kept
    | with_reducible apply execMigrate_kept
    | with_reducible apply execStateExport_kept
    | with_reducible apply execStreamAbort_kept
    | with_reducible apply execStreamResume_kept
    | with_reducible apply execStreamPause_kept
    | with_reducible apply execStreamClose_kept
    | with_reducible apply execStreamOpen_kept
    | with_reducible apply execAbort_kept
    | with_reducible apply execNop_kept
    | with_reducible apply execGate_kept
    | with_reducible apply execAccout_kept
    | with_reducible apply execMmul_kept
    | with_reducible apply execPlanDiscard_kept
    | with_reducible apply execPlanActivate_kept
    | with_reducible apply execPlanLoad_kept
    | with_reducible apply execResultPost_kept
    | with_reducible apply execQmodTimeout_kept
    | with_reducible apply execHeldResultFlush_kept
    | with_reducible apply execCompletionPost_kept
    | with_reducible apply execRequestFetch_kept
    | with_reducible apply execCqDoorbell_kept
    | with_reducible apply execSqDoorbell_kept
    | with_reducible apply execQueueReset_kept
    | with_reducible apply execQueueEnable_kept
    | with_reducible apply execCamNoFrame_kept
    | with_reducible apply execCamFrameEnd_kept
    | with_reducible apply execCamLongPacket_kept
    | with_reducible apply execCamFrameStart_kept
    | with_reducible apply execFixjob_kept
    | with_reducible apply execAudioNoclk_kept
    | with_reducible apply execRateWindow_kept
    | with_reducible apply execNonaudioHoldExpiry_kept
    | with_reducible apply execAudioFrame_kept
    | with_reducible apply execMove_kept
    | with_reducible apply execSliceBudgetExhausted_kept
    | with_reducible apply execWaitSatisfied_kept
    | with_reducible apply execWait_kept
    | with_reducible apply execPost_kept
    | with_reducible apply execIdle_kept
    | with_reducible apply execLoop_kept
    | with_reducible apply execEnd_kept
    | split

end Sys2Proof.Machine
end

