-- ==== Sys2Proof/Laws/RegWrite.lean ====
section
/-!
SUPPORT. Laws/RegWrite.lean: a register write by the access types of its fields (R18 to R24): what each field holds after it.
-/
namespace Sys2Proof.Machine

/-! ### The fields of a register lie apart -/

/-- Fields within 32 bits, no two of which meet. -/
def fieldsApart : List RegField → Bool
  | [] => true
  | f :: fs => decide (f.lo + f.width ≤ 32) && (fs.all fun g => decide (g.lo + g.width ≤ f.lo) || decide (f.lo + f.width ≤ g.lo)) && fieldsApart fs

theorem regBlocks_apart : (regBlocks.all fun b => b.2.2.all fun d => fieldsApart d.fields) = true := by decide +kernel

theorem findIn_mem {off : Nat} {l : List RegDesc} {d : RegDesc} {k : Nat} (h : findIn off l = some (d, k)) : d ∈ l := by
  induction l with
  | nil => cases h
  | cons e l ih =>
    unfold findIn at h
    split at h
    · split at h
      · cases h; exact List.mem_cons_self
      · exact List.mem_cons_of_mem _ (ih h)
    · split at h
      · cases h; exact List.mem_cons_self
      · exact List.mem_cons_of_mem _ (ih h)

theorem findReg_apart {off : Nat} {d : RegDesc} {k : Nat} (h : findReg off = some (d, k)) : fieldsApart d.fields = true := by
  unfold findReg at h
  split at h
  · next b hb =>
    have := List.all_eq_true.1 regBlocks_apart b (List.mem_of_find?_eq_some hb)
    exact List.all_eq_true.1 this d (findIn_mem h)
  · cases h

/-! ### One field -/

theorem fieldWrite_self (f : RegField) (l : Bool) (v cur : Word) (h : f.lo + f.width ≤ 32) :
    wordField (fieldWrite f l v cur) f.lo f.width = fieldAfter f l (wordField v f.lo f.width) (wordField cur f.lo f.width) := by
  have hx : wordField v f.lo f.width % 2 ^ f.width = wordField v f.lo f.width := Nat.mod_eq_of_lt (wordField_lt _ _ _)
  unfold fieldWrite fieldAfter
  cases f.access <;> dsimp only
  case rw => split <;> first | rw [wordField_wordSetField _ _ _ _ h, hx] | rfl
  case rwl => split <;> first | rw [wordField_wordSetField _ _ _ _ h, hx] | rfl
  case w1c =>
    apply Nat.eq_of_testBit_eq; intro j
    rw [wordField_testBit, Nat.testBit_xor, Nat.testBit_and, wordField_testBit, wordField_testBit, BitVec.getLsbD_and, BitVec.getLsbD_not,
      BitVec.getLsbD_and, fieldMask_getLsbD]
    have e : f.lo + j - f.lo = j := by omega
    by_cases hj : j < f.width
    · have h4 : f.lo + j < 32 := by omega
      simp only [hj, h4, e, Nat.le_add_right, decide_true, Bool.true_and, Bool.and_true]
      cases cur.getLsbD (f.lo + j) <;> cases v.getLsbD (f.lo + j) <;> rfl
    · simp only [hj, decide_false, Bool.false_and]; rfl
  case w1s =>
    apply Nat.eq_of_testBit_eq; intro j
    rw [wordField_testBit, Nat.testBit_or, wordField_testBit, wordField_testBit, BitVec.getLsbD_or, BitVec.getLsbD_and, fieldMask_getLsbD]
    have e : f.lo + j - f.lo = j := by omega
    by_cases hj : j < f.width
    · have h4 : f.lo + j < 32 := by omega
      simp only [hj, h4, e, Nat.le_add_right, decide_true, Bool.true_and, Bool.and_true]
    · simp only [hj, decide_false, Bool.false_and]; rfl

theorem fieldWrite_apart (f : RegField) (l : Bool) (v cur : Word) (lo w : Nat) (h : lo + w ≤ f.lo ∨ f.lo + f.width ≤ lo) :
    wordField (fieldWrite f l v cur) lo w = wordField cur lo w := by
  have out : ∀ j, j < w → (decide (f.lo ≤ lo + j) && decide (lo + j - f.lo < f.width)) = false := by
    intro j hj
    simp only [Bool.and_eq_false_iff, decide_eq_false_iff_not]; omega
  unfold fieldWrite
  cases f.access <;> dsimp only
  case rw => split <;> first | exact wordField_wordSetField_apart _ _ _ _ _ _ h | rfl
  case rwl => split <;> first | exact wordField_wordSetField_apart _ _ _ _ _ _ h | rfl
  all_goals
    apply Nat.eq_of_testBit_eq; intro j
    by_cases hj : j < w
    · simp only [wordField_testBit, BitVec.getLsbD_and, BitVec.getLsbD_or, BitVec.getLsbD_not, fieldMask_getLsbD, out j hj, Bool.and_false, Bool.not_false, Bool.or_false]
      all_goals
        by_cases h4 : lo + j < 32
        · simp [h4]
        · simp [h4, BitVec.getLsbD_of_ge cur (lo + j) (by omega)]
    · simp only [wordField_testBit, hj, decide_false, Bool.false_and]

/-! ### One register -/

theorem writeFold_apart (l : Bool) (v : Word) (fs : List RegField) (cur : Word) (lo w : Nat)
    (h : (fs.all fun g => decide (lo + w ≤ g.lo) || decide (g.lo + g.width ≤ lo)) = true) :
    wordField (fs.foldl (fun c f => fieldWrite f l v c) cur) lo w = wordField cur lo w := by
  induction fs generalizing cur with
  | nil => rfl
  | cons f fs ih =>
    simp only [List.all_cons, Bool.and_eq_true, Bool.or_eq_true, decide_eq_true_eq] at h
    rw [List.foldl_cons, ih _ (by simpa using h.2), fieldWrite_apart _ _ _ _ _ _ h.1]

theorem writeFold_field (l : Bool) (v : Word) (fs : List RegField) (cur : Word) (h : fieldsApart fs = true) (f : RegField) (hf : f ∈ fs) :
    wordField (fs.foldl (fun c f => fieldWrite f l v c) cur) f.lo f.width =
      fieldAfter f l (wordField v f.lo f.width) (wordField cur f.lo f.width) := by
  induction fs generalizing cur with
  | nil => cases hf
  | cons g fs ih =>
    simp only [fieldsApart, Bool.and_eq_true, decide_eq_true_eq] at h
    rw [List.foldl_cons]
    by_cases e : f = g
    · subst e
      rw [writeFold_apart, fieldWrite_self _ _ _ _ h.1.1]
      have := h.1.2
      simp only [List.all_eq_true, Bool.or_eq_true, decide_eq_true_eq] at this ⊢
      intro x hx; have := this x hx; omega
    · have m : f ∈ fs := by simpa [e] using hf
      have a := List.all_eq_true.1 h.1.2 f m
      simp only [Bool.or_eq_true, decide_eq_true_eq] at a
      rw [ih _ h.2 m, fieldWrite_apart _ _ _ _ _ _ (by omega)]

/-- Each field holds after a write what its access type says. -/
theorem writeFields_field (d : RegDesc) (v cur : Word) (h : fieldsApart d.fields = true) (f : RegField) (hf : f ∈ d.fields) :
    wordField (writeFields d v cur) f.lo f.width =
      fieldAfter f (regLocked d cur) (wordField v f.lo f.width) (wordField cur f.lo f.width) := writeFold_field _ _ _ _ h f hf

/-- Bits outside every field stay. -/
theorem writeFields_apart (d : RegDesc) (v cur : Word) (lo w : Nat)
    (h : (d.fields.all fun g => decide (lo + w ≤ g.lo) || decide (g.lo + g.width ≤ lo)) = true) :
    wordField (writeFields d v cur) lo w = wordField cur lo w := writeFold_apart _ _ _ _ _ _ h

/-! ### Only the fields of a written word count -/

theorem and_fieldMask_congr {v v' : Word} {lo w : Nat} (h : wordField v' lo w = wordField v lo w) :
    v' &&& fieldMask lo w = v &&& fieldMask lo w := by
  apply BitVec.eq_of_getLsbD_eq
  intro j hj
  rw [BitVec.getLsbD_and, BitVec.getLsbD_and, fieldMask_getLsbD]
  by_cases k : lo ≤ j ∧ j - lo < w
  · have a := congrArg (fun n => Nat.testBit n (j - lo)) h
    simp only [wordField_testBit, k.2, decide_true, Bool.true_and] at a
    rw [show lo + (j - lo) = j by omega] at a
    rw [a]
  · have : (decide (lo ≤ j) && decide (j - lo < w)) = false := by
      simp only [Bool.and_eq_false_iff, decide_eq_false_iff_not]; omega
    rw [this]; simp

theorem fieldWrite_congr {v v' : Word} (f : RegField) (l : Bool) (cur : Word) (h : wordField v' f.lo f.width = wordField v f.lo f.width) :
    fieldWrite f l v' cur = fieldWrite f l v cur := by
  unfold fieldWrite; rw [h, and_fieldMask_congr h]

theorem writeFields_congr {v v' : Word} (d : RegDesc) (cur : Word) (h : ∀ f ∈ d.fields, wordField v' f.lo f.width = wordField v f.lo f.width) :
    writeFields d v' cur = writeFields d v cur := by
  unfold writeFields
  generalize regLocked d cur = l
  revert h
  generalize d.fields = fs
  induction fs generalizing cur with
  | nil => intro _; rfl
  | cons f fs ih =>
    intro h
    rw [List.foldl_cons, List.foldl_cons, fieldWrite_congr _ _ _ (h f List.mem_cons_self)]
    exact ih _ fun g hg => h g (List.mem_cons_of_mem _ hg)

theorem rwtMask_congr {v v' : Word} (d : RegDesc) (h : ∀ f ∈ d.fields, wordField v' f.lo f.width = wordField v f.lo f.width) :
    rwtMask d v' = rwtMask d v := by
  unfold rwtMask
  generalize (0 : Word) = m
  revert h
  generalize d.fields = fs
  induction fs generalizing m with
  | nil => intro _; rfl
  | cons f fs ih =>
    intro h
    rw [List.foldl_cons, List.foldl_cons, h f List.mem_cons_self]
    exact ih _ fun g hg => h g (List.mem_cons_of_mem _ hg)

theorem breaksLock_congr {v v' : Word} (d : RegDesc) (cur : Word)
    (h : ∀ f ∈ d.fields, wordField v' f.lo f.width = wordField v f.lo f.width) : breaksLock d v' cur = breaksLock d v cur := by
  unfold breaksLock
  congr 1
  generalize d.fields = fs at h ⊢
  induction fs with
  | nil => rfl
  | cons f fs ih =>
    rw [List.any_cons, List.any_cons, h f List.mem_cons_self, ih fun g hg => h g (List.mem_cons_of_mem _ hg)]

@[simp] theorem State.holdRwt_reg (s : State) (off : Nat) (m v : Word) (a : Nat) : (s.holdRwt off m v).reg a = s.reg a := by
  unfold State.holdRwt; split <;> rfl

/-- Where a write goes that finds its register. -/
theorem State.regStore_some (s : State) {off : Nat} {d : RegDesc} {k : Nat} (v : Word) (h : findReg off = some (d, k)) :
    s.regStore off v = (s.setReg off (writeFields d v (s.reg off))).holdRwt off (rwtMask d v) v := by
  unfold State.regStore; rw [h]

theorem State.regStore_none (s : State) {off : Nat} (v : Word) (h : findReg off = none) : s.regStore off v = s := by
  unfold State.regStore; rw [h]

theorem State.reg_regStore (s : State) {off : Nat} {d : RegDesc} {k : Nat} (v : Word) (h : findReg off = some (d, k)) (a : Nat) :
    (s.regStore off v).reg a = if a = off then writeFields d v (s.reg off) else s.reg a := by
  rw [s.regStore_some v h, State.holdRwt_reg, State.reg_setReg]

/-- A field of the register written. -/
theorem State.fld_regStore (s : State) {off : Nat} {d : RegDesc} {k : Nat} (v : Word) (h : findReg off = some (d, k)) (f : RegField)
    (hf : f ∈ d.fields) : (s.regStore off v).fld off f.lo f.width =
      fieldAfter f (regLocked d (s.reg off)) (wordField v f.lo f.width) (s.fld off f.lo f.width) := by
  unfold State.fld
  rw [s.reg_regStore v h, if_pos rfl, writeFields_field _ _ _ (findReg_apart h) _ hf]

/-- A write takes effect in the register it names alone, and RWT fields are held. -/
theorem State.regStore_eq (s : State) {off : Nat} {d : RegDesc} {k : Nat} (v : Word) (h : findReg off = some (d, k)) :
    s.regStore off v = { s with
      regs := (s.regStore off v).regs
      rwtHeld := s.rwtHeld ++ if rwtMask d v = 0 then [] else [(off, rwtMask d v, v &&& rwtMask d v)] } := by
  rw [s.regStore_some v h]
  unfold State.holdRwt
  split <;> simp [State.setReg]


/-! ### The write of a plain register -/

theorem slotOf_none_of {off b c st : Nat} (h : (slotOf off b c st).isSome = false) : slotOf off b c st = none := by
  cases e : slotOf off b c st <;> simp_all

/-- A register without a behaviour of its own is written by its access types. -/
theorem State.regWrite_plain (s : State) (i : Iface) {off : Nat} (v : Word) (h : ownBehaviour off = false) :
    s.regWrite i off v = (s.lockViolation i off v).writePlain i off v := by
  simp only [ownBehaviour, Bool.or_eq_false_iff, List.contains_eq_mem, decide_eq_false_iff_not, List.mem_cons, not_or] at h
  obtain ⟨⟨⟨⟨⟨⟨⟨h1,h2,h3,h4,h5,h6,h7,h8,h9,h10,h11,_⟩,hp⟩,a⟩,b⟩,c⟩,d⟩,e⟩ := h
  have hx : off ≠ Reg.PSP_XCTRL := by
    intro k; subst k; revert hp; decide
  unfold State.regWrite State.writeArray
  simp only [h1,h2,h3,h4,h5,h6,h7,h8,h9,h10,h11,hp,hx,if_false,slotOf_none_of a,slotOf_none_of b,slotOf_none_of c,slotOf_none_of d,slotOf_none_of e]
  rfl

/-- No write reaches RUNNING. -/
theorem State.running_regStore (s : State) {off : Nat} {d : RegDesc} {k : Nat} (v : Word) (h : findReg off = some (d, k)) :
    (s.regStore off v).bit Reg.TICK_STAT 0 = s.bit Reg.TICK_STAT 0 := by
  by_cases e : off = Reg.TICK_STAT
  · subst e
    have hf : (⟨"RUNNING", 0, 1, .ro, .any⟩ : RegField) ∈ d.fields := by
      have : findReg Reg.TICK_STAT = some (regsTick[6], 0) := by decide +kernel
      rw [this] at h; cases h; decide
    have := s.fld_regStore v h _ hf
    unfold State.bit; rw [this]; rfl
  · unfold State.bit State.fld; rw [s.reg_regStore v h, if_neg (Ne.symm e)]

theorem State.rwtHeld_regStore (s : State) {off : Nat} {d : RegDesc} {k : Nat} (v : Word) (h : findReg off = some (d, k)) (hm : rwtMask d v = 0) :
    (s.regStore off v).rwtHeld = s.rwtHeld := by
  rw [s.regStore_some v h, hm]; rfl

theorem State.writePlain_single (s : State) (i : Iface) {off : Nat} {d : RegDesc} {k : Nat} (v : Word) (h : findReg off = some (d, k))
    (hp : pairRole off = .single) (hr : s.bit Reg.TICK_STAT 0 = true ∨ rwtMask d v = 0) :
    s.writePlain i off v = s.regStore off v := by
  unfold State.writePlain State.applyStopped
  rw [hp]
  dsimp only
  rcases hr with hr | hr
  · rw [State.running_regStore s v h, hr]; simp
  · rw [State.rwtHeld_regStore s v h hr]; simp

end Sys2Proof.Machine
end

