-- ==== Sys2Proof/Tests/Slice0.lean ====
section
/-!
SUPPORT. Tests/Slice0.lean: ill-formed commands that `Instr.wf` refuses, words and values worked out by hand from the manual, and for each
obligation with hypotheses a state and operands that meet them, clause by clause, with what the command then leaves.
-/
namespace Sys2Proof.Tests
open Sys2Proof.Machine

set_option Elab.async false

/-! ### States -/

/-- The engine in ON, with READY; of the registers only the tick's parameters hold their reset values, for the sake of short checks. -/
def up : State :=
  { State.reset with
    regs := [(Reg.GLOBAL_PWRSTAT, 1), (Reg.TICK_PERIOD, 20), (Reg.TICK_FALLOW, 15), (Reg.TICK_SLIP, 20), (Reg.TICK_LOCKTOL, 500)]
    aon := { State.reset.aon with phase := .on } }

/-- What a command leaves, where it answers a next state. -/
def after (c : Instr) (s : State) (p : State → Bool) : Bool :=
  match exec c s with
  | .next t => p t
  | .fault _ => false
  | .refused _ => false

/-- A plan of which engine `e` holds some words, with some descriptors. -/
def planOf (e : Nat) (ws : List DWord) (descs : List Slot) : Plan :=
  { hdr := ⟨7, 10, 80, 5, 4, 1000, 9, 1000, 0x1FFFFFFFF, 0, 0, 0, 0, 0⟩, streams := [(e, ws)], descs := descs,
    variants := [⟨e, 0, false, 4, 0, ws.length, 1000⟩], knotStart := List.replicate 64 0, posts := [], stages := [], contracts := [] }

/-- A tick in progress in which engine `e` stands at the first of some words, with a budget. -/
def atWord (e : Nat) (ws : List DWord) (descs : List Slot) (budget : Nat) : State :=
  { up with
    tick := { idleTick with phase := .slice }
    active := some (planOf e ws descs)
    rows := [(0, 3)]
    engs := up.engs.set e { idleEng with running := true, stop := ws.length, remain := budget } }

/-- A tensor descriptor (Table 4-10): base, format, shift, columns, rows, stride; OWN 0. -/
def desc (base fmt shift cols rows stride : Nat) : Slot :=
  BitVec.ofNat 128 (base + fmt * 2 ^ 44 + shift % 64 * 2 ^ 48 + (cols - 1) * 2 ^ 64 + (rows - 1) * 2 ^ 80 + stride * 2 ^ 96)

/-- An open stream. -/
def st0 : Stream :=
  { state := .opened, best := false, prio := 0, chunk := 1, phase := none, psz := 64, rqueue := 0, inBind := none, outBind := none, origin := 0,
    firstAdm := 0, rseq := 5, seed := 0, energy := 0, gated := false, uparam := [], home := 0, paged := [], flats := [], record := none,
    reserved := none, row := none, fresh := false, rested := true, hole := none, lastToken := 0, lastRest := 0, held := [], folded := none,
    ending := none, swapping := false, runsOn := none, homeChip := none, homeSc := 0, pausing := false, mutedTo := 0 }

/-- A request of a kind with a tag, in a state. -/
def rq (kind tag stream : Nat) (state : ReqState) : Req := ⟨kind, 0, tag, stream, 0, 0, [], 0, false, state⟩

/-- Queue `q` is enabled, with room for results and with some requests. -/
def withQueue (s : State) (q : Nat) (reqs : List Req) : State :=
  { s with queues := s.queues.set q { idleQueue with reqs := reqs } }

/-- Port `k` is ACTIVE, and the peer it leads to a live member. -/
def linked (s : State) (k : Nat) : State := s.setLink k 4

/-! ### Well-formed commands -/

theorem test_wf_fixjob : (Instr.fixjob 29 0).wf = false ∧ (Instr.fixjob 30 0).wf = true := by decide
theorem test_wf_register_offset : (Instr.registerWrite .pcie 0x10002 0).wf = false ∧ (Instr.registerWrite .pcie 0x10004 0).wf = true := by decide
theorem test_wf_rwt_offset : (Instr.rwtApplyWhileStopped .pcie 0x10009 0).wf = false := by decide
theorem test_wf_pair_offsets : (Instr.pairLowRead .hsp 1).wf = false ∧ (Instr.pairLowWrite .hsp 2 0).wf = false ∧ (Instr.pairHighWrite .hsp 3 0).wf = false := by
  decide
theorem test_wf_bar0 : (Instr.bar0BadAccess true 0 0).wf = false ∧ (Instr.bar0BadAccess true 0 1025).wf = false := by decide
theorem test_wf_bar2 : (Instr.bar2Read 0x3FFFFFF 2).wf = false ∧ (Instr.bar2Read 0 0).wf = false ∧ (Instr.bar2Write 0x3FFFFFF [1, 2]).wf = false ∧
    (Instr.bar2Write 0x3FFFFFF [1]).wf = true := by decide
theorem test_wf_placed : (Instr.sqDoorbell .pcie 0 0 [⟨2 ^ 64 - 1, [1, 2]⟩]).wf = false ∧ (Instr.ready [⟨2 ^ 64, [1]⟩]).wf = false ∧
    (Instr.nvcUpdateUser .pcie 0 [⟨2 ^ 64, [1]⟩] .ok).wf = false ∧ (Instr.nvcUpdateFactory .pcie 0 [⟨2 ^ 64, [1]⟩] .ok).wf = false ∧
    (Instr.nvcHostBoot .pcie 0 [⟨2 ^ 64, [1]⟩] .ok).wf = false := by decide
theorem test_wf_gydan_write : (Instr.gydanWrite 0 0 0 0 [1, 2]).wf = false ∧ (Instr.gydanWrite 0 0 0 0 []).wf = false ∧
    (Instr.gydanWrite 0 0 0 0 (List.replicate 64 0)).wf = true := by decide +kernel
theorem test_wf_gydan_pull : (Instr.gydanPull 0 0 0 1 0 1).wf = false ∧ (Instr.gydanPull 0 0 0 0 (2 ^ 36) 1).wf = false ∧
    (Instr.gydanPull 0 0 0 0 0 0).wf = false := by decide
theorem test_wf_ask : (Instr.ask 0 ⟨0, 2 ^ 32, 0, 1, 64, 0⟩).wf = false ∧ (Instr.ask 0 ⟨0, 1, 0, 1, 65, 0⟩).wf = false := by decide
theorem test_wf_answer : (Instr.answer 0 0 (.grant 1)).wf = false ∧ (Instr.answer 0 0 (.refuse 256)).wf = false ∧ (Instr.answer 0 0 (.grant 64)).wf = true := by
  decide
theorem test_wf_figures : (Instr.report 0 (2 ^ 32) 0 0).wf = false ∧ (Instr.share 0 0 (2 ^ 32)).wf = false ∧ (Instr.workend 0 (2 ^ 32) 0).wf = false ∧
    (Instr.classmsg 0 0 2 0 0).wf = false ∧ (Instr.classmsg 0 0 0 0 16).wf = false := by decide
theorem test_wf_records : (Instr.reqfwd 0 []).wf = false ∧ (Instr.reqdone 0 (List.replicate 64 0)).wf = false ∧ (Instr.result 0 0 []).wf = false ∧
    (Instr.result 0 0 [[1]]).wf = false ∧ (Instr.result 0 0 (List.replicate 9 (List.replicate 32 0))).wf = false := by decide
theorem test_wf_flit : (Instr.flitReceive 0 ⟨true, 16, 0, 0, 0, false, false, 0, false, 0, 0⟩).wf = false ∧
    (Instr.flitReceive 0 ⟨true, 1, 8, 0, 0, false, false, 0, false, 0, 0⟩).wf = false ∧
    (Instr.flitReceive 0 ⟨true, 1, 0, 4096, 0, false, false, 0, false, 0, 0⟩).wf = false ∧
    (Instr.flitReceive 0 ⟨true, 1, 0, 0, 512, false, false, 0, false, 0, 0⟩).wf = false ∧
    (Instr.flitReceive 0 ⟨true, 1, 0, 0, 0, false, false, 4096, false, 0, 0⟩).wf = false ∧
    (Instr.flitReceive 0 ⟨true, 1, 0, 0, 0, false, false, 0, false, 8, 0⟩).wf = false ∧
    (Instr.flitReceive 0 ⟨true, 1, 0, 0, 0, false, false, 0, false, 0, 256⟩).wf = false := by decide
theorem test_wf_param : (Instr.paramReceive 0 ⟨1, 2, 1, false, 2 ^ 32, 0, 1, [0, 0, 0, 0], 0, [0, 0, 0, 0, 0]⟩).wf = false ∧
    (Instr.paramReceive 0 ⟨1, 2, 1, false, 5, 0, 1, [0, 0, 0], 0, [0, 0, 0, 0, 0]⟩).wf = false ∧
    (Instr.paramReceive 0 ⟨1, 2, 1, false, 5, 0, 1, [0, 0, 0, 0], 0, [0, 0, 0, 0]⟩).wf = false ∧
    (Instr.paramReceive 0 ⟨1, 2, 1, false, 5, 0, 1, [0, 0, 0, 0], 0, [0, 0, 0, 0, 0]⟩).wf = true := by decide
theorem test_wf_readings : (Instr.sensorRead []).wf = false ∧ (Instr.pmbusPeriod [] false).wf = false ∧ (Instr.pmbAlert []).wf = false := by decide
theorem test_wf_audio : (Instr.audioFrame 0 ⟨List.replicate 33 0, 0, false⟩).wf = false := by decide
theorem test_wf_camera : (Instr.camLongPacket ⟨0, 64, [], true, 0⟩).wf = false ∧ (Instr.camLongPacket ⟨0, 1, [], true, 33⟩).wf = false := by decide
theorem test_wf_hsp : (Instr.hspNop ⟨0, 5, 5, false⟩).wf = false ∧ (Instr.hspRd ⟨0, 1, 5, false⟩ 0 0).wf = false ∧ (Instr.hspWr ⟨0, 1, 5, false⟩ 0 []).wf = false ∧
    (Instr.hspMrd ⟨0, 1, 5, false⟩ 0 257).wf = false ∧ (Instr.hspMwr ⟨0, 1, 5, false⟩ 0 []).wf = false ∧ (Instr.hspRepeat ⟨0, 5, 1, false⟩).wf = false ∧
    (Instr.hspRejectedFrame ⟨0, 1, 5, false⟩ 32 []).wf = false := by decide
theorem test_wf_psp : (Instr.pspTransferDone (List.replicate 257 0)).wf = false := by decide +kernel
theorem test_wf_link : (Instr.pcieLinkUp 3 1).wf = false ∧ (Instr.pcieLinkUp 4 0).wf = false ∧ (Instr.pcieLinkUp 4 5).wf = false ∧ (Instr.pcieLinkUp 4 4).wf = true := by
  decide
theorem test_no_row_gives_bits : decodeTableWord 64 0x30_00_000_000_000_000 = none := by decide

/-! ### Words and values worked out by hand -/

/-- A VADD word: OP 0x30 in bits 63:56, MOD, DST, SRCA, SRCB and SRCC below it (Table 4-5). -/
theorem test_word_vadd : tWord 0x30 ⟨0x01, 0x123, 0x456, 0x789, 0xFFF⟩ = 0x3001123456789FFF#64 := by decide
/-- A WAIT word: OP 0x11, KNOT in bits 55:50, VALUE in 47:32, STEP in 31:16 (Table 4-7). -/
theorem test_word_wait : sWord 0x11 5 0x1234 0x00FF = 0x1114123400FF0000#64 := by decide
/-- A LOOP word: OP 0x01, COUNT in bits 47:32, LEN in 31:16 (Table 4-6). -/
theorem test_word_loop : cWord 1 3 2 = 0x0100000300020000#64 := by decide
/-- The CRC-32 of the nine digits, the check value of the polynomial of R232. -/
theorem test_crc32 : crc32 [0x31, 0x32, 0x33, 0x34, 0x35, 0x36, 0x37, 0x38, 0x39] = 0xCBF43926#32 := by decide +kernel
/-- HCRC of a read of one register with SEQ 0x2C (Table 16-17): 0x31. -/
theorem test_hcrc : hspHcrc 0x10102C00 = 0x31 := by decide +kernel
/-- Half-way cases round to even (R192). -/
theorem test_rne : rneShift 5 1 = 2 ∧ rneShift 7 1 = 4 ∧ rneShift (-5) 1 = -2 ∧ rneShift 6 (-2) = 24 := by decide

/-! ### Witnesses: registers, logs and pins -/

/-- The hypotheses of `RegisterWriteByAccessTypes` (and, with `lock`, of `LockedFieldsKeepTheirValue`). -/
def plainReg (i : Iface) (off : BitVec 24) (v : Word) (s : State) (lock : Bool) : Bool :=
  match findReg off.toNat with
  | some (d, _) => s.served i && decide (pairRole off.toNat = .single) && !ownBehaviour off.toNat && !eventReg off.toNat &&
      (breaksLock d v (s.reg off.toNat) == lock) && (s.bit Reg.TICK_STAT 0 || decide (rwtMask d v = 0))
  | none => false

/-- RW takes the value; reserved bits stay 0. -/
theorem witness_write_rw : plainReg .hsp (BitVec.ofNat 24 Reg.TICK_LOCKTOL) 0xFFFFF123 up false = true ∧
    after (.registerWrite .hsp (BitVec.ofNat 24 Reg.TICK_LOCKTOL) 0xFFFFF123) up (fun t => t.reg Reg.TICK_LOCKTOL = 0x123) = true := by decide +kernel
/-- RWT with ticks running is held. -/
theorem witness_write_rwt : (let s := up.setBit Reg.TICK_STAT 0 true
    plainReg .pcie 0x010004 25 s false = true ∧
    after (.registerWrite .pcie 0x010004 25) s (fun t => t.fld 0x010004 0 7 = 20 && t.rwtHeld == [(0x010004, 0x7F, 25)]) = true) := by decide +kernel
/-- A reserved offset: read as 0, not written. -/
theorem witness_reserved : findReg 0x150000 = none ∧ after (.registerWrite .hsp 0x150000 5) up (fun t => t == up) = true ∧
    after (.pairLowRead .hsp 0x150000) up (fun t => t.sent == [.readData 0]) = true := by decide +kernel
/-- TRIP with LOCK set keeps its value; over PCI Express that is logged, from a control core it is not. -/
theorem witness_locked : (let s := up.setReg Reg.PWR_TSCFG 0x80000082
    plainReg .pcie 0x100400 99 s true = true ∧ plainReg (.cc 4) 0x100400 99 s true = true ∧
    after (.registerWrite .pcie 0x100400 99) s (fun t => t.fld 0x100400 0 8 = 130 && t.logSeq = 1) = true ∧
    after (.registerWrite (.cc 4) 0x100400 99) s (fun t => t.fld 0x100400 0 8 = 130 && t.logSeq = 0) = true) := by decide +kernel
/-- TICK_COUNT: the low word read latches the high word for one interface. -/
theorem witness_pair_read : pairRole Reg.TICK_COUNT_LO = .low ∧ (let s := up.setReg (Reg.TICK_COUNT_LO + 4) 7
    after (.pairLowRead .hsp (BitVec.ofNat 24 Reg.TICK_COUNT_LO)) s (fun t => t.highRead .hsp (Reg.TICK_COUNT_LO + 4) = 7 && t.highRead .pcie (Reg.TICK_COUNT_LO + 4) = 0) = true) := by
  decide +kernel
/-- A low word is held until its high word is written; a high word alone leaves the low word. -/
theorem witness_pair_write : pairRole Reg.NVC_UPDSRC_LO = .low ∧ pairRole (Reg.NVC_UPDSRC_LO + 4) = .high ∧
    after (.pairLowWrite .hsp (BitVec.ofNat 24 Reg.NVC_UPDSRC_LO) 0x40) up (fun t => t.reg Reg.NVC_UPDSRC_LO = 0 &&
      after (.pairHighWrite .hsp (BitVec.ofNat 24 (Reg.NVC_UPDSRC_LO + 4)) 2) t (fun u => u.reg64 Reg.NVC_UPDSRC_LO = 0x200000040 && u.lowHeld == []) &&
      after (.pairHighWrite .pcie (BitVec.ofNat 24 (Reg.NVC_UPDSRC_LO + 4)) 2) t (fun u => u.reg64 Reg.NVC_UPDSRC_LO = 0x200000000 && u.lowHeld.length = 1)) = true := by
  decide +kernel
/-- TICK_FALLOW at both ends of its legal range, with ticks stopped, and one that R51 refuses. -/
theorem witness_rwt_stopped : up.sound = true ∧ up.served .pcie = true ∧ up.bit Reg.TICK_STAT 0 = false ∧ up.rwtHeld = [] ∧
    after (.rwtApplyWhileStopped .pcie 0x010008 5) up (fun t => t.fld Reg.TICK_FALLOW 0 6 = 5 && t.logSeq = 0) = true ∧
    after (.rwtApplyWhileStopped .pcie 0x010008 40) up (fun t => t.fld Reg.TICK_FALLOW 0 6 = 40 && t.logSeq = 0) = true ∧
    (let s := up.setFld Reg.TICK_PERIOD 0 7 5
     s.sound = true ∧ after (.rwtApplyWhileStopped .pcie 0x010008 40) s (fun t => t.fld Reg.TICK_FALLOW 0 6 = 15 && t.bit Reg.TICK_STAT 12 && t.logSeq = 1) = true) := by
  decide +kernel
/-- TICK_SLIP at the top of its range. -/
theorem witness_rwt_slip : after (.rwtApplyWhileStopped (.cc 2) 0x01000C 50) up (fun t => t.fld Reg.TICK_SLIP 0 6 = 50) = true := by decide +kernel
/-- An entry with 255 kept is kept, the 257th is not (R348). -/
theorem witness_log : (let s := up.setFld Reg.ERRLOG_HEAD 0 9 255
    let t := s.logEvent false 4 5 {}
    t.fld Reg.ERRLOG_HEAD 0 9 = 256 ∧ t.bit Reg.ERRLOG_STAT 2 = false ∧ (t.logEvent false 4 5 {}).fld Reg.ERRLOG_HEAD 0 9 = 256 ∧
    (t.logEvent false 4 5 {}).bit Reg.ERRLOG_STAT 2 = true ∧ (t.logEvent false 4 5 {}).fld (Reg.ERRLOG_ECNT + 16) 0 32 = 2) := by decide +kernel
/-- The tail may reach the head; it may not pass it, nor go back. -/
theorem witness_log_tail : (let s := (up.setFld Reg.ERRLOG_HEAD 0 9 3).setFld Reg.ERRLOG_TAIL 0 9 1
    after (.logTailWrite .hsp false 3) s (fun t => t.fld Reg.ERRLOG_TAIL 0 9 = 3 && t.logSeq = 0) = true ∧
    after (.logTailWrite .hsp false 4) s (fun t => t.fld Reg.ERRLOG_TAIL 0 9 = 1 && t.logSeq = 1) = true ∧
    after (.logTailWrite .pcie false 0) s (fun t => t.fld Reg.ERRLOG_TAIL 0 9 = 1 && t.logSeq = 1) = true ∧
    after (.logTailWrite (.cc 1) false 0) s (fun t => t.fld Reg.ERRLOG_TAIL 0 9 = 1 && t.logSeq = 0) = true) := by decide +kernel
/-- A pin is released 1 ms after the last event, once its latch is clear. -/
theorem witness_pins : (let s := { up with alertLow := true, alertAt := 500, now := 700, diagLow := true }
    s.bit Reg.ERRLOG_STAT 4 = false ∧ after (.pinHoldExpiry true) s (fun t => !t.alertLow && t.diagLow && decide (1500 ≤ t.now)) = true ∧
    after (.pinHoldExpiry false) s (fun t => t.alertLow && !t.diagLow) = true ∧
    after (.pinHoldExpiry true) (s.setBit Reg.ERRLOG_STAT 4 true) (fun t => t.alertLow) = true ∧
    after (.pinHoldExpiry false) (s.setBit Reg.ERRLOG_STAT 5 true) (fun t => t.diagLow) = true) := by decide +kernel

/-! ### Witnesses: ticks -/

/-- Ticks in a phase, with TICK_CTRL.RUN 1. -/
def ticking (s : State) (p : TickPhase) : State := { s.setBit Reg.TICK_CTRL 0 true with tick := { s.tick with phase := p, nominal := 1000, edge := 1000, opened := 5000, nextEdge := 6000 } }

/-- A follower (TICK_SRC.SEL 5). -/
def follower (p : TickPhase) : State := ticking (up.setFld Reg.TICK_SRC 0 3 5) p

/-- A chip locked to port 2, 480 frames a tick, in a slice that began at 1000; P is 20 × 50 µs. -/
def lockedTo2 (syncs : Nat) : State :=
  let s := ticking ((((up.setFld Reg.TICK_SRC 0 3 3).setFld Reg.TICK_SRC 16 13 48).setBit Reg.TICK_STAT 2 true)) .slice
  { s with tick := { s.tick with syncs := syncs } }

theorem witness_run_start : after (.tickRunStart .hsp true) up (fun t => t.bit Reg.TICK_CTRL 0 && t.bit Reg.TICK_CTRL 1 && decide (t.tick.phase = .starting) &&
    decide (t.tick.nextNominal = some 1000)) = true ∧
    after (.tickRunStart .hsp false) (up.setFld Reg.TICK_SRC 0 3 5) (fun t => !t.bit Reg.TICK_CTRL 1 && decide (t.tick.nextNominal = none)) = true := by decide +kernel
theorem witness_run_stop : (let s := ticking up .slice
    after (.tickRunStop .hsp false) { s with active := some (planOf 16 [] []) } (fun t => t.bit Reg.TICK_CTRL 0 && t.bit Reg.TICK_STAT 12) = true ∧
    after (.tickRunStop .hsp false) s (fun t => !t.bit Reg.TICK_CTRL 0 && decide (t.tick.phase = .slice)) = true ∧
    after (.tickRunStop .hsp false) (ticking up .starting) (fun t => decide (t.tick.phase = .stopped)) = true) := by decide +kernel
/-- The first edge, with a variant latched for one engine; and a stop at the edge. -/
theorem witness_tick_edge : (let s := ticking up .starting
    let s := { s with tick := { s.tick with nextNominal := some 3000 }, engs := s.engs.set 16 { idleEng with next := some ⟨16, 0, false, 4, 0, 7, 500⟩ } }
    s.edgeDue = some (3000, 3000) ∧ s.engs.length = 33 ∧
    after .tickEdge s (fun t => decide (t.tick.phase = .slice) && t.tick.edge = 3000 && t.now = 3000 && (t.eng 16).running && (t.eng 16).stop = 7 &&
      (t.eng 16).remain = 500 && !(t.eng 17).running) = true ∧
    after .tickEdge (s.setBit Reg.TICK_CTRL 0 false) (fun t => decide (t.tick.phase = .stopped) && !(t.eng 16).running) = true) := by decide +kernel
theorem witness_fallow : (let s := ticking up .slice
    after .fallowOpening { s with rwtHeld := [(Reg.TICK_LOCKTOL, 0xFFF, 300)] } (fun t => decide (t.tick.phase = .fallow) &&
      t.tick.opened = 1000 + s.tickP - s.tickF && t.rwtHeld == []) = true ∧
    after .fallowOpening { s with tick := { s.tick with workEnd := 20000 } } (fun t => t.tick.opened = 20000) = true ∧
    after .fallowOpening (s.setEng 3 { idleEng with running := true }) (fun t => decide (t.tick.phase = .slice)) = true) := by decide +kernel
theorem witness_arming : (let s := ticking up .fallow
    s.isFollower = false ∧ s.isMaster = false ∧
    after .armingStep { s with active := some { planOf 16 [] [] with knotStart := List.replicate 64 9 } } (fun t => decide (t.tick.phase = .armed) && t.nextRows.isSome &&
      t.nextKnots == List.replicate 64 9 && decide (5900 ≤ t.now)) = true ∧
    after .armingStep (follower .fallow) (fun t => decide (t.tick.phase = .fallow) && t.bit Reg.TICK_STAT 4 && t.logSeq = 1) = true ∧
    (let f := follower .fallow
     after .armingStep { f with tick := { f.tick with classed := true } } (fun t => decide (t.tick.phase = .armed)) = true)) := by decide +kernel
/-- A sync at each end of the window about T_int, and one beyond each end; the clauses meet at T_int ± w. -/
theorem witness_locked_syncs : (let s := lockedTo2 47
    let e := s.tick.edge + s.tickP
    s.tickPort = some 2 ∧ s.locked = true ∧
    after (.portFrameSync 2 (e + s.tickW)) s (fun t => decide (t.tick.nextNominal = some (e + s.tickW)) && t.bit Reg.TICK_STAT 2) = true ∧
    after (.portFrameSync 2 (e - s.tickW)) s (fun t => decide (t.tick.nextNominal = some (e - s.tickW)) && t.bit Reg.TICK_STAT 2) = true ∧
    after (.portFrameSync 2 (e + s.tickW + 1)) s (fun t => decide (t.tick.nextNominal = some (e + s.tickW)) && !t.bit Reg.TICK_STAT 2 && t.bit Reg.TICK_STAT 3) = true ∧
    after (.portFrameSync 2 (e - s.tickW - 1)) s (fun t => decide (t.tick.nextNominal = some e) && t.bit Reg.TICK_STAT 14) = true ∧
    after (.portFrameSync 2 1020) (lockedTo2 46) (fun t => decide (t.tick.nextNominal = none) && t.tick.syncs = 47) = true) := by decide +kernel
theorem witness_holdover : (let s := lockedTo2 3
    after .holdover s (fun t => decide (t.tick.nextNominal = some (1000 + s.tickP + s.tickW)) && !t.bit Reg.TICK_STAT 2 && t.bit Reg.TICK_STAT 3) = true ∧
    (let u := { (s.setBit Reg.TICK_STAT 2 false).setBit Reg.TICK_STAT 3 true with tick := { s.tick with seeking := true, lockRun := 10 } }
     after .lockAcquired u (fun t => t.bit Reg.TICK_STAT 2 && !t.bit Reg.TICK_STAT 3) = true)) := by decide +kernel
theorem witness_follower : (let s := follower .armed
    after (.tickSyncPulse 6001) { s with tick := { s.tick with classed := true } } (fun t => decide (t.tick.nextNominal = some 6001) && t.now = 6001) = true ∧
    after (.tickSyncPulse 900) (follower .starting) (fun t => decide (t.tick.nextNominal = some 900)) = true ∧
    after (.tickSyncPulse 900) ((follower .fallow).setBit Reg.TICK_STAT 4 true) (fun t => t.tick.rejoining) = true ∧
    after .syncPulseTimeout (follower .fallow) (fun t => t.bit Reg.TICK_STAT 4 && !t.tick.classed && t.logSeq = 1) = true) := by decide +kernel
/-- A tick master with the live member chip 1, whose work end it lacks. -/
theorem witness_workend_timeout : (let s := linked (ticking (up.setFld Reg.TICK_STOOK 0 2 3) .fallow) 0
    s.isMaster = true ∧ s.live 1 = true ∧
    after (.workendTimeout 1) s (fun t => t.tick.classed && decide (t.tick.phase = .fallow) && decide (1000 + s.tickP + s.tickS ≤ t.now)) = true) := by decide +kernel

/-! ### Witnesses: engines, control words, budgets -/

theorem witness_end : (let s := atWord 16 [cWord 0 0 0] [] 4
    s.standsAt 16 (cWord 0 0 0) = true ∧ after (.end_ 16) s (fun t => !(t.eng 16).running && t.fld (Reg.PLAN_ENGSTAT + 64) 0 28 = 0 && !t.bit (Reg.PLAN_ENGSTAT + 64) 31) = true) := by
  decide +kernel
theorem witness_loop : (let s := atWord 30 [cWord 1 3 2] [] 100
    after (.loop 30 3 2) s (fun t => (t.eng 30).loops == [⟨1, 2, 3, 0⟩] && (t.eng 30).pc = 1 && (t.eng 30).cycles = 0) = true) := by decide +kernel
theorem witness_idle : (let s := atWord 21 [cWord 2 50 0] [] 51
    after (.idle 21 50) s (fun t => (t.eng 21).remain = 1 && (t.eng 21).pc = 1 && (t.eng 21).running) = true) := by decide +kernel
/-- In the second pass of a loop POST adds VALUE + STEP; from the Flail it is visible 12 cycles after. -/
theorem witness_post : (let s := atWord 30 [cWord 1 3 1, sWord 0x10 63 5 2] [] 100
    let s := s.setEng 30 { s.eng 30 with pc := 1, loops := [⟨1, 1, 3, 1⟩] }
    after (.post 30 63 5 2) s (fun t => t.posts == [⟨63, (t.eng 30).cycles + 12, 7⟩] && t.fld (Reg.PLAN_KNOT + 4 * 63) 0 16 = 7 && (t.eng 30).pc = 1 &&
      (t.eng 30).loops == [⟨1, 1, 3, 2⟩]) = true) := by decide +kernel
/-- A WAIT whose knot is there passes; one whose knot is not stalls, and goes on at the cycle a post becomes visible. -/
theorem witness_wait : (let s := atWord 16 [sWord 0x11 4 6 0] [] 10000
    after (.wait 16 4 6 0) { s with posts := [⟨4, 0, 6⟩] } (fun t => (t.eng 16).pc = 1 && (t.eng 16).remain = 9998 && decide ((t.eng 16).waiting = none)) = true ∧
    (let u := { s with posts := [⟨4, 5000, 6⟩] }
     u.knotReach 4 6 0 = some 5000 ∧ after (.wait 16 4 6 0) u (fun t => (t.eng 16).pc = 0 && decide ((t.eng 16).waiting = some (4, 6)) &&
       after (.waitSatisfied 16) t (fun v => (v.eng 16).cycles = 5000 && (v.eng 16).pc = 1 && decide ((v.eng 16).waiting = none))) = true)) := by decide +kernel
theorem witness_exhausted : (let s := atWord 16 [cWord 2 50 0] [] 0
    s.runsDry 16 = true ∧ after (.sliceBudgetExhausted 16) s (fun t => !(t.eng 16).running && t.bit Reg.TICK_STAT 13 && t.bit Reg.PLAN_FAULT 31) = true ∧
    (let w := (atWord 16 [sWord 0x11 4 6 0] [] 9).setEng 16 { (atWord 16 [sWord 0x11 4 6 0] [] 9).eng 16 with waiting := some (4, 6) }
     w.knotReach 4 6 0 = none ∧ w.runsDry 16 = true)) := by decide +kernel

/-! ### Witnesses: every word on data -/

/-- A word that retires: its cost lies between its bounds and the engine goes on; and with the least cost as its budget, it does not. -/
def retires (c : Instr) (e : Nat) (w : DWord) (ws : List DWord) (descs : List Slot) (prep : State → State) : Bool :=
  let s := prep (atWord e (w :: ws) descs 100000)
  match s.wordCost c with
  | none => false
  | some (e', w', lo, hi) =>
    decide (e' = e) && w' == w && s.standsAt e w && decide (max lo hi < 100000) &&
      after c s (fun t => (t.eng e).pc = 1 && (t.eng e).running && decide (100000 - max lo hi ≤ (t.eng e).remain) && decide ((t.eng e).remain ≤ 100000 - lo)) &&
      after c (s.setEng e { s.eng e with remain := lo }) (fun t => !(t.eng e).running && t.bit Reg.TICK_STAT 13)

/-- Three INT8 tensors of 4 rows of 4 at 0x1000, 0x2000, 0x3000, and one of one row at 0x4000. -/
def four : List Slot := [desc 0x1000 1 0 4 4 1, desc 0x2000 1 0 4 4 1, desc 0x3000 1 0 4 4 1, desc 0x4000 1 0 4 1 1]

theorem witness_vadd_cost : retires (.vadd 2 ⟨0, 2, 0, 1, 0xFFF⟩) 2 (tWord 0x30 ⟨0, 2, 0, 1, 0xFFF⟩) [] four id = true := by decide +kernel
theorem witness_vmul_cost : retires (.vmul 15 ⟨1, 2, 0, 3, 0xFFF⟩) 15 (tWord 0x31 ⟨1, 2, 0, 3, 0xFFF⟩) [] four id = true := by decide +kernel
theorem witness_vmask_cost : retires (.vmask 0 ⟨0, 2, 0, 0xFFF, 0xFFF⟩) 0 (tWord 0x34 ⟨0, 2, 0, 0xFFF, 0xFFF⟩) [] four id = true := by decide +kernel
theorem witness_mmul_cost : retires (.mmul 0 ⟨0, 0xFFF, 0, 1, 0xFFF⟩) 0 (tWord 0x20 ⟨0, 0xFFF, 0, 1, 0xFFF⟩) [] four id = true := by decide +kernel
theorem witness_accout_cost : retires (.accout 0 ⟨0, 2, 0xFFF, 0xFFF, 0xFFF⟩) 0 (tWord 0x21 ⟨0, 2, 0xFFF, 0xFFF, 0xFFF⟩) [] four id = true := by decide +kernel
theorem witness_vlut_cost : retires (.vlut 3 ⟨0, 2, 0, 1, 3⟩) 3 (tWord 0x32 ⟨0, 2, 0, 1, 3⟩) [] four id = true := by decide +kernel
theorem witness_vnorm_cost : retires (.vnorm 4 ⟨0, 2, 0, 1, 3⟩) 4 (tWord 0x33 ⟨0, 2, 0, 1, 3⟩) [] four id = true := by decide +kernel
theorem witness_gate_cost : retires (.gate 1 ⟨0, 2, 0, 1, 3⟩) 1 (tWord 0x22 ⟨0, 2, 0, 1, 3⟩) [] four id = true := by decide +kernel
theorem witness_fattn_cost : retires (.fattn 5 ⟨0, 2, 0, 1, 3⟩) 5 (tWord 0x41 ⟨0, 2, 0, 1, 3⟩) [] four id = true := by decide +kernel
theorem witness_sattn_cost : retires (.sattn 1 ⟨0, 2, 0, 1, 3⟩) 17 (tWord 0x40 ⟨0, 2, 0, 1, 3⟩) [] four id = true := by decide +kernel
theorem witness_sumsc_cost : retires (.sumsc 0 ⟨0, 2, 0, 1, 3⟩) 16 (tWord 0x42 ⟨0, 2, 0, 1, 3⟩) [] four id = true := by decide +kernel
theorem witness_sprob_cost : retires (.sprob 1 ⟨0, 2, 0, 1, 3⟩) 17 (tWord 0x43 ⟨0, 2, 0, 1, 3⟩) [] four id = true := by decide +kernel
theorem witness_scan_cost : retires (.scan ⟨0, 2, 0, 1, 3⟩) rcs (tWord 0x50 ⟨0, 2, 0, 1, 3⟩) [] four id = true := by decide +kernel
theorem witness_topk_cost : retires (.topk ⟨0, 2, 0, 1, 3⟩) sve (tWord 0x60 ⟨0, 2, 0, 1, 3⟩) [] four id = true := by decide +kernel
theorem witness_beam_cost : retires (.beam ⟨0, 2, 0, 1, 3⟩) sve (tWord 0x61 ⟨0, 2, 0, 1, 3⟩) [] four id = true := by decide +kernel
theorem witness_pagesel_cost : retires (.pagesel ⟨0, 2, 0, 1, 3⟩) sve (tWord 0x62 ⟨0, 2, 0, 1, 3⟩) [] four id = true := by decide +kernel
theorem witness_sample_cost : retires (.sample ⟨0, 2, 0, 1, 3⟩) sve (tWord 0x63 ⟨0, 2, 0, 1, 3⟩) [] four id = true := by decide +kernel
theorem witness_hrot_cost : retires (.hrot 0 ⟨0, 2, 0, 1, 3⟩) 18 (tWord 0x70 ⟨0, 2, 0, 1, 3⟩) [] four id = true := by decide +kernel
theorem witness_req_cost : retires (.req 1 ⟨0, 2, 0, 1, 3⟩) 19 (tWord 0x71 ⟨0, 2, 0, 1, 3⟩) [] four id = true := by decide +kernel
theorem witness_kvapp_cost : retires (.kvapp 0 ⟨0, 2, 0, 1, 3⟩) 18 (tWord 0x72 ⟨0, 2, 0, 1, 3⟩) [] four id = true := by decide +kernel
theorem witness_fixjob_cost : retires (.fixjob 32 7) 32 (cWord 3 7 0) [] four id = true := by decide +kernel

/-! ### Witnesses: what the words compute, moves, the host's windows -/

/-- Bytes of T0 from an address, those that are not 0. -/
def bytesAt (a : Nat) (l : List Nat) : Cells 8 := (l.zipIdx.filter fun x => x.1 != 0).map fun x => (a + x.2, BitVec.ofNat 8 x.1)

/-- Engine 0 at a word, operands of one row of 4 INT8 elements: (1, -2, 100, 127) at 0x1000 and (1, 1, 100, 3) at 0x2000. -/
def oneRow (w : DWord) : State :=
  { atWord 0 [w] [desc 0x1000 1 0 4 1 1, desc 0x2000 1 0 4 1 1, desc 0x3000 1 0 4 1 1] 10000 with
    t0 := bytesAt 0x1000 [1, 254, 100, 127] ++ bytesAt 0x2000 [1, 1, 100, 3] }

/-- The operands' hypotheses of `VectorAndMatrixWordsComputeExactly`. -/
theorem witness_plain : (let s := oneRow 0
    ∀ i ∈ [0, 1, 2], let d := s.plan.tensor i
      (d.own = 0 ∧ d.scale = 0 ∧ d.fmt = 1 ∧ d.cols * 2 ^ (d.fmt - 1) ≤ 64 * d.stride) ∧ d.rows = 1 ∧ d.cols = 4) := by decide +kernel
/-- Sums saturate at the format (R192). -/
theorem witness_vadd : (let f : TFields := ⟨0, 2, 0, 1, 0xFFF⟩
    let s := oneRow (tWord 0x30 f)
    s.standsAt 0 (tWord 0x30 f) = true ∧ s.vecCost f + 12 < (s.eng 0).remain ∧
    after (.vadd 0 f) s (fun t => cellRead t.t0 0x3000 4 == [2, 255, 127, 127]) = true) := by decide +kernel
theorem witness_vmul : (let f : TFields := ⟨1, 2, 0, 1, 0xFFF⟩
    let s := oneRow (tWord 0x31 f)
    s.standsAt 0 (tWord 0x31 f) = true ∧ after (.vmul 0 f) s (fun t => cellRead t.t0 0x3000 4 == [1, 254, 127, 127]) = true) := by decide +kernel
theorem witness_vmask : (let f : TFields := ⟨0, 2, 0, 0xFFF, 0xFFF⟩
    let s := oneRow (tWord 0x34 f)
    after (.vmask 0 f) s (fun t => cellRead t.t0 0x3000 4 == [1, 254, 100, 127]) = true ∧
    after (.vmask 0 f) { s with rows := [] } (fun t => cellRead t.t0 0x3000 4 == [0, 0, 0, 0]) = true) := by decide +kernel
/-- (3, -5) times the columns (7, 11) and (2, -1): 3·7 − 5·11 = −34 and 3·2 + 5 = 11. -/
theorem witness_mmul : (let f : TFields := ⟨0, 0xFFF, 0, 1, 0xFFF⟩
    let s := { atWord 0 [tWord 0x20 f] [desc 0x1000 1 0 2 1 1, desc 0x2000 1 0 2 2 1] 10000 with
      t0 := bytesAt 0x1000 [3, 251] ++ bytesAt 0x2000 [7, 2] ++ bytesAt 0x2040 [11, 255] }
    s.standsAt 0 (tWord 0x20 f) = true ∧ s.mmulCost 0 f < (s.eng 0).remain ∧
    after (.mmul 0 f) s (fun t => (t.bank 0 0).sum 0 0 = -34 && (t.bank 0 0).sum 0 1 = 11) = true) := by decide +kernel

/-- Two slots of a move of one line from 0x1000 to 0x2000, posting to knot 5 (Table 3-7). -/
def moveSlots : List Slot := [BitVec.ofNat 128 (0x1000 + 0x2000 * 2 ^ 64), BitVec.ofNat 128 (1 + 5 * 2 ^ 32 + 2 ^ 38 + 64 * 2 ^ 40)]

/-- That move under way on Cart 3. -/
def moving : State :=
  { atWord 25 [xWord 0 0 0] [] 100 with
    moves := [(3, ⟨⟨0x1000, 0x2000, 1, 0, 5, true, 64, 0, 0⟩, .copying, false, .plan⟩)], t0 := bytesAt 0x1000 [9, 8, 7] }

theorem witness_move : (let s := atWord 25 [xWord 0 0 0] moveSlots 100
    s.moveRefusal (s.stepped 3 0 0 0) = none ∧ after (.move 3 0 0 0) s (fun t => t.moves == moving.moves && t.fld (Reg.CART_CHSTAT + 0x60) 0 3 = 1) = true ∧
    (let u := atWord 25 [xWord 0 0 0] [] 100
     u.moveRefusal (u.stepped 3 0 0 0) ≠ none ∧ after (.move 3 0 0 0) u (fun t => !(t.eng 25).running && t.moves == [] && t.bit Reg.PLAN_FAULT 31) = true)) := by
  decide +kernel
/-- 12 + ⌈64 / 32⌉ = 14 cycles. -/
theorem witness_move_commit : moving.sound = true ∧ (moving.planMove 3).isSome = true ∧
    after (.moveCommit 3 .ok) moving (fun t => cellRead t.t0 0x2000 4 == [9, 8, 7, 0] && t.planMove 3 == none && (t.eng 25).remain = 86 && (t.eng 25).pc = 1 &&
      t.posts == [⟨5, (t.eng 25).cycles + 12, 1⟩]) = true := by decide +kernel
theorem witness_move_error : after (.moveSourceError 3 0x1008) moving (fun t => t.planMove 3 == none && t.fld (Reg.CART_CHSTAT + 0x60) 0 3 = 5 &&
    t.bit Reg.CART_ERRSTAT 0 && (t.eng 25).running && (t.eng 25).pc = 1) = true := by decide +kernel

/-- With a staging area of 4 KiB at 0x10000 of T0. -/
def staged : State := { up with staging := some (0x10000, 0x1000) }

theorem witness_bar0 : after (.bar0BadAccess true 3 1) up (fun t => t.logSeq = 1 && t.sent == []) = true ∧
    after (.bar0BadAccess false 3 2) up (fun t => t.logSeq = 1 && t.sent == [.completion (List.replicate 8 0xFF) false]) = true := by decide +kernel
/-- The last byte of T0 and the first beyond it; and a poisoned word. -/
theorem witness_bar2_read : after (.bar2Read 0x2FFFFFF 2) { up with t0 := [(0x2FFFFFF, 0x5A)] } (fun t => t.sent == [.completion [0x5A, 0] false]) = true ∧
    after (.bar2Read 8 1) { up with t0Poison := [1] } (fun t => t.sent == [.completion [0] true]) = true := by decide +kernel
/-- A stream whose context lies at 0x1000 of T0. -/
def homed : Stream := { st0 with home := 0x1000, uparam := List.replicate 16 7 }
/-- A read that begins 2 bytes below the home of a stream context (here of no plan: its header) finds its first bytes (Table 10-7), though
other bytes are stored there; beyond the context it finds those. -/
theorem witness_bar2_context : (let s := { up with t0 := [(0xFFF, 1), (0x1000, 2), (0x10FF, 9), (0x1100, 3)], streams := [(6, homed)] }
    (homed.contextBytes s.plan 6).length = 256 ∧ s.plan.contextSize homed.ps = 256 ∧
    after (.bar2Read 0xFFE 4) s (fun t => t.sent == [.completion [0, 1, 0x54, 0x53] false]) = true ∧
    after (.bar2Read 0x10FF 2) s (fun t => t.sent == [.completion [0, 3] false]) = true) := by decide +kernel
theorem witness_bar2_write : after (.bar2Write 0x10FFF [7]) staged (fun t => t.t0 == [(0x10FFF, 7)] && t.logSeq = 0) = true ∧
    after (.bar2Write 0x11000 [7]) staged (fun t => t.t0 == [] && t.logSeq = 1) = true ∧ after (.bar2Write 0xFFFF [7]) staged (fun t => t.t0 == [] && t.logSeq = 1) = true ∧
    after (.bar2Write 0x3000000 [7]) staged (fun t => t == staged) = true := by decide +kernel
theorem witness_host_reset : (let s := { withQueue (staged.setReg Reg.HOST_STAT 0x30400) 2 [rq 0 9 0xFF .waiting] with host := [(1, 1)] }
    s.sound = true ∧ s.mainOn = true ∧
    after (.hostSideReset .flr) s (fun t => (t.queue 2).reqs == [] && t.fld Reg.HOST_STAT 8 5 = 4 && t.staging == none && t.host == [(1, 1)]) = true ∧
    after (.hostSideReset .hotReset) s (fun t => (t.queue 2).reqs == [] && t.fld Reg.HOST_STAT 8 5 = 0) = true ∧
    after .perstAssert s (fun t => (t.queue 2).reqs == [] && t.fld Reg.HOST_STAT 16 4 = 0) = true) := by decide +kernel

/-! ### Witnesses: queues and requests -/

/-- Queue 1 enabled with rings of 16 entries at 0x10000 and 0x20000 of host memory, an index or two moved. -/
def q1 (head tail : Nat) (reqs : List Req) (window : List TagEntry) : State :=
  { (((((up.setReg (Reg.HOST_QCTRL + 0x40) 0x4401).setReg (Reg.HOST_QSTAT + 0x40) 1).setReg (Reg.HOST_SQBASE_LO + 0x40) 0x10000).setReg
      (Reg.HOST_CQBASE_LO + 0x40) 0x20000).setReg (Reg.HOST_SQHEAD + 0x40) (BitVec.ofNat 32 head)) with
    queues := up.queues.set 1 { idleQueue with sqTail := tail, reqs := reqs, window := window } }

theorem witness_queue_enable : (let s := (up.setReg (Reg.HOST_SQBASE_LO + 0x40) 0x10000).setReg (Reg.HOST_CQBASE_LO + 0x40) 0x20000
    after (.queueEnable .pcie 1 0x4401) s (fun t => t.qOn 1 && !t.qFault 1) = true ∧
    after (.queueEnable .pcie 1 0x5401) s (fun t => t.qOn 1) = true ∧
    after (.queueEnable .pcie 1 0x4501) s (fun t => !t.qOn 1 && t.qFault 1 && t.fld (Reg.HOST_QSTAT + 0x40) 8 4 = 5) = true) := by decide +kernel
theorem witness_queue_reset : after (.queueReset .pcie 1 2) (q1 3 5 [rq 0 9 0xFF .waiting] [⟨9, 0, none⟩]) (fun t => !t.qOn 1 && t.sqHead 1 = 0 &&
    (t.queue 1).sqTail = 0 && (t.queue 1).reqs == [] && (t.queue 1).window == []) = true := by decide +kernel
/-- The tail moves up to the entry before the head; the head itself would be behind it; 16 is beyond the ring. -/
theorem witness_sq_doorbell : after (.sqDoorbell .pcie 1 2 []) (q1 3 5 [] []) (fun t => (t.queue 1).sqTail = 2) = true ∧
    after (.sqDoorbell .pcie 1 4 []) (q1 3 5 [] []) (fun t => (t.queue 1).sqTail = 5 && t.fld (Reg.HOST_QSTAT + 0x40) 8 4 = 4) = true ∧
    after (.sqDoorbell .pcie 1 16 []) (q1 3 5 [] []) (fun t => (t.queue 1).sqTail = 5 && t.fld (Reg.HOST_QSTAT + 0x40) 8 4 = 3) = true ∧
    after (.sqDoorbell .pcie 2 1 []) (q1 3 5 [] []) (fun t => t.logSeq = 1) = true := by decide +kernel
theorem witness_cq_doorbell : (let s := (q1 0 0 [] []).setReg (Reg.HOST_CQTAIL + 0x40) 4
    after (.cqDoorbell .pcie 1 4) s (fun t => (t.queue 1).cqHead = 4 && t.logSeq = 0) = true ∧
    after (.cqDoorbell .pcie 1 5) s (fun t => (t.queue 1).cqHead = 0 && t.logSeq = 1) = true ∧
    after (.cqDoorbell .pcie 2 0) s (fun t => t.logSeq = 1) = true) := by decide +kernel
/-- A NOP record with TAG 7 at entry 15: the head wraps; a malformed one; one whose TAG the window holds; an error of host memory. -/
theorem witness_fetch : (let s := { q1 15 1 [] [] with host := bytesAt 0x103C0 [0, 0, 7, 0, 255] }
    s.nextQueue = some 1 ∧ s.qLocal 1 = false ∧
    after (.requestFetch .ok) s (fun t => t.sqHead 1 = 0 && t.turn = 2 && (t.queue 1).reqs.map (fun r => (r.kind, r.tag, r.state)) == [(0, 7, .waiting)]) = true ∧
    after (.requestFetch .ok) { s with host := bytesAt 0x103C0 [0, 0, 7, 0, 255, 1] } (fun t => (t.queue 1).reqs.map (·.state) == [.done 1 5 0 255]) = true ∧
    after (.requestFetch .ok) (s.updQueue 1 fun h => { h with window := [⟨7, 1, none⟩] }) (fun t => (t.queue 1).reqs.map (·.state) == [.done 0x0D 7 0 255]) = true ∧
    after (.requestFetch .error) s (fun t => t.qFault 1 && t.fld (Reg.HOST_QSTAT + 0x40) 8 4 = 1 && t.sqHead 1 = 15) = true ∧
    after (.requestFetch .ok) up (fun t => t == up) = true) := by decide +kernel

/-- A request that waits, and its PARAM. -/
def waits (kind tag stream : Nat) (param : List Byte) : State := q1 0 0 [{ rq kind tag stream .waiting with param := param }] [⟨tag, 0, none⟩]
/-- How queue 1's requests stand. -/
def stands (t : State) : List ReqState := (t.queue 1).reqs.map (·.state)

theorem witness_nop : after (.nop 1 7) (waits 0 7 0xFF []) (fun t => stands t == [.done 0 0 0 0xFF]) = true := by decide +kernel
theorem witness_query : after (.query 1 7) { waits 1 7 0xFF [3] with active := some (planOf 16 [] []) } (fun t => stands t == [.done 0 0 7 0xFF]) = true ∧
    after (.query 1 7) (waits 1 7 0xFF [4]) (fun t => stands t == [.done 0 0 0 0xFF]) = true ∧
    after (.query 1 7) { waits 1 7 6 [2] with streams := [(6, st0)] } (fun t => stands t == [.done 0 0 5 6]) = true ∧
    after (.query 1 7) (waits 1 7 6 [2]) (fun t => stands t == [.done 2 0 0 6]) = true := by decide +kernel
theorem witness_abort : (let a := { rq 2 7 0xFF .waiting with param := [1, 0, 3, 0] }
    after (.abort 1 7) (q1 0 0 [a] [⟨7, 0, none⟩]) (fun t => stands t == [.done 0x0C 0 0 0xFF]) = true ∧
    after (.abort 1 7) (q1 0 0 [a] [⟨7, 0, none⟩, ⟨3, 0, some (0, 0, 0)⟩]) (fun t => stands t == [.done 0x0C 0 0 0xFF]) = true ∧
    after (.abort 1 7) (q1 0 0 [rq 0x22 3 6 .due, a] [⟨7, 0, none⟩, ⟨3, 0, none⟩]) (fun t => stands t == [.done 7 1 0 6, .done 0 0 0 0xFF]) = true) := by decide +kernel
/-- Each of the twelve requests that wait for a fallow window, over its own kind. -/
theorem witness_due : ([(Instr.planActivate 1 7, 0x11), (.planDiscard 1 7, 0x12), (.streamOpen 1 7, 0x20), (.streamClose 1 7, 0x21), (.streamPause 1 7, 0x22),
      (.streamResume 1 7, 0x23), (.streamAbort 1 7, 0x24), (.stateExport 1 7, 0x25), (.migrate 1 7, 0x26), (.audioBind 1 7, 0x30), (.audioUnbind 1 7, 0x31),
      (.overlay 1 7, 0x40)].all fun x => after x.1 (waits x.2 7 6 []) fun t => stands t == [.due]) = true := by decide +kernel
theorem witness_plan_load_buffer : after (.planLoad 1 7) (waits 0x10 7 0xFF []) (fun t => stands t == [.done 6 1 0 0xFF]) = true := by decide +kernel
/-- Stream requests in their step: not open, closing, open, paused. -/
theorem witness_stream_requests : (let s := { q1 0 0 [rq 0x21 7 6 .due] [] with streams := [(6, st0)] }
    let paused := { s with streams := [(6, { st0 with state := .paused })] }
    stands ((q1 0 0 [rq 0x21 7 6 .due] []).takeStreamReq true 1 (rq 0x21 7 6 .due)) = [.done 2 0 0 6] ∧
    ((s.takeStreamReq true 1 (rq 0x21 7 6 .due)).stream 6).map (·.state) = some .closing ∧ stands (s.takeStreamReq true 1 (rq 0x21 7 6 .due)) = [.acting] ∧
    stands ({ s with streams := [(6, { st0 with state := .closing })] }.takeStreamReq true 1 (rq 0x24 7 6 .due)) = [.done 5 0 0 6] ∧
    stands (s.takeStreamReq true 1 (rq 0x24 7 6 .due)) = [.acting] ∧ stands (paused.takeStreamReq true 1 (rq 0x23 7 6 .due)) = [.done 0 0 0 6] ∧
    ((paused.takeStreamReq true 1 (rq 0x23 7 6 .due)).stream 6).map (·.state) = some .opened ∧
    stands (paused.takeStreamReq true 1 (rq 0x22 7 6 .due)) = [.done 0 0 0 6] ∧ ((s.takeStreamReq true 1 (rq 0x22 7 6 .due)).stream 6).map (·.pausing) = some true ∧
    stands (s.takeStreamReq true 1 (rq 0x25 7 6 .due)) = [.done 5 0 0 6] ∧
    stands ({ s with streams := [(6, { st0 with record := some 0x100_0000_0000 })] }.takeStreamReq true 1 (rq 0x25 7 6 .due)) = [.done 6 1 0 6]) := by decide +kernel
theorem witness_plan_requests : (let s := q1 0 0 [rq 0x11 7 0xFF .due] []
    s.activationRefusal = some 0x12 ∧ stands (s.takeDiscard 1 7) = [.done 5 0 0 0xFF] ∧
    (let p := { s with pendingPlan := some (planOf 16 [] []) }
     stands (p.takeDiscard 1 7) = [.done 0 0 7 0xFF] ∧ (p.takeDiscard 1 7).pendingPlan = none)) := by decide +kernel
theorem witness_bind : (let r := { rq 0x30 7 6 .due with param := [0, 2, 8, 0, 0] }
    let s := { q1 0 0 [r] [] with streams := [(6, st0)] }
    ((s.takeBind 1 r).stream 6).map (·.inBind) = some (some (2, 8)) ∧ stands (s.takeBind 1 r) = [.done 0 0 0 6] ∧
    ((({ s with streams := [(6, { st0 with inBind := some (2, 8) })] } : State).takeUnbind 1 r).stream 6).map (·.inBind) = some none) := by decide +kernel
/-- A plan image of 192 bytes in the staging area whose header passes the first checks (Table 4-1): PLANID 5, four empty sections. -/
def imageBytes : List Nat :=
  [0x54, 0x50, 0x49, 0x53, 1, 0, 0, 0, 0xC0, 0, 0, 0, 0, 0, 0, 0] ++ [5, 0, 0, 0, 0, 0, 0, 0, 10, 80, 5, 1, 0, 0, 0, 0] ++
  [0, 0, 0, 0, 4, 0, 0, 0, 0, 0, 0, 0, 0, 0, 0, 0] ++ [0, 0, 0, 0, 0, 1, 0, 0, 0, 0, 1, 0, 0, 0, 0, 0] ++ [0, 0, 0, 0, 0, 1, 0, 0, 0, 0, 0, 0, 0, 0, 0, 0] ++
  List.replicate 48 0 ++ [1, 2, 3, 4].flatMap fun k => [k, 0, 0, 0, 0, 0, 0, 0, 0xC0, 0, 0, 0, 0, 0, 0, 0]
theorem witness_plan_load : (let r := { rq 0x10 7 0xFF .waiting with addr := 0x10000, len := 192 }
    let s := { q1 0 0 [r] [⟨7, 0, none⟩] with staging := some (0x10000, 0x1000), t0 := bytesAt 0x10000 imageBytes, active := some (planOf 16 [] []) }
    s.bufferOk r.addr r.len false = true ∧ s.senseRange r.addr r.len = (none, s) ∧ s.checkFirst (s.imageAt r.addr) r.len = none ∧
    after (.planLoad 1 7) s (fun t => t.bit Reg.PLAN_STAT 2 && t.load.isSome && stands t == [.acting]) = true) := by decide +kernel
/-- A pending plan that fits, no stream open: the activation is set. -/
theorem witness_activation : (let s := { q1 0 0 [rq 0x11 7 0xFF .due] [] with pendingPlan := some (planOf 16 [] []) }
    s.activationRefusal = none ∧ (s.takeActivation 1 7).activating = some (1, 7) ∧ stands (s.takeActivation 1 7) = [.acting]) := by decide +kernel

/-! ### Witnesses: completions and results -/

/-- At the last entry of the completion ring PHASE turns. -/
theorem witness_completion : (let s := (q1 0 0 [rq 0 7 0xFF (.done 0 2 3 0xFF)] []).setReg (Reg.HOST_CQTAIL + 0x40) 15
    s.qOn 1 = true ∧ s.qLocal 1 = false ∧ s.endHeld (rq 0 7 0xFF (.done 0 2 3 0xFF)) = false ∧
    after (.completionPost 1 .ok) s (fun t => t.cqTail 1 = 0 && (t.queue 1).phase == false && (t.queue 1).reqs == [] &&
      cellRead t.host 0x201E0 16 == [7, 0, 0, 1, 0, 255, 0, 0, 3, 0, 0, 0, 0, 0, 0, 0]) = true ∧
    after (.completionPost 1 .error) s (fun t => t.cqTail 1 = 15 && t.qFault 1 && t.fld (Reg.HOST_QSTAT + 0x40) 8 4 = 2 && t.host == []) = true ∧
    after (.completionPost 1 .ok) (q1 0 0 [rq 0 7 0xFF .waiting] []) (fun t => t == q1 0 0 [rq 0 7 0xFF .waiting] []) = true ∧
    after (.completionPost 1 .ok) (q1 0 0 [] []) (fun t => t == q1 0 0 [] []) = true) := by decide +kernel
theorem witness_result_post : (let s := ticking up .slice
    s.resultsReady = true ∧ after .resultPost s (fun t => t.resultsDone && t == { s with resultsDone := true }) = true ∧
    (let u := atWord 20 [tWord 0x60 ⟨0, 0, 0, 0xFFF, 0xFFF⟩] [BitVec.ofNat 128 (63 * 2 ^ 38 + 3 * 2 ^ 36 + 2 * 2 ^ 56 + 2 ^ 96)] 9
     u.resultsReady = false ∧ after .resultPost u (fun t => t == u) = true)) := by decide +kernel
theorem witness_held_flush : (let s := { q1 0 0 [] [] with orphans := [(1, resultBytes 4 0 6 0 5 0 [])] }
    s.resultRoom 1 = true ∧ after (.heldResultFlush 1) s (fun t => t.orphans == [] && t.cqTail 1 = 1 && cellRead t.host 0x20000 2 == [255, 255]) = true ∧
    up.resultRoom 1 = false ∧ after (.heldResultFlush 1) { up with orphans := List.replicate 4 (1, []) } (fun t => t.orphans.length = 4 && t.fld (Reg.HOST_QSTAT + 0x40) 16 16 = 1) = true) := by
  decide +kernel
theorem witness_qmod : (let s := ((q1 0 0 [] []).setReg (Reg.HOST_QCTRL + 0x40) 0x01054401).setReg (Reg.HOST_QMOD + 0x40) 0x00640001
    let s := s.updQueue 1 fun h => { h with unsignalled := 3, oldest := 50 }
    after (.qmodTimeout 1) s (fun t => (t.queue 1).unsignalled = 0 && decide (150 ≤ t.now)) = true) := by decide +kernel

/-! ### Witnesses: what peers send -/

/-- Port 0 ACTIVE to chip 1, which holds a grant of 8 KiB at 0x4000 of T0. -/
def peer : State := { linked up 0 with grants := [⟨1, 6, 1, 0x4000, 0x2000, 0, 0, 0, false, false⟩] }
/-- The push that chip 1 knows by 9, of one line. -/
def pushed (done : Bool) : State := { peer with rxMoves := [⟨1, 9, 0, 0x4000, 1, none, done, none⟩] }

theorem witness_peer : peer.linkUp 0 = true ∧ peer.mainOn = true ∧ peer.chipOn 0 = 1 := by decide +kernel
/-- The last lines of the grant, and the smallest push. -/
theorem witness_gydan_write : (peer.grants.any fun g => g.holds 1 0x5FC0 64) = true ∧
    after (.gydanWrite 0 0 9 0x17F (List.replicate 64 7)) peer (fun t => t.byteAt 0x5FBF = 0 && t.byteAt 0x5FC0 = 7 && t.byteAt 0x5FFF = 7 && t.byteAt 0x6000 = 0 &&
      t.rxMove 1 9 == some ⟨1, 9, 0, 0x5FC0, 1, none, false, none⟩ && t.sent == []) = true := by decide +kernel
theorem witness_gydan_write_unmapped : peerOffsetOk peer.variant 0x3000000 64 = false ∧
    after (.gydanWrite 0 0 9 0xC0000 (List.replicate 64 7)) peer (fun t => t.t0 == [] && t.logSeq = 1 && t.sent.contains (.gydan 0 0x82 1 [9, 1])) = true := by decide +kernel
theorem witness_gydan_seal : after (.gydanSeal 0 0 9 1) (pushed false) (fun t => (t.rxMove 1 9).map (·.committed) == some true && t.sent == [.gydan 0 0x81 1 [9]]) = true ∧
    after (.gydanSeal 0 0 9 2) (pushed false) (fun t => t.rxMove 1 9 == none && t.sent == [.gydan 0 0x82 1 [9, 3]]) = true ∧
    after (.gydanSeal 0 0 8 1) (pushed false) (fun t => t.sent == [.gydan 0 0x82 1 [8, 3]]) = true := by decide +kernel
theorem witness_gydan_released : after (.gydanReleased 0 0 9) (pushed true) (fun t => t.rxMove 1 9 == none && t.grants.map (·.got) == [64]) = true ∧
    after (.gydanReleased 0 0 8) (pushed true) (fun t => t.logSeq = 1 && t.grants.map (·.got) == [0]) = true ∧
    after (.gydanDiscard 0 0 9) (pushed false) (fun t => t.rxMove 1 9 == none && t.logSeq = 0) = true ∧
    after (.gydanDiscard 0 0 8) (pushed false) (fun t => t.logSeq = 1) = true := by decide +kernel
theorem witness_gydan_pull : peerOffsetOk peer.variant 0x1000 64 = true ∧
    after (.gydanPull 0 0 9 0x1000 0x2000 1) peer (fun t => t.pullsDue.map (fun m => (m.chip, m.id, m.len, m.committed)) == [(1, 9, 64, false)] && t.sent == []) = true ∧
    after (.gydanPull 0 0 9 0x3000000 0x2000 1) peer (fun t => t.pullsDue == [] && t.sent == [.gydan 0 0x04 1 [9]]) = true := by decide +kernel
/-- A push of this chip's to chip 1, known by 5. -/
def pushing : State := { peer with txMoves := [⟨1, 5, 0, 2, 0x1000, peerAddr 1 0x2000, 64, .plan, false⟩] }
theorem witness_gydan_commit : after (.gydanCommit 0 0 5) pushing (fun t => t.txMoves.map (·.committed) == [true] && t.sent == []) = true ∧
    after (.gydanCommit 0 0 6) pushing (fun t => t.logSeq = 1 && t.txMoves == pushing.txMoves) = true ∧
    after (.gydanRefuse 0 0 5 3) pushing (fun t => t.txMoves == [] && t.bit Reg.CART_ERRSTAT 1) = true ∧
    after (.gydanRefuse 0 0 6 3) pushing (fun t => t.logSeq = 1 && t.txMoves == pushing.txMoves) = true := by decide +kernel
/-- ASK with no plan; with a row free; with none of its phase. -/
theorem witness_ask : (let a : AskBody := ⟨6, 7, 0xFF, 1, 256, 1⟩
    let s := { linked up 0 with active := some (planOf 16 [] []) }
    after (.ask 0 a) (linked up 0) (fun t => t.sent == [.gydan 0 0x90 1 [6, 1, 2]]) = true ∧
    s.grantRow a = some 0 ∧ a.size ≤ s.t1Unreserved ∧
    s.grantRow { a with phase := 5, chunk := 64 } = none ∧ after (.ask 0 { a with phase := 5, chunk := 64 }) s (fun t => t.sent == [.gydan 0 0x90 1 [6, 1, 3]]) = true) := by
  decide +kernel
/-- A stream that migrates to chip 1, in the window that asked. -/
def migrating (p : TickPhase) : State :=
  let s := linked (ticking (q1 0 0 [rq 0x26 7 6 .acting] [⟨7, 0, none⟩]) p) 0
  { s with streams := [(6, { st0 with state := .migrating })], migrations := [⟨6, 1, 1, 7, some 5000, none, false⟩], tick := { s.tick with stepsDone := true } }
theorem witness_answer : (migrating .fallow).migrationOf 1 6 = some ⟨6, 1, 1, 7, some 5000, none, false⟩ ∧
    after (.answer 0 6 (.refuse 3)) (migrating .fallow) (fun t => stands t == [.done 5 3 0 6] && t.migrations == [] && (t.stream 6).map (·.state) == some .opened) = true ∧
    after (.answer 0 6 (.refuse 3)) (migrating .armed) (fun t => t.migrations.length = 1 && stands t == [.acting]) = true ∧
    after (.answerTimeout 6) (migrating .fallow) (fun t => t.migrations.map (·.asked) == [none] && decide (5100 ≤ t.now)) = true := by decide +kernel

/-- A stream of chip 1's, its number there 3, that this chip runs as 6; and one of this chip's that runs on chip 1. -/
def guestStream : Stream := { st0 with homeChip := some 1, homeSc := 3 }
def awayStream : Stream := { st0 with runsOn := some 1, rqueue := 1 }
theorem witness_reqfwd : (let bs : List Byte := [0x21, 0, 9, 0, 3]
    after (.reqfwd 0 bs) (linked up 0) (fun t => t.sent.any fun m => match m with | .gydan 0 0x43 1 l => l.getD 2 0 = 2 | _ => false) = true ∧
    after (.reqfwd 0 bs) { linked up 0 with streams := [(6, guestStream)] } (fun t => (t.queue 17).reqs.map (fun r => (r.stream, r.tag, r.state)) == [(6, 9, .due)]) = true) := by
  decide +kernel
theorem witness_reqdone : (let s := { linked (q1 0 0 [rq 0x21 9 6 .acting] [⟨9, 0, none⟩]) 0 with streams := [(6, awayStream)] }
    let bs : List Byte := [9, 0, 5, 0, 0x21]
    s.forwarded 1 0x21 9 = some (1, rq 0x21 9 6 .acting) ∧ after (.reqdone 0 bs) s (fun t => stands t == [.done 5 0 0 6]) = true ∧
    after (.reqdone 0 [8, 0, 5, 0, 0x21]) s (fun t => t.logSeq = 1 && t.queues == s.queues) = true) := by decide +kernel
theorem witness_result : (let s := { linked (q1 0 0 [] []) 0 with streams := [(6, awayStream)] }
    s.resultRoom 1 = true ∧ s.openUnposted 6 = false ∧
    after (.result 0 6 [resultBytes 0 0 3 1 20 0 []]) s (fun t => t.cqTail 1 = 1 && (t.stream 6).map (·.rseq) == some 21) = true ∧
    after (.result 0 5 []) s (fun t => t.logSeq = 1) = true) := by decide +kernel
theorem witness_locate : (let s := { linked up 0 with streams := [(6, awayStream)] }
    after (.locate 0 6 2) s (fun t => (t.stream 6).map (·.runsOn) == some (some 2)) = true ∧ after (.locate 0 5 2) s (fun t => t.logSeq = 1) = true) := by decide +kernel
theorem witness_report : (let s := { linked up 0 with power := { up.power with stook := 3 } }
    s.isManager = true ∧ after (.report 0 18000 9000 700) s (fun t => t.power.reports == [(1, (18000, 9000, 700))]) = true) := by decide +kernel
theorem witness_share : (let s := { linked up 0 with power := { up.power with stook := 1 } }
    s.isManager = false ∧ after (.share 0 12000 4) s (fun t => t.power.mgr == some 1 && t.fld Reg.PWR_SHAREMW 0 16 = 12000) = true ∧
    after (.share 0 12000 4) { s with power := { s.power with mgr := some 2 } } (fun t => t.logSeq = 1) = true) := by decide +kernel
/-- A tick master, in a slice. -/
def master : State := linked (ticking (up.setFld Reg.TICK_STOOK 0 2 3) .slice) 0
theorem witness_workend : master.isMaster = true ∧ after (.workend 0 master.tickNo 900) master (fun t => t.tick.members == [(1, 900)]) = true := by decide +kernel
theorem witness_classmsg : (let s := linked (follower .fallow) 0
    after (.classmsg 0 1 1 250 3) s (fun t => t.tick.classed && t.tick.master == some 1 && t.tick.nextLag = 250 && decide (t.tick.nextCls = .shed)) = true ∧
    after (.classmsg 0 1 1 250 3) { s with tick := { s.tick with master := some 2 } } (fun t => t.logSeq = 1 && !t.tick.classed) = true) := by decide +kernel
theorem witness_rejoin : after (.rejoin 0) { master with tick := { master.tick with excluded := [(1, 3)] } } (fun t => t.tick.members == [(1, 0)]) = true := by decide +kernel
theorem witness_leave : after (.leave 0) (linked up 0) (fun t => t.bit Reg.GDN_STOOK 9 && !t.bit Reg.GDN_STOOK 5 && t.lossDue.contains 1) = true := by decide +kernel
theorem witness_eject : (let s := linked (follower .slice) 0
    after (.eject 0 2 0) { s with tick := { s.tick with master := some 1 } } (fun t => t.bit Reg.GDN_STOOK 10 && t.lossDue.contains 2) = true) := by decide +kernel
theorem witness_member_eject : (let s := { master.setFld Reg.GDN_LOSS 8 8 16 with tick := { master.tick with excluded := [(1, 16)] } }
    s.live 1 = true ∧ after (.memberEject 1) s (fun t => t.bit Reg.GDN_STOOK 9 && !t.live 1) = true) := by decide +kernel
theorem witness_peer_loss : (let s := { up.setFld Reg.GDN_LOSS 0 8 20 with ports := up.ports.set 0 { idlePort with peerVariant := 1, leftActive := 100 } }
    s.linkUp 0 = false ∧ after (.peerLossTimeout 0) s (fun t => t.bit Reg.GDN_STOOK 9 && t.lossDue.contains 1 && decide (20100 ≤ t.now)) = true) := by decide +kernel

/-! ### Witnesses: ports -/

/-- A message flit with SEQ 0 in class 1. -/
def flit : Flit := ⟨true, 1, 1, 0, 16, false, false, 0, false, 0, 0⟩
/-- Port 0 with flits 4, 5 and 6 unacknowledged. -/
def sent3 : State := { linked up 0 with ports := up.ports.set 0 { idlePort with replay := [⟨4, 0, 0⟩, ⟨5, 0, 0⟩, ⟨6, 1, 0⟩], txNext := 7 } }

theorem witness_flit : (linked up 0).ports.length = 3 ∧ badFlit flit = false ∧
    after (.flitReceive 0 { flit with crcOk := false }) (linked up 0) (fun t => t.fld (gdnReg Reg.GDN_CRCCNT 0) 0 32 = 1 && (t.port 0).nak) = true ∧
    after (.flitReceive 0 { flit with reserved := true }) (linked up 0) (fun t => (t.port 0).nak && t.logSeq = 1) = true ∧
    after (.flitReceive 0 { flit with seq := 1 }) (linked up 0) (fun t => (t.port 0).nak && (t.port 0).rxNext = 0) = true ∧
    after (.flitReceive 0 flit) (linked up 0) (fun t => (t.port 0).rxNext = 1 && (t.port 0).rxLast == some 0 && (t.port 0).rxHeld == [0, 1, 0, 0, 0] && t.logSeq = 0) = true := by
  decide +kernel
/-- The sequence number and the count of freed flits both wrap. -/
theorem witness_flit_wraps : (let s := { linked up 0 with ports := up.ports.set 0 { idlePort with rxNext := 4095, creditSeen := [250, 0, 0, 0, 0], replay := [⟨5, 0, 0⟩, ⟨6, 0, 0⟩] } }
    after (.flitReceive 0 { flit with seq := 4095 }) s (fun t => (t.port 0).rxNext = 0) = true ∧
    after (.flitReceive 0 { flit with ftype := 0, cls := 0, len := 0, ack := 5, credit := 3 }) s (fun t => (t.port 0).credits == [105, 32, 4, 4, 8] && (t.port 0).replay == [⟨6, 0, 0⟩]) = true) := by
  decide +kernel
theorem witness_flit_nak : after (.flitReceive 0 { flit with ftype := 0, cls := 0, len := 0, ack := 3, nak := true }) sent3 (fun t =>
    (t.port 0).replay.map (·.resent) == [1, 1, 1] && t.fld (gdnReg Reg.GDN_REPLAYCNT 0) 0 32 = 3) = true := by decide +kernel
theorem witness_flit_retrain : badFlit { flit with ftype := 2, cls := 0, retrain := true } = false ∧
    after (.flitReceive 0 { flit with ftype := 2, cls := 0, retrain := true }) sent3 (fun t => t.linkState 0 = 5 && (t.port 0).replay == (sent3.port 0).replay) = true := by
  decide +kernel
theorem witness_ack_timeout : after (.ackTimeout 0) sent3 (fun t => (t.port 0).stalls = 1 && (t.port 0).replay.map (·.resent) == [1, 1, 1]) = true ∧
    after (.ackTimeout 0) { sent3 with ports := sent3.ports.map fun p => { p with stalls := 2 } } (fun t => t.linkState 0 = 5 && t.fld (gdnReg Reg.GDN_RETRAINCNT 0) 0 32 = 1) = true := by
  decide +kernel
/-- Port 2 in a link state at a training step. -/
def trains (link : Nat) (step : TrainStep) (attempts : Nat) : State :=
  { (up.setReg (gdnReg Reg.GDN_CTRL 2) 1).setLink 2 link with ports := up.ports.set 2 { idlePort with step := step, attempts := attempts } }
theorem witness_gdn_enable : after (.gdnEnable .hsp 2 1) up (fun t => t.linkState 2 = 1 && (t.port 2).step == .lock) = true ∧
    after (.gdnEnable .hsp 2 0) (trains 4 .lock 0) (fun t => t.linkState 2 = 0 && !t.live 3) = true ∧
    after (.gdnRetrain .hsp 2 3) (trains 4 .lock 0) (fun t => t.linkState 2 = 5 && t.fld (gdnReg Reg.GDN_RETRAINCNT 2) 0 32 = 1) = true := by decide +kernel
theorem witness_training : after (.blockLockAcquired 2) (trains 1 .lock 0) (fun t => t.linkState 2 = 2 && t.fld (gdnReg Reg.GDN_LANE 2) 0 4 = 15) = true ∧
    after (.blockLockAcquired 2) (trains 5 .lock 0) (fun t => t.linkState 2 = 5 && (t.port 2).step == .deskew) = true ∧
    after (.deskewDone 2 8 true 5) (trains 2 .deskew 0) (fun t => t.linkState 2 = 3 && t.fld (gdnReg Reg.GDN_LANE 2) 16 4 = 8 && t.bit (gdnReg Reg.GDN_LANE 2) 12) = true ∧
    after (.deskewDone 2 0 false 0) (trains 5 .deskew 0) (fun t => t.linkState 2 = 5 && (t.port 2).step == .param) = true := by decide +kernel
/-- Chip 3 answers over its port 0 to this chip's port 2; one of a wrong port is refused. -/
theorem witness_param : (let p : ParamFlit := ⟨3, 0, 1, false, 9, 0, 1, [0, 0, 0, 0], 0, [0, 0, 0, 0, 0]⟩
    (trains 3 .param 0).paramOk 2 p = true ∧
    after (.paramReceive 2 p) (trains 3 .param 0) (fun t => t.linkState 2 = 4 && t.live 3 && (t.port 2).peerIncarn = 9) = true ∧
    (trains 3 .param 0).paramOk 2 { p with port := 1 } = false ∧
    after (.paramReceive 2 { p with port := 1 }) (trains 3 .param 0) (fun t => t.linkState 2 = 7 && t.logSeq = 1) = true) := by decide +kernel
theorem witness_training_limit : after (.trainingLimit 2) (trains 3 .param 0) (fun t => t.linkState 2 = 1 && (t.port 2).step == .lock) = true ∧
    after (.trainingLimit 2) (trains 5 .param 6) (fun t => t.linkState 2 = 5 && (t.port 2).attempts = 7) = true ∧
    after (.trainingLimit 2) (trains 5 .param 7) (fun t => t.linkState 2 = 6) = true := by decide +kernel
theorem witness_lane_loss : after (.laneLockLoss 2 3) (trains 4 .lock 0) (fun t => t.linkState 2 = 5 && t.logSeq = 1 && !t.live 3) = true ∧
    after (.markerError 2) (trains 4 .lock 0) (fun t => t.linkState 2 = 5 && t.logSeq = 1 && t.fld (gdnReg Reg.GDN_MARKERCNT 2) 0 32 = 1) = true := by decide +kernel

/-! ### Witnesses: power and temperature -/

/-- Sensor 0 with limits 105, 115 and H 5; the others read 25 degrees and are masked or have no limit of concern. Readings are quarter degrees. -/
def sensors (warn hot trip : List Nat) : State :=
  { (List.range 24).foldl (fun s i => s.setReg (Reg.PWR_TSLIM + 4 * i) 0x00057369) (up.setReg Reg.PWR_TSCFG 130) with
    power := { up.power with warn := warn, hot := hot, trip := trip } }
/-- Sensor 0 reads x, the others 25 degrees. -/
def reads (x : Option Int) : List SensorReading := x :: List.replicate 23 (some 100)

/-- At each limit, and at the limit less H and one below. -/
theorem witness_sensor_warn : after (.sensorRead (reads (some 420))) (sensors [] [] []) (fun t => t.power.warn == [0] && t.power.hot == [] && t.bit Reg.PWR_STAT 0) = true ∧
    after (.sensorRead (reads (some 419))) (sensors [] [] []) (fun t => t.power.warn == []) = true ∧
    after (.sensorRead (reads (some 400))) (sensors [0] [] []) (fun t => t.power.warn == [0]) = true ∧
    after (.sensorRead (reads (some 399))) (sensors [0] [] []) (fun t => t.power.warn == []) = true := by decide +kernel
theorem witness_sensor_hot : after (.sensorRead (reads (some 460))) (sensors [] [] []) (fun t => t.power.hot == [0] && t.bit Reg.PWR_STAT 16) = true ∧
    after (.sensorRead (reads none)) (sensors [] [] []) (fun t => t.power.warn == [0] && t.power.hot == [0] && !t.bit Reg.PWR_TSVAL 31) = true := by decide +kernel
/-- TRIP at two readings in a row. -/
theorem witness_sensor_trip : after (.sensorRead (reads (some 520))) (sensors [] [] [0]) (fun t => decide (t.aon.phase = .powerdown)) = true ∧
    after (.sensorRead (reads (some 520))) (sensors [] [] []) (fun t => decide (t.aon.phase = .on)) = true := by decide +kernel
theorem witness_thermal : (let s := fun (hot : List Nat) (c : Nat) => { (up.setReg Reg.PWR_CAPMW 18000).setReg Reg.PWR_CAPLIM 0x46501000 with power := { up.power with hot := hot, thermalCap := some c } }
    (s [] 9000).coreUp 4 = true ∧ after .thermalDerateStep (s [3] 9000) (fun t => t.power.thermalCap == some 8750) = true ∧
    after .thermalDerateStep (s [3] 4200) (fun t => t.power.thermalCap == some 4096) = true ∧ after .thermalDerateStep (s [] 9000) (fun t => t.power.thermalCap == some 9250) = true ∧
    after .thermalDerateStep (s [] 17750) (fun t => t.power.thermalCap == none) = true) := by decide +kernel
theorem witness_cap : (let s := up.setReg Reg.PWR_CAPLIM 0x46501000
    after (.capWrite .hsp 0x1000) s (fun t => t.fld Reg.PWR_CAPMW 0 16 = 0x1000 && t.logSeq = 0) = true ∧
    after (.capWrite .hsp 0x0FFF) s (fun t => t.fld Reg.PWR_CAPMW 0 16 = 0x1000 && t.bit Reg.PWR_STAT 7 && t.logSeq = 1) = true ∧
    after (.capWrite .hsp 0x4651) s (fun t => t.fld Reg.PWR_CAPMW 0 16 = 0x4650 && t.logSeq = 1) = true) := by decide +kernel
/-- With ORDER naming each class once, a cap above what the classes ask for, and one that the base load takes. -/
theorem witness_share_interval : (let s := ticking ((up.setReg Reg.PWR_CAPMW 18000).setReg Reg.PWR_CTRL 0x24) .slice
    [s.fld Reg.PWR_CTRL 0 2, s.fld Reg.PWR_CTRL 2 2, s.fld Reg.PWR_CTRL 4 2].Perm [0, 1, 2] ∧ s.effCap.1 = 18000 ∧
    (let raw : RawEstimate := ⟨1, 1, 1, 1⟩
     s.baseLoad raw + s.classEstimate raw.links + s.classEstimate raw.memory + s.classEstimate raw.compute ≤ 32768 * s.effCap.1 ∧
     after (.powerShareInterval raw) s (fun t => t.now = s.now + 10 && t.fld Reg.PWR_DUTY 0 6 = 0 && t.fld Reg.PWR_DUTY 16 6 = 0) = true)) := by decide +kernel
theorem witness_share_base : (let s := ticking (((up.setReg Reg.PWR_CAPMW 4000).setReg Reg.PWR_CTRL 0x24).setReg Reg.PWR_CAL 0x1000) .slice
    let raw : RawEstimate := ⟨5000, 0, 64, 64⟩
    32768 * s.effCap.1 ≤ s.baseLoad raw ∧ s.classEstimate raw.links = 0 ∧ s.classEstimate raw.memory ≠ 0 ∧
    after (.powerShareInterval raw) s (fun t => t.fld Reg.PWR_DUTY 0 6 = 0 && t.fld Reg.PWR_DUTY 8 6 = 63 && t.fld Reg.PWR_DUTY 16 6 = 63 && decide (63 ≤ t.fld Reg.PWR_DUTY 24 7)) = true ∧
    after (.powerShareInterval raw) up (fun t => t.fld Reg.PWR_DUTY 24 7 = 0) = true) := by decide +kernel

/-- Rail 2 of role 0 and rail 3 of role 1, the operating points 0 at 60 degrees and 7 at 110. -/
def railed : State :=
  (((up.setReg (Reg.PWR_RAIL + 8) 0x80FF0041).setReg (Reg.PWR_RAIL + 12) 0x90FF0042).setReg Reg.GLOBAL_VOP 0x003C0258).setReg (Reg.GLOBAL_VOP + 28) 0x006E0320
/-- What the rails answer. -/
def answers (a b : RailReading) : List RailReading := [.failed, .failed, a, b]

theorem witness_pmbus : railed.coreUp 4 = true ∧ railed.rails [0, 1] = [2, 3] ∧ railed.rails [1] = [3] ∧
    after (.pmbusPeriod (answers (.pout 3000) (.pout 4000)) false) railed (fun t => t.fld Reg.PWR_MEAS 0 16 = 7000 && t.bit Reg.PWR_MEAS 31) = true ∧
    after (.pmbusPeriod (answers (.pout 3000) .failed) false) { railed with power := { railed.power with railMw := [(3, 4100)], railFail := [(3, 2)] } } (fun t =>
      !t.bit Reg.PWR_MEAS 31 && t.bit Reg.PWR_STAT 4 && keyGet t.power.railMw 3 == some 4100) = true := by decide +kernel
theorem witness_pmb_alert : after (.pmbAlert [0, 0, 0, 8]) railed (fun t => t.logSeq = 1 && t.bit Reg.PWR_STAT 5 && t.sent.contains (.pmbus 0x42 0xFF 0x03 0)) = true := by decide +kernel
/-- Pairs on the line of GAIN 1.25 and OFFSET 40; too few of them; and some without a span of 500 mW. -/
theorem witness_calibration : (let s := fun (n step : Nat) => { up.setReg Reg.PWR_CAL 0x1000 with power := { up.power with pairs := (List.range n).map fun i => (1040 + 5 * step * i / 4, 800 + step * i) } }
    after .calibrationFit (s 50 40) (fun t => t.fld Reg.PWR_CAL 0 16 = 0x1400 && t.calOffset = 40 && t.power.pairs == []) = true ∧
    after .calibrationFit (s 49 40) (fun t => t.reg Reg.PWR_CAL = 0x1000 && t.power.pairs == []) = true ∧
    after .calibrationFit (s 60 0) (fun t => t.fld Reg.PWR_CAL 0 16 = 0x1000) = true) := by decide +kernel
/-- 10 mV off is within, 11 mV is not; no rail of role 1; an invalid sensor. -/
theorem witness_voltage : (let s := fun (check : Option Nat) => { railed with power := { railed.power with vCheck := check } }
    after (.voltageSelection (some 611)) (s (some 600)) (fun t => t.fld Reg.PWR_VOP 16 3 = 7 && t.fld Reg.PWR_VOP 0 10 = 800 && t.bit Reg.PWR_STAT 8 && t.logSeq = 1) = true ∧
    after (.voltageSelection (some 610)) (s (some 600)) (fun t => !t.bit Reg.PWR_STAT 8 && t.logSeq = 0) = true ∧
    railed.hottestShown = none ∧ after (.voltageSelection none) (s none) (fun t => t.fld Reg.PWR_VOP 16 3 = 7) = true ∧
    after (.voltageSelection none) up (fun t => t.bit Reg.PWR_STAT 8 && t.power == up.power) = true) := by decide +kernel
/-- Every sensor shows 61 degrees: with 5 more, operating point 0 (60) is too low. -/
theorem witness_voltage_up : (let s := (List.range 24).foldl (fun s i => s.setReg (Reg.PWR_TSVAL + 4 * i) (0x80000000 + 244)) railed
    s.hottestShown = some 244 ∧ s.pointFor 264 = 7 ∧
    after (.voltageSelection none) s (fun t => t.fld Reg.PWR_VOP 16 3 = 7 && t.sent.contains (.pmbus 0x42 0xFF 0x21 800)) = true) := by decide +kernel
theorem witness_stook_share : (let s := fun (v : Word) => linked (up.setReg Reg.PWR_STOOK v) 0
    let s1 := { s 1 with power := { up.power with mgr := some 1 } }
    after .stookSharePeriod (s 0) (fun t => t.reg Reg.PWR_SHAREMW = 0 && t.sent == []) = true ∧
    s1.live 1 = true ∧ after .stookSharePeriod s1 (fun t => t.stookOn && t.sent == [.gydan 0 0x20 1 [s1.ownCap.1, 0, 0]]) = true ∧
    after .stookSharePeriod ((s 3).setReg Reg.PWR_STOOKCAPMW 30000) (fun t => t.isManager && t.power.shares.map Prod.fst == [0, 1] &&
      decide ((t.power.shares.map Prod.snd).sum ≤ 30000)) = true) := by decide +kernel
theorem witness_share_timeout : (let s := { up with power := { up.power with stook := 1, shareAt := some 100 } }
    after .shareTimeout s (fun t => t.bit Reg.PWR_STAT 10 && t.power.shareLost && t.logSeq = 1 && decide (20100 ≤ t.now)) = true) := by decide +kernel

/-! ### Witnesses: power states, resets, the keep cell -/

/-- The engine in a power state. -/
def inPhase (p : PowerPhase) : State := { up with aon := { up.aon with phase := p, phaseAt := 1000, offAt := 1000 }, now := 1000 }

theorem witness_on_req : after (.onReqChange true) (inPhase .off) (fun t => t.aon.latch && t.bit Reg.GLOBAL_PWRSTAT 1) = true ∧
    after (.onReqChange false) (linked (ticking up .slice) 0) (fun t => decide (t.aon.phase = .powerdown) && decide (t.tick.phase = .stopped) &&
      t.sent.contains (.gydan 0 0x40 1 []) && t.newest.map (·.code) == some 3) = true ∧
    after (.onReqChange false) (inPhase .powerupA) (fun t => decide (t.aon.phase = .off) && t.aon.offAt = 1000) = true ∧
    after (.onReqChange false) (inPhase .off) (fun t => decide (t.aon.phase = .off) && !t.aon.latch) = true := by decide +kernel
theorem witness_powerup : after .powerupStart (inPhase .off) (fun t => decide (t.aon.phase = .powerupA) && decide (21000 ≤ t.now)) = true ∧
    after .powerupStart { inPhase .off with aon := { (inPhase .off).aon with tripHold := true } } (fun t => decide (t.aon.phase = .off)) = true := by decide +kernel
theorem witness_release : (let s := { inPhase .powerupA with t0 := [(4, 4)], streams := [(6, st0)] }
    after (.releaseStep ⟨2, 1⟩) s (fun t => decide (t.aon.phase = .powerupB) && t.t0 == [] && t.streams == [] &&
      t.newest.map (fun e => (e.code, e.arg1)) == some (1, 6)) = true) := by decide +kernel
theorem witness_ready : (let s := fun (boot : Nat) => { inPhase .powerupB with aon := { (inPhase .powerupB).aon with pins := (boot, 0) } }
    (s 2).nv.fitted = 0 ∧ after (.ready []) (s 2) (fun t => decide (t.aon.phase = .on) && t.bit Reg.NVC_BOOTSTAT 31) = true ∧
    (s 1).chooseSlot false [] = none ∧ after (.ready []) (s 1) (fun t => decide (t.aon.phase = .on) && t.fld Reg.NVC_BOOTSTAT 0 8 = 3) = true) := by decide +kernel
theorem witness_off : after .powerdownOff (inPhase .powerdown) (fun t => decide (t.aon.phase = .off) && decide (6200 ≤ t.now)) = true ∧
    after (.supplyLoss true) { up with t0 := [(4, 4)] } (fun t => decide (t.aon.phase = .off) && t.t0 == [] && t.newest.map (fun e => (e.code, e.arg1)) == some (5, 2)) = true := by
  decide +kernel
theorem witness_resets : (let s := { up with t0 := [(4, 4)], host := [(5, 5)] }
    after (.systemReset .request) s (fun t => t.aon.held && decide (t.aon.phase = .powerupB) && t.t0 == [] && t.host == [(5, 5)] &&
      t.newest.map (fun e => (e.code, e.arg1)) == some (6, 2)) = true ∧
    after .resetNAssert s (fun t => t.aon.held && !t.aon.resetN && t.newest.map (fun e => (e.code, e.arg1)) == some (6, 1)) = true) := by decide +kernel
/-- 1.00 V keeps the domain running from the cell, 0.999 V does not. -/
theorem witness_to_keep : after (.aonToKeep 1000) up (fun t => t.aon.running && t.aon.onCell.isSome) = true ∧
    after (.aonToKeep 999) up (fun t => !t.aon.running && decide (t.aon.phase = .off)) = true := by decide +kernel
theorem witness_aon_start : (let s := { inPhase .off with aon := { (inPhase .off).aon with running := false } }
    after .retentionSentinelSet s (fun t => t.aon.sentinel) = true ∧ after .aonStart s (fun t => t.aon.running && t.store == s.store && !t.bit Reg.GLOBAL_PWRSTAT 4) = true ∧
    after .aonStart { s with aon := { s.aon with sentinel := true } } (fun t => t.store.mono = 0 && t.bit Reg.GLOBAL_PWRSTAT 4 && t.newest.map (fun e => (e.code, e.arg1)) == some (0x0A, 1)) = true ∧
    after .aonStart { s with aon := { s.aon with copies := [] } } (fun t => t.newest.map (fun e => (e.code, e.arg1)) == some (0x0A, 2)) = true) := by decide +kernel
theorem witness_core_restart : after (.controlCoreRestart 4) up (fun t => t.restarting.contains 4 && t.bit Reg.PWR_STAT 17 && t.bit (Reg.CCMB_CORESTAT + 16) 1 && t.logSeq = 1 &&
    after (.coreReturn 4) t (fun u => !u.restarting.contains 4 && u.bit (Reg.CCMB_CORESTAT + 16) 0 && !u.bit Reg.PWR_STAT 17)) = true := by decide +kernel
/-- A second restart within a second, and a firmware reset within ten. -/
theorem witness_firmware_reset : (let s := { up with firstRestart := [(2, 0)], now := 999999 }
    after (.controlCoreRestart 2) s (fun t => (List.range 6).all t.restarting.contains && t.newest.map (fun e => (e.code, e.arg1, e.arg2)) == some (7, 1, 2)) = true ∧
    after (.controlCoreRestart 2) { s with now := 1000000 } (fun t => t.restarting == [2]) = true ∧
    after .cc3ReleaseOverrun up (fun t => t.newest.map (fun e => (e.code, e.arg1)) == some (7, 2)) = true ∧
    after (.firmwareReset .request) { up with firmwareAt := some 0, now := 9999999 } (fun t => t.aon.held && t.newest.map (fun e => (e.code, e.arg1)) == some (6, 3)) = true ∧
    after (.firmwareReset .escalation) { up with firmwareAt := some 0, now := 10000000 } (fun t => !t.aon.held && t.newest.map (fun e => (e.code, e.arg1)) == some (7, 1)) = true) := by
  decide +kernel
/-- A keep cell of TYPE 1, enabled and present, whose last sample was 1,500 mV and 400 µA. -/
def cell (float changed : Bool) : State :=
  { ((up.setReg Reg.GLOBAL_KEEPCFG 0x11).setBit Reg.GLOBAL_KEEPSTAT 31 true).setBit Reg.GLOBAL_KEEPSTAT 29 float with
    aon := { up.aon with keep := ⟨some (1500, 400), 0, 0, changed, false⟩ } }
theorem witness_keep_sample : (cell false false).keepMay = true ∧ (cell false false).keepFitted = true ∧
    after (.keepSample 1600 400) (cell false false) (fun t => t.bit Reg.GLOBAL_KEEPSTAT 30 && t.bit Reg.GLOBAL_KEEPSTAT 29) = true ∧
    after (.keepSample 1599 400) (cell false false) (fun t => t.bit Reg.GLOBAL_KEEPSTAT 30 && !t.bit Reg.GLOBAL_KEEPSTAT 29) = true ∧
    after (.keepSample 1600 99) (cell false false) (fun t => t.aon.keep.changed && t.newest.map (·.code) == some 0x0B) = true ∧
    after (.keepSample 1701 400) (cell false false) (fun t => t.bit Reg.GLOBAL_KEEPSTAT 26 && t.newest.map (·.code) == some 0x0D) = true ∧
    after (.keepSample 1500 400) up (fun t => !t.bit Reg.GLOBAL_KEEPSTAT 30) = true := by decide +kernel
theorem witness_probe : after (.presenceProbe 19) ((cell false true).setBit Reg.GLOBAL_KEEPSTAT 31 false) (fun t => t.bit Reg.GLOBAL_KEEPSTAT 31 && t.bit Reg.GLOBAL_KEEPSTAT 27 &&
      t.newest.map (·.code) == some 0x0C) = true ∧
    after (.presenceProbe 19) ((cell false false).setBit Reg.GLOBAL_KEEPSTAT 31 false) (fun t => t.bit Reg.GLOBAL_KEEPSTAT 31 && !t.bit Reg.GLOBAL_KEEPSTAT 27) = true ∧
    after (.presenceProbe 20) (cell true false) (fun t => t.aon.keep.changed && t.newest.map (·.code) == some 0x0B) = true := by decide +kernel

/-! ### Witnesses: audio and camera -/

/-- Audio port 1, enabled and valid: 2 slots of 32 bits, 24-bit samples, both received. -/
def audioOn (out : List (List Int)) : State :=
  { (((((up.setReg (apReg Reg.AP_CTRL 1) 1).setReg (apReg Reg.AP_STAT 1) 1).setReg (apReg Reg.AP_FRAME 1) 0x01021F01).setReg (apReg Reg.AP_FSYNC 1) 0x00050020).setReg
      (apReg Reg.AP_INMASK 1) 3).setReg (apReg Reg.AP_RATECFG 1) 0x000A0005 with
    audio := { idleAudio with ports := idleAudio.ports.set 1 { idleAudioPort with output := out, reprime := false } } }

/-- The 24 top bits of a slot of 32 are kept; a slot of 0x80000000 is the most negative sample. -/
theorem witness_audio_frame : (audioOn []).apOn 1 = true ∧ (audioOn []).apActive 1 = true ∧
    after (.audioFrame 1 ⟨[0x123456FF, 0x80000000], 700, false⟩) (audioOn [[256, 511]]) (fun t => (t.ap 1).input == [[0x12345600, -0x80000000]] && (t.ap 1).output == [] &&
      (t.ap 1).loop == [[256, 256]] && t.bit (apReg Reg.AP_STAT 1) 1) = true ∧
    after (.audioFrame 1 ⟨[1, 2], 700, false⟩) (audioOn []) (fun t => (t.ap 1).loop == [[0, 0]] && t.reg (apReg Reg.AP_ZEROCNT 1) = 0) = true ∧
    after (.audioFrame 0 ⟨[1, 2], 700, false⟩) (audioOn []) (fun t => t == audioOn []) = true := by decide +kernel
/-- 48 kHz over 100 ms of 38.4 MHz: 4,801 starts in 3,840,000 cycles are no deviation. -/
theorem witness_rate_window : (audioOn []).apRate100 1 = 480 ∧ rateDev 480 4801 3840000 = 0 ∧
    after (.rateWindow 1 1 5) (audioOn []) (fun t => !t.bit (apReg Reg.AP_RATE 1) 31) = true ∧
    after (.rateWindow 1 4801 3840000) (audioOn []) (fun t => t.bit (apReg Reg.AP_RATE 1) 31 && t.fld (apReg Reg.AP_RATEDEV 1) 0 16 = 0 && !t.bit (apReg Reg.AP_STAT 1) 2) = true ∧
    after (.rateWindow 1 4807 3840000) (audioOn []) (fun t => t.bit (apReg Reg.AP_STAT 1) 2 && t.logSeq = 1) = true := by decide +kernel
theorem witness_noclk : (let s := ((audioOn []).setBit (apReg Reg.AP_STAT 1) 1 true).updAp 1 fun p => { p with lastStart := some 400 }
    after (.audioNoclk 1) s (fun t => !t.bit (apReg Reg.AP_STAT 1) 1 && t.bit (apReg Reg.AP_STAT 1) 11 && t.logSeq = 1 && decide (1400 ≤ t.now)) = true) := by decide +kernel
theorem witness_nonaudio_hold : (let s := (audioOn []).updAp 1 fun p => { p with muted := [(1, 4)] }
    after (.nonaudioHoldExpiry 1 1) s (fun t => (t.ap 1).muted == []) = true ∧
    after (.nonaudioHoldExpiry 1 1) (s.setFld (apReg Reg.AP_NACFG 1) 16 8 1) (fun t => (t.ap 1).muted == [(1, 4)]) = true) := by decide +kernel

/-- The camera at work on channel 0: 2 lines of 64 RAW8 pixels (type 0x2A), its area at 0x100000. -/
def camOn (bufs : List BufState) (inFrame bad : Bool) (line : Nat) : State :=
  { ((up.setReg Reg.CAM_CTRL 0x00642A01).setReg Reg.CAM_STAT 1).setReg Reg.CAM_SIZE 0x00020040 with
    cam := { idleCam with area := some (0x100000, 0x2000), bufs := bufs, inFrame := inFrame, bad := bad, line := line } }
/-- One line. -/
def camLineOf (n : Nat) : LongPacket := ⟨0, 0x2A, List.replicate n 9, true, 0⟩

theorem witness_cam_start : (camOn [] false false 0).camActive = true ∧
    after (.camFrameStart 0) (camOn [.held, .free, .ready] false false 0) (fun t => t.cam.bufs == [.held, .filling, .ready] && t.cam.inFrame) = true ∧
    after (.camFrameStart 0) (camOn [.held, .ready, .held] false false 0) (fun t => t.cam.bufs == [.held, .filling, .held] && t.fld Reg.CAM_DROPCNT 0 32 = 1) = true ∧
    after (.camFrameStart 1) (camOn [.free, .free, .free] false false 0) (fun t => t.fld Reg.CAM_BADCNT 16 16 = 1 && !t.cam.inFrame) = true := by decide +kernel
theorem witness_cam_line : (camOn [] true false 1).camLine = 64 ∧ (camOn [] true false 1).camH = 2 ∧
    after (.camLongPacket (camLineOf 64)) (camOn [.free, .filling, .ready] true false 1) (fun t => t.cam.line = 2 && cellGet t.t0 (0x100000 + 4096 + 128 + 64) = 9 &&
      cellGet t.t0 (0x100000 + 4096 + 128 + 127) = 9 && t.t0.length = 64) = true ∧
    after (.camLongPacket (camLineOf 63)) (camOn [.free, .filling, .ready] true false 1) (fun t => t.cam.bad && t.logSeq = 1 && t.t0 == []) = true ∧
    after (.camLongPacket (camLineOf 64)) (camOn [.free, .free, .free] false false 0) (fun t => t.logSeq = 1 && t.t0 == []) = true := by decide +kernel
theorem witness_cam_end : after (.camFrameEnd 0) (camOn [.ready, .filling, .held] true false 2) (fun t => t.cam.bufs == [.free, .ready, .held] && t.fld Reg.CAM_FRAMECNT 0 32 = 1 &&
      t.fld Reg.CAM_DROPCNT 0 32 = 1) = true ∧
    after (.camFrameEnd 0) (camOn [.free, .filling, .held] true false 1) (fun t => t.cam.bufs == [.free, .free, .held] && t.fld Reg.CAM_BADCNT 0 16 = 1 && t.fld Reg.CAM_FRAMECNT 0 32 = 0) = true ∧
    after .camNoFrame (camOn [.free, .free, .free] false false 0) (fun t => t.bit Reg.CAM_STAT 10 && t.logSeq = 1 && decide (100000 ≤ t.now)) = true := by decide +kernel

/-! ### Witnesses: the serial ports -/

/-- The header of a frame that falls at 1,000 × 10 ns. -/
def head : HspHead := ⟨5, 1000, 1100, false⟩

theorem witness_hsp_nop : up.served .hsp = true ∧ up.hsp.readyAt ≤ head.fall ∧
    after (.hspNop head) up (fun t => t.hsp.reply == hspPack 0 0 5 0 false false false [] && t.sent == [.hsp (hspPack 0 0 0 8 false false false [])] && t.fld Reg.HSP_FRAMECNT 0 32 = 1 &&
      t.hsp.readyAt = 1200) = true := by decide +kernel
theorem witness_hsp_rd : after (.hspRd head 0x010004 2) up (fun t => t.hsp.reply == hspPack 1 1 5 0 false false false [20, 15] && t.hsp.readyAt = 1202) = true := by decide +kernel
theorem witness_hsp_wr : after (.hspWr head (BitVec.ofNat 24 Reg.TICK_LOCKTOL) [600]) up (fun t => t.reg Reg.TICK_LOCKTOL = 600 && t.hsp.reply == hspPack 2 0 5 0 false false false []) = true := by
  decide +kernel
theorem witness_hsp_mrd : after (.hspMrd head 0x2FFFFFC 1) { up with t0 := [(0x2FFFFFC, 0x34), (0x2FFFFFD, 0x12)] } (fun t =>
    t.hsp.reply == hspPack 3 0 5 0 false false false [0x1234]) = true := by decide +kernel
theorem witness_hsp_mwr : after (.hspMwr head 0x10FFC [0x01020304]) staged (fun t => t.t0 == [(0x10FFC, 4), (0x10FFD, 3), (0x10FFE, 2), (0x10FFF, 1)] &&
      t.hsp.reply == hspPack 4 0 5 0 false false false []) = true ∧
    after (.hspMwr head 0x10FFC [0x01020304]) up (fun t => t.t0 == [] && t.logSeq = 1 && t.hsp.reply == hspPack 4 0 5 7 t.hspIntLow false false []) = true := by decide +kernel
theorem witness_hsp_repeat : after (.hspRepeat head) { up with hsp := { up.hsp with last := some [0x10080500, 9, 7] } } (fun t =>
      t.hsp.reply == [0x10090500, 9, hspCrc [0x10090500, 9]] && t.fld Reg.HSP_FRAMECNT 0 32 = 0) = true ∧
    after (.hspRepeat head) up (fun t => t.hsp.reply == hspPack 5 0 5 8 false false false []) = true := by decide +kernel
/-- A frame that falls one unit before the ready time; one at it whose HCRC is wrong. -/
theorem witness_hsp_rejected : after (.hspRejectedFrame head 0 [0x10000500]) { up with hsp := { up.hsp with readyAt := 1001 } } (fun t => t.fld Reg.HSP_REJCNT 0 32 = 1 &&
      t.bit Reg.HSP_STAT 8 && t.logSeq = 1 && t.hsp.reply == hspPack 1 0 5 6 t.hspIntLow false false []) = true ∧
    up.hspCheck 0 [0x10000500] = some 2 ∧
    after (.hspRejectedFrame head 0 [0x10000500]) { up with hsp := { up.hsp with readyAt := 1000 } } (fun t => t.hsp.reply == hspPack 1 0 5 2 t.hspIntLow false false []) = true := by decide +kernel
theorem witness_hsp_cfg : after .hspCfgApply (up.setReg Reg.HSP_CFG 3) (fun t => t.hsp.cpha && t.hsp.wire) = true := by decide +kernel
/-- Two bytes to select 1 with one captured behind them; a select that is not enabled; a transfer already running. -/
theorem witness_psp : (let s := (up.setReg (Reg.PSP_SELCLK + 8) 0x01000008).setReg Reg.PSP_TXBUF 0x0201
    after (.pspTransferStart .hsp 0x10000202) s (fun t => t.bit Reg.PSP_XCTRL 30 && t.psp == some ⟨1, [1, 2], 1⟩ && t.sent == [.psp 1 [1, 2]] &&
      after (.pspTransferDone [0x7E]) t (fun u => u.psp == none && u.bit Reg.PSP_XSTAT 0 && u.regBytes Reg.PSP_RXBUF 1 == [0x7E]) &&
      after (.pspTransferStart .hsp 0x10000202) t (fun u => u.bit Reg.PSP_XSTAT 1 && u.psp == t.psp)) = true ∧
    after (.pspTransferStart .hsp 0x20000202) s (fun t => t.bit Reg.PSP_XSTAT 1 && t.psp == none) = true) := by decide +kernel

/-! ### Witnesses: the flash, keys, paths and links -/

/-- A user record of 128 bytes with an empty configuration section (Tables 18-2 to 18-4): GEN 3. -/
def userRecord : List Byte :=
  [84, 78, 86, 85, 1, 0, 0, 0, 3, 0, 0, 0, 128, 0, 0, 0, 1, 0, 0, 0, 234, 73, 163, 15] ++ List.replicate 40 0 ++
  [2, 0, 0, 0, 0, 0, 0, 0, 128, 0, 0, 0, 0, 0, 0, 0] ++ List.replicate 48 0
/-- It lies at 0x1000 of host memory, for an update of the user pair. -/
def updating : State :=
  { (((up.setReg Reg.NVC_UPDSRC_LO 0x1000).setReg Reg.NVC_UPDLEN 128).setFld Reg.NVC_BOOTSTAT 20 2 3) with host := bytesAt 0x1000 (userRecord.map BitVec.toNat) }

set_option maxRecDepth 100000 in
theorem witness_update_user : (updating.nvRecord true [] userRecord).isSome = true ∧ cellRead updating.host 0x1000 128 = userRecord ∧ updating.flashUsable = true ∧ updating.coreUp 0 = true ∧
    after (.nvcUpdateUser .pcie 1 [] .ok) updating (fun t => t.bit Reg.NVC_UPDCTRL 30 && t.nv.update.map (fun j => (j.target, j.slot)) == some (0, 0) &&
      after .flashBusyTimeout t (fun u => u.nv.update == none && u.fld Reg.NVC_UPDSTAT 8 8 = 3 && u.logSeq = 1) &&
      after (.nvcUpdateDone false) t (fun u => u.bit Reg.NVC_UPDSTAT 1 && u.logSeq = 1) &&
      after (.nvcUpdateDone true) t (fun u => u.bit Reg.NVC_UPDSTAT 0 && (u.slotPair true).committed == some 0)) = true := by decide +kernel
theorem witness_update_refused : after (.nvcUpdateUser .pcie 1 [] .ok) { updating with host := [] } (fun t => t.bit Reg.NVC_UPDSTAT 1 && t.fld Reg.NVC_UPDSTAT 8 8 = 1) = true ∧
    after (.nvcUpdateFactory .pcie 1 [] .ok) (updating.setReg Reg.NVC_UPDLEN 100) (fun t => t.bit Reg.NVC_UPDSTAT 2 && t.nv.update == none) = true ∧
    after (.nvcHostBoot .pcie 1 [] .ok) updating (fun t => t.bit Reg.NVC_UPDSTAT 2) = true ∧ after .flashBusyTimeout up (fun t => t == up) = true := by decide +kernel
theorem witness_provision : (let s := up.setReg Reg.SEC_PROVHASH 0x77
    s.owned = false ∧ after (.secProvision .hsp 0x5E000000) s (fun t => t.reg Reg.SEC_OWNHASH = 0x77 && t.bit Reg.SEC_STAT 4) = true ∧
    after (.secProvision .hsp 0x5F000000) s (fun t => t.reg Reg.SEC_OWNHASH = 0 && t.logSeq = 1) = true) := by decide +kernel
theorem witness_debug_lock : after (.debugLock .hsp 1) (up.setBit Reg.SEC_STAT 8 true) (fun t => t.bit Reg.SEC_DBGCTRL 0 && !t.bit Reg.SEC_STAT 8) = true := by decide +kernel
theorem witness_evacuation : after (.glnEvacGo .hsp 0x100003FF) up (fun t => t.bit Reg.GLN_EVAC 31 && t.fld Reg.GLN_EVAC 0 10 = 1023 &&
    after (.glnEvacGo .hsp 0x10000005) t (fun u => u.fld Reg.GLN_EVAC 0 10 = 1023)) = true := by decide +kernel
theorem witness_link : after (.pcieLinkUp 4 1) up (fun t => t.fld Reg.HOST_STAT 8 5 = 4 && t.fld Reg.HOST_STAT 16 4 = 1) = true ∧
    after (.refreshRateChange true false) up (fun t => t.bit Reg.MEMCH_STAT 1 && !t.bit Reg.MEMCH_STAT 2) = true := by decide +kernel
/-- The eight instructions of the test access port, the debug access path closed. -/
theorem witness_tap : up.tapOn = true ∧ up.bit Reg.SEC_STAT 8 = false ∧ (inPhase .off).tapOn = false ∧
    (let s := up.setReg Reg.GLOBAL_IDCODE 0x12345001
     after .idcode s (fun t => t.jtag.captured = 0x12345001) = true ∧ after .tapReset s (fun t => decide (t.jtag.instr = .idcode)) = true ∧
     after (.samplePreload 3 5) s (fun t => t.jtag.cells = 5 && t.jtag.captured = 3 && after (.extest 6) t fun u => u.jtag.cells = 5 && decide (u.jtag.drive = .cells)) = true ∧
     after .highz s (fun t => decide (t.jtag.drive = .highz)) = true ∧ after .clamp s (fun t => decide (t.jtag.drive = .cells)) = true ∧
     after .debug s (fun t => decide (t.jtag.instr = .bypass)) = true ∧ after .bypass s (fun t => t.jtag.captured = 0) = true) := by decide +kernel
/-- One field of the reset table; the state the second part starts from. -/
theorem witness_reset : State.reset.fld Reg.PWR_VOP 16 3 = 7 ∧ (inPhase .powerupA).aon.phase = .powerupA := by decide +kernel

/-! ### Witnesses: a factory record -/

/-- A factory record of 384 bytes, GEN 5, with a boot section of 64 bytes and a signature of the vendor's: its key, its signature over the
first 192 bytes and its CRC were made for this test, with a CRC field that both the signature and the CRC take as it stands. -/
def factoryRecord : List Byte :=
  [84, 78, 86, 70, 1, 0, 1, 0, 5, 0, 0, 0, 128, 1, 0, 0, 2, 0, 0, 0, 120, 86, 52, 18] ++
  List.replicate 40 0 ++
  [1, 0, 0, 0, 0, 0, 0, 0, 128, 0, 0, 0, 64, 0, 0, 0, 15, 0, 0, 0, 0, 0, 0, 0, 192, 0, 0, 0, 192] ++
  List.replicate 35 0 ++
  [56, 147, 163, 4, 0, 1] ++
  List.replicate 58 0 ++
  [84, 83, 73, 71, 1] ++
  List.replicate 27 0 ++
  [207, 249, 131, 156, 187, 64, 236, 38, 237, 104, 41, 42, 202, 40, 128, 42, 206, 187, 228, 170, 40, 162, 68, 238, 165, 200, 144,
    192, 57, 101, 183, 235, 236, 93, 217, 109, 65, 103, 163, 92, 201, 23, 144, 145, 183, 228, 151, 80, 206, 184, 132, 34, 15, 220,
    191, 77, 96, 214, 221, 70, 55, 169, 197, 71, 107, 23, 209, 242, 225, 44, 66, 71, 248, 188, 230, 229, 99, 164, 64, 242, 119, 3,
    125, 129, 45, 235, 51, 160, 244, 161, 57, 69, 216, 152, 194, 150, 190, 143, 255, 195, 228, 89, 161, 226, 221, 244, 125, 32, 123,
    189, 101, 78, 132, 229, 43, 74, 178, 229, 84, 251, 117, 143, 253, 176, 59, 143, 178, 247] ++
  List.replicate 32 0

/-- The boot wait of a part whose fused vendor hash is that of the record's key: the record lies at 0x1000 of host memory, for a host boot,
and in factory slot A. -/
def vendorPart : State :=
  { ((((up.setReg Reg.NVC_UPDSRC_LO 0x1000).setReg Reg.NVC_UPDLEN 384).setBit Reg.NVC_BOOTSTAT 31 true)) with
    regs := ((((up.setReg Reg.NVC_UPDSRC_LO 0x1000).setReg Reg.NVC_UPDLEN 384).setBit Reg.NVC_BOOTSTAT 31 true)).regs ++ [(Reg.SEC_VENDHASH + 0, 0x1DD775EF), (Reg.SEC_VENDHASH + 4, 0x4984BECF), (Reg.SEC_VENDHASH + 8, 0x05C38594), (Reg.SEC_VENDHASH + 12, 0xE3482A94), (Reg.SEC_VENDHASH + 16, 0x22F98E72), (Reg.SEC_VENDHASH + 20, 0xDD96AFCE), (Reg.SEC_VENDHASH + 24, 0x00FCB550), (Reg.SEC_VENDHASH + 28, 0x91012F8B)]
    host := bytesAt 0x1000 (factoryRecord.map BitVec.toNat)
    nv := { idleNv with flash := (factoryRecord.zipIdx.filter fun x => x.1 != 0xFF).map fun x => (x.2, x.1 ^^^ 0xFF) } }
/-- That part in POWERUP-B, booting from its flash. -/
def vendorBoot : State := { vendorPart with aon := { vendorPart.aon with phase := .powerupB, pins := (1, 0) } }

set_option maxRecDepth 100000 in
theorem witness_factory_record : (vendorPart.nvRecord false [] factoryRecord).map (fun f => (f.gen, f.len)) = some (5, 384) := by decide +kernel

/-- The record is the one that a host boot reads, in the boot wait. -/
theorem witness_host_boot : vendorPart.bit Reg.NVC_BOOTSTAT 31 = true ∧ vendorPart.coreUp 0 = true ∧ vendorPart.served .hsp = true ∧ vendorPart.bit Reg.NVC_UPDCTRL 30 = false ∧
    cellRead vendorPart.host (vendorPart.reg64 Reg.NVC_UPDSRC_LO) (vendorPart.reg Reg.NVC_UPDLEN).toNat = factoryRecord ∧
    ∃ f, vendorPart.nvRecord false [] factoryRecord = some f ∧ f.len = factoryRecord.length := by
  refine ⟨by decide +kernel, by decide +kernel, by decide +kernel, by decide +kernel, by decide +kernel, ?_⟩
  have h := witness_factory_record
  cases hr : vendorPart.nvRecord false [] factoryRecord with
  | none => rw [hr] at h; cases h
  | some f =>
    have hl : factoryRecord.length = 384 := by decide +kernel
    rw [hr] at h
    exact ⟨f, rfl, by rw [hl]; exact (Prod.mk.inj (Option.some.inj h)).2⟩

/-- Whether a record is valid depends on registers alone. -/
theorem nvRecord_regs (s t : State) (h : t.regs = s.regs) (u : Bool) (l : List Nat) (b : List Byte) : t.nvRecord u l b = s.nvRecord u l b := by
  have h1 : t.hashRegs = s.hashRegs := by funext r; simp only [State.hashRegs, State.reg, h]
  have h4 : t.fld Reg.SEC_STAT 0 2 = s.fld Reg.SEC_STAT 0 2 := by simp only [State.fld, State.reg, h]
  have h2 : t.secured = s.secured := by simp only [State.secured, h4]
  have h3 : t.nvSigned u = s.nvSigned u := by funext x; simp only [State.nvSigned, State.sigKind, h1, h2]
  unfold State.nvRecord
  rw [h3]

/-- READY finds it in factory slot A. -/
theorem witness_ready_flash : vendorBoot.aon.phase = .powerupB ∧ vendorBoot.aon.held = false ∧ vendorBoot.nv.fitted = 0 ∧ vendorBoot.fld Reg.NVC_BOOTSTAT 0 8 ≠ 2 ∧
    vendorBoot.aon.tripDue = none ∧ vendorBoot.aon.latch = true ∧ vendorBoot.aon.pins.1 = 1 ∧ ∃ i f, vendorBoot.chooseSlot false [] = some (i, f) := by
  refine ⟨by decide +kernel, by decide +kernel, by decide +kernel, by decide +kernel, by decide +kernel, by decide +kernel, by decide +kernel, ?_⟩
  have h := witness_factory_record
  have h0 : leAt (vendorBoot.flashRead 0 64) 0 4 = nvMagic false ∧ leAt (vendorBoot.flashRead 0 64) 0xC 4 = 384 ∧ vendorBoot.flashRead 0 384 = factoryRecord := by decide +kernel
  have h1 : vendorBoot.slotRecord false [] 1 = none ∧ (vendorBoot.slotPair false).committed = none ∧ (vendorBoot.slotPair false).busy = none := by decide +kernel
  have h2 : vendorBoot.slotRecord false [] 0 = vendorPart.nvRecord false [] factoryRecord := by
    rw [← nvRecord_regs vendorPart vendorBoot rfl]
    simp only [State.slotRecord, State.slotAt, Bool.false_eq_true, if_false, Nat.zero_mul, h0.1, h0.2.1, h0.2.2]
    exact if_pos (by decide)
  cases hr : vendorPart.nvRecord false [] factoryRecord with
  | none => rw [hr] at h; cases h
  | some f => exact ⟨0, f, by simp [State.chooseSlot, h1.1, h1.2.1, h1.2.2, h2, hr]⟩

end Sys2Proof.Tests
end

section
/-!
PROOFS. The register map: what a write of a plain register does (R18 to R23), what a reserved offset answers (R19, R577), and the pairs
(R24, R579).
-/
namespace Sys2Proof.Machine

/-! ### A write through an interface -/

theorem exec_registerWrite_served {s : State} {i : Iface} (off : BitVec 24) (v : Word) (h : s.served i = true) :
    exec (.registerWrite i off v) s = .next (s.regWrite i off.toNat v) := by
  rw [exec_registerWrite, execRegisterWrite, if_pos h]

/-- Without a broken lock nothing is a violation. -/
theorem State.lockViolation_unbroken (s : State) (i : Iface) {off : Nat} {d : RegDesc} {k : Nat} (v : Word)
    (hd : findReg off = some (d, k)) (hb : breaksLock d v (s.reg off) = false) : s.lockViolation i off v = s := by
  unfold State.lockViolation
  rw [hd]
  simp [hb]

/-- A broken lock is a violation of the partner that wrote, and of no one where a control core wrote (R23). -/
theorem State.lockViolation_broken (s : State) (i : Iface) {off : Nat} {d : RegDesc} {k : Nat} (v : Word)
    (hd : findReg off = some (d, k)) (hb : breaksLock d v (s.reg off) = true) :
    s.lockViolation i off v = s.writeViolation i 3 9 off v := by
  unfold State.lockViolation
  rw [hd]
  simp [hb, State.writeViolation]

/-- The violation that a refused write is changes no register but those of the logs and the pending vectors. -/
theorem State.reg_writeViolation (s : State) (i : Iface) (m n off : Nat) (v : Word) {a : Nat} (h : eventReg a = false) :
    (s.writeViolation i m n off v).reg a = s.reg a := by
  cases i with
  | pcie => exact s.reg_logViolation _ _ _ h
  | hsp => exact s.reg_logViolation _ _ _ h
  | cc n => rfl

/-- A single register without a behaviour of its own takes, behind the check of its lock, the value its access types give. -/
theorem State.regWrite_single (s : State) (i : Iface) {off : Nat} {d : RegDesc} {k : Nat} (v : Word)
    (hd : findReg off = some (d, k)) (hp : pairRole off = .single) (ho : ownBehaviour off = false)
    (hr : (s.lockViolation i off v).bit Reg.TICK_STAT 0 = true ∨ rwtMask d v = 0) :
    s.regWrite i off v = (s.lockViolation i off v).regStore off v := by
  rw [s.regWrite_plain i v ho, State.writePlain_single _ i v hd hp hr]

theorem State.regWrite_unbroken (s : State) (i : Iface) {off : Nat} {d : RegDesc} {k : Nat} (v : Word)
    (hd : findReg off = some (d, k)) (hp : pairRole off = .single) (ho : ownBehaviour off = false)
    (hb : breaksLock d v (s.reg off) = false) (hr : s.bit Reg.TICK_STAT 0 = true ∨ rwtMask d v = 0) :
    s.regWrite i off v = s.regStore off v := by
  have hl := s.lockViolation_unbroken i v hd hb
  rw [s.regWrite_single i v hd hp ho (by rwa [hl]), hl]

theorem State.regWrite_broken (s : State) (i : Iface) {off : Nat} {d : RegDesc} {k : Nat} (v : Word)
    (hd : findReg off = some (d, k)) (hp : pairRole off = .single) (ho : ownBehaviour off = false)
    (hb : breaksLock d v (s.reg off) = true) (hr : s.bit Reg.TICK_STAT 0 = true ∨ rwtMask d v = 0) :
    s.regWrite i off v = (s.writeViolation i 3 9 off v).regStore off v := by
  have hl := s.lockViolation_broken i v hd hb
  have hrun : (s.writeViolation i 3 9 off v).bit Reg.TICK_STAT 0 = s.bit Reg.TICK_STAT 0 :=
    State.bit_of_reg (s.reg_writeViolation i _ _ _ v (by decide)) 0
  rw [s.regWrite_single i v hd hp ho (by rwa [hl, hrun]), hl]

theorem regLocked_of_breaksLock {d : RegDesc} {v cur : Word} (h : breaksLock d v cur = true) : regLocked d cur = true := by
  rw [breaksLock, Bool.and_eq_true] at h
  exact h.1

/-- A locked field holds what it held, whatever is written. -/
theorem fieldAfter_locked {f : RegField} (h : f.access = .rwl) (x old : Nat) : fieldAfter f true x old = old := by
  simp [fieldAfter, h]

/-- Settles O10: behind an unbroken lock the write is `regStore`, whose effect on fields, other bits and the rest is known; and it depends
on the written word through the fields alone. -/
theorem registerWriteByAccessTypes : Obligations.RegisterWriteByAccessTypes := by
  intro i off v s d k hs hd hp ho hb hr
  have write : ∀ w : Word, breaksLock d w (s.reg off.toNat) = false → (s.bit Reg.TICK_STAT 0 = true ∨ rwtMask d w = 0) →
      exec (.registerWrite i off w) s = .next (s.regStore off.toNat w) := fun w hb hr => by
    rw [exec_registerWrite_served off w hs, s.regWrite_unbroken i w hd hp ho hb hr]
  refine ⟨s.regStore off.toNat v, write v hb hr, fun f hf => s.fld_regStore v hd f hf, fun lo w hout => ?_, fun a ha => ?_,
    s.regStore_eq v hd, fun v' hv => ⟨_, write v' ?_ ?_, fun a => ?_⟩⟩
  · unfold State.fld
    rw [s.reg_regStore v hd, if_pos rfl, writeFields_apart _ _ _ _ _ hout]
  · rw [s.reg_regStore v hd, if_neg ha]
  · rw [breaksLock_congr d _ hv, hb]
  · rwa [rwtMask_congr d hv]
  · rw [s.reg_regStore v' hd, s.reg_regStore v hd, writeFields_congr d _ hv]

/-- Settles O12: the write is the violation, which leaves the register, followed by `regStore`, in which the lock is set. -/
theorem lockedFieldsKeepTheirValue : Obligations.LockedFieldsKeepTheirValue := by
  intro i off v s d k hs hd hp ho he hb hr
  have hreg : ∀ a, eventReg a = false → (s.writeViolation i 3 9 off.toNat v).reg a = s.reg a :=
    fun a ha => s.reg_writeViolation i _ _ _ v ha
  have hfld : ∀ f ∈ d.fields, ((s.writeViolation i 3 9 off.toNat v).regStore off.toNat v).fld off.toNat f.lo f.width =
      fieldAfter f true (wordField v f.lo f.width) (s.fld off.toNat f.lo f.width) := fun f hf => by
    rw [State.fld_regStore _ v hd f hf, hreg _ he, regLocked_of_breaksLock hb, State.fld_of_reg (hreg _ he)]
  refine ⟨_, by rw [exec_registerWrite_served off v hs, s.regWrite_broken i v hd hp ho hb hr], fun f hf hl => ?_,
    fun f hf _ => hfld f hf, fun a ha hev => ?_, ?_⟩
  · rw [hfld f hf, fieldAfter_locked hl]
  · rw [State.reg_regStore _ v hd, if_neg ha, hreg a hev]
  · cases i <;> rfl

/-! ### Reserved offsets and reserved bits (R19, R577) -/

theorem pairRole_reserved {off : Nat} (h : findReg off = none) : pairRole off = .single := by
  unfold pairRole; rw [h]

theorem State.regRead_reserved (s : State) {off : Nat} (h : findReg off = none) : s.regRead off = 0 := by
  unfold State.regRead; rw [h]

theorem State.lockViolation_reserved (s : State) (i : Iface) {off : Nat} (v : Word) (h : findReg off = none) :
    s.lockViolation i off v = s := by
  unfold State.lockViolation; rw [h]

theorem State.writePlain_reserved (s : State) (i : Iface) {off : Nat} (v : Word) (h : findReg off = none) :
    s.writePlain i off v = s := by
  unfold State.writePlain State.applyStopped
  rw [pairRole_reserved h]
  simp [s.regStore_none v h]

theorem State.writePsp_reserved (s : State) (i : Iface) {off : Nat} (v : Word) (h : findReg off = none) : s.writePsp i off v = s := by
  unfold State.writePsp
  simp [s.regStore_none v h]

/-- An offset apart from one that has a register. -/
theorem ne_of_reserved {off : Nat} (h : findReg off = none) {r : Nat} (hr : (findReg r).isSome = true) : off ≠ r := by
  rintro rfl
  rw [h] at hr
  exact absurd hr (by simp)

/-- A reserved offset lies in no array of registers. -/
theorem slotOf_reserved {off base count stride : Nat} (h : findReg off = none)
    (hr : ∀ k < count, (findReg (base + k * stride)).isSome = true) : slotOf off base count stride = none := by
  unfold slotOf
  split
  · next hin =>
    simp only [Bool.and_eq_true, decide_eq_true_eq] at hin
    obtain ⟨⟨hlo, hhi⟩, hmod⟩ := hin
    have hk : (off - base) / stride < count := Nat.div_lt_of_lt_mul (by rw [Nat.mul_comm]; omega)
    have hoff : base + (off - base) / stride * stride = off := by
      have := Nat.div_add_mod (off - base) stride
      rw [Nat.mul_comm] at this
      omega
    exact absurd hoff.symm (ne_of_reserved h (hr _ hk))
  · rfl

theorem State.writeArray_reserved (s : State) {off : Nat} (v : Word) (h : findReg off = none) : s.writeArray off v = none := by
  unfold State.writeArray
  rw [slotOf_reserved h (base := Reg.HOST_QCTRL) (by decide +kernel), slotOf_reserved h (base := Reg.HOST_SQDB) (by decide +kernel),
    slotOf_reserved h (base := Reg.HOST_CQDB) (by decide +kernel), slotOf_reserved h (base := Reg.GDN_CTRL) (by decide +kernel),
    slotOf_reserved h (base := msixControl 0) (by decide +kernel)]

/-- The registers of which a write is more than their fields all exist. -/
theorem findReg_ownRegisters : ∀ r ∈ ([Reg.GLOBAL_RSTREQ, Reg.GLOBAL_KEEPCFG, Reg.TICK_CTRL, Reg.PLAN_STAT, Reg.GLN_EVAC, Reg.PSP_XCTRL,
    Reg.PWR_CAPMW, Reg.NVC_UPDCTRL, Reg.SEC_PROVCMD, Reg.SEC_DBGCTRL, Reg.ERRLOG_TAIL, Reg.ERRLOG_VTAIL] : List Nat),
    (findReg r).isSome = true := by decide +kernel

/-- A write of a reserved offset changes nothing. -/
theorem State.regWrite_reserved (s : State) (i : Iface) {off : Nat} (v : Word) (h : findReg off = none) : s.regWrite i off v = s := by
  have apart := fun r hr => ne_of_reserved h (findReg_ownRegisters r hr)
  simp only [List.forall_mem_cons, List.not_mem_nil, false_imp_iff, implies_true, and_true] at apart
  unfold State.regWrite
  simp only [s.lockViolation_reserved i v h, apart, if_false, s.writePsp_reserved i v h, s.writeArray_reserved v h,
    s.writePlain_reserved i v h, ite_self]

theorem findReg_beyond {off : Nat} (h : 0x150000 ≤ off) : findReg off = none := by
  have hfind : regBlocks.find? (fun b => b.1 ≤ off && off < b.2.1) = none := by
    rw [List.find?_eq_none]
    have hend : ∀ b ∈ regBlocks, b.2.1 ≤ 0x150000 := by decide +kernel
    intro b hb
    have := hend b hb
    simp only [Bool.and_eq_true, decide_eq_true_eq]
    omega
  unfold findReg
  rw [hfind]

theorem readMask_fold_getLsbD (j : Nat) (fs : List RegField) (m : Word) (hm : m.getLsbD j = false)
    (h : (fs.any fun f => decide (f.lo ≤ j) && decide (j < f.lo + f.width)) = false) :
    (fs.foldl (fun (m : Word) f => if f.access = .wo then m else m ||| fieldMask f.lo f.width) m).getLsbD j = false := by
  induction fs generalizing m with
  | nil => exact hm
  | cons f fs ih =>
    rw [List.any_cons, Bool.or_eq_false_iff] at h
    refine ih _ ?_ h.2
    dsimp only
    split
    · exact hm
    · have hout := h.1
      simp only [Bool.and_eq_false_iff, decide_eq_false_iff_not] at hout
      rw [BitVec.getLsbD_or, hm, fieldMask_getLsbD, Bool.false_or]
      simp only [Bool.and_eq_false_iff, decide_eq_false_iff_not]
      omega

/-- A bit that lies in no field is masked from every read. -/
theorem readMask_getLsbD {d : RegDesc} {j : Nat} (h : (d.fields.any fun f => decide (f.lo ≤ j) && decide (j < f.lo + f.width)) = false) :
    (readMask d).getLsbD j = false := readMask_fold_getLsbD j _ 0 (by simp) h

/-- Settles O11: at a reserved offset neither the write nor any of its special cases finds a register, and the read mask holds the bits of
fields alone. -/
theorem reservedOffsetsReadZeroAndTakeNoWrite : Obligations.ReservedOffsetsReadZeroAndTakeNoWrite := by
  refine ⟨fun i off v s h => ⟨?_, fun hs => ?_⟩, fun off h => findReg_beyond h, fun s off j h => ?_⟩
  · rw [exec_registerWrite, execRegisterWrite, s.regWrite_reserved i v h, ite_self]
  · rw [exec_pairLowRead, execPairLowRead, if_pos hs]
    simp [State.regFetch, pairRole_reserved h, s.regRead_reserved h]
  · unfold State.regRead
    split
    · simp
    · next d k hd => rw [BitVec.getLsbD_and, readMask_getLsbD (h d k hd), Bool.and_false]

/-! ### Pairs (R24, R579) -/

theorem ifaceNum_injective : Function.Injective ifaceNum := by
  intro i j h
  cases i <;> cases j <;> simp only [ifaceNum] at h
  case cc.cc m n => rw [Fin.ext (show m.val = n.val by omega)]
  case pcie.pcie | hsp.hsp => rfl
  all_goals omega

/-- Each interface has a place of its own for each pair. -/
theorem pairKey_inj {i j : Iface} {g h : Nat} (hg : g < 2 ^ 24) (hh : h < 2 ^ 24) (e : pairKey j h = pairKey i g) : j = i ∧ h = g := by
  unfold pairKey at e
  have hn : ifaceNum j = ifaceNum i := by omega
  exact ⟨ifaceNum_injective hn, by omega⟩

theorem State.highRead_latchHigh (s : State) (i j : Iface) (low h : Nat) :
    (s.latchHigh i low).highRead j h = if pairKey j h = pairKey i (low + 4) then s.reg (low + 4) else s.highRead j h :=
  cellGet_cellSet _ _ _ _

theorem State.keyGet_holdLow (s : State) (i : Iface) (low : Nat) (v : Word) (key : Nat) :
    keyGet (s.holdLow i low v).lowHeld key = if key = pairKey i (low + 4) then some v else keyGet s.lowHeld key := keyGet_keyPut _ _

@[simp] theorem State.regStore_lowHeld (s : State) (off : Nat) (v : Word) : (s.regStore off v).lowHeld = s.lowHeld := by
  unfold State.regStore State.holdRwt
  split <;> [rfl; (split <;> rfl)]

/-- What an interface holds for pairs takes no part in the write of a register. -/
theorem State.regStore_withLowHeld (s : State) (l : List (Nat × Word)) (off : Nat) (v : Word) :
    ({ s with lowHeld := l } : State).regStore off v = { s.regStore off v with lowHeld := l } := by
  unfold State.regStore State.holdRwt
  split <;> [rfl; (dsimp only; split <;> rfl)]

/-- The low word that an interface holds goes to its register, if there is one. -/
def State.storeHeldLow (s : State) (i : Iface) (high : Nat) : State :=
  match keyGet s.lowHeld (pairKey i high) with
  | some lo => s.regStore (high - 4) lo
  | none => s

theorem State.storeHeldLow_lowHeld (s : State) (i : Iface) (high : Nat) : (s.storeHeldLow i high).lowHeld = s.lowHeld := by
  unfold State.storeHeldLow
  split <;> simp

/-- The commit of a pair: the low word that is held, the high word, and none held any more. -/
theorem State.commitPair_eq (s : State) (i : Iface) (high : Nat) (v : Word) :
    s.commitPair i high v =
      { (s.storeHeldLow i high).regStore high v with lowHeld := keyDel s.lowHeld (pairKey i high) } := by
  rw [← s.storeHeldLow_lowHeld i high, ← State.regStore_withLowHeld]
  rfl

theorem State.reg_regStore_apart (s : State) {off a : Nat} (v : Word) (h : a ≠ off) : (s.regStore off v).reg a = s.reg a := by
  cases hd : findReg off with
  | none => rw [s.regStore_none v hd]
  | some x => rw [s.reg_regStore v hd, if_neg h]

theorem State.reg_storeHeldLow_apart (s : State) (i : Iface) {high a : Nat} (h : a ≠ high - 4) : (s.storeHeldLow i high).reg a = s.reg a := by
  unfold State.storeHeldLow
  split
  · exact s.reg_regStore_apart _ h
  · rfl

theorem State.running_regStore_any (s : State) (off : Nat) (v : Word) :
    (s.regStore off v).bit Reg.TICK_STAT 0 = s.bit Reg.TICK_STAT 0 := by
  cases hd : findReg off with
  | none => rw [s.regStore_none v hd]
  | some x => exact s.running_regStore v hd

theorem rwtMask_none {d : RegDesc} (v : Word) (h : ∀ f ∈ d.fields, f.access ≠ .rwt) : rwtMask d v = 0 := by
  unfold rwtMask
  refine List.foldlRecOn (motive := fun m => m = 0) _ _ rfl fun m hm f hf => ?_
  simp [h f hf, hm]

/-- Without an RWT field in the register, a write holds nothing for the next window. -/
theorem State.rwtHeld_regStore_noRwt (s : State) {off : Nat} (v : Word)
    (h : ∀ d k, findReg off = some (d, k) → ∀ f ∈ d.fields, f.access ≠ .rwt) : (s.regStore off v).rwtHeld = s.rwtHeld := by
  cases hd : findReg off with
  | none => rw [s.regStore_none v hd]
  | some x => exact s.rwtHeld_regStore v hd (rwtMask_none v (h x.1 x.2 hd))

/-- With ticks running, or no RWT field in the pair, nothing of its commit is left to apply. -/
theorem State.commitPair_applied (s : State) (i : Iface) (high : Nat) (v : Word)
    (h : s.bit Reg.TICK_STAT 0 = true ∨ ∀ a ∈ ([high - 4, high] : List Nat), ∀ d k, findReg a = some (d, k) → ∀ f ∈ d.fields, f.access ≠ .rwt) :
    (s.commitPair i high v).applyStopped s = s.commitPair i high v := by
  unfold State.applyStopped
  rw [if_pos]
  rw [s.commitPair_eq i high v, Bool.or_eq_true, decide_eq_true_eq]
  rcases h with hrun | hno
  · left
    show ((s.storeHeldLow i high).regStore high v).bit Reg.TICK_STAT 0 = true
    rw [State.running_regStore_any]
    unfold State.storeHeldLow
    split
    · rw [State.running_regStore_any, hrun]
    · exact hrun
  · right
    show ((s.storeHeldLow i high).regStore high v).rwtHeld.length = s.rwtHeld.length
    rw [State.rwtHeld_regStore_noRwt _ v (hno high (by simp))]
    unfold State.storeHeldLow
    split
    · rw [State.rwtHeld_regStore_noRwt _ _ (hno (high - 4) (by simp))]
    · rfl

/-- No pair's high word lies at offset 0. -/
theorem high_pos {off : Nat} (h : pairRole off = .high) : 0 < off := by
  rcases Nat.eq_zero_or_pos off with rfl | hpos
  · exact absurd h (by decide +kernel)
  · exact hpos

/-! ### The four accesses to a pair, over an interface that is served -/

theorem exec_pairLowRead_low {s : State} {i : Iface} {off : BitVec 24} (hs : s.served i = true) (h : pairRole off.toNat = .low) :
    exec (.pairLowRead i off) s = .next ((s.latchHigh i off.toNat).emit (.readData (s.regRead off.toNat))) := by
  simp [execPairLowRead, hs, State.regFetch, h]

theorem exec_pairLowRead_high {s : State} {i : Iface} {off : BitVec 24} (hs : s.served i = true) (h : pairRole off.toNat = .high) :
    exec (.pairLowRead i off) s = .next (s.emit (.readData (s.highRead i off.toNat))) := by
  simp [execPairLowRead, hs, State.regFetch, h]

theorem exec_pairLowWrite_low {s : State} {i : Iface} {off : BitVec 24} (v : Word) (hs : s.served i = true) (h : pairRole off.toNat = .low) :
    exec (.pairLowWrite i off v) s = .next (s.holdLow i off.toNat v) := by
  simp [execPairLowWrite, hs, h]

theorem exec_pairHighWrite_high {s : State} {i : Iface} {off : BitVec 24} (v : Word) (hs : s.served i = true)
    (h : pairRole off.toNat = .high) :
    exec (.pairHighWrite i off v) s = .next ((s.commitPair i off.toNat v).applyStopped s) := by
  simp [execPairHighWrite, hs, h]

/-- What an interface holds after its commit: what it held, but nothing for the pair. -/
theorem State.keyGet_commitPair (s : State) (i : Iface) (high : Nat) (v : Word) (key : Nat) :
    keyGet (s.commitPair i high v).lowHeld key = if key = pairKey i high then none else keyGet s.lowHeld key := by
  rw [s.commitPair_eq]
  exact keyGet_keyDel _ _ _

/-- The commit reaches, of other registers than the high word, what the low word that is held reaches. -/
theorem State.reg_commitPair (s : State) (i : Iface) {high a : Nat} (v : Word) (h : a ≠ high) :
    (s.commitPair i high v).reg a = (s.storeHeldLow i high).reg a := by
  rw [s.commitPair_eq]
  exact State.reg_regStore_apart _ v h

theorem State.storeHeldLow_none (s : State) {i : Iface} {high : Nat} (h : keyGet s.lowHeld (pairKey i high) = none) :
    s.storeHeldLow i high = s := by
  unfold State.storeHeldLow; rw [h]

/-- Settles O13: each of the four accesses is one update of the latch or of the held words, or the commit. -/
theorem pairsAreReadAndWrittenLowWordFirst : Obligations.PairsAreReadAndWrittenLowWordFirst := by
  intro i off v s hs
  refine ⟨fun hlow hlt => ⟨?lowRead, ?lowWrite⟩, fun hhigh => ⟨exec_pairLowRead_high hs hhigh, fun hr => ?highWrite⟩⟩
  case lowRead =>
    refine ⟨_, exec_pairLowRead_low hs hlow, rfl, ?_, fun j h hh hne => ?_, rfl⟩
    · exact (s.highRead_latchHigh i i _ _).trans (if_pos rfl)
    · refine (s.highRead_latchHigh i j _ h).trans (if_neg fun e => ?_)
      obtain ⟨hj, hoff⟩ := pairKey_inj hlt hh e
      exact hne.elim (absurd hj) (absurd hoff)
  case lowWrite =>
    refine ⟨_, exec_pairLowWrite_low v hs hlow, ?_, fun key hkey => ?_, rfl⟩
    · rw [s.keyGet_holdLow, if_pos rfl]
    · rw [s.keyGet_holdLow, if_neg hkey]
  case highWrite =>
    have hpos := high_pos hhigh
    refine ⟨s.commitPair i off.toNat v, ?_, s.commitPair_eq i off.toNat v, ?_, fun key hkey => ?_, fun a ha hb => ?_, fun hnone => ?_⟩
    · rw [exec_pairHighWrite_high v hs hhigh, s.commitPair_applied i off.toNat v hr]
    · rw [s.keyGet_commitPair, if_pos rfl]
    · rw [s.keyGet_commitPair, if_neg hkey]
    · rw [s.reg_commitPair i v ha, s.reg_storeHeldLow_apart i hb]
    · rw [s.reg_commitPair i v (by omega), s.storeHeldLow_none hnone]

end Sys2Proof.Machine
end

section
/-!
PROOFS. The opening of the fallow window (R22, R54, R57).
-/
namespace Sys2Proof.Machine

/-! ### What the steps of a window leave alone -/

/-- In a window that opened at `w`: the phase and the times of the tick stand, and no RWT write is held. -/
structure Drained (w t : State) : Prop where
  clock : Clock w t
  held : t.rwtHeld = []

/-- An operation that reaches neither the tick nor the held writes keeps both facts. -/
theorem Drained.eff {w s t : State} {m : Nat} (h : Drained w s) (k : Eff m s t) (htick : m.testBit 7 = false) (hheld : m.testBit 4 = false) :
    Drained w t := ⟨h.clock.eff k htick, (k.rwtHeld hheld).trans h.held⟩

/-- An update of the tick that leaves its phase and its times. -/
theorem Drained.updTick {w s : State} {f : TickState → TickState} (h : Drained w s) (e1 : (f s.tick).phase = s.tick.phase)
    (e2 : (f s.tick).nominal = s.tick.nominal) (e3 : (f s.tick).edge = s.tick.edge) (e4 : (f s.tick).workEnd = s.tick.workEnd)
    (e5 : (f s.tick).opened = s.tick.opened) : Drained w (s.updTick f) := ⟨State.updTick_clock h.clock e1 e2 e3 e4 e5, h.held⟩

theorem State.step1_drained (w : State) : Drained w w.step1 := ⟨State.step1_clock Clock.refl, w.rwtHeld_step1⟩

theorem State.fallowSteps_drained {w s : State} (h : Drained w s) : Drained w s.fallowSteps :=
  ⟨State.fallowSteps_clock h.clock, State.rwtHeld_fallowSteps h.held⟩

theorem State.setClass_drained {w s : State} (c : TickClass) (opening : Nat) (h : Drained w s) : Drained w (s.setClass c opening) :=
  ⟨State.setClass_clock h.clock, ((State.setClass_eff Sub.rfl Eff.refl).rwtHeld rfl).trans h.held⟩

theorem State.stookClass_drained {w s : State} (force : Bool) (h : Drained w s) : Drained w (s.stookClass force) :=
  ⟨State.stookClass_clock h.clock, ((State.stookClass_eff Sub.rfl Eff.refl).rwtHeld rfl).trans h.held⟩

theorem State.peerMsg_drained {w s : State} {chip cls opc : Nat} {payload : List Nat} {bytes : Nat} (h : Drained w s) :
    Drained w (s.peerMsg chip cls opc payload bytes) := h.eff (State.peerMsg_eff Sub.rfl Eff.refl) rfl rfl

/-! ### The opening -/

/-- What the opening gives the tick: its time max(E + P − F, X), and the phase. -/
theorem State.beginFallow_tick (s : State) : s.beginFallow.tick =
    { s.tick with opened := max (s.tick.nominal + s.tickP - s.tickF) s.tick.workEnd, phase := .fallow, classed := false } := by
  unfold State.beginFallow
  dsimp only
  rw [(State.foldCounts_eff Sub.rfl Eff.refl).tick rfl, (State.postResults_eff Sub.rfl Eff.refl).tick rfl]
  rfl

/-- The steps of the window leave the phase and the times that its opening gave, and hold no write. -/
theorem State.openFallow_drained (s : State) : Drained s.beginFallow s.openFallow := by
  unfold State.openFallow
  extract_lets s1 x s2 s3 opening c s4 s5 c' k e
  have h1 : Drained s.beginFallow s1 := State.step1_drained _
  clear_value s1
  have h2 : Drained s.beginFallow s2 := h1.updTick rfl rfl rfl rfl rfl
  have h3 : Drained s.beginFallow s3 := by
    show Drained _ (if _ then _ else _)
    split
    · exact h2
    · split
      · exact State.peerMsg_drained h2
      · exact List.foldlRecOn _ _ h2 fun t ht c _ => State.peerMsg_drained ht
  have h4 : Drained s.beginFallow s4 := by
    show Drained _ (if _ then _ else _)
    split
    · exact h1.eff (State.loseNext_eff Sub.rfl Eff.refl) rfl rfl
    · exact h1
  have h5 : Drained s.beginFallow s5 := State.fallowSteps_drained h4
  split
  · exact State.stookClass_drained false (State.fallowSteps_drained h3)
  · split
    · exact (h5.eff (State.reportSkips_eff Sub.rfl Eff.refl) rfl rfl).updTick rfl rfl rfl rfl rfl
    · exact State.setClass_drained c' opening h5

/-- Settles O19: the opening fixes the phase and the times, and what the steps of the window do leaves them, the rows and the posts. -/
theorem fallowWindowOpensAfterEverySlice : Obligations.FallowWindowOpensAfterEverySlice := by
  refine ⟨fun s hphase hrun => ⟨s.openFallow, ?_, ?_⟩, fun s h => ?_⟩
  · rw [exec_fallowOpening, execFallowOpening, if_pos (by simp [hphase, hrun])]
  · obtain ⟨clock, held⟩ := s.openFallow_drained
    have eff := State.openFallow_eff (s := s) Sub.rfl Eff.refl
    have tick := s.beginFallow_tick
    exact ⟨by rw [clock.phase, tick], by rw [clock.opened, tick], held, eff.rows rfl, eff.posts rfl, by rw [clock.nominal, tick],
      by rw [clock.edge, tick]⟩
  · rw [exec_fallowOpening, execFallowOpening, if_neg]
    rcases h with hphase | hrun
    · simp [hphase]
    · simp [hrun]

end Sys2Proof.Machine
end

section
/-!
PROOFS. The reset values of the register map (R17, Table 17-10), in the state after reset and after every release step (R498, R512).
-/
namespace Sys2Proof.Machine

/-! ### Fields that a release step brings to their reset values -/

/-- A field that neither what a reset of the main domain keeps (fuses, the always-on domain, the device's base configuration) nor what the
release step itself writes (the pins, the counter, CC0) lies in. -/
structure FreshField (a lo : Nat) : Prop where
  above : Reg.TICK_CTRL ≤ a
  below : a < Reg.SEC_STAT
  apart : a ∉ ([Reg.PWR_CAPLIM, Reg.PWR_STAT, Reg.GDN_STOOK, Reg.GDN_INCARN] : List Nat)
  memch : a ≠ Reg.MEMCH_CFG ∨ 2 ≤ lo
  boot : a ≠ Reg.NVC_BOOTSTAT ∨ 18 ≤ lo

/-- Of the registers that a reset of the main domain keeps, only bits 1:0 of MEMCH_CFG share a register with fresh fields. -/
theorem keptRegs_place : ∀ x ∈ keptRegs, x = (Reg.MEMCH_CFG, 3) ∨ x.1 < Reg.TICK_CTRL ∨ Reg.SEC_STAT ≤ x.1 ∨
    x.1 ∈ ([Reg.PWR_CAPLIM, Reg.PWR_STAT, Reg.GDN_STOOK, Reg.GDN_INCARN] : List Nat) := by decide +kernel

theorem FreshField.kept {a lo : Nat} (h : FreshField a lo) {x : Nat × Word} (hx : x ∈ keptRegs) (e : a = x.1) : x.2 = 3 ∧ 2 ≤ lo := by
  obtain ⟨above, below, apart, memch, boot⟩ := h
  rcases keptRegs_place x hx with hm | hlow | hhigh | hmem
  · subst hm
    exact ⟨rfl, memch.resolve_left (fun hne => hne e)⟩
  · omega
  · omega
  · exact absurd (e ▸ hmem) apart

/-- Words merged under a mask hold, in a field above the mask, what the word outside the mask holds. -/
theorem wordField_merge (u c : Word) {m : Word} {lo : Nat} (w : Nat) (h : ∀ j, lo ≤ j → m.getLsbD j = false) :
    wordField ((u &&& m) ||| (c &&& ~~~m)) lo w = wordField c lo w := by
  apply Nat.eq_of_testBit_eq
  intro j
  rw [wordField_testBit, wordField_testBit, BitVec.getLsbD_or, BitVec.getLsbD_and, BitVec.getLsbD_and, BitVec.getLsbD_not,
    h _ (Nat.le_add_right lo j)]
  by_cases hj : lo + j < 32
  · simp [hj]
  · simp [BitVec.getLsbD_of_ge c _ (Nat.le_of_not_lt hj)]

/-- After a reset of the main domain a fresh field holds its reset value. -/
theorem State.wordField_resetRegs (s : State) {a lo : Nat} (w : Nat) (h : FreshField a lo) :
    wordField (cellGet s.resetRegs a) lo w = State.reset.fld a lo w := by
  unfold State.resetRegs
  refine List.foldlRecOn (motive := fun c : Cells 32 => wordField (cellGet c a) lo w = State.reset.fld a lo w) _ _ rfl
    fun c hc x hx => ?_
  rw [cellGet_cellSet]
  split
  · next e =>
    obtain ⟨hmask, hlo⟩ := h.kept hx e
    rw [hmask, wordField_merge _ _ _ fun j hj => ?_, ← e, hc]
    exact Nat.testBit_lt_two_pow (x := 3) (Nat.lt_of_lt_of_le (by decide) (Nat.pow_le_pow_right (by decide) (Nat.le_trans hlo hj)))
  · exact hc

theorem State.fld_mainReset (s : State) {a lo : Nat} (w : Nat) (h : FreshField a lo) : s.mainReset.fld a lo w = State.reset.fld a lo w := by
  have hstook : a ≠ Reg.GDN_STOOK := fun e => h.apart (by simp [e])
  unfold State.mainReset
  extract_lets main nv t
  refine (State.fld_setFld_apart _ _ _ _ _ _ _ _ (.inl (Nat.ne_of_lt h.below))).trans ?_
  refine (State.fld_setFld_apart _ _ _ _ _ _ _ _ (.inl hstook)).trans ?_
  have hregs : t.regs = s.resetRegs := by with_reducible rfl
  rw [State.fld, State.reg, hregs, s.wordField_resetRegs w h]

/-! ### The store shows in the GLOBAL block alone -/

theorem State.reg_showStore (s : State) {a : Nat} (h : Reg.TICK_CTRL ≤ a) : s.showStore.reg a = s.reg a := by
  have hlo : Reg.GLOBAL_MONO_LO + 4 < Reg.TICK_CTRL := by decide
  have hring : Reg.GLOBAL_JRNL + 16 * 64 ≤ Reg.TICK_CTRL := by decide
  have hmono : (s.setReg64 Reg.GLOBAL_MONO_LO (s.store.mono % 2 ^ 64)).reg a = s.reg a := by
    unfold State.setReg64
    rw [State.reg_setReg_apart _ _ (by omega), State.reg_setReg_apart _ _ (by omega)]
  unfold State.showStore
  refine List.foldlRecOn (motive := fun t : State => t.reg a = s.reg a) _ _ hmono fun t ht i hi => ?_
  have hi : i < 64 := List.mem_range.1 hi
  split
  · next e _ =>
    have hlen : e.words.length = 4 := rfl
    rw [State.reg_setRegs _ _ _ _ (.inr (by omega)), ht]
  · rw [State.reg_setRegs _ _ _ _ (.inr (by simp only [List.length_cons, List.length_nil]; omega)), ht]

theorem State.reg_putStore (s : State) (d : StoreData) {a : Nat} (h : Reg.TICK_CTRL ≤ a) : (s.putStore d).reg a = s.reg a :=
  State.reg_showStore _ h

theorem State.reg_journal (s : State) (code arg1 arg2 detail : Nat) {a : Nat} (h : Reg.TICK_CTRL ≤ a) :
    (s.journal code arg1 arg2 detail).reg a = s.reg a := by
  unfold State.journal
  split
  · rfl
  · exact State.reg_putStore _ _ h

theorem State.reg_raiseFloor (s : State) {a : Nat} (h : Reg.TICK_CTRL ≤ a) : s.raiseFloor.reg a = s.reg a := State.reg_journal _ _ _ _ _ h

/-! ### The release step -/

/-- The advance of the counter reaches, above the GLOBAL block, the incarnation and the ERR code of the boot status. -/
theorem State.fld_advanceCounter (s : State) {a lo w : Nat} (h : Reg.TICK_CTRL ≤ a) (hinc : a ≠ Reg.GDN_INCARN)
    (hboot : a ≠ Reg.NVC_BOOTSTAT ∨ 8 ≤ lo) : s.advanceCounter.fld a lo w = s.fld a lo w := by
  unfold State.advanceCounter
  extract_lets lost f need s1 mono s2
  split
  · exact State.fld_setFld_apart _ _ _ _ _ _ _ _ (by omega)
  · have h1 : s1.reg a = s.reg a := by
      show (if _ then _ else _ : State).reg a = _
      split
      · exact s.reg_raiseFloor h
      · rfl
    rw [State.fld_setReg_apart _ _ _ _ hinc]
    exact State.fld_of_reg ((State.reg_putStore _ _ h).trans h1) _ _

/-- A release step brings every fresh field to its reset value, from any state. -/
theorem State.fld_release (s : State) (pins : BootPins) {a lo : Nat} (w : Nat) (h : FreshField a lo) :
    (s.release pins).fld a lo w = State.reset.fld a lo w := by
  have hreset := s.fld_mainReset w h
  obtain ⟨above, below, apart, -, boot⟩ := h
  simp only [List.mem_cons, List.not_mem_nil, or_false, not_or] at apart
  obtain ⟨-, -, hstook, hincarn⟩ := apart
  have hcore : a ≠ Reg.CCMB_CORESTAT + 4 * 0 := by
    have : Reg.SEC_STAT < Reg.CCMB_CORESTAT + 4 * 0 := by decide
    omega
  unfold State.release State.showCore
  dsimp only
  rw [State.fld_of_reg (State.reg_journal _ _ _ _ _ above), State.fld_advanceCounter _ above hincarn (by omega),
    State.fld_setBit_apart _ _ _ _ _ _ _ (.inl hcore), State.fld_setBit_apart _ _ _ _ _ _ _ (.inl hcore),
    State.fld_setFld_apart _ _ _ _ _ _ _ _ (by omega), State.fld_setFld_apart _ _ _ _ _ _ _ _ (.inl hstook), State.fld_updAon, hreset]

/-- Behind its reset of the main domain, a release step changes registers, the always-on domain and the flash alone. -/
theorem State.release_after_mainReset (s : State) (pins : BootPins) : Eff 0x600000000000000008 s.mainReset (s.release pins) :=
  State.journal_eff ⟨rfl⟩ <| State.advanceCounter_eff ⟨rfl⟩ <| State.showCore_eff ⟨rfl⟩ <| State.setFld_eff ⟨rfl⟩ <|
    State.setFld_eff ⟨rfl⟩ <| State.updAon_eff ⟨rfl⟩ Eff.refl

/-! ### The fields of the Reset columns -/

theorem resetFields_reset : ∀ x ∈ resetFields, ∀ k, k < x.2.1 →
    State.reset.fld (x.1 + k * x.2.2.1) x.2.2.2.1 x.2.2.2.2.1 = x.2.2.2.2.2 := by decide +kernel

theorem resetFields_fresh : ∀ x ∈ resetFields, ∀ k, k < x.2.1 → FreshField (x.1 + k * x.2.2.1) x.2.2.2.1 := by
  have h : ∀ x ∈ resetFields, ∀ k, k < x.2.1 → Reg.TICK_CTRL ≤ x.1 + k * x.2.2.1 ∧ x.1 + k * x.2.2.1 < Reg.SEC_STAT ∧
      x.1 + k * x.2.2.1 ∉ ([Reg.PWR_CAPLIM, Reg.PWR_STAT, Reg.GDN_STOOK, Reg.GDN_INCARN] : List Nat) ∧
      (x.1 + k * x.2.2.1 ≠ Reg.MEMCH_CFG ∨ 2 ≤ x.2.2.2.1) ∧ (x.1 + k * x.2.2.1 ≠ Reg.NVC_BOOTSTAT ∨ 18 ≤ x.2.2.2.1) := by decide +kernel
  intro x hx k hk
  obtain ⟨above, below, apart, memch, boot⟩ := h x hx k hk
  exact ⟨above, below, apart, memch, boot⟩

/-- Settles O59: the fields of the Reset columns hold their values in the state after reset, they are fresh, and a release step brings fresh
fields back to that state; the rest of the main domain is as its reset leaves it. -/
theorem registersComeUpAtTheirResetColumns : Obligations.RegistersComeUpAtTheirResetColumns := by
  refine ⟨resetFields_reset, fun pins s hphase => ⟨(s.reach (s.aon.phaseAt + 200)).release pins, ?_, fun x hx k hk => ?_, ?_⟩⟩
  · rw [exec_releaseStep, execReleaseStep, if_pos hphase]
  · rw [State.fld_release _ pins _ (resetFields_fresh x hx k hk), resetFields_reset x hx k hk]
  · have eff := (s.reach (s.aon.phaseAt + 200)).release_after_mainReset pins
    refine ⟨eff.t0 rfl, eff.t1 rfl, eff.streams rfl, eff.active rfl, fun q hq => ?_⟩
    have hqueue : (s.reach (s.aon.phaseAt + 200)).mainReset.queues = List.replicate 20 idleQueue := rfl
    unfold State.queue
    rw [eff.queues rfl, hqueue, List.getElem?_replicate_of_lt (by omega)]
    rfl

end Sys2Proof.Machine
end

section
/-!
PROOFS. The tick generator: RUN (Table 2-4), and the lock to a port's frame syncs (R72 to R74).
-/
namespace Sys2Proof.Machine

/-! ### Running and stopping -/

theorem State.isFollower_of_reg {s t : State} (h : t.reg Reg.TICK_SRC = s.reg Reg.TICK_SRC) : t.isFollower = s.isFollower := by
  unfold State.isFollower
  rw [State.fld_of_reg h]

theorem exec_tickRunStart_served {s : State} {i : Iface} (al : Bool) (h : s.served i = true) :
    exec (.tickRunStart i al) s = .next ((s.setBit Reg.TICK_CTRL 1 al).runStart) := by
  rw [exec_tickRunStart, execTickRunStart, if_pos h]
  rfl

theorem exec_tickRunStop_served {s : State} {i : Iface} (al : Bool) (h : s.served i = true) :
    exec (.tickRunStop i al) s = .next ((s.setBit Reg.TICK_CTRL 1 al).runStop) := by
  rw [exec_tickRunStop, execTickRunStop, if_pos h]
  rfl

/-- SHEDALERT and RUN are bits of their own. -/
theorem State.run_setShedAlert (s : State) (al : Bool) : (s.setBit Reg.TICK_CTRL 1 al).bit Reg.TICK_CTRL 0 = s.bit Reg.TICK_CTRL 0 :=
  State.bit_setBit_apart _ _ _ _ _ _ (.inr (by decide))

/-- The registers of a start: RUN is set and both event counters are cleared. -/
def State.showStart (s : State) : State := ((s.setBit Reg.TICK_CTRL 0 true).setReg Reg.TICK_EVCNT0 0).setReg Reg.TICK_EVCNT1 0

theorem State.reg_showStart (s : State) {a : Nat} (h0 : a ≠ Reg.TICK_EVCNT0) (h1 : a ≠ Reg.TICK_EVCNT1) :
    s.showStart.reg a = (s.setBit Reg.TICK_CTRL 0 true).reg a := by
  unfold State.showStart
  rw [State.reg_setReg_apart _ _ h1, State.reg_setReg_apart _ _ h0]

theorem State.reg_showStart_apart (s : State) {a : Nat} (h : a ≠ Reg.TICK_CTRL) (h0 : a ≠ Reg.TICK_EVCNT0) (h1 : a ≠ Reg.TICK_EVCNT1) :
    s.showStart.reg a = s.reg a := by rw [s.reg_showStart h0 h1, State.reg_setBit_apart _ _ _ h]

theorem State.reg_showStart_evcnt0 (s : State) : s.showStart.reg Reg.TICK_EVCNT0 = 0 := by
  unfold State.showStart
  rw [State.reg_setReg_apart _ _ (by decide), State.reg_setReg_self]

theorem State.reg_showStart_evcnt1 (s : State) : s.showStart.reg Reg.TICK_EVCNT1 = 0 := State.reg_setReg_self _ _ _

/-- A start while ticks are stopped: the registers, and a generator that waits for its first edge. -/
theorem State.runStart_stopped (s : State) (hrun : s.bit Reg.TICK_CTRL 0 = false) (hphase : s.tick.phase = .stopped) :
    ∃ k : TickState, s.runStart = s.showStart.updTick (fun _ => k) ∧ k.phase = .starting ∧
      k.nextNominal = if s.isFollower then none else some (s.now + 1000) := by
  have hfollow : s.showStart.isFollower = s.isFollower :=
    State.isFollower_of_reg (s.reg_showStart_apart (by decide) (by decide) (by decide))
  unfold State.runStart
  rw [if_neg (by simp [hrun])]
  dsimp only
  rw [← State.showStart, if_pos (by exact hphase), hfollow]
  exact ⟨_, rfl, rfl, rfl⟩

theorem State.runStop_refused (s : State) (hrun : s.bit Reg.TICK_CTRL 0 = true) (hplan : s.active.isSome = true) :
    s.runStop = s.tickRefused := by
  unfold State.runStop
  rw [if_neg (by simp [hrun]), if_pos hplan]

/-- A stop with no plan active: RUN is cleared, and only a start that waits for its first edge ends. -/
theorem State.runStop_idle (s : State) (hrun : s.bit Reg.TICK_CTRL 0 = true) (hplan : s.active = none) :
    ∃ k : TickState, s.runStop = (s.setBit Reg.TICK_CTRL 0 false).updTick (fun _ => k) ∧
      k.phase = if s.tick.phase = .starting then .stopped else s.tick.phase := by
  unfold State.runStop
  rw [if_neg (by simp [hrun]), if_neg (by simp [hplan])]
  dsimp only
  rw [State.setBit_tick]
  split
  · exact ⟨{ s.tick with phase := .stopped }, rfl, rfl⟩
  · exact ⟨s.tick, rfl, rfl⟩

/-- Settles O17: each write is SHEDALERT's bit followed by the start, the refusal or the stop. -/
theorem runStartsAndStopsTicks : Obligations.RunStartsAndStopsTicks := by
  intro i al s hs
  have hshed : (s.setBit Reg.TICK_CTRL 1 al).bit Reg.TICK_CTRL 1 = al := State.bit_setBit _ _ _ _ (by decide)
  refine ⟨fun hrun hphase => ?start, fun hrun hplan => ?refused, fun hrun hplan => ?stop⟩
  all_goals rw [← s.run_setShedAlert al] at hrun
  case start =>
    have hctrl := (s.setBit Reg.TICK_CTRL 1 al).reg_showStart (a := Reg.TICK_CTRL) (by decide) (by decide)
    have hfollow : (s.setBit Reg.TICK_CTRL 1 al).isFollower = s.isFollower :=
      State.isFollower_of_reg (State.reg_setBit_apart _ _ _ (by decide))
    obtain ⟨k, hk, hstarting, hfirst⟩ := State.runStart_stopped _ hrun hphase
    rw [exec_tickRunStart_served al hs, hk]
    refine ⟨_, rfl, ?_, ?_, ?_, ?_, hstarting, ?_, fun a h h0 h1 => ?_,
      by simp only [State.updTick, State.showStart, State.setBit, State.setFld, State.setReg]⟩
    · rw [State.bit_updTick, State.bit_of_reg hctrl, State.bit_setBit _ _ _ _ (by decide)]
    · rw [State.bit_updTick, State.bit_of_reg hctrl, State.bit_setBit_apart _ _ _ _ _ _ (.inr (by decide)), hshed]
    · rw [State.reg_updTick, State.reg_showStart_evcnt0]
    · rw [State.reg_updTick, State.reg_showStart_evcnt1]
    · rw [← hfollow]
      exact hfirst
    · rw [State.reg_updTick, State.reg_showStart_apart _ h h0 h1, State.reg_setBit_apart _ _ _ h]
  case refused =>
    rw [exec_tickRunStop_served al hs, State.runStop_refused _ hrun hplan]
    refine ⟨_, rfl, ?_, ?_, ?_, ?_⟩
    · unfold State.tickRefused
      rw [State.bit_raise_apart _ _ _ _ _ (by decide) (.inl (by decide)), State.bit_logError _ _ _ _ _ (by decide), hrun]
    · exact State.bit_raise _ _ _ _ (by decide) (by decide)
    · simp [State.tickRefused]
    · simp [State.tickRefused]
  case stop =>
    obtain ⟨k, hk, hphase⟩ := State.runStop_idle _ hrun hplan
    rw [exec_tickRunStop_served al hs, hk]
    refine ⟨_, rfl, ?_, ?_, hphase, fun a h => ?_, by simp only [State.updTick, State.setBit, State.setFld, State.setReg]⟩
    · rw [State.bit_updTick, State.bit_setBit _ _ _ _ (by decide)]
    · rw [State.bit_updTick, State.bit_setBit_apart _ _ _ _ _ _ (.inr (by decide)), hshed]
    · rw [State.reg_updTick, State.reg_setBit_apart _ _ _ h, State.reg_setBit_apart _ _ _ h]

/-! ### Lock and holdover -/

/-- Where lock is lost, only the tick generator's bookkeeping of the port's syncs changes. -/
theorem State.enterHoldover_tick (s : State) : s.enterHoldover.tick =
    { s.tick with lockRun := 0, seeking := s.bit Reg.TICK_SRC 31, syncs := 0, spanStart := none } := by
  unfold State.enterHoldover
  dsimp only
  rw [State.bit_raise_apart _ _ _ _ _ (by decide) (.inl (by decide)), State.bit_setBit_apart _ _ _ _ _ _ (.inl (by decide)),
    State.bit_setBit_apart _ _ _ _ _ _ (.inl (by decide)), State.updTick, State.raise_tick]
  rfl

/-- Where lock is lost, LOCKED is cleared and HOLDOVER and SRCCHG are set. -/
theorem State.enterHoldover_bits (s : State) : s.enterHoldover.bit Reg.TICK_STAT 2 = false ∧ s.enterHoldover.bit Reg.TICK_STAT 3 = true ∧
    s.enterHoldover.bit Reg.TICK_STAT 14 = true := by
  unfold State.enterHoldover
  refine ⟨?_, ?_, State.bit_raise _ _ _ _ (by decide) (by decide)⟩ <;>
    rw [State.bit_updTick, State.bit_raise_apart _ _ _ _ _ (by decide) (.inr (by decide))]
  · rw [State.bit_setBit_apart _ _ _ _ _ _ (.inr (by decide)), State.bit_setBit _ _ _ _ (by decide)]
  · rw [State.bit_setBit _ _ _ _ (by decide)]

/-- Lock is lost with the next nominal edge placed at `e`. -/
def State.holdoverAt (s : State) (e : Nat) : State := (s.updTick fun k => { k with nextNominal := some e }).enterHoldover

theorem State.holdoverAt_facts (s : State) (e : Nat) : (s.holdoverAt e).tick.nextNominal = some e ∧
    (s.holdoverAt e).bit Reg.TICK_STAT 2 = false ∧ (s.holdoverAt e).bit Reg.TICK_STAT 3 = true ∧ (s.holdoverAt e).bit Reg.TICK_STAT 14 = true ∧
    (s.holdoverAt e).tick.seeking = s.bit Reg.TICK_SRC 31 := by
  unfold State.holdoverAt
  obtain ⟨locked, holdover, changed⟩ := (s.updTick fun k => { k with nextNominal := some e }).enterHoldover_bits
  rw [State.enterHoldover_tick]
  exact ⟨rfl, locked, holdover, changed, rfl⟩

theorem exec_portFrameSync_locked {s : State} {p : Fin 4} (u : Nat) (hport : s.tickPort = some p.val) (hlock : s.locked = true)
    (hstop : s.tick.phase ≠ .stopped) (hstart : s.tick.phase ≠ .starting) :
    exec (.portFrameSync p u) s = .next ((s.reach u).lockedSync u) := by
  rw [exec_portFrameSync, execPortFrameSync, if_pos (by simp [hport, hstop, hstart])]
  dsimp only
  rw [if_pos (by exact hlock)]

/-- The four things a frame sync of a locked port can be, with the next edge not yet placed and lock older than its first edge: one before
the N-th, an early one, a late one, or the edge (R73). -/
theorem State.lockedSync_eq (s : State) (u : Nat) (hnext : s.tick.nextNominal = none) (hrun : s.tick.lockRun < 10) : s.lockedSync u =
    if s.tick.syncs + 1 < s.fld Reg.TICK_SRC 16 13 then s.updTick fun k => { k with syncs := k.syncs + 1 }
    else if u + s.tickW < s.tick.edge + s.tickP then s.holdoverAt (s.tick.edge + s.tickP)
    else if s.tick.edge + s.tickP + s.tickW < u then s.holdoverAt (s.tick.edge + s.tickP + s.tickW)
    else s.updTick fun k => { k with nextNominal := some u, syncs := 0 } := by
  unfold State.lockedSync State.holdoverAt
  dsimp only
  rw [if_neg (by simp [hnext]), if_neg (by omega)]

theorem exec_holdover_due {s : State} (hlock : s.locked = true) (hstop : s.tick.phase ≠ .stopped) (hstart : s.tick.phase ≠ .starting)
    (hnext : s.tick.nextNominal = none) : exec .holdover s =
      .next ((s.reach (s.tick.edge + s.tickP + s.tickW)).holdoverAt (s.tick.edge + s.tickP + s.tickW)) := by
  rw [exec_holdover, execHoldover, if_pos (by simp [hlock, hstop, hstart, hnext])]
  rfl

/-- The bits of a lock: LOCKED is set and HOLDOVER is cleared. -/
def State.showLock (s : State) : State := (s.setBit Reg.TICK_STAT 2 true).setBit Reg.TICK_STAT 3 false

theorem exec_lockAcquired_ready {s : State} (hport : s.tickPort.isSome = true) (hlock : s.bit Reg.TICK_STAT 2 = false)
    (hseek : s.tick.seeking = true) (hrun : 10 ≤ s.tick.lockRun) :
    exec .lockAcquired s = .next (s.showLock.updTick fun t => { t with syncs := 0, spanStart := none }) := by
  rw [exec_lockAcquired, execLockAcquired, if_pos (by simp [State.locked, hport, hlock, hseek, hrun])]
  rfl

/-- Settles O21: a frame sync of the locked port is one of four things, and two of them, like HOLDOVER, lose the lock. -/
theorem lockAndHoldoverFollowThePortsFrameSyncs : Obligations.LockAndHoldoverFollowThePortsFrameSyncs := by
  refine ⟨fun s p u hport hlock hstop hstart hnext hrun => ?_, fun s hlock hstop hstart hnext => ?_, fun s hport hlock hseek hrun => ?_⟩
  · rw [exec_portFrameSync_locked u hport hlock hstop hstart, State.lockedSync_eq _ u (by exact hnext) (by exact hrun)]
    refine ⟨fun hn => ?counted, fun hn hlo hhi => ?placed, fun hn hlo => ?early, fun hn hhi => ?late⟩
    case counted =>
      rw [if_pos (by exact hn)]
      exact ⟨_, rfl, rfl, rfl⟩
    case placed =>
      rw [if_neg (by exact Nat.not_lt.2 hn), if_neg (by exact Nat.not_lt.2 hlo), if_neg (by exact Nat.not_lt.2 hhi)]
      exact ⟨_, rfl, rfl, rfl⟩
    case early =>
      rw [if_neg (by exact Nat.not_lt.2 hn), if_pos (by exact hlo)]
      obtain ⟨next, locked, holdover, changed, -⟩ := (s.reach u).holdoverAt_facts (s.tick.edge + s.tickP)
      exact ⟨_, rfl, next, locked, holdover, changed⟩
    case late =>
      have hlate : ¬ u + s.tickW < s.tick.edge + s.tickP := by omega
      rw [if_neg (by exact Nat.not_lt.2 hn), if_neg (by exact hlate), if_pos (by exact hhi)]
      obtain ⟨next, locked, holdover, changed, -⟩ := (s.reach u).holdoverAt_facts (s.tick.edge + s.tickP + s.tickW)
      exact ⟨_, rfl, next, locked, holdover, changed⟩
  · rw [exec_holdover_due hlock hstop hstart hnext]
    exact ⟨_, rfl, State.holdoverAt_facts _ _⟩
  · rw [exec_lockAcquired_ready hport hlock hseek hrun]
    refine ⟨_, rfl, ?_, ?_, fun a ha => ?_,
      by simp only [State.updTick, State.showLock, State.setBit, State.setFld, State.setReg]⟩
    · rw [State.bit_updTick, State.showLock, State.bit_setBit_apart _ _ _ _ _ _ (.inr (by decide)), State.bit_setBit _ _ _ _ (by decide)]
    · rw [State.bit_updTick, State.showLock, State.bit_setBit _ _ _ _ (by decide)]
    · rw [State.reg_updTick, State.showLock, State.reg_setBit_apart _ _ _ ha, State.reg_setBit_apart _ _ _ ha]

end Sys2Proof.Machine
end

section
/-!
PROOFS. The tick edge (R53, R58, R63, R80).
-/
namespace Sys2Proof.Machine

/-! ### The engines at the edge -/

/-- What an engine is at the edge: at the start of its latched variant, or not running. -/
def EngState.started (g : EngState) : EngState :=
  match g.next with
  | none => { idleEng with variant := g.variant }
  | some v => { g with
      running := true, variant := v.variant, next := none, pc := v.start, stop := v.start + v.length, loops := [], cycles := 0,
      remain := v.budget, bubbles := 0, waiting := none, posted := [], counts := ⟨0, 0, 0, 0, 0, 0, 0, 0, 0⟩ }

theorem EngState.started_idle {g : EngState} (h : g.next = none) : g.started.running = false := by
  unfold EngState.started
  rw [h]
  rfl

theorem EngState.started_variant {g : EngState} {v : VariantRec} (h : g.next = some v) : g.started = { g with
    running := true, variant := v.variant, next := none, pc := v.start, stop := v.start + v.length, loops := [], cycles := 0,
    remain := v.budget, bubbles := 0, waiting := none, posted := [], counts := ⟨0, 0, 0, 0, 0, 0, 0, 0, 0⟩ } := by
  unfold EngState.started
  rw [h]

theorem State.startEngine_engs (s : State) (e : Nat) : (s.startEngine e).engs = (s.setEng e (s.eng e).started).engs := by
  unfold State.startEngine EngState.started
  dsimp only
  cases (s.eng e).next with
  | none => rfl
  | some v =>
    dsimp only
    rw [State.setBusy_engs, State.setFld_engs]

/-- The start of the first `m` engines: each of them is started, and the others are as they were. -/
theorem State.eng_startEngines (s : State) {m : Nat} (hm : m ≤ s.engs.length) :
    ((List.range m).foldl (fun s e => s.startEngine e) s).engs.length = s.engs.length ∧
    ∀ n, ((List.range m).foldl (fun s e => s.startEngine e) s).eng n = if n < m then (s.eng n).started else s.eng n := by
  induction m with
  | zero => exact ⟨rfl, fun _ => rfl⟩
  | succ m ih =>
    obtain ⟨hlen, heng⟩ := ih (by omega)
    rw [List.range_succ, List.foldl_append, List.foldl_cons, List.foldl_nil]
    generalize (List.range m).foldl (fun s e => s.startEngine e) s = u at hlen heng
    have hengs := u.startEngine_engs m
    refine ⟨by rw [hengs, State.setEng_length, hlen], fun n => ?_⟩
    rw [State.eng_of_engs hengs]
    by_cases hn : n = m
    · subst hn
      rw [State.eng_setEng _ _ _ (by omega), heng, if_neg (by omega), if_pos (by omega)]
    · rw [State.eng_setEng_apart _ _ _ _ hn, heng]
      simp only [show n < m + 1 ↔ n < m by omega]

/-! ### The parts of a start -/

theorem State.startKnots_posts (s : State) : s.startKnots.posts = [] := by
  unfold State.startKnots
  exact foldl_keeps (P := fun t : State => t.posts = []) _ (fun t k ht => (State.setReg_posts ..).trans ht) _ rfl

theorem State.startRows_rows (s : State) : s.startRows.rows = s.nextRows.getD [] ∧ s.startRows.nextRows = none := by
  unfold State.startRows
  exact ⟨rfl, rfl⟩

/-- The tick counts, its knots and rows are in force, and every engine is started. -/
def State.startSlices (s : State) (e a : Nat) : State :=
  let s := s.reach a
  let s := s.setReg64 Reg.TICK_COUNT_LO (s.tickNo + 1 + s.tick.skips)
  let lag := a - e
  let s := s.setFld Reg.TICK_LAG 0 16 (satNat 16 lag)
  let s := s.setFld Reg.TICK_LAGPEAK 0 16 (max (s.fld Reg.TICK_LAGPEAK 0 16) (satNat 16 lag))
  let s := (s.startKnots).startRows
  (List.range 33).foldl (fun (s : State) e => s.startEngine e) s

/-- The status bits of a tick that runs. -/
def State.showTick (s : State) : State :=
  let s := ((s.setBit Reg.TICK_STAT 0 true).setBit Reg.TICK_STAT 1 false).setBit Reg.CART_STAT 16 false
  if s.isFollower then s.setBit Reg.TICK_STAT 4 false else s

/-- The tick generator and the bubbles at an edge. -/
def State.setEdge (s : State) (e a : Nat) : State :=
  let s := s.updTick fun t =>
    { t with phase := .slice, nominal := e, edge := a, nextNominal := none, cls := t.nextCls, nextCls := .normal, workEnd := a, skips := 0,
             nextLag := 0, stepsDone := false, classed := false, members := [], rejoining := false,
             syncs := if s.locked then 0 else t.syncs }
  { s with power := { s.power with common := 0, commonAt := 0 } }

/-- What the edge gives the audio blocks and TICK_SYNC. -/
def State.edgeOut (s : State) (first : Prop) [Decidable first] (lag a : Nat) : State :=
  let s := if first then s.audioStart else s
  let s := s.audioEdge lag
  if s.isMaster then s.emit (.tickSync a) else s

theorem State.startTick_eq (s : State) (e a : Nat) :
    s.startTick e a = ((s.startSlices e a).showTick.setEdge e a).edgeOut (s.tick.phase = .starting) (a - e) a := by
  unfold State.startTick State.startSlices State.showTick State.setEdge State.edgeOut
  with_reducible rfl

theorem State.startSlices_facts (s : State) (e a : Nat) : (s.startSlices e a).now = max s.now a ∧ (s.startSlices e a).posts = [] ∧
    (s.startSlices e a).rows = s.nextRows.getD [] ∧ (s.startSlices e a).nextRows = none ∧ (s.startSlices e a).tick = s.tick := by
  unfold State.startSlices
  extract_lets s1 s2 lag s3 s4 s5
  have count : Eff 0x8 s1 s4 := State.setFld_eff Sub.rfl <| State.setFld_eff Sub.rfl <| State.setReg64_eff Sub.rfl Eff.refl
  have knots : Eff 0x4008 s4 s4.startKnots := State.startKnots_eff Sub.rfl Eff.refl
  have rows : Eff 0x100007C0008 s4.startKnots s5 := State.startRows_eff Sub.rfl Eff.refl
  have engs : Eff 0x2008 s5 ((List.range 33).foldl (fun s e => s.startEngine e) s5) :=
    Eff.foldl _ (fun _ _ h => State.startEngine_eff Sub.rfl h) Eff.refl
  obtain ⟨hrows, hnext⟩ := s4.startKnots.startRows_rows
  refine ⟨?_, ?_, ?_, ?_, ?_⟩
  · rw [engs.now rfl, rows.now rfl, knots.now rfl, count.now rfl]; rfl
  · rw [engs.posts rfl, rows.posts rfl, State.startKnots_posts]
  · rw [engs.rows rfl, hrows, knots.nextRows rfl, count.nextRows rfl]; rfl
  · rw [engs.nextRows rfl, hnext]
  · rw [engs.tick rfl, rows.tick rfl, knots.tick rfl, count.tick rfl]; rfl

theorem State.eng_startSlices (s : State) (e a : Nat) (h : s.engs.length = 33) {n : Nat} (hn : n < 33) :
    (s.startSlices e a).eng n = (s.eng n).started := by
  unfold State.startSlices
  extract_lets s1 s2 lag s3 s4 s5
  have before : Eff 0x100007C400C s s5 := State.startRows_eff ⟨rfl⟩ <| State.startKnots_eff ⟨rfl⟩ <| State.setFld_eff ⟨rfl⟩ <|
    State.setFld_eff ⟨rfl⟩ <| State.setReg64_eff ⟨rfl⟩ <| State.reach_eff ⟨rfl⟩ Eff.refl
  have hengs : s5.engs = s.engs := before.engs rfl
  rw [(s5.eng_startEngines (m := 33) (by rw [hengs, h])).2, if_pos hn, State.eng_of_engs hengs]

theorem State.showTick_eff (s : State) : Eff 0x8 s s.showTick := by
  unfold State.showTick
  have h : Eff 0x8 s (((s.setBit Reg.TICK_STAT 0 true).setBit Reg.TICK_STAT 1 false).setBit Reg.CART_STAT 16 false) :=
    State.setBit_eff Sub.rfl <| State.setBit_eff Sub.rfl <| State.setBit_eff Sub.rfl Eff.refl
  exact Eff.ite (State.setBit_eff Sub.rfl h) h

theorem State.edgeOut_eff (s : State) (first : Prop) [Decidable first] (lag a : Nat) :
    Eff 0x10080200110083800008 s (s.edgeOut first lag a) := by
  unfold State.edgeOut
  have h : Eff 0x10080200110083800008 s ((if first then s.audioStart else s).audioEdge lag) :=
    State.audioEdge_eff Sub.rfl <| Eff.ite (State.audioStart_eff ⟨rfl⟩ Eff.refl) Eff.refl
  exact Eff.ite (State.emit_eff ⟨rfl⟩ h) h

/-- Behind the start of the slices only the status bits, the tick generator, the bubbles and the outputs change. -/
theorem State.startTick_facts (s : State) (e a : Nat) :
    (s.startTick e a).tick = { s.tick with
      phase := .slice, nominal := e, edge := a, nextNominal := none, cls := s.tick.nextCls, nextCls := .normal, workEnd := a, skips := 0,
      nextLag := 0, stepsDone := false, classed := false, members := [], rejoining := false, syncs := (s.startTick e a).tick.syncs } ∧
    (s.startTick e a).now = max s.now a ∧ (s.startTick e a).rows = s.nextRows.getD [] ∧ (s.startTick e a).nextRows = none ∧
    (s.startTick e a).posts = [] ∧ (s.startTick e a).engs = (s.startSlices e a).engs := by
  obtain ⟨hnow, hposts, hrows, hnext, htick⟩ := s.startSlices_facts e a
  have shown := (s.startSlices e a).showTick_eff
  have out := ((s.startSlices e a).showTick.setEdge e a).edgeOut_eff (s.tick.phase = .starting) (a - e) a
  rw [← State.startTick_eq] at out
  refine ⟨?_, (out.now rfl).trans ((shown.now rfl).trans hnow), (out.rows rfl).trans ((shown.rows rfl).trans hrows),
    (out.nextRows rfl).trans ((shown.nextRows rfl).trans hnext), (out.posts rfl).trans ((shown.posts rfl).trans hposts),
    (out.engs rfl).trans (shown.engs rfl)⟩
  rw [out.tick rfl, State.setEdge, State.updTick, shown.tick rfl, htick]

theorem exec_tickEdge_run {s : State} {e a : Nat} (h : s.edgeDue = some (e, a)) (hrun : s.bit Reg.TICK_CTRL 0 = true) :
    exec .tickEdge s = .next (s.startTick e a) := by
  rw [exec_tickEdge, execTickEdge, h]
  exact congrArg _ (if_pos hrun)

theorem exec_tickEdge_stop {s : State} {e a : Nat} (h : s.edgeDue = some (e, a)) (hrun : s.bit Reg.TICK_CTRL 0 = false) :
    exec .tickEdge s = .next (s.reach a).stopTicks := by
  rw [exec_tickEdge, execTickEdge, h]
  exact congrArg _ (if_neg (by simp [hrun]))

/-- The engines of a stop: the writes that take effect reach none. -/
theorem State.stopTicks_facts (s : State) : s.stopTicks.tick.phase = .stopped ∧ s.stopTicks.engs = s.engs ∧ s.stopTicks.rwtHeld = [] := by
  refine ⟨?_, (State.stopTicks_eff Sub.rfl Eff.refl).engs rfl, State.rwtHeld_applyHeld _⟩
  unfold State.stopTicks
  exact (State.applyHeld_clock Clock.refl).phase

/-- Settles O18: the start's parts, each with what it gives, behind which only the edge's outputs follow. -/
theorem tickEdgeStartsEverySlice : Obligations.TickEdgeStartsEverySlice := by
  refine ⟨fun s e a hdue hrun hlen => ⟨s.startTick e a, exec_tickEdge_run hdue hrun, ?_⟩,
    fun s e a hdue hrun => ⟨_, exec_tickEdge_stop hdue hrun, (s.reach a).stopTicks_facts⟩⟩
  obtain ⟨htick, hnow, hrows, hnext, hposts, hengs⟩ := s.startTick_facts e a
  have whole : Eff 0x100C0200110083FC608C s (s.startTick e a) := State.startTick_eff Sub.rfl Eff.refl
  rw [htick]
  refine ⟨rfl, rfl, rfl, rfl, rfl, rfl, rfl, rfl, hnow, hrows, hnext, hposts, whole.active rfl, whole.t1 rfl, whole.banks rfl, fun n hn => ?_⟩
  rw [State.eng_of_engs hengs, s.eng_startSlices e a hlen hn]
  cases hvariant : (s.eng n).next with
  | none => exact EngState.started_idle hvariant
  | some v => exact EngState.started_variant hvariant

end Sys2Proof.Machine
end

section
/-!
PROOFS. The words that run for a cost: format T and FIXJOB (R61, R62, R136, R151).
-/
namespace Sys2Proof.Machine

/-! ### Engines that stand, their counters aside -/

theorem EngState.eq_of_stand {g h : EngState} (e : g.stand = h.stand) : g = { h with counts := g.counts } :=
  congrArg (fun x : EngState => { x with counts := g.counts }) e

/-- An engine that is not listed never runs. -/
theorem State.listed_of_running {s : State} {e : Nat} (h : (s.eng e).running = true) : e < s.engs.length := by
  refine Nat.lt_of_not_le fun hle => ?_
  rw [State.eng, List.getElem?_eq_none hle] at h
  exact absurd h (by decide)

/-! ### The clock of an engine -/

/-- An engine's clock depends on the registers and the power state alone. -/
theorem State.after_congr {s t : State} (hregs : t.regs = s.regs) (hpower : t.power = s.power) (e c n : Nat) : t.after e c n = s.after e c n := by
  have hcap : t.capDuty = s.capDuty := by unfold State.capDuty State.fld State.reg; rw [hregs]
  have hduty : ∀ c, t.dutyAt c = s.dutyAt c := fun c => by unfold State.dutyAt; rw [hcap, hpower]
  have hsteady : t.steadyFrom = s.steadyFrom := by unfold State.steadyFrom; rw [hpower]
  have hadvance : ∀ fuel c n, t.advance fuel c n = s.advance fuel c n := by
    intro fuel
    induction fuel with
    | zero => intro c n; rfl
    | succ fuel ih => intro c n; unfold State.advance; simp only [hduty, hsteady, ih]
  unfold State.after
  rw [hadvance]

theorem State.workedEng_draw {s u : State} (h : Eff 0x2 s u) (e n : Nat) : u.workedEng e n = s.workedEng e n := by
  unfold State.workedEng
  rw [State.eng_of_engs (h.engs rfl)]
  simp only [State.after_congr (h.regs rfl) (h.power rfl)]

/-! ### Running a word -/

/-- The meaning of a word on engine `e`: it runs for a cost between the bounds, which may have drawn a free value, and its effect moves no
engine. -/
def RunsWithin (s : State) (e lo hi : Nat) (o : Host.Outcome State Fault Refusal) : Prop :=
  ∃ (n : Nat) (f : State → State) (u : State), o = .next (u.runFor e n f) ∧ Eff 0x2 s u ∧ lo ≤ n ∧ n ≤ max lo hi ∧ ∀ v, Stand v (f v)

theorem RunsWithin.of_runWord {s : State} {e : Nat} {w : DWord} (n : Nat) {f : State → State} (hw : s.standsAt e w = true)
    (hf : ∀ v, Stand v (f v)) : RunsWithin s e n n (.next (s.runWord e w n f)) := by
  refine ⟨n, f, s, ?_, Eff.refl, Nat.le_refl n, by omega, hf⟩
  unfold State.runWord
  rw [if_pos hw]

/-- A word whose budget lasts: its engine has worked the cost and stands at the next word, and every other engine is as it was. -/
theorem State.runFor_retires {u : State} {e n : Nat} {f : State → State} (he : e < u.engs.length) (hn : n < (u.eng e).remain)
    (hf : ∀ v, Stand v (f v)) : (u.runFor e n f).eng e = { u.workedEng e n with counts := ((u.runFor e n f).eng e).counts } ∧
      ∀ k, k ≠ e → (u.runFor e n f).eng k = { u.eng k with counts := ((u.runFor e n f).eng k).counts } := by
  have hrun : u.runFor e n f = (f (u.work e n)).retire e := by
    unfold State.runFor State.tooDear
    rw [if_neg (by simpa using hn)]
  have hwork := u.work_eq e n
  have stands := hf (u.work e n)
  have hlen : e < (f (u.work e n)).engs.length := by rw [stands.length, hwork, State.setEng_length]; exact he
  have heng := fun k => EngState.eq_of_stand (stands.eng k)
  rw [hrun, State.retire_eq]
  refine ⟨?_, fun k hk => ?_⟩
  · rw [State.eng_setEng _ _ _ hlen, heng e, hwork, State.eng_setEng _ _ _ he]
    rfl
  · have hwork_k : (u.work e n).eng k = u.eng k := by rw [hwork, State.eng_setEng_apart _ _ _ _ hk]
    rw [State.eng_setEng_apart _ _ _ _ hk, ← hwork_k]
    exact heng k

/-- A word whose budget does not last ends the slice as one with an exhausted budget. -/
theorem State.runFor_exhausts {u : State} {e n : Nat} (f : State → State) (he : e < u.engs.length) (he' : e < 33)
    (hn : (u.eng e).remain ≤ n) : ((u.runFor e n f).eng e).running = false ∧ (u.runFor e n f).bit Reg.TICK_STAT 13 = true ∧
      (u.runFor e n f).bit Reg.PLAN_STAT 9 = true := by
  have hrun : u.runFor e n f = (u.work e (u.eng e).remain).exhaust e := by
    unfold State.runFor State.tooDear
    rw [if_pos (by simpa using hn)]
  rw [hrun]
  obtain ⟨hstop, hbudget, hfault, -⟩ := (u.work e (u.eng e).remain).exhaust_facts e
    (by rw [State.work_eq, State.setEng_length]; exact he) he'
  exact ⟨hstop, hbudget, hfault⟩

/-! ### The cost of a Thresher word -/

theorem State.boundedCost_within (s : State) (lo hi : Nat) : lo ≤ (s.boundedCost lo hi).1 ∧ (s.boundedCost lo hi).1 ≤ max lo hi := by
  unfold State.boundedCost
  split
  · exact ⟨Nat.le_refl lo, Nat.le_max_left lo hi⟩
  · next h =>
    have hmod : s.draw.1 % (hi - lo + 1) < hi - lo + 1 := Nat.mod_lt _ (Nat.succ_pos _)
    dsimp only
    omega

/-- The cost of a Thresher word lies between its cost without T1 and, where it reads T1, the bound that T1 sets (R151). -/
theorem State.thresherCost_within (s : State) (q blocks b : Nat) (t1 : Bool) :
    s.planRows * blocks * (64 * ceilDiv q 16) + 160 ≤ (s.thresherCost q blocks b t1).1 ∧
    (s.thresherCost q blocks b t1).1 ≤ max (s.planRows * blocks * (64 * ceilDiv q 16) + 160)
      (if t1 then s.planRows * blocks * max (64 * ceilDiv q 16) (t1Cost b t1Requesters) + 160
        else s.planRows * blocks * (64 * ceilDiv q 16) + 160) := by
  unfold State.thresherCost
  cases t1 with
  | false => exact ⟨Nat.le_refl _, Nat.le_max_left _ _⟩
  | true => exact s.boundedCost_within _ _

/-- A Thresher word runs for a cost between the bounds of `thresherBounds`. -/
theorem RunsWithin.of_thresher {s : State} {e q blocks b : Nat} {t1 : Bool} {f : State → State} (hf : ∀ v, Stand v (f v)) :
    RunsWithin s e (s.planRows * blocks * (64 * ceilDiv q 16) + 160)
      (if t1 then s.planRows * blocks * max (64 * ceilDiv q 16) (t1Cost b t1Requesters) + 160
        else s.planRows * blocks * (64 * ceilDiv q 16) + 160)
      (.next ((s.thresherCost q blocks b t1).2.runFor e (s.thresherCost q blocks b t1).1 f)) := by
  obtain ⟨hlo, hhi⟩ := s.thresherCost_within q blocks b t1
  exact ⟨_, f, _, rfl, State.thresherCost_eff Sub.rfl Eff.refl, hlo, hhi, hf⟩

/-! ### Every word of a cost -/

theorem Stand.of_eff {f : State → State} {m : Nat} (h : ∀ v, Eff m v (f v)) (hm : m.testBit 13 = false) (v : State) : Stand v (f v) :=
  Stand.refl.eff (h v) hm

/-- Each word of a cost, at which its engine stands, runs within its bounds. -/
theorem exec_runsWithin {c : Instr} {s : State} {e : Nat} {w : DWord} {lo hi : Nat} (hc : s.wordCost c = some (e, w, lo, hi))
    (hw : s.standsAt e w = true) : RunsWithin s e lo hi (exec c s) := by
  cases c <;> cases hc
  case fixjob e j => rw [exec_fixjob]; exact .of_runWord _ hw (.of_eff (fun _ => State.runJob_eff Sub.rfl Eff.refl) rfl)
  case vlut n f => rw [exec_vlut]; exact .of_runWord _ hw (.of_eff (fun _ => State.vlut_eff Sub.rfl Eff.refl) rfl)
  case topk f => rw [exec_topk]; exact .of_runWord _ hw (.of_eff (fun _ => State.topk_eff Sub.rfl Eff.refl) rfl)
  case beam f => rw [exec_beam]; exact .of_runWord _ hw (.of_eff (fun _ => State.beam_eff Sub.rfl Eff.refl) rfl)
  case pagesel f => rw [exec_pagesel]; exact .of_runWord _ hw (.of_eff (fun _ => State.pagesel_eff Sub.rfl Eff.refl) rfl)
  case mmul n f => rw [exec_mmul]; exact .of_runWord _ hw fun _ => State.mmul_stand Stand.refl
  case accout n f => rw [exec_accout]; exact .of_runWord _ hw fun _ => State.accout_stand Stand.refl
  case gate n f => rw [exec_gate]; exact .of_runWord _ hw fun _ => State.gate_stand Stand.refl
  case vadd n f => rw [exec_vadd]; exact .of_runWord _ hw fun _ => State.vadd_stand Stand.refl
  case vmul n f => rw [exec_vmul]; exact .of_runWord _ hw fun _ => State.vmul_stand Stand.refl
  case vnorm n f => rw [exec_vnorm]; exact .of_runWord _ hw fun _ => State.vnorm_stand Stand.refl
  case vmask n f => rw [exec_vmask]; exact .of_runWord _ hw fun _ => State.vmask_stand Stand.refl
  case fattn n f => rw [exec_fattn]; exact .of_runWord _ hw fun _ => State.fattn_stand Stand.refl
  case scan f => rw [exec_scan]; exact .of_runWord _ hw fun _ => State.scan_stand Stand.refl
  case sample f => rw [exec_sample]; exact .of_runWord _ hw fun _ => State.sample_stand Stand.refl
  case hrot n f => rw [exec_hrot]; exact .of_runWord _ hw fun _ => State.hrot_stand Stand.refl
  case req n f => rw [exec_req]; exact .of_runWord _ hw fun _ => State.req_stand Stand.refl
  case kvapp n f => rw [exec_kvapp]; exact .of_runWord _ hw fun _ => State.kvapp_stand Stand.refl
  case sattn n f => rw [exec_sattn, execSattn, if_pos hw]; exact .of_thresher fun _ => State.sattn_stand Stand.refl
  case sumsc n f => rw [exec_sumsc, execSumsc, if_pos hw]; exact .of_thresher fun _ => State.sumsc_stand Stand.refl
  case sprob n f => rw [exec_sprob, execSprob, if_pos hw]; exact .of_thresher fun _ => State.sprob_stand Stand.refl

/-- Settles O26: a word runs within its bounds, and so retires or exhausts the budget. -/
theorem wordsRetireAfterTheirCost : Obligations.WordsRetireAfterTheirCost := by
  intro c s e w lo hi hlen hc hw
  obtain ⟨-, hrunning⟩ := s.standsAt_waiting hw
  have he := State.listed_of_running hrunning
  obtain ⟨n, f, u, hexec, drawn, hlo, hhi, hf⟩ := exec_runsWithin hc hw
  have heng : ∀ k, u.eng k = s.eng k := State.eng_of_engs (drawn.engs rfl)
  have hu : e < u.engs.length := by rw [drawn.engs rfl]; exact he
  refine ⟨fun hbudget => ?_, fun hbudget => ?_⟩
  · obtain ⟨hself, hothers⟩ := State.runFor_retires hu (n := n) (by rw [heng]; omega) hf
    refine ⟨_, n, hexec, hlo, hhi, ?_, fun k hk => ?_⟩
    · rw [← State.workedEng_draw drawn]; exact hself
    · rw [← heng k]; exact hothers k hk
  · obtain ⟨hstop, hticks, hplan⟩ := State.runFor_exhausts (n := n) f hu (by omega) (by rw [heng]; omega)
    exact ⟨_, hexec, hstop, hticks, hplan⟩

end Sys2Proof.Machine
end

section
/-!
PROOFS. Requests that act in a fallow window, and the start of a load (R56, R145 to R148, R315 to R322).
-/
namespace Sys2Proof.Machine

/-- The commands whose request waits for its step of a fallow window, with the kind of the request. -/
def fallowRequests (q : Fin 16) (tag : BitVec 16) : List (Instr × Nat) :=
  [(.planActivate q tag, 0x11), (.planDiscard q tag, 0x12), (.streamOpen q tag, 0x20), (.streamClose q tag, 0x21),
    (.streamPause q tag, 0x22), (.streamResume q tag, 0x23), (.streamAbort q tag, 0x24), (.stateExport q tag, 0x25), (.migrate q tag, 0x26),
    (.audioBind q tag, 0x30), (.audioUnbind q tag, 0x31), (.overlay q tag, 0x40)]

/-- Each of these commands makes a request of its kind due. -/
theorem exec_fallowRequest (q : Fin 16) (tag : BitVec 16) (s : State) :
    ∀ x ∈ fallowRequests q tag, exec x.1 s = .next (s.dueReq q x.2 tag.toNat) := by
  unfold fallowRequests
  simp only [List.forall_mem_cons]
  exact ⟨exec_planActivate s q tag, exec_planDiscard s q tag, exec_streamOpen s q tag, exec_streamClose s q tag, exec_streamPause s q tag,
    exec_streamResume s q tag, exec_streamAbort s q tag, exec_stateExport s q tag, exec_migrate s q tag, exec_audioBind s q tag,
    exec_audioUnbind s q tag, exec_overlay s q tag, List.forall_mem_nil _⟩

theorem State.dueReq_waiting {s : State} {q kind tag : Nat} (hcore : s.coreUp 1 = true) (h : (s.waitingReq q kind tag).isSome = true) :
    s.dueReq q kind tag = s.updQueue q fun h => { h with reqs := updReq tag (fun r => { r with state := .due }) h.reqs } := by
  obtain ⟨r, hr⟩ := Option.isSome_iff_exists.1 h
  unfold State.dueReq
  rw [hcore, hr]

theorem exec_planLoad_waiting {s : State} {q : Fin 16} {tag : BitVec 16} {r : Req} (h1 : s.coreUp 1 = true) (h0 : s.coreUp 0 = true)
    (hr : s.waitingReq q 0x10 tag.toNat = some r) : exec (.planLoad q tag) s = .next (s.planLoad q r) := by
  rw [exec_planLoad, execPlanLoad, h1, h0, hr]
  rfl

/-- A load whose buffer R300 does not allow settles at once. -/
theorem State.planLoad_badBuffer {s : State} {r : Req} (q : Nat) (h : r.len = 0 ∨ s.bufferOk r.addr r.len false = false) :
    s.planLoad q r = s.settled q r.tag 0x06 1 0 0xFF := by
  unfold State.planLoad
  rw [if_pos (by simpa using h)]
  rfl

/-- A load that passes its first checks is in progress, and its request acts (R145). -/
def State.beginLoad (s : State) (q : Nat) (r : Req) : State :=
  ({ s with load := some { q := q, tag := r.tag, src := r.addr, hdr := readHdr (s.imageAt r.addr), imgLen := imgLen (s.imageAt r.addr),
                           done := 0 } }.setBit Reg.PLAN_STAT 2 true).actReq q r.tag

theorem State.loading_beginLoad (s : State) (q : Nat) (r : Req) : (s.beginLoad q r).bit Reg.PLAN_STAT 2 = true := by
  unfold State.beginLoad State.actReq
  rw [State.bit_updQueue, State.bit_setBit _ _ _ _ (by decide)]

theorem State.planLoad_begins {s : State} {r : Req} (q : Nat) (hlen : r.len ≠ 0) (hbuf : s.bufferOk r.addr r.len false = true)
    (hsense : s.senseRange r.addr r.len = (none, s)) (hcheck : s.checkFirst (s.imageAt r.addr) r.len = none) (hplan : s.active.isSome = true) :
    s.planLoad q r = s.beginLoad q r := by
  unfold State.planLoad
  rw [if_neg (by simp [hlen, hbuf]), hsense]
  dsimp only
  rw [hcheck]
  show (if s.active.isSome = true then s.beginLoad q r else _) = _
  rw [if_pos hplan]

/-- Settles O33: every other command of the family only makes its request due, and a load begins or settles. -/
theorem fallowRequestsWaitForTheirStep : Obligations.FallowRequestsWaitForTheirStep := by
  refine ⟨fun q tag s c k hcore hr hmem => ?_, fun q tag s r h1 h0 hr => ⟨fun hbad => ?_, fun hlen hbuf hsense hcheck hplan => ?_⟩⟩
  · rw [exec_fallowRequest q tag s (c, k) hmem, State.dueReq_waiting hcore hr]
  · rw [exec_planLoad_waiting h1 h0 hr, State.planLoad_badBuffer q hbad]
  · exact ⟨s.beginLoad q r, by rw [exec_planLoad_waiting h1 h0 hr, State.planLoad_begins q hlen hbuf hsense hcheck hplan],
      s.loading_beginLoad q r, rfl, rfl⟩

end Sys2Proof.Machine
end

section
/-!
PROOFS. Provisioning, the debug lock, evacuation, the link and the refresh rate (R110, R289, R541, R542).
-/
namespace Sys2Proof.Machine

/-! ### Operations that change registers alone -/

/-- From `s` to `t` no part of the state but its registers changes. -/
def RegsAlone (s t : State) : Prop := t = { s with regs := t.regs }

theorem RegsAlone.refl (s : State) : RegsAlone s s := rfl

theorem RegsAlone.setReg {s t : State} (h : RegsAlone s t) (a : Nat) (v : Word) : RegsAlone s (t.setReg a v) := by
  unfold RegsAlone at h
  exact congrArg (State.setReg · a v) h

theorem RegsAlone.setFld {s t : State} (h : RegsAlone s t) (a lo w n : Nat) : RegsAlone s (t.setFld a lo w n) := h.setReg _ _

theorem RegsAlone.setBit {s t : State} (h : RegsAlone s t) (a i : Nat) (b : Bool) : RegsAlone s (t.setBit a i b) := h.setFld _ _ _ _

theorem RegsAlone.ite {s t u : State} {p : Prop} [Decidable p] (ht : RegsAlone s t) (hu : RegsAlone s u) :
    RegsAlone s (if p then t else u) := by
  split
  · exact ht
  · exact hu

/-- A write of a register without RWT fields holds nothing for the next window. -/
theorem RegsAlone.regStore (s : State) {off : Nat} {d : RegDesc} {k : Nat} (v : Word) (hd : findReg off = some (d, k))
    (hrwt : ∀ f ∈ d.fields, f.access ≠ .rwt) : RegsAlone s (s.regStore off v) := by
  rw [s.regStore_some v hd, rwtMask_none v hrwt]
  exact (RegsAlone.refl s).setReg _ _

/-! ### A written word with bit 0 set -/

theorem one_getLsbD (j : Nat) : (1 : Word).getLsbD j = decide (j = 0) := by
  cases j <;> simp

theorem wordField_or_one_zero (v : Word) : wordField (v ||| 1) 0 1 = 1 := by
  apply Nat.eq_of_testBit_eq
  intro j
  rw [wordField_testBit, BitVec.getLsbD_or, one_getLsbD]
  cases j <;> simp [Nat.testBit_succ]

theorem wordField_or_one_above (v : Word) {lo : Nat} (w : Nat) (h : 0 < lo) : wordField (v ||| 1) lo w = wordField v lo w := by
  apply Nat.eq_of_testBit_eq
  intro j
  rw [wordField_testBit, wordField_testBit, BitVec.getLsbD_or, one_getLsbD, decide_eq_false (p := lo + j = 0) (by omega), Bool.or_false]

/-! ### The sequence number of the logs -/

@[simp] theorem State.setRegs_logSeq (s : State) (a : Nat) (ws : List Word) : (s.setRegs a ws).logSeq = s.logSeq :=
  (State.setRegs_eff Sub.rfl Eff.refl).logSeq rfl

theorem State.logCount_logSeq (s : State) (cnt cls : Nat) : (s.logCount cnt cls).logSeq = (s.logSeq + 1) % 2 ^ 32 := by
  unfold State.logCount
  split <;> rfl

theorem State.logPlace_logSeq (s : State) (head tail ring full new : Nat) (words : State → List Word) :
    (s.logPlace head tail ring full new words).logSeq = s.logSeq := by
  unfold State.logPlace
  split <;> simp

theorem State.logPins_logSeq (s : State) (cls b : Nat) : (s.logPins cls b).logSeq = s.logSeq := by
  unfold State.logPins
  dsimp only
  split <;> split <;> rfl

/-- A violation is one event. -/
theorem State.logViolation_logSeq (s : State) (cls sub : Nat) (i : LogInfo) : (s.logViolation cls sub i).logSeq = (s.logSeq + 1) % 2 ^ 32 := by
  rw [State.logViolation_eq, State.logPins_logSeq, State.logPlace_logSeq, State.logCount_logSeq]

/-- A refused write over PCI Express or the HSP is one event. -/
theorem State.writeViolation_logSeq (s : State) {i : Iface} (m n off : Nat) (v : Word) (h : i = .pcie ∨ i = .hsp) :
    (s.writeViolation i m n off v).logSeq = (s.logSeq + 1) % 2 ^ 32 := by
  rcases h with rfl | rfl <;> exact State.logViolation_logSeq _ _ _ _

/-! ### Provisioning (R541) -/

/-- A run of `n` registers is copied, one register after the other. -/
def State.copyRegs (s : State) (dst src n : Nat) : State :=
  (List.range n).foldl (fun (s : State) k => s.setReg (dst + 4 * k) (s.reg (src + 4 * k))) s

theorem State.copyRegs_succ (s : State) (dst src n : Nat) : s.copyRegs dst src (n + 1) =
    (s.copyRegs dst src n).setReg (dst + 4 * n) ((s.copyRegs dst src n).reg (src + 4 * n)) := by
  unfold State.copyRegs
  rw [List.range_succ, List.foldl_append]
  rfl

theorem State.reg_copyRegs_apart (s : State) (dst src n : Nat) {a : Nat} (h : a < dst ∨ dst + 4 * n ≤ a) :
    (s.copyRegs dst src n).reg a = s.reg a := by
  induction n with
  | zero => rfl
  | succ n ih => rw [State.copyRegs_succ, State.reg_setReg_apart _ _ (by omega), ih (by omega)]

/-- A run copied from behind its own place holds what the source held. -/
theorem State.reg_copyRegs (s : State) {dst src n k : Nat} (hk : k < n) (h : dst + 4 * n ≤ src) :
    (s.copyRegs dst src n).reg (dst + 4 * k) = s.reg (src + 4 * k) := by
  induction n with
  | zero => omega
  | succ n ih =>
    rw [State.copyRegs_succ]
    rcases Nat.lt_succ_iff_lt_or_eq.1 hk with hlt | rfl
    · rw [State.reg_setReg_apart _ _ (by omega), ih hlt (by omega)]
    · rw [State.reg_setReg_self, State.reg_copyRegs_apart _ _ _ _ (by omega)]

theorem RegsAlone.copyRegs (s : State) (dst src n : Nat) : RegsAlone s (s.copyRegs dst src n) := by
  induction n with
  | zero => exact .refl s
  | succ n ih =>
    rw [State.copyRegs_succ]
    exact ih.setReg _ _

/-- The registers of a provisioning: the owner's hash is burnt and PROVDONE is set. -/
def State.provision (s : State) : State := (s.copyRegs Reg.SEC_OWNHASH Reg.SEC_PROVHASH 8).setBit Reg.SEC_STAT 4 true

theorem State.reg_provision (s : State) {k : Nat} (hk : k < 8) :
    s.provision.reg (Reg.SEC_OWNHASH + 4 * k) = s.reg (Reg.SEC_PROVHASH + 4 * k) := by
  unfold State.provision
  rw [State.reg_setBit_apart _ _ _ (by simp only [Reg.SEC_OWNHASH, Reg.SEC_STAT]; omega), s.reg_copyRegs hk (by decide)]

theorem State.writeProvCmd_burns {s : State} {v : Word} (i : Iface) (hgo : bitOf v.toNat 0 = true) (hcheck : wordField v 24 8 = 0x5E)
    (howned : s.owned = false) : s.writeProvCmd i v = s.provision := by
  unfold wordField at hcheck
  unfold State.writeProvCmd
  rw [if_neg (by simp [hgo]), if_neg (by simp [hcheck, howned])]
  rfl

theorem State.writeProvCmd_refused {s : State} {v : Word} (i : Iface) (hgo : bitOf v.toNat 0 = true)
    (h : wordField v 24 8 ≠ 0x5E ∨ s.owned = true) : s.writeProvCmd i v = s.writeViolation i 4 16 Reg.SEC_PROVCMD v := by
  unfold wordField at h
  unfold State.writeProvCmd
  rw [if_neg (by simp [hgo]), if_pos (by simpa using h)]

/-- SEC_PROVISION sets GO in the word it writes. -/
theorem bitOf_or_one (v : Word) : bitOf (v ||| 1).toNat 0 = true := decide_eq_true (wordField_or_one_zero v)

theorem exec_secProvision_served {s : State} {i : Iface} (v : Word) (hs : s.served i = true) :
    exec (.secProvision i v) s = .next (s.writeProvCmd i (v ||| 1)) := by
  rw [exec_secProvision, execSecProvision, if_pos hs]

theorem exec_secProvision_burns {s : State} {i : Iface} {v : Word} (hs : s.served i = true) (hcheck : wordField v 24 8 = 0x5E)
    (howned : s.owned = false) : exec (.secProvision i v) s = .next s.provision := by
  rw [← wordField_or_one_above v 8 (by decide)] at hcheck
  rw [exec_secProvision_served v hs, State.writeProvCmd_burns i (bitOf_or_one v) hcheck howned]

theorem exec_secProvision_refused {s : State} {i : Iface} {v : Word} (hs : s.served i = true)
    (h : wordField v 24 8 ≠ 0x5E ∨ s.owned = true) :
    exec (.secProvision i v) s = .next (s.writeViolation i 4 16 Reg.SEC_PROVCMD (v ||| 1)) := by
  rw [← wordField_or_one_above v 8 (by decide)] at h
  rw [exec_secProvision_served v hs, State.writeProvCmd_refused i (bitOf_or_one v) h]

/-! ### The debug lock (R542) -/

theorem findReg_dbgCtrl : findReg Reg.SEC_DBGCTRL = some (regsSec[1], 0) := by decide +kernel

/-- A write of 1 sets LOCK, whatever it held. -/
theorem State.lock_regStore (s : State) (v : Word) : (s.regStore Reg.SEC_DBGCTRL (v ||| 1)).bit Reg.SEC_DBGCTRL 0 = true := by
  have hset := s.fld_regStore (v ||| 1) findReg_dbgCtrl ⟨"LOCK", 0, 1, .w1s, .any⟩ (by decide)
  have hold : s.fld Reg.SEC_DBGCTRL 0 1 < 2 := wordField_lt _ _ _
  dsimp only [fieldAfter] at hset
  rw [wordField_or_one_zero] at hset
  unfold State.bit
  rw [hset]
  interval_cases s.fld Reg.SEC_DBGCTRL 0 1 <;> rfl

theorem exec_debugLock_served {s : State} {i : Iface} (v : Word) (hs : s.served i = true) :
    exec (.debugLock i v) s = .next ((s.regStore Reg.SEC_DBGCTRL (v ||| 1)).setBit Reg.SEC_STAT 8 false) := by
  rw [exec_debugLock, execDebugLock, if_pos hs]
  unfold State.writeDbgCtrl
  rw [if_pos (s.lock_regStore v)]

/-! ### Evacuation (R289) -/

/-- Bit `b` of `GLN_EVAC`, which a write of 1 clears. -/
def State.ackEvac (s : State) (v : Word) (b : Nat) : State := if wordField v b 1 = 1 then s.setBit Reg.GLN_EVAC b false else s

theorem State.fld_ackEvac (s : State) (v : Word) {b lo w : Nat} (h : lo + w ≤ b ∨ b + 1 ≤ lo) :
    (s.ackEvac v b).fld Reg.GLN_EVAC lo w = s.fld Reg.GLN_EVAC lo w := by
  unfold State.ackEvac
  split
  · exact State.fld_setBit_apart _ _ _ _ _ _ _ (.inr h)
  · rfl

/-- The bits of an earlier evacuation that a write clears, FAIL and DONE. -/
def State.ackEvacs (s : State) (v : Word) : State := (s.ackEvac v 30).ackEvac v 29

theorem State.fld_ackEvacs (s : State) (v : Word) {lo w : Nat} (h : lo + w ≤ 29 ∨ 31 ≤ lo) :
    (s.ackEvacs v).fld Reg.GLN_EVAC lo w = s.fld Reg.GLN_EVAC lo w := by
  unfold State.ackEvacs
  rw [State.fld_ackEvac _ _ (by omega), State.fld_ackEvac _ _ (by omega)]

theorem RegsAlone.ackEvacs (s : State) (v : Word) : RegsAlone s (s.ackEvacs v) := by
  have first : RegsAlone s (s.ackEvac v 30) := .ite ((RegsAlone.refl s).setBit _ _ _) (.refl s)
  exact .ite (first.setBit _ _ _) first

theorem State.startEvac_busy {s : State} (v : Word) (h : s.bit Reg.GLN_EVAC 31 = true) : s.startEvac v = s.ackEvacs v := by
  unfold State.startEvac
  dsimp only
  rw [if_pos h]
  rfl

theorem State.startEvac_go {s : State} {v : Word} (hgo : wordField v 28 1 = 1) (h : s.bit Reg.GLN_EVAC 31 = false) :
    s.startEvac v = ((s.ackEvacs v).setFld Reg.GLN_EVAC 0 10 (wordField v 0 10)).setBit Reg.GLN_EVAC 31 true := by
  unfold State.startEvac
  dsimp only
  rw [if_neg (by simp [h]), if_pos hgo]
  rfl

theorem exec_glnEvacGo_served {s : State} {i : Iface} (v : Word) (hs : s.served i = true) :
    exec (.glnEvacGo i v) s = .next (s.startEvac v) := by
  rw [exec_glnEvacGo, execGlnEvacGo, if_pos hs]

/-! ### The link and the refresh rate (R110) -/

theorem exec_pcieLinkUp_legal {s : State} {w v : Nat} (hmain : s.mainOn = true) (hw : w = 1 ∨ w = 2 ∨ w = 4) (hlo : 1 ≤ v) (hhi : v ≤ 4) :
    exec (.pcieLinkUp w v) s = .next ((s.setFld Reg.HOST_STAT 8 5 w).setFld Reg.HOST_STAT 16 4 v) := by
  rw [exec_pcieLinkUp, execPcieLinkUp, if_pos (by simp [hmain, hw, hlo, hhi, or_assoc])]

theorem exec_refreshRateChange_on {s : State} (x2 x4 : Bool) (hmain : s.mainOn = true) :
    exec (.refreshRateChange x2 x4) s = .next ((s.setBit Reg.MEMCH_STAT 1 x2).setBit Reg.MEMCH_STAT 2 x4) := by
  rw [exec_refreshRateChange, execRefreshRateChange, if_pos hmain]

/-- Settles O57: each command is, behind its condition, a few writes of fields, or one violation. -/
theorem ownersAreBurntPathsLockedEntriesEvacuated : Obligations.OwnersAreBurntPathsLockedEntriesEvacuated := by
  refine fun s => ⟨fun i v hs => ⟨fun hcheck howned => ?burnt, fun h => ?refused, ?locked, fun hgo hidle => ?started, fun hbusy => ?busy⟩,
    fun hmain => ⟨fun w v hw hlo hhi => ?link, fun x2 x4 => ?refresh⟩⟩
  case burnt =>
    exact ⟨_, exec_secProvision_burns hs hcheck howned, fun k hk => s.reg_provision hk, State.bit_setBit _ _ _ _ (by decide),
      (RegsAlone.copyRegs s _ _ _).setBit _ _ _⟩
  case refused =>
    have hhash : ∀ k < 8, eventReg (Reg.SEC_OWNHASH + 4 * k) = false := by decide
    exact ⟨_, exec_secProvision_refused hs h, fun k hk => s.reg_writeViolation i _ _ _ _ (hhash k hk),
      State.bit_of_reg (s.reg_writeViolation i _ _ _ _ (by decide)) 4, s.writeViolation_logSeq _ _ _ _⟩
  case locked =>
    refine ⟨_, exec_debugLock_served v hs, ?_, State.bit_setBit _ _ _ _ (by decide),
      (RegsAlone.regStore s _ findReg_dbgCtrl (by decide)).setBit _ _ _⟩
    rw [State.bit_setBit_apart _ _ _ _ _ _ (.inl (by decide)), s.lock_regStore v]
  case started =>
    refine ⟨_, by rw [exec_glnEvacGo_served v hs, State.startEvac_go hgo hidle], State.bit_setBit _ _ _ _ (by decide), ?_,
      ((RegsAlone.ackEvacs s v).setFld _ _ _ _).setBit _ _ _⟩
    rw [State.fld_setBit_apart _ _ _ _ _ _ _ (.inr (.inl (by decide))), State.fld_setFld _ _ _ _ _ (by decide),
      Nat.mod_eq_of_lt (wordField_lt v 0 10)]
  case busy =>
    refine ⟨_, by rw [exec_glnEvacGo_served v hs, State.startEvac_busy v hbusy], ?_, s.fld_ackEvacs v (.inl (by decide)), RegsAlone.ackEvacs s v⟩
    rw [← hbusy]
    unfold State.bit
    rw [s.fld_ackEvacs v (.inr (by decide))]
  case link =>
    refine ⟨_, exec_pcieLinkUp_legal hmain hw hlo hhi, ?_, ?_, ((RegsAlone.refl s).setFld _ _ _ _).setFld _ _ _ _⟩
    · rw [State.fld_setFld_apart _ _ _ _ _ _ _ _ (.inr (.inl (by decide))), State.fld_setFld _ _ _ _ _ (by decide)]
      exact Nat.mod_eq_of_lt (by omega)
    · rw [State.fld_setFld _ _ _ _ _ (by decide)]
      exact Nat.mod_eq_of_lt (by omega)
  case refresh =>
    refine ⟨_, exec_refreshRateChange_on x2 x4 hmain, ?_, State.bit_setBit _ _ _ _ (by decide),
      ((RegsAlone.refl s).setBit _ _ _).setBit _ _ _⟩
    rw [State.bit_setBit_apart _ _ _ _ _ _ (.inr (by decide)), State.bit_setBit _ _ _ _ (by decide)]

end Sys2Proof.Machine
end

section
/-!
PROOFS. The frame of registers, engines, banks, active plan and row map: the masks of `exec_eff` against the lists (R121, R123, R147).
-/
namespace Sys2Proof.Machine

/-! ### The lists of commands against their masks -/

theorem effMask_regs (c : Instr) : (effMask c).testBit 3 = c.writesRegisters := by cases c <;> dsimp only [effMask] <;> rfl
theorem effMask_active (c : Instr) : (effMask c).testBit 8 = c.changesActivePlan := by cases c <;> dsimp only [effMask] <;> rfl
theorem effMask_engs (c : Instr) : (effMask c).testBit 13 = c.movesEngines := by cases c <;> dsimp only [effMask] <;> rfl
theorem effMask_banks (c : Instr) : (effMask c).testBit 16 = c.changesBanks := by cases c <;> dsimp only [effMask] <;> rfl
theorem effMask_rows (c : Instr) : (effMask c).testBit 18 = c.changesRowMap := by cases c <;> dsimp only [effMask] <;> rfl

theorem State.bank_of_banks {s t : State} (h : t.banks = s.banks) (n b : Nat) : t.bank n b = s.bank n b := by unfold State.bank; rw [h]

/-- Settles O7: each list is the bit that its part has in the masks, and a command changes only what its mask names. -/
theorem engineAndPlanFrame : Obligations.EngineAndPlanFrame := by
  intro c s t hexec
  have eff : Eff (effMask c) s t := (exec_eff c s).kept t hexec
  exact ⟨fun hc => State.reg_of_regs (eff.regs ((effMask_regs c).trans hc)),
    fun hc => State.eng_of_engs (eff.engs ((effMask_engs c).trans hc)),
    fun hc => State.bank_of_banks (eff.banks ((effMask_banks c).trans hc)),
    fun hc => eff.active ((effMask_active c).trans hc),
    fun hc => eff.rows ((effMask_rows c).trans hc)⟩

end Sys2Proof.Machine
end

section
/-!
PROOFS. The control words and POST, at which their engine stands with a budget that lasts (R127, R129, R135, R136, R143, R161).
-/
namespace Sys2Proof.Machine

/-- An engine that stands at a word is listed. -/
theorem State.listed_of_standsAt {s : State} {e : Nat} {w : DWord} (h : s.standsAt e w = true) : e < s.engs.length :=
  State.listed_of_running (s.standsAt_waiting h).2

/-! ### A word that retires -/

theorem State.runFor_of_lasts {s : State} {e n : Nat} (f : State → State) (h : n < (s.eng e).remain) :
    s.runFor e n f = (f (s.work e n)).retire e := by
  unfold State.runFor State.tooDear
  rw [if_neg (by simpa using h)]

theorem State.runWord_of_lasts {s : State} {e n : Nat} {w : DWord} (f : State → State) (hw : s.standsAt e w = true)
    (h : n < (s.eng e).remain) : s.runWord e w n f = (f (s.work e n)).retire e := by
  unfold State.runWord
  rw [if_pos hw, State.runFor_of_lasts f h]

theorem State.eng_work {s : State} {e : Nat} (he : e < s.engs.length) (n : Nat) :
    (s.work e n).eng e = { s.workedEng e n with pc := (s.eng e).pc, loops := (s.eng e).loops } := by
  rw [State.work_eq, State.eng_setEng _ _ _ he]
  rfl

/-- A word without an effect of its own. -/
theorem State.retire_work {s : State} {e : Nat} (he : e < s.engs.length) (n : Nat) :
    (s.work e n).retire e = s.setEng e (s.workedEng e n) := by
  rw [State.retire_eq, State.eng_work he, State.work_eq, State.setEng_setEng]
  rfl

/-! ### The end of a slice that its budget outlasts -/

theorem exec_end_lasts {e : EngineId} {s : State} (hw : s.standsAt e (cWord 0 0 0) = true) (h : 4 ≤ (s.eng e).remain) :
    exec (.end_ e) s = .next ((s.work e 4).endSlice e false) := by
  rw [exec_end_, execEnd, if_pos hw, if_neg (by simpa using h)]

/-- PLAN_ENGSTAT at the end of a slice (R143): the busy bit and a Cart's dropped move, which end with the slice, show in other registers. -/
theorem State.reg_endSlice_engstat (s : State) (x : Bool) {e : Nat} (he : e < 33) :
    (s.endSlice e x).reg (Reg.PLAN_ENGSTAT + 4 * e) =
      ((s.setFld (Reg.PLAN_ENGSTAT + 4 * e) 0 28 (s.eng e).remain).setBit (Reg.PLAN_ENGSTAT + 4 * e) 31 x).reg (Reg.PLAN_ENGSTAT + 4 * e) := by
  rw [State.endSlice_eq, State.reg_updTick]
  unfold State.endEng
  rw [State.reg_dropPlanMove _ _ (by simp only [Reg.PLAN_ENGSTAT, Reg.CART_STAT]; omega),
    State.reg_setBusy _ _ _ (by simp only [Reg.PLAN_ENGSTAT, Reg.SHF_STAT]; omega)]
  rfl

theorem State.fld_endSlice_remain (s : State) (x : Bool) {e : Nat} (he : e < 33) :
    (s.endSlice e x).fld (Reg.PLAN_ENGSTAT + 4 * e) 0 28 = (s.eng e).remain % 2 ^ 28 := by
  rw [State.fld_of_reg (s.reg_endSlice_engstat x he), State.fld_setBit_apart _ _ _ _ _ _ _ (.inr (.inl (by decide))),
    State.fld_setFld _ _ _ _ _ (by decide)]

theorem State.bit_endSlice_exhausted (s : State) (x : Bool) {e : Nat} (he : e < 33) :
    (s.endSlice e x).bit (Reg.PLAN_ENGSTAT + 4 * e) 31 = x := by
  rw [State.bit_of_reg (s.reg_endSlice_engstat x he), State.bit_setBit _ _ _ _ (by decide)]

/-! ### LOOP -/

theorem exec_loop_enters {e : EngineId} {count len : BitVec 16} {s : State} (hw : s.standsAt e (cWord 1 count.toNat len.toNat) = true) :
    exec (.loop e count len) s = .next (s.setEng e { s.eng e with
      pc := (s.eng e).pc + 1, loops := ⟨(s.eng e).pc + 1, len.toNat, count.toNat, 0⟩ :: (s.eng e).loops }) := by
  rw [exec_loop, execLoop, if_pos hw]
  rfl

/-! ### IDLE -/

theorem exec_idle_lasts {e : EngineId} {count : BitVec 16} {s : State} (hw : s.standsAt e (cWord 2 count.toNat 0) = true)
    (h : count.toNat < (s.eng e).remain) : exec (.idle e count) s = .next (s.setEng e (s.workedEng e count.toNat)) := by
  rw [exec_idle, execIdle, State.runWord_of_lasts id hw h, id, State.retire_work (State.listed_of_standsAt hw)]

/-! ### POST -/

/-- An engine that has worked 2 cycles, has posted, and stands at the next word. -/
def State.postedEng (s : State) (e k a : Nat) : EngState :=
  { s.workedEng e 2 with posted := keyPut (s.eng e).posted k (keyGetD (s.eng e).posted k 0 + a) }

/-- The post reaches the knot, the posts and the engine's notes; the engine's clock and position are those of any word of 2 cycles. -/
theorem State.retire_engPost_work {s : State} {e : Nat} (he : e < s.engs.length) (k a d : Nat) :
    ((s.work e 2).engPost e k a d).retire e = (s.applyPost k a (s.workedEng e 2).cycles d).setEng e (s.postedEng e k a) := by
  have hpost : (s.work e 2).engPost e k a d = (s.applyPost k a (s.workedEng e 2).cycles d).setEng e
      { s.postedEng e k a with pc := (s.eng e).pc, loops := (s.eng e).loops } := by
    unfold State.engPost
    rw [State.eng_work he]
    exact State.setEng_setEng (s.applyPost k a (s.workedEng e 2).cycles d) _ _ _
  have hlisted : e < (s.applyPost k a (s.workedEng e 2).cycles d).engs.length := he
  rw [hpost, State.retire_eq, State.eng_setEng _ _ _ hlisted, State.setEng_setEng]
  rfl

theorem exec_post_lasts {e : EngineId} {knot : BitVec 6} {v st : BitVec 16} {s : State}
    (hw : s.standsAt e (sWord 0x10 knot.toNat v.toNat st.toNat) = true) (h : 2 < (s.eng e).remain) :
    exec (.post e knot v st) s = .next
      ((s.applyPost knot.toNat (v.toNat + loopIndex (s.eng e).loops 1 * st.toNat) (s.workedEng e 2).cycles (if e.val < 30 then 6 else 12)).setEng e
        (s.postedEng e knot.toNat (v.toNat + loopIndex (s.eng e).loops 1 * st.toNat))) := by
  have he := State.listed_of_standsAt hw
  have hinner : (s.work e 2).inner e = loopIndex (s.eng e).loops 1 := by unfold State.inner; rw [State.eng_work he]
  rw [exec_post, execPost, State.runWord_of_lasts _ hw h, hinner, State.retire_engPost_work he]
  simp only [fastClock, decide_eq_true_eq]

/-- To the registers an applied post is the sum in its knot's field. -/
theorem State.reg_applyPost (s : State) (k a c d r : Nat) : (s.applyPost k a c d).reg r =
    (s.setFld (Reg.PLAN_KNOT + 4 * k) 0 16 (s.fld (Reg.PLAN_KNOT + 4 * k) 0 16 + a)).reg r := rfl

theorem State.applyPost_engs (s : State) (k a c d : Nat) : (s.applyPost k a c d).engs = s.engs := rfl

theorem State.fld_applyPost (s : State) (k a c d : Nat) :
    (s.applyPost k a c d).fld (Reg.PLAN_KNOT + 4 * k) 0 16 = (s.fld (Reg.PLAN_KNOT + 4 * k) 0 16 + a) % 2 ^ 16 := by
  rw [State.fld_of_reg (s.reg_applyPost k a c d _), State.fld_setFld _ _ _ _ _ (by decide)]

theorem State.reg_applyPost_apart (s : State) (k a c d : Nat) {r : Nat} (h : r ≠ Reg.PLAN_KNOT + 4 * k) :
    (s.applyPost k a c d).reg r = s.reg r := by
  rw [State.reg_applyPost, State.reg_setFld_apart _ _ _ _ h]

/-- Settles O23: END is the end of the slice after 4 cycles, LOOP and IDLE replace the engine alone, and POST applies its post beside that. -/
theorem controlWordsActAsTabulated : Obligations.ControlWordsActAsTabulated := by
  refine ⟨fun e s _ hw hlasts hsmall => ?ended, fun e count len s hw => ⟨_, exec_loop_enters hw, rfl⟩,
    fun e count s hw hlasts => ⟨_, exec_idle_lasts hw hlasts, rfl⟩, fun e knot v st s _ hw hlasts => ?posted⟩
  case ended =>
    have he := State.listed_of_standsAt hw
    have hworked : e < (s.work e 4).engs.length := by rw [State.work_eq, State.setEng_length]; exact he
    have hremain : ((s.work e 4).eng e).remain = (s.eng e).remain - 4 := by rw [State.eng_work he]; rfl
    have whole : Eff 0x200002088 (s.work e 4) ((s.work e 4).endSlice e false) := State.endSlice_eff Sub.rfl Eff.refl
    refine ⟨_, exec_end_lasts hw hlasts, ?_, ?_, ?_, State.bit_endSlice_exhausted _ _ e.isLt, whole.posts rfl, fun k hk => ?_⟩
    · rw [State.eng_endSlice _ _ _ hworked]
    · rw [State.eng_endSlice _ _ _ hworked, ← hremain]
    · rw [State.fld_endSlice_remain _ _ e.isLt, hremain, Nat.mod_eq_of_lt (by omega)]
    · rw [State.eng_endSlice_apart _ _ _ _ hk, State.work_eq, State.eng_setEng_apart _ _ _ _ hk]
  case posted =>
    intro a
    have hself : ∀ d, ((s.applyPost knot.toNat a (s.workedEng e 2).cycles d).setEng e (s.postedEng e knot.toNat a)).eng e =
        s.postedEng e knot.toNat a := fun d => State.eng_setEng _ _ _ (State.listed_of_standsAt hw)
    refine ⟨_, exec_post_lasts hw hlasts, hself _, ?_, ?_, fun r hr => ?_, fun k hk => ?_, rfl⟩
    · rw [hself, State.setEng_posts, State.applyPost_posts]
      rfl
    · rw [State.fld_setEng, State.fld_applyPost]
    · rw [State.reg_setEng, State.reg_applyPost_apart _ _ _ _ _ hr]
    · rw [State.eng_setEng_apart _ _ _ _ hk, State.eng_of_engs (s.applyPost_engs _ _ _ _)]

end Sys2Proof.Machine
end

section
/-!
PROOFS. WAIT, its stall, and the knot it waits for (R127, R129, R130, R163).
-/
namespace Sys2Proof.Machine

/-! ### A knot by cycle -/

/-- A post is one to a knot that is visible by a cycle. -/
def KnotPost.seen (p : KnotPost) (k c : Nat) : Bool := p.knot = k && p.visible ≤ c

theorem State.knotAt_eq_sum (s : State) (k c : Nat) : s.knotAt k c =
    s.fld (Reg.PLAN_KNOT + 4 * k) 16 16 + ((s.posts.filter fun p => p.seen k c).map (·.amount)).sum := by
  have hfold : ∀ (l : List KnotPost) (t : Nat),
      l.foldl (fun t p => if p.knot = k && p.visible ≤ c then t + p.amount else t) t =
        t + ((l.filter fun p => p.seen k c).map (·.amount)).sum := by
    intro l
    induction l with
    | nil => intro t; rfl
    | cons p l ih =>
      intro t
      rw [List.foldl_cons, ih, List.filter_cons, KnotPost.seen]
      split
      · rw [List.map_cons, List.sum_cons, Nat.add_assoc]
      · rfl
  exact hfold _ _

/-- A knot never falls. -/
theorem State.knotAt_mono (s : State) (k : Nat) {c d : Nat} (h : c ≤ d) : s.knotAt k c ≤ s.knotAt k d := by
  have hsub : (s.posts.filter fun p => p.seen k c).Sublist (s.posts.filter fun p => p.seen k d) :=
    List.monotone_filter_right _ fun p hp => by
      simp only [KnotPost.seen, Bool.and_eq_true, decide_eq_true_eq] at hp ⊢
      exact ⟨hp.1, hp.2.trans h⟩
  rw [State.knotAt_eq_sum, State.knotAt_eq_sum]
  exact Nat.add_le_add_left ((hsub.map _).sum_le_sum fun _ _ => Nat.zero_le _) _

/-- A knot changes at a cycle only by a post that becomes visible then. -/
theorem State.knotAt_succ_of_quiet (s : State) (k c : Nat) (h : ∀ p ∈ s.posts, p.knot = k → p.visible ≠ c + 1) :
    s.knotAt k (c + 1) = s.knotAt k c := by
  have hfilter : (s.posts.filter fun p => p.seen k (c + 1)) = s.posts.filter fun p => p.seen k c :=
    List.filter_congr fun p hp => by
      have := h p hp
      rw [Bool.eq_iff_iff]
      simp only [KnotPost.seen, Bool.and_eq_true, decide_eq_true_eq]
      omega
  rw [State.knotAt_eq_sum, State.knotAt_eq_sum, hfilter]

/-- Where a knot has come to a target between two cycles, a post visible by the later one brought it there. -/
theorem State.exists_post_of_target_le_knotAt (s : State) (k target : Nat) {c x : Nat} (hx : c ≤ x) (hc : s.knotAt k c < target)
    (h : target ≤ s.knotAt k x) : ∃ p ∈ s.posts, p.knot = k ∧ p.visible ≤ x ∧ target ≤ s.knotAt k p.visible := by
  induction x, hx using Nat.le_induction with
  | base => exact absurd h (by omega)
  | succ x _ ih =>
    by_cases hbefore : target ≤ s.knotAt k x
    · obtain ⟨p, hp, hknot, hvisible, htarget⟩ := ih hbefore
      exact ⟨p, hp, hknot, by omega, htarget⟩
    · by_contra hno
      refine hbefore (h.trans_eq (s.knotAt_succ_of_quiet k x fun p hp hknot hvisible => hno ⟨p, hp, hknot, hvisible.le, ?_⟩))
      rw [hvisible]
      exact h

/-! ### The cycle at which a knot is at its target -/

/-- The cycles at which a post becomes visible to a knot that is then at its target. -/
def State.targetCycles (s : State) (k target : Nat) : List Nat :=
  (s.posts.filter fun p => p.knot = k && target ≤ s.knotAt k p.visible).map (·.visible)

theorem State.mem_targetCycles (s : State) (k target d : Nat) : d ∈ s.targetCycles k target ↔
    ∃ p ∈ s.posts, p.knot = k ∧ target ≤ s.knotAt k d ∧ p.visible = d := by
  simp only [State.targetCycles, List.mem_map, List.mem_filter, Bool.and_eq_true, decide_eq_true_eq]
  constructor
  · rintro ⟨p, ⟨hp, hknot, ht⟩, rfl⟩
    exact ⟨p, hp, hknot, ht, rfl⟩
  · rintro ⟨p, hp, hknot, ht, rfl⟩
    exact ⟨p, ⟨hp, hknot, ht⟩, rfl⟩

theorem foldl_some_min {f : Option Nat → Nat → Option Nat} (hf : ∀ u v, f (some u) v = some (min u v)) (l : List Nat) :
    ∀ u, l.foldl f (some u) = some (l.foldl min u) := by
  induction l with
  | nil => intro u; rfl
  | cons v l ih => intro u; rw [List.foldl_cons, List.foldl_cons, hf, ih]

theorem State.knotReach_eq_min? (s : State) {k target c : Nat} (h : s.knotAt k c < target) :
    s.knotReach k target c = (s.targetCycles k target).min? := by
  have hfold : s.knotReach k target c = (s.targetCycles k target).foldl (fun m v => match m with
      | none => some v
      | some u => some (min u v)) none := by
    unfold State.knotReach
    rw [if_neg (by omega)]
    rfl
  rw [hfold]
  cases s.targetCycles k target with
  | nil => rfl
  | cons v l => exact foldl_some_min (fun _ _ => rfl) l v

theorem State.knotReach_of_le (s : State) {k target c : Nat} (h : target ≤ s.knotAt k c) : s.knotReach k target c = some c := by
  unfold State.knotReach
  rw [if_pos h]

/-- `knotReach` is the first cycle, from the given one on, at which the knot is at its target (R163). -/
theorem State.knotReach_first {s : State} {k target c d : Nat} (h : s.knotReach k target c = some d) :
    target ≤ s.knotAt k d ∧ c ≤ d ∧ ∀ x, c ≤ x → x < d → s.knotAt k x < target := by
  rcases Nat.lt_or_ge (s.knotAt k c) target with hc | hc
  · rw [State.knotReach_eq_min? s hc, List.min?_eq_some_iff] at h
    obtain ⟨hmem, hleast⟩ := h
    obtain ⟨-, -, -, htarget, -⟩ := (s.mem_targetCycles k target d).1 hmem
    refine ⟨htarget, ?_, fun x hcx hxd => Nat.lt_of_not_le fun hx => ?_⟩
    · refine Nat.le_of_lt (Nat.lt_of_not_le fun hdc => ?_)
      have := s.knotAt_mono k hdc
      omega
    · obtain ⟨p, hp, hknot, hvisible, hreached⟩ := s.exists_post_of_target_le_knotAt k target hcx hc hx
      have := hleast _ ((s.mem_targetCycles k target _).2 ⟨p, hp, hknot, hreached, rfl⟩)
      omega
  · rw [State.knotReach_of_le s hc, Option.some.injEq] at h
    subst h
    exact ⟨hc, le_rfl, fun x hcx hxc => absurd hcx (by omega)⟩

/-- An engine's clock reaches no register and no post. -/
theorem State.knotReach_setEng (s : State) (e : Nat) (g : EngState) (k target c : Nat) :
    (s.setEng e g).knotReach k target c = s.knotReach k target c := rfl

/-! ### WAIT -/

/-- An engine that has worked the 2 cycles of a WAIT and stalls there, for a knot and a target. -/
def State.stalledEng (s : State) (e k target : Nat) : EngState :=
  { s.workedEng e 2 with pc := (s.eng e).pc, loops := (s.eng e).loops, waiting := some (k, target) }

/-- The target of a WAIT: VALUE + i × STEP, i the index of the innermost loop. -/
def State.waitTarget (s : State) (e : Nat) (v st : BitVec 16) : Nat := v.toNat + loopIndex (s.eng e).loops 1 * st.toNat

/-- A WAIT with a budget that lasts goes on or stalls after its 2 cycles, by the cycle at which its knot is at its target. -/
theorem exec_wait_lasts {e : EngineId} {knot : BitVec 6} {v st : BitVec 16} {s : State}
    (hw : s.standsAt e (sWord 0x11 knot.toNat v.toNat st.toNat) = true) (h : 2 < (s.eng e).remain) :
    exec (.wait e knot v st) s = .next
      (if ∃ c, s.knotReach knot.toNat (s.waitTarget e v st) (s.eng e).cycles = some c ∧ c ≤ (s.workedEng e 2).cycles
        then s.setEng e (s.workedEng e 2)
        else s.setEng e (s.stalledEng e knot.toNat (s.waitTarget e v st))) := by
  have he := State.listed_of_standsAt hw
  have hreach : (s.work e 2).knotReach knot.toNat (s.waitTarget e v st) (s.eng e).cycles =
      s.knotReach knot.toNat (s.waitTarget e v st) (s.eng e).cycles := rfl
  have hcycles : ((s.work e 2).eng e).cycles = (s.workedEng e 2).cycles := by rw [State.eng_work he]
  have hstall : ((s.work e 2).updEng e fun g => { g with waiting := some (knot.toNat, s.waitTarget e v st) }) =
      s.setEng e (s.stalledEng e knot.toNat (s.waitTarget e v st)) := by
    unfold State.updEng
    rw [State.eng_work he, State.work_eq, State.setEng_setEng]
    rfl
  rw [exec_wait, execWait, if_pos hw, State.tooDear, if_neg (by simpa using h)]
  change Host.Outcome.next (match (s.work e 2).knotReach knot.toNat (s.waitTarget e v st) (s.eng e).cycles with
    | some c => if c ≤ ((s.work e 2).eng e).cycles then (s.work e 2).retire e
      else (s.work e 2).updEng e fun g => { g with waiting := some (knot.toNat, s.waitTarget e v st) }
    | none => (s.work e 2).updEng e fun g => { g with waiting := some (knot.toNat, s.waitTarget e v st) }) = _
  rw [hreach, hcycles, hstall, State.retire_work he]
  cases s.knotReach knot.toNat (s.waitTarget e v st) (s.eng e).cycles with
  | none => simp
  | some c => simp

/-! ### WAIT_SATISFIED -/

/-- A stalled engine whose stall ends at cycle `c`, standing at the next word (R61, R163). -/
def State.releasedEng (s : State) (e c : Nat) : EngState :=
  let g := s.eng e
  let n := s.stallCount e g.cycles c
  let p := nextPc (g.pc + 1) g.loops
  { g with pc := p.1, loops := p.2, cycles := c, remain := g.remain - n,
           bubbles := g.bubbles + (if fastClock e then (c - g.cycles) - n else 0), waiting := none }

theorem exec_waitSatisfied_lasts {e : EngineId} {s : State} {k target c : Nat} (he : e < s.engs.length)
    (hwait : (s.eng e).waiting = some (k, target)) (hreach : s.knotReach k target (s.eng e).cycles = some c)
    (h : s.stallCount e (s.eng e).cycles c < (s.eng e).remain) :
    exec (.waitSatisfied e) s = .next (s.setEng e (s.releasedEng e c)) := by
  have hbudget : ¬ (decide ((s.eng e).remain ≤ s.stallCount e (s.eng e).cycles c) && s.stallCount e (s.eng e).cycles c != 0) = true := by
    simp only [Bool.and_eq_true, decide_eq_true_eq]
    omega
  rw [exec_waitSatisfied, execWaitSatisfied]
  simp only [hwait, hreach]
  rw [if_neg hbudget, State.retire_eq, State.eng_setEng _ _ _ he, State.setEng_setEng]
  rfl

theorem exec_waitSatisfied_of_unstalled {e : EngineId} {s : State} (h : (s.eng e).waiting = none) : exec (.waitSatisfied e) s = .next s := by
  rw [exec_waitSatisfied, execWaitSatisfied]
  simp only [h]

/-- Settles O24: a WAIT stalls unless its knot is seen at its target within its 2 cycles, a stall ends at the first cycle at which the knot
is at its target, and each replaces the engine alone. -/
theorem waitsStallUntilTheirKnotIsReached : Obligations.WaitsStallUntilTheirKnotIsReached := by
  refine ⟨fun e knot v st s _ hw hlasts => ⟨fun hmet => ?met, fun hunmet => ?unmet⟩, fun e s k target c hlen hwait hreach hlasts => ?released,
    fun s k target c d h => State.knotReach_first h, fun e s h => exec_waitSatisfied_of_unstalled h⟩
  case met =>
    exact ⟨_, exec_wait_lasts hw hlasts, if_pos ⟨_, State.knotReach_of_le s hmet, s.le_after _ _ _⟩⟩
  case unmet =>
    refine ⟨_, exec_wait_lasts hw hlasts, if_neg ?_⟩
    rintro ⟨c, hreach, hc⟩
    exact absurd (hunmet c hreach) (by omega)
  case released =>
    have he : e < s.engs.length := by omega
    have hself : (s.setEng e (s.releasedEng e c)).eng e = s.releasedEng e c := State.eng_setEng _ _ _ he
    refine ⟨_, exec_waitSatisfied_lasts he hwait hreach hlasts, ?_⟩
    rw [hself]
    exact ⟨rfl, rfl, rfl, rfl, rfl⟩

end Sys2Proof.Machine
end

section
/-!
PROOFS. Integers as the machine rounds, limits and stores them (R9, R139, R157, R192).
-/
namespace Sys2Proof.Machine

/-! ### Rounding and limiting -/

/-- Rounding by `k > 0` places is to the nearest, ties to even (R157). -/
theorem rneShift_nearest (x : Int) {k : Int} (hk : 0 < k) :
    2 * (rneShift x k * (2 ^ k.toNat : Nat) - x) ≤ (2 ^ k.toNat : Nat) ∧ 2 * (x - rneShift x k * (2 ^ k.toNat : Nat)) ≤ (2 ^ k.toNat : Nat) ∧
      ((2 * (rneShift x k * (2 ^ k.toNat : Nat) - x) = (2 ^ k.toNat : Nat) ∨ 2 * (x - rneShift x k * (2 ^ k.toNat : Nat)) = (2 ^ k.toNat : Nat)) →
        rneShift x k % 2 = 0) := by
  have hm : (0 : Int) < (2 ^ k.toNat : Nat) := by exact_mod_cast Nat.two_pow_pos k.toNat
  unfold rneShift
  rw [if_neg (by omega)]
  dsimp only
  generalize ((2 ^ k.toNat : Nat) : Int) = m at hm
  have hdiv := Int.fmod_add_fdiv_mul x m
  have hlow := Int.fmod_nonneg_of_pos x hm
  have hhigh := Int.fmod_lt_of_pos x hm
  generalize x.fmod m = r at hdiv hlow hhigh
  generalize x.fdiv m = q at hdiv
  have hsucc : (q + 1) * m = q * m + m := by rw [Int.add_mul, Int.one_mul]
  split
  · rw [hsucc]
    generalize q * m = y at *
    omega
  · generalize q * m = y at *
    omega

theorem rneShift_zero (x : Int) : rneShift x 0 = x := by
  simp [rneShift]

theorem clampInt_of_mem {lo hi x : Int} (hlo : lo ≤ x) (hhi : x ≤ hi) : clampInt lo hi x = x := by
  unfold clampInt
  rw [if_neg (by omega), if_neg (by omega)]

theorem clampInt_mem {lo hi : Int} (h : lo ≤ hi) (x : Int) : lo ≤ clampInt lo hi x ∧ clampInt lo hi x ≤ hi := by
  unfold clampInt
  split_ifs <;> omega

theorem fmtLow_le_fmtHigh (fmt : Nat) : fmtLow fmt ≤ fmtHigh fmt := by
  have : (0 : Int) < (2 ^ (fmtBits fmt - 1) : Nat) := by exact_mod_cast Nat.two_pow_pos _
  unfold fmtLow fmtHigh
  omega

/-- A requantised result fits its format. -/
theorem fitsFmt_requant (x eIn eOut : Int) (fmt : Nat) : fitsFmt fmt (requant x eIn eOut fmt) = true := by
  obtain ⟨hlo, hhi⟩ := clampInt_mem (fmtLow_le_fmtHigh fmt) (requantRaw x eIn eOut)
  rw [fitsFmt, Bool.and_eq_true]
  exact ⟨decide_eq_true hlo, decide_eq_true hhi⟩

/-! ### Numbers and their bytes -/

/-- A signed number of `w` bits is what its low `w` bits spell. -/
theorem signedOf_unsignedOf {w : Nat} {x : Int} (hw : 0 < w) (hlo : -(2 ^ (w - 1) : Nat) ≤ x) (hhi : x < (2 ^ (w - 1) : Nat)) :
    signedOf w (unsignedOf w x) = x := by
  obtain ⟨w, rfl⟩ := Nat.exists_eq_add_one.2 hw
  rw [Nat.add_sub_cancel] at hlo hhi
  have hpow : (2 : Int) ^ (w + 1) = 2 * (2 ^ w : Nat) := by push_cast; rw [pow_succ]; ring
  have hpow' : 2 ^ (w + 1) = 2 * 2 ^ w := by rw [pow_succ]; ring
  unfold signedOf unsignedOf
  rw [Nat.add_sub_cancel, hpow, hpow']
  generalize 2 ^ w = m at *
  have hmod : x % (2 * (m : Int)) = if 0 ≤ x then x else x + 2 * m := by
    split
    · exact Int.emod_eq_of_lt (by omega) (by omega)
    · rw [← Int.add_emod_right]
      exact Int.emod_eq_of_lt (by omega) (by omega)
  rw [hmod, Nat.mod_eq_of_lt (by split <;> omega)]
  split_ifs <;> omega

theorem length_leBytes (n : Nat) : ∀ v, (leBytes n v).length = n := by
  induction n with
  | zero => intro v; rfl
  | succ n ih => intro v; rw [leBytes, List.length_cons, ih]

theorem leNat_leBytes (n : Nat) : ∀ v, leNat (leBytes n v) = v % 2 ^ (8 * n) := by
  induction n with
  | zero => intro v; rw [Nat.mul_zero, pow_zero, Nat.mod_one]; rfl
  | succ n ih =>
    intro v
    have hpow : 2 ^ (8 * (n + 1)) = 256 * 2 ^ (8 * n) := by rw [Nat.mul_add, pow_add, Nat.mul_comm]; rfl
    rw [leBytes, leNat, ih, BitVec.toNat_ofNat, hpow, Nat.mod_mul]

/-! ### Cells read together -/

theorem cellRead_congr {w : Nat} {m m' : Cells w} (n : Nat) : ∀ {a : Nat}, (∀ b, a ≤ b → b < a + n → cellGet m b = cellGet m' b) →
    cellRead m a n = cellRead m' a n := by
  induction n with
  | zero => intro a _; rfl
  | succ n ih =>
    intro a h
    rw [cellRead, cellRead, h a (by omega) (by omega), ih fun b _ _ => h b (by omega) (by omega)]

/-- What is written whole is read back. -/
theorem cellRead_cellSetMany {w : Nat} (vs : List (BitVec w)) : ∀ (m : Cells w) (a : Nat), cellRead (cellSetMany m a vs) a vs.length = vs := by
  induction vs with
  | nil => intro m a; rfl
  | cons v vs ih =>
    intro m a
    rw [List.length_cons, cellRead, cellSetMany, ih, cellGet_cellSetMany, if_neg (by omega), cellGet_cellSet, if_pos rfl]

theorem cellSetMany_append {w : Nat} (us vs : List (BitVec w)) : ∀ (m : Cells w) (a : Nat),
    cellSetMany m a (us ++ vs) = cellSetMany (cellSetMany m a us) (a + us.length) vs := by
  induction us with
  | nil => intro m a; rfl
  | cons u us ih =>
    intro m a
    rw [List.cons_append, cellSetMany, cellSetMany, ih, List.length_cons]
    congr 1
    omega

/-- Cells outside those written read what they held. -/
theorem cellRead_cellSetMany_apart {w : Nat} {m : Cells w} {a c n : Nat} {vs : List (BitVec w)} (h : c + n ≤ a ∨ a + vs.length ≤ c) :
    cellRead (cellSetMany m a vs) c n = cellRead m c n :=
  cellRead_congr n fun b _ _ => by rw [cellGet_cellSetMany, if_neg (by omega)]

/-! ### Elements of whole bytes -/

/-- Bytes of an element of INT8, INT16 or INT32. -/
def wholeBytes (fmt : Nat) : Nat := 2 ^ (fmt - 1)

/-- The bytes of an element. -/
def elemBytes (fmt : Nat) (x : Int) : List Byte := leBytes (wholeBytes fmt) (unsignedOf (8 * wholeBytes fmt) x)

theorem length_elemBytes (fmt : Nat) (x : Int) : (elemBytes fmt x).length = wholeBytes fmt := length_leBytes _ _

theorem length_flatMap_elemBytes (fmt : Nat) (xs : List Int) : (xs.flatMap (elemBytes fmt)).length = xs.length * wholeBytes fmt := by
  simp [List.length_flatMap, length_elemBytes]

section
variable {fmt : Nat} (hfmt : fmt = 1 ∨ fmt = 2 ∨ fmt = 3)
include hfmt

theorem elemAt_whole (m : Cells 8) (a i : Nat) :
    elemAt m a fmt i = signedOf (8 * wholeBytes fmt) (leNat (cellRead m (a + wholeBytes fmt * i) (wholeBytes fmt))) := by
  obtain rfl | rfl | rfl := hfmt
  · simp [elemAt, wholeBytes, cellRead, leNat]
  · rfl
  · rfl

/-- The bytes of a row are those of its elements, and zeros that fill its last line (R139). -/
theorem rowBytes_whole (xs : List Int) : rowBytes fmt xs =
    xs.flatMap (elemBytes fmt) ++ List.replicate (64 * ceilDiv (xs.length * wholeBytes fmt) 64 - xs.length * wholeBytes fmt) 0 := by
  rw [← length_flatMap_elemBytes]
  obtain rfl | rfl | rfl := hfmt
  · have : (xs.map fun x => BitVec.ofNat 8 (unsignedOf 8 x)) = xs.flatMap (elemBytes 1) := by
      rw [List.map_eq_flatMap]
      rfl
    rw [← this]
    rfl
  · rfl
  · rfl

theorem length_rowBytes_le {xs : List Int} {stride : Nat} (h : xs.length * wholeBytes fmt ≤ 64 * stride) :
    (rowBytes fmt xs).length ≤ 64 * stride := by
  rw [rowBytes_whole hfmt, List.length_append, length_flatMap_elemBytes, List.length_replicate]
  unfold ceilDiv
  omega

/-- The bytes of an element spell it. -/
theorem signedOf_elemBytes {x : Int} (h : fitsFmt fmt x = true) : signedOf (8 * wholeBytes fmt) (leNat (elemBytes fmt x)) = x := by
  simp only [fitsFmt, Bool.and_eq_true, decide_eq_true_eq] at h
  have hbits : fmtBits fmt = 8 * wholeBytes fmt := by obtain rfl | rfl | rfl := hfmt <;> rfl
  have hpos : 0 < wholeBytes fmt := Nat.two_pow_pos _
  have hmod : ∀ w v, signedOf w (v % 2 ^ w) = signedOf w v := fun w v => by unfold signedOf; rw [Nat.mod_mod]
  unfold fmtLow fmtHigh at h
  rw [hbits] at h
  rw [elemBytes, leNat_leBytes, hmod, signedOf_unsignedOf (by omega) h.1 (by omega)]

/-- An element of a row that was stored is what was stored. -/
theorem elemAt_stored (m : Cells 8) (a : Nat) {xs : List Int} {i : Nat} (hi : i < xs.length) (h : fitsFmt fmt xs[i] = true) :
    elemAt (cellSetMany m a (rowBytes fmt xs)) a fmt i = xs[i] := by
  have hsplit : xs.flatMap (elemBytes fmt) =
      (xs.take i).flatMap (elemBytes fmt) ++ (elemBytes fmt xs[i] ++ (xs.drop (i + 1)).flatMap (elemBytes fmt)) := by
    conv_lhs => rw [← List.take_append_drop i xs, List.drop_eq_getElem_cons hi]
    rw [List.flatMap_append, List.flatMap_cons]
  have hbefore : ((xs.take i).flatMap (elemBytes fmt)).length = wholeBytes fmt * i := by
    rw [length_flatMap_elemBytes, List.length_take, Nat.min_eq_left hi.le, Nat.mul_comm]
  rw [elemAt_whole hfmt, rowBytes_whole hfmt, hsplit, List.append_assoc, List.append_assoc, cellSetMany_append, cellSetMany_append, hbefore, length_elemBytes,
    cellRead_cellSetMany_apart (.inl le_rfl)]
  conv_lhs => rw [← length_elemBytes fmt xs[i]]
  rw [cellRead_cellSetMany, length_elemBytes, signedOf_elemBytes hfmt h]

/-- An element apart from the stored bytes is what it was. -/
theorem elemAt_stored_apart {m : Cells 8} {a c i : Nat} {bs : List Byte}
    (h : c + wholeBytes fmt * (i + 1) ≤ a ∨ a + bs.length ≤ c + wholeBytes fmt * i) :
    elemAt (cellSetMany m a bs) c fmt i = elemAt m c fmt i := by
  rw [elemAt_whole hfmt, elemAt_whole hfmt, cellRead_cellSetMany_apart]
  rw [Nat.mul_add, Nat.mul_one] at h
  omega

end

end Sys2Proof.Machine
end

section
/-!
PROOFS. Plain tensors of OWN 0 as operands: rows that are read whole, and rows that are written (R139, R141, R154, R156).
-/
namespace Sys2Proof.Machine

/-- The rows of a tensor by its elements. -/
def rowsOf (r c : Nat) (x : Nat → Nat → Int) : List (List Int) := (List.range r).map fun k => (List.range c).map (x k)

theorem length_rowsOf (r c : Nat) (x : Nat → Nat → Int) : (rowsOf r c x).length = r := by simp [rowsOf]

theorem rowsOf_congr {r c : Nat} {x y : Nat → Nat → Int} (h : ∀ k, k < r → ∀ i, i < c → x k i = y k i) : rowsOf r c x = rowsOf r c y :=
  List.map_congr_left fun k hk => List.map_congr_left fun i hi => h k (List.mem_range.1 hk) i (List.mem_range.1 hi)

theorem map_rowsOf (f : Int → Int) (r c : Nat) (x : Nat → Nat → Int) :
    ((rowsOf r c x).map fun row => row.map f) = rowsOf r c fun k i => f (x k i) := by
  simp only [rowsOf, List.map_map, Function.comp_def]

theorem zipIdx_map_range {α : Type} (n : Nat) (f : Nat → α) : ((List.range n).map f).zipIdx = (List.range n).map fun i => (f i, i) := by
  refine List.ext_getElem (by simp) fun i _ _ => ?_
  simp

theorem getD_map_range {α : Type} {n i : Nat} (f : Nat → α) (d : α) (h : i < n) : ((List.range n).map f).getD i d = f i := by
  simp [List.getD_eq_getElem?_getD, h]

/-! ### Reading -/

section
variable {s : State} {d : TDesc} (hown : d.own = 0) (loops : List LoopFrame)
include hown

theorem State.opRow_plain (k : Nat) : s.opRow d loops k = ⟨.mem (descAddr d loops + k * d.stride * 64), none⟩ := by
  simp [State.opRow, State.batchOf, hown]

theorem State.opHeight_plain : s.opHeight d = d.rows := by
  simp [State.opHeight, hown]

theorem State.elem_plain (k : Nat) {i : Nat} (hi : i < d.cols) :
    s.elem d loops k i = elemAt s.t0 (descAddr d loops + k * d.stride * 64) d.fmt i := by
  rw [State.elem, State.opRow_plain hown, State.readRow, getD_map_range _ _ hi]

/-- An element of a plain tensor depends on T0 alone. -/
theorem State.elem_of_t0 {t : State} (h : t.t0 = s.t0) (k : Nat) {i : Nat} (hi : i < d.cols) : t.elem d loops k i = s.elem d loops k i := by
  rw [State.elem_plain hown loops k hi, State.elem_plain hown loops k hi, h]

/-- An operand in T0 without errors is read whole, and reading it changes nothing. -/
theorem State.readOp_plain (hpoison : s.t0Poison = []) (hflips : s.t0Flips = []) (e : Nat) :
    s.readOp e d loops = (rowsOf d.rows d.cols (s.elem d loops), s) := by
  have hsense : s.senseOp e d loops = s := by
    simp [State.senseOp, hpoison, hflips, hown]
  unfold State.readOp
  rw [hsense]
  dsimp only
  rw [State.opHeight_plain hown]
  congr 1
  refine List.map_congr_left fun k _ => ?_
  rw [State.opRow_plain hown, State.readRow]
  exact List.map_congr_left fun i hi => (State.elem_plain hown loops k (List.mem_range.1 hi)).symm

end

/-! ### Writing -/

section
variable {d : TDesc} (hd : plainTensor d) (loops : List LoopFrame)
include hd

theorem State.writeRow_plain (s : State) (a : Nat) (xs : List Int) : s.writeRow d ⟨.mem a, none⟩ xs = s.t0Store a (rowBytes d.fmt xs) := by
  have ⟨hown, _⟩ := hd
  simp [State.writeRow, hown]

/-- A row that was written holds what was written. -/
theorem State.elem_writeRow (s : State) (k : Nat) {x : Nat → Int} {i : Nat} (hi : i < d.cols) (hfit : fitsFmt d.fmt (x i) = true) :
    (s.writeRow d (s.opRow d loops k) ((List.range d.cols).map x)).elem d loops k i = x i := by
  have ⟨hown, _, hfmt, _⟩ := hd
  have hrow := elemAt_stored hfmt s.t0 (descAddr d loops + k * d.stride * 64) (xs := (List.range d.cols).map x) (i := i)
    (by simpa using hi) (by simpa using hfit)
  rw [State.opRow_plain hown, State.writeRow_plain hd, State.elem_plain hown loops k hi]
  exact hrow.trans (by simp)

/-- The rows of a plain tensor do not meet. -/
theorem State.elem_writeRow_apart (s : State) {j k : Nat} (hjk : j ≠ k) {xs : List Int} (hlen : xs.length = d.cols) {i : Nat} (hi : i < d.cols) :
    (s.writeRow d (s.opRow d loops k) xs).elem d loops j i = s.elem d loops j i := by
  have ⟨hown, _, hfmt, hstride⟩ := hd
  have hbytes : (rowBytes d.fmt xs).length ≤ 64 * d.stride := length_rowBytes_le hfmt (by rw [hlen]; exact hstride)
  have helem : wholeBytes d.fmt * (i + 1) ≤ 64 * d.stride :=
    (Nat.mul_le_mul_left _ hi).trans (by rw [Nat.mul_comm]; exact hstride)
  have hstart : wholeBytes d.fmt * i ≤ wholeBytes d.fmt * (i + 1) := Nat.mul_le_mul_left _ (Nat.le_succ i)
  have hapart : j * d.stride * 64 + 64 * d.stride ≤ k * d.stride * 64 ∨ k * d.stride * 64 + 64 * d.stride ≤ j * d.stride * 64 := by
    have hnext : ∀ p q : Nat, p < q → p * d.stride + d.stride ≤ q * d.stride := fun p q hpq =>
      (Nat.succ_mul p d.stride).symm.trans_le (Nat.mul_le_mul_right _ hpq)
    rcases Nat.lt_or_gt_of_ne hjk with h | h
    · have := hnext j k h; omega
    · have := hnext k j h; omega
  rw [State.opRow_plain hown, State.writeRow_plain hd, State.elem_plain hown loops j hi, State.elem_plain hown loops j hi]
  exact elemAt_stored_apart hfmt (by omega)

/-- Every row that was written holds what was written. -/
theorem State.elem_writeRows (s : State) {x : Nat → Nat → Int} {r : Nat} (hfit : ∀ k i, fitsFmt d.fmt (x k i) = true) {k i : Nat}
    (hk : k < r) (hi : i < d.cols) : (s.writeRows d loops (rowsOf r d.cols x)).elem d loops k i = x k i := by
  unfold State.writeRows rowsOf
  rw [zipIdx_map_range, List.foldl_map]
  induction r with
  | zero => exact absurd hk (Nat.not_lt_zero k)
  | succ r ih =>
    rw [List.range_succ, List.foldl_append, List.foldl_cons, List.foldl_nil]
    by_cases hkr : k = r
    · subst hkr
      exact State.elem_writeRow hd loops _ k hi (hfit k i)
    · rw [State.elem_writeRow_apart hd loops _ hkr (by simp) hi]
      exact ih (by omega)

end

end Sys2Proof.Machine
end

section
/-!
PROOFS. The vector words VADD, VMUL and VMASK on plain tensors (R157, R170, R192, Table 5-5).
-/
namespace Sys2Proof.Machine

/-! ### A word reads its operands -/

theorem State.loops_work {s : State} {e : Nat} (he : e < s.engs.length) (n : Nat) : ((s.work e n).eng e).loops = (s.eng e).loops := by
  rw [State.eng_work he]

/-- The cycles of a word change nothing that its operands are read from. -/
theorem State.readOp_work {s : State} {d : TDesc} (hown : d.own = 0) (loops : List LoopFrame) (hpoison : s.t0Poison = [])
    (hflips : s.t0Flips = []) (e n : Nat) :
    (s.work e n).readOp e d loops = (rowsOf d.rows d.cols (s.elem d loops), s.work e n) := by
  rw [State.readOp_plain (s := s.work e n) hown loops hpoison hflips,
    rowsOf_congr fun k _ i hi => State.elem_of_t0 hown loops (s := s) (t := s.work e n) rfl k hi]

/-! ### Element by element -/

/-- SRCB has a row for every row of SRCA, or one with BCAST. -/
theorem bcastRow_rowsOf {one : Bool} {r rb c k : Nat} (y : Nat → Nat → Int) (hrb : rb = if one then 1 else r) (hk : k < r) :
    bcastRow one (rowsOf rb c y) k = (List.range c).map (y (if one then 0 else k)) :=
  getD_map_range _ _ (by subst hrb; split <;> omega)

theorem zipRow_map_range (g : Int → Int → Int) (c : Nat) (x y : Nat → Int) :
    zipRow g ((List.range c).map x) ((List.range c).map y) = (List.range c).map fun i => g (x i) (y i) := by
  rw [zipRow, zipIdx_map_range, List.map_map]
  refine List.map_congr_left fun i hi => ?_
  rw [Function.comp_apply, getD_map_range _ _ (List.mem_range.1 hi)]

theorem zipIdx_rowsOf (r c : Nat) (x : Nat → Nat → Int) :
    (rowsOf r c x).zipIdx = (List.range r).map fun k => ((List.range c).map (x k), k) := zipIdx_map_range _ _

theorem map_zipRow_rowsOf (g : Int → Int → Int) {one : Bool} {r rb c : Nat} (x y : Nat → Nat → Int) (hrb : rb = if one then 1 else r) :
    ((rowsOf r c x).zipIdx.map fun row => zipRow g row.1 (bcastRow one (rowsOf rb c y) row.2)) =
      rowsOf r c fun k i => g (x k i) (y (if one then 0 else k) i) := by
  rw [zipIdx_rowsOf, List.map_map]
  refine List.map_congr_left fun k hk => ?_
  rw [Function.comp_apply, bcastRow_rowsOf y hrb (List.mem_range.1 hk), zipRow_map_range]

theorem map_mask_rowsOf (keep : Nat → Bool) (r c : Nat) (x : Nat → Nat → Int) :
    ((rowsOf r c x).zipIdx.map fun row => if keep row.2 then row.1 else row.1.map fun _ => 0) =
      rowsOf r c fun k i => if keep k then x k i else 0 := by
  rw [zipIdx_rowsOf, List.map_map]
  refine List.map_congr_left fun k _ => ?_
  rw [Function.comp_apply]
  cases hkeep : keep k with
  | false => simp [hkeep, Function.comp_def]
  | true => simp [hkeep]

/-! ### A word writes its result -/

/-- The elements of an exact result are requantised to DST. -/
theorem State.elem_putVector {s : State} {d : TDesc} (hd : plainTensor d) {n : Nat} {loops : List LoopFrame} {e : Int} {r c : Nat}
    (hc : d.cols = c) {x : Nat → Nat → Int} {k i : Nat} (hk : k < r) (hi : i < c) :
    (s.putVector n d loops e (rowsOf r c x)).elem d loops k i = requant (x k i) e d.shift d.fmt := by
  subst hc
  unfold State.putVector
  dsimp only
  rw [map_rowsOf, map_rowsOf]
  exact State.elem_writeRows hd loops _ (fun k i => fitsFmt_requant (x k i) e d.shift d.fmt) hk hi

/-- An engine that retires leaves T0 as it is. -/
theorem State.elem_retire {s : State} {d : TDesc} (hown : d.own = 0) (n : Nat) (loops : List LoopFrame) (k : Nat) {i : Nat} (hi : i < d.cols) :
    (s.retire n).elem d loops k i = s.elem d loops k i :=
  State.elem_of_t0 hown loops rfl k hi

theorem State.elem_retire_putVector {s : State} {d : TDesc} (hd : plainTensor d) {n : Nat} {loops : List LoopFrame} {e : Int} {r c : Nat}
    (hc : d.cols = c) {x : Nat → Nat → Int} {k i : Nat} (hk : k < r) (hi : i < c) :
    ((s.putVector n d loops e (rowsOf r c x)).retire n).elem d loops k i = requant (x k i) e d.shift d.fmt := by
  have ⟨hown, _⟩ := hd
  rw [State.elem_retire hown n loops k (hi.trans_eq hc.symm), State.elem_putVector hd hc hk hi]

/-! ### The words -/

/-- What VADD and VMUL share: the elements of SRCA and SRCB, paired by `g`, are the exact result at exponent `e`. -/
def State.pairRows (s : State) (n : Nat) (f : TFields) (e : Int) (g : Int → Int → Int) : State :=
  let loops := (s.eng n).loops
  let dA := s.plan.tensor f.srcA.toNat
  let dB := s.plan.tensor f.srcB.toNat
  let (a, s) := s.readOp n dA loops
  let (b, s) := s.readOp n dB loops
  s.putVector n (s.plan.tensor f.dst.toNat) loops e
    (a.zipIdx.map fun row => zipRow g row.1 (bcastRow (bitOf f.mod.toNat 0) b row.2))

theorem State.vadd_eq_pairRows (s : State) (n : Nat) (f : TFields) :
    let dA := s.plan.tensor f.srcA.toNat
    let dB := s.plan.tensor f.srcB.toNat
    let m := min dA.shift dB.shift
    s.vadd n f = s.pairRows n f m fun x y => x * (2 ^ (dA.shift - m).toNat : Nat) + y * (2 ^ (dB.shift - m).toNat : Nat) := rfl

theorem State.vmul_eq_pairRows (s : State) (n : Nat) (f : TFields) :
    s.vmul n f = s.pairRows n f ((s.plan.tensor f.srcA.toNat).shift + (s.plan.tensor f.srcB.toNat).shift) (· * ·) := rfl

section
variable {s : State} {n : Nat} {f : TFields} (he : n < s.engs.length) (hpoison : s.t0Poison = []) (hflips : s.t0Flips = [])
  (hA : (s.plan.tensor f.srcA.toNat).own = 0) (hD : plainTensor (s.plan.tensor f.dst.toNat))
  (hcols : (s.plan.tensor f.dst.toNat).cols = (s.plan.tensor f.srcA.toNat).cols)
include he hpoison hflips hA hD hcols

/-- The elements that a VADD or VMUL which retires leaves in DST. -/
theorem State.elem_pairRows (hB : (s.plan.tensor f.srcB.toNat).own = 0)
    (hcolsB : (s.plan.tensor f.srcB.toNat).cols = (s.plan.tensor f.srcA.toNat).cols)
    (hrowsB : (s.plan.tensor f.srcB.toNat).rows = if bitOf f.mod.toNat 0 then 1 else (s.plan.tensor f.srcA.toNat).rows)
    (c : Nat) (e : Int) (g : Int → Int → Int) {k i : Nat} (hk : k < (s.plan.tensor f.srcA.toNat).rows)
    (hi : i < (s.plan.tensor f.srcA.toNat).cols) :
    let loops := (s.eng n).loops
    let dD := s.plan.tensor f.dst.toNat
    (((s.work n c).pairRows n f e g).retire n).elem dD loops k i = requant
      (g (s.elem (s.plan.tensor f.srcA.toNat) loops k i)
        (s.elem (s.plan.tensor f.srcB.toNat) loops (if bitOf f.mod.toNat 0 then 0 else k) i)) e dD.shift dD.fmt := by
  have hplan : (s.work n c).plan = s.plan := rfl
  dsimp only
  unfold State.pairRows
  simp only [hplan, State.loops_work he, State.readOp_work hA _ hpoison hflips, State.readOp_work hB _ hpoison hflips]
  rw [hcolsB, map_zipRow_rowsOf _ _ _ hrowsB, State.elem_retire_putVector hD hcols hk hi]

/-- The elements that a VMASK without a mask which retires leaves in DST. -/
theorem State.elem_vmask (hB : f.srcB = 0xFFF) (c : Nat) {k i : Nat} (hk : k < (s.plan.tensor f.srcA.toNat).rows)
    (hi : i < (s.plan.tensor f.srcA.toNat).cols) :
    let loops := (s.eng n).loops
    let dA := s.plan.tensor f.srcA.toNat
    let dD := s.plan.tensor f.dst.toNat
    (((s.work n c).vmask n f).retire n).elem dD loops k i = requant
      (if (keyGet s.rows (k / max 1 (dA.rows / s.planRows))).isSome then s.elem dA loops k i else 0) dA.shift dD.shift dD.fmt := by
  have hplan : (s.work n c).plan = s.plan := rfl
  have hkeep : ∀ k, (keyGet (s.work n c).rows ((s.work n c).maskBatch (s.plan.tensor f.srcA.toNat) k)).isSome =
      (keyGet s.rows (k / max 1 ((s.plan.tensor f.srcA.toNat).rows / s.planRows))).isSome := fun k => by
    rw [State.maskBatch, if_neg (by omega)]
    rfl
  dsimp only
  unfold State.vmask
  simp only [hplan, State.loops_work he, State.readOp_work hA _ hpoison hflips, hB, if_true, decide_true, Bool.true_or, Bool.and_true, hkeep]
  rw [map_mask_rowsOf fun k => (keyGet s.rows (k / max 1 ((s.plan.tensor f.srcA.toNat).rows / s.planRows))).isSome,
    State.elem_retire_putVector hD hcols hk hi]

end

section
variable {n : Fin 16} {f : TFields} {s : State} (h : s.vecCost f + 12 < (s.eng n).remain)
include h

theorem exec_vadd_lasts (hw : s.standsAt n (tWord 0x30 f) = true) :
    exec (.vadd n f) s = .next (((s.work n (s.vecCost f + 12)).vadd n f).retire n) := by
  rw [exec_vadd, execVadd, State.runWord_of_lasts _ hw h]

theorem exec_vmul_lasts (hw : s.standsAt n (tWord 0x31 f) = true) :
    exec (.vmul n f) s = .next (((s.work n (s.vecCost f + 12)).vmul n f).retire n) := by
  rw [exec_vmul, execVmul, State.runWord_of_lasts _ hw h]

theorem exec_vmask_lasts (hw : s.standsAt n (tWord 0x34 f) = true) :
    exec (.vmask n f) s = .next (((s.work n (s.vecCost f + 12)).vmask n f).retire n) := by
  rw [exec_vmask, execVmask, State.runWord_of_lasts _ hw h]

end

end Sys2Proof.Machine
end

section
/-!
PROOFS. MMUL of plain tensors into one accumulator bank (R164, R165, R192, R196).
-/
namespace Sys2Proof.Machine

/-! ### Accumulator banks -/

theorem keyGetD_keyPut {α : Type} (m : List (Nat × α)) (a b : Nat) (v d : α) :
    keyGetD (keyPut m a v) b d = if b = a then v else keyGetD m b d := by
  rw [keyGetD, keyGet_keyPut]
  split <;> rfl

theorem keyGetD_keyDel {α : Type} (m : List (Nat × α)) (a b : Nat) (d : α) :
    keyGetD (keyDel m a) b d = if b = a then d else keyGetD m b d := by
  rw [keyGetD, keyGet_keyDel]
  split <;> rfl

theorem State.bank_setBank (s : State) (n b : Nat) (v : AccBank) : (s.setBank n b v).bank n b = v := by
  show keyGetD (if v = zeroBank then keyDel s.banks (8 * n + b) else keyPut s.banks (8 * n + b) v) (8 * n + b) zeroBank = v
  split
  · next h => rw [keyGetD_keyDel, if_pos rfl, h]
  · rw [keyGetD_keyPut, if_pos rfl]

theorem AccBank.exp_setExp (b : AccBank) (c j : Nat) (e : Int) : (b.setExp c e).exp j = if j = c then e else b.exp j := by
  show keyGetD (if e = 0 then keyDel b.exps c else keyPut b.exps c e) j 0 = _
  split
  · next h => rw [keyGetD_keyDel, h]; rfl
  · rw [keyGetD_keyPut]; rfl

theorem AccBank.exps_setSum (b : AccBank) (r c : Nat) (v : Int) : (b.setSum r c v).exps = b.exps := rfl

theorem AccBank.sum_setSum (b : AccBank) {r c i j : Nat} (hc : c < 32) (hj : j < 32) (v : Int) :
    (b.setSum r c v).sum i j = if i = r ∧ j = c then v else b.sum i j := by
  have hkey : (32 * i + j = 32 * r + c) = (i = r ∧ j = c) := propext (by omega)
  show keyGetD (if v = 0 then keyDel b.sums (32 * r + c) else keyPut b.sums (32 * r + c) v) (32 * i + j) 0 = _
  split
  · next h => simp only [keyGetD_keyDel, hkey, h]; rfl
  · simp only [keyGetD_keyPut, hkey]; rfl

/-- Each column gets its exponent. -/
theorem AccBank.exp_foldl_setExp (b : AccBank) (e : Nat → Int) {cols c : Nat} (hc : c < cols) :
    ((List.range cols).foldl (fun b c => b.setExp c (e c)) b).exp c = e c := by
  induction cols with
  | zero => exact absurd hc (Nat.not_lt_zero c)
  | succ cols ih =>
    rw [List.range_succ, List.foldl_append, List.foldl_cons, List.foldl_nil, AccBank.exp_setExp]
    split
    · next h => rw [h]
    · exact ih (by omega)

section
variable {ι : Type} {key : ι → Nat × Nat} {v : AccBank → ι → Int}

theorem AccBank.exps_foldl_setSum (l : List ι) :
    ∀ b : AccBank, (l.foldl (fun b x => b.setSum (key x).1 (key x).2 (v b x)) b).exps = b.exps := by
  induction l with
  | nil => intro b; rfl
  | cons x l ih => intro b; exact ih _

/-- Words set in turn, each to the value of its place while the recorded exponents stand: a word that one of them sets, or that held the
value of its place before, holds it after. -/
theorem AccBank.sum_foldl_setSum {w : Nat → Nat → Int} {exps : List (Nat × Int)} {i j : Nat} (hj : j < 32) {l : List ι}
    (hkey : ∀ x ∈ l, (key x).2 < 32) (hv : ∀ x ∈ l, ∀ b : AccBank, b.exps = exps → v b x = w (key x).1 (key x).2) :
    ∀ {b : AccBank}, b.exps = exps → ((i, j) ∈ l.map key ∨ b.sum i j = w i j) →
      (l.foldl (fun b x => b.setSum (key x).1 (key x).2 (v b x)) b).sum i j = w i j := by
  induction l with
  | nil => intro b _ h; exact h.resolve_left List.not_mem_nil
  | cons x l ih =>
    intro b hb h
    obtain ⟨hx, hl⟩ := List.forall_mem_cons.1 hkey
    obtain ⟨hvx, hvl⟩ := List.forall_mem_cons.1 hv
    refine ih hl hvl (b := b.setSum (key x).1 (key x).2 (v b x)) hb ?_
    rw [AccBank.sum_setSum b hx hj, hvx b hb]
    rw [List.map_cons, List.mem_cons, or_assoc] at h
    split
    · next hhere => exact .inr (by rw [hhere.1, hhere.2])
    · next hother => exact h.resolve_left fun hhere => hother (Prod.mk.inj hhere)

end

/-! ### The product in a bank -/

theorem dot_map {α : Type} (l : List α) (x y : α → Int) : dot (l.map x) (l.map y) = (l.map fun j => x j * y j).sum := by
  induction l with
  | nil => rfl
  | cons a l ih => rw [List.map_cons, List.map_cons, List.map_cons, List.sum_cons, dot, ih]

/-- A bank whose first columns all have the exponent `e`, limited as a bank records it. -/
def AccBank.atExp (b : AccBank) (cols : Nat) (e : Int) : AccBank :=
  (List.range cols).foldl (fun b c => b.setExp c (clampInt (-31) 31 e)) b

theorem AccBank.exp_atExp (b : AccBank) {e : Int} (hlo : -31 ≤ e) (hhi : e ≤ 31) {cols c : Nat} (hc : c < cols) : (b.atExp cols e).exp c = e :=
  (AccBank.exp_foldl_setExp b (fun _ => clampInt (-31) 31 e) hc).trans (clampInt_of_mem hlo hhi)

/-- A bank after the product of rows with columns at exponent `e`, without accumulating and without bias. -/
def AccBank.product (b : AccBank) (e : Int) (rows cols : List (List Int)) : AccBank :=
  rows.zipIdx.foldl (fun b row => cols.zipIdx.foldl (fun b col =>
    b.setSum row.2 col.2 (mmulWord false (b.sum row.2 col.2) 0 (dot row.1 col.1) e (b.exp col.2))) b) b

/-- The place of the word that a row and a column, each with its index, give. -/
def placeOf (x : (List Int × Nat) × (List Int × Nat)) : Nat × Nat := (x.1.2, x.2.2)

/-- The word that a row and a column give. -/
def AccBank.wordOf (e : Int) (b : AccBank) (x : (List Int × Nat) × (List Int × Nat)) : Int :=
  mmulWord false (b.sum x.1.2 x.2.2) 0 (dot x.1.1 x.2.1) e (b.exp x.2.2)

/-- The words of a product are set one by one. -/
theorem AccBank.product_eq_foldl (b : AccBank) (e : Int) (rows cols : List (List Int)) : b.product e rows cols =
    (rows.zipIdx ×ˢ cols.zipIdx).foldl (fun b x => b.setSum (placeOf x).1 (placeOf x).2 (b.wordOf e x)) b := by
  show _ = List.foldl _ b (rows.zipIdx.flatMap fun row => cols.zipIdx.map (Prod.mk row))
  simp only [List.foldl_flatMap, List.foldl_map]
  rfl

theorem AccBank.exp_product (b : AccBank) (e : Int) (rows cols : List (List Int)) (c : Nat) : (b.product e rows cols).exp c = b.exp c := by
  rw [AccBank.product_eq_foldl]
  exact congrArg (keyGetD · c 0) (AccBank.exps_foldl_setSum _ b)

theorem mem_product_rowsOf {r c m : Nat} {x y : Nat → Nat → Int} {p : (List Int × Nat) × (List Int × Nat)} :
    p ∈ (rowsOf r m x).zipIdx ×ˢ (rowsOf c m y).zipIdx ↔
      ∃ k < r, ∃ j < c, (((List.range m).map (x k), k), ((List.range m).map (y j), j)) = p := by
  obtain ⟨row, col⟩ := p
  rw [List.mem_product, zipIdx_rowsOf, zipIdx_rowsOf, List.mem_map, List.mem_map]
  constructor
  · rintro ⟨⟨k, hk, hrow⟩, j, hj, hcol⟩
    exact ⟨k, List.mem_range.1 hk, j, List.mem_range.1 hj, Prod.ext hrow hcol⟩
  · rintro ⟨k, hk, j, hj, hp⟩
    obtain ⟨rfl, rfl⟩ := Prod.mk.inj hp
    exact ⟨⟨k, List.mem_range.2 hk, rfl⟩, j, List.mem_range.2 hj, rfl⟩

/-- Where every column records the exponent of the product, each word is the exact sum of its products (R164, R196). -/
theorem AccBank.sum_product (b : AccBank) {e : Int} {r m c : Nat} (hc : c ≤ 32) (hexp : ∀ j, j < c → b.exp j = e) (x y : Nat → Nat → Int)
    {k j : Nat} (hk : k < r) (hj : j < c) :
    (b.product e (rowsOf r m x) (rowsOf c m y)).sum k j = ((List.range m).map fun i => x k i * y j i).sum := by
  rw [AccBank.product_eq_foldl]
  refine AccBank.sum_foldl_setSum (w := fun k j => ((List.range m).map fun i => x k i * y j i).sum) (exps := b.exps) (hj.trans_le hc)
    (fun p hp => ?_) (fun p hp b' hb' => ?_) rfl (.inl (List.mem_map.2 ?_))
  · obtain ⟨k, -, j, hj, rfl⟩ := mem_product_rowsOf.1 hp
    exact hj.trans_le hc
  · obtain ⟨k, -, j, hj, rfl⟩ := mem_product_rowsOf.1 hp
    have hrec : b'.exp j = e := (congrArg (keyGetD · j 0) hb').trans (hexp j hj)
    rw [AccBank.wordOf, mmulWord, hrec, Int.sub_self, rneShift_zero, dot_map, if_neg Bool.false_ne_true, Int.zero_add]
    rfl
  · exact ⟨_, mem_product_rowsOf.2 ⟨k, hk, j, hj, rfl⟩, rfl⟩

/-! ### MMUL -/

theorem map_column_rowsOf {r c j : Nat} (y : Nat → Nat → Int) (hj : j < c) :
    ((rowsOf r c y).map fun row => row.getD j 0) = (List.range r).map fun i => y i j := by
  rw [rowsOf, List.map_map]
  exact List.map_congr_left fun i _ => getD_map_range _ _ hj

theorem map_columns_rowsOf (r c : Nat) (y : Nat → Nat → Int) :
    ((List.range c).map fun j => (rowsOf r c y).map fun row => row.getD j 0) = rowsOf c r fun j i => y i j :=
  List.map_congr_left fun _ hj => map_column_rowsOf y (List.mem_range.1 hj)

theorem effExp_unscaled {d : TDesc} (h : d.scale = 0) (shifts : List Int) (r c : Nat) : effExp d shifts r c = d.shift := by
  simp [effExp, h]

theorem State.senseTrailer_unscaled {d : TDesc} (h : d.scale = 0) (s : State) (e : Nat) (loops : List LoopFrame) : s.senseTrailer e d loops = s := by
  simp [State.senseTrailer, TDesc.shiftCount, h]

/-- MMUL of at most 32 rows sets one bank (R164, R165). -/
theorem State.mmul_work {s : State} {n : Nat} {f : TFields} (he : n < s.engs.length) (hpoison : s.t0Poison = []) (hflips : s.t0Flips = [])
    (hA : (s.plan.tensor f.srcA.toNat).own = 0) (hB : (s.plan.tensor f.srcB.toNat).own = 0) (hscale : (s.plan.tensor f.srcB.toNat).scale = 0)
    (hpos : 0 < (s.plan.tensor f.srcA.toNat).rows) (hrows : (s.plan.tensor f.srcA.toNat).rows ≤ 32) (hC : f.srcC = 0xFFF)
    (hacc : bitOf f.mod.toNat 3 = false) (hssrc : bitOf f.mod.toNat 7 = false) (c : Nat) :
    let loops := (s.eng n).loops
    let dA := s.plan.tensor f.srcA.toNat
    let dB := s.plan.tensor f.srcB.toNat
    ∃ v : State, (s.work n c).mmul n f = v.setBank n (f.mod.toNat % 8)
      (((v.bank n (f.mod.toNat % 8)).atExp dB.cols (dA.shift + dB.shift)).product (dA.shift + dB.shift) (rowsOf dA.rows dA.cols (s.elem dA loops))
        (rowsOf dB.cols dB.rows fun j i => s.elem dB loops i j)) := by
  have hplan : (s.work n c).plan = s.plan := rfl
  have hbanks : ceilDiv (s.plan.tensor f.srcA.toNat).rows 32 = 1 := by unfold ceilDiv; omega
  have htake : (rowsOf (s.plan.tensor f.srcA.toNat).rows (s.plan.tensor f.srcA.toNat).cols
      (s.elem (s.plan.tensor f.srcA.toNat) (s.eng n).loops)).take 32 = _ := List.take_of_length_le (by rw [length_rowsOf]; exact hrows)
  dsimp only
  unfold State.mmul
  simp only [hplan, hacc, hssrc, hC, if_true, Bool.false_eq_true, if_false, State.loops_work he, State.readOp_work hA _ hpoison hflips,
    State.readOp_work hB _ hpoison hflips, State.senseTrailer_unscaled hscale, effExp_unscaled hscale, length_rowsOf, map_columns_rowsOf,
    hbanks, List.range_one, List.foldl_cons, List.foldl_nil, Nat.add_zero, Nat.mul_zero, List.drop_zero, htake, List.getD_nil]
  exact ⟨_, rfl⟩

theorem exec_mmul_lasts {n : Fin 16} {f : TFields} {s : State} (h : s.mmulCost n f < (s.eng n).remain) (hw : s.standsAt n (tWord 0x20 f) = true) :
    exec (.mmul n f) s = .next (((s.work n (s.mmulCost n f)).mmul n f).retire n) := by
  rw [exec_mmul, execMmul, State.runWord_of_lasts _ hw h]

end Sys2Proof.Machine
end

section
/-!
PROOFS. What the vector and matrix words compute (R157, R164, R165, R170, R192, Table 5-5).
-/
namespace Sys2Proof.Machine

/-- Settles O60: a vector word writes its rows requantised to DST, and MMUL sets its bank to the product. -/
theorem vectorAndMatrixWordsComputeExactly : Obligations.VectorAndMatrixWordsComputeExactly := by
  refine ⟨fun x k hk => rneShift_nearest x hk, fun n f s hlen hpoison hflips => ?words⟩
  have he : n.val < s.engs.length := by omega
  intro loops dA dB dD one ⟨hownA, _⟩
  refine ⟨fun ⟨hownB, _⟩ hD _ hcols hcolsB hrowsB hlasts => ⟨fun hw => ?vadd, fun hw => ?vmul⟩, fun hD _ hcols hmask hlasts hw => ?vmask,
    fun ⟨hownB, hscaleB, _⟩ hrows hdepth hwidth hbias hacc hssrc hlo hhi hlasts hw => ?mmul⟩
  case vadd =>
    refine ⟨_, exec_vadd_lasts hlasts hw, fun k hk i hi => ?_⟩
    rw [State.vadd_eq_pairRows]
    exact State.elem_pairRows he hpoison hflips hownA hD hcols hownB hcolsB hrowsB _ _ _ hk hi
  case vmul =>
    refine ⟨_, exec_vmul_lasts hlasts hw, fun k hk i hi => ?_⟩
    rw [State.vmul_eq_pairRows]
    exact State.elem_pairRows he hpoison hflips hownA hD hcols hownB hcolsB hrowsB _ _ _ hk hi
  case vmask =>
    exact ⟨_, exec_vmask_lasts hlasts hw, fun k hk i hi => State.elem_vmask he hpoison hflips hownA hD hcols hmask _ hk hi⟩
  case mmul =>
    refine ⟨_, exec_mmul_lasts hlasts hw, fun k hk c hc => ?_⟩
    obtain ⟨v, hv⟩ := State.mmul_work he hpoison hflips hownA hownB hscaleB (Nat.zero_lt_of_lt hk) hrows hbias hacc hssrc (s.mmulCost n f)
    have hbank : (((s.work n (s.mmulCost n f)).mmul n f).retire n).bank n (f.mod.toNat % 8) = _ :=
      (congrArg (fun t : State => t.bank n (f.mod.toNat % 8)) hv).trans (State.bank_setBank _ _ _ _)
    have hexp : ∀ j, j < dB.cols → ((v.bank n (f.mod.toNat % 8)).atExp dB.cols (dA.shift + dB.shift)).exp j = dA.shift + dB.shift :=
      fun j hj => AccBank.exp_atExp _ hlo hhi hj
    rw [hbank, AccBank.exp_product]
    refine ⟨?_, hexp c hc⟩
    rw [← hdepth]
    exact AccBank.sum_product _ hwidth hexp _ _ hk hc

end Sys2Proof.Machine
end

section
/-!
PROOFS. The host queues: what the operations on a queue and its registers change (R301 to R307, R331).
-/
namespace Sys2Proof.Machine

/-! ### A queue after an update -/

theorem State.queue_of_queues {s t : State} (h : t.queues = s.queues) (k : Nat) : t.queue k = s.queue k := by unfold State.queue; rw [h]

theorem State.queue_updQueue (s : State) {q : Nat} (f : Queue → Queue) (h : q < s.queues.length) : (s.updQueue q f).queue q = f (s.queue q) := by
  simp [State.queue, State.updQueue, h]

@[simp] theorem State.length_updQueue (s : State) (q : Nat) (f : Queue → Queue) : (s.updQueue q f).queues.length = s.queues.length := by
  simp [State.updQueue]

/-! ### The registers of a queue -/

theorem qReg_ne {r r' q : Nat} (h : r ≠ r') : qReg r q ≠ qReg r' q := by
  unfold qReg
  omega

/-- The HOST block below its pending vectors lies apart from the registers of the logs. -/
theorem eventReg_host {a : Nat} (hlo : 0x0B0000 ≤ a) (hhi : a < 0x0B9000) : eventReg a = false := by
  simp only [eventReg, inRange, Bool.or_eq_false_iff, Bool.and_eq_false_iff, decide_eq_false_iff_not]
  simp only [Reg.ERRLOG_STAT, Reg.ERRLOG_HEAD, Reg.ERRLOG_VHEAD, Reg.ERRLOG_ECNT, Reg.ERRLOG_VCNT, Reg.ERRLOG_E, Reg.ERRLOG_V, Reg.HSP_INTPEND,
    Reg.HOST_MSIX_PBA]
  omega

/-- The registers of a queue are none of those that the logs and the vectors change. -/
theorem eventReg_qReg {r q : Nat} (hlo : Reg.HOST_QCTRL ≤ r) (hhi : r ≤ Reg.HOST_CQTAIL) (hq : q < 16) : eventReg (qReg r q) = false := by
  simp only [Reg.HOST_QCTRL, Reg.HOST_CQTAIL] at hlo hhi
  exact eventReg_host (by unfold qReg; omega) (by unfold qReg; omega)

/-! ### A queue that enters FAULT (R331) -/

theorem State.faultQueue_queues (s : State) (q cause : Nat) : (s.faultQueue q cause).queues = s.queues :=
  (State.faultQueue_eff Sub.rfl Eff.refl).queues rfl

theorem State.faultQueue_host (s : State) (q cause : Nat) : (s.faultQueue q cause).host = s.host :=
  (State.faultQueue_eff Sub.rfl Eff.refl).host rfl

theorem State.reg_faultQueue_apart (s : State) {q a : Nat} (cause : Nat) (h : eventReg a = false) (ha : a ≠ qReg Reg.HOST_QSTAT q) :
    (s.faultQueue q cause).reg a = s.reg a := by
  unfold State.faultQueue
  rw [State.reg_logError _ _ _ _ h, State.reg_setFld_apart _ _ _ _ ha, State.reg_setBit_apart _ _ _ ha]

section
variable (s : State) {q : Nat} (hq : q < 16)
include hq

theorem State.qFault_faultQueue (cause : Nat) : (s.faultQueue q cause).qFault q = true := by
  unfold State.qFault State.faultQueue
  rw [State.bit_logError _ _ _ _ _ (eventReg_qReg (by decide) (by decide) hq), State.bit_setFld_apart _ _ _ _ _ _ _ (by omega),
    State.bit_setBit _ _ _ _ (by decide)]

theorem State.qOn_faultQueue (cause : Nat) : (s.faultQueue q cause).qOn q = s.qOn q := by
  unfold State.qOn State.faultQueue
  rw [State.bit_logError _ _ _ _ _ (eventReg_qReg (by decide) (by decide) hq), State.bit_setFld_apart _ _ _ _ _ _ _ (by omega),
    State.bit_setBit_apart _ _ _ _ _ _ (by omega)]

theorem State.fcause_faultQueue (cause : Nat) : (s.faultQueue q cause).fld (qReg Reg.HOST_QSTAT q) 8 4 = cause % 16 := by
  unfold State.faultQueue
  exact (State.fld_logError _ _ _ _ _ _ (eventReg_qReg (by decide) (by decide) hq)).trans (State.fld_setFld _ _ _ _ _ (by decide))

theorem State.sqHead_faultQueue (cause : Nat) : (s.faultQueue q cause).sqHead q = s.sqHead q :=
  State.fld_of_reg (State.reg_faultQueue_apart s cause (eventReg_qReg (by decide) (by decide) hq) (qReg_ne (by decide))) _ _

theorem State.cqTail_faultQueue (cause : Nat) : (s.faultQueue q cause).cqTail q = s.cqTail q :=
  State.fld_of_reg (State.reg_faultQueue_apart s cause (eventReg_qReg (by decide) (by decide) hq) (qReg_ne (by decide))) _ _

end

end Sys2Proof.Machine
end

section
/-!
PROOFS. Host queues are enabled, reset and rung (R302 to R304, R329, R331, R332).
-/
namespace Sys2Proof.Machine

/-! ### Enabling -/

/-- Indices, tails and PHASE of a queue right after its enable or reset. -/
def Queue.zeroed (h : Queue) : Queue := { h with sqTail := 0, cqHead := 0, phase := true, unsignalled := 0 }

theorem State.queue_queueZero (s : State) {q : Nat} (h : q < s.queues.length) : (s.queueZero q).queue q = (s.queue q).zeroed :=
  State.queue_updQueue _ _ h

theorem State.sqHead_queueZero (s : State) (q : Nat) : (s.queueZero q).sqHead q = 0 := by
  unfold State.sqHead State.queueZero
  rw [State.fld_updQueue, State.fld_setReg_apart _ _ _ _ (qReg_ne (by decide)), State.fld_setReg, if_pos rfl]
  rfl

theorem State.cqTail_queueZero (s : State) (q : Nat) : (s.queueZero q).cqTail q = 0 := by
  unfold State.cqTail State.queueZero
  rw [State.fld_updQueue, State.fld_setReg, if_pos rfl]
  rfl

/-- An enable writes its sizes, LOC, vector and IEN while the queue is disabled (Table 10-13). -/
def State.takeQctrl (s : State) (q : Nat) (v : Word) : State :=
  let r := qReg Reg.HOST_QCTRL q
  ((((s.setFld r 24 1 (wordField v 24 1)).setFld r 16 5 (wordField v 16 5)).setFld r 8 4 (wordField v 8 4)).setFld r 12 4
    (wordField v 12 4)).setFld r 2 1 (wordField v 2 1)

theorem State.reg_takeQctrl_apart (s : State) {q a : Nat} (v : Word) (h : a ≠ qReg Reg.HOST_QCTRL q) : (s.takeQctrl q v).reg a = s.reg a := by
  unfold State.takeQctrl
  simp only [State.reg_setFld_apart _ _ _ _ h]

theorem State.qOn_takeQctrl (s : State) (q : Nat) (v : Word) : (s.takeQctrl q v).qOn q = s.qOn q :=
  State.bit_of_reg (State.reg_takeQctrl_apart s v (qReg_ne (by decide))) _

theorem State.qFault_takeQctrl (s : State) (q : Nat) (v : Word) : (s.takeQctrl q v).qFault q = s.qFault q :=
  State.bit_of_reg (State.reg_takeQctrl_apart s v (qReg_ne (by decide))) _

/-- EN 1 without RESET, on a disabled queue without a fault, enables it or refuses (R302). -/
theorem State.writeQctrl_enables {s : State} {q : Nat} {v : Word} (hreset : wordField v 1 1 = 0) (hen : s.bit (qReg Reg.HOST_QCTRL q) 0 = false)
    (hfault : s.qFault q = false) : s.writeQctrl q (v ||| 1) = (s.takeQctrl q v).enableQueue q := by
  have hword : ∀ lo w, 0 < lo → wordField (v ||| 1) lo w = wordField v lo w := fun lo w h => wordField_or_one_above v w h
  unfold State.writeQctrl
  simp only [hen, hword 24 1 (by decide), hword 16 5 (by decide), hword 8 4 (by decide), hword 12 4 (by decide), hword 2 1 (by decide),
    hword 1 1 (by decide), hreset, wordField_or_one_zero, Bool.false_eq_true, if_false]
  have hdown : (false || (s.takeQctrl q v).qFault q) ≠ true := by simp [State.qFault_takeQctrl, hfault]
  exact (if_neg (by decide)).trans (if_neg hdown)

theorem exec_queueEnable_served {s : State} {i : Iface} (q : Fin 16) (v : Word) (h : s.served i = true) :
    exec (.queueEnable i q v) s = .next (s.writeQctrl q (v ||| 1)) := by
  rw [exec_queueEnable, execQueueEnable, if_pos h]

/-- A queue that R302 admits, enabled. -/
def State.enabled (s : State) (q : Nat) : State := ((s.queueZero q).setBit (qReg Reg.HOST_QCTRL q) 0 true).setBit (qReg Reg.HOST_QSTAT q) 0 true

theorem State.enableQueue_admitted {s : State} {q : Nat} (h : s.enableOk q = true) : s.enableQueue q = s.enabled q := if_pos h

theorem State.enableQueue_refused {s : State} {q : Nat} (h : s.enableOk q = false) : s.enableQueue q = s.faultQueue q 5 :=
  if_neg (by rw [h]; decide)

theorem State.reg_enabled_apart (s : State) {q a : Nat} (hc : a ≠ qReg Reg.HOST_QCTRL q) (hs : a ≠ qReg Reg.HOST_QSTAT q) :
    (s.enabled q).reg a = (s.queueZero q).reg a := by
  unfold State.enabled
  rw [State.reg_setBit_apart _ _ _ hs, State.reg_setBit_apart _ _ _ hc]

theorem State.enabled_facts (s : State) {q : Nat} (h : q < s.queues.length) : (s.enabled q).qOn q = true ∧
    (s.enabled q).bit (qReg Reg.HOST_QCTRL q) 0 = true ∧ (s.enabled q).sqHead q = 0 ∧ (s.enabled q).cqTail q = 0 ∧
    (s.enabled q).queue q = (s.queue q).zeroed := by
  refine ⟨State.bit_setBit _ _ _ _ (by decide), ?_, ?_, ?_, State.queue_queueZero s h⟩
  · unfold State.enabled
    rw [State.bit_setBit_apart _ _ _ _ _ _ (.inl (qReg_ne (by decide))), State.bit_setBit _ _ _ _ (by decide)]
  · rw [← s.sqHead_queueZero q]
    exact State.fld_of_reg (s.reg_enabled_apart (qReg_ne (by decide)) (qReg_ne (by decide))) _ _
  · rw [← s.cqTail_queueZero q]
    exact State.fld_of_reg (s.reg_enabled_apart (qReg_ne (by decide)) (qReg_ne (by decide))) _ _

/-! ### Reset (R329) -/

theorem wordField_or_two_one (v : Word) : wordField (v ||| 2) 1 1 = 1 := by
  apply Nat.eq_of_testBit_eq
  intro j
  rw [wordField_testBit, BitVec.getLsbD_or]
  cases j <;> simp [Nat.testBit_succ]

theorem exec_queueReset_served {s : State} {i : Iface} (q : Fin 16) (v : Word) (h : s.served i = true) :
    exec (.queueReset i q v) s = .next (s.writeQctrl q (v ||| 2)) := by
  rw [exec_queueReset, execQueueReset, if_pos h]

/-- RESET 1 resets the queue, whatever else is written. -/
theorem State.writeQctrl_resets (s : State) (q : Nat) (v : Word) :
    ∃ u : State, u.queues = s.queues ∧ s.writeQctrl q (v ||| 2) = u.resetQueue q := by
  unfold State.writeQctrl
  simp only [wordField_or_two_one, decide_true, Bool.true_or, if_true]
  refine ⟨_, ?_, rfl⟩
  split <;> rfl

/-- The requests of a queue that act are stopped. -/
def State.stopActing (s : State) (q : Nat) : State :=
  ((s.queue q).reqs.filter fun r => r.state = .acting && !r.replay).foldl (fun (s : State) r => (s.stopReq q r).2) s

theorem State.stopActing_queues (s : State) (q : Nat) : (s.stopActing q).queues = s.queues :=
  (Eff.foldl _ (fun _ _ h => State.stopReq_eff Sub.rfl h) Eff.refl).queues rfl

/-- The queue's own part of a reset. -/
def State.clearQueue (s : State) (q : Nat) : State := (s.queueZero q).updQueue q fun h => { h with reqs := [], window := [] }

/-- The bits of its registers that a reset clears, and the held records shown. -/
def State.showReset (s : State) (q : Nat) : State :=
  let st := qReg Reg.HOST_QSTAT q
  ((((s.setBit st 0 false).setBit st 2 false).setFld st 8 4 0).setBit (qReg Reg.HOST_QCTRL q) 0 false).showHeld q

theorem State.resetQueue_eq (s : State) (q : Nat) : s.resetQueue q = ((s.stopActing q).clearQueue q).showReset q := rfl

theorem State.showReset_queues (s : State) (q : Nat) : (s.showReset q).queues = s.queues := rfl

theorem State.reg_showReset_apart (s : State) {q a : Nat} (hc : a ≠ qReg Reg.HOST_QCTRL q) (hs : a ≠ qReg Reg.HOST_QSTAT q) :
    (s.showReset q).reg a = s.reg a := by
  unfold State.showReset State.showHeld
  simp only [State.reg_setFld_apart _ _ _ _ hs, State.reg_setBit_apart _ _ _ hs, State.reg_setBit_apart _ _ _ hc]

theorem State.qOn_showReset (s : State) (q : Nat) : (s.showReset q).qOn q = false := by
  unfold State.qOn State.showReset State.showHeld
  rw [State.bit_setFld_apart _ _ _ _ _ _ _ (by omega), State.bit_setBit_apart _ _ _ _ _ _ (.inl (qReg_ne (by decide))),
    State.bit_setFld_apart _ _ _ _ _ _ _ (by omega), State.bit_setBit_apart _ _ _ _ _ _ (by omega), State.bit_setBit _ _ _ _ (by decide)]

theorem State.qFault_showReset (s : State) (q : Nat) : (s.showReset q).qFault q = false := by
  unfold State.qFault State.showReset State.showHeld
  rw [State.bit_setFld_apart _ _ _ _ _ _ _ (by omega), State.bit_setBit_apart _ _ _ _ _ _ (.inl (qReg_ne (by decide))),
    State.bit_setFld_apart _ _ _ _ _ _ _ (by omega), State.bit_setBit _ _ _ _ (by decide)]

theorem State.en_showReset (s : State) (q : Nat) : (s.showReset q).bit (qReg Reg.HOST_QCTRL q) 0 = false := by
  unfold State.showReset State.showHeld
  rw [State.bit_setFld_apart _ _ _ _ _ _ _ (.inl (qReg_ne (by decide))), State.bit_setBit _ _ _ _ (by decide)]

/-- A reset leaves the queue disabled, without a fault, with every index 0, nothing fetched and an empty window. -/
theorem State.resetQueue_facts (s : State) {q : Nat} (h : q < s.queues.length) : (s.resetQueue q).qOn q = false ∧ (s.resetQueue q).qFault q = false ∧
    (s.resetQueue q).bit (qReg Reg.HOST_QCTRL q) 0 = false ∧ (s.resetQueue q).sqHead q = 0 ∧ (s.resetQueue q).cqTail q = 0 ∧
    (s.resetQueue q).queue q = { (s.queue q).zeroed with reqs := [], window := [] } := by
  rw [State.resetQueue_eq]
  refine ⟨State.qOn_showReset _ _, State.qFault_showReset _ _, State.en_showReset _ _, ?_, ?_, ?_⟩
  · rw [← (s.stopActing q).sqHead_queueZero q]
    exact State.fld_of_reg (State.reg_showReset_apart _ (qReg_ne (by decide)) (qReg_ne (by decide))) _ _
  · rw [← (s.stopActing q).cqTail_queueZero q]
    exact State.fld_of_reg (State.reg_showReset_apart _ (qReg_ne (by decide)) (qReg_ne (by decide))) _ _
  · have hs : q < (s.stopActing q).queues.length := by rw [State.stopActing_queues]; exact h
    rw [State.queue_of_queues (State.showReset_queues _ _), State.clearQueue, State.queue_updQueue _ _ (by simpa [State.queueZero] using hs),
      State.queue_queueZero _ hs, State.queue_of_queues (s.stopActing_queues q)]

/-! ### Doorbells (R303, R304, R332) -/

/-- What the host places before a doorbell lies in host memory. -/
theorem State.placed_eq (s : State) (p : List HostBytes) : s.placed p = { s with host := (s.placed p).host } := by
  unfold State.placed
  induction p generalizing s with
  | nil => rfl
  | cons b p ih => rw [List.foldl_cons, ih]

theorem State.served_placed (s : State) (p : List HostBytes) (i : Iface) : (s.placed p).served i = s.served i := by rw [s.placed_eq p]; rfl

theorem exec_sqDoorbell_served {s : State} {i : Iface} (q : Fin 16) (x : BitVec 16) (p : List HostBytes) (h : s.served i = true) :
    exec (.sqDoorbell i q x p) s = .next ((s.placed p).ringSq q x.toNat) := by
  rw [exec_sqDoorbell, execSqDoorbell, if_pos ((s.served_placed p i).trans h)]

theorem exec_cqDoorbell_served {s : State} {i : Iface} (q : Fin 16) (x : BitVec 16) (h : s.served i = true) :
    exec (.cqDoorbell i q x) s = .next (s.ringCq q x.toNat) := by
  rw [exec_cqDoorbell, execCqDoorbell, if_pos h]

/-- The new tail would lie behind the old one, seen from the head (R303). -/
def State.overruns (s : State) (q v : Nat) : Prop :=
  (v + s.sqLen q - s.sqHead q) % s.sqLen q < ((s.queue q).sqTail + s.sqLen q - s.sqHead q) % s.sqLen q

/-- The new head would lie past the tail, seen from the old head (R304). -/
def State.passes (s : State) (q v : Nat) : Prop :=
  (s.cqTail q + s.cqLen q - (s.queue q).cqHead) % s.cqLen q < (v + s.cqLen q - (s.queue q).cqHead) % s.cqLen q

section
variable {s : State} {q : Nat}

theorem State.ringSq_dead (v : Nat) (h : s.qOn q = false ∨ s.qFault q = true) : s.ringSq q v = s.deadDoorbell q :=
  if_pos (by simpa using h)

theorem State.ringCq_dead (v : Nat) (h : s.qOn q = false ∨ s.qFault q = true) : s.ringCq q v = s.deadDoorbell q :=
  if_pos (by simpa using h)

variable (hon : s.qOn q = true) (hfault : s.qFault q = false)
include hon hfault

theorem State.ringSq_moves {v : Nat} (hv : v < s.sqLen q) (hback : ¬ s.overruns q v) : s.ringSq q v = s.updQueue q fun x => { x with sqTail := v } := by
  unfold State.ringSq
  simp only [hon, hfault, Bool.not_true, Bool.or_false, Bool.false_eq_true, if_false, if_neg (Nat.not_le.2 hv)]
  exact if_neg hback

theorem State.ringSq_faults {v : Nat} (h : s.sqLen q ≤ v ∨ s.overruns q v) : s.ringSq q v = s.faultQueue q (if s.sqLen q ≤ v then 3 else 4) := by
  unfold State.ringSq
  simp only [hon, hfault, Bool.not_true, Bool.or_false, Bool.false_eq_true, if_false]
  split
  · rfl
  · next hv => exact if_pos (h.resolve_left hv)

theorem State.ringCq_moves {v : Nat} (hv : v < s.cqLen q) (hpast : ¬ s.passes q v) : s.ringCq q v = s.updQueue q fun x => { x with cqHead := v } := by
  unfold State.ringCq
  simp only [hon, hfault, Bool.not_true, Bool.or_false, Bool.false_eq_true, if_false]
  exact if_neg (by simpa [State.passes, hv] using hpast)

theorem State.ringCq_refused {v : Nat} (h : s.cqLen q ≤ v ∨ s.passes q v) : s.ringCq q v = s.logViolation 3 1 { source := q, queue := q } := by
  unfold State.ringCq
  simp only [hon, hfault, Bool.not_true, Bool.or_false, Bool.false_eq_true, if_false]
  exact if_pos (by simpa [State.passes] using h)

end

/-- Settles O30: each command by its lemma; a doorbell of a live queue by whether its index is in the ring and moves it forward. -/
theorem queuesEnableResetAndRing : Obligations.QueuesEnableResetAndRing := by
  intro i q s hs hlen
  have hq : q.val < s.queues.length := by omega
  refine ⟨fun v hreset hen hfault hon => ⟨fun hok => ?enabled, fun hok => ?refused⟩, fun v => ?reset,
    fun x p hon hfault => ⟨_, exec_sqDoorbell_served q x p hs, fun hx hback => ?tail, fun h => ?overrun⟩,
    fun x hon hfault => ⟨fun hx hpast => ?head, fun h => ?past⟩, fun x hdead => ⟨?deadSq, ?deadCq⟩⟩
  case enabled =>
    have hok : (s.takeQctrl q v).enableOk q = true := hok
    obtain ⟨hqon, hqen, hhead, htail, hqueue⟩ := State.enabled_facts (s.takeQctrl q v) hq
    refine ⟨_, by rw [exec_queueEnable_served q v hs, State.writeQctrl_enables hreset hen hfault, State.enableQueue_admitted hok], hqon, hqen,
      hhead, htail, ?_⟩
    rw [hqueue]
    exact ⟨rfl, rfl, rfl, rfl⟩
  case refused =>
    have hok : (s.takeQctrl q v).enableOk q = false := hok
    refine ⟨_, by rw [exec_queueEnable_served q v hs, State.writeQctrl_enables hreset hen hfault, State.enableQueue_refused hok], ?_,
      State.qFault_faultQueue _ q.isLt _, State.fcause_faultQueue _ q.isLt _⟩
    rw [State.qOn_faultQueue _ q.isLt, State.qOn_takeQctrl, hon]
  case reset =>
    obtain ⟨u, hu, he⟩ := s.writeQctrl_resets q v
    obtain ⟨hqon, hqfault, hqen, hhead, htail, hqueue⟩ := u.resetQueue_facts (by rw [hu]; exact hq)
    refine ⟨_, (exec_queueReset_served q v hs).trans (by rw [he]), hqon, hqfault, hqen, hhead, htail, ?_⟩
    rw [hqueue]
    exact ⟨rfl, rfl, rfl, rfl⟩
  case tail =>
    have hmoved := State.queue_updQueue ({ s with host := (s.placed p).host } : State) (fun h => { h with sqTail := x.toNat }) hq
    rw [s.placed_eq p, State.ringSq_moves (s := { s with host := (s.placed p).host }) hon hfault hx hback, hmoved]
    exact ⟨rfl, rfl⟩
  case overrun =>
    rw [s.placed_eq p, State.ringSq_faults (s := { s with host := (s.placed p).host }) hon hfault h]
    refine ⟨congrArg Queue.sqTail (State.queue_of_queues (State.faultQueue_queues _ _ _) _), State.qFault_faultQueue _ q.isLt _,
      (State.fcause_faultQueue _ q.isLt _).trans ?_⟩
    exact Nat.mod_eq_of_lt (by split <;> decide)
  case head => rw [exec_cqDoorbell_served q x hs, State.ringCq_moves hon hfault hx hpast]
  case past => rw [exec_cqDoorbell_served q x hs, State.ringCq_refused hon hfault h]
  case deadSq => rw [exec_sqDoorbell_served q x [] hs]; exact congrArg _ (State.ringSq_dead (s := s) _ hdead)
  case deadCq => rw [exec_cqDoorbell_served q x hs, State.ringCq_dead _ hdead]; rfl

end Sys2Proof.Machine
end

section
/-!
PROOFS. Requests are fetched in ring order and checked once (R303, R305, R306, R325 to R327).
-/
namespace Sys2Proof.Machine

/-! ### Which queue is served -/

theorem State.nextQueue_some {s : State} {q : Nat} (h : s.nextQueue = some q) : q < 16 ∧ s.canFetch q = true := by
  obtain ⟨i, -, rfl⟩ := List.mem_map.1 (List.mem_of_find?_eq_some h)
  exact ⟨Nat.mod_lt _ (by decide), List.find?_some h⟩

/-- CC1 takes the record at the head: the turn passes on and the head moves by one around the ring. -/
def State.passHead (s : State) (q : Nat) : State :=
  ({ s with turn := (q + 1) % 16 } : State).setFld (qReg Reg.HOST_SQHEAD q) 0 16 ((s.sqHead q + 1) % s.sqLen q)

theorem State.sqHead_passHead (s : State) (q : Nat) : (s.passHead q).sqHead q = (s.sqHead q + 1) % s.sqLen q % 2 ^ 16 :=
  State.fld_setFld _ _ _ _ _ (by decide)

section
variable {s : State} {q : Nat} (hcore : s.coreUp 1 = true)
include hcore

theorem exec_requestFetch_none (a : HostAnswer) (h : s.nextQueue = none) : exec (.requestFetch a) s = .next s := by
  rw [exec_requestFetch, execRequestFetch, hcore, h]

variable (hq : s.nextQueue = some q) (hloc : s.qLocal q = false)
include hq hloc

theorem exec_requestFetch_ok :
    exec (.requestFetch .ok) s = .next ((s.passHead q).takeRecord q (cellRead s.host ((s.sqRing q).1 + 64 * s.sqHead q) 64)) := by
  have hturn : State.qLocal { s with turn := (q + 1) % 16 } q = false := hloc
  rw [exec_requestFetch, execRequestFetch, hcore, hq]
  dsimp only
  simp only [State.ringRead, hturn, Bool.false_eq_true, if_false, reduceCtorEq, decide_false]
  rfl

theorem exec_requestFetch_error : exec (.requestFetch .error) s = .next (({ s with turn := (q + 1) % 16 } : State).faultQueue q 1) := by
  have hturn : State.qLocal { s with turn := (q + 1) % 16 } q = false := hloc
  rw [exec_requestFetch, execRequestFetch, hcore, hq]
  dsimp only
  simp only [hturn, Bool.false_eq_true, if_false, decide_true, if_true]

end

/-! ### A record is taken -/

/-- From `s` to `u` nothing of the queues, of CC1's turn or of the registers that no event changes is different. -/
structure Logged (s u : State) : Prop where
  queues : u.queues = s.queues
  turn : u.turn = s.turn
  reg : ∀ a, eventReg a = false → u.reg a = s.reg a

theorem Logged.refl (s : State) : Logged s s := ⟨rfl, rfl, fun _ _ => rfl⟩

theorem Logged.logViolation (s : State) (cls sub : Nat) (i : LogInfo) : Logged s (s.logViolation cls sub i) :=
  ⟨by simp, by simp, fun _ h => State.reg_logViolation _ _ _ _ h⟩

section
variable {s : State} {q : Nat} {bs : List Byte}

/-- A TAG that the window holds makes the record a replay or a conflict (R327). -/
theorem State.takeRecord_known {e : TagEntry} (h : ((s.queue q).window.find? fun e => e.tag = (readReq bs).tag) = some e) :
    ∃ u, Logged s u ∧ s.takeRecord q bs = u.joinReq q (if e.crc = (readReq bs).crc then { readReq bs with replay := true }
      else { readReq bs with state := .done 0x0D (readReq bs).tag 0 (readReq bs).stream }) := by
  unfold State.takeRecord
  simp only [h]
  split
  · exact ⟨s, Logged.refl s, rfl⟩
  · exact ⟨_, Logged.logViolation s 3 3 _, rfl⟩

variable (h : ((s.queue q).window.find? fun e => e.tag = (readReq bs).tag) = none)
include h

/-- A record that is malformed has completed (R325). -/
theorem State.takeRecord_malformed {off : Nat} (hbad : badRecord bs = some off) :
    ∃ u, Logged s u ∧ s.takeRecord q bs = (u.enterWindow q (readReq bs) (some (0x01, off, 0))).joinReq q
      { readReq bs with state := .done 0x01 off 0 (readReq bs).stream } := by
  unfold State.takeRecord
  simp only [h, hbad]
  exact ⟨_, Logged.logViolation s 3 2 _, rfl⟩

theorem State.takeRecord_new (hgood : badRecord bs = none) : s.takeRecord q bs = (s.enterWindow q (readReq bs) none).joinReq q (readReq bs) := by
  unfold State.takeRecord
  simp only [h, hgood]

end

theorem State.reg_enterWindow (s : State) (q : Nat) (r : Req) (x : Option (Nat × Nat × Nat)) (a : Nat) :
    (s.enterWindow q r x).reg a = s.reg a := by
  unfold State.enterWindow
  split <;> rfl

theorem State.turn_enterWindow (s : State) (q : Nat) (r : Req) (x : Option (Nat × Nat × Nat)) : (s.enterWindow q r x).turn = s.turn := by
  unfold State.enterWindow
  split <;> rfl

/-- The newest TAGs of the window, the request's own among them unless it is the one that no request has. -/
def enteredWindow (w : List TagEntry) (r : Req) (x : Option (Nat × Nat × Nat)) : List TagEntry :=
  if r.tag = 0xFFFF then w else (⟨r.tag, r.crc, x⟩ :: w).take 4096

theorem State.queue_enterWindow (s : State) {q : Nat} (hq : q < s.queues.length) (r : Req) (x : Option (Nat × Nat × Nat)) :
    (s.enterWindow q r x).queue q = { s.queue q with window := enteredWindow (s.queue q).window r x } := by
  unfold State.enterWindow enteredWindow
  split
  · rfl
  · exact State.queue_updQueue s _ hq

theorem State.length_enterWindow (s : State) (q : Nat) (r : Req) (x : Option (Nat × Nat × Nat)) :
    (s.enterWindow q r x).queues.length = s.queues.length := by
  unfold State.enterWindow
  split
  · rfl
  · exact s.length_updQueue _ _

/-- The request that a record becomes. -/
def takenReq (w : List TagEntry) (bs : List Byte) : Req :=
  match w.find? fun e => e.tag = (readReq bs).tag with
  | some e => if e.crc = (readReq bs).crc then { readReq bs with replay := true }
    else { readReq bs with state := .done 0x0D (readReq bs).tag 0 (readReq bs).stream }
  | none => match badRecord bs with
    | some off => { readReq bs with state := .done 0x01 off 0 (readReq bs).stream }
    | none => readReq bs

/-- The window after a record. -/
def takenWindow (w : List TagEntry) (bs : List Byte) : List TagEntry :=
  match w.find? fun e => e.tag = (readReq bs).tag with
  | some _ => w
  | none => enteredWindow w (readReq bs) ((badRecord bs).map fun off => (0x01, off, 0))

/-- Exactly one request joins the queue; CC1's turn and the registers that no event changes stay. -/
theorem State.takeRecord_facts (s : State) {q : Nat} (bs : List Byte) (hq : q < s.queues.length) :
    (s.takeRecord q bs).queue q = { s.queue q with reqs := (s.queue q).reqs ++ [takenReq (s.queue q).window bs],
                                                   window := takenWindow (s.queue q).window bs } ∧
    (s.takeRecord q bs).turn = s.turn ∧ ∀ a, eventReg a = false → (s.takeRecord q bs).reg a = s.reg a := by
  cases hfind : (s.queue q).window.find? fun e => e.tag = (readReq bs).tag with
  | some e =>
    obtain ⟨u, hu, htake⟩ := State.takeRecord_known hfind
    rw [htake, takenReq, takenWindow, hfind]
    refine ⟨?_, hu.turn, hu.reg⟩
    rw [State.joinReq, State.queue_updQueue _ _ (by rw [hu.queues]; exact hq), State.queue_of_queues hu.queues]
  | none =>
    obtain ⟨u, hu, htake⟩ : ∃ u, Logged s u ∧ s.takeRecord q bs =
        (u.enterWindow q (readReq bs) ((badRecord bs).map fun off => (0x01, off, 0))).joinReq q (takenReq (s.queue q).window bs) := by
      rw [takenReq, hfind]
      cases hbad : badRecord bs with
      | some off => exact State.takeRecord_malformed hfind hbad
      | none => exact ⟨s, Logged.refl s, State.takeRecord_new hfind hbad⟩
    have hu' : q < u.queues.length := by rw [hu.queues]; exact hq
    rw [htake, takenWindow, hfind]
    refine ⟨?_, (u.turn_enterWindow q _ _).trans hu.turn, fun a ha => (u.reg_enterWindow q _ _ a).trans (hu.reg a ha)⟩
    rw [State.joinReq, State.queue_updQueue _ _ (by rw [State.length_enterWindow]; exact hu'), State.queue_enterWindow u hu',
      State.queue_of_queues hu.queues]

/-- Settles O31: the record at the head joins its queue as its TAG and its bytes decide. -/
theorem requestsAreFetchedInRingOrder : Obligations.RequestsAreFetchedInRingOrder := by
  intro s hcore hlen
  refine ⟨fun q hq hloc => ?_, fun q hq => State.nextQueue_some hq, fun a hnone => exec_requestFetch_none hcore a hnone⟩
  obtain ⟨hq16, -⟩ := State.nextQueue_some hq
  intro bs r
  refine ⟨?_, _, exec_requestFetch_error hcore hq hloc, congrArg Queue.reqs (State.queue_of_queues (State.faultQueue_queues _ _ _) _),
    State.qFault_faultQueue _ hq16 _, State.fcause_faultQueue _ hq16 _, State.sqHead_faultQueue _ hq16 _⟩
  obtain ⟨hqueue, hturn, hreg⟩ := (s.passHead q).takeRecord_facts (q := q) bs (show q < s.queues.length by omega)
  refine ⟨_, takenReq (s.queue q).window bs, exec_requestFetch_ok hcore hq hloc, ?_, hturn, congrArg Queue.reqs hqueue, ?_⟩
  · rw [← s.sqHead_passHead q]
    exact State.fld_of_reg (hreg _ (eventReg_qReg (by decide) (by decide) hq16)) _ _
  · have hwindow : (((s.passHead q).takeRecord q bs).queue q).window = takenWindow (s.queue q).window bs := congrArg Queue.window hqueue
    rw [hwindow, takenWindow, takenReq]
    cases hfind : (s.queue q).window.find? fun e => e.tag = r.tag with
    | some e => exact ⟨rfl, rfl⟩
    | none =>
      cases badRecord bs with
      | some off => exact ⟨rfl, fun htag => if_neg htag⟩
      | none => exact ⟨rfl, fun htag => if_neg htag⟩

end Sys2Proof.Machine
end

section
/-!
PROOFS. NOP, QUERY and ABORT (R315, R323, R324).
-/
namespace Sys2Proof.Machine

section
variable {s : State} {q : Fin 16} {tag : BitVec 16} {r : Req} (hcore : s.coreUp 1 = true)
include hcore

theorem exec_nop_waiting (h : s.waitingReq q 0x00 tag.toNat = some r) : exec (.nop q tag) s = .next (s.settled q r.tag 0 0 0 0xFF) := by
  rw [exec_nop, execNop, hcore, h]
  rfl

theorem exec_query_waiting (h : s.waitingReq q 0x01 tag.toNat = some r) : exec (.query q tag) s = .next (s.takeQuery q r) := by
  rw [exec_query, execQuery, hcore, h]

theorem exec_abort_waiting (h : s.waitingReq q 0x02 tag.toNat = some r) : exec (.abort q tag) s = .next (s.abortTarget q r) := by
  rw [exec_abort, execAbort, hcore, h]

end

theorem State.kind_waitingReq {s : State} {q kind tag : Nat} {r : Req} (h : s.waitingReq q kind tag = some r) : r.kind = kind := by
  have := List.find?_some h
  simp only [Bool.and_eq_true, decide_eq_true_eq] at this
  exact this.1.1.1

/-! ### QUERY -/

/-- A QUERY that names no stream of another chip is answered here (R415). -/
theorem State.takeQuery_here {s : State} {r : Req} (q : Nat)
    (h : r.namesStream = false ∨ (s.stream r.stream).bind (·.runsOn) = none) : s.takeQuery q r = s.answerQuery q r := by
  have hchip : (if r.namesStream = true then (s.stream r.stream).bind (·.runsOn) else none) = none := by
    rcases h with h | h <;> simp [h]
  unfold State.takeQuery
  rw [hchip]

theorem Req.namesStream_query {r : Req} (h : r.kind = 0x01) : r.namesStream = [0, 1, 2, 5].contains (r.par 0) := by
  simp [Req.namesStream, h]

section
variable {s : State} {r : Req} (q : Nat)

theorem State.answerQuery_plan (h : r.par 0 = 3) : s.answerQuery q r = s.settled q r.tag 0 0 (match s.active with
    | some p => p.hdr.planId
    | none => 0) r.stream := by
  unfold State.answerQuery
  simp only [h, if_true]
  rfl

theorem State.answerQuery_tick (h : r.par 0 = 4) : s.answerQuery q r = s.settled q r.tag 0 0 s.tickNo r.stream := by
  unfold State.answerQuery
  simp only [h]
  rfl

theorem State.answerQuery_stream {t : Stream} (h : r.par 0 < 3) (ht : s.stream r.stream = some t) : s.answerQuery q r = s.settled q r.tag 0 0
    (if r.par 0 = 0 then leAt (t.header r.stream) 4 8 else if r.par 0 = 1 then t.energy / 1000 else t.rseq) r.stream := by
  unfold State.answerQuery
  simp only [ht]
  obtain h | h | h : r.par 0 = 0 ∨ r.par 0 = 1 ∨ r.par 0 = 2 := by omega
  all_goals simp only [h]; rfl

theorem State.answerQuery_notOpen (h : r.par 0 < 3) (ht : s.stream r.stream = none) : s.answerQuery q r = s.settled q r.tag 2 0 0 r.stream := by
  unfold State.answerQuery
  simp only [ht, if_neg (show r.par 0 ≠ 3 by omega), if_neg (show r.par 0 ≠ 4 by omega)]
  rfl

end

/-! ### ABORT -/

section
variable {s : State} {q : Nat} {r : Req}

/-- A target that the window does not hold is not found. -/
theorem State.abortTarget_unknown (h : ((s.queue (r.par 0)).window.find? fun e => e.tag = leAt r.param 2 2) = none) :
    s.abortTarget q r = s.settled q r.tag 0x0C 0 0 0xFF := by
  unfold State.abortTarget
  simp only [h]
  rfl

variable {e : TagEntry} (h : ((s.queue (r.par 0)).window.find? fun e => e.tag = leAt r.param 2 2) = some e)
include h

/-- So is one that has completed. -/
theorem State.abortTarget_completed (he : e.result.isSome = true) : s.abortTarget q r = s.settled q r.tag 0x0C 0 0 0xFF := by
  unfold State.abortTarget
  simp only [h, he, if_true]
  rfl

/-- A target that still waits settles as aborted. -/
theorem State.abortTarget_waiting {x : Req} (he : e.result = none)
    (hx : ((s.queue (r.par 0)).reqs.find? fun x => x.tag = leAt r.param 2 2 && !x.replay) = some x) (hstate : x.state = .waiting ∨ x.state = .due)
    (hother : r.par 0 ≠ q ∨ leAt r.param 2 2 ≠ r.tag) :
    s.abortTarget q r = (s.settled (r.par 0) (leAt r.param 2 2) 0x07 1 0 x.stream).settled q r.tag 0 0 0 0xFF := by
  have hself : ¬(decide (r.par 0 = q) && decide (leAt r.param 2 2 = r.tag)) = true := by simpa [imp_iff_not_or] using hother
  unfold State.abortTarget
  simp only [h, he, hx]
  rcases hstate with hstate | hstate <;> simp only [hstate] <;> exact if_neg hself

end

/-- Settles O32: each kind by the lemma of its case. -/
theorem nopQueryAndAbortActAtOnce : Obligations.NopQueryAndAbortActAtOnce := by
  intro q tag s r hcore
  refine ⟨exec_nop_waiting hcore, fun hr => ?query, fun hr => ?abort⟩
  case query =>
    have hkind := State.kind_waitingReq hr
    refine ⟨fun hitem => ?_, fun hitem => ?_, fun t hitem ht hhere => ?_, fun hitem ht => ?_⟩
    · have hhere := State.takeQuery_here (s := s) q (.inl (by rw [Req.namesStream_query hkind, Req.par, hitem]; rfl))
      exact (exec_query_waiting hcore hr).trans (congrArg _ (hhere.trans (State.answerQuery_plan q hitem)))
    · rw [exec_query_waiting hcore hr, State.takeQuery_here q (.inl (by rw [Req.namesStream_query hkind, Req.par, hitem]; rfl)),
        State.answerQuery_tick q hitem]
    · rw [exec_query_waiting hcore hr, State.takeQuery_here q (.inr (by rw [ht]; exact hhere))]
      exact congrArg _ (State.answerQuery_stream q hitem ht)
    · rw [exec_query_waiting hcore hr, State.takeQuery_here q (.inr (by rw [ht]; rfl)), State.answerQuery_notOpen q hitem ht]
  case abort =>
    rw [exec_abort_waiting hcore hr]
    exact ⟨fun h => congrArg _ (State.abortTarget_unknown h), fun e h he => congrArg _ (State.abortTarget_completed h he),
      fun e x h he hx hstate hother => congrArg _ (State.abortTarget_waiting h he hx hstate hother)⟩

end Sys2Proof.Machine
end

section
/-!
PROOFS. Completions are posted in order (R304, R310, R334, Table 10-3).
-/
namespace Sys2Proof.Machine

/-! ### A signal -/

theorem State.signal_queue (s : State) {q : Nat} (hq : q < s.queues.length) : (s.signal q).queue q = { s.queue q with unsignalled := 0 } := by
  have hqueues : ∀ v, (s.sendVector v).queues = s.queues := fun v => (State.sendVector_eff Sub.rfl Eff.refl).queues rfl
  rw [State.signal, State.queue_updQueue _ _ (by rw [hqueues]; exact hq), State.queue_of_queues (hqueues _)]

theorem State.reg_signal (s : State) (q : Nat) {a : Nat} (h : eventReg a = false) : (s.signal q).reg a = s.reg a := by
  rw [State.signal, State.reg_updQueue, State.reg_sendVector _ _ h]

theorem State.checkSignal_queue (s : State) {q : Nat} (irq : Bool) (hq : q < s.queues.length) :
    ∃ n, (s.checkSignal q irq).queue q = { s.queue q with unsignalled := n } := by
  unfold State.checkSignal
  split
  · exact ⟨0, s.signal_queue hq⟩
  · exact ⟨_, rfl⟩

theorem State.reg_checkSignal (s : State) (q : Nat) (irq : Bool) {a : Nat} (h : eventReg a = false) : (s.checkSignal q irq).reg a = s.reg a := by
  unfold State.checkSignal
  split
  · exact s.reg_signal q h
  · rfl

theorem State.checkSignal_host (s : State) (q : Nat) (irq : Bool) : (s.checkSignal q irq).host = s.host :=
  (State.checkSignal_eff Sub.rfl Eff.refl).host rfl

/-! ### A record at the completion tail -/

/-- The entry behind the tail. -/
def State.nextTail (s : State) (q : Nat) : Nat := (s.cqTail q + 1) % s.cqLen q

/-- The place of the tail. -/
def State.tailAddr (s : State) (q : Nat) : Nat := s.reg64 (qReg Reg.HOST_CQBASE_LO q) + 32 * s.cqTail q

/-- The bytes of a record with the queue's PHASE (R304). -/
def State.phased (s : State) (q : Nat) (bs : List Byte) : List Byte := bs.set 3 (bs.getD 3 0 ||| if (s.queue q).phase then 1 else 0)

/-- The bytes of a record stand at the tail, in host memory. -/
def State.storeTail (s : State) (q : Nat) (bs : List Byte) : State := { s with host := cellSetMany s.host (s.tailAddr q) (s.phased q bs) }

/-- The tail has moved past a record; PHASE turns with the ring. -/
def State.passTail (s : State) (q : Nat) : State :=
  (s.setFld (qReg Reg.HOST_CQTAIL q) 0 16 (s.nextTail q)).updQueue q fun h =>
    { h with phase := if s.nextTail q = 0 then !h.phase else h.phase, unsignalled := h.unsignalled + 1,
             oldest := if h.unsignalled = 0 then s.now else h.oldest }

theorem State.writeRecord_host {s : State} {q : Nat} (irq : Bool) (bs : List Byte) (hloc : s.qLocal q = false) :
    s.writeRecord q irq bs = ((s.storeTail q bs).passTail q).checkSignal q irq := by
  have hring : ∀ a bs, s.ringWrite q a bs = { s with host := cellSetMany s.host a bs } := fun a bs => if_neg (by rw [hloc]; decide)
  unfold State.writeRecord
  simp only [hring]
  rfl

theorem State.passTail_queue (s : State) {q : Nat} (hq : q < s.queues.length) : ((s.passTail q).queue q).reqs = (s.queue q).reqs ∧
    ((s.passTail q).queue q).phase = if s.nextTail q = 0 then !(s.queue q).phase else (s.queue q).phase := by
  rw [State.passTail, State.queue_updQueue (s.setFld (qReg Reg.HOST_CQTAIL q) 0 16 (s.nextTail q)) _ hq]
  exact ⟨rfl, rfl⟩

theorem State.cqTail_passTail (s : State) (q : Nat) : (s.passTail q).cqTail q = s.nextTail q % 2 ^ 16 := by
  rw [State.cqTail, State.passTail, State.fld_updQueue, State.fld_setFld _ _ _ _ _ (by decide)]

/-- What a record posted to host memory changes. -/
theorem State.writeRecord_facts {s : State} {q : Nat} (irq : Bool) (bs : List Byte) (hloc : s.qLocal q = false) (hq : q < 16)
    (hlen : s.queues.length = 20) : (s.writeRecord q irq bs).cqTail q = s.nextTail q % 2 ^ 16 ∧
      ((s.writeRecord q irq bs).queue q).reqs = (s.queue q).reqs ∧
      ((s.writeRecord q irq bs).queue q).phase = (if s.nextTail q = 0 then !(s.queue q).phase else (s.queue q).phase) ∧
      (s.writeRecord q irq bs).host = cellSetMany s.host (s.tailAddr q) (s.phased q bs) := by
  have hu : q < (s.storeTail q bs).queues.length := show q < s.queues.length by omega
  have hpass : q < ((s.storeTail q bs).passTail q).queues.length := by rw [State.passTail, State.length_updQueue]; exact hu
  obtain ⟨n, hsignal⟩ := State.checkSignal_queue _ irq hpass
  obtain ⟨hreqs, hphase⟩ := State.passTail_queue _ hu
  rw [State.writeRecord_host irq bs hloc]
  refine ⟨?_, (congrArg Queue.reqs hsignal).trans hreqs, (congrArg Queue.phase hsignal).trans hphase, State.checkSignal_host _ _ _⟩
  exact (State.fld_of_reg (State.reg_checkSignal _ q irq (eventReg_qReg (by decide) (by decide) hq)) _ _).trans (State.cqTail_passTail _ q)

/-! ### The bytes of a completion -/

section
variable (tag st kind sc sqhead v d tick : Nat)

theorem length_completionBytes (b : Bool) : (completionBytes tag st kind sc sqhead v d tick b).length = 32 := by
  simp [completionBytes, length_leBytes]

/-- The flag byte is 0 where the completion is no replay. -/
theorem flags_completionBytes : (completionBytes tag st kind sc sqhead v d tick false).getD 3 0 = 0 := by
  simp [completionBytes, leBytes]

theorem State.phased_completionBytes (s : State) (q : Nat) : s.phased q (completionBytes tag st kind sc sqhead v d tick false) =
    (completionBytes tag st kind sc sqhead v d tick false).set 3 (if (s.queue q).phase then 1 else 0) := by
  rw [State.phased, flags_completionBytes]
  exact congrArg _ BitVec.zero_or

end

/-! ### The first request of a queue -/

section
variable {s : State} {q : Fin 16} {r : Req} {rs : List Req}

theorem State.resultOf_done {st d v sc : Nat} (hreplay : r.replay = false) (h : r.state = .done st d v sc) :
    s.resultOf q r = some (st, d, v, sc) := by
  simp [State.resultOf, hreplay, h]

theorem State.resultOf_unsettled (hreplay : r.replay = false) (h : r.state = .waiting ∨ r.state = .due) : s.resultOf q r = none := by
  rcases h with h | h <;> simp [State.resultOf, hreplay, h]

/-- The completion of a queue's first request leaves it and enters the replay store, but for a replay or a conflict (R326, R327). -/
def State.dropFirst (s : State) (q : Nat) (r : Req) (rs : List Req) (st d v : Nat) : State :=
  s.updQueue q fun h => { h with reqs := rs, window := if r.replay || st = 0x0D then h.window else setWindow h.window r.tag (st, d, v) }

theorem State.dropFirst_queue (s : State) {q : Nat} (r : Req) (rs : List Req) (st d v : Nat) (hq : q < s.queues.length) :
    ((s.dropFirst q r rs st d v).queue q).reqs = rs ∧ ((s.dropFirst q r rs st d v).queue q).phase = (s.queue q).phase := by
  rw [State.dropFirst, State.queue_updQueue s _ hq]
  exact ⟨rfl, rfl⟩

theorem exec_completionPost_empty (a : HostAnswer) (h : (s.queue q).reqs = []) : exec (.completionPost q a) s = .next s := by
  rw [exec_completionPost, execCompletionPost, h]

theorem exec_completionPost_unsettled (a : HostAnswer) (h : (s.queue q).reqs = r :: rs) (hnone : s.resultOf q r = none) :
    exec (.completionPost q a) s = .next s := by
  rw [exec_completionPost, execCompletionPost, h]
  dsimp only
  rw [hnone]
  cases s.coreUp 1 && s.qOn q && !s.qFault q && !s.endHeld r <;> rfl

variable {st d v sc : Nat} (hup : (s.coreUp 1 && s.qOn q && !s.qFault q && !s.endHeld r) = true)
  (h : (s.queue q).reqs = r :: rs) (hres : s.resultOf q r = some (st, d, v, sc))
include hup h hres

theorem exec_completionPost_ok : exec (.completionPost q .ok) s = .next ((s.dropFirst q r rs st d v).writeRecord q (bitOf r.flags 0)
    (completionBytes r.tag st r.kind sc (s.sqHead q) v d s.tickNo r.replay)) := by
  rw [exec_completionPost, execCompletionPost, h]
  dsimp only
  rw [hup, hres]
  simp only [reduceCtorEq, decide_false, Bool.and_false, Bool.false_eq_true, if_false]
  rfl

theorem exec_completionPost_error (hloc : s.qLocal q = false) :
    exec (.completionPost q .error) s = .next ((s.dropFirst q r rs st d v).faultQueue q 2) := by
  have hdrop : State.qLocal (s.dropFirst q r rs st d v) q = false := hloc
  rw [exec_completionPost, execCompletionPost, h]
  dsimp only
  rw [hup, hres]
  exact congrArg _ (if_pos (Bool.and_eq_true_iff.2 ⟨congrArg not hdrop, rfl⟩))

end

/-- Settles O35: a first request that has settled leaves the queue as one record at the tail, or as FCAUSE 2. -/
theorem completionsArePostedInOrder : Obligations.CompletionsArePostedInOrder := by
  intro q s hlen
  have hq : q.val < s.queues.length := by omega
  refine ⟨fun r rs st d v sc hcore hon hfault hloc hreqs hreplay hstate hheld hsize => ?_,
    fun a r rs hreqs hreplay hstate => exec_completionPost_unsettled a hreqs (State.resultOf_unsettled hreplay hstate),
    fun a hreqs => exec_completionPost_empty a hreqs⟩
  have hup : (s.coreUp 1 && s.qOn q && !s.qFault q && !s.endHeld r) = true := by simp [hcore, hon, hfault, hheld]
  have hres : s.resultOf q r = some (st, d, v, sc) := State.resultOf_done hreplay hstate
  obtain ⟨hrest, hsame⟩ := s.dropFirst_queue r rs st d v hq
  intro base bs0 bs next
  refine ⟨?posted, _, exec_completionPost_error hup hreqs hres hloc, State.qFault_faultQueue _ q.isLt _, State.fcause_faultQueue _ q.isLt _,
    State.cqTail_faultQueue _ q.isLt _, State.faultQueue_host _ _ _⟩
  case posted =>
    have hring : s.cqLen q ≤ 2 ^ 12 := Nat.pow_le_pow_right (by decide) hsize
    have hnext : next < 2 ^ 16 := lt_of_lt_of_le (Nat.mod_lt _ (Nat.two_pow_pos _)) (hring.trans (by decide))
    have hbslen : bs.length = 32 := by rw [List.length_set, length_completionBytes]
    have hbs : (s.dropFirst q r rs st d v).phased q bs0 = bs := by rw [State.phased_completionBytes, hsame]
    obtain ⟨htail, hreqs', hphase, hhost⟩ := State.writeRecord_facts (s := s.dropFirst q r rs st d v) (bitOf r.flags 0) bs0 hloc q.isLt
      ((s.length_updQueue _ _).trans hlen)
    rw [hrest] at hreqs'
    rw [hsame] at hphase
    rw [hbs] at hhost
    refine ⟨_, by rw [exec_completionPost_ok hup hreqs hres, hreplay], htail.trans (Nat.mod_eq_of_lt hnext), hreqs', hphase, fun i hi => ?_,
      fun a ha => ?_⟩
    · rw [hhost, cellGet_cellSetMany, if_pos ⟨Nat.le_add_right _ _, by rw [hbslen]; exact Nat.add_lt_add_left hi _⟩]
      exact congrArg (bs.getD · 0) (Nat.add_sub_cancel_left _ _)
    · have hout : ¬ (base ≤ a ∧ a < base + bs.length) := by omega
      rw [hhost, cellGet_cellSetMany]
      exact if_neg hout

end Sys2Proof.Machine
end

section
/-!
PROOFS. The results of a tick, held records and the moderation of vectors (R307, R314, R330).
-/
namespace Sys2Proof.Machine

/-! ### RESULT_POST -/

theorem exec_resultPost_ready {s : State} (hphase : s.tick.phase = .slice ∨ s.tick.phase = .fallow) (hready : s.resultsReady = true) :
    exec .resultPost s = .next s.postResults := by
  rw [exec_resultPost, execResultPost, if_pos (by simpa [hready] using hphase)]

theorem exec_resultPost_unready {s : State} (h : s.resultsReady = false) : exec .resultPost s = .next s := by
  rw [exec_resultPost, execResultPost, if_neg (by simp [h])]

/-- Row by row, results count as posted throughout. -/
theorem State.postResults_done {s : State} (h : s.resultsDone = false) : s.postResults.resultsDone = true := by
  have hrows : Eff 0x100003F01100F7800008 { s with resultsDone := true } s.postResults := by
    unfold State.postResults
    rw [if_neg (by rw [h]; decide)]
    refine Eff.foldl _ (fun u x hu => ?_) Eff.refl
    split
    · exact State.streamResults_eff Sub.rfl hu
    · exact hu
  exact hrows.resultsDone rfl

theorem State.postResults_noRows {s : State} (h : s.resultsDone = false) (hrows : s.rows = []) : s.postResults = { s with resultsDone := true } := by
  unfold State.postResults
  rw [if_neg (by rw [h]; decide), hrows]
  rfl

/-! ### HELD_RESULT_FLUSH -/

/-- With room the oldest held record of an ended stream goes first. -/
theorem State.flushHeld_orphan {s : State} {q : Nat} {bs : List Byte} {o : List (Nat × List Byte)} (n : Nat) (hroom : s.resultRoom q = true)
    (h : s.orphans = (q, bs) :: o) : s.flushHeld q (n + 1) = (({ s with orphans := o } : State).writeRecord q false bs).flushHeld q n := by
  have hfirst : s.orphans.find? (fun o => o.1 = q) = some (q, bs) := by rw [h]; exact List.find?_cons_of_pos (by simp)
  have herase : s.orphans.erase (q, bs) = o := by rw [h]; exact List.erase_cons_head _ _
  rw [State.flushHeld, if_neg (by rw [hroom]; decide), hfirst]
  dsimp only
  rw [herase]

/-- Without room only the count of held records is shown. -/
theorem State.flushHeld_noRoom {s : State} {q : Nat} (n : Nat) (hroom : s.resultRoom q = false) :
    s.flushHeld q n = s ∨ s.flushHeld q n = s.showHeld q := by
  cases n with
  | zero => exact .inl rfl
  | succ n => exact .inr (by rw [State.flushHeld, if_pos (by rw [hroom]; rfl)])

theorem State.reg_showHeld_apart (s : State) {q a : Nat} (h : a ≠ qReg Reg.HOST_QSTAT q) : (s.showHeld q).reg a = s.reg a :=
  State.reg_setFld_apart _ _ _ _ h

/-! ### QMOD_TIMEOUT -/

theorem exec_qmodTimeout_due {s : State} {q : Fin 16} (htime : s.fld (qReg Reg.HOST_QMOD q) 16 16 ≠ 0) (hwaits : (s.queue q).unsignalled ≠ 0)
    (hien : s.bit (qReg Reg.HOST_QCTRL q) 24 = true) :
    exec (.qmodTimeout q) s = .next ((s.reach ((s.queue q).oldest + s.fld (qReg Reg.HOST_QMOD q) 16 16)).signal q) := by
  rw [exec_qmodTimeout, execQmodTimeout]
  exact congrArg _ (if_pos (by simp [htime, hwaits, hien]))

theorem State.signal_now (s : State) (q : Nat) : (s.signal q).now = s.now := (State.signal_eff Sub.rfl Eff.refl).now rfl

/-- Settles O36: each clause by the lemma of its command. -/
theorem resultsAreHeldPostedAndSignalled : Obligations.ResultsAreHeldPostedAndSignalled := by
  refine ⟨fun s hphase hready hdone => ⟨_, exec_resultPost_ready hphase hready, State.postResults_done hdone, State.postResults_noRows hdone⟩,
    fun s hready => exec_resultPost_unready hready, fun q s bs o hlen hroom horphans => ?flush, fun q s hroom => ?full,
    fun q s hlen htime hwaits hien => ?signal⟩
  case flush =>
    have hfuel : ∃ n, s.orphans.length + (s.streams.map fun e => e.2.held.length + 1).sum = n + 1 :=
      ⟨o.length + (s.streams.map fun e => e.2.held.length + 1).sum, by rw [horphans, List.length_cons]; omega⟩
    obtain ⟨n, hn⟩ := hfuel
    exact ⟨n, by rw [exec_heldResultFlush, execHeldResultFlush, hn, State.flushHeld_orphan n hroom horphans]⟩
  case full =>
    refine ⟨_, exec_heldResultFlush s q, ?_⟩
    rcases State.flushHeld_noRoom (s.orphans.length + (s.streams.map fun e => e.2.held.length + 1).sum) hroom with h | h
    · rw [h]
      exact ⟨rfl, fun _ _ => rfl⟩
    · rw [h]
      exact ⟨rfl, fun a ha => s.reg_showHeld_apart ha⟩
  case signal =>
    have hq : q.val < s.queues.length := by omega
    have hsignal := (s.reach ((s.queue q).oldest + s.fld (qReg Reg.HOST_QMOD q) 16 16)).signal_queue (q := q) hq
    refine ⟨_, exec_qmodTimeout_due htime hwaits hien, congrArg Queue.unsignalled hsignal, ?_, ?_⟩
    · rw [State.signal_now]
      exact Nat.le_max_right _ _
    · rw [State.signal_now]
      rfl

end Sys2Proof.Machine
end

section
/-!
PROOFS. The host's windows: BAR0, and T0 through BAR2 (R295 to R297).
-/
namespace Sys2Proof.Machine

/-! ### Cells as a list -/

theorem length_cellRead {w : Nat} (m : Cells w) (n : Nat) : ∀ a, (cellRead m a n).length = n := by
  induction n with
  | zero => intro a; rfl
  | succ n ih => intro a; rw [cellRead, List.length_cons, ih]

theorem getD_cellRead {w : Nat} (m : Cells w) {n : Nat} : ∀ {a i : Nat}, i < n → (cellRead m a n).getD i 0 = cellGet m (a + i) := by
  induction n with
  | zero => intro a i h; exact absurd h (Nat.not_lt_zero i)
  | succ n ih =>
    intro a i h
    cases i with
    | zero => rfl
    | succ i => rw [cellRead, List.getD_cons_succ, ih (by omega), show a + 1 + i = a + (i + 1) by omega]

/-! ### Stream contexts laid over a range (R269) -/

theorem length_layOver (a : Nat) (bs : List Byte) (home : Nat) (ctx : List Byte) : (layOver a bs home ctx).length = bs.length := by
  simp [layOver]

/-- A byte of the range is the context's where the context covers it. -/
theorem getD_layOver (a : Nat) (bs : List Byte) (home : Nat) (ctx : List Byte) {i : Nat} (hi : i < bs.length) :
    (layOver a bs home ctx).getD i 0 = if home ≤ a + i ∧ a + i < home + ctx.length then ctx.getD (a + i - home) 0 else bs.getD i 0 := by
  have hcover : (home - a ≤ i ∧ i - (home - a) < (ctx.drop (a - home)).length) ↔ home ≤ a + i ∧ a + i < home + ctx.length := by
    rw [List.length_drop]
    omega
  have hbyte : home ≤ a + i → (ctx.drop (a - home)).getD (i - (home - a)) 0 = ctx.getD (a + i - home) 0 := fun h => by
    rw [List.getD_eq_getElem?_getD, List.getElem?_drop, ← List.getD_eq_getElem?_getD, show a - home + (i - (home - a)) = a + i - home by omega]
  have hmap : (layOver a bs home ctx).getD i 0 = if home - a ≤ i ∧ i - (home - a) < (ctx.drop (a - home)).length then
      (ctx.drop (a - home)).getD (i - (home - a)) 0 else bs.getD i 0 := by
    simp [layOver, hi]
  rw [hmap]
  simp only [hcover]
  split
  · next h => exact hbyte h.1
  · rfl

/-- The bytes of a range with one stream's context laid over them. -/
def State.layContext (s : State) (a : Nat) (bs : List Byte) (e : Nat × Stream) : List Byte :=
  if e.2.runsOn.isSome || !rangesMeet a bs.length e.2.home (s.plan.contextSize e.2.ps) then bs
  else layOver a bs e.2.home (e.2.contextBytes s.plan e.1)

theorem State.showContexts_eq (s : State) (a : Nat) (bs : List Byte) : s.showContexts a bs = s.streams.foldl (s.layContext a) bs := rfl

/-- The context of a stream that runs here does not cover an address. -/
def State.offContext (s : State) (e : Nat × Stream) (x : Nat) : Prop :=
  e.2.runsOn = none → x < e.2.home ∨ e.2.home + (e.2.contextBytes s.plan e.1).length ≤ x

section
variable (s : State) (a : Nat)

theorem State.length_layContext (bs : List Byte) (e : Nat × Stream) : (s.layContext a bs e).length = bs.length := by
  unfold State.layContext
  split
  · rfl
  · exact length_layOver _ _ _ _

theorem State.getD_layContext_off {bs : List Byte} {e : Nat × Stream} {i : Nat} (hi : i < bs.length) (h : s.offContext e (a + i)) :
    (s.layContext a bs e).getD i 0 = bs.getD i 0 := by
  unfold State.layContext
  split
  · rfl
  · next hmeet =>
    have hhere : e.2.runsOn = none := by
      simp only [Bool.or_eq_true, not_or, Bool.not_eq_true, Option.isSome_eq_false_iff, Option.isNone_iff_eq_none] at hmeet
      exact hmeet.1
    rw [getD_layOver _ _ _ _ hi, if_neg (by have := h hhere; omega)]

theorem State.getD_layContext_on {bs : List Byte} {e : Nat × Stream} {i : Nat} (hi : i < bs.length) (hhere : e.2.runsOn = none)
    (hlo : e.2.home ≤ a + i) (hhi : a + i < e.2.home + min (s.plan.contextSize e.2.ps) (e.2.contextBytes s.plan e.1).length) :
    (s.layContext a bs e).getD i 0 = (e.2.contextBytes s.plan e.1).getD (a + i - e.2.home) 0 := by
  have hmeet : rangesMeet a bs.length e.2.home (s.plan.contextSize e.2.ps) = true := by
    rw [rangesMeet, Bool.and_eq_true, decide_eq_true_eq, decide_eq_true_eq]
    omega
  unfold State.layContext
  rw [if_neg (by simp [hhere, hmeet]), getD_layOver _ _ _ _ hi, if_pos (by omega)]

theorem State.length_foldl_layContext (l : List (Nat × Stream)) : ∀ bs, (l.foldl (s.layContext a) bs).length = bs.length := by
  induction l with
  | nil => intro bs; rfl
  | cons e l ih => intro bs; rw [List.foldl_cons, ih, State.length_layContext]

/-- A byte that no context covers is what is stored. -/
theorem State.getD_foldl_off {i : Nat} (l : List (Nat × Stream)) (h : ∀ e ∈ l, s.offContext e (a + i)) :
    ∀ {bs : List Byte}, i < bs.length → (l.foldl (s.layContext a) bs).getD i 0 = bs.getD i 0 := by
  induction l with
  | nil => intro bs _; rfl
  | cons e l ih =>
    intro bs hi
    rw [List.foldl_cons, ih (fun e he => h e (List.mem_cons_of_mem _ he)) (by rw [State.length_layContext]; exact hi),
      State.getD_layContext_off s a hi (h e List.mem_cons_self)]

/-- A byte that one context covers is that context's. -/
theorem State.getD_foldl_on {i : Nat} {e : Nat × Stream} (hhere : e.2.runsOn = none) (hlo : e.2.home ≤ a + i)
    (hhi : a + i < e.2.home + min (s.plan.contextSize e.2.ps) (e.2.contextBytes s.plan e.1).length) (l : List (Nat × Stream)) (he : e ∈ l)
    (h : ∀ f ∈ l, f ≠ e → s.offContext f (a + i)) :
    ∀ {bs : List Byte}, i < bs.length → (l.foldl (s.layContext a) bs).getD i 0 = (e.2.contextBytes s.plan e.1).getD (a + i - e.2.home) 0 := by
  induction l with
  | nil => cases he
  | cons f l ih =>
    intro bs hi
    have hrest : ∀ g ∈ l, g ≠ e → s.offContext g (a + i) := fun g hg => h g (List.mem_cons_of_mem _ hg)
    have hi' : i < (s.layContext a bs f).length := by rw [State.length_layContext]; exact hi
    rw [List.foldl_cons]
    by_cases hl : e ∈ l
    · exact ih hl hrest hi'
    · obtain rfl : e = f := (List.mem_cons.1 he).resolve_right hl
      rw [State.getD_foldl_off s a l (fun g hg => hrest g hg (fun heq => hl (heq ▸ hg))) hi', State.getD_layContext_on s a hi hhere hlo hhi]

end

/-! ### Reads and writes of T0 without errors -/

section
variable {s : State} (hflips : s.t0Flips = [])
include hflips

theorem State.logFlips_none (a n : Nat) : s.logFlips a n = s := by
  unfold State.logFlips
  rw [hflips]
  rfl

theorem State.t0Range_state (a n : Nat) : (s.t0Range a n).2 = s := by
  unfold State.t0Range
  split
  · rfl
  · rw [hflips]
    rfl

/-- A word of T0 that a range touches is poisoned. -/
def State.poisonedIn (s : State) (a n : Nat) : Bool := s.t0Poison.any fun w => decide (a / 8 ≤ w) && decide (w ≤ (a + n - 1) / 8)

theorem State.hostLoad_clean {a n : Nat} (hn : n ≠ 0) : s.hostLoad a n = (s.showContexts a (cellRead s.t0 a n), s.poisonedIn a n, s) := by
  unfold State.hostLoad
  rw [if_neg hn, State.logFlips_none hflips]
  dsimp only
  rw [State.t0Range_state hflips]
  rfl

theorem State.hostLoad_state (a n : Nat) : (s.hostLoad a n).2.2 = s := by
  by_cases hn : n = 0
  · rw [State.hostLoad, if_pos hn]
  · rw [State.hostLoad_clean hflips hn]

theorem State.hostLoad_bytes (a n : Nat) : (s.hostLoad a n).1 = s.streams.foldl (s.layContext a) (cellRead s.t0 a n) := by
  by_cases hn : n = 0
  · subst hn
    exact (List.length_eq_zero_iff.1 (s.length_foldl_layContext a s.streams [])).symm
  · rw [State.hostLoad_clean hflips hn, State.showContexts_eq]

theorem State.hostLoad_poison {a n : Nat} (hn : n ≠ 0) :
    (s.hostLoad a n).2.1 = true ↔ ∃ w, w ∈ s.t0Poison ∧ a / 8 ≤ w ∧ 8 * w < a + n := by
  rw [State.hostLoad_clean hflips hn, State.poisonedIn]
  simp only [List.any_eq_true, Bool.and_eq_true, decide_eq_true_eq]
  exact exists_congr fun w => and_congr_right fun _ => by omega

theorem State.hostStore_clean (hpoison : s.t0Poison = []) (a : Nat) {bs : List Byte} (h : bs ≠ []) : s.hostStore a bs = s.t0Store a bs := by
  unfold State.hostStore
  rw [if_neg (by simpa using h)]
  dsimp only
  rw [List.foldl_fixed']
  · simp [hpoison, h]
  · intro w
    rw [hflips]
    rfl

end

/-! ### BAR0 and BAR2 -/

section
variable {s : State} (hs : s.served .pcie = true)
include hs

theorem exec_bar0BadAccess_served (write : Bool) (o : BitVec 24) (n : Nat) : exec (.bar0BadAccess write o n) s =
    .next (if write then s.logViolation 1 1 { addr := o.toNat }
      else (s.logViolation 1 1 { addr := o.toNat }).emit (.completion (List.replicate (4 * n) 0xFF) false)) := by
  rw [exec_bar0BadAccess, execBar0BadAccess, if_pos hs]

theorem exec_bar2Read_served (o : BitVec 26) (n : Nat) : exec (.bar2Read o n) s =
    .next ((s.hostLoad o.toNat (min n (t0Bytes - o.toNat))).2.2.emit (.completion ((s.hostLoad o.toNat (min n (t0Bytes - o.toNat))).1 ++
      List.replicate (n - min n (t0Bytes - o.toNat)) 0) (s.hostLoad o.toNat (min n (t0Bytes - o.toNat))).2.1)) := by
  rw [exec_bar2Read, execBar2Read, if_pos hs]

/-- The part of a write that lies in the staging area: where it starts, and its bytes. -/
def State.stagedPart (s : State) (a : Nat) (bs : List Byte) : Nat × List Byte :=
  let (b, n) := s.staging.getD (a, 0)
  (max a b, (bs.drop (max a b - a)).take (min (a + bs.length) (b + n) - max a b))

/-- A write within T0: the staged part is stored, and a write that has another part is recorded. -/
def State.bar2Store (s : State) (a : Nat) (bs : List Byte) : State :=
  let t := s.hostStore (s.stagedPart a bs).1 (s.stagedPart a bs).2
  if (s.stagedPart a bs).2.length < bs.length then t.logViolation 1 2 { addr := a } else t

theorem exec_bar2Write_served (o : BitVec 26) (bs : List Byte) :
    exec (.bar2Write o bs) s = .next (s.bar2Store o.toNat (bs.take (t0Bytes - o.toNat))) := by
  rw [exec_bar2Write, execBar2Write, if_pos hs]
  rfl

end

theorem State.stagedPart_inside {s : State} {a b n : Nat} {bs : List Byte} (h : s.staging = some (b, n)) (hlo : b ≤ a)
    (hhi : a + bs.length ≤ b + n) : s.stagedPart a bs = (a, bs) := by
  rw [State.stagedPart, h]
  simp only [Option.getD_some, Nat.max_eq_left hlo, Nat.min_eq_left hhi, Nat.sub_self, List.drop_zero, Nat.add_sub_cancel_left, List.take_length]

theorem State.stagedPart_outside {s : State} {a : Nat} {bs : List Byte}
    (h : ∀ b n, s.staging = some (b, n) → a + bs.length ≤ b ∨ b + n ≤ a) : (s.stagedPart a bs).2 = [] := by
  rw [State.stagedPart]
  cases hstaging : s.staging with
  | none => simp
  | some p =>
    have := h p.1 p.2 hstaging
    have hnone : min (a + bs.length) (p.1 + p.2) - max a p.1 = 0 := by omega
    simp only [Option.getD_some, hnone, List.take_zero]

theorem State.hostStore_nil (s : State) (a : Nat) : s.hostStore a [] = s := rfl

/-- Settles O28: a read is T0 with the contexts laid over it; a write is stored where the staging area holds it whole. -/
theorem hostWindowsReachTheirMemories : Obligations.HostWindowsReachTheirMemories := by
  intro s hs
  refine ⟨fun o n => ⟨exec_bar0BadAccess_served hs true o n, exec_bar0BadAccess_served hs false o n⟩, fun o n hflips hn => ?read,
    fun o bs b n hstaging hflips hpoison hlo hhi hend => ?inside, fun o bs hbs ho hout => ?outside, fun o bs ho => ?beyond⟩
  case read =>
    obtain ⟨m, hm⟩ : ∃ m, m = min n (t0Bytes - o.toNat) := ⟨_, rfl⟩
    have hT0 : t0Bytes = 0x300_0000 := rfl
    have hlen : (s.hostLoad o.toNat m).1.length = m := by
      rw [State.hostLoad_bytes hflips, State.length_foldl_layContext, length_cellRead]
    have hexec := exec_bar2Read_served hs o n
    rw [← hm, State.hostLoad_state hflips] at hexec
    refine ⟨_, _, hexec, ?_, fun i hi hoff => ?_, fun i e hi he hhere hhome hend hhi hother => ?_, ?_⟩
    · rw [List.length_append, hlen, List.length_replicate]
      omega
    · by_cases him : i < m
      · rw [List.getD_append _ _ _ _ (by rw [hlen]; exact him), State.hostLoad_bytes hflips,
          State.getD_foldl_off s _ _ hoff (by rw [length_cellRead]; exact him), getD_cellRead _ him, if_pos (by omega)]
      · rw [List.getD_append_right _ _ _ _ (by rw [hlen]; omega), if_neg (by omega)]
        exact List.getD_replicate 0 (by rw [hlen]; omega)
    · have him : i < m := by omega
      rw [List.getD_append _ _ _ _ (by rw [hlen]; exact him), State.hostLoad_bytes hflips,
        State.getD_foldl_on s _ hhere hhome hhi _ he hother (by rw [length_cellRead]; exact him)]
    · by_cases hm0 : m = 0
      · rw [hm0, State.hostLoad, if_pos rfl]
        refine ⟨fun h => Bool.noConfusion h, fun ⟨w, _, hw, hw'⟩ => by omega⟩
      · rw [State.hostLoad_poison hflips hm0, show o.toNat + m = min (o.toNat + n) 0x300_0000 by omega]
  case inside =>
    rw [exec_bar2Write_served hs, List.take_of_length_le (by show _ ≤ 0x300_0000 - _; omega), State.bar2Store,
      State.stagedPart_inside hstaging hlo hhi]
    refine ⟨_, rfl, ?_⟩
    dsimp only
    rw [if_neg (Nat.lt_irrefl _)]
    by_cases hbs : bs = []
    · subst hbs
      exact ⟨rfl, fun a => (if_neg (by simp)).symm⟩
    · rw [State.hostStore_clean hflips hpoison _ hbs]
      refine ⟨?_, fun a => cellGet_cellSetMany _ _ _ _⟩
      simp [State.t0Store, hpoison, hflips]
  case outside =>
    have hpart : (s.stagedPart o.toNat (bs.take (t0Bytes - o.toNat))).2 = [] := State.stagedPart_outside fun b n h => by
      have := hout b n h
      rw [List.length_take]
      omega
    have hsome : 0 < (bs.take (t0Bytes - o.toNat)).length := by
      have : 0 < bs.length := List.length_pos_iff.2 hbs
      have hT0 : t0Bytes = 0x300_0000 := rfl
      rw [List.length_take]
      omega
    rw [exec_bar2Write_served hs, State.bar2Store, hpart, State.hostStore_nil]
    exact congrArg _ (if_pos hsome)
  case beyond =>
    have hnone : bs.take (t0Bytes - o.toNat) = [] := by
      rw [show t0Bytes - o.toNat = 0 from Nat.sub_eq_zero_of_le ho, List.take_zero]
    have hpart : (s.stagedPart o.toNat []).2 = [] := by rw [State.stagedPart]; simp
    rw [exec_bar2Write_served hs, hnone, State.bar2Store, hpart, State.hostStore_nil]
    rfl

end Sys2Proof.Machine
end

section
/-!
PROOFS. Host-side resets (R294), and the state that shows what soundness does not bound.
-/
namespace Sys2Proof.Machine

/-- A sound state in which a load acts whose move is listed under Cart 0x19F0: the register of that Cart's channel is the one that
HOST_HWTGEN is at. -/
def strayCart : State :=
  { State.reset with
    queues := State.reset.queues.set 0 { idleQueue with reqs := [⟨0x10, 0, 7, 0xFF, 0, 0, [], 0, false, .acting⟩] }
    moves := [(0x19F0, ⟨⟨0, 0, 1, 0, 0, false, 0, 0, 0⟩, .copying, true, .load⟩)] }

theorem strayCart_sound : strayCart.sound = true ∧ strayCart.mainOn = true := by decide +kernel

/-- The reset stops the load, and shows its move as failed at HOST_HWTGEN. -/
theorem strayCart_reset : (strayCart.hostReset true).reg Reg.HOST_HWTGEN = 0x15 ∧ strayCart.reg Reg.HOST_HWTGEN = 0 := by decide +kernel

theorem exec_perstAssert_on {s : State} (h : s.mainOn = true) : exec .perstAssert s = .next (s.hostReset true) := by
  rw [exec_perstAssert, execPerstAssert, if_pos h]

/-- Refutes O29: soundness does not bound the Carts that moves in progress are listed under. Where a queue's reset stops a load
whose move is listed under a Cart that the part does not have, the channel state shown can fall on HOST_HWTGEN, which then changes. -/
theorem not_hostResetsLeaveTheQueuesEmpty : ¬ Obligations.HostResetsLeaveTheQueuesEmpty := by
  intro h
  obtain ⟨hsound, hmain⟩ := strayCart_sound
  obtain ⟨hafter, hbefore⟩ := strayCart_reset
  obtain ⟨t, hexec, -, -, hgen, -⟩ := h strayCart .perstAssert hsound hmain (.inl rfl)
  have ht : strayCart.hostReset true = t := Host.Outcome.next.inj ((exec_perstAssert_on hmain).symm.trans hexec)
  rw [← ht, hafter, hbefore] at hgen
  exact absurd hgen (by decide)

end Sys2Proof.Machine
end

section
/-!
PROOFS. The logs and the pins that they drive (R347 to R349, R358).
-/
namespace Sys2Proof.Machine

/-! ### The pins (R358) -/

theorem exec_pinHoldExpiry_alert {s : State} (hlow : s.alertLow = true) (h : s.bit Reg.ERRLOG_STAT 4 = false) :
    exec (.pinHoldExpiry true) s = .next { s.reach (s.alertAt + 1000) with alertLow := false } := by
  simp [execPinHoldExpiry, hlow, h]

theorem exec_pinHoldExpiry_diag {s : State} (hlow : s.diagLow = true) (h : s.bit Reg.ERRLOG_STAT 5 = false) :
    exec (.pinHoldExpiry false) s = .next { s.reach (s.diagAt + 1000) with diagLow := false } := by
  simp [execPinHoldExpiry, hlow, h]

/-- Settles O16: the setting of a latch drives its pin at once, and the expiry moves the timebase to the end of the 1 ms. -/
theorem pinsStayLowOneMillisecond : Obligations.PinsStayLowOneMillisecond := by
  refine ⟨fun s => ⟨rfl, rfl, s.alert_bit, rfl, rfl, s.diag_bit⟩, fun s hlow h => ?alert, fun s hlow h => ?diag, fun s h => ?_, fun s h => ?_⟩
  case alert => exact ⟨_, exec_pinHoldExpiry_alert hlow h, rfl, Nat.le_max_right _ _, rfl⟩
  case diag => exact ⟨_, exec_pinHoldExpiry_diag hlow h, rfl, Nat.le_max_right _ _, rfl⟩
  · simp [execPinHoldExpiry, h]
  · simp [execPinHoldExpiry, h]

/-! ### Where the logs lie (Table 21-1) -/

/-- The head and the tail of a log, apart, lie behind the status of the logs; its counters lie behind both, and its ring behind these. -/
structure LogLayout (head tail ring cnt : Nat) : Prop where
  head_above : Reg.ERRLOG_STAT < head
  tail_above : Reg.ERRLOG_STAT < tail
  apart : head ≠ tail
  head_cnt : head < cnt
  tail_cnt : tail < cnt
  cnt_ring : cnt + 0x40 ≤ ring

theorem logPlaces_layout (x : Bool) : LogLayout (logPlaces x).1 (logPlaces x).2.1 (logPlaces x).2.2.1 (logPlaces x).2.2.2 := by
  cases x <;> constructor <;> decide

/-- The registers that an event reaches outside the logs, and the tick's number that an entry carries, lie before the logs. -/
theorem logs_above : Reg.HSP_INTPEND < Reg.ERRLOG_STAT ∧ Reg.HOST_MSIX_PBA < Reg.ERRLOG_STAT ∧ Reg.TICK_COUNT_LO + 4 < Reg.ERRLOG_STAT := by
  decide

/-! ### The parts of the recording of an event -/

/-- An event, of either log: counted, placed, and reported on the pins. -/
theorem State.logEvent_eq (s : State) (x : Bool) (cls sub : Nat) (i : LogInfo) :
    s.logEvent x cls sub i = ((s.logCount (logPlaces x).2.2.2 cls).logPlace (logPlaces x).1 (logPlaces x).2.1 (logPlaces x).2.2.1
      (if x then 3 else 2) (if x then 1 else 0) fun t => logWords t.tickNo s.logSeq cls sub i).logPins cls (if x then cls + 16 else cls) := by
  cases x
  · exact s.logError_eq cls sub i
  · exact s.logViolation_eq cls sub i

/-- The raising of a bit of the logs' status reaches no register behind it. -/
theorem State.reg_raise_errlog (s : State) (b : Nat) {a : Nat} (h : Reg.ERRLOG_STAT < a) :
    (s.raise .errlog Reg.ERRLOG_STAT b).reg a = s.reg a := by
  obtain ⟨hpend, hpba, -⟩ := logs_above
  exact State.reg_raise_apart _ _ _ _ (by omega) (by omega) (by omega)

theorem State.bit_raise_errlog (s : State) {b : Nat} (h : b < 32) : (s.raise .errlog Reg.ERRLOG_STAT b).bit Reg.ERRLOG_STAT b = true :=
  (State.bit_of_reg (State.reg_raise_self_apart _ _ _ _ (by decide) (by decide)) b).trans (s.bit_setBit _ b true h)

/-- The pins' latches are bits 4 and 5 of the logs' status. -/
theorem State.bit_logPins (s : State) (cls n : Nat) {b : Nat} (h4 : b ≠ 4) (h5 : b ≠ 5) :
    (s.logPins cls n).bit Reg.ERRLOG_STAT b = s.bit Reg.ERRLOG_STAT b := by
  have alert : ∀ t : State, t.alert.bit Reg.ERRLOG_STAT b = t.bit Reg.ERRLOG_STAT b := fun t => t.bit_setBit_apart _ 4 true _ _ (.inr h4)
  have diag : ∀ t : State, t.diag.bit Reg.ERRLOG_STAT b = t.bit Reg.ERRLOG_STAT b := fun t => t.bit_setBit_apart _ 5 true _ _ (.inr h5)
  unfold State.logPins
  dsimp only
  split <;> split <;> simp only [alert, diag]

theorem State.fld_logCount (s : State) (cnt : Nat) {cls : Nat} (h : cls < 16) :
    (s.logCount cnt cls).fld (cnt + 4 * cls) 0 32 = min (s.fld (cnt + 4 * cls) 0 32 + 1) (2 ^ 32 - 1) := by
  rw [State.logCount, if_pos h, State.fld_addSat _ _ _ _ _ (by decide)]
  rfl

section
variable (s : State) {head tail ring cnt : Nat} (full new : Nat) {words : State → List Word}

theorem State.logPlace_room (h : (s.fld head 0 9 + 512 - s.fld tail 0 9) % 512 < 256) : s.logPlace head tail ring full new words =
    ((s.setRegs (ring + 32 * (s.fld head 0 9 % 256)) (words s)).setFld head 0 9 ((s.fld head 0 9 + 1) % 512)).raise .errlog
      Reg.ERRLOG_STAT new := if_neg (Nat.not_le_of_lt h)

theorem State.logPlace_full (h : 256 ≤ (s.fld head 0 9 + 512 - s.fld tail 0 9) % 512) :
    s.logPlace head tail ring full new words = s.raise .errlog Reg.ERRLOG_STAT full := if_pos h

/-- The placing of an event reaches, behind the logs' status, its log's head and ring alone. -/
theorem State.reg_logPlace_above {a : Nat} (ha : Reg.ERRLOG_STAT < a) (hh : a ≠ head) (hr : a < ring) :
    (s.logPlace head tail ring full new words).reg a = s.reg a := by
  rcases Nat.lt_or_ge ((s.fld head 0 9 + 512 - s.fld tail 0 9) % 512) 256 with room | full
  · rw [s.logPlace_room _ _ room, State.reg_raise_errlog _ _ ha, State.reg_setFld_apart _ _ _ _ hh, State.reg_setRegs _ _ _ _ (by omega)]
  · rw [s.logPlace_full _ _ full, State.reg_raise_errlog _ _ ha]

/-- In a log with room the head advances. -/
theorem State.fld_logPlace_head (ha : Reg.ERRLOG_STAT < head)
    (room : (s.fld head 0 9 + 512 - s.fld tail 0 9) % 512 < 256) :
    (s.logPlace head tail ring full new words).fld head 0 9 = (s.fld head 0 9 + 1) % 512 := by
  rw [s.logPlace_room _ _ room, State.fld_of_reg (State.reg_raise_errlog _ _ ha), State.fld_setFld _ _ _ _ _ (by decide)]
  exact Nat.mod_mod _ _

/-- In a log with room the entry stands in its slot. -/
theorem State.reg_logPlace_slot (ha : Reg.ERRLOG_STAT < head) (hr : head < ring)
    (room : (s.fld head 0 9 + 512 - s.fld tail 0 9) % 512 < 256) {k : Nat} (hk : k < (words s).length) :
    (s.logPlace head tail ring full new words).reg (ring + 32 * (s.fld head 0 9 % 256) + 4 * k) = (words s).getD k 0 := by
  rw [s.logPlace_room _ _ room, State.reg_raise_errlog _ _ (by omega), State.reg_setFld_apart _ _ _ _ (by omega), State.reg_setRegs_at _ _ _ _ hk]

/-- In a log with room every other entry stays. -/
theorem State.reg_logPlace_other (ha : Reg.ERRLOG_STAT < head) (hr : head < ring) (hw : (words s).length = 8)
    (room : (s.fld head 0 9 + 512 - s.fld tail 0 9) % 512 < 256) {e k : Nat} (hk : k < 8) (he : e ≠ s.fld head 0 9 % 256) :
    (s.logPlace head tail ring full new words).reg (ring + 32 * e + 4 * k) = s.reg (ring + 32 * e + 4 * k) := by
  rw [s.logPlace_room _ _ room, State.reg_raise_errlog _ _ (by omega), State.reg_setFld_apart _ _ _ _ (by omega),
    State.reg_setRegs _ _ _ _ (by omega)]

end

/-! ### The recording of an event (R347 to R349) -/

section
variable (s : State) (x : Bool) (cls sub : Nat) (i : LogInfo)

/-- Behind the logs' status, an event is its count and its placing. -/
theorem State.reg_logEvent {a : Nat} (h : Reg.ERRLOG_STAT < a) : (s.logEvent x cls sub i).reg a =
    ((s.logCount (logPlaces x).2.2.2 cls).logPlace (logPlaces x).1 (logPlaces x).2.1 (logPlaces x).2.2.1
      (if x then 3 else 2) (if x then 1 else 0) fun t => logWords t.tickNo s.logSeq cls sub i).reg a := by
  rw [State.logEvent_eq, State.reg_logPins _ _ _ (by omega)]

theorem State.logEvent_logSeq : (s.logEvent x cls sub i).logSeq = (s.logSeq + 1) % 2 ^ 32 := by
  rw [State.logEvent_eq, State.logPins_logSeq, State.logPlace_logSeq, State.logCount_logSeq]

theorem State.fld_logEvent_count (h : cls < 16) : (s.logEvent x cls sub i).fld ((logPlaces x).2.2.2 + 4 * cls) 0 32 =
    min (s.fld ((logPlaces x).2.2.2 + 4 * cls) 0 32 + 1) (2 ^ 32 - 1) := by
  obtain ⟨habove, -, -, hhead, -, hring⟩ := logPlaces_layout x
  rw [← s.fld_logCount _ h]
  refine State.fld_of_reg ?_ _ _
  rw [s.reg_logEvent x cls sub i (by omega), State.reg_logPlace_above _ _ _ (by omega) (by omega) (by omega)]

/-- An event leaves the tail of its log. -/
theorem State.fld_logEvent_tail : (s.logEvent x cls sub i).fld (logPlaces x).2.1 0 9 = s.fld (logPlaces x).2.1 0 9 := by
  obtain ⟨-, habove, hne, -, htail, hring⟩ := logPlaces_layout x
  refine State.fld_of_reg ?_ _ _
  rw [s.reg_logEvent x cls sub i habove, State.reg_logPlace_above _ _ _ habove hne.symm (by omega), s.reg_logCount cls (.inl htail)]

/-- The count of an event leaves what lies before the counters: head and tail, and the tick's number. -/
theorem State.logCount_before : (s.logCount (logPlaces x).2.2.2 cls).fld (logPlaces x).1 0 9 = s.fld (logPlaces x).1 0 9 ∧
    (s.logCount (logPlaces x).2.2.2 cls).fld (logPlaces x).2.1 0 9 = s.fld (logPlaces x).2.1 0 9 ∧
    (s.logCount (logPlaces x).2.2.2 cls).tickNo = s.tickNo := by
  obtain ⟨habove, -, -, hhead, htail, -⟩ := logPlaces_layout x
  obtain ⟨-, -, htick⟩ := logs_above
  refine ⟨State.fld_of_reg (s.reg_logCount cls (.inl hhead)) _ _, State.fld_of_reg (s.reg_logCount cls (.inl htail)) _ _, ?_⟩
  unfold State.tickNo State.reg64
  rw [s.reg_logCount cls (.inl (by omega)), s.reg_logCount cls (.inl (by omega))]

/-- An event of a log with room: its entry stands at the head, which advances, and every other entry stays. -/
theorem State.logEvent_room (room : (s.fld (logPlaces x).1 0 9 + 512 - s.fld (logPlaces x).2.1 0 9) % 512 < 256) :
    (s.logEvent x cls sub i).fld (logPlaces x).1 0 9 = (s.fld (logPlaces x).1 0 9 + 1) % 512 ∧
    (∀ k, k < 8 → (s.logEvent x cls sub i).reg ((logPlaces x).2.2.1 + 32 * (s.fld (logPlaces x).1 0 9 % 256) + 4 * k) =
      (logWords s.tickNo s.logSeq cls sub i).getD k 0) ∧
    (∀ e k, e < 256 → k < 8 → e ≠ s.fld (logPlaces x).1 0 9 % 256 →
      (s.logEvent x cls sub i).reg ((logPlaces x).2.2.1 + 32 * e + 4 * k) = s.reg ((logPlaces x).2.2.1 + 32 * e + 4 * k)) := by
  obtain ⟨habove, -, -, hcnt, -, hring⟩ := logPlaces_layout x
  obtain ⟨hhead, htail, htick⟩ := s.logCount_before x cls
  have room' := room
  rw [← hhead, ← htail] at room'
  refine ⟨?_, fun k hk => ?_, fun e k _ hk he => ?_⟩
  · rw [State.fld_of_reg (s.reg_logEvent x cls sub i habove), State.fld_logPlace_head _ _ _ habove room', hhead]
  · rw [s.reg_logEvent x cls sub i (by omega), ← hhead, State.reg_logPlace_slot _ _ _ habove (by omega) room' hk, htick]
  · rw [s.reg_logEvent x cls sub i (by omega), State.reg_logPlace_other _ _ _ habove (by omega) rfl room' hk (by rwa [hhead]),
      s.reg_logCount cls (.inr (by omega))]

/-- An event of a log that holds 256 entries: head and entries stay, and the overflow bit is set. -/
theorem State.logEvent_full (full : 256 ≤ (s.fld (logPlaces x).1 0 9 + 512 - s.fld (logPlaces x).2.1 0 9) % 512) :
    (s.logEvent x cls sub i).fld (logPlaces x).1 0 9 = s.fld (logPlaces x).1 0 9 ∧
    (s.logEvent x cls sub i).bit Reg.ERRLOG_STAT (if x then 3 else 2) = true ∧
    (∀ e k, e < 256 → k < 8 →
      (s.logEvent x cls sub i).reg ((logPlaces x).2.2.1 + 32 * e + 4 * k) = s.reg ((logPlaces x).2.2.1 + 32 * e + 4 * k)) := by
  obtain ⟨habove, -, -, hcnt, -, hring⟩ := logPlaces_layout x
  obtain ⟨hhead, htail, -⟩ := s.logCount_before x cls
  rw [← hhead, ← htail] at full
  refine ⟨?_, ?_, fun e k _ hk => ?_⟩
  · rw [State.fld_of_reg (s.reg_logEvent x cls sub i habove), State.logPlace_full _ _ _ full,
      State.fld_of_reg (State.reg_raise_errlog _ _ habove), hhead]
  · rw [State.logEvent_eq, State.logPlace_full _ _ _ full, State.bit_logPins _ _ _ (by cases x <;> decide) (by cases x <;> decide)]
    exact State.bit_raise_errlog _ (by cases x <;> decide)
  · rw [s.reg_logEvent x cls sub i (by omega), State.logPlace_full _ _ _ full, State.reg_raise_errlog _ _ (by omega),
      s.reg_logCount cls (.inr (by omega))]

end

/-! ### The write of a tail (R348) -/

theorem exec_logTailWrite_served {s : State} {i : Iface} (x : Bool) (v : Word) (h : s.served i = true) :
    exec (.logTailWrite i x v) s = .next (s.writeTail i x v) := by
  rw [exec_logTailWrite, execLogTailWrite, if_pos h]

section
variable (s : State) (i : Iface) (x : Bool) (v : Word)

/-- A tail takes a value that moves it neither backwards nor past the head; another is a violation. -/
theorem State.writeTail_eq : s.writeTail i x v =
    if 256 < (s.fld (logPlaces x).1 0 9 + 512 - wordField v 0 9) % 512 ∨
        (s.fld (logPlaces x).1 0 9 + 512 - s.fld (logPlaces x).2.1 0 9) % 512 < (s.fld (logPlaces x).1 0 9 + 512 - wordField v 0 9) % 512 then
      s.writeViolation i 5 17 (logPlaces x).2.1 v
    else s.setFld (logPlaces x).2.1 0 9 (wordField v 0 9) := by
  cases x <;> simp only [State.writeTail, Bool.or_eq_true, decide_eq_true_eq] <;> rfl

/-- A violation leaves the tail of either log. -/
theorem State.fld_tail_writeViolation (m n off : Nat) :
    (s.writeViolation i m n off v).fld (logPlaces x).2.1 0 9 = s.fld (logPlaces x).2.1 0 9 := by
  cases x
  · exact State.fld_of_reg (s.reg_writeViolation i m n off v (by decide)) _ _
  · cases i with
    | pcie => exact s.fld_logEvent_tail true 1 m _
    | hsp => exact s.fld_logEvent_tail true 2 n _
    | cc k => rfl

end

/-- Settles O15: an event is counted, placed where its log has room, and reported; a tail's write is refused or is one field. -/
theorem eachLogKeepsItsOldestEntries : Obligations.EachLogKeepsItsOldestEntries := by
  refine ⟨fun s x cls sub i hcls => ⟨s.logEvent_logSeq x cls sub i, s.fld_logEvent_count x cls sub i hcls, s.fld_logEvent_tail x cls sub i,
    s.logEvent_room x cls sub i, s.logEvent_full x cls sub i⟩, fun i x v s hs => ⟨fun hok => ?taken, fun hbad => ?refused⟩⟩
  case taken =>
    refine ⟨_, exec_logTailWrite_served x v hs, ?_⟩
    rw [s.writeTail_eq i x v, if_neg (by omega)]
    refine ⟨?_, rfl⟩
    rw [State.fld_setFld _ _ _ _ _ (by decide)]
    exact Nat.mod_eq_of_lt (wordField_lt v 0 9)
  case refused =>
    refine ⟨_, exec_logTailWrite_served x v hs, ?_⟩
    rw [s.writeTail_eq i x v, if_pos hbad]
    refine ⟨s.fld_tail_writeViolation i x v 5 17 _, ?_⟩
    cases i <;> rfl

end Sys2Proof.Machine
end

section
/-!
PROOFS. The always-on store: its copies, the journal and the counter (R507 to R509), and the system reset (R513).
-/
namespace Sys2Proof.Machine

/-! ### The two copies of the store (R507) -/

theorem mem_putCopy (c : StoreCopy) (l : List StoreCopy) : c ∈ putCopy c l := by
  unfold putCopy
  split
  · split <;> simp
  · simp

theorem putCopy_subset {c d : StoreCopy} {l : List StoreCopy} (h : d ∈ putCopy c l) : d = c ∨ d ∈ l := by
  unfold putCopy at h
  split at h
  · split at h <;> simp only [List.mem_cons, List.not_mem_nil, or_false] at h ⊢ <;> tauto
  · exact (List.mem_cons.1 h).imp_right List.mem_of_mem_drop

/-- The better of the copies met so far and one more. -/
def betterCopy (o : Option StoreCopy) (c : StoreCopy) : Option StoreCopy :=
  some (match o with
    | none => c
    | some d => newerCopy d c)

theorem AonState.best_eq (a : AonState) : a.best = (a.copies.filter (·.valid)).foldl betterCopy none := rfl

/-- A copy stands against copies with lower numbers, and against itself. -/
theorem betterCopy_stands {c d : StoreCopy} (h : d = c ∨ d.number < c.number) : betterCopy (some c) d = some c := by
  rcases h with rfl | h
  · simp [betterCopy, newerCopy]
  · simp [betterCopy, newerCopy, Nat.lt_asymm h]

theorem foldl_betterCopy_stands {c : StoreCopy} (l : List StoreCopy) (h : ∀ d ∈ l, d = c ∨ d.number < c.number) :
    l.foldl betterCopy (some c) = some c :=
  List.foldlRecOn (motive := fun o => o = some c) _ _ rfl fun _ ho d hd => ho ▸ betterCopy_stands (h d hd)

/-- A copy replaces one with a lower number. -/
theorem betterCopy_replaces {c : StoreCopy} {o : Option StoreCopy} (h : ∀ d, o = some d → d.number < c.number) :
    betterCopy o c = some c := by
  cases o with
  | none => rfl
  | some d => simp [betterCopy, newerCopy, h d rfl]

theorem betterCopy_below {c d e : StoreCopy} {o : Option StoreCopy} (ho : ∀ d, o = some d → d.number < c.number) (hd : d.number < c.number)
    (h : betterCopy o d = some e) : e.number < c.number := by
  cases o with
  | none => obtain rfl := Option.some.inj h; exact hd
  | some b =>
    obtain rfl := Option.some.inj h
    show (newerCopy b d).number < c.number
    unfold newerCopy
    split
    · exact hd
    · exact ho b rfl

/-- Of copies of which one has the highest number, that one is the best. -/
theorem foldl_betterCopy_highest {c : StoreCopy} (l : List StoreCopy) (hc : c ∈ l) (h : ∀ d ∈ l, d = c ∨ d.number < c.number) :
    ∀ o, (∀ d, o = some d → d.number < c.number) → l.foldl betterCopy o = some c := by
  induction l with
  | nil => exact absurd hc (List.not_mem_nil)
  | cons d l ih =>
    intro o ho
    obtain ⟨hd, hl⟩ := List.forall_mem_cons.1 h
    rw [List.foldl_cons]
    by_cases e : d = c
    · rw [e, betterCopy_replaces ho]
      exact foldl_betterCopy_stands l hl
    · exact ih ((List.mem_cons.1 hc).resolve_left (Ne.symm e)) hl _ fun _ => betterCopy_below ho (hd.resolve_left e)

/-- A valid copy with a number above every other's is in force once it is written. -/
theorem AonState.best_putCopy (a : AonState) {c : StoreCopy} (hv : c.valid = true) (h : ∀ d ∈ a.copies, d.number < c.number) :
    ({ a with copies := putCopy c a.copies } : AonState).best = some c := by
  rw [AonState.best_eq]
  refine foldl_betterCopy_highest _ (List.mem_filter.2 ⟨mem_putCopy c _, hv⟩) (fun d hd => ?_) none (fun _ => by simp)
  exact (putCopy_subset (List.mem_of_mem_filter hd)).imp_right (h d)

theorem le_foldl_max {l : List Nat} {n : Nat} (h : n ∈ l) : n ≤ l.foldl max 0 := by
  rw [List.foldl_eq_foldr]
  exact List.le_max_of_le h (Nat.le_refl n)

/-! ### Reading and updating the store -/

theorem State.store_of_aon {s t : State} (h : t.aon = s.aon) : t.store = s.store := by
  unfold State.store; rw [h]

/-- An update of the store changes, of the always-on domain, the copies alone. -/
theorem State.putStore_aon (s : State) (d : StoreData) : (s.putStore d).aon =
    { s.aon with copies := putCopy ⟨(s.aon.copies.map (·.number)).foldl max 0 + 1, true, d⟩ s.aon.copies } :=
  (State.showStore_eff Sub.rfl Eff.refl).aon rfl

/-- The store holds what was put there. -/
theorem State.store_putStore (s : State) (d : StoreData) : (s.putStore d).store = d := by
  unfold State.store
  rw [s.putStore_aon d, AonState.best_putCopy _ rfl fun c hc => Nat.lt_succ_of_le (le_foldl_max (List.mem_map_of_mem hc))]

/-! ### The journal (R508) -/

/-- The entry that the journal takes. -/
def State.entry (s : State) (code arg1 arg2 detail : Nat) : JrnlEntry :=
  ⟨code, arg1, arg2, s.store.mono % 2 ^ 32, s.aonMs % 2 ^ 32, detail % 2 ^ 32⟩

/-- The store with one entry more: a full ring has lost its oldest. -/
def StoreData.enter (d : StoreData) (e : JrnlEntry) : StoreData :=
  { d with entries := (d.entries ++ [e]).drop ((d.entries ++ [e]).length - 64), written := d.written + 1 }

theorem StoreData.enter_newest (d : StoreData) (e : JrnlEntry) : (d.enter e).entries.getLast? = some e := by
  unfold StoreData.enter
  rw [List.getLast?_drop, if_neg (by simp), List.getLast?_concat]

section
variable (s : State) (code arg1 arg2 detail : Nat)

theorem State.journal_running (h : s.aon.running = true) :
    s.journal code arg1 arg2 detail = s.putStore (s.store.enter (s.entry code arg1 arg2 detail)) := by
  rw [State.journal, if_neg (by simp [h])]
  rfl

theorem State.newest_journal (h : s.aon.running = true) :
    (s.journal code arg1 arg2 detail).newest = some (s.entry code arg1 arg2 detail) := by
  rw [s.journal_running _ _ _ _ h, State.newest, State.store_putStore, StoreData.enter_newest]

/-- The journal leaves the counter. -/
theorem State.mono_journal : (s.journal code arg1 arg2 detail).store.mono = s.store.mono := by
  cases h : s.aon.running with
  | true =>
    rw [s.journal_running _ _ _ _ h, State.store_putStore]
    rfl
  | false => rw [State.journal, if_pos (by simp [h])]

/-- The journal changes, of the always-on domain, the copies of the store alone. -/
theorem State.journal_aon : (s.journal code arg1 arg2 detail).aon =
    { s.aon with copies := (s.journal code arg1 arg2 detail).aon.copies } := by
  cases h : s.aon.running with
  | true => rw [s.journal_running _ _ _ _ h, State.putStore_aon]
  | false => rw [State.journal, if_pos (by simp [h])]

end

/-! ### The counter (R509) -/

theorem State.floor_of_flash {s t : State} (h : t.nv.flash = s.nv.flash) : t.floor = s.floor := by
  unfold State.floor State.floorAt State.floorIn State.flashRead; rw [h]

/-- The counter advances below the floor without the flash. -/
theorem State.advanceCounter_below (s : State) (hmono : s.store.mono ≠ 0) (hfloor : s.store.mono + 1 < s.floor) :
    s.advanceCounter = (s.putStore { s.store with mono := s.store.mono + 1 }).setReg Reg.GDN_INCARN (BitVec.ofNat 32 (s.store.mono + 1)) := by
  simp [State.advanceCounter, hmono, Nat.not_le_of_lt hfloor]

/-- The advance of the counter leaves the always-on domain running. -/
theorem State.advanceCounter_running (s : State) : s.advanceCounter.aon.running = s.aon.running := by
  have raised : s.raiseFloor.aon.running = s.aon.running := by
    unfold State.raiseFloor
    rw [State.journal_aon]
    rfl
  unfold State.advanceCounter
  extract_lets lost f need s1 mono s2
  split
  · rfl
  · have h1 : s1.aon.running = s.aon.running := by
      show (if _ then _ else _ : State).aon.running = _
      split
      · exact raised
      · rfl
    show (s1.putStore _).aon.running = _
    rw [State.putStore_aon, h1]

/-! ### A system reset (R513) -/

/-- The engine as a system reset holds it at the release step, before the journal. -/
def State.heldReset (s : State) : State :=
  s.mainReset.updAon fun a => { a with phase := .powerupB, phaseAt := s.now, held := true, tripDue := none }

theorem State.systemReset_on (s : State) (why : Nat) (hmain : s.mainOn = true) (hphase : s.aon.phase ≠ .powerdown) :
    s.systemReset why = s.heldReset.journal 0x06 why 0 0 := by
  rw [State.systemReset, if_pos (by simp [hmain, hphase])]
  rfl

/-- A system reset holds the main domain at the release step, with its journal code. -/
theorem State.systemReset_facts (s : State) (why : Nat) (hrun : s.aon.running = true) (hmain : s.mainOn = true)
    (hphase : s.aon.phase ≠ .powerdown) :
    (s.systemReset why).aon.held = true ∧ (s.systemReset why).aon.phase = .powerupB ∧ (s.systemReset why).t0 = [] ∧
      (s.systemReset why).newest.map (fun e => (e.code, e.arg1)) = some (6, why) := by
  rw [s.systemReset_on why hmain hphase, s.heldReset.newest_journal _ _ _ _ hrun, State.journal_aon]
  exact ⟨rfl, rfl, (State.journal_eff Sub.rfl Eff.refl).t0 rfl, rfl⟩

end Sys2Proof.Machine
end

section
/-!
PROOFS. Control cores that restart and return, and firmware resets (R352, R353, R514, Table 11-7).
-/
namespace Sys2Proof.Machine

/-! ### Which cores are away -/

theorem mem_keys_keyPut {α : Type} (v : α) (k : Nat) :
    ∀ {m : List (Nat × α)} {a : Nat}, k ∈ (keyPut m a v).map Prod.fst ↔ k = a ∨ k ∈ m.map Prod.fst
  | [], a => by simp [keyPut]
  | (j, u) :: m, a => by
    unfold keyPut
    split
    · simp
    · split
      · next e => simp [e]
      · rw [List.map_cons, List.mem_cons, mem_keys_keyPut v k, List.map_cons, List.mem_cons, or_left_comm]

theorem mem_addMember {l : List Nat} {n k : Nat} : k ∈ addMember l n ↔ k = n ∨ k ∈ l := by
  have hkeys : (l.map fun j => (j, ())).map Prod.fst = l := by simp [Function.comp_def]
  rw [addMember, mem_keys_keyPut, hkeys]

theorem State.coreUp_away {s : State} {c : Nat} (h : c ∈ s.restarting) : s.coreUp c = false := by
  simp [State.coreUp, h]

/-- A core that is up runs in a main domain that is on and does not power down. -/
theorem State.mainOn_of_coreUp {s : State} {c : Nat} (h : s.coreUp c = true) : s.mainOn = true ∧ s.aon.phase ≠ .powerdown := by
  rw [State.coreUp, Bool.and_eq_true] at h
  obtain ⟨-, h⟩ := h
  unfold State.mainOn
  cases hphase : s.aon.phase <;> simp_all

/-! ### The status of a core -/

/-- Where the status of a core lies. -/
def coreStat (c : Nat) : Nat := Reg.CCMB_CORESTAT + 4 * c

/-- The statuses of the six cores lie behind the GLOBAL block, the logs, and what a core's absence or return shows elsewhere. -/
theorem coreStat_apart : ∀ c < 6, eventReg (coreStat c) = false ∧ Reg.TICK_CTRL ≤ coreStat c ∧
    coreStat c ∉ ([Reg.PWR_STAT, Reg.PWR_CAPEFF, Reg.QRN_STAT, Reg.GDN_INCARN, Reg.NVC_BOOTSTAT] : List Nat) := by decide

theorem State.bit_showCore_run (s : State) (c : Nat) (run away : Bool) : (s.showCore c run away).bit (coreStat c) 0 = run := by
  refine (State.bit_setBit_apart _ _ _ _ _ _ (.inr (by decide))).trans ?_
  exact s.bit_setBit (coreStat c) 0 run (by decide)

theorem State.bit_showCore_away (s : State) (c : Nat) (run away : Bool) : (s.showCore c run away).bit (coreStat c) 1 = away :=
  State.bit_setBit _ _ _ _ (by decide)

theorem State.fld_showCore_count (s : State) (c : Nat) (run away : Bool) :
    (s.showCore c run away).fld (coreStat c) 16 16 = s.fld (coreStat c) 16 16 :=
  (State.fld_setBit_apart _ _ _ _ _ _ _ (.inr (.inr (by decide)))).trans
    (s.fld_setBit_apart (coreStat c) 0 run _ _ _ (.inr (.inr (by decide))))

theorem State.reg_showCore_apart (s : State) {c a : Nat} (run away : Bool) (h : a ≠ coreStat c) : (s.showCore c run away).reg a = s.reg a :=
  (State.reg_setBit_apart _ _ _ h).trans (s.reg_setBit_apart 0 run h)

theorem State.reg_showCap (s : State) {a : Nat} (h : a ≠ Reg.PWR_CAPEFF) : s.showCap.reg a = s.reg a :=
  (State.reg_setFld_apart _ _ _ _ h).trans (s.reg_setFld_apart _ _ _ h)

theorem State.reg_beginRamp (s : State) {a : Nat} (h : a ≠ Reg.QRN_STAT) : s.beginRamp.reg a = s.reg a := by
  unfold State.beginRamp
  split
  · rfl
  · exact State.reg_setBit_apart _ _ _ h

/-! ### A core is away -/

/-- A core's absence, as its status shows it. -/
def State.markAway (s : State) (c : Nat) : State :=
  ({ s with restarting := addMember s.restarting c }.showCore c false true).addSat (coreStat c) 16 16 1

/-- The same with its event in the error log. -/
def State.showAway (s : State) (c : Nat) : State := (s.markAway c).logError 6 c

/-- What follows at once: CC4's absence shows in the power status and the cap, CC5's begins the ramp. -/
theorem State.coreAway_eq (s : State) (c : Nat) : s.coreAway c =
    if c = 4 then ((s.showAway c).setBit Reg.PWR_STAT 17 true).showCap else if c = 5 then (s.showAway c).beginRamp else s.showAway c := rfl

theorem State.coreAway_after (s : State) (c : Nat) : Eff 0x80000000000000008 (s.showAway c) (s.coreAway c) := by
  rw [s.coreAway_eq]
  exact .ite (State.showCap_eff ⟨rfl⟩ (State.setBit_eff ⟨rfl⟩ .refl)) (.ite (State.beginRamp_eff ⟨rfl⟩ .refl) .refl)

theorem State.coreAway_restarting (s : State) (c : Nat) : (s.coreAway c).restarting = addMember s.restarting c := by
  rw [(s.coreAway_after c).restarting rfl, State.showAway, State.logError_restarting]
  rfl

theorem State.coreAway_logSeq (s : State) (c : Nat) : (s.coreAway c).logSeq = (s.logSeq + 1) % 2 ^ 32 := by
  rw [(s.coreAway_after c).logSeq rfl]
  exact State.logEvent_logSeq _ false 6 c {}

section
variable (s : State) {c k : Nat}

/-- What follows a core's absence reaches no core's status. -/
theorem State.reg_coreAway_stat (hk : k < 6) : (s.coreAway c).reg (coreStat k) = (s.markAway c).reg (coreStat k) := by
  obtain ⟨hev, -, hapart⟩ := coreStat_apart k hk
  simp only [List.mem_cons, List.not_mem_nil, or_false, not_or] at hapart
  obtain ⟨hpwr, hcap, hqrn, -, -⟩ := hapart
  have hlog : (s.showAway c).reg (coreStat k) = (s.markAway c).reg (coreStat k) := State.reg_logError _ 6 c {} hev
  rw [s.coreAway_eq, ← hlog]
  split
  · rw [State.reg_showCap _ hcap, State.reg_setBit_apart _ _ _ hpwr]
  · split
    · exact State.reg_beginRamp _ hqrn
    · rfl

theorem State.bit_coreAway_run (hc : c < 6) : (s.coreAway c).bit (coreStat c) 0 = false := by
  rw [State.bit_of_reg (s.reg_coreAway_stat hc), State.markAway, State.addSat, State.bit_setFld_apart _ _ _ _ _ _ _ (.inr (.inl (by decide))),
    State.bit_showCore_run]

theorem State.bit_coreAway_away (hc : c < 6) : (s.coreAway c).bit (coreStat c) 1 = true := by
  rw [State.bit_of_reg (s.reg_coreAway_stat hc), State.markAway, State.addSat, State.bit_setFld_apart _ _ _ _ _ _ _ (.inr (.inl (by decide))),
    State.bit_showCore_away]

theorem State.fld_coreAway_count (hc : c < 6) :
    (s.coreAway c).fld (coreStat c) 16 16 = min (s.fld (coreStat c) 16 16 + 1) 65535 := by
  rw [State.fld_of_reg (s.reg_coreAway_stat hc), State.markAway, State.fld_addSat _ _ _ _ _ (by decide), State.fld_showCore_count]
  rfl

/-- A core's absence leaves the status of the others. -/
theorem State.reg_coreAway_other (hk : k < 6) (h : k ≠ c) : (s.coreAway c).reg (coreStat k) = s.reg (coreStat k) := by
  have hne : coreStat k ≠ coreStat c := by unfold coreStat; omega
  rw [s.reg_coreAway_stat hk, State.markAway, State.addSat, State.reg_setFld_apart _ _ _ _ hne, State.reg_showCore_apart _ _ _ hne]
  rfl

theorem State.bit_coreAway_absent : (s.coreAway 4).bit Reg.PWR_STAT 17 = true := by
  rw [s.coreAway_eq, if_pos rfl, State.bit_of_reg (State.reg_showCap _ (by decide)), State.bit_setBit _ _ _ _ (by decide)]

end

/-! ### All cores are away -/

/-- A core is listed as restarting, and its status shows it. -/
structure IsAway (s : State) (k : Nat) : Prop where
  listed : k ∈ s.restarting
  shown : s.bit (coreStat k) 1 = true

theorem State.isAway_coreAway (s : State) {c : Nat} (hc : c < 6) : IsAway (s.coreAway c) c :=
  ⟨by rw [s.coreAway_restarting]; exact mem_addMember.2 (.inl rfl), s.bit_coreAway_away hc⟩

/-- A core that is away stays away while another goes. -/
theorem IsAway.coreAway {s : State} {c k : Nat} (h : IsAway s k) (hk : k < 6) : IsAway (s.coreAway c) k := by
  by_cases e : k = c
  · subst e; exact s.isAway_coreAway hk
  · refine ⟨?_, (State.bit_of_reg (s.reg_coreAway_other hk e) 1).trans h.shown⟩
    rw [s.coreAway_restarting]
    exact mem_addMember.2 (.inr h.listed)

theorem isAway_foldl_coreAway (l : List Nat) {k : Nat} (hk : k < 6) :
    ∀ {s : State}, IsAway s k ∨ k ∈ l → IsAway (l.foldl (fun (s : State) c => s.coreAway c) s) k := by
  induction l with
  | nil => exact fun h => h.resolve_right List.not_mem_nil
  | cons c l ih =>
    intro s h
    refine ih ?_
    rw [List.mem_cons] at h
    rcases h with h | rfl | h
    · exact .inl (h.coreAway hk)
    · exact .inl (s.isAway_coreAway hk)
    · exact .inr h

/-- The six cores go away, and an NVC operation with CC0. -/
def State.allAway (s : State) : State := (List.range 6).foldl (fun (s : State) c => s.coreAway c) s.interruptUpdate

theorem State.isAway_allAway (s : State) {k : Nat} (hk : k < 6) : IsAway s.allAway k :=
  isAway_foldl_coreAway _ hk (.inr (List.mem_range.2 hk))

theorem State.allAway_eff {W : Nat} {s₀ s : State} (hW : Sub 0x104801F0080000000008 W) (h : Eff W s₀ s) : Eff W s₀ s.allAway :=
  Eff.foldl _ (fun _ _ h => State.coreAway_eff (.trans rfl hW) h) (State.interruptUpdate_eff (.trans rfl hW) h)

theorem State.interruptUpdate_flash (s : State) : s.interruptUpdate.nv.flash = s.nv.flash := by
  unfold State.interruptUpdate
  split
  · rfl
  · rw [State.raise_nv]
    rfl

theorem State.allAway_flash (s : State) : s.allAway.nv.flash = s.nv.flash := by
  have eff : Eff 0x100801F0080000000008 s.interruptUpdate s.allAway := Eff.foldl _ (fun _ _ h => State.coreAway_eff Sub.rfl h) .refl
  rw [eff.nv rfl, s.interruptUpdate_flash]

/-! ### A firmware reset (R514) -/

/-- The time of a firmware reset is noted, and no core's restart remembered. -/
def State.noteFirmware (s : State) : State := { s with firmwareAt := some s.now, firstRestart := [] }

theorem State.noteFirmware_eff {W : Nat} {s₀ s : State} (hW : Sub 0xC000000000000000000 W) (h : Eff W s₀ s) : Eff W s₀ s.noteFirmware := by
  refine h.trans ?_
  constructor <;> first | exact fun _ => rfl | exact fun e => hW.no rfl e

/-- The state that a firmware reset leaves: all cores away, the counter advanced, and the cause in the journal. -/
def State.firmwareDone (s : State) (why core : Nat) : State := s.allAway.noteFirmware.advanceCounter.journal 0x07 why core 0

section
variable {s : State} (why core : Nat) (hmain : s.mainOn = true) (hphase : s.aon.phase ≠ .powerdown)
include hmain hphase

theorem State.firmwareReset_first (h : ∀ x, s.firmwareAt = some x → x + 10000000 ≤ s.now) :
    s.firmwareReset why core = s.firmwareDone why core := by
  rw [State.firmwareReset, if_neg (by simp [hmain, hphase]), if_neg]
  · rfl
  · split
    · next x hx => exact fun e => Nat.not_lt_of_le (h x hx) (of_decide_eq_true e)
    · exact Bool.false_ne_true

/-- One less than 10 s after another is a system reset. -/
theorem State.firmwareReset_again {x : Nat} (hx : s.firmwareAt = some x) (h : s.now < x + 10000000) :
    s.firmwareReset why core = s.systemReset 3 := by
  rw [State.firmwareReset, if_neg (by simp [hmain, hphase]), if_pos]
  rw [hx]
  exact decide_eq_true h

end

section
variable (s : State) (why core : Nat)

/-- The counter and the journal change registers, the always-on domain and the flash alone. -/
theorem State.firmwareDone_after : Eff 0x600000000000000008 s.allAway.noteFirmware (s.firmwareDone why core) :=
  State.journal_eff ⟨rfl⟩ (State.advanceCounter_eff ⟨rfl⟩ .refl)

theorem State.noteFirmware_allAway_eff : Eff 0x1C4801F0080000000008 s s.allAway.noteFirmware :=
  State.noteFirmware_eff ⟨rfl⟩ (State.allAway_eff ⟨rfl⟩ .refl)

theorem State.isAway_firmwareDone {k : Nat} (hk : k < 6) : IsAway (s.firmwareDone why core) k := by
  obtain ⟨hlisted, hshown⟩ := s.isAway_allAway hk
  obtain ⟨-, habove, hapart⟩ := coreStat_apart k hk
  simp only [List.mem_cons, List.not_mem_nil, or_false, not_or] at hapart
  obtain ⟨-, -, -, hincarn, hboot⟩ := hapart
  have noted : Eff 0xC000000000000000000 s.allAway s.allAway.noteFirmware := State.noteFirmware_eff Sub.rfl .refl
  have hregs : s.allAway.noteFirmware.reg (coreStat k) = s.allAway.reg (coreStat k) := State.reg_of_regs (noted.regs rfl) _
  refine ⟨?_, ?_⟩
  · rw [(s.firmwareDone_after why core).restarting rfl, noted.restarting rfl]
    exact hlisted
  · rw [State.firmwareDone, State.bit_of_reg (State.reg_journal _ _ _ _ _ habove), State.bit,
      State.fld_advanceCounter _ habove hincarn (.inl hboot), State.fld_of_reg hregs]
    exact hshown

/-- Slices, ticks, streams and T0 are as before. -/
theorem State.firmwareDone_kept : (s.firmwareDone why core).firmwareAt = some s.now ∧ (s.firmwareDone why core).engs = s.engs ∧
    (s.firmwareDone why core).tick = s.tick ∧ (s.firmwareDone why core).streams = s.streams ∧ (s.firmwareDone why core).t0 = s.t0 := by
  have before := s.noteFirmware_allAway_eff
  have after := s.firmwareDone_after why core
  refine ⟨?_, (after.engs rfl).trans (before.engs rfl), (after.tick rfl).trans (before.tick rfl),
    (after.streams rfl).trans (before.streams rfl), (after.t0 rfl).trans (before.t0 rfl)⟩
  rw [after.firmwareAt rfl, State.noteFirmware, (State.allAway_eff (W := 0x104801F0080000000008) Sub.rfl .refl).now rfl]

theorem State.newest_firmwareDone (h : s.aon.running = true) :
    (s.firmwareDone why core).newest.map (fun e => (e.code, e.arg1, e.arg2)) = some (7, why, core) := by
  have hrun : s.allAway.noteFirmware.advanceCounter.aon.running = true := by
    rw [State.advanceCounter_running, s.noteFirmware_allAway_eff.aon rfl, h]
  rw [State.firmwareDone, State.newest_journal _ 0x07 why core 0 hrun]
  rfl

/-- Where the counter lies below its floor by more than 1, it advances by 1, and gives the incarnation. -/
theorem State.counter_firmwareDone (hmono : s.store.mono ≠ 0) (hfloor : s.store.mono + 1 < s.floor) :
    (s.firmwareDone why core).store.mono = s.store.mono + 1 ∧
    (s.firmwareDone why core).reg Reg.GDN_INCARN = BitVec.ofNat 32 (s.store.mono + 1) := by
  have hstore : s.allAway.noteFirmware.store = s.store := State.store_of_aon (s.noteFirmware_allAway_eff.aon rfl)
  have hflash : s.allAway.noteFirmware.nv.flash = s.nv.flash := by
    rw [(State.noteFirmware_eff Sub.rfl .refl).nv rfl, s.allAway_flash]
  have hadvance := s.allAway.noteFirmware.advanceCounter_below (by rwa [hstore]) (by rwa [hstore, State.floor_of_flash hflash])
  rw [hstore] at hadvance
  rw [State.firmwareDone, State.mono_journal, State.reg_journal _ _ _ _ _ (by decide), hadvance, State.store_of_aon (State.setReg_aon _ _ _),
    State.store_putStore]
  exact ⟨rfl, State.reg_setReg_self _ _ _⟩

end

/-! ### The commands of cores -/

section
variable {s : State}

/-- A core's first restart is noted with its time. -/
def State.noteRestart (s : State) (c : Nat) : State := { s with firstRestart := keyPut s.firstRestart c s.now }

theorem exec_controlCoreRestart_first {core : Fin 6} (hup : s.coreUp core = true)
    (h : ∀ x, keyGet s.firstRestart core = some x → x + 1000000 ≤ s.now) :
    exec (.controlCoreRestart core) s = .next ((s.noteRestart core).coreAway core) := by
  rw [exec_controlCoreRestart, execControlCoreRestart, if_neg (by simp [hup]), if_neg]
  · rfl
  · split
    · next x hx => exact fun e => Nat.not_lt_of_le (h x hx) (of_decide_eq_true e)
    · exact Bool.false_ne_true

theorem exec_controlCoreRestart_again {core : Fin 6} {x : Nat} (hup : s.coreUp core = true) (hx : keyGet s.firstRestart core = some x)
    (h : s.now < x + 1000000) : exec (.controlCoreRestart core) s = .next (s.firmwareReset 1 core) := by
  rw [exec_controlCoreRestart, execControlCoreRestart, if_neg (by simp [hup]), if_pos]
  rw [hx]
  exact decide_eq_true h

theorem exec_cc3ReleaseOverrun_up (hup : s.coreUp 3 = true) : exec .cc3ReleaseOverrun s = .next (s.firmwareReset 2 0) := by
  rw [exec_cc3ReleaseOverrun, execCc3ReleaseOverrun, if_pos hup]

theorem exec_coreReturn_away {core : Fin 6} (hmain : s.mainOn = true) (h : core.val ∈ s.restarting) :
    exec (.coreReturn core) s = .next (s.coreBack core) := by
  rw [exec_coreReturn, execCoreReturn, if_pos (by simp [hmain, h])]

end

/-! ### A core returns (Table 11-7) -/

/-- A core's return, as its status shows it. -/
def State.showBack (s : State) (c : Nat) : State := { s with restarting := s.restarting.filter (· != c) }.showCore c true false

/-- CC0's return ends a load whose image has come, and starts a flash operation that was held for it. -/
def State.resumeBoot (s : State) : State :=
  let s := match s.load with
    | some j => if j.imgLen ≤ j.done then s.finishLoad j else s
    | none => s
  match s.nv.goHeld with
  | some hostOk => { s with nv := { s.nv with goHeld := none } }.runUpdate hostOk
  | none => s

theorem State.resumeBoot_idle {s : State} (hload : s.load = none) (hheld : s.nv.goHeld = none) : s.resumeBoot = s := by
  simp [State.resumeBoot, hload, hheld]

/-- CC4's return keeps the cap in effect as the thermal cap where a sensor is hot. -/
def State.resumeCap (s : State) : State :=
  if s.power.hot.isEmpty then s else { s with power := { s.power with thermalCap := some (s.fld Reg.PWR_CAPEFF 0 16) } }

/-- CC5's return lets a ramp that is down end. -/
def State.resumeRamp (s : State) : State := { s with audio := { s.audio with rampBack := s.audio.rampTick.isSome } }

theorem State.coreBack_eq (s : State) (c : Nat) : s.coreBack c =
    if c = 0 then (s.showBack c).resumeBoot
    else if c = 1 then (s.showBack c).endWaiting
    else if c = 4 then ((s.showBack c).resumeCap.setBit Reg.PWR_STAT 17 false).showCap
    else if c = 5 then (s.showBack c).resumeRamp
    else s.showBack c := rfl

theorem State.reg_resumeCap (s : State) (a : Nat) : s.resumeCap.reg a = s.reg a := by
  unfold State.resumeCap
  split <;> rfl

section
variable (s : State) {c k : Nat} (h0 : c = 0 → s.load = none ∧ s.nv.goHeld = none)
include h0

/-- What follows a core's return, where no load and no flash operation waits for CC0, leaves the status of every core. -/
theorem State.reg_coreBack_stat (hk : k < 6) : (s.coreBack c).reg (coreStat k) = (s.showBack c).reg (coreStat k) := by
  obtain ⟨-, -, hapart⟩ := coreStat_apart k hk
  simp only [List.mem_cons, List.not_mem_nil, or_false, not_or] at hapart
  obtain ⟨hpwr, hcap, -, -, -⟩ := hapart
  rw [s.coreBack_eq]
  split
  · next e =>
    obtain ⟨hload, hheld⟩ := h0 e
    rw [State.resumeBoot_idle (s := s.showBack c) hload hheld]
  split
  · exact State.reg_of_regs ((State.endWaiting_eff Sub.rfl .refl).regs rfl) _
  split
  · rw [State.reg_showCap _ hcap, State.reg_setBit_apart _ _ _ hpwr, State.reg_resumeCap]
  split <;> rfl

/-- It leaves the list of cores that are away as the return itself makes it. -/
theorem State.coreBack_restarting : (s.coreBack c).restarting = s.restarting.filter (· != c) := by
  have hshow : (s.showBack c).restarting = s.restarting.filter (· != c) := rfl
  rw [s.coreBack_eq, ← hshow]
  split
  · next e =>
    obtain ⟨hload, hheld⟩ := h0 e
    rw [State.resumeBoot_idle (s := s.showBack c) hload hheld]
  split
  · exact (State.endWaiting_eff Sub.rfl .refl).restarting rfl
  split
  · unfold State.resumeCap
    split <;> rfl
  split <;> rfl

end

/-- With CC4 back its absence shows no more. -/
theorem State.bit_coreBack_absent (s : State) : (s.coreBack 4).bit Reg.PWR_STAT 17 = false := by
  rw [s.coreBack_eq, if_neg (by decide), if_neg (by decide), if_pos rfl, State.bit_of_reg (State.reg_showCap _ (by decide)),
    State.bit_setBit _ _ _ _ (by decide)]

/-- Settles O50: a restart and a return are one core's status with what follows from it; a firmware reset is the six absences, the advance
of the counter and the journal, and one that comes too soon is a system reset. -/
theorem controlCoresRestartAndReturn : Obligations.ControlCoresRestartAndReturn := by
  intro s hrun
  refine ⟨fun core hup hfirst => ?restart, fun c why core hc => ?firmware, fun core hmain haway hidle => ?back⟩
  case restart =>
    refine ⟨_, exec_controlCoreRestart_first hup hfirst, ?_⟩
    have haway : core.val ∈ ((s.noteRestart core).coreAway core).restarting := by
      rw [State.coreAway_restarting]
      exact mem_addMember.2 (.inl rfl)
    refine ⟨haway, State.coreUp_away haway, State.bit_coreAway_run _ core.isLt, State.bit_coreAway_away _ core.isLt,
      State.fld_coreAway_count _ core.isLt, State.coreAway_logSeq _ _, fun e => ?_, ?_, ?_, ?_⟩
    · subst e
      exact State.bit_coreAway_absent _
    · exact (State.coreAway_eff Sub.rfl .refl).engs rfl
    · exact (State.coreAway_eff Sub.rfl .refl).tick rfl
    · exact (State.coreAway_eff Sub.rfl .refl).streams rfl
  case firmware =>
    have hask : exec c s = .next (s.firmwareReset why core) ∧ s.mainOn = true ∧ s.aon.phase ≠ .powerdown := by
      rcases hc with ⟨k, rfl, rfl, rfl, hup, x, hx, hlt⟩ | ⟨rfl, rfl, rfl, hup⟩ | ⟨rfl, rfl, rfl, hon⟩ | ⟨rfl, rfl, rfl, hon⟩
      · exact ⟨exec_controlCoreRestart_again hup hx hlt, State.mainOn_of_coreUp hup⟩
      · exact ⟨exec_cc3ReleaseOverrun_up hup, State.mainOn_of_coreUp hup⟩
      · exact ⟨rfl, hon⟩
      · exact ⟨rfl, hon⟩
    obtain ⟨hexec, hmain, hphase⟩ := hask
    refine ⟨fun hfirst => ⟨_, hexec, ?_⟩, fun x hx hsoon => ⟨_, hexec, ?_⟩⟩
    · rw [State.firmwareReset_first why core hmain hphase hfirst]
      obtain ⟨hat, hengs, htick, hstreams, ht0⟩ := s.firmwareDone_kept why core
      refine ⟨fun k hk => ?_, hat, hengs, htick, hstreams, ht0, s.newest_firmwareDone why core hrun, s.counter_firmwareDone why core⟩
      obtain ⟨hlisted, hshown⟩ := s.isAway_firmwareDone why core hk
      exact ⟨hlisted, hshown⟩
    · rw [State.firmwareReset_again why core hmain hphase hx hsoon]
      exact s.systemReset_facts 3 hrun hmain hphase
  case back =>
    have h0 : core.val = 0 → s.load = none ∧ s.nv.goHeld = none := fun e => hidle (Fin.ext e)
    have hstat := s.reg_coreBack_stat h0 core.isLt
    refine ⟨_, exec_coreReturn_away hmain haway, ?_, ?_, ?_, fun e => ?_⟩
    · rw [s.coreBack_restarting h0]
      simp
    · exact (State.bit_of_reg hstat 0).trans (State.bit_showCore_run _ _ _ _)
    · exact (State.bit_of_reg hstat 1).trans (State.bit_showCore_away _ _ _ _)
    · subst e
      exact s.bit_coreBack_absent

end Sys2Proof.Machine
end

section
/-!
PROOFS. The Gydan ports: their registers, and what the operations on a port and its link change (R394, R399 to R407).
-/
namespace Sys2Proof.Machine

/-! ### A port after an update -/

theorem State.port_of_ports {s t : State} (h : t.ports = s.ports) (k : Nat) : t.port k = s.port k := by unfold State.port; rw [h]

theorem State.port_updPort (s : State) {k : Nat} (f : Port → Port) (h : k < s.ports.length) : (s.updPort k f).port k = f (s.port k) := by
  simp [State.port, State.updPort, h]

@[simp] theorem State.length_updPort (s : State) (k : Nat) (f : Port → Port) : (s.updPort k f).ports.length = s.ports.length := by
  simp [State.updPort]

theorem State.updPort_port (s : State) (k : Nat) : (s.updPort k fun _ => s.port k) = s := by
  have hset : s.ports.set k (s.port k) = s.ports := by
    unfold State.port
    by_cases h : k < s.ports.length
    · simp [h]
    · rw [List.set_eq_of_length_le (Nat.le_of_not_lt h)]
  unfold State.updPort
  rw [hset]

/-! ### The registers of a port -/

theorem gdnReg_ne {r r' : Nat} (k : Nat) (h : r ≠ r') : gdnReg r k ≠ gdnReg r' k := by
  unfold gdnReg
  omega

theorem gdnReg_ne_stook {r k : Nat} (hr : r < 0x0F2000) (hk : k < 3) : gdnReg r k ≠ Reg.GDN_STOOK := by
  unfold gdnReg Reg.GDN_STOOK
  omega

theorem gdnReg_le_incarn {r k : Nat} (hr : r < 0x0F2000) (hk : k < 3) : gdnReg r k ≤ Reg.GDN_INCARN := by
  unfold gdnReg Reg.GDN_INCARN
  omega

/-- The GDN blocks lie apart from the registers of the logs and the vectors. -/
theorem eventReg_gdn {a : Nat} (hlo : Reg.GDN_CTRL ≤ a) (hhi : a ≤ Reg.GDN_INCARN) : eventReg a = false := by
  simp only [Reg.GDN_CTRL, Reg.GDN_INCARN] at hlo hhi
  simp only [eventReg, inRange, Bool.or_eq_false_iff, Bool.and_eq_false_iff, decide_eq_false_iff_not]
  simp only [Reg.ERRLOG_STAT, Reg.ERRLOG_HEAD, Reg.ERRLOG_VHEAD, Reg.ERRLOG_ECNT, Reg.ERRLOG_VCNT, Reg.ERRLOG_E, Reg.ERRLOG_V, Reg.HSP_INTPEND,
    Reg.HOST_MSIX_PBA]
  omega

theorem eventReg_gdnReg {r k : Nat} (hlo : Reg.GDN_CTRL ≤ r) (hhi : r < 0x0F2000) (hk : k < 3) : eventReg (gdnReg r k) = false :=
  eventReg_gdn (hlo.trans (Nat.le_add_right _ _)) (gdnReg_le_incarn hhi hk)

/-! ### What is read of the registers alone -/

theorem State.linkState_of_reg {s t : State} {k : Nat} (h : t.reg (gdnReg Reg.GDN_STAT k) = s.reg (gdnReg Reg.GDN_STAT k)) :
    t.linkState k = s.linkState k := State.fld_of_reg h _ _

theorem State.linkUp_of_reg {s t : State} {k : Nat} (h : t.reg (gdnReg Reg.GDN_STAT k) = s.reg (gdnReg Reg.GDN_STAT k)) :
    t.linkUp k = s.linkUp k := by
  unfold State.linkUp
  rw [State.linkState_of_reg h]

theorem State.linkUp_iff (s : State) (k : Nat) : s.linkUp k = true ↔ s.linkState k = 4 := decide_eq_true_iff

theorem State.chip_of_reg {s t : State} (h : t.reg Reg.GDN_STOOK = s.reg Reg.GDN_STOOK) : t.chip = s.chip := State.fld_of_reg h _ _

theorem State.chipOn_of_chip {s t : State} (h : t.chip = s.chip) (k : Nat) : t.chipOn k = s.chipOn k := by
  unfold State.chipOn
  rw [h]

theorem State.portTo_of_chip {s t : State} (h : t.chip = s.chip) (c : Nat) : t.portTo c = s.portTo c := by
  unfold State.portTo
  rw [h]

theorem State.live_of_reg {s t : State} (h : t.reg Reg.GDN_STOOK = s.reg Reg.GDN_STOOK) (c : Nat) : t.live c = s.live c := by
  unfold State.live
  rw [State.chip_of_reg h, State.bit_of_reg h]

theorem State.chip_lt (s : State) : s.chip < 4 := wordField_lt _ _ 2

theorem State.chipOn_lt (s : State) (k : Nat) : s.chipOn k < 4 := Nat.mod_lt _ (by decide)

/-- No port leads to this chip itself (R393). -/
theorem State.chipOn_ne_chip (s : State) {k : Nat} (hk : k < 3) : s.chipOn k ≠ s.chip := by
  have := s.chip_lt
  unfold State.chipOn
  omega

/-! ### A port's state (Table 13-5) -/

@[simp] theorem State.setLink_ports (s : State) (k st : Nat) : (s.setLink k st).ports = s.ports := rfl
@[simp] theorem State.setLink_logSeq (s : State) (k st : Nat) : (s.setLink k st).logSeq = s.logSeq := rfl

theorem State.reg_setLink_apart (s : State) {k a : Nat} (st : Nat) (hstat : a ≠ gdnReg Reg.GDN_STAT k) (hstook : a ≠ Reg.GDN_STOOK) :
    (s.setLink k st).reg a = s.reg a :=
  (State.reg_setBit_apart _ _ _ hstook).trans (State.reg_setFld_apart _ _ _ _ hstat)

section
variable (s : State) {k : Nat} (hk : k < 3)
include hk

theorem State.reg_setLink_stat (st : Nat) : (s.setLink k st).reg (gdnReg Reg.GDN_STAT k) =
    (s.setFld (gdnReg Reg.GDN_STAT k) 0 3 st).reg (gdnReg Reg.GDN_STAT k) :=
  State.reg_setBit_apart _ _ _ (gdnReg_ne_stook (by decide) hk)

theorem State.linkState_setLink {st : Nat} (h : st < 8) : (s.setLink k st).linkState k = st :=
  (State.fld_of_reg (s.reg_setLink_stat hk st) 0 3).trans ((State.fld_setFld _ _ _ _ _ (by decide)).trans (Nat.mod_eq_of_lt h))

/-- STATE is the three lowest bits of `GDN_STAT`; the bits above are as before. -/
theorem State.fld_setLink_above (st : Nat) {lo : Nat} (w : Nat) (h : 3 ≤ lo) :
    (s.setLink k st).fld (gdnReg Reg.GDN_STAT k) lo w = s.fld (gdnReg Reg.GDN_STAT k) lo w :=
  (State.fld_of_reg (s.reg_setLink_stat hk st) lo w).trans (State.fld_setFld_apart _ _ _ _ _ _ _ _ (.inr (.inr h)))

theorem State.bit_setLink_above (st : Nat) {i : Nat} (h : 3 ≤ i) :
    (s.setLink k st).bit (gdnReg Reg.GDN_STAT k) i = s.bit (gdnReg Reg.GDN_STAT k) i := by
  unfold State.bit
  rw [s.fld_setLink_above hk st 1 h]

theorem State.chip_setLink (st : Nat) : (s.setLink k st).chip = s.chip :=
  (State.fld_setBit_apart _ _ _ _ _ _ _ (.inr (.inl (Nat.le_add_right_of_le (by decide))))).trans
    (State.fld_setFld_apart _ _ _ _ _ _ _ _ (.inl (gdnReg_ne_stook (by decide) hk).symm))

/-- The peer is a live member while the port is ACTIVE and the peer is not lost (R394). -/
theorem State.live_setLink (st : Nat) : (s.setLink k st).live (s.chipOn k) =
    (decide (st = 4) && !s.bit Reg.GDN_STOOK (8 + s.chipOn k)) := by
  have hstat : (s.setFld (gdnReg Reg.GDN_STAT k) 0 3 st).bit Reg.GDN_STOOK (8 + s.chipOn k) = s.bit Reg.GDN_STOOK (8 + s.chipOn k) :=
    State.bit_setFld_apart _ _ _ _ _ _ _ (.inl (gdnReg_ne_stook (by decide) hk).symm)
  have hbit : (s.setLink k st).bit Reg.GDN_STOOK (4 + s.chipOn k) = (decide (st = 4) && !s.bit Reg.GDN_STOOK (8 + s.chipOn k)) := by
    rw [← hstat]
    exact State.bit_setBit _ _ _ _ (by have := s.chipOn_lt k; omega)
  unfold State.live
  rw [s.chip_setLink hk, hbit]
  simp [s.chipOn_ne_chip hk]

end

/-! ### A retrain (R407) -/

/-- An error is one event. -/
theorem State.logError_logSeq (s : State) (cls sub : Nat) (i : LogInfo) : (s.logError cls sub i).logSeq = (s.logSeq + 1) % 2 ^ 32 :=
  State.logEvent_logSeq s false cls sub i

/-- What a retrain shows: the flit that asks the peer for it, RETRAIN, the count and the event. -/
def State.leaveActive (s : State) (k : Nat) : State :=
  (((s.emit (.flit k 2 0)).setLink k 5).addSat (gdnReg Reg.GDN_RETRAINCNT k) 0 32 1).logError 7 1 { source := k }

/-- A port whose training starts again at `now` for a retrain: its buffers, counts and credits are kept. -/
def Port.retrained (now : Nat) (p : Port) : Port := { p with step := .lock, attempts := 0, retraining := true, leftActive := now }

theorem State.retrain_down {s : State} {k : Nat} (h : s.linkUp k = false) : s.retrain k = s := by
  unfold State.retrain
  rw [if_pos (by simp [h])]

theorem State.retrain_up {s : State} {k : Nat} (h : s.linkUp k = true) :
    s.retrain k = (s.leaveActive k).updPort k (Port.retrained (s.leaveActive k).now) := by
  unfold State.retrain
  rw [if_neg (by simp [h])]
  rfl

theorem State.leaveActive_ports (s : State) (k : Nat) : (s.leaveActive k).ports = s.ports := State.logError_ports _ _ _ _

section
variable {s : State} {k : Nat}

theorem State.retrain_logSeq (h : s.linkUp k = true) : (s.retrain k).logSeq = (s.logSeq + 1) % 2 ^ 32 := by
  rw [State.retrain_up h]
  exact State.logError_logSeq _ _ _ _

theorem State.port_retrain (h : s.linkUp k = true) (hlen : k < s.ports.length) :
    (s.retrain k).port k = (s.port k).retrained (s.leaveActive k).now := by
  have hports := s.leaveActive_ports k
  rw [State.retrain_up h, State.port_updPort _ _ (by rwa [hports]), State.port_of_ports hports]

theorem State.reg_retrain_apart {a : Nat} (hev : eventReg a = false) (hstat : a ≠ gdnReg Reg.GDN_STAT k) (hstook : a ≠ Reg.GDN_STOOK)
    (hcnt : a ≠ gdnReg Reg.GDN_RETRAINCNT k) : (s.retrain k).reg a = s.reg a := by
  cases h : s.linkUp k with
  | false => rw [State.retrain_down h]
  | true =>
    rw [State.retrain_up h, State.reg_updPort]
    unfold State.leaveActive
    rw [State.reg_logError _ _ _ _ hev]
    exact (State.reg_setFld_apart _ _ _ _ hcnt).trans (State.reg_setLink_apart _ _ hstat hstook)

/-- The registers that show the link and its members are those of the change to RETRAIN. -/
theorem State.reg_retrain_link (h : s.linkUp k = true) {a : Nat} (hlo : Reg.GDN_CTRL ≤ a) (hhi : a ≤ Reg.GDN_INCARN)
    (hcnt : a ≠ gdnReg Reg.GDN_RETRAINCNT k) : (s.retrain k).reg a = (s.setLink k 5).reg a := by
  rw [State.retrain_up h, State.reg_updPort]
  unfold State.leaveActive
  rw [State.reg_logError _ _ _ _ (eventReg_gdn hlo hhi)]
  exact State.reg_setFld_apart _ _ _ _ hcnt

variable (hk : k < 3) (h : s.linkUp k = true)
include hk h

theorem State.linkState_retrain : (s.retrain k).linkState k = 5 :=
  (State.linkState_of_reg (State.reg_retrain_link h (Nat.le_add_right_of_le (by decide)) (gdnReg_le_incarn (by decide) hk)
    (gdnReg_ne k (by decide)))).trans (s.linkState_setLink hk (by decide))

theorem State.live_retrain : (s.retrain k).live (s.chipOn k) = false :=
  (State.live_of_reg (State.reg_retrain_link h (by decide) (by decide) (gdnReg_ne_stook (by decide) hk).symm) _).trans
    ((s.live_setLink hk 5).trans rfl)

theorem State.fld_retrain_count : (s.retrain k).fld (gdnReg Reg.GDN_RETRAINCNT k) 0 32 =
    min (s.fld (gdnReg Reg.GDN_RETRAINCNT k) 0 32 + 1) (2 ^ 32 - 1) := by
  have hcnt : ((s.emit (.flit k 2 0)).setLink k 5).reg (gdnReg Reg.GDN_RETRAINCNT k) = s.reg (gdnReg Reg.GDN_RETRAINCNT k) :=
    State.reg_setLink_apart _ _ (gdnReg_ne k (by decide)) (gdnReg_ne_stook (by decide) hk)
  rw [State.retrain_up h, State.fld_updPort]
  unfold State.leaveActive
  rw [State.fld_logError _ _ _ _ _ _ (eventReg_gdnReg (by decide) (by decide) hk), State.fld_addSat _ _ _ _ _ (by decide),
    State.fld_of_reg hcnt]

end

/-- A retrain just after a register of the port itself has changed, neither its status nor its count of retrains: the change stands, and the rest
is the retrain of the port as it was. -/
theorem State.retrain_after {s u : State} {k r : Nat} (hk : k < 3) (hup : s.linkUp k = true) (hlo : Reg.GDN_CTRL ≤ r) (hhi : r < 0x0F2000)
    (hstat : r ≠ Reg.GDN_STAT) (hcnt : r ≠ Reg.GDN_RETRAINCNT) (hreg : ∀ a, a ≠ gdnReg r k → u.reg a = s.reg a) :
    u.linkUp k = true ∧ (u.retrain k).reg (gdnReg r k) = u.reg (gdnReg r k) ∧ (u.retrain k).linkState k = 5 ∧
      (u.retrain k).fld (gdnReg Reg.GDN_RETRAINCNT k) 0 32 = min (s.fld (gdnReg Reg.GDN_RETRAINCNT k) 0 32 + 1) (2 ^ 32 - 1) ∧
      (u.retrain k).live (s.chipOn k) = false := by
  have hup' : u.linkUp k = true := (State.linkUp_of_reg (hreg _ (gdnReg_ne k hstat.symm))).trans hup
  have hchip : u.chipOn k = s.chipOn k := State.chipOn_of_chip (State.chip_of_reg (hreg _ (gdnReg_ne_stook hhi hk).symm)) k
  refine ⟨hup', State.reg_retrain_apart (eventReg_gdnReg hlo hhi hk) (gdnReg_ne k hstat) (gdnReg_ne_stook hhi hk) (gdnReg_ne k hcnt),
    State.linkState_retrain hk hup', ?_, hchip ▸ State.live_retrain hk hup'⟩
  rw [State.fld_retrain_count hk hup', State.fld_of_reg (hreg _ (gdnReg_ne k hcnt.symm))]

/-! ### A violation of a peer (R422) -/

@[simp] theorem State.peerViolation_ports (s : State) (k sub : Nat) : (s.peerViolation k sub).ports = s.ports :=
  (State.peerViolation_eff Sub.rfl .refl).ports rfl

theorem State.peerViolation_logSeq (s : State) (k sub : Nat) : (s.peerViolation k sub).logSeq = (s.logSeq + 1) % 2 ^ 32 := by
  unfold State.peerViolation
  rw [State.raise_logSeq, State.logViolation_logSeq]

/-- Of the GDN registers a violation sets bit 11 of the port's status alone. -/
theorem State.reg_peerViolation (s : State) {k a : Nat} (sub : Nat) (hlo : Reg.GDN_CTRL ≤ a) (hhi : a ≤ Reg.GDN_INCARN)
    (ha : a ≠ gdnReg Reg.GDN_STAT k) : (s.peerViolation k sub).reg a = s.reg a := by
  unfold State.peerViolation
  rw [State.reg_raise _ _ _ _ (eventReg_gdn hlo hhi) ha, State.reg_logViolation _ _ _ _ (eventReg_gdn hlo hhi)]

section
variable (s : State) {k : Nat} (hk : k < 3)
include hk

theorem State.bit_peerViolation (sub : Nat) : (s.peerViolation k sub).bit (gdnReg Reg.GDN_STAT k) 11 = true :=
  State.bit_raise _ _ _ _ (eventReg_gdnReg (by decide) (by decide) hk) (by decide)

theorem State.fld_peerViolation_stat (sub : Nat) {lo w : Nat} (h : lo + w ≤ 11) :
    (s.peerViolation k sub).fld (gdnReg Reg.GDN_STAT k) lo w = s.fld (gdnReg Reg.GDN_STAT k) lo w := by
  have hev : eventReg (gdnReg Reg.GDN_STAT k) = false := eventReg_gdnReg (by decide) (by decide) hk
  unfold State.peerViolation
  rw [State.fld_raise _ _ _ _ _ _ hev (.inr (.inl h)), State.fld_logViolation _ _ _ _ _ _ hev]

theorem State.bit_peerViolation_stat (sub : Nat) {i : Nat} (h : i < 11) :
    (s.peerViolation k sub).bit (gdnReg Reg.GDN_STAT k) i = s.bit (gdnReg Reg.GDN_STAT k) i := by
  unfold State.bit
  rw [s.fld_peerViolation_stat hk sub (by omega)]

end

/-! ### Sending (R403, R404) -/

/-- With no message waiting and none being sent, nothing is sent. -/
theorem Port.pump_idle {p : Port} (hq : p.txQueue = []) (hs : p.sending = none) (fuel : Nat) : p.pump fuel = (0, p) := by
  have hpick : p.pickClass = none := by simp [Port.pickClass, hq]
  cases fuel with
  | zero => rfl
  | succ n => simp [Port.pump, hs, hpick]

theorem State.pumpPort_idle {s : State} {k : Nat} (hq : (s.port k).txQueue = []) (hs : (s.port k).sending = none) : s.pumpPort k = s := by
  unfold State.pumpPort
  split
  · rfl
  · rw [Port.pump_idle hq hs]
    exact s.updPort_port k

/-- Sending tells nothing new of the peer. -/
theorem Port.pump_peer (fuel : Nat) (p : Port) : (p.pump fuel).2.peerVariant = p.peerVariant ∧ (p.pump fuel).2.peerIncarn = p.peerIncarn := by
  induction fuel generalizing p with
  | zero => exact ⟨rfl, rfl⟩
  | succ n ih =>
    unfold Port.pump
    split
    · split
      · exact ih _
      · split
        · exact ih _
        · exact ⟨rfl, rfl⟩
    · split
      · exact ⟨rfl, rfl⟩
      · split
        · exact ih _
        · exact ⟨rfl, rfl⟩

theorem State.pumpPort_peer (s : State) {k : Nat} (h : k < s.ports.length) :
    ((s.pumpPort k).port k).peerVariant = (s.port k).peerVariant ∧ ((s.pumpPort k).port k).peerIncarn = (s.port k).peerIncarn := by
  unfold State.pumpPort
  split
  · exact ⟨rfl, rfl⟩
  · dsimp only
    rw [State.port_of_ports ((State.add64_eff Sub.rfl .refl).ports rfl), State.port_updPort _ _ h]
    exact Port.pump_peer _ _

theorem State.reg_add64_apart (s : State) {lo a : Nat} (n : Nat) (hlo : a ≠ lo) (hhi : a ≠ lo + 4) : (s.add64 lo n).reg a = s.reg a := by
  unfold State.add64
  split
  · rfl
  · exact (State.reg_setReg_apart _ _ hhi).trans (State.reg_setReg_apart _ _ hlo)

theorem State.reg_pumpPort_apart (s : State) {k a : Nat} (hlo : a ≠ gdnReg Reg.GDN_TXFLITS_LO k) (hhi : a ≠ gdnReg Reg.GDN_TXFLITS_HI k) :
    (s.pumpPort k).reg a = s.reg a := by
  unfold State.pumpPort
  split
  · rfl
  · refine State.reg_add64_apart _ _ hlo ?_
    unfold gdnReg at hhi ⊢
    simp only [Reg.GDN_TXFLITS_LO, Reg.GDN_TXFLITS_HI] at hhi ⊢
    omega

/-! ### Messages -/

/-- A message leaves for the port that leads to its chip. -/
theorem State.peerMsg_sent (s : State) (chip cls opc : Nat) (payload : List Nat) (bytes : Nat) :
    (s.peerMsg chip cls opc payload bytes).sent = .gydan (s.portTo chip) opc chip payload :: s.sent :=
  (State.pumpPort_eff Sub.rfl .refl).sent rfl

/-- Over an ACTIVE port a message is taken once its flits are freed. -/
theorem State.deliver_up {s : State} {k : Nat} (hup : s.linkUp k = true) (hon : s.mainOn = true) (cls bytes : Nat) (f : State → State) :
    s.deliver k cls bytes f = f (s.freeFlits k cls bytes) := by
  unfold State.deliver
  rw [if_pos (by simp [hup, hon])]

end Sys2Proof.Machine
end

section
/-!
PROOFS. Migration: ASK, ANSWER and the time limit on an ANSWER (R414).
-/
namespace Sys2Proof.Machine

/-! ### ASK -/

/-- A chip that asks for a stream again gives up the grants for it that no WRITE has used. -/
def State.dropUnused (s : State) (c : Nat) (a : AskBody) : State :=
  { s with grants := s.grants.filter fun g => !(g.chip = c && g.sc = a.sc.val && g.home = a.home.val && !g.used) }

theorem State.dropUnused_nil {s : State} (h : s.grants = []) (c : Nat) (a : AskBody) : s.dropUnused c a = s := by
  unfold State.dropUnused
  rw [h, List.filter_nil, ← h]

/-- The ANSWER to an ASK: whether it refuses, and its DETAIL or the base that is granted. -/
def State.answerAsk (s : State) (c : Nat) (a : AskBody) (refused v : Nat) : State := s.peerMsg c 1 0x90 [a.sc.val, refused, v] 16

theorem State.answerAsk_sent (s : State) (c : Nat) (a : AskBody) (refused v : Nat) :
    (s.answerAsk c a refused v).sent = .gydan (s.portTo c) 0x90 c [a.sc.val, refused, v] :: s.sent := State.peerMsg_sent _ _ _ _ _ _

theorem State.answerAsk_grants (s : State) (c : Nat) (a : AskBody) (refused v : Nat) : (s.answerAsk c a refused v).grants = s.grants :=
  (State.peerMsg_eff Sub.rfl .refl).grants rfl

/-- The grant that an ASK of a chip takes. -/
def askedGrant (a : AskBody) (c base row : Nat) : Grant := ⟨c, a.sc.val, a.home.val, base, a.size, row, a.size, 0, false, false⟩

theorem exec_ask_up {s : State} {port : Fin 3} (hup : s.linkUp port = true) (hon : s.mainOn = true) (a : AskBody) :
    exec (.ask port a) s = .next ((s.freeFlits port 1 32).takeAsk port a) := by
  rw [exec_ask, execAsk, State.deliver_up hup hon]

section
variable {s : State} (k : Nat) {a : AskBody}

theorem State.takeAsk_otherPlan (h : ∀ p, s.active = some p → p.hdr.planId ≠ a.planId) :
    s.takeAsk k a = (s.dropUnused (s.chipOn k) a).answerAsk (s.chipOn k) a 1 2 := by
  unfold State.takeAsk
  dsimp only
  rw [← State.dropUnused]
  cases hp : s.active with
  | none => rfl
  | some p =>
    dsimp only
    rw [if_pos (by simpa using h p hp)]
    rfl

variable {p : Plan} (hp : s.active = some p) (hid : p.hdr.planId = a.planId) (hg : s.grants = [])
include hp hid hg

theorem State.takeAsk_noRow (hrow : s.grantRow a = none) : s.takeAsk k a = s.answerAsk (s.chipOn k) a 1 3 := by
  unfold State.takeAsk
  dsimp only
  rw [← State.dropUnused, State.dropUnused_nil hg, hp]
  dsimp only
  rw [if_neg (by simp [hid]), hrow]
  rfl

/-- With a row and room, the only thing left to find is a range. -/
theorem State.takeAsk_row {r : Nat} (hrow : s.grantRow a = some r) (hsize : a.size ≤ s.t1Unreserved) :
    s.takeAsk k a = match s.choose .t0 a.size with
      | (none, _) => s
      | (some base, u) => { u with grants := u.grants ++ [askedGrant a (s.chipOn k) base r] }.answerAsk (s.chipOn k) a 0 base := by
  unfold State.takeAsk
  dsimp only
  rw [← State.dropUnused, State.dropUnused_nil hg, hp]
  dsimp only
  rw [if_neg (by simp [hid]), hrow]
  dsimp only
  rw [if_neg (by omega)]
  rfl

theorem State.takeAsk_granted_or_none {r : Nat} (hrow : s.grantRow a = some r) (hsize : a.size ≤ s.t1Unreserved) :
    (∃ base, (s.takeAsk k a).grants = [askedGrant a (s.chipOn k) base r] ∧
      (s.takeAsk k a).sent = .gydan (s.portTo (s.chipOn k)) 0x90 (s.chipOn k) [a.sc.val, 0, base] :: s.sent) ∨ s.takeAsk k a = s := by
  rw [State.takeAsk_row k hp hid hg hrow hsize]
  have eff : Eff 0x2 s (s.choose .t0 a.size).2 := State.choose_eff Sub.rfl .refl
  generalize s.choose .t0 a.size = x at eff ⊢
  obtain ⟨_ | base, u⟩ := x
  · exact .inr rfl
  · refine .inl ⟨base, ?_, ?_⟩
    · rw [State.answerAsk_grants, eff.grants rfl, hg]
      rfl
    · have hto : u.portTo (s.chipOn k) = s.portTo (s.chipOn k) :=
        State.portTo_of_chip (State.chip_of_reg (State.reg_of_regs (eff.regs rfl) _)) _
      rw [State.answerAsk_sent, ← hto, ← eff.sent rfl]
      rfl

end

/-! ### ANSWER -/

theorem exec_answer_up {s : State} {port : Fin 3} (hup : s.linkUp port = true) (hon : s.mainOn = true) (sc : Fin 64) (b : AnswerBody) :
    exec (.answer port sc b) s = .next ((s.freeFlits port 1 16).takeAnswer port sc b) := by
  rw [exec_answer, execAnswer, State.deliver_up hup hon]

theorem State.takeAnswer_outside {s : State} (h : s.tick.phase ≠ .fallow) (k sc : Nat) (b : AnswerBody) : s.takeAnswer k sc b = s := by
  unfold State.takeAnswer
  split
  · rfl
  · rw [if_pos (by simp [h])]

theorem State.takeAnswer_refused {s : State} {k sc : Nat} {m : Migration} (hm : s.migrationOf (s.chipOn k) sc = some m)
    (hphase : s.tick.phase = .fallow) (hexp : m.exported = false) (hasked : m.asked = some s.tick.opened) (hdone : s.tick.stepsDone = true)
    (d : Nat) : s.takeAnswer k sc (.refuse d) = (s.dropMigration m.sc).settled m.q m.tag 5 d 0 m.sc := by
  unfold State.takeAnswer
  rw [hm]
  dsimp only
  rw [if_neg (by simp [hphase, hexp, hasked, hdone])]
  rfl

theorem State.settled_queues {s t : State} (h : t.queues = s.queues) (q tag st detail v sc : Nat) :
    (t.settled q tag st detail v sc).queues = (s.settled q tag st detail v sc).queues := by
  simp only [State.settled, State.updQueue_queues, h, State.queue_of_queues h]

theorem State.stream_updStream {s : State} {sc : Nat} {x : Stream} (h : s.stream sc = some x) (f : Stream → Stream) :
    (s.updStream sc f).stream sc = some (f x) := by
  unfold State.updStream
  rw [h]
  exact (keyGet_keyPut _ _).trans (if_pos rfl)

theorem State.dropMigration_migrations (s : State) (sc : Nat) : (s.dropMigration sc).migrations = s.migrations.filter fun m => m.sc != sc :=
  (State.updStream_eff Sub.rfl .refl).migrations rfl

/-! ### ANSWER_TIMEOUT -/

theorem exec_answerTimeout_asked {s : State} {sc : Fin 64} {m : Migration} (hm : m ∈ s.migrations) (hsc : m.sc = sc.val)
    (hexp : m.exported = false) (hasked : m.asked = some s.tick.opened) : exec (.answerTimeout sc) s =
      .next { s.reach (s.tick.opened + 100) with
        migrations := s.migrations.map fun m => if m.sc = sc.val && !m.exported then { m with asked := none } else m } := by
  have hfound : (s.migrations.find? fun m => m.sc = sc.val && !m.exported && m.asked = some s.tick.opened).isSome = true :=
    List.find?_isSome.2 ⟨m, hm, by simp [hsc, hexp, hasked]⟩
  obtain ⟨x, hx⟩ := Option.isSome_iff_exists.1 hfound
  rw [exec_answerTimeout, execAnswerTimeout, hx]
  rfl

/-- Settles O39: an ASK is answered by the first of its checks that fails, else by the choice of a range; a refusing ANSWER drops the
migration and settles its request. -/
theorem migrationIsAskedGrantedOrRefused : Obligations.MigrationIsAskedGrantedOrRefused := by
  refine ⟨fun port a s hup hon => ⟨fun hplan => ?otherPlan, fun p hp hid hg hrow => ?noRow, fun p r hp hid hg hrow hsize => ?row⟩,
    fun port sc d s m hup hon hm hphase hexp hasked hdone => ?refused, fun port sc b s hup hon hphase => ?outside,
    fun sc s m hm hsc hexp hasked => ?timeout⟩
  case otherPlan =>
    refine ⟨_, exec_ask_up hup hon a, ?_⟩
    rw [State.takeAsk_otherPlan port (s := s.freeFlits port 1 32) hplan]
    refine ⟨State.answerAsk_sent _ _ _ _ _, fun g hmem => ?_⟩
    rw [State.answerAsk_grants] at hmem
    exact List.mem_of_mem_filter hmem
  case noRow =>
    refine ⟨_, exec_ask_up hup hon a, ?_⟩
    rw [State.takeAsk_noRow port (s := s.freeFlits port 1 32) hp hid hg hrow]
    exact ⟨State.answerAsk_sent _ _ _ _ _, (State.answerAsk_grants _ _ _ _ _).trans hg⟩
  case row =>
    refine ⟨_, exec_ask_up hup hon a, ?_⟩
    rcases State.takeAsk_granted_or_none port (s := s.freeFlits port 1 32) hp hid hg hrow hsize with granted | same
    · exact .inl granted
    · rw [same]
      exact .inr ⟨hg, rfl⟩
  case refused =>
    refine ⟨_, exec_answer_up hup hon sc _, ?_⟩
    rw [State.takeAnswer_refused (s := s.freeFlits port 1 16) hm hphase hexp hasked hdone]
    have hdrop : ((s.freeFlits port 1 16).dropMigration m.sc).queues = s.queues := (State.dropMigration_eff Sub.rfl .refl).queues rfl
    exact ⟨State.queue_of_queues (State.settled_queues hdrop _ _ _ _ _ _) _, State.dropMigration_migrations _ _,
      fun x hx => State.stream_updStream (by exact hx) _⟩
  case outside =>
    refine ⟨_, exec_answer_up hup hon sc b, ?_⟩
    rw [State.takeAnswer_outside (s := s.freeFlits port 1 16) hphase]
    exact ⟨rfl, rfl, rfl⟩
  case timeout =>
    exact ⟨_, exec_answerTimeout_asked hm hsc hexp hasked, Nat.le_max_right _ _, rfl, rfl⟩

end Sys2Proof.Machine
end

section
/-!
PROOFS. Flits: what is discarded, accepted and acknowledged, and what is sent again (R400 to R403, R407).
-/
namespace Sys2Proof.Machine

theorem State.updPort_updPort (s : State) {k : Nat} (f g : Port → Port) (h : k < s.ports.length) :
    (s.updPort k f).updPort k g = s.updPort k fun p => g (f p) := by
  unfold State.updPort
  simp only [State.port, List.getElem?_set_self h, List.set_set, Option.getD_some]

/-! ### A port's flits -/

/-- The port after the ACK and the CREDIT of a trailer. -/
def Port.trailed (f : Flit) (p : Port) : Port :=
  { p with
    replay := ackedTo f.ack p.replay
    stalls := if (ackedTo f.ack p.replay).length < p.replay.length then 0 else p.stalls
    credits := if f.crClass < 5 then
      p.credits.set f.crClass (p.credits.getD f.crClass 0 + (f.credit % 256 + 256 - p.creditSeen.getD f.crClass 0 % 256) % 256) else p.credits
    creditSeen := if f.crClass < 5 then p.creditSeen.set f.crClass (f.credit % 256) else p.creditSeen }

/-- The port after a trailer that carries no NAK. -/
def Port.acked (f : Flit) (p : Port) : Port := { p.trailed f with nakSeen := none }

/-- The port after a trailer that carries a NAK. -/
def Port.nakked (f : Flit) (p : Port) : Port := { p.trailed f with nakSeen := some f.ack }

/-- The port after the message flit that it expected, without a NAK. -/
def Port.accepted (f : Flit) (p : Port) : Port :=
  { p.acked f with rxNext := (f.seq + 1) % 4096, rxLast := some f.seq, nak := false, rxHeld := p.rxHeld.set f.cls (p.rxHeld.getD f.cls 0 + 1) }

/-- The port after every unacknowledged flit has been sent again. -/
def Port.resend (p : Port) : Port := { p with replay := p.replay.map fun y => { y with resent := y.resent + 1 } }

theorem Port.acked_credits (p : Port) {f : Flit} (hcls : f.crClass < 5) (hcredits : p.credits.length = 5) :
    (p.acked f).credits.getD f.crClass 0 =
      p.credits.getD f.crClass 0 + (f.credit % 256 + 256 - p.creditSeen.getD f.crClass 0 % 256) % 256 := by
  simp [Port.acked, Port.trailed, List.getD_eq_getElem?_getD, hcredits, hcls]

theorem Port.acked_stalls (p : Port) {f : Flit} (h : (ackedTo f.ack p.replay).length < p.replay.length) : (p.acked f).stalls = 0 := if_pos h

theorem Port.accepted_rxHeld (p : Port) {f : Flit} (hcls : f.cls < 5) (hheld : p.rxHeld.length = 5) :
    (p.accepted f).rxHeld.getD f.cls 0 = p.rxHeld.getD f.cls 0 + 1 := by
  simp [Port.accepted, List.getD_eq_getElem?_getD, hheld, hcls]

/-- An ACK frees the flits up to and with the one it names. -/
theorem ackedTo_named {ack : Nat} {a b : List TxFlit} {x : TxFlit} (hx : x.seq = ack) (ha : ∀ y ∈ a, y.seq ≠ ack) :
    ackedTo ack (a ++ x :: b) = b := by
  unfold ackedTo
  rw [if_pos (by simp [hx]), List.dropWhile_append_of_pos (by simpa using ha), List.dropWhile_cons_of_neg (by simp [hx])]
  rfl

/-- An ACK that names none of them frees none. -/
theorem ackedTo_unnamed {ack : Nat} {l : List TxFlit} (h : ∀ y ∈ l, y.seq ≠ ack) : ackedTo ack l = l := by
  unfold ackedTo
  rw [if_neg (by simpa using h)]

/-! ### Trailers and message flits -/

section
variable {s : State} {k : Nat} {f : Flit} (hlen : k < s.ports.length)
include hlen

theorem State.port_discardFlit : (s.discardFlit k).port k = { s.port k with nak := true } := State.port_updPort _ _ hlen

/-- A trailer is its ACK and its CREDIT, which changes where it names a class; then, where it carries a NAK that this ACK has not had yet, every
unacknowledged flit is sent again. -/
theorem State.takeTrailer_eq : s.takeTrailer k f =
    if f.nak then
      if (s.port k).nakSeen = some f.ack then s.updPort k fun p => p.trailed f else (s.updPort k fun p => p.nakked f).resend k
    else s.updPort k fun p => p.acked f := by
  unfold State.takeTrailer
  by_cases hc : f.crClass < 5
  all_goals simp only [hc, if_true, if_false, State.port_updPort _ _ hlen, State.updPort_updPort _ _ _ hlen, Port.acked, Port.nakked, Port.trailed]

omit hlen in
theorem State.takeMessageFlit_unexpected (h : f.seq ≠ (s.port k).rxNext) : s.takeMessageFlit k f = s.discardFlit k := by
  unfold State.takeMessageFlit
  rw [if_pos (by simpa using h)]

theorem State.takeMessageFlit_expected (h : f.seq = (s.port k).rxNext) (hroom : (s.port k).rxHeld.getD f.cls 0 < rxBuffer.getD f.cls 0)
    (hnak : f.nak = false) : s.takeMessageFlit k f = s.updPort k fun p => p.accepted f := by
  unfold State.takeMessageFlit
  dsimp only
  rw [if_neg (by simp [h]), if_neg (by omega), State.takeTrailer_eq hlen, hnak, if_neg (by decide), State.updPort_updPort _ _ _ hlen]
  rfl

/-- While no flit has been sent again three times, sending them again is the count and the flits' own counts. -/
theorem State.resend_again (h : ∀ y ∈ (s.port k).replay, y.resent < 3) :
    s.resend k = (s.addSat (gdnReg Reg.GDN_REPLAYCNT k) 0 32 (s.port k).replay.length).updPort k Port.resend := by
  have hport : ((s.addSat (gdnReg Reg.GDN_REPLAYCNT k) 0 32 (s.port k).replay.length).updPort k Port.resend).port k = (s.port k).resend :=
    State.port_updPort _ _ hlen
  have hfew : ¬ ((s.port k).resend.replay.any fun y => 4 ≤ y.resent) = true := by
    simp only [Port.resend, List.any_map, List.any_eq_true, Function.comp, decide_eq_true_eq, not_exists, not_and]
    intro y hy
    have := h y hy
    omega
  rw [← hport] at hfew
  exact if_neg hfew

theorem State.resend_port (h : ∀ y ∈ (s.port k).replay, y.resent < 3) : (s.resend k).port k = (s.port k).resend := by
  rw [State.resend_again hlen h]
  exact State.port_updPort _ _ hlen

end

theorem State.reg_resend_apart {s : State} {k a : Nat} (hlen : k < s.ports.length) (h : ∀ y ∈ (s.port k).replay, y.resent < 3)
    (ha : a ≠ gdnReg Reg.GDN_REPLAYCNT k) : (s.resend k).reg a = s.reg a := by
  rw [State.resend_again hlen h, State.reg_updPort]
  exact State.reg_setFld_apart _ _ _ _ ha

/-! ### FLIT_RECEIVE -/

section
variable {s : State} {port : Fin 3} {f : Flit} (hon : s.mainOn = true) (hup : s.linkUp port = true)
include hon hup

theorem exec_flitReceive_crc (hcrc : f.crcOk = false) :
    exec (.flitReceive port f) s = .next ((s.addSat (gdnReg Reg.GDN_CRCCNT port) 0 32 1).discardFlit port) := by
  rw [exec_flitReceive, execFlitReceive, if_neg (by simp [hon, hup]), if_pos (by simp [hcrc])]

variable (hcrc : f.crcOk = true)
include hcrc

theorem exec_flitReceive_bad (hbad : badFlit f = true) :
    exec (.flitReceive port f) s = .next ((s.discardFlit port).peerViolation port 1) := by
  rw [exec_flitReceive, execFlitReceive, if_neg (by simp [hon, hup]), if_neg (by simp [hcrc]), if_pos hbad]

variable (hbad : badFlit f = false)
include hbad

theorem exec_flitReceive_retrain (htype : f.ftype = 2) : exec (.flitReceive port f) s = .next (s.retrain port) := by
  rw [exec_flitReceive, execFlitReceive, if_neg (by simp [hon, hup]), if_neg (by simp [hcrc]), if_neg (by simp [hbad]), if_pos htype]

theorem exec_flitReceive_trailer (htype : f.ftype = 0) :
    exec (.flitReceive port f) s = .next ((s.takeTrailer port f).pumpPort port) := by
  rw [exec_flitReceive, execFlitReceive, if_neg (by simp [hon, hup]), if_neg (by simp [hcrc]), if_neg (by simp [hbad]), if_neg (by omega),
    if_pos htype]

theorem exec_flitReceive_message (htype : f.ftype = 1) :
    exec (.flitReceive port f) s = .next ((s.takeMessageFlit port f).pumpPort port) := by
  rw [exec_flitReceive, execFlitReceive, if_neg (by simp [hon, hup]), if_neg (by simp [hcrc]), if_neg (by simp [hbad]), if_neg (by omega),
    if_neg (by omega)]

end

/-- A message flit that is not malformed is of one of the five classes. -/
theorem cls_lt_of_good {f : Flit} (hbad : badFlit f = false) (htype : f.ftype = 1) : f.cls < 5 := by
  by_contra h
  have hcls : 4 < f.cls := by omega
  simp [badFlit, htype, hcls] at hbad

/-! ### The same with nothing to send -/

/-- An update that leaves what is waiting gives a port nothing to send. -/
theorem State.pumpPort_updPort {s : State} {k : Nat} (hlen : k < s.ports.length) {f : Port → Port} (hqueue : (f (s.port k)).txQueue = [])
    (hsending : (f (s.port k)).sending = none) : (s.updPort k f).pumpPort k = s.updPort k f :=
  State.pumpPort_idle (by rw [State.port_updPort _ _ hlen, hqueue]) (by rw [State.port_updPort _ _ hlen, hsending])

section
variable {s : State} {port : Fin 3} {f : Flit} (hon : s.mainOn = true) (hup : s.linkUp port = true) (hlen : port.val < s.ports.length)
  (hqueue : (s.port port).txQueue = []) (hsending : (s.port port).sending = none) (hcrc : f.crcOk = true) (hbad : badFlit f = false)
include hon hup hlen hqueue hsending hcrc hbad

theorem exec_flitReceive_unexpected (htype : f.ftype = 1) (hseq : f.seq ≠ (s.port port).rxNext) :
    exec (.flitReceive port f) s = .next (s.discardFlit port) := by
  rw [exec_flitReceive_message hon hup hcrc hbad htype, State.takeMessageFlit_unexpected hseq, State.discardFlit,
    State.pumpPort_updPort hlen hqueue hsending]

theorem exec_flitReceive_accepted (htype : f.ftype = 1) (hseq : f.seq = (s.port port).rxNext) (hnak : f.nak = false)
    (hroom : (s.port port).rxHeld.getD f.cls 0 < rxBuffer.getD f.cls 0) :
    exec (.flitReceive port f) s = .next (s.updPort port fun p => p.accepted f) := by
  rw [exec_flitReceive_message hon hup hcrc hbad htype, State.takeMessageFlit_expected hlen hseq hroom hnak,
    State.pumpPort_updPort hlen hqueue hsending]

theorem exec_flitReceive_acked (htype : f.ftype = 0) (hnak : f.nak = false) :
    exec (.flitReceive port f) s = .next (s.updPort port fun p => p.acked f) := by
  rw [exec_flitReceive_trailer hon hup hcrc hbad htype, State.takeTrailer_eq hlen, hnak, if_neg (by decide),
    State.pumpPort_updPort hlen hqueue hsending]

theorem exec_flitReceive_nakked (htype : f.ftype = 0) (hnak : f.nak = true) (hseen : (s.port port).nakSeen ≠ some f.ack)
    (hfew : ∀ y ∈ ((s.updPort port fun p => p.nakked f).port port).replay, y.resent < 3) :
    exec (.flitReceive port f) s = .next ((s.updPort port fun p => p.nakked f).resend port) := by
  have hport := State.resend_port (by simpa using hlen) hfew
  rw [State.port_updPort _ _ hlen] at hport
  rw [exec_flitReceive_trailer hon hup hcrc hbad htype, State.takeTrailer_eq hlen, hnak, if_pos rfl, if_neg hseen,
    State.pumpPort_idle (by rw [hport]; exact hqueue) (by rw [hport]; exact hsending)]

end

/-! ### ACK_TIMEOUT -/

/-- One more period without an ACK: every unacknowledged flit is sent again. -/
def State.stall (s : State) (k : Nat) : State := (s.updPort k fun p => { p with stalls := p.stalls + 1 }).resend k

section
variable {s : State} {k : Nat} (hlen : k < s.ports.length) (h : ∀ y ∈ (s.port k).replay, y.resent < 3)
include hlen h

theorem State.port_stall : (s.stall k).port k = { (s.port k).resend with stalls := (s.port k).stalls + 1 } := by
  have hport := State.port_updPort s (fun p => { p with stalls := p.stalls + 1 }) hlen
  unfold State.stall
  rw [State.resend_port (by simpa using hlen) (by rw [hport]; exact h), hport]
  rfl

theorem State.reg_stall_apart {a : Nat} (ha : a ≠ gdnReg Reg.GDN_REPLAYCNT k) : (s.stall k).reg a = s.reg a := by
  have hport := State.port_updPort s (fun p => { p with stalls := p.stalls + 1 }) hlen
  exact State.reg_resend_apart (by simpa using hlen) (by rw [hport]; exact h) ha

end

theorem exec_ackTimeout_due {s : State} {port : Fin 3} (hon : s.mainOn = true) (hup : s.linkUp port = true) (hsent : (s.port port).replay ≠ []) :
    exec (.ackTimeout port) s = .next (if 3 ≤ ((s.stall port).port port).stalls then
      ((s.stall port).retrain port).updPort port fun p => { p with stalls := 0 } else s.stall port) := by
  rw [exec_ackTimeout, execAckTimeout, if_neg (by simp [hon, hup, hsent])]
  rfl

/-- Settles O42: with nothing to send, a flit is an update of the port, with its count, its event or the retrain beside it. -/
theorem flitsAreAcceptedResentAndRetrained : Obligations.FlitsAreAcceptedResentAndRetrained := by
  intro port s hon hup hports hqueue hsending
  have hk : port.val < 3 := port.isLt
  have hlen : port.val < s.ports.length := by omega
  refine ⟨fun f hcrc => ?crc, fun f hcrc hbad => ?bad, fun f hcrc hbad htype hseq => ?unexpected,
    fun f hcrc hbad htype hseq hnak hroom hheld => ?accepted, fun f a b x hcrc hbad htype hnak hcls hreplay hx ha hcredits => ?acked,
    fun f hcrc hbad htype hnak hseen hreplay => ?nakked, fun f hcrc hbad htype => ?retrain,
    fun hsent hfew => ⟨fun hstalls => ?again, fun hstalls => ?third⟩⟩
  case crc =>
    refine ⟨_, exec_flitReceive_crc hon hup hcrc, ?_, State.port_discardFlit hlen, rfl⟩
    exact State.fld_addSat _ _ _ _ _ (by decide)
  case bad =>
    refine ⟨_, exec_flitReceive_bad hon hup hcrc hbad, ?_, State.peerViolation_logSeq _ _ _, State.bit_peerViolation _ hk _⟩
    rw [State.port_of_ports (State.peerViolation_ports _ _ _), State.port_discardFlit hlen]
  case unexpected =>
    exact ⟨_, exec_flitReceive_unexpected hon hup hlen hqueue hsending hcrc hbad htype hseq, State.port_discardFlit hlen, rfl⟩
  case accepted =>
    refine ⟨_, exec_flitReceive_accepted hon hup hlen hqueue hsending hcrc hbad htype hseq hnak hroom, ?_⟩
    rw [State.port_updPort _ _ hlen]
    exact ⟨rfl, rfl, rfl, Port.accepted_rxHeld _ (cls_lt_of_good hbad htype) hheld, rfl⟩
  case acked =>
    have hleft : ackedTo f.ack (s.port port).replay = b := by rw [hreplay, ackedTo_named hx ha]
    have hfewer : (ackedTo f.ack (s.port port).replay).length < (s.port port).replay.length := by
      rw [hleft, hreplay, List.length_append, List.length_cons]
      omega
    refine ⟨_, exec_flitReceive_acked hon hup hlen hqueue hsending hcrc hbad htype hnak, ?_⟩
    rw [State.port_updPort _ _ hlen]
    exact ⟨hleft, Port.acked_stalls _ hfewer, Port.acked_credits _ hcls hcredits, rfl⟩
  case nakked =>
    have hleft : ((s.updPort port fun p => p.nakked f).port port).replay = (s.port port).replay := by
      rw [State.port_updPort _ _ hlen]
      exact ackedTo_unnamed fun y hy => (hreplay y hy).1
    have hfew : ∀ y ∈ ((s.updPort port fun p => p.nakked f).port port).replay, y.resent < 3 := by
      rw [hleft]
      exact fun y hy => (hreplay y hy).2
    have hlen' : port.val < (s.updPort port fun p => p.nakked f).ports.length := by simpa using hlen
    refine ⟨_, exec_flitReceive_nakked hon hup hlen hqueue hsending hcrc hbad htype hnak hseen hfew, ?_, ?_, ?_⟩
    · rw [State.resend_port hlen' hfew, Port.resend, hleft]
    · rw [State.resend_again hlen' hfew, hleft, State.fld_updPort, State.fld_addSat _ _ _ _ _ (by decide)]
      rfl
    · exact (State.linkUp_of_reg (State.reg_resend_apart hlen' hfew (gdnReg_ne port (by decide)))).trans hup
  case retrain =>
    have hport := State.port_retrain hup hlen
    refine ⟨_, exec_flitReceive_retrain hon hup hcrc hbad htype, State.linkState_retrain hk hup, ?_, ?_⟩
    all_goals rw [hport]; rfl
  case again =>
    have hport := State.port_stall hlen hfew
    refine ⟨s.stall port, ?_, ?_, ?_, ?_⟩
    · rw [exec_ackTimeout_due hon hup hsent, hport, if_neg (by dsimp only; omega)]
    · rw [hport]
    · rw [State.linkUp_of_reg (State.reg_stall_apart hlen hfew (gdnReg_ne port (by decide))), hup]
    · rw [hport]
      rfl
  case third =>
    have hup' : (s.stall port).linkUp port = true := by
      rw [State.linkUp_of_reg (State.reg_stall_apart hlen hfew (gdnReg_ne port (by decide))), hup]
    refine ⟨_, by rw [exec_ackTimeout_due hon hup hsent, State.port_stall hlen hfew, if_pos (by dsimp only; omega)], ?_, ?_⟩
    · exact State.linkState_retrain hk hup'
    · rw [State.fld_updPort, State.fld_retrain_count hk hup',
        State.fld_of_reg (State.reg_stall_apart hlen hfew (gdnReg_ne port (by decide)))]

end Sys2Proof.Machine
end

section
/-!
PROOFS. Training: the states of a port from EN to ACTIVE, and what makes it retrain (R394, R405 to R408).
-/
namespace Sys2Proof.Machine

/-! ### The port's control register (Table 13-9) -/

theorem exec_gdnEnable_served {s : State} {i : Iface} (h : s.served i = true) (port : Fin 3) (v : Word) :
    exec (.gdnEnable i port v) s = .next (s.writeGdnCtrl port v) := by
  rw [exec_gdnEnable, execGdnEnable, if_pos h]

theorem exec_gdnRetrain_served {s : State} {i : Iface} (h : s.served i = true) (port : Fin 3) (v : Word) :
    exec (.gdnRetrain i port v) s = .next (s.writeGdnCtrl port (v ||| 2)) := by
  rw [exec_gdnRetrain, execGdnRetrain, if_pos h]

/-- A port whose EN has become 1. -/
def State.enable (s : State) (k : Nat) : State :=
  ((s.setBit (gdnReg Reg.GDN_CTRL k) 0 true).setLink k 1).updPort k fun p => { p with step := .lock }

/-- What is left on a port whose EN has become 0. -/
def Port.disabled (up : Bool) (now : Nat) (p : Port) : Port :=
  { idlePort with peerVariant := p.peerVariant, peerIncarn := p.peerIncarn, leftActive := if up then now else p.leftActive }

/-- A port whose EN has become 0, which `up` says was ACTIVE until `now`. -/
def State.disable (s : State) (k : Nat) (up : Bool) (now : Nat) : State :=
  ((((s.setBit (gdnReg Reg.GDN_CTRL k) 0 false).setLink k 0).setBit (gdnReg Reg.GDN_STAT k) 5 false).setReg (gdnReg Reg.GDN_LANE k) 0).updPort k
    (Port.disabled up now)

section
variable (s : State) {k : Nat} (hk : k < 3)
include hk

theorem State.bit_enable_ctrl : (s.enable k).bit (gdnReg Reg.GDN_CTRL k) 0 = true := by
  unfold State.enable
  rw [State.bit_updPort, State.bit_of_reg (State.reg_setLink_apart _ _ (gdnReg_ne k (by decide)) (gdnReg_ne_stook (by decide) hk)),
    State.bit_setBit _ _ _ _ (by decide)]

theorem State.linkState_enable : (s.enable k).linkState k = 1 :=
  State.linkState_setLink (s.setBit (gdnReg Reg.GDN_CTRL k) 0 true) hk (by decide)

theorem State.bit_disable_ctrl (up : Bool) (now : Nat) : (s.disable k up now).bit (gdnReg Reg.GDN_CTRL k) 0 = false := by
  unfold State.disable
  rw [State.bit_updPort, State.bit_setReg_apart _ _ _ (gdnReg_ne k (by decide)),
    State.bit_setBit_apart _ _ _ _ _ _ (.inl (gdnReg_ne k (by decide))),
    State.bit_of_reg (State.reg_setLink_apart _ _ (gdnReg_ne k (by decide)) (gdnReg_ne_stook (by decide) hk)),
    State.bit_setBit _ _ _ _ (by decide)]

omit hk in
theorem State.reg_disable_lane (up : Bool) (now : Nat) : (s.disable k up now).reg (gdnReg Reg.GDN_LANE k) = 0 := by
  unfold State.disable
  rw [State.reg_updPort, State.reg_setReg_self]

omit hk in
theorem State.bit_disable_peer (up : Bool) (now : Nat) : (s.disable k up now).bit (gdnReg Reg.GDN_STAT k) 5 = false := by
  unfold State.disable
  rw [State.bit_updPort, State.bit_setReg_apart _ _ _ (gdnReg_ne k (by decide)), State.bit_setBit _ _ _ _ (by decide)]

theorem State.linkState_disable (up : Bool) (now : Nat) : (s.disable k up now).linkState k = 0 := by
  unfold State.disable State.linkState
  rw [State.fld_updPort, State.fld_setReg_apart _ _ _ _ (gdnReg_ne k (by decide)),
    State.fld_setBit_apart _ _ _ _ _ _ _ (.inr (.inl (by decide)))]
  exact State.linkState_setLink _ hk (by decide)

theorem State.live_disable (up : Bool) (now : Nat) : (s.disable k up now).live (s.chipOn k) = false := by
  have hstook : (s.disable k up now).reg Reg.GDN_STOOK = ((s.setBit (gdnReg Reg.GDN_CTRL k) 0 false).setLink k 0).reg Reg.GDN_STOOK := by
    unfold State.disable
    rw [State.reg_updPort, State.reg_setReg_apart _ _ (gdnReg_ne_stook (by decide) hk).symm,
      State.reg_setBit_apart _ _ _ (gdnReg_ne_stook (by decide) hk).symm]
  have hchip : (s.setBit (gdnReg Reg.GDN_CTRL k) 0 false).chipOn k = s.chipOn k :=
    State.chipOn_of_chip (State.chip_of_reg (State.reg_setBit_apart _ _ _ (gdnReg_ne_stook (by decide) hk).symm)) k
  rw [State.live_of_reg hstook, ← hchip, State.live_setLink _ hk]
  rfl

end

section
variable {s : State} {k : Nat} (hlen : k < s.ports.length)
include hlen

theorem State.port_enable : (s.enable k).port k = { s.port k with step := .lock } :=
  State.port_updPort ((s.setBit (gdnReg Reg.GDN_CTRL k) 0 true).setLink k 1) _ hlen

theorem State.port_disable (up : Bool) (now : Nat) : (s.disable k up now).port k = (s.port k).disabled up now := by
  unfold State.disable
  exact State.port_updPort _ _ hlen

end

section
variable {s : State} {k : Nat} {v : Word}

theorem State.writeGdnCtrl_enable (hen : wordField v 0 1 = 1) (hretrain : wordField v 1 1 = 0)
    (hwas : s.bit (gdnReg Reg.GDN_CTRL k) 0 = false) : s.writeGdnCtrl k v = s.enable k := by
  unfold State.writeGdnCtrl
  simp [hen, hretrain, hwas, State.enable]

theorem State.writeGdnCtrl_disable (hk : k < 3) (hen : wordField v 0 1 = 0) (hwas : s.bit (gdnReg Reg.GDN_CTRL k) 0 = true) :
    s.writeGdnCtrl k v = s.disable k ((s.setBit (gdnReg Reg.GDN_CTRL k) 0 false).linkUp k) s.now := by
  have hdown : (s.disable k ((s.setBit (gdnReg Reg.GDN_CTRL k) 0 false).linkUp k) s.now).linkUp k = false := by
    simp [State.linkUp, State.linkState_disable _ hk]
  have hretrain := State.retrain_down hdown
  unfold State.writeGdnCtrl
  simp only [hen, hwas]
  exact (ite_eq_right_iff.2 fun _ => hretrain)

theorem State.writeGdnCtrl_retrain (hen : wordField v 0 1 = 1) (hretrain : wordField v 1 1 = 1)
    (hwas : s.bit (gdnReg Reg.GDN_CTRL k) 0 = true) : s.writeGdnCtrl k v = (s.setBit (gdnReg Reg.GDN_CTRL k) 0 true).retrain k := by
  unfold State.writeGdnCtrl
  simp [hen, hretrain, hwas]

end

theorem wordField_or_two_bit0 (v : Word) : wordField (v ||| 2) 0 1 = wordField v 0 1 := by
  apply Nat.eq_of_testBit_eq
  intro j
  rw [wordField_testBit, wordField_testBit, BitVec.getLsbD_or]
  cases j <;> simp

theorem wordField_or_two_bit1 (v : Word) : wordField (v ||| 2) 1 1 = 1 := by
  apply Nat.eq_of_testBit_eq
  intro j
  rw [wordField_testBit, BitVec.getLsbD_or]
  cases j <;> simp [Nat.testBit_succ]

/-! ### The steps of training (R405) -/

/-- The state that shows a step of training. -/
def TrainStep.shown : TrainStep → Nat
  | .lock => 1
  | .deskew => 2
  | .param => 3

theorem State.training_of {s : State} {k : Nat} {t : TrainStep} (hon : s.mainOn = true) (hstep : (s.port k).step = t)
    (hlink : s.linkState k ∈ ([1, 2, 3, 5, 6] : List Nat)) : s.training k t = true := by
  simpa [State.training, hon, hstep] using hlink

theorem State.toStep_eq (s : State) (k : Nat) (t : TrainStep) : s.toStep k t =
    if s.linkState k < 4 then (s.updPort k fun p => { p with step := t }).setLink k t.shown else s.updPort k fun p => { p with step := t } := by
  cases t <;> rfl

theorem State.toStep_ports (s : State) (k : Nat) (t : TrainStep) : (s.toStep k t).ports = (s.updPort k fun p => { p with step := t }).ports := by
  rw [s.toStep_eq]
  split <;> rfl

theorem State.port_toStep {s : State} {k : Nat} (t : TrainStep) (hlen : k < s.ports.length) :
    (s.toStep k t).port k = { s.port k with step := t } :=
  (State.port_of_ports (s.toStep_ports k t) k).trans (State.port_updPort _ _ hlen)

theorem State.reg_toStep_apart (s : State) {k a : Nat} (t : TrainStep) (hstat : a ≠ gdnReg Reg.GDN_STAT k) (hstook : a ≠ Reg.GDN_STOOK) :
    (s.toStep k t).reg a = s.reg a := by
  rw [s.toStep_eq]
  split
  · exact State.reg_setLink_apart _ _ hstat hstook
  · rfl

/-- Outside RETRAIN and DOWN the port's state shows its step. -/
theorem State.linkState_toStep (s : State) {k : Nat} (hk : k < 3) (t : TrainStep) :
    (s.toStep k t).linkState k = if s.linkState k < 4 then t.shown else s.linkState k := by
  rw [s.toStep_eq]
  split
  · exact State.linkState_setLink _ hk (by cases t <;> decide)
  · rfl

theorem exec_blockLockAcquired_lock {s : State} {port : Fin 3} (h : s.training port .lock = true) :
    exec (.blockLockAcquired port) s = .next ((s.setFld (gdnReg Reg.GDN_LANE port) 0 4 15).toStep port .deskew) := by
  rw [exec_blockLockAcquired, execBlockLockAcquired, if_pos h]

/-- What DESKEW_DONE shows of the lanes. -/
def State.showLanes (s : State) (k : Nat) (skew : Fin 9) (rev : Bool) (pol : BitVec 4) : State :=
  ((s.setFld (gdnReg Reg.GDN_LANE k) 16 4 skew).setBit (gdnReg Reg.GDN_LANE k) 12 rev).setFld (gdnReg Reg.GDN_LANE k) 8 4 pol.toNat

theorem exec_deskewDone_deskew {s : State} {port : Fin 3} (skew : Fin 9) (rev : Bool) (pol : BitVec 4) (h : s.training port .deskew = true) :
    exec (.deskewDone port skew rev pol) s = .next ((s.showLanes port skew rev pol).toStep port .param) := by
  rw [exec_deskewDone, execDeskewDone, if_pos h]
  rfl

theorem State.fld_showLanes_skew (s : State) (k : Nat) (skew : Fin 9) (rev : Bool) (pol : BitVec 4) :
    (s.showLanes k skew rev pol).fld (gdnReg Reg.GDN_LANE k) 16 4 = skew.val := by
  unfold State.showLanes
  rw [State.fld_setFld_apart _ _ _ _ _ _ _ _ (.inr (.inr (by decide))), State.fld_setBit_apart _ _ _ _ _ _ _ (.inr (.inr (by decide))),
    State.fld_setFld _ _ _ _ _ (by decide)]
  exact Nat.mod_eq_of_lt (by omega)

theorem State.bit_showLanes_reversed (s : State) (k : Nat) (skew : Fin 9) (rev : Bool) (pol : BitVec 4) :
    (s.showLanes k skew rev pol).bit (gdnReg Reg.GDN_LANE k) 12 = rev := by
  unfold State.showLanes
  rw [State.bit_setFld_apart _ _ _ _ _ _ _ (.inr (.inr (by decide))), State.bit_setBit _ _ _ _ (by decide)]

theorem State.fld_showLanes_polarity (s : State) (k : Nat) (skew : Fin 9) (rev : Bool) (pol : BitVec 4) :
    (s.showLanes k skew rev pol).fld (gdnReg Reg.GDN_LANE k) 8 4 = pol.toNat :=
  (State.fld_setFld _ _ _ _ _ (by decide)).trans (Nat.mod_eq_of_lt pol.isLt)

theorem State.reg_showLanes_apart (s : State) {k a : Nat} (skew : Fin 9) (rev : Bool) (pol : BitVec 4) (h : a ≠ gdnReg Reg.GDN_LANE k) :
    (s.showLanes k skew rev pol).reg a = s.reg a := by
  unfold State.showLanes
  rw [State.reg_setFld_apart _ _ _ _ h, State.reg_setBit_apart _ _ _ h, State.reg_setFld_apart _ _ _ _ h]

/-! ### PARAM (R406) -/

theorem exec_paramReceive_param {s : State} {port : Fin 3} (p : ParamFlit) (h : s.training port .param = true) :
    exec (.paramReceive port p) s = .next (if s.paramOk port p then s.goActive port p else s.refuseLink port p) := by
  rw [exec_paramReceive, execParamReceive, if_pos (by simp [h])]

/-- A port that knows its peer, chip `c`, which is not lost. -/
def State.showPeer (s : State) (k c : Nat) (p : Port) : State :=
  (((s.updPort k fun _ => p).setBit (gdnReg Reg.GDN_STAT k) 5 true).setFld (gdnReg Reg.GDN_STAT k) 6 2 c).setBit Reg.GDN_STOOK (8 + c) false

/-- A port that is ACTIVE with chip `c`. -/
def State.showActive (s : State) (k c : Nat) (p : Port) : State := (s.showPeer k c p).setLink k 4

/-- The status bit of a retrain that has ended. -/
def State.showRetrained (s : State) (k : Nat) (again : Bool) : State := if again then s.raise .gdn (gdnReg Reg.GDN_STAT k) 8 else s

/-- What follows once a port is ACTIVE: the end of a retrain is shown, and the port sends. -/
def State.resume (s : State) (k : Nat) (again : Bool) : State := (s.showRetrained k again).pumpPort k

/-- Beside the count of flits sent again, becoming ACTIVE is to show it, with a port that knows its peer, and to go on. -/
theorem State.goActive_eq (s : State) (k : Nat) (f : ParamFlit) : ∃ (u : State) (p : Port),
    s.goActive k f = (u.showActive k (s.chipOn k) p).resume k (s.port k).retraining ∧ u.ports = s.ports ∧
      (∀ a, a ≠ gdnReg Reg.GDN_REPLAYCNT k → u.reg a = s.reg a) ∧ p.peerVariant = f.variant ∧ p.peerIncarn = f.incarnation := by
  refine ⟨_, _, rfl, ?_, fun a ha => ?_, rfl, rfl⟩
  · split <;> rfl
  · split
    · exact State.reg_setFld_apart _ _ _ _ ha
    · rfl

section
variable (s : State) {k : Nat}

theorem State.port_showActive (c : Nat) (p : Port) (hlen : k < s.ports.length) : (s.showActive k c p).port k = p :=
  State.port_updPort s (fun _ => p) hlen

theorem State.showRetrained_ports (b : Bool) : (s.showRetrained k b).ports = s.ports := by
  unfold State.showRetrained
  split
  · exact State.raise_ports _ _ _ _
  · rfl

theorem State.resume_peer (b : Bool) (hlen : k < s.ports.length) :
    ((s.resume k b).port k).peerVariant = (s.port k).peerVariant ∧ ((s.resume k b).port k).peerIncarn = (s.port k).peerIncarn := by
  have hports := s.showRetrained_ports (k := k) b
  rw [← State.port_of_ports hports]
  exact State.pumpPort_peer _ (by rwa [hports])

variable (hk : k < 3)
include hk

theorem State.linkState_showActive (c : Nat) (p : Port) : (s.showActive k c p).linkState k = 4 := State.linkState_setLink _ hk (by decide)

theorem State.bit_showActive_peer (c : Nat) (p : Port) : (s.showActive k c p).bit (gdnReg Reg.GDN_STAT k) 5 = true := by
  unfold State.showActive State.showPeer
  rw [State.bit_setLink_above _ hk _ (by decide), State.bit_setBit_apart _ _ _ _ _ _ (.inl (gdnReg_ne_stook (by decide) hk)),
    State.bit_setFld_apart _ _ _ _ _ _ _ (.inr (.inl (by decide))), State.bit_setBit _ _ _ _ (by decide)]

theorem State.fld_showActive_chip {c : Nat} (hc : c < 4) (p : Port) : (s.showActive k c p).fld (gdnReg Reg.GDN_STAT k) 6 2 = c := by
  unfold State.showActive State.showPeer
  rw [State.fld_setLink_above _ hk _ _ (by decide), State.fld_setBit_apart _ _ _ _ _ _ _ (.inl (gdnReg_ne_stook (by decide) hk)),
    State.fld_setFld _ _ _ _ _ (by decide)]
  exact Nat.mod_eq_of_lt hc

theorem State.chip_showPeer (c : Nat) (p : Port) : (s.showPeer k c p).chip = s.chip :=
  (State.fld_setBit_apart _ _ _ _ _ _ _ (.inr (.inl (by omega)))).trans <|
    (State.fld_setFld_apart _ _ _ _ _ _ _ _ (.inl (gdnReg_ne_stook (by decide) hk).symm)).trans <|
      State.fld_setBit_apart _ _ _ _ _ _ _ (.inl (gdnReg_ne_stook (by decide) hk).symm)

theorem State.live_showActive (p : Port) : (s.showActive k (s.chipOn k) p).live (s.chipOn k) = true := by
  have hlive := State.live_setLink (s.showPeer k (s.chipOn k) p) hk 4
  have hfound : (s.showPeer k (s.chipOn k) p).bit Reg.GDN_STOOK (8 + s.chipOn k) = false :=
    State.bit_setBit _ _ _ _ (by have := s.chipOn_lt k; omega)
  rw [State.chipOn_of_chip (s.chip_showPeer hk _ _), hfound] at hlive
  exact hlive

/-- Bits 7 to 0 of the status are as before. -/
theorem State.fld_resume (b : Bool) {lo w : Nat} (h : lo + w ≤ 8) :
    (s.resume k b).fld (gdnReg Reg.GDN_STAT k) lo w = s.fld (gdnReg Reg.GDN_STAT k) lo w := by
  refine (State.fld_of_reg (State.reg_pumpPort_apart _ (gdnReg_ne k (by decide)) (gdnReg_ne k (by decide))) _ _).trans ?_
  unfold State.showRetrained
  split
  · exact State.fld_raise _ _ _ _ _ _ (eventReg_gdnReg (by decide) (by decide) hk) (.inr (.inl h))
  · rfl

theorem State.reg_resume_stook (b : Bool) : (s.resume k b).reg Reg.GDN_STOOK = s.reg Reg.GDN_STOOK := by
  refine (State.reg_pumpPort_apart _ (gdnReg_ne_stook (by decide) hk).symm (gdnReg_ne_stook (by decide) hk).symm).trans ?_
  unfold State.showRetrained
  split
  · exact State.reg_raise _ _ _ _ (by decide) (gdnReg_ne_stook (by decide) hk).symm
  · rfl

/-- Both ends have passed PARAM: ACTIVE, with the peer shown, a live member, and its variant and incarnation recorded (R394, R406). -/
theorem State.goActive_facts (f : ParamFlit) (hlen : k < s.ports.length) :
    let t := s.goActive k f
    t.linkState k = 4 ∧ t.live (s.chipOn k) = true ∧ t.bit (gdnReg Reg.GDN_STAT k) 5 = true ∧
      t.fld (gdnReg Reg.GDN_STAT k) 6 2 = s.chipOn k ∧ (t.port k).peerVariant = f.variant ∧ (t.port k).peerIncarn = f.incarnation := by
  obtain ⟨u, p, heq, hports, hreg, hvariant, hincarn⟩ := s.goActive_eq k f
  have hchip : u.chipOn k = s.chipOn k :=
    State.chipOn_of_chip (State.chip_of_reg (hreg _ (gdnReg_ne_stook (by decide) hk).symm)) k
  have hport : (u.showActive k (u.chipOn k) p).port k = p := u.port_showActive _ p (by rwa [hports])
  obtain ⟨hpv, hpi⟩ := (u.showActive k (u.chipOn k) p).resume_peer (k := k) (s.port k).retraining
    (by simpa [State.showActive, State.showPeer, hports] using hlen)
  rw [hport] at hpv hpi
  dsimp only
  rw [heq, ← hchip]
  refine ⟨?_, ?_, ?_, ?_, hpv.trans hvariant, hpi.trans hincarn⟩
  · exact (State.fld_resume _ hk _ (by decide)).trans (u.linkState_showActive hk _ p)
  · exact (State.live_of_reg (State.reg_resume_stook _ hk _) _).trans (u.live_showActive hk p)
  · unfold State.bit
    rw [State.fld_resume _ hk _ (by decide)]
    exact u.bit_showActive_peer hk _ p
  · exact (State.fld_resume _ hk _ (by decide)).trans (u.fld_showActive_chip hk (u.chipOn_lt k) p)

/-- A link that is refused: REFUSED, with its event and a violation of the peer. -/
theorem State.refuseLink_facts (f : ParamFlit) :
    let t := s.refuseLink k f
    t.linkState k = 7 ∧ t.live (s.chipOn k) = false ∧ t.bit (gdnReg Reg.GDN_STAT k) 10 = true ∧ t.logSeq = (s.logSeq + 1) % 2 ^ 32 := by
  have hev : eventReg (gdnReg Reg.GDN_STAT k) = false := eventReg_gdnReg (by decide) (by decide) hk
  dsimp only
  unfold State.refuseLink
  refine ⟨?_, ?_, ?_, ?_⟩
  · refine (State.fld_peerViolation_stat _ hk _ (by decide)).trans ((State.fld_raise _ _ _ _ _ _ hev (.inr (.inl (by decide)))).trans ?_)
    exact s.linkState_setLink hk (by decide)
  · refine (State.live_of_reg ((State.reg_peerViolation _ _ (by decide) (by decide) (gdnReg_ne_stook (by decide) hk).symm).trans
      (State.reg_raise _ _ _ _ (by decide) (gdnReg_ne_stook (by decide) hk).symm)) _).trans ?_
    exact s.live_setLink hk 7
  · exact (State.bit_peerViolation_stat _ hk _ (by decide)).trans (State.bit_raise _ _ _ _ hev (by decide))
  · rw [State.peerViolation_logSeq, State.raise_logSeq]
    rfl

end

/-! ### Failed attempts (R405, R408) -/

/-- A failed attempt of a retrain; the eighth takes the port DOWN. -/
def State.failAttempt (s : State) (k : Nat) : State :=
  let u := s.updPort k fun p => { p with attempts := p.attempts + 1 }
  if 8 ≤ (u.port k).attempts then (u.setLink k 6).raise .gdn (gdnReg Reg.GDN_STAT k) 9 else u

theorem exec_trainingLimit_training {s : State} {port : Fin 3} (hon : s.mainOn = true)
    (hlink : s.linkState port ∈ ([1, 2, 3, 5, 6] : List Nat)) : exec (.trainingLimit port) s = .next
      (if (s.toStep port .lock).linkState port = 5 then (s.toStep port .lock).failAttempt port else s.toStep port .lock) := by
  have hin : ([1, 2, 3, 5, 6] : List Nat).contains (s.linkState port) = true := List.contains_iff_mem.2 hlink
  rw [exec_trainingLimit, execTrainingLimit, if_neg (by rw [hon, hin]; decide)]
  rfl

section
variable {s : State} {k : Nat} (hlen : k < s.ports.length)
include hlen

theorem State.port_failAttempt : (s.failAttempt k).port k = { s.port k with attempts := (s.port k).attempts + 1 } := by
  have hport := State.port_updPort s (fun p => { p with attempts := p.attempts + 1 }) hlen
  unfold State.failAttempt
  dsimp only
  split
  · rw [State.port_of_ports (State.raise_ports _ _ _ _), State.port_of_ports (State.setLink_ports _ _ _), hport]
  · exact hport

theorem State.linkState_failAttempt (hk : k < 3) (h : s.linkState k = 5) :
    (s.failAttempt k).linkState k = if (s.port k).attempts < 7 then 5 else 6 := by
  unfold State.failAttempt
  dsimp only
  rw [State.port_updPort _ _ hlen]
  by_cases hfew : (s.port k).attempts < 7
  · rw [if_neg (by dsimp only; omega), if_pos hfew]
    exact h
  · rw [if_pos (by dsimp only; omega), if_neg hfew]
    exact (State.fld_raise _ _ _ _ _ _ (eventReg_gdnReg (by decide) (by decide) hk) (.inr (.inl (by decide)))).trans
      (State.linkState_setLink _ hk (by decide))

end

/-! ### Faults of an ACTIVE link (R407) -/

theorem State.portOn_up {s : State} {k : Nat} (hon : s.mainOn = true) (hup : s.linkUp k = true) : s.portOn k = true := by
  simp [State.portOn, hon, (s.linkUp_iff k).1 hup]

theorem exec_laneLockLoss_on {s : State} {port : Fin 3} (l : Fin 4) (h : s.portOn port = true) :
    exec (.laneLockLoss port l) s = .next ((s.setBit (gdnReg Reg.GDN_LANE port) l false).retrain port) := by
  rw [exec_laneLockLoss, execLaneLockLoss, if_pos h]

theorem exec_markerError_on {s : State} {port : Fin 3} (h : s.portOn port = true) :
    exec (.markerError port) s = .next ((s.addSat (gdnReg Reg.GDN_MARKERCNT port) 0 32 1).retrain port) := by
  rw [exec_markerError, execMarkerError, if_pos h]

/-- Settles O43: the control register enables, disables or retrains a port, each step of training shows what it found and moves on, PARAM ends
in ACTIVE or REFUSED, and a fault of an ACTIVE link is its own register followed by the retrain. -/
theorem portsTrainThroughTheirStates : Obligations.PortsTrainThroughTheirStates := by
  intro port s hon hports
  have hk : port.val < 3 := port.isLt
  have hlen : port.val < s.ports.length := by omega
  refine ⟨fun i v hs hen hno hwas => ?enable, fun i v hs hen hwas => ?disable, fun i v hs hen hwas hup => ?retrain, fun hstep hlink => ?lock,
    fun skew rev pol hstep hlink => ?deskew, fun p hstep hlink => ⟨fun hok => ?active, fun hok => ?refused⟩, fun hlink => ?restart,
    fun hlink => ?attempt, fun l hup => ?lane, fun hup => ?marker⟩
  case enable =>
    exact ⟨_, by rw [exec_gdnEnable_served hs, State.writeGdnCtrl_enable hen hno hwas], s.bit_enable_ctrl hk, s.linkState_enable hk,
      by rw [State.port_enable hlen]⟩
  case disable =>
    exact ⟨_, by rw [exec_gdnEnable_served hs, State.writeGdnCtrl_disable hk hen hwas], s.bit_disable_ctrl hk _ _, s.linkState_disable hk _ _,
      s.reg_disable_lane _ _, s.bit_disable_peer _ _, s.live_disable hk _ _, by rw [State.port_disable hlen]; rfl⟩
  case retrain =>
    obtain ⟨hup', -, hstate, hcount, -⟩ := State.retrain_after (r := Reg.GDN_CTRL) hk hup (by decide) (by decide)
      (by decide) (by decide) fun a ha => State.reg_setBit_apart s 0 true ha
    have hport := State.port_retrain hup' (by exact hlen)
    refine ⟨_, by rw [exec_gdnRetrain_served hs, State.writeGdnCtrl_retrain ((wordField_or_two_bit0 v).trans hen) (wordField_or_two_bit1 v) hwas],
      hstate, hcount, ?_, ?_, ?_⟩
    all_goals rw [hport]; rfl
  case lock =>
    have hshown : (s.setFld (gdnReg Reg.GDN_LANE port) 0 4 15).linkState port = s.linkState port :=
      State.linkState_of_reg (State.reg_setFld_apart _ _ _ _ (gdnReg_ne port (by decide)))
    refine ⟨_, exec_blockLockAcquired_lock (State.training_of hon hstep (by rcases hlink with h | h <;> simp [h])), ?_, ?_, ?_⟩
    · exact (State.fld_of_reg (State.reg_toStep_apart _ _ (gdnReg_ne port (by decide)) (gdnReg_ne_stook (by decide) hk)) _ _).trans
        (State.fld_setFld _ _ _ _ _ (by decide))
    · rw [State.port_toStep _ (by exact hlen)]
    · rw [State.linkState_toStep _ hk, hshown]
      rcases hlink with h | h <;> simp [h, TrainStep.shown]
  case deskew =>
    have hshown : (s.showLanes port skew rev pol).linkState port = s.linkState port :=
      State.linkState_of_reg (s.reg_showLanes_apart skew rev pol (gdnReg_ne port (by decide)))
    have hlane : ((s.showLanes port skew rev pol).toStep port .param).reg (gdnReg Reg.GDN_LANE port) =
        (s.showLanes port skew rev pol).reg (gdnReg Reg.GDN_LANE port) :=
      State.reg_toStep_apart _ _ (gdnReg_ne port (by decide)) (gdnReg_ne_stook (by decide) hk)
    refine ⟨_, exec_deskewDone_deskew skew rev pol (State.training_of hon hstep (by rcases hlink with h | h <;> simp [h])),
      (State.fld_of_reg hlane _ _).trans (s.fld_showLanes_skew _ _ _ _), (State.bit_of_reg hlane _).trans (s.bit_showLanes_reversed _ _ _ _),
      (State.fld_of_reg hlane _ _).trans (s.fld_showLanes_polarity _ _ _ _), ?_, ?_⟩
    · rw [State.port_toStep _ (by exact hlen)]
    · rw [State.linkState_toStep _ hk, hshown]
      rcases hlink with h | h <;> simp [h, TrainStep.shown]
  case active =>
    exact ⟨_, by rw [exec_paramReceive_param p (State.training_of hon hstep (by simp [hlink])), if_pos hok], s.goActive_facts hk p hlen⟩
  case refused =>
    exact ⟨_, by rw [exec_paramReceive_param p (State.training_of hon hstep (by simp [hlink])), if_neg (by simp [hok])],
      s.refuseLink_facts hk p⟩
  case restart =>
    have hlock : (s.toStep port .lock).linkState port = 1 := by
      exact (s.linkState_toStep hk .lock).trans (if_pos (by omega))
    refine ⟨s.toStep port .lock, ?_, hlock, by rw [State.port_toStep _ hlen]⟩
    rw [exec_trainingLimit_training hon (by rcases hlink with h | h | h <;> simp [h]), if_neg (by omega)]
  case attempt =>
    have hstay : (s.toStep port .lock).linkState port = 5 := by rw [s.linkState_toStep hk, if_neg (by omega), hlink]
    have hlen' : port.val < (s.toStep port .lock).ports.length := by simpa [s.toStep_ports] using hlen
    refine ⟨_, by rw [exec_trainingLimit_training hon (by simp [hlink]), if_pos hstay], ?_, ?_, ?_⟩
    · rw [State.port_failAttempt hlen', State.port_toStep _ hlen]
    · rw [State.port_failAttempt hlen', State.port_toStep _ hlen]
    · rw [State.linkState_failAttempt hlen' hk hstay, State.port_toStep _ hlen]
  case lane =>
    obtain ⟨hup', hlane, hstate, hcount, hlive⟩ := State.retrain_after (r := Reg.GDN_LANE) hk hup (by decide) (by decide)
      (by decide) (by decide) fun a ha => State.reg_setBit_apart s l false ha
    refine ⟨_, exec_laneLockLoss_on l (State.portOn_up hon hup), ?_, hstate, hcount, State.retrain_logSeq hup', hlive⟩
    rw [State.bit_of_reg hlane, State.bit_setBit _ _ _ _ (by omega)]
  case marker =>
    obtain ⟨hup', hmarker, hstate, hcount, -⟩ := State.retrain_after (r := Reg.GDN_MARKERCNT) hk hup (by decide) (by decide)
      (by decide) (by decide) fun a ha => State.reg_setFld_apart s 0 32 (min (s.fld (gdnReg Reg.GDN_MARKERCNT port) 0 32 + 1) (2 ^ 32 - 1)) ha
    refine ⟨_, exec_markerError_on (State.portOn_up hon hup), ?_, hstate, hcount, State.retrain_logSeq hup'⟩
    exact (State.fld_of_reg hmarker _ _).trans (State.fld_addSat _ _ _ _ _ (by decide))

end Sys2Proof.Machine
end

section
/-!
PROOFS. The audio ports: how a port is read behind an update, its registers, and its muted slots (R431, R439, R440).
-/
namespace Sys2Proof.Machine

/-! ### A port behind an update -/

theorem State.ap_of_audio {s t : State} (h : t.audio = s.audio) (k : Nat) : t.ap k = s.ap k := by unfold State.ap; rw [h]

theorem State.outsOn_of_audio {s t : State} (h : t.audio = s.audio) (k : Nat) : t.outsOn k = s.outsOn k := by unfold State.outsOn; rw [h]

section
variable (s : State) (k : Nat) (f : AudioPort → AudioPort)

theorem State.ap_updAp {k : Nat} (h : k < s.audio.ports.length) : (s.updAp k f).ap k = f (s.ap k) := by
  simp [State.ap, State.updAp, State.setAps, h]

@[simp] theorem State.length_updAp : (s.updAp k f).audio.ports.length = s.audio.ports.length := by
  simp [State.updAp, State.setAps]

@[simp] theorem State.reg_updAp (a : Nat) : (s.updAp k f).reg a = s.reg a := rfl
@[simp] theorem State.fld_updAp (a lo w : Nat) : (s.updAp k f).fld a lo w = s.fld a lo w := rfl
@[simp] theorem State.bit_updAp (a i : Nat) : (s.updAp k f).bit a i = s.bit a i := rfl
@[simp] theorem State.outsOn_updAp (j : Nat) : (s.updAp k f).outsOn j = s.outsOn j := rfl
@[simp] theorem State.updAp_now : (s.updAp k f).now = s.now := rfl

@[simp] theorem State.apRaise_audio (b : Nat) : (s.apRaise k b).audio = s.audio := State.raise_audio _ _ _ _
@[simp] theorem State.apRaise_now (b : Nat) : (s.apRaise k b).now = s.now := State.raise_now _ _ _ _
@[simp] theorem State.apRaise_logSeq (b : Nat) : (s.apRaise k b).logSeq = s.logSeq := State.raise_logSeq _ _ _ _
@[simp] theorem State.addSat_audio (a lo w n : Nat) : (s.addSat a lo w n).audio = s.audio := State.setFld_audio _ _ _ _ _
@[simp] theorem State.showMuted_audio : (s.showMuted k).audio = s.audio := (State.showMuted_eff Sub.rfl .refl).audio rfl
@[simp] theorem State.showMuted_now : (s.showMuted k).now = s.now := (State.showMuted_eff Sub.rfl .refl).now rfl

end

/-! ### The registers of a port -/

theorem apReg_ne {r r' : Nat} (k : Nat) (h : r ≠ r') : apReg r k ≠ apReg r' k := by
  unfold apReg
  omega

/-- The AP blocks lie apart from the registers of the logs and the vectors. -/
theorem eventReg_ap {a : Nat} (hlo : Reg.AP_CTRL ≤ a) (hhi : a ≤ apReg Reg.AP_ZEROCNT 3) : eventReg a = false := by
  simp only [Reg.AP_CTRL, Reg.AP_ZEROCNT, apReg] at hlo hhi
  simp only [eventReg, inRange, Bool.or_eq_false_iff, Bool.and_eq_false_iff, decide_eq_false_iff_not]
  simp only [Reg.ERRLOG_STAT, Reg.ERRLOG_HEAD, Reg.ERRLOG_VHEAD, Reg.ERRLOG_ECNT, Reg.ERRLOG_VCNT, Reg.ERRLOG_E, Reg.ERRLOG_V, Reg.HSP_INTPEND,
    Reg.HOST_MSIX_PBA]
  omega

theorem eventReg_apReg {r k : Nat} (hlo : Reg.AP_CTRL ≤ r) (hhi : r ≤ Reg.AP_ZEROCNT) (hk : k < 4) : eventReg (apReg r k) = false :=
  eventReg_ap (hlo.trans (Nat.le_add_right _ _)) (by unfold apReg; omega)

section
variable (s : State) {k : Nat} (hk : k < 4)
include hk

theorem eventReg_apStat : eventReg (apReg Reg.AP_STAT k) = false := eventReg_apReg (by decide) (by decide) hk

theorem State.bit_apRaise {b : Nat} (hb : b < 32) : (s.apRaise k b).bit (apReg Reg.AP_STAT k) b = true :=
  State.bit_raise _ _ _ _ (eventReg_apStat hk) hb

theorem State.bit_apRaise_apart {b i : Nat} (h : i ≠ b) : (s.apRaise k b).bit (apReg Reg.AP_STAT k) i = s.bit (apReg Reg.AP_STAT k) i :=
  State.bit_raise_apart _ _ _ _ _ (eventReg_apStat hk) (.inr h)

omit hk in
theorem State.reg_apRaise {a : Nat} (b : Nat) (h : eventReg a = false) (ha : a ≠ apReg Reg.AP_STAT k) : (s.apRaise k b).reg a = s.reg a :=
  State.reg_raise _ _ _ _ h ha

/-! ### The muted slots -/

/-- The word that shows muted slots. -/
def mutedWord (m : List (Nat × Nat)) : Word := m.foldl (fun w e => wordSetField w e.1 1 1) 0

omit hk in
theorem mutedWord_fold_getLsbD {j : Nat} (m : List (Nat × Nat)) (hm : ∀ e ∈ m, e.1 ≠ j) (w : Word) :
    (m.foldl (fun (w : Word) e => wordSetField w e.1 1 1) w).getLsbD j = w.getLsbD j := by
  induction m generalizing w with
  | nil => rfl
  | cons e m ih =>
    have he : e.1 ≠ j := hm e List.mem_cons_self
    rw [List.foldl_cons, ih (fun x hx => hm x (List.mem_cons_of_mem _ hx)), wordSetField_getLsbD, if_neg (by omega)]

omit hk in
/-- A slot that is not among the muted ones is not shown. -/
theorem mutedWord_getLsbD_keyDel (m : List (Nat × Nat)) (j : Nat) : (mutedWord (keyDel m j)).getLsbD j = false := by
  have hgone : ∀ e ∈ keyDel m j, e.1 ≠ j := fun e he => by simpa using (List.mem_filter.1 he).2
  exact (mutedWord_fold_getLsbD _ hgone 0).trans BitVec.getLsbD_zero

/-- Showing the muted slots is their word, and MUTED; with the first of them an event. -/
def State.showMutedWord (s : State) (k : Nat) : State :=
  let u := s.setReg (apReg Reg.AP_NASLOTS k) (mutedWord (s.ap k).muted)
  u.setBit (apReg Reg.AP_STAT k) 3 (u.reg (apReg Reg.AP_NASLOTS k) != 0)

omit hk in
theorem State.showMuted_cases : s.showMuted k = s.showMutedWord k ∨
    s.showMuted k = ((s.showMutedWord k).apRaise k 13).logViolation 5 1 { source := k } := by
  unfold State.showMuted
  dsimp only
  split
  · exact .inr rfl
  · exact .inl rfl

omit hk in
/-- Beside the status, showing the muted slots is their word. -/
theorem State.reg_showMuted {a : Nat} (h : eventReg a = false) (ha : a ≠ apReg Reg.AP_STAT k) :
    (s.showMuted k).reg a = if a = apReg Reg.AP_NASLOTS k then mutedWord (s.ap k).muted else s.reg a := by
  have hword : (s.showMutedWord k).reg a = if a = apReg Reg.AP_NASLOTS k then mutedWord (s.ap k).muted else s.reg a :=
    (State.reg_setBit_apart _ _ _ ha).trans (State.reg_setReg _ _ _ _)
  rcases s.showMuted_cases (k := k) with e | e
  · rw [e, hword]
  · rw [e, State.reg_logViolation _ _ _ _ h, State.reg_apRaise _ _ h ha, hword]

theorem State.bit_showMuted_stat {i : Nat} (h3 : i ≠ 3) (h13 : i ≠ 13) :
    (s.showMuted k).bit (apReg Reg.AP_STAT k) i = s.bit (apReg Reg.AP_STAT k) i := by
  have hword : (s.showMutedWord k).bit (apReg Reg.AP_STAT k) i = s.bit (apReg Reg.AP_STAT k) i :=
    (State.bit_setBit_apart _ _ _ _ _ _ (.inr h3)).trans (State.bit_setReg_apart _ _ _ (apReg_ne k (by decide)))
  rcases s.showMuted_cases (k := k) with e | e
  · rw [e, hword]
  · rw [e, State.bit_logViolation _ _ _ _ _ (eventReg_apStat hk), State.bit_apRaise_apart _ hk h13, hword]

end

/-- A slot is muted no longer. -/
def State.unmute (s : State) (k slot : Nat) : State := (s.updAp k fun p => { p with muted := keyDel p.muted slot }).showMuted k

theorem exec_nonaudioHoldExpiry_passed {s : State} {port : Fin 4} {slot : Fin 32} {n : Nat} (hm : keyGet (s.ap port).muted slot = some n)
    (hn : s.holdFrames port ≤ n) : exec (.nonaudioHoldExpiry port slot) s = .next (s.unmute port slot) := by
  rw [exec_nonaudioHoldExpiry, execNonaudioHoldExpiry, hm]
  exact congrArg _ (if_pos hn)

theorem exec_nonaudioHoldExpiry_held {s : State} {port : Fin 4} {slot : Fin 32} {n : Nat} (hm : keyGet (s.ap port).muted slot = some n)
    (hn : n < s.holdFrames port) : exec (.nonaudioHoldExpiry port slot) s = .next s := by
  rw [exec_nonaudioHoldExpiry, execNonaudioHoldExpiry, hm]
  exact congrArg _ (if_neg (by omega))

section
variable (s : State) {k : Nat}

theorem State.ap_unmute (slot : Nat) (hlen : k < s.audio.ports.length) :
    (s.unmute k slot).ap k = { s.ap k with muted := keyDel (s.ap k).muted slot } :=
  (State.ap_of_audio (State.showMuted_audio _ _) _).trans (s.ap_updAp _ hlen)

theorem State.bit_unmute (slot : Nat) (hlen : k < s.audio.ports.length) (hk : k < 4) :
    (s.unmute k slot).bit (apReg Reg.AP_NASLOTS k) slot = false := by
  unfold State.unmute
  rw [State.bit_eq_getLsbD, State.reg_showMuted _ (eventReg_apReg (by decide) (by decide) hk) (apReg_ne k (by decide)), if_pos rfl,
    s.ap_updAp _ hlen, mutedWord_getLsbD_keyDel]

end

/-! ### The rate (R434 to R436) -/

/-- A rate has been measured, with its deviation. -/
def State.showRate (s : State) (k n c : Nat) (dev : Int) : State :=
  (s.setReg (apReg Reg.AP_RATE k) (BitVec.ofNat 32 (2 ^ 31 + satNat 20 (rneNat ((n - 1) * 384000000) c)))).setFld (apReg Reg.AP_RATEDEV k) 0 16
    (unsignedOf 16 dev)

/-- The deviation is reported where `due`. -/
def State.reportRate (s : State) (k : Nat) (dev : Int) (due : Bool) : State :=
  if due then (s.setFld (apReg Reg.AP_RATEDEV k) 16 16 (unsignedOf 16 dev)).apRaise k 9 else s

/-- RATEBAD follows the deviation; each entry is an event. -/
def State.judgeRate (s : State) (k : Nat) (dev : Int) : State :=
  if s.fld (apReg Reg.AP_RATECFG k) 16 8 * 10 < dev.natAbs then
    if s.bit (apReg Reg.AP_STAT k) 2 then s
    else ((s.setBit (apReg Reg.AP_STAT k) 2 true).apRaise k 10).logViolation 5 2 { source := k }
  else s.setBit (apReg Reg.AP_STAT k) 2 false

theorem exec_rateWindow_short {s : State} {port : Fin 4} {n : Nat} (c : Nat) (hon : s.apOn port = true) (hn : n < 2) :
    exec (.rateWindow port n c) s = .next (s.setBit (apReg Reg.AP_RATE port) 31 false) := by
  simp [execRateWindow, hon, hn]

theorem exec_rateWindow_measured {s : State} {port : Fin 4} {n c : Nat} (hon : s.apOn port = true) (hn : 2 ≤ n) (hc : 0 < c) :
    ∃ due, exec (.rateWindow port n c) s = .next
      (((s.showRate port n c (rateDev (s.apRate100 port) n c)).reportRate port (rateDev (s.apRate100 port) n c) due).judgeRate port
        (rateDev (s.apRate100 port) n c)) := by
  have hmeasured : ¬((decide (n < 2) || decide (c = 0)) = true) := by
    rw [Bool.or_eq_true, decide_eq_true_eq, decide_eq_true_eq]
    omega
  rw [exec_rateWindow, execRateWindow]
  dsimp only
  rw [if_neg (by simp [hon]), if_neg hmeasured]
  exact ⟨_, rfl⟩

theorem unsignedOf_lt (w : Nat) (x : Int) : unsignedOf w x < 2 ^ w := by
  have hpow : (0 : Int) < 2 ^ w := by positivity
  have hlt := Int.emod_lt_of_pos x hpow
  unfold unsignedOf
  zify
  omega

section
variable (s : State) (k : Nat)

theorem State.bit_showRate (n c : Nat) (dev : Int) : (s.showRate k n c dev).bit (apReg Reg.AP_RATE k) 31 = true := by
  have hsat : satNat 20 (rneNat ((n - 1) * 384000000) c) < 2 ^ 20 := by
    unfold satNat
    omega
  unfold State.showRate State.bit
  rw [State.fld_setFld_apart _ _ _ _ _ _ _ _ (.inl (apReg_ne k (by decide))), State.fld_setReg, if_pos rfl, wordField_eq,
    BitVec.toNat_ofNat, decide_eq_true_eq]
  omega

theorem State.fld_showRate (n c : Nat) (dev : Int) : (s.showRate k n c dev).fld (apReg Reg.AP_RATEDEV k) 0 16 = unsignedOf 16 dev :=
  (State.fld_setFld _ _ _ _ _ (by decide)).trans (Nat.mod_eq_of_lt (unsignedOf_lt 16 dev))

theorem State.reg_showRate {a : Nat} (n c : Nat) (dev : Int) (hr : a ≠ apReg Reg.AP_RATE k) (hd : a ≠ apReg Reg.AP_RATEDEV k) :
    (s.showRate k n c dev).reg a = s.reg a := (State.reg_setFld_apart _ _ _ _ hd).trans (State.reg_setReg_apart _ _ hr)

theorem State.showRate_logSeq (n c : Nat) (dev : Int) : (s.showRate k n c dev).logSeq = s.logSeq := by
  rw [State.showRate, State.setFld_logSeq, State.setReg_logSeq]

theorem State.reportRate_logSeq (dev : Int) (due : Bool) : (s.reportRate k dev due).logSeq = s.logSeq := by
  unfold State.reportRate
  split
  · rw [State.apRaise_logSeq, State.setFld_logSeq]
  · rfl

theorem State.reg_reportRate {a : Nat} (dev : Int) (due : Bool) (h : eventReg a = false) (hd : a ≠ apReg Reg.AP_RATEDEV k)
    (ha : a ≠ apReg Reg.AP_STAT k) : (s.reportRate k dev due).reg a = s.reg a := by
  unfold State.reportRate
  split
  · rw [State.reg_apRaise _ _ h ha, State.reg_setFld_apart _ _ _ _ hd]
  · rfl

theorem State.reg_judgeRate {a : Nat} (dev : Int) (h : eventReg a = false) (ha : a ≠ apReg Reg.AP_STAT k) :
    (s.judgeRate k dev).reg a = s.reg a := by
  unfold State.judgeRate
  split
  · split
    · rfl
    · rw [State.reg_logViolation _ _ _ _ h, State.reg_apRaise _ _ h ha, State.reg_setBit_apart _ _ _ ha]
  · exact State.reg_setBit_apart _ _ _ ha

variable {k} (hk : k < 4)
include hk

theorem State.fld_reportRate_dev (dev : Int) (due : Bool) :
    (s.reportRate k dev due).fld (apReg Reg.AP_RATEDEV k) 0 16 = s.fld (apReg Reg.AP_RATEDEV k) 0 16 := by
  unfold State.reportRate
  split
  · rw [State.fld_of_reg (State.reg_apRaise _ _ (eventReg_apReg (by decide) (by decide) hk) (apReg_ne k (by decide))),
      State.fld_setFld_apart _ _ _ _ _ _ _ _ (.inr (.inl (by decide)))]
  · rfl

theorem State.bit_reportRate_stat (dev : Int) (due : Bool) {i : Nat} (hi : i ≠ 9) :
    (s.reportRate k dev due).bit (apReg Reg.AP_STAT k) i = s.bit (apReg Reg.AP_STAT k) i := by
  unfold State.reportRate
  split
  · rw [State.bit_apRaise_apart _ hk hi, State.bit_setFld_apart _ _ _ _ _ _ _ (.inl (apReg_ne k (by decide)))]
  · rfl

/-- RATEBAD is 1 exactly beyond the limit; entering it sets its status bit and is one event, and nothing else is. -/
theorem State.judgeRate_facts (dev : Int) :
    let t := s.judgeRate k dev
    t.bit (apReg Reg.AP_STAT k) 2 = decide (s.fld (apReg Reg.AP_RATECFG k) 16 8 * 10 < dev.natAbs) ∧
      (s.bit (apReg Reg.AP_STAT k) 2 = false → t.bit (apReg Reg.AP_STAT k) 2 = true →
        t.bit (apReg Reg.AP_STAT k) 10 = true ∧ t.logSeq = (s.logSeq + 1) % 2 ^ 32) ∧
      (s.bit (apReg Reg.AP_STAT k) 2 = true ∨ t.bit (apReg Reg.AP_STAT k) 2 = false → t.logSeq = s.logSeq) := by
  have hev := eventReg_apStat hk
  dsimp only
  unfold State.judgeRate
  by_cases hlim : s.fld (apReg Reg.AP_RATECFG k) 16 8 * 10 < dev.natAbs
  · rw [if_pos hlim, decide_eq_true hlim]
    by_cases hbad : s.bit (apReg Reg.AP_STAT k) 2 = true
    · rw [if_pos hbad]
      exact ⟨hbad, fun h => absurd (hbad.symm.trans h) (by decide), fun _ => rfl⟩
    · rw [if_neg hbad]
      have hset : (((s.setBit (apReg Reg.AP_STAT k) 2 true).apRaise k 10).logViolation 5 2 { source := k }).bit (apReg Reg.AP_STAT k) 2 = true := by
        rw [State.bit_logViolation _ _ _ _ _ hev, State.bit_apRaise_apart _ hk (by decide), State.bit_setBit _ _ _ _ (by decide)]
      refine ⟨hset, fun _ _ => ⟨?_, ?_⟩, fun h => absurd (h.resolve_left hbad) (by simp [hset])⟩
      · rw [State.bit_logViolation _ _ _ _ _ hev, State.bit_apRaise _ hk (by decide)]
      · rw [State.logViolation_logSeq, State.apRaise_logSeq, State.setBit_logSeq]
  · rw [if_neg hlim, decide_eq_false hlim, State.bit_setBit _ _ _ _ (by decide)]
    exact ⟨rfl, fun _ h => absurd h (by decide), fun _ => State.setBit_logSeq _ _ _ _⟩

/-- What a measured window leaves, whether or not the deviation is reported. -/
theorem State.rateWindow_facts (n c : Nat) (dev : Int) (due : Bool) :
    let t := ((s.showRate k n c dev).reportRate k dev due).judgeRate k dev
    t.bit (apReg Reg.AP_RATE k) 31 = true ∧ t.fld (apReg Reg.AP_RATEDEV k) 0 16 = unsignedOf 16 dev ∧
      t.bit (apReg Reg.AP_STAT k) 2 = decide (s.fld (apReg Reg.AP_RATECFG k) 16 8 * 10 < dev.natAbs) ∧
      (s.bit (apReg Reg.AP_STAT k) 2 = false → t.bit (apReg Reg.AP_STAT k) 2 = true →
        t.bit (apReg Reg.AP_STAT k) 10 = true ∧ t.logSeq = (s.logSeq + 1) % 2 ^ 32) ∧
      (s.bit (apReg Reg.AP_STAT k) 2 = true ∨ t.bit (apReg Reg.AP_STAT k) 2 = false → t.logSeq = s.logSeq) := by
  obtain ⟨hbad, henter, hstay⟩ := ((s.showRate k n c dev).reportRate k dev due).judgeRate_facts hk dev
  have hev : ∀ {r : Nat}, Reg.AP_CTRL ≤ r → r ≤ Reg.AP_ZEROCNT → eventReg (apReg r k) = false := fun hlo hhi => eventReg_apReg hlo hhi hk
  have hstat : ((s.showRate k n c dev).reportRate k dev due).bit (apReg Reg.AP_STAT k) 2 = s.bit (apReg Reg.AP_STAT k) 2 := by
    rw [State.bit_reportRate_stat _ hk _ _ (by decide),
      State.bit_of_reg (s.reg_showRate k n c dev (apReg_ne k (by decide)) (apReg_ne k (by decide)))]
  have hlimit : ((s.showRate k n c dev).reportRate k dev due).fld (apReg Reg.AP_RATECFG k) 16 8 = s.fld (apReg Reg.AP_RATECFG k) 16 8 := by
    rw [State.fld_of_reg (State.reg_reportRate _ k dev due (hev (by decide) (by decide)) (apReg_ne k (by decide)) (apReg_ne k (by decide))),
      State.fld_of_reg (s.reg_showRate k n c dev (apReg_ne k (by decide)) (apReg_ne k (by decide)))]
  have hseq : ((s.showRate k n c dev).reportRate k dev due).logSeq = s.logSeq := by
    rw [State.reportRate_logSeq, State.showRate_logSeq]
  rw [hstat, hseq] at henter hstay
  rw [hlimit] at hbad
  refine ⟨?_, ?_, hbad, henter, hstay⟩
  · rw [State.bit_of_reg (State.reg_judgeRate _ k dev (hev (by decide) (by decide)) (apReg_ne k (by decide))),
      State.bit_of_reg (State.reg_reportRate _ k dev due (hev (by decide) (by decide)) (apReg_ne k (by decide)) (apReg_ne k (by decide))),
      State.bit_showRate]
  · rw [State.fld_of_reg (State.reg_judgeRate _ k dev (hev (by decide) (by decide)) (apReg_ne k (by decide))),
      State.fld_reportRate_dev _ hk, State.fld_showRate]

end

/-! ### A lost clock (R437) -/

/-- A slave port that has seen no frame start for 1 ms. -/
def State.loseClock (s : State) (k x : Nat) : State :=
  (((s.reach (x + 1000)).setBit (apReg Reg.AP_STAT k) 1 false).apRaise k 11).logViolation 5 3 { source := k }

theorem exec_audioNoclk_seen {s : State} {port : Fin 4} {x : Nat} (hon : s.apOn port = true) (hslave : s.bit (apReg Reg.AP_CTRL port) 1 = false)
    (hseen : s.bit (apReg Reg.AP_STAT port) 1 = true) (hx : (s.ap port).lastStart = some x) :
    exec (.audioNoclk port) s = .next (s.loseClock port x) := by
  rw [exec_audioNoclk, execAudioNoclk]
  dsimp only
  rw [if_pos (by simp [hon, hslave, hseen]), hx]
  rfl

theorem State.loseClock_facts (s : State) {k : Nat} (hk : k < 4) (x : Nat) :
    let t := s.loseClock k x
    t.bit (apReg Reg.AP_STAT k) 1 = false ∧ t.bit (apReg Reg.AP_STAT k) 11 = true ∧ t.logSeq = (s.logSeq + 1) % 2 ^ 32 ∧ x + 1000 ≤ t.now := by
  have hev := eventReg_apStat hk
  dsimp only
  unfold State.loseClock
  refine ⟨?_, ?_, ?_, ?_⟩
  · rw [State.bit_logViolation _ _ _ _ _ hev, State.bit_apRaise_apart _ hk (by decide), State.bit_setBit _ _ _ _ (by decide)]
  · rw [State.bit_logViolation _ _ _ _ _ hev, State.bit_apRaise _ hk (by decide)]
  · rw [State.logViolation_logSeq, State.apRaise_logSeq, State.setBit_logSeq]
    rfl
  · rw [State.logViolation_now, State.apRaise_now, State.setBit_now, State.reach_now]
    exact le_max_right _ _

end Sys2Proof.Machine
end

section
/-!
PROOFS. Frames on the wire: what a frame of an active port leaves in its buffers (R426, R429, R431).
-/
namespace Sys2Proof.Machine

/-! ### Reception -/

/-- A frame has started. -/
def State.frameStarted (s : State) (k time : Nat) : State :=
  ((s.reach time).setBit (apReg Reg.AP_STAT k) 1 true).updAp k fun p =>
    { p with lastStart := some time, reprime := p.reprime || !s.bit (apReg Reg.AP_STAT k) 1 }

/-- The samples received of a frame, slot by slot (R426). -/
def State.samplesOf (s : State) (k : Nat) (f : TdmFrame) : List Int :=
  (List.range (s.apSlots k)).map fun i =>
    if s.bit (apReg Reg.AP_INMASK k) i then rxSample (s.apSlotW k) (s.apWidth k) (f.slots.getD i 0) else 0

/-- A port with an input buffer, behind the reception of a frame without detection. -/
def AudioPort.withInput (p : AudioPort) (l : List (List Int)) : AudioPort := { p with input := l, lag := none, muted := [], sawPa := [] }

section
variable (p : AudioPort) (l : List (List Int))

@[simp] theorem AudioPort.withInput_input : (p.withInput l).input = l := by cases p; rfl
@[simp] theorem AudioPort.withInput_loop : (p.withInput l).loop = p.loop := by cases p; rfl
@[simp] theorem AudioPort.withInput_output : (p.withInput l).output = p.output := by cases p; rfl
@[simp] theorem AudioPort.withInput_lastStart : (p.withInput l).lastStart = p.lastStart := by cases p; rfl
@[simp] theorem AudioPort.withInput_downAt : (p.withInput l).downAt = p.downAt := by cases p; rfl
@[simp] theorem AudioPort.withInput_upAt : (p.withInput l).upAt = p.upAt := by cases p; rfl

end

section
variable {s t : State} {k : Nat}

theorem State.apSlots_of_reg (h : t.reg (apReg Reg.AP_FRAME k) = s.reg (apReg Reg.AP_FRAME k)) : t.apSlots k = s.apSlots k := by
  unfold State.apSlots
  rw [State.fld_of_reg h]

theorem State.apSlotW_of_reg (h : t.reg (apReg Reg.AP_FRAME k) = s.reg (apReg Reg.AP_FRAME k)) : t.apSlotW k = s.apSlotW k := by
  unfold State.apSlotW
  rw [State.fld_of_reg h]

theorem State.apWidth_of_reg (h : t.reg (apReg Reg.AP_FRAME k) = s.reg (apReg Reg.AP_FRAME k)) : t.apWidth k = s.apWidth k := by
  unfold State.apWidth
  rw [State.apSlotW_of_reg h, State.fld_of_reg h]

end

section
variable (s : State) {k : Nat}

theorem State.reg_frameStarted {a : Nat} (time : Nat) (h : a ≠ apReg Reg.AP_STAT k) : (s.frameStarted k time).reg a = s.reg a :=
  State.reg_setBit_apart _ _ _ h

theorem State.bit_frameStarted (time : Nat) : (s.frameStarted k time).bit (apReg Reg.AP_STAT k) 1 = true :=
  State.bit_setBit _ _ _ _ (by decide)

theorem State.frameStarted_now (time : Nat) : (s.frameStarted k time).now = max s.now time := rfl

theorem State.ap_frameStarted (time : Nat) (hlen : k < s.audio.ports.length) : (s.frameStarted k time).ap k =
    { s.ap k with lastStart := some time, reprime := (s.ap k).reprime || !s.bit (apReg Reg.AP_STAT k) 1 } :=
  State.ap_updAp _ _ hlen

theorem State.length_frameStarted (time : Nat) : (s.frameStarted k time).audio.ports.length = s.audio.ports.length :=
  State.length_updAp _ _ _

/-- What is received of a frame depends on registers apart from the status. -/
theorem State.samplesOf_frameStarted (time : Nat) (f : TdmFrame) : (s.frameStarted k time).samplesOf k f = s.samplesOf k f := by
  have hframe : (s.frameStarted k time).reg (apReg Reg.AP_FRAME k) = s.reg (apReg Reg.AP_FRAME k) := s.reg_frameStarted _ (apReg_ne k (by decide))
  have hmask := fun i => State.bit_of_reg (s.reg_frameStarted (a := apReg Reg.AP_INMASK k) time (apReg_ne k (by decide))) i
  unfold State.samplesOf
  simp only [State.apSlots_of_reg hframe, State.apSlotW_of_reg hframe, State.apWidth_of_reg hframe, hmask]

variable {s} (hna : s.bit (apReg Reg.AP_NACFG k) 31 = false)
include hna

theorem State.receive_undetected (got : List Int) : s.receive k got =
    ((s.updAp k fun p => { p with input := p.input ++ p.lag.toList ++ [got], lag := none, muted := [], sawPa := [] }).showMuted k).updAp k
      fun p => { p with input := Machine.newest 4096 p.input } := by
  unfold State.receive
  rw [if_neg (by simp [hna])]

theorem State.ap_receive (got : List Int) (hlen : k < s.audio.ports.length) : (s.receive k got).ap k =
    (s.ap k).withInput (Machine.newest 4096 ((s.ap k).input ++ (s.ap k).lag.toList ++ [got])) := by
  rw [State.receive_undetected hna, State.ap_updAp _ _ (by simpa using hlen), State.ap_of_audio (State.showMuted_audio _ _), State.ap_updAp _ _ hlen]
  rfl

theorem State.length_receive (got : List Int) : (s.receive k got).audio.ports.length = s.audio.ports.length := by
  rw [State.receive_undetected hna]
  simp

theorem State.outsOn_receive (got : List Int) (j : Nat) : (s.receive k got).outsOn j = s.outsOn j := by
  rw [State.receive_undetected hna, State.outsOn_updAp, State.outsOn_of_audio (State.showMuted_audio _ _), State.outsOn_updAp]

theorem State.reg_receive {a : Nat} (got : List Int) (h : eventReg a = false) (ha : a ≠ apReg Reg.AP_STAT k) (hn : a ≠ apReg Reg.AP_NASLOTS k) :
    (s.receive k got).reg a = s.reg a := by
  rw [State.receive_undetected hna, State.reg_updAp, State.reg_showMuted _ h ha, if_neg hn, State.reg_updAp]

theorem State.receive_now (got : List Int) : (s.receive k got).now = s.now := by
  rw [State.receive_undetected hna]
  simp

theorem State.bit_receive_started (got : List Int) (hk : k < 4) :
    (s.receive k got).bit (apReg Reg.AP_STAT k) 1 = s.bit (apReg Reg.AP_STAT k) 1 := by
  rw [State.receive_undetected hna, State.bit_updAp, State.bit_showMuted_stat _ hk (by decide) (by decide), State.bit_updAp]

end

/-! ### Transmission -/

/-- A port with a loopback buffer. Its fields are read by lemmas that rewrite: a comparison of ports by computation would count the 4,096
frames of a buffer out. -/
def AudioPort.withLoop (p : AudioPort) (l : List (List Int)) : AudioPort := { p with loop := l }

section
variable (p : AudioPort) (l : List (List Int))

@[simp] theorem AudioPort.withLoop_loop : (p.withLoop l).loop = l := by cases p; rfl
@[simp] theorem AudioPort.withLoop_input : (p.withLoop l).input = p.input := by cases p; rfl
@[simp] theorem AudioPort.withLoop_output : (p.withLoop l).output = p.output := by cases p; rfl
@[simp] theorem AudioPort.withLoop_lastStart : (p.withLoop l).lastStart = p.lastStart := by cases p; rfl
@[simp] theorem AudioPort.withLoop_reprime : (p.withLoop l).reprime = p.reprime := by cases p; rfl

end

/-- A frame enters the loopback buffer as it is transmitted. -/
def State.loopBack (s : State) (k : Nat) (f : List Int) : State :=
  s.updAp k fun p => p.withLoop (Machine.newest 4096 (p.loop ++ [f.map (txSample (s.apWidth k))]))

section
variable (s : State) (k : Nat) (f : List Int)

@[simp] theorem State.loopBack_now : (s.loopBack k f).now = s.now := State.updAp_now _ _ _
@[simp] theorem State.reg_loopBack (a : Nat) : (s.loopBack k f).reg a = s.reg a := State.reg_updAp _ _ _ _
@[simp] theorem State.fld_loopBack (a lo w : Nat) : (s.loopBack k f).fld a lo w = s.fld a lo w := State.fld_updAp _ _ _ _ _ _
@[simp] theorem State.bit_loopBack (a i : Nat) : (s.loopBack k f).bit a i = s.bit a i := State.bit_updAp _ _ _ _ _

theorem State.ap_loopBack {k : Nat} (hlen : k < s.audio.ports.length) :
    (s.loopBack k f).ap k = (s.ap k).withLoop (Machine.newest 4096 ((s.ap k).loop ++ [f.map (txSample (s.apWidth k))])) := State.ap_updAp _ _ hlen

end

/-- A zero frame of a port with a bound output: counted, and the frame it stands for is passed over while one is pending. -/
def State.missFrame (s : State) (k : Nat) : State :=
  (s.countZeros k 1).updAp k fun p => { p with used := if (s.outsOn k).any fun o => o.2.job.isSome then p.used + 1 else p.used }

theorem txSample_zero (w : Nat) : txSample w 0 = 0 := by simp [txSample]

section
variable (s : State) {k : Nat} (hdown : (s.ap k).downAt = none) (hup : (s.ap k).upAt = none)
include hdown hup

theorem State.rampFrame_none (f : List Int) : s.rampFrame k f = (f, s) := by
  unfold State.rampFrame
  dsimp only
  rw [hdown, hup]

end

section
variable {s : State} {k : Nat} (hlen : k < s.audio.ports.length)

theorem State.countZeros_one : s.countZeros k 1 =
    ((s.addSat (apReg Reg.AP_ZEROCNT k) 0 32 1).apRaise k 15).updAp k fun p => { p with reprime := true } := rfl

include hlen in
theorem State.ap_missFrame : ∃ n, (s.missFrame k).ap k = { s.ap k with reprime := true, used := n } := by
  have hlen' : k < ((s.addSat (apReg Reg.AP_ZEROCNT k) 0 32 1).apRaise k 15).audio.ports.length := by simpa using hlen
  unfold State.missFrame
  rw [State.ap_updAp _ _ (by simpa [State.countZeros_one] using hlen), State.countZeros_one, State.ap_updAp _ _ hlen',
    State.ap_of_audio ((State.apRaise_audio _ _ _).trans (State.addSat_audio _ _ _ _ _))]
  exact ⟨_, rfl⟩

theorem State.missFrame_now : (s.missFrame k).now = s.now := by
  simp [State.missFrame, State.countZeros_one, State.addSat]

theorem State.length_missFrame : (s.missFrame k).audio.ports.length = s.audio.ports.length := by
  simp [State.missFrame, State.countZeros_one]

/-- What a missed frame leaves in a register is its count and its status bit. -/
theorem State.reg_missFrame (a : Nat) : (s.missFrame k).reg a = ((s.addSat (apReg Reg.AP_ZEROCNT k) 0 32 1).apRaise k 15).reg a := by
  rw [State.missFrame, State.reg_updAp, State.countZeros_one, State.reg_updAp]

theorem State.reg_missFrame_apart {a : Nat} (h : eventReg a = false) (ha : a ≠ apReg Reg.AP_STAT k) (hz : a ≠ apReg Reg.AP_ZEROCNT k) :
    (s.missFrame k).reg a = s.reg a := by
  rw [State.reg_missFrame, State.reg_apRaise _ _ h ha, State.addSat, State.reg_setFld_apart _ _ _ _ hz]

theorem State.fld_missFrame (hk : k < 4) :
    (s.missFrame k).fld (apReg Reg.AP_ZEROCNT k) 0 32 = min (s.fld (apReg Reg.AP_ZEROCNT k) 0 32 + 1) (2 ^ 32 - 1) := by
  rw [State.fld_of_reg (State.reg_missFrame _),
    State.fld_of_reg (State.reg_apRaise _ _ (eventReg_apReg (by decide) (by decide) hk) (apReg_ne k (by decide))),
    State.fld_addSat _ _ _ _ _ (by decide)]

theorem State.bit_missFrame_started (hk : k < 4) : (s.missFrame k).bit (apReg Reg.AP_STAT k) 1 = s.bit (apReg Reg.AP_STAT k) 1 := by
  rw [State.bit_of_reg (State.reg_missFrame _), State.bit_apRaise_apart _ hk (by decide), State.addSat,
    State.bit_setFld_apart _ _ _ _ _ _ _ (.inl (apReg_ne k (by decide)))]

variable (hdown : (s.ap k).downAt = none) (hup : (s.ap k).upAt = none)
include hlen hdown hup

/-- The oldest committed frame is transmitted. -/
theorem State.transmit_committed {g : List Int} {rest : List (List Int)} (h : (s.ap k).output = g :: rest) :
    s.transmit k = (s.updAp k fun p => { p with output := rest }).loopBack k g := by
  have hap := s.ap_updAp (fun p => { p with output := rest }) hlen
  unfold State.transmit
  simp only [h]
  rw [State.rampFrame_none _ (by rw [hap]; exact hdown) (by rw [hap]; exact hup)]
  rfl

omit hlen in
/-- With no frame and no output, a zero frame is transmitted, and not counted. -/
theorem State.transmit_unbound (h : (s.ap k).output = []) (hout : s.outsOn k = []) :
    s.transmit k = s.loopBack k (List.replicate (s.apSlots k) 0) := by
  unfold State.transmit
  simp only [h, hout, List.isEmpty_nil, if_true]
  rw [State.rampFrame_none _ hdown hup]
  rfl

/-- With no frame for a bound output, a zero frame is transmitted and counted. -/
theorem State.transmit_missed (h : (s.ap k).output = []) (hout : s.outsOn k ≠ []) :
    s.transmit k = (s.missFrame k).loopBack k (List.replicate (s.apSlots k) 0) := by
  obtain ⟨n, hap⟩ := State.ap_missFrame hlen
  unfold State.transmit
  simp only [h, List.isEmpty_iff, hout, if_false]
  have hramp := State.rampFrame_none (s.missFrame k) (k := k) (by rw [hap]; exact hdown) (by rw [hap]; exact hup)
    (List.replicate (s.apSlots k) 0)
  unfold State.missFrame at hramp
  rw [hramp]
  rfl

/-- Whatever is transmitted, the time, the input buffer and what is shown of the frame starts stay. -/
theorem State.transmit_keeps (hk : k < 4) : (s.transmit k).now = s.now ∧ ((s.transmit k).ap k).lastStart = (s.ap k).lastStart ∧
    ((s.transmit k).ap k).input = (s.ap k).input ∧ (s.transmit k).bit (apReg Reg.AP_STAT k) 1 = s.bit (apReg Reg.AP_STAT k) 1 := by
  cases h : (s.ap k).output with
  | cons g rest =>
    rw [State.transmit_committed hlen hdown hup h, State.ap_loopBack _ _ (by simpa using hlen), State.ap_updAp _ _ hlen]
    simp
  | nil =>
    by_cases hout : s.outsOn k = []
    · rw [State.transmit_unbound hdown hup h hout, State.ap_loopBack _ _ hlen]
      simp
    · obtain ⟨n, hap⟩ := State.ap_missFrame hlen
      rw [State.transmit_missed hlen hdown hup h hout, State.ap_loopBack _ _ (by rwa [State.length_missFrame]), hap]
      simp [State.missFrame_now, State.bit_missFrame_started hk]

/-- A committed frame leaves the output buffer for the loopback buffer, and nothing is counted. -/
theorem State.transmit_committed_facts {g : List Int} {rest : List (List Int)} (h : (s.ap k).output = g :: rest) :
    ((s.transmit k).ap k).output = rest ∧
      ((s.transmit k).ap k).loop = Machine.newest 4096 ((s.ap k).loop ++ [g.map (txSample (s.apWidth k))]) ∧
      (s.transmit k).reg (apReg Reg.AP_ZEROCNT k) = s.reg (apReg Reg.AP_ZEROCNT k) := by
  rw [State.transmit_committed hlen hdown hup h, State.ap_loopBack _ _ (by simpa using hlen), State.ap_updAp _ _ hlen,
    State.apWidth_of_reg (State.reg_updAp s _ _ _)]
  simp

/-- With none, a zero frame enters the loopback buffer; it is counted, and the port re-primed, where an output is bound. -/
theorem State.transmit_empty_facts (hk : k < 4) (h : (s.ap k).output = []) :
    ((s.transmit k).ap k).output = [] ∧
      ((s.transmit k).ap k).loop = Machine.newest 4096 ((s.ap k).loop ++ [List.replicate (s.apSlots k) 0]) ∧
      (s.outsOn k = [] → (s.transmit k).reg (apReg Reg.AP_ZEROCNT k) = s.reg (apReg Reg.AP_ZEROCNT k)) ∧
      (s.outsOn k ≠ [] → ((s.transmit k).ap k).reprime = true ∧
        (s.transmit k).fld (apReg Reg.AP_ZEROCNT k) 0 32 = min (s.fld (apReg Reg.AP_ZEROCNT k) 0 32 + 1) (2 ^ 32 - 1)) := by
  by_cases hout : s.outsOn k = []
  · rw [State.transmit_unbound hdown hup h hout, State.ap_loopBack _ _ hlen, List.map_replicate, txSample_zero]
    simp [h, hout]
  · obtain ⟨n, hap⟩ := State.ap_missFrame hlen
    rw [State.transmit_missed hlen hdown hup h hout, State.ap_loopBack _ _ (by rwa [State.length_missFrame]), hap,
      List.map_replicate, txSample_zero]
    simp [h, hout, State.fld_missFrame hk]

end

/-! ### A frame -/

/-- A port whose frame has been received. -/
def State.heard (s : State) (k : Nat) (f : TdmFrame) : State := (s.frameStarted k f.time).receive k (s.samplesOf k f)

theorem State.audioFrame_off {s : State} {k : Nat} (h : s.apOn k = false) (f : TdmFrame) : s.audioFrame k f = s := by
  unfold State.audioFrame
  rw [if_pos (by simp [h])]

/-- A frame of an active port, not early, is received and then transmitted. -/
theorem State.audioFrame_active {s : State} {k : Nat} {f : TdmFrame} (hon : s.apOn k = true) (hactive : s.apActive k = true)
    (hearly : f.early = false) : s.audioFrame k f = (s.heard k f).transmit k := by
  have hstill : (s.frameStarted k f.time).apActive k = true := by
    exact (State.bit_setBit_apart _ _ _ _ _ _ (.inr (by decide))).trans hactive
  unfold State.heard
  rw [← s.samplesOf_frameStarted f.time f]
  unfold State.audioFrame
  simp only [hon, hearly, Bool.not_true, Bool.false_and, Bool.not_false, Bool.true_and, Bool.false_eq_true, if_false]
  exact if_neg (by
    rw [Bool.not_eq_true', Bool.not_eq_false]
    exact hstill)

section
variable {s : State} {k : Nat} (f : TdmFrame) (hna : s.bit (apReg Reg.AP_NACFG k) 31 = false)
include hna

theorem State.nacfg_frameStarted (time : Nat) : (s.frameStarted k time).bit (apReg Reg.AP_NACFG k) 31 = false :=
  (State.bit_of_reg (s.reg_frameStarted time (apReg_ne k (by decide))) 31).trans hna

/-- The received frame enters the input buffer; the other buffers and the ramps are as before. -/
theorem State.ap_heard (hlen : k < s.audio.ports.length) :
    ((s.heard k f).ap k).input = Machine.newest 4096 ((s.ap k).input ++ (s.ap k).lag.toList ++ [s.samplesOf k f]) ∧
      ((s.heard k f).ap k).lastStart = some f.time ∧ ((s.heard k f).ap k).output = (s.ap k).output ∧ ((s.heard k f).ap k).loop = (s.ap k).loop ∧
      ((s.heard k f).ap k).downAt = (s.ap k).downAt ∧ ((s.heard k f).ap k).upAt = (s.ap k).upAt := by
  rw [State.heard, State.ap_receive (State.nacfg_frameStarted hna _) _ (by rwa [State.length_frameStarted]), s.ap_frameStarted _ hlen]
  simp

theorem State.length_heard : (s.heard k f).audio.ports.length = s.audio.ports.length :=
  (State.length_receive (State.nacfg_frameStarted hna _) _).trans (s.length_frameStarted _)

theorem State.outsOn_heard : (s.heard k f).outsOn k = s.outsOn k := State.outsOn_receive (State.nacfg_frameStarted hna _) _ _

theorem State.le_heard_now : f.time ≤ (s.heard k f).now := by
  rw [State.heard, State.receive_now (State.nacfg_frameStarted hna _), State.frameStarted_now]
  exact le_max_right _ _

variable (hk : k < 4)
include hk

theorem State.bit_heard_started : (s.heard k f).bit (apReg Reg.AP_STAT k) 1 = true :=
  (State.bit_receive_started (State.nacfg_frameStarted hna _) _ hk).trans (s.bit_frameStarted _)

theorem State.reg_heard {r : Nat} (hlo : Reg.AP_CTRL ≤ r) (hhi : r ≤ Reg.AP_ZEROCNT) (hstat : r ≠ Reg.AP_STAT) (hslots : r ≠ Reg.AP_NASLOTS) :
    (s.heard k f).reg (apReg r k) = s.reg (apReg r k) :=
  (State.reg_receive (State.nacfg_frameStarted hna _) _ (eventReg_apReg hlo hhi hk) (apReg_ne k hstat) (apReg_ne k hslots)).trans
    (s.reg_frameStarted _ (apReg_ne k hstat))

end

section
variable {s : State} {k : Nat} (hk : k < 4) (hlen : k < s.audio.ports.length)
include hk hlen

/-- What a frame of an active port leaves, with detection off and no ramp (R426, R429, R431). -/
theorem State.audioFrame_facts {f : TdmFrame} (hon : s.apOn k = true) (hactive : s.apActive k = true) (hearly : f.early = false)
    (hna : s.bit (apReg Reg.AP_NACFG k) 31 = false) (hdown : (s.ap k).downAt = none) (hup : (s.ap k).upAt = none) :
    let t := s.audioFrame k f
    f.time ≤ t.now ∧ (t.ap k).lastStart = some f.time ∧ t.bit (apReg Reg.AP_STAT k) 1 = true ∧
      (t.ap k).input = Machine.newest 4096 ((s.ap k).input ++ (s.ap k).lag.toList ++ [s.samplesOf k f]) ∧
      (∀ g rest, (s.ap k).output = g :: rest → (t.ap k).output = rest ∧
        (t.ap k).loop = Machine.newest 4096 ((s.ap k).loop ++ [g.map (txSample (s.apWidth k))]) ∧
        t.reg (apReg Reg.AP_ZEROCNT k) = s.reg (apReg Reg.AP_ZEROCNT k)) ∧
      ((s.ap k).output = [] → (t.ap k).output = [] ∧
        (t.ap k).loop = Machine.newest 4096 ((s.ap k).loop ++ [List.replicate (s.apSlots k) 0]) ∧
        (s.outsOn k = [] → t.reg (apReg Reg.AP_ZEROCNT k) = s.reg (apReg Reg.AP_ZEROCNT k)) ∧
        (s.outsOn k ≠ [] → (t.ap k).reprime = true ∧
          t.fld (apReg Reg.AP_ZEROCNT k) 0 32 = min (s.fld (apReg Reg.AP_ZEROCNT k) 0 32 + 1) (2 ^ 32 - 1))) := by
  obtain ⟨hinput, hlast, houtput, hloop, hdown', hup'⟩ := State.ap_heard f hna hlen
  have hlen' : k < (s.heard k f).audio.ports.length := by rwa [State.length_heard f hna]
  rw [hdown] at hdown'
  rw [hup] at hup'
  have hframe := State.reg_heard f hna hk (r := Reg.AP_FRAME) (by decide) (by decide) (by decide) (by decide)
  have hzero := State.reg_heard f hna hk (r := Reg.AP_ZEROCNT) (by decide) (by decide) (by decide) (by decide)
  obtain ⟨hnow, hlast', hinput', hstart⟩ := State.transmit_keeps hlen' hdown' hup' hk
  dsimp only
  rw [State.audioFrame_active hon hactive hearly]
  refine ⟨(State.le_heard_now f hna).trans_eq hnow.symm, hlast'.trans hlast, hstart.trans (State.bit_heard_started f hna hk),
    hinput'.trans hinput, fun g rest hout => ?_, fun hout => ?_⟩
  · obtain ⟨hrest, hsent, hcount⟩ := State.transmit_committed_facts hlen' hdown' hup' (houtput.trans hout)
    rw [hloop, State.apWidth_of_reg hframe] at hsent
    exact ⟨hrest, hsent, hcount.trans hzero⟩
  · obtain ⟨hrest, hsent, hunbound, hbound⟩ := State.transmit_empty_facts hlen' hdown' hup' hk (houtput.trans hout)
    rw [hloop, State.apSlots_of_reg hframe] at hsent
    rw [State.outsOn_heard f hna] at hunbound hbound
    rw [State.fld_of_reg hzero] at hbound
    exact ⟨hrest, hsent, fun h => (hunbound h).trans hzero, hbound⟩

end

/-- Settles O52: a frame is its reception followed by its transmission, each with what it leaves in the port; a window of the rate is judged
once, and the expiry of a mute and the loss of a clock are one update each. -/
theorem audioFramesAreBufferedAndTransmitted : Obligations.AudioFramesAreBufferedAndTransmitted := by
  intro port s hports
  have hk : port.val < 4 := port.isLt
  have hlen : port.val < s.audio.ports.length := by omega
  refine ⟨fun hoff f => ?off, fun hon => ⟨fun f hactive hearly hna hdown hup => ?frame, fun n c => ⟨fun hn => ?short, fun hn hc => ?rate⟩,
    fun x hslave hseen hx => ?noclk⟩, fun slot n hm => ⟨fun hn => ?expired, fun hn => ?held⟩⟩
  case off => rw [exec_audioFrame, execAudioFrame, State.audioFrame_off hoff]
  case frame => exact ⟨_, exec_audioFrame _ _ _, State.audioFrame_facts hk hlen hon hactive hearly hna hdown hup⟩
  case short => exact ⟨_, exec_rateWindow_short c hon hn, State.bit_setBit _ _ _ _ (by decide)⟩
  case rate =>
    obtain ⟨due, hexec⟩ := exec_rateWindow_measured hon hn hc
    exact ⟨_, hexec, s.rateWindow_facts hk n c _ due⟩
  case noclk => exact ⟨_, exec_audioNoclk_seen hon hslave hseen hx, s.loseClock_facts hk x⟩
  case expired =>
    refine ⟨_, exec_nonaudioHoldExpiry_passed hm hn, ?_, s.bit_unmute slot hlen hk, fun j hj => ?_⟩
    · rw [s.ap_unmute slot hlen, keyGet_keyDel, if_pos rfl]
    · rw [s.ap_unmute slot hlen, keyGet_keyDel, if_neg hj]
  case held => exact exec_nonaudioHoldExpiry_held hm hn

end Sys2Proof.Machine
end

section
/-!
PROOFS. Byte strings written at an address of T0.
-/
namespace Sys2Proof.Machine

/-! ### Sparse cells laid over a memory -/

theorem cellGet_filter_key {w : Nat} (p : Nat → Bool) (m : Cells w) (a : Nat) :
    cellGet (m.filter fun c => p c.1) a = if p a then cellGet m a else 0 := by
  induction m with
  | nil => simp [cellGet]
  | cons c m ih =>
    obtain ⟨k, v⟩ := c
    rw [List.filter_cons]
    by_cases ha : a = k
    · subst ha
      by_cases hp : p a <;> simp [hp, ih, cellGet]
    · by_cases hp : p k <;> simp [hp, ih, cellGet, ha]

theorem cellGet_cellClear {w : Nat} (m : Cells w) (lo len a : Nat) :
    cellGet (cellClear m lo len) a = if lo ≤ a ∧ a < lo + len then 0 else cellGet m a := by
  rw [cellClear, cellGet_filter_key fun k => !(lo ≤ k && k < lo + len)]
  by_cases h : lo ≤ a ∧ a < lo + len <;> simp [h]

/-- Cells in canonical form, each written `a` further on: what they list stands there, and every other cell is as it was. -/
theorem cellGet_foldl_cellSet {w : Nat} (a x : Nat) :
    ∀ (cs : Cells w) {lo : Nat} (m : Cells w), cellRising lo cs = true →
      cellGet (cs.foldl (fun m c => cellSet m (a + c.1) c.2) m) x =
        if a ≤ x ∧ cellGet cs (x - a) ≠ 0 then cellGet cs (x - a) else cellGet m x
  | [], _, m, _ => by simp [cellGet]
  | (k, v) :: cs, lo, m, h => by
    simp only [cellRising, Bool.and_eq_true, decide_eq_true_eq] at h
    obtain ⟨⟨_, hv⟩, hcs⟩ := h
    rw [List.foldl_cons, cellGet_foldl_cellSet a x cs _ hcs, cellGet_cellSet]
    by_cases hx : x = a + k
    · have hk : cellGet cs (x - a) = 0 := cellGet_below hcs (by omega)
      have hsub : x - a = k := by omega
      rw [if_neg (fun h => h.2 hk), if_pos hx, hsub]
      simp only [cellGet, if_true]
      rw [if_pos ⟨by omega, hv⟩]
    · by_cases ha : a ≤ x
      · have hsub : x - a ≠ k := by omega
        simp only [cellGet, if_neg hsub, if_neg hx]
      · rw [if_neg (fun h => ha h.1), if_neg hx, if_neg (fun h => ha h.1)]

/-! ### Bytes stored in T0 -/

section
variable (s : State) {a : Nat} {bs : List Byte}

/-- The cells that a byte string lists, from 0 on. -/
theorem cellGet_byteCells (bs : List Byte) (j : Nat) :
    cellGet ((cellSetMany [] 0 bs).filter fun c => inRange c.1 0 bs.length) j = if j < bs.length then bs.getD j 0 else 0 := by
  rw [cellGet_filter_key fun k => inRange k 0 bs.length, cellGet_cellSetMany]
  by_cases hj : j < bs.length <;> simp [inRange, hj]

theorem State.storeBytes_t0_eq (h : a < 0x300_0000) : (s.storeBytes a bs).t0 =
    ((cellSetMany [] 0 bs).filter fun c => inRange c.1 0 bs.length).foldl (fun m c => cellSet m (a + c.1) c.2)
      (cellClear s.t0 a bs.length) := by
  simp [State.storeBytes, State.sparseWrite, State.pieces, State.place, h, State.setCells, State.cells]

/-- A byte string that ends within T0 stands where it was written, and every other byte of T0 is as it was. -/
theorem State.cellGet_storeBytes (h : a + bs.length ≤ 0x300_0000) (x : Nat) :
    cellGet (s.storeBytes a bs).t0 x = if a ≤ x ∧ x < a + bs.length then bs.getD (x - a) 0 else cellGet s.t0 x := by
  by_cases ha : a < 0x300_0000
  · have hwf : cellRising 0 ((cellSetMany [] 0 bs).filter fun c => inRange c.1 0 bs.length) = true :=
      cellFilter_wf _ (cellSetMany_wf bs rfl)
    rw [s.storeBytes_t0_eq ha, cellGet_foldl_cellSet _ _ _ _ hwf, cellGet_byteCells, cellGet_cellClear]
    by_cases hx : a ≤ x ∧ x < a + bs.length
    · rw [if_pos (show x - a < bs.length by omega), if_pos hx, if_pos hx]
      split
      · rfl
      · next h0 => exact (not_not.1 fun h => h0 ⟨hx.1, h⟩).symm
    · rw [if_neg hx, if_neg hx, if_neg]
      rintro ⟨hle, hne⟩
      exact hne (if_neg (by omega))
  · have hnil : bs = [] := List.length_eq_zero_iff.1 (by omega)
    have ha : a = 0x300_0000 := by rw [hnil] at h; simp at h; omega
    subst hnil ha
    rw [if_neg (by simp)]
    rfl

@[simp] theorem State.storeBytes_cam : (s.storeBytes a bs).cam = s.cam := (State.storeBytes_eff Sub.rfl .refl).cam rfl

end

end Sys2Proof.Machine
end

section
/-!
PROOFS. The camera receiver: frames that start and end, lines that are stored, frames that are dropped or bad (R455, R457, R465).
-/
namespace Sys2Proof.Machine

/-! ### Its counters and events -/

section
variable (s : State)

@[simp] theorem State.addSat_cam (a lo w n : Nat) : (s.addSat a lo w n).cam = s.cam := State.setFld_cam _ _ _ _ _

theorem State.reg_addSat_apart {a b : Nat} (lo w n : Nat) (h : b ≠ a) : (s.addSat a lo w n).reg b = s.reg b :=
  State.reg_setFld_apart _ _ _ _ h

@[simp] theorem State.camDrop_cam : s.camDrop.cam = s.cam := by rw [State.camDrop, State.raise_cam, State.addSat_cam]

/-- A drop is counted. -/
theorem State.fld_camDrop : s.camDrop.fld Reg.CAM_DROPCNT 0 32 = min (s.fld Reg.CAM_DROPCNT 0 32 + 1) (2 ^ 32 - 1) := by
  rw [State.camDrop, State.fld_raise _ _ _ _ _ _ (by decide) (by decide), State.fld_addSat _ _ _ _ _ (by decide)]

theorem State.bit_camDrop : s.camDrop.bit Reg.CAM_STAT 11 = true := State.bit_raise _ _ _ _ (by decide) (by decide)

theorem State.reg_camDrop_framecnt : s.camDrop.reg Reg.CAM_FRAMECNT = s.reg Reg.CAM_FRAMECNT := by
  rw [State.camDrop, State.reg_raise _ _ _ _ (by decide) (by decide), State.reg_addSat_apart _ _ _ _ (by decide)]

theorem State.camOther_eq : s.camOther = { s with regs := s.camOther.regs } := rfl

theorem State.fld_camOther : s.camOther.fld Reg.CAM_BADCNT 16 16 = min (s.fld Reg.CAM_BADCNT 16 16 + 1) (2 ^ 16 - 1) :=
  State.fld_addSat _ _ _ _ _ (by decide)

end

/-! ### A bad frame -/

section
variable {s : State}

theorem State.camBad_good (sub : Nat) (hframe : s.cam.inFrame = true) (hbad : s.cam.bad = false) :
    s.camBad sub = (s.logViolation 6 sub).updCam fun c => { c with bad := true } := by
  rw [State.camBad, if_pos (by simp [hframe, hbad])]

theorem State.camBad_bad (sub : Nat) (hbad : s.cam.bad = true) : s.camBad sub = s := by
  rw [State.camBad, if_neg (by simp [hbad])]

theorem State.camBad_cam (sub : Nat) (hframe : s.cam.inFrame = true) : (s.camBad sub).cam = { s.cam with bad := true } := by
  cases hbad : s.cam.bad with
  | false => rw [State.camBad_good sub hframe hbad, State.updCam, State.logViolation_cam]
  | true => rw [State.camBad_bad sub hbad, ← hbad]

theorem State.reg_camBad (sub : Nat) {a : Nat} (h : eventReg a = false) : (s.camBad sub).reg a = s.reg a := by
  unfold State.camBad
  split
  · rw [State.reg_updCam, State.reg_logViolation _ _ _ _ h]
  · rfl

/-- A frame that turns bad is one event. -/
theorem State.camBad_facts (sub : Nat) (hframe : s.cam.inFrame = true) (hbad : s.cam.bad = false) :
    (s.camBad sub).cam = { s.cam with bad := true } ∧ (s.camBad sub).logSeq = (s.logSeq + 1) % 2 ^ 32 ∧ (s.camBad sub).t0 = s.t0 := by
  refine ⟨State.camBad_cam sub hframe, ?_, ?_⟩ <;> rw [State.camBad_good sub hframe hbad]
  · rw [State.updCam_logSeq, State.logViolation_logSeq]
  · rw [State.updCam_t0, State.logViolation_t0]

variable (s)

theorem State.camEndBad_cam : s.camEndBad.cam = { s.cam.turn .filling .free with inFrame := false, bad := false, line := 0 } := by
  rw [State.camEndBad, State.raise_cam, State.addSat_cam, State.updCam]

theorem State.fld_camEndBad : s.camEndBad.fld Reg.CAM_BADCNT 0 16 = min (s.fld Reg.CAM_BADCNT 0 16 + 1) (2 ^ 16 - 1) := by
  rw [State.camEndBad, State.fld_raise _ _ _ _ _ _ (by decide) (by decide), State.fld_addSat _ _ _ _ _ (by decide), State.fld_updCam]

theorem State.bit_camEndBad : s.camEndBad.bit Reg.CAM_STAT 9 = true := State.bit_raise _ _ _ _ (by decide) (by decide)

theorem State.reg_camEndBad_framecnt : s.camEndBad.reg Reg.CAM_FRAMECNT = s.reg Reg.CAM_FRAMECNT := by
  rw [State.camEndBad, State.reg_raise _ _ _ _ (by decide) (by decide), State.reg_addSat_apart _ _ _ _ (by decide), State.reg_updCam]

end

/-! ### Frame Start -/

/-- A frame has started: the link shows it, and the time without one begins again. -/
def State.camStarted (s : State) : State :=
  (s.setBit Reg.CAM_STAT 1 true).updCam fun c => { c with lastStart := s.now, missLogged := false }

/-- A frame takes a buffer for FILLING. -/
def State.camTake (s : State) (i : Nat) : State :=
  s.updCam fun c => { c with bufs := c.bufs.set i .filling, inFrame := true, bad := false, line := 0 }

section
variable {s : State} {vc : Fin 4} {i : Nat} (hon : s.camActive = true) (hvc : vc.val = s.camVc) (hidle : s.cam.inFrame = false)
include hon hvc hidle

theorem exec_camFrameStart_free (hfree : s.cam.bufs.findIdx? (· = .free) = some i) :
    exec (.camFrameStart vc) s = .next (s.camStarted.camTake i) := by
  rw [exec_camFrameStart, execCamFrameStart]
  simp only [hon, hvc, hidle, Bool.not_true, Bool.false_eq_true, if_false, bne_self_eq_false, State.updCam_cam, State.setBit_cam, hfree]
  rfl

theorem exec_camFrameStart_ready (hfree : s.cam.bufs.findIdx? (· = .free) = none) (hready : s.cam.bufs.findIdx? (· = .ready) = some i) :
    exec (.camFrameStart vc) s = .next (s.camStarted.camTake i).camDrop := by
  rw [exec_camFrameStart, execCamFrameStart]
  simp only [hon, hvc, hidle, Bool.not_true, Bool.false_eq_true, if_false, bne_self_eq_false, State.updCam_cam, State.setBit_cam, hfree, hready]
  rfl

end

theorem State.camTake_started_cam (s : State) (i : Nat) : (s.camStarted.camTake i).cam =
    { s.cam with bufs := s.cam.bufs.set i .filling, inFrame := true, bad := false, line := 0, lastStart := s.now, missLogged := false } := rfl

theorem State.reg_camTake_started_apart (s : State) (i : Nat) {a : Nat} (h : a ≠ Reg.CAM_STAT) :
    (s.camStarted.camTake i).reg a = s.reg a := State.reg_setBit_apart _ _ _ h

theorem State.bit_camTake_started (s : State) (i : Nat) : (s.camStarted.camTake i).bit Reg.CAM_STAT 1 = true :=
  State.bit_setBit _ _ _ _ (by decide)

/-! ### Frame End -/

/-- An older READY buffer is dropped. -/
def State.camDropOld (s : State) : State :=
  if s.cam.bufs.contains .ready then (s.updCam fun c => c.turn .ready .free).camDrop else s

/-- A good frame ends: its buffer becomes READY, and it is counted. -/
def State.camEndGood (s : State) : State :=
  (s.camDropOld.updCam fun c =>
    { c.turn .filling .ready with inFrame := false, line := 0, good := c.good + 1, readySeq := c.good + 1 }).addSat Reg.CAM_FRAMECNT 0 32 1

section
variable {s : State} {vc : Fin 4} (hon : s.camActive = true) (hvc : vc.val = s.camVc) (hframe : s.cam.inFrame = true)
include hon hvc hframe

theorem exec_camFrameEnd_good (hbad : s.cam.bad = false) (hline : s.cam.line = s.camH) :
    exec (.camFrameEnd vc) s = .next s.camEndGood := by
  rw [exec_camFrameEnd, execCamFrameEnd]
  simp only [hon, hvc, hframe, hbad, hline, Bool.not_true, Bool.false_eq_true, if_false, if_true, bne_self_eq_false]
  rfl

/-- A frame of another line count turns bad as it ends. -/
theorem exec_camFrameEnd_bad (h : s.cam.bad = true ∨ s.cam.line ≠ s.camH) :
    exec (.camFrameEnd vc) s = .next (s.camBad 3).camEndBad := by
  rw [exec_camFrameEnd, execCamFrameEnd]
  have hkept : (if s.cam.line = s.camH then s else s.camBad 3) = s.camBad 3 := by
    split
    · next hline => exact (State.camBad_bad 3 (h.resolve_right (not_not_intro hline))).symm
    · rfl
  simp only [hon, hvc, hframe, hkept, State.camBad_cam 3 hframe, Bool.not_true, Bool.false_eq_true, if_false, if_true, bne_self_eq_false]

end

section
variable (s : State)

theorem State.camDropOld_of_ready (h : .ready ∈ s.cam.bufs) : s.camDropOld = (s.updCam fun c => c.turn .ready .free).camDrop :=
  if_pos (List.contains_iff_mem.2 h)

theorem State.camDropOld_of_not_ready (h : .ready ∉ s.cam.bufs) : s.camDropOld = s := if_neg fun e => h (List.contains_iff_mem.1 e)

theorem State.camDropOld_bufs : s.camDropOld.cam.bufs = s.cam.bufs.map fun b => if b = .ready then .free else b := by
  by_cases h : .ready ∈ s.cam.bufs
  · rw [s.camDropOld_of_ready h, State.camDrop_cam]
    rfl
  · have hkept : ∀ b ∈ s.cam.bufs, (if b = .ready then .free else b) = b := by
      intro b hb
      rw [if_neg]
      rintro rfl
      exact h hb
    rw [s.camDropOld_of_not_ready h, List.map_congr_left hkept, List.map_id']

theorem State.reg_camDropOld_framecnt : s.camDropOld.reg Reg.CAM_FRAMECNT = s.reg Reg.CAM_FRAMECNT := by
  by_cases h : .ready ∈ s.cam.bufs
  · rw [s.camDropOld_of_ready h, State.reg_camDrop_framecnt, State.reg_updCam]
  · rw [s.camDropOld_of_not_ready h]

theorem State.camEndGood_bufs :
    s.camEndGood.cam.bufs = s.cam.bufs.map fun b => if b = .filling then .ready else if b = .ready then .free else b := by
  have hbufs : s.camEndGood.cam.bufs = s.camDropOld.cam.bufs.map fun b => if b = .filling then .ready else b := rfl
  rw [hbufs, State.camDropOld_bufs, List.map_map]
  refine List.map_congr_left fun b _ => ?_
  cases b <;> rfl

theorem State.fld_camEndGood : s.camEndGood.fld Reg.CAM_FRAMECNT 0 32 = min (s.fld Reg.CAM_FRAMECNT 0 32 + 1) (2 ^ 32 - 1) := by
  rw [State.camEndGood, State.fld_addSat _ _ _ _ _ (by decide), State.fld_updCam, State.fld_of_reg s.reg_camDropOld_framecnt]

theorem State.reg_camEndGood_dropcnt : s.camEndGood.reg Reg.CAM_DROPCNT = s.camDropOld.reg Reg.CAM_DROPCNT :=
  State.reg_addSat_apart _ _ _ _ (by decide)

end

/-! ### Long packets -/

section
variable {s : State} {p : LongPacket} (hon : s.camActive = true) (hvc : p.vc.val = s.camVc)
include hon hvc

/-- A whole line of the chosen type is stored in the FILLING buffer. -/
theorem exec_camLongPacket_line {b n i : Nat} (hframe : s.cam.inFrame = true) (hecc : p.ecc ≤ 1) (hcrc : p.crcOk = true)
    (hpixel : pixelType p.dtype = true) (htype : p.dtype = s.camType) (hlen : p.bytes.length = s.camLine) (harea : s.cam.area = some (b, n))
    (hfill : s.cam.bufs.findIdx? (· = .filling) = some i) (hline : s.cam.line < s.camH) :
    exec (.camLongPacket p) s = .next ((s.updCam fun c => { c with line := s.cam.line + 1 }).storeBytes
      (s.camBuf b i + s.cam.line * s.camPitch) p.bytes) := by
  have hpixel : pixelType s.camType = true := htype ▸ hpixel
  rw [exec_camLongPacket, execCamLongPacket]
  simp only [hon, hvc, hframe, if_neg (Nat.not_lt.2 hecc), hcrc, hpixel, htype, hlen, harea, hfill, Bool.not_true, Bool.false_eq_true, if_false,
    bne_self_eq_false, State.updCam_cam]
  exact congrArg _ (if_pos hline)

/-- A damaged packet, or a pixel line of another type or length, makes the frame bad. -/
theorem exec_camLongPacket_bad (hframe : s.cam.inFrame = true)
    (h : 1 < p.ecc ∨ (pixelType p.dtype = true ∧ (p.dtype ≠ s.camType ∨ p.crcOk = false ∨ p.bytes.length ≠ s.camLine))) :
    ∃ sub, exec (.camLongPacket p) s = .next (s.camBad sub) := by
  rw [exec_camLongPacket, execCamLongPacket]
  simp only [hon, hvc, hframe, Bool.not_true, Bool.false_eq_true, if_false, bne_self_eq_false]
  by_cases hecc : 1 < p.ecc
  · exact ⟨1, by rw [if_pos hecc]⟩
  obtain ⟨hpixel, h⟩ := h.resolve_left hecc
  simp only [if_neg hecc, hpixel, Bool.not_true, Bool.false_eq_true, if_false]
  by_cases htype : p.dtype = s.camType
  · cases hcrc : p.crcOk with
    | false => exact ⟨1, by simp [htype]⟩
    | true =>
      have hlen : p.bytes.length ≠ s.camLine := by simpa [htype, hcrc] using h
      exact ⟨2, by simp [htype, hlen]⟩
  · exact ⟨5, by simp [htype]⟩

theorem exec_camLongPacket_idle (hidle : s.cam.inFrame = false) (hecc : p.ecc ≤ 1) :
    exec (.camLongPacket p) s = .next (s.logViolation 6 4) := by
  rw [exec_camLongPacket, execCamLongPacket]
  simp [hon, hvc, hidle, hecc]

end

/-! ### Other channels, and no frame -/

section
variable {s : State} (hon : s.camActive = true)
include hon

/-- A packet on another channel is counted and discarded. -/
theorem exec_cam_otherChannel {c : Instr} {vc : Fin 4} (hvc : vc.val ≠ s.camVc)
    (hc : c = .camFrameStart vc ∨ c = .camFrameEnd vc ∨ (∃ p : LongPacket, c = .camLongPacket p ∧ p.vc = vc ∧ p.ecc ≤ 1)) :
    exec c s = .next s.camOther := by
  rcases hc with rfl | rfl | ⟨p, rfl, rfl, hecc⟩
  · rw [exec_camFrameStart, execCamFrameStart]
    simp [hon, hvc]
  · rw [exec_camFrameEnd, execCamFrameEnd]
    simp [hon, hvc]
  · rw [exec_camLongPacket, execCamLongPacket]
    simp [hon, hvc, hecc]

end

/-- No frame has started for MISSMS. -/
def State.camMissed (s : State) : State :=
  ((((s.reach (s.cam.lastStart + 1000 * s.fld Reg.CAM_CTRL 16 8)).setBit Reg.CAM_STAT 1 false).raise .cam Reg.CAM_STAT 10).logViolation 6 6).updCam
    fun c => { c with missLogged := true }

theorem exec_camNoFrame_missed {s : State} (hon : s.camActive = true) (hmiss : s.cam.missLogged = false) :
    exec .camNoFrame s = .next s.camMissed := by
  rw [exec_camNoFrame, execCamNoFrame]
  exact congrArg _ (if_pos (by simp [hon, hmiss]))

theorem State.camMissed_facts (s : State) :
    let t := s.camMissed
    t.bit Reg.CAM_STAT 1 = false ∧ t.bit Reg.CAM_STAT 10 = true ∧ t.cam = { s.cam with missLogged := true } ∧
      t.logSeq = (s.logSeq + 1) % 2 ^ 32 ∧ s.cam.lastStart + 1000 * s.fld Reg.CAM_CTRL 16 8 ≤ t.now := by
  have hev : eventReg Reg.CAM_STAT = false := by decide
  dsimp only
  unfold State.camMissed
  refine ⟨?_, ?_, ?_, ?_, ?_⟩
  · rw [State.bit_updCam, State.bit_logViolation _ _ _ _ _ hev, State.bit_raise_apart _ _ _ _ _ hev (by decide), State.bit_setBit _ _ _ _ (by decide)]
  · rw [State.bit_updCam, State.bit_logViolation _ _ _ _ _ hev, State.bit_raise _ _ _ _ hev (by decide)]
  · rw [State.updCam, State.logViolation_cam, State.raise_cam, State.setBit_cam, State.reach_cam]
  · rw [State.updCam_logSeq, State.logViolation_logSeq, State.raise_logSeq, State.setBit_logSeq, State.reach_logSeq]
  · rw [State.updCam_now, State.logViolation_now, State.raise_now, State.setBit_now, State.reach_now]
    exact le_max_right _ _

/-- Settles O53: each packet answers one named update, a buffer taken, a line stored, a frame ended or turned bad, and each update has its
facts. -/
theorem cameraFramesAreFilledAndEnded : Obligations.CameraFramesAreFilledAndEnded := by
  intro s hon _
  refine ⟨fun vc hvc => ⟨fun hidle => ⟨fun i hfree => ?takeFree, fun i hfree hready => ?takeReady⟩, fun hframe hbad hline => ?good,
      fun hframe h => ?endBad⟩,
    fun p hvc => ⟨fun b n i hframe hecc hcrc hpixel htype hlen harea hfill hline => ?line, fun hframe hbad h => ?spoilt,
      fun hidle hecc => ?stray⟩,
    fun c vc hvc hc => ?other, fun hmiss => ?missed⟩
  case takeFree =>
    exact ⟨_, exec_camFrameStart_free hon hvc hidle hfree, rfl, rfl, rfl, s.bit_camTake_started i, s.reg_camTake_started_apart i (by decide)⟩
  case takeReady =>
    refine ⟨_, exec_camFrameStart_ready hon hvc hidle hfree hready, ?_, ?_, State.bit_camDrop _, ?_⟩
    · rw [State.camDrop_cam, State.camTake_started_cam]
    · rw [State.camDrop_cam, State.camTake_started_cam]
    · rw [State.fld_camDrop, State.fld_of_reg (s.reg_camTake_started_apart i (by decide))]
  case good =>
    refine ⟨_, exec_camFrameEnd_good hon hvc hframe hbad hline, rfl, s.camEndGood_bufs, s.fld_camEndGood, fun h => ?_, fun h => ?_⟩
    · rw [State.fld_of_reg s.reg_camEndGood_dropcnt, s.camDropOld_of_ready h, State.fld_camDrop, State.fld_updCam]
    · rw [s.reg_camEndGood_dropcnt, s.camDropOld_of_not_ready h]
  case endBad =>
    refine ⟨_, exec_camFrameEnd_bad hon hvc hframe h, ?_, ?_, ?_, State.bit_camEndBad _, ?_⟩
    · rw [State.camEndBad_cam]
    · rw [State.camEndBad_cam, State.camBad_cam 3 hframe]
      rfl
    · rw [State.fld_camEndBad, State.fld_of_reg (State.reg_camBad 3 (by decide))]
    · rw [State.reg_camEndBad_framecnt, State.reg_camBad 3 (by decide)]
  case line =>
    intro a hfit
    refine ⟨_, exec_camLongPacket_line hon hvc hframe hecc hcrc hpixel htype hlen harea hfill hline, State.storeBytes_cam _, fun j hj => ?_,
      fun x hx => ?_⟩
    · rw [State.cellGet_storeBytes _ hfit, if_pos ⟨Nat.le_add_right _ _, Nat.add_lt_add_left hj _⟩, Nat.add_sub_cancel_left]
    · rw [State.cellGet_storeBytes _ hfit, if_neg (by omega), State.updCam_t0]
  case spoilt =>
    obtain ⟨sub, hexec⟩ := exec_camLongPacket_bad hon hvc hframe h
    exact ⟨_, hexec, State.camBad_facts sub hframe hbad⟩
  case stray =>
    exact ⟨_, exec_camLongPacket_idle hon hvc hidle hecc, State.logViolation_cam _ _ _ _, State.logViolation_logSeq _ _ _ _,
      State.logViolation_t0 _ _ _ _⟩
  case other => exact ⟨_, exec_cam_otherChannel hon hvc hc, rfl, s.fld_camOther, s.camOther_eq⟩
  case missed => exact ⟨_, exec_camNoFrame_missed hon hmiss, s.camMissed_facts⟩

end Sys2Proof.Machine
end

section
/-!
PROOFS. A step is the command at the front of the queue, every command answers, and every step keeps the queue behind it and a sound state sound
(opcode table; Tables 4-3, 10-1, 13-1).
-/
namespace Sys2Proof.Machine

theorem step_of_empty {s : State} (h : s.pending = []) : step s = .next s := by unfold step; rw [h]

theorem step_of_front {s : State} {c : Instr} {cs : List Instr} (h : s.pending = c :: cs) : step s = exec c { s with pending := cs } := by
  unfold step; rw [h]

/-- Settles O1: `step` takes the queue apart, and runs what stands at its front. -/
theorem stepRunsTheFrontCommand : Obligations.StepRunsTheFrontCommand :=
  ⟨fun _ _ _ => step_of_front rfl, fun _ hempty => step_of_empty hempty⟩

/-- Settles O2: each arm of `exec` is a meaning that answers a next state by its definition. -/
theorem everyCommandAnswersANextState : Obligations.EveryCommandAnswersANextState := by
  intro c s
  cases c <;> exact ⟨_, rfl⟩

/-- Settles O3: bit 0, which stands for the queue, is in the mask of no command. -/
theorem commandsLeaveTheQueueAlone : Obligations.CommandsLeaveTheQueueAlone := by
  intro c s t hexec
  have hmask : (effMask c).testBit 0 = false := by cases c <;> dsimp only [effMask] <;> rfl
  exact ((exec_eff c s).kept t hexec).pending hmask

/-- Settles O4: an empty queue leaves the state; else the command at the front keeps what `Kept` says of the state without it. -/
theorem stepKeepsStatesSound : Obligations.StepKeepsStatesSound := by
  intro s t hsound hstep
  match hqueue : s.pending with
  | [] =>
    rw [step_of_empty hqueue] at hstep
    cases hstep
    exact hsound
  | c :: cs =>
    rw [step_of_front hqueue] at hstep
    have hkept : Kept cs ({ s with pending := cs } : State) := (kept_iff _ _).2 ⟨rfl, hsound⟩
    exact ((kept_iff _ _).1 ((exec_kept hkept).kept t hstep)).2

/-- Settles O5: the lists of the state after reset are in canonical form, part by part. -/
theorem resetStateIsSound : Obligations.ResetStateIsSound := ((kept_iff _ _).1 reset_sound).symm

end Sys2Proof.Machine
end

section
/-!
PROOFS. The frames of memory, of streams, queues and ports, and of the peripheral parts: the masks of `exec_eff` against the lists of commands.
-/
namespace Sys2Proof.Machine

/-! ### The lists of commands against their masks -/

theorem effMask_t0 (c : Instr) : (effMask c).testBit 23 = c.storesT0 := by cases c <;> dsimp only [effMask] <;> rfl
theorem effMask_t1 (c : Instr) : (effMask c).testBit 28 = c.storesT1 := by cases c <;> dsimp only [effMask] <;> rfl
theorem effMask_host (c : Instr) : (effMask c).testBit 31 = c.storesHost := by cases c <;> dsimp only [effMask] <;> rfl
theorem effMask_streams (c : Instr) : (effMask c).testBit 40 = c.changesStreams := by cases c <;> dsimp only [effMask] <;> rfl
theorem effMask_queues (c : Instr) : (effMask c).testBit 44 = c.changesQueues := by cases c <;> dsimp only [effMask] <;> rfl
theorem effMask_staging (c : Instr) : (effMask c).testBit 48 = c.changesStaging := by cases c <;> dsimp only [effMask] <;> rfl
theorem effMask_ports (c : Instr) : (effMask c).testBit 57 = c.changesPorts := by cases c <;> dsimp only [effMask] <;> rfl
theorem effMask_power (c : Instr) : (effMask c).testBit 66 = c.changesPower := by cases c <;> dsimp only [effMask] <;> rfl
theorem effMask_audio (c : Instr) : (effMask c).testBit 67 = c.changesAudio := by cases c <;> dsimp only [effMask] <;> rfl
theorem effMask_cam (c : Instr) : (effMask c).testBit 68 = c.changesCamera := by cases c <;> dsimp only [effMask] <;> rfl
theorem effMask_aon (c : Instr) : (effMask c).testBit 69 = c.changesAlwaysOn := by cases c <;> dsimp only [effMask] <;> rfl
theorem effMask_nv (c : Instr) : (effMask c).testBit 70 = c.changesFlash := by cases c <;> dsimp only [effMask] <;> rfl
theorem effMask_hsp (c : Instr) : (effMask c).testBit 71 = c.changesHsp := by cases c <;> dsimp only [effMask] <;> rfl
theorem effMask_psp (c : Instr) : (effMask c).testBit 72 = c.changesPsp := by cases c <;> dsimp only [effMask] <;> rfl
theorem effMask_jtag (c : Instr) : (effMask c).testBit 73 = c.changesTap := by cases c <;> dsimp only [effMask] <;> rfl

theorem State.stream_of_streams {s t : State} (h : t.streams = s.streams) (sc : Nat) : t.stream sc = s.stream sc := by unfold State.stream; rw [h]

/-- Settles O6: each list is the bit that its memory has in the masks. -/
theorem memoryFrame : Obligations.MemoryFrame := by
  intro c s t hexec
  have eff : Eff (effMask c) s t := (exec_eff c s).kept t hexec
  exact ⟨fun hc a => by rw [eff.t0 ((effMask_t0 c).trans hc)],
    fun hc a => by rw [eff.t1 ((effMask_t1 c).trans hc)],
    fun hc a => by rw [eff.host ((effMask_host c).trans hc)]⟩

/-- Settles O8: each list is the bit that its part has in the masks. -/
theorem streamQueueAndPortFrame : Obligations.StreamQueueAndPortFrame := by
  intro c s t hexec
  have eff : Eff (effMask c) s t := (exec_eff c s).kept t hexec
  exact ⟨fun hc => State.stream_of_streams (eff.streams ((effMask_streams c).trans hc)),
    fun hc => State.queue_of_queues (eff.queues ((effMask_queues c).trans hc)),
    fun hc => eff.staging ((effMask_staging c).trans hc),
    fun hc => State.port_of_ports (eff.ports ((effMask_ports c).trans hc))⟩

/-- Settles O9: each list is the bit that its part has in the masks. -/
theorem peripheralFrame : Obligations.PeripheralFrame := by
  intro c s t hexec
  have eff : Eff (effMask c) s t := (exec_eff c s).kept t hexec
  exact ⟨fun hc => eff.power ((effMask_power c).trans hc),
    fun hc => eff.audio ((effMask_audio c).trans hc),
    fun hc => eff.cam ((effMask_cam c).trans hc),
    fun hc => eff.aon ((effMask_aon c).trans hc),
    fun hc => eff.nv ((effMask_nv c).trans hc),
    fun hc => eff.hsp ((effMask_hsp c).trans hc),
    fun hc => eff.psp ((effMask_psp c).trans hc),
    fun hc => eff.jtag ((effMask_jtag c).trans hc)⟩

end Sys2Proof.Machine
end

section
/-!
PROOFS. The test access port: each instruction by the update of its register, and none from OFF to the release step (R542, R553, R570, R571).
-/
namespace Sys2Proof.Machine

theorem State.tap_on {s : State} (h : s.tapOn = true) (j : JtagState) : s.tap j = { s with jtag := j } := by unfold State.tap; rw [if_pos h]

theorem State.tap_off {s : State} (h : s.tapOn = false) (j : JtagState) : s.tap j = s := by
  unfold State.tap; rw [if_neg (Bool.eq_false_iff.1 h)]

/-- DEBUG over an open path draws what the path then reads. -/
theorem execDebug_open {s : State} (hon : s.tapOn = true) (hopen : s.bit Reg.SEC_STAT 8 = true) :
    execDebug s = .next { s with
      jtag := ⟨.debug, s.jtag.cells, BitVec.ofNat 79 (Config.freeNat s.free), .system⟩, free := s.free + 1 } := by
  unfold execDebug
  rw [if_neg (by simp [hon]), if_pos hopen]
  exact congrArg Host.Outcome.next (State.tap_on (s := s.draw.2) hon _)

/-- DEBUG over a closed path is BYPASS. -/
theorem execDebug_closed {s : State} (hon : s.tapOn = true) (hclosed : s.bit Reg.SEC_STAT 8 = false) : execDebug s = execBypass s := by
  unfold execDebug
  rw [if_neg (by simp [hon]), if_neg (Bool.eq_false_iff.1 hclosed)]
  rfl

theorem execDebug_off {s : State} (hoff : s.tapOn = false) : execDebug s = .next s := by
  unfold execDebug; rw [if_pos (by simp [hoff])]

/-- Settles O58: where the port works each instruction is the update of its register by `State.tap`, which leaves the state elsewhere. -/
theorem theTapSelectsItsInstructions : Obligations.TheTapSelectsItsInstructions := by
  intro s pads cells
  refine ⟨fun hon => ?works, fun hoff c hc => ?silent⟩
  case works =>
    have next : ∀ j, (Host.Outcome.next (s.tap j) : Host.Outcome State Fault Refusal) = .next { s with jtag := j } := fun j => by
      rw [State.tap_on hon]
    have bypass : exec .bypass s = .next { s with jtag := ⟨.bypass, s.jtag.cells, 0, .system⟩ } := next _
    exact ⟨next _, next _, next _, next _, next _, next _, bypass, fun hclosed => (execDebug_closed hon hclosed).trans bypass,
      fun hopen => ⟨_, execDebug_open hon hopen, rfl, rfl, rfl, rfl⟩⟩
  case silent =>
    have next : ∀ j, (Host.Outcome.next (s.tap j) : Host.Outcome State Fault Refusal) = .next s := fun j => by rw [State.tap_off hoff]
    simp only [List.mem_cons, List.not_mem_nil, or_false] at hc
    obtain rfl | rfl | rfl | rfl | rfl | rfl | rfl | rfl := hc
    case inr.inr.inr.inr.inr.inr.inr => exact execDebug_off hoff
    all_goals exact next _

end Sys2Proof.Machine
end

section
/-!
PROOFS. Rejected frames of the HSP, its configuration, and transfers on the PSP (R470, R477, R478, R486).
-/
namespace Sys2Proof.Machine

/-! ### A rejected frame -/

theorem State.hspEnd_regs (s : State) (h : HspHead) (data : Nat) : (s.hspEnd h data).regs = (s.setBit Reg.HSP_STAT 1 h.idleHigh).regs := rfl

theorem State.reg_hspEnd_apart (s : State) (h : HspHead) (data : Nat) {a : Nat} (hstat : a ≠ Reg.HSP_STAT) : (s.hspEnd h data).reg a = s.reg a := by
  rw [State.reg_of_regs (s.hspEnd_regs h data), State.reg_setBit_apart _ _ _ hstat]

theorem State.bit_hspEnd_rej (s : State) (h : HspHead) (data : Nat) : (s.hspEnd h data).bit Reg.HSP_STAT 8 = s.bit Reg.HSP_STAT 8 := by
  rw [State.bit_of_reg (State.reg_of_regs (s.hspEnd_regs h data) _), State.bit_setBit_apart _ _ _ _ _ _ (.inr (by decide))]

theorem State.hspEnd_last (s : State) (h : HspHead) (data : Nat) : (s.hspEnd h data).hsp.last = s.hsp.last := rfl
theorem State.hspEnd_t0 (s : State) (h : HspHead) (data : Nat) : (s.hspEnd h data).t0 = s.t0 := rfl
theorem State.hspEnd_logSeq (s : State) (h : HspHead) (data : Nat) : (s.hspEnd h data).logSeq = s.logSeq := rfl

/-- The count and the event of a rejection. -/
def State.hspRefused (s : State) (st : Nat) : State := ((s.addSat Reg.HSP_REJCNT 0 32 1).setBit Reg.HSP_STAT 8 true).logViolation 2 st

theorem State.hspRefused_hsp (s : State) (st : Nat) : (s.hspRefused st).hsp = s.hsp := State.logViolation_hsp ..
theorem State.hspRefused_t0 (s : State) (st : Nat) : (s.hspRefused st).t0 = s.t0 := State.logViolation_t0 ..
theorem State.hspRefused_logSeq (s : State) (st : Nat) : (s.hspRefused st).logSeq = (s.logSeq + 1) % 2 ^ 32 := State.logViolation_logSeq ..

theorem State.fld_hspRefused_rejcnt (s : State) (st : Nat) :
    (s.hspRefused st).fld Reg.HSP_REJCNT 0 32 = min (s.fld Reg.HSP_REJCNT 0 32 + 1) (2 ^ 32 - 1) := by
  unfold State.hspRefused
  rw [State.fld_logViolation _ _ _ _ _ _ (by decide), State.fld_setBit_apart _ _ _ _ _ _ _ (.inl (by decide)),
    State.fld_addSat _ _ _ _ _ (by decide)]

theorem State.bit_hspRefused_rej (s : State) (st : Nat) : (s.hspRefused st).bit Reg.HSP_STAT 8 = true := by
  unfold State.hspRefused
  rw [State.bit_logViolation _ _ _ _ _ (by decide), State.bit_setBit _ _ _ _ (by decide)]

theorem State.reg_hspRefused (s : State) (st : Nat) {a : Nat} (hev : eventReg a = false) (hstat : a ≠ Reg.HSP_STAT) (hcnt : a ≠ Reg.HSP_REJCNT) :
    (s.hspRefused st).reg a = s.reg a := by
  unfold State.hspRefused State.addSat
  rw [State.reg_logViolation _ _ _ _ hev, State.reg_setBit_apart _ _ _ hstat, State.reg_setFld_apart _ _ _ _ hcnt]

/-- A rejection is its count and event, the end of the frame, and the reject word. -/
theorem State.hspReject_eq (s : State) (h : HspHead) (op cnt seq data st : Nat) : s.hspReject h op cnt seq data st =
    ((s.hspRefused st).hspEnd h data).hspReply (hspPack op cnt seq st ((s.hspRefused st).hspEnd h data).hspIntLow false false []) := rfl

theorem State.hspReply_reply (s : State) (ws : List Word) : (s.hspReply ws).hsp.reply = ws := rfl
theorem State.hspReply_last (s : State) (ws : List Word) : (s.hspReply ws).hsp.last = s.hsp.last := rfl
theorem State.hspReply_regs (s : State) (ws : List Word) : (s.hspReply ws).regs = s.regs := rfl
theorem State.hspReply_t0 (s : State) (ws : List Word) : (s.hspReply ws).t0 = s.t0 := rfl
theorem State.hspReply_logSeq (s : State) (ws : List Word) : (s.hspReply ws).logSeq = s.logSeq := rfl
theorem State.hspReply_hspIntLow (s : State) (ws : List Word) : (s.hspReply ws).hspIntLow = s.hspIntLow := rfl

theorem State.hspReject_reply (s : State) (h : HspHead) (op cnt seq data st : Nat) :
    (s.hspReject h op cnt seq data st).hsp.reply = hspPack op cnt seq st (s.hspReject h op cnt seq data st).hspIntLow false false [] := by
  rw [State.hspReject_eq, State.hspReply_hspIntLow, State.hspReply_reply]

/-- What a rejection counts and records, and what it leaves of T0, of the frames carried out and of the last reply. -/
theorem State.hspReject_facts (s : State) (h : HspHead) (op cnt seq data st : Nat) :
    let t := s.hspReject h op cnt seq data st
    t.fld Reg.HSP_REJCNT 0 32 = min (s.fld Reg.HSP_REJCNT 0 32 + 1) (2 ^ 32 - 1) ∧ t.bit Reg.HSP_STAT 8 = true ∧
      t.logSeq = (s.logSeq + 1) % 2 ^ 32 ∧ t.t0 = s.t0 ∧ t.hsp.last = s.hsp.last ∧ t.reg Reg.HSP_FRAMECNT = s.reg Reg.HSP_FRAMECNT := by
  have hreg : ∀ a, (s.hspReject h op cnt seq data st).reg a = ((s.hspRefused st).hspEnd h data).reg a :=
    fun a => State.reg_of_regs (by rw [State.hspReject_eq, State.hspReply_regs]) a
  refine ⟨?_, ?_, ?_, ?_, ?_, ?_⟩
  · rw [State.fld_of_reg (hreg _), State.fld_of_reg (State.reg_hspEnd_apart _ _ _ (by decide)), State.fld_hspRefused_rejcnt]
  · rw [State.bit_of_reg (hreg _), State.bit_hspEnd_rej, State.bit_hspRefused_rej]
  · rw [State.hspReject_eq, State.hspReply_logSeq, State.hspEnd_logSeq, State.hspRefused_logSeq]
  · rw [State.hspReject_eq, State.hspReply_t0, State.hspEnd_t0, State.hspRefused_t0]
  · rw [State.hspReject_eq, State.hspReply_last, State.hspEnd_last, State.hspRefused_hsp]
  · rw [hreg, State.reg_hspEnd_apart _ _ _ (by decide), State.reg_hspRefused _ _ (by decide) (by decide) (by decide)]

/-- A frame that comes early, or that fails a check, is rejected; what it carries out meanwhile is a pending reply or nothing. -/
theorem exec_hspRejectedFrame_rejects {s : State} {h : HspHead} {x st : Nat} {w : Word} {ws : List Word} (hserved : s.served .hsp = true)
    (hst : (h.fall < s.hsp.readyAt ∧ st = 6) ∨ (s.hsp.readyAt ≤ h.fall ∧ s.hspCheck x (w :: ws) = some st)) :
    ∃ out, exec (.hspRejectedFrame h x (w :: ws)) s =
      .next (({ s with sent := out } : State).hspReject h (wordField w 28 4) (wordField w 20 8) (wordField w 8 8) (hspWords w) st) := by
  rw [exec_hspRejectedFrame]
  unfold execHspRejectedFrame
  rw [if_neg (by simp [hserved])]
  obtain ⟨hearly, rfl⟩ | ⟨hready, hcheck⟩ := hst
  · exact ⟨s.sent, by simp [hearly]⟩
  · have hnot : ¬ h.fall < s.hsp.readyAt := by omega
    simp only [hnot, decide_false, Bool.false_eq_true, if_false, hcheck, Bool.false_or]
    split
    · exact ⟨s.sent, rfl⟩
    · exact ⟨_, rfl⟩

/-! ### The start of a transfer on the PSP -/

theorem wordField_or_go (v : Word) : wordField (v ||| 0x80000000) 31 1 = 1 := by
  have hgo : (v ||| 0x80000000).getLsbD 31 = true := by simp
  apply Nat.eq_of_testBit_eq
  intro j
  rw [wordField_testBit]
  cases j with
  | zero => simp
  | succ j => simp [Nat.testBit_succ]

theorem exec_pspTransferStart_served {s : State} {i : Iface} (v : Word) (h : s.served i = true) :
    exec (.pspTransferStart i v) s = .next (s.writeXctrl (v ||| 0x80000000)) := by
  rw [exec_pspTransferStart]; unfold execPspTransferStart; rw [if_pos h]

theorem State.writeXctrl_busy {s : State} (v : Word) (hbusy : s.bit Reg.PSP_XCTRL 30 = true) :
    s.writeXctrl (v ||| 0x80000000) = s.setBit Reg.PSP_XSTAT 1 true := by
  unfold State.writeXctrl
  rw [if_pos hbusy, if_neg (by rw [wordField_or_go]; decide)]

theorem State.writeXctrl_refused {s : State} (v : Word) (hidle : s.bit Reg.PSP_XCTRL 30 = false)
    (hbad : (s.regStore Reg.PSP_XCTRL (v ||| 0x80000000)).pspOk = false) :
    s.writeXctrl (v ||| 0x80000000) = (s.regStore Reg.PSP_XCTRL (v ||| 0x80000000)).setBit Reg.PSP_XSTAT 1 true := by
  unfold State.writeXctrl
  rw [if_neg (by simp [hidle])]
  simp only [wordField_or_go, hbad, Bool.not_false, if_true]
  rfl

/-- The number of bytes that a transfer captures: RXLEN, and as many more as are sent where the port is full duplex. -/
def State.pspCapture (s : State) : Nat := s.fld Reg.PSP_XCTRL 9 9 + (if s.bit Reg.PSP_XCTRL 24 then s.fld Reg.PSP_XCTRL 0 9 else 0)

/-- A transfer begins with the settings that have been written. -/
def State.pspStart (s : State) : State :=
  let sel := s.fld Reg.PSP_XCTRL 28 2
  let out := s.regBytes Reg.PSP_TXBUF (s.fld Reg.PSP_XCTRL 0 9)
  ({ s with psp := some ⟨sel, out, s.pspCapture⟩ }.setBit Reg.PSP_XCTRL 30 true).emit (.psp sel out)

theorem State.pspStart_regs (s : State) : s.pspStart.regs = (s.setBit Reg.PSP_XCTRL 30 true).regs := rfl

theorem State.bit_pspStart (s : State) : s.pspStart.bit Reg.PSP_XCTRL 30 = true := by
  rw [State.bit_of_reg (State.reg_of_regs s.pspStart_regs _), State.bit_setBit _ _ _ _ (by decide)]

theorem State.pspStart_sent (s : State) : s.pspStart.sent =
    .psp (s.fld Reg.PSP_XCTRL 28 2) (s.regBytes Reg.PSP_TXBUF (s.fld Reg.PSP_XCTRL 0 9)) :: s.sent := rfl

theorem State.pspStart_psp (s : State) : s.pspStart.psp =
    some ⟨s.fld Reg.PSP_XCTRL 28 2, s.regBytes Reg.PSP_TXBUF (s.fld Reg.PSP_XCTRL 0 9), s.pspCapture⟩ := rfl

theorem State.writeXctrl_starts {s : State} (v : Word) (hidle : s.bit Reg.PSP_XCTRL 30 = false)
    (hok : (s.regStore Reg.PSP_XCTRL (v ||| 0x80000000)).pspOk = true) :
    s.writeXctrl (v ||| 0x80000000) = (s.regStore Reg.PSP_XCTRL (v ||| 0x80000000)).pspStart := by
  unfold State.writeXctrl
  rw [if_neg (by simp [hidle])]
  simp only [wordField_or_go, hok, Bool.not_true, Bool.false_eq_true, if_false]
  rfl

theorem State.regBytes_congr {s t : State} {off n : Nat} (h : ∀ k, t.reg (off + k / 4 * 4) = s.reg (off + k / 4 * 4)) :
    t.regBytes off n = s.regBytes off n := by
  unfold State.regBytes; simp only [h]

theorem findReg_pspXctrl : findReg Reg.PSP_XCTRL = some (regsPsp[2], 0) := by decide +kernel

/-- A write of the register changes nothing but registers. -/
theorem State.regStore_xctrl_alone (s : State) (v : Word) : RegsAlone s (s.regStore Reg.PSP_XCTRL v) :=
  RegsAlone.regStore s v findReg_pspXctrl (by decide)

/-! ### The end of a transfer on the PSP -/

/-- A captured byte enters the receive buffer at its index. -/
def State.setRxByte (s : State) (b : Byte × Nat) : State := s.setFld (Reg.PSP_RXBUF + b.2 / 4 * 4) (8 * (b.2 % 4)) 8 b.1.toNat

/-- The byte of the receive buffer at an index. -/
def State.rxByte (s : State) (k : Nat) : Nat := s.fld (Reg.PSP_RXBUF + k / 4 * 4) (8 * (k % 4)) 8

theorem State.rxByte_setRxByte (s : State) (b : Byte × Nat) (k : Nat) :
    (s.setRxByte b).rxByte k = if k = b.2 then b.1.toNat else s.rxByte k := by
  unfold State.setRxByte State.rxByte
  split
  · next e =>
    subst e
    rw [State.fld_setFld _ _ _ _ _ (by omega)]
    exact Nat.mod_eq_of_lt b.1.isLt
  · exact State.fld_setFld_apart _ _ _ _ _ _ _ _ (by omega)

/-- Bytes written in order stand where they were written. -/
theorem State.rxByte_foldl (bs : List Byte) (n k : Nat) (s : State) :
    ((bs.zipIdx n).foldl State.setRxByte s).rxByte k =
      if n ≤ k ∧ k < n + bs.length then (bs.getD (k - n) 0).toNat else s.rxByte k := by
  induction bs generalizing n s with
  | nil => rw [if_neg (by simp only [List.length_nil]; omega)]; rfl
  | cons b bs ih =>
    rw [List.zipIdx_cons, List.foldl_cons, ih, State.rxByte_setRxByte, List.length_cons]
    by_cases hk : k = n
    · subst hk
      rw [if_neg (by omega), if_pos rfl, if_pos (by omega), Nat.sub_self]
      rfl
    · by_cases hin : n + 1 ≤ k ∧ k < n + 1 + bs.length
      · rw [if_pos hin, if_pos (by omega), show k - n = k - (n + 1) + 1 by omega]
        rfl
      · rw [if_neg hin, if_neg hk, if_neg (by omega)]

theorem State.regBytes_rxbuf (s : State) (n : Nat) : s.regBytes Reg.PSP_RXBUF n = (List.range n).map fun k => BitVec.ofNat 8 (s.rxByte k) := rfl

/-- The captured bytes enter the buffer, and the port is idle. -/
def State.pspFinish (s : State) (bs : List Byte) : State :=
  (({ bs.zipIdx.foldl State.setRxByte s with psp := none } : State).setBit Reg.PSP_XCTRL 30 false).setBit Reg.PSP_XSTAT 0 true

theorem exec_pspTransferDone_works {s : State} {bs : List Byte} {j : PspJob} (hon : s.mainOn = true) (hjob : s.psp = some j)
    (hlen : bs.length = j.capture) : exec (.pspTransferDone bs) s = .next (s.pspFinish bs) := by
  rw [exec_pspTransferDone]
  unfold execPspTransferDone
  rw [hon, hjob]
  dsimp only
  rw [← hlen, List.take_length]
  rfl

theorem State.regBytes_pspFinish (s : State) (bs : List Byte) : (s.pspFinish bs).regBytes Reg.PSP_RXBUF bs.length = bs := by
  have hreg : ∀ k, (s.pspFinish bs).reg (Reg.PSP_RXBUF + k / 4 * 4) = (bs.zipIdx.foldl State.setRxByte s).reg (Reg.PSP_RXBUF + k / 4 * 4) := by
    intro k
    have hstat : Reg.PSP_RXBUF + k / 4 * 4 ≠ Reg.PSP_XSTAT := by simp only [Reg.PSP_RXBUF, Reg.PSP_XSTAT]; omega
    have hctrl : Reg.PSP_RXBUF + k / 4 * 4 ≠ Reg.PSP_XCTRL := by simp only [Reg.PSP_RXBUF, Reg.PSP_XCTRL]; omega
    exact (State.reg_setBit_apart _ _ _ hstat).trans (State.reg_setBit_apart _ _ _ hctrl)
  rw [State.regBytes_congr hreg, State.regBytes_rxbuf]
  apply List.ext_getElem
  · simp
  · intro k _ hk
    rw [List.getElem_map, List.getElem_range, State.rxByte_foldl, if_pos (by omega)]
    simp [hk]

/-- Settles O55: a rejection is `State.hspReject` behind a pending reply carried out; a write of GO is one of three updates, and the end of
a transfer writes the captured bytes one by one. -/
theorem hspRejectsAndPspTransfers : Obligations.HspRejectsAndPspTransfers := by
  intro s
  refine ⟨fun h x w ws st hserved hst => ?reject, fun hserved => ?cfg, fun i v hserved => ⟨fun hbusy => ?busy, fun hidle => ⟨fun hbad => ?refused,
    fun hok => ?starts⟩⟩, fun bs j hon hjob hlen _ => ?done⟩
  case reject =>
    obtain ⟨out, hexec⟩ := exec_hspRejectedFrame_rejects hserved hst
    obtain ⟨hcnt, hrej, hseq, ht0, hlast, hframes⟩ := State.hspReject_facts ({ s with sent := out } : State) h (wordField w 28 4)
      (wordField w 20 8) (wordField w 8 8) (hspWords w) st
    exact ⟨_, hexec, hcnt, hrej, hseq, ht0, hlast, hframes, State.hspReject_reply ..⟩
  case cfg =>
    rw [exec_hspCfgApply]
    unfold execHspCfgApply
    rw [if_pos hserved]
    rfl
  case busy =>
    refine ⟨_, exec_pspTransferStart_served v hserved, ?_⟩
    rw [State.writeXctrl_busy v hbusy]
    exact ⟨State.bit_setBit _ _ _ _ (by decide), rfl, rfl⟩
  case refused =>
    refine ⟨_, exec_pspTransferStart_served v hserved, ?_⟩
    rw [State.writeXctrl_refused v hidle hbad, s.regStore_xctrl_alone]
    exact ⟨State.bit_setBit _ _ _ _ (by decide), rfl, rfl⟩
  case starts =>
    have hbytes : ∀ n, (s.regStore Reg.PSP_XCTRL (v ||| 0x80000000)).regBytes Reg.PSP_TXBUF n = s.regBytes Reg.PSP_TXBUF n := fun n =>
      State.regBytes_congr fun k => s.reg_regStore_apart _ (by simp only [Reg.PSP_TXBUF, Reg.PSP_XCTRL]; omega)
    have hsent : (s.regStore Reg.PSP_XCTRL (v ||| 0x80000000)).sent = s.sent := by rw [s.regStore_xctrl_alone]
    refine ⟨_, exec_pspTransferStart_served v hserved, ?_⟩
    rw [State.writeXctrl_starts v hidle hok, State.pspStart_sent, State.pspStart_psp, hsent]
    exact ⟨State.bit_pspStart _, by rw [hbytes], by rw [hbytes, State.pspCapture]⟩
  case done =>
    refine ⟨_, exec_pspTransferDone_works hon hjob hlen, rfl, ?_, State.bit_setBit _ _ _ _ (by decide), ?_⟩
    · exact (State.bit_setBit_apart _ _ _ _ _ _ (.inl (by decide))).trans (State.bit_setBit _ _ _ _ (by decide))
    · rw [← hlen]; exact s.regBytes_pspFinish bs

end Sys2Proof.Machine
end

section
/-!
PROOFS. The keep cell: samples of the charger and probes of the cell (R505, R506, Table 17-7).
-/
namespace Sys2Proof.Machine

/-! ### The store shows in none of the registers before it -/

theorem State.reg_showStore_below (s : State) {a : Nat} (h : a < Reg.GLOBAL_MONO_LO) : s.showStore.reg a = s.reg a := by
  have hring : Reg.GLOBAL_MONO_LO < Reg.GLOBAL_JRNL := by decide
  have hmono : (s.setReg64 Reg.GLOBAL_MONO_LO (s.store.mono % 2 ^ 64)).reg a = s.reg a := by
    unfold State.setReg64
    rw [State.reg_setReg_apart _ _ (by omega), State.reg_setReg_apart _ _ (by omega)]
  unfold State.showStore
  refine List.foldlRecOn (motive := fun t : State => t.reg a = s.reg a) _ _ hmono fun t ht i _ => ?_
  split
  · rw [State.reg_setRegs _ _ _ _ (.inl (by omega)), ht]
  · rw [State.reg_setRegs _ _ _ _ (.inl (by omega)), ht]

theorem State.reg_putStore_below (s : State) (d : StoreData) {a : Nat} (h : a < Reg.GLOBAL_MONO_LO) : (s.putStore d).reg a = s.reg a :=
  State.reg_showStore_below _ h

theorem State.reg_journal_below (s : State) (code arg1 arg2 detail : Nat) {a : Nat} (h : a < Reg.GLOBAL_MONO_LO) :
    (s.journal code arg1 arg2 detail).reg a = s.reg a := by
  unfold State.journal
  split
  · rfl
  · exact State.reg_putStore_below _ _ h

theorem State.bit_keepStat_journal (s : State) (code arg1 arg2 detail j : Nat) :
    (s.journal code arg1 arg2 detail).bit Reg.GLOBAL_KEEPSTAT j = s.bit Reg.GLOBAL_KEEPSTAT j :=
  State.bit_of_reg (s.reg_journal_below _ _ _ _ (by decide)) j

/-- The contents of the store rest on its copies alone. -/
theorem State.store_of_copies {s t : State} (h : t.aon.copies = s.aon.copies) : t.store = s.store := by
  unfold State.store AonState.best; rw [h]

/-! ### The charger stops -/

theorem State.keepStop_regs (s : State) :
    s.keepStop.regs = ((s.setBit Reg.GLOBAL_KEEPSTAT 30 false).setBit Reg.GLOBAL_KEEPSTAT 29 false).regs := rfl

theorem State.keepStop_aon (s : State) : s.keepStop.aon = { s.aon with keep := { s.aon.keep with last := none, peak := 0, flat := 0 } } := rfl

theorem State.fld_keepStop (s : State) {lo w : Nat} (h : lo + w ≤ 29 ∨ 31 ≤ lo) :
    s.keepStop.fld Reg.GLOBAL_KEEPSTAT lo w = s.fld Reg.GLOBAL_KEEPSTAT lo w := by
  rw [State.fld_of_reg (State.reg_of_regs s.keepStop_regs _), State.fld_setBit_apart _ _ _ _ _ _ _ (by omega),
    State.fld_setBit_apart _ _ _ _ _ _ _ (by omega)]

theorem State.bit_keepStop (s : State) {j : Nat} (h : j < 29 ∨ 31 ≤ j) :
    s.keepStop.bit Reg.GLOBAL_KEEPSTAT j = s.bit Reg.GLOBAL_KEEPSTAT j := by
  unfold State.bit; rw [s.fld_keepStop (by omega)]

theorem State.bit_keepStop_charging (s : State) : s.keepStop.bit Reg.GLOBAL_KEEPSTAT 30 = false := by
  rw [State.bit_of_reg (State.reg_of_regs s.keepStop_regs _), State.bit_setBit_apart _ _ _ _ _ _ (.inr (by decide)),
    State.bit_setBit _ _ _ _ (by decide)]

theorem State.bit_keepStop_float (s : State) : s.keepStop.bit Reg.GLOBAL_KEEPSTAT 29 = false := by
  rw [State.bit_of_reg (State.reg_of_regs s.keepStop_regs _), State.bit_setBit _ _ _ _ (by decide)]

/-! ### The cell is removed -/

/-- What shows once the cell is gone, before the journal takes it. -/
def State.keepGone (s : State) : State :=
  ((s.keepStop.setBit Reg.GLOBAL_KEEPSTAT 31 false).setBit Reg.GLOBAL_KEEPSTAT 28 true).updKeep fun k => { k with changed := true }

theorem State.keepRemoved_eq (s : State) (detail : Nat) : s.keepRemoved detail = s.keepGone.journal 0x0B 0 0 detail := rfl

theorem State.keepGone_regs (s : State) :
    s.keepGone.regs = ((s.keepStop.setBit Reg.GLOBAL_KEEPSTAT 31 false).setBit Reg.GLOBAL_KEEPSTAT 28 true).regs := rfl

theorem State.fld_keepRemoved (s : State) (detail : Nat) {lo w : Nat} (h : lo + w ≤ 28) :
    (s.keepRemoved detail).fld Reg.GLOBAL_KEEPSTAT lo w = s.fld Reg.GLOBAL_KEEPSTAT lo w := by
  rw [State.keepRemoved_eq, State.fld_of_reg (State.reg_journal_below _ _ _ _ _ (by decide)), State.fld_of_reg (State.reg_of_regs s.keepGone_regs _),
    State.fld_setBit_apart _ _ _ _ _ _ _ (by omega), State.fld_setBit_apart _ _ _ _ _ _ _ (by omega), s.fld_keepStop (by omega)]

/-- A removal shows in PRESENT, CHARGING and REMOVED, leaves FAULT, and is journaled. -/
theorem State.keepRemoved_facts (s : State) (detail : Nat) (hrun : s.aon.running = true) :
    let t := s.keepRemoved detail
    t.bit Reg.GLOBAL_KEEPSTAT 31 = false ∧ t.bit Reg.GLOBAL_KEEPSTAT 30 = false ∧ t.bit Reg.GLOBAL_KEEPSTAT 28 = true ∧
      t.bit Reg.GLOBAL_KEEPSTAT 26 = s.bit Reg.GLOBAL_KEEPSTAT 26 ∧ t.aon.keep.changed = true ∧ t.newest.map (·.code) = some 0x0B := by
  have hbit : ∀ j, (s.keepRemoved detail).bit Reg.GLOBAL_KEEPSTAT j =
      ((s.keepStop.setBit Reg.GLOBAL_KEEPSTAT 31 false).setBit Reg.GLOBAL_KEEPSTAT 28 true).bit Reg.GLOBAL_KEEPSTAT j := fun j => by
    rw [State.keepRemoved_eq, State.bit_keepStat_journal, State.bit_of_reg (State.reg_of_regs s.keepGone_regs _)]
  refine ⟨?_, ?_, ?_, ?_, ?_, ?_⟩
  · rw [hbit, State.bit_setBit_apart _ _ _ _ _ _ (.inr (by decide)), State.bit_setBit _ _ _ _ (by decide)]
  · rw [hbit, State.bit_setBit_apart _ _ _ _ _ _ (.inr (by decide)), State.bit_setBit_apart _ _ _ _ _ _ (.inr (by decide)),
      State.bit_keepStop_charging]
  · rw [hbit, State.bit_setBit _ _ _ _ (by decide)]
  · rw [hbit, State.bit_setBit_apart _ _ _ _ _ _ (.inr (by decide)), State.bit_setBit_apart _ _ _ _ _ _ (.inr (by decide)),
      s.bit_keepStop (.inl (by decide))]
  · rw [State.keepRemoved_eq, State.journal_aon]
    rfl
  · rw [State.keepRemoved_eq, s.keepGone.newest_journal _ _ _ _ hrun]
    rfl

/-! ### A sample while the charger runs -/

/-- The target of the type in use. -/
def State.keepGoal (s : State) : Nat := keepTarget (s.fld Reg.GLOBAL_KEEPCFG 0 2)

/-- A sample is that of a cell that has left: outside the float phase, a step of 100 mV with the current gone. -/
def State.keepLeft (s : State) (mv : Nat) (i : Int) : Bool :=
  match s.aon.keep.last with
  | some (v, j) => !s.bit Reg.GLOBAL_KEEPSTAT 29 && (v + 100 ≤ mv || mv + 100 ≤ v) && (decide (4 * i < j) || decide (i < 5))
  | none => false

/-- The samples without a rise, this one among them. -/
def State.keepFlat (s : State) (mv : Nat) : Nat :=
  if decide (s.aon.keep.peak + 1 ≤ mv) || s.bit Reg.GLOBAL_KEEPSTAT 29 then 0 else s.aon.keep.flat + 1

/-- The charge goes on, in the float phase once the target is reached. -/
def State.keepCharging (s : State) (mv : Nat) (i : Int) : State :=
  ((s.setBit Reg.GLOBAL_KEEPSTAT 30 true).setBit Reg.GLOBAL_KEEPSTAT 29 (s.bit Reg.GLOBAL_KEEPSTAT 29 || decide (s.keepGoal ≤ mv))).updKeep
    fun k => { k with last := some (mv, i), peak := max k.peak mv, flat := s.keepFlat mv }

/-- What shows of a fault, before the journal takes it. -/
def State.keepBad (s : State) : State := (s.keepStop.setBit Reg.GLOBAL_KEEPSTAT 26 true).updKeep fun k => { k with faulted := true }

/-- A sample finds the cell gone, at fault, or charging. -/
theorem State.keepCharge_cases (s : State) (mv : Nat) (i : Int) :
    (s.keepLeft mv i = true ∧ ∃ d, s.keepCharge mv i = ({ s with free := s.free + 1 } : State).keepRemoved d) ∨
    (s.keepLeft mv i = false ∧ (s.keepGoal + 100 < mv ∨ 600000 ≤ s.keepFlat mv) ∧
      s.keepCharge mv i = (s.keepCharging mv i).keepBad.journal 0x0D 0 0 0) ∨
    (s.keepLeft mv i = false ∧ mv ≤ s.keepGoal + 100 ∧ s.keepFlat mv < 600000 ∧ s.keepCharge mv i = s.keepCharging mv i) := by
  have heq : s.keepCharge mv i = if s.keepLeft mv i = true then (s.twoVolts (match s.aon.keep.last with
        | some x => x.1
        | none => 0) mv).2.keepRemoved (s.twoVolts (match s.aon.keep.last with
        | some x => x.1
        | none => 0) mv).1
      else if (decide (s.keepGoal + 100 < mv) || decide (600000 ≤ s.keepFlat mv)) = true then (s.keepCharging mv i).keepBad.journal 0x0D 0 0 0
      else s.keepCharging mv i := rfl
  cases hleft : s.keepLeft mv i with
  | true => exact .inl ⟨rfl, _, by rw [heq, if_pos hleft]; rfl⟩
  | false =>
    rw [heq, if_neg (Bool.eq_false_iff.1 hleft)]
    by_cases hbad : s.keepGoal + 100 < mv ∨ 600000 ≤ s.keepFlat mv
    · exact .inr (.inl ⟨rfl, hbad, if_pos (by simpa using hbad)⟩)
    · exact .inr (.inr ⟨rfl, by omega, by omega, if_neg (by simpa using hbad)⟩)

theorem State.keepCharging_regs (s : State) (mv : Nat) (i : Int) : (s.keepCharging mv i).regs =
    ((s.setBit Reg.GLOBAL_KEEPSTAT 30 true).setBit Reg.GLOBAL_KEEPSTAT 29 (s.bit Reg.GLOBAL_KEEPSTAT 29 || decide (s.keepGoal ≤ mv))).regs := rfl

theorem State.fld_keepCharging (s : State) (mv : Nat) (i : Int) {lo w : Nat} (h : lo + w ≤ 29 ∨ 31 ≤ lo) :
    (s.keepCharging mv i).fld Reg.GLOBAL_KEEPSTAT lo w = s.fld Reg.GLOBAL_KEEPSTAT lo w := by
  rw [State.fld_of_reg (State.reg_of_regs (s.keepCharging_regs mv i) _), State.fld_setBit_apart _ _ _ _ _ _ _ (by omega),
    State.fld_setBit_apart _ _ _ _ _ _ _ (by omega)]

theorem State.bit_keepCharging (s : State) (mv : Nat) (i : Int) {j : Nat} (h : j < 29 ∨ 31 ≤ j) :
    (s.keepCharging mv i).bit Reg.GLOBAL_KEEPSTAT j = s.bit Reg.GLOBAL_KEEPSTAT j := by
  unfold State.bit; rw [s.fld_keepCharging mv i (by omega)]

theorem State.bit_keepCharging_phase (s : State) (mv : Nat) (i : Int) : (s.keepCharging mv i).bit Reg.GLOBAL_KEEPSTAT 30 = true ∧
    (s.keepCharging mv i).bit Reg.GLOBAL_KEEPSTAT 29 = (s.bit Reg.GLOBAL_KEEPSTAT 29 || decide (s.keepGoal ≤ mv)) := by
  have hbit := fun j => State.bit_of_reg (State.reg_of_regs (s.keepCharging_regs mv i) Reg.GLOBAL_KEEPSTAT) j
  constructor
  · rw [hbit, State.bit_setBit_apart _ _ _ _ _ _ (.inr (by decide)), State.bit_setBit _ _ _ _ (by decide)]
  · rw [hbit, State.bit_setBit _ _ _ _ (by decide)]

theorem State.keepBad_regs (s : State) : s.keepBad.regs = (s.keepStop.setBit Reg.GLOBAL_KEEPSTAT 26 true).regs := rfl

theorem State.fld_keepBad (s : State) {lo w : Nat} (h : lo + w ≤ 26) : s.keepBad.fld Reg.GLOBAL_KEEPSTAT lo w = s.fld Reg.GLOBAL_KEEPSTAT lo w := by
  rw [State.fld_of_reg (State.reg_of_regs s.keepBad_regs _), State.fld_setBit_apart _ _ _ _ _ _ _ (by omega), s.fld_keepStop (by omega)]

/-- A fault shows, stops the charge, and leaves PRESENT. -/
theorem State.bit_keepBad (s : State) : s.keepBad.bit Reg.GLOBAL_KEEPSTAT 26 = true ∧ s.keepBad.bit Reg.GLOBAL_KEEPSTAT 30 = false ∧
    s.keepBad.bit Reg.GLOBAL_KEEPSTAT 31 = s.bit Reg.GLOBAL_KEEPSTAT 31 := by
  have hbit := fun j => State.bit_of_reg (State.reg_of_regs s.keepBad_regs Reg.GLOBAL_KEEPSTAT) j
  refine ⟨?_, ?_, ?_⟩
  · rw [hbit, State.bit_setBit _ _ _ _ (by decide)]
  · rw [hbit, State.bit_setBit_apart _ _ _ _ _ _ (.inr (by decide)), State.bit_keepStop_charging]
  · rw [hbit, State.bit_setBit_apart _ _ _ _ _ _ (.inr (by decide)), s.bit_keepStop (.inr (by decide))]

/-- A fault is journaled. -/
theorem State.keepBad_journal_facts (s : State) (hrun : s.aon.running = true) :
    let t := s.keepBad.journal 0x0D 0 0 0
    t.bit Reg.GLOBAL_KEEPSTAT 26 = true ∧ t.bit Reg.GLOBAL_KEEPSTAT 30 = false ∧
      t.bit Reg.GLOBAL_KEEPSTAT 31 = s.bit Reg.GLOBAL_KEEPSTAT 31 ∧ t.aon.keep.faulted = true ∧ t.newest.map (·.code) = some 0x0D := by
  obtain ⟨hfault, hcharging, hpresent⟩ := s.bit_keepBad
  refine ⟨?_, ?_, ?_, ?_, ?_⟩
  · rw [State.bit_keepStat_journal, hfault]
  · rw [State.bit_keepStat_journal, hcharging]
  · rw [State.bit_keepStat_journal, hpresent]
  · rw [State.journal_aon]
    rfl
  · rw [s.keepBad.newest_journal _ _ _ _ hrun]
    rfl

/-- A sample leaves the fields of voltage and current, and the bits below FAULT. -/
theorem State.fld_keepCharge (s : State) (mv : Nat) (i : Int) {lo w : Nat} (h : lo + w ≤ 26) :
    (s.keepCharge mv i).fld Reg.GLOBAL_KEEPSTAT lo w = s.fld Reg.GLOBAL_KEEPSTAT lo w := by
  obtain ⟨-, d, heq⟩ | ⟨-, -, heq⟩ | ⟨-, -, -, heq⟩ := s.keepCharge_cases mv i
  · rw [heq, State.fld_keepRemoved _ _ (by omega)]
    rfl
  · rw [heq, State.fld_of_reg (State.reg_journal_below _ _ _ _ _ (by decide)), State.fld_keepBad _ h, s.fld_keepCharging mv i (by omega)]
  · rw [heq, s.fld_keepCharging mv i (by omega)]

/-! ### KEEP_SAMPLE -/

/-- The sample shows. -/
def State.keepShown (s : State) (mv : Nat) (i : Int) : State :=
  (s.setFld Reg.GLOBAL_KEEPSTAT 0 12 (satNat 12 mv)).setFld Reg.GLOBAL_KEEPSTAT 14 10 (satNat 10 i.toNat)

theorem State.keepShown_aon (s : State) (mv : Nat) (i : Int) : (s.keepShown mv i).aon = s.aon := rfl

theorem State.fld_keepShown (s : State) (mv : Nat) (i : Int) : (s.keepShown mv i).fld Reg.GLOBAL_KEEPSTAT 0 12 = satNat 12 mv ∧
    (s.keepShown mv i).fld Reg.GLOBAL_KEEPSTAT 14 10 = satNat 10 i.toNat := by
  unfold State.keepShown
  constructor
  · rw [State.fld_setFld_apart _ _ _ _ _ _ _ _ (by omega), State.fld_setFld _ _ _ _ _ (by decide)]
    exact Nat.mod_eq_of_lt (by unfold satNat; omega)
  · rw [State.fld_setFld _ _ _ _ _ (by decide)]
    exact Nat.mod_eq_of_lt (by unfold satNat; omega)

theorem State.bit_keepShown (s : State) (mv : Nat) (i : Int) {j : Nat} (h : 24 ≤ j) :
    (s.keepShown mv i).bit Reg.GLOBAL_KEEPSTAT j = s.bit Reg.GLOBAL_KEEPSTAT j := by
  unfold State.keepShown
  rw [State.bit_setFld_apart _ _ _ _ _ _ _ (by omega), State.bit_setFld_apart _ _ _ _ _ _ _ (by omega)]

theorem State.reg_keepShown_cfg (s : State) (mv : Nat) (i : Int) : (s.keepShown mv i).reg Reg.GLOBAL_KEEPCFG = s.reg Reg.GLOBAL_KEEPCFG := by
  unfold State.keepShown
  rw [State.reg_setFld_apart _ _ _ _ (by decide), State.reg_setFld_apart _ _ _ _ (by decide)]

theorem State.keepMay_keepShown (s : State) (mv : Nat) (i : Int) : (s.keepShown mv i).keepMay = s.keepMay := by
  unfold State.keepMay State.keepFitted State.mainOn
  rw [State.fld_of_reg (s.reg_keepShown_cfg mv i), State.bit_of_reg (s.reg_keepShown_cfg mv i), s.bit_keepShown mv i (by decide),
    s.keepShown_aon mv i]

theorem State.keepGoal_keepShown (s : State) (mv : Nat) (i : Int) : (s.keepShown mv i).keepGoal = s.keepGoal := by
  unfold State.keepGoal; rw [State.fld_of_reg (s.reg_keepShown_cfg mv i)]

theorem State.keepLeft_keepShown (s : State) (mv : Nat) (i : Int) : (s.keepShown mv i).keepLeft mv i = s.keepLeft mv i := by
  unfold State.keepLeft; rw [s.keepShown_aon mv i, s.bit_keepShown mv i (by decide)]

theorem exec_keepSample_on {s : State} (hmain : s.mainOn = true) (hphase : s.aon.phase ≠ .powerdown) (mv : Nat) (i : Int) :
    exec (.keepSample mv i) s =
      .next (if s.keepMay = true then (s.keepShown mv i).keepCharge mv i else (s.keepShown mv i).keepStop) := by
  rw [exec_keepSample]
  unfold execKeepSample
  rw [if_neg (by simp [hmain, hphase]), ← s.keepMay_keepShown mv i]
  rfl

theorem State.keepLeft_iff (s : State) (mv : Nat) (i : Int) : s.keepLeft mv i = true ↔ ∃ v j, s.aon.keep.last = some (v, j) ∧
    s.bit Reg.GLOBAL_KEEPSTAT 29 = false ∧ (v + 100 ≤ mv ∨ mv + 100 ≤ v) ∧ (4 * i < j ∨ i < 5) := by
  unfold State.keepLeft
  cases s.aon.keep.last with
  | none => simp
  | some x => obtain ⟨v, j⟩ := x; simp [and_assoc]

theorem State.keepShown_keepCharge_removed {s : State} {mv : Nat} {i : Int} (hrun : s.aon.running = true) (hleft : s.keepLeft mv i = true) :
    let t := (s.keepShown mv i).keepCharge mv i
    t.bit Reg.GLOBAL_KEEPSTAT 31 = false ∧ t.bit Reg.GLOBAL_KEEPSTAT 30 = false ∧ t.bit Reg.GLOBAL_KEEPSTAT 28 = true ∧
      t.bit Reg.GLOBAL_KEEPSTAT 26 = s.bit Reg.GLOBAL_KEEPSTAT 26 ∧ t.newest.map (·.code) = some 0x0B := by
  rw [← s.keepLeft_keepShown] at hleft
  obtain ⟨-, d, heq⟩ | ⟨hstays, -⟩ | ⟨hstays, -⟩ := (s.keepShown mv i).keepCharge_cases mv i
  · obtain ⟨hpresent, hcharging, hremoved, hfault, -, hcode⟩ :=
      ({ s.keepShown mv i with free := (s.keepShown mv i).free + 1 } : State).keepRemoved_facts d hrun
    rw [heq]
    exact ⟨hpresent, hcharging, hremoved, hfault.trans (s.bit_keepShown mv i (by decide)), hcode⟩
  · rw [hleft] at hstays; exact absurd hstays (by decide)
  · rw [hleft] at hstays; exact absurd hstays (by decide)

theorem State.keepShown_keepCharge_fault {s : State} {mv : Nat} {i : Int} (hrun : s.aon.running = true) (hmay : s.keepMay = true)
    (hleft : s.keepLeft mv i = false) (hhigh : s.keepGoal + 100 < mv) :
    let t := (s.keepShown mv i).keepCharge mv i
    t.bit Reg.GLOBAL_KEEPSTAT 26 = true ∧ t.bit Reg.GLOBAL_KEEPSTAT 30 = false ∧ t.bit Reg.GLOBAL_KEEPSTAT 31 = true ∧
      t.aon.keep.faulted = true ∧ t.newest.map (·.code) = some 0x0D := by
  have hpresent : s.bit Reg.GLOBAL_KEEPSTAT 31 = true := by
    simp only [State.keepMay, Bool.and_eq_true] at hmay
    exact hmay.1.2
  rw [← s.keepLeft_keepShown] at hleft
  rw [← s.keepGoal_keepShown mv i] at hhigh
  obtain ⟨hgone, -⟩ | ⟨-, -, heq⟩ | ⟨-, hlow, -⟩ := (s.keepShown mv i).keepCharge_cases mv i
  · rw [hleft] at hgone; exact absurd hgone (by decide)
  · obtain ⟨hfault, hcharging, hkept, hlatched, hcode⟩ := ((s.keepShown mv i).keepCharging mv i).keepBad_journal_facts hrun
    rw [heq]
    refine ⟨hfault, hcharging, ?_, hlatched, hcode⟩
    rw [hkept, State.bit_keepCharging _ _ _ (.inr (by decide)), s.bit_keepShown mv i (by decide), hpresent]
  · omega

theorem State.keepShown_keepCharge_charging {s : State} {mv : Nat} {i : Int} (hleft : s.keepLeft mv i = false) (hlow : mv ≤ s.keepGoal + 100)
    (hflat : s.aon.keep.flat < 599999) :
    let t := (s.keepShown mv i).keepCharge mv i
    t.bit Reg.GLOBAL_KEEPSTAT 30 = true ∧ t.bit Reg.GLOBAL_KEEPSTAT 29 = (s.bit Reg.GLOBAL_KEEPSTAT 29 || decide (s.keepGoal ≤ mv)) ∧
      t.bit Reg.GLOBAL_KEEPSTAT 26 = s.bit Reg.GLOBAL_KEEPSTAT 26 ∧ t.store = s.store := by
  have hshort : (s.keepShown mv i).keepFlat mv < 600000 := by
    unfold State.keepFlat
    rw [s.keepShown_aon mv i]
    split <;> omega
  rw [← s.keepLeft_keepShown] at hleft
  rw [← s.keepGoal_keepShown mv i] at hlow ⊢
  obtain ⟨hgone, -⟩ | ⟨-, hbad, -⟩ | ⟨-, -, -, heq⟩ := (s.keepShown mv i).keepCharge_cases mv i
  · rw [hleft] at hgone; exact absurd hgone (by decide)
  · omega
  · obtain ⟨hcharging, hfloat⟩ := (s.keepShown mv i).bit_keepCharging_phase mv i
    rw [heq]
    refine ⟨hcharging, ?_, ?_, State.store_of_copies rfl⟩
    · rw [hfloat, s.bit_keepShown mv i (by decide)]
    · rw [State.bit_keepCharging _ _ _ (.inl (by decide)), s.bit_keepShown mv i (by decide)]

/-- Voltage and current show whatever the sample leads to. -/
theorem State.fld_keepSampled (s : State) (mv : Nat) (i : Int) :
    let t := if s.keepMay = true then (s.keepShown mv i).keepCharge mv i else (s.keepShown mv i).keepStop
    t.fld Reg.GLOBAL_KEEPSTAT 0 12 = satNat 12 mv ∧ t.fld Reg.GLOBAL_KEEPSTAT 14 10 = satNat 10 i.toNat := by
  obtain ⟨hvolts, hamps⟩ := s.fld_keepShown mv i
  dsimp only
  split
  · rw [State.fld_keepCharge _ _ _ (by decide), State.fld_keepCharge _ _ _ (by decide)]
    exact ⟨hvolts, hamps⟩
  · rw [State.fld_keepStop _ (by decide), State.fld_keepStop _ (by decide)]
    exact ⟨hvolts, hamps⟩

/-! ### PRESENCE_PROBE -/

/-- A cell that is found, before the journal takes an insertion. -/
def State.keepFound (s : State) : State :=
  let u := (s.setBit Reg.GLOBAL_KEEPSTAT 31 true).updKeep fun k => { k with changed := false }
  u.setBit Reg.GLOBAL_KEEPSTAT 30 u.keepMay

theorem exec_presenceProbe_found {s : State} {mv : Nat} (hfit : s.keepFitted = true) (habsent : s.bit Reg.GLOBAL_KEEPSTAT 31 = false)
    (hlow : mv < 20) : exec (.presenceProbe mv) s = .next
      (if s.aon.keep.changed then (s.keepFound.setBit Reg.GLOBAL_KEEPSTAT 27 true).journal 0x0C 0 0 0 else s.keepFound) := by
  rw [exec_presenceProbe]
  unfold execPresenceProbe
  simp only [hfit, habsent, Bool.not_true, Bool.false_and, Bool.or_false, Bool.false_eq_true, if_false, hlow, if_true]
  rfl

theorem exec_presenceProbe_gone {s : State} {mv : Nat} (hfit : s.keepFitted = true) (hpresent : s.bit Reg.GLOBAL_KEEPSTAT 31 = true)
    (hfloat : s.bit Reg.GLOBAL_KEEPSTAT 29 = true) (hhigh : 20 ≤ mv) :
    ∃ d, exec (.presenceProbe mv) s = .next (({ s with free := s.free + 1 } : State).keepRemoved d) := by
  refine ⟨Config.freeNat s.free, ?_⟩
  rw [exec_presenceProbe]
  unfold execPresenceProbe
  simp only [hfit, hpresent, hfloat, Bool.not_true, Bool.and_false, Bool.or_false, Bool.false_eq_true, if_false,
    Nat.not_lt_of_le hhigh, if_true]
  rfl

theorem State.keepFound_regs (s : State) : ∃ b, s.keepFound.regs = ((s.setBit Reg.GLOBAL_KEEPSTAT 31 true).setBit Reg.GLOBAL_KEEPSTAT 30 b).regs :=
  ⟨_, rfl⟩

theorem State.bit_keepFound (s : State) : s.keepFound.bit Reg.GLOBAL_KEEPSTAT 31 = true ∧
    s.keepFound.bit Reg.GLOBAL_KEEPSTAT 27 = s.bit Reg.GLOBAL_KEEPSTAT 27 := by
  obtain ⟨b, hregs⟩ := s.keepFound_regs
  have hbit := fun j => State.bit_of_reg (State.reg_of_regs hregs Reg.GLOBAL_KEEPSTAT) j
  constructor
  · rw [hbit, State.bit_setBit_apart _ _ _ _ _ _ (.inr (by decide)), State.bit_setBit _ _ _ _ (by decide)]
  · rw [hbit, State.bit_setBit_apart _ _ _ _ _ _ (.inr (by decide)), State.bit_setBit_apart _ _ _ _ _ _ (.inr (by decide))]

/-- Settles O51: a sample is what it shows followed by one of three cases of the charge, or by its stop; a probe finds the cell, or finds it
gone. -/
theorem keepCellIsSampledAndProbed : Obligations.KeepCellIsSampledAndProbed := by
  intro s hrun hmain hphase
  refine ⟨fun mv i => ⟨_, exec_keepSample_on hmain hphase mv i, (s.fld_keepSampled mv i).1, (s.fld_keepSampled mv i).2, fun hmay => ?idle,
      fun v j hmay hfloat hlast hstep hgone => ?removed, fun hmay hstays => ?stays⟩, fun mv hfit habsent hlow => ?found,
    fun mv hfit hpresent hfloat hhigh => ?gone⟩
  case idle =>
    rw [if_neg (Bool.eq_false_iff.1 hmay)]
    exact ⟨State.bit_keepStop_charging _, State.bit_keepStop_float _, State.store_of_copies rfl⟩
  case removed =>
    rw [if_pos hmay]
    exact State.keepShown_keepCharge_removed hrun ((s.keepLeft_iff mv i).2 ⟨v, j, hlast, hfloat, hstep, hgone⟩)
  case stays =>
    have hleft : s.keepLeft mv i = false := by
      refine Bool.eq_false_iff.2 fun h => ?_
      obtain ⟨v, j, hlast, hfloat, hstep, hgone⟩ := (s.keepLeft_iff mv i).1 h
      rcases hstays v j hlast with hin | hnear | hflows
      · rw [hfloat] at hin; exact absurd hin (by decide)
      · omega
      · omega
    rw [if_pos hmay]
    exact ⟨State.keepShown_keepCharge_fault hrun hmay hleft, State.keepShown_keepCharge_charging hleft⟩
  case found =>
    obtain ⟨hshown, hinserted⟩ := s.bit_keepFound
    refine ⟨_, exec_presenceProbe_found hfit habsent hlow, ?_⟩
    cases s.aon.keep.changed with
    | false => exact ⟨hshown, fun _ => ⟨State.store_of_copies rfl, hinserted⟩, fun h => absurd h (by decide)⟩
    | true =>
      have hset : (s.keepFound.setBit Reg.GLOBAL_KEEPSTAT 27 true).bit Reg.GLOBAL_KEEPSTAT 31 = true := by
        rw [State.bit_setBit_apart _ _ _ _ _ _ (.inr (by decide)), hshown]
      refine ⟨?_, fun h => absurd h (by decide), fun _ => ⟨?_, ?_⟩⟩
      · rw [if_pos rfl, State.bit_keepStat_journal, hset]
      · rw [if_pos rfl, State.bit_keepStat_journal, State.bit_setBit _ _ _ _ (by decide)]
      · rw [if_pos rfl, (s.keepFound.setBit Reg.GLOBAL_KEEPSTAT 27 true).newest_journal _ _ _ _ hrun]
        rfl
  case gone =>
    obtain ⟨d, hexec⟩ := exec_presenceProbe_gone hfit hpresent hfloat hhigh
    obtain ⟨hclear, hcharging, hremoved, -, hchanged, hcode⟩ := ({ s with free := s.free + 1 } : State).keepRemoved_facts d hrun
    exact ⟨_, hexec, hclear, hcharging, hremoved, hchanged, hcode⟩

end Sys2Proof.Machine
end

section
/-!
PROOFS. What start-up, epochs and power-down leave alone: the bits by which the engine tells how far a start has come (R498, R500, R526, R537).
-/
namespace Sys2Proof.Machine

/-! ### The places where a start shows -/

/-- READY and the request latch, the boot wait, the generation in use, and DONE of the flash operation: offset, lowest bit and width. -/
def bootPlaces : List (Nat × Nat × Nat) :=
  [(Reg.GLOBAL_PWRSTAT, 0, 1), (Reg.GLOBAL_PWRSTAT, 1, 1), (Reg.NVC_BOOTSTAT, 31, 1), (Reg.NVC_FGEN, 0, 32), (Reg.NVC_UPDSTAT, 0, 1)]

/-- From `s` to `t` those places hold what they held. -/
def BootKept (s t : State) : Prop := ∀ p ∈ bootPlaces, t.fld p.1 p.2.1 p.2.2 = s.fld p.1 p.2.1 p.2.2

/-- A field lies apart from those places. -/
abbrev BootApart (a lo w : Nat) : Prop := ∀ p ∈ bootPlaces, p.1 ≠ a ∨ p.2.1 + p.2.2 ≤ lo ∨ lo + w ≤ p.2.1

/-- A register has none of those places. -/
abbrev BootFree (a : Nat) : Prop := ∀ p ∈ bootPlaces, p.1 ≠ a

theorem BootFree.apart {a : Nat} (h : BootFree a) (lo w : Nat) : BootApart a lo w := fun p hp => .inl (h p hp)

/-- The blocks between GLOBAL and NVC have none of those places. -/
theorem BootFree.of_between {a : Nat} (hlo : 0x104 ≤ a) (hhi : a < 0x110000) : BootFree a := by
  have hends : ∀ p ∈ bootPlaces, p.1 < 0x104 ∨ 0x110000 ≤ p.1 := by decide
  intro p hp e
  have := hends p hp
  omega

theorem bootPlaces_noEvent : ∀ p ∈ bootPlaces, eventReg p.1 = false := by decide

section
variable {s₀ s t : State}

theorem BootKept.refl : BootKept s s := fun _ _ => rfl

theorem BootKept.trans {u : State} (h : BootKept s t) (k : BootKept t u) : BootKept s u := fun p hp => (k p hp).trans (h p hp)

theorem BootKept.of_reg (h : BootKept s₀ s) (hreg : ∀ p ∈ bootPlaces, t.reg p.1 = s.reg p.1) : BootKept s₀ t :=
  fun p hp => (State.fld_of_reg (hreg p hp) _ _).trans (h p hp)

theorem BootKept.of_regs (h : BootKept s₀ s) (hregs : t.regs = s.regs) : BootKept s₀ t := h.of_reg fun _ _ => State.reg_of_regs hregs _

theorem BootKept.of_eff {m : Nat} (h : BootKept s₀ s) (k : Eff m s t) (hm : m.testBit 3 = false) : BootKept s₀ t := h.of_regs (k.regs hm)

theorem BootKept.ite {c : Prop} [Decidable c] (hs : BootKept s₀ s) (ht : BootKept s₀ t) : BootKept s₀ (if c then s else t) := by
  split
  · exact hs
  · exact ht

theorem BootKept.foldl {α : Type} {f : State → α → State} (l : List α) (h : BootKept s₀ s)
    (hf : ∀ u, BootKept s₀ u → ∀ x ∈ l, BootKept s₀ (f u x)) : BootKept s₀ (l.foldl f s) :=
  List.foldlRecOn (motive := BootKept s₀) l f h hf

theorem BootKept.setReg (h : BootKept s₀ s) {a : Nat} (v : Word) (ha : BootFree a) : BootKept s₀ (s.setReg a v) :=
  h.of_reg fun p hp => State.reg_setReg_apart _ _ (ha p hp)

theorem BootKept.setReg64 (h : BootKept s₀ s) {a : Nat} (v : Nat) (hlo : BootFree a) (hhi : BootFree (a + 4)) : BootKept s₀ (s.setReg64 a v) :=
  (h.setReg _ hlo).setReg _ hhi

theorem BootKept.setFld (h : BootKept s₀ s) {a lo w : Nat} (n : Nat) (ha : BootApart a lo w) : BootKept s₀ (s.setFld a lo w n) :=
  fun p hp => (State.fld_setFld_apart _ _ _ _ _ _ _ _ (ha p hp)).trans (h p hp)

theorem BootKept.setBit (h : BootKept s₀ s) {a i : Nat} (b : Bool) (ha : BootApart a i 1) : BootKept s₀ (s.setBit a i b) := h.setFld _ ha

theorem BootKept.raise (h : BootKept s₀ s) (src : EvtSource) {stat b : Nat} (ha : BootApart stat b 1) : BootKept s₀ (s.raise src stat b) := by
  intro p hp
  by_cases e : p.1 = stat
  · subst e
    rw [State.fld_of_reg (s.reg_raise_self src p.1 b (bootPlaces_noEvent p hp))]
    exact (h.setBit true ha) p hp
  · rw [State.fld_of_reg (s.reg_raise src stat b (bootPlaces_noEvent p hp) e)]
    exact h p hp

theorem BootKept.logError (h : BootKept s₀ s) (cls sub : Nat) (i : LogInfo) : BootKept s₀ (s.logError cls sub i) :=
  h.of_reg fun p hp => State.reg_logError _ _ _ _ (bootPlaces_noEvent p hp)

theorem BootKept.logViolation (h : BootKept s₀ s) (cls sub : Nat) (i : LogInfo) : BootKept s₀ (s.logViolation cls sub i) :=
  h.of_reg fun p hp => State.reg_logViolation _ _ _ _ (bootPlaces_noEvent p hp)

theorem BootKept.take (h : BootKept s₀ s) (w : Want) {offs : List Nat} (ha : ∀ a ∈ offs, BootFree a) : BootKept s₀ (s.take w offs) :=
  h.foldl w fun u hu x _ => by
    split
    · next hin => exact hu.setReg _ (ha _ (List.contains_iff_mem.1 hin))
    · exact hu

/-! ### The blocks that take wanted values (R22, R51, R298, R428, R441, R456, R461) -/

theorem BootKept.tickRefused (h : BootKept s₀ s) : BootKept s₀ s.tickRefused := (h.logError _ _ _).raise _ (by decide)

theorem BootKept.newSource (h : BootKept s₀ s) : BootKept s₀ s.newSource := by
  have hlock : BootKept s₀ ((s.setBit Reg.TICK_STAT 2 false).setBit Reg.TICK_STAT 3 s.tickPort.isSome) :=
    (h.setBit _ (by decide)).setBit _ (by decide)
  unfold State.newSource
  refine BootKept.ite (BootKept.tickRefused ?_) ?_
  all_goals exact hlock.of_regs rfl

theorem BootKept.applyTick (h : BootKept s₀ s) (w : Want) : BootKept s₀ (s.applyTick w) := by
  have htaken : BootKept s₀ (s.take w tickSet) := h.take w (by decide)
  have hmaster : BootKept s₀ (if wantsAny w [Reg.TICK_STOOK] then
      { s.take w tickSet with tick := { (s.take w tickSet).tick with master := none, halted := false } } else s.take w tickSet) :=
    BootKept.ite (htaken.of_regs rfl) htaken
  unfold State.applyTick
  exact BootKept.ite h (BootKept.ite h.tickRefused (BootKept.ite hmaster.newSource hmaster))

theorem BootKept.applyStage (h : BootKept s₀ s) (w : Want) : BootKept s₀ (s.applyStage w) := by
  have hset : ∀ v, BootKept s₀ (s.setReg Reg.HOST_STAGE v) := fun v => h.setReg v (by decide)
  unfold State.applyStage
  split
  · exact h
  · dsimp only
    refine BootKept.ite ((hset _).of_regs rfl) (BootKept.ite (h.setBit _ (by decide)) (BootKept.ite ?_ ((hset _).of_regs rfl)))
    exact ((hset _).setBit false (by decide)).of_regs rfl

/-- No wanted register lies in the host window. -/
def NoWindow (w : Want) : Prop := ∀ x ∈ w, hwtEntry x.1 = none

theorem State.applyHwt_noWindow (s : State) {w : Want} (hw : NoWindow w) : s.applyHwt w = s := by
  have hnone : (w.filter fun x => (hwtEntry x.1).isSome) = [] := List.filter_eq_nil_iff.2 fun x hx => by simp [hw x hx]
  unfold State.applyHwt
  rw [hnone]
  rfl

theorem BootKept.showModes (h : BootKept s₀ s) : BootKept s₀ s.showModes :=
  (h.setFld _ (by decide)).setFld _ (by decide)

theorem BootKept.applyPager (h : BootKept s₀ s) (w : Want) : BootKept s₀ (s.applyPager w) := by
  have hmodes : BootKept s₀ (s.take w [Reg.GLN_SWAPBUDGET, Reg.TSH_CHCFG, Reg.TSH_CHCFG + 0x400]).showModes := (h.take w (by decide)).showModes
  unfold State.applyPager
  refine BootKept.ite h ?_
  generalize (s.take w [Reg.GLN_SWAPBUDGET, Reg.TSH_CHCFG, Reg.TSH_CHCFG + 0x400]).showModes = u at hmodes ⊢
  refine BootKept.ite ?_ (BootKept.ite hmodes ?_)
  · exact hmodes.of_regs rfl
  · exact hmodes.of_regs (show (u.choose .t0 (max 64 u.plan.ringBytes)).2.regs = u.regs from (State.choose_eff Sub.rfl .refl).regs rfl)

theorem BootFree.apReg {r k : Nat} (hr : 0xD0000 ≤ r) (hr' : r < 0xD1000) (hk : k < 4) : BootFree (apReg r k) := by
  unfold Machine.apReg
  exact .of_between (by omega) (by omega)

theorem BootKept.applyPort (h : BootKept s₀ s) {k : Nat} (hk : k < 4) : BootKept s₀ (s.applyPort k) := by
  have hstat : BootFree (apReg Reg.AP_STAT k) := .apReg (by decide) (by decide) hk
  have hslots : BootFree (apReg Reg.AP_NASLOTS k) := .apReg (by decide) (by decide) hk
  have hclear : ∀ {u : State}, BootKept s₀ u → ∀ i b, BootKept s₀ (u.setBit (Machine.apReg Reg.AP_STAT k) i b) :=
    fun hu _ _ => hu.setBit _ (hstat.apart _ _)
  unfold State.applyPort
  refine BootKept.ite ?_ ?_
  · have hprime : BootKept s₀ (s.updAp k fun p => { p with reprime := true }) := h.of_regs rfl
    exact BootKept.ite (hclear hprime _ _) ((hclear hprime _ _).raise _ (hstat.apart _ _))
  · have hcleared := (hclear (hclear (hclear (hclear h 0 false) 1 false) 2 false) 3 false).setReg 0 hslots
    exact hcleared.of_regs rfl

theorem BootKept.applyAp (h : BootKept s₀ s) (w : Want) {k : Nat} (hk : k < 4) : BootKept s₀ (s.applyAp w k) := by
  have hfree : ∀ a ∈ portRegs k, BootFree a := by
    intro a ha
    simp only [portRegs, List.mem_cons, List.not_mem_nil, or_false] at ha
    rcases ha with rfl | rfl | rfl | rfl
    all_goals exact .apReg (by decide) (by decide) hk
  have htaken := h.take w hfree
  unfold State.applyAp
  exact BootKept.ite (htaken.applyPort hk) h

theorem BootKept.recheckPorts (h : BootKept s₀ s) : BootKept s₀ s.recheckPorts :=
  h.foldl _ fun _ hu _ hk => BootKept.ite (hu.applyPort (List.mem_range.1 hk)) hu

theorem BootKept.applyJob (h : BootKept s₀ s) (w : Want) (e j : Nat) {cfg out stat : Nat} (hcfg : BootFree cfg) (hout : BootFree out)
    (hstat : BootFree stat) : BootKept s₀ (s.applyJob w e j cfg out stat) := by
  have htaken : BootKept s₀ (s.take w [out]) := h.take w (by simpa using hout)
  unfold State.applyJob
  dsimp only
  split
  · exact htaken
  · exact BootKept.ite (htaken.setBit _ (hstat.apart _ _)) (htaken.setReg _ hcfg)

theorem BootKept.applyZoneRegs (h : BootKept s₀ s) (w : Want) {z : Nat} (hz : z < 16) : BootKept s₀ (s.applyZoneRegs w z) := by
  have hfree : ∀ z < 16, ∀ a ∈ zoneRegs z, BootFree a := by decide
  unfold State.applyZoneRegs
  refine BootKept.ite h ?_
  split
  · next t ht =>
    have hzone : BootKept s₀ ((s.take w (zoneRegs z)).applyZone z).2 := (h.take w (hfree z hz)).of_eff (State.applyZone_eff Sub.rfl .refl) rfl
    rwa [ht] at hzone
  · exact h.setBit _ (by decide)

theorem BootKept.applyGlm (h : BootKept s₀ s) (w : Want) {j : Nat} (hj : j < 16) : BootKept s₀ (s.applyGlm w j) := by
  have hfree : ∀ j < 16, ∀ a ∈ glmRegs j, BootFree a := by decide
  have hfixed : ∀ b : Bool, BootKept s₀ (if b = true then s.setBit Reg.GLM_STAT 8 true else s) := fun b => BootKept.ite (h.setBit _ (by decide)) h
  unfold State.applyGlm
  refine BootKept.ite h ?_
  dsimp only
  exact BootKept.ite ((hfixed _).setBit _ (by decide)) ((hfixed _).take _ (hfree j hj))

theorem BootKept.camReady (h : BootKept s₀ s) : BootKept s₀ s.camReady := by
  unfold State.camReady
  split
  · next a _ =>
    have hshown : BootKept s₀ ((s.setBit Reg.CAM_STAT 0 true).setFld Reg.CAM_AREA 16 10 (a.2 / 65536)) :=
      (h.setBit _ (by decide)).setFld _ (by decide)
    refine BootKept.ite h ?_
    exact hshown.of_regs rfl
  · exact h

theorem State.camOff_regs (s : State) :
    s.camOff.regs = (((s.setBit Reg.CAM_STAT 0 false).setBit Reg.CAM_STAT 1 false).setFld Reg.CAM_AREA 16 10 0).regs := rfl

theorem BootKept.camOff (h : BootKept s₀ s) : BootKept s₀ s.camOff :=
  (((h.setBit _ (by decide)).setBit _ (by decide)).setFld _ (by decide)).of_regs s.camOff_regs

theorem BootKept.camRefused (h : BootKept s₀ s) : BootKept s₀ s.camRefused := h.raise _ (by decide)

/-- The gate of the camera takes its configuration. -/
def State.applyGate (s : State) (w : Want) : State :=
  match keyGet w Reg.CAM_GATECFG with
  | none => s
  | some v =>
    if wordField v 0 8 < wordField v 8 8 || wordField v 16 8 = 0 || wordField v 24 7 = 0 then s.camRefused
    else s.setReg Reg.CAM_GATECFG v

theorem BootKept.applyGate (h : BootKept s₀ s) (w : Want) : BootKept s₀ (s.applyGate w) := by
  unfold State.applyGate
  split
  · exact h
  · exact BootKept.ite h.camRefused (h.setReg _ (by decide))

theorem BootKept.applyCam (h : BootKept s₀ s) (w : Want) : BootKept s₀ (s.applyCam w) := by
  have hgate : BootKept s₀ (s.applyGate w) := h.applyGate w
  have htaken : BootKept s₀ ((s.applyGate w).take w camRegs) := hgate.take w (by decide)
  unfold State.applyCam
  refine BootKept.ite hgate (BootKept.ite htaken.camOff (BootKept.ite htaken.camOff.camRefused (BootKept.ite (BootKept.camReady ?_) htaken)))
  exact htaken.camOff.of_regs rfl

theorem BootKept.applyWant (h : BootKept s₀ s) {w : Want} (hw : NoWindow w) : BootKept s₀ (s.applyWant w) := by
  have hjobs : ∀ j < 16, BootFree (Reg.FLL_JOBCFG + 8 * j) ∧ BootFree (Reg.FLL_JOBOUT + 8 * j) ∧ BootFree (Reg.QRN_JOBCFG + 8 * j) ∧
      BootFree (Reg.QRN_JOBIN + 8 * j) := by decide
  unfold State.applyWant
  dsimp only
  rw [State.applyHwt_noWindow _ hw]
  refine BootKept.foldl _ (BootKept.applyCam (BootKept.foldl _ (BootKept.foldl _ ?_ ?jobs) ?zones) w) ?glume
  case jobs =>
    intro u hu j hj
    obtain ⟨hfc, hfo, hqc, hqi⟩ := hjobs j (List.mem_range.1 hj)
    exact (hu.applyJob w 30 j hfc hfo (by decide)).applyJob w 31 j hqc hqi (by decide)
  case zones => exact fun u hu z hz => hu.applyZoneRegs w (List.mem_range.1 hz)
  case glume => exact fun u hu j hj => hu.applyGlm w (List.mem_range.1 hj)
  have hports : BootKept s₀ ((List.range 4).foldl (fun (u : State) k => u.applyAp w k) (((s.applyTick w).applyStage w).applyPager w)) :=
    (((h.applyTick w).applyStage w).applyPager w).foldl _ fun u hu k hk => hu.applyAp w (List.mem_range.1 hk)
  exact BootKept.ite hports.recheckPorts hports

end

end Sys2Proof.Machine
end

section
/-!
PROOFS. The base configuration, epochs, READY and power-down leave the bits alone by which the engine tells how far a start has come (R498, R503,
R526, R534, R537).
-/
namespace Sys2Proof.Machine

/-! ### The registers of fields -/

/-- The registers of fields lie between the blocks GLOBAL and NVC, apart from the host window. -/
theorem fieldReg_between {id a : Nat} (h : fieldReg id = some a) : 0x104 ≤ a ∧ a < 0x110000 ∧ hwtEntry a = none := by
  have hall : ∀ id < 0x400, ∀ a ∈ (fieldReg id).toList, 0x104 ≤ a ∧ a < 0x110000 ∧ hwtEntry a = none := by decide +kernel
  by_cases hid : id < 0x400
  · exact hall id hid a (by simp [h])
  · have hnone : fieldReg id = none := by
      unfold fieldReg
      simp only [Bool.and_eq_true, decide_eq_true_eq, Bool.or_eq_true]
      repeat rw [if_neg (by omega)]
    rw [hnone] at h
    exact absurd h (by simp)

theorem fieldReg_free {id a : Nat} (h : fieldReg id = some a) : BootFree a := by
  obtain ⟨hlo, hhi, -⟩ := fieldReg_between h
  exact .of_between hlo hhi

theorem noWindow_iff {w : Want} : NoWindow w ↔ ∀ a ∈ w.map Prod.fst, hwtEntry a = none := by simp [NoWindow]

theorem NoWindow.keyPut {w : Want} (h : NoWindow w) {a : Nat} (ha : hwtEntry a = none) (v : Word) : NoWindow (keyPut w a v) := by
  rw [noWindow_iff] at h ⊢
  intro b hb
  obtain rfl | hb := (mem_keys_keyPut v b).1 hb
  · exact ha
  · exact h b hb

section
variable {s₀ s t : State}

/-! ### Fields and the base configuration (R526) -/

theorem BootKept.writeCap (h : BootKept s₀ s) (mw : Nat) : BootKept s₀ (s.writeCap mw) := by
  have hset : ∀ v, BootKept s₀ (s.setFld Reg.PWR_CAPMW 0 16 v) := fun _ => h.setFld _ (by decide)
  unfold State.writeCap
  exact BootKept.ite (hset _) (((hset _).logError _ _ _).raise _ (by decide))

theorem BootKept.writeIds (h : BootKept s₀ s) (fields : List (Nat × Nat)) : BootKept s₀ (s.writeIds fields) := by
  have hregs : ∀ x ∈ fields.filterMap fun x => (fieldReg x.1).map fun off => (x.1, off, x.2), fieldReg x.1 = some x.2.1 := by
    intro x hx
    obtain ⟨y, -, hy⟩ := List.mem_filterMap.1 hx
    obtain ⟨off, hoff, rfl⟩ := Option.map_eq_some_iff.1 hy
    exact hoff
  unfold State.writeIds
  dsimp only
  generalize (fields.filterMap fun x => (fieldReg x.1).map fun off => (x.1, off, x.2)) = regs at hregs ⊢
  refine BootKept.applyWant (h.foldl _ fun u hu x hx => ?fld) ?want
  case fld => exact BootKept.ite (hu.writeCap _) (BootKept.ite hu (hu.setReg _ (fieldReg_free (hregs x hx))))
  case want =>
    refine List.foldlRecOn (motive := NoWindow) _ _ (fun x hx => absurd hx List.not_mem_nil) fun w hw x hx => hw.keyPut ?_ _
    exact (fieldReg_between (hregs x (List.mem_of_mem_filter hx))).2.2

theorem BootKept.keepStop (h : BootKept s₀ s) : BootKept s₀ s.keepStop :=
  ((h.setBit _ (by decide)).setBit _ (by decide)).of_regs s.keepStop_regs

theorem BootKept.keepWritten (h : BootKept s₀ s) (was : State) : BootKept s₀ (s.keepWritten was) := by
  have htyped : BootKept s₀ (if s.fld Reg.GLOBAL_KEEPCFG 0 2 = was.fld Reg.GLOBAL_KEEPCFG 0 2 then s
      else (s.keepStop.setBit Reg.GLOBAL_KEEPSTAT 31 false).updKeep fun k => { k with changed := true }) := by
    refine BootKept.ite h ?_
    exact (h.keepStop.setBit false (by decide : BootApart Reg.GLOBAL_KEEPSTAT 31 1)).of_regs rfl
  unfold State.keepWritten
  dsimp only
  generalize (if s.fld Reg.GLOBAL_KEEPCFG 0 2 = was.fld Reg.GLOBAL_KEEPCFG 0 2 then s
      else (s.keepStop.setBit Reg.GLOBAL_KEEPSTAT 31 false).updKeep fun k => { k with changed := true }) = u at htyped ⊢
  exact BootKept.ite (htyped.of_regs rfl) (BootKept.ite htyped htyped.keepStop)

/-- The wanted values of the tick that the base configuration gives. -/
def State.baseTick (s : State) : Want :=
  [(Reg.TICK_PERIOD, bitsOf (s.baseValue 0x01) 0 7), (Reg.TICK_FALLOW, bitsOf (s.baseValue 0x01) 8 6),
    (Reg.TICK_SLIP, bitsOf (s.baseValue 0x01) 16 6)].filterMap
    fun x => if s.reg x.1 = BitVec.ofNat 32 x.2 then none else some (x.1, BitVec.ofNat 32 x.2)

theorem State.baseTick_noWindow (s : State) : NoWindow s.baseTick := by
  intro x hx
  obtain ⟨y, hy, hyx⟩ := List.mem_filterMap.1 hx
  have hfst : x.1 = y.1 := by
    split at hyx
    · exact absurd hyx (by simp)
    · exact (Option.some.inj hyx) ▸ rfl
  rw [hfst]
  simp only [List.mem_cons, List.not_mem_nil, or_false] at hy
  rcases hy with rfl | rfl | rfl
  all_goals rfl

theorem BootKept.applyBase (h : BootKept s₀ s) : BootKept s₀ s.applyBase := by
  have hwritten : ∀ fields, BootKept s₀ ((s.applyWant s.baseTick).writeIds fields) := fun _ => (h.applyWant s.baseTick_noWindow).writeIds _
  unfold State.applyBase
  refine BootKept.setReg (BootKept.setFld (BootKept.of_regs ?_ rfl) _ (by decide)) _ (by decide)
  exact (hwritten _).keepWritten _

/-! ### Epochs (R534 to R537) -/

theorem BootKept.draw (h : BootKept s₀ s) : BootKept s₀ s.draw.2 := h.of_regs rfl

theorem BootKept.showEpoch (h : BootKept s₀ s) : BootKept s₀ s.showEpoch :=
  ((h.setReg64 _ (by decide) (by decide)).setFld _ (by decide)).setBit _ (by decide)

theorem BootKept.settle (h : BootKept s₀ s) (q tag status detail value stream : Nat) : BootKept s₀ (s.settle q tag status detail value stream) :=
  h.of_eff (State.settle_eff Sub.rfl .refl) rfl

theorem BootKept.actReq (h : BootKept s₀ s) (q tag : Nat) : BootKept s₀ (s.actReq q tag) := h.of_eff (State.actReq_eff Sub.rfl .refl) rfl

theorem BootKept.giveBoundary (h : BootKept s₀ s) (sc : Nat) (vals : List (Nat × Nat)) : BootKept s₀ (s.giveBoundary sc vals) :=
  h.of_eff (State.giveBoundary_eff Sub.rfl .refl) rfl

theorem BootKept.pumpPort (h : BootKept s₀ s) {k : Nat} (hk : k < 4) : BootKept s₀ (s.pumpPort k) := by
  refine h.of_reg fun p hp => s.reg_pumpPort_apart ?_ ?_
  all_goals
    refine BootFree.of_between ?_ ?_ p hp
    all_goals unfold gdnReg; simp only [Reg.GDN_TXFLITS_LO, Reg.GDN_TXFLITS_HI]; omega

theorem BootKept.peerMsg (h : BootKept s₀ s) (chip cls opc : Nat) (payload : List Nat) (bytes : Nat) :
    BootKept s₀ (s.peerMsg chip cls opc payload bytes) := by
  unfold State.peerMsg
  refine BootKept.pumpPort ?_ (Nat.mod_lt _ (by decide))
  exact h.of_regs rfl

theorem BootKept.takeEpoch (h : BootKept s₀ s) (q tag epoch mode : Nat) (list : List (Nat × Nat)) :
    BootKept s₀ (s.takeEpoch q tag epoch mode list) := by
  unfold State.takeEpoch
  extract_lets values changed atomic switch idle now groups clash
  refine BootKept.ite ?tooMany ?taken
  case tooMany => exact (h.draw.logViolation _ _ _).settle _ _ _ _ _ _
  case taken =>
    split
    · exact h.settle _ _ _ _ _ _
    · exact h.settle _ _ _ _ _ _
    · rename_i offs unheld written held numbered shown vals set nv taken _ _ _ _
      have hunheld : BootKept s₀ unheld := h.of_regs rfl
      have hshown : BootKept s₀ shown := ((hunheld.writeIds now).setReg _ (by decide)).setFld mode (by decide)
      have htaken : BootKept s₀ taken := hshown.of_regs rfl
      exact htaken.actReq q tag

theorem BootKept.advanceEpoch (h : BootKept s₀ s) : BootKept s₀ s.advanceEpoch := by
  unfold State.advanceEpoch
  split
  · exact h
  · next e _ =>
    extract_lets now u away isOpen e'
    have hgiven : BootKept s₀ u := h.foldl _ fun v hv sc _ => by
      split
      · exact hv.peerMsg _ _ _ _ _
      · exact hv.giveBoundary _ _
    clear_value u
    refine BootKept.ite (BootKept.showEpoch (BootKept.settle ?_ _ _ _ _ _ _)) (BootKept.showEpoch ?_)
    all_goals exact hgiven.of_regs rfl

/-! ### POWERDOWN (R503) -/

theorem BootKept.updAon (h : BootKept s₀ s) (f : AonState → AonState) : BootKept s₀ (s.updAon f) := h.of_regs rfl

theorem BootKept.journal (h : BootKept s₀ s) (code arg1 arg2 detail : Nat) : BootKept s₀ (s.journal code arg1 arg2 detail) := by
  have hends : ∀ p ∈ bootPlaces, p.1 < Reg.GLOBAL_MONO_LO ∨ Reg.TICK_CTRL ≤ p.1 := by decide
  refine h.of_reg fun p hp => ?_
  obtain hlo | hhi := hends p hp
  · exact s.reg_journal_below _ _ _ _ hlo
  · exact s.reg_journal _ _ _ _ hhi

theorem BootKept.sendLeave (h : BootKept s₀ s) : BootKept s₀ s.sendLeave :=
  h.foldl _ fun _ hu _ _ => BootKept.ite (hu.peerMsg _ _ _ _ _) hu

theorem BootKept.setBusy (h : BootKept s₀ s) {e : Nat} (he : e < 33) (b : Bool) : BootKept s₀ (s.setBusy e b) := by
  have hfree : ∀ e < 33, ∀ r ∈ (busyBit e).toList, BootFree r.1 := by decide
  unfold State.setBusy
  split
  · next r i hr => exact h.setBit _ ((hfree e he (r, i) (by simp [hr])).apart _ _)
  · exact h

theorem BootKept.stopWork (h : BootKept s₀ s) : BootKept s₀ s.stopWork := by
  have hshown : BootKept s₀ (((s.setBit Reg.TICK_STAT 0 false).setBit Reg.TICK_STAT 1 false).setBit Reg.CART_STAT 16 false) :=
    ((h.setBit _ (by decide)).setBit _ (by decide)).setBit _ (by decide)
  unfold State.stopWork
  refine BootKept.foldl _ ?_ fun u hu e he => BootKept.ite (BootKept.setBusy ?_ (List.mem_range.1 he) false) hu
  · exact hshown.of_regs rfl
  · exact hu.of_regs rfl

/-- Whatever cart is named, what its channel shows lies apart from the places where a start shows. -/
theorem BootKept.showMove (h : BootKept s₀ s) (cart owner : Nat) (fallow : Bool) (st : MoveState) :
    BootKept s₀ (s.showMove cart owner fallow st) := by
  have hapart : ∀ lo w, lo + w ≤ 31 → BootApart (Reg.CART_CHSTAT + 0x20 * cart) lo w := by
    intro lo w hlo p hp
    have hplaces : ∀ p ∈ bootPlaces, p.1 < Reg.CART_CHSTAT ∨ (p.1 - Reg.CART_CHSTAT) % 0x20 ≠ 0 ∨ p.2.1 = 31 := by decide
    have := hplaces p hp
    omega
  have hstat : ∀ {u : State}, BootKept s₀ u → ∀ i b, BootKept s₀ (u.setBit Reg.CART_STAT i b) := fun hu _ _ =>
    hu.setBit _ (BootFree.apart (by decide) _ _)
  exact hstat (hstat (((h.setFld _ (hapart 8 7 (by decide))).setBit _ (hapart 4 1 (by decide))).setFld _ (hapart 0 3 (by decide))) _ _) _ _

theorem BootKept.stopAllMoves (h : BootKept s₀ s) : BootKept s₀ s.stopAllMoves :=
  BootKept.of_regs (h.foldl _ fun _ hu _ _ => hu.showMove _ _ _ _) rfl

theorem BootKept.beginRamp (h : BootKept s₀ s) : BootKept s₀ s.beginRamp := by
  unfold State.beginRamp
  refine BootKept.ite h (BootKept.setBit ?_ _ (by decide))
  exact h.of_regs rfl

theorem BootKept.interruptUpdate (h : BootKept s₀ s) : BootKept s₀ s.interruptUpdate := by
  unfold State.interruptUpdate
  refine BootKept.ite h (BootKept.raise (BootKept.setFld (BootKept.setBit ?_ _ (by decide)) _ (by decide)) _ (by decide))
  exact h.of_regs rfl

theorem BootKept.powerDown (h : BootKept s₀ s) (code arg1 arg2 : Nat) : BootKept s₀ (s.powerDown code arg1 arg2) := by
  unfold State.powerDown
  refine BootKept.updAon ?_ _
  exact (h.journal code arg1 arg2 0).sendLeave.stopWork.stopAllMoves.beginRamp.interruptUpdate

theorem BootKept.readLatch (h : BootKept s₀ s) : BootKept s₀ s.readLatch := by
  unfold State.readLatch
  split
  · refine BootKept.powerDown (BootKept.raise ?_ _ (by decide)) _ _ _
    exact h.of_regs rfl
  · exact BootKept.ite h (h.powerDown _ _ _)

/-! ### READY (R500, R526) -/

theorem BootKept.showCore (h : BootKept s₀ s) {c : Nat} (hc : c < 6) (run restarting : Bool) : BootKept s₀ (s.showCore c run restarting) := by
  have hfree : ∀ c < 6, BootFree (Reg.CCMB_CORESTAT + 4 * c) := by decide
  exact (h.setBit _ ((hfree c hc).apart _ _)).setBit _ ((hfree c hc).apart _ _)

theorem BootKept.openDebug (h : BootKept s₀ s) : BootKept s₀ s.openDebug := h.setBit _ (by decide)

end

end Sys2Proof.Machine
end

section
/-!
PROOFS. What a boot with a factory record alone comes to: READY, the boot wait over, the generation shown, the flash as it was (R498, R500, R526).
-/
namespace Sys2Proof.Machine

/-! ### The flash, and the boot plan that waits -/

/-- From `s` to `t` the flash and the boot plan that waits are the same. -/
def NvKept (s t : State) : Prop := t.nv.flash = s.nv.flash ∧ t.nv.bootPlan = s.nv.bootPlan

section
variable {s₀ s t : State}

theorem NvKept.refl : NvKept s s := ⟨rfl, rfl⟩

theorem NvKept.of_nv (h : NvKept s₀ s) (hflash : t.nv.flash = s.nv.flash) (hplan : t.nv.bootPlan = s.nv.bootPlan) : NvKept s₀ t :=
  ⟨hflash.trans h.1, hplan.trans h.2⟩

theorem NvKept.of_eff {m : Nat} (h : NvKept s₀ s) (k : Eff m s t) (hm : m.testBit 70 = false) : NvKept s₀ t :=
  h.of_nv (by rw [k.nv hm]) (by rw [k.nv hm])

theorem NvKept.ite {c : Prop} [Decidable c] (hs : NvKept s₀ s) (ht : NvKept s₀ t) : NvKept s₀ (if c then s else t) := by
  split
  · exact hs
  · exact ht

theorem NvKept.takeEpoch (h : NvKept s₀ s) (q tag epoch mode : Nat) (list : List (Nat × Nat)) :
    NvKept s₀ (s.takeEpoch q tag epoch mode list) := by
  have hsettle : ∀ {u : State} (status detail value stream : Nat), NvKept s₀ u → NvKept s₀ (u.settle q tag status detail value stream) :=
    fun _ _ _ _ hu => hu.of_eff (State.settle_eff Sub.rfl .refl) rfl
  unfold State.takeEpoch
  extract_lets values changed atomic switch idle now groups clash
  refine NvKept.ite ?tooMany ?taken
  case tooMany =>
    have hdrawn : NvKept s₀ s.draw.2 := ⟨h.1, h.2⟩
    exact hsettle _ _ _ _ (hdrawn.of_eff (State.logViolation_eff Sub.rfl .refl) rfl)
  case taken =>
    split
    · exact hsettle _ _ _ _ h
    · exact hsettle _ _ _ _ h
    · rename_i offs unheld written held numbered shown vals set nv taken _ _ _ _
      have hunheld : NvKept s₀ unheld := ⟨h.1, h.2⟩
      have hwritten : NvKept s₀ written := hunheld.of_eff (State.writeIds_eff (W := 0x101801F301800000008A) Sub.rfl .refl) rfl
      have hshown : NvKept s₀ shown := ⟨hwritten.1, hwritten.2⟩
      have htaken : NvKept s₀ taken := ⟨hshown.1, hshown.2⟩
      exact htaken.of_eff (State.actReq_eff Sub.rfl .refl) rfl

theorem NvKept.advanceEpoch (h : NvKept s₀ s) : NvKept s₀ s.advanceEpoch := by
  have hshow : ∀ {u : State}, NvKept s₀ u → NvKept s₀ u.showEpoch := fun hu => hu.of_eff (State.showEpoch_eff Sub.rfl .refl) rfl
  unfold State.advanceEpoch
  split
  · exact h
  · next e _ =>
    extract_lets now u away isOpen e'
    have hgiven : NvKept s₀ u := List.foldlRecOn (motive := NvKept s₀) now _ h fun v hv sc _ => by
      split
      · exact hv.of_eff (State.sendBoundary_eff Sub.rfl .refl) rfl
      · exact hv.of_eff (State.giveBoundary_eff Sub.rfl .refl) rfl
    clear_value u
    split
    · refine hshow (NvKept.of_eff ?_ (State.settle_eff Sub.rfl .refl) rfl)
      exact hgiven.of_nv rfl rfl
    · refine hshow ?_
      exact hgiven.of_nv rfl rfl

/-- POWERDOWN begins with the journal and the messages that leave; what changes of the always-on domain then is the state alone. -/
theorem State.powerDown_eq (s : State) (code arg1 arg2 : Nat) : ∃ u : State,
    u = (s.journal code arg1 arg2 0).sendLeave.stopWork.stopAllMoves.beginRamp.interruptUpdate ∧
      s.powerDown code arg1 arg2 = u.updAon fun a => { a with phase := .powerdown, phaseAt := u.now } := ⟨_, rfl, rfl⟩

theorem State.powerDown_flash (s : State) (code arg1 arg2 : Nat) : (s.powerDown code arg1 arg2).nv.flash = s.nv.flash := by
  have hnv : ((s.journal code arg1 arg2 0).sendLeave.stopWork.stopAllMoves.beginRamp).nv = s.nv := by
    rw [(State.beginRamp_eff Sub.rfl .refl).nv rfl, (State.stopAllMoves_eff Sub.rfl .refl).nv rfl, (State.stopWork_eff Sub.rfl .refl).nv rfl,
      (State.sendLeave_eff Sub.rfl .refl).nv rfl, (State.journal_eff Sub.rfl .refl).nv rfl]
  obtain ⟨u, hu, heq⟩ := s.powerDown_eq code arg1 arg2
  calc (s.powerDown code arg1 arg2).nv.flash
      _ = u.nv.flash := by rw [heq]; rfl
      _ = s.nv.flash := by rw [hu, State.interruptUpdate_flash, hnv]

theorem State.readLatch_flash (s : State) : s.readLatch.nv.flash = s.nv.flash := by
  unfold State.readLatch
  split
  · rw [State.powerDown_flash]
    exact congrArg NvState.flash ((State.raise_eff Sub.rfl .refl).nv rfl)
  · split
    · rfl
    · rw [State.powerDown_flash]

theorem State.readLatch_on (h : s.aon.tripDue = none) (hlatch : s.aon.latch = true) : s.readLatch = s := by
  unfold State.readLatch
  rw [h]
  exact if_pos hlatch

/-! ### READY -/

/-- The cores show that they run, with their firmware. -/
def State.readyCores (s : State) : State :=
  ((List.range 6).foldl (fun (s : State) c => s.showCore c true false) s).draw.2.setReg Reg.CCMB_FWVER
    (BitVec.ofNat 32 (((List.range 6).foldl (fun (s : State) c => s.showCore c true false) s).draw.1))

/-- READY shows, and the boot wait is over. -/
def State.readyShown (s : State) : State := ((s.readyCores).setBit Reg.NVC_BOOTSTAT 31 false).setBit Reg.GLOBAL_PWRSTAT 0 true

/-- The state is ON. -/
def State.nowOn (s : State) : State := s.updAon fun a => { a with phase := .on, phaseAt := s.now }

theorem State.reachReady_eq (s : State) : ∃ mode n, s.reachReady =
    ((s.readyShown.openDebug.journal 0x02 0 n 0).nowOn.takeEpoch 32 0 0 mode []).advanceEpoch.loadBootPlan.readLatch := by
  unfold State.reachReady
  extract_lets cores
  exact ⟨_, _, rfl⟩

theorem State.loadBootPlan_none (h : s.nv.bootPlan = none) : s.loadBootPlan = s := by
  unfold State.loadBootPlan; rw [h]

theorem BootKept.readyCores (h : BootKept s₀ s) : BootKept s₀ s.readyCores :=
  BootKept.setReg (BootKept.draw (h.foldl _ fun _ hu _ hc => hu.showCore (List.mem_range.1 hc) _ _)) _ (by decide)

theorem State.readyShown_eff (s : State) : Eff 0xA s s.readyShown := by
  refine State.setBit_eff ⟨rfl⟩ (State.setBit_eff ⟨rfl⟩ (State.setReg_eff ⟨rfl⟩ (State.draw_eff ⟨rfl⟩ ?_)))
  exact Eff.foldl _ (fun _ _ h => State.showCore_eff ⟨rfl⟩ h) .refl

theorem State.nowOn_nv (s : State) : s.nowOn.nv = s.nv := rfl
theorem State.nowOn_aon (s : State) : s.nowOn.aon = { s.aon with phase := .on, phaseAt := s.now } := rfl

/-- READY is journaled and the epoch of the base configuration taken: of the always-on domain the state and the store alone change. -/
theorem State.readyTaken_facts (s : State) (mode n : Nat) :
    let t := ((s.journal 0x02 0 n 0).nowOn.takeEpoch 32 0 0 mode []).advanceEpoch
    BootKept s t ∧ NvKept s t ∧ t.aon.phase = .on ∧ t.aon.tripDue = s.aon.tripDue ∧ t.aon.latch = s.aon.latch := by
  have haon : ((s.journal 0x02 0 n 0).nowOn.takeEpoch 32 0 0 mode []).advanceEpoch.aon = (s.journal 0x02 0 n 0).nowOn.aon := by
    rw [(State.advanceEpoch_eff Sub.rfl .refl).aon rfl, (State.takeEpoch_eff Sub.rfl .refl).aon rfl]
  have hjournal : NvKept s (s.journal 0x02 0 n 0) := NvKept.refl.of_eff (State.journal_eff Sub.rfl .refl) rfl
  have hon : NvKept s (s.journal 0x02 0 n 0).nowOn := ⟨hjournal.1, hjournal.2⟩
  refine ⟨(((BootKept.refl.journal _ _ _ _).updAon _).takeEpoch _ _ _ _ _).advanceEpoch, (hon.takeEpoch _ _ _ _ _).advanceEpoch, ?_, ?_, ?_⟩
  all_goals rw [haon, State.nowOn_aon]
  all_goals rw [State.journal_aon]

/-- What READY leaves of the places of a start, of the flash, and of the request latch. -/
theorem State.reachReady_facts (s : State) (hplan : s.nv.bootPlan = none) :
    BootKept s.readyShown s.reachReady ∧ s.reachReady.nv.flash = s.nv.flash ∧
      (s.aon.tripDue = none → s.aon.latch = true → s.reachReady.aon.phase = .on) := by
  obtain ⟨mode, n, heq⟩ := s.reachReady_eq
  have hnv : s.readyShown.openDebug.nv = s.nv := (State.openDebug_eff ⟨rfl⟩ s.readyShown_eff).nv rfl
  have haon : s.readyShown.openDebug.aon = s.aon := (State.openDebug_eff ⟨rfl⟩ s.readyShown_eff).aon rfl
  have hopened : BootKept s.readyShown s.readyShown.openDebug := BootKept.refl.openDebug
  obtain ⟨hboot, ⟨hflash, htakenPlan⟩, hon, hdue, hlatch⟩ := s.readyShown.openDebug.readyTaken_facts mode n
  rw [heq, State.loadBootPlan_none (by rw [htakenPlan, hnv, hplan])]
  refine ⟨(hopened.trans hboot).readLatch, ?_, fun hnone hset => ?_⟩
  · rw [State.readLatch_flash, hflash, hnv]
  · rw [State.readLatch_on (by rw [hdue, haon, hnone]) (by rw [hlatch, haon, hset]), hon]

/-! ### A boot with a factory record alone (R498, R526) -/

theorem State.reg_of_fld {a : Nat} (h : t.fld a 0 32 = s.fld a 0 32) : t.reg a = s.reg a := by
  refine BitVec.eq_of_toNat_eq ?_
  have hword : ∀ v : Word, wordField v 0 32 = v.toNat := fun v => by simp [wordField, bitsOf, Nat.mod_eq_of_lt v.isLt]
  simpa only [State.fld, hword] using h

/-- What shows of the records that a boot takes up. -/
def State.bootShown (s : State) (f : NvRecord) (fslot uslot : Nat) : State :=
  ((s.setBit Reg.NVC_BOOTSTAT 24 (fslot = 1)).setFld Reg.NVC_BOOTSTAT 20 2 uslot).takeLayers f none

theorem State.takeLayers_none (s : State) (f : NvRecord) : ∃ n b v, s.takeLayers f none =
    ((({ s with nv := n } : State).setBit Reg.NVC_BOOTSTAT 28 b).setReg Reg.NVC_FGEN (BitVec.ofNat 32 f.gen)).setReg Reg.NVC_UGEN v ∧
      n.bootPlan = none ∧ n.flash = s.nv.flash :=
  ⟨_, _, _, rfl, rfl, rfl⟩

theorem State.takeLayers_none_facts (s : State) (f : NvRecord) :
    (s.takeLayers f none).reg Reg.NVC_FGEN = BitVec.ofNat 32 f.gen ∧ (s.takeLayers f none).reg Reg.NVC_UPDSTAT = s.reg Reg.NVC_UPDSTAT ∧
      (s.takeLayers f none).nv.bootPlan = none ∧ (s.takeLayers f none).nv.flash = s.nv.flash := by
  obtain ⟨n, b, v, heq, hplan, hflash⟩ := s.takeLayers_none f
  rw [heq]
  refine ⟨?_, ?_, hplan, hflash⟩
  · rw [State.reg_setReg_apart _ _ (by decide), State.reg_setReg_self]
  · rw [State.reg_setReg_apart _ _ (by decide), State.reg_setReg_apart _ _ (by decide), State.reg_setBit_apart _ _ _ (by decide)]
    exact State.reg_of_regs rfl _

theorem State.bootShown_facts (s : State) (f : NvRecord) (fslot uslot : Nat) :
    let t := s.bootShown f fslot uslot
    t.reg Reg.NVC_FGEN = BitVec.ofNat 32 f.gen ∧ t.reg Reg.NVC_UPDSTAT = s.reg Reg.NVC_UPDSTAT ∧ t.nv.bootPlan = none ∧
      t.nv.flash = s.nv.flash ∧ t.aon = s.aon := by
  obtain ⟨hgen, hupd, hplan, hflash⟩ := ((s.setBit Reg.NVC_BOOTSTAT 24 (fslot = 1)).setFld Reg.NVC_BOOTSTAT 20 2 uslot).takeLayers_none_facts f
  refine ⟨hgen, ?_, hplan, hflash, (State.takeLayers_eff Sub.rfl .refl).aon rfl⟩
  rw [State.bootShown, hupd, State.reg_setFld_apart _ _ _ _ (by decide), State.reg_setBit_apart _ _ _ (by decide)]

/-- READY leaves the generation in use, and DONE of the flash operation. -/
theorem State.fld_readyShown (s : State) {p : Nat × Nat × Nat} (hp : p ∈ [(Reg.NVC_FGEN, 0, 32), (Reg.NVC_UPDSTAT, 0, 1)]) :
    s.readyShown.fld p.1 p.2.1 p.2.2 = s.fld p.1 p.2.1 p.2.2 := by
  have hplace : p ∈ bootPlaces ∧ p.1 ≠ Reg.GLOBAL_PWRSTAT ∧ p.1 ≠ Reg.NVC_BOOTSTAT := by
    revert p; decide
  obtain ⟨hin, hpwr, hboot⟩ := hplace
  have hcores : BootKept s s.readyCores := BootKept.refl.readyCores
  rw [← hcores p hin, State.readyShown, State.fld_of_reg (State.reg_setBit_apart _ _ _ hpwr), State.fld_of_reg (State.reg_setBit_apart _ _ _ hboot)]

theorem State.readyShown_bit (s : State) : s.readyShown.bit Reg.GLOBAL_PWRSTAT 0 = true ∧ s.readyShown.bit Reg.NVC_BOOTSTAT 31 = false := by
  unfold State.readyShown
  constructor
  · rw [State.bit_setBit _ _ _ _ (by decide)]
  · rw [State.bit_of_reg (State.reg_setBit_apart _ _ _ (by decide)), State.bit_setBit _ _ _ _ (by decide)]

theorem BootKept.bit (h : BootKept s t) {a lo : Nat} (hp : (a, lo, 1) ∈ bootPlaces) : t.bit a lo = s.bit a lo := by
  unfold State.bit; rw [h _ hp]

/-! ### What a charger's setting leaves of the always-on domain -/

/-- From `s` to `t`, of the always-on domain only the keep cell changes. -/
def KeepAlone (s t : State) : Prop := ∃ k, t.aon = { s.aon with keep := k }

theorem KeepAlone.refl : KeepAlone s s := ⟨_, rfl⟩

theorem KeepAlone.updKeep (h : KeepAlone s₀ s) (f : KeepState → KeepState) : KeepAlone s₀ (s.updKeep f) := by
  obtain ⟨k, hk⟩ := h
  exact ⟨f k, by unfold State.updKeep; rw [State.updAon_aon, hk]⟩

theorem KeepAlone.keepStop (h : KeepAlone s₀ s) : KeepAlone s₀ s.keepStop := by
  obtain ⟨k, hk⟩ := h
  exact ⟨_, by rw [State.keepStop_aon, hk]⟩

theorem KeepAlone.setBit (h : KeepAlone s₀ s) (a i : Nat) (b : Bool) : KeepAlone s₀ (s.setBit a i b) := h

theorem KeepAlone.keepWritten (h : KeepAlone s₀ s) (was : State) : KeepAlone s₀ (s.keepWritten was) := by
  unfold State.keepWritten
  extract_lets r typed
  have htyped : KeepAlone s₀ typed := by
    unfold typed
    split
    · exact h
    · exact (h.keepStop.setBit _ _ _).updKeep _
  clear_value typed
  split
  · exact htyped.updKeep _
  · split
    · exact htyped
    · exact htyped.keepStop

theorem KeepAlone.applyBase (s : State) : KeepAlone s s.applyBase := by
  obtain ⟨fields, was, v, w, heq⟩ : ∃ fields was v w, s.applyBase = ((((s.applyWant s.baseTick).writeIds fields).keepWritten was).hspCfg.setFld
      (Reg.PSP_SELCLK + 24) 0 8 v).setReg (Reg.PSP_SELDLY + 24) w := ⟨_, _, _, _, rfl⟩
  have hwritten : KeepAlone s ((s.applyWant s.baseTick).writeIds fields) := by
    refine ⟨s.aon.keep, ?_⟩
    rw [(State.writeIds_eff Sub.rfl .refl).aon rfl, (State.applyWant_eff Sub.rfl .refl).aon rfl]
  obtain ⟨k, hk⟩ := hwritten.keepWritten was
  exact ⟨k, by rw [heq, (State.setReg_eff Sub.rfl (State.setFld_eff Sub.rfl .refl)).aon rfl, ← hk]; rfl⟩

/-- A boot with a factory record alone reaches READY with its generation. -/
theorem State.bootWith_facts (s : State) (f : NvRecord) (fslot uslot : Nat) :
    let t := s.bootWith f fslot none uslot
    t.bit Reg.GLOBAL_PWRSTAT 0 = true ∧ t.bit Reg.NVC_BOOTSTAT 31 = false ∧ t.reg Reg.NVC_FGEN = BitVec.ofNat 32 f.gen ∧
      t.bit Reg.NVC_UPDSTAT 0 = s.bit Reg.NVC_UPDSTAT 0 ∧ t.nv.flash = s.nv.flash ∧
      (s.aon.tripDue = none → s.aon.latch = true → t.aon.phase = .on) := by
  obtain ⟨hgen, hupd, hplan, hflash, haon⟩ := s.bootShown_facts f fslot uslot
  have hwith : s.bootWith f fslot none uslot = (s.bootShown f fslot uslot).applyBase.reachReady := rfl
  have hbase : BootKept (s.bootShown f fslot uslot) (s.bootShown f fslot uslot).applyBase := BootKept.refl.applyBase
  have hnv : (s.bootShown f fslot uslot).applyBase.nv = (s.bootShown f fslot uslot).nv := (State.applyBase_eff Sub.rfl .refl).nv rfl
  obtain ⟨k, hkeep⟩ := KeepAlone.applyBase (s.bootShown f fslot uslot)
  generalize (s.bootShown f fslot uslot).applyBase = u at hwith hbase hnv hkeep
  obtain ⟨hboot, hflashReady, hon⟩ := u.reachReady_facts (by rw [hnv, hplan])
  obtain ⟨hready, hwait⟩ := u.readyShown_bit
  have hkept : ∀ p ∈ [(Reg.NVC_FGEN, 0, 32), (Reg.NVC_UPDSTAT, 0, 1)],
      u.reachReady.fld p.1 p.2.1 p.2.2 = (s.bootShown f fslot uslot).fld p.1 p.2.1 p.2.2 := by
    intro p hp
    have hin : ∀ p ∈ [(Reg.NVC_FGEN, 0, 32), (Reg.NVC_UPDSTAT, 0, 1)], p ∈ bootPlaces := by decide
    rw [hboot p (hin p hp), u.fld_readyShown hp, hbase p (hin p hp)]
  rw [hwith]
  refine ⟨?_, ?_, ?_, ?_, ?_, fun hdue hlatch => hon ?_ ?_⟩
  · rw [hboot.bit (by decide), hready]
  · rw [hboot.bit (by decide), hwait]
  · rw [State.reg_of_fld (hkept (Reg.NVC_FGEN, 0, 32) (by simp)), hgen]
  · rw [← State.bit_of_reg hupd, State.bit, hkept (Reg.NVC_UPDSTAT, 0, 1) (by simp), State.bit]
  · rw [hflashReady, hnv, hflash]
  · rw [hkeep, haon]
    exact hdue
  · rw [hkeep, haon]
    exact hlatch

end

end Sys2Proof.Machine
end

section
/-!
PROOFS. Operations on the flash: refusals, failures with their cause, writes of a slot, commits, and the boot by a host (R489, R527, R529, R530).
-/
namespace Sys2Proof.Machine

/-! ### One register alone -/

/-- From `s` to `t` no part of the state but one register changes. -/
def OneReg (r : Nat) (s t : State) : Prop := RegsAlone s t ∧ ∀ a, a ≠ r → t.reg a = s.reg a

section
variable {r : Nat} {s t : State}

theorem OneReg.reg (h : OneReg r s t) {a : Nat} (ha : a ≠ r) : t.reg a = s.reg a := h.2 a ha

theorem OneReg.setBit (h : OneReg r s t) (i : Nat) (b : Bool) : OneReg r s (t.setBit r i b) :=
  ⟨h.1.setBit _ _ _, fun _ ha => (State.reg_setBit_apart _ _ _ ha).trans (h.reg ha)⟩

theorem OneReg.refl : OneReg r s s := ⟨RegsAlone.refl s, fun _ _ => rfl⟩

theorem OneReg.nv (h : OneReg r s t) : t.nv = s.nv := by rw [h.1]
theorem OneReg.aon (h : OneReg r s t) : t.aon = s.aon := by rw [h.1]
theorem OneReg.host (h : OneReg r s t) : t.host = s.host := by rw [h.1]
theorem OneReg.restarting (h : OneReg r s t) : t.restarting = s.restarting := by rw [h.1]
theorem OneReg.staging (h : OneReg r s t) : t.staging = s.staging := by rw [h.1]

theorem OneReg.reg64 (h : OneReg r s t) {a : Nat} (ha : a ≠ r) (ha' : a + 4 ≠ r) : t.reg64 a = s.reg64 a := by
  unfold State.reg64; rw [h.reg ha, h.reg ha']

theorem OneReg.bit (h : OneReg r s t) {a : Nat} (ha : a ≠ r) (i : Nat) : t.bit a i = s.bit a i := State.bit_of_reg (h.reg ha) i

theorem OneReg.coreUp (h : OneReg r s t) : t.coreUp 0 = s.coreUp 0 := by
  unfold State.coreUp; rw [h.restarting, h.aon]; rfl

/-! ### Records rest on the registers of the security block, slots on the flash -/

/-- A register lies apart from those that a record is checked against. -/
def SecApart (r : Nat) : Prop := r < Reg.SEC_STAT

theorem OneReg.nvSigned (h : OneReg r s t) (hr : SecApart r) : t.nvSigned = s.nvSigned := by
  have hreg : ∀ a, Reg.SEC_STAT ≤ a → t.reg a = s.reg a := fun a ha => h.reg (Nat.ne_of_gt (Nat.lt_of_lt_of_le hr ha))
  have hash : ∀ q, Reg.SEC_STAT ≤ q → t.hashRegs q = s.hashRegs q := fun q hq => by
    unfold State.hashRegs; simp only [hreg (q + 4 * _) (Nat.le_add_right_of_le hq)]
  have hkind : t.sigKind = s.sigKind := by
    funext b o
    unfold State.sigKind
    rw [hash Reg.SEC_VENDHASH (by decide), hash Reg.SEC_OWNHASH (by decide)]
  have hsecured : t.secured = s.secured := by unfold State.secured; rw [State.fld_of_reg (hreg Reg.SEC_STAT (Nat.le_refl _))]
  funext user bs
  unfold State.nvSigned
  rw [hkind, hsecured]

theorem OneReg.nvRecord (h : OneReg r s t) (hr : SecApart r) (user : Bool) (locked : List Nat) (bs : List Byte) :
    t.nvRecord user locked bs = s.nvRecord user locked bs := by
  unfold State.nvRecord; rw [h.nvSigned hr]

theorem OneReg.slotAt (h : OneReg r s t) (user : Bool) (i : Nat) : t.slotAt user i = s.slotAt user i := by
  unfold State.slotAt; rw [h.nv]

theorem OneReg.slotRecord (h : OneReg r s t) (hr : SecApart r) (user : Bool) (locked : List Nat) (i : Nat) :
    t.slotRecord user locked i = s.slotRecord user locked i := by
  have hread : ∀ off n, t.flashRead off n = s.flashRead off n := fun off n => by unfold State.flashRead; rw [h.nv]
  unfold State.slotRecord
  rw [h.slotAt]
  simp only [hread, h.nvRecord hr]

theorem OneReg.slotPair (h : OneReg r s t) (user : Bool) : t.slotPair user = s.slotPair user := by
  unfold State.slotPair; rw [State.store_of_aon h.aon]

theorem OneReg.chooseSlot (h : OneReg r s t) (hr : SecApart r) (user : Bool) (locked : List Nat) :
    t.chooseSlot user locked = s.chooseSlot user locked := by
  unfold State.chooseSlot; simp only [h.slotPair, h.slotRecord hr]

theorem OneReg.updateSlot (h : OneReg Reg.NVC_UPDCTRL s t) (user : Bool) : t.updateSlot user = s.updateSlot user := by
  unfold State.updateSlot
  rw [h.slotPair, h.reg (by decide), h.bit (by decide), State.fld_of_reg (h.reg (by decide))]

theorem OneReg.nextGen (h : OneReg r s t) (hr : SecApart r) (user : Bool) : t.nextGen user = s.nextGen user := by
  unfold State.nextGen; simp only [h.slotPair, h.slotRecord hr, h.nv]

theorem secApart_updCtrl : SecApart Reg.NVC_UPDCTRL := by unfold SecApart; decide

end

/-! ### The end of an operation -/

/-- A failure shows its cause, and BUSY is over. -/
theorem State.failUpdate_facts (s : State) {cause : Nat} (hcause : cause < 256) :
    let t := s.failUpdate cause
    t.nv.update = none ∧ t.bit Reg.NVC_UPDSTAT 1 = true ∧ t.fld Reg.NVC_UPDSTAT 8 8 = cause ∧ t.bit Reg.NVC_UPDCTRL 30 = false ∧
      t.nv.flash = s.nv.flash ∧ t.logSeq = s.logSeq ∧ t.aon = s.aon := by
  unfold State.failUpdate
  extract_lets u
  refine ⟨?_, State.bit_raise _ _ _ _ (by decide) (by decide), ?_, ?_, ?_, ?_, ?_⟩
  · rw [State.raise_nv]; rfl
  · rw [State.fld_raise _ _ _ _ _ _ (by decide) (by decide), State.fld_setFld _ _ _ _ _ (by decide), Nat.mod_eq_of_lt (by simpa using hcause)]
  · rw [State.bit_raise_apart _ _ _ _ _ (by decide) (.inl (by decide)), State.bit_setFld_apart _ _ _ _ _ _ _ (.inl (by decide)),
      State.bit_setBit _ _ _ _ (by decide)]
  · rw [State.raise_nv]; rfl
  · rw [State.raise_logSeq]; rfl
  · rw [State.raise_aon]; rfl

/-- An operation that is done shows DONE. -/
theorem State.endUpdate_facts (s : State) : s.endUpdate.nv = { s.nv with update := none } ∧ s.endUpdate.bit Reg.NVC_UPDSTAT 0 = true ∧
    s.endUpdate.aon = s.aon := by
  unfold State.endUpdate
  extract_lets u
  refine ⟨?_, State.bit_raise _ _ _ _ (by decide) (by decide), ?_⟩
  · rw [State.raise_nv]; rfl
  · rw [State.raise_aon]; rfl

/-- A violation recorded before a failure leaves the operation's end as it is. -/
theorem State.violationFails (s : State) (sub : Nat) :
    let t := (s.logViolation 7 sub).failUpdate 3
    t.nv.update = none ∧ t.bit Reg.NVC_UPDSTAT 1 = true ∧ t.fld Reg.NVC_UPDSTAT 8 8 = 3 ∧ t.logSeq = (s.logSeq + 1) % 2 ^ 32 ∧
      t.store = s.store := by
  obtain ⟨hnone, hfail, hcause, -, -, hlog, haon⟩ := (s.logViolation 7 sub).failUpdate_facts (cause := 3) (by decide)
  refine ⟨hnone, hfail, hcause, ?_, State.store_of_aon ?_⟩
  · rw [hlog, State.logViolation_logSeq]
  · rw [haon, State.logViolation_aon]

/-! ### GO -/

/-- The word that GO writes: the operation's target in place. -/
def goWord (v : Word) (target : Nat) : Word := wordSetField v 8 2 target ||| 0x80000000

theorem exec_nvcGo_served {s : State} {i : Iface} (v : Word) (h : s.served i = true) :
    exec (.nvcUpdateUser i v [] .ok) s = .next (s.writeUpdCtrl (goWord v 0) true) ∧
      exec (.nvcUpdateFactory i v [] .ok) s = .next (s.writeUpdCtrl (goWord v 1) true) ∧
      exec (.nvcHostBoot i v [] .ok) s = .next (s.writeUpdCtrl (goWord v 2) true) := by
  have hgo : ∀ target, s.goUpdate i target v [] .ok = s.writeUpdCtrl (goWord v target) true := fun target => if_pos h
  refine ⟨?_, ?_, ?_⟩
  · rw [exec_nvcUpdateUser, execNvcUpdateUser, hgo]
  · rw [exec_nvcUpdateFactory, execNvcUpdateFactory, hgo]
  · rw [exec_nvcHostBoot, execNvcHostBoot, hgo]

/-- Setting GO leaves the fields below it. -/
theorem wordField_or_go_below (v : Word) {lo w : Nat} (h : lo + w ≤ 31) : wordField (v ||| 0x80000000) lo w = wordField v lo w := by
  have hgo : ∀ j, j < 31 → (0x80000000 : Word).getLsbD j = false := by decide
  apply Nat.eq_of_testBit_eq
  intro j
  rw [wordField_testBit, wordField_testBit, BitVec.getLsbD_or]
  by_cases hj : j < w
  · rw [hgo (lo + j) (by omega), Bool.or_false]
  · simp [hj]

theorem bitOf_goWord (v : Word) (target : Nat) : bitOf (goWord v target).toNat 31 = true := decide_eq_true (wordField_or_go _)

theorem wordField_goWord_target (v : Word) {target : Nat} (h : target < 4) : wordField (goWord v target) 8 2 = target := by
  rw [goWord, wordField_or_go_below _ (by decide), wordField_wordSetField _ _ _ _ (by decide), Nat.mod_eq_of_lt (by simpa using h)]

theorem wordField_goWord_loc (v : Word) (target : Nat) : wordField (goWord v target) 0 1 = wordField v 0 1 := by
  rw [goWord, wordField_or_go_below _ (by decide), wordField_wordSetField_apart _ _ _ _ _ _ (.inl (by decide))]

theorem findReg_updCtrl : findReg Reg.NVC_UPDCTRL = some (regsNvc[10], 0) := by decide +kernel

/-- A write of the control register changes it alone. -/
theorem State.regStore_updCtrl_oneReg (s : State) (w : Word) : OneReg Reg.NVC_UPDCTRL s (s.regStore Reg.NVC_UPDCTRL w) :=
  ⟨RegsAlone.regStore s w findReg_updCtrl (by decide), fun _ ha => s.reg_regStore_apart w ha⟩

/-- It leaves BUSY, and takes the target and the place of the source. -/
theorem State.fld_regStore_updCtrl (s : State) (w : Word) :
    (s.regStore Reg.NVC_UPDCTRL w).bit Reg.NVC_UPDCTRL 30 = s.bit Reg.NVC_UPDCTRL 30 ∧
      (s.regStore Reg.NVC_UPDCTRL w).fld Reg.NVC_UPDCTRL 8 2 = wordField w 8 2 ∧
      (s.regStore Reg.NVC_UPDCTRL w).fld Reg.NVC_UPDCTRL 0 1 = wordField w 0 1 := by
  refine ⟨?_, s.fld_regStore w findReg_updCtrl ⟨"TARGET", 8, 2, .rw, .any⟩ (by decide),
    s.fld_regStore w findReg_updCtrl ⟨"LOC", 0, 1, .rw, .any⟩ (by decide)⟩
  unfold State.bit
  rw [s.fld_regStore w findReg_updCtrl ⟨"BUSY", 30, 1, .ro, .any⟩ (by decide)]
  rfl

/-! ### Refusals (R529) -/

theorem State.writeUpdCtrl_busy {s : State} {w : Word} (hgo : bitOf w.toNat 31 = true) (hbusy : s.bit Reg.NVC_UPDCTRL 30 = true) (ok : Bool) :
    s.writeUpdCtrl w ok = s.setBit Reg.NVC_UPDSTAT 2 true := by
  unfold State.writeUpdCtrl
  rw [if_neg (by simp [hgo]), if_pos hbusy]

/-- The place that GO names for its source cannot be one: the length is no multiple of 64. -/
theorem State.writeUpdCtrl_refused {s : State} {w : Word} (hgo : bitOf w.toNat 31 = true) (hidle : s.bit Reg.NVC_UPDCTRL 30 = false)
    (hbad : (s.reg Reg.NVC_UPDLEN).toNat % 64 ≠ 0 ∨ (wordField w 8 2 = 2 ∧ s.bit Reg.NVC_BOOTSTAT 31 = false)) (ok : Bool) :
    s.writeUpdCtrl w ok = (s.regStore Reg.NVC_UPDCTRL w).setBit Reg.NVC_UPDSTAT 2 true := by
  have hone := s.regStore_updCtrl_oneReg w
  obtain ⟨-, htarget, -⟩ := s.fld_regStore_updCtrl w
  unfold State.writeUpdCtrl
  rw [if_neg (by simp [hgo]), if_neg (by simp [hidle])]
  dsimp only
  rw [htarget, hone.reg (a := Reg.NVC_UPDLEN) (by decide), hone.bit (a := Reg.NVC_BOOTSTAT) (by decide)]
  refine if_pos ?_
  rcases hbad with hlen | ⟨h2, hwait⟩
  · simp [hlen]
  · simp [h2, hwait]

/-- What a refusal shows, and what it leaves. -/
theorem State.refused_facts {s u : State} (h : OneReg Reg.NVC_UPDCTRL s u) (hbusy : u.bit Reg.NVC_UPDCTRL 30 = s.bit Reg.NVC_UPDCTRL 30) :
    let t := u.setBit Reg.NVC_UPDSTAT 2 true
    t.bit Reg.NVC_UPDSTAT 2 = true ∧ t.nv = s.nv ∧ t.bit Reg.NVC_UPDCTRL 30 = s.bit Reg.NVC_UPDCTRL 30 ∧ t.aon = s.aon := by
  refine ⟨State.bit_setBit _ _ _ _ (by decide), h.nv, ?_, h.aon⟩
  rw [State.bit_setBit_apart _ _ _ _ _ _ (.inl (by decide)), hbusy]

/-! ### GO that is taken up (R529, R530) -/

/-- GO is taken up. -/
def State.goTaken (s : State) (w : Word) : State := (s.regStore Reg.NVC_UPDCTRL w).setBit Reg.NVC_UPDCTRL 30 true

theorem State.goTaken_oneReg (s : State) (w : Word) : OneReg Reg.NVC_UPDCTRL s (s.goTaken w) := (s.regStore_updCtrl_oneReg w).setBit _ _

theorem State.goTaken_facts (s : State) (w : Word) : (s.goTaken w).bit Reg.NVC_UPDCTRL 30 = true ∧
    (s.goTaken w).fld Reg.NVC_UPDCTRL 8 2 = wordField w 8 2 ∧ (s.goTaken w).fld Reg.NVC_UPDCTRL 0 1 = wordField w 0 1 := by
  obtain ⟨-, htarget, hloc⟩ := s.fld_regStore_updCtrl w
  unfold State.goTaken
  refine ⟨State.bit_setBit _ _ _ _ (by decide), ?_, ?_⟩
  · rw [State.fld_setBit_apart _ _ _ _ _ _ _ (.inr (by decide)), htarget]
  · rw [State.fld_setBit_apart _ _ _ _ _ _ _ (.inr (by decide)), hloc]

theorem State.writeUpdCtrl_taken {s : State} {w : Word} (hgo : bitOf w.toNat 31 = true) (hidle : s.bit Reg.NVC_UPDCTRL 30 = false)
    (hup : s.coreUp 0 = true) (hloc : wordField w 0 1 = 1) (hlen : (s.reg Reg.NVC_UPDLEN).toNat % 64 = 0)
    (hplace : s.reg64 Reg.NVC_UPDSRC_LO + (s.reg Reg.NVC_UPDLEN).toNat ≤ 2 ^ 64)
    (htarget : wordField w 8 2 ≠ 3) (hwait : wordField w 8 2 = 2 → s.bit Reg.NVC_BOOTSTAT 31 = true) (ok : Bool) :
    s.writeUpdCtrl w ok = (s.goTaken w).runUpdate ok := by
  have hone := s.regStore_updCtrl_oneReg w
  obtain ⟨-, htargetIs, hlocIs⟩ := s.fld_regStore_updCtrl w
  have hhost : (s.regStore Reg.NVC_UPDCTRL w).bit Reg.NVC_UPDCTRL 0 = true := by
    unfold State.bit; rw [hlocIs, hloc]; rfl
  unfold State.writeUpdCtrl
  rw [if_neg (by simp [hgo]), if_neg (by simp [hidle])]
  dsimp only
  rw [htargetIs, hone.reg (a := Reg.NVC_UPDLEN) (by decide), hone.bit (a := Reg.NVC_BOOTSTAT) (by decide), hhost,
    hone.reg64 (a := Reg.NVC_UPDSRC_LO) (by decide) (by decide), if_neg (by simpa [htarget, hlen] using ⟨hwait, hplace⟩)]
  exact if_pos ((s.goTaken_oneReg w).coreUp.trans hup)

/-- The records that an operation finds in host memory. -/
def State.hostRecords (s : State) : List Byte := cellRead s.host (s.reg64 Reg.NVC_UPDSRC_LO) (s.reg Reg.NVC_UPDLEN).toNat

theorem OneReg.hostRecords {s t : State} (h : OneReg Reg.NVC_UPDCTRL s t) : t.hostRecords = s.hostRecords := by
  unfold State.hostRecords
  rw [h.host, h.reg64 (by decide) (by decide), h.reg (by decide)]

theorem State.runUpdate_host {s : State} (hhost : s.fld Reg.NVC_UPDCTRL 0 1 = 1) : s.runUpdate true =
    if s.fld Reg.NVC_UPDCTRL 8 2 = 2 then s.hostBoot s.hostRecords
    else match s.nvRecord (decide (s.fld Reg.NVC_UPDCTRL 8 2 = 0)) (if s.fld Reg.NVC_UPDCTRL 8 2 = 0 then s.nv.locked else []) s.hostRecords with
      | none => s.failUpdate 1
      | some r => s.startWrite (decide (s.fld Reg.NVC_UPDCTRL 8 2 = 0)) none (s.hostRecords.take r.len) := by
  have hbit : s.bit Reg.NVC_UPDCTRL 0 = true := decide_eq_true hhost
  unfold State.runUpdate
  simp only [hbit, if_true, Bool.not_true, Bool.false_eq_true, if_false]
  rfl

/-- A slot that is erased reads as unlisted cells. -/
theorem State.cellGet_flashErase (s : State) {base size a : Nat} (hlo : base ≤ a) (hhi : a < base + size) :
    cellGet (s.flashErase base size).nv.flash a = 0 := by
  have hfilter : (s.flashErase base size).nv.flash = s.nv.flash.filter fun c => !inRange c.1 base size := rfl
  rw [hfilter, cellGet_filter_key (fun k => !inRange k base size), if_neg (by simp [inRange, hlo, hhi])]

theorem State.flashErase_regs (s : State) (base size : Nat) : (s.flashErase base size).regs = s.regs := rfl

/-- The slot that an operation writes is journaled as busy, and erased. -/
def State.slotErased (s : State) (user : Bool) : State :=
  (s.putPair user { s.slotPair user with busy := some (s.updateSlot user) }).flashErase (s.slotAt user (s.updateSlot user)).1
    (s.slotAt user (s.updateSlot user)).2

/-- The operation in progress. -/
def State.writing (s : State) (j : UpdateJob) : State := { s with nv := { s.nv with update := some j } }

theorem State.writing_regs (s : State) (j : UpdateJob) : (s.writing j).regs = s.regs := rfl
theorem State.writing_update (s : State) (j : UpdateJob) : (s.writing j).nv.update = some j := rfl
theorem State.writing_flash (s : State) (j : UpdateJob) : (s.writing j).nv.flash = s.nv.flash := rfl

theorem State.reg_slotErased (s : State) (user : Bool) {a : Nat} (h : Reg.TICK_CTRL ≤ a) : (s.slotErased user).reg a = s.reg a := by
  unfold State.slotErased State.putPair
  rw [State.reg_of_regs (State.flashErase_regs _ _ _), State.reg_putStore _ _ h]

theorem State.startWrite_eq {s : State} {user : Bool} {bs : List Byte} (src : Option (Nat × Nat))
    (hsize : bs.length ≤ (s.slotAt user (s.updateSlot user)).2) (husable : s.flashUsable = true) :
    s.startWrite user src bs =
      (s.slotErased user).writing ⟨if user then 0 else 1, s.updateSlot user, s.nextGen user, withGen bs (s.nextGen user), src⟩ := by
  unfold State.startWrite
  dsimp only
  rw [if_neg (by omega), if_neg (by simp [husable])]
  rfl

/-- A write of a slot begins: the operation, BUSY, and the slot erased. -/
theorem State.startWrite_facts {s : State} {user : Bool} {bs : List Byte} (src : Option (Nat × Nat))
    (hsize : bs.length ≤ (s.slotAt user (s.updateSlot user)).2) (husable : s.flashUsable = true) (hbusy : s.bit Reg.NVC_UPDCTRL 30 = true) :
    let t := s.startWrite user src bs
    t.bit Reg.NVC_UPDCTRL 30 = true ∧
      t.nv.update.map (fun j => (j.target, j.slot, j.gen)) = some (if user then 0 else 1, s.updateSlot user, s.nextGen user) ∧
      ∀ a, (s.slotAt user (s.updateSlot user)).1 ≤ a → a < (s.slotAt user (s.updateSlot user)).1 + (s.slotAt user (s.updateSlot user)).2 →
        cellGet t.nv.flash a = 0 := by
  rw [State.startWrite_eq src hsize husable]
  refine ⟨?_, ?_, fun a hlo hhi => ?_⟩
  · rw [State.bit_of_reg (State.reg_of_regs (State.writing_regs _ _) _), State.bit_of_reg (s.reg_slotErased user (by decide)), hbusy]
  · rw [State.writing_update]
    rfl
  · rw [State.writing_flash]
    exact State.cellGet_flashErase _ hlo hhi

/-- A boot by a host with one valid factory record alone reaches READY, with DONE and the record's generation. -/
theorem State.hostBoot_facts {s : State} {bs : List Byte} {f : NvRecord} (hrecord : s.nvRecord false [] bs = some f) (hlen : f.len = bs.length) :
    let t := s.hostBoot bs
    t.bit Reg.GLOBAL_PWRSTAT 0 = true ∧ t.bit Reg.NVC_BOOTSTAT 31 = false ∧ t.bit Reg.NVC_UPDSTAT 0 = true ∧
      t.reg Reg.NVC_FGEN = BitVec.ofNat 32 f.gen ∧ t.nv.flash = s.nv.flash := by
  have heq : s.hostBoot bs = s.endUpdate.bootWith f 0 none 3 := by
    unfold State.hostBoot
    rw [hrecord]
    dsimp only
    rw [hlen, List.drop_length]
    exact if_pos rfl
  obtain ⟨hnv, hdone, -⟩ := s.endUpdate_facts
  obtain ⟨hready, hwait, hgen, hkept, hflash, -⟩ := s.endUpdate.bootWith_facts f 0 3
  rw [heq]
  refine ⟨hready, hwait, hkept.trans hdone, hgen, ?_⟩
  rw [hflash, hnv]

/-- An update whose records lie in host memory fails where they are invalid, else starts to write them. -/
theorem State.runUpdate_goTaken {s : State} {w : Word} (user : Bool) (htarget : wordField w 8 2 = if user then 0 else 1)
    (hloc : wordField w 0 1 = 1) :
    (s.goTaken w).runUpdate true =
      match s.nvRecord user (if user then s.nv.locked else []) s.hostRecords with
      | none => (s.goTaken w).failUpdate 1
      | some r => (s.goTaken w).startWrite user none (s.hostRecords.take r.len) := by
  have hone := s.goTaken_oneReg w
  obtain ⟨-, htargetIs, hlocIs⟩ := s.goTaken_facts w
  rw [State.runUpdate_host (hlocIs.trans hloc), htargetIs, htarget, hone.hostRecords, hone.nv, hone.nvRecord secApart_updCtrl]
  cases user <;> rfl

/-- GO with an invalid record fails with CAUSE 1. -/
theorem State.goTaken_fails {s : State} {w : Word} (user : Bool) (htarget : wordField w 8 2 = if user then 0 else 1) (hloc : wordField w 0 1 = 1)
    (hnone : s.nvRecord user (if user then s.nv.locked else []) s.hostRecords = none) :
    let t := (s.goTaken w).runUpdate true
    t.bit Reg.NVC_UPDSTAT 1 = true ∧ t.fld Reg.NVC_UPDSTAT 8 8 = 1 ∧ t.bit Reg.NVC_UPDCTRL 30 = false ∧ t.nv.flash = s.nv.flash := by
  obtain ⟨-, hfail, hcause, hover, hflash, -⟩ := (s.goTaken w).failUpdate_facts (cause := 1) (by decide)
  rw [State.runUpdate_goTaken user htarget hloc, hnone]
  exact ⟨hfail, hcause, hover, by rw [hflash, (s.goTaken_oneReg w).nv]⟩

/-- GO with a valid record that fits starts a write of the slot that is not in use. -/
theorem State.goTaken_starts {s : State} {w : Word} {r : NvRecord} (user : Bool) (htarget : wordField w 8 2 = if user then 0 else 1)
    (hloc : wordField w 0 1 = 1) (hr : s.nvRecord user (if user then s.nv.locked else []) s.hostRecords = some r) (husable : s.flashUsable = true)
    (hsize : r.len ≤ (s.slotAt user (s.updateSlot user)).2) :
    let t := (s.goTaken w).runUpdate true
    t.bit Reg.NVC_UPDCTRL 30 = true ∧
      t.nv.update.map (fun j => (j.target, j.slot, j.gen)) = some (if user then 0 else 1, s.updateSlot user, s.nextGen user) ∧
      ∀ a, (s.slotAt user (s.updateSlot user)).1 ≤ a → a < (s.slotAt user (s.updateSlot user)).1 + (s.slotAt user (s.updateSlot user)).2 →
        cellGet t.nv.flash a = 0 := by
  have hone := s.goTaken_oneReg w
  obtain ⟨hbusy, -⟩ := s.goTaken_facts w
  rw [State.runUpdate_goTaken user htarget hloc, hr, ← hone.slotAt, ← hone.updateSlot, ← hone.nextGen secApart_updCtrl]
  refine State.startWrite_facts none ?_ ?_ hbusy
  · rw [hone.slotAt, hone.updateSlot]
    exact (List.length_take_le _ _).trans hsize
  · unfold State.flashUsable
    rw [hone.nv]
    exact husable

/-- GO of a host boot with one valid factory record alone reaches READY. -/
theorem State.goTaken_boots {s : State} {w : Word} {f : NvRecord} (htarget : wordField w 8 2 = 2) (hloc : wordField w 0 1 = 1)
    (hrecord : s.nvRecord false [] s.hostRecords = some f) (hlen : f.len = s.hostRecords.length) :
    let t := (s.goTaken w).runUpdate true
    t.bit Reg.GLOBAL_PWRSTAT 0 = true ∧ t.bit Reg.NVC_BOOTSTAT 31 = false ∧ t.bit Reg.NVC_UPDSTAT 0 = true ∧
      t.reg Reg.NVC_FGEN = BitVec.ofNat 32 f.gen ∧ t.nv.flash = s.nv.flash := by
  have hone := s.goTaken_oneReg w
  obtain ⟨-, htargetIs, hlocIs⟩ := s.goTaken_facts w
  rw [State.runUpdate_host (hlocIs.trans hloc), htargetIs, htarget, if_pos rfl, hone.hostRecords, ← hone.nv]
  exact State.hostBoot_facts ((hone.nvRecord secApart_updCtrl _ _ _).trans hrecord) hlen

/-! ### The end of a write (R530) -/

theorem exec_nvcUpdateDone_works {s : State} {j : UpdateJob} (hup : s.coreUp 0 = true) (hjob : s.nv.update = some j) :
    exec (.nvcUpdateDone false) s = .next ((s.logViolation 7 4).failUpdate 3) ∧
      ∀ u : State, u = s.flashWrite (s.slotAt (decide (j.target = 0)) j.slot).1 j.record →
        (u.slotRecord (decide (j.target = 0)) (if j.target = 0 then s.nv.locked else []) j.slot).isSome = true →
        exec (.nvcUpdateDone true) s = .next ((u.putPair (decide (j.target = 0)) ⟨some j.slot, j.gen, none⟩).endUpdate) := by
  constructor
  · rw [exec_nvcUpdateDone, execNvcUpdateDone, hup, hjob]
    rfl
  · rintro u rfl hvalid
    obtain ⟨r, hr⟩ := Option.isSome_iff_exists.1 hvalid
    have hr' : (s.flashWrite (s.slotAt (decide (j.target = 0)) j.slot).1 j.record).slotRecord (decide (j.target = 0))
        (if j.target = 0 then (s.flashWrite (s.slotAt (decide (j.target = 0)) j.slot).1 j.record).nv.locked else []) j.slot = some r := hr
    rw [exec_nvcUpdateDone, execNvcUpdateDone, hup, hjob]
    simp only [Bool.not_true, Bool.false_eq_true, if_false, hr']

/-- The commit of a slot. -/
theorem State.commit_facts (s : State) (user : Bool) (p : SlotPair) : ((s.putPair user p).endUpdate).nv = { s.nv with update := none } ∧
    ((s.putPair user p).endUpdate).bit Reg.NVC_UPDSTAT 0 = true ∧ ((s.putPair user p).endUpdate).slotPair user = p := by
  obtain ⟨hnv, hdone, haon⟩ := (s.putPair user p).endUpdate_facts
  refine ⟨?_, hdone, ?_⟩
  · rw [hnv, State.putPair, (State.putStore_eff Sub.rfl .refl).nv rfl]
  · rw [State.slotPair, State.store_of_aon haon, State.putPair, State.store_putStore]
    cases user <;> rfl

/-- Settles O56: GO is one of three updates of the control register, then the records in host memory decide; a write ends in a commit or in a
failure with its cause. -/
theorem flashOperationsRunAndCommit : Obligations.FlashOperationsRunAndCommit := by
  intro s
  refine ⟨fun i v c hserved hc hbad => ?refused, fun i v hserved hidle hup hloc hlen hplace => ?taken,
    fun j hjob => ⟨?timeout, fun hup => ⟨?atFault, ?done⟩⟩, fun hnone => ?nothing⟩
  case refused =>
    obtain ⟨target, hexec, htarget, hboot⟩ : ∃ target, exec c s = .next (s.writeUpdCtrl (goWord v target) true) ∧ target < 4 ∧
        (c = .nvcHostBoot i v [] .ok → target = 2) := by
      obtain ⟨huser, hfactory, hhost⟩ := exec_nvcGo_served v hserved
      rcases hc with rfl | rfl | rfl
      · exact ⟨0, huser, by decide, fun h => by cases h⟩
      · exact ⟨1, hfactory, by decide, fun h => by cases h⟩
      · exact ⟨2, hhost, by decide, fun _ => rfl⟩
    refine ⟨_, hexec, ?_⟩
    by_cases hbusy : s.bit Reg.NVC_UPDCTRL 30 = true
    · rw [State.writeUpdCtrl_busy (bitOf_goWord v target) hbusy]
      exact State.refused_facts OneReg.refl rfl
    · have hidle := Bool.eq_false_iff.2 hbusy
      obtain ⟨hkept, -⟩ := s.fld_regStore_updCtrl (goWord v target)
      rw [State.writeUpdCtrl_refused (bitOf_goWord v target) hidle]
      · exact State.refused_facts (s.regStore_updCtrl_oneReg _) hkept
      · rw [wordField_goWord_target v htarget]
        exact (hbad.resolve_left hbusy).imp_right fun h => ⟨hboot h.1, h.2⟩
  case taken =>
    obtain ⟨huser, hfactory, hhost⟩ := exec_nvcGo_served v hserved
    have htaken : ∀ target, target < 3 → (target = 2 → s.bit Reg.NVC_BOOTSTAT 31 = true) →
        s.writeUpdCtrl (goWord v target) true = (s.goTaken (goWord v target)).runUpdate true := fun target h3 hwait =>
      State.writeUpdCtrl_taken (bitOf_goWord v target) hidle hup ((wordField_goWord_loc v target).trans hloc) hlen hplace
        (by rw [wordField_goWord_target v (by omega)]; omega) (by rwa [wordField_goWord_target v (by omega)]) true
    refine ⟨fun user c hc => ?update, fun f hwait hrecord hlenRecord => ?boot⟩
    case update =>
      have htarget : wordField (goWord v (if user then 0 else 1)) 8 2 = if user then 0 else 1 := wordField_goWord_target v (by split <;> decide)
      have hexec : exec c s = .next ((s.goTaken (goWord v (if user then 0 else 1))).runUpdate true) := by
        subst hc
        cases user with
        | true => exact huser.trans (congrArg _ (htaken 0 (by decide) fun h => absurd h (by decide)))
        | false => exact hfactory.trans (congrArg _ (htaken 1 (by decide) fun h => absurd h (by decide)))
      exact ⟨fun hnone => ⟨_, hexec, State.goTaken_fails user htarget ((wordField_goWord_loc v _).trans hloc) hnone⟩,
        fun r hr husable hsize => ⟨_, hexec, State.goTaken_starts user htarget ((wordField_goWord_loc v _).trans hloc) hr husable hsize⟩⟩
    case boot =>
      exact ⟨_, hhost.trans (congrArg _ (htaken 2 (by decide) fun _ => hwait)),
        State.goTaken_boots (wordField_goWord_target v (by decide)) ((wordField_goWord_loc v _).trans hloc) hrecord hlenRecord⟩
  case timeout =>
    obtain ⟨hnone, hfail, hcause, hlog, -⟩ := s.violationFails 3
    refine ⟨_, ?_, hnone, hfail, hcause, hlog⟩
    rw [exec_flashBusyTimeout, execFlashBusyTimeout, hjob]
    rfl
  case atFault =>
    obtain ⟨hexec, -⟩ := exec_nvcUpdateDone_works hup hjob
    exact ⟨_, hexec, s.violationFails 4⟩
  case done =>
    intro u hu hvalid
    obtain ⟨-, hexec⟩ := exec_nvcUpdateDone_works hup hjob
    obtain ⟨hnv, hdone, hpair⟩ := u.commit_facts (decide (j.target = 0)) ⟨some j.slot, j.gen, none⟩
    exact ⟨_, hexec u hu hvalid, by rw [hnv], hdone, by rw [hnv], hpair⟩
  case nothing =>
    rw [exec_flashBusyTimeout, execFlashBusyTimeout, hnone]
    rfl

end Sys2Proof.Machine
end

section
/-!
PROOFS. POWERDOWN: engines and ticks stop, moves end, LEAVE goes out, the journal takes its code (R499, R503).
-/
namespace Sys2Proof.Machine

section
variable {s t : State}

/-! ### LEAVE -/

/-- From `s` to `t` the chip and the links are the same, and what had left has left. -/
structure LinksKept (s t : State) : Prop where
  chip : t.chip = s.chip
  link : ∀ k, k < 3 → t.linkUp k = s.linkUp k
  sent : ∀ x ∈ s.sent, x ∈ t.sent

theorem LinksKept.refl : LinksKept s s := ⟨rfl, fun _ _ => rfl, fun _ h => h⟩

theorem LinksKept.trans {u : State} (h : LinksKept s t) (k : LinksKept t u) : LinksKept s u :=
  ⟨k.chip.trans h.chip, fun j hj => (k.link j hj).trans (h.link j hj), fun x hx => k.sent x (h.sent x hx)⟩

theorem State.portTo_chipOn (s : State) {k : Nat} (hk : k < 3) : s.portTo (s.chipOn k) = k := by
  have hchip := s.chip_lt
  unfold State.portTo State.chipOn
  omega

/-- A message leaves the chip and the states of the links alone. -/
theorem LinksKept.peerMsg (s : State) {k : Nat} (hk : k < 3) (cls opc : Nat) (payload : List Nat) (bytes : Nat) :
    LinksKept s (s.peerMsg (s.chipOn k) cls opc payload bytes) ∧
      .gydan k opc (s.chipOn k) payload ∈ (s.peerMsg (s.chipOn k) cls opc payload bytes).sent := by
  have hsent := s.peerMsg_sent (s.chipOn k) cls opc payload bytes
  rw [s.portTo_chipOn hk] at hsent
  have hreg : ∀ a, a ≠ gdnReg Reg.GDN_TXFLITS_LO k → a ≠ gdnReg Reg.GDN_TXFLITS_HI k →
      (s.peerMsg (s.chipOn k) cls opc payload bytes).reg a = s.reg a := fun a hlo hhi => by
    unfold State.peerMsg
    rw [s.portTo_chipOn hk]
    exact State.reg_pumpPort_apart _ hlo hhi
  refine ⟨⟨State.chip_of_reg (hreg _ (gdnReg_ne_stook (by decide) hk).symm (gdnReg_ne_stook (by decide) hk).symm), fun j hj => ?_, ?_⟩, ?_⟩
  · refine State.linkUp_of_reg (hreg _ ?_ ?_)
    all_goals unfold gdnReg; simp only [Reg.GDN_STAT, Reg.GDN_TXFLITS_LO, Reg.GDN_TXFLITS_HI]; omega
  · exact fun x hx => hsent ▸ List.mem_cons_of_mem _ hx
  · exact hsent ▸ List.mem_cons_self

/-- One port's LEAVE. -/
def State.leavePort (s : State) (k : Nat) : State := if s.linkUp k then s.peerMsg (s.chipOn k) 4 0x40 [] 1 else s

theorem State.leavePort_facts (s : State) {k : Nat} (hk : k < 3) :
    LinksKept s (s.leavePort k) ∧ (s.linkUp k = true → .gydan k 0x40 (s.chipOn k) [] ∈ (s.leavePort k).sent) := by
  unfold State.leavePort
  split
  · obtain ⟨hkept, hsent⟩ := LinksKept.peerMsg s hk 4 0x40 [] 1
    exact ⟨hkept, fun _ => hsent⟩
  · next hdown => exact ⟨LinksKept.refl, fun hup => absurd hup hdown⟩

theorem State.leavePorts_facts (l : List Nat) (hl : ∀ k ∈ l, k < 3) (s : State) :
    LinksKept s (l.foldl State.leavePort s) ∧
      ∀ k ∈ l, s.linkUp k = true → .gydan k 0x40 (s.chipOn k) [] ∈ (l.foldl State.leavePort s).sent := by
  induction l generalizing s with
  | nil => exact ⟨LinksKept.refl, fun k hk => absurd hk List.not_mem_nil⟩
  | cons k l ih =>
    obtain ⟨hfirst, hsent⟩ := s.leavePort_facts (hl k List.mem_cons_self)
    obtain ⟨hrest, hothers⟩ := ih (fun j hj => hl j (List.mem_cons_of_mem _ hj)) (s.leavePort k)
    refine ⟨hfirst.trans hrest, fun j hj hup => ?_⟩
    obtain rfl | hj' := List.mem_cons.1 hj
    · exact hrest.sent _ (hsent hup)
    · have hsame := hothers j hj' ((hfirst.link j (hl j hj)).trans hup)
      rwa [State.chipOn_of_chip hfirst.chip] at hsame

/-- LEAVE goes out on every ACTIVE port. -/
theorem State.sendLeave_sent (s : State) {k : Nat} (hk : k < 3) (hup : s.linkUp k = true) : .gydan k 0x40 (s.chipOn k) [] ∈ s.sendLeave.sent :=
  (State.leavePorts_facts (List.range 3) (fun _ h => List.mem_range.1 h) s).2 k (List.mem_range.2 hk) hup

/-! ### Ticks, engines, moves -/

/-- One engine stops. -/
def State.stopEngine (s : State) (e : Nat) : State :=
  if (s.eng e).running then (s.updEng e fun g => { g with running := false, waiting := none }).setBusy e false else s

theorem State.eng_stopEngine (s : State) (e j : Nat) :
    ((s.stopEngine e).eng j).running = if j = e then false else (s.eng j).running := by
  have hset : ∀ {l : List EngState}, l = s.engs.set e { s.eng e with running := false, waiting := none } →
      ((l[j]?).getD idleEng).running = if j = e then false else (s.eng j).running := by
    rintro l rfl
    rw [List.getElem?_set]
    by_cases hj : j = e
    · subst hj
      by_cases hlen : j < s.engs.length
      · simp [hlen]
      · simp [hlen, idleEng]
    · rw [if_neg (Ne.symm hj), if_neg hj, State.eng]
  unfold State.stopEngine
  split
  · exact hset (by rw [State.setBusy_engs, State.updEng_engs])
  · next hidle =>
    split
    · next hj => rw [hj]; simpa using hidle
    · rfl

theorem State.stopEngines_running (l : List Nat) (s : State) (j : Nat) :
    ((l.foldl State.stopEngine s).eng j).running = if j ∈ l then false else (s.eng j).running := by
  induction l generalizing s with
  | nil => simp
  | cons e l ih =>
    rw [List.foldl_cons, ih, State.eng_stopEngine]
    by_cases hj : j ∈ l <;> by_cases he : j = e <;> simp [hj, he]

/-- The registers and the generator show that ticks have stopped. -/
def State.ticksStopped (s : State) : State :=
  (((s.setBit Reg.TICK_STAT 0 false).setBit Reg.TICK_STAT 1 false).setBit Reg.CART_STAT 16 false).updTick fun t => { t with phase := .stopped }

theorem State.stopWork_eq (s : State) : s.stopWork = (List.range 33).foldl State.stopEngine s.ticksStopped := rfl

theorem State.stopWork_running (s : State) {e : Nat} (he : e < 33) : (s.stopWork.eng e).running = false := by
  rw [State.stopWork_eq, State.stopEngines_running, if_pos (List.mem_range.2 he)]

theorem State.stopWork_tick (s : State) : s.stopWork.tick.phase = .stopped := by
  have hengines : Eff 0x2008 s.ticksStopped s.stopWork := by
    refine Eff.foldl _ (fun _ _ h => ?_) .refl
    exact Eff.ite (State.setBusy_eff ⟨rfl⟩ (State.updEng_eff ⟨rfl⟩ h)) h
  rw [hengines.tick rfl]
  rfl

theorem State.stopAllMoves_moves (s : State) : ∀ m ∈ s.stopAllMoves.moves, m.2.state = .committing := by
  intro m hm
  have hfilter := (List.mem_filter.1 hm).2
  simpa using hfilter

/-! ### POWERDOWN -/

theorem State.raise_keepsSent (s : State) (src : EvtSource) (stat b : Nat) {x : Sent} (hx : x ∈ s.sent) : x ∈ (s.raise src stat b).sent := by
  have hvector : ∀ (u : State) (v : Nat), x ∈ u.sent → x ∈ (u.sendVector v).sent := by
    intro u v hu
    unfold State.sendVector
    extract_lets shown
    split
    · split
      · exact hu
      · exact List.mem_cons_of_mem _ hu
    · exact hu
  unfold State.raise
  split
  · exact hx
  · extract_lets set place on
    split
    · exact hvector _ _ hx
    · exact hx

theorem State.interruptUpdate_keepsSent (s : State) {x : Sent} (hx : x ∈ s.sent) : x ∈ s.interruptUpdate.sent := by
  unfold State.interruptUpdate
  split
  · exact hx
  · exact State.raise_keepsSent _ _ _ _ hx

/-- POWERDOWN changes, of the always-on domain, its state and the store alone. -/
theorem State.powerDown_aon (s : State) (code arg1 arg2 : Nat) : (s.powerDown code arg1 arg2).aon =
    { s.aon with copies := (s.journal code arg1 arg2 0).aon.copies, phase := .powerdown, phaseAt := s.now } := by
  obtain ⟨u, hu, heq⟩ := s.powerDown_eq code arg1 arg2
  have haon : u.aon = (s.journal code arg1 arg2 0).aon := by
    rw [hu, (State.interruptUpdate_eff Sub.rfl .refl).aon rfl, (State.beginRamp_eff Sub.rfl .refl).aon rfl,
      (State.stopAllMoves_eff Sub.rfl .refl).aon rfl, (State.stopWork_eff Sub.rfl .refl).aon rfl, (State.sendLeave_eff Sub.rfl .refl).aon rfl]
  have hnow : u.now = s.now := by
    rw [hu, (State.interruptUpdate_eff Sub.rfl .refl).now rfl, (State.beginRamp_eff Sub.rfl .refl).now rfl,
      (State.stopAllMoves_eff Sub.rfl .refl).now rfl, (State.stopWork_eff Sub.rfl .refl).now rfl, (State.sendLeave_eff Sub.rfl .refl).now rfl,
      (State.journal_eff Sub.rfl .refl).now rfl]
  rw [heq, State.updAon_aon, haon, hnow, State.journal_aon]

/-- What has stopped and what has left when POWERDOWN begins. -/
theorem State.powerDown_stopped (s : State) (code arg1 arg2 : Nat) :
    let t := s.powerDown code arg1 arg2
    t.tick.phase = .stopped ∧ (∀ e, e < 33 → (t.eng e).running = false) ∧ (∀ m ∈ t.moves, m.2.state = .committing) ∧
      ∀ k, k < 3 → s.linkUp k = true → .gydan k 0x40 (s.chipOn k) [] ∈ t.sent := by
  obtain ⟨u, hu, heq⟩ := s.powerDown_eq code arg1 arg2
  have hafter : Eff 0x10480000000200000008 (s.journal code arg1 arg2 0).sendLeave.stopWork u := by
    rw [hu]
    exact State.interruptUpdate_eff ⟨rfl⟩ (State.beginRamp_eff ⟨rfl⟩ (State.stopAllMoves_eff ⟨rfl⟩ .refl))
  have hmoves : u.moves = (s.journal code arg1 arg2 0).sendLeave.stopWork.stopAllMoves.moves := by
    rw [hu]
    exact (State.interruptUpdate_eff (W := 0x10480000000000000008) ⟨rfl⟩ (State.beginRamp_eff ⟨rfl⟩ .refl)).moves rfl
  rw [heq]
  refine ⟨?_, fun e he => ?_, ?_, fun k hk hup => ?_⟩
  · rw [State.updAon_tick, hafter.tick rfl, State.stopWork_tick]
  · have hengs : (u.updAon fun a => { a with phase := .powerdown, phaseAt := u.now }).eng e =
        (s.journal code arg1 arg2 0).sendLeave.stopWork.eng e := by
      unfold State.eng
      rw [State.updAon_engs, hafter.engs rfl]
    rw [hengs, State.stopWork_running _ he]
  · rw [State.updAon_moves, hmoves]
    exact State.stopAllMoves_moves _
  · have hreg : ∀ {a}, Reg.TICK_CTRL ≤ a → (s.journal code arg1 arg2 0).reg a = s.reg a := fun ha => s.reg_journal _ _ _ _ ha
    have hgdn : Reg.TICK_CTRL ≤ gdnReg Reg.GDN_STAT k := Nat.le_trans (by decide) (Nat.le_add_right _ _)
    have hsent : .gydan k 0x40 (s.chipOn k) [] ∈ (s.journal code arg1 arg2 0).sendLeave.sent := by
      rw [← State.chipOn_of_chip (State.chip_of_reg (hreg (by decide))) k]
      exact State.sendLeave_sent _ hk ((State.linkUp_of_reg (hreg hgdn)).trans hup)
    rw [State.updAon_sent, hu]
    refine State.interruptUpdate_keepsSent _ ?_
    rwa [(State.beginRamp_eff Sub.rfl .refl).sent rfl, (State.stopAllMoves_eff Sub.rfl .refl).sent rfl, (State.stopWork_eff Sub.rfl .refl).sent rfl]

/-- POWERDOWN is journaled. -/
theorem State.powerDown_newest (s : State) (code arg1 arg2 : Nat) (hrun : s.aon.running = true) :
    (s.powerDown code arg1 arg2).newest.map (·.code) = some code := by
  have hstore : (s.powerDown code arg1 arg2).store = (s.journal code arg1 arg2 0).store := State.store_of_copies (by rw [State.powerDown_aon])
  have hnewest : (s.powerDown code arg1 arg2).newest = (s.journal code arg1 arg2 0).newest := by unfold State.newest; rw [hstore]
  rw [hnewest, s.newest_journal _ _ _ _ hrun]
  rfl

end

end Sys2Proof.Machine
end

section
/-!
PROOFS. The power states: on and off requests, power-up, the release step, READY, power-down and supply loss (R495 to R503, Table 17-9).
-/
namespace Sys2Proof.Machine

/-! ### The request latch (R495) -/

/-- The level of the request is latched. -/
def State.latched (s : State) (level : Bool) : State :=
  (s.setBit Reg.GLOBAL_PWRSTAT 1 level).updAon fun a => { a with latch := level, tripHold := if level then a.tripHold else false }

theorem State.bit_latched (s : State) (level : Bool) : (s.latched level).bit Reg.GLOBAL_PWRSTAT 1 = level := by
  rw [State.latched, State.bit_of_reg (State.reg_of_regs (State.updAon_regs _ _) _), State.bit_setBit _ _ _ _ (by decide)]

theorem exec_onReqChange_running {s : State} (level : Bool) (hrun : s.aon.running = true) :
    exec (.onReqChange level) s = .next (if level then s.latched level else match s.aon.phase with
      | .on => (s.latched level).powerDown 0x03 0 0
      | .powerupA => (s.latched level).enterOff
      | .off | .powerupB | .powerdown => s.latched level) := by
  rw [exec_onReqChange, execOnReqChange, if_neg (by simp [hrun])]
  rfl

/-! ### What a reset of the main domain keeps -/

theorem cellGet_foldl_keep_apart (s : State) {a : Nat} (l : List (Nat × Word)) (hl : ∀ x ∈ l, x.1 ≠ a) (c : Cells 32) :
    cellGet (l.foldl (fun (c : Cells 32) x => cellSet c x.1 ((s.reg x.1 &&& x.2) ||| (cellGet c x.1 &&& ~~~x.2))) c) a = cellGet c a := by
  refine List.foldlRecOn (motive := fun d : Cells 32 => cellGet d a = cellGet c a) l _ rfl fun d hd x hx => ?_
  rw [cellGet_cellSet, if_neg (hl x hx).symm, hd]

/-- The power status stands in the list of what a reset keeps once. -/
theorem keptRegs_pwrstat : keptRegs = keptRegs.take 14 ++ (Reg.GLOBAL_PWRSTAT, 0xFFFFFFFE) :: keptRegs.drop 15 ∧
    ∀ x ∈ keptRegs.drop 15, x.1 ≠ Reg.GLOBAL_PWRSTAT := by decide +kernel

/-- The request latch shows what it showed. -/
theorem State.bit_mainReset_latch (s : State) : s.mainReset.bit Reg.GLOBAL_PWRSTAT 1 = s.bit Reg.GLOBAL_PWRSTAT 1 := by
  obtain ⟨hlist, hrest⟩ := keptRegs_pwrstat
  have hreg : s.mainReset.reg Reg.GLOBAL_PWRSTAT = cellGet s.resetRegs Reg.GLOBAL_PWRSTAT := by
    unfold State.mainReset
    extract_lets main nv t
    have hregs : t.regs = s.resetRegs := by with_reducible rfl
    rw [State.reg_setFld_apart _ _ _ _ (by decide), State.reg_setFld_apart _ _ _ _ (by decide), State.reg, hregs]
  rw [State.bit_eq_getLsbD, State.bit_eq_getLsbD, hreg, State.resetRegs, hlist, List.foldl_append, List.foldl_cons,
    cellGet_foldl_keep_apart s _ hrest, cellGet_cellSet, if_pos rfl]
  simp

theorem State.enterOff_aon (s : State) : s.enterOff.aon =
    { s.aon with phase := .off, phaseAt := s.now, offAt := s.now, held := false, tripDue := none } := rfl

theorem State.enterOff_regs (s : State) : s.enterOff.regs = s.mainReset.regs := rfl
theorem State.enterOff_now (s : State) : s.enterOff.now = s.now := rfl
theorem State.enterOff_gone (s : State) : s.enterOff.t0 = [] ∧ s.enterOff.t1 = [] ∧ s.enterOff.streams = [] := ⟨rfl, rfl, rfl⟩

theorem State.latched_aon (s : State) (level : Bool) : (s.latched level).aon =
    { s.aon with latch := level, tripHold := if level then s.aon.tripHold else false } := rfl

theorem State.latched_now (s : State) (level : Bool) : (s.latched level).now = s.now := rfl

theorem State.reg_latched (s : State) (level : Bool) {a : Nat} (h : a ≠ Reg.GLOBAL_PWRSTAT) : (s.latched level).reg a = s.reg a := by
  rw [State.latched, State.reg_updAon, State.reg_setBit_apart _ _ _ h]

/-- From `s`, POWERDOWN has begun in `t`: ticks, engines and moves have stopped, LEAVE and the journal's code 0x03 are out. -/
def DownFrom (s t : State) : Prop :=
  t.aon.phase = .powerdown ∧ t.aon.phaseAt = s.now ∧ t.tick.phase = .stopped ∧ (∀ e, e < 33 → (t.eng e).running = false) ∧
    (∀ m ∈ t.moves, m.2.state = .committing) ∧ (∀ k, k < 3 → s.linkUp k = true → .gydan k 0x40 (s.chipOn k) [] ∈ t.sent) ∧
    t.newest.map (·.code) = some 3

/-- What the on request's end leads from `s` to: POWERDOWN from ON, OFF from POWERUP-A, else the latch alone. -/
def RequestEnded (s t : State) : Prop :=
  t.bit Reg.GLOBAL_PWRSTAT 1 = false ∧ t.aon.latch = false ∧ t.aon.tripHold = false ∧ (s.aon.phase = .on → DownFrom s t) ∧
    (s.aon.phase = .powerupA → t.aon.phase = .off ∧ t.aon.offAt = s.now) ∧
    (s.aon.phase ≠ .on → s.aon.phase ≠ .powerupA → t.aon.phase = s.aon.phase ∧ t.tick = s.tick)

/-- The end of the request in ON begins POWERDOWN. -/
theorem State.latched_powerDown (s : State) (hrun : s.aon.running = true) :
    let t := (s.latched false).powerDown 0x03 0 0
    t.bit Reg.GLOBAL_PWRSTAT 1 = false ∧ t.aon.latch = false ∧ t.aon.tripHold = false ∧ DownFrom s t := by
  have haon := (s.latched false).powerDown_aon 0x03 0 0
  rw [State.latched_aon, State.latched_now] at haon
  obtain ⟨hticks, hengines, hmoves, hleave⟩ := (s.latched false).powerDown_stopped 0x03 0 0
  have hkept : BootKept (s.latched false) ((s.latched false).powerDown 0x03 0 0) := BootKept.refl.powerDown _ _ _
  refine ⟨?_, ?_, ?_, ?_, ?_, hticks, hengines, hmoves, fun k hk hup => ?_, State.powerDown_newest _ _ _ _ hrun⟩
  · rw [hkept.bit (by decide), s.bit_latched]
  · rw [haon]
  · rw [haon]
    rfl
  · rw [haon]
  · rw [haon]
  · have hchip : (s.latched false).chipOn k = s.chipOn k := State.chipOn_of_chip (State.chip_of_reg (s.reg_latched false (by decide))) k
    rw [← hchip]
    refine hleave k hk ((State.linkUp_of_reg (s.reg_latched false ?_)).trans hup)
    unfold gdnReg
    simp only [Reg.GDN_STAT, Reg.GLOBAL_PWRSTAT]
    omega

theorem State.latched_ended (s : State) (hrun : s.aon.running = true) :
    RequestEnded s (match s.aon.phase with
      | .on => (s.latched false).powerDown 0x03 0 0
      | .powerupA => (s.latched false).enterOff
      | .off | .powerupB | .powerdown => s.latched false) := by
  have hbit := s.bit_latched false
  cases hphase : s.aon.phase
  case on =>
    obtain ⟨hshown, hlatch, hhold, hdown⟩ := s.latched_powerDown hrun
    exact ⟨hshown, hlatch, hhold, fun _ => hdown, fun h => by simp [hphase] at h, fun h => absurd hphase h⟩
  case powerupA =>
    refine ⟨?_, rfl, rfl, fun h => by simp [hphase] at h, fun _ => ⟨rfl, rfl⟩, fun _ h => absurd hphase h⟩
    rw [State.bit_of_reg (State.reg_of_regs (State.enterOff_regs _) _), State.bit_mainReset_latch, hbit]
  all_goals exact ⟨hbit, rfl, rfl, fun h => by simp [hphase] at h, fun h => by simp [hphase] at h, fun _ _ => ⟨rfl, rfl⟩⟩

/-! ### The release step (R498, R509) -/

/-- From `s` to `t`, of the always-on domain only the copies of the store change. -/
def CopiesAlone (s t : State) : Prop := t.aon = { s.aon with copies := t.aon.copies }

theorem CopiesAlone.journal {s t : State} (h : CopiesAlone s t) (code arg1 arg2 detail : Nat) : CopiesAlone s (t.journal code arg1 arg2 detail) := by
  unfold CopiesAlone at h ⊢
  rw [State.journal_aon, h]

theorem CopiesAlone.putStore {s t : State} (h : CopiesAlone s t) (d : StoreData) : CopiesAlone s (t.putStore d) := by
  unfold CopiesAlone at h ⊢
  rw [State.putStore_aon, h]

theorem CopiesAlone.of_aon {s t u : State} (h : CopiesAlone s t) (haon : u.aon = t.aon) : CopiesAlone s u := by
  unfold CopiesAlone at h ⊢
  rw [haon, h]

theorem CopiesAlone.refl {s : State} : CopiesAlone s s := rfl

theorem CopiesAlone.raiseFloor (s : State) : CopiesAlone s s.raiseFloor := by
  unfold State.raiseFloor
  refine CopiesAlone.journal ?_ _ _ _ _
  exact CopiesAlone.refl.of_aon rfl

/-- The advance of the counter changes the store alone. -/
theorem CopiesAlone.advanceCounter (s : State) : CopiesAlone s s.advanceCounter := by
  unfold State.advanceCounter
  extract_lets lost f need s1 mono s2
  split
  · exact CopiesAlone.refl.of_aon (State.setFld_aon _ _ _ _ _)
  · have hraised : CopiesAlone s s1 := by
      unfold s1
      split
      · exact CopiesAlone.raiseFloor s
      · exact CopiesAlone.refl
    exact (hraised.putStore _).of_aon (State.setReg_aon _ _ _)

/-- The main domain reset, in POWERUP-B. -/
def State.risen (s : State) (pins : BootPins) : State := s.mainReset.updAon fun a =>
  { a with phase := .powerupB, held := false, resetN := true, releaseAt := s.mainReset.now, pins := (pins.bootSel.toNat, pins.chipId.val) }

/-- Its pins sampled, and CC0 running. -/
def State.sampled (s : State) (pins : BootPins) : State :=
  (((s.risen pins).setFld Reg.GDN_STOOK 0 2 pins.chipId).setFld Reg.NVC_BOOTSTAT 16 2 pins.bootSel.toNat).showCore 0 true false

theorem State.release_eq (s : State) (pins : BootPins) :
    s.release pins = (s.sampled pins).advanceCounter.journal 0x01 (pins.bootSel.toNat * 4 + pins.chipId.val) 0 0 := rfl

theorem State.sampled_aon (s : State) (pins : BootPins) : (s.sampled pins).aon =
    { s.aon with phase := .powerupB, held := false, resetN := true, releaseAt := s.now, pins := (pins.bootSel.toNat, pins.chipId.val) } := rfl

theorem State.sampled_flash (s : State) (pins : BootPins) : (s.sampled pins).nv.flash = s.nv.flash := rfl

/-- The pins show as they were sampled. -/
theorem State.fld_sampled (s : State) (pins : BootPins) : (s.sampled pins).fld Reg.GDN_STOOK 0 2 = pins.chipId.val ∧
    (s.sampled pins).fld Reg.NVC_BOOTSTAT 16 2 = pins.bootSel.toNat := by
  unfold State.sampled State.showCore
  dsimp only
  constructor
  · rw [State.fld_setBit_apart _ _ _ _ _ _ _ (.inl (by decide)), State.fld_setBit_apart _ _ _ _ _ _ _ (.inl (by decide)),
      State.fld_setFld_apart _ _ _ _ _ _ _ _ (.inl (by decide)), State.fld_setFld _ _ _ _ _ (by decide)]
    exact Nat.mod_eq_of_lt pins.chipId.isLt
  · rw [State.fld_setBit_apart _ _ _ _ _ _ _ (.inl (by decide)), State.fld_setBit_apart _ _ _ _ _ _ _ (.inl (by decide)),
      State.fld_setFld _ _ _ _ _ (by decide)]
    exact Nat.mod_eq_of_lt pins.bootSel.isLt

/-- After the release step the engine is in POWERUP-B, its pins show, and the journal tells of it. -/
theorem State.release_facts (s : State) (pins : BootPins) (hrun : s.aon.running = true) :
    let t := s.release pins
    t.aon.phase = .powerupB ∧ t.now = s.now ∧ t.aon.held = false ∧ t.chip = pins.chipId.val ∧
      t.fld Reg.NVC_BOOTSTAT 16 2 = pins.bootSel.toNat ∧ t.reg Reg.PWR_CAPMW = State.reset.reg Reg.PWR_CAPMW ∧
      t.newest.map (·.code) = some 1 ∧ t.newest.map (·.arg1) = some (pins.bootSel.toNat * 4 + pins.chipId.val) := by
  obtain ⟨hchip, hsel⟩ := s.fld_sampled pins
  have haon : CopiesAlone (s.sampled pins) (s.release pins) := (CopiesAlone.advanceCounter _).journal _ _ _ _
  have hrunning : (s.sampled pins).advanceCounter.aon.running = true := (State.advanceCounter_running _).trans hrun
  have hnewest := (s.sampled pins).advanceCounter.newest_journal 0x01 (pins.bootSel.toNat * 4 + pins.chipId.val) 0 0 hrunning
  rw [← State.release_eq] at hnewest
  refine ⟨?_, ?_, ?_, ?_, ?_, ?_, by rw [hnewest]; rfl, by rw [hnewest]; rfl⟩
  · rw [haon, State.sampled_aon]
  · exact (s.release_after_mainReset pins).now rfl
  · rw [haon, State.sampled_aon]
  · rw [State.chip, State.release_eq, State.fld_of_reg (State.reg_journal _ _ _ _ _ (by decide)),
      State.fld_advanceCounter _ (by decide) (by decide) (.inl (by decide)), hchip]
  · rw [State.release_eq, State.fld_of_reg (State.reg_journal _ _ _ _ _ (by decide)),
      State.fld_advanceCounter _ (by decide) (by decide) (.inr (by decide)), hsel]
  · exact State.reg_of_fld (s.fld_release pins 32 ⟨by decide, by decide, by decide, .inl (by decide), .inl (by decide)⟩)

/-- The counter advances by 1 below the floor, and gives the incarnation. -/
theorem State.release_mono (s : State) (pins : BootPins) (hmono : s.store.mono ≠ 0) (hfloor : s.store.mono + 1 < s.floor) :
    (s.release pins).store.mono = s.store.mono + 1 ∧ (s.release pins).reg Reg.GDN_INCARN = BitVec.ofNat 32 (s.store.mono + 1) := by
  have hstore : (s.sampled pins).store = s.store := State.store_of_copies rfl
  have hbelow : (s.sampled pins).advanceCounter = ((s.sampled pins).putStore { s.store with mono := s.store.mono + 1 }).setReg Reg.GDN_INCARN
      (BitVec.ofNat 32 (s.store.mono + 1)) := by
    rw [State.advanceCounter_below, hstore]
    · rwa [hstore]
    · rwa [hstore, State.floor_of_flash (s.sampled_flash pins)]
  constructor
  · rw [State.release_eq, State.mono_journal, hbelow, State.store_of_aon (State.setReg_aon _ _ _), State.store_putStore]
  · rw [State.release_eq, State.reg_journal _ _ _ _ _ (by decide), hbelow, State.reg_setReg_self]

/-! ### READY (R498, R526) -/

theorem secApart_memchStat : SecApart Reg.MEMCH_STAT := by unfold SecApart; decide

/-- MEMCH has trained. -/
def State.trained (s : State) : State := s.setBit Reg.MEMCH_STAT 0 true

theorem State.trained_oneReg (s : State) : OneReg Reg.MEMCH_STAT s s.trained := OneReg.refl.setBit _ _

/-- A boot that stops at the boot wait is in ON while on is latched. -/
theorem State.bootWait_facts (s : State) {err : Nat} (herr : err < 256) (hdue : s.aon.tripDue = none) (hlatch : s.aon.latch = true) :
    let t := s.bootWait err
    t.aon.phase = .on ∧ t.bit Reg.NVC_BOOTSTAT 31 = true ∧ t.fld Reg.NVC_BOOTSTAT 0 8 = err ∧ t.reg Reg.MEMCH_STAT = s.reg Reg.MEMCH_STAT := by
  have heq : s.bootWait err = (((s.setFld Reg.NVC_BOOTSTAT 0 8 err).setBit Reg.NVC_BOOTSTAT 31 true).nowOn).readLatch := rfl
  have hregs : (((s.setFld Reg.NVC_BOOTSTAT 0 8 err).setBit Reg.NVC_BOOTSTAT 31 true).nowOn).regs =
      ((s.setFld Reg.NVC_BOOTSTAT 0 8 err).setBit Reg.NVC_BOOTSTAT 31 true).regs := rfl
  rw [heq, State.readLatch_on (s := ((s.setFld Reg.NVC_BOOTSTAT 0 8 err).setBit Reg.NVC_BOOTSTAT 31 true).nowOn) hdue hlatch]
  refine ⟨rfl, ?_, ?_, ?_⟩
  · rw [State.bit_of_reg (State.reg_of_regs hregs _), State.bit_setBit _ _ _ _ (by decide)]
  · rw [State.fld_of_reg (State.reg_of_regs hregs _), State.fld_setBit_apart _ _ _ _ _ _ _ (.inr (by decide)),
      State.fld_setFld _ _ _ _ _ (by decide), Nat.mod_eq_of_lt (by simpa using herr)]
  · rw [State.reg_of_regs hregs, State.reg_setBit_apart _ _ _ (by decide), State.reg_setFld_apart _ _ _ _ (by decide)]

/-- READY without a flash fault goes by the boot pins. -/
theorem exec_ready_fitted {s : State} (hphase : s.aon.phase = .powerupB) (hheld : s.aon.held = false) (hfitted : s.nv.fitted = 0)
    (herr : s.fld Reg.NVC_BOOTSTAT 0 8 ≠ 2) :
    exec (.ready []) s = .next (if s.aon.pins.1 = 2 then s.trained.bootWait 0 else s.trained.bootFlash (s.aon.pins.1 = 0)) := by
  have herr' : s.trained.fld Reg.NVC_BOOTSTAT 0 8 ≠ 2 := by rwa [State.fld_of_reg (s.trained_oneReg.reg (by decide))]
  have hfitted' : s.trained.nv.fitted = 0 := hfitted
  rw [exec_ready, execReady, if_pos (by simp [hphase, hheld]), List.foldl_nil]
  dsimp only
  rw [← State.trained, if_neg herr', hfitted', if_neg (by decide), if_neg (by decide)]
  rfl

/-! ### OFF (R499, R503) -/

/-- The store that was there before OFF is there after it. -/
theorem State.putOff_facts (s : State) (code : Nat) (d : StoreData) :
    let t := (s.enterOff.setLastOff code).putStore d
    t.aon.phase = .off ∧ t.now = s.now ∧ t.aon.offAt = s.now ∧ t.store = d ∧ t.t0 = [] ∧ t.t1 = [] ∧ t.streams = [] := by
  have eff : Eff 0x200000000000000008 s.enterOff ((s.enterOff.setLastOff code).putStore d) :=
    State.putStore_eff ⟨rfl⟩ (State.setLastOff_eff ⟨rfl⟩ .refl)
  have haon : ((s.enterOff.setLastOff code).putStore d).aon =
      { s.enterOff.aon with copies := ((s.enterOff.setLastOff code).putStore d).aon.copies } :=
    CopiesAlone.putStore (s := s.enterOff) (CopiesAlone.refl.of_aon (State.setFld_aon _ _ _ _ _)) d
  refine ⟨by rw [haon, State.enterOff_aon], eff.now rfl, by rw [haon, State.enterOff_aon], State.store_putStore _ _,
    eff.t0 rfl, eff.t1 rfl, eff.streams rfl⟩

theorem exec_powerdownOff_enters {s : State} (h : s.aon.phase = .powerdown) : ∃ code, exec .powerdownOff s =
    .next (((s.reach (s.aon.phaseAt + 5200)).enterOff.setLastOff code).putStore (s.reach (s.aon.phaseAt + 5200)).store) := by
  rw [exec_powerdownOff, execPowerdownOff, if_pos h]
  exact ⟨_, rfl⟩

/-- A loss of supply, before what follows where the always-on domain is left alone. -/
theorem State.supplyLost_facts (s : State) (what : Nat) (hrun : s.aon.running = true) (hphase : s.aon.phase ≠ .off) :
    let t := s.supplyLost what
    t.aon.phase = .off ∧ t.t0 = [] ∧ t.streams = [] ∧ t.fld Reg.GLOBAL_PWRSTAT 8 4 = 5 ∧
      t.newest.map (fun e => (e.code, e.arg1)) = some (5, what) := by
  have heq : s.supplyLost what = (s.enterOff.setLastOff 5).journal 0x05 what 0 0 := if_neg hphase
  have eff : Eff 0x200000000000000008 s.enterOff ((s.enterOff.setLastOff 5).journal 0x05 what 0 0) :=
    State.journal_eff ⟨rfl⟩ (State.setLastOff_eff ⟨rfl⟩ .refl)
  have haon : CopiesAlone s.enterOff ((s.enterOff.setLastOff 5).journal 0x05 what 0 0) :=
    (CopiesAlone.refl.of_aon (State.setFld_aon _ _ _ _ _)).journal _ _ _ _
  have hrunning : (s.enterOff.setLastOff 5).aon.running = true := hrun
  rw [heq]
  refine ⟨by rw [haon, State.enterOff_aon], eff.t0 rfl, eff.streams rfl, ?_, ?_⟩
  · rw [State.fld_of_reg (State.reg_journal_below _ _ _ _ _ (by decide)), State.setLastOff]
    exact (State.fld_setFld _ _ _ _ _ (by decide)).trans (Nat.mod_eq_of_lt (by decide))
  · rw [State.newest_journal _ _ _ _ _ hrunning]
    rfl

/-- The supply of the always-on domain is left alone. -/
def State.supplyGone (s : State) : State := (s.setBit Reg.GLOBAL_PWRSTAT 2 false).updAon fun a => { a with pgood := false }

theorem exec_supplyLoss_loses {s : State} (aonToo : Bool) (hrun : s.aon.running = true) (hphase : s.aon.phase ≠ .off) :
    exec (.supplyLoss aonToo) s = .next (if aonToo then s.supplyLost 2 else (s.supplyLost 1).supplyGone) := by
  rw [exec_supplyLoss, execSupplyLoss, if_neg (by simp [hrun, hphase])]
  rfl

/-- What shows that POWERUP-A begins. -/
def State.poweringUp (s : State) : State :=
  ((s.reach (s.aon.offAt + 20000)).setBit Reg.GLOBAL_PWRSTAT 2 true).updAon fun a =>
    { a with pgood := true, phase := .powerupA, phaseAt := (s.reach (s.aon.offAt + 20000)).now }

theorem exec_powerupStart_begins {s : State} (hrun : s.aon.running = true) (hcell : s.aon.onCell = none) (hphase : s.aon.phase = .off)
    (hlatch : s.aon.latch = true) (hhold : s.aon.tripHold = false) : exec .powerupStart s = .next s.poweringUp := by
  rw [exec_powerupStart, execPowerupStart, if_pos (by simp [hrun, hcell, hphase, hlatch, hhold])]
  rfl

theorem exec_powerupStart_idle {s : State} (h : s.aon.phase ≠ .off ∨ s.aon.latch = false ∨ s.aon.tripHold = true) :
    exec .powerupStart s = .next s := by
  rw [exec_powerupStart, execPowerupStart, if_neg]
  rcases h with h | h | h <;> simp [h]

/-- Settles O48: each request is one update of the state, whose parts the lemmas above name. -/
theorem powerStatesFollowTheirRequests : Obligations.PowerStatesFollowTheirRequests := by
  intro s hrun
  refine ⟨⟨_, exec_onReqChange_running true hrun, s.bit_latched true, rfl⟩, ⟨_, exec_onReqChange_running false hrun, s.latched_ended hrun⟩,
    fun hcell hphase hlatch hhold => ⟨_, exec_powerupStart_begins hrun hcell hphase hlatch hhold, rfl, le_max_right _ _, rfl⟩,
    exec_powerupStart_idle, fun pins hphase => ?release, fun hphase hheld hfitted herr hdue hlatch => ?ready, fun hphase => ?off,
    fun aonToo hphase => ?loss⟩
  case release =>
    have hexec : exec (.releaseStep pins) s = .next ((s.reach (s.aon.phaseAt + 200)).release pins) := by
      rw [exec_releaseStep, execReleaseStep, if_pos hphase]
    have eff := (s.reach (s.aon.phaseAt + 200)).release_after_mainReset pins
    obtain ⟨hb, hnow, hheld, hchip, hsel, hcap, hcode, harg⟩ := (s.reach (s.aon.phaseAt + 200)).release_facts pins hrun
    exact ⟨_, hexec, hb, hnow ▸ le_max_right _ _, hheld, hchip, hsel, eff.t0 rfl, eff.t1 rfl, eff.streams rfl, eff.active rfl, hcap, hcode, harg,
      (s.reach (s.aon.phaseAt + 200)).release_mono pins⟩
  case ready =>
    have hexec := exec_ready_fitted hphase hheld hfitted herr
    have hone := s.trained_oneReg
    have hslot := hone.chooseSlot secApart_memchStat false []
    refine ⟨fun hpins => ?_, fun hpins hnone => ?_, fun i f hpins hsome => ?_⟩
    · rw [if_pos hpins] at hexec
      obtain ⟨hon, hwait, -, hmem⟩ := s.trained.bootWait_facts (err := 0) (by decide) hdue hlatch
      exact ⟨_, hexec, hon, hwait, (State.bit_of_reg hmem 0).trans (State.bit_setBit _ _ _ _ (by decide))⟩
    · rw [if_neg (by omega), State.bootFlash, hslot, hnone] at hexec
      obtain ⟨hon, hwait, hcause, -⟩ := s.trained.bootWait_facts (err := 3) (by decide) hdue hlatch
      exact ⟨_, hexec, hon, hwait, hcause⟩
    · rw [if_neg (by omega), State.bootFlash, hslot, hsome] at hexec
      obtain ⟨hready, hwait, hgen, -, -, hon⟩ := s.trained.bootWith_facts f i 3
      have hplain : exec (.ready []) s = .next (s.trained.bootWith f i none 3) := by simpa [hpins] using hexec
      exact ⟨_, hplain, hon hdue hlatch, hready, hwait, hgen⟩
  case off =>
    obtain ⟨code, hexec⟩ := exec_powerdownOff_enters hphase
    obtain ⟨hoff, hnow, hat, hstore, ht0, ht1, hstreams⟩ :=
      (s.reach (s.aon.phaseAt + 5200)).putOff_facts code (s.reach (s.aon.phaseAt + 5200)).store
    exact ⟨_, hexec, hoff, hnow ▸ le_max_right _ _, hat.trans hnow.symm, hstore, ht0, ht1, hstreams⟩
  case loss =>
    refine ⟨_, exec_supplyLoss_loses aonToo hrun hphase, ?_⟩
    cases aonToo with
    | true => exact s.supplyLost_facts 2 hrun hphase
    | false =>
      obtain ⟨hoff, ht0, hstreams, hcause, hnewest⟩ := s.supplyLost_facts 1 hrun hphase
      refine ⟨hoff, ht0, hstreams, ?_, ?_⟩
      · rw [if_neg (by decide), State.supplyGone, State.fld_updAon, State.fld_setBit_apart _ _ _ _ _ _ _ (.inr (by decide)), hcause]
      · exact hnewest

end Sys2Proof.Machine
end
